-- ==== Sys2Proof/Word.lean ====
section
/-!
DEFINITION. The words of the module: bytes, and the 32-bit registers of R7.
-/
namespace Sys2Proof

/-- A byte of memory or of a frame. -/
abbrev Byte := BitVec 8

/-- A register word (R7: registers are 32 bits wide and little-endian). -/
abbrev Word := BitVec 32

end Sys2Proof
end

