-- ==== Sys2Proof/Syntax.lean ====
section
/-!
DEFINITION. The commands of the block: the 346 rows of spec/opcode_table.json, one constructor each, with the operands
that an access or an outside event carries. An access names its requester; a row that is a write or a read of one
register carries the requester, the instance and the value written. An event of the module's own (a tick start, an
expiry) carries only what names the unit it happens in.
-/
namespace Sys2Proof

/-- Who makes a register access (R398, R485): a steward core, PF0 through the host port, the partner over the twin link, a
virtual function's tenant, the debug port, or the boot loader applying the station image (R439). -/
inductive Requester where
  | core (c : Fin 4)
  | pf0
  | twin
  | vf (v : Fin 512)
  | debug
  | loader
deriving DecidableEq, Repr

/-- An access to the module address map (R33): a write carries its value. -/
structure Access where
  req : Requester
  addr : BitVec 40
  write : Option Word
  /-- The upper word of a write of one unit of eight bytes in a single transaction (R383). -/
  high : Option Word := none
deriving DecidableEq, Repr

/-- A decoded IRIG-B frame (R65), as the input with POL taken into account gives it: how long before this cycle the on-time edge
of its reference marker lay, in units of 2⁻¹⁶ of a CK_M cycle, the format code, whether every marker stood and the length was consistent, and its digits and fields. -/
structure IrigFrame where
  ago : Nat
  code : Fin 8
  markers : Bool
  lengthOk : Bool
  secU : Nat
  secT : Nat
  minU : Nat
  minT : Nat
  hrU : Nat
  hrT : Nat
  dayU : Nat
  dayT : Nat
  dayH : Nat
  yrU : Nat
  yrT : Nat
  sbs : Nat
  cf : Nat
deriving DecidableEq, Repr

/-- What the delimiter of an arriving MAC packet says (R80, R86): a frame sent whole, the start fragment of a preemptable frame with
its frame count, or a continuation fragment with its frame count and fragment count (IEEE 802.3). -/
inductive PacketKind where
  | whole
  | start (frame : Fin 4)
  | cont (frame : Fin 4) (frag : Fin 4)
deriving DecidableEq, Repr

/-- One MAC packet at the pads: its octets through its check, whether that check is the frame's FCS or an mCRC, and how long after
the frame's first bit its own first bit comes, in units of 2⁻¹⁶ ns. -/
structure Packet where
  kind : PacketKind
  octets : List Byte
  final : Bool
  after : Nat
deriving DecidableEq, Repr

/-- A frame at the pads of an external port, which begins in this cycle: how far into the cycle its first bit after the delimiter
falls (2⁻¹⁶ of a cycle, R56), its first packet and the fragments that continue it (R85, R86). -/
structure RxFrame where
  sub : Fin 65536
  first : Packet
  more : List Packet
deriving DecidableEq, Repr

/-- A descriptor ring pair of I2 (R94): a steward ring, or the ring of an instance's tenant. -/
inductive Ring where
  | steward (r : Fin 4)
  | tenant (v : Fin 512)
deriving DecidableEq, Repr

/-- An entry of a virtual function's MSI-X table: message address and data, and the vector's mask, which is set at reset (R376; PRESUMED,
log entry 62). -/
structure MsixEntry where
  addr : BitVec 64 := 0
  data : Word := 0
  mask : Bool := true
deriving DecidableEq, Repr

/-- What a configuration write of the host sets (R374, R376, R398): NumVFs, or the Memory Space Enable, Bus Master Enable or
MSI-X Function Mask of a function, `none` naming PF0 and `some v` the virtual function of VIv. -/
inductive PcieCfg where
  /-- Entry `k` of the MSI-X table of function `f` (R376; log entry 62). -/
  | msix (f : Fin 512) (k : Fin 4) (e : MsixEntry)
  | numVfs (n : Fin 513)
  | mse (f : Option (Fin 512)) (on : Bool)
  | bme (f : Option (Fin 512)) (on : Bool)
  | fmask (f : Option (Fin 512)) (on : Bool)
deriving DecidableEq, Repr

/-- A message of the pair as it arrives on twin port T`port` (R454–R456): how long before this cycle the first bit of its frame
came to the pad, in units of 2⁻¹⁶ of a CK_M cycle, and its 16-byte header and payload. -/
structure TwinRx where
  port : Fin 2
  ago : Nat
  octets : List Byte
deriving DecidableEq, Repr


/-- The commands of the block: one constructor per row of spec/opcode_table.json, in its order. -/
inductive Instr where
  /-- REGISTER_WRITE (R10): A write to a register field that has no row of its own takes effect as its access code and field description state, or is discarded with the block's refusal handling. -/
  | registerWrite (req : Requester) (addr : BitVec 40) (v : Word)
  /-- READ_CLEAR_ACCESS (R11): A read of an RC field returns its value at the start of the cycle and clears it, keeping any same-cycle event contribution. -/
  | readClearAccess (req : Requester) (addr : BitVec 40)
  /-- DARK_PAGE_ACCESS (R28): An access to a dark domain's page reads 0 or discards the write and is reported through the event controller. -/
  | darkPageAccess (a : Access)
  /-- DORMANT_PAGE_ACCESS (R29): An access to a dormant domain's page is held and starts the domain's wake. -/
  | dormantPageAccess (a : Access)
  /-- DOMAIN_WAKE_DONE (R29): A dormant domain completes its wake within 50 µs, and held accesses complete. -/
  | domainWakeDone (pd : Fin 16)
  /-- UNASSIGNED_ADDRESS_ACCESS (R34): An access to an unassigned address returns 0 or is discarded for a steward core, or completes with Unsupported Request through the host port, and is logged on ES2. -/
  | unassignedAddressAccess (a : Access)
  /-- TICK_START (R22): The governing base reaches a tick's representation, and the tick-start event is raised with its tick number and lateness. -/
  | tickStart
  /-- RATE_WRITE (R41): A write of a base's RATE is limited to ±200 ppm, sets RATE_CLAMP if limited, clears HOLDOVER for TB_0 and applies from the next cycle. -/
  | rateWrite (req : Requester) (b : Fin 4) (v : Word)
  /-- SLEW_WRITE (R42): A write of a base's slew register replaces any slew in progress, and a write of 0 cancels it. -/
  | slewWrite (req : Requester) (b : Fin 4) (v : Word)
  /-- SLEW_PPM_WRITE (R42): A write of SLEW_PPM changes the slew rate applied to the amount still to be applied. -/
  | slewPpmWrite (req : Requester) (b : Fin 4) (v : Word)
  /-- SLEW_DONE (R42): The last slew contribution is added, and SLEW_DONE is set in the following cycle with the house-clock event. -/
  | slewDone (b : Fin 4)
  /-- HOLDOVER_ENTRY (R47): HC_HOLD_WD ms pass without a write to TB_0's RATE, slew or command, and TB_0 takes AVG as RATE, cancels the slew and sets HOLDOVER. -/
  | holdoverEntry
  /-- TB0_SECOND_START (R47): TB_0's seconds field changes, and AVG is updated and pending leap flags are applied to UTC_OFS. -/
  | tb0SecondStart
  /-- HC_CTRL_WRITE (R45): A write of HC_CTRL takes its fields, except that a GOV differing while GOV_LOCK is set is discarded with the house-clock event. -/
  | hcCtrlWrite (req : Requester) (v : Word)
  /-- TIME_SNAPSHOT (R48): A read of a base's SEC_LO latches its whole value and the cycle count into the requester's snapshot. -/
  | timeSnapshot (req : Requester) (b : Fin 4)
  /-- STAGING_WRITE (R51): A write of a base's staging register is stored, or is discarded with REFUSED and cause BUSY while a commit is pending. -/
  | stagingWrite (req : Requester) (b : Fin 4) (k : Fin 5) (v : Word)
  /-- COMMIT_ABS (R49): COMMIT_ABS stages an absolute value to apply at the commit instant, unless refused as INVALID, BUSY or STEP_LOCK. -/
  | commitAbs (req : Requester) (b : Fin 4)
  /-- COMMIT_REL (R49): COMMIT_REL stages a signed offset to apply at the commit instant, unless refused as INVALID, BUSY or STEP_LOCK. -/
  | commitRel (req : Requester) (b : Fin 4)
  /-- CANCEL (R51): CANCEL withdraws a pending commit without setting DONE or REFUSED. -/
  | hcCancel (req : Requester) (b : Fin 4)
  /-- COMMIT_APPLY (R50): The base reaches the commit instant, the commit replaces the next cycle's value, and DONE and SET are set. -/
  | commitApply (b : Fin 4)
  /-- PPS_IN_EDGE (R64): A PPS_IN edge is stamped if it starts a level held for MINW_US, and is otherwise rejected and counted. -/
  | ppsInEdge (rising : Bool) (sub : Fin 65536) (heldUs : Nat)
  /-- IRIG_FRAME (R65): An IRIG-B frame completes, and its marker stamp and decoded fields are loaded together, or the frame is counted in ERR. -/
  | irigFrame (f : IrigFrame)
  /-- PPS_OUT_RISE (R66): PPS_OUT rises at a second start of the selected base unless GATE suppresses it. -/
  | ppsOutRise
  /-- PPS_OUT_FALL (R66): PPS_OUT falls after WIDTH_MS ms. -/
  | ppsOutFall
  /-- PPS_GROUP_LATCH (R67): A read of HC_PPS_SEC_LO or HC_IRIG_SEC_LO latches its whole group for the requester. -/
  | ppsGroupLatch (req : Requester) (irig : Bool)
  /-- PT_CTRL_WRITE (R71): A write of MODE, FEC, AN_EN or MAXLEN while EN is 1 is discarded with the port event, and an unlisted MODE is stored as the reset MODE. -/
  | ptCtrlWrite (req : Requester) (p : Fin 22) (v : Word)
  /-- PORT_ENABLE (R92): EN is set in a powered domain, and the port goes from OFF to DOWN. -/
  | portEnable (req : Requester) (p : Fin 19)
  /-- PORT_DISABLE (R128): EN is cleared, the port enters OFF, and its queues are flushed with FLUSH and TX_ABORT counts. -/
  | portDisable (req : Requester) (p : Fin 19)
  /-- AN_DONE (R70): Auto-negotiation or the SGMII exchange completes, AN_DONE is set, and the UP_HOLD_MS hold can begin. -/
  | anDone (p : Fin 19) (speed : Fin 3)
  /-- LINK_UP (R92): PCS lock and negotiation have held for UP_HOLD_MS, and the port enters UP. -/
  | linkUp (p : Fin 19)
  /-- PCS_LOCK_LOSS (R93): PCS lock is lost, the port enters DOWN, LINK_DOWN is counted, a frame in reception is discarded, and the grace timer starts. -/
  | pcsLockLoss (p : Fin 19) (negotiation : Bool)
  /-- GRACE_EXPIRY (R127): The grace timer ends with the port still DOWN, and its queues are flushed. -/
  | graceExpiry (p : Fin 19)
  /-- FRAME_RECEIVE (R72): A frame received on an external port is stamped, its release cycle is fixed, and it is screened for size, FCS and MAC control. -/
  | frameReceive (p : Fin 19) (rx : RxFrame)
  /-- PAUSE_FRAME_RX (R90): A valid PAUSE frame starts, renews or ends a pause of the port's egress releases. -/
  | pauseFrameRx (p : Fin 19)
  /-- PAUSE_END (R90): The pause time has run out, and egress releases resume. -/
  | pauseEnd (p : Fin 19)
  /-- PAUSE_WATCHDOG (R91): A pause has lasted WD_US, the watchdog ends it, sets PAUSE_BROKEN and ignores further PAUSE frames. -/
  | pauseWatchdog (p : Fin 19)
  /-- PAUSE_REARM (R91): PT_CMD.PAUSE_REARM makes the port obey PAUSE again and clears PAUSE_BROKEN. -/
  | pauseRearm (req : Requester) (p : Fin 19)
  /-- DORMANT (R89): PT_CMD.DORMANT moves an UP process or station port to DORMANT, or is discarded with the port event. -/
  | ptDormant (req : Requester) (p : Fin 19)
  /-- WAKE (R89): PT_CMD.WAKE starts a DORMANT port's return to UP, or is discarded with the port event. -/
  | ptWake (req : Requester) (p : Fin 19)
  /-- PORT_WAKE_DONE (R89): A woken port returns to UP within 50 µs. -/
  | portWakeDone (p : Fin 19)
  /-- PREEMPT_EN_WRITE (R82): A write of PT_PREEMPT.EN activates or deactivates preemption or starts the verify handshake. -/
  | preemptEnWrite (req : Requester) (p : Fin 19) (v : Word)
  /-- VERIFY_MPACKET_SEND (R82): The port sends a verify mPacket at the handshake start or VERIFY_MS after the previous one. -/
  | verifyMpacketSend (p : Fin 19)
  /-- RESPOND_MPACKET_RX (R82): A respond mPacket received while VERIFYING makes the status SUCCEEDED and activates preemption. -/
  | respondMpacketRx (p : Fin 19) (sub : Fin 65536)
  /-- VERIFY_MPACKET_RX (R82): A verify mPacket from the partner is answered while EN is 1. -/
  | verifyMpacketRx (p : Fin 19)
  /-- VERIFY_FAIL (R82): VERIFY_MS pass after the third verify mPacket without a response, and the status becomes FAILED. -/
  | verifyFail (p : Fin 19)
  /-- OCTET_COUNTER_LATCH (R101): A read of RX_OCT_LO or TX_OCT_LO latches its HI half for the requester. -/
  | octetCounterLatch (req : Requester) (p : Fin 22) (tx : Bool)
  /-- RING_REG_WRITE (R104): A write of a ring base or size while SIZE is non-zero is discarded, and an invalid SIZE disables the ring with the port event. -/
  | ringRegWrite (req : Requester) (r : Ring) (k : Fin 9) (v : Word)
  /-- RING_RX_DELIVER (R95): A frame copy to I2 is written into the module-owned receive descriptors of its ring, or is truncated or dropped. -/
  | ringRxDeliver (upTo : Option (Fin 4096))
  /-- RING_TX_FETCH (R100): A transmit frame whose descriptors are all module-owned is fetched, padded, checked and handed to the Hall, and results are written to its EOP descriptor. -/
  | ringTxFetch (r : Ring)
  /-- TENANT_FRAME_ENTRY (R390): A tenant ring frame waiting on its gate, bucket or share enters the Hall as soon as it fits. -/
  | tenantFrameEntry (v : Fin 512)
  /-- CLASSIFICATION (R108): The lookup window is released, and the frame is classified, duplicate-checked and given its copy set and class by lookup done. -/
  | classification (fid : Nat)
  /-- LARDER_COMPLETE (R285): The frame's last byte is in the Larder, unused reserved cells return, and stored copies become eligible for release. -/
  | larderComplete (fid : Nat)
  /-- EGRESS_RELEASE (R74): The MAC can begin a frame, the port serves its queues in class order after lifetime and generation checks, and the first bit leaves D_OUT later. -/
  | egressRelease (p : Fin 19)
  /-- LIFETIME_SCRUB (R124): Every SCRUB_US, the queue heads of ports that cannot transmit are examined for lifetime. -/
  | lifetimeScrub
  /-- HL_RED_WRITE (R129): A write of a redundancy pair MODE while either port is enabled is discarded with the Hall event. -/
  | hlRedWrite (req : Requester) (k : Fin 8) (v : Word)
  /-- FRAME_ACCEPTANCE (R286): At the acceptance cycle A, the subscribed frame's tag result and the checks of R151 decide rejection or delivery to alignment or operand slots. -/
  | frameAcceptance (fid : Nat)
  /-- GOOSE_TAL_EXPIRY (R147): The governing base passes a subscription's live limit, the subscription enters DEPARTED and its slots are marked invalid. -/
  | gooseTalExpiry (e : Fin 16384)
  /-- VEST_AGE_EXPIRY (R156): A Vestibule observation reaches its last stamp plus VEST_AGE_S and is removed. -/
  | vestAgeExpiry (j : Fin 256)
  /-- SB_TBL_READ (R158): READ loads a classification entry into SB_TBL_DATA0–15. -/
  | sbTblRead (req : Requester)
  /-- SB_TBL_WRITE (R140): WRITE installs a classification entry between lookups, resets its state and counters, and removes matching Vestibule observations. -/
  | sbTblWrite (req : Requester)
  /-- SB_TBL_INVALIDATE (R140): INVALIDATE removes a classification entry between lookups and resets its state and counters. -/
  | sbTblInvalidate (req : Requester)
  /-- SB_MAP_READ (R158): READ loads a member-map entry into SB_MAP_DATA0–1. -/
  | sbMapRead (req : Requester)
  /-- SB_MAP_WRITE (R158): WRITE stores a member-map entry. -/
  | sbMapWrite (req : Requester)
  /-- SB_VEST_READ (R157): READ loads a Vestibule entry into SB_VEST_DATA0–15. -/
  | sbVestRead (req : Requester)
  /-- SB_VEST_REMOVE (R158): REMOVE deletes a Vestibule observation. -/
  | sbVestRemove (req : Requester)
  /-- SB_ST_LATCH (R158): A write of SB_ST_IDX latches the entry's state into SB_ST0–7 and clears its counters. -/
  | sbStLatch (req : Requester) (v : Word)
  /-- DISC_RECORD_POP (R158): A read of SB_DISC_W3 removes the discovery record shown. -/
  | discRecordPop (req : Requester)
  /-- DISC_POST (R158): A write of SB_DISC_POST3 queues POST0–3 as a discovery record. -/
  | discPost (req : Requester) (v : Word)
  /-- SB_SIM_WRITE (R152): A write clearing SB_CTRL.SIM clears every SIM_SRC in one cycle. -/
  | sbSimWrite (req : Requester) (v : Word)
  /-- PANTRY_WRITE (R167): A sample's turn on its write port comes, and it is converted and written to the Pantry and inboxes, or is found LATE, a duplicate or streamless in 1 cy. -/
  | pantryWrite (bank : Option (Fin 4))
  /-- CLOSURE_PASS (R171): At a group's closure cycle, missing streams are concealed or made ABSENT, every record is closed, MISS is updated and the set mark is handed on. -/
  | closurePass
  /-- AL_STR_READ (R185): READ loads a stream descriptor into AL_STR_DATA0–15. -/
  | alStrRead (req : Requester)
  /-- AL_STR_WRITE (R166): WRITE installs a stream descriptor from the next tick, or changes CMASK and SCALE of a valid one, or is discarded with the alignment event. -/
  | alStrWrite (req : Requester)
  /-- AL_STR_INVALIDATE (R166): INVALIDATE stops writes and closures of the stream from the next tick-start event. -/
  | alStrInvalidate (req : Requester)
  /-- AL_CNT_LATCH (R185): A write of AL_CNT_IDX latches the stream's counters into AL_CNT0–2 and clears them. -/
  | alCntLatch (req : Requester) (v : Word)
  /-- AL_CTRL_WRITE (R185): Clearing AL_CTRL.EN abandons open sets and stops all writes and marks, and setting it reopens sets from the next tick. -/
  | alCtrlWrite (req : Requester) (v : Word)
  /-- AL_GROUP_WRITE (R168): A write of a group's W or FNOM applies to ticks starting after the write. -/
  | alGroupWrite (req : Requester) (g : Fin 64) (v : Word)
  /-- ACQ_SAMPLE_COMPLETE (R195): A bank sample is complete 96 cy after its completing edge, and its Pantry write, buffer entry and publication hand-over begin 4 cy later. -/
  | acqSampleComplete (b : Fin 4) (bits : List (List Bool)) (ovr : BitVec 8)
  /-- CLAMP_CONDUCTION (R200): A pair's clamp detector reports conduction, CLAMP status is set and the first conduction of an episode raises the acquisition event. -/
  | clampConduction (ch : Fin 24)
  /-- CLAMP_END (R200): Clamp conduction ends, and the partner channel starts settling under cause CLAMP. -/
  | clampEnd (ch : Fin 24)
  /-- COMPARATOR_EDGE (R204): A window comparator edge is stamped to 1 ns and sent to the trigger unit and the channel's stamp queue, or counted in TDC_LOST. -/
  | comparatorEdge (ch : Fin 24) (sub : Fin 65536) (uv : Int)
  /-- TDC_POP (R209): A read of AQ_TDC_W3 removes the oldest stamp of the selected channel. -/
  | tdcPop (req : Requester)
  /-- AQ_BANK_WRITE (R192): A write of PRESET, NOTCH or buffer registers while the bank is enabled is discarded with REFUSED. -/
  | aqBankWrite (req : Requester) (b : Fin 4) (k : Fin 4) (v : Word)
  /-- AQ_CH_CFG_WRITE (R198): A channel write changing EN, SRC or PHASE marks the channel with its settle cause. -/
  | aqChCfgWrite (req : Requester) (ch : Fin 32) (v : Word)
  /-- AQ_CTRL_WRITE (R198): A write of AQ_CTRL.EN starts or stops the synthesiser and all banks, and enabling marks channels with cause ENABLE. -/
  | aqCtrlWrite (req : Requester) (v : Word)
  /-- SLOTTED_START (R219): At OFFSET of a due tick a slotted task starts, is skipped for fence or halt, and its operands are copied to the entry area. -/
  | slottedStart (t : Fin 8192)
  /-- GENERAL_PORT_MARK (R217): A queued mark request takes the general port, and the slot's VALUE, QUAL, STAMP, GEN, FRESH and WRITTEN are written. -/
  | generalPortMark
  /-- DEADLINE_PASS (R229): A pending run's deadline passes, and the run becomes ready with its missing operands absent and TIMEOUT counted. -/
  | deadlinePass (t : Fin 8192)
  /-- READY_START (R223): The cluster's dispatcher starts the earliest-deadline ready run that its budget, flow and a lane with room allow. -/
  | readyStart (c : Fin 32)
  /-- RUN_END (R242): A run reaches start + COST, its staged K_POST results are requested, and its lane becomes free. -/
  | runEnd (l : Fin 256)
  /-- COST_OVER_STOP (R212): A run not ended at start + COST is stopped as a lane fault and counted in COST_OVER. -/
  | costOverStop (l : Fin 256)
  /-- TIMER_ARM_APPLY (R228): A queued arm is applied, setting the timer's expiry instant and watch. -/
  | timerArmApply
  /-- TIMER_CANCEL_APPLY (R228): A queued cancel is applied, setting the timer CANCELLED. -/
  | timerCancelApply
  /-- TIMER_EXPIRY (R229): The base passes a timer's expiry instant, and the timer fires and requests its TSLOT mark, or is cancelled by its watch or generation. -/
  | timerExpiry (j : Fin 16384)
  /-- DS_TASK_READ (R235): READ loads a task descriptor into DS_TASK_DATA0–7. -/
  | dsTaskRead (req : Requester)
  /-- DS_TASK_WRITE (R233): WRITE of a task descriptor takes effect at the next raised tick-start, or is discarded if it breaks slotted rules. -/
  | dsTaskWrite (req : Requester)
  /-- DS_TASK_INVALIDATE (R233): INVALIDATE of a task drops its pending run and takes effect at the next raised tick-start. -/
  | dsTaskInvalidate (req : Requester)
  /-- DS_SLOT_READ (R235): READ loads an operand slot into DS_SLOT_DATA0–7. -/
  | dsSlotRead (req : Requester)
  /-- DS_SLOT_WRITE (R233): WRITE of a slot takes effect between two marks and clears FRESH and WRITTEN. -/
  | dsSlotWrite (req : Requester)
  /-- DS_TMR_READ (R235): READ loads a timer entry into DS_TMR_DATA0–3. -/
  | dsTmrRead (req : Requester)
  /-- ARM (R228): DS_TMR_CMD ARM queues an arm of the indexed timer with DS_TMR_DELAY. -/
  | dsArm (req : Requester)
  /-- DS_TMR_CANCEL (R228): DS_TMR_CMD CANCEL queues a cancel of the indexed timer. -/
  | dsTmrCancel (req : Requester)
  /-- DS_CNT_LATCH (R235): A write of DS_CNT_IDX latches the task's counters into DS_TCNT0–1 and clears them. -/
  | dsCntLatch (req : Requester) (v : Word)
  /-- DS_FLOW_LATCH (R235): A write of DS_FLOW_IDX latches the flow's state into DS_FLOW_STAT. -/
  | dsFlowLatch (req : Requester) (v : Word)
  /-- K_NOP (R255): Kernel 0x00 does nothing for 1 cy. -/
  | kNop (l : Fin 256)
  /-- K_END (R242): Kernel 0x01 ends the run, and the lane stays busy until start + COST and counts SHORT if early. -/
  | kEnd (l : Fin 256)
  /-- K_GATH (R250): Kernel 0x02 gathers N quantities from inbox records of a SET operand, delivering absent items as R250 states. -/
  | kGath (l : Fin 256)
  /-- K_OPND (R255): Kernel 0x03 delivers one operand as an item according to its kind. -/
  | kOpnd (l : Fin 256)
  /-- K_MOVE (R255): Kernel 0x04 copies N units. -/
  | kMove (l : Fin 256)
  /-- K_CONST (R255): Kernel 0x05 produces a constant item from PARAM. -/
  | kConst (l : Fin 256)
  /-- K_SKIP (R241): Kernel 0x06 skips the next N invocations when its BOOL equals M[0]. -/
  | kSkip (l : Fin 256)
  /-- K_QSEL (R255): Kernel 0x07 selects main or backup items by usability. -/
  | kQsel (l : Fin 256)
  /-- K_CONV (R247): Kernel 0x08 converts items between types. -/
  | kConv (l : Fin 256)
  /-- K_ADD (R255): Kernel 0x09 adds items. -/
  | kAdd (l : Fin 256)
  /-- K_SUB (R255): Kernel 0x0A subtracts items. -/
  | kSub (l : Fin 256)
  /-- K_MUL (R255): Kernel 0x0B multiplies items. -/
  | kMul (l : Fin 256)
  /-- K_MAC (R255): Kernel 0x0C computes A × PARAM + B. -/
  | kMac (l : Fin 256)
  /-- K_ABS (R255): Kernel 0x0D takes absolute values. -/
  | kAbs (l : Fin 256)
  /-- K_MINMAX (R255): Kernel 0x0E selects the minimum or maximum of N items. -/
  | kMinmax (l : Fin 256)
  /-- K_DIV (R255): Kernel 0x0F divides with a small-divisor guard. -/
  | kDiv (l : Fin 256)
  /-- K_DFT (R257): Kernel 0x10 updates full-cycle phasors recursively on the grid angle reference. -/
  | kDft (l : Fin 256)
  /-- K_HDFT (R255): Kernel 0x11 computes half-cycle phasors. -/
  | kHdft (l : Fin 256)
  /-- K_HARM (R255): Kernel 0x12 computes harmonic ratios. -/
  | kHarm (l : Fin 256)
  /-- K_RMS (R255): Kernel 0x13 computes true rms over W. -/
  | kRms (l : Fin 256)
  /-- K_SEQ (R255): Kernel 0x14 computes sequence components. -/
  | kSeq (l : Fin 256)
  /-- K_PWR (R255): Kernel 0x15 computes P, Q and S. -/
  | kPwr (l : Fin 256)
  /-- K_FREQ (R255): Kernel 0x16 estimates frequency from phase advance. -/
  | kFreq (l : Fin 256)
  /-- K_ROCOF (R255): Kernel 0x17 computes the rate of change of frequency. -/
  | kRocof (l : Fin 256)
  /-- K_CPLX (R255): Kernel 0x18 performs complex arithmetic on phasors. -/
  | kCplx (l : Fin 256)
  /-- K_POLAR (R255): Kernel 0x19 converts phasors to magnitudes and angles. -/
  | kPolar (l : Fin 256)
  /-- K_BIQ (R255): Kernel 0x1A runs one biquad per channel. -/
  | kBiq (l : Fin 256)
  /-- K_DERIV (R255): Kernel 0x1B computes scaled differences. -/
  | kDeriv (l : Fin 256)
  /-- K_PSUM (R255): Kernel 0x1C sums phasors. -/
  | kPsum (l : Fin 256)
  /-- K_DELAY (R255): Kernel 0x1D delays items by M runs. -/
  | kDelay (l : Fin 256)
  /-- K_INTEG (R255): Kernel 0x1E integrates in binary64 with reset. -/
  | kInteg (l : Fin 256)
  /-- K_MEAN (R255): Kernel 0x1F computes means over M runs. -/
  | kMean (l : Fin 256)
  /-- K_DIFF (R255): Kernel 0x20 computes biased differential operate decisions. -/
  | kDiff (l : Fin 256)
  /-- K_REST (R255): Kernel 0x21 computes harmonic restraint blocks. -/
  | kRest (l : Fin 256)
  /-- K_IMP (R255): Kernel 0x22 computes six loop impedances. -/
  | kImp (l : Fin 256)
  /-- K_ZONE (R255): Kernel 0x23 tests impedances against a quadrilateral zone. -/
  | kZone (l : Fin 256)
  /-- K_DIR (R255): Kernel 0x24 decides direction. -/
  | kDir (l : Fin 256)
  /-- K_CMP (R255): Kernel 0x25 compares with pickup and dropout. -/
  | kCmp (l : Fin 256)
  /-- K_IDMT (R256): Kernel 0x26 integrates inverse-time curves and operates at 1. -/
  | kIdmt (l : Fin 256)
  /-- K_THERM (R255): Kernel 0x27 updates a thermal model. -/
  | kTherm (l : Fin 256)
  /-- K_SYNC (R255): Kernel 0x28 performs a synchronism check. -/
  | kSync (l : Fin 256)
  /-- K_POSN (R255): Kernel 0x29 evaluates switch positions and discrepancy. -/
  | kPosn (l : Fin 256)
  /-- K_LOCK (R255): Kernel 0x2A detects motor start and locked rotor. -/
  | kLock (l : Fin 256)
  /-- K_REF (R255): Kernel 0x2B computes restricted earth fault. -/
  | kRef (l : Fin 256)
  /-- K_VHZ (R255): Kernel 0x2C computes volts per hertz. -/
  | kVhz (l : Fin 256)
  /-- K_CAPB (R255): Kernel 0x2D computes capacitor bank unbalance. -/
  | kCapb (l : Fin 256)
  /-- K_CNT (R255): Kernel 0x2E counts edges up and down. -/
  | kCnt (l : Fin 256)
  /-- K_PWL (R255): Kernel 0x2F evaluates a piecewise-linear characteristic. -/
  | kPwl (l : Fin 256)
  /-- K_AND (R255): Kernel 0x30 ANDs booleans. -/
  | kAnd (l : Fin 256)
  /-- K_OR (R255): Kernel 0x31 ORs booleans. -/
  | kOr (l : Fin 256)
  /-- K_XOR (R255): Kernel 0x32 XORs booleans. -/
  | kXor (l : Fin 256)
  /-- K_NOT (R255): Kernel 0x33 inverts booleans. -/
  | kNot (l : Fin 256)
  /-- K_EDGE (R255): Kernel 0x34 detects edges. -/
  | kEdge (l : Fin 256)
  /-- K_LATCH (R255): Kernel 0x35 updates set/reset latches. -/
  | kLatch (l : Fin 256)
  /-- K_VOTE (R255): Kernel 0x36 votes M of N. -/
  | kVote (l : Fin 256)
  /-- K_PACK (R255): Kernel 0x37 packs booleans into BITS32. -/
  | kPack (l : Fin 256)
  /-- K_TON (R257): Kernel 0x38 applies an on-delay in grid ticks. -/
  | kTon (l : Fin 256)
  /-- K_TOF (R257): Kernel 0x39 applies an off-delay in grid ticks. -/
  | kTof (l : Fin 256)
  /-- K_TPLS (R257): Kernel 0x3A produces a pulse on rising edges. -/
  | kTpls (l : Fin 256)
  /-- K_TARM (R228): Kernel 0x3B hands an arm request of its instance's timer to the delay lists. -/
  | kTarm (l : Fin 256)
  /-- K_TCAN (R228): Kernel 0x3C hands a cancel request of its instance's timer to the delay lists. -/
  | kTcan (l : Fin 256)
  /-- K_POST (R243): Kernel 0x3D stages a unit as the RESULT of a slot for request at run end. -/
  | kPost (l : Fin 256)
  /-- K_PUB (R260): Kernel 0x3E hands a build request for a control block to publication, which refuses it or decides a state change. -/
  | kPub (l : Fin 256)
  /-- K_TRIP (R276): Kernel 0x3F hands its BOOL to a trip stage, whose command change begins at the pad 48 cy later. -/
  | kTrip (l : Fin 256)
  /-- BUILD_START (R270): A request takes a free build pipeline of its kind, checks its key slot and begins building. -/
  | buildStart (fg : Bool)
  /-- PUB_ENTRY (R272): A built frame reaches its entry cycle and passes the gate, token bucket and admission checks into the Hall. -/
  | pubEntry (pipe : Fin 6)
  /-- SV_REL_ENTRY (R269): A held SV frame is entered into I1 in cycle REL_CY of its build tick. -/
  | svRelEntry (k : Fin 64)
  /-- GOOSE_RETRANSMISSION (R265): A retransmission instant passes, and the stored state is rebuilt with sqNum incremented. -/
  | gooseRetransmission (cb : Fin 2048)
  /-- TRIP_MIN_ON_EXPIRY (R277): A deferred FALSE clears CMD when MIN_ON_MS after the set has passed. -/
  | tripMinOnExpiry (k : Fin 12)
  /-- TRIP_REFRESH_EXPIRY (R277): REFRESH_TK raised ticks pass without a request, and CMD clears with TRIP_STALE. -/
  | tripRefreshExpiry (k : Fin 12)
  /-- PB_CB_READ (R280): READ loads a control-block descriptor into PB_CB_DATA0–15. -/
  | pbCbRead (req : Requester)
  /-- PB_CB_WRITE (R280): WRITE of a control block takes effect at the next raised tick-start, or is discarded with REFUSED. -/
  | pbCbWrite (req : Requester)
  /-- PB_CB_INVALIDATE (R280): INVALIDATE of a control block takes effect at the next raised tick-start. -/
  | pbCbInvalidate (req : Requester)
  /-- PB_ST_LATCH (R280): A write of PB_ST_IDX latches the control block's state into PB_ST0–3 and clears its counters. -/
  | pbStLatch (req : Requester) (v : Word)
  /-- CYCLE_END_SAVE (R301): The save engine takes a program's cycle-end save and writes its Cellar record and home copy. -/
  | cycleEndSave
  /-- LG_PRG_READ (R312): READ loads a program descriptor into LG_PRG_DATA0–15. -/
  | lgPrgRead (req : Requester)
  /-- LG_PRG_WRITE (R294): WRITE stages a program descriptor in an EMPTY or STAGED entry, or is refused. -/
  | lgPrgWrite (req : Requester)
  /-- LG_PRG_INVALIDATE (R294): INVALIDATE empties a STAGED entry at once or an ACTIVE one at the next raised tick-start. -/
  | lgPrgInvalidate (req : Requester)
  /-- LG_FRC_READ (R312): READ loads a force entry into LG_FRC_DATA0–7. -/
  | lgFrcRead (req : Requester)
  /-- SET (R305): A force SET makes an entry PENDING or sets a new pending value, or is refused. -/
  | frcSet (req : Requester)
  /-- CLEAR (R305): A force CLEAR makes an ACTIVE entry CLEARING or frees a PENDING one. -/
  | frcClear (req : Requester)
  /-- EXCHANGE (R309): LG_XCH EXCHANGE sets OLD to XCH_PENDING, or is refused with CAUSE. -/
  | exchange (req : Requester) (v : Word)
  /-- LG_XCH_CANCEL (R311): LG_XCH CANCEL withdraws a pending exchange before its first step applies. -/
  | lgXchCancel (req : Requester)
  /-- LG_ST_LATCH (R312): A write of LG_ST_IDX latches the program's status into LG_PST0–3 and clears its counters. -/
  | lgStLatch (req : Requester) (v : Word)
  /-- EXCHANGE_COPY (R310): Once OLD is idle after a cycle end, the save engine copies matching instance data, rewrites slot owners and prepares the task writes. -/
  | exchangeCopy
  /-- EXCHANGE_BOUNDARY (R311): In the cycle before B, the held task writes issue or the copy repeats, and at B NEW becomes ACTIVE, timers and forces are rebound and XCH_DONE is written. -/
  | exchangeBoundary
  /-- PWM_ZERO_EVENT (R315): A pair's counter reaches count 0, loads armed or legacy shadows and checks short pulses. -/
  | pwmZeroEvent (k : Fin 12)
  /-- PWM_CMPA_EVENT (R315): A pair's counter reaches the duty, and DU_H turns off and DU_L begins its dead time. -/
  | pwmCmpaEvent (k : Fin 12)
  /-- PWM_CMPB_EVENT (R315): A pair's counter reaches CMPB, ending any blanking window it defines. -/
  | pwmCmpbEvent (k : Fin 12)
  /-- PWM_PERIOD_EVENT (R315): A pair's counter reaches the period's last count. -/
  | pwmPeriodEvent (k : Fin 12)
  /-- SWN_SWING (R318): SWN_k reports the expected swing, and the incoming pad turns on after at least DT_MIN. -/
  | swnSwing (k : Fin 12) (level : Bool)
  /-- DT_TIMEOUT (R318): SWN_k has not swung by DT_MAX, the incoming pad turns on and DT_TIMEOUT counts. -/
  | dtTimeout (k : Fin 12)
  /-- DU_COMMIT (R317): A write of DU_COMMIT arms each named pair, or refuses one whose shadow DUTY exceeds PER. -/
  | duCommit (req : Requester) (v : Word)
  /-- DU_SHADOW_WRITE (R317): A write of PER or DUTY updates the shadow and, in legacy mode, loads at the next zero event with clamping. -/
  | duShadowWrite (req : Requester) (k : Fin 12) (duty : Bool) (v : Word)
  /-- DU_PAIR_CFG_WRITE (R321): A write of MODE, LOAD, POLICY, ADAPT or FLT_MASK while the pair is enabled is discarded with REFUSED. -/
  | duPairCfgWrite (req : Requester) (k : Fin 12) (v : Word)
  /-- DU_CTRL_WRITE (R327): Clearing DU_CTRL.EN makes every pad inactive and stops stamping. -/
  | duCtrlWrite (req : Requester) (v : Word)
  /-- COIL_PEAK_END (R323): PEAK_US after CMD becomes TRUE, the peak phase ends and hold PWM begins at the next zero event. -/
  | coilPeakEnd (k : Fin 12)
  /-- FAULT_RECOGNISED (R324): A fault input is recognised after its filter outside blanking, and masked pairs' pads go inactive 10 cy later. -/
  | faultRecognised (f : Fin 8) (level : Bool) (held : Nat)
  /-- FAULT_CLEAR (R324): CLEAR releases a latched fault when the input is not recognised. -/
  | faultClear (req : Requester) (f : Fin 8) (v : Word)
  /-- SENSE_EDGE (R325): A sense-input edge is stamped and sent to the trigger unit, the raw state and the stamp queue, or counted in SNS_LOST. -/
  | senseEdge (j : Fin 16) (level : Bool) (sub : Fin 65536)
  /-- SENSE_ACCEPT (R326): A level held past DEB_US is accepted, updating DEB, CHANGES, the trigger unit and an optional RESULT mark. -/
  | senseAccept (j : Fin 16)
  /-- SNS_POP (R327): A read of DU_SNS_W3 removes the oldest sense stamp. -/
  | snsPop (req : Requester)
  /-- VIN_VALID (R328): VIN rises above 4.30 V, the Cellar mux selects VIN and a cold entry begins. -/
  | vinValid
  /-- VIN_INVALID (R493): VIN falls below 4.10 V, the Cellar selects VBAT and every other domain loses power with outputs inactive. -/
  | vinInvalid
  /-- PD0_POR (R329): V_CEL falls below 1.10 V, and PD0 is reset. -/
  | pd0Por
  /-- CELLAR_WAKE (R332): At a mux change to VIN or a PD0 reset release, the canary is checked and non-intact contents are discarded. -/
  | cellarWake (lowMv : Nat)
  /-- VBAT_MEASURE (R330): At each Cellar wake and every 64 s on VIN, VBAT is measured and BAT_LOW set or cleared. -/
  | vbatMeasure (mv : Nat)
  /-- CALENDAR_ROLLOVER (R334): SUBSEC passes 32,767, and the calendar rolls over with leap and weekday handling. -/
  | calendarRollover
  /-- CALENDAR_FREEZE (R337): A requester's first calendar read freezes all eight registers into its shadows. -/
  | calendarFreeze (req : Requester) (k : Fin 7)
  /-- CALENDAR_YEAR_READ (R337): A read of CL_YEAR ends the requester's freeze, or returns the live value with NOFRZ. -/
  | calendarYearRead (req : Requester)
  /-- FREEZE_TIMEOUT (R337): 66 Piccolo periods after a freeze began, it ends and FRZ_TO is set. -/
  | freezeTimeout
  /-- SET_TIME (R338): CL_CMD SET_TIME stages a commit of the calendar from CL_SET_TIME and CL_SET_DATE, or is refused. -/
  | setTime (req : Requester)
  /-- SET_WDAY (R338): CL_CMD SET_WDAY stages a commit of the weekday. -/
  | setWday (req : Requester) (w : Fin 8)
  /-- CALENDAR_COMMIT (R338): At the first Piccolo edge after the command, the staged time or weekday is committed. -/
  | calendarCommit
  /-- TRIM_CORRECTION (R340): At a raw pulse due a trim correction, SUBSEC advances by 2 or stands still. -/
  | trimCorrection
  /-- CL_SHIFT_WRITE (R341): A write of CL_SHIFT starts a shift of k pulses, or is discarded while one is busy. -/
  | clShiftWrite (req : Requester) (v : Word)
  /-- SHIFT_STEP (R341): At a Piccolo edge without trim, one shift step advances SUBSEC by 2 or holds it, and the last step sets SHIFT_DONE. -/
  | shiftStep
  /-- OPS_SECOND (R344): A whole second of raw pulses on VIN advances OPS, and at 3,600 OPH. -/
  | opsSecond
  /-- RET_DATA_ACCESS (R342): An access of CL_RET_DATA reads or writes the retentive word, advances the address and clears RET_LOST on a first write. -/
  | retDataAccess (req : Requester) (v : Option Word)
  /-- CNT_WRITE (R345): A write of CL_OPH or CL_PCYC is accepted or refused under CNT_LOST, and an accepted PCYC write clears CNT_LOST. -/
  | cntWrite (req : Requester) (pcyc : Bool) (v : Word)
  /-- TAMPER_DETECT (R346): A tamper input fires, the root secret is zeroed within 5 µs, ROOT_LOST is set and a tamper-log entry is written. -/
  | tamperDetect (c : Fin 5)
  /-- EVENT_REQUEST (R354): A source's record request is taken into the entry queue with its SEQ and time, or is lost and counted. -/
  | eventRequest
  /-- RING_ENTRY (R354): A record leaves the entry queue and enters the Cellar ring, replacing the oldest. -/
  | ringEntry
  /-- NVM_SCAN (R355): After a canary loss, once NVM parameters exist, the recorder partition is scanned and numbering continues with RING_DISCARDED. -/
  | nvmScan (answers : Bool) (suitable : Bool)
  /-- DRAIN_PAGE (R356): With 8 undrained records, the drain erases the sector if needed and programs one page. -/
  | drainPage (fail : Fin 4)
  /-- DRAIN_RETRY (R357): After a failed program or erase, the drain retries every 1 s. -/
  | drainRetry
  /-- EV_RD_SEQ_WRITE (R358): A write of EV_RD_SEQ loads the record from the ring or starts a load from the NVM, or sets NOT_HELD. -/
  | evRdSeqWrite (req : Requester) (v : Word)
  /-- EV_NVM_LOAD_DONE (R358): A record load from the NVM completes and BUSY clears. -/
  | evNvmLoadDone
  /-- EV_FIRST_LATCH (R358): A read of EV_FIRST latches EV_RING_FIRST and EV_LAST for the requester. -/
  | evFirstLatch (req : Requester)
  /-- CLEAR_NONCE (R359): A read of EV_CLR_NONCE_LO generates a fresh nonce and latches its high half. -/
  | clearNonce (req : Requester)
  /-- LOG_CLEAR (R359): CLEAR verifies the token and advances EV_FIRST with a CLEARED record, or writes CLEAR_REFUSED. -/
  | logClear (req : Requester) (slot : Fin 256)
  /-- CLEAR_ERASE_DONE (R359): Background erase of cleared sectors completes and CLEAR_BUSY clears. -/
  | clearEraseDone
  /-- EV_POST (R371): A write of EV_POST2 enters a firmware record, or is refused for an SRC below 0x80. -/
  | evPost (req : Requester) (src : Fin 256) (code : Fin 256)
  /-- ROW_FINALISE (R362): A capture row reaches its instant plus W and is finalised with missing values and binary states, completing a capture at its last post row. -/
  | rowFinalise (r : Fin 16)
  /-- BINARY_CHANGE (R367): A binary channel change is delivered to capture and the trigger stages are evaluated. -/
  | binaryChange
  /-- SEQ_WINDOW_TIMEOUT (R367): SEQ_US passes without the next stage, and the sequence returns to stage 0 with SEQ_RESET. -/
  | seqWindowTimeout (r : Fin 16)
  /-- TRIGGER_LEVEL_TIMEOUT (R365): In TIMEOUT mode a level lasts T1 and the trigger fires. -/
  | triggerLevelTimeout (r : Fin 16)
  /-- HOLD_EXPIRY (R368): HOLD ms after a capture completes, the definition is ARMED again or enters WAIT_BUF. -/
  | holdExpiry (r : Fin 16)
  /-- TG_FORCE (R365): A write of TG_FORCE fires the named definitions with kind FORCE. -/
  | tgForce (req : Requester) (v : Word)
  /-- TG_REL (R368): A write of TG_REL frees a buffer, re-arming a definition in WAIT_BUF. -/
  | tgRel (req : Requester) (v : Word)
  /-- VF_FLR (R377): A function-level reset of a VF resets the tenant interface and writes VF_FLR without resetting the instance. -/
  | vfFlr (v : Fin 512)
  /-- POST_T2M (R379): VI_DB.POST_T2M posts a T2M slot, writing its generation and raising the mailbox event toward PF0, or counts MB_DROP. -/
  | postT2m (req : Requester) (v : Fin 512) (j : Fin 2)
  /-- ACK_M2T (R379): VI_DB.ACK_M2T clears an M2T slot's FULL and notifies the manager. -/
  | ackM2t (req : Requester) (v : Fin 512) (j : Fin 2)
  /-- POST_M2T (R379): VI_MDB.POST_M2T posts an M2T slot and raises VF vector 0, or counts MB_DROP. -/
  | postM2t (req : Requester) (v : Fin 512) (j : Fin 2)
  /-- ACK_T2M (R379): VI_MDB.ACK_T2M clears a T2M slot's FULL and notifies the tenant. -/
  | ackT2m (req : Requester) (v : Fin 512) (j : Fin 2)
  /-- WINDOW_ACCESS (R385): A tenant access at BAR2 goes through its window entry, or counts WIN_MISS or WIN_RO. -/
  | windowAccess (v : Fin 512) (o : Fin 1073741824) (data : Option Word)
  /-- WINDOW_ENTRY_WRITE (R384): A write of a window entry is applied to later TLPs, or refused for overlap or range. -/
  | windowEntryWrite (req : Requester) (v : Fin 512) (w : Fin 16) (k : Fin 4) (x : Word)
  /-- MIRROR_COPY (R386): At cycle CY of a due tick, a mirror copies instance units to DRAM with sequence header and tail, waiting if the engine is busy. -/
  | mirrorCopy (v : Fin 512) (m : Fin 4)
  /-- VI_PUB_REQUEST (R388): VI_PUB_CB.GO hands the tenant's GOOSE items to publication as a background request, or records a refusal. -/
  | viPubRequest (req : Requester) (v : Fin 512) (x : Word)
  /-- LSHARE_WRITE (R391): A write of LSHARE changes the instance's Larder share from the next cycle and sets OVER_SHARE if below HELD. -/
  | lshareWrite (req : Requester) (v : Fin 512) (x : Word)
  /-- RESET (R393): VI_CMD.RESET advances the instance's generation, sets RESETTING and INFLIGHT, or is refused while busy or lingering. -/
  | viReset (req : Requester) (v : Fin 512) (keep : Bool)
  /-- VI_RESET_DONE (R395): INFLIGHT reaches 0, RESETTING clears, RESET_DONE is set and RUN is kept or cleared by KEEP_RUN. -/
  | viResetDone (v : Fin 512)
  /-- OW_CLAIM (R399): A present seat claims ownership while there is none, or is refused. -/
  | owClaim (req : Requester)
  /-- OW_RELEASE (R399): The owner gives up ownership. -/
  | owRelease (req : Requester)
  /-- OW_OFFER (R400): The owner offers ownership to a present seat or withdraws an offer. -/
  | owOffer (req : Requester) (t : Fin 16)
  /-- OW_ACCEPT (R400): The offered seat accepts and becomes owner from the next cycle. -/
  | owAccept (req : Requester)
  /-- OFFER_LAPSE (R400): HO_MS pass with the offer open, and the offer lapses. -/
  | offerLapse
  /-- REFRESH (R401): OW_LEASE.REFRESH renews the owner's lease. -/
  | refresh (req : Requester) (v : Word)
  /-- LEASE_LAPSE (R401): LEASE_MS pass unrefreshed, and ownership is lost. -/
  | leaseLapse
  /-- OW_REVOKE (R401): A steward core acting as itself revokes ownership. -/
  | owRevoke (req : Requester)
  /-- SEAT_ABSENT (R401): The owner's seat ceases to be present, and ownership is lost. -/
  | seatAbsent
  /-- READ_ATTR (R415): KS_CMD READ_ATTR loads a slot's attributes into KS_DATA0–3. -/
  | readAttr (req : Requester) (t : Fin 256)
  /-- IMPORT (R415): KS_CMD IMPORT writes a slot from KS_DATA with ORIGIN IMPORTED. -/
  | ksImport (req : Requester) (t : Fin 256)
  /-- GENERATE (R415): KS_CMD GENERATE writes a slot with a random key. -/
  | generate (req : Requester) (t : Fin 256)
  /-- DERIVE (R415): KS_CMD DERIVE writes a slot with a key derived from a parent slot or the state root. -/
  | derive (req : Requester) (t : Fin 256) (src : Fin 256) (rooted : Bool)
  /-- WRAP (R418): KS_CMD WRAP writes an encrypted blob of a slot to DRAM. -/
  | wrap (req : Requester) (src : Fin 256)
  /-- UNWRAP (R418): KS_CMD UNWRAP checks a blob and writes a slot from it. -/
  | unwrap (req : Requester) (t : Fin 256)
  /-- KS_INVALIDATE (R416): KS_CMD INVALIDATE empties a slot and orphans its descendants. -/
  | ksInvalidate (req : Requester) (t : Fin 256)
  /-- SESSION_OUT (R415): KS_CMD SESSION_OUT derives 48 bytes of session key material into KS_DATA0–11. -/
  | sessionOut (req : Requester) (src : Fin 256)
  /-- KS_CMD_APPLY (R416): A key-store command reaches its apply cycle, writes its slot, cascades orphans and sets DONE. -/
  | ksCmdApply
  /-- PROVISION (R413): PROVISION programs PKH0 and LC_PROV and writes a new root. -/
  | provision (req : Requester) (key : BitVec 16)
  /-- COMMISSION (R413): COMMISSION programs LC_FIELD. -/
  | commission (req : Requester) (key : BitVec 16)
  /-- RECOVER (R413): RECOVER zeroes the root secret and sets ROOT_LOST. -/
  | recover (req : Requester) (key : BitVec 16)
  /-- INSTALL_ROOT (R413): INSTALL_ROOT writes a new root in RECOVERY and clears ROOT_LOST. -/
  | installRoot (req : Requester) (key : BitVec 16)
  /-- ADD_PKH1 (R413): ADD_PKH1 programs PKH1 from KS_DATA0–11. -/
  | addPkh1 (req : Requester) (key : BitVec 16)
  /-- REVOKE0 (R413): REVOKE0 programs REVOKE bit 0 when PKH1 is set and not revoked. -/
  | revoke0 (req : Requester) (key : BitVec 16)
  /-- RETIRE (R413): RETIRE zeroes the root, empties every slot and programs LC_RET, making the state RETIRED at once. -/
  | retire (req : Requester) (key : BitVec 16)
  /-- FUSE_PROGRAM_DONE (R411): Fuse programming completes, and a wrong read-back sets FUSE_FAIL. -/
  | fuseProgramDone (wrong : Bool)
  /-- RST_N_LOW (R443): RST_N held low for 1 µs triggers a cold entry with outputs inactive. -/
  | rstNLow
  /-- PD1_RESET_RELEASE (R426): 2.0 ms after VIN valid, PD1 leaves reset and COLD samples straps, checks the canary, draws K_INT and fixes the life-cycle state. -/
  | pd1ResetRelease (pairId : Bool) (bootSrc : Bool) (nvmWidth : Bool)
  /-- PLL_M_LOCK (R427): PLL_M locks, PD1 moves to CK_M and the house clock starts with TB_1 governing. -/
  | pllMLock
  /-- DRAM_INIT_DONE (R427): DRAM initialisation completes, or fails into BOOT_FAIL. -/
  | dramInitDone (r : Fin 4)
  /-- CELLAR_UP_COMPLETE (R431): SFDP, directory and image headers have been read and checked, and the module enters BOOT_WAIT. -/
  | cellarUpComplete (answers : Bool) (size : Nat)
  /-- BOOT_SRC_TIMEOUT (R432): 2.0 s after BOOT_WAIT with no twin-link transfer begun, the boot aperture opens. -/
  | bootSrcTimeout
  /-- BOOT_APERTURE_WRITE (R433): A write to BAR4 stores bundle bytes in BOOT_WAIT, or is discarded and counted in AP_LATE. -/
  | bootApertureWrite (o : Fin 16777216) (v : Word)
  /-- SUBMIT (R435): BT_DL_CMD SUBMIT enters VERIFY, or is discarded as AP_LATE during VERIFY. -/
  | submit (req : Requester)
  /-- ABORT (R435): BT_DL_CMD ABORT withdraws a twin-link transfer in progress. -/
  | abort (req : Requester)
  /-- VERIFY_DONE (R436): Bundle verification ends, releasing the steward cores into CONFIGURE or BOOT_FAIL, or returning to BOOT_WAIT with a cause. -/
  | verifyDone
  /-- HOST_PORT_RESET (R433): PERST#, host link-down or PF0 FLR resets only the host port, and seat 0 ceases to be present. -/
  | hostPortReset
  /-- IMAGE_CHECKS_DONE (R438): An image body has been streamed and checked, falling back to image B or BOOT_FAIL on failure. -/
  | imageChecksDone (readOk : Bool)
  /-- DOMAIN_POWER_UP (R440): The power manager powers the next assigned domain, marking it FAILED if power-good does not arrive within 2 ms. -/
  | domainPowerUp (good : Bool)
  /-- SELF_TEST_DONE (R441): A quadrant's self-test ends, and failed clusters are fenced. -/
  | selfTestDone (q : Fin 4) (fails : BitVec 8)
  /-- SECTIONS_APPLY (R439): The image sections are applied, programs restored, the minimum set checked and DISCOVER entered. -/
  | sectionsApply
  /-- ENTER (R442): BT_SVC.ENTER ends DISCOVER and enters SERVICE. -/
  | svcEnter (req : Requester)
  /-- DISCOVER_TIMEOUT (R442): DISC_MAX_S after entry into DISCOVER, the module enters SERVICE. -/
  | discoverTimeout
  /-- RESTART_COLD (R443): PM_CMD RESTART_COLD triggers a cold entry. -/
  | restartCold (req : Requester)
  /-- RESTART_WARM (R443): PM_CMD RESTART_WARM triggers a warm entry when its conditions hold, and a cold entry otherwise. -/
  | restartWarm (req : Requester)
  /-- PM_DORMANT (R27): PM_CMD DORMANT places an eligible domain in retention, or is refused. -/
  | pmDormant (req : Requester) (pd : Fin 16)
  /-- PM_WAKE (R27): PM_CMD WAKE starts the wake of a dormant domain. -/
  | pmWake (req : Requester) (pd : Fin 16)
  /-- KICK (R444): PM_WDOG.KICK restarts the watchdog period. -/
  | kick (req : Requester) (v : Word)
  /-- WDOG_EXPIRY (R444): A watchdog period passes without a kick, setting WDOG and restarting with ACTION 1. -/
  | wdogExpiry
  /-- HELLO_SEND (R456): Every 1 ms from DISCOVER, the module sends HELLO. -/
  | helloSend
  /-- HELLO_RX (R458): A HELLO is received, updating presence, compatibility, EPOCH and the role rules. -/
  | helloRx (m : TwinRx)
  /-- PARTNER_TIMEOUT (R458): 10 ms pass without a partner message, and the partner becomes absent. -/
  | partnerTimeout
  /-- CLAIM_WATCHDOG (R452): The tick record is not complete by cycle 10,000 of the next tick, and ILK_OUT is dropped with NOCLAIM. -/
  | claimWatchdog
  /-- TICK_RECORD_RX (R469): A standby receives a tick record, compares digests, fixes stNum and sqNum, follows TRIP bits and computes PR_OFFSET. -/
  | tickRecordRx (m : TwinRx)
  /-- LEDGER_MISS_CHECK (R473): A tick record has not arrived by cycle 20,000 of the next tick, counting LEDGER_MISS and detecting failure at the second. -/
  | ledgerMissCheck
  /-- SET_RECORD_RX (R463): A standby receives a set record and adopts carried records, requests copies or discards its own samples. -/
  | setRecordRx (m : TwinRx)
  /-- COPY_REQ_RX (R464): The active module answers a COPY_REQ with the requested records or members. -/
  | copyReqRx (m : TwinRx)
  /-- COPY_RX (R464): A standby receives a COPY and queues its records as Pantry writes or GOOSE members. -/
  | copyRx (m : TwinRx)
  /-- FORCE_MSG_RX (R470): A standby applies a FORCE message as a local SET or CLEAR. -/
  | forceMsgRx (m : TwinRx)
  /-- SYNC_REQ_SEND (R456): A standby sends SYNC_REQ on entry to STANDBY_SYNC and every 100 ms until the first STATE. -/
  | syncReqSend
  /-- SYNC_REQ_RX (R472): The active module starts a state-transfer pass over the map groups. -/
  | syncReqRx (m : TwinRx)
  /-- STATE_MSG_RX (R472): A standby installs a map group from STATE messages or counts XFER_RETRY, and sets XFER_DONE when all are installed. -/
  | stateMsgRx (m : TwinRx)
  /-- ILK_IN_FALL (R473): ILK_IN becomes inactive, and a standby detects failure of the active module. -/
  | ilkInFall
  /-- ILK_IN_RISE (R451): ILK_IN becomes active, dropping module B's OEN_EXT within 50 ns and prompting B's release. -/
  | ilkInRise
  /-- STANDBY_CLAIM (R474): At the first tick-start after detecting failure, the standby drives ILK_OUT, enters ACTIVE and writes CLAIM. -/
  | standbyClaim
  /-- REVERT_HOLD_EXPIRY (R476): Module A has been in step for HOLD_S, and sends REVERT_REQ naming G_r at its next tick-start. -/
  | revertHoldExpiry
  /-- REVERT_REQ_RX (R476): Module B answers REVERT_REQ with REVERT_ACK, entering REVERTING if accepted. -/
  | revertReqRx (m : TwinRx)
  /-- REVERT_ACK_RX (R476): Module A receives an accepting REVERT_ACK and enters REVERTING. -/
  | revertAckRx (m : TwinRx)
  /-- REVERT_ACK_TIMEOUT (R476): No accepting ACK arrives within 4 ticks, and module A writes REVERT_FAIL and restarts HOLD_S. -/
  | revertAckTimeout
  /-- REVERT_CLAIM (R477): At its tick-start of G_r, module A drives ILK_OUT and enters ACTIVE. -/
  | revertClaim
  /-- REVERT_RELEASE_TIMEOUT (R477): B has not seen ILK_IN 1 tk after G_r, stays ACTIVE and writes REVERT_FAIL. -/
  | revertReleaseTimeout
  /-- TWIN_REG_RX (R456): A REG message from seat 1 performs a register access and is answered with REG_RSP. -/
  | twinRegRx (m : TwinRx)
  /-- BUNDLE_REQ_SEND (R479): A module in BOOT_WAIT with BOOT_SRC high sends BUNDLE_REQ every 100 ms. -/
  | bundleReqSend
  /-- BUNDLE_REQ_RX (R479): The partner serves its verified bundle as BUNDLE_DATA and BUNDLE_END, or refuses. -/
  | bundleReqRx (m : TwinRx)
  /-- BUNDLE_DATA_RX (R479): A BUNDLE_DATA part is written into the boot region at its offset. -/
  | bundleDataRx (m : TwinRx)
  /-- BUNDLE_END_RX (R479): BUNDLE_END with all offsets arrived submits the bundle, and a missing offset or refusal fails the transfer. -/
  | bundleEndRx (m : TwinRx)
  /-- BUNDLE_TIMEOUT (R479): 100 ms pass without a message during a transfer, and the transfer fails. -/
  | bundleTimeout
  /-- IC_SOFT_WRITE (R484): A write of IC_SOFT raises software source ES(224 + SRC). -/
  | icSoftWrite (req : Requester) (v : Word)
  /-- IC_FENCE_GO (R490): IC_FENCE.GO fences a cluster, stopping its runs at their next kernel boundary. -/
  | icFenceGo (req : Requester) (c : Fin 32)
  /-- MSIX_SEND (R487): A due PF0 MSI-X message begins its memory write TLP when the link and credits allow. -/
  | msixSend (vec : Fin 64)
  /-- ECC_SCRUB (R488): The scrubber reads a word, writes back corrected data, and counts and logs errors. -/
  | eccScrub (mem : Fin 12) (addr : BitVec 40) (kind : Fin 3) (syndrome : Fin 256)
  /-- FATAL_STOP (R490): A stopping fault drops ILK_OUT and OEN_EXT, halts all units and sets FATAL with a FATAL record. -/
  | fatalStop (cause : Fin 4)
  /-- PLL_M_LOSS (R489): PLL_M loses lock, and service stops under R490. -/
  | pllMLoss
  /-- VIN_OVERVOLTAGE (R493): VIN above 18.5 V for 5 µs stops the core regulators as a loss of PD1 power-good. -/
  | vinOvervoltage
  /-- VIO_LOSS (R493): VIO below 3.00 V for 2 µs acts as RST_N held low. -/
  | vioLoss
  /-- VIO_RESTORE (R493): VIO rises above 3.10 V, releasing the reset into a cold entry. -/
  | vioRestore
  /-- VANA_LOSS (R493): VANA below 4.55 V for 10 µs makes PD12 FAILED until the next start. -/
  | vanaLoss
  /-- RST_N_RELEASE (R443): RST_N rises after being held low, ending the reset and starting the cold entry whose stage times R445 counts from the release. -/
  | rstNRelease
  /-- PCIE_CONFIG_WRITE (R374): A configuration write from the host sets NumVFs, a function's Memory Space Enable or Bus Master Enable, or the MSI-X Function Mask, changing VF binding, seat 0 presence and the sending of held messages. -/
  | pcieConfigWrite (c : PcieCfg)
  /-- TWIN_REG_RSP_RX (R456): A REG_RSP message arrives over the twin link and completes a seat-1 register access that this module made to its partner. -/
  | twinRegRspRx (m : TwinRx)
deriving DecidableEq, Repr

end Sys2Proof
end

