-- ==== Sys2Proof/Config.lean ====
section
/-!
DEFINITION. What the spec leaves open or takes from a standard without restating it, as constants without a body: no proof
can see their values. A fresh value (random bytes, an unstated result) is `freeValue` applied to the counter that State
holds; a function of operands is applied to them.
-/
namespace Sys2Proof.Config

/-- The n-th free value: random keys and nonces (R406, R359, R415), unstated results. Log entry 5. -/
opaque freeValue : Nat → Nat

/-- AES-GMAC and HMAC-SHA256 tags of frames: algorithm code, key bytes, message (R148, R262, R419). Log entry 6. -/
opaque macTag : Nat → List Byte → List Byte → List Byte

/-- AES-CMAC over a key-store slot under K_INT (R409). Log entry 6. -/
opaque cmac : Nat → List Byte → List Byte

/-- AES-256-GCM of R418: key, nonce, plaintext or ciphertext, answering the other and the tag. Log entry 6. -/
opaque gcmSeal : List Byte → List Byte → List Byte → List Byte
opaque gcmOpen : List Byte → List Byte → List Byte → List Byte
opaque gcmTag : List Byte → List Byte → List Byte → List Byte

/-- SHA-384 and the ECDSA check of R437. Log entry 6. -/
opaque sha384 : List Byte → List Byte
opaque ecdsaOk : List Byte → List Byte → List Byte → Bool

/-- The security extension of IEC 62351-6 in an SV or GOOSE frame (R148): key identifier, MAC algorithm as the ALG code of R407,
tag, and the span that the tag covers. Log entry 7. -/
opaque extKeyId : List Byte → Nat
opaque extAlg : List Byte → Nat
opaque extTag : List Byte → List Byte
opaque extSpan : List Byte → List Byte

/-- What IEC 62351-6 puts into a published frame (R262, R274), as the standard defines it: the extension for an algorithm, key
identifier, tag length and key over the frame without it; the bits of reserved1 and the word reserved2 for an AUTH code and tag
length. Log entry 7. -/
opaque extMake : Nat → Nat → Nat → List Byte → List Byte → List Byte
opaque extRes1 : Nat → Nat → Nat
opaque extRes2 : Nat → Nat → Nat

/-- The resampler's filter (R177), whose coefficients the spec does not give: the output value for a rate code and grid tick from
the window's values, oldest first, as fp32 patterns, and whether the tap of the i-th input of the window is zero. Log entry 9. -/
opaque rsOut : Nat → Nat → List Nat → Nat
opaque rsZero : Nat → Nat → Nat → Bool

/-- The fixed sequence of operations that a kernel follows (R246), which the spec does not give (log entry 10): the order in which
the terms of a sum are combined, whether a product is rounded before it is added, whether a division by a constant is a
multiplication by its reciprocal, and whether a binary64 sum is narrowed before it is scaled, by kernel code. -/
opaque order : List Nat → Nat
opaque fused : Nat → Bool
opaque recip : Nat → Bool
opaque narrowFirst : Nat → Bool

/-- Units in the last place by which a function that R246 bounds lies from its exact value rounded once, by function and operands.
Log entry 10. -/
opaque ulps : List Nat → Int

/-- A result that the spec does not state: apparent power, an angle of no vector, a characteristic outside its breakpoints. Log
entry 10. -/
opaque numeric : Nat → List Nat → Nat

/-- INT and UINT division by zero with a PARAM of 0 (R247 gives no result). Log entry 10. -/
opaque divZero : Nat → Nat

/-- The kernels whose formulas and instance data the spec does not give (R255; log entry 11): from kernel code, N, M, PARAM, grid
tick, input values and instance data, the result values and the new instance data; the results that HOLD produces from the
instance data; and the instance data with timers, integrators and thermal states at their initial values (R249). -/
opaque kernelRun : List Nat → List Nat → List Byte → List Nat × List Byte
opaque kernelHeld : List Nat → List Byte → List Nat
opaque kernelInit : List Nat → List Byte → List Byte

/-- PT_MAC of the partner's twin port T`k`, the destination of this module's messages (R454); the partner's registers lie outside
this module. -/
opaque partnerMac : Nat → Nat

/-! ### The filter chain (R190, R191) -/

/-- Coefficients of the first compensating FIR of a preset, newest input first. -/
opaque fir1 : Nat → List Int
/-- Coefficients of the second FIR of a preset, of its polyphase branch `j` in WIDE. -/
opaque fir2 : Nat → Nat → List Int
/-- Modulator edges by which the padding delay completes the chain's delay. -/
opaque padding : Nat → Nat
/-- The code that an output of the second FIR stands for. -/
opaque chainCode : Nat → Int → Int
/-- Whether the mean of the notch, where it is no whole number, is rounded up. -/
opaque notchUp : Int → Nat → Bool
/-- A published quantity for which R208 states no number: a scale that is no number, or an infinite one times 0. -/
opaque noQuantity : Int → Nat → Int

end Sys2Proof.Config
end

