-- ==== Sys2Proof/Machine/Assoc.lean ====
section
/-!
DEFINITION. Sparse tables as sorted lists of (key, entry) pairs: the representation of every indexed store of the
machine (register file, memories, descriptor tables). `aget` reads, `aput` writes, `adel` removes; `cput` is the
write that keeps the canonical form in which no entry equals what an unlisted key reads as. The laws of reading after
writing hold for every list, sorted or not.
-/
namespace Sys2Proof.Machine

/-- The entry at key `k`, if any. -/
def aget {α : Type} : List (Nat × α) → Nat → Option α
  | [], _ => none
  | (j, v) :: t, k => if j = k then some v else aget t k

/-- The table with the entry at key `k` replaced by `v`. -/
def aput {α : Type} : List (Nat × α) → Nat → α → List (Nat × α)
  | [], k, v => [(k, v)]
  | (j, w) :: t, k, v =>
    if k = j then (k, v) :: t else if k < j then (k, v) :: (j, w) :: t else (j, w) :: aput t k v

/-- The table without an entry at key `k`. -/
def adel {α : Type} : List (Nat × α) → Nat → List (Nat × α)
  | [], _ => []
  | (j, w) :: t, k => if j = k then adel t k else (j, w) :: adel t k

/-- The entry at key `k`, or `d` where none is listed. -/
def agetD {α : Type} (m : List (Nat × α)) (k : Nat) (d : α) : α := (aget m k).getD d

/-- Canonical write: writing what an unlisted key reads as (`d`) removes the entry. -/
def cput {α : Type} [DecidableEq α] (d : α) (m : List (Nat × α)) (k : Nat) (v : α) : List (Nat × α) :=
  if v = d then adel m k else aput m k v

/-- Keys strictly rising. -/
def sortedKeys {α : Type} : List (Nat × α) → Bool
  | [] => true
  | [_] => true
  | (j, _) :: (k, w) :: t => decide (j < k) && sortedKeys ((k, w) :: t)

/-- The canonical form: keys strictly rising, and no entry equal to what its key reads as unlisted. -/
def canonical {α : Type} [DecidableEq α] (d : Nat → α) (m : List (Nat × α)) : Bool :=
  sortedKeys m && m.all (fun p => decide (p.2 ≠ d p.1))

end Sys2Proof.Machine
end

