-- ==== Sys2Proof/Machine/Bits.lean ====
section
/-!
DEFINITION. Bit fields, two's complement and byte order on natural numbers: the readings of R6 and R7 that every block
uses. Multi-byte fields in module memory are little-endian (R7); fields on the network keep their standard's order.
-/
namespace Sys2Proof.Machine

/-- Bits `hi` down to `lo` of `x`. -/
def bits (x hi lo : Nat) : Nat := (x >>> lo) % 2 ^ (hi + 1 - lo)

/-- Bit `n` of `x`. -/
def bit (x n : Nat) : Bool := (x >>> n) % 2 == 1

/-- One as a natural number where the condition holds, else zero. -/
def b2n (b : Bool) : Nat := if b then 1 else 0

/-- `x` with bits `hi` down to `lo` replaced by `v`. -/
def setBits (x hi lo v : Nat) : Nat :=
  let m := 2 ^ (hi + 1 - lo)
  x - ((x >>> lo) % m) * 2 ^ lo + (v % m) * 2 ^ lo

/-- The signed value of the low `w` bits of `x`. -/
def sext (w x : Nat) : Int :=
  let y := x % 2 ^ w
  if y < 2 ^ (w - 1) then (y : Int) else (y : Int) - (2 ^ w : Nat)

/-- The low `w` bits of a signed value. -/
def toBits (w : Nat) (i : Int) : Nat := (i % ((2 ^ w : Nat) : Int)).toNat

/-- A value held between two limits. -/
def clampN (lo hi x : Nat) : Nat := if x < lo then lo else if hi < x then hi else x

/-- A signed value held between two limits. -/
def clampI (lo hi x : Int) : Int := if x < lo then lo else if hi < x then hi else x

/-- Little-endian value of a list of bytes (R7). -/
def leNat : List Byte → Nat
  | [] => 0
  | b :: t => b.toNat + 256 * leNat t

/-- Big-endian value of a list of bytes (network order). -/
def beNat (l : List Byte) : Nat := l.foldl (fun a b => a * 256 + b.toNat) 0

/-- `n` bytes of `x`, little-endian. -/
def leBytes : Nat → Nat → List Byte
  | 0, _ => []
  | n + 1, x => BitVec.ofNat 8 x :: leBytes n (x / 256)

/-- `n` bytes of `x`, big-endian. -/
def beBytes (n x : Nat) : List Byte := (leBytes n x).reverse

/-- Bytes `o` up to `o + n` of a list, zero beyond its end. -/
def slice (l : List Byte) (o n : Nat) : List Byte :=
  let t := (l.drop o).take n
  t ++ List.replicate (n - t.length) 0

/-- Little-endian field of `n` bytes at offset `o`. -/
def leAt (l : List Byte) (o n : Nat) : Nat := leNat (slice l o n)

/-- Big-endian field of `n` bytes at offset `o`. -/
def beAt (l : List Byte) (o n : Nat) : Nat := beNat (slice l o n)

/-- The list with the bytes at offset `o` replaced by `v` (within its length). -/
def splice (l : List Byte) (o : Nat) (v : List Byte) : List Byte :=
  l.take o ++ v.take (l.length - o) ++ l.drop (o + v.length)

/-- Division rounded up. -/
def ceilDiv (a b : Nat) : Nat := (a + b - 1) / b

/-- A list of the numbers below `n` that a bit mask names, in ascending order. -/
def maskList (n m : Nat) : List Nat := (List.range n).filter (fun i => bit m i)

end Sys2Proof.Machine
end

