-- ==== Sys2Proof/Machine/RegNames.lean ====
section
/-!
DEFINITION. The fields of every register the spec tables name, as constants: the register-space offset of the
first instance (from 0x0F_0000_0000), the stride of its array, and the bit range. A field `F` of register `R` is `R_F`,
as the spec writes `R.F`; block registers take the short prefix of their block (`HC_TB`, `PT_C`, `HL_P`, ...).
-/
namespace Sys2Proof.Machine

/-- A register field: offset of the first instance from 0x0F_0000_0000, array stride, high and low bit (R36, R10). -/
structure Fld where
  addr : Nat
  stride : Nat
  hi : Nat
  lo : Nat
deriving DecidableEq, Repr

/-- Instance `k` of a field of an array. -/
def Fld.i (f : Fld) (k : Nat) : Fld := { f with addr := f.addr + k * f.stride }

/-- The same field in page `n` of a run of pages (port pages, instance pages; R36). -/
def Fld.p (f : Fld) (n : Nat) : Fld := { f with addr := f.addr + n * 0x10000 }

/-- Width of a field in bits. -/
def Fld.width (f : Fld) : Nat := f.hi + 1 - f.lo


/-! Fields of 02_house_clock.md R67. -/
def HC_CTRL_STEP_LOCK : Fld := ⟨0x40000, 0x0, 8, 8⟩
def HC_CTRL_TB0_LOCKED : Fld := ⟨0x40000, 0x0, 4, 4⟩
def HC_CTRL_GOV : Fld := ⟨0x40000, 0x0, 1, 0⟩
def HC_STATUS_SET : Fld := ⟨0x40004, 0x0, 11, 8⟩
def HC_STATUS_HOLDOVER : Fld := ⟨0x40004, 0x0, 4, 4⟩
def HC_STATUS_GOV_LOCK : Fld := ⟨0x40004, 0x0, 0, 0⟩
def HC_HOLD_WD_MS : Fld := ⟨0x40008, 0x0, 15, 0⟩
def HC_UTC_VALID : Fld := ⟨0x4000C, 0x0, 31, 31⟩
def HC_UTC_LEAP59 : Fld := ⟨0x4000C, 0x0, 17, 17⟩
def HC_UTC_LEAP61 : Fld := ⟨0x4000C, 0x0, 16, 16⟩
def HC_UTC_UTC_OFS : Fld := ⟨0x4000C, 0x0, 15, 0⟩
def HC_GRID_TICK : Fld := ⟨0x40010, 0x0, 12, 0⟩
def HC_GRID_CNT_SKIP : Fld := ⟨0x40014, 0x0, 31, 16⟩
def HC_GRID_CNT_REPEAT : Fld := ⟨0x40014, 0x0, 15, 0⟩
def HC_PPS_OUT_EN : Fld := ⟨0x40018, 0x0, 31, 31⟩
def HC_PPS_OUT_GATE : Fld := ⟨0x40018, 0x0, 30, 30⟩
def HC_PPS_OUT_TB : Fld := ⟨0x40018, 0x0, 29, 28⟩
def HC_PPS_OUT_WIDTH_MS : Fld := ⟨0x40018, 0x0, 9, 0⟩
def HC_PPS_IN_EN : Fld := ⟨0x40020, 0x0, 31, 31⟩
def HC_PPS_IN_EDGE : Fld := ⟨0x40020, 0x0, 30, 30⟩
def HC_PPS_IN_TB : Fld := ⟨0x40020, 0x0, 29, 28⟩
def HC_PPS_IN_MINW_US : Fld := ⟨0x40020, 0x0, 7, 0⟩
def HC_PPS_CNT_EDGES : Fld := ⟨0x40034, 0x0, 31, 16⟩
def HC_PPS_CNT_REJECT : Fld := ⟨0x40034, 0x0, 15, 0⟩
def HC_IRIG_CTRL_EN : Fld := ⟨0x40040, 0x0, 31, 31⟩
def HC_IRIG_CTRL_POL : Fld := ⟨0x40040, 0x0, 30, 30⟩
def HC_IRIG_CTRL_TB : Fld := ⟨0x40040, 0x0, 29, 28⟩
def HC_IRIG_DATE_VALID : Fld := ⟨0x40054, 0x0, 31, 31⟩
def HC_IRIG_DATE_YEAR_PRES : Fld := ⟨0x40054, 0x0, 30, 30⟩
def HC_IRIG_DATE_YEAR : Fld := ⟨0x40054, 0x0, 22, 16⟩
def HC_IRIG_DATE_DAY : Fld := ⟨0x40054, 0x0, 8, 0⟩
def HC_IRIG_TOD_HOUR : Fld := ⟨0x40058, 0x0, 20, 16⟩
def HC_IRIG_TOD_MIN : Fld := ⟨0x40058, 0x0, 13, 8⟩
def HC_IRIG_TOD_SEC : Fld := ⟨0x40058, 0x0, 5, 0⟩
def HC_IRIG_SBS_SBS_PRES : Fld := ⟨0x4005C, 0x0, 31, 31⟩
def HC_IRIG_SBS_SBS : Fld := ⟨0x4005C, 0x0, 16, 0⟩
def HC_IRIG_CF_CF : Fld := ⟨0x40060, 0x0, 26, 0⟩
def HC_IRIG_CNT_FRAMES : Fld := ⟨0x40064, 0x0, 31, 16⟩
def HC_IRIG_CNT_ERR : Fld := ⟨0x40064, 0x0, 15, 0⟩
def HC_PTP_CFG_TC_EN : Fld := ⟨0x40080, 0x0, 31, 31⟩
def HC_PTP_CFG_ONE_STEP_TX : Fld := ⟨0x40080, 0x0, 30, 30⟩
def HC_PTP_CFG_DOMAIN : Fld := ⟨0x40080, 0x0, 7, 0⟩
def HC_TC_PORTS_MASK : Fld := ⟨0x40084, 0x0, 18, 0⟩
def HC_TC_CNT_CORR : Fld := ⟨0x40088, 0x0, 31, 16⟩
def HC_TC_CNT_FOREIGN : Fld := ⟨0x40088, 0x0, 15, 0⟩
def HC_TB_SEC_LO : Fld := ⟨0x40100, 0x40, 31, 0⟩
def HC_TB_SEC_HI : Fld := ⟨0x40104, 0x40, 15, 0⟩
def HC_TB_NS : Fld := ⟨0x40108, 0x40, 29, 0⟩
def HC_TB_FRAC : Fld := ⟨0x4010C, 0x40, 15, 0⟩
def HC_TB_CYC_LO : Fld := ⟨0x40110, 0x40, 31, 0⟩
def HC_TB_CYC_HI : Fld := ⟨0x40114, 0x40, 31, 0⟩
def HC_TB_RATE : Fld := ⟨0x40118, 0x40, 31, 0⟩
def HC_TB_AVG : Fld := ⟨0x4011C, 0x40, 31, 0⟩
def HC_TB_SLEW : Fld := ⟨0x40120, 0x40, 31, 0⟩
def HC_TB_SLEW_PPM : Fld := ⟨0x40124, 0x40, 7, 0⟩
def HC_TB_STG_SEC_LO : Fld := ⟨0x40128, 0x40, 31, 0⟩
def HC_TB_STG_SEC_HI : Fld := ⟨0x4012C, 0x40, 15, 0⟩
def HC_TB_STG_NS : Fld := ⟨0x40130, 0x40, 29, 0⟩
def HC_TB_STG_FRAC : Fld := ⟨0x40134, 0x40, 15, 0⟩
def HC_TB_STG_AT : Fld := ⟨0x40138, 0x40, 29, 0⟩
def HC_TB_CAUSE : Fld := ⟨0x4013C, 0x40, 27, 24⟩
def HC_TB_SLEW_DONE : Fld := ⟨0x4013C, 0x40, 20, 20⟩
def HC_TB_RATE_CLAMP : Fld := ⟨0x4013C, 0x40, 19, 19⟩
def HC_TB_REFUSED : Fld := ⟨0x4013C, 0x40, 18, 18⟩
def HC_TB_DONE : Fld := ⟨0x4013C, 0x40, 17, 17⟩
def HC_TB_PEND : Fld := ⟨0x4013C, 0x40, 16, 16⟩
def HC_TB_CMD : Fld := ⟨0x4013C, 0x40, 1, 0⟩
def HC_PC_RX_LAT : Fld := ⟨0x40400, 0x10, 31, 0⟩
def HC_PC_TX_LAT : Fld := ⟨0x40404, 0x10, 31, 0⟩
def HC_PC_ASYM : Fld := ⟨0x40408, 0x10, 31, 0⟩
def HC_PC_LDLY : Fld := ⟨0x4040C, 0x10, 31, 0⟩

/-! Fields of 03_ports.md R103. -/
def PT_CTRL_EN : Fld := ⟨0x100000, 0x0, 31, 31⟩
def PT_CTRL_MODE : Fld := ⟨0x100000, 0x0, 30, 28⟩
def PT_CTRL_MAXLEN : Fld := ⟨0x100000, 0x0, 27, 26⟩
def PT_CTRL_FEC : Fld := ⟨0x100000, 0x0, 25, 24⟩
def PT_CTRL_AN_EN : Fld := ⟨0x100000, 0x0, 23, 23⟩
def PT_CTRL_UP_HOLD_MS : Fld := ⟨0x100000, 0x0, 15, 8⟩
def PT_STATUS_PREEMPT_ACTIVE : Fld := ⟨0x100004, 0x0, 15, 15⟩
def PT_STATUS_VERIFY : Fld := ⟨0x100004, 0x0, 14, 12⟩
def PT_STATUS_PAUSE_BROKEN : Fld := ⟨0x100004, 0x0, 9, 9⟩
def PT_STATUS_PAUSED : Fld := ⟨0x100004, 0x0, 8, 8⟩
def PT_STATUS_AN_DONE : Fld := ⟨0x100004, 0x0, 5, 5⟩
def PT_STATUS_PCS_LOCK : Fld := ⟨0x100004, 0x0, 4, 4⟩
def PT_STATUS_STATE : Fld := ⟨0x100004, 0x0, 1, 0⟩
def PT_CMD_PAUSE_REARM : Fld := ⟨0x100008, 0x0, 2, 2⟩
def PT_CMD_WAKE : Fld := ⟨0x100008, 0x0, 1, 1⟩
def PT_CMD_DORMANT : Fld := ⟨0x100008, 0x0, 0, 0⟩
def PT_PAUSE_RX_EN : Fld := ⟨0x10000C, 0x0, 31, 31⟩
def PT_PAUSE_WD_US : Fld := ⟨0x10000C, 0x0, 15, 0⟩
def PT_PREEMPT_EN : Fld := ⟨0x100010, 0x0, 31, 31⟩
def PT_PREEMPT_VERIFY_DIS : Fld := ⟨0x100010, 0x0, 30, 30⟩
def PT_PREEMPT_EXPRESS_MASK : Fld := ⟨0x100010, 0x0, 23, 16⟩
def PT_PREEMPT_VERIFY_MS : Fld := ⟨0x100010, 0x0, 7, 0⟩
def PT_EVENT_WAKE : Fld := ⟨0x100014, 0x0, 4, 4⟩
def PT_EVENT_VERIFY_FAIL : Fld := ⟨0x100014, 0x0, 3, 3⟩
def PT_EVENT_PAUSE_WD : Fld := ⟨0x100014, 0x0, 2, 2⟩
def PT_EVENT_LINK_DOWN : Fld := ⟨0x100014, 0x0, 1, 1⟩
def PT_EVENT_LINK_UP : Fld := ⟨0x100014, 0x0, 0, 0⟩
def PT_MAC_LO_MAC_LO : Fld := ⟨0x100018, 0x0, 31, 0⟩
def PT_MAC_HI_MAC_HI : Fld := ⟨0x10001C, 0x0, 15, 0⟩
def PT_C_RX_FRAMES : Fld := ⟨0x100100, 0x0, 31, 0⟩
def PT_C_RX_OCT_LO : Fld := ⟨0x100104, 0x0, 31, 0⟩
def PT_C_RX_OCT_HI : Fld := ⟨0x100108, 0x0, 31, 0⟩
def PT_C_TX_FRAMES : Fld := ⟨0x10010C, 0x0, 31, 0⟩
def PT_C_TX_OCT_LO : Fld := ⟨0x100110, 0x0, 31, 0⟩
def PT_C_TX_OCT_HI : Fld := ⟨0x100114, 0x0, 31, 0⟩
def PT_C_OVERSIZE : Fld := ⟨0x100118, 0x0, 31, 16⟩
def PT_C_RUNT : Fld := ⟨0x100118, 0x0, 15, 0⟩
def PT_C_MACCTL : Fld := ⟨0x10011C, 0x0, 31, 16⟩
def PT_C_FCS_ERR : Fld := ⟨0x10011C, 0x0, 15, 0⟩
def PT_C_PAUSE_WD : Fld := ⟨0x100120, 0x0, 31, 16⟩
def PT_C_PAUSE_RX : Fld := ⟨0x100120, 0x0, 15, 0⟩
def PT_C_REASM_ERR : Fld := ⟨0x100124, 0x0, 31, 16⟩
def PT_C_FRAG_RX : Fld := ⟨0x100124, 0x0, 15, 0⟩
def PT_C_VERIFY_FAIL : Fld := ⟨0x100128, 0x0, 31, 16⟩
def PT_C_FRAG_TX : Fld := ⟨0x100128, 0x0, 15, 0⟩
def PT_C_LINK_DOWN : Fld := ⟨0x10012C, 0x0, 31, 16⟩
def PT_C_DORMANT_DROP : Fld := ⟨0x10012C, 0x0, 15, 0⟩
def PT_C_WAKE_HIT : Fld := ⟨0x100130, 0x0, 31, 16⟩
def PT_C_TAIL_TX : Fld := ⟨0x100130, 0x0, 15, 0⟩
def PT_WK_MASK0 : Fld := ⟨0x100200, 0x20, 31, 0⟩
def PT_WK_MASK1 : Fld := ⟨0x100204, 0x20, 31, 0⟩
def PT_WK_MASK2 : Fld := ⟨0x100208, 0x20, 31, 0⟩
def PT_WK_MASK3 : Fld := ⟨0x10020C, 0x20, 31, 0⟩
def PT_WK_EN : Fld := ⟨0x100210, 0x20, 31, 31⟩
def PT_WK_WAKE_PORT : Fld := ⟨0x100210, 0x20, 30, 30⟩
def PT_WK_WAKE_DOMAIN : Fld := ⟨0x100210, 0x20, 29, 29⟩
def PT_WK_DISCOVER : Fld := ⟨0x100210, 0x20, 28, 28⟩
def PT_WK_DOMAIN : Fld := ⟨0x100210, 0x20, 27, 24⟩
def PT_WK_CHECK : Fld := ⟨0x100210, 0x20, 15, 0⟩
def PT_RING_RX_BASE_LO : Fld := ⟨0x100400, 0x40, 31, 12⟩
def PT_RING_RX_BASE_HI : Fld := ⟨0x100404, 0x40, 7, 0⟩
def PT_RING_RX_SIZE : Fld := ⟨0x100408, 0x40, 12, 0⟩
def PT_RING_RX_NEXT : Fld := ⟨0x10040C, 0x40, 11, 0⟩
def PT_RING_TX_BASE_LO : Fld := ⟨0x100410, 0x40, 31, 12⟩
def PT_RING_TX_BASE_HI : Fld := ⟨0x100414, 0x40, 7, 0⟩
def PT_RING_TX_SIZE : Fld := ⟨0x100418, 0x40, 12, 0⟩
def PT_RING_TX_NEXT : Fld := ⟨0x10041C, 0x40, 11, 0⟩
def PT_RING_RX_NOBUF : Fld := ⟨0x100420, 0x40, 31, 16⟩
def PT_RING_RX_TRUNC : Fld := ⟨0x100420, 0x40, 15, 0⟩

/-! Fields of 04_hall_and_larder.md R134. -/
def HL_CTRL_EN : Fld := ⟨0x300000, 0x0, 31, 31⟩
def HL_CTRL_CUT_EN : Fld := ⟨0x300000, 0x0, 30, 30⟩
def HL_CTRL_SCRUB_US : Fld := ⟨0x300000, 0x0, 9, 0⟩
def HL_STATUS_FREE : Fld := ⟨0x300004, 0x0, 16, 0⟩
def HL_ALPHA_ALPHA_7 : Fld := ⟨0x300010, 0x0, 31, 28⟩
def HL_ALPHA_ALPHA_6 : Fld := ⟨0x300010, 0x0, 27, 24⟩
def HL_ALPHA_ALPHA_5 : Fld := ⟨0x300010, 0x0, 23, 20⟩
def HL_ALPHA_ALPHA_4 : Fld := ⟨0x300010, 0x0, 19, 16⟩
def HL_ALPHA_ALPHA_3 : Fld := ⟨0x300010, 0x0, 15, 12⟩
def HL_ALPHA_ALPHA_2 : Fld := ⟨0x300010, 0x0, 11, 8⟩
def HL_ALPHA_ALPHA_1 : Fld := ⟨0x300010, 0x0, 7, 4⟩
def HL_ALPHA_ALPHA_0 : Fld := ⟨0x300010, 0x0, 3, 0⟩
def HL_LIFE_LIFE_US : Fld := ⟨0x300020, 0x4, 15, 0⟩
def HL_DUP_FORGET_MS : Fld := ⟨0x300040, 0x0, 15, 0⟩
def HL_RED_MODE : Fld := ⟨0x300050, 0x4, 31, 30⟩
def HL_RED_SEQ : Fld := ⟨0x300050, 0x4, 15, 0⟩
def HL_EVENT_ADMIT : Fld := ⟨0x300070, 0x0, 4, 4⟩
def HL_EVENT_FLUSH : Fld := ⟨0x300070, 0x0, 3, 3⟩
def HL_EVENT_DUP_FULL : Fld := ⟨0x300070, 0x0, 2, 2⟩
def HL_EVENT_TAIL : Fld := ⟨0x300070, 0x0, 1, 1⟩
def HL_EVENT_LIFE : Fld := ⟨0x300070, 0x0, 0, 0⟩
def HL_G_TAIL_MARK : Fld := ⟨0x300080, 0x0, 31, 16⟩
def HL_G_BAD_DROP : Fld := ⟨0x300080, 0x0, 15, 0⟩
def HL_G_DUP_DROP : Fld := ⟨0x300084, 0x0, 31, 16⟩
def HL_G_DUP_FULL : Fld := ⟨0x300084, 0x0, 15, 0⟩
def HL_G_HSR_OWN : Fld := ⟨0x300088, 0x0, 31, 16⟩
def HL_G_GEN_DROP : Fld := ⟨0x300088, 0x0, 15, 0⟩
def HL_P_ACCEPT : Fld := ⟨0x300400, 0x40, 31, 30⟩
def HL_P_IFILT : Fld := ⟨0x300400, 0x40, 29, 29⟩
def HL_P_PCP_DEF : Fld := ⟨0x300400, 0x40, 28, 26⟩
def HL_P_PCP_MAP : Fld := ⟨0x300400, 0x40, 23, 0⟩
def HL_P_GRACE_MS : Fld := ⟨0x300404, 0x40, 19, 16⟩
def HL_P_PVID : Fld := ⟨0x300404, 0x40, 11, 0⟩
def HL_P_ADMIT_DROP : Fld := ⟨0x300408, 0x40, 31, 16⟩
def HL_P_MC_PARTIAL : Fld := ⟨0x300408, 0x40, 15, 0⟩
def HL_P_LIFE_DROP : Fld := ⟨0x30040C, 0x40, 31, 16⟩
def HL_P_FLUSH : Fld := ⟨0x30040C, 0x40, 15, 0⟩
def HL_P_DOWN_DROP : Fld := ⟨0x300410, 0x40, 31, 16⟩
def HL_P_TX_ABORT : Fld := ⟨0x300410, 0x40, 15, 0⟩
def HL_P_VLAN_DROP : Fld := ⟨0x300414, 0x40, 31, 16⟩
def HL_P_EGR_SIZE : Fld := ⟨0x300414, 0x40, 15, 0⟩
def HL_QUEUE_CELLS : Fld := ⟨0x301000, 0x4, 16, 0⟩
def HL_V_MEMBER : Fld := ⟨0x308000, 0x8, 18, 0⟩
def HL_V_FLOOD : Fld := ⟨0x308004, 0x8, 19, 19⟩
def HL_V_UNTAG : Fld := ⟨0x308004, 0x8, 18, 0⟩

/-! Fields of 05_subscription.md R158. -/
def SB_CTRL_EN : Fld := ⟨0x400000, 0x0, 31, 31⟩
def SB_CTRL_SIM : Fld := ⟨0x400000, 0x0, 30, 30⟩
def SB_CTRL_VEST_EN : Fld := ⟨0x400000, 0x0, 29, 29⟩
def SB_CTRL_VEST_AGE_S : Fld := ⟨0x400000, 0x0, 15, 0⟩
def SB_STATUS_DISC_LEVEL : Fld := ⟨0x400004, 0x0, 25, 16⟩
def SB_STATUS_VEST_USED : Fld := ⟨0x400004, 0x0, 8, 0⟩
def SB_EVENT_VERIFY_BUSY : Fld := ⟨0x400008, 0x0, 5, 5⟩
def SB_EVENT_VEST_FULL : Fld := ⟨0x400008, 0x0, 4, 4⟩
def SB_EVENT_VEST_NEW : Fld := ⟨0x400008, 0x0, 3, 3⟩
def SB_EVENT_AUTH_FAIL : Fld := ⟨0x400008, 0x0, 2, 2⟩
def SB_EVENT_DISC_LOST : Fld := ⟨0x400008, 0x0, 1, 1⟩
def SB_EVENT_DISC : Fld := ⟨0x400008, 0x0, 0, 0⟩
def SB_TBL_IDX_IDX : Fld := ⟨0x400010, 0x0, 14, 0⟩
def SB_MAP_IDX_IDX : Fld := ⟨0x400020, 0x0, 14, 0⟩
def SB_ST_IDX_IDX : Fld := ⟨0x400080, 0x0, 14, 0⟩
def SB_VEST_IDX_IDX : Fld := ⟨0x400140, 0x0, 14, 0⟩
def SB_TBL_CMD_CMD : Fld := ⟨0x400014, 0x0, 1, 0⟩
def SB_MAP_CMD_CMD : Fld := ⟨0x400024, 0x0, 1, 0⟩
def SB_VEST_CMD_CMD : Fld := ⟨0x400144, 0x0, 1, 0⟩
def SB_ST0_STATE : Fld := ⟨0x4000A0, 0x0, 31, 30⟩
def SB_ST0_SIM_SRC : Fld := ⟨0x4000A0, 0x0, 29, 29⟩
def SB_ST0_LAST_CAUSE : Fld := ⟨0x4000A0, 0x0, 28, 24⟩
def SB_ST0_LAST_SYNC : Fld := ⟨0x4000A0, 0x0, 23, 16⟩
def SB_ST0_LAST_SMPCNT : Fld := ⟨0x4000A0, 0x0, 15, 0⟩
def SB_ST1_LAST_REV : Fld := ⟨0x4000A4, 0x0, 31, 0⟩
def SB_ST2_LAST_SQ : Fld := ⟨0x4000A8, 0x0, 31, 0⟩
def SB_ST3_RX_OK : Fld := ⟨0x4000AC, 0x0, 31, 16⟩
def SB_ST3_AUTH_FAIL : Fld := ⟨0x4000AC, 0x0, 15, 0⟩
def SB_ST4_AUTH_MISSING : Fld := ⟨0x4000B0, 0x0, 31, 16⟩
def SB_ST4_SIM_DROP : Fld := ⟨0x4000B0, 0x0, 15, 0⟩
def SB_ST5_LAYOUT : Fld := ⟨0x4000B4, 0x0, 31, 16⟩
def SB_ST5_UNSYNC : Fld := ⟨0x4000B4, 0x0, 15, 0⟩
def SB_ST6_CONFREV_ERR : Fld := ⟨0x4000B8, 0x0, 31, 16⟩
def SB_ST6_SMPCNT_ERR : Fld := ⟨0x4000B8, 0x0, 15, 0⟩
def SB_ST7_STNUM_OLD : Fld := ⟨0x4000BC, 0x0, 31, 16⟩
def SB_ST7_TYPE_ERR : Fld := ⟨0x4000BC, 0x0, 15, 0⟩
def SB_G_UNKNOWN : Fld := ⟨0x400200, 0x0, 31, 16⟩
def SB_G_ID_FAR : Fld := ⟨0x400200, 0x0, 15, 0⟩
def SB_G_VEST_FULL : Fld := ⟨0x400204, 0x0, 31, 16⟩
def SB_G_VERIFY_BUSY : Fld := ⟨0x400204, 0x0, 15, 0⟩
def SB_G_DISC_LOST : Fld := ⟨0x400208, 0x0, 31, 16⟩
def SB_G_SRC_REFUSED : Fld := ⟨0x400208, 0x0, 15, 0⟩
def SB_G_STALE_ENTRY : Fld := ⟨0x40020C, 0x0, 15, 0⟩

/-! Fields of 06_alignment.md R185. -/
def AL_CTRL_EN : Fld := ⟨0x500000, 0x0, 31, 31⟩
def AL_CTRL_CONCEAL_EN : Fld := ⟨0x500000, 0x0, 30, 30⟩
def AL_STATUS_LAST_TICK : Fld := ⟨0x500004, 0x0, 28, 16⟩
def AL_STATUS_LAST_GROUP : Fld := ⟨0x500004, 0x0, 5, 0⟩
def AL_EVENT_REFUSED : Fld := ⟨0x500008, 0x0, 4, 4⟩
def AL_EVENT_DUP : Fld := ⟨0x500008, 0x0, 3, 3⟩
def AL_EVENT_EARLY : Fld := ⟨0x500008, 0x0, 2, 2⟩
def AL_EVENT_ABSENT : Fld := ⟨0x500008, 0x0, 1, 1⟩
def AL_EVENT_LATE : Fld := ⟨0x500008, 0x0, 0, 0⟩
def AL_STR_IDX_IDX : Fld := ⟨0x500010, 0x0, 9, 0⟩
def AL_CNT_IDX_IDX : Fld := ⟨0x500020, 0x0, 9, 0⟩
def AL_STR_CMD_CMD : Fld := ⟨0x500014, 0x0, 1, 0⟩
def AL_CNT0_LATE : Fld := ⟨0x500024, 0x0, 31, 16⟩
def AL_CNT0_DUP_SAMPLE : Fld := ⟨0x500024, 0x0, 15, 0⟩
def AL_CNT1_CONCEAL : Fld := ⟨0x500028, 0x0, 31, 16⟩
def AL_CNT1_ABSENT : Fld := ⟨0x500028, 0x0, 15, 0⟩
def AL_CNT2_EARLY : Fld := ⟨0x50002C, 0x0, 31, 16⟩
def AL_CNT2_PRESENT : Fld := ⟨0x50002C, 0x0, 15, 0⟩
def AL_GROUP_EN : Fld := ⟨0x500100, 0x4, 31, 31⟩
def AL_GROUP_FNOM : Fld := ⟨0x500100, 0x4, 30, 30⟩
def AL_GROUP_W_US : Fld := ⟨0x500100, 0x4, 10, 0⟩
def AL_INBOX_DEPTH : Fld := ⟨0x500200, 0x4, 31, 30⟩
def AL_INBOX_OFS : Fld := ⟨0x500200, 0x4, 18, 6⟩
def AL_G_LATE_ALL : Fld := ⟨0x500280, 0x0, 31, 16⟩
def AL_G_ABSENT_ALL : Fld := ⟨0x500280, 0x0, 15, 0⟩
def AL_G_NO_STREAM : Fld := ⟨0x500284, 0x0, 31, 16⟩

/-! Fields of 07_local_acquisition.md R209. -/
def AQ_CTRL_EN : Fld := ⟨0x900000, 0x0, 31, 31⟩
def AQ_STATUS_RUN : Fld := ⟨0x900004, 0x0, 19, 16⟩
def AQ_STATUS_SETTLING : Fld := ⟨0x900004, 0x0, 15, 12⟩
def AQ_STATUS_CLAMP : Fld := ⟨0x900004, 0x0, 11, 0⟩
def AQ_EVENT_BUF : Fld := ⟨0x900008, 0x0, 5, 5⟩
def AQ_EVENT_REFUSED : Fld := ⟨0x900008, 0x0, 4, 4⟩
def AQ_EVENT_TDC_LOST : Fld := ⟨0x900008, 0x0, 3, 3⟩
def AQ_EVENT_THR : Fld := ⟨0x900008, 0x0, 2, 2⟩
def AQ_EVENT_CLAMP : Fld := ⟨0x900008, 0x0, 1, 1⟩
def AQ_EVENT_OVR : Fld := ⟨0x900008, 0x0, 0, 0⟩
def AQ_BANK_EN : Fld := ⟨0x900010, 0x4, 31, 31⟩
def AQ_BANK_PRESET : Fld := ⟨0x900010, 0x4, 27, 26⟩
def AQ_BANK_NOTCH : Fld := ⟨0x900010, 0x4, 25, 24⟩
def AQ_BANK_SETTLE : Fld := ⟨0x900010, 0x4, 14, 8⟩
def AQ_BUF_BASE_LO : Fld := ⟨0x900040, 0x10, 31, 12⟩
def AQ_BUF_BASE_HI : Fld := ⟨0x900044, 0x10, 7, 0⟩
def AQ_BUF_SIZE_LOG2 : Fld := ⟨0x900048, 0x10, 20, 16⟩
def AQ_BUF_IRQ_LOG2 : Fld := ⟨0x900048, 0x10, 4, 0⟩
def AQ_BUF_SEQ : Fld := ⟨0x90004C, 0x10, 31, 0⟩
def AQ_TDC_IDX_CH : Fld := ⟨0x900080, 0x0, 4, 0⟩
def AQ_TDC_W0_VALID : Fld := ⟨0x900090, 0x0, 31, 31⟩
def AQ_TDC_W0_EDGE : Fld := ⟨0x900090, 0x0, 30, 29⟩
def AQ_TDC_W0_LEVEL : Fld := ⟨0x900090, 0x0, 20, 16⟩
def AQ_TDC_W1_SEC_LO : Fld := ⟨0x900094, 0x0, 31, 0⟩
def AQ_TDC_W2_TB : Fld := ⟨0x900098, 0x0, 31, 30⟩
def AQ_TDC_W2_NS : Fld := ⟨0x900098, 0x0, 29, 0⟩
def AQ_TDC_W3_SEC_HI : Fld := ⟨0x90009C, 0x0, 15, 0⟩
def AQ_CH_EN : Fld := ⟨0x900100, 0x20, 31, 31⟩
def AQ_CH_SRC : Fld := ⟨0x900100, 0x20, 30, 30⟩
def AQ_CH_THR_EN : Fld := ⟨0x900100, 0x20, 29, 29⟩
def AQ_CH_CMP_EN : Fld := ⟨0x900100, 0x20, 28, 28⟩
def AQ_CH_PHASE : Fld := ⟨0x900100, 0x20, 11, 0⟩
def AQ_CH_CAL_GAIN : Fld := ⟨0x900104, 0x20, 23, 0⟩
def AQ_CH_CAL_OFS : Fld := ⟨0x900108, 0x20, 23, 0⟩
def AQ_CH_PUB_SCALE : Fld := ⟨0x90010C, 0x20, 31, 0⟩
def AQ_CH_THR_HI : Fld := ⟨0x900110, 0x20, 23, 0⟩
def AQ_CH_THR_LO : Fld := ⟨0x900114, 0x20, 23, 0⟩
def AQ_CH_CMP_HI : Fld := ⟨0x900118, 0x20, 31, 24⟩
def AQ_CH_CMP_LO : Fld := ⟨0x900118, 0x20, 23, 16⟩
def AQ_CH_THR_HYST : Fld := ⟨0x900118, 0x20, 15, 0⟩
def AQ_CH_OVR : Fld := ⟨0x90011C, 0x20, 31, 31⟩
def AQ_CH_SETTLING : Fld := ⟨0x90011C, 0x20, 30, 30⟩
def AQ_CH_CLAMP_MARK : Fld := ⟨0x90011C, 0x20, 29, 29⟩
def AQ_CH_HI : Fld := ⟨0x90011C, 0x20, 28, 28⟩
def AQ_CH_LO : Fld := ⟨0x90011C, 0x20, 27, 27⟩
def AQ_CH_CAUSE : Fld := ⟨0x90011C, 0x20, 26, 24⟩
def AQ_CH_OVR_EP : Fld := ⟨0x90011C, 0x20, 23, 16⟩
def AQ_CH_THR_EV : Fld := ⟨0x90011C, 0x20, 15, 8⟩
def AQ_CH_TDC_LOST : Fld := ⟨0x90011C, 0x20, 7, 0⟩

/-! Fields of 08_dispatch.md R235. -/
def DS_CTRL_EN : Fld := ⟨0x700000, 0x0, 31, 31⟩
def DS_CTRL_READY_EN : Fld := ⟨0x700000, 0x0, 30, 30⟩
def DS_STATUS_ARMED : Fld := ⟨0x700004, 0x0, 14, 0⟩
def DS_EVENT_REFUSED : Fld := ⟨0x700008, 0x0, 4, 4⟩
def DS_EVENT_COST_OVER : Fld := ⟨0x700008, 0x0, 3, 3⟩
def DS_EVENT_BUDGET : Fld := ⟨0x700008, 0x0, 2, 2⟩
def DS_EVENT_DL_MISS : Fld := ⟨0x700008, 0x0, 1, 1⟩
def DS_EVENT_SLOT_MISS : Fld := ⟨0x700008, 0x0, 0, 0⟩
def DS_TASK_IDX_IDX : Fld := ⟨0x700010, 0x0, 14, 0⟩
def DS_SLOT_IDX_IDX : Fld := ⟨0x700020, 0x0, 14, 0⟩
def DS_TMR_IDX_IDX : Fld := ⟨0x700030, 0x0, 14, 0⟩
def DS_CNT_IDX_IDX : Fld := ⟨0x700090, 0x0, 14, 0⟩
def DS_FLOW_IDX_IDX : Fld := ⟨0x7000A0, 0x0, 14, 0⟩
def DS_TASK_CMD_CMD : Fld := ⟨0x700014, 0x0, 1, 0⟩
def DS_SLOT_CMD_CMD : Fld := ⟨0x700024, 0x0, 1, 0⟩
def DS_TMR_CMD_CMD : Fld := ⟨0x700034, 0x0, 2, 0⟩
def DS_TMR_DELAY_DELAY_US : Fld := ⟨0x700038, 0x0, 31, 0⟩
def DS_TCNT0_RUNS : Fld := ⟨0x700094, 0x0, 31, 0⟩
def DS_TCNT1_SLOT_MISS : Fld := ⟨0x700098, 0x0, 31, 24⟩
def DS_TCNT1_TIMEOUT : Fld := ⟨0x700098, 0x0, 23, 16⟩
def DS_TCNT1_DL_MISS : Fld := ⟨0x700098, 0x0, 15, 8⟩
def DS_TCNT1_OVERWRITE : Fld := ⟨0x700098, 0x0, 7, 4⟩
def DS_TCNT1_COST_OVER : Fld := ⟨0x700098, 0x0, 3, 0⟩
def DS_FLOW_STAT_BUSY : Fld := ⟨0x7000A4, 0x0, 31, 31⟩
def DS_FLOW_STAT_WAITING : Fld := ⟨0x7000A4, 0x0, 12, 0⟩
def DS_G_GEN_DROP : Fld := ⟨0x7000B0, 0x0, 31, 16⟩
def DS_G_FENCE_SKIP : Fld := ⟨0x7000B0, 0x0, 15, 0⟩
def DS_G_WATCH_CANCEL : Fld := ⟨0x7000B4, 0x0, 31, 16⟩
def DS_G_STEP_FIRE : Fld := ⟨0x7000B4, 0x0, 15, 0⟩
def DS_G_PORT_HOLD : Fld := ⟨0x7000B8, 0x0, 15, 0⟩
def DS_VI_BUDGET : Fld := ⟨0x701000, 0x8, 17, 0⟩
def DS_VI_SLOT_MISS : Fld := ⟨0x701004, 0x8, 31, 16⟩
def DS_VI_DL_MISS : Fld := ⟨0x701004, 0x8, 15, 8⟩
def DS_VI_BUDGET_WAIT : Fld := ⟨0x701004, 0x8, 7, 0⟩

/-! Fields of 10_publication_trip.md R280. -/
def PB_CTRL_EN : Fld := ⟨0x600000, 0x0, 31, 31⟩
def PB_STATUS_GATE_OPEN : Fld := ⟨0x600004, 0x0, 31, 31⟩
def PB_STATUS_PIPE_BUSY : Fld := ⟨0x600004, 0x0, 21, 16⟩
def PB_STATUS_BG_LEVEL : Fld := ⟨0x600004, 0x0, 8, 0⟩
def PB_EVENT_STALE : Fld := ⟨0x600008, 0x0, 5, 5⟩
def PB_EVENT_KEY : Fld := ⟨0x600008, 0x0, 4, 4⟩
def PB_EVENT_TOKEN : Fld := ⟨0x600008, 0x0, 3, 3⟩
def PB_EVENT_BUSY : Fld := ⟨0x600008, 0x0, 2, 2⟩
def PB_EVENT_FG_WAIT : Fld := ⟨0x600008, 0x0, 1, 1⟩
def PB_EVENT_REFUSED : Fld := ⟨0x600008, 0x0, 0, 0⟩
def PB_CB_IDX_IDX : Fld := ⟨0x600010, 0x0, 11, 0⟩
def PB_ST_IDX_IDX : Fld := ⟨0x600080, 0x0, 11, 0⟩
def PB_CB_CMD_CMD : Fld := ⟨0x600014, 0x0, 1, 0⟩
def PB_ST0_STNUM : Fld := ⟨0x600090, 0x0, 31, 0⟩
def PB_ST1_SQNUM : Fld := ⟨0x600094, 0x0, 31, 0⟩
def PB_ST2_GATED : Fld := ⟨0x600098, 0x0, 31, 16⟩
def PB_ST2_SAME : Fld := ⟨0x600098, 0x0, 15, 0⟩
def PB_ST3_KEY_ERR : Fld := ⟨0x60009C, 0x0, 31, 24⟩
def PB_ST3_ADMIT : Fld := ⟨0x60009C, 0x0, 23, 16⟩
def PB_ST3_SV_SHORT : Fld := ⟨0x60009C, 0x0, 15, 8⟩
def PB_ST3_REQ_REFUSED : Fld := ⟨0x60009C, 0x0, 7, 0⟩
def PB_TRIP_EN : Fld := ⟨0x600200, 0x4, 31, 31⟩
def PB_TRIP_CMD : Fld := ⟨0x600200, 0x4, 30, 30⟩
def PB_TRIP_MIN_ON_MS : Fld := ⟨0x600200, 0x4, 27, 16⟩
def PB_TRIP_REFRESH_TK : Fld := ⟨0x600200, 0x4, 15, 8⟩
def PB_TRIP_TRIP_STALE : Fld := ⟨0x600200, 0x4, 7, 4⟩
def PB_TRIP_TRIP_REFUSED : Fld := ⟨0x600200, 0x4, 3, 0⟩
def PB_G_FG_WAIT : Fld := ⟨0x600300, 0x0, 31, 16⟩
def PB_G_BG_WAIT : Fld := ⟨0x600300, 0x0, 15, 0⟩
def PB_G_BUSY : Fld := ⟨0x600304, 0x0, 31, 16⟩
def PB_G_GATED_ALL : Fld := ⟨0x600304, 0x0, 15, 0⟩
def PB_G_FRAMES : Fld := ⟨0x600308, 0x0, 31, 0⟩
def PB_VI_TB_RATE : Fld := ⟨0x601000, 0x8, 31, 16⟩
def PB_VI_TB_DEPTH : Fld := ⟨0x601000, 0x8, 15, 0⟩
def PB_VI_TB_DROP : Fld := ⟨0x601004, 0x8, 31, 16⟩

/-! Fields of 12_logic_engine.md R312. -/
def LG_CTRL_EN : Fld := ⟨0x800000, 0x0, 31, 31⟩
def LG_CTRL_SAVE_EN : Fld := ⟨0x800000, 0x0, 30, 30⟩
def LG_STATUS_FORCED : Fld := ⟨0x800004, 0x0, 31, 31⟩
def LG_STATUS_FORCE_N : Fld := ⟨0x800004, 0x0, 22, 16⟩
def LG_STATUS_ACTIVE_N : Fld := ⟨0x800004, 0x0, 8, 0⟩
def LG_EVENT_RET_BAD : Fld := ⟨0x800008, 0x0, 6, 6⟩
def LG_EVENT_XCH_REFUSED : Fld := ⟨0x800008, 0x0, 5, 5⟩
def LG_EVENT_XCH_DONE : Fld := ⟨0x800008, 0x0, 4, 4⟩
def LG_EVENT_SAVE_ABORT : Fld := ⟨0x800008, 0x0, 3, 3⟩
def LG_EVENT_SKIP : Fld := ⟨0x800008, 0x0, 2, 2⟩
def LG_EVENT_OVERRUN : Fld := ⟨0x800008, 0x0, 1, 1⟩
def LG_EVENT_REFUSED : Fld := ⟨0x800008, 0x0, 0, 0⟩
def LG_PRG_IDX_IDX : Fld := ⟨0x800010, 0x0, 7, 0⟩
def LG_FRC_IDX_IDX : Fld := ⟨0x800020, 0x0, 7, 0⟩
def LG_ST_IDX_IDX : Fld := ⟨0x800030, 0x0, 7, 0⟩
def LG_PRG_CMD_CMD : Fld := ⟨0x800014, 0x0, 1, 0⟩
def LG_FRC_CMD_CMD : Fld := ⟨0x800024, 0x0, 1, 0⟩
def LG_XCH_CMD : Fld := ⟨0x800018, 0x0, 31, 30⟩
def LG_XCH_PEND : Fld := ⟨0x800018, 0x0, 29, 29⟩
def LG_XCH_CAUSE : Fld := ⟨0x800018, 0x0, 27, 24⟩
def LG_XCH_NEW : Fld := ⟨0x800018, 0x0, 23, 16⟩
def LG_XCH_OLD : Fld := ⟨0x800018, 0x0, 7, 0⟩
def LG_PST0_SEQ : Fld := ⟨0x8000A0, 0x0, 31, 0⟩
def LG_PST1_STATE : Fld := ⟨0x8000A4, 0x0, 31, 30⟩
def LG_PST1_KIND : Fld := ⟨0x8000A4, 0x0, 29, 28⟩
def LG_PST1_LAST_US : Fld := ⟨0x8000A4, 0x0, 16, 0⟩
def LG_PST2_MAX_US : Fld := ⟨0x8000A8, 0x0, 16, 0⟩
def LG_PST3_OVERRUN : Fld := ⟨0x8000AC, 0x0, 31, 24⟩
def LG_PST3_SKIP : Fld := ⟨0x8000AC, 0x0, 23, 16⟩
def LG_PST3_SAVE_ABORT : Fld := ⟨0x8000AC, 0x0, 15, 8⟩
def LG_G_KEPT : Fld := ⟨0x8000C0, 0x0, 31, 16⟩
def LG_G_INIT : Fld := ⟨0x8000C0, 0x0, 15, 0⟩
def LG_G_RET_BAD : Fld := ⟨0x8000C4, 0x0, 31, 16⟩
def LG_G_FORCE_DROP : Fld := ⟨0x8000C4, 0x0, 15, 0⟩

/-! Fields of 13_drive_unit.md R327. -/
def DU_CTRL_EN : Fld := ⟨0xA00000, 0x0, 31, 31⟩
def DU_EVENT_SNS_LOST : Fld := ⟨0xA00004, 0x0, 5, 5⟩
def DU_EVENT_FAULT : Fld := ⟨0xA00004, 0x0, 4, 4⟩
def DU_EVENT_PULSE : Fld := ⟨0xA00004, 0x0, 3, 3⟩
def DU_EVENT_DT_TIMEOUT : Fld := ⟨0xA00004, 0x0, 2, 2⟩
def DU_EVENT_CLAMP : Fld := ⟨0xA00004, 0x0, 1, 1⟩
def DU_EVENT_REFUSED : Fld := ⟨0xA00004, 0x0, 0, 0⟩
def DU_COMMIT_ARM : Fld := ⟨0xA00008, 0x0, 11, 0⟩
def DU_PEND_PEND : Fld := ⟨0xA0000C, 0x0, 11, 0⟩
def DU_FLT_EN : Fld := ⟨0xA00020, 0x4, 31, 31⟩
def DU_FLT_POL : Fld := ⟨0xA00020, 0x4, 30, 30⟩
def DU_FLT_ACTION : Fld := ⟨0xA00020, 0x4, 29, 29⟩
def DU_FLT_BLANK_EN : Fld := ⟨0xA00020, 0x4, 28, 28⟩
def DU_FLT_BLANK_PAIR : Fld := ⟨0xA00020, 0x4, 27, 24⟩
def DU_FLT_FILT : Fld := ⟨0xA00020, 0x4, 23, 20⟩
def DU_FLT_CLEAR : Fld := ⟨0xA00020, 0x4, 16, 16⟩
def DU_FLT_LATCHED : Fld := ⟨0xA00020, 0x4, 15, 15⟩
def DU_FLT_RECOG : Fld := ⟨0xA00020, 0x4, 14, 14⟩
def DU_FLT_COUNT : Fld := ⟨0xA00020, 0x4, 7, 0⟩
def DU_SNS_STATE_RAW : Fld := ⟨0xA00040, 0x0, 31, 16⟩
def DU_SNS_STATE_DEB : Fld := ⟨0xA00040, 0x0, 15, 0⟩
def DU_G_SNS_LOST : Fld := ⟨0xA00044, 0x0, 31, 16⟩
def DU_SNS_W0_VALID : Fld := ⟨0xA00050, 0x0, 31, 31⟩
def DU_SNS_W0_LEVEL : Fld := ⟨0xA00050, 0x0, 30, 30⟩
def DU_SNS_W0_NUM : Fld := ⟨0xA00050, 0x0, 22, 16⟩
def DU_SNS_W0_INPUT : Fld := ⟨0xA00050, 0x0, 3, 0⟩
def DU_SNS_W1_SEC_LO : Fld := ⟨0xA00054, 0x0, 31, 0⟩
def DU_SNS_W2_TB : Fld := ⟨0xA00058, 0x0, 31, 30⟩
def DU_SNS_W2_NS : Fld := ⟨0xA00058, 0x0, 29, 0⟩
def DU_SNS_W3_SEC_HI : Fld := ⟨0xA0005C, 0x0, 15, 0⟩
def DU_SI_EN : Fld := ⟨0xA00080, 0x8, 31, 31⟩
def DU_SI_MARK : Fld := ⟨0xA00080, 0x8, 30, 30⟩
def DU_SI_SLOT : Fld := ⟨0xA00080, 0x8, 14, 0⟩
def DU_SI_CHANGES : Fld := ⟨0xA00084, 0x8, 31, 16⟩
def DU_SI_DEB_US : Fld := ⟨0xA00084, 0x8, 15, 0⟩
def DU_P_EN : Fld := ⟨0xA00200, 0x40, 31, 31⟩
def DU_P_MODE : Fld := ⟨0xA00200, 0x40, 30, 29⟩
def DU_P_LOAD : Fld := ⟨0xA00200, 0x40, 28, 28⟩
def DU_P_POLICY : Fld := ⟨0xA00200, 0x40, 27, 27⟩
def DU_P_ADAPT : Fld := ⟨0xA00200, 0x40, 26, 26⟩
def DU_P_PRESC : Fld := ⟨0xA00200, 0x40, 23, 20⟩
def DU_P_IRQ_EN : Fld := ⟨0xA00200, 0x40, 19, 16⟩
def DU_P_TRG_EN : Fld := ⟨0xA00200, 0x40, 15, 12⟩
def DU_P_FLT_MASK : Fld := ⟨0xA00200, 0x40, 7, 0⟩
def DU_P_PER : Fld := ⟨0xA00204, 0x40, 23, 0⟩
def DU_P_DUTY : Fld := ⟨0xA00208, 0x40, 23, 0⟩
def DU_P_CMPB : Fld := ⟨0xA0020C, 0x40, 19, 0⟩
def DU_P_MIN_PULSE : Fld := ⟨0xA00210, 0x40, 31, 24⟩
def DU_P_DT_MIN : Fld := ⟨0xA00210, 0x40, 15, 8⟩
def DU_P_DT_MAX : Fld := ⟨0xA00210, 0x40, 7, 0⟩
def DU_P_PEAK_US : Fld := ⟨0xA00214, 0x40, 31, 16⟩
def DU_P_GRID_K : Fld := ⟨0xA00214, 0x40, 12, 0⟩
def DU_P_PER_ACT : Fld := ⟨0xA00218, 0x40, 23, 0⟩
def DU_P_DUTY_ACT : Fld := ⟨0xA0021C, 0x40, 23, 0⟩
def DU_P_DT_H : Fld := ⟨0xA00220, 0x40, 23, 16⟩
def DU_P_DT_L : Fld := ⟨0xA00220, 0x40, 15, 8⟩
def DU_P_ARMED : Fld := ⟨0xA00220, 0x40, 1, 1⟩
def DU_P_PHASE : Fld := ⟨0xA00220, 0x40, 0, 0⟩
def DU_P_PULSE_SKIP : Fld := ⟨0xA00224, 0x40, 31, 24⟩
def DU_P_PULSE_STRETCH : Fld := ⟨0xA00224, 0x40, 23, 16⟩
def DU_P_DT_TIMEOUT : Fld := ⟨0xA00224, 0x40, 15, 8⟩
def DU_P_CLAMP : Fld := ⟨0xA00224, 0x40, 7, 0⟩

/-! Fields of 14_cellar.md R348. -/
def CL_CTRL_LEAP59 : Fld := ⟨0x50000, 0x0, 1, 1⟩
def CL_CTRL_LEAP61 : Fld := ⟨0x50000, 0x0, 0, 0⟩
def CL_STATUS_SUPPLY : Fld := ⟨0x50004, 0x0, 31, 30⟩
def CL_STATUS_BAT_LOW : Fld := ⟨0x50004, 0x0, 29, 29⟩
def CL_STATUS_ROOT_LOST : Fld := ⟨0x50004, 0x0, 28, 28⟩
def CL_STATUS_CNT_LOST : Fld := ⟨0x50004, 0x0, 27, 27⟩
def CL_STATUS_RET_LOST : Fld := ⟨0x50004, 0x0, 26, 26⟩
def CL_STATUS_CAL_VALID : Fld := ⟨0x50004, 0x0, 25, 25⟩
def CL_STATUS_PEND : Fld := ⟨0x50004, 0x0, 24, 24⟩
def CL_STATUS_SHIFT_BUSY : Fld := ⟨0x50004, 0x0, 23, 23⟩
def CL_STATUS_FROZEN : Fld := ⟨0x50004, 0x0, 22, 22⟩
def CL_STATUS_CANARY : Fld := ⟨0x50004, 0x0, 3, 0⟩
def CL_EVENT_CANARY_LOST : Fld := ⟨0x50008, 0x0, 6, 6⟩
def CL_EVENT_TAMPER : Fld := ⟨0x50008, 0x0, 5, 5⟩
def CL_EVENT_BAT_LOW : Fld := ⟨0x50008, 0x0, 4, 4⟩
def CL_EVENT_FRZ_TO : Fld := ⟨0x50008, 0x0, 3, 3⟩
def CL_EVENT_SHIFT_DONE : Fld := ⟨0x50008, 0x0, 2, 2⟩
def CL_EVENT_REFUSED : Fld := ⟨0x50008, 0x0, 1, 1⟩
def CL_SUBSEC_SUBSEC : Fld := ⟨0x50010, 0x0, 14, 0⟩
def CL_SEC_SEC : Fld := ⟨0x50014, 0x0, 7, 0⟩
def CL_MIN_MIN : Fld := ⟨0x50018, 0x0, 6, 0⟩
def CL_HOUR_HOUR : Fld := ⟨0x5001C, 0x0, 5, 0⟩
def CL_WDAY_WDAY : Fld := ⟨0x50020, 0x0, 2, 0⟩
def CL_DAY_DAY : Fld := ⟨0x50024, 0x0, 5, 0⟩
def CL_MONTH_MONTH : Fld := ⟨0x50028, 0x0, 4, 0⟩
def CL_YEAR_NOFRZ : Fld := ⟨0x5002C, 0x0, 31, 31⟩
def CL_YEAR_YEAR : Fld := ⟨0x5002C, 0x0, 15, 0⟩
def CL_SET_TIME_HOUR : Fld := ⟨0x50030, 0x0, 21, 16⟩
def CL_SET_TIME_MIN : Fld := ⟨0x50030, 0x0, 14, 8⟩
def CL_SET_TIME_SEC : Fld := ⟨0x50030, 0x0, 6, 0⟩
def CL_SET_DATE_YEAR : Fld := ⟨0x50034, 0x0, 31, 16⟩
def CL_SET_DATE_MONTH : Fld := ⟨0x50034, 0x0, 12, 8⟩
def CL_SET_DATE_DAY : Fld := ⟨0x50034, 0x0, 5, 0⟩
def CL_CMD_WDAY : Fld := ⟨0x50038, 0x0, 10, 8⟩
def CL_CMD_CMD : Fld := ⟨0x50038, 0x0, 1, 0⟩
def CL_TRIM_T : Fld := ⟨0x5003C, 0x0, 15, 0⟩
def CL_SHIFT_K : Fld := ⟨0x50040, 0x0, 15, 0⟩
def CL_OPH_OPH : Fld := ⟨0x50050, 0x0, 31, 0⟩
def CL_OPS_OPS : Fld := ⟨0x50054, 0x0, 11, 0⟩
def CL_PCYC_PCYC : Fld := ⟨0x50058, 0x0, 31, 0⟩
def CL_SCR_SCR : Fld := ⟨0x50080, 0x4, 31, 0⟩
def CL_RET_ADDR_ADDR : Fld := ⟨0x500A0, 0x0, 13, 2⟩
def CL_RET_DATA_DATA : Fld := ⟨0x500A4, 0x0, 31, 0⟩
def CL_TLOG_IDX_IDX : Fld := ⟨0x500C0, 0x0, 3, 0⟩
def CL_TLOG_CNT_NEXT : Fld := ⟨0x500C4, 0x0, 19, 16⟩
def CL_TLOG_CNT_COUNT : Fld := ⟨0x500C4, 0x0, 15, 0⟩
def CL_TLOG_W_ENTRY : Fld := ⟨0x500D0, 0x4, 31, 0⟩

/-! Fields of 15_recording.md R371. -/
def EV_CTRL_EN : Fld := ⟨0xB00000, 0x0, 31, 31⟩
def EV_CTRL_DRAIN_EN : Fld := ⟨0xB00000, 0x0, 30, 30⟩
def EV_STATUS_NVM_OK : Fld := ⟨0xB00004, 0x0, 31, 31⟩
def EV_STATUS_DRAINING : Fld := ⟨0xB00004, 0x0, 30, 30⟩
def EV_STATUS_CLEAR_BUSY : Fld := ⟨0xB00004, 0x0, 29, 29⟩
def EV_STATUS_UNDRAINED : Fld := ⟨0xB00004, 0x0, 12, 0⟩
def EV_EVENT_REFUSED : Fld := ⟨0xB00008, 0x0, 5, 5⟩
def EV_EVENT_CLEAR_REFUSED : Fld := ⟨0xB00008, 0x0, 4, 4⟩
def EV_EVENT_CLEARED : Fld := ⟨0xB00008, 0x0, 3, 3⟩
def EV_EVENT_DRAIN_FAIL : Fld := ⟨0xB00008, 0x0, 2, 2⟩
def EV_EVENT_LOST : Fld := ⟨0xB00008, 0x0, 1, 1⟩
def EV_EVENT_RECORD : Fld := ⟨0xB00008, 0x0, 0, 0⟩
def EV_FIRST_FIRST : Fld := ⟨0xB00010, 0x0, 31, 0⟩
def EV_RING_FIRST_RING_FIRST : Fld := ⟨0xB00014, 0x0, 31, 0⟩
def EV_LAST_LAST : Fld := ⟨0xB00018, 0x0, 31, 0⟩
def EV_DRAINED_DRAINED : Fld := ⟨0xB0001C, 0x0, 31, 0⟩
def EV_RD_SEQ_SEQ : Fld := ⟨0xB00020, 0x0, 31, 0⟩
def EV_RD_STAT_VALID : Fld := ⟨0xB00024, 0x0, 31, 31⟩
def EV_RD_STAT_BUSY : Fld := ⟨0xB00024, 0x0, 30, 30⟩
def EV_RD_STAT_NOT_HELD : Fld := ⟨0xB00024, 0x0, 29, 29⟩
def EV_RD_STAT_FROM_NVM : Fld := ⟨0xB00024, 0x0, 28, 28⟩
def EV_RD_W_WORD : Fld := ⟨0xB00040, 0x4, 31, 0⟩
def EV_POST0_DATA_LO : Fld := ⟨0xB00060, 0x0, 31, 0⟩
def EV_POST1_DATA_HI : Fld := ⟨0xB00064, 0x0, 31, 0⟩
def EV_POST2_SRC : Fld := ⟨0xB00068, 0x0, 15, 8⟩
def EV_POST2_CODE : Fld := ⟨0xB00068, 0x0, 7, 0⟩
def EV_CLR_NONCE_LO_NONCE_LO : Fld := ⟨0xB00080, 0x0, 31, 0⟩
def EV_CLR_NONCE_HI_NONCE_HI : Fld := ⟨0xB00084, 0x0, 31, 0⟩
def EV_CLR_CTRL_CMD : Fld := ⟨0xB00088, 0x0, 31, 30⟩
def EV_CLR_CTRL_SLOT : Fld := ⟨0xB00088, 0x0, 7, 0⟩
def EV_CLR_SEQ_SEQ : Fld := ⟨0xB0008C, 0x0, 31, 0⟩
def EV_CLR_TOK_TOKEN : Fld := ⟨0xB00090, 0x4, 31, 0⟩
def EV_G_LOST : Fld := ⟨0xB000A0, 0x0, 31, 16⟩
def EV_G_UNDRAINED_LOST : Fld := ⟨0xB000A0, 0x0, 15, 0⟩
def EV_G_DRAIN_FAIL : Fld := ⟨0xB000A4, 0x0, 31, 16⟩
def EV_G_CLEAR_REFUSED : Fld := ⟨0xB000A4, 0x0, 15, 0⟩

/-! Fields of 15_recording.md R372. -/
def TG_CTRL_EN : Fld := ⟨0xC00000, 0x0, 31, 31⟩
def TG_STATUS_ACTIVE : Fld := ⟨0xC00004, 0x0, 15, 0⟩
def TG_EVENT_REFUSED : Fld := ⟨0xC00008, 0x0, 3, 3⟩
def TG_EVENT_LATE : Fld := ⟨0xC00008, 0x0, 2, 2⟩
def TG_EVENT_NOBUF : Fld := ⟨0xC00008, 0x0, 1, 1⟩
def TG_EVENT_DONE : Fld := ⟨0xC00008, 0x0, 0, 0⟩
def TG_FORCE_FORCE : Fld := ⟨0xC0000C, 0x0, 15, 0⟩
def TG_REL_REC : Fld := ⟨0xC00010, 0x0, 7, 4⟩
def TG_REL_BUF : Fld := ⟨0xC00010, 0x0, 2, 0⟩
def TG_D_EN : Fld := ⟨0xC00100, 0x80, 31, 31⟩
def TG_D_RATE : Fld := ⟨0xC00100, 0x80, 30, 28⟩
def TG_D_GROUP : Fld := ⟨0xC00100, 0x80, 27, 22⟩
def TG_D_BUF_N : Fld := ⟨0xC00100, 0x80, 18, 16⟩
def TG_D_NA : Fld := ⟨0xC00100, 0x80, 10, 0⟩
def TG_D_NB : Fld := ⟨0xC00104, 0x80, 12, 0⟩
def TG_D_CHL_LO : Fld := ⟨0xC00108, 0x80, 31, 2⟩
def TG_D_CHL_HI : Fld := ⟨0xC0010C, 0x80, 7, 0⟩
def TG_D_BUF_LO : Fld := ⟨0xC00110, 0x80, 31, 6⟩
def TG_D_BUF_HI : Fld := ⟨0xC00114, 0x80, 7, 0⟩
def TG_D_PRE : Fld := ⟨0xC00118, 0x80, 19, 0⟩
def TG_D_POST : Fld := ⟨0xC0011C, 0x80, 19, 0⟩
def TG_D_MODE : Fld := ⟨0xC00120, 0x80, 31, 29⟩
def TG_D_STAGES : Fld := ⟨0xC00120, 0x80, 28, 27⟩
def TG_D_HOLD_KIND : Fld := ⟨0xC00120, 0x80, 26, 26⟩
def TG_D_LINK : Fld := ⟨0xC00120, 0x80, 15, 0⟩
def TG_D_PAT_LO : Fld := ⟨0xC00124, 0x80, 31, 2⟩
def TG_D_PAT_HI : Fld := ⟨0xC00128, 0x80, 7, 0⟩
def TG_D_PAT_N : Fld := ⟨0xC0012C, 0x80, 8, 0⟩
def TG_D_SEQ_US : Fld := ⟨0xC00130, 0x80, 31, 0⟩
def TG_D_HOLD : Fld := ⟨0xC00134, 0x80, 31, 0⟩
def TG_D_CMPMODE : Fld := ⟨0xC00138, 0x80, 18, 17⟩
def TG_D_POL : Fld := ⟨0xC00138, 0x80, 16, 16⟩
def TG_D_CH : Fld := ⟨0xC00138, 0x80, 11, 0⟩
def TG_D_LO : Fld := ⟨0xC0013C, 0x80, 31, 0⟩
def TG_D_HI : Fld := ⟨0xC00140, 0x80, 31, 0⟩
def TG_D_T1 : Fld := ⟨0xC00144, 0x80, 31, 0⟩
def TG_D_T2 : Fld := ⟨0xC00148, 0x80, 31, 0⟩
def TG_D_STATE : Fld := ⟨0xC0014C, 0x80, 31, 29⟩
def TG_D_FULL : Fld := ⟨0xC0014C, 0x80, 10, 3⟩
def TG_D_CUR : Fld := ⟨0xC0014C, 0x80, 2, 0⟩
def TG_D_DONE : Fld := ⟨0xC00150, 0x80, 31, 24⟩
def TG_D_SUPPRESSED : Fld := ⟨0xC00150, 0x80, 23, 16⟩
def TG_D_NOBUF : Fld := ⟨0xC00150, 0x80, 15, 8⟩
def TG_D_LATE : Fld := ⟨0xC00150, 0x80, 7, 0⟩
def TG_D_SEQ_RESET : Fld := ⟨0xC00154, 0x80, 15, 0⟩
def TG_D_CAPNO : Fld := ⟨0xC00158, 0x80, 31, 0⟩

/-! Fields of 16_instances.md R403. -/
def VI_CTRL_RUN : Fld := ⟨0x1000000, 0x0, 31, 31⟩
def VI_STATUS_RESETTING : Fld := ⟨0x1000004, 0x0, 31, 31⟩
def VI_STATUS_OVER_SHARE : Fld := ⟨0x1000004, 0x0, 30, 30⟩
def VI_STATUS_BOUND : Fld := ⟨0x1000004, 0x0, 29, 29⟩
def VI_STATUS_GEN_WAIT : Fld := ⟨0x1000004, 0x0, 28, 28⟩
def VI_STATUS_GEN : Fld := ⟨0x1000004, 0x0, 23, 20⟩
def VI_STATUS_INFLIGHT : Fld := ⟨0x1000004, 0x0, 15, 0⟩
def VI_EVENT_FLR : Fld := ⟨0x1000008, 0x0, 5, 5⟩
def VI_EVENT_REFUSED : Fld := ⟨0x1000008, 0x0, 4, 4⟩
def VI_EVENT_OVER_SHARE : Fld := ⟨0x1000008, 0x0, 3, 3⟩
def VI_EVENT_RESET_DONE : Fld := ⟨0x1000008, 0x0, 2, 2⟩
def VI_EVENT_PUB_REFUSED : Fld := ⟨0x1000008, 0x0, 1, 1⟩
def VI_EVENT_WINDOW : Fld := ⟨0x1000008, 0x0, 0, 0⟩
def VI_CMD_KEEP_RUN : Fld := ⟨0x100000C, 0x0, 2, 2⟩
def VI_CMD_CMD : Fld := ⟨0x100000C, 0x0, 1, 0⟩
def VI_LSHARE_LSHARE : Fld := ⟨0x1000010, 0x0, 16, 0⟩
def VI_HELD_HELD : Fld := ⟨0x1000014, 0x0, 16, 0⟩
def VI_SLOT_SHARE_SLOT : Fld := ⟨0x1000018, 0x0, 31, 0⟩
def VI_BUDGET_BUDGET : Fld := ⟨0x100001C, 0x0, 17, 0⟩
def VI_TB_TB_RATE : Fld := ⟨0x1000020, 0x0, 31, 16⟩
def VI_TB_TB_DEPTH : Fld := ⟨0x1000020, 0x0, 15, 0⟩
def VI_TB_LEVEL_LEVEL : Fld := ⟨0x1000024, 0x0, 31, 0⟩
def VI_LINGER_TIMERS : Fld := ⟨0x1000028, 0x0, 31, 16⟩
def VI_LINGER_FRAMES : Fld := ⟨0x1000028, 0x0, 15, 0⟩
def VI_CNT0_SLOT_MISS : Fld := ⟨0x1000030, 0x0, 31, 16⟩
def VI_CNT0_DL_MISS : Fld := ⟨0x1000030, 0x0, 15, 8⟩
def VI_CNT0_BUDGET_WAIT : Fld := ⟨0x1000030, 0x0, 7, 0⟩
def VI_CNT1_TB_DROP : Fld := ⟨0x1000034, 0x0, 31, 16⟩
def VI_CNT1_SHARE_DROP : Fld := ⟨0x1000034, 0x0, 15, 0⟩
def VI_CNT2_SHARE_WAIT : Fld := ⟨0x1000038, 0x0, 31, 16⟩
def VI_CNT2_TB_WAIT : Fld := ⟨0x1000038, 0x0, 15, 0⟩
def VI_CNT3_MB_DROP : Fld := ⟨0x100003C, 0x0, 31, 24⟩
def VI_CNT3_PERM : Fld := ⟨0x100003C, 0x0, 23, 16⟩
def VI_CNT3_WIN_MISS : Fld := ⟨0x100003C, 0x0, 15, 8⟩
def VI_CNT3_WIN_RO : Fld := ⟨0x100003C, 0x0, 7, 0⟩
def VI_CNT4_HALT_SKIP : Fld := ⟨0x1000040, 0x0, 31, 16⟩
def VI_CNT4_RING_ADDR : Fld := ⟨0x1000040, 0x0, 15, 8⟩
def VI_CNT4_MIR_WAIT : Fld := ⟨0x1000040, 0x0, 7, 0⟩
def VI_DB_ACK_M2T : Fld := ⟨0x1000100, 0x0, 9, 8⟩
def VI_DB_POST_T2M : Fld := ⟨0x1000100, 0x0, 1, 0⟩
def VI_MDB_ACK_T2M : Fld := ⟨0x1000104, 0x0, 9, 8⟩
def VI_MDB_POST_M2T : Fld := ⟨0x1000104, 0x0, 1, 0⟩
def VI_MB_STAT_M2T_OLDER : Fld := ⟨0x1000108, 0x0, 9, 9⟩
def VI_MB_STAT_T2M_OLDER : Fld := ⟨0x1000108, 0x0, 8, 8⟩
def VI_MB_STAT_M2T_FULL : Fld := ⟨0x1000108, 0x0, 3, 2⟩
def VI_MB_STAT_T2M_FULL : Fld := ⟨0x1000108, 0x0, 1, 0⟩
def VI_PUB_CB_GO : Fld := ⟨0x1000900, 0x0, 31, 31⟩
def VI_PUB_CB_CB : Fld := ⟨0x1000900, 0x0, 11, 0⟩
def VI_PUB_STAT_CAUSE : Fld := ⟨0x1000904, 0x0, 3, 0⟩
def VI_W_BASE_LO : Fld := ⟨0x1001000, 0x10, 31, 12⟩
def VI_W_EN : Fld := ⟨0x1001004, 0x10, 31, 31⟩
def VI_W_WR : Fld := ⟨0x1001004, 0x10, 30, 30⟩
def VI_W_BASE_HI : Fld := ⟨0x1001004, 0x10, 7, 0⟩
def VI_W_WOFS : Fld := ⟨0x1001008, 0x10, 29, 12⟩
def VI_W_PAGES : Fld := ⟨0x100100C, 0x10, 18, 0⟩
def VI_M_EN : Fld := ⟨0x1001100, 0x10, 31, 31⟩
def VI_M_CLUSTER : Fld := ⟨0x1001100, 0x10, 30, 26⟩
def VI_M_DIV : Fld := ⟨0x1001100, 0x10, 25, 19⟩
def VI_M_UOFS : Fld := ⟨0x1001100, 0x10, 15, 0⟩
def VI_M_UN : Fld := ⟨0x1001104, 0x10, 27, 18⟩
def VI_M_CY : Fld := ⟨0x1001104, 0x10, 17, 0⟩
def VI_M_DEST_LO : Fld := ⟨0x1001108, 0x10, 31, 6⟩
def VI_M_DEST_HI : Fld := ⟨0x100110C, 0x10, 7, 0⟩

/-! Fields of 16_instances.md R404. -/
def OW_STATUS_STATE : Fld := ⟨0x20000, 0x0, 31, 30⟩
def OW_STATUS_TARGET : Fld := ⟨0x20000, 0x0, 27, 24⟩
def OW_STATUS_PRESENT : Fld := ⟨0x20000, 0x0, 23, 16⟩
def OW_STATUS_CAUSE : Fld := ⟨0x20000, 0x0, 15, 12⟩
def OW_STATUS_OWNER : Fld := ⟨0x20000, 0x0, 3, 0⟩
def OW_CLAIM_CLAIM : Fld := ⟨0x20004, 0x0, 0, 0⟩
def OW_RELEASE_RELEASE : Fld := ⟨0x20008, 0x0, 0, 0⟩
def OW_OFFER_TARGET : Fld := ⟨0x2000C, 0x0, 3, 0⟩
def OW_ACCEPT_ACCEPT : Fld := ⟨0x20010, 0x0, 0, 0⟩
def OW_LEASE_REFRESH : Fld := ⟨0x20014, 0x0, 31, 31⟩
def OW_LEASE_LEASE_MS : Fld := ⟨0x20014, 0x0, 15, 0⟩
def OW_HO_HO_MS : Fld := ⟨0x20018, 0x0, 15, 0⟩
def OW_SESS_SESS : Fld := ⟨0x2001C, 0x0, 6, 2⟩
def OW_ACT_SEAT : Fld := ⟨0x20020, 0x4, 3, 0⟩
def OW_REVOKE_REVOKE : Fld := ⟨0x20030, 0x0, 0, 0⟩
def OW_EVENT_REFUSED : Fld := ⟨0x20034, 0x0, 4, 4⟩
def OW_EVENT_LAPSED : Fld := ⟨0x20034, 0x0, 3, 3⟩
def OW_EVENT_LOST : Fld := ⟨0x20034, 0x0, 2, 2⟩
def OW_EVENT_HANDOVER : Fld := ⟨0x20034, 0x0, 1, 1⟩
def OW_EVENT_CHANGE : Fld := ⟨0x20034, 0x0, 0, 0⟩
def OW_CNT_NONOWNER : Fld := ⟨0x20038, 0x0, 31, 16⟩
def OW_CNT_REFUSED : Fld := ⟨0x20038, 0x0, 15, 0⟩

/-! Fields of 17_keys.md R421. -/
def KS_STATUS_LC : Fld := ⟨0x60000, 0x0, 31, 28⟩
def KS_STATUS_LC_NEXT : Fld := ⟨0x60000, 0x0, 27, 24⟩
def KS_STATUS_BUSY : Fld := ⟨0x60000, 0x0, 23, 23⟩
def KS_STATUS_ROOT : Fld := ⟨0x60000, 0x0, 22, 22⟩
def KS_STATUS_PKH_SET : Fld := ⟨0x60000, 0x0, 21, 20⟩
def KS_STATUS_REVOKE : Fld := ⟨0x60000, 0x0, 19, 18⟩
def KS_STATUS_CAUSE : Fld := ⟨0x60000, 0x0, 11, 8⟩
def KS_STATUS_VALID_N : Fld := ⟨0x60000, 0x0, 7, 0⟩
def KS_EVENT_FUSE_FAIL : Fld := ⟨0x60004, 0x0, 5, 5⟩
def KS_EVENT_LC : Fld := ⟨0x60004, 0x0, 4, 4⟩
def KS_EVENT_ORPHAN : Fld := ⟨0x60004, 0x0, 3, 3⟩
def KS_EVENT_BAD : Fld := ⟨0x60004, 0x0, 2, 2⟩
def KS_EVENT_REFUSED : Fld := ⟨0x60004, 0x0, 1, 1⟩
def KS_EVENT_DONE : Fld := ⟨0x60004, 0x0, 0, 0⟩
def KS_CMD_CMD : Fld := ⟨0x60008, 0x0, 31, 28⟩
def KS_CMD_ROOTED : Fld := ⟨0x60008, 0x0, 27, 27⟩
def KS_CMD_S : Fld := ⟨0x60008, 0x0, 15, 8⟩
def KS_CMD_T : Fld := ⟨0x60008, 0x0, 7, 0⟩
def KS_LC_CMD_KEYWORD : Fld := ⟨0x6000C, 0x0, 31, 16⟩
def KS_LC_CMD_CMD : Fld := ⟨0x6000C, 0x0, 3, 0⟩
def KS_BLOB_LO_ADDR_LO : Fld := ⟨0x60010, 0x0, 31, 4⟩
def KS_BLOB_HI_ADDR_HI : Fld := ⟨0x60014, 0x0, 7, 0⟩
def KS_CNT_ORPHANED : Fld := ⟨0x60018, 0x0, 31, 16⟩
def KS_CNT_BAD_CNT : Fld := ⟨0x60018, 0x0, 15, 8⟩
def KS_CNT_REFUSED : Fld := ⟨0x60018, 0x0, 7, 0⟩
def KS_DATA_DATA : Fld := ⟨0x60040, 0x4, 31, 0⟩
def KS_PKH0_PKH : Fld := ⟨0x60080, 0x4, 31, 0⟩
def KS_PKH1_PKH : Fld := ⟨0x600C0, 0x4, 31, 0⟩

/-! Fields of 18_start_to_service.md R446. -/
def PM_ID_DEVICE : Fld := ⟨0x0, 0x0, 31, 16⟩
def PM_ID_REV : Fld := ⟨0x0, 0x0, 15, 8⟩
def PM_ID_GRADE : Fld := ⟨0x0, 0x0, 7, 7⟩
def PM_ID_SHIP_S : Fld := ⟨0x0, 0x0, 6, 6⟩
def PM_ID_PAIR_ID : Fld := ⟨0x0, 0x0, 2, 2⟩
def PM_ID_BOOT_SRC : Fld := ⟨0x0, 0x0, 1, 1⟩
def PM_ID_NVM_WIDTH : Fld := ⟨0x0, 0x0, 0, 0⟩
def PM_DOMAIN_PD0 : Fld := ⟨0x4, 0x0, 1, 0⟩
def PM_DOMAIN_PD1 : Fld := ⟨0x4, 0x0, 3, 2⟩
def PM_DOMAIN_PD2 : Fld := ⟨0x4, 0x0, 5, 4⟩
def PM_DOMAIN_PD3 : Fld := ⟨0x4, 0x0, 7, 6⟩
def PM_DOMAIN_PD4 : Fld := ⟨0x4, 0x0, 9, 8⟩
def PM_DOMAIN_PD5 : Fld := ⟨0x4, 0x0, 11, 10⟩
def PM_DOMAIN_PD6 : Fld := ⟨0x4, 0x0, 13, 12⟩
def PM_DOMAIN_PD7 : Fld := ⟨0x4, 0x0, 15, 14⟩
def PM_DOMAIN_PD8 : Fld := ⟨0x4, 0x0, 17, 16⟩
def PM_DOMAIN_PD9 : Fld := ⟨0x4, 0x0, 19, 18⟩
def PM_DOMAIN_PD10 : Fld := ⟨0x4, 0x0, 21, 20⟩
def PM_DOMAIN_PD11 : Fld := ⟨0x4, 0x0, 23, 22⟩
def PM_DOMAIN_PD12 : Fld := ⟨0x4, 0x0, 25, 24⟩
def PM_DOMAIN_PD13 : Fld := ⟨0x4, 0x0, 27, 26⟩
def PM_DOMAIN_PD14 : Fld := ⟨0x4, 0x0, 29, 28⟩
def PM_DOMAIN_PD15 : Fld := ⟨0x4, 0x0, 31, 30⟩
def PM_ASSIGN_ASSIGN : Fld := ⟨0x8, 0x0, 15, 0⟩
def PM_FENCE_FENCE : Fld := ⟨0xC, 0x0, 31, 0⟩
def PM_CMD_CMD : Fld := ⟨0x10, 0x0, 31, 28⟩
def PM_CMD_PD : Fld := ⟨0x10, 0x0, 3, 0⟩
def PM_WDOG_KICK : Fld := ⟨0x14, 0x0, 31, 31⟩
def PM_WDOG_ACTION : Fld := ⟨0x14, 0x0, 30, 30⟩
def PM_WDOG_MS : Fld := ⟨0x14, 0x0, 15, 0⟩
def PM_STATUS_DEGRADED : Fld := ⟨0x18, 0x0, 31, 31⟩
def PM_EVENT_REFUSED : Fld := ⟨0x1C, 0x0, 3, 3⟩
def PM_EVENT_WDOG : Fld := ⟨0x1C, 0x0, 2, 2⟩
def PM_EVENT_FENCE : Fld := ⟨0x1C, 0x0, 1, 1⟩
def PM_EVENT_DOMAIN : Fld := ⟨0x1C, 0x0, 0, 0⟩
def PM_ENTRY_KIND : Fld := ⟨0x20, 0x0, 31, 30⟩
def PM_ENTRY_TRIGGER : Fld := ⟨0x20, 0x0, 29, 27⟩

/-! Fields of 18_start_to_service.md R447. -/
def BT_STATUS_STATE : Fld := ⟨0x10000, 0x0, 31, 28⟩
def BT_STATUS_IMG_SEL : Fld := ⟨0x10000, 0x0, 27, 26⟩
def BT_STATUS_SRC : Fld := ⟨0x10000, 0x0, 25, 24⟩
def BT_STATUS_CAUSE : Fld := ⟨0x10000, 0x0, 23, 16⟩
def BT_DL_LEN_LEN : Fld := ⟨0x10004, 0x0, 31, 0⟩
def BT_DL_CMD_CMD : Fld := ⟨0x10008, 0x0, 1, 0⟩
def BT_IMG_A_CAUSE : Fld := ⟨0x1000C, 0x0, 31, 24⟩
def BT_IMG_B_CAUSE : Fld := ⟨0x1000C, 0x0, 23, 16⟩
def BT_FW_VER_FW_VER : Fld := ⟨0x10010, 0x0, 31, 0⟩
def BT_SVC_ENTER : Fld := ⟨0x10014, 0x0, 31, 31⟩
def BT_SVC_DISC_MAX_S : Fld := ⟨0x10014, 0x0, 9, 0⟩
def BT_EVENT_REFUSED : Fld := ⟨0x10018, 0x0, 3, 3⟩
def BT_EVENT_IMAGE_FAIL : Fld := ⟨0x10018, 0x0, 2, 2⟩
def BT_EVENT_VERIFY_FAIL : Fld := ⟨0x10018, 0x0, 1, 1⟩
def BT_EVENT_STATE : Fld := ⟨0x10018, 0x0, 0, 0⟩
def BT_CNT_VERIFY_FAIL : Fld := ⟨0x1001C, 0x0, 31, 16⟩
def BT_CNT_AP_LATE : Fld := ⟨0x1001C, 0x0, 15, 0⟩

/-! Fields of 19_redundant_pair.md R481. -/
def PR_CTRL_EN : Fld := ⟨0xD00000, 0x0, 31, 31⟩
def PR_CTRL_REVERT_EN : Fld := ⟨0xD00000, 0x0, 30, 30⟩
def PR_CTRL_SERVE_EN : Fld := ⟨0xD00000, 0x0, 29, 29⟩
def PR_STATUS_STATE : Fld := ⟨0xD00004, 0x0, 31, 29⟩
def PR_STATUS_PARTNER : Fld := ⟨0xD00004, 0x0, 28, 28⟩
def PR_STATUS_BLOCKED : Fld := ⟨0xD00004, 0x0, 27, 27⟩
def PR_STATUS_ILK_IN : Fld := ⟨0xD00004, 0x0, 26, 26⟩
def PR_STATUS_ILK_OUT : Fld := ⟨0xD00004, 0x0, 25, 25⟩
def PR_STATUS_OEN_EXT : Fld := ⟨0xD00004, 0x0, 24, 24⟩
def PR_STATUS_XFER_DONE : Fld := ⟨0xD00004, 0x0, 23, 23⟩
def PR_STATUS_COMPAT : Fld := ⟨0xD00004, 0x0, 22, 22⟩
def PR_STATUS_NOCLAIM : Fld := ⟨0xD00004, 0x0, 21, 21⟩
def PR_STATUS_MIS_100 : Fld := ⟨0xD00004, 0x0, 15, 8⟩
def PR_STATUS_MATCH_RUN : Fld := ⟨0xD00004, 0x0, 7, 0⟩
def PR_EVENT_SERVE_FAIL : Fld := ⟨0xD00008, 0x0, 9, 9⟩
def PR_EVENT_REFUSED : Fld := ⟨0xD00008, 0x0, 8, 8⟩
def PR_EVENT_INCOMPAT : Fld := ⟨0xD00008, 0x0, 7, 7⟩
def PR_EVENT_OFFSET : Fld := ⟨0xD00008, 0x0, 6, 6⟩
def PR_EVENT_REVERT_FAIL : Fld := ⟨0xD00008, 0x0, 5, 5⟩
def PR_EVENT_PARTNER : Fld := ⟨0xD00008, 0x0, 4, 4⟩
def PR_EVENT_OUT_OF_STEP : Fld := ⟨0xD00008, 0x0, 3, 3⟩
def PR_EVENT_MISMATCH : Fld := ⟨0xD00008, 0x0, 2, 2⟩
def PR_EVENT_CLAIM : Fld := ⟨0xD00008, 0x0, 1, 1⟩
def PR_EVENT_STATE : Fld := ⟨0xD00008, 0x0, 0, 0⟩
def PR_REVERT_HOLD_S : Fld := ⟨0xD0000C, 0x0, 11, 0⟩
def PR_OFFSET_OFFSET : Fld := ⟨0xD00010, 0x0, 31, 0⟩
def PR_XFER_XFER_KIB : Fld := ⟨0xD00014, 0x0, 15, 0⟩
def PR_SMAP_LO_ADDR_LO : Fld := ⟨0xD00018, 0x0, 31, 4⟩
def PR_SMAP_HI_ADDR_HI : Fld := ⟨0xD0001C, 0x0, 7, 0⟩
def PR_SMAP_N_N : Fld := ⟨0xD00020, 0x0, 15, 0⟩
def PR_CNT0_LEDGER_MISS : Fld := ⟨0xD00030, 0x0, 31, 16⟩
def PR_CNT0_SET_MISSING : Fld := ⟨0xD00030, 0x0, 15, 0⟩
def PR_CNT1_COPY_REQ : Fld := ⟨0xD00034, 0x0, 31, 16⟩
def PR_CNT1_COPY_LATE : Fld := ⟨0xD00034, 0x0, 15, 0⟩
def PR_CNT2_DROP_AUTH : Fld := ⟨0xD00038, 0x0, 31, 16⟩
def PR_CNT2_GOOSE_LATE : Fld := ⟨0xD00038, 0x0, 15, 0⟩
def PR_CNT3_MISMATCH : Fld := ⟨0xD0003C, 0x0, 31, 16⟩
def PR_CNT3_RESYNC : Fld := ⟨0xD0003C, 0x0, 15, 0⟩
def PR_CNT4_PUB_FIX : Fld := ⟨0xD00040, 0x0, 31, 16⟩
def PR_CNT4_CLAIM_BLOCKED : Fld := ⟨0xD00040, 0x0, 15, 0⟩
def PR_CNT5_XFER_RETRY : Fld := ⟨0xD00044, 0x0, 31, 16⟩
def PR_CNT5_TWIN_DUP : Fld := ⟨0xD00044, 0x0, 15, 0⟩

/-! Fields of 20_events_errors.md R491. -/
def IC_CTRL_EN : Fld := ⟨0x30000, 0x0, 31, 31⟩
def IC_STATUS_FATAL : Fld := ⟨0x30004, 0x0, 31, 31⟩
def IC_STATUS_CAUSE : Fld := ⟨0x30004, 0x0, 7, 0⟩
def IC_SOFT_SRC : Fld := ⟨0x30008, 0x0, 3, 0⟩
def IC_FENCE_GO : Fld := ⟨0x3000C, 0x0, 31, 31⟩
def IC_FENCE_CLUSTER : Fld := ⟨0x3000C, 0x0, 4, 0⟩
def IC_PEND_PEND : Fld := ⟨0x30010, 0x4, 31, 0⟩
def IC_MASK_MASK : Fld := ⟨0x30030, 0x4, 31, 0⟩
def IC_CLAIM_SRC : Fld := ⟨0x30050, 0x4, 8, 0⟩
def IC_ACC_ADDR_LO_ADDR_LO : Fld := ⟨0x30060, 0x0, 31, 0⟩
def IC_ACC_ADDR_HI_ADDR_HI : Fld := ⟨0x30064, 0x0, 7, 0⟩
def IC_ACC_INFO_VALID : Fld := ⟨0x30068, 0x0, 31, 31⟩
def IC_ACC_INFO_WRITE : Fld := ⟨0x30068, 0x0, 30, 30⟩
def IC_ACC_INFO_SEAT : Fld := ⟨0x30068, 0x0, 23, 20⟩
def IC_ACC_INFO_REQ : Fld := ⟨0x30068, 0x0, 19, 16⟩
def IC_ACC_INFO_KIND : Fld := ⟨0x30068, 0x0, 15, 0⟩
def IC_ECC_LOG0_VALID : Fld := ⟨0x30070, 0x0, 31, 31⟩
def IC_ECC_LOG0_MEM : Fld := ⟨0x30070, 0x0, 27, 24⟩
def IC_ECC_LOG0_CLUSTER : Fld := ⟨0x30070, 0x0, 12, 8⟩
def IC_ECC_LOG0_SYNDROME : Fld := ⟨0x30070, 0x0, 7, 0⟩
def IC_ECC_LOG1_ADDR_LO : Fld := ⟨0x30074, 0x0, 31, 0⟩
def IC_ECC_LOG2_ADDR_HI : Fld := ⟨0x30078, 0x0, 7, 0⟩
def IC_ECC_LOG3_STAMP_NS : Fld := ⟨0x3007C, 0x0, 31, 0⟩
def IC_G_CE : Fld := ⟨0x30080, 0x0, 31, 16⟩
def IC_G_UE : Fld := ⟨0x30080, 0x0, 15, 0⟩
def IC_G_ACC_ERR : Fld := ⟨0x30084, 0x0, 31, 16⟩
def IC_G_LOG_LOST : Fld := ⟨0x30084, 0x0, 15, 0⟩
def IC_ECC_CE_CE_ODD : Fld := ⟨0x30090, 0x4, 31, 16⟩
def IC_ECC_CE_CE_EVEN : Fld := ⟨0x30090, 0x4, 15, 0⟩
def IC_ROUTE_PF_EN : Fld := ⟨0x30100, 0x4, 31, 31⟩
def IC_ROUTE_PF_VEC : Fld := ⟨0x30100, 0x4, 29, 24⟩
def IC_ROUTE_CORE : Fld := ⟨0x30100, 0x4, 3, 0⟩
def IC_VIPEND_VI : Fld := ⟨0x30800, 0x4, 31, 0⟩
def IC_MBPEND_VI : Fld := ⟨0x30840, 0x4, 31, 0⟩

/-! Fields of 02_house_clock.md R67. -/
def HC_PPS_SEC_LO_V : Fld := ⟨0x40024, 0x0, 31, 0⟩
def HC_PPS_SEC_HI_V : Fld := ⟨0x40028, 0x0, 15, 0⟩
def HC_PPS_NS_V : Fld := ⟨0x4002C, 0x0, 29, 0⟩
def HC_PPS_FRAC_V : Fld := ⟨0x40030, 0x0, 15, 0⟩
def HC_IRIG_SEC_LO_V : Fld := ⟨0x40044, 0x0, 31, 0⟩
def HC_IRIG_SEC_HI_V : Fld := ⟨0x40048, 0x0, 15, 0⟩
def HC_IRIG_NS_V : Fld := ⟨0x4004C, 0x0, 29, 0⟩
def HC_IRIG_FRAC_V : Fld := ⟨0x40050, 0x0, 15, 0⟩

/-! Fields of 05_subscription.md R158. -/
def SB_TBL_DATA_W : Fld := ⟨0x400040, 0x4, 31, 0⟩
def SB_MAP_DATA_W : Fld := ⟨0x400028, 0x4, 31, 0⟩
def SB_VEST_DATA_W : Fld := ⟨0x400180, 0x4, 31, 0⟩
def SB_DISC_W_W : Fld := ⟨0x400100, 0x4, 31, 0⟩
def SB_DISC_POST_W : Fld := ⟨0x400110, 0x4, 31, 0⟩

/-! Fields of 06_alignment.md R185. -/
def AL_STR_DATA_W : Fld := ⟨0x500040, 0x4, 31, 0⟩

/-! Fields of 08_dispatch.md R235. -/
def DS_TASK_DATA_W : Fld := ⟨0x700040, 0x4, 31, 0⟩
def DS_SLOT_DATA_W : Fld := ⟨0x700060, 0x4, 31, 0⟩
def DS_TMR_DATA_W : Fld := ⟨0x700080, 0x4, 31, 0⟩

/-! Fields of 10_publication_trip.md R280. -/
def PB_CB_DATA_W : Fld := ⟨0x600040, 0x4, 31, 0⟩

/-! Fields of 12_logic_engine.md R312. -/
def LG_PRG_DATA_W : Fld := ⟨0x800040, 0x4, 31, 0⟩
def LG_FRC_DATA_W : Fld := ⟨0x800080, 0x4, 31, 0⟩

/-! Fields of 16_instances.md R403. -/
def VI_T2M_W : Fld := ⟨0x1000400, 0x4, 31, 0⟩
def VI_M2T_W : Fld := ⟨0x1000600, 0x4, 31, 0⟩
def VI_ITEM_W : Fld := ⟨0x1000A00, 0x4, 31, 0⟩

/-! Fields of 20_events_errors.md R491. -/
def IC_MSIX_W : Fld := ⟨0x31000, 0x4, 31, 0⟩
def IC_PBA_W : Fld := ⟨0x31800, 0x4, 31, 0⟩

/-! Fields of 16_instances.md R403. -/
def VI_RING_RX_BASE_LO : Fld := ⟨0x1000800, 0x0, 31, 12⟩
def VI_RING_RX_BASE_HI : Fld := ⟨0x1000804, 0x0, 7, 0⟩
def VI_RING_RX_SIZE : Fld := ⟨0x1000808, 0x0, 12, 0⟩
def VI_RING_RX_NEXT : Fld := ⟨0x100080C, 0x0, 11, 0⟩
def VI_RING_TX_BASE_LO : Fld := ⟨0x1000810, 0x0, 31, 12⟩
def VI_RING_TX_BASE_HI : Fld := ⟨0x1000814, 0x0, 7, 0⟩
def VI_RING_TX_SIZE : Fld := ⟨0x1000818, 0x0, 12, 0⟩
def VI_RING_TX_NEXT : Fld := ⟨0x100081C, 0x0, 11, 0⟩
def VI_RING_RX_NOBUF : Fld := ⟨0x1000820, 0x0, 31, 16⟩
def VI_RING_RX_TRUNC : Fld := ⟨0x1000820, 0x0, 15, 0⟩

end Sys2Proof.Machine
end

