-- ==== Sys2Proof/Machine/RegTable.lean ====
section
/-!
DEFINITION. The register tables of the spec as data: for each block the page offset, stride and count of every register
and the bit range, access code and reset value of each field (R10; the tables of R67, R103, R134, R158, R185, R209, R235,
R280, R312, R327, R348, R371, R372, R403, R404, R421, R446, R447, R481, R491). A reset value the spec writes as depending
on the instance stands as 0 here and is given in `Regs.lean`.
-/
namespace Sys2Proof.Machine

/-- Access codes of R10. -/
inductive Acc where
  | rw | ro | wo | w1c | rc
deriving DecidableEq, Repr

/-- The blocks that own register pages (R36). -/
inductive Block where
  | pm | bt | ow | ic | hc | cl | ks | pt | hl | sb | al | pb | ds | lg | aq | du | ev | tg | pr | vi
deriving DecidableEq, Repr

/-- One field of a register: bit range, access code, reset value. -/
structure FieldDesc where
  hi : Nat
  lo : Nat
  acc : Acc
  rst : Nat
deriving DecidableEq, Repr

/-- One register or array of registers of a page. -/
structure RegDesc where
  base : Nat
  stride : Nat
  count : Nat
  fields : List FieldDesc
deriving DecidableEq, Repr

/-- The registers of the HC_ page, part 0 (02_house_clock.md). -/
def hcRegs0 : List RegDesc :=
  [ ⟨0x0, 0x0, 1, [⟨8, 8, .rw, 0x0⟩, ⟨4, 4, .rw, 0x0⟩, ⟨1, 0, .rw, 0x1⟩]⟩,
    ⟨0x4, 0x0, 1, [⟨11, 8, .ro, 0x0⟩, ⟨4, 4, .ro, 0x0⟩, ⟨0, 0, .ro, 0x0⟩]⟩,
    ⟨0x8, 0x0, 1, [⟨15, 0, .rw, 0x0⟩]⟩,
    ⟨0xC, 0x0, 1, [⟨31, 31, .rw, 0x0⟩, ⟨17, 17, .rw, 0x0⟩, ⟨16, 16, .rw, 0x0⟩, ⟨15, 0, .rw, 0x0⟩]⟩,
    ⟨0x10, 0x0, 1, [⟨12, 0, .ro, 0x0⟩]⟩,
    ⟨0x14, 0x0, 1, [⟨31, 16, .rc, 0x0⟩, ⟨15, 0, .rc, 0x0⟩]⟩,
    ⟨0x18, 0x0, 1, [⟨31, 31, .rw, 0x0⟩, ⟨30, 30, .rw, 0x0⟩, ⟨29, 28, .rw, 0x0⟩, ⟨9, 0, .rw, 0x64⟩]⟩,
    ⟨0x20, 0x0, 1, [⟨31, 31, .rw, 0x0⟩, ⟨30, 30, .rw, 0x0⟩, ⟨29, 28, .rw, 0x0⟩, ⟨7, 0, .rw, 0xA⟩]⟩,
    ⟨0x24, 0x0, 1, [⟨31, 0, .ro, 0x0⟩]⟩,
    ⟨0x28, 0x0, 1, [⟨15, 0, .ro, 0x0⟩]⟩,
    ⟨0x2C, 0x0, 1, [⟨29, 0, .ro, 0x0⟩]⟩,
    ⟨0x30, 0x0, 1, [⟨15, 0, .ro, 0x0⟩]⟩,
    ⟨0x34, 0x0, 1, [⟨31, 16, .ro, 0x0⟩, ⟨15, 0, .rc, 0x0⟩]⟩,
    ⟨0x40, 0x0, 1, [⟨31, 31, .rw, 0x0⟩, ⟨30, 30, .rw, 0x0⟩, ⟨29, 28, .rw, 0x3⟩]⟩,
    ⟨0x44, 0x0, 1, [⟨31, 0, .ro, 0x0⟩]⟩,
    ⟨0x48, 0x0, 1, [⟨15, 0, .ro, 0x0⟩]⟩,
    ⟨0x4C, 0x0, 1, [⟨29, 0, .ro, 0x0⟩]⟩,
    ⟨0x50, 0x0, 1, [⟨15, 0, .ro, 0x0⟩]⟩,
    ⟨0x54, 0x0, 1, [⟨31, 31, .ro, 0x0⟩, ⟨30, 30, .ro, 0x0⟩, ⟨22, 16, .ro, 0x0⟩, ⟨8, 0, .ro, 0x0⟩]⟩,
    ⟨0x58, 0x0, 1, [⟨20, 16, .ro, 0x0⟩, ⟨13, 8, .ro, 0x0⟩, ⟨5, 0, .ro, 0x0⟩]⟩,
    ⟨0x5C, 0x0, 1, [⟨31, 31, .ro, 0x0⟩, ⟨16, 0, .ro, 0x0⟩]⟩,
    ⟨0x60, 0x0, 1, [⟨26, 0, .ro, 0x0⟩]⟩,
    ⟨0x64, 0x0, 1, [⟨31, 16, .ro, 0x0⟩, ⟨15, 0, .rc, 0x0⟩]⟩,
    ⟨0x80, 0x0, 1, [⟨31, 31, .rw, 0x0⟩, ⟨30, 30, .rw, 0x0⟩, ⟨7, 0, .rw, 0x0⟩]⟩,
    ⟨0x84, 0x0, 1, [⟨18, 0, .rw, 0x0⟩]⟩,
    ⟨0x88, 0x0, 1, [⟨31, 16, .ro, 0x0⟩, ⟨15, 0, .rc, 0x0⟩]⟩,
    ⟨0x100, 0x40, 4, [⟨31, 0, .ro, 0x0⟩]⟩,
    ⟨0x104, 0x40, 4, [⟨15, 0, .ro, 0x0⟩]⟩,
    ⟨0x108, 0x40, 4, [⟨29, 0, .ro, 0x0⟩]⟩,
    ⟨0x10C, 0x40, 4, [⟨15, 0, .ro, 0x0⟩]⟩,
    ⟨0x110, 0x40, 4, [⟨31, 0, .ro, 0x0⟩]⟩,
    ⟨0x114, 0x40, 4, [⟨31, 0, .ro, 0x0⟩]⟩,
    ⟨0x118, 0x40, 4, [⟨31, 0, .rw, 0x0⟩]⟩,
    ⟨0x11C, 0x40, 4, [⟨31, 0, .ro, 0x0⟩]⟩,
    ⟨0x120, 0x40, 4, [⟨31, 0, .rw, 0x0⟩]⟩,
    ⟨0x124, 0x40, 4, [⟨7, 0, .rw, 0x32⟩]⟩,
    ⟨0x128, 0x40, 4, [⟨31, 0, .rw, 0x0⟩]⟩,
    ⟨0x12C, 0x40, 4, [⟨15, 0, .rw, 0x0⟩]⟩,
    ⟨0x130, 0x40, 4, [⟨29, 0, .rw, 0x0⟩]⟩,
    ⟨0x134, 0x40, 4, [⟨15, 0, .rw, 0x0⟩]⟩ ]

/-- The registers of the HC_ page, part 1 (02_house_clock.md). -/
def hcRegs1 : List RegDesc :=
  [ ⟨0x138, 0x40, 4, [⟨29, 0, .rw, 0x0⟩]⟩,
    ⟨0x13C, 0x40, 4, [⟨27, 24, .ro, 0x0⟩, ⟨20, 20, .w1c, 0x0⟩, ⟨19, 19, .w1c, 0x0⟩, ⟨18, 18, .w1c, 0x0⟩, ⟨17, 17, .w1c, 0x0⟩, ⟨16, 16, .ro, 0x0⟩, ⟨1, 0, .wo, 0x0⟩]⟩,
    ⟨0x400, 0x10, 19, [⟨31, 0, .rw, 0x0⟩]⟩,
    ⟨0x404, 0x10, 19, [⟨31, 0, .rw, 0x0⟩]⟩,
    ⟨0x408, 0x10, 19, [⟨31, 0, .rw, 0x0⟩]⟩,
    ⟨0x40C, 0x10, 19, [⟨31, 0, .rw, 0x0⟩]⟩ ]

/-- The registers of the PT_ page, part 0 (03_ports.md). -/
def ptRegs0 : List RegDesc :=
  [ ⟨0x0, 0x0, 1, [⟨31, 31, .rw, 0x0⟩, ⟨30, 28, .rw, 0x0⟩, ⟨27, 26, .rw, 0x1⟩, ⟨25, 24, .rw, 0x0⟩, ⟨23, 23, .rw, 0x1⟩, ⟨15, 8, .rw, 0xA⟩]⟩,
    ⟨0x4, 0x0, 1, [⟨15, 15, .ro, 0x0⟩, ⟨14, 12, .ro, 0x0⟩, ⟨9, 9, .ro, 0x0⟩, ⟨8, 8, .ro, 0x0⟩, ⟨5, 5, .ro, 0x0⟩, ⟨4, 4, .ro, 0x0⟩, ⟨1, 0, .ro, 0x0⟩]⟩,
    ⟨0x8, 0x0, 1, [⟨2, 2, .wo, 0x0⟩, ⟨1, 1, .wo, 0x0⟩, ⟨0, 0, .wo, 0x0⟩]⟩,
    ⟨0xC, 0x0, 1, [⟨31, 31, .rw, 0x0⟩, ⟨15, 0, .rw, 0x3E8⟩]⟩,
    ⟨0x10, 0x0, 1, [⟨31, 31, .rw, 0x0⟩, ⟨30, 30, .rw, 0x0⟩, ⟨23, 16, .rw, 0xC0⟩, ⟨7, 0, .rw, 0xA⟩]⟩,
    ⟨0x14, 0x0, 1, [⟨4, 4, .w1c, 0x0⟩, ⟨3, 3, .w1c, 0x0⟩, ⟨2, 2, .w1c, 0x0⟩, ⟨1, 1, .w1c, 0x0⟩, ⟨0, 0, .w1c, 0x0⟩]⟩,
    ⟨0x18, 0x0, 1, [⟨31, 0, .rw, 0x0⟩]⟩,
    ⟨0x1C, 0x0, 1, [⟨15, 0, .rw, 0x0⟩]⟩,
    ⟨0x100, 0x0, 1, [⟨31, 0, .ro, 0x0⟩]⟩,
    ⟨0x104, 0x0, 1, [⟨31, 0, .ro, 0x0⟩]⟩,
    ⟨0x108, 0x0, 1, [⟨31, 0, .ro, 0x0⟩]⟩,
    ⟨0x10C, 0x0, 1, [⟨31, 0, .ro, 0x0⟩]⟩,
    ⟨0x110, 0x0, 1, [⟨31, 0, .ro, 0x0⟩]⟩,
    ⟨0x114, 0x0, 1, [⟨31, 0, .ro, 0x0⟩]⟩,
    ⟨0x118, 0x0, 1, [⟨31, 16, .rc, 0x0⟩, ⟨15, 0, .rc, 0x0⟩]⟩,
    ⟨0x11C, 0x0, 1, [⟨31, 16, .rc, 0x0⟩, ⟨15, 0, .rc, 0x0⟩]⟩,
    ⟨0x120, 0x0, 1, [⟨31, 16, .rc, 0x0⟩, ⟨15, 0, .rc, 0x0⟩]⟩,
    ⟨0x124, 0x0, 1, [⟨31, 16, .rc, 0x0⟩, ⟨15, 0, .rc, 0x0⟩]⟩,
    ⟨0x128, 0x0, 1, [⟨31, 16, .rc, 0x0⟩, ⟨15, 0, .rc, 0x0⟩]⟩,
    ⟨0x12C, 0x0, 1, [⟨31, 16, .rc, 0x0⟩, ⟨15, 0, .rc, 0x0⟩]⟩,
    ⟨0x130, 0x0, 1, [⟨31, 16, .rc, 0x0⟩, ⟨15, 0, .rc, 0x0⟩]⟩,
    ⟨0x200, 0x20, 16, [⟨31, 0, .rw, 0x0⟩]⟩,
    ⟨0x204, 0x20, 16, [⟨31, 0, .rw, 0x0⟩]⟩,
    ⟨0x208, 0x20, 16, [⟨31, 0, .rw, 0x0⟩]⟩,
    ⟨0x20C, 0x20, 16, [⟨31, 0, .rw, 0x0⟩]⟩,
    ⟨0x210, 0x20, 16, [⟨31, 31, .rw, 0x0⟩, ⟨30, 30, .rw, 0x0⟩, ⟨29, 29, .rw, 0x0⟩, ⟨28, 28, .rw, 0x0⟩, ⟨27, 24, .rw, 0x0⟩, ⟨15, 0, .rw, 0x0⟩]⟩,
    ⟨0x214, 0x20, 16, []⟩,
    ⟨0x218, 0x20, 16, []⟩,
    ⟨0x21C, 0x20, 16, []⟩,
    ⟨0x400, 0x40, 4, [⟨31, 12, .rw, 0x0⟩]⟩,
    ⟨0x404, 0x40, 4, [⟨7, 0, .rw, 0x0⟩]⟩,
    ⟨0x408, 0x40, 4, [⟨12, 0, .rw, 0x0⟩]⟩,
    ⟨0x40C, 0x40, 4, [⟨11, 0, .ro, 0x0⟩]⟩,
    ⟨0x410, 0x40, 4, [⟨31, 12, .rw, 0x0⟩]⟩,
    ⟨0x414, 0x40, 4, [⟨7, 0, .rw, 0x0⟩]⟩,
    ⟨0x418, 0x40, 4, [⟨12, 0, .rw, 0x0⟩]⟩,
    ⟨0x41C, 0x40, 4, [⟨11, 0, .ro, 0x0⟩]⟩,
    ⟨0x420, 0x40, 4, [⟨31, 16, .rc, 0x0⟩, ⟨15, 0, .rc, 0x0⟩]⟩,
    ⟨0x424, 0x40, 4, []⟩,
    ⟨0x428, 0x40, 4, []⟩ ]

/-- The registers of the PT_ page, part 1 (03_ports.md). -/
def ptRegs1 : List RegDesc :=
  [ ⟨0x42C, 0x40, 4, []⟩,
    ⟨0x430, 0x40, 4, []⟩,
    ⟨0x434, 0x40, 4, []⟩,
    ⟨0x438, 0x40, 4, []⟩,
    ⟨0x43C, 0x40, 4, []⟩ ]

/-- The registers of the HL_ page (04_hall_and_larder.md). -/
def hlRegs : List RegDesc :=
  [ ⟨0x0, 0x0, 1, [⟨31, 31, .rw, 0x0⟩, ⟨30, 30, .rw, 0x1⟩, ⟨9, 0, .rw, 0x64⟩]⟩,
    ⟨0x4, 0x0, 1, [⟨16, 0, .ro, 0x18000⟩]⟩,
    ⟨0x10, 0x0, 1, [⟨31, 28, .rw, 0x9⟩, ⟨27, 24, .rw, 0x9⟩, ⟨23, 20, .rw, 0x5⟩, ⟨19, 16, .rw, 0x5⟩, ⟨15, 12, .rw, 0x5⟩, ⟨11, 8, .rw, 0x5⟩, ⟨7, 4, .rw, 0x5⟩, ⟨3, 0, .rw, 0x5⟩]⟩,
    ⟨0x20, 0x4, 8, [⟨15, 0, .rw, 0x0⟩]⟩,
    ⟨0x40, 0x0, 1, [⟨15, 0, .rw, 0x190⟩]⟩,
    ⟨0x50, 0x4, 8, [⟨31, 30, .rw, 0x0⟩, ⟨15, 0, .ro, 0x0⟩]⟩,
    ⟨0x70, 0x0, 1, [⟨4, 4, .w1c, 0x0⟩, ⟨3, 3, .w1c, 0x0⟩, ⟨2, 2, .w1c, 0x0⟩, ⟨1, 1, .w1c, 0x0⟩, ⟨0, 0, .w1c, 0x0⟩]⟩,
    ⟨0x80, 0x0, 1, [⟨31, 16, .rc, 0x0⟩, ⟨15, 0, .rc, 0x0⟩]⟩,
    ⟨0x84, 0x0, 1, [⟨31, 16, .rc, 0x0⟩, ⟨15, 0, .rc, 0x0⟩]⟩,
    ⟨0x88, 0x0, 1, [⟨31, 16, .rc, 0x0⟩, ⟨15, 0, .rc, 0x0⟩]⟩,
    ⟨0x400, 0x40, 22, [⟨31, 30, .rw, 0x0⟩, ⟨29, 29, .rw, 0x1⟩, ⟨28, 26, .rw, 0x0⟩, ⟨23, 0, .rw, 0xFAC688⟩]⟩,
    ⟨0x404, 0x40, 22, [⟨19, 16, .rw, 0x0⟩, ⟨11, 0, .rw, 0x1⟩]⟩,
    ⟨0x408, 0x40, 22, [⟨31, 16, .rc, 0x0⟩, ⟨15, 0, .rc, 0x0⟩]⟩,
    ⟨0x40C, 0x40, 22, [⟨31, 16, .rc, 0x0⟩, ⟨15, 0, .rc, 0x0⟩]⟩,
    ⟨0x410, 0x40, 22, [⟨31, 16, .rc, 0x0⟩, ⟨15, 0, .rc, 0x0⟩]⟩,
    ⟨0x414, 0x40, 22, [⟨31, 16, .rc, 0x0⟩, ⟨15, 0, .rc, 0x0⟩]⟩,
    ⟨0x418, 0x40, 22, []⟩,
    ⟨0x41C, 0x40, 22, []⟩,
    ⟨0x420, 0x40, 22, []⟩,
    ⟨0x424, 0x40, 22, []⟩,
    ⟨0x428, 0x40, 22, []⟩,
    ⟨0x42C, 0x40, 22, []⟩,
    ⟨0x430, 0x40, 22, []⟩,
    ⟨0x434, 0x40, 22, []⟩,
    ⟨0x438, 0x40, 22, []⟩,
    ⟨0x43C, 0x40, 22, []⟩,
    ⟨0x1000, 0x4, 176, [⟨16, 0, .ro, 0x0⟩]⟩,
    ⟨0x8000, 0x8, 4096, [⟨18, 0, .rw, 0x0⟩]⟩,
    ⟨0x8004, 0x8, 4096, [⟨19, 19, .rw, 0x0⟩, ⟨18, 0, .rw, 0x0⟩]⟩ ]

/-- The registers of the SB_ page (05_subscription.md). -/
def sbRegs : List RegDesc :=
  [ ⟨0x0, 0x0, 1, [⟨31, 31, .rw, 0x0⟩, ⟨30, 30, .rw, 0x0⟩, ⟨29, 29, .rw, 0x1⟩, ⟨15, 0, .rw, 0x3C⟩]⟩,
    ⟨0x4, 0x0, 1, [⟨25, 16, .ro, 0x0⟩, ⟨8, 0, .ro, 0x0⟩]⟩,
    ⟨0x8, 0x0, 1, [⟨5, 5, .w1c, 0x0⟩, ⟨4, 4, .w1c, 0x0⟩, ⟨3, 3, .w1c, 0x0⟩, ⟨2, 2, .w1c, 0x0⟩, ⟨1, 1, .w1c, 0x0⟩, ⟨0, 0, .w1c, 0x0⟩]⟩,
    ⟨0x10, 0x0, 1, [⟨14, 0, .rw, 0x0⟩]⟩,
    ⟨0x14, 0x0, 1, [⟨1, 0, .wo, 0x0⟩]⟩,
    ⟨0x20, 0x0, 1, [⟨14, 0, .rw, 0x0⟩]⟩,
    ⟨0x24, 0x0, 1, [⟨1, 0, .wo, 0x0⟩]⟩,
    ⟨0x28, 0x4, 2, [⟨31, 0, .rw, 0x0⟩]⟩,
    ⟨0x40, 0x4, 16, [⟨31, 0, .rw, 0x0⟩]⟩,
    ⟨0x80, 0x0, 1, [⟨14, 0, .rw, 0x0⟩]⟩,
    ⟨0xA0, 0x0, 1, [⟨31, 30, .ro, 0x0⟩, ⟨29, 29, .ro, 0x0⟩, ⟨28, 24, .ro, 0x0⟩, ⟨23, 16, .ro, 0x0⟩, ⟨15, 0, .ro, 0x0⟩]⟩,
    ⟨0xA4, 0x0, 1, [⟨31, 0, .ro, 0x0⟩]⟩,
    ⟨0xA8, 0x0, 1, [⟨31, 0, .ro, 0x0⟩]⟩,
    ⟨0xAC, 0x0, 1, [⟨31, 16, .ro, 0x0⟩, ⟨15, 0, .ro, 0x0⟩]⟩,
    ⟨0xB0, 0x0, 1, [⟨31, 16, .ro, 0x0⟩, ⟨15, 0, .ro, 0x0⟩]⟩,
    ⟨0xB4, 0x0, 1, [⟨31, 16, .ro, 0x0⟩, ⟨15, 0, .ro, 0x0⟩]⟩,
    ⟨0xB8, 0x0, 1, [⟨31, 16, .ro, 0x0⟩, ⟨15, 0, .ro, 0x0⟩]⟩,
    ⟨0xBC, 0x0, 1, [⟨31, 16, .ro, 0x0⟩, ⟨15, 0, .ro, 0x0⟩]⟩,
    ⟨0x100, 0x4, 4, [⟨31, 0, .ro, 0x0⟩]⟩,
    ⟨0x110, 0x4, 4, [⟨31, 0, .wo, 0x0⟩]⟩,
    ⟨0x140, 0x0, 1, [⟨14, 0, .rw, 0x0⟩]⟩,
    ⟨0x144, 0x0, 1, [⟨1, 0, .wo, 0x0⟩]⟩,
    ⟨0x180, 0x4, 16, [⟨31, 0, .ro, 0x0⟩]⟩,
    ⟨0x200, 0x0, 1, [⟨31, 16, .rc, 0x0⟩, ⟨15, 0, .rc, 0x0⟩]⟩,
    ⟨0x204, 0x0, 1, [⟨31, 16, .rc, 0x0⟩, ⟨15, 0, .rc, 0x0⟩]⟩,
    ⟨0x208, 0x0, 1, [⟨31, 16, .rc, 0x0⟩, ⟨15, 0, .rc, 0x0⟩]⟩,
    ⟨0x20C, 0x0, 1, [⟨15, 0, .rc, 0x0⟩]⟩ ]

/-- The registers of the AL_ page (06_alignment.md). -/
def alRegs : List RegDesc :=
  [ ⟨0x0, 0x0, 1, [⟨31, 31, .rw, 0x0⟩, ⟨30, 30, .rw, 0x1⟩]⟩,
    ⟨0x4, 0x0, 1, [⟨28, 16, .ro, 0x0⟩, ⟨5, 0, .ro, 0x0⟩]⟩,
    ⟨0x8, 0x0, 1, [⟨4, 4, .w1c, 0x0⟩, ⟨3, 3, .w1c, 0x0⟩, ⟨2, 2, .w1c, 0x0⟩, ⟨1, 1, .w1c, 0x0⟩, ⟨0, 0, .w1c, 0x0⟩]⟩,
    ⟨0x10, 0x0, 1, [⟨9, 0, .rw, 0x0⟩]⟩,
    ⟨0x14, 0x0, 1, [⟨1, 0, .wo, 0x0⟩]⟩,
    ⟨0x20, 0x0, 1, [⟨9, 0, .rw, 0x0⟩]⟩,
    ⟨0x24, 0x0, 1, [⟨31, 16, .ro, 0x0⟩, ⟨15, 0, .ro, 0x0⟩]⟩,
    ⟨0x28, 0x0, 1, [⟨31, 16, .ro, 0x0⟩, ⟨15, 0, .ro, 0x0⟩]⟩,
    ⟨0x2C, 0x0, 1, [⟨31, 16, .ro, 0x0⟩, ⟨15, 0, .ro, 0x0⟩]⟩,
    ⟨0x40, 0x4, 16, [⟨31, 0, .rw, 0x0⟩]⟩,
    ⟨0x100, 0x4, 64, [⟨31, 31, .rw, 0x0⟩, ⟨30, 30, .rw, 0x0⟩, ⟨10, 0, .rw, 0x190⟩]⟩,
    ⟨0x200, 0x4, 32, [⟨31, 30, .rw, 0x1⟩, ⟨18, 6, .rw, 0x0⟩]⟩,
    ⟨0x280, 0x0, 1, [⟨31, 16, .rc, 0x0⟩, ⟨15, 0, .rc, 0x0⟩]⟩,
    ⟨0x284, 0x0, 1, [⟨31, 16, .rc, 0x0⟩]⟩ ]

/-- The registers of the AQ_ page (07_local_acquisition.md). -/
def aqRegs : List RegDesc :=
  [ ⟨0x0, 0x0, 1, [⟨31, 31, .rw, 0x0⟩]⟩,
    ⟨0x4, 0x0, 1, [⟨19, 16, .ro, 0x0⟩, ⟨15, 12, .ro, 0x0⟩, ⟨11, 0, .ro, 0x0⟩]⟩,
    ⟨0x8, 0x0, 1, [⟨5, 5, .w1c, 0x0⟩, ⟨4, 4, .w1c, 0x0⟩, ⟨3, 3, .w1c, 0x0⟩, ⟨2, 2, .w1c, 0x0⟩, ⟨1, 1, .w1c, 0x0⟩, ⟨0, 0, .w1c, 0x0⟩]⟩,
    ⟨0x10, 0x4, 4, [⟨31, 31, .rw, 0x0⟩, ⟨27, 26, .rw, 0x1⟩, ⟨25, 24, .rw, 0x0⟩, ⟨14, 8, .ro, 0x5⟩]⟩,
    ⟨0x40, 0x10, 4, [⟨31, 12, .rw, 0x0⟩]⟩,
    ⟨0x44, 0x10, 4, [⟨7, 0, .rw, 0x0⟩]⟩,
    ⟨0x48, 0x10, 4, [⟨20, 16, .rw, 0x0⟩, ⟨4, 0, .rw, 0x0⟩]⟩,
    ⟨0x4C, 0x10, 4, [⟨31, 0, .ro, 0x0⟩]⟩,
    ⟨0x80, 0x0, 1, [⟨4, 0, .rw, 0x0⟩]⟩,
    ⟨0x90, 0x0, 1, [⟨31, 31, .ro, 0x0⟩, ⟨30, 29, .ro, 0x0⟩, ⟨20, 16, .ro, 0x0⟩]⟩,
    ⟨0x94, 0x0, 1, [⟨31, 0, .ro, 0x0⟩]⟩,
    ⟨0x98, 0x0, 1, [⟨31, 30, .ro, 0x0⟩, ⟨29, 0, .ro, 0x0⟩]⟩,
    ⟨0x9C, 0x0, 1, [⟨15, 0, .ro, 0x0⟩]⟩,
    ⟨0x100, 0x20, 32, [⟨31, 31, .rw, 0x0⟩, ⟨30, 30, .rw, 0x0⟩, ⟨29, 29, .rw, 0x0⟩, ⟨28, 28, .rw, 0x0⟩, ⟨11, 0, .rw, 0x0⟩]⟩,
    ⟨0x104, 0x20, 32, [⟨23, 0, .rw, 0x400000⟩]⟩,
    ⟨0x108, 0x20, 32, [⟨23, 0, .rw, 0x0⟩]⟩,
    ⟨0x10C, 0x20, 32, [⟨31, 0, .rw, 0x3F800000⟩]⟩,
    ⟨0x110, 0x20, 32, [⟨23, 0, .rw, 0x7FFFFF⟩]⟩,
    ⟨0x114, 0x20, 32, [⟨23, 0, .rw, 0x800000⟩]⟩,
    ⟨0x118, 0x20, 32, [⟨31, 24, .rw, 0x7F⟩, ⟨23, 16, .rw, 0x80⟩, ⟨15, 0, .rw, 0x0⟩]⟩,
    ⟨0x11C, 0x20, 32, [⟨31, 31, .ro, 0x0⟩, ⟨30, 30, .ro, 0x0⟩, ⟨29, 29, .ro, 0x0⟩, ⟨28, 28, .ro, 0x0⟩, ⟨27, 27, .ro, 0x0⟩, ⟨26, 24, .ro, 0x0⟩, ⟨23, 16, .rc, 0x0⟩, ⟨15, 8, .rc, 0x0⟩, ⟨7, 0, .rc, 0x0⟩]⟩ ]

/-- The registers of the DS_ page (08_dispatch.md). -/
def dsRegs : List RegDesc :=
  [ ⟨0x0, 0x0, 1, [⟨31, 31, .rw, 0x0⟩, ⟨30, 30, .rw, 0x1⟩]⟩,
    ⟨0x4, 0x0, 1, [⟨14, 0, .ro, 0x0⟩]⟩,
    ⟨0x8, 0x0, 1, [⟨4, 4, .w1c, 0x0⟩, ⟨3, 3, .w1c, 0x0⟩, ⟨2, 2, .w1c, 0x0⟩, ⟨1, 1, .w1c, 0x0⟩, ⟨0, 0, .w1c, 0x0⟩]⟩,
    ⟨0x10, 0x0, 1, [⟨14, 0, .rw, 0x0⟩]⟩,
    ⟨0x14, 0x0, 1, [⟨1, 0, .wo, 0x0⟩]⟩,
    ⟨0x20, 0x0, 1, [⟨14, 0, .rw, 0x0⟩]⟩,
    ⟨0x24, 0x0, 1, [⟨1, 0, .wo, 0x0⟩]⟩,
    ⟨0x30, 0x0, 1, [⟨14, 0, .rw, 0x0⟩]⟩,
    ⟨0x34, 0x0, 1, [⟨2, 0, .wo, 0x0⟩]⟩,
    ⟨0x38, 0x0, 1, [⟨31, 0, .rw, 0x0⟩]⟩,
    ⟨0x40, 0x4, 8, [⟨31, 0, .rw, 0x0⟩]⟩,
    ⟨0x60, 0x4, 8, [⟨31, 0, .rw, 0x0⟩]⟩,
    ⟨0x80, 0x4, 4, [⟨31, 0, .rw, 0x0⟩]⟩,
    ⟨0x90, 0x0, 1, [⟨14, 0, .rw, 0x0⟩]⟩,
    ⟨0x94, 0x0, 1, [⟨31, 0, .ro, 0x0⟩]⟩,
    ⟨0x98, 0x0, 1, [⟨31, 24, .ro, 0x0⟩, ⟨23, 16, .ro, 0x0⟩, ⟨15, 8, .ro, 0x0⟩, ⟨7, 4, .ro, 0x0⟩, ⟨3, 0, .ro, 0x0⟩]⟩,
    ⟨0xA0, 0x0, 1, [⟨14, 0, .rw, 0x0⟩]⟩,
    ⟨0xA4, 0x0, 1, [⟨31, 31, .ro, 0x0⟩, ⟨12, 0, .ro, 0x0⟩]⟩,
    ⟨0xB0, 0x0, 1, [⟨31, 16, .rc, 0x0⟩, ⟨15, 0, .rc, 0x0⟩]⟩,
    ⟨0xB4, 0x0, 1, [⟨31, 16, .rc, 0x0⟩, ⟨15, 0, .rc, 0x0⟩]⟩,
    ⟨0xB8, 0x0, 1, [⟨15, 0, .rc, 0x0⟩]⟩,
    ⟨0x1000, 0x8, 512, [⟨17, 0, .rw, 0x0⟩]⟩,
    ⟨0x1004, 0x8, 512, [⟨31, 16, .rc, 0x0⟩, ⟨15, 8, .rc, 0x0⟩, ⟨7, 0, .rc, 0x0⟩]⟩ ]

/-- The registers of the PB_ page (10_publication_trip.md). -/
def pbRegs : List RegDesc :=
  [ ⟨0x0, 0x0, 1, [⟨31, 31, .rw, 0x0⟩]⟩,
    ⟨0x4, 0x0, 1, [⟨31, 31, .ro, 0x0⟩, ⟨21, 16, .ro, 0x0⟩, ⟨8, 0, .ro, 0x0⟩]⟩,
    ⟨0x8, 0x0, 1, [⟨5, 5, .w1c, 0x0⟩, ⟨4, 4, .w1c, 0x0⟩, ⟨3, 3, .w1c, 0x0⟩, ⟨2, 2, .w1c, 0x0⟩, ⟨1, 1, .w1c, 0x0⟩, ⟨0, 0, .w1c, 0x0⟩]⟩,
    ⟨0x10, 0x0, 1, [⟨11, 0, .rw, 0x0⟩]⟩,
    ⟨0x14, 0x0, 1, [⟨1, 0, .wo, 0x0⟩]⟩,
    ⟨0x40, 0x4, 16, [⟨31, 0, .rw, 0x0⟩]⟩,
    ⟨0x80, 0x0, 1, [⟨11, 0, .rw, 0x0⟩]⟩,
    ⟨0x90, 0x0, 1, [⟨31, 0, .ro, 0x0⟩]⟩,
    ⟨0x94, 0x0, 1, [⟨31, 0, .ro, 0x0⟩]⟩,
    ⟨0x98, 0x0, 1, [⟨31, 16, .ro, 0x0⟩, ⟨15, 0, .ro, 0x0⟩]⟩,
    ⟨0x9C, 0x0, 1, [⟨31, 24, .ro, 0x0⟩, ⟨23, 16, .ro, 0x0⟩, ⟨15, 8, .ro, 0x0⟩, ⟨7, 0, .ro, 0x0⟩]⟩,
    ⟨0x200, 0x4, 12, [⟨31, 31, .rw, 0x0⟩, ⟨30, 30, .ro, 0x0⟩, ⟨27, 16, .rw, 0x0⟩, ⟨15, 8, .rw, 0x0⟩, ⟨7, 4, .rc, 0x0⟩, ⟨3, 0, .rc, 0x0⟩]⟩,
    ⟨0x300, 0x0, 1, [⟨31, 16, .rc, 0x0⟩, ⟨15, 0, .rc, 0x0⟩]⟩,
    ⟨0x304, 0x0, 1, [⟨31, 16, .rc, 0x0⟩, ⟨15, 0, .rc, 0x0⟩]⟩,
    ⟨0x308, 0x0, 1, [⟨31, 0, .ro, 0x0⟩]⟩,
    ⟨0x1000, 0x8, 512, [⟨31, 16, .rw, 0x0⟩, ⟨15, 0, .rw, 0x0⟩]⟩,
    ⟨0x1004, 0x8, 512, [⟨31, 16, .rc, 0x0⟩]⟩ ]

/-- The registers of the LG_ page (12_logic_engine.md). -/
def lgRegs : List RegDesc :=
  [ ⟨0x0, 0x0, 1, [⟨31, 31, .rw, 0x0⟩, ⟨30, 30, .rw, 0x1⟩]⟩,
    ⟨0x4, 0x0, 1, [⟨31, 31, .ro, 0x0⟩, ⟨22, 16, .ro, 0x0⟩, ⟨8, 0, .ro, 0x0⟩]⟩,
    ⟨0x8, 0x0, 1, [⟨6, 6, .w1c, 0x0⟩, ⟨5, 5, .w1c, 0x0⟩, ⟨4, 4, .w1c, 0x0⟩, ⟨3, 3, .w1c, 0x0⟩, ⟨2, 2, .w1c, 0x0⟩, ⟨1, 1, .w1c, 0x0⟩, ⟨0, 0, .w1c, 0x0⟩]⟩,
    ⟨0x10, 0x0, 1, [⟨7, 0, .rw, 0x0⟩]⟩,
    ⟨0x14, 0x0, 1, [⟨1, 0, .wo, 0x0⟩]⟩,
    ⟨0x18, 0x0, 1, [⟨31, 30, .wo, 0x0⟩, ⟨29, 29, .ro, 0x0⟩, ⟨27, 24, .ro, 0x0⟩, ⟨23, 16, .rw, 0x0⟩, ⟨7, 0, .rw, 0x0⟩]⟩,
    ⟨0x20, 0x0, 1, [⟨7, 0, .rw, 0x0⟩]⟩,
    ⟨0x24, 0x0, 1, [⟨1, 0, .wo, 0x0⟩]⟩,
    ⟨0x30, 0x0, 1, [⟨7, 0, .rw, 0x0⟩]⟩,
    ⟨0x40, 0x4, 16, [⟨31, 0, .rw, 0x0⟩]⟩,
    ⟨0x80, 0x4, 8, [⟨31, 0, .rw, 0x0⟩]⟩,
    ⟨0xA0, 0x0, 1, [⟨31, 0, .ro, 0x0⟩]⟩,
    ⟨0xA4, 0x0, 1, [⟨31, 30, .ro, 0x0⟩, ⟨29, 28, .ro, 0x0⟩, ⟨16, 0, .ro, 0x0⟩]⟩,
    ⟨0xA8, 0x0, 1, [⟨16, 0, .ro, 0x0⟩]⟩,
    ⟨0xAC, 0x0, 1, [⟨31, 24, .ro, 0x0⟩, ⟨23, 16, .ro, 0x0⟩, ⟨15, 8, .ro, 0x0⟩]⟩,
    ⟨0xC0, 0x0, 1, [⟨31, 16, .rc, 0x0⟩, ⟨15, 0, .rc, 0x0⟩]⟩,
    ⟨0xC4, 0x0, 1, [⟨31, 16, .rc, 0x0⟩, ⟨15, 0, .rc, 0x0⟩]⟩ ]

/-- The registers of the DU_ page (13_drive_unit.md). -/
def duRegs : List RegDesc :=
  [ ⟨0x0, 0x0, 1, [⟨31, 31, .rw, 0x0⟩]⟩,
    ⟨0x4, 0x0, 1, [⟨5, 5, .w1c, 0x0⟩, ⟨4, 4, .w1c, 0x0⟩, ⟨3, 3, .w1c, 0x0⟩, ⟨2, 2, .w1c, 0x0⟩, ⟨1, 1, .w1c, 0x0⟩, ⟨0, 0, .w1c, 0x0⟩]⟩,
    ⟨0x8, 0x0, 1, [⟨11, 0, .wo, 0x0⟩]⟩,
    ⟨0xC, 0x0, 1, [⟨11, 0, .w1c, 0x0⟩]⟩,
    ⟨0x20, 0x4, 8, [⟨31, 31, .rw, 0x0⟩, ⟨30, 30, .rw, 0x0⟩, ⟨29, 29, .rw, 0x0⟩, ⟨28, 28, .rw, 0x0⟩, ⟨27, 24, .rw, 0x0⟩, ⟨23, 20, .rw, 0x0⟩, ⟨16, 16, .wo, 0x0⟩, ⟨15, 15, .ro, 0x0⟩, ⟨14, 14, .ro, 0x0⟩, ⟨7, 0, .rc, 0x0⟩]⟩,
    ⟨0x40, 0x0, 1, [⟨31, 16, .ro, 0x0⟩, ⟨15, 0, .ro, 0x0⟩]⟩,
    ⟨0x44, 0x0, 1, [⟨31, 16, .rc, 0x0⟩]⟩,
    ⟨0x50, 0x0, 1, [⟨31, 31, .ro, 0x0⟩, ⟨30, 30, .ro, 0x0⟩, ⟨22, 16, .ro, 0x0⟩, ⟨3, 0, .ro, 0x0⟩]⟩,
    ⟨0x54, 0x0, 1, [⟨31, 0, .ro, 0x0⟩]⟩,
    ⟨0x58, 0x0, 1, [⟨31, 30, .ro, 0x0⟩, ⟨29, 0, .ro, 0x0⟩]⟩,
    ⟨0x5C, 0x0, 1, [⟨15, 0, .ro, 0x0⟩]⟩,
    ⟨0x80, 0x8, 16, [⟨31, 31, .rw, 0x0⟩, ⟨30, 30, .rw, 0x0⟩, ⟨14, 0, .rw, 0x0⟩]⟩,
    ⟨0x84, 0x8, 16, [⟨31, 16, .rc, 0x0⟩, ⟨15, 0, .rw, 0x0⟩]⟩,
    ⟨0x200, 0x40, 12, [⟨31, 31, .rw, 0x0⟩, ⟨30, 29, .rw, 0x0⟩, ⟨28, 28, .rw, 0x0⟩, ⟨27, 27, .rw, 0x0⟩, ⟨26, 26, .rw, 0x0⟩, ⟨23, 20, .rw, 0x0⟩, ⟨19, 16, .rw, 0x0⟩, ⟨15, 12, .rw, 0x0⟩, ⟨7, 0, .rw, 0x0⟩]⟩,
    ⟨0x204, 0x40, 12, [⟨23, 0, .rw, 0x400⟩]⟩,
    ⟨0x208, 0x40, 12, [⟨23, 0, .rw, 0x0⟩]⟩,
    ⟨0x20C, 0x40, 12, [⟨19, 0, .rw, 0x0⟩]⟩,
    ⟨0x210, 0x40, 12, [⟨31, 24, .rw, 0x0⟩, ⟨15, 8, .rw, 0x5⟩, ⟨7, 0, .rw, 0x32⟩]⟩,
    ⟨0x214, 0x40, 12, [⟨31, 16, .rw, 0x0⟩, ⟨12, 0, .rw, 0x1⟩]⟩,
    ⟨0x218, 0x40, 12, [⟨23, 0, .ro, 0x400⟩]⟩,
    ⟨0x21C, 0x40, 12, [⟨23, 0, .ro, 0x0⟩]⟩,
    ⟨0x220, 0x40, 12, [⟨23, 16, .ro, 0x0⟩, ⟨15, 8, .ro, 0x0⟩, ⟨1, 1, .ro, 0x0⟩, ⟨0, 0, .ro, 0x0⟩]⟩,
    ⟨0x224, 0x40, 12, [⟨31, 24, .rc, 0x0⟩, ⟨23, 16, .rc, 0x0⟩, ⟨15, 8, .rc, 0x0⟩, ⟨7, 0, .rc, 0x0⟩]⟩,
    ⟨0x228, 0x40, 12, []⟩,
    ⟨0x22C, 0x40, 12, []⟩,
    ⟨0x230, 0x40, 12, []⟩,
    ⟨0x234, 0x40, 12, []⟩,
    ⟨0x238, 0x40, 12, []⟩,
    ⟨0x23C, 0x40, 12, []⟩ ]

/-- The registers of the CL_ page (14_cellar.md). -/
def clRegs : List RegDesc :=
  [ ⟨0x0, 0x0, 1, [⟨1, 1, .rw, 0x0⟩, ⟨0, 0, .rw, 0x0⟩]⟩,
    ⟨0x4, 0x0, 1, [⟨31, 30, .ro, 0x0⟩, ⟨29, 29, .ro, 0x0⟩, ⟨28, 28, .ro, 0x1⟩, ⟨27, 27, .ro, 0x1⟩, ⟨26, 26, .ro, 0x1⟩, ⟨25, 25, .ro, 0x0⟩, ⟨24, 24, .ro, 0x0⟩, ⟨23, 23, .ro, 0x0⟩, ⟨22, 22, .ro, 0x0⟩, ⟨3, 0, .ro, 0x0⟩]⟩,
    ⟨0x8, 0x0, 1, [⟨6, 6, .w1c, 0x0⟩, ⟨5, 5, .w1c, 0x0⟩, ⟨4, 4, .w1c, 0x0⟩, ⟨3, 3, .w1c, 0x0⟩, ⟨2, 2, .w1c, 0x0⟩, ⟨1, 1, .w1c, 0x0⟩]⟩,
    ⟨0x10, 0x0, 1, [⟨14, 0, .ro, 0x0⟩]⟩,
    ⟨0x14, 0x0, 1, [⟨7, 0, .ro, 0x0⟩]⟩,
    ⟨0x18, 0x0, 1, [⟨6, 0, .ro, 0x0⟩]⟩,
    ⟨0x1C, 0x0, 1, [⟨5, 0, .ro, 0x0⟩]⟩,
    ⟨0x20, 0x0, 1, [⟨2, 0, .ro, 0x0⟩]⟩,
    ⟨0x24, 0x0, 1, [⟨5, 0, .ro, 0x1⟩]⟩,
    ⟨0x28, 0x0, 1, [⟨4, 0, .ro, 0x1⟩]⟩,
    ⟨0x2C, 0x0, 1, [⟨31, 31, .ro, 0x0⟩, ⟨15, 0, .ro, 0x2000⟩]⟩,
    ⟨0x30, 0x0, 1, [⟨21, 16, .rw, 0x0⟩, ⟨14, 8, .rw, 0x0⟩, ⟨6, 0, .rw, 0x0⟩]⟩,
    ⟨0x34, 0x0, 1, [⟨31, 16, .rw, 0x2000⟩, ⟨12, 8, .rw, 0x1⟩, ⟨5, 0, .rw, 0x1⟩]⟩,
    ⟨0x38, 0x0, 1, [⟨10, 8, .wo, 0x0⟩, ⟨1, 0, .wo, 0x0⟩]⟩,
    ⟨0x3C, 0x0, 1, [⟨15, 0, .rw, 0x0⟩]⟩,
    ⟨0x40, 0x0, 1, [⟨15, 0, .wo, 0x0⟩]⟩,
    ⟨0x50, 0x0, 1, [⟨31, 0, .rw, 0x0⟩]⟩,
    ⟨0x54, 0x0, 1, [⟨11, 0, .ro, 0x0⟩]⟩,
    ⟨0x58, 0x0, 1, [⟨31, 0, .rw, 0x0⟩]⟩,
    ⟨0x80, 0x4, 8, [⟨31, 0, .rw, 0x0⟩]⟩,
    ⟨0xA0, 0x0, 1, [⟨13, 2, .rw, 0x0⟩]⟩,
    ⟨0xA4, 0x0, 1, [⟨31, 0, .rw, 0x0⟩]⟩,
    ⟨0xC0, 0x0, 1, [⟨3, 0, .rw, 0x0⟩]⟩,
    ⟨0xC4, 0x0, 1, [⟨19, 16, .ro, 0x0⟩, ⟨15, 0, .ro, 0x0⟩]⟩,
    ⟨0xD0, 0x4, 4, [⟨31, 0, .ro, 0x0⟩]⟩ ]

/-- The registers of the EV_ page (15_recording.md). -/
def evRegs : List RegDesc :=
  [ ⟨0x0, 0x0, 1, [⟨31, 31, .rw, 0x1⟩, ⟨30, 30, .rw, 0x1⟩]⟩,
    ⟨0x4, 0x0, 1, [⟨31, 31, .ro, 0x0⟩, ⟨30, 30, .ro, 0x0⟩, ⟨29, 29, .ro, 0x0⟩, ⟨12, 0, .ro, 0x0⟩]⟩,
    ⟨0x8, 0x0, 1, [⟨5, 5, .w1c, 0x0⟩, ⟨4, 4, .w1c, 0x0⟩, ⟨3, 3, .w1c, 0x0⟩, ⟨2, 2, .w1c, 0x0⟩, ⟨1, 1, .w1c, 0x0⟩, ⟨0, 0, .w1c, 0x0⟩]⟩,
    ⟨0x10, 0x0, 1, [⟨31, 0, .ro, 0x0⟩]⟩,
    ⟨0x14, 0x0, 1, [⟨31, 0, .ro, 0x0⟩]⟩,
    ⟨0x18, 0x0, 1, [⟨31, 0, .ro, 0x0⟩]⟩,
    ⟨0x1C, 0x0, 1, [⟨31, 0, .ro, 0x0⟩]⟩,
    ⟨0x20, 0x0, 1, [⟨31, 0, .rw, 0x0⟩]⟩,
    ⟨0x24, 0x0, 1, [⟨31, 31, .ro, 0x0⟩, ⟨30, 30, .ro, 0x0⟩, ⟨29, 29, .ro, 0x0⟩, ⟨28, 28, .ro, 0x0⟩]⟩,
    ⟨0x40, 0x4, 8, [⟨31, 0, .ro, 0x0⟩]⟩,
    ⟨0x60, 0x0, 1, [⟨31, 0, .rw, 0x0⟩]⟩,
    ⟨0x64, 0x0, 1, [⟨31, 0, .rw, 0x0⟩]⟩,
    ⟨0x68, 0x0, 1, [⟨15, 8, .wo, 0x0⟩, ⟨7, 0, .wo, 0x0⟩]⟩,
    ⟨0x80, 0x0, 1, [⟨31, 0, .ro, 0x0⟩]⟩,
    ⟨0x84, 0x0, 1, [⟨31, 0, .ro, 0x0⟩]⟩,
    ⟨0x88, 0x0, 1, [⟨31, 30, .wo, 0x0⟩, ⟨7, 0, .rw, 0x0⟩]⟩,
    ⟨0x8C, 0x0, 1, [⟨31, 0, .rw, 0x0⟩]⟩,
    ⟨0x90, 0x4, 4, [⟨31, 0, .wo, 0x0⟩]⟩,
    ⟨0xA0, 0x0, 1, [⟨31, 16, .rc, 0x0⟩, ⟨15, 0, .rc, 0x0⟩]⟩,
    ⟨0xA4, 0x0, 1, [⟨31, 16, .rc, 0x0⟩, ⟨15, 0, .rc, 0x0⟩]⟩ ]

/-- The registers of the TG_ page (15_recording.md). -/
def tgRegs : List RegDesc :=
  [ ⟨0x0, 0x0, 1, [⟨31, 31, .rw, 0x0⟩]⟩,
    ⟨0x4, 0x0, 1, [⟨15, 0, .ro, 0x0⟩]⟩,
    ⟨0x8, 0x0, 1, [⟨3, 3, .w1c, 0x0⟩, ⟨2, 2, .w1c, 0x0⟩, ⟨1, 1, .w1c, 0x0⟩, ⟨0, 0, .w1c, 0x0⟩]⟩,
    ⟨0xC, 0x0, 1, [⟨15, 0, .wo, 0x0⟩]⟩,
    ⟨0x10, 0x0, 1, [⟨7, 4, .wo, 0x0⟩, ⟨2, 0, .wo, 0x0⟩]⟩,
    ⟨0x100, 0x80, 16, [⟨31, 31, .rw, 0x0⟩, ⟨30, 28, .rw, 0x1⟩, ⟨27, 22, .rw, 0x0⟩, ⟨18, 16, .rw, 0x0⟩, ⟨10, 0, .rw, 0x0⟩]⟩,
    ⟨0x104, 0x80, 16, [⟨12, 0, .rw, 0x0⟩]⟩,
    ⟨0x108, 0x80, 16, [⟨31, 2, .rw, 0x0⟩]⟩,
    ⟨0x10C, 0x80, 16, [⟨7, 0, .rw, 0x0⟩]⟩,
    ⟨0x110, 0x80, 16, [⟨31, 6, .rw, 0x0⟩]⟩,
    ⟨0x114, 0x80, 16, [⟨7, 0, .rw, 0x0⟩]⟩,
    ⟨0x118, 0x80, 16, [⟨19, 0, .rw, 0x0⟩]⟩,
    ⟨0x11C, 0x80, 16, [⟨19, 0, .rw, 0x0⟩]⟩,
    ⟨0x120, 0x80, 16, [⟨31, 29, .rw, 0x0⟩, ⟨28, 27, .rw, 0x0⟩, ⟨26, 26, .rw, 0x0⟩, ⟨15, 0, .rw, 0x0⟩]⟩,
    ⟨0x124, 0x80, 16, [⟨31, 2, .rw, 0x0⟩]⟩,
    ⟨0x128, 0x80, 16, [⟨7, 0, .rw, 0x0⟩]⟩,
    ⟨0x12C, 0x80, 16, [⟨8, 0, .rw, 0x0⟩]⟩,
    ⟨0x130, 0x80, 16, [⟨31, 0, .rw, 0x0⟩]⟩,
    ⟨0x134, 0x80, 16, [⟨31, 0, .rw, 0x0⟩]⟩,
    ⟨0x138, 0x80, 16, [⟨18, 17, .rw, 0x0⟩, ⟨16, 16, .rw, 0x0⟩, ⟨11, 0, .rw, 0x0⟩]⟩,
    ⟨0x13C, 0x80, 16, [⟨31, 0, .rw, 0x0⟩]⟩,
    ⟨0x140, 0x80, 16, [⟨31, 0, .rw, 0x0⟩]⟩,
    ⟨0x144, 0x80, 16, [⟨31, 0, .rw, 0x0⟩]⟩,
    ⟨0x148, 0x80, 16, [⟨31, 0, .rw, 0x0⟩]⟩,
    ⟨0x14C, 0x80, 16, [⟨31, 29, .ro, 0x0⟩, ⟨10, 3, .ro, 0x0⟩, ⟨2, 0, .ro, 0x0⟩]⟩,
    ⟨0x150, 0x80, 16, [⟨31, 24, .rc, 0x0⟩, ⟨23, 16, .rc, 0x0⟩, ⟨15, 8, .rc, 0x0⟩, ⟨7, 0, .rc, 0x0⟩]⟩,
    ⟨0x154, 0x80, 16, [⟨15, 0, .rc, 0x0⟩]⟩,
    ⟨0x158, 0x80, 16, [⟨31, 0, .ro, 0x0⟩]⟩,
    ⟨0x15C, 0x80, 16, []⟩,
    ⟨0x160, 0x80, 16, []⟩,
    ⟨0x164, 0x80, 16, []⟩,
    ⟨0x168, 0x80, 16, []⟩,
    ⟨0x16C, 0x80, 16, []⟩,
    ⟨0x170, 0x80, 16, []⟩,
    ⟨0x174, 0x80, 16, []⟩,
    ⟨0x178, 0x80, 16, []⟩,
    ⟨0x17C, 0x80, 16, []⟩ ]

/-- The registers of the VI_ page, part 0 (16_instances.md). -/
def viRegs0 : List RegDesc :=
  [ ⟨0x0, 0x0, 1, [⟨31, 31, .rw, 0x0⟩]⟩,
    ⟨0x4, 0x0, 1, [⟨31, 31, .ro, 0x0⟩, ⟨30, 30, .ro, 0x0⟩, ⟨29, 29, .ro, 0x0⟩, ⟨28, 28, .ro, 0x0⟩, ⟨23, 20, .ro, 0x0⟩, ⟨15, 0, .ro, 0x0⟩]⟩,
    ⟨0x8, 0x0, 1, [⟨5, 5, .w1c, 0x0⟩, ⟨4, 4, .w1c, 0x0⟩, ⟨3, 3, .w1c, 0x0⟩, ⟨2, 2, .w1c, 0x0⟩, ⟨1, 1, .w1c, 0x0⟩, ⟨0, 0, .w1c, 0x0⟩]⟩,
    ⟨0xC, 0x0, 1, [⟨2, 2, .wo, 0x0⟩, ⟨1, 0, .wo, 0x0⟩]⟩,
    ⟨0x10, 0x0, 1, [⟨16, 0, .rw, 0x0⟩]⟩,
    ⟨0x14, 0x0, 1, [⟨16, 0, .ro, 0x0⟩]⟩,
    ⟨0x18, 0x0, 1, [⟨31, 0, .ro, 0x0⟩]⟩,
    ⟨0x1C, 0x0, 1, [⟨17, 0, .ro, 0x0⟩]⟩,
    ⟨0x20, 0x0, 1, [⟨31, 16, .ro, 0x0⟩, ⟨15, 0, .ro, 0x0⟩]⟩,
    ⟨0x24, 0x0, 1, [⟨31, 0, .ro, 0x0⟩]⟩,
    ⟨0x28, 0x0, 1, [⟨31, 16, .ro, 0x0⟩, ⟨15, 0, .ro, 0x0⟩]⟩,
    ⟨0x30, 0x0, 1, [⟨31, 16, .rc, 0x0⟩, ⟨15, 8, .rc, 0x0⟩, ⟨7, 0, .rc, 0x0⟩]⟩,
    ⟨0x34, 0x0, 1, [⟨31, 16, .rc, 0x0⟩, ⟨15, 0, .rc, 0x0⟩]⟩,
    ⟨0x38, 0x0, 1, [⟨31, 16, .rc, 0x0⟩, ⟨15, 0, .rc, 0x0⟩]⟩,
    ⟨0x3C, 0x0, 1, [⟨31, 24, .rc, 0x0⟩, ⟨23, 16, .rc, 0x0⟩, ⟨15, 8, .rc, 0x0⟩, ⟨7, 0, .rc, 0x0⟩]⟩,
    ⟨0x40, 0x0, 1, [⟨31, 16, .rc, 0x0⟩, ⟨15, 8, .rc, 0x0⟩, ⟨7, 0, .rc, 0x0⟩]⟩,
    ⟨0x100, 0x0, 1, [⟨9, 8, .wo, 0x0⟩, ⟨1, 0, .wo, 0x0⟩]⟩,
    ⟨0x104, 0x0, 1, [⟨9, 8, .wo, 0x0⟩, ⟨1, 0, .wo, 0x0⟩]⟩,
    ⟨0x108, 0x0, 1, [⟨9, 9, .ro, 0x0⟩, ⟨8, 8, .ro, 0x0⟩, ⟨3, 2, .ro, 0x0⟩, ⟨1, 0, .ro, 0x0⟩]⟩,
    ⟨0x400, 0x4, 128, [⟨31, 0, .rw, 0x0⟩]⟩,
    ⟨0x600, 0x4, 128, [⟨31, 0, .rw, 0x0⟩]⟩,
    ⟨0x800, 0x0, 1, [⟨31, 12, .rw, 0x0⟩]⟩,
    ⟨0x804, 0x0, 1, [⟨7, 0, .rw, 0x0⟩]⟩,
    ⟨0x808, 0x0, 1, [⟨12, 0, .rw, 0x0⟩]⟩,
    ⟨0x80C, 0x0, 1, [⟨11, 0, .ro, 0x0⟩]⟩,
    ⟨0x810, 0x0, 1, [⟨31, 12, .rw, 0x0⟩]⟩,
    ⟨0x814, 0x0, 1, [⟨7, 0, .rw, 0x0⟩]⟩,
    ⟨0x818, 0x0, 1, [⟨12, 0, .rw, 0x0⟩]⟩,
    ⟨0x81C, 0x0, 1, [⟨11, 0, .ro, 0x0⟩]⟩,
    ⟨0x820, 0x0, 1, [⟨31, 16, .rc, 0x0⟩, ⟨15, 0, .rc, 0x0⟩]⟩,
    ⟨0x824, 0x0, 1, []⟩,
    ⟨0x828, 0x0, 1, []⟩,
    ⟨0x82C, 0x0, 1, []⟩,
    ⟨0x830, 0x0, 1, []⟩,
    ⟨0x834, 0x0, 1, []⟩,
    ⟨0x838, 0x0, 1, []⟩,
    ⟨0x83C, 0x0, 1, []⟩,
    ⟨0x900, 0x0, 1, [⟨31, 31, .wo, 0x0⟩, ⟨11, 0, .rw, 0x0⟩]⟩,
    ⟨0x904, 0x0, 1, [⟨3, 0, .ro, 0x0⟩]⟩,
    ⟨0xA00, 0x4, 256, [⟨31, 0, .rw, 0x0⟩]⟩ ]

/-- The registers of the VI_ page, part 1 (16_instances.md). -/
def viRegs1 : List RegDesc :=
  [ ⟨0x1000, 0x10, 16, [⟨31, 12, .rw, 0x0⟩]⟩,
    ⟨0x1004, 0x10, 16, [⟨31, 31, .rw, 0x0⟩, ⟨30, 30, .rw, 0x0⟩, ⟨7, 0, .rw, 0x0⟩]⟩,
    ⟨0x1008, 0x10, 16, [⟨29, 12, .rw, 0x0⟩]⟩,
    ⟨0x100C, 0x10, 16, [⟨18, 0, .rw, 0x0⟩]⟩,
    ⟨0x1100, 0x10, 4, [⟨31, 31, .rw, 0x0⟩, ⟨30, 26, .rw, 0x0⟩, ⟨25, 19, .rw, 0x1⟩, ⟨15, 0, .rw, 0x0⟩]⟩,
    ⟨0x1104, 0x10, 4, [⟨27, 18, .rw, 0x0⟩, ⟨17, 0, .rw, 0x0⟩]⟩,
    ⟨0x1108, 0x10, 4, [⟨31, 6, .rw, 0x0⟩]⟩,
    ⟨0x110C, 0x10, 4, [⟨7, 0, .rw, 0x0⟩]⟩ ]

/-- The registers of the OW_ page (16_instances.md). -/
def owRegs : List RegDesc :=
  [ ⟨0x0, 0x0, 1, [⟨31, 30, .ro, 0x0⟩, ⟨27, 24, .ro, 0xF⟩, ⟨23, 16, .ro, 0x0⟩, ⟨15, 12, .ro, 0x0⟩, ⟨3, 0, .ro, 0xF⟩]⟩,
    ⟨0x4, 0x0, 1, [⟨0, 0, .wo, 0x0⟩]⟩,
    ⟨0x8, 0x0, 1, [⟨0, 0, .wo, 0x0⟩]⟩,
    ⟨0xC, 0x0, 1, [⟨3, 0, .wo, 0x0⟩]⟩,
    ⟨0x10, 0x0, 1, [⟨0, 0, .wo, 0x0⟩]⟩,
    ⟨0x14, 0x0, 1, [⟨31, 31, .wo, 0x0⟩, ⟨15, 0, .rw, 0x0⟩]⟩,
    ⟨0x18, 0x0, 1, [⟨15, 0, .rw, 0x3E8⟩]⟩,
    ⟨0x1C, 0x0, 1, [⟨6, 2, .rw, 0x0⟩]⟩,
    ⟨0x20, 0x4, 4, [⟨3, 0, .rw, 0xF⟩]⟩,
    ⟨0x30, 0x0, 1, [⟨0, 0, .wo, 0x0⟩]⟩,
    ⟨0x34, 0x0, 1, [⟨4, 4, .w1c, 0x0⟩, ⟨3, 3, .w1c, 0x0⟩, ⟨2, 2, .w1c, 0x0⟩, ⟨1, 1, .w1c, 0x0⟩, ⟨0, 0, .w1c, 0x0⟩]⟩,
    ⟨0x38, 0x0, 1, [⟨31, 16, .rc, 0x0⟩, ⟨15, 0, .rc, 0x0⟩]⟩ ]

/-- The registers of the KS_ page (17_keys.md). -/
def ksRegs : List RegDesc :=
  [ ⟨0x0, 0x0, 1, [⟨31, 28, .ro, 0x0⟩, ⟨27, 24, .ro, 0x0⟩, ⟨23, 23, .ro, 0x0⟩, ⟨22, 22, .ro, 0x0⟩, ⟨21, 20, .ro, 0x0⟩, ⟨19, 18, .ro, 0x0⟩, ⟨11, 8, .ro, 0x0⟩, ⟨7, 0, .ro, 0x0⟩]⟩,
    ⟨0x4, 0x0, 1, [⟨5, 5, .w1c, 0x0⟩, ⟨4, 4, .w1c, 0x0⟩, ⟨3, 3, .w1c, 0x0⟩, ⟨2, 2, .w1c, 0x0⟩, ⟨1, 1, .w1c, 0x0⟩, ⟨0, 0, .w1c, 0x0⟩]⟩,
    ⟨0x8, 0x0, 1, [⟨31, 28, .wo, 0x0⟩, ⟨27, 27, .wo, 0x0⟩, ⟨15, 8, .rw, 0x0⟩, ⟨7, 0, .rw, 0x0⟩]⟩,
    ⟨0xC, 0x0, 1, [⟨31, 16, .wo, 0x0⟩, ⟨3, 0, .wo, 0x0⟩]⟩,
    ⟨0x10, 0x0, 1, [⟨31, 4, .rw, 0x0⟩]⟩,
    ⟨0x14, 0x0, 1, [⟨7, 0, .rw, 0x0⟩]⟩,
    ⟨0x18, 0x0, 1, [⟨31, 16, .rc, 0x0⟩, ⟨15, 8, .rc, 0x0⟩, ⟨7, 0, .rc, 0x0⟩]⟩,
    ⟨0x40, 0x4, 16, [⟨31, 0, .rw, 0x0⟩]⟩,
    ⟨0x80, 0x4, 12, [⟨31, 0, .ro, 0x0⟩]⟩,
    ⟨0xC0, 0x4, 12, [⟨31, 0, .ro, 0x0⟩]⟩ ]

/-- The registers of the PM_ page (18_start_to_service.md). -/
def pmRegs : List RegDesc :=
  [ ⟨0x0, 0x0, 1, [⟨31, 16, .ro, 0x0⟩, ⟨15, 8, .ro, 0x0⟩, ⟨7, 7, .ro, 0x0⟩, ⟨6, 6, .ro, 0x0⟩, ⟨2, 2, .ro, 0x0⟩, ⟨1, 1, .ro, 0x0⟩, ⟨0, 0, .ro, 0x0⟩]⟩,
    ⟨0x4, 0x0, 1, [⟨1, 0, .ro, 0x0⟩, ⟨3, 2, .ro, 0x0⟩, ⟨5, 4, .ro, 0x0⟩, ⟨7, 6, .ro, 0x0⟩, ⟨9, 8, .ro, 0x0⟩, ⟨11, 10, .ro, 0x0⟩, ⟨13, 12, .ro, 0x0⟩, ⟨15, 14, .ro, 0x0⟩, ⟨17, 16, .ro, 0x0⟩, ⟨19, 18, .ro, 0x0⟩, ⟨21, 20, .ro, 0x0⟩, ⟨23, 22, .ro, 0x0⟩, ⟨25, 24, .ro, 0x0⟩, ⟨27, 26, .ro, 0x0⟩, ⟨29, 28, .ro, 0x0⟩, ⟨31, 30, .ro, 0x0⟩]⟩,
    ⟨0x8, 0x0, 1, [⟨15, 0, .ro, 0xC003⟩]⟩,
    ⟨0xC, 0x0, 1, [⟨31, 0, .ro, 0x0⟩]⟩,
    ⟨0x10, 0x0, 1, [⟨31, 28, .wo, 0x0⟩, ⟨3, 0, .wo, 0x0⟩]⟩,
    ⟨0x14, 0x0, 1, [⟨31, 31, .wo, 0x0⟩, ⟨30, 30, .rw, 0x0⟩, ⟨15, 0, .rw, 0x0⟩]⟩,
    ⟨0x18, 0x0, 1, [⟨31, 31, .ro, 0x0⟩]⟩,
    ⟨0x1C, 0x0, 1, [⟨3, 3, .w1c, 0x0⟩, ⟨2, 2, .w1c, 0x0⟩, ⟨1, 1, .w1c, 0x0⟩, ⟨0, 0, .w1c, 0x0⟩]⟩,
    ⟨0x20, 0x0, 1, [⟨31, 30, .ro, 0x0⟩, ⟨29, 27, .ro, 0x0⟩]⟩ ]

/-- The registers of the BT_ page (18_start_to_service.md). -/
def btRegs : List RegDesc :=
  [ ⟨0x0, 0x0, 1, [⟨31, 28, .ro, 0x0⟩, ⟨27, 26, .ro, 0x0⟩, ⟨25, 24, .ro, 0x0⟩, ⟨23, 16, .ro, 0x0⟩]⟩,
    ⟨0x4, 0x0, 1, [⟨31, 0, .rw, 0x0⟩]⟩,
    ⟨0x8, 0x0, 1, [⟨1, 0, .wo, 0x0⟩]⟩,
    ⟨0xC, 0x0, 1, [⟨31, 24, .ro, 0x0⟩, ⟨23, 16, .ro, 0x0⟩]⟩,
    ⟨0x10, 0x0, 1, [⟨31, 0, .ro, 0x0⟩]⟩,
    ⟨0x14, 0x0, 1, [⟨31, 31, .wo, 0x0⟩, ⟨9, 0, .ro, 0x0⟩]⟩,
    ⟨0x18, 0x0, 1, [⟨3, 3, .w1c, 0x0⟩, ⟨2, 2, .w1c, 0x0⟩, ⟨1, 1, .w1c, 0x0⟩, ⟨0, 0, .w1c, 0x0⟩]⟩,
    ⟨0x1C, 0x0, 1, [⟨31, 16, .rc, 0x0⟩, ⟨15, 0, .rc, 0x0⟩]⟩ ]

/-- The registers of the PR_ page (19_redundant_pair.md). -/
def prRegs : List RegDesc :=
  [ ⟨0x0, 0x0, 1, [⟨31, 31, .rw, 0x0⟩, ⟨30, 30, .rw, 0x1⟩, ⟨29, 29, .rw, 0x0⟩]⟩,
    ⟨0x4, 0x0, 1, [⟨31, 29, .ro, 0x0⟩, ⟨28, 28, .ro, 0x0⟩, ⟨27, 27, .ro, 0x0⟩, ⟨26, 26, .ro, 0x0⟩, ⟨25, 25, .ro, 0x0⟩, ⟨24, 24, .ro, 0x0⟩, ⟨23, 23, .ro, 0x0⟩, ⟨22, 22, .ro, 0x0⟩, ⟨21, 21, .ro, 0x0⟩, ⟨15, 8, .ro, 0x0⟩, ⟨7, 0, .ro, 0x0⟩]⟩,
    ⟨0x8, 0x0, 1, [⟨9, 9, .w1c, 0x0⟩, ⟨8, 8, .w1c, 0x0⟩, ⟨7, 7, .w1c, 0x0⟩, ⟨6, 6, .w1c, 0x0⟩, ⟨5, 5, .w1c, 0x0⟩, ⟨4, 4, .w1c, 0x0⟩, ⟨3, 3, .w1c, 0x0⟩, ⟨2, 2, .w1c, 0x0⟩, ⟨1, 1, .w1c, 0x0⟩, ⟨0, 0, .w1c, 0x0⟩]⟩,
    ⟨0xC, 0x0, 1, [⟨11, 0, .rw, 0x3C⟩]⟩,
    ⟨0x10, 0x0, 1, [⟨31, 0, .ro, 0x0⟩]⟩,
    ⟨0x14, 0x0, 1, [⟨15, 0, .rw, 0x40⟩]⟩,
    ⟨0x18, 0x0, 1, [⟨31, 4, .rw, 0x0⟩]⟩,
    ⟨0x1C, 0x0, 1, [⟨7, 0, .rw, 0x0⟩]⟩,
    ⟨0x20, 0x0, 1, [⟨15, 0, .rw, 0x0⟩]⟩,
    ⟨0x30, 0x0, 1, [⟨31, 16, .rc, 0x0⟩, ⟨15, 0, .rc, 0x0⟩]⟩,
    ⟨0x34, 0x0, 1, [⟨31, 16, .rc, 0x0⟩, ⟨15, 0, .rc, 0x0⟩]⟩,
    ⟨0x38, 0x0, 1, [⟨31, 16, .rc, 0x0⟩, ⟨15, 0, .rc, 0x0⟩]⟩,
    ⟨0x3C, 0x0, 1, [⟨31, 16, .rc, 0x0⟩, ⟨15, 0, .rc, 0x0⟩]⟩,
    ⟨0x40, 0x0, 1, [⟨31, 16, .rc, 0x0⟩, ⟨15, 0, .rc, 0x0⟩]⟩,
    ⟨0x44, 0x0, 1, [⟨31, 16, .rc, 0x0⟩, ⟨15, 0, .rc, 0x0⟩]⟩ ]

/-- The registers of the IC_ page (20_events_errors.md). -/
def icRegs : List RegDesc :=
  [ ⟨0x0, 0x0, 1, [⟨31, 31, .rw, 0x1⟩]⟩,
    ⟨0x4, 0x0, 1, [⟨31, 31, .ro, 0x0⟩, ⟨7, 0, .ro, 0x0⟩]⟩,
    ⟨0x8, 0x0, 1, [⟨3, 0, .wo, 0x0⟩]⟩,
    ⟨0xC, 0x0, 1, [⟨31, 31, .wo, 0x0⟩, ⟨4, 0, .wo, 0x0⟩]⟩,
    ⟨0x10, 0x4, 8, [⟨31, 0, .w1c, 0x0⟩]⟩,
    ⟨0x30, 0x4, 8, [⟨31, 0, .rw, 0x0⟩]⟩,
    ⟨0x50, 0x4, 4, [⟨8, 0, .ro, 0x1FF⟩]⟩,
    ⟨0x60, 0x0, 1, [⟨31, 0, .ro, 0x0⟩]⟩,
    ⟨0x64, 0x0, 1, [⟨7, 0, .ro, 0x0⟩]⟩,
    ⟨0x68, 0x0, 1, [⟨31, 31, .w1c, 0x0⟩, ⟨30, 30, .ro, 0x0⟩, ⟨23, 20, .ro, 0xF⟩, ⟨19, 16, .ro, 0x0⟩, ⟨15, 0, .ro, 0x0⟩]⟩,
    ⟨0x70, 0x0, 1, [⟨31, 31, .w1c, 0x0⟩, ⟨27, 24, .ro, 0x0⟩, ⟨12, 8, .ro, 0x0⟩, ⟨7, 0, .ro, 0x0⟩]⟩,
    ⟨0x74, 0x0, 1, [⟨31, 0, .ro, 0x0⟩]⟩,
    ⟨0x78, 0x0, 1, [⟨7, 0, .ro, 0x0⟩]⟩,
    ⟨0x7C, 0x0, 1, [⟨31, 0, .ro, 0x0⟩]⟩,
    ⟨0x80, 0x0, 1, [⟨31, 16, .rc, 0x0⟩, ⟨15, 0, .rc, 0x0⟩]⟩,
    ⟨0x84, 0x0, 1, [⟨31, 16, .rc, 0x0⟩, ⟨15, 0, .rc, 0x0⟩]⟩,
    ⟨0x88, 0x0, 1, []⟩,
    ⟨0x90, 0x4, 6, [⟨31, 16, .rc, 0x0⟩, ⟨15, 0, .rc, 0x0⟩]⟩,
    ⟨0x100, 0x4, 256, [⟨31, 31, .rw, 0x0⟩, ⟨29, 24, .rw, 0x0⟩, ⟨3, 0, .rw, 0x1⟩]⟩,
    ⟨0x800, 0x4, 16, [⟨31, 0, .w1c, 0x0⟩]⟩,
    ⟨0x840, 0x4, 16, [⟨31, 0, .w1c, 0x0⟩]⟩,
    ⟨0x1000, 0x4, 256, [⟨31, 0, .rw, 0x0⟩]⟩,
    ⟨0x1800, 0x4, 2, [⟨31, 0, .ro, 0x0⟩]⟩ ]

/-- The registers of a block's page. -/
def blockRegs : Block → List RegDesc
  | .pm => pmRegs
  | .bt => btRegs
  | .ow => owRegs
  | .ic => icRegs
  | .hc => hcRegs0 ++ hcRegs1
  | .cl => clRegs
  | .ks => ksRegs
  | .pt => ptRegs0 ++ ptRegs1
  | .hl => hlRegs
  | .sb => sbRegs
  | .al => alRegs
  | .pb => pbRegs
  | .ds => dsRegs
  | .lg => lgRegs
  | .aq => aqRegs
  | .du => duRegs
  | .ev => evRegs
  | .tg => tgRegs
  | .pr => prRegs
  | .vi => viRegs0 ++ viRegs1

end Sys2Proof.Machine
end

