-- ==== Sys2Proof/Machine/State.lean ====
section
/-!
DEFINITION. The state of the module as plain data: the waiting commands, the register file, the memories and, block by
block, what the spec gives the machine beside its registers. Every structure's default values are its state at reset.

Units: an instant of a time base is a natural number of 2⁻⁴⁰ ns (the accumulator of R40, hidden bits included); a stamp is a
natural number of 2⁻¹⁶ ns (R55); a cycle is a CK_M cycle count.
-/
namespace Sys2Proof.Machine

/-- The machine stops with a fault. No command of this block does: the spec gives every error an effect on state (R485,
R489, R490). The one constructor keeps the type inhabited and is raised by nobody; safe. -/
inductive Fault where
  /-- Raised by no command. Safe. -/
  | never
deriving DecidableEq, Repr

/-- No meaning for the command. -/
inductive Refusal where
  /-- Raised by the dispatcher for a row that has no meaning yet. Safe: the machine stops. -/
  | notModelled (mnemonic : String)
deriving DecidableEq, Repr

/-- What an access returned (R10, R34): data, or Unsupported Request through the host port. -/
structure Completion where
  req : Requester
  addr : Nat
  data : Nat
  unsupported : Bool
  /-- Data of a word lost to an uncorrectable error: poisoned, or a bus error to a core (R489). -/
  bad : Bool := false
deriving DecidableEq, Repr

/-! ### House clock (02_house_clock.md) -/

/-- A staged commit waiting for its instant (R49, R50). -/
structure Commit where
  rel : Bool
  /-- Staged value (ABS) or signed offset (REL), in 2⁻⁴⁰ ns. -/
  staged : Int
  instant : Nat
deriving DecidableEq, Repr

/-- One time base (R39, R40, R42). -/
structure TimeBase where
  /-- Value at the start of the current cycle. -/
  val : Nat := 0
  /-- Slew in progress: the amount still to be applied, 2⁻⁴⁰ ns, signed (R42). -/
  slew : Option Int := none
  /-- A slew amount written in this cycle, in force from the next; zero cancels (R42). -/
  slewNew : Option Int := none
  /-- The last contribution of a slew of non-zero amount has been added; SLEW_DONE is due (R42). -/
  slewEnded : Bool := false
  commit : Option Commit := none
  /-- Value that an applied commit gives the start of the next cycle (R50). -/
  stepTo : Option Nat := none
  /-- Last second whose start the base reached by counting, not by a step (R66). -/
  secReached : Option Nat := none
  /-- What the base has done so far, newest first: a cycle, the value at its start and the increment of each cycle from it on (R65). -/
  trace : List (Nat × Nat × Nat) := []
deriving DecidableEq, Repr

/-- A snapshot of a base for one requester (R48). -/
structure Snapshot where
  val : Nat := 0
  cyc : Nat := 0
deriving DecidableEq, Repr

/-- The house clock beside its registers. -/
structure Clk where
  /-- PLL_M is locked and the bases run (R43). -/
  running : Bool := false
  tb : List (Nat × TimeBase) := []
  /-- Snapshots by base × 8 + requester (R48). -/
  snaps : List (Nat × Snapshot) := []
  /-- PPS (key requester) and IRIG (key 8 + requester) groups as latched (R67). -/
  groups : List (Nat × List Nat) := []
  /-- House-clock time that has passed since the bases began to run: what the governing base of each cycle has counted, its
  steps left out (R6; log entry 92). Durations in ns, µs, ms and s are measured on it. -/
  lapse : Nat := 0
  /-- `lapse` at the last write to TB_0's RATE, slew or command register, or of HC_HOLD_WD (R47). -/
  wdFrom : Nat := 0
  /-- Sum of RATE as applied and number of cycles in TB_0's second so far; none before the first change of second (R47). -/
  secOpen : Option (Int × Nat) := none
  /-- A completed second not yet taken into AVG (R47). -/
  secDone : Option (Int × Nat) := none
  /-- Sums and cycle counts of the completed seconds, newest first, at most 64 (R47). -/
  means : List (Int × Nat) := []
  /-- TB_0's seconds field changed and TB0_SECOND_START is due. -/
  secChange : Bool := false
  /-- TAI second that is 23:59:60 UTC under LEAP61 (R54). -/
  leap61 : Option Nat := none
  /-- Grid tick number of the next tick to raise (R22, R52, R53). -/
  nextTick : Nat := 0
  /-- Grid tick number, tick-start cycle and lateness of the last tick raised; none before the first (R22). -/
  lastTick : Option (Nat × Nat × Nat) := none
  /-- Grid tick number of the tick raised before it. -/
  prevTick : Option Nat := none
  /-- Grid ticks skipped by forward steps, oldest step first: from the first up to below the second (R52). -/
  skipped : List (Nat × Nat) := []
  /-- Values before and after each forward step of the governing value since the last backward one, newest first (R52, R234). -/
  stepSpan : List (Nat × Nat) := []
  /-- Tick-start events raised since start. -/
  raised : Nat := 0
  ppsOut : Bool := false
  /-- `lapse` at which PPS_OUT falls (R66). -/
  ppsFall : Nat := 0
  /-- Seconds marked by PPS_OUT, newest first, as base and second (R66). -/
  ppsMarked : List (Nat × Nat) := []
  /-- Cycles in which HC_IRIG_CTRL.TB was written and the base that it named before, newest first (R65). -/
  irigTb : List (Nat × Nat) := []
deriving DecidableEq, Repr

/-! ### Event controller (20_events_errors.md) and record requests -/

/-- A record request on its way to the entry queue (R354). -/
structure RecReq where
  src : Nat
  code : Nat
  data : Nat
  /-- Stamp supplied with the request: seconds and nanoseconds of TB_0 (R351). -/
  stamp : Option (Nat × Nat)
  /-- Cycle of the request (R354 orders requests of one cycle by SRC). -/
  cyc : Nat
deriving DecidableEq, Repr

/-- The event controller beside its registers. -/
structure Ic where
  /-- PF0 MSI-X vectors due and not yet sent (R487). -/
  due : List Nat := []
  /-- Sources raised, or made deliverable, in this cycle: their messages are due from the next (R487). -/
  raised : List Nat := []
  /-- Cause of a fault detected in this cycle that stops service in the next (R490). -/
  stop : Option Nat := none
  /-- Lane SRAM and DRAM words that stay uncorrectable until rewritten (R489), as addresses of the module map. -/
  badWords : List Nat := []
  /-- Raised-tick numbers of ECC lane faults by cluster (R489). -/
  laneEcc : List (Nat × List Nat) := []
  /-- Crypto engines and build pipelines removed from service (R489). -/
  deadEngines : Nat := 0
  deadPipes : List Nat := []
  /-- Number of MSI-X messages that PF0 has sent and the vector of the last (R487). -/
  sent : Nat := 0
  lastVec : Nat := 0
  /-- Matching-store slots lost to an uncorrectable error (R489). -/
  badSlots : List Nat := []
deriving DecidableEq, Repr

/-! ### Ports (03_ports.md) -/

/-- A frame sent at the pads (R74): its octets from the destination address, FCS included, the egress release cycle and the
egress stamp. -/
structure TxFrame where
  /-- Frame number in the Hall. -/
  fid : Nat
  octets : List Byte
  cyc : Nat
  stamp : Nat
  cls : Nat
  tail : Bool
deriving DecidableEq, Repr

/-- A frame whose last octet has not yet reached the pads (R93): the cycles of its first bit and of its end, its length, whether it was
found good, its number in the Hall and that of its DISCOVER copy, and what it brought about. -/
structure RxOpen where
  cyc0 : Nat
  till : Nat
  len : Nat
  good : Bool
  fid : Option Nat := none
  copy : Option Nat := none
  /-- Places, in the list of the port's read-clear counters, of those that took its count: one held at all ones takes none (R12). -/
  took : List Nat := []
  /-- Cycles by which its continuation fragments have arrived, and how many of them FRAG_RX took. -/
  frags : List Nat := []
  fragTook : Nat := 0
  /-- Release cycle of its last byte as a PAUSE frame (R90). -/
  pause : Option Nat := none
  /-- Set PT_EVENT.WAKE where it was clear, and began the wake of these domains (R88). -/
  wakeFlag : Bool := false
  woke : List Nat := []
deriving DecidableEq, Repr

/-- One external port beside its registers. -/
structure Port where
  /-- `lapse` at the return to UP from DORMANT, until a frame stamped later has been accepted (R89). -/
  retAt : Option Nat := none
  /-- `lapse` from which PCS_LOCK and, where used, AN_DONE have both held (R70, R92). -/
  upFrom : Option Nat := none
  /-- The PHY has reported 10 or 100 Mb/s over SGMII (R70). -/
  slow : Bool := false
  /-- Frames in reception (R93). -/
  rxOpen : List RxOpen := []
  /-- A wake from DORMANT is due by this instant (R89). -/
  wakeBy : Option Nat := none
  /-- PAUSE frames whose last byte is not yet released: release cycle and quanta (R90). -/
  pauseReqs : List (Nat × Nat) := []
  /-- Start and end of the pause in force, on `lapse` (R90, R91). -/
  pauseFrom : Nat := 0
  pauseTo : Nat := 0
  /-- The pause in force has been renewed by a further PAUSE frame (R91). -/
  pauseRenewed : Bool := false
  /-- Cycle up to which the MAC is busy with the frame in transmission, that frame and whether it is preemptable. -/
  macBusy : Nat := 0
  txFrame : Option Nat := none
  txPreemptable : Bool := false
  txCopy : Nat × Nat := (0, 0)
  /-- Length of that frame with its FCS, cycle at which its fragment in progress begins, and its octets sent in earlier fragments
  (R81). -/
  txLen : Nat := 0
  fragAt : Nat := 0
  fragDone : Nat := 0
  /-- Cycle up to which an express frame that preempted it occupies the MAC (R84). -/
  expBusy : Nat := 0
  expFrame : Option Nat := none
  /-- Cut-through copies granted release: frame and cycle (R114, R115). -/
  grants : List (Nat × Nat) := []
  /-- First cycle in which egress releases were possible since they were last held while a frame was in transmission (R74, R90). -/
  openFrom : Nat := 0
  /-- Release cycle of the first respond mPacket received while VERIFYING (R82). -/
  respAt : Option Nat := none
  /-- Verify mPackets sent in the current handshake and `lapse` at the last (R82). -/
  verifySent : Nat := 0
  verifyAt : Nat := 0
  /-- Respond mPackets sent in answer to the partner (R82). -/
  responds : Nat := 0
  /-- Last Pdelay_Req received: sequenceId and ingress stamp in TB_0 (R62). -/
  pdelay : Option (Nat × Nat) := none
  /-- End of the grace timer on `lapse` while it runs (R126). -/
  graceTo : Option Nat := none
  /-- The grace timer ends in this cycle, and it has ended with the port still DOWN (R127). -/
  graceEnd : Bool := false
  graceOver : Bool := false
  /-- Frames sent, newest first (the last 8 are kept). -/
  sent : List TxFrame := []
deriving DecidableEq, Repr

/-- A frame part-way into its receive ring (R97, R104): its number and class, the ring, the descriptor filled last whose control
word is not yet written with the octets it took, whether that is the first one, what remains, and the frame's number in the ring. -/
structure RxPart where
  fid : Nat
  cls : Nat
  ring : Nat
  desc : Nat
  len : Nat
  sop : Bool
  rest : List Byte
  seq : Nat
deriving DecidableEq, Repr

/-- A tenant ring frame that has been fetched and waits to enter the Hall (R387): octets without FCS, class, the addresses of its
descriptors, the generation it carries, and whether its waits have been counted (R390, R392). -/
structure WaitFrame where
  octets : List Byte
  cls : Nat
  descs : List Nat
  gen : Nat
  tbWaited : Bool
  shareWaited : Bool
  /-- Number of raised ticks when it failed the bucket or the gate. -/
  tick : Nat
deriving DecidableEq, Repr

/-- The ports together. A ring's base, size and position are in its registers. -/
structure Ports where
  port : List (Nat × Port) := []
  /-- HI halves latched by a read of the LO half: key requester × 64 + port × 2 + tx (R101). -/
  octLatch : List (Nat × Nat) := []
  /-- Next receive frame number by ring (steward 0–3, tenant 4 + v) (R95). -/
  rxSeq : List (Nat × Nat) := []
  /-- The frame that RING_RX_DELIVER is part-way through (R97, R104). -/
  rxPart : Option RxPart := none
  /-- Tenant ring frame waiting to enter the Hall, by VI (R390, R392, R275). -/
  waiting : List (Nat × WaitFrame) := []
deriving DecidableEq, Repr

/-! ### Hall and Larder (04_hall_and_larder.md) -/

/-- A frame in the Hall with its metadata (R106). -/
structure Frame where
  /-- Octets from the destination address, without the FCS. -/
  octets : List Byte
  /-- Length of R76, FCS included. -/
  len : Nat
  /-- Ingress stamp in the base that governed then, that base, and the stamp in TB_0 for a PTP event message (R44, R55). -/
  stamp : Nat
  base : Nat := 0
  stamp0 : Nat
  ingress : Nat
  /-- 0: good; 1: oversize (R77); 2: bad FCS (R79); 3: link lost in reception (R93). -/
  bad : Nat := 0
  /-- Octets received when the link dropped (R93). -/
  got : Nat := 0
  fragmented : Bool := false
  /-- Release cycle of the first byte, lookup done and Larder-complete cycles (R283–R285). -/
  c0 : Nat := 0
  l : Nat := 0
  e : Nat := 0
  looked : Bool := false
  complete : Bool := false
  /-- Matched classification entry, and its version and contents at the lookup (R140). -/
  entry : Option Nat := none
  entryVer : Nat := 0
  rule : List Byte := []
  cls : Nat := 0
  vlan : Nat := 0
  /-- Instance whose generation the frame carries (R125). -/
  vi : Option Nat := none
  gen : Nat := 0
  /-- Cells reserved, later held (R107). -/
  cells : Nat := 0
  /-- Copies still queued or granted: port and class. -/
  copies : List (Nat × Nat) := []
  /-- Ports to which the frame's bytes are already being cut through. -/
  cut : List Nat := []
  /-- Valid PRP trailer found on a PRP pair (R130). -/
  prp : Bool := false
  /-- Receive ring of the I2 copy: steward ring 0–3, or 4 + VI (R94, R109). -/
  ring : Nat := 0
  /-- Wake pattern of a DISCOVER copy (R88). -/
  pattern : Option Nat := none
  /-- Direct DEST of a transmit descriptor and the descriptor that wants the egress stamp (R99). -/
  direct : Option Nat := none
  tsDesc : Option Nat := none
  /-- Verification end, and acceptance cycle once fixed (R286). -/
  accept : Option Nat := none
  /-- Cause of a failed verification (R149), 0 for none, found when verification took the frame. -/
  cause : Nat := 0
  /-- The frame meets an unknown-stream observation at its end (R156). -/
  unknown : Bool := false
  /-- Sequence numbers given on the redundancy pairs it leaves on (R131). -/
  redSeq : List (Nat × Nat) := []
deriving DecidableEq, Repr

/-- Copies of a classified frame that are decided in the cycle after its lookup (R118): their ports, those granted cut-through
(R114), class and reservation. -/
structure Admit where
  fid : Nat
  ingress : Nat
  due : Nat
  ports : List Nat
  cuts : List Nat
  cls : Nat
  cells : Nat
deriving DecidableEq, Repr

/-- The Hall beside its registers. -/
structure Hall where
  frames : List (Nat × Frame) := []
  nextId : Nat := 0
  /-- Frame numbers by queue n × 8 + c in order of admission (R118, R123). -/
  queues : List (Nat × List Nat) := []
  /-- Duplicate table: source address and pair to the sequence numbers seen, each with `lapse` then (R130). -/
  dups : List ((Nat × Nat) × List (Nat × Nat)) := []
  /-- Copies waiting for their admission (R118). -/
  admits : List Admit := []
  /-- `lapse` at the last scrub (R124). -/
  lastScrub : Nat := 0
deriving DecidableEq, Repr

/-! ### Subscription (05_subscription.md) -/

/-- A classification entry and its subscription state (R137, R109, R153). -/
structure SubEntry where
  bytes : List Byte
  /-- Contents before the last write and the cycle of that write: a lookup that ends in the write's cycle uses them (R140). -/
  prev : List Byte := []
  wrote : Option Nat := none
  /-- Live limit of a GOOSE subscription (R147), stamp units. -/
  live : Option Nat := none
  /-- Consecutive missing ticks of an SV entry (R153). -/
  missing : Nat := 0
  /-- Whether confRev and smpSynch have been seen since the WRITE (R154). -/
  seenRev : Bool := false
  seenSync : Bool := false
  /-- An authentication failure has been recorded since the last accepted frame or WRITE (R155). -/
  authFailed : Bool := false
  /-- smpCnt that follows the last accepted ASDU (R154). -/
  nextSmp : Nat := 0
deriving DecidableEq, Repr

/-- A discovery record (R155). -/
structure DiscRec where
  w0 : Nat
  w1 : Nat
  w2 : Nat
  w3 : Nat
deriving DecidableEq, Repr

/-- Subscription beside its registers. -/
structure Sub where
  entries : List (Nat × SubEntry) := []
  /-- Number of WRITEs and INVALIDATEs of each entry index, also while it is empty (R140). -/
  vers : List (Nat × Nat) := []
  /-- Member map, 8 bytes an entry (R145). -/
  map : List (Nat × List Byte) := []
  /-- Vestibule entries in use, 64 bytes, with the last stamp (R156). -/
  vest : List (Nat × List Byte × Nat) := []
  disc : List DiscRec := []
  /-- Cycle in which a read last removed a record: a second read in it shows the same one (R11). -/
  popped : Option Nat := none
  /-- Frames taken by the verification queue and the cycle at which each leaves it (R150). -/
  verify : List (Nat × Nat) := []
deriving DecidableEq, Repr

/-! ### Alignment (06_alignment.md) -/

/-- A sample on its way to a write port (R287, R195): cycle of the request, ingress port (local bank for a local sample),
stream, values with 32-bit qualities, smpCnt, smpSynch, ingress stamp, simulation state, and for a local sample its instant
as a fraction of its second. -/
structure Sample where
  cyc : Nat
  port : Nat
  stream : Nat
  vals : List (Int × Nat)
  smpCnt : Nat
  synch : Nat
  stamp : Nat
  sim : Bool
  loc : Bool
  /-- Second of a local sample, whose instant is not inferred from a stamp (R193). -/
  sec : Nat
  /-- A record that a COPY carries, stored unchanged (R464). -/
  raw : Option (List Byte) := none
deriving DecidableEq, Repr

/-- A stream descriptor, and the contents that a WRITE or INVALIDATE gives it at the next tick start (R165, R166). -/
structure Stream where
  bytes : List Byte
  next : Option (List Byte) := none
deriving DecidableEq, Repr

/-- An open set: grid tick, group, closure instant, concealment distance in ticks, and whether the grid skipped the tick
(R168, R169, R184). -/
structure OpenSet where
  tick : Nat
  group : Nat
  close : Nat
  conc : Nat
  skip : Bool
deriving DecidableEq, Repr

/-- An input of a resampler slot (R177–R179): absolute sample number, scaled values, quality words, and what the output
carries over. -/
structure RsIn where
  k : Nat
  vals : List Nat
  quals : List Nat
  conc : Bool
  smpCnt : Nat
  synch : Nat
  transit : Nat
  sim : Bool
  early : Bool
deriving DecidableEq, Repr

/-- Alignment beside its registers and the Pantry. -/
structure Al where
  str : List (Nat × Stream) := []
  sets : List OpenSet := []
  /-- Requests of the network write port, in order of service, and of the four local write paths. -/
  netQ : List Sample := []
  locQ : List (Nat × List Sample) := []
  /-- Cycle from which the network port is free for a write, and from which the next closure pass may begin (R171, R287). -/
  netFree : Nat := 0
  passFree : Nat := 0
  /-- By group, the tick after the latest that a pass has closed (R169, R171). -/
  closed : List (Nat × Nat) := []
  /-- Records written and not yet closed: stream, tick and the CMASK under which the write began (R166). -/
  wroteTo : List (Nat × Nat × Nat) := []
  /-- MISS by stream (R161). -/
  miss : List (Nat × Nat) := []
  /-- Samples found LATE before their closure pass: stream and tick (R169). -/
  late : List (Nat × Nat) := []
  /-- Inputs of the resampler slots, newest first. -/
  rs : List (Nat × List RsIn) := []
  /-- Sets may open from this count of raised ticks on, none while EN is 0 (R185). -/
  openFrom : Nat := 0
  /-- Sets have opened for grid ticks below this one (R162, R171, R184). -/
  opened : Nat := 0
  /-- Bytes 48–63 of records and inbox copies whose Pantry write is under way: the write's last cycle, address and bytes (R167). -/
  tails : List (Nat × Nat × List Byte) := []
deriving DecidableEq, Repr

/-! ### Local acquisition (07_local_acquisition.md) -/

/-- One channel beside its registers: samples still to settle, under causes 1–4, OVERLOAD and CLAMP, what the last sample carried,
and the stamp queue with edge, base and stamp (R198–R200, R204). -/
structure AqCh where
  left : Nat := 0
  leftOvl : Nat := 0
  leftClamp : Nat := 0
  wasOvr : Bool := false
  wasPartner : Bool := false
  tdc : List (Nat × Nat × Nat) := []
  /-- Comparator levels: above CMP_HI, below CMP_LO (R203). -/
  above : Bool := false
  below : Bool := false
deriving DecidableEq, Repr

/-- An entry of a recording buffer on its way to DRAM (R195, R206, R207): the cycle in which its write begins, the bank, its number in
the bank, its bytes 0–55, and whether bytes 0–47 have been written. -/
structure AqEntry where
  cyc : Nat
  bank : Nat
  seq : Nat
  bytes : List Byte
  half : Bool := false
deriving DecidableEq, Repr

/-- Acquisition beside its registers. -/
structure Aq where
  ch : List (Nat × AqCh) := []
  /-- Next sample of each bank, as an absolute number at its output rate (R193). -/
  next : List (Nat × Nat) := []
  /-- Conduction of the clamp detectors, cut at each step: channel, start and end in the governing base (R200). -/
  cond : List (Nat × Nat × Option Nat) := []
  /-- How many of the completing edges 0, 854 and 1,707 the synthesiser has placed in the last raised tick (R195, R201). -/
  placed : Nat := 3
  /-- Value of the governing base before which the synthesiser places no edge since a step (R201). -/
  edgeFrom : Nat := 0
  /-- Samples whose completing edge has been placed: bank, absolute number and the cycle of that edge (R195). -/
  due : List (Nat × Nat × Nat) := []
  entries : List AqEntry := []
  /-- Comparator edges on their way: cycle of delivery, channel, edge, base and stamp in ns (R204, R288). -/
  edges : List (Nat × Nat × Nat × Nat × Nat) := []
deriving DecidableEq, Repr

/-! ### Dispatcher (08_dispatch.md) -/

/-- A task descriptor, and what a WRITE or INVALIDATE makes of it at the next raised tick start (R211, R233). -/
structure Task where
  bytes : List Byte
  next : Option (List Byte) := none
  /-- Count of raised ticks at its last slotted start or skip (R219). -/
  lastTick : Option Nat := none
deriving DecidableEq, Repr

/-- An operand slot (R214), with the last mark, which is seen from its cycle on; a member of a GOOSE frame whose last
member is not yet written names its frame instead (R218). A start in cycle `used` has cleared a FRESH that was set. -/
structure OpSlot where
  bytes : List Byte
  new : Option (List Byte × Nat) := none
  group : Option Nat := none
  used : Option Nat := none
deriving DecidableEq, Repr

/-- A timer (R227): its entry, the full expiry instant and the arming instant. -/
structure Timer where
  bytes : List Byte
  exp : Nat := 0
  armAt : Nat := 0
  /-- Its watched slot has arrived after the arming instant and by the expiry instant (R230). -/
  seen : Bool := false
deriving DecidableEq, Repr

/-- A pending run of a ready task (R222): release time (a stamp), deadline, generation, the cycle in which it became ready,
whether its deadline has passed, and whether its wait for budget has been counted. -/
structure Pend where
  release : Nat
  deadline : Nat
  gen : Nat
  ready : Option Nat := none
  timedOut : Bool := false
  held : Bool := false
  /-- First cycle in which a readiness decision sees it (R218). -/
  since : Nat := 0
  /-- Its deadline has passed and has been handled (R229, R234). -/
  passed : Bool := false
deriving DecidableEq, Repr

/-- A mark request (R217): the cycle in which it reaches the general port, kind (0 GOOSE, 1 RESULT, 2 TIMER, 3 CYCLE), its
place among the requests of its kind made in one cycle, slot, value, quality, instance and generation, and for GOOSE the
frame; `seq` names the request. -/
structure MarkReq where
  due : Nat
  kind : Nat
  ord : Nat := 0
  /-- For a GOOSE member, how many cycles after its frame's first member it reaches the port (R218, R286). -/
  lead : Nat := 0
  seq : Nat
  slot : Nat
  value : List Byte
  qual : Nat
  vi : Nat
  gen : Nat
  frame : Nat := 0
deriving DecidableEq, Repr

/-- A set mark on its way to a slot (R182): cycle, slot, G[15:0] and the summary flags. -/
structure SetMark where
  due : Nat
  slot : Nat
  g : Nat
  flags : Nat
deriving DecidableEq, Repr

/-- An arm or cancel on its way to the delay lists (R228). -/
structure ArmReq where
  made : Nat
  due : Nat
  arm : Bool
  timer : Nat
  delay : Nat
  gen : Nat
  /-- Who made it: a lane by its number, then 256 + a steward core, then the owner seat (R228). -/
  who : Nat
  /-- VI, TSLOT and watch of a register ARM: bytes 0–5 of the entry. -/
  setup : Option (List Byte) := none
  /-- Arming instant where the run of a slotted task on a pair gives it (R466). -/
  inst : Option Nat := none
deriving DecidableEq, Repr

/-- The dispatcher beside its registers. -/
structure Ds where
  tasks : List (Nat × Task) := []
  slots : List (Nat × OpSlot) := []
  timers : List (Nat × Timer) := []
  pend : List (Nat × Pend) := []
  /-- REMAIN by instance (R225). -/
  remain : List (Nat × Nat) := []
  marks : List MarkReq := []
  seq : Nat := 0
  /-- Cycle in which the general port last wrote. -/
  portAt : Option Nat := none
  setQ : List SetMark := []
  arms : List ArmReq := []
  /-- Cycle of the last ready start, by cluster (R223). -/
  startAt : List (Nat × Nat) := []
  /-- Grid triads up to below this number have been considered for CYCLE marks (R215, R234). -/
  triad : Nat := 0
deriving DecidableEq, Repr

/-! ### Lanes (09_lanes_kernels.md) -/

/-- A run in service (R237): task, instance, generation, start cycle, COST, graph offset, the bounds of its instance data (R238), the next invocation and the cycle in
which it begins, invocations still to be skipped, staged posts with their invocation, and whether it has ended or been stopped. -/
structure Run where
  task : Nat
  vi : Nat
  gen : Nat
  flow : Nat
  ready : Bool
  start : Nat
  startCy : Nat
  cost : Nat
  /-- Grid tick in which it started. -/
  tick : Nat := 0
  entry : Nat
  inv : Nat := 0
  next : Nat
  skip : Nat := 0
  ibase : Nat := 0
  isize : Nat := 0
  staged : List (Nat × Nat × List Byte) := []
  ended : Bool := false
  stopped : Bool := false
deriving DecidableEq, Repr

/-- The lanes and clusters beside their memories. -/
structure Ln where
  runs : List (Nat × Run) := []
  /-- Units that lanes have written in cycle `wroteAt`, each with its lane (R251). -/
  wrote : List (Nat × Nat) := []
  wroteAt : Nat := 0
deriving DecidableEq, Repr

/-! ### Publication and trip outputs (10_publication_trip.md) -/

/-- An item handed over: type code of R263, value and quality. -/
structure PubItem where
  ty : Nat
  v : Nat
  q : Nat
deriving DecidableEq, Repr

/-- An ASDU of an SV stream (R269): absolute sample number, smpCnt, smpSynch, values and qualities. -/
structure SvAsdu where
  k : Nat
  smp : Nat
  synch : Nat
  quants : List (Int × Nat)
deriving DecidableEq, Repr

/-- A control block (R261), what a WRITE or INVALIDATE makes of it at the next raised tick start (R280), and its state
(R264, R265, R269). -/
structure Cb where
  bytes : List Byte := List.replicate 64 0
  next : Option (List Byte) := none
  items : Option (List PubItem) := none
  st : Nat := 0
  sq : Nat := 0
  /-- Event time as UtcTime (R267). -/
  t : List Byte := []
  /-- Number and instant of the next retransmission. -/
  nth : Nat := 0
  at' : Option Nat := none
  asdus : List SvAsdu := []
  /-- smpCnt of the last SV frame sent, and sqNum of the last GOOSE frame built (R280). -/
  lastSmp : Nat := 0
  lastSq : Nat := 0
deriving DecidableEq, Repr

/-- A build request (R259): control block, hand-over cycle, instance and generation, what the frame carries, and the cycle of
the tick start before the hand-over. -/
structure Build where
  cb : Nat
  fg : Bool
  hand : Nat
  vi : Nat
  gen : Nat
  items : List PubItem := []
  st : Nat := 0
  sq : Nat := 0
  t : List Byte := []
  tal : Nat := 0
  asdus : List SvAsdu := []
  tickCy : Nat := 0
deriving DecidableEq, Repr

/-- A frame in a pipeline or held (R269, R270): start cycle, cycle by which it is built, entry cycle. -/
structure Built where
  pipe : Nat
  cb : Nat
  vi : Nat
  gen : Nat
  octets : List Byte
  start : Nat
  done : Nat
  entry : Nat
  held : Bool
  keyBad : Bool
  /-- sqNum of a GOOSE frame, last smpCnt of an SV frame (R280). -/
  sq : Nat := 0
  smp : Nat := 0
deriving DecidableEq, Repr

/-- A trip stage beside its register (R277): `Clk.lapse` at the last set, a deferred clear, the count of raised ticks at the last
request, and whether the refresh limit watches that request. -/
structure Trip where
  setAt : Nat := 0
  clearDue : Bool := false
  last : Nat := 0
  watch : Bool := false
deriving DecidableEq, Repr

/-- A request that a lane hands over in this cycle (R259): lane, control block, items, instance and generation of the run, its class
and its grid tick. -/
structure PubAsk where
  lane : Nat
  cb : Nat
  items : List PubItem
  vi : Nat
  gen : Nat
  ready : Bool
  tick : Nat
deriving DecidableEq, Repr

/-- Publication beside its registers. -/
structure Pb where
  cbs : List (Nat × Cb) := []
  fg : List Build := []
  bg : List Build := []
  built : List Built := []
  /-- The last cycle in which each pipeline is busy (R270). -/
  busyTo : List (Nat × Nat) := []
  /-- Token-bucket level by instance, in bytes (R273). -/
  level : List (Nat × Int) := []
  trips : List (Nat × Trip) := []
  /-- Requests of lanes, and retransmissions, of this cycle, which are taken in the order of R268 as it ends. -/
  asks : List PubAsk := []
  retx : List Nat := []
  /-- Samples of banks with the cycle of their hand-over (R195, R259). -/
  samples : List (Nat × Nat × SvAsdu) := []
deriving DecidableEq, Repr

/-! ### Logic engine (12_logic_engine.md) -/

/-- A program (R293–R296): its descriptor, the SEQ of its last cycle begun and its restore kind. A cycle is noted as SEQ and boundary
tick: `opened` where its mark is requested, `due` where the mark stands in the head's slot, `cur` from the head's start on that
consumes it to the cycle end. -/
structure Prg where
  bytes : List Byte := List.replicate 64 0
  seq : Nat := 0
  kind : Nat := 0
  opened : Option (Nat × Nat) := none
  due : Option (Nat × Nat) := none
  cur : Option (Nat × Nat) := none
  /-- An INVALIDATE empties the entry at the next raised tick start (R294). -/
  leave : Bool := false
deriving DecidableEq, Repr

/-- A force (R304): its entry, and a value and quality that replace the ACTIVE ones at the next boundary (R305). -/
structure Frc where
  bytes : List Byte := List.replicate 32 0
  pend : Option (List Byte) := none
deriving DecidableEq, Repr

/-- A save in the engine (R301): program, SEQ, cycles at which the Cellar record and the home copy end, whether the first has ended, and
whether it writes a record. -/
structure SaveRun where
  prg : Nat
  seq : Nat
  mid : Nat
  stop : Nat
  half : Bool := false
  rcd : Bool := true
deriving DecidableEq, Repr

/-- A save that waits (R301): the cycle of the cycle end, program and SEQ. -/
structure SaveReq where
  cyc : Nat
  prg : Nat
  seq : Nat
deriving DecidableEq, Repr

/-- A pending exchange (R309–R311): OLD has reached a cycle end since the command; the cycle since which its conditions on OLD hold, at
whose end the copy joins the saves; the copy's first and last cycle; OLD has started a run since; the held task writes have issued for
the next tick start. -/
structure Xch where
  old : Nat
  new : Nat
  ended : Bool := false
  since : Option Nat := none
  copy : Option (Nat × Nat) := none
  dirty : Bool := false
  issued : Bool := false
deriving DecidableEq, Repr

/-- The logic engine beside its registers. -/
structure Lg where
  prgs : List (Nat × Prg) := []
  frcs : List (Nat × Frc) := []
  /-- Saves waiting, in order of cycle end and then of program number (R301). -/
  saves : List SaveReq := []
  run : Option SaveRun := none
  xch : Option Xch := none
  /-- The FORCE_IND pad (R306). -/
  ind : Bool := false
deriving DecidableEq, Repr

/-! ### Drive unit and sense inputs (13_drive_unit.md) -/

/-- A pair beside its registers. Instants within a period are in eighths of a cycle (sixteenths of a count). -/
structure DuPair where
  /-- Zero event of the period in progress, its length, and its duty in counts; none while the counter stands. -/
  zero : Option Nat := none
  /-- Next zero event. -/
  nextZ : Option Nat := none
  len : Nat := 0
  duty : Nat := 0
  /-- CMPA, CMPB and PERIOD have been raised in this period. -/
  cmpa : Bool := false
  cmpb : Bool := false
  last : Bool := false
  /-- Period number since the last load (R316). -/
  k : Nat := 0
  /-- PER and DUTY armed by a commit and its cycle; legacy writes and theirs (R317). -/
  armed : Option (Nat × Nat × Nat) := none
  perW : Option (Nat × Nat) := none
  dutyW : Option (Nat × Nat) := none
  /-- The sides commanded on, and the incoming pad (true: DU_H): cycle at which the outgoing pad turned off and, once known,
  cycle at which it turns on (R318). -/
  h : Bool := false
  l : Bool := false
  turn : Option (Bool × Nat × Option Nat) := none
  /-- Occurrences of ZERO, CMPA, CMPB and PERIOD since the last passed one (R320). -/
  presc : List Nat := [0, 0, 0, 0]
  /-- COIL: 0 idle, 1 peak, 2 off until the next zero event, 3 hold; `Clk.lapse` at which the peak ends (R323). -/
  phase : Nat := 0
  peakTo : Nat := 0
  /-- Fault inputs that hold the pads off, with the cycle from which they do (R324). -/
  hold : List (Nat × Nat) := []
  /-- GRID: number of the next zero event of the triad, the cycle of its tick 0 and that tick's grid tick number (R322). -/
  gridI : Nat := 0
  gridCy : Nat := 0
  gridG : Nat := 0
  /-- CMD as it stands at the pads (R323). -/
  cmd : Bool := false
deriving DecidableEq, Repr

/-- A sense input: candidate change with its level and the stamp of its first edge (R326). -/
structure Sns where
  cand : Option (Bool × Nat) := none
deriving DecidableEq, Repr

/-- The drive unit beside its registers. -/
structure Du where
  pair : List (Nat × DuPair) := []
  sns : List (Nat × Sns) := []
  /-- Stamp queue: input, level, base and stamp, oldest first (R325). -/
  stamps : List (Nat × Bool × Nat × Nat) := []
  /-- Changes of CMD on their way to the pads: cycle, pair and CMD (R276, R323). -/
  cmds : List (Nat × Nat × Bool) := []
  /-- Recognised fault inputs on their way to the pads: cycle and input (R324). -/
  trips : List (Nat × Nat) := []
  /-- Edges of the sense inputs on their way: cycle of delivery, input, level, base and stamp in ns (R325). -/
  edges : List (Nat × Nat × Bool × Nat × Nat) := []
deriving DecidableEq, Repr

/-! ### Cellar (14_cellar.md) -/

/-- The Cellar beside its registers (R328–R347). Piccolo pulses are counted from the CK_M cycle of 1 ns (log entry 8). -/
structure Cellar where
  /-- Root secret, 64 bytes, at no offset (R346). -/
  root : List Byte := List.replicate 64 0
  /-- Canary cells (R332). -/
  canHi : Nat := 0
  canLo : Nat := 0
  /-- Retentive area by byte offset, bytes that differ from zero (R342). -/
  ret : List Host.Cell := []
  /-- Tamper log by entry (R347). -/
  tlog : List (Nat × List Byte) := []
  /-- The next Cellar wake is the release of a PD0 power-on reset (R332). -/
  por : Bool := true
  /-- The mux has changed to VIN and the wake's check is due (R332). -/
  wakeDue : Bool := false
  /-- V_CEL stands at 1.9 V or above: the Piccolo clock runs (R329). -/
  runs : Bool := false
  /-- The calendar stopped since the last wake (R332). -/
  stopped : Bool := false
  /-- Phase of the Piccolo clock in 10⁻⁹ periods, and raw pulses not yet taken by the calendar. -/
  phase : Nat := 0
  edges : Nat := 0
  /-- Raw pulse number in the trim window, and the trim in force (R340). -/
  raw : Nat := 0
  trim : Int := 0
  /-- Pulses still to be shifted (R341). -/
  shift : Int := 0
  /-- Commits waiting for the next edge (R338): time and date words, and weekday. -/
  setTime : Option (Nat × Nat) := none
  setWday : Option Nat := none
  /-- A trim correction moved to the next edge, true where it advances SUBSEC, and edges for which a committed SET_WDAY stands against the midnight advance:
  2 before its edge is taken, 1 at its edge (R339). -/
  trimOwed : Option Bool := none
  wdaySet : Nat := 0
  /-- SUBSEC has passed 32,767 and the roll-over is due (R334). -/
  rollDue : Bool := false
  /-- A freeze: holder's latch index, Piccolo periods since its first read, and the eight shadows (R337). -/
  freeze : Option (Nat × Nat × List Nat) := none
  /-- Calendar reads of other requesters that wait for the freeze to end (R337). -/
  held : List Access := []
  /-- Raw pulses of the second in progress on VIN (R344). -/
  ops : Nat := 0
  opsDue : Nat := 0
  /-- Raw pulses until VBAT is measured again (R330). -/
  vbatWait : Nat := 0
  /-- Accesses to CL_RET_DATA that wait for a save's record, with the byte offset they name (R342). -/
  retHeld : List (Access × Nat) := []
  /-- The Cellar event was due while PD1 was unpowered (R349). -/
  owed : Bool := false
deriving DecidableEq, Repr

/-! ### Event recorder and capture (15_recording.md) -/

/-- A record in the entry queue (R350, R354), with the cycle in which it was taken. -/
structure EvReq where
  seq : Nat
  sec : Nat
  ns : Nat
  tkind : Nat
  src : Nat
  code : Nat
  data : Nat
  cyc : Nat
deriving DecidableEq, Repr

/-- The recorder beside its registers. Sequence numbers are held unwrapped; the ring, the positions and `first` lie in the
Cellar (R354–R356). -/
structure Ev where
  /-- Ring by SEQ mod 4,096: the sequence number and 32 bytes. -/
  ring : List (Nat × Nat × List Byte) := []
  /-- Next sequence number to assign, and to enter. -/
  next : Nat := 0
  entered : Nat := 0
  /-- Oldest SEQ not cleared (R359). -/
  cleared : Nat := 0
  drained : Nat := 0
  /-- Partition write position in records, and what the partition holds: first SEQ, position and number of records. -/
  pos : Nat := 0
  runs : List (Nat × Nat × Nat) := []
  /-- The partition must be scanned before a record enters (R355). -/
  scan : Bool := true
  queue : List EvReq := []
  /-- Cycle from which the next record may leave the queue. -/
  leave : Nat := 0
  /-- Requests lost since the previous LOST record. -/
  lost : Nat := 0
  /-- Offset of the recorder partition in the NOR, where the directory names one (R429). -/
  ofs : Option Nat := none
  /-- `Clk.lapse` of the next try after a failed program or erase, and the drain stopped until the next start (R357). -/
  retryAt : Option Nat := none
  stop : Bool := false
  /-- The boot loader has the NVM's parameters, and the partition has not been scanned since (R355). -/
  params : Bool := false
  /-- SEQ being loaded from the NVM (R358). -/
  load : Option Nat := none
  /-- EV_RING_FIRST and EV_LAST latched by requester (R358). -/
  latch : List (Nat × Nat × Nat) := []
  nonce : Option Nat := none
deriving DecidableEq, Repr

/-- A binary-channel change on its way to capture (R363, R366): kind and index, level, whether it is a pulse, its stamp and
trigger-time kind, and the cycle of delivery. -/
structure BinChange where
  kind : Nat
  index : Nat
  level : Bool
  pulse : Bool
  stamp : Nat
  tk : Nat
  cyc : Nat
deriving DecidableEq, Repr

/-- The run state of a record definition (R361–R368) beside its registers. Rows are numbered from the start of time. -/
structure Cap where
  lastBuf : Option Nat := none
  /-- Row that lies in slot 0, and the next row to finalise. -/
  row0 : Nat := 0
  nextRow : Nat := 0
  /-- Values for rows not yet finalised: row, channel, value and quality. -/
  vals : List (Nat × Nat × Nat × Nat) := []
  /-- Binary levels as of the last finalised row, changes after it (channel, stamp, level, pulse) and levels as delivered. -/
  base : List (Nat × Bool) := []
  changes : List (Nat × Nat × Bool × Bool) := []
  level : List (Nat × Bool) := []
  /-- PATTERN: next stage awaited and the time of the last; the stage's truth before. -/
  stage : Nat := 0
  stageAt : Nat := 0
  stageWas : Bool := false
  /-- Start of the level or crossing that PULSE_WIDTH, TIMEOUT, RUNT and SLEW watch, and that TIMEOUT has fired for it. -/
  mark : Option Nat := none
  fired : Bool := false
  /-- Last finalised row and its value of CH, for RUNT and SLEW. -/
  prevRow : Option (Nat × Int) := none
  /-- Trigger time, kind and row. -/
  trig : Option (Nat × Nat × Nat) := none
  /-- Base that governed at the trigger (R55, R364). -/
  trigBase : Nat := 0
  evseq : Nat := 0
  /-- Address of the EVSEQ of a complete header that waits for the number of its TRIGGER record (R364). -/
  hdr : Option Nat := none
  late : Nat := 0
  /-- Governing values from which the grid stepped since ARMED began (R364). -/
  steps : List Nat := []
  /-- `Clk.lapse` of the end of HOLD, and triggers still to be ignored (R368). -/
  holdTo : Option Nat := none
  ignore : Nat := 0
deriving DecidableEq, Repr

/-- Trigger and capture beside their registers. -/
structure Tg where
  caps : List (Nat × Cap) := []
  changes : List BinChange := []
deriving DecidableEq, Repr

/-! ### Instances, virtual functions and ownership (16_instances.md) -/

/-- A virtual function's configuration and messages (R374–R376, R487). -/
structure Vf where
  /-- Memory Space Enable, Bus Master Enable and MSI-X Function Mask. -/
  mse : Bool := false
  bme : Bool := false
  fmask : Bool := false
  /-- The MSI-X table by vector, vectors held as pending, and the messages sent by vector (R376). -/
  table : List (Nat × MsixEntry) := []
  pend : List Nat := []
  sent : List (Nat × Nat) := []
deriving DecidableEq, Repr

/-- A mirror copy in progress (R386): the cycles of its beginning and of its end, and its units, destination and sequence number as
they were when it began. -/
structure MirrorRun where
  vi : Nat
  m : Nat
  start : Nat
  stop : Nat
  gen : Nat
  src : Nat
  dest : Nat
  units : Nat
  seq : Nat
deriving DecidableEq, Repr

/-- One instance beside its registers. -/
structure Vi where
  /-- KEEP_RUN of the reset in progress and the reset cycle (R393, R395). -/
  keepRun : Bool := false
  resetAt : Option Nat := none
  /-- Runs may start from this count of raised ticks on (R395). -/
  runFrom : Nat := 0
  /-- Mirror sequence numbers and the last tick copied, by mirror (R386). -/
  mirSeq : List (Nat × Nat) := []
  mirTick : List (Nat × Nat) := []
  /-- Mirrors whose wait for this tick has been counted (R386). -/
  mirWait : List (Nat × Nat) := []
  /-- A tenant publication request handed over, due in the next cycle (R388): its hand-over cycle and control block. -/
  pubReq : List (Nat × Nat) := []
deriving DecidableEq, Repr

/-- The values of PF0's SR-IOV capability (R374): they do not change. -/
structure SrIov where
  totalVfs : Nat := 512
  initialVfs : Nat := 512
  firstOffset : Nat := 1
  stride : Nat := 1
  ari : Bool := true
deriving DecidableEq, Repr

/-- Instances, functions and ownership together. -/
structure Vis where
  sriov : SrIov := {}
  /-- NumVFs, and PF0's Memory Space Enable, Bus Master Enable and MSI-X Function Mask (R374, R398, R487). -/
  numVfs : Nat := 0
  pfMse : Bool := false
  pfBme : Bool := false
  pfFmask : Bool := false
  vf : List (Nat × Vf) := []
  vi : List (Nat × Vi) := []
  /-- The mirror engine's copy in progress (R386). -/
  mirror : Option MirrorRun := none
  /-- Lapse instant of the offer in force (R400), on `Clk.lapse`, and cycle of the last lease refresh (R401). -/
  offerLapse : Option Nat := none
  leaseFrom : Nat := 0
  /-- The refresh that counts again where an acceptance is undone (R400). -/
  leaseWas : Nat := 0
  /-- Cycle in which an offer last lapsed (R400). -/
  lapsed : Option Nat := none
  /-- Claims of the current cycle: the cycle and the seat that won it so far (R399). -/
  claimed : Option (Nat × Nat) := none
deriving DecidableEq, Repr

/-! ### Key store (17_keys.md) -/

/-- A slot of the key store (R406–R410): 64 bytes and the integrity tag. -/
structure KsSlot where
  bytes : List Byte := List.replicate 64 0
  tag : List Byte := []
  /-- An uncorrectable ECC error lies in the slot (R409, R410). -/
  ecc : Bool := false
deriving DecidableEq, Repr

/-- A command in progress (R415): KS_CMD, KS_DATA0–15 as bytes and KS_BLOB as they stood, whether it may write a BAD slot, and
its apply cycle (for WRAP and UNWRAP the earliest). -/
structure KsRun where
  cmd : Nat
  data : List Byte
  blob : Nat
  done : Nat
  own : Bool
deriving DecidableEq, Repr

/-- The one-time fuses (R411). -/
structure Fuses where
  pkh0 : List Byte := List.replicate 48 0
  pkh1 : List Byte := List.replicate 48 0
  pkhSet : Nat := 0
  revoke : Nat := 0
  prov : Bool := false
  field : Bool := false
  ret : Bool := false
deriving DecidableEq, Repr

/-- The key store beside its registers. -/
structure Ks where
  slots : List (Nat × KsSlot) := []
  /-- Slots as they stood before the commands that applied in the cycle named (R417). -/
  before : Option (Nat × List (Nat × KsSlot)) := none
  kInt : Nat := 0
  /-- State root and KEK_s (R414, R418). -/
  root : Option (List Byte) := none
  kek : List Byte := []
  /-- The root was lost since the start (R420), and lost in this cycle. -/
  rootLost : Bool := false
  rootGone : Bool := false
  /-- Slots found failing in this cycle, with whether by ECC (R410). -/
  found : List (Nat × Bool) := []
  ser : Nat := 0
  run : Option KsRun := none
  fuses : Fuses := {}
  /-- Fuse groups being programmed, in the order of R411, with what they take. -/
  prog : List (Nat × List Byte) := []
  /-- What READ_ATTR or SESSION_OUT loaded last into KS_DATA and no write has replaced since (R421). -/
  shown : List (Nat × Nat) := []
deriving DecidableEq, Repr

/-! ### From power-on to service (18_start_to_service.md) -/

/-- Supplies and pads as the module sees them (R493): VIN valid, RST_N held low, VIO lost. -/
structure Elec where
  vin : Bool := false
  rst : Bool := false
  vio : Bool := false
  /-- PD14 has lost its power-good since the last start (R443, R490, R493). -/
  pgLost : Bool := false
deriving DecidableEq, Repr

/-- Start and boot beside the PM_ and BT_ registers. -/
structure Boot where
  /-- The DRAM is initialised (R427). -/
  dram : Bool := false
  /-- `Clk.lapse` at entry into BOOT_WAIT, and whether a twin-link transfer has begun since (R432). -/
  waitFrom : Nat := 0
  begun : Bool := false
  /-- The boot aperture is open (R432). -/
  apOpen : Bool := false
  /-- Length with which the bundle was submitted (R435). -/
  subLen : Nat := 0
  /-- Address at which the steward cores were released; none while they are held in reset (R436). -/
  cores : Option Nat := none
  /-- The partition directory in use (R429). -/
  dir : List Byte := []
  /-- The image whose body is to be checked: false A, true B (R438). -/
  trial : Option Bool := none
  /-- Header of the image in use (R430), and its IMG_ID, bytes 48–55 (R458). -/
  hdr : List Byte := []
  imgId : Nat := 0
  /-- Domains still to be powered, and quadrants whose self-test has ended (R440, R441). -/
  todo : List Nat := []
  tested : List Nat := []
  /-- `Clk.lapse` at entry into DISCOVER (R442). -/
  discFrom : Nat := 0
  /-- The watchdog runs, and `Clk.lapse` where its period began (R444). -/
  wdRuns : Bool := false
  wdFrom : Nat := 0
deriving DecidableEq, Repr

/-! ### The redundant pair (19_redundant_pair.md) -/

/-- A message of the pair controller that leaves in cycle `due` or later (R454–R456). -/
structure TwinOut where
  due : Nat
  kind : Nat
  part : Nat := 0
  sec : Nat := 0
  tick : Nat := 0
  payload : List Byte := []
  /-- Sent on one twin port only (R454). -/
  single : Bool := false
deriving DecidableEq, Repr

/-- What a hand-over of a slotted run contributes to the output digest of its tick (R468). -/
structure Hand where
  tick : Nat
  cyc : Nat
  lane : Nat
  bytes : List Byte
deriving DecidableEq, Repr

/-- An acceptance or departure of a GOOSE subscription whose slots of slotted tasks wait for their marks (R465): the tick of the
acceptance, the subscription and stNum, the frame and its marks (slot, value, quality), whether the tick record of the active
module lists it, the tick at whose start the marks are made, and whether a copy is awaited. -/
structure GNote where
  tick : Nat
  sub : Nat
  st : Nat
  depart : Bool
  frame : Nat
  marks : List (Nat × List Byte × Nat)
  listed : Bool
  at' : Option Nat
  want : Bool := false
deriving DecidableEq, Repr

/-- An entry of a set record (R461). -/
structure SetEntry where
  stream : Nat
  digest : Nat
  state : Nat
  carried : Bool
  body : List Byte := []
deriving DecidableEq, Repr

/-- A set record as far as it has arrived (R461, R463). -/
structure SetRec where
  tick : Nat
  group : Nat
  entries : List SetEntry
  full : Bool
deriving DecidableEq, Repr

/-- A bundle transfer into the boot region (R479): `Clk.lapse` at the last message and the parts that have arrived. -/
structure BundleRx where
  last : Nat
  parts : List (Nat × Nat) := []
deriving DecidableEq, Repr

/-- The pair controller beside its registers. -/
structure Pr where
  /-- The module was ACTIVE at its entry into REVERTING (R452). -/
  wasActive : Bool := false
  /-- Messages waiting to leave, and the number of the next (R455). -/
  out : List TwinOut := []
  mseq : Nat := 0
  /-- MSEQ of messages that have arrived, newest first (R454). -/
  seen : List Nat := []
  /-- This module's proposal and the pairing epoch (R458). -/
  proposal : Nat := 0
  epoch : Nat := 0
  paired : Bool := false
  /-- An INCOMPAT record has been written in this pairing attempt. -/
  incompat : Bool := false
  /-- `Clk.lapse` at the last message of the partner, and the state it reported. -/
  lastRx : Nat := 0
  peer : Nat := 0
  peerBoot : Nat := 0
  /-- `Clk.lapse` of the next HELLO and the next SYNC_REQ (R456). -/
  helloAt : Option Nat := none
  syncAt : Option Nat := none
  /-- Whether this module held the claim at the start of a tick, newest first (R467). -/
  own : List (Nat × Bool) := []
  /-- Last tick whose tick record is complete, none before the first (R452, R460). -/
  fed : Option Nat := none
  hands : List Hand := []
  /-- Control blocks whose stNum or sqNum changed, with the tick (R460). -/
  pubs : List (Nat × Nat) := []
  goose : List GNote := []
  /-- CMD of the trip stages as left by the requests of a tick, and the force digest at its end (R460, R469). -/
  trips : List (Nat × Nat × Nat) := []
  /-- Timer marks of slotted slots that wait for their tick, with the expiry instant (R466). -/
  tmarks : List (Nat × MarkReq) := []
  /-- Tick records that have arrived, newest first, and the last tick checked (R473). -/
  recs : List Nat := []
  checked : Option Nat := none
  /-- The tick record of the last tick checked was missing. -/
  missed : Bool := false
  /-- First tick for which this module expects a tick record. -/
  standbyFrom : Nat := 0
  sets : List SetRec := []
  /-- Requests sent and not yet answered: tick, part of the answer that is next, and entries still to come (R464). -/
  asked : List (Nat × Nat × List Nat) := []
  /-- Failure detected: count of raised ticks and cause (R473). -/
  detected : Option (Nat × Nat) := none
  /-- Ticks of mismatches among the last 100 (R469). -/
  mis : List Nat := []
  /-- Tick of XFER_DONE, and consecutive ticks without a mismatch since (R472). -/
  doneAt : Option Nat := none
  doneRun : Nat := 0
  /-- Map groups installed in this pass, and the STATE data of a group that is arriving: group, tick, entry and offset. -/
  installed : List Nat := []
  parts : List (Nat × Nat × Nat × Nat × List Byte) := []
  /-- The map groups of the active module's pass still to be sent, whether each has been sent once, and the STATE bytes sent in the tick
  named (R472). -/
  pass : Option (List Nat) := none
  passOnce : Bool := false
  sent : Nat × Nat := (0, 0)
  /-- `Clk.lapse` since which this module has been in step, a REVERT_REQ due at the next tick start, G_r, the count of raised ticks
  when it was sent, and the cause of a refusing answer (R476). -/
  stepFrom : Nat := 0
  revDue : Bool := false
  gr : Option Nat := none
  reqAt : Option Nat := none
  ackCause : Nat := 0
  /-- Offset and cycle of the next BUNDLE_DATA part served (R479). -/
  serve : Option (Nat × Nat) := none
  rx : Option BundleRx := none
  /-- `Clk.lapse` from which the next BUNDLE_REQ may leave (R479). -/
  reqNext : Nat := 0
  /-- Status and data of the last REG_RSP (R456). -/
  regRsp : Option (Nat × Nat) := none
deriving DecidableEq, Repr

/-! ### Architecture (01_architecture.md) -/

/-- What stood at the start of the cycle beside the registers: reads of these blocks' fields and of the lanes' memories see it
(R11, R241). -/
structure Start where
  mem : List Host.Cell := []
  aq : Aq := {}
  du : Du := {}
  cl : Cellar := {}
  vis : Vis := {}
  ic : Ic := {}
  hall : Hall := {}
  ds : Ds := {}
  pb : Pb := {}
  ev : Ev := {}
  lg : Lg := {}
  ks : Ks := {}
deriving DecidableEq, Repr

/-- Wakes in progress and accesses held for dormant pages (R29), and what reads of this cycle see (R11). -/
structure Arch where
  /-- Wakes in progress: domain and the house-clock time (`Clk.lapse`) by which it completes (R29). -/
  wakes : List (Nat × Nat) := []
  /-- Accesses held until their domain has woken, oldest first (R29). -/
  held : List Access := []
  at0 : Start := {}
deriving DecidableEq, Repr

/-- The whole machine. -/
structure State where
  /-- Commands waiting, first in, first out (the model's own). -/
  pending : List Instr := []
  /-- CK_M cycle count (R48). -/
  cyc : Nat := 0
  /-- Registers that differ from their reset value, by offset from 0x0F_0000_0000. -/
  regs : List (Nat × Word) := []
  /-- The register file as it stood at the start of the cycle (R11). -/
  regs0 : List (Nat × Word) := []
  /-- What events of this cycle have set or counted, per register (R11). -/
  evc : List (Nat × Word) := []
  /-- Counter of free values drawn (the model's own). -/
  free : Nat := 0
  /-- Completion of the last access. -/
  bus : Option Completion := none
  /-- Memory of the 40-bit map that differs from what an unlisted byte reads as (R31, R33). -/
  mem : List Host.Cell := []
  /-- NOR flash (R428), bytes that differ from 0xFF. -/
  nvm : List Host.Cell := []
  /-- Record requests on their way to the entry queue, oldest first (R354). -/
  recReqs : List RecReq := []
  arch : Arch := {}
  clk : Clk := {}
  ic : Ic := {}
  ports : Ports := {}
  hall : Hall := {}
  sub : Sub := {}
  al : Al := {}
  aq : Aq := {}
  ds : Ds := {}
  ln : Ln := {}
  pb : Pb := {}
  lg : Lg := {}
  du : Du := {}
  cl : Cellar := {}
  ev : Ev := {}
  tg : Tg := {}
  vis : Vis := {}
  ks : Ks := {}
  elec : Elec := {}
  boot : Boot := {}
  pr : Pr := {}
deriving DecidableEq, Repr

/-- The machine at reset: no supply, every register at its reset value, nothing waiting. -/
def State.reset : State := {}

end Sys2Proof.Machine
end

