-- ==== Sys2Proof/Machine/Ops.lean ====
section
/-!
DEFINITION. The named operations over registers, events, memory and time that every block uses.
-/
namespace Sys2Proof.Machine

/-! ### The register file -/

/-- The block that owns register page `page`, and the index of the page in a run of pages (R36). -/
def pageBlock (page : Nat) : Option (Block × Nat) :=
  match page with
  | 0x00 => some (.pm, 0)
  | 0x01 => some (.bt, 0)
  | 0x02 => some (.ow, 0)
  | 0x03 => some (.ic, 0)
  | 0x04 => some (.hc, 0)
  | 0x05 => some (.cl, 0)
  | 0x06 => some (.ks, 0)
  | 0x30 => some (.hl, 0)
  | 0x40 => some (.sb, 0)
  | 0x50 => some (.al, 0)
  | 0x60 => some (.pb, 0)
  | 0x70 => some (.ds, 0)
  | 0x80 => some (.lg, 0)
  | 0x90 => some (.aq, 0)
  | 0xA0 => some (.du, 0)
  | 0xB0 => some (.ev, 0)
  | 0xC0 => some (.tg, 0)
  | 0xD0 => some (.pr, 0)
  | p =>
    if 0x10 ≤ p ∧ p ≤ 0x25 then some (.pt, p - 0x10)
    else if 0x100 ≤ p ∧ p ≤ 0x2FF then some (.vi, p - 0x100)
    else none

/-- The power domain of a block's page (R36). -/
def pageDomain (b : Block) (i : Nat) : Nat :=
  match b with
  | .cl => 0
  | .pm | .bt | .ow | .ic | .hc | .ks | .ev | .vi => 1
  | .sb | .al | .pb | .ds | .lg => 6
  | .hl => 7
  | .tg => 14
  | .aq => 12
  | .du => 13
  | .pr => 10
  | .pt =>
    if i < 8 then 8 else if i < 16 then 9 else if i < 18 then 10 else if i = 18 then 9 else if i < 21 then 6 else 7

/-- Whether offset `off` belongs to the register array `d`. -/
def RegDesc.holds (d : RegDesc) (off : Nat) : Bool :=
  decide (d.base ≤ off) &&
    (if d.stride = 0 then off == d.base
     else (off - d.base) % d.stride == 0 && decide ((off - d.base) / d.stride < d.count))

/-- The register at page offset `off` of a block, if one is assigned there. -/
def descAt (b : Block) (off : Nat) : Option RegDesc := (blockRegs b).find? (fun d => d.holds off)

/-- The register at page offset `off` of page `i` of a block: the steward ring pairs lie in the page of I2 only (R103). -/
def descIn (b : Block) (i off : Nat) : Option RegDesc := if b = .pt ∧ i ≠ 21 ∧ 0x400 ≤ off then none else descAt b off

/-- The register at offset `a` of register space, if one is assigned there (R36). -/
def regDesc (a : Nat) : Option RegDesc :=
  match pageBlock (a / 0x10000) with
  | none => none
  | some (b, i) => descIn b i (a % 0x10000)

/-- The reset value that the tables give as depending on the instance: the reset MODE of a port (R69), the lifetimes of
classes 6 and 7 (R134) and the device code of PM_ID (R446; the BXM-5124, log entry 2). -/
def specialReset (a : Nat) : Nat :=
  match pageBlock (a / 0x10000) with
  | some (.pt, i) =>
    if a % 0x10000 = 0 then (if 8 ≤ i ∧ i < 16 then 0x10000000 else if i = 18 then 0x40000000 else 0) else 0
  | some (.hl, _) => if a % 0x10000 = 0x38 ∨ a % 0x10000 = 0x3C then 0x03E8 else 0
  | some (.pm, _) => if a % 0x10000 = 0 then 0x51240000 else 0
  | _ => 0

/-- The reset value of the register at offset `a` of register space. -/
def regReset (a : Nat) : Word :=
  match regDesc a with
  | none => 0
  | some d => BitVec.ofNat 32 (d.fields.foldl (fun x f => x + f.rst * 2 ^ f.lo) 0 + specialReset a)

/-- The register at offset `a`, now. -/
def State.word (s : State) (a : Nat) : Nat := (agetD s.regs a (regReset a)).toNat

/-- The register at offset `a`, as it stood at the start of the cycle (R11). -/
def State.word0 (s : State) (a : Nat) : Nat := (agetD s.regs0 a (regReset a)).toNat

/-- The register at offset `a` set to `v`. -/
def State.put (s : State) (a v : Nat) : State :=
  { s with regs := cput (regReset a) s.regs a (BitVec.ofNat 32 v) }

/-- A field, now. -/
def State.rd (s : State) (f : Fld) : Nat := bits (s.word f.addr) f.hi f.lo

/-- A field, as it stood at the start of the cycle (R11). -/
def State.rd0 (s : State) (f : Fld) : Nat := bits (s.word0 f.addr) f.hi f.lo

/-- A one-bit field, now. -/
def State.on (s : State) (f : Fld) : Bool := s.rd f == 1

/-- A one-bit field at the start of the cycle. -/
def State.on0 (s : State) (f : Fld) : Bool := s.rd0 f == 1

/-- A field as a signed number. -/
def State.rdS (s : State) (f : Fld) : Int := sext f.width (s.rd f)

/-- The module sets a field. -/
def State.wr (s : State) (f : Fld) (v : Nat) : State := s.put f.addr (setBits (s.word f.addr) f.hi f.lo v)

/-- The module sets a field to a signed value. -/
def State.wrS (s : State) (f : Fld) (v : Int) : State := s.wr f (toBits f.width v)

/-- What events of this cycle have set or counted in register `a` (R11). -/
def State.evWord (s : State) (a : Nat) : Nat := (agetD s.evc a 0).toNat

/-- Sum held at the all-ones value of `w` bits (R12). -/
def satAdd (w x n : Nat) : Nat := if x + n < 2 ^ w then x + n else 2 ^ w - 1

/-- An event counts `n` in a saturating field (R12); a read-clear in the same cycle keeps it (R11). -/
def State.count (s : State) (f : Fld) (n : Nat) : State :=
  let e := s.evWord f.addr
  { s.wr f (satAdd f.width (s.rd f) n) with
    evc := aput s.evc f.addr (BitVec.ofNat 32 (setBits e f.hi f.lo (satAdd f.width (bits e f.hi f.lo) n))) }

/-- An event counts once. -/
def State.inc (s : State) (f : Fld) : State := s.count f 1

/-- An event counts `n` in a field that wraps; a read-clear in the same cycle keeps it (R11). -/
def State.incW (s : State) (f : Fld) (n : Nat) : State :=
  let e := s.evWord f.addr
  { s.wr f (s.rd f + n) with evc := aput s.evc f.addr (BitVec.ofNat 32 (setBits e f.hi f.lo (bits e f.hi f.lo + n))) }

/-- An event sets a flag; a write of 1 in the same cycle leaves it set (R11). -/
def State.flag (s : State) (f : Fld) : State :=
  { s.wr f (2 ^ f.width - 1) with
    evc := aput s.evc f.addr (BitVec.ofNat 32 (setBits (s.evWord f.addr) f.hi f.lo (2 ^ f.width - 1))) }

/-- An event ORs bits into a write-1-to-clear register. -/
def State.setBitsEv (s : State) (a m : Nat) : State :=
  { s.put a (s.word a ||| m) with evc := aput s.evc a (BitVec.ofNat 32 (s.evWord a ||| m)) }

/-- What a software write of `v` makes of a register of descriptor `d`: RW fields take the value, W1C bits written 1 clear
unless an event of this cycle set them, RO, RC and WO fields and reserved bits stay (R8, R10, R11). -/
def swValue (d : RegDesc) (old ev v : Nat) : Nat :=
  d.fields.foldl (fun x f =>
    match f.acc with
    | .rw => setBits x f.hi f.lo (bits v f.hi f.lo)
    | .w1c =>
      let o := bits x f.hi f.lo
      setBits x f.hi f.lo ((o - (o &&& bits v f.hi f.lo)) ||| (o &&& bits ev f.hi f.lo))
    | .ro | .rc | .wo => x) old

/-- A software write of the register at offset `a` by its access codes alone. -/
def State.swPut (s : State) (a v : Nat) : State :=
  match regDesc a with
  | none => s
  | some d => s.put a (swValue d (s.word a) (s.evWord a) v)

/-- Clear the RC fields of register `a` at a read: what the cycle's events contributed stays (R11). A second read in the
same cycle finds them cleared. -/
def State.readClear (s : State) (a : Nat) : State :=
  match regDesc a with
  | none => s
  | some d =>
    let rc := d.fields.filter (fun f => f.acc == .rc)
    if rc.isEmpty then s
    else
      let ev := s.evWord a
      let now := rc.foldl (fun x f => setBits x f.hi f.lo (bits ev f.hi f.lo)) (s.word a)
      let was := rc.foldl (fun x f => setBits x f.hi f.lo 0) (s.word0 a)
      { s.put a now with regs0 := cput (regReset a) s.regs0 a (BitVec.ofNat 32 was) }

/-- What a read of register `a` shows: the start-of-cycle value without the WO fields (R10, R11). -/
def State.shown (s : State) (a : Nat) : Nat :=
  match regDesc a with
  | none => 0
  | some d => (d.fields.filter (fun f => f.acc == .wo)).foldl (fun x f => setBits x f.hi f.lo 0) (s.word0 a)

/-- The machine as it stood at the start of the cycle, as far as reads show it (R11). -/
def State.start (s : State) : State :=
  let z := s.arch.at0
  { s with
    regs := s.regs0, mem := z.mem, aq := z.aq, du := z.du, cl := z.cl, vis := z.vis, ic := z.ic, hall := z.hall, ds := z.ds
    pb := z.pb, ev := z.ev, lg := z.lg, ks := z.ks }

/-- The machine with memory as the cycle found it, as lanes read it (R241). -/
def State.old (s : State) : State := { s with mem := s.arch.at0.mem }

/-! ### Free values -/

/-- Draw a fresh free value. -/
def State.fresh (s : State) : Nat × State := (Config.freeValue s.free, { s with free := s.free + 1 })

/-! ### Requesters, seats and write access (R398) -/

/-- The seat for which a requester acts, 0xF for none (R398, R485). -/
def State.seat (s : State) : Requester → Nat
  | .core c => s.rd0 (OW_ACT_SEAT.i c)
  | .pf0 => 0
  | .twin => 1
  | .debug => 7
  | .vf _ => 0xF
  | .loader => 0xF

/-- A steward core acting as itself; the boot loader writes with the same standing (R439). -/
def State.asCore (s : State) (r : Requester) : Bool :=
  match r with
  | .core c => s.rd0 (OW_ACT_SEAT.i c) == 0xF
  | .loader => true
  | _ => false

/-- The owner seat (R399: access holds from the cycle after the claim). -/
def State.isOwner (s : State) (r : Requester) : Bool :=
  s.seat r != 0xF && s.seat r == s.rd0 OW_STATUS_OWNER

/-- A steward core acting as itself, or the owner seat. -/
def State.mayWrite (s : State) (r : Requester) : Bool := s.asCore r || s.isOwner r

/-- The index of a requester's latches and snapshots (R48): four cores, host port, twin link; the debug port takes a
further one. -/
def rqIndex : Requester → Nat
  | .core c => c
  | .pf0 => 4
  | .twin => 5
  | .debug => 6
  | .vf _ => 7
  | .loader => 7

/-! ### Events (R484–R487) and records (R354) -/

/-- Source `es` is deliverable (R486). -/
def State.deliverable (s : State) (es : Nat) : Bool :=
  bit (s.word (0x30010 + es / 32 * 4)) (es % 32) && !bit (s.word (0x30030 + es / 32 * 4)) (es % 32)

/-- Source `es` has been raised or made deliverable in this cycle (R487). -/
def State.makeDue (s : State) (es : Nat) : State :=
  if s.ic.raised.contains es then s else { s with ic := { s.ic with raised := s.ic.raised ++ [es] } }

/-- Source `es` is deliverable and routed to PF0, and delivery is enabled. -/
def State.toPf (s : State) (es : Nat) : Bool := s.deliverable es && s.on IC_CTRL_EN && s.on (IC_ROUTE_PF_EN.i es)

/-- As the cycle ends, the MSI-X messages of its raised sources become due for the next, each merging with one of its vector that is
not yet sent (R487). -/
def State.msixCycle (s : State) : State :=
  let vs := (s.ic.raised.filter s.toPf).map (fun es => s.rd (IC_ROUTE_PF_VEC.i es))
  { s with ic := { s.ic with raised := [], due := vs.foldl (fun l v => if l.contains v then l else l ++ [v]) s.ic.due } }

/-- Raise event source `es` (R484, R486). -/
def State.raise (s : State) (es : Nat) : State :=
  (s.setBitsEv (0x30010 + es / 32 * 4) (2 ^ (es % 32))).makeDue es

/-- Set an event flag and raise its block's source. -/
def State.event (s : State) (f : Fld) (es : Nat) : State := (s.flag f).raise es

/-- Event sources of the blocks (R484). -/
def ES_PM : Nat := 0
def ES_OW : Nat := 1
def ES_IC : Nat := 2
def ES_HC : Nat := 3
def ES_CL : Nat := 4
def ES_KS : Nat := 5
def ES_EV : Nat := 6
def ES_TG : Nat := 7
def ES_HL : Nat := 8
def ES_SB : Nat := 9
def ES_AL : Nat := 10
def ES_DS : Nat := 11
def ES_LG : Nat := 12
def ES_PB : Nat := 13
def ES_AQ : Nat := 14
def ES_DU : Nat := 15
def ES_PR : Nat := 16

/-- The port event of port `n`. -/
def ES_PT (n : Nat) : Nat := 32 + n

/-- Virtual function of instance `v`, and its replacement. -/
def State.vf (s : State) (v : Nat) : Vf := agetD s.vis.vf v {}
def State.setVf (s : State) (v : Nat) (f : Vf) : State := { s with vis := { s.vis with vf := aput s.vis.vf v f } }

/-- Instance `v` beside its registers, and its replacement. -/
def State.vi (s : State) (v : Nat) : Vi := agetD s.vis.vi v {}
def State.setVi (s : State) (v : Nat) (x : Vi) : State := { s with vis := { s.vis with vi := aput s.vis.vi v x } }

/-- Whether vector `k` of a function is held: by its mask, the Function Mask or Bus Master Enable (R376). -/
def Vf.holds (f : Vf) (k : Nat) : Bool := !f.bme || f.fmask || (agetD f.table k {}).mask

/-- Vector `k` is sent. -/
def Vf.send (f : Vf) (k : Nat) : Vf := { f with sent := aput f.sent k (agetD f.sent k 0 + 1) }

/-- Send the vectors that were held as pending and no longer are (R376). -/
def Vf.release (f : Vf) : Vf :=
  f.pend.foldl (fun (g : Vf) k => if f.holds k then g else g.send k) { f with pend := f.pend.filter f.holds }

/-- Vector `k` of the virtual function of instance `v`: sent, or held as pending (R376, R487). -/
def State.vfVector (s : State) (v k : Nat) : State :=
  let f := s.vf v
  if s.vis.numVfs ≤ v then s
  else if !f.holds k then s.setVf v (f.send k)
  else if f.pend.contains k then s else s.setVf v { f with pend := f.pend ++ [k] }

/-- Set an event bit of instance `v` and raise its instance event (R405, R484). -/
def State.viEvent (s : State) (f : Fld) (v : Nat) : State :=
  (((s.flag (f.p v)).setBitsEv (0x30800 + v / 32 * 4) (2 ^ (v % 32))).raise (96 + v / 8)).vfVector v 3

/-- Raise the mailbox event of instance `v` toward PF0 (R379, R484). -/
def State.mbEvent (s : State) (v : Nat) : State :=
  (s.setBitsEv (0x30840 + v / 32 * 4) (2 ^ (v % 32))).raise (160 + v / 8)

/-- Request an event record (R354); the entry queue takes it with EVENT_REQUEST. -/
def State.record (s : State) (src code data : Nat) : State :=
  { s with recReqs := s.recReqs ++ [{ src := src, code := code, data := data, stamp := none, cyc := s.cyc }] }

/-- Request an event record with a stamp of its source (R351). -/
def State.recordAt (s : State) (src code data sec ns : Nat) : State :=
  { s with recReqs := s.recReqs ++
      [{ src := src, code := code, data := data, stamp := some (sec, ns), cyc := s.cyc }] }

/-- The hardware requester code of an access-error log entry (R485). -/
def reqCode : Requester → Nat
  | .core c => c
  | .pf0 => 4
  | .twin => 5
  | .vf _ => 6
  | .debug => 7
  | .loader => 0

/-- Log, count and raise an access error (R485): kind 1 unassigned offset, 2 dark page, 3 unassigned address, 4 crypto field
with PD11 dark. -/
def State.accessError (s : State) (r : Requester) (addr : Nat) (write : Bool) (kind : Nat) : State :=
  let s1 :=
    if s.on IC_ACC_INFO_VALID then s
    else
      ((((((s.wr IC_ACC_ADDR_LO_ADDR_LO addr).wr IC_ACC_ADDR_HI_ADDR_HI (addr / 2 ^ 32)).wr IC_ACC_INFO_WRITE
        (b2n write)).wr IC_ACC_INFO_SEAT (s.seat r)).wr IC_ACC_INFO_REQ (reqCode r)).wr IC_ACC_INFO_KIND kind).flag
        IC_ACC_INFO_VALID
  (s1.inc IC_G_ACC_ERR).raise ES_IC

/-! ### Completions (R10, R34, R456) -/

/-- Queue a message of the pair controller. -/
def State.twinQueue (s : State) (m : TwinOut) : State := { s with pr := { s.pr with out := s.pr.out ++ [m] } }

/-- An access completes. One that the partner made is answered with REG_RSP, whose status the spec does not state and whose
data is stated for a read only (log entry 5). -/
def State.complete (s : State) (c : Completion) (read : Bool) : State :=
  let t := { s with bus := some c }
  if c.req = .twin then
    let (st, t) := t.fresh
    let (d, t) := t.fresh
    let body := leBytes 1 st ++ leBytes 7 0 ++ leBytes 4 (if read then c.data else d)
    t.twinQueue { due := t.cyc, kind := 0x0C, payload := body }
  else t

/-! ### Time -/

/-- One nanosecond, microsecond, millisecond and second in accumulator units (R40). -/
def uNs : Nat := 2 ^ 40
def uUs : Nat := 1000 * 2 ^ 40
def uMs : Nat := 1000000 * 2 ^ 40
def uS : Nat := 1000000000 * 2 ^ 40

/-- One stamp unit (2⁻¹⁶ ns) in accumulator units. -/
def uSt : Nat := 2 ^ 24

/-- Time base `b`. -/
def State.tb (s : State) (b : Nat) : TimeBase := agetD s.clk.tb b {}

/-- Replace time base `b`. -/
def State.setTb (s : State) (b : Nat) (t : TimeBase) : State :=
  { s with clk := { s.clk with tb := aput s.clk.tb b t } }

/-- The governing base of this cycle (R44, R46). -/
def State.gov (s : State) : Nat := s.rd0 HC_CTRL_GOV

/-- The governing base's value at the start of the cycle. -/
def State.now (s : State) : Nat := (s.tb s.gov).val

/-- The same as a stamp. -/
def State.nowStamp (s : State) : Nat := s.now / uSt

/-- Seconds, nanoseconds and fraction of a stamp (R55). -/
def stampSec (t : Nat) : Nat := t / (65536 * 1000000000)
def stampNs (t : Nat) : Nat := t / 65536 % 1000000000
def stampFrac (t : Nat) : Nat := t % 65536

/-- The 12-byte layout of a stamp of base `b` in module memory (R55). -/
def stampBytes (b t : Nat) : List Byte :=
  leBytes 6 (stampSec t) ++ leBytes 4 (stampNs t + b * 2 ^ 30) ++ leBytes 2 (stampFrac t)

/-- The representation of grid tick `g` (R21, R160), in accumulator units. -/
def tickRep (g : Nat) : Nat :=
  let n := g % 4800
  let ofs := if n % 3 = 0 then 0 else if n % 3 = 1 then 208333 * 65536 + 0x5555 else 416666 * 65536 + 0xAAAB
  (g / 4800 * 1000000000 + n / 3 * 625000) * uNs + ofs * uSt

/-- The first grid tick whose representation is at or after the value `v`. -/
def firstTickAt (v : Nat) : Nat :=
  let g := v / uS * 4800 + (v % uS) * 4800 / uS
  if v ≤ tickRep (g - 1) then g - 1 else if v ≤ tickRep g then g else if v ≤ tickRep (g + 1) then g + 1 else g + 2

/-- Number of grid ticks whose representation lies at or before the value `v`. -/
def ticksUpTo (v : Nat) : Nat := firstTickAt (v + 1)

/-- Grid number of the last tick raised, zero before the first. -/
def State.tickG (s : State) : Nat :=
  match s.clk.lastTick with
  | some (g, _, _) => g
  | none => 0

/-- Cycle of the current tick: CK_M cycles since its tick-start event (R23). -/
def State.tickCy (s : State) : Nat :=
  match s.clk.lastTick with
  | some (_, c, _) => s.cyc - c
  | none => s.cyc

/-- The power state of a domain (R446): 0 DARK, 1 ON, 2 DORMANT, 3 FAILED. -/
def State.dom (s : State) (d : Nat) : Nat := bits (s.word PM_DOMAIN_PD0.addr) (2 * d + 1) (2 * d)

/-- Set the power state of a domain. -/
def State.setDom (s : State) (d v : Nat) : State :=
  s.put PM_DOMAIN_PD0.addr (setBits (s.word PM_DOMAIN_PD0.addr) (2 * d + 1) (2 * d) v)

/-- Domain `d` is ON and service has not stopped: its lanes, engines and ports work (R26, R490). -/
def State.runs (s : State) (d : Nat) : Bool := s.dom d == 1 && !s.on IC_STATUS_FATAL

/-- What an engine of domain `d` does; nothing while it does not work. -/
def whileOn (d : Nat) (s : State) (o : Host.Outcome State Fault Refusal) : Host.Outcome State Fault Refusal :=
  if s.runs d then o else .next s

/-! ### Settling of acquisition (R198) -/

/-- Acquisition channel `c` beside its registers, and its replacement. -/
def State.aqCh (s : State) (c : Nat) : AqCh := agetD s.aq.ch c {}
def State.setAqCh (s : State) (c : Nat) (x : AqCh) : State := { s with aq := { s.aq with ch := aput s.aq.ch c x } }

/-- A settling count of `n` samples begins under `cause`; the conditions of R197 tell OVERLOAD and CLAMP from the other causes, so
each of the three has its own count (R198). -/
def AqCh.mark (x : AqCh) (cause n : Nat) : AqCh :=
  if cause = 5 then { x with leftOvl := n } else if cause = 6 then { x with leftClamp := n } else { x with left := n }

/-- A channel is under a settling condition. -/
def AqCh.settling (x : AqCh) : Bool := decide (0 < x.left) || decide (0 < x.leftOvl) || decide (0 < x.leftClamp)

/-- Settle cause `cause` marks channel `c`: its settling count starts afresh (R198). -/
def State.settle (s : State) (c cause : Nat) : State :=
  (s.setAqCh c ((s.aqCh c).mark cause (s.rd (AQ_BANK_SETTLE.i (c / 8))))).wr (AQ_CH_CAUSE.i c) cause

/-- Settle cause `cause` marks every enabled channel among `cs` (R198). -/
def State.settleAll (s : State) (cs : List Nat) (cause : Nat) : State :=
  cs.foldl (fun (t : State) c => if t.on (AQ_CH_EN.i c) then t.settle c cause else t) s

/-! ### Memory (R31, R33) -/

/-- What a byte of the map that nothing has written reads as (log entry 3). -/
def memBlank : Byte := 0

/-- One byte of the map. -/
def State.memByte (s : State) (a : Nat) : Byte := agetD s.mem a memBlank

/-- Write one byte of the map. -/
def State.setByte (s : State) (a : Nat) (v : Byte) : State := { s with mem := cput memBlank s.mem a v }

/-- `n` bytes from address `a`. -/
def State.load (s : State) (a n : Nat) : List Byte := (List.range n).map (fun i => s.memByte (a + i))

/-- A span of memory holds a word lost to an uncorrectable error (R489). -/
def State.badSpan (s : State) (a n : Nat) : Bool :=
  s.ic.badWords.any (fun w => decide (w < a + n) && decide (a < w + 8))

/-- Store bytes from address `a` on. A rewritten word is correctable again (R489). -/
def State.store (s : State) (a : Nat) : List Byte → State
  | [] => s
  | v :: t => State.store { s.setByte a v with ic := { s.ic with badWords := s.ic.badWords.erase (a / 8 * 8) } } (a + 1) t

/-- Little-endian number of `n` bytes at address `a`. -/
def State.loadN (s : State) (a n : Nat) : Nat := leNat (s.load a n)

/-- Store the low `n` bytes of `x` at address `a`, little-endian. -/
def State.storeN (s : State) (a n x : Nat) : State := s.store a (leBytes n x)

/-- Whether cluster `c` is fenced (R30, R441). -/
def State.fenced (s : State) (c : Nat) : Bool := bit (s.rd PM_FENCE_FENCE) c

/-- Whether an address lies in the SRAM of a fenced cluster (R30, R33). -/
def State.fencedAt (s : State) (a : Nat) : Bool :=
  decide (0x0300000000 ≤ a) && decide (a < 0x0302000000) && s.fenced ((a - 0x0300000000) / 0x100000)

/-- What an engine reads from the map, and writes to it: the lanes and the shared SRAM of a fenced cluster read 0 and discard
(R30). -/
def State.mapLoad (s : State) (a n : Nat) : List Byte := if s.fencedAt a then List.replicate n 0 else s.load a n
def State.mapStore (s : State) (a : Nat) (l : List Byte) : State := if s.fencedAt a then s else s.store a l

/-- The Memory invariant: addresses strictly rising, no entry equal to what an unlisted byte reads as. -/
abbrev Memory.wf (m : List Host.Cell) : Bool := canonical (fun _ => memBlank) m

/-- One byte of the NOR flash; an erased byte reads 0xFF. -/
def State.nvmByte (s : State) (a : Nat) : Byte := agetD s.nvm a 0xFF

/-- `n` bytes of the NOR flash. -/
def State.nvmLoad (s : State) (a n : Nat) : List Byte := (List.range n).map (fun i => s.nvmByte (a + i))

/-- Program bytes of the NOR flash (erase writes 0xFF). -/
def State.nvmStore (s : State) (a : Nat) : List Byte → State
  | [] => s
  | v :: t => State.nvmStore { s with nvm := cput 0xFF s.nvm a v } (a + 1) t

/-- Base addresses of the map (R33). -/
def addrBoot : Nat := 0x01FC000000
def addrCluster (c : Nat) : Nat := 0x0300000000 + c * 0x100000
def addrLane (l : Nat) : Nat := 0x0300080000 + l / 8 * 0x100000 + l % 8 * 0x10000
def addrPantry : Nat := 0x0400000000
def addrRegs : Nat := 0x0F00000000

end Sys2Proof.Machine
end

