-- ==== Sys2Proof/Machine/Frames.lean ====
section
/-!
DEFINITION. Frames as octets: the checks (FCS, CRC-32C of R139, CRC-16 of R87), the Ethernet header with its tags (R61,
R111), the PRP trailer and HSR tag (R130–R132), and the sampled-value and GOOSE protocol data units (R143, R145), whose
element tags are those of IEC 61850-9-2 and IEC 61850-8-1 (R14; log entry 7).
-/
namespace Sys2Proof.Machine

/-! ### Check codes -/

/-- One octet through a reflected CRC of 32 bits. -/
def crcReflStep (poly : Nat) : Nat → Nat → Nat
  | 0, c => c
  | k + 1, c => crcReflStep poly k (if c % 2 = 1 then (c / 2) ^^^ poly else c / 2)

/-- A reflected 32-bit CRC, initial value and final XOR all ones. -/
def crcRefl (poly : Nat) (l : List Byte) : Nat :=
  (l.foldl (fun c b => crcReflStep poly 8 (c ^^^ b.toNat)) 0xFFFFFFFF) ^^^ 0xFFFFFFFF

/-- CRC-32C of R139: polynomial 0x1EDC_6F41, reflected. -/
def crc32c (l : List Byte) : Nat := crcRefl 0x82F63B78 l

/-- The Ethernet frame check sequence. -/
def crc32 (l : List Byte) : Nat := crcRefl 0xEDB88320 l

/-- The FCS octets of a frame, as sent. -/
def fcsOf (l : List Byte) : List Byte := leBytes 4 (crc32 l)

/-- The stomped FCS: the ones' complement of the CRC over the bytes sent (R116). -/
def stompedFcs (l : List Byte) : List Byte := leBytes 4 (0xFFFFFFFF - crc32 l)

/-- The mCRC of a fragment that does not end its frame: the check over the frame's octets so far with its last two octets inverted
(IEEE 802.3 frame preemption; PRESUMED, log entry 93). -/
def mcrcOf (l : List Byte) : List Byte := leBytes 4 (crc32 l ^^^ 0xFFFF0000)

/-- Bits of a CRC-16 with polynomial 0x1021, not reflected. -/
def crc16Step : Nat → Nat → Nat
  | 0, c => c
  | k + 1, c => crc16Step k (if c / 32768 % 2 = 1 then ((c * 2) % 65536) ^^^ 0x1021 else (c * 2) % 65536)

/-- CRC-16 of R87: initial value 0xFFFF, no reflection, no final XOR. -/
def crc16 (l : List Byte) : Nat := l.foldl (fun c b => crc16Step 8 (c ^^^ (b.toNat * 256))) 0xFFFF

/-! ### The Ethernet header -/

/-- What the header of a frame carries. -/
structure Header where
  dst : Nat
  src : Nat
  /-- 802.1Q tags, outer first: PCP and VID. -/
  tags : List (Nat × Nat)
  /-- Sequence number of an HSR tag. -/
  hsr : Option Nat
  /-- Octet offset of the HSR tag. -/
  hsrAt : Nat
  etype : Nat
  /-- Octet offset of what follows the EtherType. -/
  payload : Nat
deriving DecidableEq, Repr

/-- Read tags and the EtherType from octet offset `o` on: up to two 802.1Q tags and one HSR tag (R61, R139). -/
def readTags (l : List Byte) : Nat → Nat → Header → Header
  | 0, o, h => { h with etype := beAt l o 2, payload := o + 2 }
  | k + 1, o, h =>
    let t := beAt l o 2
    if (t = 0x8100 ∨ t = 0x88A8) ∧ h.tags.length < 2 then
      let c := beAt l (o + 2) 2
      readTags l k (o + 4) { h with tags := h.tags ++ [(c / 8192, c % 4096)] }
    else if t = 0x892F ∧ h.hsr.isNone then readTags l k (o + 6) { h with hsr := some (beAt l (o + 4) 2), hsrAt := o }
    else { h with etype := t, payload := o + 2 }

/-- The header of a frame given from its destination address, without FCS. -/
def header (l : List Byte) : Header :=
  readTags l 3 12 { dst := beAt l 0 6, src := beAt l 6 6, tags := [], hsr := none, hsrAt := 0, etype := 0, payload := 14 }

/-- The LSDU size of a frame carrying `n` 802.1Q tags, redundancy octets included (IEC 62439-3). -/
def lsduSize (len n : Nat) : Nat := len - 14 - 4 * n

/-- The sequence number of a valid PRP redundancy control trailer: suffix 0x88FB, LAN identifier 0xA or 0xB and the LSDU
size of the frame. -/
def prpTrailer (l : List Byte) : Option Nat :=
  let n := l.length
  let w := beAt l (n - 4) 2
  if 20 ≤ n ∧ beAt l (n - 2) 2 = 0x88FB ∧ (w / 4096 = 0xA ∨ w / 4096 = 0xB) ∧ w % 4096 = lsduSize n (header l).tags.length
  then some (beAt l (n - 6) 2) else none

/-- A multicast or broadcast address. -/
def isGroup (mac : Nat) : Bool := bit mac 40

/-- A PTP event message (R61): EtherType 0x88F7, versionPTP 2, messageType 0 to 3. -/
def ptpType (l : List Byte) : Option Nat :=
  let h := header l
  let t := beAt l h.payload 1 % 16
  if h.etype = 0x88F7 ∧ beAt l (h.payload + 1) 1 % 16 = 2 ∧ t ≤ 3 then some t else none

/-- The type of a PTP message of version 2, event message or not (R61, R63). -/
def ptpMessage (l : List Byte) : Option Nat :=
  let h := header l
  if h.etype = 0x88F7 ∧ beAt l (h.payload + 1) 1 % 16 = 2 then some (beAt l h.payload 1 % 16) else none

/-! ### Reassembly (R86) -/

/-- Continue a frame of frame count `f` whose octets so far are `done` with the fragments that follow, the next of fragment count
`k`: none where one is not its continuation, is out of sequence, has a wrong mCRC, or the frame never ends. -/
def joinPackets (f : Fin 4) : List Byte → Fin 4 → List Packet → Option (List Byte)
  | _, _, [] => none
  | done, k, m :: ms =>
    let d := m.octets.take (m.octets.length - 4)
    if m.kind ≠ .cont f k then none
    else if m.final then (if ms.isEmpty then some (done ++ m.octets) else none)
    else if mcrcOf (done ++ d) ≠ m.octets.drop (m.octets.length - 4) then none
    else joinPackets f (done ++ d) (k + 1) ms

/-- The octets of a received frame through its FCS; none where its reassembly fails (R86): a continuation without a start, a count
out of sequence, a start after an incomplete frame, or a wrong mCRC. -/
def assemble (rx : RxFrame) : Option (List Byte) :=
  let d := rx.first.octets.take (rx.first.octets.length - 4)
  match rx.first.kind with
  | .whole => some rx.first.octets
  | .cont _ _ => none
  | .start f =>
    if rx.first.final then (if rx.more.isEmpty then some rx.first.octets else none)
    else if mcrcOf d ≠ rx.first.octets.drop (rx.first.octets.length - 4) then none
    else joinPackets f d 0 rx.more

/-- The continuation fragments among the packets of a frame (R103, FRAG_RX). -/
def conts (rx : RxFrame) : List Packet :=
  (rx.first :: rx.more).filter (fun m => match m.kind with
    | .cont _ _ => true
    | _ => false)

/-- First frame octet and start of each continuation fragment, from `n` octets on. -/
def fragStarts : Nat → List Packet → List (Nat × Nat)
  | _, [] => []
  | n, m :: ms => (n, m.after) :: fragStarts (n + (m.octets.length - 4)) ms

/-! ### Basic encoding rules -/

/-- One element of a BER encoding: tag octet, value octets and the offset of the value in the octets it was read from. -/
structure Tlv where
  tag : Nat
  val : List Byte
  /-- Octets of tag and length. -/
  hd : Nat
deriving DecidableEq, Repr

/-- The element at the head of `l` and what follows it. -/
def tlv (l : List Byte) : Option (Tlv × List Byte) :=
  match l with
  | t :: n :: rest =>
    let k := n.toNat
    if k < 128 then
      if k ≤ rest.length then some (⟨t.toNat, rest.take k, 2⟩, rest.drop k) else none
    else
      let m := k - 128
      if m = 0 ∨ 3 < m ∨ rest.length < m then none
      else
        let k := beNat (rest.take m)
        if m + k ≤ rest.length then some (⟨t.toNat, (rest.drop m).take k, 2 + m⟩, rest.drop (m + k)) else none
  | _ => none

/-- The elements of a sequence, in order; none where an element runs past the end. -/
def tlvs : Nat → List Byte → Option (List Tlv)
  | 0, _ => none
  | k + 1, l =>
    if l.isEmpty then some []
    else
      match tlv l with
      | none => none
      | some (e, rest) => (tlvs k rest).map (fun t => e :: t)

/-- The elements of a sequence. -/
def elems (l : List Byte) : Option (List Tlv) := tlvs (l.length + 1) l

/-- The first element with a tag. -/
def pick (l : List Tlv) (tag : Nat) : Option (List Byte) := (l.find? (fun e => e.tag == tag)).map (fun e => e.val)

/-- A big-endian two's-complement number. -/
def beInt (l : List Byte) : Int := sext (8 * l.length) (beNat l)

/-! ### Sampled values (R143) and GOOSE (R145) -/

/-- APPID, simulation bit and extension length of an SV or GOOSE frame, and its PDU octets (R138, R152). -/
def appid (l : List Byte) : Nat := beAt l (header l).payload 2
def simBit (l : List Byte) : Bool := decide (0x8000 ≤ beAt l ((header l).payload + 4) 2)
def extLen (l : List Byte) : Nat := beAt l ((header l).payload + 4) 2 % 256
def pduOctets (l : List Byte) : List Byte := l.drop ((header l).payload + 8)

/-- One ASDU of an SV frame. -/
structure Asdu where
  svId : Option (List Byte)
  smpCnt : Option Nat
  confRev : Option Nat
  smpSynch : Option Nat
  smpRate : Option Nat
  smpMod : Option Nat
  seqData : Option (List Byte)
deriving DecidableEq, Repr

/-- An SV PDU: noASDU and the ASDUs. -/
structure SvPdu where
  noAsdu : Nat
  asdus : List Asdu
deriving DecidableEq, Repr

/-- Read one ASDU. -/
def asduOf (l : List Byte) : Option Asdu :=
  (elems l).map fun es =>
    { svId := pick es 0x80, smpCnt := (pick es 0x82).map beNat, confRev := (pick es 0x83).map beNat,
      smpSynch := (pick es 0x85).map beNat, smpRate := (pick es 0x86).map beNat, seqData := pick es 0x87,
      smpMod := (pick es 0x88).map beNat }

/-- Read the SV PDU of a frame. -/
def svPdu (l : List Byte) : Option SvPdu :=
  match tlv (pduOctets l) with
  | some (e, _) =>
    if e.tag = 0x60 then
      match elems e.val with
      | none => none
      | some es =>
        match pick es 0x80, pick es 0xA2 with
        | some n, some q =>
          match elems q with
          | none => none
          | some as => (as.mapM (fun a => if a.tag = 0x30 then asduOf a.val else none)).map (fun r => ⟨beNat n, r⟩)
        | _, _ => none
    else none
  | none => none

/-- A leaf of allData: the element tag and its octets. -/
structure Leaf where
  tag : Nat
  val : List Byte
deriving DecidableEq, Repr

/-- Flatten data depth-first; structure and array wrappers take no position, and no more than `d` of them nest (R145). -/
def flatten : Nat → Nat → List Byte → Option (List Leaf)
  | 0, _, _ => none
  | fuel + 1, d, l =>
    if l.isEmpty then some []
    else
      match tlv l with
      | none => none
      | some (e, rest) =>
        let here : Option (List Leaf) :=
          if e.tag = 0xA1 ∨ e.tag = 0xA2 then (match d with
            | 0 => none
            | d + 1 => flatten fuel d e.val)
          else some [⟨e.tag, e.val⟩]
        match here, flatten fuel d rest with
        | some a, some b => some (a ++ b)
        | _, _ => none

/-- A GOOSE PDU. -/
structure GoosePdu where
  gocbRef : List Byte
  tal : Nat
  goId : List Byte
  stNum : Nat
  sqNum : Nat
  sim : Bool
  confRev : Nat
  /-- Leaves of allData; none where the dataset is deeper than 4 levels or longer than 255 leaves. -/
  leaves : Option (List Leaf)
deriving DecidableEq, Repr

/-- Read the GOOSE PDU of a frame. -/
def goosePdu (l : List Byte) : Option GoosePdu :=
  match tlv (pduOctets l) with
  | some (e, _) =>
    if e.tag = 0x61 then
      match elems e.val with
      | none => none
      | some es =>
        let num := fun t => ((pick es t).map beNat).getD 0
        let all := (pick es 0xAB).getD []
        let lv := match flatten (all.length + 1) 4 all with
          | some v => if v.length ≤ 255 then some v else none
          | none => none
        some { gocbRef := (pick es 0x80).getD [], tal := num 0x81, goId := (pick es 0x83).getD [], stNum := num 0x85,
               sqNum := num 0x86, sim := num 0x87 != 0, confRev := num 0x88, leaves := lv }
    else none
  | none => none

/-! ### The identity string within the lookup window (R139) -/

/-- Scan the elements of a PDU for one of tag `t`, stepping into constructed elements of the given tags; answers the value
and the offset just past it. `o` is the offset of the octets in the frame. -/
def scanFor : Nat → Nat → List Nat → Nat → List Byte → Option (List Byte × Nat)
  | 0, _, _, _, _ => none
  | fuel + 1, t, inside, o, l =>
    match l with
    | tb :: n :: rest =>
      let k := n.toNat
      let m := if k < 128 then 0 else k - 128
      let len := if k < 128 then k else beNat (rest.take m)
      let body := rest.drop m
      if tb.toNat = t ∧ inside.isEmpty then
        if len ≤ body.length then some (body.take len, o + 2 + m + len) else none
      else
        match inside with
        | c :: more =>
          if tb.toNat = c then scanFor fuel t more (o + 2 + m) (body.take len)
          else scanFor fuel t inside (o + 2 + m + len) (body.drop len)
        | [] => scanFor fuel t [] (o + 2 + m + len) (body.drop len)
    | _ => none

/-- The identity string of a frame: the first svID, or goID; none when it does not end within the lookup window of 128
octets. -/
def identity (l : List Byte) (goose : Bool) : Option (List Byte) :=
  let w := l.take 128
  let o := (header l).payload + 8
  let r := if goose then scanFor 64 0x83 [0x61] o (w.drop o) else scanFor 64 0x80 [0x60, 0xA2, 0x30] o (w.drop o)
  match r with
  | some (v, e) => if e ≤ 128 then some v else none
  | none => none

end Sys2Proof.Machine
end

