-- ==== Sys2Proof/Machine/Hall.lean ====
section
/-!
DEFINITION. The Hall's frames, queues, cells and admission (04_hall_and_larder.md R106, R107, R118–R121, R124–R128), and
the port facts that the Hall and the Porch share (R69, R78, R92).
-/
namespace Sys2Proof.Machine

/-! ### Port facts -/

/-- Index of the internal ports (R69). -/
def pI0 : Nat := 19
def pI1 : Nat := 20
def pI2 : Nat := 21

/-- Port `n` beside its registers. -/
def State.port (s : State) (n : Nat) : Port := agetD s.ports.port n {}

/-- Replace port `n`. -/
def State.setPort (s : State) (n : Nat) (p : Port) : State :=
  { s with ports := { s.ports with port := aput s.ports.port n p } }

/-- Link state (R92): 0 OFF, 1 DOWN, 2 UP, 3 DORMANT. -/
def State.link (s : State) (n : Nat) : Nat := s.rd (PT_STATUS_STATE.p n)

/-- Line rate in Gb/s: 25, 10 or 1 (R69, R283); internal ports count at 25 (R105). -/
def State.rate (s : State) (n : Nat) : Nat :=
  if 19 ≤ n then 25
  else match s.rd (PT_CTRL_MODE.p n) with
    | 0 => 25
    | 1 => 10
    | _ => 1

/-- D_IN in ns (R72). -/
def dIn (rate : Nat) : Nat := if rate = 25 then 400 else if rate = 10 then 800 else 2400

/-- D_OUT in ns (R74). -/
def dOut (rate : Nat) : Nat := if rate = 25 then 320 else if rate = 10 then 640 else 1800

/-- Lmax of a port (R78). -/
def State.lmax (s : State) (n : Nat) : Nat :=
  if 19 ≤ n then 9216
  else match s.rd (PT_CTRL_MAXLEN.p n) with
    | 0 => 1518
    | 1 => 1522
    | 2 => 2048
    | _ => 9216

/-- The address of port `n`: bytes 0–1 in PT_MAC_HI, bytes 2–5 in PT_MAC_LO (R103). -/
def State.mac (s : State) (n : Nat) : Nat := s.rd (PT_MAC_HI_MAC_HI.p n) * 2 ^ 32 + s.rd (PT_MAC_LO_MAC_LO.p n)

/-- Count a frame of `len` octets that port `n` has accepted, or transmitted: the octet counters are of 64 bits (R77, R101). -/
def countRx (n len : Nat) (s : State) : State :=
  let t := s.incW (PT_C_RX_FRAMES.p n) 1
  let oct := t.rd (PT_C_RX_OCT_LO.p n) + t.rd (PT_C_RX_OCT_HI.p n) * 2 ^ 32 + len
  (t.wr (PT_C_RX_OCT_LO.p n) oct).wr (PT_C_RX_OCT_HI.p n) (oct / 2 ^ 32)
def countTx (n len : Nat) (s : State) : State :=
  let t := s.incW (PT_C_TX_FRAMES.p n) 1
  let oct := t.rd (PT_C_TX_OCT_LO.p n) + t.rd (PT_C_TX_OCT_HI.p n) * 2 ^ 32 + len
  (t.wr (PT_C_TX_OCT_LO.p n) oct).wr (PT_C_TX_OCT_HI.p n) (oct / 2 ^ 32)

/-- Set a port event bit and raise the port event (R102). -/
def State.ptEvent (s : State) (f : Fld) (n : Nat) : State := s.event (f.p n) (ES_PT n)

/-! ### Frames and queues -/

/-- Frame number `i` of the Hall. -/
def State.frame (s : State) (i : Nat) : Option Frame := aget s.hall.frames i

/-- Replace frame `i`. -/
def State.setFrame (s : State) (i : Nat) (f : Frame) : State :=
  { s with hall := { s.hall with frames := aput s.hall.frames i f } }

/-- Give a new frame its number. -/
def State.newFrame (s : State) (f : Frame) : Nat × State :=
  (s.hall.nextId, { s with hall := { s.hall with
    frames := aput s.hall.frames s.hall.nextId f, nextId := s.hall.nextId + 1 } })

/-- The queue of port `n` and class `c`: frame numbers in order of admission. -/
def State.queue (s : State) (n c : Nat) : List Nat := agetD s.hall.queues (n * 8 + c) []

/-- Replace a queue. -/
def State.setQueue (s : State) (n c : Nat) (q : List Nat) : State :=
  { s with hall := { s.hall with queues := if q.isEmpty then adel s.hall.queues (n * 8 + c) else aput s.hall.queues (n * 8 + c) q } }

/-- Cells of a queue (R118) and free cells (R107), which their registers show. -/
def State.qCells (s : State) (n c : Nat) : Nat := s.rd (HL_QUEUE_CELLS.i (n * 8 + c))
def State.freeCells (s : State) : Nat := s.rd HL_STATUS_FREE

/-- Cells of a frame of a given length (R106). -/
def cellsOf (len : Nat) : Nat := ceilDiv len 256

/-- Add cells to a queue, or take them from it. -/
def State.qAdd (s : State) (n c k : Nat) : State := s.wr (HL_QUEUE_CELLS.i (n * 8 + c)) (s.qCells n c + k)
def State.qSub (s : State) (n c k : Nat) : State := s.wr (HL_QUEUE_CELLS.i (n * 8 + c)) (s.qCells n c - k)

/-- Return a frame's cells once its last copy has gone (R120), and forget it once its last byte has been written too; its share
of its instance falls (R390). -/
def State.retire (s : State) (i : Nat) : State :=
  match s.frame i with
  | none => s
  | some f =>
    if f.copies.isEmpty then
      let t := s.wr HL_STATUS_FREE (s.freeCells + f.cells)
      let t := match f.vi with
        | some v => t.wr (VI_HELD_HELD.p v) (t.rd (VI_HELD_HELD.p v) - f.cells)
        | none => t
      if f.complete then { t with hall := { t.hall with frames := adel t.hall.frames i } }
      else t.setFrame i { f with cells := 0 }
    else s

/-- A grant of cut-through to frame `i` on port `n` lapses. -/
def State.dropGrant (s : State) (i n : Nat) : State :=
  if (s.port n).grants.any (fun g => g.1 == i) then
    s.setPort n { s.port n with grants := (s.port n).grants.filter (fun g => g.1 != i) }
  else s

/-- A copy has been sent or dropped: it leaves its queue with its cells (R120), and a grant that it held lapses. -/
def State.endCopy (s : State) (i n c : Nat) : State :=
  match s.frame i with
  | none => s
  | some f =>
    let t := ((s.setQueue n c ((s.queue n c).filter (· != i))).qSub n c f.cells).dropGrant i n
    (t.setFrame i { f with copies := f.copies.erase (n, c) }).retire i

/-- Whether frame `i` is in transmission on port `n`. -/
def State.onWire (s : State) (n i : Nat) : Bool := (s.port n).txFrame == some i || (s.port n).expFrame == some i

/-- The frame that stands at the head of a queue: the first that is not in transmission. -/
def State.head (s : State) (n c : Nat) : Option Nat := (s.queue n c).find? (fun i => !s.onWire n i)

/-- Flush a port's eight queues, each frame counted in FLUSH (R127, R128). -/
def State.flushPort (s : State) (n : Nat) : State :=
  let all := (List.range 8).flatMap (fun c => (s.queue n c).map (fun i => (i, c)))
  let t := all.foldl (fun t p => (t.endCopy p.1 n p.2).inc (HL_P_FLUSH.i n)) s
  let t := t.setPort n { t.port n with grants := [] }
  if all.isEmpty then t else t.event HL_EVENT_FLUSH ES_HL

/-- A frame in transmission is lost and counted in TX_ABORT (R126, R128). -/
def State.abortTx (s : State) (n : Nat) : State :=
  let p := s.port n
  let lose := fun (t : State) (i : Option Nat) (busy : Nat) (c : Nat) =>
    match i with
    | none => t
    | some i => if s.cyc < busy then (t.endCopy i n c).inc (HL_P_TX_ABORT.i n) else t.endCopy i n c
  let t := lose s p.txFrame p.macBusy p.txCopy.1
  let t := lose t p.expFrame p.expBusy p.txCopy.2
  t.setPort n { t.port n with txFrame := none, expFrame := none, macBusy := s.cyc, expBusy := s.cyc }

/-- Copies whose transmission has ended by this cycle have been sent. -/
def State.finishTx (s : State) (n : Nat) : State :=
  let p := s.port n
  let t := match p.expFrame with
    | some i => if p.expBusy ≤ s.cyc then
        (s.endCopy i n p.txCopy.2).setPort n { p with expFrame := none } else s
    | none => s
  let p := t.port n
  match p.txFrame with
  | some i => if p.macBusy ≤ s.cyc then (t.endCopy i n p.txCopy.1).setPort n { p with txFrame := none } else t
  | none => t

/-! ### Admission (R118–R121) -/

/-- Whether a queue takes a copy: Q < α × F and F at least the reservation (R118, R119). -/
def State.takes (s : State) (n c resv : Nat) : Bool :=
  let code := bits (s.word HL_ALPHA_ALPHA_0.addr) (4 * c + 3) (4 * c)
  decide (s.qCells n c * 64 < 2 ^ code * s.freeCells) && decide (resv ≤ s.freeCells)

/-- Whether copies to a port are refused because it is OFF, or DOWN after its grace (R127, R128). -/
def State.shut (s : State) (n : Nat) : Bool :=
  decide (n < 19) && (s.link n == 0 || (s.link n == 1 && (s.port n).graceOver))

/-- Drop a copy at the head of its queue for the age or the generation of its frame (R124, R125). -/
def State.dropStale (s : State) (i n c : Nat) : State := (s.endCopy i n c).inc HL_G_GEN_DROP
def State.dropAged (s : State) (i n c : Nat) : State := ((s.endCopy i n c).inc (HL_P_LIFE_DROP.i n)).event HL_EVENT_LIFE ES_HL

/-- Decide the copies of frame `i` to the ports of `ps`, all against the free cells before its own reservation, and reserve
`resv` cells where at least one is admitted. Answers whether one was. -/
def State.admitFrame (s : State) (i : Nat) (ps : List Nat) (c resv : Nat) : Bool × State :=
  match s.frame i with
  | none => (false, s)
  | some f =>
    let yes := ps.filter (fun n => !s.shut n && s.takes n c resv)
    let no := ps.filter (fun n => !(!s.shut n && s.takes n c resv))
    let t := no.foldl (fun t n =>
      let t := if s.shut n then t.inc (HL_P_DOWN_DROP.i n) else (t.inc (HL_P_ADMIT_DROP.i n)).event HL_EVENT_ADMIT ES_HL
      if yes.isEmpty then t else t.inc (HL_P_MC_PARTIAL.i n)) s
    if yes.isEmpty then (false, t)
    else
      let t := yes.foldl (fun t n => (t.setQueue n c (t.queue n c ++ [i])).qAdd n c resv) t
      let t := t.wr HL_STATUS_FREE (t.freeCells - resv)
      (true, t.setFrame i { f with cells := resv, cls := c, copies := yes.map (fun n => (n, c)) })

/-! ### Lifetimes and generations (R124, R125) -/

/-- Whether the frame carries an instance's former generation (R125). -/
def State.stale (s : State) (f : Frame) : Bool :=
  match f.vi with
  | some v => f.gen != s.rd0 (VI_STATUS_GEN.p v)
  | none => false

/-- Whether a frame's age at stamp `t` exceeds the lifetime of its class (R124). -/
def State.expired (s : State) (f : Frame) (c t : Nat) : Bool :=
  let life := s.rd (HL_LIFE_LIFE_US.i c)
  life != 0 && decide (life * 1000 * 65536 < t - f.stamp)

/-- Examine the head of a queue, and the next frame in turn after each drop (R124, R125). -/
def examineQueue (n c : Nat) : Nat → State → State
  | 0, s => s
  | k + 1, s =>
    match s.head n c with
    | none => s
    | some i =>
      match s.frame i with
      | none => examineQueue n c k (s.setQueue n c ((s.queue n c).filter (· != i)))
      | some f =>
        if s.stale f then examineQueue n c k (s.dropStale i n c)
        else if s.expired f c s.nowStamp then examineQueue n c k (s.dropAged i n c)
        else s

/-- Examine the heads of a port's queues. -/
def State.examinePort (s : State) (n : Nat) : State :=
  (List.range 8).foldl (fun t c => examineQueue n c ((t.queue n c).length + 1) t) s

end Sys2Proof.Machine
end

