-- ==== Sys2Proof/Machine/Classify.lean ====
section
/-!
DEFINITION. The classification table and its lookup (R109, R137–R140), discovery records (R155) and the Vestibule (R156,
R157).
-/
namespace Sys2Proof.Machine

/-! ### Entry fields (R109, R137) -/

def eDst (b : List Byte) : Nat := beAt b 0 6
def eVidAny (b : List Byte) : Bool := bit (leAt b 6 2) 15
def eVid (b : List Byte) : Nat := leAt b 6 2 % 4096
def eEtype (b : List Byte) : Nat := leAt b 8 2
def eAppid (b : List Byte) : Nat := leAt b 10 2
def eHash (b : List Byte) : Nat := leAt b 12 4
def eValid (b : List Byte) : Bool := bit (leAt b 16 1) 7

/-- 0 none, 1 svID, 2 goID; 3 is treated as 0. -/
def eIdMode (b : List Byte) : Nat := bits (leAt b 16 1) 6 5 % 3

/-- 0 FORWARD, 1 SV, 2 GOOSE; 3 is treated as 0. -/
def eKind (b : List Byte) : Nat := bits (leAt b 16 1) 4 3 % 3
def eAppidAny (b : List Byte) : Bool := bit (leAt b 16 1) 2
def eRate (b : List Byte) : Nat := bits (leAt b 17 1) 7 5
def eNq (b : List Byte) : Nat := bits (leAt b 17 1) 4 2 + 1
def eGlobal (b : List Byte) : Bool := bit (leAt b 17 1) 1
def eTarget (b : List Byte) : Nat := leAt b 18 2 % 16384
def eConfRev (b : List Byte) : Nat := leAt b 20 4

/-- 0 none, 1 AES-GMAC, 2 HMAC-SHA256; 3 is treated as 0. -/
def eAuth (b : List Byte) : Nat := bits (leAt b 24 1) 7 6 % 3
def eRequire (b : List Byte) : Bool := bit (leAt b 24 1) 5
def eKeyCur (b : List Byte) : Nat := leAt b 25 1
def eKeyNext (b : List Byte) : Nat := leAt b 26 1
def eDepart (b : List Byte) : Nat := max 1 (leAt b 27 1)
def eMapBase (b : List Byte) : Nat := leAt b 28 2 % 32768
def eMapN (b : List Byte) : Nat := leAt b 30 1 % 128
def eNoAsdu (b : List Byte) : Nat := leAt b 31 1 % 16
def ePorts (b : List Byte) : Nat := leAt b 48 4 % 4194304
def eClassOvr (b : List Byte) : Bool := bit (leAt b 52 2) 15
def eClass (b : List Byte) : Nat := bits (leAt b 52 2) 14 12
def eCutDis (b : List Byte) : Bool := bit (leAt b 52 2) 11
def eTenant (b : List Byte) : Bool := bit (leAt b 54 2) 15
def eVi (b : List Byte) : Nat := leAt b 54 2 % 512

/-- The contents that a WRITE of `b` gives an entry: reserved fields read 0, and DEPART_TK 0 is held at 1 (R109, R137). -/
def entryStored (b : List Byte) : List Byte :=
  let keep := fun (o n hi lo : Nat) => leBytes n (setBits (leAt b o n) hi lo 0)
  slice b 0 6 ++ keep 6 2 14 12 ++ slice b 8 8 ++ keep 16 1 1 0 ++ keep 17 1 0 0 ++ keep 18 2 15 14 ++ slice b 20 4 ++
    keep 24 1 4 0 ++ slice b 25 2 ++ leBytes 1 (eDepart b) ++ keep 28 2 15 15 ++ keep 30 1 7 7 ++ keep 31 1 7 4 ++
    List.replicate 16 0 ++ keep 48 4 31 22 ++ keep 52 2 10 0 ++ keep 54 2 14 9 ++ List.replicate 8 0

/-- The contents that a WRITE of `b` gives a member-map entry (R145). -/
def mapStored (b : List Byte) : List Byte := slice b 0 3 ++ [0] ++ leBytes 2 (leAt b 4 2 % 32768) ++ [0, 0]

/-- Samples per second of a rate code (R141). -/
def rateOf (code : Nat) : Nat := [4000, 4800, 12800, 14400, 15360].getD code 4800

/-! ### Lookup -/

/-- The contents of an entry that a lookup ending in this cycle uses (R140). -/
def State.entryNow (s : State) (e : SubEntry) : List Byte := if e.wrote = some s.cyc then e.prev else e.bytes

/-- Whether a frame carries SV or GOOSE. -/
def isSvGoose (etype : Nat) : Bool := etype == 0x88BA || etype == 0x88B8

/-- Every condition of R138 but the identity. -/
def matchesBut (b : List Byte) (l : List Byte) (vlan : Nat) : Bool :=
  let h := header l
  eValid b && h.dst == eDst b && (eVidAny b || eVid b == vlan) && h.etype == eEtype b &&
    (eAppidAny b || !isSvGoose (eEtype b) || eAppid b == appid l)

/-- The identity condition of R138 and R139. -/
def matchesId (b : List Byte) (l : List Byte) : Bool :=
  match eIdMode b with
  | 0 => true
  | m =>
    match identity l (m == 2) with
    | some v => crc32c v == eHash b
    | none => false

/-- The matching entry with the lowest index, and its contents (R138). -/
def State.lookup (s : State) (l : List Byte) (vlan : Nat) : Option (Nat × List Byte) :=
  (s.sub.entries.find? (fun p => matchesBut (s.entryNow p.2) l vlan && matchesId (s.entryNow p.2) l)).map
    (fun p => (p.1, s.entryNow p.2))

/-- Whether the frame counts in ID_FAR (R139). -/
def State.idFar (s : State) (l : List Byte) (vlan : Nat) : Bool :=
  s.sub.entries.any (fun p =>
    let b := s.entryNow p.2
    matchesBut b l vlan && eIdMode b != 0 && (identity l (eIdMode b == 2)).isNone)

/-- Cycles in which entry `e` was written, as a lookup that ends in this cycle counts them (R140). -/
def State.entryVer (s : State) (e : Nat) : Nat :=
  let n := agetD s.sub.vers e 0
  match aget s.sub.entries e with
  | some x => if x.wrote = some s.cyc then n - 1 else n
  | none => n

/-! ### Discovery records (R155) -/

/-- Show the record at the head of the queue in SB_DISC_W0–W3, and the level. -/
def State.discShow (s : State) : State :=
  let r := s.sub.disc.headD ⟨0, 0, 0, 0⟩
  let t := (((s.wr (SB_DISC_W_W.i 0) r.w0).wr (SB_DISC_W_W.i 1) r.w1).wr (SB_DISC_W_W.i 2) r.w2).wr (SB_DISC_W_W.i 3) r.w3
  t.wr SB_STATUS_DISC_LEVEL s.sub.disc.length

/-- Queue a discovery record. -/
def State.discPush (s : State) (r : DiscRec) : State :=
  if s.sub.disc.length < 512 then
    let t := ({ s with sub := { s.sub with disc := s.sub.disc ++ [r] } }).discShow
    let t := t.event SB_EVENT_DISC ES_SB
    let t := if r.w0 / 2 ^ 24 = 7 then t.event SB_EVENT_AUTH_FAIL ES_SB else t
    if r.w0 / 2 ^ 24 = 8 then t.event SB_EVENT_VEST_NEW ES_SB else t
  else (s.inc SB_G_DISC_LOST).event SB_EVENT_DISC_LOST ES_SB

/-- A record with its code, kind, port, entry, data and time (a stamp and the base that governed then). -/
def State.discover (s : State) (code kind port entry data stamp base : Nat) : State :=
  s.discPush { w0 := code * 2 ^ 24 + kind * 2 ^ 22 + port * 2 ^ 17 + entry, w1 := data % 2 ^ 32,
               w2 := stampSec stamp % 2 ^ 32, w3 := base * 2 ^ 30 + stampNs stamp }

/-! ### Vestibule (R156, R157) -/

/-- Whether a frame carries a security extension (R157). -/
def hasExt (l : List Byte) : Bool := extLen l != 0

/-- Bytes 0–31 of an observation of a frame. -/
def vestHead (l : List Byte) (vlan port : Nat) : List Byte :=
  let h := header l
  let goose := h.etype == 0x88B8
  let pdu := if goose then none else svPdu l
  let a := pdu.bind (fun p => p.asdus.head?)
  let rev := if goose then ((goosePdu l).map (fun g => g.confRev)).getD 0 else (a.bind (fun x => x.confRev)).getD 0
  beBytes 6 h.dst ++ beBytes 6 h.src ++ leBytes 2 (b2n (!h.tags.isEmpty) * 2 ^ 15 + vlan) ++ leBytes 2 h.etype ++
    leBytes 2 (appid l) ++ leBytes 1 (0x80 + b2n (simBit l) * 0x40 + b2n (hasExt l) * 0x20 + port) ++
    leBytes 1 (((pdu.map (fun p => p.noAsdu)).getD 0) % 16) ++ leBytes 1 ((a.bind (fun x => x.smpSynch)).getD 0) ++
    leBytes 3 0 ++ leBytes 4 rev ++ leBytes 4 (crc32c ((identity l goose).getD []))

/-- The key of an observation: destination address, VLAN, EtherType, APPID and identity hash. -/
def vestKey (b : List Byte) : Nat × Nat × Nat × Nat × Nat :=
  (beAt b 0 6, leAt b 12 2 % 4096, leAt b 14 2, leAt b 16 2, leAt b 28 4)

/-- The first free Vestibule entry. -/
def State.vestFree (s : State) : Option Nat := (List.range 256).find? (fun i => (aget s.sub.vest i).isNone)

/-- Replace Vestibule entries and show how many are held. -/
def State.setVest (s : State) (v : List (Nat × List Byte × Nat)) : State :=
  ({ s with sub := { s.sub with vest := v } }).wr SB_STATUS_VEST_USED v.length

/-- Observe an unknown frame (R156). -/
def State.observe (s : State) (l : List Byte) (vlan port stamp base : Nat) : State :=
  let s := s.inc SB_G_UNKNOWN
  let h := vestHead l vlan port
  let goose := (header l).etype == 0x88B8
  match s.sub.vest.find? (fun p => decide (vestKey p.2.1 = vestKey h)) with
  | some (i, b, _) =>
    let b := h ++ leBytes 4 (leAt b 32 4 + 1) ++ slice b 36 4 ++ leBytes 4 (stampSec stamp) ++ slice b 44 20
    s.setVest (aput s.sub.vest i (b, stamp))
  | none =>
    if s.on SB_CTRL_VEST_EN then
      match s.vestFree with
      | none => (s.inc SB_G_VEST_FULL).event SB_EVENT_VEST_FULL ES_SB
      | some i =>
        let b := h ++ leBytes 4 1 ++ leBytes 4 (stampSec stamp) ++ leBytes 4 (stampSec stamp) ++
          slice ((identity l goose).getD []) 0 20
        (s.setVest (aput s.sub.vest i (b, stamp))).discover 8 (if goose then 2 else 1) port i 0 stamp base
    else s

/-- Whether the observation of Vestibule entry `i` has aged (R156). -/
def State.vestAged (s : State) (i : Nat) : Bool :=
  match aget s.sub.vest i with
  | some (_, st) =>
    let age := s.rd SB_CTRL_VEST_AGE_S
    age != 0 && decide (st * uSt + age * uS ≤ s.now)
  | none => false

/-- VEST_AGE_EXPIRY (R156). -/
def execVestAgeExpiry (i : Fin 256) (s : State) : Host.Outcome State Fault Refusal :=
  whileOn 6 s <|
  if s.vestAged i then .next (s.setVest (adel s.sub.vest i)) else .next s

/-- Whether a new entry matches an observation (R140): by destination, VLAN, EtherType, APPID and, where the entry checks
it, the identity hash. -/
def entryCovers (b v : List Byte) : Bool :=
  eValid b && eDst b == beAt v 0 6 && (eVidAny b || eVid b == leAt v 12 2 % 4096) && eEtype b == leAt v 14 2 &&
    (eAppidAny b || !isSvGoose (eEtype b) || eAppid b == leAt v 16 2) &&
    (eIdMode b == 0 || (eHash b == leAt v 28 4 && (eIdMode b == 2) == (leAt v 14 2 == 0x88B8)))

end Sys2Proof.Machine
end

