-- ==== Sys2Proof/Machine/Clock.lean ====
section
/-!
DEFINITION. House clock and network time (02_house_clock.md): the four time bases, their rate, slew and staged commits,
holdover, the grid's steps, leap seconds, snapshots, PPS and IRIG-B.
-/
namespace Sys2Proof.Machine

/-- The limit of ±200 ppm on the total correction, 2⁻⁴⁰ ns per cycle (R41). -/
def rateLimit : Int := 219902325

/-- The full slew contribution of `ppm` parts per million (R42). -/
def slewFull (ppm : Nat) : Int := (((ppm * 2 ^ 40 + 500000) / 1000000 : Nat) : Int)

/-- The slew contribution of one cycle for a remaining amount `m` beside a rate (R41, R42). -/
def slewStep (rate m full : Int) : Int :=
  if 0 ≤ m then max 0 (min (min full m) (rateLimit - rate))
  else - max 0 (min (min full (-m)) (rateLimit + rate))

/-- The rate of base `b` in force in this cycle. -/
def State.rateNow (s : State) (b : Nat) : Int := sext 32 (s.rd0 (HC_TB_RATE.i b))

/-- The slew contribution of base `b` in this cycle. -/
def State.slewNow (s : State) (b : Nat) : Int :=
  match (s.tb b).slew with
  | none => 0
  | some m => slewStep (s.rateNow b) m (slewFull (s.rd0 (HC_TB_SLEW_PPM.i b)))

/-- The increment of base `b` in this cycle, 2⁻⁴⁰ ns (R40). -/
def State.incNow (s : State) (b : Nat) : Nat := ((uNs : Int) + s.rateNow b + s.slewNow b).toNat

/-- The value base `b` has at the start of the next cycle. -/
def State.nextVal (s : State) (b : Nat) : Nat :=
  match (s.tb b).stepTo with
  | some v => v
  | none => (s.tb b).val + s.incNow b

/-- What this cycle's contribution leaves of the slew of base `b`, and whether the slew ends with it (R42). -/
def State.slewRest (s : State) (b : Nat) : Option Int × Bool :=
  match (s.tb b).slew with
  | none => (none, false)
  | some m =>
    let c := s.slewNow b
    if |m| < slewFull (s.rd0 (HC_TB_SLEW_PPM.i b)) ∧ c = m then (none, true) else (some (m - c), false)

/-- The slew of base `b` that is in force from the next cycle: one written in this cycle, or what is left of the one in progress
(R42). -/
def State.slewAhead (s : State) (b : Nat) : Option Int :=
  match (s.tb b).slewNew with
  | none => (s.slewRest b).1
  | some m => if m = 0 then none else some m

/-- The trace of a base over a cycle: a new entry where the base no longer goes on as the newest one says. -/
def TimeBase.traced (t : TimeBase) (cyc inc : Nat) : List (Nat × Nat × Nat) :=
  match t.trace with
  | (c, v, i) :: _ => if i = inc ∧ v + i * (cyc - c) = t.val then t.trace else (cyc, t.val, inc) :: t.trace
  | [] => [(cyc, t.val, inc)]

/-- One cycle of base `b` (R40, R42, R50). A slew whose last contribution falls in the cycle of a write that replaces or cancels it
has ended by itself (DEDUCED, log entry 21). A second counts as reached where the base counts into it, and not where a step takes it
there, exactly onto its start or within a cycle after (DESIGN CHOICE, log entry 22: R66 is silent on such a step). -/
def advanceBase (s : State) (b : Nat) : TimeBase :=
  let t := s.tb b
  let v := s.nextVal b
  let counted := t.stepTo.isNone && decide (t.val / uS ≠ v / uS)
  { t with
    val := v, slew := s.slewAhead b, slewNew := none, stepTo := none
    slewEnded := t.slewEnded || (s.slewRest b).2
    secReached := if counted then some (v / uS) else t.secReached
    trace := t.traced s.cyc (s.incNow b) }

/-- TB_0's second accounting over one cycle (R47): the applied rate is summed, and a change of the seconds field closes the
second. -/
def avgCycle (s : State) (new : Nat) : Clk :=
  let c := s.clk
  let open' := c.secOpen.map (fun p => (p.1 + s.rateNow 0, p.2 + 1))
  if (s.tb 0).val / uS = new / uS then { c with secOpen := open' }
  else { c with secOpen := some (0, 0), secDone := open', secChange := true }

/-- One CK_M cycle of the house clock. -/
def State.clkCycle (s : State) : State :=
  if s.clk.running then
    let c := avgCycle s (s.nextVal 0)
    { s with clk := { c with
      tb := (List.range 4).map (fun b => (b, advanceBase s b)), lapse := c.lapse + s.incNow s.gov } }
  else s

/-- The end of a CK_M cycle: the bases advance, the cycle count steps, and reads see the registers and memories as they now
stand (R11). -/
def State.nextCycle (s : State) : State :=
  let t := s.clkCycle
  { t with
    cyc := (s.cyc + 1) % 2 ^ 64, regs0 := t.regs, evc := []
    arch := { t.arch with at0 := {
      mem := t.mem, aq := t.aq, du := t.du, cl := t.cl, vis := t.vis, ic := t.ic, hall := t.hall, ds := t.ds, pb := t.pb
      ev := t.ev, lg := t.lg, ks := t.ks } } }

/-! ### Writes of the time-base registers -/

/-- The house-clock event (R68). -/
def State.hcEvent (s : State) : State := s.raise ES_HC

/-- Restart the holdover watchdog of TB_0 (R47). -/
def State.hcKick (s : State) (b : Nat) : State :=
  if b = 0 then { s with clk := { s.clk with wdFrom := s.clk.lapse } } else s

/-- Set RATE_CLAMP where the slew in force from the next cycle exceeds the limit beside the rate (R41). A limited total is flagged
once, at the write that brings it about, and not again in the cycles it lasts (DESIGN CHOICE, log entry 21: R41 does not say when
the limit is flagged). -/
def State.slewLimit (s : State) (b : Nat) : State :=
  match s.slewAhead b with
  | none => s
  | some m =>
    let r := s.rdS (HC_TB_RATE.i b)
    let f := min |m| (slewFull (s.rd (HC_TB_SLEW_PPM.i b)))
    if (0 < m ∧ rateLimit < r + f) ∨ (m < 0 ∧ r - f < - rateLimit) then s.event (HC_TB_RATE_CLAMP.i b) ES_HC else s

/-- A write of RATE (R41, R47). -/
def hcRateWrite (b v : Nat) (s : State) : State :=
  let r := sext 32 v
  let c := clampI (- rateLimit) rateLimit r
  let s := (s.wrS (HC_TB_RATE.i b) c).hcKick b
  let s := if c = r then s else s.event (HC_TB_RATE_CLAMP.i b) ES_HC
  let s := s.slewLimit b
  if b = 0 then s.wr HC_STATUS_HOLDOVER 0 else s

/-- A write of the slew register (R42). 0x8000_0000, which lies outside the range that R42 states, is taken as −2,147,483,648 ns
(DESIGN CHOICE, log entry 21). -/
def hcSlewWrite (b v : Nat) (s : State) : State :=
  let m := sext 32 v * (uNs : Int)
  let s := (s.setTb b { s.tb b with slewNew := some m }).hcKick b
  s.slewLimit b

/-- A write of SLEW_PPM: 0 is held at 1 (R42, R67). Values from 201 to 255, outside the range that R67 states, are stored and used
as written (DESIGN CHOICE, log entry 21). -/
def hcPpmWrite (b v : Nat) (s : State) : State :=
  (s.wr (HC_TB_SLEW_PPM.i b) (max 1 (v % 256))).slewLimit b

/-- Record a refusal of a command or staging write with its cause (R51). -/
def hcRefuse (b cause : Nat) (s : State) : State := (s.wr (HC_TB_CAUSE.i b) cause).event (HC_TB_REFUSED.i b) ES_HC

/-- A write of a staging register at block offset `o` (R51). -/
def hcStagingWrite (b o v : Nat) (s : State) : State :=
  if (s.tb b).commit.isSome then hcRefuse b 3 s else s.swPut (0x40100 + b * 0x40 + o) v

/-- The value staged in a base's staging registers, in 2⁻⁴⁰ ns: seconds read as an absolute count or as a signed offset
(R49). -/
def stagedValue (s : State) (b : Nat) (rel : Bool) : Int :=
  let sec := s.rd (HC_TB_STG_SEC_LO.i b) + s.rd (HC_TB_STG_SEC_HI.i b) * 2 ^ 32
  let secs : Int := if rel then sext 48 sec else (sec : Int)
  secs * (uS : Int) + ((s.rd (HC_TB_STG_NS.i b) * uNs + s.rd (HC_TB_STG_FRAC.i b) * uSt : Nat) : Int)

/-- The earliest instant s + `at` ns at least 1,000 ns after the value `v` (R50). -/
def commitInstant (v atNs : Nat) : Nat :=
  let t := v + 1000 * uNs
  let a := atNs * uNs
  (if t ≤ a then 0 else ceilDiv (t - a) uS) * uS + a

/-- COMMIT_ABS or COMMIT_REL (R49, R51). -/
def hcCommit (b : Nat) (rel : Bool) (s : State) : State :=
  let s := s.hcKick b
  if 1000000000 ≤ s.rd (HC_TB_STG_NS.i b) ∨ 1000000000 ≤ s.rd (HC_TB_STG_AT.i b) then hcRefuse b 2 s
  else if (s.tb b).commit.isSome then hcRefuse b 3 s
  else if b = s.gov ∧ s.on HC_CTRL_STEP_LOCK then hcRefuse b 1 s
  else
    let c : Commit := { rel := rel, staged := stagedValue s b rel, instant := commitInstant (s.tb b).val (s.rd (HC_TB_STG_AT.i b)) }
    (s.setTb b { s.tb b with commit := some c }).wr (HC_TB_PEND.i b) 1

/-- CANCEL: withdraws a pending commit (R51). -/
def hcCancelCommit (b : Nat) (s : State) : State :=
  let s := s.hcKick b
  (s.setTb b { s.tb b with commit := none }).wr (HC_TB_PEND.i b) 0

/-- A write of a base's command and status register: the W1C flags and the command code (R49, R51). -/
def hcCmdWrite (b v : Nat) (s : State) : State :=
  let s := (s.swPut (0x4013C + b * 0x40) v).hcKick b
  match v % 4 with
  | 1 => hcCommit b false s
  | 2 => hcCommit b true s
  | 3 => hcCancelCommit b s
  | _ => s

/-! ### Steps and the tick grid (R52, R53) -/

/-- Ticks that a step from `before` to `after` skips: from the first up to below the second (R52). -/
def skipSpan (before after : Nat) : Nat × Nat :=
  if before ≤ after then (ticksUpTo before, firstTickAt after) else (0, 0)

/-- The next tick that the grid generator raises (R52, R53). -/
def State.dueTick (s : State) : Nat :=
  s.clk.skipped.foldl (fun n p => if p.1 ≤ n ∧ n < p.2 then p.2 else n) s.clk.nextTick

/-- The synthesiser over a step of the governing value at `before`: it places edges again from the value `from'` on (R201). Conduction in
progress goes on as two spans, before the step and from that value on (R200). -/
def edgeStep (before from' : Nat) (s : State) : State :=
  { s with aq := { s.aq with
    edgeFrom := from'
    cond := s.aq.cond.flatMap (fun (p : Nat × Nat × Option Nat) =>
      match p.2.2 with
      | none => [(p.1, p.2.1, some (before + 1)), (p.1, from', none)]
      | some _ => [p]) } }

/-- Account a step of the governing value from `before` to `after`: skipped and repeated ticks; captures in progress note it
(R364) and acquisition settles (R198). After a step back the next tick follows the last one raised (R53), so that skips not yet
passed by a raised tick are void, and no edge of CK_A is placed before it; after a step forward none is placed up to the value after
the step, nor before the next raised tick where ticks are skipped (R201). -/
def gridStep (before after : Nat) (s : State) : State :=
  let s := { s with tg := { s.tg with caps := s.tg.caps.map (fun (p : Nat × Cap) => (p.1, { p.2 with steps := before :: p.2.steps })) } }
  if before ≤ after then
    let (lo, hi) := skipSpan before after
    let s := { s with clk := { s.clk with stepSpan := (before, after) :: s.clk.stepSpan } }
    if lo < hi then
      let s := { s with clk := { s.clk with skipped := s.clk.skipped ++ [(lo, hi)] } }
      (((edgeStep before (tickRep s.dueTick) s).count HC_GRID_CNT_SKIP (hi - lo)).hcEvent).settleAll (List.range 32) 4
    else edgeStep before (max after s.aq.edgeFrom) s
  else
    let n := ticksUpTo before - ticksUpTo after
    let skipped := s.clk.skipped.filter (fun p => decide (p.2 ≤ s.clk.nextTick))
    let s := { s with clk := { s.clk with skipped := skipped, stepSpan := [] }, aq := { s.aq with placed := 3 } }
    let s := edgeStep before (tickRep s.dueTick) s
    if 0 < n then ((s.count HC_GRID_CNT_REPEAT n).hcEvent).settleAll (List.range 32) 4 else s

/-- Grid tick `g` was skipped by a forward step (R52). -/
def State.tickSkip (s : State) (g : Nat) : Option (Nat × Nat) :=
  s.clk.skipped.find? (fun p => decide (p.1 ≤ g) && decide (g < p.2))

/-- A write of HC_CTRL (R45): a GOV that differs while GOV_LOCK is set is discarded with the house-clock event. A change of GOV
governs from the next cycle and steps the grid as the cycle ends (R46; `State.gridCycle`). -/
def hcCtrlWriteOp (v : Nat) (s : State) : State :=
  let old := s.rd HC_CTRL_GOV
  if s.on HC_STATUS_GOV_LOCK ∧ v % 4 ≠ old then ((s.swPut 0x40000 v).wr HC_CTRL_GOV old).hcEvent
  else s.swPut 0x40000 v

/-- Whether the commit of base `b` applies in this cycle. -/
def commitDue (s : State) (b : Nat) : Bool :=
  match (s.tb b).commit with
  | none => false
  | some c => decide (c.instant ≤ (s.tb b).val)

/-- The commit of base `b` applies (R50): DONE and SET are set. A COMMIT_REL whose result lies below 0 s leaves the base at 0
(DESIGN CHOICE, log entry 21: R50 is silent). A governing base's step acts on the grid as the cycle ends (`State.gridCycle`). -/
def hcApply (b : Nat) (s : State) : State :=
  match (s.tb b).commit with
  | none => s
  | some c =>
    let t := s.tb b
    let new : Nat :=
      if c.rel then ((s.nextVal b : Int) + c.staged).toNat else (c.staged + ((t.val - c.instant : Nat) : Int)).toNat
    let u := s.setTb b { t with commit := none, stepTo := some new }
    ((u.wr (HC_TB_PEND.i b) 0).wr HC_STATUS_SET (s.rd HC_STATUS_SET ||| 2 ^ b)).event (HC_TB_DONE.i b) ES_HC

/-- The values of the governing base before and after a step that ends this cycle, by a commit or by a change of GOV (R46, R52). -/
def State.govStep (s : State) : Option (Nat × Nat) :=
  let g := s.rd HC_CTRL_GOV
  if s.clk.running ∧ (g ≠ s.gov ∨ (s.tb g).stepTo.isSome) then some (s.now, s.nextVal g) else none

/-! ### Reads of bases and groups (R48, R67) -/

/-- The snapshot of base `b` that requester index `q` holds. -/
def State.snap (s : State) (b q : Nat) : Snapshot := agetD s.clk.snaps (b * 8 + q) {}

/-- Latch a base's value and the cycle count for a requester (R48). -/
def hcSnapshot (b q : Nat) (s : State) : State :=
  { s with clk := { s.clk with snaps := aput s.clk.snaps (b * 8 + q) { val := (s.tb b).val, cyc := s.cyc } } }

/-- The slew still to be applied in whole nanoseconds, rounded toward zero (R42). -/
def slewShown (t : TimeBase) : Nat := toBits 32 (Int.tdiv (t.slew.getD 0) (uNs : Int))

/-- What a snapshot shows at block offset `o`. -/
def snapWord (p : Snapshot) (o : Nat) : Nat :=
  match o with
  | 0x00 => p.val / uS % 2 ^ 32
  | 0x04 => p.val / uS / 2 ^ 32 % 2 ^ 16
  | 0x08 => p.val % uS / uNs
  | 0x0C => p.val % uNs / uSt
  | 0x10 => p.cyc % 2 ^ 32
  | _ => p.cyc / 2 ^ 32 % 2 ^ 32

/-- Latch the PPS (four words) or the IRIG group (eight words) for a requester (R67). -/
def hcGroupLatch (irig : Bool) (q : Nat) (s : State) : State :=
  let base := if irig then 0x40044 else 0x40024
  let ws := (List.range (if irig then 8 else 4)).map (fun i => s.word0 (base + 4 * i))
  { s with clk := { s.clk with groups := aput s.clk.groups (b2n irig * 8 + q) ws } }

/-- The word of a latched group that a requester sees at group index `i`. -/
def State.groupWord (s : State) (irig : Bool) (q i : Nat) : Nat :=
  (agetD s.clk.groups (b2n irig * 8 + q) []).getD i 0

/-- The HC_ page's reads that are more than the register's value (R42, R48, R67). -/
def hcRead (q o : Nat) (s : State) : Option (Nat × State) :=
  if 0x100 ≤ o ∧ o < 0x200 then
    let b := (o - 0x100) / 0x40
    let k := o % 0x40
    if k = 0 then let t := hcSnapshot b q s; some (snapWord (t.snap b q) 0, t)
    else if k < 0x18 then some (snapWord (s.snap b q) k, s)
    else if k = 0x20 then some (slewShown (s.tb b), s)
    else none
  else if o = 0x24 then let t := hcGroupLatch false q s; some (t.groupWord false q 0, t)
  else if 0x24 < o ∧ o ≤ 0x30 then some (s.groupWord false q ((o - 0x24) / 4), s)
  else if o = 0x44 then let t := hcGroupLatch true q s; some (t.groupWord true q 0, t)
  else if 0x44 < o ∧ o ≤ 0x60 then some (s.groupWord true q ((o - 0x44) / 4), s)
  else none

/-- The HC_ page's writes (R41, R42, R45–R51, R67). PPS_OUT is driven only while EN is set (DEDUCED, log entry 22). -/
def hcWrite (o v : Nat) (s : State) : State :=
  if o = 0 then hcCtrlWriteOp v s
  else if o = 8 then { (s.swPut 0x40008 v) with clk := { s.clk with wdFrom := s.clk.lapse } }
  else if o = 0x18 then
    let s := { s.swPut 0x40018 v with clk := { s.clk with ppsOut := s.clk.ppsOut && bit v 31 } }
    s.wr HC_PPS_OUT_WIDTH_MS (clampN 1 999 (v % 1024))
  else if o = 0x40 then
    let s := { s with clk := { s.clk with irigTb := (s.cyc, s.rd HC_IRIG_CTRL_TB) :: s.clk.irigTb } }
    s.swPut 0x40040 v
  else if 0x100 ≤ o ∧ o < 0x200 then
    let b := (o - 0x100) / 0x40
    let k := o % 0x40
    if k = 0x18 then hcRateWrite b v s
    else if k = 0x20 then hcSlewWrite b v s
    else if k = 0x24 then hcPpmWrite b v s
    else if 0x28 ≤ k ∧ k ≤ 0x38 then hcStagingWrite b k v s
    else if k = 0x3C then hcCmdWrite b v s
    else s.swPut (0x40000 + o) v
  else s.swPut (0x40000 + o) v

/-! ### The clock's own events -/

/-- SLEW_DONE (R42): set in the cycle after the last contribution of a slew of non-zero amount. -/
def execSlewDone (b : Fin 4) (s : State) : Host.Outcome State Fault Refusal :=
  let t := s.tb b
  if t.slewEnded then .next ((s.setTb b { t with slewEnded := false }).event (HC_TB_SLEW_DONE.i b) ES_HC) else .next s

/-- Whether TB_0 enters holdover (R47). -/
def holdoverDue (s : State) : Bool :=
  s.clk.running && s.rd HC_HOLD_WD_MS != 0 && !s.on HC_STATUS_HOLDOVER &&
    decide (s.clk.wdFrom + s.rd HC_HOLD_WD_MS * uMs ≤ s.clk.lapse)

/-- HOLDOVER_ENTRY (R47). -/
def execHoldoverEntry (s : State) : Host.Outcome State Fault Refusal :=
  if holdoverDue s then
    let t := s.wr (HC_TB_RATE.i 0) (s.rd (HC_TB_AVG.i 0))
    .next (((t.setTb 0 { t.tb 0 with slewNew := some 0 }).wr HC_STATUS_HOLDOVER 1).hcEvent)
  else .next s

/-- The quotient rounded to the nearest whole number, halves away from zero (R47). -/
def roundAway (num : Int) (den : Nat) : Int :=
  let q := (2 * num.natAbs + den) / (2 * den)
  if 0 ≤ num then (q : Int) else - (q : Int)

/-- AVG over the completed seconds: the mean of the per-second means (R47). -/
def avgOf (ms : List (Int × Nat)) : Int :=
  let (n, d) := ms.foldl (fun (a : Int × Nat) m => (a.1 * (m.2 : Int) + m.1 * (a.2 : Int), a.2 * m.2)) (0, 1)
  roundAway n (d * ms.length)

/-- Leap flags at the start of TB_0's second `sec` (R54). -/
def leapApply (sec : Nat) (s : State) : State :=
  let ofs := sext 16 (s.rd HC_UTC_UTC_OFS)
  let day := ((sec : Int) - ofs) % 86400
  let s :=
    if s.clk.leap61 = some (sec - 1) ∧ s.on HC_UTC_LEAP61 then
      (s.wr HC_UTC_UTC_OFS (toBits 16 (ofs + 1))).wr HC_UTC_LEAP61 0
    else s
  let s := { s with clk := { s.clk with leap61 := if s.on HC_UTC_LEAP61 ∧ day = 0 then some sec else none } }
  if s.on HC_UTC_LEAP59 ∧ day = 86399 then
    (s.wr HC_UTC_UTC_OFS (toBits 16 (ofs - 1))).wr HC_UTC_LEAP59 0
  else s

/-- TB0_SECOND_START (R47, R54). A step of TB_0 into the middle of a second counts as starting that second for the leap flags
(DESIGN CHOICE, log entry 22: R54 is silent). -/
def execTb0SecondStart (s : State) : Host.Outcome State Fault Refusal :=
  if s.clk.secChange then
    let ms := match s.clk.secDone with
      | some m => (m :: s.clk.means).take 64
      | none => s.clk.means
    let t := { s with clk := { s.clk with means := ms, secDone := none, secChange := false } }
    let t := if ms.isEmpty then t else t.wrS (HC_TB_AVG.i 0) (avgOf ms)
    .next (leapApply ((s.tb 0).val / uS) t)
  else .next s

/-- Load the four stamp registers of a group at register offset `base`. -/
def loadStamp (base t : Nat) (s : State) : State :=
  (((s.put base (stampSec t % 2 ^ 32)).put (base + 4) (stampSec t / 2 ^ 32 % 2 ^ 16)).put (base + 8) (stampNs t)).put
    (base + 12) (stampFrac t)

/-- The value of base `b` as a stamp, `sub` · 2⁻¹⁶ of a cycle after the start of this cycle (R55). -/
def State.stampIn (s : State) (b sub : Nat) : Nat := ((s.tb b).val + s.incNow b * sub / 65536) / uSt

/-- The value that base `b` had `ago` · 2⁻¹⁶ of a cycle before the start of this cycle, as a stamp taken then: steps and changes of rate
since leave it as it was (R65). -/
def State.stampAgo (s : State) (b ago : Nat) : Nat :=
  let at' := s.cyc * 65536 - ago
  let t := s.tb b
  if ago = 0 then t.val / uSt
  else
    match t.trace.find? (fun p => decide (p.1 ≤ at' / 65536)) with
    | some (c, v, i) => (v + i * (at' - c * 65536) / 65536) / uSt
    | none => ((t.trace.getLast?.map (fun p => p.2.1)).getD t.val) / uSt

/-- The base that HC_IRIG_CTRL.TB named `ago` · 2⁻¹⁶ of a cycle before the start of this cycle (R65): a write acts from the cycle
after. -/
def State.irigBase (s : State) (ago : Nat) : Nat :=
  match (s.clk.irigTb.filter (fun p => decide ((s.cyc * 65536 - ago) / 65536 ≤ p.1))).getLast? with
  | some p => p.2
  | none => s.rd HC_IRIG_CTRL_TB

/-- PPS_IN_EDGE (R64): an edge `sub` · 2⁻¹⁶ of a cycle after the start of this cycle, stamped in the base HC_PPS_IN.TB; `heldUs` is
how long the level after it is held. -/
def execPpsInEdge (rising : Bool) (sub : Fin 65536) (heldUs : Nat) (s : State) : Host.Outcome State Fault Refusal :=
  if s.on HC_PPS_IN_EN ∧ rising = !s.on HC_PPS_IN_EDGE then
    if s.rd HC_PPS_IN_MINW_US ≤ heldUs then
      .next ((loadStamp 0x40024 (s.stampIn (s.rd HC_PPS_IN_TB) sub) s).incW HC_PPS_CNT_EDGES 1)
    else .next ((s.inc HC_PPS_CNT_REJECT).hcEvent)
  else .next s

/-- A decoded IRIG-B frame without a missing marker, a bad BCD digit or an inconsistent length (R65). The year's digits count only
in the formats that carry them (codes 4–7). -/
def irigGood (f : IrigFrame) : Bool :=
  f.markers && f.lengthOk &&
    ([f.secU, f.secT, f.minU, f.minT, f.hrU, f.hrT, f.dayU, f.dayT, f.dayH] ++
      (if 4 ≤ f.code.val then [f.yrU, f.yrT] else [])).all (fun d => decide (d ≤ 9))

/-- IRIG_FRAME (R65): the stamp and the decoded fields are loaded together, or the frame is counted. -/
def execIrigFrame (f : IrigFrame) (s : State) : Host.Outcome State Fault Refusal :=
  if s.on HC_IRIG_CTRL_EN then
    if irigGood f then
      let year := decide (4 ≤ f.code.val)
      let sbs := decide (f.code.val ∈ [0, 3, 4, 7])
      let s := loadStamp 0x40044 (s.stampAgo (s.irigBase f.ago) f.ago) s
      let s := (((s.wr HC_IRIG_DATE_VALID 1).wr HC_IRIG_DATE_YEAR_PRES (b2n year)).wr HC_IRIG_DATE_YEAR
        (if year then f.yrT * 10 + f.yrU else 0)).wr HC_IRIG_DATE_DAY (f.dayH * 100 + f.dayT * 10 + f.dayU)
      let s := ((s.wr HC_IRIG_TOD_HOUR (f.hrT * 10 + f.hrU)).wr HC_IRIG_TOD_MIN (f.minT * 10 + f.minU)).wr
        HC_IRIG_TOD_SEC (f.secT * 10 + f.secU)
      let s := ((s.wr HC_IRIG_SBS_SBS_PRES (b2n sbs)).wr HC_IRIG_SBS_SBS (if sbs then f.sbs else 0)).wr HC_IRIG_CF_CF f.cf
      .next (s.incW HC_IRIG_CNT_FRAMES 1)
    else .next ((s.inc HC_IRIG_CNT_ERR).hcEvent)
  else .next s

/-- The second whose start the PPS_OUT base reaches in this cycle and that is not yet marked (R66). -/
def ppsDue (s : State) : Option Nat :=
  let b := s.rd HC_PPS_OUT_TB
  let t := s.tb b
  match t.secReached with
  | none => none
  | some n =>
    if s.on HC_PPS_OUT_EN ∧ ¬ s.clk.ppsMarked.contains (b, n) ∧ n * uS ≤ t.val ∧ t.val < n * uS + 2 * uNs then some n else none

/-- PPS_OUT_RISE (R66). GATE acts on the rise alone: a pulse in progress keeps its width where the gate closes (DESIGN CHOICE, log
entry 22: R66 does not say that it is cut). -/
def execPpsOutRise (s : State) : Host.Outcome State Fault Refusal :=
  match ppsDue s with
  | none => .next s
  | some n =>
    if s.on HC_PPS_OUT_GATE ∧ ¬ (s.on HC_STATUS_HOLDOVER = false ∧ s.on HC_CTRL_TB0_LOCKED) then .next s
    else
      .next { s with clk := { s.clk with
        ppsOut := true, ppsMarked := (s.rd HC_PPS_OUT_TB, n) :: s.clk.ppsMarked
        ppsFall := s.clk.lapse + s.rd HC_PPS_OUT_WIDTH_MS * uMs } }

/-- PPS_OUT_FALL (R66): WIDTH_MS ms after the rise. -/
def execPpsOutFall (s : State) : Host.Outcome State Fault Refusal :=
  if s.clk.ppsOut ∧ s.clk.ppsFall ≤ s.clk.lapse then
    .next { s with clk := { s.clk with ppsOut := false } }
  else .next s

end Sys2Proof.Machine
end

