-- ==== Sys2Proof/Machine/Matching.lean ====
section
/-!
DEFINITION. The matching store and the delay lists (08_dispatch.md R211, R214–R218, R227–R230): operand slots, marks through
the set port and the general port, and timers.
-/
namespace Sys2Proof.Machine

/-! ### Task descriptors (R211) -/

def tValid (b : List Byte) : Bool := bit (leAt b 0 2) 15
def tReady (b : List Byte) : Bool := bit (leAt b 0 2) 14
def tVi (b : List Byte) : Nat := leAt b 0 2 % 512
def tFlow (b : List Byte) : Nat := leAt b 2 2 % 4096
def tLane (b : List Byte) : Nat := leAt b 4 1
def tLmask (b : List Byte) : Nat := leAt b 5 1
def tDiv (b : List Byte) : Nat := leAt b 6 1 % 128
def tPh (b : List Byte) : Nat := leAt b 7 1 % 128
def tOffset (b : List Byte) : Nat := leAt b 8 4 % 262144
def tCost (b : List Byte) : Nat := leAt b 12 4 % 262144
def tDl (b : List Byte) : Nat := leAt b 16 2
def tOpBase (b : List Byte) : Nat := leAt b 18 2 % 32768
def tOpN (b : List Byte) : Nat := leAt b 20 1 % 32
def tEntry (b : List Byte) : Nat := bits (leAt b 24 4) 18 6

/-- Descriptor of task `t`; all zero while none was written. -/
def State.task (s : State) (t : Nat) : List Byte := ((aget s.ds.tasks t).map (fun x => x.bytes)).getD []

/-- A task's counters, kept under internal offsets in the layout of DS_TCNT0–1 (R235). -/
def tcnt (f : Fld) (t : Nat) : Fld := { f with addr := f.addr - 0x700094 + 0x3400000 + t * 8 }

/-- Generation of an instance (R393): a reset advances it from the cycle after the write on. -/
def State.gen (s : State) (v : Nat) : Nat := s.rd0 (VI_STATUS_GEN.p v)

/-! ### Operand slots (R214) -/

def sValue (b : List Byte) : Nat := leAt b 0 8
def sQual (b : List Byte) : Nat := leAt b 8 2
def sKind (b : List Byte) : Nat := bits (leAt b 10 1) 7 5
def sLevel (b : List Byte) : Bool := bit (leAt b 10 1) 4
def sFresh (b : List Byte) : Bool := bit (leAt b 10 1) 3
def sWritten (b : List Byte) : Bool := bit (leAt b 10 1) 2
def sLag (b : List Byte) : Nat := leAt b 11 1 % 16
def sTask (b : List Byte) : Nat := leAt b 12 2 % 8192
def sSel (b : List Byte) : Nat := leAt b 14 2 % 256
def sCph (b : List Byte) : Nat := leAt b 28 1

/-- Whether KIND is one that something marks (R215): a slot of KIND NONE, or of an unused code, never is, and is absent. -/
def sMarks (b : List Byte) : Bool := decide (1 ≤ sKind b) && decide (sKind b ≤ 5)

/-- A marked TRIGGER value that no start has consumed. -/
def sArrived (b : List Byte) : Bool := sMarks b && sFresh b

/-- A stamp in the layout of R55, as a number of 2⁻¹⁶ ns. -/
def stampAt (b : List Byte) (o : Nat) : Nat :=
  (leAt b o 6 * 1000000000 + leAt b (o + 6) 4 % 2 ^ 30) * 65536 + leAt b (o + 10) 2

/-- Mark stamp of a slot. -/
def sStamp (b : List Byte) : Nat := stampAt b 16

/-! ### Changes of binary channels on their way to capture (R363) -/

/-- Deliver a change of a binary channel to capture in cycle `cyc`. -/
def State.binAt (s : State) (cyc kind index : Nat) (level pulse : Bool) (stamp tk : Nat) : State :=
  let c : BinChange := { kind := kind, index := index, level := level, pulse := pulse, stamp := stamp, tk := tk, cyc := cyc }
  { s with tg := { s.tg with changes := s.tg.changes ++ [c] } }

/-- Deliver a change of a binary channel to capture in this cycle. -/
def State.binChange (s : State) (kind index : Nat) (level pulse : Bool) (stamp tk : Nat) : State :=
  s.binAt s.cyc kind index level pulse stamp tk

/-- Deliver a change for whose trigger time the spec names no kind (R366): the kind is a free value. -/
def State.binOpenAt (s : State) (cyc kind index : Nat) (level pulse : Bool) (stamp : Nat) : State :=
  let (n, t) := s.fresh
  t.binAt cyc kind index level pulse stamp (n % 16)

/-- The same in this cycle. -/
def State.binOpen (s : State) (kind index : Nat) (level pulse : Bool) (stamp : Nat) : State :=
  s.binOpenAt s.cyc kind index level pulse stamp

/-! ### Operand slots -/

/-- Operand slot `i`. -/
def State.slot (s : State) (i : Nat) : OpSlot := agetD s.ds.slots i { bytes := List.replicate 32 0 }
def State.setSlot (s : State) (i : Nat) (o : OpSlot) : State := { s with ds := { s.ds with slots := aput s.ds.slots i o } }

/-- A slot as starts and readiness decisions of this cycle see it (R218). -/
def OpSlot.seen (o : OpSlot) (cyc : Nat) : List Byte :=
  match o.new with
  | some (b, c) => if o.group.isNone ∧ c ≤ cyc then b else o.bytes
  | none => o.bytes

/-- A slot with its last mark, seen or not. -/
def OpSlot.latest (o : OpSlot) : List Byte := (o.new.map (fun p => p.1)).getD o.bytes

/-- What slot `i` shows in this cycle. -/
def State.slotNow (s : State) (i : Nat) : List Byte := (s.slot i).seen s.cyc

/-- FRESH of a slot's bytes set or cleared. -/
def withFresh (b : List Byte) (v : Bool) : List Byte := splice b 10 (leBytes 1 (setBits (leAt b 10 1) 3 3 (b2n v)))

/-- A ready task begins a pending run at a mark of a TRIGGER operand (R222). -/
def State.beginPend (s : State) (t release : Nat) : State :=
  let b := s.task t
  if tValid b ∧ tReady b ∧ (aget s.ds.pend t).isNone then
    let p : Pend := { release := release, deadline := release * uSt + tDl b * uUs, gen := s.gen (tVi b), since := s.cyc + 1 }
    { s with ds := { s.ds with pend := aput s.ds.pend t p } }
  else s

/-- Whether a mark of slot `i` in this cycle arrives at timer `x`: its STAMP lies after the arming instant and not after the
expiry instant (R230). -/
def State.arrivesAt (s : State) (i : Nat) (x : Timer) : Bool :=
  let b := x.bytes
  leAt b 1 1 / 64 == 1 && bit (leAt b 4 2) 15 && leAt b 4 2 % 32768 == i && decide (x.armAt < s.nowStamp * uSt) &&
    decide (s.nowStamp * uSt ≤ x.exp)

/-- Timers that watch slot `i` note its arrival (R230). -/
def State.noteWatch (s : State) (i : Nat) : State :=
  { s with ds := { s.ds with timers := s.ds.timers.map (fun p =>
      if s.arrivesAt i p.2 then
        (p.1, { p.2 with seen := true })
      else p) } }

/-- Write a mark to slot `i` (R218): VALUE, QUAL, STAMP, GEN, FRESH and WRITTEN; seen from the next cycle, or for a member of
a GOOSE frame together with the frame's last member. It finds FRESH as it stands at the start of the cycle. A slot of KIND NONE
is never marked (R215). Capture hears VALUE[0] (R363). That a request may name a slot of another kind is DESIGN CHOICE (log entry 40). -/
def State.mark (s : State) (i : Nat) (value : List Byte) (qual : Nat) (group : Option Nat) : State :=
  let o := s.slot i
  let was := o.latest
  if !sMarks was then s else
  let v := tVi (s.task (sTask was))
  let b := slice value 0 8 ++ leBytes 2 qual ++ leBytes 1 (leAt was 10 1 / 16 * 16 + 0xC) ++ slice was 11 5 ++
    stampBytes s.gov s.nowStamp ++ slice was 28 1 ++ leBytes 1 (s.gen v) ++ slice was 30 2
  let t := if sFresh was ∨ o.used = some s.cyc then s.inc (tcnt DS_TCNT1_OVERWRITE (sTask was)) else s
  let t := t.setSlot i { bytes := o.seen s.cyc, new := some (b, s.cyc + 1), group := group, used := o.used }
  let t := (t.noteWatch i).binChange 9 i (bit (leAt value 0 1) 0) false s.nowStamp 3
  if sLevel was then t else t.beginPend (sTask was) s.nowStamp

/-! ### The two ports (R217) -/

/-- Request a mark of the general port, which it reaches in cycle `due`. -/
def State.request (s : State) (r : MarkReq) : State :=
  { s with ds := { s.ds with marks := s.ds.marks ++ [{ r with seq := s.ds.seq }], seq := s.ds.seq + 1 } }

/-- What the general port orders requests by (R217): cycle, kind, order of request, slot. The members of a GOOSE frame stand in the
cycle of its first, so that they pass the port in consecutive cycles (R218). -/
def MarkReq.key (a : MarkReq) : List Nat := [a.due - a.lead, a.kind, a.ord, a.slot, a.seq]

/-- One list of numbers comes before another: the first that differs decides. -/
def listBefore : List Nat → List Nat → Bool
  | a :: as, b :: bs => decide (a < b) || (a == b && listBefore as bs)
  | _, _ => false

/-- Whether request `a` is taken before request `b`. -/
def MarkReq.before (a b : MarkReq) : Bool := listBefore a.key b.key

/-- The request that the general port takes in this cycle. -/
def State.nextMark (s : State) : Option MarkReq :=
  (s.ds.marks.filter (fun r => decide (r.due ≤ s.cyc))).foldl
    (fun best r => match best with
      | none => some r
      | some x => if r.before x then some r else some x) none

/-- Requests held back because the queue of 256 is full, among those that reach the port in this cycle. -/
def State.heldMarks (s : State) : Nat :=
  let waiting := (s.ds.marks.filter (fun r => decide (r.due ≤ s.cyc))).length
  min (waiting - 256) (s.ds.marks.filter (fun r => r.due == s.cyc)).length

/-- All members of a GOOSE frame become visible in the cycle after its last member has passed the port (R218). -/
def State.showFrame (s : State) (frame : Nat) : State :=
  if s.ds.marks.any (fun r => r.kind == 0 && r.frame == frame) then s else
  { s with ds := { s.ds with slots := s.ds.slots.map (fun p =>
      if p.2.group = some frame then
        (p.1, { p.2 with new := p.2.new.map (fun x => (x.1, s.cyc + 1)), group := none })
      else p) } }

/-- The set port writes one slot in each cycle (R182, R217). -/
def State.setPortCycle (s : State) : State :=
  match s.ds.setQ with
  | [] => s
  | m :: rest =>
    if s.cyc < m.due then s
    else
      let t := { s with ds := { s.ds with setQ := rest } }
      if s.on DS_CTRL_EN then t.mark m.slot (leBytes 8 (m.g + m.flags * 65536)) 0 none else t

/-- The slots that the two ports write in this cycle. -/
def State.marking (s : State) : List Nat :=
  if !s.on DS_CTRL_EN then []
  else
    (match s.nextMark with
      | some r => if s.ds.portAt ≠ some s.cyc ∧ r.gen = s.gen r.vi ∧ sMarks (s.slot r.slot).latest then [r.slot] else []
      | none => []) ++
    (match s.ds.setQ with
      | m :: _ => if m.due ≤ s.cyc then [m.slot] else []
      | [] => [])

/-- A set mark of group `g` for tick `tick`: the bound slots are marked 6 cy later, one per cycle in ascending order (R182). -/
def State.setMark (s : State) (g tick flags from' : Nat) : State :=
  let bound := s.ds.slots.filter (fun p => sKind p.2.latest == 1 && sSel p.2.latest == g)
  let ms := (bound.zip (List.range bound.length)).map
    (fun (p : (Nat × OpSlot) × Nat) => ({ due := from' + 6 + p.2, slot := p.1.1, g := tick % 65536, flags := flags } : SetMark))
  { s with ds := { s.ds with setQ := s.ds.setQ ++ ms } }

/-! ### What the redundant pair changes (R457, R466) -/

/-- The pair state: 0 ALONE, 1 SEEKING, 2 STANDBY_SYNC, 3 STANDBY_INSTEP, 4 ACTIVE, 5 REVERTING. -/
def State.pairState (s : State) : Nat := s.rd PR_STATUS_STATE

/-- The pair state is not ALONE (R465, R466). -/
def State.pairOn (s : State) : Bool := s.pairState != 0

/-- A slot belongs to a slotted task. -/
def State.slottedSlot (s : State) (i : Nat) : Bool :=
  let b := s.task (sTask (s.slot i).latest)
  tValid b && !tReady b

/-- A timer mark: on a pair one of a slotted task waits for the first tick whose instant is later than the expiry (R466). -/
def State.timerMark (s : State) (exp : Nat) (r : MarkReq) : State :=
  if s.pairOn ∧ s.slottedSlot r.slot then { s with pr := { s.pr with tmarks := s.pr.tmarks ++ [(exp, r)] } } else s.request r

/-! ### Delay lists (R227–R230) -/

def mState (b : List Byte) : Nat := leAt b 0 2 / 16384
def mVi (b : List Byte) : Nat := leAt b 0 2 % 512
def mSlot (b : List Byte) : Nat := leAt b 2 2 % 32768
def mWatch (b : List Byte) : Bool := bit (leAt b 4 2) 15
def mGen (b : List Byte) : Nat := leAt b 6 1 % 16

/-- Timer `i`. -/
def State.timer (s : State) (i : Nat) : Timer := agetD s.ds.timers i { bytes := List.replicate 16 0 }

/-- Replace timer `i`, and show how many are ARMED. -/
def State.setTimer (s : State) (i : Nat) (t : Timer) : State :=
  let ts := aput s.ds.timers i t
  ({ s with ds := { s.ds with timers := ts } }).wr DS_STATUS_ARMED
    (ts.filter (fun (p : Nat × Timer) => mState p.2.bytes == 1)).length

/-- STATE of a timer entry replaced. -/
def withState (b : List Byte) (v : Nat) : List Byte := splice b 0 (leBytes 2 (setBits (leAt b 0 2) 15 14 v))

/-- An instant that a forward step carried the base past (R234). -/
def State.stepped (s : State) (v : Nat) : Bool := s.clk.stepSpan.any (fun p => decide (p.1 < v) && decide (v < p.2))

/-- Whether timer `i` has expired: the base lies past its instant (R229). -/
def State.timerDue (s : State) (i : Nat) : Bool := mState (s.timer i).bytes == 1 && decide ((s.timer i).exp < s.now)

/-- Timer `i` expires (R229, R230, R232). -/
def expireTimer (i : Nat) (s : State) : State :=
  let x := s.timer i
  let b := x.bytes
  let s := if s.stepped x.exp then s.inc DS_G_STEP_FIRE else s
  if mGen b ≠ s.gen (mVi b) then (s.setTimer i { x with bytes := withState b 3 }).inc DS_G_GEN_DROP
  else if mWatch b ∧ (x.seen ∨ s.marking.any (fun k => s.arrivesAt k x)) then (s.setTimer i { x with bytes := withState b 3 }).inc DS_G_WATCH_CANCEL
  else
    (s.setTimer i { x with bytes := withState b 2 }).timerMark x.exp
      { due := s.cyc + 6, kind := 2, ord := x.exp * 16384 + i, seq := 0, slot := mSlot b, value := leBytes 4 i ++ leBytes 4 (leAt b 12 4 % 2 ^ 20),
        qual := 0, vi := mVi b, gen := mGen b }

/-- TIMER_EXPIRY (R229). -/
def execTimerExpiry (i : Fin 16384) (s : State) : Host.Outcome State Fault Refusal :=
  whileOn 6 s <|
  if s.timerDue i then .next (expireTimer i s) else .next s

/-- Join the queue of arms and cancels (R228): requests of one cycle in ascending lane, then core; each applied 8 cy later and
one more for every 64 requests ahead of it. -/
def State.queueArm (s : State) (r : ArmReq) : State :=
  let old := s.ds.arms.filter (fun x => decide (x.made < s.cyc))
  let same := s.ds.arms.filter (fun x => !decide (x.made < s.cyc))
  let same := same.filter (fun x => decide (x.who ≤ r.who)) ++ [{ r with made := s.cyc }] ++
    same.filter (fun x => !decide (x.who ≤ r.who))
  let ahead := (old.filter (fun x => decide (s.cyc < x.due))).length
  let same := same.zipIdx.map (fun (p : ArmReq × Nat) => { p.1 with due := s.cyc + 8 + (ahead + p.2) / 64 })
  { s with ds := { s.ds with arms := old ++ same } }

/-- Apply an arm (R228): the expiry instant is the first whole microsecond at or after the arming instant, plus D; a run on a
pair gives the arming instant (R466). -/
def applyArm (r : ArmReq) (s : State) : State :=
  let s := if s.timerDue r.timer then expireTimer r.timer s else s
  let x := s.timer r.timer
  let b := match r.setup with
    | some l => splice x.bytes 0 (leBytes 2 (leAt l 0 2 % 512) ++ leBytes 2 (leAt l 2 2 % 32768) ++ slice l 4 2)
    | none => x.bytes
  let exp := (ceilDiv (r.inst.getD s.now) uUs + r.delay) * uUs
  let gen := match r.setup with
    | some _ => s.gen (mVi b)
    | none => r.gen
  let b := splice (withState b 1) 6 (leBytes 1 gen)
  let b := splice b 8 (leBytes 4 (exp / uS) ++ leBytes 4 (exp % uS / uUs))
  s.setTimer r.timer { bytes := b, exp := exp, armAt := r.inst.getD s.now, seen := false }

/-- Apply a cancel (R228). -/
def applyCancel (r : ArmReq) (s : State) : State :=
  let s := if s.timerDue r.timer then expireTimer r.timer s else s
  let x := s.timer r.timer
  s.setTimer r.timer { x with bytes := withState x.bytes 3 }

/-- Take the request at the front of the queue when its cycle has come and it is of the kind asked for. -/
def State.takeArm (s : State) (arm : Bool) : Option (ArmReq × State) :=
  match s.ds.arms with
  | [] => none
  | r :: rest =>
    if r.due ≤ s.cyc ∧ r.arm = arm then some (r, { s with ds := { s.ds with arms := rest } }) else none

/-- TIMER_ARM_APPLY (R228). -/
def execTimerArmApply (s : State) : Host.Outcome State Fault Refusal :=
  whileOn 6 s <|
  match s.takeArm true with
  | some (r, t) => .next (applyArm r t)
  | none => .next s

/-- TIMER_CANCEL_APPLY (R228). -/
def execTimerCancelApply (s : State) : Host.Outcome State Fault Refusal :=
  whileOn 6 s <|
  match s.takeArm false with
  | some (r, t) => .next (applyCancel r t)
  | none => .next s

end Sys2Proof.Machine
end

