-- ==== Sys2Proof/Machine/PairNotes.lean ====
section
/-!
DEFINITION. What the pair controller keeps of the machine's work (19_redundant_pair.md): its state, the claim, the hand-overs
that enter the output digest, changed control blocks, and marks that wait for a tick (R452, R460, R465–R468).
-/
namespace Sys2Proof.Machine

/-! ### Pair state (R452, R457, R467) -/

/-- This module is module B of the pair: its PAIR_ID strap is 1. -/
def State.isB (s : State) : Bool := s.on PM_ID_PAIR_ID

/-- The module holds the claim (R452). -/
def State.holdsClaim (s : State) : Bool :=
  let st := s.pairState
  st == 0 || st == 4 || (st == 5 && s.pr.wasActive)

/-- The module holds the claim at the start of grid tick `g`; in REVERTING, module B holds it until G_r and module A from
G_r on (R467). -/
def State.ownsTick (s : State) (g : Nat) : Bool :=
  if s.pairState = 5 then
    match s.pr.gr with
    | some r => if s.pr.wasActive then decide (g < r) else decide (r ≤ g)
    | none => s.pr.wasActive
  else s.holdsClaim

/-- What a module that does not hold the claim adds to the closure instants of tick `g` (R169, R467). -/
def State.closeExtra (s : State) (g : Nat) : Nat :=
  if s.pairState = 1 ∨ s.ownsTick g then 0 else 20 * uUs

/-- Whether this module held the claim at the start of tick `g`, as noted then. -/
def State.owned? (s : State) (g : Nat) : Bool := ((s.pr.own.find? (fun x => x.1 == g)).map (fun x => x.2)).getD s.holdsClaim

/-! ### Hand-overs (R468) -/

/-- A hand-over of a slotted run on a pair: task, kernel code, invocation and the bytes handed over. -/
def State.noteHand (s : State) (tick cyc lane task code inv : Nat) (ready : Bool) (b : List Byte) : State :=
  if ready ∨ !s.pairOn then s
  else
    let h : Hand := { tick := tick, cyc := cyc, lane := lane,
                      bytes := leBytes 2 task ++ leBytes 1 code ++ leBytes 2 inv ++ b }
    { s with pr := { s.pr with hands := s.pr.hands ++ [h] } }

/-- stNum or sqNum of control block `n` has changed in this tick (R460). -/
def State.notePub (s : State) (n : Nat) : State :=
  if s.pairOn ∧ !s.pr.pubs.contains (s.tickG, n) then { s with pr := { s.pr with pubs := s.pr.pubs ++ [(s.tickG, n)] } }
  else s

/-! ### Marks that wait for a tick (R465, R466) -/

/-- Request the marks of mapped members: the first reaches the general port in cycle `due`, the others follow in the cycles after
it (R218, R286); of frames that reach it in one cycle the one of the lower `ord` goes first. -/
def requestMembers (ord frame due : Nat) (ms : List (Nat × List Byte × Nat)) (s : State) : State :=
  (ms.zipIdx).foldl (fun (t : State) (p : (Nat × List Byte × Nat) × Nat) =>
    let v := tVi (t.task (sTask (t.slot p.1.1).latest))
    t.request {
      due := due + p.2, lead := p.2, kind := 0, ord := ord * 32768 + p.2, seq := 0, slot := p.1.1, value := p.1.2.1, qual := p.1.2.2, vi := v, gen := t.gen v
      frame := frame }) s

/-- The marks of a GOOSE acceptance or departure: on a pair those of slotted tasks wait, as a note that the active module's own
acceptance lists for the tick start two ticks on (R465). -/
def gooseMarks (frame due sub st : Nat) (depart : Bool) (ms : List (Nat × List Byte × Nat)) (s : State) : State :=
  if !s.pairOn then requestMembers frame frame due ms s
  else
    let g := s.tickG
    let wait := ms.filter (fun m => s.slottedSlot m.1)
    let s := requestMembers frame frame due (ms.filter (fun m => !s.slottedSlot m.1)) s
    let own := s.ownsTick g
    let n : GNote := { tick := g, sub := sub, st := st, depart := depart, frame := frame, marks := wait, listed := own,
                       at' := if own then some (g + 2) else none }
    let fits := fun (x : GNote) => x.want && x.sub == sub && x.st == st && x.depart == depart
    let gs := if s.pr.goose.any fits then
        s.pr.goose.map (fun x => if fits x then { x with marks := wait, frame := frame, want := false } else x)
      else s.pr.goose ++ [n]
    { s with pr := { s.pr with goose := gs } }

/-- The deferred marks of the tick-start event of grid tick `g` (R465, R466): frames in the order in which the active module accepted them. -/
def deferredMarks (g : Nat) (s : State) : State :=
  let now := s.pr.tmarks.filter (fun p => decide (p.1 < tickRep g))
  let s := { s with pr := { s.pr with tmarks := s.pr.tmarks.filter (fun p => !decide (p.1 < tickRep g)) } }
  let s := now.foldl (fun (t : State) (p : Nat × MarkReq) => t.request { p.2 with due := t.cyc + 6 }) s
  let due := s.pr.goose.filter (fun (n : GNote) => (n.at'.map (fun t => decide (t ≤ g))).getD false)
  let s := due.zipIdx.foldl (fun (t : State) (x : GNote × Nat) =>
    let n := x.1
    if n.want then t.inc PR_CNT2_GOOSE_LATE
    else
      let ms := n.marks.map (fun m =>
        if n.depart then
          let o := (t.slot m.1).latest
          (m.1, slice o 0 8, setBits (sQual o) 1 0 1)
        else m)
      requestMembers x.2 n.frame (t.cyc + 6) ms t) s
  { s with pr := { s.pr with goose := s.pr.goose.filter (fun (n : GNote) =>
      match n.at' with
      | some t => decide (g < t)
      | none => decide (g < n.tick + 3)) } }

/-! ### Messages (R454) -/

/-- Part `part` of a message that concerns grid tick `g`, due now. -/
def State.twinPart (s : State) (kind g part : Nat) (payload : List Byte) : State :=
  s.twinQueue { due := s.cyc, kind := kind, part := part % 16, sec := g / 4800 % 2 ^ 32, tick := g % 4800, payload := payload }

/-- A message that concerns grid tick `g`, due now. -/
def State.twinTick (s : State) (kind g : Nat) (payload : List Byte) : State := s.twinPart kind g 0 payload

/-! ### The state map and its transfer by the active module (R471, R472) -/

def smGroup (e : List Byte) : Nat := leAt e 0 2 % 4096
def smKind (e : List Byte) : Nat := leAt e 2 1 % 8
def smCluster (e : List Byte) : Nat := leAt e 3 1 % 32
def smFirst (e : List Byte) : Nat := leAt e 4 4
def smCount (e : List Byte) : Nat := leAt e 8 2
def smLast (e : List Byte) : Nat := leAt e 10 2 % 8192
def smFirstTask (e : List Byte) : Nat := leAt e 12 2 % 8192

/-- The state map's entries with their numbers. -/
def State.smap (s : State) : List (Nat × List Byte) :=
  let a := s.rd PR_SMAP_HI_ADDR_HI * 2 ^ 32 + s.rd PR_SMAP_LO_ADDR_LO * 16
  (List.range (s.rd PR_SMAP_N_N)).map (fun i => (i, s.load (a + 16 * i) 16))

/-- Entries of one map group. -/
def State.smGroupOf (s : State) (g : Nat) : List (Nat × List Byte) := s.smap.filter (fun e => smGroup e.2 == g)

/-- Insert a number in an ascending list without repeats. -/
def insNat (x : Nat) : List Nat → List Nat
  | [] => [x]
  | y :: t => if x < y then x :: y :: t else if x = y then y :: t else y :: insNat x t

/-- The map groups in ascending order. -/
def State.smGroups (s : State) : List Nat := s.smap.foldl (fun l e => insNat (smGroup e.2) l) []

/-- Bytes that a control block's state fills: stNum, sqNum and 128 stored items of 12 bytes. -/
def cbStateLen : Nat := 8 + 12 * 128

/-- Bytes of an entry's items. -/
def smBytes (e : List Byte) : Nat :=
  match smKind e with
  | 1 => 8 * smCount e
  | 2 => 16 * smCount e
  | 3 => 32 * smCount e
  | 4 => cbStateLen
  | _ => 0

/-- A control block's stNum, sqNum and stored items. -/
def cbState (c : Cb) : List Byte :=
  let items := c.items.getD []
  leBytes 4 c.st ++ leBytes 4 c.sq ++ (List.range 128).flatMap (fun i =>
    match items[i]? with
    | some x => leBytes 1 1 ++ leBytes 1 x.ty ++ leBytes 2 x.q ++ leBytes 8 x.v
    | none => leBytes 12 0)

/-- The items of an entry as this module holds them. -/
def State.smItems (s : State) (e : List Byte) : List Byte :=
  let l := (List.range (smCount e)).map (fun i => smFirst e + i)
  match smKind e with
  | 1 => s.mapLoad (addrCluster (smCluster e) + 8 * smFirst e) (8 * smCount e)
  | 2 => l.flatMap (fun i => slice (s.timer i).bytes 0 16)
  | 3 => l.flatMap (fun i => slice (s.slot i).latest 0 32)
  | 4 => cbState (agetD s.pb.cbs (smFirst e) {})
  | _ => []

/-- Send the items of a map entry in STATE messages of at most 8,184 bytes of data. -/
def sendItems (due tick grp i : Nat) : Nat → Nat → List Byte → State → State
  | 0, _, _, s => s
  | n + 1, ofs, b, s =>
    if b.isEmpty then s
    else
      let body := leBytes 2 grp ++ leBytes 2 i ++ leBytes 4 ofs ++ b.take 8184
      let s := s.twinQueue { due := due, kind := 8, sec := tick / 4800 % 2 ^ 32, tick := tick % 4800, payload := body }
      sendItems due tick grp i n (ofs + 8184) (b.drop 8184) s

/-- Bytes of a map group's items. -/
def State.groupBytes (s : State) (grp : Nat) : Nat := (s.smGroupOf grp).foldl (fun a e => a + smBytes e.2) 0

/-- A map group whose read opens: the next one of the pass goes, and one that has been sent goes again, for the partner may not have
installed it; within the tick's allowance, of which a repeated group leaves what the next one of the pass needs (R472; log entry 80). -/
def sendGroup (tick grp : Nat) (s : State) : State :=
  match s.pr.pass with
  | none => s
  | some due =>
    let n := s.groupBytes grp
    let used := if s.pr.sent.1 = s.tickG then s.pr.sent.2 else 0
    let head := due.head? == some grp
    let keep := if head then 0 else (due.head?.map s.groupBytes).getD 0
    if (head || s.pr.passOnce || !due.contains grp) ∧ used + n + keep ≤ s.rd PR_XFER_XFER_KIB * 1024 then
      let at' := s.cyc + ceilDiv n 16
      let s := (s.smGroupOf grp).foldl
        (fun (t : State) e => sendItems at' tick grp e.1 (smBytes e.2 / 8184 + 1) 0 (t.smItems e.2) t) s
      let rest := if head then due.tail else due
      { s with pr := { s.pr with
          sent := (s.tickG, used + n), pass := some (if rest.isEmpty then s.smGroups else rest)
          passOnce := s.pr.passOnce || rest.isEmpty } }
    else s

/-- STATE_GROUP_SEND (R472): at the end of a run of a map group's LAST_TASK the active module reads the group and sends it, while the
partner needs it. -/
def stateGroupSend (task tick : Nat) (s : State) : State :=
  if s.pr.pass.isNone ∨ !s.holdsClaim ∨ !s.pairOn then s
  else if s.pr.peer ≠ 2 then { s with pr := { s.pr with pass := none } }
  else
    (s.smGroups.filter (fun g => (s.smGroupOf g).any (fun e => smLast e.2 == task))).foldl (fun (t : State) g => sendGroup tick g t) s

end Sys2Proof.Machine
end

