-- ==== Sys2Proof/Machine/Capture.lean ====
section
/-!
DEFINITION. Trigger and disturbance capture (15_recording.md R361–R370, R372): record definitions, rows, triggers and capture
states.
-/
namespace Sys2Proof.Machine

/-! ### Definitions (R361, R363, R364) -/

/-- The run state of definition `r`, and its replacement. -/
def State.cap (s : State) (r : Nat) : Cap := agetD s.tg.caps r {}
def State.setCap (s : State) (r : Nat) (c : Cap) : State := { s with tg := { s.tg with caps := aput s.tg.caps r c } }

/-- Capture events and states (R368, R373). -/
def State.tgEvent (s : State) (f : Fld) : State := s.event f ES_TG
def State.tgState (s : State) (r : Nat) : Nat := s.rd (TG_D_STATE.i r)

/-- Show the state of a definition, with ACTIVE. -/
def State.setTgState (s : State) (r st : Nat) : State :=
  let t := s.wr (TG_D_STATE.i r) st
  t.wr TG_STATUS_ACTIVE (setBits (t.rd TG_STATUS_ACTIVE) r r (b2n (st != 0)))

def State.tgRate (s : State) (r : Nat) : Nat := rateOf (s.rd (TG_D_RATE.i r))
def State.tgNa (s : State) (r : Nat) : Nat := s.rd (TG_D_NA.i r)
def State.tgNb (s : State) (r : Nat) : Nat := s.rd (TG_D_NB.i r)

/-- Entry `i` of a definition's channel list. -/
def State.chEntry (s : State) (r i : Nat) : Nat :=
  s.loadN (s.rd (TG_D_CHL_LO.i r) * 4 + s.rd (TG_D_CHL_HI.i r) * 2 ^ 32 + 4 * i) 4

/-- Kind and index of binary channel `i`. -/
def State.binEntry (s : State) (r i : Nat) : Nat × Nat :=
  let e := s.chEntry r (s.tgNa r + i)
  (bits e 31 28, e % 65536)

/-- Bytes of a row, slots of a buffer and the address of buffer `b` (R364). -/
def State.rowBytes (s : State) (r : Nat) : Nat := ceilDiv (8 + 6 * s.tgNa r + 4 * ceilDiv (s.tgNb r) 32) 64 * 64
def State.rowSlots (s : State) (r : Nat) : Nat := s.rd (TG_D_PRE.i r) + 1 + s.rd (TG_D_POST.i r)
def State.capBuf (s : State) (r b : Nat) : Nat :=
  s.rd (TG_D_BUF_LO.i r) * 64 + s.rd (TG_D_BUF_HI.i r) * 2 ^ 32 + b * (64 + s.rowSlots r * s.rowBytes r)

/-- Instant of row `k` in accumulator units, and the instant at which it is finalised (R362). -/
def rowInstant (rate k : Nat) : Nat := k * uS / rate
def State.rowFinal (s : State) (r k : Nat) : Nat :=
  rowInstant (s.tgRate r) k + s.rd (AL_GROUP_W_US.i (s.rd (TG_D_GROUP.i r))) * uUs + s.closeExtra s.tickG

/-- First row not finalised at the present value of the base. -/
def State.firstOpenRow (s : State) (r : Nat) : Nat :=
  let w := s.rd (AL_GROUP_W_US.i (s.rd (TG_D_GROUP.i r))) * uUs + s.closeExtra s.tickG
  if s.now < w then 0 else (s.now - w) * s.tgRate r / uS + 1

/-! ### Levels of binary channels (R363) -/

/-- Level of a binary source as it stands. -/
def State.binNow (s : State) (kind index : Nat) : Bool :=
  match kind with
  | 1 => bit (s.rd DU_SNS_STATE_RAW) index
  | 2 => bit (s.rd DU_SNS_STATE_DEB) index
  | 3 => s.on (AQ_CH_HI.i index)
  | 4 => s.on (AQ_CH_LO.i index)
  | 5 => if index % 2 = 0 then (s.aqCh (index / 2)).above else (s.aqCh (index / 2)).below
  | 6 => s.on (PB_TRIP_CMD.i index)
  | 7 => s.on (DU_FLT_RECOG.i index)
  | 9 =>
    match aget s.ds.slots index with
    | some o => bit (leAt ((o.new.map (fun p => p.1)).getD o.bytes) 0 8) 0
    | none => false
  | 0xA => s.lg.ind
  | 0xB => s.on PR_STATUS_OEN_EXT
  | _ => false

/-! ### The stages of a pattern (R367) -/

/-- Pattern entry `i`: EN, VALUE, STAGE and channel. -/
def State.patEntry (s : State) (r i : Nat) : Bool × Bool × Nat × Nat :=
  let e := s.loadN (s.rd (TG_D_PAT_LO.i r) * 4 + s.rd (TG_D_PAT_HI.i r) * 2 ^ 32 + 4 * i) 4
  (bit e 31, bit e 30, bits e 29 28, e % 4096)

/-- Enabled entries of a stage: channel and value. -/
def State.stageEntries (s : State) (r k : Nat) : List (Nat × Bool) :=
  ((List.range (s.rd (TG_D_PAT_N.i r))).map (s.patEntry r)).filterMap (fun e =>
    if e.1 ∧ e.2.2.1 = k then some (e.2.2.2, e.2.1) else none)

/-- Level of a channel in a level list. -/
def levelOf (l : List (Nat × Bool)) (i : Nat) : Bool := agetD l i false

/-- A stage is true under the levels. -/
def State.stageTrue (s : State) (r k : Nat) (l : List (Nat × Bool)) : Bool :=
  (s.stageEntries r k).all (fun e => levelOf l e.1 == e.2)

/-! ### Capture states (R368) -/

/-- The free buffer with the lowest number after the last one used. -/
def State.freeBuf (s : State) (r : Nat) : Option Nat :=
  let n := s.rd (TG_D_BUF_N.i r) + 1
  let from' := match (s.cap r).lastBuf with
    | some b => b + 1
    | none => 0
  ((List.range n).map (fun i => (from' + i) % n)).find? (fun b => !bit (s.rd (TG_D_FULL.i r)) b)

/-- Levels of a definition's binary channels as their sources stand. -/
def State.sourceLevels (s : State) (r : Nat) : List (Nat × Bool) :=
  (List.range (s.tgNb r)).filterMap (fun i =>
    let e := s.binEntry r i
    if s.binNow e.1 e.2 then some (i, true) else none)

/-- A definition that leaves IDLE takes its levels from their sources, and its first row is the first whose instant is then still to come;
a stage that is true then has not become true, and a level POL that PULSE_WIDTH or TIMEOUT watches counts from then (R362, R365, R367; log
entry 61). -/
def listen (r : Nat) (s : State) : State :=
  let lv := s.sourceLevels r
  let mode := s.rd (TG_D_MODE.i r)
  let stands := (mode == 1 || mode == 3) && levelOf lv (s.rd (TG_D_CH.i r)) == s.on (TG_D_POL.i r)
  s.setCap r {
    lastBuf := (s.cap r).lastBuf, base := lv, level := lv, stageWas := s.stageTrue r 0 lv
    nextRow := ceilDiv (s.now * s.tgRate r) uS, mark := if stands then some s.nowStamp else none }

/-- Entry into ARMED, or into WAIT_BUF for want of a buffer. What the definition has heard of its channels stays. -/
def enterArmed (r ignore : Nat) (s : State) : State :=
  let c := s.cap r
  match s.freeBuf r with
  | none =>
    let s := (s.setCap r { c with trig := none, holdTo := none, ignore := ignore }).setTgState r 4
    ((s.inc (TG_D_NOBUF.i r)).tgEvent TG_EVENT_NOBUF).record 0x0F 0x03 r
  | some b =>
    let k := max c.nextRow (s.firstOpenRow r)
    let n : Cap := { c with
      lastBuf := some b, row0 := k, nextRow := k, vals := c.vals.filter (fun v => decide (k ≤ v.1))
      prevRow := if k = c.nextRow then c.prevRow else none
      trig := none, evseq := 0, late := 0, steps := [], holdTo := none, ignore := ignore }
    ((s.setCap r n).wr (TG_D_CUR.i r) b).setTgState r 1

/-- Leave for IDLE: a capture in progress is abandoned. -/
def enterIdle (r : Nat) (s : State) : State := (s.setCap r { lastBuf := (s.cap r).lastBuf }).setTgState r 0

/-- Definitions follow TG_CTRL.EN and their own EN. -/
def followEn (r : Nat) (s : State) : State :=
  let on := s.on TG_CTRL_EN && s.on (TG_D_EN.i r)
  if on ∧ s.tgState r = 0 then enterArmed r 0 (listen r s)
  else if !on ∧ s.tgState r ≠ 0 then enterIdle r s
  else s

/-! ### Firing (R365, R366, R368) -/

/-- DATA of a TRIGGER or DONE record (R369). -/
def capData (s : State) (r : Nat) (tk : Nat) : Nat :=
  r + s.rd (TG_D_CUR.i r) * 16 + tk * 256 + s.rd (TG_D_CAPNO.i r) * 2 ^ 32

/-- A trigger of definition `r` alone; answers whether it fired. -/
def fireOne (r time tk : Nat) (s : State) : Bool × State :=
  let st := s.tgState r
  let c := s.cap r
  if st = 1 then
    if c.ignore ≠ 0 then (false, (s.setCap r { c with ignore := c.ignore - 1 }).inc (TG_D_SUPPRESSED.i r))
    else
      let row := time * uSt * s.tgRate r / uS
      let s := (s.setCap r { c with trig := some (time, tk, row), trigBase := s.gov, evseq := 0 }).setTgState r 2
      let s := s.recordAt 0x0F 0x01 (capData s r tk) (stampSec time) (stampNs time)
      (true, s.binChange 0xC r true true time tk)
  else if st = 2 ∨ st = 3 then (false, s.inc (TG_D_SUPPRESSED.i r))
  else (false, s)

/-- A trigger and the definitions linked to it, breadth first. -/
def fireLinked : Nat → Nat → List (Nat × Nat) → State → State
  | 0, _, _, s => s
  | _, _, [], s => s
  | n + 1, time, (r, tk) :: rest, s =>
    let (ok, s) := fireOne r time tk s
    let more := if ok then ((List.range 16).filter (fun q => bit (s.rd (TG_D_LINK.i q)) r)).map (fun q => (q, 6)) else []
    fireLinked n time (rest ++ more) s

/-- A trigger of definition `r` at a time, of a kind. Each of the 16 definitions fires at most once, and triggers 16 at most. -/
def fire (r time tk : Nat) (s : State) : State := fireLinked 300 time [(r, tk)] s

/-- Whether a width or time `w`, a difference of stamps, meets CMPMODE (R365). -/
def cmpMode (s : State) (r w : Nat) : Bool :=
  let t1 := s.rd (TG_D_T1.i r) * 65536
  let t2 := s.rd (TG_D_T2.i r) * 65536
  match s.rd (TG_D_CMPMODE.i r) with
  | 0 => decide (w < t1)
  | 1 => decide (t2 < w)
  | 2 => decide (t1 ≤ w) && decide (w ≤ t2)
  | _ => !(decide (t1 ≤ w) && decide (w ≤ t2))

/-- The crossings that RUNT and SLEW watch: through LO or HI, upward or downward. -/
inductive Crossing where
  | riseLo
  | riseHi
  | fallHi
  | fallLo
deriving DecidableEq, Repr

/-- RUNT and SLEW at one crossing (R365). -/
def crossing (r : Nat) (x : Crossing) (t tk : Nat) (s : State) : State :=
  let c := s.cap r
  let pol := s.on (TG_D_POL.i r)
  let put := fun (m : Option Nat) (u : State) => u.setCap r { u.cap r with mark := m }
  let runt := s.rd (TG_D_MODE.i r) == 2
  if runt then
    match pol, x with
    | false, .riseLo => put (some t) s
    | false, .riseHi => put none s
    | false, .fallLo => if c.mark.isSome then fire r t tk (put none s) else s
    | true, .fallHi => put (some t) s
    | true, .fallLo => put none s
    | true, .riseHi => if c.mark.isSome then fire r t tk (put none s) else s
    | _, _ => s
  else
    let done := fun (u : State) =>
      match c.mark with
      | some m => if cmpMode s r (t - m) then fire r t tk (put none u) else put none u
      | none => u
    match pol, x with
    | false, .riseLo => put (some t) s
    | false, .riseHi => done s
    | false, .fallLo => put none s
    | true, .fallHi => put (some t) s
    | true, .fallLo => done s
    | true, .riseHi => put none s
    | _, _ => s

/-! ### PATTERN (R367) -/

/-- The sequence returns to stage 0 (R367); `l` holds the levels before what is delivered now. -/
def seqReset (r : Nat) (l : List (Nat × Bool)) (s : State) : State :=
  (s.setCap r { s.cap r with stage := 0, stageWas := s.stageTrue r 0 l }).inc (TG_D_SEQ_RESET.i r)

/-- End of the stage window as a stamp. -/
def State.seqEnd (s : State) (r : Nat) : Nat := (s.cap r).stageAt + s.rd (TG_D_SEQ_US.i r) * 1000 * 65536

/-- The stage window has passed at a stamp. -/
def State.seqLate (s : State) (r t : Nat) : Bool :=
  (s.cap r).stage != 0 && decide (s.seqEnd r < t)

/-- One round of stage evaluation under levels `l`, which were `old` before; `ch` holds the channels changed with their stamps and
kinds. -/
def patEval (r : Nat) (old l : List (Nat × Bool)) (ch : List (Nat × Nat × Nat)) (s : State) : State :=
  let t := ch.foldl (fun m (x : Nat × Nat × Nat) => max m x.2.1) 0
  let s := if s.seqLate r t then seqReset r old s else s
  let c := s.cap r
  let now := s.stageTrue r c.stage l
  if now && !c.stageWas then
    let of := (s.stageEntries r c.stage).map (fun e => e.1)
    let mine := ch.filter (fun (x : Nat × Nat × Nat) => of.contains x.1)
    let last := mine.foldl (fun (m : Nat × Nat) (x : Nat × Nat × Nat) => if m.1 ≤ x.2.1 then x.2 else m) (0, 0)
    if c.stage = s.rd (TG_D_STAGES.i r) then
      let s := s.setCap r { c with stage := 0, stageWas := s.stageTrue r 0 l }
      fire r last.1 last.2 s
    else
      s.setCap r { c with stage := c.stage + 1, stageAt := last.1, stageWas := s.stageTrue r (c.stage + 1) l }
  else s.setCap r { c with stageWas := now }

/-! ### The end of a capture (R364, R368) -/

/-- The header of a complete capture, DONE_CAPNO last (R364). -/
def capHeader (s : State) (r : Nat) (time tk row : Nat) : List Byte :=
  let c := s.cap r
  let n := s.rowSlots r
  let pre := min (s.rd (TG_D_PRE.i r)) (row - c.row0)
  let cap := s.rd (TG_D_CAPNO.i r)
  let rate := s.tgRate r
  let stepped := c.steps.any (fun v =>
    decide (rowInstant rate (row - pre) ≤ v) && decide (v < rowInstant rate (row + s.rd (TG_D_POST.i r))))
  leBytes 4 cap ++ leBytes 1 (r + s.rd (TG_D_CUR.i r) * 16) ++ leBytes 1 tk ++ leBytes 1 (b2n stepped) ++
    leBytes 1 (s.rd (TG_D_RATE.i r)) ++ stampBytes c.trigBase time ++ leBytes 4 ((row - c.row0) % n) ++
    leBytes 4 ((row - pre - c.row0) % n) ++ leBytes 4 pre ++ leBytes 4 c.evseq ++ leBytes 2 (s.tgNa r) ++
    leBytes 2 (s.tgNb r) ++ leBytes 2 (s.rowBytes r) ++ leBytes 2 c.late ++ leBytes 16 0 ++ leBytes 4 cap

/-- The capture completes: header, DONE, and HOLD (R364, R368). -/
def capDone (r time tk row : Nat) (s : State) : State :=
  let at' := s.capBuf r (s.rd (TG_D_CUR.i r))
  let s := s.store at' (capHeader s r time tk row)
  let waits := s.recReqs.any (fun q => q.src == 0x0F && q.code == 1 && q.data % 16 == r)
  let s := if waits then s.setCap r { s.cap r with hdr := some (at' + 32) } else s
  let s := s.record 0x0F 0x02 (capData s r tk)
  let s := s.wr (TG_D_FULL.i r) (s.rd (TG_D_FULL.i r) ||| 2 ^ s.rd (TG_D_CUR.i r))
  let s := ((s.inc (TG_D_DONE.i r)).tgEvent TG_EVENT_DONE).wr (TG_D_CAPNO.i r) (s.rd (TG_D_CAPNO.i r) + 1)
  let h := s.rd (TG_D_HOLD.i r)
  if s.on (TG_D_HOLD_KIND.i r) then enterArmed r h (s.setTgState r 3)
  else (s.setCap r { s.cap r with trig := none, holdTo := some (s.clk.lapse + h * uMs) }).setTgState r 3

/-- A capture whose last post row has been finalised is complete (R368). -/
def capSettle (r : Nat) (s : State) : State :=
  match (s.cap r).trig with
  | some (time, tk, row) => if row + s.rd (TG_D_POST.i r) < (s.cap r).nextRow then capDone r time tk row s else s
  | none => s

/-- Every capture whose last post row has been finalised is complete. -/
def settleCaps (s : State) : State := (List.range 16).foldl (fun (t : State) r => capSettle r t) s

/-! ### Delivery of changes -/

/-- The changes among levels delivered in order, from the level before them. -/
def edgesOf (cur : Bool) : List (Bool × Nat × Nat) → List (Bool × Nat × Nat)
  | [] => []
  | x :: t => if x.1 = cur then edgesOf cur t else x :: edgesOf x.1 t

/-- A binary entry of a channel list names the source of a change; FORCE_IND and OEN_EXT are one each, whatever INDEX (R363). -/
def BinChange.of (x : BinChange) (e : Nat × Nat) : Bool := e.1 == x.kind && (e.2 == x.index || x.kind == 0xA || x.kind == 0xB)

/-- The changes of channels among those delivered together, from the levels before them: one that leaves its channel's level is none. -/
def realChanges (l : List (Nat × Bool)) : List (Nat × BinChange) → List (Nat × BinChange)
  | [] => []
  | h :: t =>
    if !h.2.pulse ∧ levelOf l h.1 = h.2.level then realChanges l t else h :: realChanges (aput l h.1 h.2.level) t

/-- The levels that a change gives its channel: a pulse is TRUE and at once FALSE (R367). -/
def BinChange.levels (x : BinChange) : List (Bool × Nat × Nat) :=
  if x.pulse then [(true, x.stamp, x.tk), (false, x.stamp, x.tk)] else [(x.level, x.stamp, x.tk)]

/-- A change of the channel that PULSE_WIDTH or TIMEOUT watches. -/
def levelWatch (r : Nat) (level : Bool) (t tk : Nat) (s : State) : State :=
  let c := s.cap r
  let pol := s.on (TG_D_POL.i r)
  if level = pol then s.setCap r { c with mark := some t, fired := false }
  else
    match c.mark with
    | none => s
    | some m =>
      let s := s.setCap r { c with mark := none, fired := false }
      let lasts := m + s.rd (TG_D_T1.i r) * 65536
      if s.rd (TG_D_MODE.i r) = 1 then (if cmpMode s r (t - m) then fire r t tk s else s)
      else if !c.fired ∧ lasts ≤ t then fire r lasts 4 s
      else s

/-- Whether RUNT and SLEW of the definition take comparator edges, and of which channel: a local channel with CMP_EN (R366). -/
def State.cmpChannel (s : State) (r : Nat) : Option Nat :=
  let e := s.chEntry r (s.rd (TG_D_CH.i r))
  match aget s.al.str (bits e 12 3) with
  | some d =>
    let ch := bits (leAt d.bytes 0 1) 5 4 * 8 + e % 8
    if bit (leAt d.bytes 0 1) 6 ∧ ch < 24 ∧ s.on (AQ_CH_CMP_EN.i ch) then some ch else none
  | none => none

/-- Changes delivered in one cycle, applied to definition `r` together. -/
def capChanges (l : List BinChange) (r : Nat) (s : State) : State :=
  if s.tgState r = 0 then s
  else
    let ent := (List.range (s.tgNb r)).map (fun i => (i, s.binEntry r i))
    let hits := l.flatMap (fun x => (ent.filter (fun e => x.of e.2)).map (fun e => (e.1, x)))
    let c := s.cap r
    let lv := hits.foldl (fun m (h : Nat × BinChange) => aput m h.1 h.2.level) c.level
    let after := hits.foldl (fun m (h : Nat × BinChange) => if h.2.pulse then aput m h.1 false else m) lv
    let ch := c.changes ++ hits.map (fun h => (h.1, h.2.stamp, h.2.level, h.2.pulse))
    let s := s.setCap r { c with changes := ch, level := after }
    let mode := s.rd (TG_D_MODE.i r)
    if mode = 0 then
      let real := realChanges c.level hits
      let falls := real.filter (fun h => h.2.pulse)
      let times := fun (x : List (Nat × BinChange)) => x.map (fun h => (h.1, h.2.stamp, h.2.tk))
      let s := if real.isEmpty then s else patEval r c.level lv (times real) s
      if falls.isEmpty then s else patEval r lv after (times falls) s
    else if mode = 1 ∨ mode = 3 then
      let ch := s.rd (TG_D_CH.i r)
      (edgesOf (levelOf c.level ch) ((hits.filter (fun h => h.1 == ch)).flatMap (fun h => h.2.levels))).foldl
        (fun (u : State) (x : Bool × Nat × Nat) => levelWatch r x.1 x.2.1 x.2.2 u) s
    else if mode = 2 ∨ mode = 4 then
      match s.cmpChannel r with
      | none => s
      | some n =>
        (l.filter (fun x => x.kind == 5 && x.index / 2 == n)).foldl (fun (u : State) x =>
          let e : Crossing :=
            if x.index % 2 = 0 then (if x.level then .riseHi else .fallHi) else (if x.level then .fallLo else .riseLo)
          crossing r e x.stamp x.tk u) s
    else s

/-- The cycle of the oldest changes delivered and not yet applied: those of a cycle are all there once it has ended. -/
def State.changeDue (s : State) : Option Nat :=
  ((s.tg.changes.map (fun c => c.cyc)).filter (fun c => decide (c < s.cyc))).min?

/-- BINARY_CHANGE (R367): the changes delivered in the oldest cycle are applied together, in the cycle after it or later. -/
def execBinaryChange (s : State) : Host.Outcome State Fault Refusal :=
  whileOn 14 s <|
  match s.changeDue with
  | none => .next s
  | some k =>
    let now := s.tg.changes.filter (fun c => c.cyc == k)
    let s := { s with tg := { s.tg with changes := s.tg.changes.filter (fun c => c.cyc != k) } }
    .next (settleCaps ((List.range 16).foldl (fun (t : State) r => capChanges now r t) s))

/-- A change stamped at or before `t` is still on its way to capture. -/
def State.changeWaits (s : State) (t : Nat) : Bool := s.tg.changes.any (fun c => decide (c.stamp ≤ t))

/-- SEQ_WINDOW_TIMEOUT (R367): the window has passed, and no change stamped within it is still on its way. -/
def execSeqWindowTimeout (r : Fin 16) (s : State) : Host.Outcome State Fault Refusal :=
  whileOn 14 s <|
  if s.tgState r ≠ 0 ∧ s.rd (TG_D_MODE.i r) = 0 ∧ s.seqLate r s.nowStamp ∧ !s.changeWaits (s.seqEnd r) then
    .next (seqReset r (s.cap r).level s)
  else .next s

/-- TRIGGER_LEVEL_TIMEOUT (R365, R366): level POL has lasted T1, and no change stamped by then is still on its way. -/
def execTriggerLevelTimeout (r : Fin 16) (s : State) : Host.Outcome State Fault Refusal :=
  whileOn 14 s <|
  let c := s.cap r
  match c.mark with
  | none => .next s
  | some m =>
    let t := m + s.rd (TG_D_T1.i r) * 65536
    if s.rd (TG_D_MODE.i r) = 3 ∧ !c.fired ∧ t ≤ s.nowStamp ∧ s.tgState r ≠ 0 ∧ !s.changeWaits t then
      .next (settleCaps (fire r t 4 (s.setCap r { c with fired := true })))
    else .next s

/-! ### Rows (R361, R362, R364) -/

/-- A sample of row `k` that the definition no longer takes counts in LATE where the row has been finalised; one from before its first row
does not (R362). -/
def capLate (r k : Nat) (s : State) : State :=
  if k < (s.cap r).row0 ∧ s.now < s.rowFinal r k then s
  else ((s.setCap r { s.cap r with late := min 65535 ((s.cap r).late + 1) }).inc (TG_D_LATE.i r)).tgEvent TG_EVENT_LATE

/-- The channels of definition `r` that carry quantities of a stream: channel and quantity. -/
def State.carries (s : State) (r stream : Nat) : List (Nat × Nat) :=
  (List.range (s.tgNa r)).filterMap (fun i =>
    let e := s.chEntry r i
    if bits e 12 3 = stream then some (i, e % 8) else none)

/-- Rows are written: ARMED or POST (R368). -/
def State.capRuns (s : State) (r : Nat) : Bool := s.tgState r == 1 || s.tgState r == 2

/-- A sample that reaches no Pantry write counts in LATE where its row has been finalised (R362). -/
def State.capMissed (s : State) (stream k : Nat) : State :=
  (List.range 16).foldl (fun (t : State) r =>
    if t.capRuns r ∧ k < (t.cap r).nextRow then (t.carries r stream).foldl (fun u _ => capLate r k u) t else t) s

/-- A sample for capture (R361): stream, absolute sample number and values with qualities. -/
def State.capSample (s : State) (stream k : Nat) (vals : List (Int × Nat)) : State :=
  (List.range 16).foldl (fun (t : State) r =>
    if t.tgState r = 0 then t
    else
      let hits := (t.carries r stream).filterMap (fun e => (vals[e.2]?).map (fun v => (e.1, v)))
      let running := t.capRuns r
      hits.foldl (fun (u : State) (h : Nat × Int × Nat) =>
        let c := u.cap r
        if running ∧ k < c.nextRow then capLate r k u
        else if c.vals.any (fun v => v.1 == k && v.2.1 == h.1) then u
        else u.setCap r { c with vals := (k, h.1, toBits 32 h.2.1, h.2.2 % 8192) :: c.vals }) t) s

/-- State of a binary channel in a row: its latest change stamped at or before the row's instant, or for a pulse channel whether
one fell in the row's interval (R362, R363). -/
def rowLevel (c : Cap) (from' upTo i : Nat) : Bool :=
  let mine := c.changes.filter (fun x => x.1 == i && decide (x.2.1 ≤ upTo))
  if mine.any (fun x => x.2.2.2) then mine.any (fun x => x.2.2.2 && decide (from' < x.2.1))
  else
    match mine.getLast? with
    | some x => x.2.2.1
    | none => levelOf c.base i

/-- Bits of a list, four bytes for each 32. -/
def bitWords (l : List Bool) : List Byte := leBytes (4 * ceilDiv l.length 32) (bitsOf l)
where
  /-- A number whose bit i is the i-th entry. -/
  bitsOf : List Bool → Nat
    | [] => 0
    | b :: t => b2n b + 2 * bitsOf t

/-- The bytes of row `k` (R362, R364). -/
def rowContents (s : State) (r k : Nat) (skip : Bool) : List Byte :=
  let c := s.cap r
  let rate := s.tgRate r
  let up := rowInstant rate k / uSt
  let lo := rowInstant rate (k - 1) / uSt
  let at' := fun i => (c.vals.find? (fun v => v.1 == k && v.2.1 == i)).map (fun v => v.2.2)
  let na := List.range (s.tgNa r)
  leBytes 4 (k / rate) ++ leBytes 2 (k % rate) ++ leBytes 1 (b2n skip) ++ [0] ++
    na.flatMap (fun i => leBytes 4 (((at' i).map (fun v => v.1)).getD 0x80000000)) ++
    na.flatMap (fun i => leBytes 2 (((at' i).map (fun v => v.2)).getD 0x2001)) ++
    bitWords ((List.range (s.tgNb r)).map (rowLevel c lo up))

/-- The instant, as a stamp, at which the line from value `xa` in row `a` to `xb` in row `b` crosses `thr`, rounded down to 1 ns (R366). -/
def crossTime (rate a b : Nat) (xa xb thr : Int) : Nat :=
  let d : Nat := (xb - xa).natAbs
  10 ^ 9 * (a * d + (thr - xa).natAbs * (b - a)) / (d * rate) * 65536

/-- RUNT and SLEW between two rows (R365, R366): crossings in their order, with interpolated instants. The threshold that the watched pulse
or edge must pass is passed strictly, the one it may not reach or must reach is reached at equality; POL mirrors them. -/
def rowCrossings (r a b : Nat) (xa xb : Int) (s : State) : State :=
  let lo := s.rdS (TG_D_LO.i r)
  let hi := s.rdS (TG_D_HI.i r)
  let at' := crossTime (s.tgRate r) a b xa xb
  let up := fun (thr : Int) => decide (xa ≤ thr) && decide (thr < xb)
  let upTo := fun (thr : Int) => decide (xa < thr) && decide (thr ≤ xb)
  let down := fun (thr : Int) => decide (xb < thr) && decide (thr ≤ xa)
  let downTo := fun (thr : Int) => decide (xb ≤ thr) && decide (thr < xa)
  let pol := s.on (TG_D_POL.i r)
  let s := if up lo then crossing r .riseLo (at' lo) 2 s else s
  let s := if (if pol then up hi else upTo hi) then crossing r .riseHi (at' hi) 2 s else s
  let s := if (if pol then down hi else downTo hi) then crossing r .fallHi (at' hi) 2 s else s
  if (if pol then downTo lo else down lo) then crossing r .fallLo (at' lo) 2 s else s

/-- Evaluate an analogue trigger at the row just finalised. -/
def rowTrigger (r k : Nat) (v : Option (Nat × Nat)) (s : State) : State :=
  let mode := s.rd (TG_D_MODE.i r)
  let c := s.cap r
  if (mode = 2 ∨ mode = 4) ∧ s.cmpChannel r = none then
    match v with
    | none => s.setCap r { c with prevRow := none }
    | some (x, _) =>
      let y := sext 32 x
      let s := s.setCap r { c with prevRow := some (k, y) }
      match c.prevRow with
      | some (k0, y0) => rowCrossings r k0 k y0 y s
      | none => s
  else s

/-- The channel list that a row of definition `r` reads in DRAM holds a lost word: the row is discarded (R489). -/
def State.rowLost (s : State) (r : Nat) : Bool :=
  s.badSpan (s.rd (TG_D_CHL_LO.i r) * 4 + s.rd (TG_D_CHL_HI.i r) * 2 ^ 32) (4 * (s.tgNa r + s.tgNb r))

/-- ROW_FINALISE (R362): the next row of definition `r` has reached its instant plus W, and the changes delivered have been
applied. A discarded row is not stored and fires no trigger (R489; log entry 83). -/
def execRowFinalise (r : Fin 16) (s : State) : Host.Outcome State Fault Refusal :=
  whileOn 14 s <|
  let st := s.tgState r
  let c := s.cap r
  let k := c.nextRow
  if (st = 1 ∨ st = 2) ∧ s.rowFinal r k ≤ s.now ∧ s.changeDue.isNone then
    let inst := rowInstant (s.tgRate r) k
    let skip := s.clk.stepSpan.any (fun p => decide (p.1 < inst) && decide (inst < p.2))
    let slot := (k - c.row0) % s.rowSlots r
    let lost := s.rowLost r
    let s := if lost then s else s.store (s.capBuf r (s.rd (TG_D_CUR.i r)) + 64 + slot * s.rowBytes r) (rowContents s r k skip)
    let up := inst / uSt
    let base := (c.changes.filter (fun x => decide (x.2.1 ≤ up) && !x.2.2.2)).foldl
      (fun m (x : Nat × Nat × Bool × Bool) => aput m x.1 x.2.2.1) c.base
    let chv := (c.vals.find? (fun v => v.1 == k && v.2.1 == s.rd (TG_D_CH.i r))).map (fun v => v.2.2)
    let s := s.setCap r { c with
      nextRow := k + 1, base := base, changes := c.changes.filter (fun x => decide (up < x.2.1))
      vals := c.vals.filter (fun v => decide (k < v.1)) }
    .next (settleCaps (if lost then s else rowTrigger r k chv s))
  else .next s

/-- HOLD_EXPIRY (R368). -/
def execHoldExpiry (r : Fin 16) (s : State) : Host.Outcome State Fault Refusal :=
  whileOn 14 s <|
  match (s.cap r).holdTo with
  | some t => if s.tgState r = 3 ∧ t ≤ s.clk.lapse then .next (enterArmed r 0 s) else .next s
  | none => .next s

/-! ### The TG_ page (R368, R372) -/

/-- A write of TG_REL: the buffer is free; a definition in WAIT_BUF is armed. -/
def tgRelWrite (v : Nat) (s : State) : State :=
  let r := bits v 7 4
  let s := s.wr (TG_D_FULL.i r) (setBits (s.rd (TG_D_FULL.i r)) (v % 8) (v % 8) 0)
  if s.tgState r = 4 ∧ (s.freeBuf r).isSome then enterArmed r (s.cap r).ignore s else s

/-- A write of TG_FORCE (R365): the definitions named fire together, and then those linked to them. -/
def tgForceWrite (v : Nat) (s : State) : State :=
  settleCaps (fireLinked 300 s.nowStamp ((maskList 16 v).map (fun r => (r, 5))) s)

/-- Writes of the TG_ page. A write of a definition's first word that clears EN is the one write taken while EN is 1. -/
def tgWrite (o v : Nat) (s : State) : State :=
  if o = 0 then (List.range 16).foldl (fun (t : State) r => followEn r t) (s.swPut 0xC00000 v)
  else if o = 0x0C then tgForceWrite v s
  else if o = 0x10 then tgRelWrite v s
  else if 0x100 ≤ o ∧ o < 0x900 then
    let r := (o - 0x100) / 0x80
    if s.on (TG_D_EN.i r) ∧ ¬ (o % 0x80 = 0 ∧ !bit v 31) then s.tgEvent TG_EVENT_REFUSED
    else followEn r (s.swPut (0xC00000 + o) v)
  else s.swPut (0xC00000 + o) v

end Sys2Proof.Machine
end

