-- ==== Sys2Proof/Machine/Float.lean ====
section
/-!
DEFINITION. IEEE 754 binary32 and binary64 arithmetic of R246 on bit patterns: exact rational results rounded once to nearest
even, subnormals flushed, NaN 0x7FC0_0000. The transcendental functions, which R246 bounds but does not fix, are constants of
Config.
-/
namespace Sys2Proof.Machine

/-- A binary format: fraction bits and exponent bits. -/
structure Fmt where
  frac : Nat
  expo : Nat
deriving DecidableEq, Repr

def f32 : Fmt := ⟨23, 8⟩
def f64 : Fmt := ⟨52, 11⟩

/-- The value of a pattern: NaN, an infinity with its sign, or a rational p / q with its sign. -/
inductive FVal where
  | nan
  | inf (neg : Bool)
  | fin (neg : Bool) (p q : Nat)
deriving DecidableEq, Repr

def Fmt.bias (f : Fmt) : Nat := 2 ^ (f.expo - 1) - 1
def Fmt.top (f : Fmt) : Nat := 2 ^ f.expo - 1

/-- The quiet NaN that kernels produce; 0x7FC0_0000 in binary32 (R246). -/
def Fmt.qnan (f : Fmt) : Nat := f.top * 2 ^ f.frac + 2 ^ (f.frac - 1)
def Fmt.infinity (f : Fmt) (neg : Bool) : Nat := b2n neg * 2 ^ (f.frac + f.expo) + f.top * 2 ^ f.frac
def Fmt.zero (f : Fmt) (neg : Bool) : Nat := b2n neg * 2 ^ (f.frac + f.expo)

/-- 2 to a signed power as a fraction. -/
def pow2Q (e : Int) : Nat × Nat := if 0 ≤ e then (2 ^ e.toNat, 1) else (1, 2 ^ (-e).toNat)

/-- The exact value of a pattern, subnormals included. -/
def Fmt.exact (f : Fmt) (x : Nat) : FVal :=
  let m := x % 2 ^ f.frac
  let e := x / 2 ^ f.frac % 2 ^ f.expo
  let neg := bit x (f.frac + f.expo)
  if e = f.top then (if m = 0 then .inf neg else .nan)
  else
    let (p, q) := pow2Q ((max e 1 : Nat) - (f.bias : Int) - (f.frac : Int))
    .fin neg ((if e = 0 then m else m + 2 ^ f.frac) * p) q

/-- The value of a pattern with subnormals flushed to zero (R246). -/
def Fmt.val (f : Fmt) (x : Nat) : FVal :=
  match f.exact x with
  | .fin neg p q => if x / 2 ^ f.frac % 2 ^ f.expo = 0 then .fin neg 0 1 else .fin neg p q
  | v => v

/-- Exponent `e` with 2^e ≤ p / q < 2^(e+1), for p > 0. -/
def expQ (p q : Nat) : Int :=
  let e : Int := (Nat.log2 p : Int) - (Nat.log2 q : Int)
  let (a, b) := pow2Q e
  if p * b < a * q then e - 1 else e

/-- Quotient rounded to nearest, ties to even. -/
def divRne (p q : Nat) : Nat :=
  let d := p / q
  let r := p % q
  if 2 * r < q then d else if q < 2 * r then d + 1 else d + d % 2

/-- Round p / q to a format: to nearest even; `flush` sends subnormal results to zero (R246). -/
def Fmt.round (f : Fmt) (flush neg : Bool) (p q : Nat) : Nat :=
  if p = 0 then f.zero neg
  else
    let e := expQ p q
    let lo : Int := 1 - (f.bias : Int)
    let e' := if e < lo then lo else e
    let (a, b) := pow2Q ((f.frac : Int) - e')
    let m := divRne (p * a) (q * b)
    let (m, e') := if m = 2 ^ (f.frac + 1) then (2 ^ f.frac, e' + 1) else (m, e')
    if m < 2 ^ f.frac then (if flush then f.zero neg else b2n neg * 2 ^ (f.frac + f.expo) + m)
    else
      let ex := e' + (f.bias : Int)
      if (f.top : Int) ≤ ex then f.infinity neg
      else b2n neg * 2 ^ (f.frac + f.expo) + ex.toNat * 2 ^ f.frac + (m - 2 ^ f.frac)

/-- Round a signed rational, a zero taking the sign `z`. -/
def Fmt.ofRat (f : Fmt) (n : Int) (d : Nat) (z : Bool) : Nat :=
  if n = 0 then f.zero z else f.round true (decide (n < 0)) n.natAbs d

/-- A finite value as a signed fraction. -/
def sgn (neg : Bool) (p : Nat) : Int := if neg then - (p : Int) else (p : Int)

/-- Addition. -/
def Fmt.add (f : Fmt) (x y : Nat) : Nat :=
  match f.val x, f.val y with
  | .nan, _ => f.qnan
  | _, .nan => f.qnan
  | .inf a, .inf b => if a = b then f.infinity a else f.qnan
  | .inf a, _ => f.infinity a
  | _, .inf b => f.infinity b
  | .fin a p q, .fin b r t => f.ofRat (sgn a p * t + sgn b r * q) (q * t) (a && b && decide (p = 0 ∧ r = 0))

/-- Negation. -/
def Fmt.neg (f : Fmt) (x : Nat) : Nat :=
  match f.val x with
  | .nan => f.qnan
  | .inf a => f.infinity (!a)
  | .fin a p q => if p = 0 then f.zero (!a) else f.round true (!a) p q

/-- Subtraction. -/
def Fmt.sub (f : Fmt) (x y : Nat) : Nat := f.add x (f.neg y)

/-- Multiplication. -/
def Fmt.mul (f : Fmt) (x y : Nat) : Nat :=
  match f.val x, f.val y with
  | .nan, _ => f.qnan
  | _, .nan => f.qnan
  | .inf a, .inf b => f.infinity (a != b)
  | .inf a, .fin b p _ => if p = 0 then f.qnan else f.infinity (a != b)
  | .fin a p _, .inf b => if p = 0 then f.qnan else f.infinity (a != b)
  | .fin a p q, .fin b r t => if p * r = 0 then f.zero (a != b) else f.round true (a != b) (p * r) (q * t)

/-- Division. -/
def Fmt.div (f : Fmt) (x y : Nat) : Nat :=
  match f.val x, f.val y with
  | .nan, _ => f.qnan
  | _, .nan => f.qnan
  | .inf _, .inf _ => f.qnan
  | .inf a, .fin b _ _ => f.infinity (a != b)
  | .fin a _ _, .inf b => f.zero (a != b)
  | .fin a p q, .fin b r t =>
    if r = 0 then (if p = 0 then f.qnan else f.infinity (a != b))
    else if p = 0 then f.zero (a != b) else f.round true (a != b) (p * t) (q * r)

/-- Integer square root by bits, from bit `k` down. -/
def isqrtBits : Nat → Nat → Nat → Nat
  | 0, _, r => r
  | k + 1, n, r => let c := r + 2 ^ k; if c * c ≤ n then isqrtBits k n c else isqrtBits k n r

/-- Integer square root. -/
def isqrt (n : Nat) : Nat := isqrtBits (Nat.log2 n / 2 + 1) n 0

/-- Square root, correctly rounded (R246): the root is taken to well beyond the format with a sticky bit. -/
def Fmt.sqrt (f : Fmt) (x : Nat) : Nat :=
  match f.val x with
  | .nan => f.qnan
  | .inf a => if a then f.qnan else f.infinity false
  | .fin a p q =>
    if p = 0 then f.zero a
    else if a then f.qnan
    else
      let k := 2 * f.frac + 2 ^ (f.expo - 1)
      let n := p * q * 2 ^ (2 * k)
      let r := isqrt n
      f.round true false (2 * r + b2n (decide (r * r ≠ n))) (2 * q * 2 ^ k)

/-- Absolute value. -/
def Fmt.abs (f : Fmt) (x : Nat) : Nat :=
  match f.val x with
  | .nan => f.qnan
  | _ => if bit x (f.frac + f.expo) then f.neg x else f.mul x (f.bias * 2 ^ f.frac)

/-- Whether x < y; false with a NaN (R246). -/
def Fmt.lt (f : Fmt) (x y : Nat) : Bool :=
  match f.val x, f.val y with
  | .nan, _ => false
  | _, .nan => false
  | .inf a, .inf b => a && !b
  | .inf a, .fin _ _ _ => a
  | .fin _ _ _, .inf b => !b
  | .fin a p q, .fin b r t => decide (sgn a p * t < sgn b r * q)

/-- Whether x ≤ y; false with a NaN. -/
def Fmt.le (f : Fmt) (x y : Nat) : Bool :=
  f.lt x y || (match f.val x, f.val y with
    | .inf a, .inf b => a == b
    | .fin a p q, .fin b r t => decide (sgn a p * t = sgn b r * q)
    | _, _ => false)

def Fmt.isNan (f : Fmt) (x : Nat) : Bool := f.exact x == .nan
def Fmt.isInf (f : Fmt) (x : Nat) : Bool := f.exact x == .inf true || f.exact x == .inf false

/-- A whole number. -/
def Fmt.ofInt (f : Fmt) (i : Int) : Nat := f.ofRat i 1 false

/-- A rational number. -/
def Fmt.ofFrac (f : Fmt) (n : Int) (d : Nat) : Nat := f.ofRat n d false

/-- One format's pattern in the other. -/
def fconv (a b : Fmt) (x : Nat) : Nat :=
  match a.val x with
  | .nan => b.qnan
  | .inf s => b.infinity s
  | .fin s p q => if p = 0 then b.zero s else b.round true s p q

/-- Nearest whole number, ties to even; none for NaN and the infinities. -/
def Fmt.toInt (f : Fmt) (x : Nat) : Option Int :=
  match f.val x with
  | .fin s p q => some (sgn s (divRne p q))
  | _ => none

/-- The product of an INT32 and an fp32 scale, rounded once (R176). -/
def scaleI32 (i : Int) (scale : Nat) : Nat :=
  match f32.exact scale with
  | .nan => f32.qnan
  | .inf s => if i = 0 then f32.qnan else f32.infinity (s != decide (i < 0))
  | .fin s p q => if i = 0 ∨ p = 0 then f32.zero (s != decide (i < 0)) else f32.round false (s != decide (i < 0)) (i.natAbs * p) q

end Sys2Proof.Machine
end

