-- ==== Sys2Proof/Machine/Keys.lean ====
section
/-!
DEFINITION. Key store and life cycle (17_keys.md): slots and their integrity, fuses and life-cycle state, roots, commands, and
the loss of the root.
-/
namespace Sys2Proof.Machine

/-! ### Slots (R406–R410) -/

/-- Slot `i`; EMPTY where none was written. -/
def State.ksSlot (s : State) (i : Nat) : KsSlot := agetD s.ks.slots i {}

/-- Fields of a slot's bytes (R407). -/
def kLc (b : List Byte) : Nat := bits (leAt b 0 1) 7 4
def kState (b : List Byte) : Nat := bits (leAt b 0 1) 3 0
def kOrigin (b : List Byte) : Nat := bits (leAt b 1 1) 7 6
def kUse (b : List Byte) : Nat := bits (leAt b 1 1) 5 0
def kAlg (b : List Byte) : Nat := leAt b 2 1
def kTagLen (b : List Byte) : Nat := leAt b 3 1
def kParent (b : List Byte) : Nat := leAt b 4 1
def kRooted (b : List Byte) : Bool := bit (leAt b 5 1) 0
def kDepth (b : List Byte) : Nat := leAt b 6 2
def kKeyId (b : List Byte) : Nat := leAt b 8 4
def kSer (b : List Byte) : Nat := leAt b 12 4

/-- Slot states and USE bits (R407, R408). -/
def ksEmpty : Nat := 0
def ksValid : Nat := 1
def ksBad : Nat := 2
def ksOrphan : Nat := 3
def useVerify : Nat := 0
def useSign : Nat := 1
def useClear : Nat := 2
def useSession : Nat := 3
def useParent : Nat := 4
def useExport : Nat := 5

/-- Key length of an ALG in bytes (R407). -/
def keyLen (alg : Nat) : Nat :=
  match alg with
  | 1 => 16
  | 2 => 32
  | 3 => 32
  | 4 => 48
  | _ => 0

/-- Key material of a slot. -/
def kKey (b : List Byte) : List Byte := slice b 16 (keyLen (kAlg b))

/-- ALG and TAGLEN of a slot are among those of R407. -/
def algTagOk (alg len : Nat) : Bool :=
  match alg with
  | 1 | 2 => len == 8 || len == 16
  | 3 => len == 10 || len == 16 || len == 32
  | 4 => len == 0
  | _ => false

/-- The integrity tag of slot `i` under K_INT (R409). -/
def ksTag (kInt i : Nat) (b : List Byte) : List Byte :=
  slice (Config.cmac kInt (BitVec.ofNat 8 i :: b)) 0 16

/-- KS_STATUS as the fuses, the root and the slots now stand (R412, R413, R421). -/
def lcOf (f : Fuses) (rootLost : Bool) : Nat :=
  if f.ret then 0xF else if f.field then (if rootLost then 3 else 2) else if f.prov then 1 else 0

/-- Refresh the status fields that follow the store's state. -/
def State.ksRefresh (s : State) : State :=
  let n := (s.ks.slots.filter (fun (p : Nat × KsSlot) => kState p.2.bytes == ksValid)).length
  let f := s.ks.fuses
  let s := s.wr KS_STATUS_LC_NEXT (lcOf f (s.on CL_STATUS_ROOT_LOST))
  let s := s.wr KS_STATUS_BUSY (b2n (s.ks.run.isSome || !s.ks.prog.isEmpty))
  let s := s.wr KS_STATUS_ROOT (b2n s.ks.root.isSome)
  let s := (s.wr KS_STATUS_PKH_SET f.pkhSet).wr KS_STATUS_REVOKE f.revoke
  s.wr KS_STATUS_VALID_N (min n 255)

/-- The key-store event of R423. -/
def State.ksEvent (s : State) (f : Fld) : State := s.event f ES_KS

/-- The store writes slot `i` with its tag. -/
def State.ksPut (s : State) (i : Nat) (b : List Byte) : State :=
  { s with ks := { s.ks with slots := cput {} s.ks.slots i { bytes := b, tag := ksTag s.ks.kInt i b } } }

/-- A slot's bytes with another state and KEY zeroed. -/
def ksKill (b : List Byte) (st : Nat) : List Byte :=
  splice (splice b 0 (leBytes 1 (setBits (leAt b 0 1) 3 0 st))) 16 (List.replicate 48 0)

/-- A failed check of slot `i` (R410): BAD, KEY zeroed, counted, with a SLOT_BAD record; `ecc` tells the kind. -/
def State.ksFail (s : State) (i : Nat) (ecc : Bool) : State :=
  let s := s.ksPut i (ksKill (s.ksSlot i).bytes ksBad)
  ((((s.inc KS_CNT_BAD_CNT).ksEvent KS_EVENT_BAD).record 0x05 0x01 (i + (if ecc then 2 else 1) * 256)).ksRefresh)

/-- A check of slot `i` fails, or the scrubber finds it lost: the store acts in the cycle after (R410). -/
def State.ksFind (s : State) (i : Nat) (ecc : Bool) : State := { s with ks := { s.ks with found := s.ks.found ++ [(i, ecc)] } }

/-- The scrubber finds an uncorrectable error in slot `i` (R410, R488). -/
def ksEcc (i : Nat) (s : State) : State :=
  ({ s with ks := { s.ks with slots := cput {} s.ks.slots i { s.ksSlot i with ecc := true } } }).ksFind i true

/-- Slot `i` as a use of this cycle sees it: as it stood before a command that applies now (R417). -/
def State.ksBefore (s : State) (i : Nat) : KsSlot :=
  match s.ks.before with
  | some (c, l) => if c = s.cyc then agetD l i {} else s.ksSlot i
  | none => s.ksSlot i

/-- A use fetches slot `i` with its check, of ECC and tag (R409): its bytes and whether the check passed. -/
def State.ksFetch (s : State) (i : Nat) : List Byte × Bool × State :=
  let k := s.ksBefore i
  if k.ecc then (k.bytes, false, s.ksFind i true)
  else if k = {} then (k.bytes, true, s)
  else if k.tag = ksTag s.ks.kInt i k.bytes then (k.bytes, true, s)
  else (k.bytes, false, s.ksFind i false)

/-- The effective state is RETIRED: every use fails (R413). -/
def State.retired (s : State) : Bool := s.rd KS_STATUS_LC == 0xF

/-! ### Cascades (R416, R420) -/

/-- A slot that a cascade can reach: VALID or BAD. -/
def ksLive (k : KsSlot) : Bool := kState k.bytes == ksValid || kState k.bytes == ksBad

/-- Slots derived from one of `set`. -/
def ksChildren (l : List (Nat × KsSlot)) (set : List Nat) : List Nat :=
  (l.filter (fun (p : Nat × KsSlot) =>
    ksLive p.2 && kOrigin p.2.bytes == 2 && !kRooted p.2.bytes && set.contains (kParent p.2.bytes))).map (fun p => p.1)

/-- The slots that a chain from `set` reaches, through at most `n` levels. -/
def ksReach (l : List (Nat × KsSlot)) : Nat → List Nat → List Nat
  | 0, set => set
  | n + 1, set => ksReach l n (set ++ (ksChildren l set).filter (fun i => !set.contains i))

/-- Make slots ORPHAN and count them (R416, R420); `root` names the cascade's root in the record. -/
def State.ksOrphans (s : State) (root : Nat) (l : List Nat) : State :=
  if l.isEmpty then s
  else
    let s := l.foldl (fun (t : State) i => t.ksPut i (ksKill (t.ksSlot i).bytes ksOrphan)) s
    ((s.count KS_CNT_ORPHANED l.length).ksEvent KS_EVENT_ORPHAN).record 0x05 0x02 (root + l.length * 256)

/-- A write to slot `t` ends its former key: descendants become ORPHAN in the same cycle (R416). -/
def State.ksCascade (s : State) (t : Nat) : State :=
  s.ksOrphans t ((ksReach s.ks.slots 8 [t]).filter (fun i => i != t))

/-- A command writes slot `t`: the cascade, the serial number, the state code and the tag (R407, R415, R416). -/
def State.ksWriteSlot (s : State) (t origin parent depth : Nat) (rooted : Bool) (attr key : List Byte) : State :=
  let s := s.ksCascade t
  let b := leBytes 1 (s.rd KS_STATUS_LC * 16 + ksValid) ++ leBytes 1 (origin * 64 + kUse attr) ++ slice attr 2 2 ++
    leBytes 1 parent ++ leBytes 1 (b2n rooted) ++ leBytes 2 depth ++ slice attr 8 4 ++ leBytes 4 s.ks.ser ++
    slice (slice key 0 (keyLen (kAlg attr))) 0 48
  let s := s.ksPut t b
  { s with ks := { s.ks with ser := (s.ks.ser + 1) % 2 ^ 32 } }

/-! ### Roots (R414, R420) -/

/-- ASCII bytes. -/
def ascii (t : String) : List Byte := t.toList.map (fun c => BitVec.ofNat 8 c.toNat)

/-- HMAC-SHA384: HMAC of FIPS 198-1 over SHA-384, whose block is 128 bytes (R414; PRESUMED, log entry 6). -/
def hmac384 (key msg : List Byte) : List Byte :=
  let k := if key.length ≤ 128 then key else slice (Config.sha384 key) 0 48
  let pad := fun (x : Byte) => (k ++ List.replicate (128 - k.length) 0).map (fun b => b ^^^ x)
  slice (Config.sha384 (pad 0x5C ++ slice (Config.sha384 (pad 0x36 ++ msg)) 0 48)) 0 48

/-- The KDF of R414, `n` bytes from key K_I: counter mode of NIST SP 800-108, with a 32-bit counter before the label and the length in 32
bits behind the context (PRESUMED, log entry 6). -/
def kdf (key label context : List Byte) (n : Nat) : List Byte :=
  slice ((List.range (ceilDiv n 48)).flatMap (fun i =>
    hmac384 key (beBytes 4 (i + 1) ++ label ++ [0] ++ context ++ beBytes 4 (8 * n)))) 0 n

/-- The state root of effective state `lc` from a root secret, and KEK_s (R414, R418). -/
def stateRoot (secret : List Byte) (lc : Nat) : List Byte := kdf secret (ascii "BXM LC ROOT") [BitVec.ofNat 8 lc] 48
def kekOf (root : List Byte) : List Byte := kdf root (ascii "BXM KEK") [] 32

/-- Take the state root of effective state `lc`. -/
def State.ksTakeRoot (s : State) (lc : Nat) : State :=
  let r := stateRoot s.cl.root lc
  { s with ks := { s.ks with root := some r, kek := kekOf r } }

/-- Write a new root secret of 64 random bytes into the Cellar; ROOT_LOST clears (R414, R346). -/
def State.newRoot (s : State) : State :=
  let (r, s) := s.fresh
  ({ s with cl := { s.cl with root := leBytes 64 r } }).wr CL_STATUS_ROOT_LOST 0

/-- The store's part in a loss of the root while the module runs (R420). -/
def State.ksRootLost (s : State) : State :=
  let s := { s with ks := { s.ks with root := none, kek := [], rootLost := true } }
  let own := (s.ks.slots.filter (fun (p : Nat × KsSlot) =>
    ksLive p.2 && (kOrigin p.2.bytes == 2 || kOrigin p.2.bytes == 3))).map (fun p => p.1)
  (s.ksOrphans 0xFF (ksReach s.ks.slots 8 own)).ksRefresh

/-- Zero the root secret and set ROOT_LOST (R346, R413); the store follows in the next cycle (R420). -/
def State.zeroRoot (s : State) : State :=
  let was := s.on CL_STATUS_ROOT_LOST
  let s := ({ s with cl := { s.cl with root := List.replicate 64 0 } }).wr CL_STATUS_ROOT_LOST 1
  if was ∨ s.dom 1 ≠ 1 then s else { s with ks := { s.ks with rootGone := true } }

/-- What the store does in the cycle after a finding and after a loss of the root (R410, R420). -/
def State.ksCycle (s : State) : State :=
  let t := s.ks.found.foldl (fun (u : State) p => u.ksFail p.1 p.2) { s with ks := { s.ks with found := [] } }
  if s.ks.rootGone then ({ t with ks := { t.ks with rootGone := false } }).ksRootLost else t

/-- The bytes of a fuse hash in its twelve registers. -/
def State.ksShowPkh (s : State) : State :=
  (List.range 12).foldl (fun (t : State) i =>
    (t.put (KS_PKH0_PKH.addr + 4 * i) (leAt s.ks.fuses.pkh0 (4 * i) 4)).put (KS_PKH1_PKH.addr + 4 * i)
      (leAt s.ks.fuses.pkh1 (4 * i) 4)) s

/-- What the store does in COLD (R406, R409, R412, R414): a new K_INT, 256 EMPTY slots, the effective state, and in PROVISIONING
with a lost root a new one. -/
def State.ksCold (s : State) : State :=
  let (k, s) := s.fresh
  let lc := lcOf s.ks.fuses (s.on CL_STATUS_ROOT_LOST)
  let s := { s with ks := { fuses := s.ks.fuses, kInt := k } }
  let s := (s.ksShowPkh).wr KS_STATUS_LC lc
  let s :=
    if lc = 1 ∧ s.on CL_STATUS_ROOT_LOST then
      (s.newRoot).record 0x05 0x06 (s.rd CL_STATUS_CANARY)
    else s
  let s := if lc = 0 ∨ lc = 3 then s else s.ksTakeRoot lc
  ((s.record 0x05 0x04 lc).ksRefresh)

/-! ### Commands (R415–R418) -/

/-- A refusal with its cause (R413, R415, R421). -/
def State.ksRefuse (s : State) (cause : Nat) : State :=
  ((s.wr KS_STATUS_CAUSE cause).inc KS_CNT_REFUSED).ksEvent KS_EVENT_REFUSED

/-- Cycles of a command (R415). -/
def ksCycles (cmd : Nat) : Nat :=
  match cmd with
  | 1 => 4
  | 2 => 40
  | 3 => 60
  | 4 => 400
  | 5 => 300
  | 6 => 300
  | 7 => 4
  | _ => 400

/-- KS_DATA0–15 as 64 bytes. -/
def State.ksData (s : State) : List Byte :=
  (List.range 16).flatMap (fun i => leBytes 4 (s.word (KS_DATA_DATA.addr + 4 * i)))

/-- Whether a command writes its target slot. -/
def ksWrites (cmd : Nat) : Bool := cmd == 2 || cmd == 3 || cmd == 4 || cmd == 6 || cmd == 7

/-- The attributes of a slot to be written break R407. -/
def attrBad (a : List Byte) : Bool := !algTagOk (kAlg a) (kTagLen a) || leAt a 5 1 / 2 != 0

/-- A write of KS_CMD (R410, R413, R415): discarded for want of standing, while BUSY, in RETIRED or on a BAD slot; refused where
the attributes break R407; else taken with the data and blob registers as they stand (log entry 35). -/
def ksCmdWrite (r : Requester) (v : Nat) (s : State) : State :=
  let cmd := bits v 31 28
  if !s.mayWrite r || (cmd == 8 && !s.asCore r) then s.ksRefuse 2
  else if s.on0 KS_STATUS_BUSY || s.ks.run.isSome || !s.ks.prog.isEmpty then s.ksRefuse 1
  else if cmd = 0 ∨ 8 < cmd then s.swPut KS_CMD_S.addr v
  else if s.retired ∧ cmd ≠ 1 then s.ksRefuse 0xA
  else if ksWrites cmd && kState (s.ksSlot (v % 256)).bytes == ksBad && !s.isOwner r then s.ksRefuse 3
  else if (cmd == 2 || cmd == 3 || cmd == 4) && attrBad s.ksData then (s.swPut KS_CMD_S.addr v).ksRefuse 4
  else
    let s := s.swPut KS_CMD_S.addr v
    let q : KsRun := {
      cmd := v, data := s.ksData, blob := s.rd KS_BLOB_LO_ADDR_LO * 16 + s.rd KS_BLOB_HI_ADDR_HI * 2 ^ 32
      done := s.cyc + ksCycles cmd, own := s.isOwner r }
    ({ s with ks := { s.ks with run := some q } }).ksRefresh

/-- Bytes loaded into KS_DATA from word 0 on, readable until written (R421). -/
def State.ksLoad (s : State) (b : List Byte) : State :=
  (List.range (b.length / 4)).foldl (fun (t : State) i =>
    let w := leAt b (4 * i) 4
    { t.put (KS_DATA_DATA.addr + 4 * i) w with ks := { t.ks with shown := aput t.ks.shown i w } }) s

/-- A write of KS_DATA word `i`: it is no longer readable (R421). -/
def ksDataWrite (i v : Nat) (s : State) : State :=
  { s.put (KS_DATA_DATA.addr + 4 * i) v with ks := { s.ks with shown := adel s.ks.shown i } }

/-- What a read of KS_DATA word `i` returns (R421). -/
def ksDataRead (r : Requester) (i : Nat) (s : State) : Nat :=
  if s.mayWrite r then agetD s.start.ks.shown i 0 else 0

/-- A source or parent slot is fit for the use bit `u`, or the cause of the refusal (R415); the state carries a failed check. -/
def State.ksSource (s : State) (i u : Nat) : List Byte × Option Nat × State :=
  let (b, ok, s) := s.ksFetch i
  if !ok || kState b != ksValid then (b, some 6, s)
  else if !bit (kUse b) u then (b, some 5, s)
  else (b, none, s)

/-- The command ends: not BUSY, and DONE. -/
def State.ksDone (s : State) : State := ((s.ksEvent KS_EVENT_DONE).ksRefresh)

/-- The command ends with a refusal; no slot changes (R415). -/
def State.ksEndRefused (s : State) (cause : Nat) : State := (s.ksRefuse cause).ksRefresh

/-- DERIVE (R415, R416). -/
def ksDerive (q : KsRun) (s : State) : State :=
  let t := q.cmd % 256
  let src := bits q.cmd 15 8
  let attr := q.data
  let rooted := bit q.cmd 27
  let lab := slice q.data 16 32
  let ctx := leBytes 1 (2 * 64 + kUse attr) ++ slice attr 2 2 ++ slice attr 8 4
  if rooted then
    match if s.ks.rootLost then none else s.ks.root with
    | none => s.ksEndRefused 9
    | some r =>
      let key := kdf r lab ctx (keyLen (kAlg attr))
      (s.ksWriteSlot t 2 0 0 true attr key).ksDone
  else if (ksReach s.ks.slots 8 [t]).contains src then s.ksEndRefused 4
  else
    let (p, bad, s) := s.ksSource src useParent
    match bad with
    | some c => s.ksEndRefused c
    | none =>
      if 7 ≤ kDepth p then s.ksEndRefused 7
      else
        let key := kdf (kKey p) lab ctx (keyLen (kAlg attr))
        (s.ksWriteSlot t 2 src (kDepth p + 1) false attr key).ksDone

/-- A blob lies in DRAM (R418, R33). -/
def blobOk (a : Nat) : Bool := decide (a + 112 ≤ 0x0200000000)

/-- WRAP (R418). -/
def ksWrap (q : KsRun) (s : State) : State :=
  let (b, bad, s) := s.ksSource (bits q.cmd 15 8) useExport
  match bad with
  | some c => s.ksEndRefused c
  | none =>
    if s.ks.root.isNone ∨ s.ks.rootLost then s.ksEndRefused 9
    else if !blobOk q.blob then s.ksEndRefused 8
    else
      let (n, s) := s.fresh
      let iv := leBytes 12 n
      let aad := ascii "BXKW" ++ leBytes 1 (s.rd KS_STATUS_LC) ++ List.replicate 11 0
      let ct := slice (Config.gcmSeal s.ks.kek iv b) 0 64
      let tag := slice (Config.gcmTag s.ks.kek iv (aad ++ ct)) 0 16
      (s.store q.blob (aad ++ iv ++ ct ++ tag ++ List.replicate 4 0)).ksDone

/-- UNWRAP (R418). -/
def ksUnwrap (q : KsRun) (s : State) : State :=
  let b := s.load q.blob 112
  if s.ks.root.isNone ∨ s.ks.rootLost then s.ksEndRefused 9
  else if !blobOk q.blob || slice b 0 4 != ascii "BXKW" || leAt b 4 1 != s.rd KS_STATUS_LC ||
      slice b 92 16 != slice (Config.gcmTag s.ks.kek (slice b 16 12) (slice b 0 16 ++ slice b 28 64)) 0 16 then
    s.ksEndRefused 8
  else
    let p := slice (Config.gcmOpen s.ks.kek (slice b 16 12) (slice b 28 64)) 0 64
    (s.ksWriteSlot (q.cmd % 256) 3 0 0 false p (slice p 16 48)).ksDone

/-- SESSION_OUT (R415, R419). -/
def ksSession (q : KsRun) (s : State) : State :=
  let (b, bad, s) := s.ksSource (bits q.cmd 15 8) useSession
  match bad with
  | some c => s.ksEndRefused c
  | none =>
    if kAlg b ≠ 4 then s.ksEndRefused 5
    else (s.ksLoad (kdf (kKey b) (slice q.data 16 32) (slice b 12 4) 48)).ksDone

/-- What a command does in its apply cycle. -/
def ksApply (q : KsRun) (s : State) : State :=
  let t := q.cmd % 256
  match bits q.cmd 31 28 with
  | 1 => (s.ksLoad (slice (s.ksSlot t).bytes 0 16)).ksDone
  | 2 => (s.ksWriteSlot t 0 0 0 false q.data (slice q.data 16 48)).ksDone
  | 3 =>
    let (n, s) := s.fresh
    (s.ksWriteSlot t 1 0 0 false q.data (leBytes 48 n)).ksDone
  | 4 => ksDerive q s
  | 5 => ksWrap q s
  | 6 => ksUnwrap q s
  | 7 => ((s.ksCascade t).ksPut t (List.replicate 64 0)).ksDone
  | 8 => ksSession q s
  | _ => s.ksDone

/-- KS_CMD_APPLY (R415–R417): the command in progress reaches its apply cycle; for WRAP and UNWRAP it is any cycle from 300 on, the
DRAM time having no fixed figure. In RETIRED only READ_ATTR completes (R413), and a slot that has gone BAD meanwhile takes a write of the
owner seat only (R410). -/
def execKsCmdApply (s : State) : Host.Outcome State Fault Refusal :=
  match s.ks.run with
  | none => .next s
  | some q =>
    if s.cyc < q.done then .next s
    else
      let was := s.ks.slots
      let s := { s with ks := { s.ks with run := none } }
      let cmd := bits q.cmd 31 28
      let s :=
        if s.retired ∧ cmd ≠ 1 then s.ksEndRefused 0xA
        else if ksWrites cmd ∧ kState (s.ksSlot (q.cmd % 256)).bytes = ksBad ∧ !q.own then s.ksEndRefused 3
        else ksApply q s
      .next { s with ks := { s.ks with before := some (s.cyc, was) } }

/-! ### Life-cycle commands (R413) and fuses (R411) -/

/-- Fuse groups that a life-cycle command programs, in order, with the bytes of a hash. -/
def lcGroups (cmd : Nat) (data : List Byte) : List (Nat × List Byte) :=
  match cmd with
  | 1 => [(0, data), (2, [1]), (4, [])]
  | 2 => [(5, [])]
  | 5 => [(1, data), (2, [2])]
  | 6 => [(3, [1])]
  | 7 => [(6, [])]
  | _ => []

/-- A life-cycle command is acceptable in the effective state and with the fuses as they stand. -/
def lcAllowed (s : State) (cmd : Nat) : Bool :=
  let lc := s.rd KS_STATUS_LC
  let f := s.ks.fuses
  let mid := lc == 1 || lc == 2 || lc == 3
  match cmd with
  | 1 => lc == 0
  | 2 => lc == 1
  | 3 => lc == 2
  | 4 => lc == 3
  | 5 => mid && !bit f.pkhSet 1
  | 6 => mid && bit f.pkhSet 1 && !bit f.revoke 1
  | 7 => lc != 0xF
  | _ => false

/-- Seat 7 is present: the effective state is BLANK, PROVISIONING or RECOVERY (R398). -/
def State.debugSeat (s : State) : Bool :=
  let lc := s.rd0 KS_STATUS_LC
  lc == 0 || lc == 1 || lc == 3

/-- The requester may give life-cycle commands: the owner seat, or seat 7 where it is present. -/
def lcSeatOk (s : State) (r : Requester) : Bool :=
  s.isOwner r || (s.seat r == 7 && s.debugSeat)

/-- What an accepted life-cycle command does beside its fuses. -/
def lcEffect (cmd : Nat) (s : State) : State :=
  match cmd with
  | 1 => s.newRoot
  | 3 => s.zeroRoot
  | 4 => (s.newRoot).ksTakeRoot 3
  | 7 =>
    let s := { s with cl := { s.cl with root := List.replicate 64 0 } }
    ({ s with ks := { s.ks with slots := [] } }).wr KS_STATUS_LC 0xF
  | _ => s

/-- A write of KS_LC_CMD (R413, R422). -/
def ksLcWrite (r : Requester) (v : Nat) (s : State) : State :=
  let cmd := v % 16
  if bits v 31 16 ≠ 0xC3A5 ∨ !lcSeatOk s r ∨ !lcAllowed s cmd then s.ksRefuse 0xA
  else
    let s := { s with ks := { s.ks with prog := s.ks.prog ++ lcGroups cmd (slice s.ksData 0 48) } }
    let s := ((lcEffect cmd s).ksRefresh).ksEvent KS_EVENT_LC
    s.record 0x05 0x03 (cmd + s.seat r * 16 + s.rd KS_STATUS_LC_NEXT * 256)

/-- A fuse group takes its value. -/
def fuseSet (g : Nat) (d : List Byte) (f : Fuses) : Fuses :=
  match g with
  | 0 => { f with pkh0 := d }
  | 1 => { f with pkh1 := d }
  | 2 => { f with pkhSet := f.pkhSet ||| leNat d }
  | 3 => { f with revoke := f.revoke ||| leNat d }
  | 4 => { f with prov := true }
  | 5 => { f with field := true }
  | _ => { f with ret := true }

/-- FUSE_PROGRAM_DONE (R411): the oldest group being programmed has been read back, `wrong` or not. A hash that reads back wrong
leaves its PKH_SET bit unprogrammed. -/
def execFuseProgramDone (wrong : Bool) (s : State) : Host.Outcome State Fault Refusal :=
  match s.ks.prog with
  | [] => .next s
  | (g, d) :: rest =>
    if wrong then
      let rest := if g ≤ 1 then rest.filter (fun (p : Nat × List Byte) => p.1 != 2) else rest
      let s := { s with ks := { s.ks with prog := rest } }
      .next ((((s.ksEvent KS_EVENT_FUSE_FAIL).record 0x05 0x05 g).ksRefresh))
    else
      let s := { s with ks := { s.ks with prog := rest, fuses := fuseSet g d s.ks.fuses } }
      .next ((s.ksShowPkh).ksRefresh)

/-! ### The KS_ page (R421) -/

/-- Writes of the KS_ page. -/
def ksWrite (r : Requester) (o v : Nat) (s : State) : State :=
  if o = 0x08 then ksCmdWrite r v s
  else if o = 0x0C then ksLcWrite r v s
  else if 0x40 ≤ o ∧ o < 0x80 then ksDataWrite ((o - 0x40) / 4) v s
  else s.swPut (0x60000 + o) v

/-- Reads of the KS_ page that are more than the register's value. -/
def ksRead (r : Requester) (o : Nat) (s : State) : Option Nat :=
  if 0x40 ≤ o ∧ o < 0x80 then some (ksDataRead r ((o - 0x40) / 4) s) else none

end Sys2Proof.Machine
end

