-- ==== Sys2Proof/Machine/Ports.lean ====
section
/-!
DEFINITION. Ports and the Porch (03_ports.md): link states, port registers, reception, wake patterns, pause, the verify
handshake and the octet counters.
-/
namespace Sys2Proof.Machine

/-! ### Link states (R92, R93) -/

/-- The power domain of port `n` (R69). -/
def portDomain (n : Nat) : Nat :=
  if n < 8 then 8 else if n < 16 then 9 else if n < 18 then 10 else if n = 18 then 9 else if n < 21 then 6 else 7

/-- Verification begins anew, or is skipped, as the port's link enters UP (R82). -/
def State.startVerify (s : State) (n : Nat) : State :=
  if s.on (PT_PREEMPT_EN.p n) then
    if s.on (PT_PREEMPT_VERIFY_DIS.p n) then
      (s.wr (PT_STATUS_VERIFY.p n) 5).wr (PT_STATUS_PREEMPT_ACTIVE.p n) 1
    else
      let t := (s.wr (PT_STATUS_VERIFY.p n) 2).wr (PT_STATUS_PREEMPT_ACTIVE.p n) 0
      t.setPort n { t.port n with verifySent := 0, verifyAt := 0 }
  else (s.wr (PT_STATUS_VERIFY.p n) 0).wr (PT_STATUS_PREEMPT_ACTIVE.p n) 0

/-- Verification while the link is not UP (R82). -/
def State.idleVerify (s : State) (n : Nat) : State :=
  (s.wr (PT_STATUS_VERIFY.p n) (b2n (s.on (PT_PREEMPT_EN.p n)))).wr (PT_STATUS_PREEMPT_ACTIVE.p n) 0

/-- Entry into UP (R92, R93): when it comes from DOWN, LINK_UP is set and a broken pause is forgiven (R91: the link enters UP, which
it never left in DORMANT, R89); the grace timer stops (R126), the queue heads are examined (R124) and verification begins (R82). -/
def State.enterUp (s : State) (n : Nat) : State :=
  let fromDown := s.link n == 1
  let again := !fromDown && s.rd (PT_STATUS_VERIFY.p n) != 1
  let t := s.wr (PT_STATUS_STATE.p n) 2
  let t := t.setPort n { t.port n with graceTo := none, graceEnd := false, graceOver := false, wakeBy := none }
  let t := if fromDown then (t.wr (PT_STATUS_PAUSE_BROKEN.p n) 0).ptEvent PT_EVENT_LINK_UP n else t
  let t := if again then t else t.startVerify n
  t.examinePort n

/-- Frame `i` in reception is lost with `got` octets received (R93): it is found bad at once, so that without a cut-through begun all
its copies are discarded (R117), and otherwise its cut-through copies end after the octets received, once the last of them has passed
(R116, R285). -/
def State.loseReception (s : State) (i got : Nat) : State :=
  match s.frame i with
  | none => s
  | some f =>
    if f.complete then s
    else if f.cut.isEmpty then
      let t := s.setFrame i { f with bad := 3, looked := true, complete := true }
      if f.copies.isEmpty then t.retire i else f.copies.foldl (fun (u : State) p => u.endCopy i p.1 p.2) t
    else
      let e := max (f.c0 + ceilDiv (8 * (got - 1)) (s.rate f.ingress)) f.l + 4
      s.setFrame i { f with bad := 3, got := min got f.octets.length, e := min f.e e }

/-- Take back `k` counts of an event that did not come about. -/
def State.dec (s : State) (f : Fld) (k : Nat) : State := s.wr f (s.rd f - k)

/-- The read-clear counters of port `n` in which a received frame may count (R77, R79, R86, R88–R90). -/
def rxCounters (n : Nat) : List Fld :=
  [PT_C_OVERSIZE, PT_C_RUNT, PT_C_FCS_ERR, PT_C_REASM_ERR, PT_C_MACCTL, PT_C_PAUSE_RX, PT_C_DORMANT_DROP, PT_C_WAKE_HIT].map
    (fun f => f.p n)

/-- What an accepted frame counted is taken back (R93). -/
def uncountRx (n : Nat) (o : RxOpen) (s : State) : State :=
  let oct := s.rd (PT_C_RX_OCT_LO.p n) + s.rd (PT_C_RX_OCT_HI.p n) * 2 ^ 32 + 2 ^ 64 - o.len
  ((s.wr (PT_C_RX_OCT_LO.p n) oct).wr (PT_C_RX_OCT_HI.p n) (oct / 2 ^ 32)).wr (PT_C_RX_FRAMES.p n)
    (s.rd (PT_C_RX_FRAMES.p n) + 2 ^ 32 - 1)

/-- What a wake match brought about is taken back, and its DISCOVER copy is discarded (R93). -/
def unmatch (n : Nat) (o : RxOpen) (s : State) : State :=
  let s := if o.wakeFlag then s.wr (PT_EVENT_WAKE.p n) 0 else s
  let s := { s with arch := { s.arch with wakes := s.arch.wakes.filter (fun w => !o.woke.contains w.1) } }
  match o.copy with
  | some i => s.endCopy i pI2 0
  | none => s

/-- A frame in reception as the link drops is discarded and counted in FCS_ERR, and in no other counter (R93; log entry 94). Its
fragments that have arrived stay counted in FRAG_RX. -/
def dropOpen (n : Nat) (o : RxOpen) (s : State) : State :=
  let s := if o.good then uncountRx n o s else s
  let s := o.took.foldl (fun (t : State) k => ((rxCounters n)[k]?.map (fun f => t.dec f 1)).getD t) s
  let s := s.dec (PT_C_FRAG_RX.p n) (o.fragTook - (o.frags.filter (fun c => decide (c ≤ s.cyc))).length)
  let s := match o.pause with
    | some c =>
      let p := s.port n
      s.setPort n { p with pauseReqs := p.pauseReqs.filter (fun q => q.1 != c) }
    | none => s
  let s := unmatch n o s
  let s := match o.fid with
    | some i => s.loseReception i ((s.cyc - o.cyc0) * s.rate n / 8)
    | none => s
  s.inc (PT_C_FCS_ERR.p n)

/-- Frames in reception are lost (R93). -/
def State.cutReception (s : State) (n : Nat) : State :=
  let t := ((s.port n).rxOpen.filter (fun o => decide (s.cyc < o.till))).foldl (fun (t : State) o => dropOpen n o t) s
  t.setPort n { t.port n with rxOpen := [] }

/-- Entry into DOWN (R92, R93, R126). With GRACE_MS 0 the grace timer ends in the cycle after (R127). A pause and PAUSE frames that
wait for their release stay (DESIGN CHOICE, log entry 95: R90 is silent on a pause across link states). -/
def State.enterDown (s : State) (n : Nat) : State :=
  let lost := s.link n == 2 || s.link n == 3
  let t := s.wr (PT_STATUS_STATE.p n) 1
  let t := t.setPort n { t.port n with
    graceTo := some (t.clk.lapse + max 1 (t.rd (HL_P_GRACE_MS.i n) * uMs)), graceEnd := false, graceOver := false, wakeBy := none, retAt := none
    upFrom := none, slow := false, respAt := none }
  let t := t.idleVerify n
  if lost then ((((t.cutReception n).abortTx n).inc (PT_C_LINK_DOWN.p n)).ptEvent PT_EVENT_LINK_DOWN n) else t

/-- Entry into OFF (R92, R128): the frame in transmission is lost, then the queues are flushed. A pause ends and PAUSE frames that wait
for their release are dropped (DESIGN CHOICE, log entry 95: R90 is silent on a pause across link states). -/
def State.enterOff (s : State) (n : Nat) : State :=
  if s.link n = 0 then s
  else
    let t := ((((s.cutReception n).abortTx n).flushPort n).wr (PT_STATUS_STATE.p n) 0)
    let t := (t.wr (PT_STATUS_PCS_LOCK.p n) 0).wr (PT_STATUS_AN_DONE.p n) 0
    let t := t.setPort n { t.port n with
      graceTo := none, graceEnd := false, graceOver := false, wakeBy := none, pauseReqs := [], retAt := none, upFrom := none, slow := false, respAt := none }
    (t.wr (PT_STATUS_PAUSED.p n) 0).idleVerify n

/-- A DORMANT port returns to UP (R89). -/
def State.portReturn (s : State) (n : Nat) : State :=
  let t := s.enterUp n
  t.setPort n { t.port n with retAt := some s.clk.lapse }

/-- A dormant port is told to wake: it returns within 50 µs (R89). -/
def State.portWake (s : State) (n : Nat) : State :=
  let p := s.port n
  if p.wakeBy.isSome then s else s.setPort n { p with wakeBy := some (s.clk.lapse + 50 * uUs) }

/-- Ports of a domain that goes dark or dormant enter OFF (R92). -/
def State.portsOff (s : State) (dom : Nat) : State :=
  ((List.range 19).filter (fun n => portDomain n == dom)).foldl (fun t n => t.enterOff n) s

/-- Ports of a domain that has powered: enabled ones enter DOWN (R92). -/
def State.portsOn (s : State) (dom : Nat) : State :=
  ((List.range 19).filter (fun n => portDomain n == dom)).foldl
    (fun t n => if t.on (PT_CTRL_EN.p n) ∧ t.link n = 0 then t.enterDown n else t) s

/-! ### Receive rings (R95–R97, R104) -/

/-- A register field of a ring: in the I2 page for a steward ring, in its instance page for a tenant ring. -/
def ringFld (r : Ring) (f g : Fld) : Fld :=
  match r with
  | .steward i => (f.p 21).i i
  | .tenant v => g.p v

def rxSize (r : Ring) : Fld := ringFld r PT_RING_RX_SIZE VI_RING_RX_SIZE
def rxNext (r : Ring) : Fld := ringFld r PT_RING_RX_NEXT VI_RING_RX_NEXT
def txSize (r : Ring) : Fld := ringFld r PT_RING_TX_SIZE VI_RING_TX_SIZE
def txNext (r : Ring) : Fld := ringFld r PT_RING_TX_NEXT VI_RING_TX_NEXT
def rxNoBuf (r : Ring) : Fld := ringFld r PT_RING_RX_NOBUF VI_RING_RX_NOBUF
def rxTrunc (r : Ring) : Fld := ringFld r PT_RING_RX_TRUNC VI_RING_RX_TRUNC

/-- The ring that a frame's metadata names. -/
def ringOf (n : Nat) : Ring := if n < 4 then .steward (Fin.ofNat 4 n) else .tenant (Fin.ofNat 512 (n - 4))
def ringIndex : Ring → Nat
  | .steward i => i
  | .tenant v => 4 + v

/-- The control word of a receive descriptor (R95). -/
def rxWord (f : Frame) (sop eop trunc : Bool) (len : Nat) : Nat :=
  b2n sop * 2 ^ 30 + b2n eop * 2 ^ 29 + b2n trunc * 2 ^ 28 + b2n sop * 2 ^ 27 + b2n f.pattern.isSome * 2 ^ 26 +
    f.pattern.getD 0 * 2 ^ 22 + f.ingress * 2 ^ 17 + len

/-- The raw end of a frame's delivery: its I2 copy has been sent, and the receive interrupt is raised, a tenant's vector (R376) or, for a
steward ring, the port event of I2 (R59; DESIGN CHOICE, log entry 97: the spec names no source for it). -/
def rxDone (p : RxPart) (f : Frame) (s : State) : State :=
  let t := { s with ports := { s.ports with rxPart := none } }
  let t := countTx pI2 (f.octets.length + 4) (t.endCopy p.fid pI2 p.cls)
  match ringOf p.ring with
  | .tenant v => t.vfVector v 1
  | .steward _ => t.raise (ES_PT pI2)

/-- A frame part-way into its ring is truncated (R97): EOP and ERR_TRUNC stand in the descriptor filled last, and the rest of the frame
is discarded. -/
def truncateRx (p : RxPart) (f : Frame) (s : State) : State :=
  rxDone p f ((s.storeN (p.desc + 12) 4 (rxWord f p.sop true true p.len)).inc (rxTrunc (ringOf p.ring)))

/-- A ring that has been disabled part-way through a frame truncates it (R104). -/
def cutRing (r : Ring) (s : State) : State :=
  match s.ports.rxPart with
  | none => s
  | some p =>
    if p.ring = ringIndex r ∧ s.rd (rxSize r) = 0 then
      match s.frame p.fid with
      | some f => truncateRx p f s
      | none => { s with ports := { s.ports with rxPart := none } }
    else s

/-! ### Register writes -/

/-- Modes that port `n` lists, and its reset mode (R69). -/
def portModes (n : Nat) : List Nat :=
  if n < 8 then [0, 1, 2] else if n < 16 then [1, 2, 3] else if n < 18 then [0] else [4]

def portResetMode (n : Nat) : Nat := if n < 8 then 0 else if n < 16 then 1 else if n < 18 then 0 else 4

/-- The MODE stored for a written one (R71). -/
def modeStored (n v : Nat) : Nat := if (portModes n).contains v then v else portResetMode n

/-- PT_CTRL (R71, R78, R92, R128). -/
def ptCtrlWriteOp (n v : Nat) (s : State) : State :=
  let was := s.on (PT_CTRL_EN.p n)
  let fields := fun w => (bits w 30 28, bits w 27 26, bits w 25 24, bits w 23 23)
  let old := s.word (PT_CTRL_EN.p n).addr
  let t :=
    if was then
      let t := ((s.wr (PT_CTRL_EN.p n) (bits v 31 31)).wr (PT_CTRL_UP_HOLD_MS.p n) (bits v 15 8))
      if fields v = fields old then t else t.raise (ES_PT n)
    else
      let t := s.swPut (PT_CTRL_EN.p n).addr v
      let m := modeStored n (bits v 30 28)
      let l := if bits v 27 26 = 3 ∧ ¬ (n = 16 ∨ n = 17) then 2 else bits v 27 26
      let f := if bits v 25 24 = 1 ∧ m = 0 then 1 else 0
      ((t.wr (PT_CTRL_MODE.p n) m).wr (PT_CTRL_MAXLEN.p n) l).wr (PT_CTRL_FEC.p n) f
  if bit v 31 then
    if !was && t.dom (portDomain n) == 1 then t.enterDown n else t
  else if was then t.enterOff n
  else t

/-- PT_CMD (R89, R91). DORMANT and WAKE set in one write are both judged on the state before it, so that the port goes DORMANT and WAKE
is discarded with the event (DESIGN CHOICE, log entry 95: R89 is silent). -/
def ptCmdWrite (n v : Nat) (s : State) : State :=
  let l := s.link n
  let t :=
    if bit v 0 then
      if n < 16 ∧ l = 2 then
        let t := s.wr (PT_STATUS_STATE.p n) 3
        if t.rd (PT_STATUS_VERIFY.p n) = 2 then t.wr (PT_STATUS_VERIFY.p n) 1 else t
      else s.raise (ES_PT n)
    else s
  let t := if bit v 1 then (if l = 3 then t.portWake n else t.raise (ES_PT n)) else t
  if bit v 2 then t.wr (PT_STATUS_PAUSE_BROKEN.p n) 0 else t

/-- PT_PREEMPT (R80, R82): M0 has no preemption, and its EN stays 0. A handshake in progress goes on where VERIFY_DIS is set beside EN
(DESIGN CHOICE, log entry 95: R82 is silent). -/
def ptPreemptWrite (n v : Nat) (s : State) : State :=
  let was := s.on (PT_PREEMPT_EN.p n)
  let t := s.swPut (PT_PREEMPT_EN.p n).addr v
  let t := t.wr (PT_PREEMPT_VERIFY_MS.p n) (clampN 1 128 (v % 256))
  let t := if n = 18 then t.wr (PT_PREEMPT_EN.p n) 0 else t
  let is := t.on (PT_PREEMPT_EN.p n)
  if is ∧ ¬ was then (if t.link n = 2 then t.startVerify n else t.idleVerify n)
  else if was ∧ ¬ is then (t.wr (PT_STATUS_VERIFY.p n) 0).wr (PT_STATUS_PREEMPT_ACTIVE.p n) 0
  else t

/-- Valid sizes of a descriptor ring: 0, or a power of two from 16 to 4,096 (R103). -/
def ringSizeOk (v : Nat) : Bool := [0, 16, 32, 64, 128, 256, 512, 1024, 2048, 4096].contains v

/-- A write of a register at index `k` of a ring pair whose registers begin at offset `base` of register space (R103, R104):
base registers of a ring in use are held, and an invalid SIZE disables the ring with the event `ev`. An invalid SIZE does so while SIZE
is non-zero too: the register's table holds, and R104 bars another valid size only (DESIGN CHOICE, log entry 95). NEXT is 0 when a ring
is enabled (DESIGN CHOICE, log entry 95: the spec gives its reset value only). -/
def ringWrite (base k v : Nat) (ev : State → State) (s : State) : State :=
  let half := if k < 4 then base else base + 0x10
  let j := if k < 4 then k else k - 4
  let size := s.word (half + 8)
  if 8 ≤ k then s
  else if j = 0 ∨ j = 1 then (if size = 0 then s.swPut (half + 4 * j) v else s)
  else if j = 2 then
    let w := v % 8192
    if ¬ ringSizeOk w then ev (s.put (half + 8) 0)
    else if w = 0 then s.put (half + 8) 0
    else if size = 0 then (s.put (half + 8) w).put (half + 12) 0
    else s
  else s

/-- A write of the register at offset `o` of port page `n` (R103). -/
def ptWrite (n o v : Nat) (s : State) : State :=
  let a := 0x100000 + n * 0x10000
  if n = 21 then
    if 0x400 ≤ o ∧ o < 0x500 then
      cutRing (.steward (Fin.ofNat 4 ((o - 0x400) / 0x40)))
        (ringWrite (a + 0x400 + (o - 0x400) / 0x40 * 0x40) (o % 0x40 / 4) v (fun t => t.raise (ES_PT 21)) s)
    else s
  else if 19 ≤ n then s
  else if o = 0 then ptCtrlWriteOp n v s
  else if o = 8 then ptCmdWrite n v s
  else if o = 0xC then
    let t := s.swPut (a + o) v
    t.wr (PT_PAUSE_WD_US.p n) (max 1 (v % 65536))
  else if o = 0x10 then ptPreemptWrite n v s
  else if 0x400 ≤ o then s
  else s.swPut (a + o) v

/-- Reads of a port page that are more than the register's value: the latched octet counters (R101) and the registers that
the internal ports do not have (R103). -/
def ptRead (q n o : Nat) (s : State) : Option (Nat × State) :=
  let a := 0x100000 + n * 0x10000
  if (n = 19 ∨ n = 20) ∧ ¬ (0x100 ≤ o ∧ o < 0x118) then some (0, s)
  else if n = 21 ∧ ¬ (0x100 ≤ o ∧ o < 0x134) ∧ ¬ (0x400 ≤ o ∧ o < 0x500) then some (0, s)
  else if n < 19 ∧ 0x400 ≤ o then some (0, s)
  else
    let key := q * 64 + n * 2 + b2n (decide (0x10C ≤ o))
    if o = 0x104 ∨ o = 0x110 then
      some (s.word0 (a + o), { s with ports := { s.ports with octLatch := aput s.ports.octLatch key (s.word0 (a + o + 4)) } })
    else if o = 0x108 ∨ o = 0x114 then some (agetD s.ports.octLatch key 0, s)
    else none

/-! ### Link events -/

/-- Whether the port's mode negotiates before UP (R70). -/
def State.negotiates (s : State) (n : Nat) : Bool :=
  s.rd (PT_CTRL_MODE.p n) == 3 || (s.rd (PT_CTRL_MODE.p n) == 2 && s.on (PT_CTRL_AN_EN.p n))

/-- The hold of R92 begins in the first cycle in which PCS_LOCK and, where the mode negotiates, AN_DONE both hold (R70). -/
def State.startHold (s : State) (n : Nat) : State :=
  if (s.port n).upFrom.isNone ∧ s.on (PT_STATUS_PCS_LOCK.p n) ∧ (s.negotiates n → s.on (PT_STATUS_AN_DONE.p n)) then
    s.setPort n { s.port n with upFrom := some s.clk.lapse }
  else s

/-- AN_DONE (R70): the negotiation, or the SGMII exchange, completes over the locked PCS; over SGMII the PHY reports 10 (0), 100 (1) or
1,000 Mb/s (2). -/
def execAnDone (p : Fin 19) (speed : Fin 3) (s : State) : Host.Outcome State Fault Refusal :=
  whileOn (portDomain p) s <|
  if s.link p = 1 ∧ s.negotiates p then
    let t := (s.wr (PT_STATUS_PCS_LOCK.p p) 1).wr (PT_STATUS_AN_DONE.p p) 1
    .next ((t.setPort p { t.port p with slow := decide (s.rd (PT_CTRL_MODE.p p) = 3 ∧ speed.val ≠ 2) }).startHold p)
  else .next s

/-- Whether the port's link has held for UP_HOLD_MS (R92); a PHY at 10 or 100 Mb/s leaves the port in DOWN (R70). -/
def State.linkHeld (s : State) (n : Nat) : Bool :=
  !(s.port n).slow && (match (s.port n).upFrom with
    | some t => decide (t + s.rd (PT_CTRL_UP_HOLD_MS.p n) * uMs ≤ s.clk.lapse)
    | none => false)

/-- LINK_UP (R92): the PCS of a port that is DOWN is locked. The row shows the lock in PCS_LOCK, and brings the port to UP once the lock
and the negotiation have held for UP_HOLD_MS (log entry 32). -/
def execLinkUp (p : Fin 19) (s : State) : Host.Outcome State Fault Refusal :=
  whileOn (portDomain p) s <|
  if s.link p ≠ 1 then .next s
  else
    let t := (s.wr (PT_STATUS_PCS_LOCK.p p) 1).startHold p
    .next (if t.linkHeld p then t.enterUp p else t)

/-- PCS_LOCK_LOSS (R92, R93, R126): the PCS loses its lock or, with `negotiation`, only the auto-negotiation or the SGMII link is
lost. -/
def execPcsLockLoss (p : Fin 19) (negotiation : Bool) (s : State) : Host.Outcome State Fault Refusal :=
  whileOn (portDomain p) s <|
  if s.link p = 0 ∨ (negotiation ∧ ¬ (s.negotiates p ∧ s.on (PT_STATUS_AN_DONE.p p))) then .next s
  else
    let t := (if negotiation then s else s.wr (PT_STATUS_PCS_LOCK.p p) 0).wr (PT_STATUS_AN_DONE.p p) 0
    .next (if s.link p = 1 then t.setPort p { t.port p with upFrom := none, slow := false } else t.enterDown p)

/-- GRACE_EXPIRY (R127): the grace timer ends, and the queues are flushed as the cycle ends where the port is then still DOWN
(`State.graceCycle`): entry into UP in the same cycle wins. A port whose link has held for UP_HOLD_MS enters UP in this cycle. -/
def execGraceExpiry (p : Fin 19) (s : State) : Host.Outcome State Fault Refusal :=
  whileOn (portDomain p) s <|
  match (s.port p).graceTo with
  | none => .next s
  | some g =>
    if s.link p = 1 ∧ g ≤ s.clk.lapse ∧ ¬ s.linkHeld p then
      .next (s.setPort p { s.port p with graceTo := none, graceEnd := true })
    else .next s

/-- The end of a cycle in which the grace timer of port `n` has ended (R127). -/
def State.graceCycle (s : State) (n : Nat) : State :=
  if (s.port n).graceEnd then
    if s.link n = 1 then (s.setPort n { s.port n with graceEnd := false, graceOver := true }).flushPort n
    else s.setPort n { s.port n with graceEnd := false }
  else s

/-! ### Wake patterns (R87, R88) -/

/-- Bytes that take part in pattern `k` of port `n`, ascending. -/
def State.wakeMask (s : State) (n k : Nat) : List Nat :=
  let m := fun (f : Fld) => s.rd ((f.p n).i k)
  maskList 128 (m PT_WK_MASK0 + m PT_WK_MASK1 * 2 ^ 32 + m PT_WK_MASK2 * 2 ^ 64 + m PT_WK_MASK3 * 2 ^ 96)

/-- Whether a good frame's octets (without FCS) match pattern `k` of port `n`. -/
def State.wakeMatch (s : State) (n k : Nat) (l : List Byte) : Bool :=
  let m := s.wakeMask n k
  s.on ((PT_WK_EN.p n).i k) && !m.isEmpty && m.all (fun b => decide (b < l.length)) &&
    crc16 (m.map (fun b => l.getD b 0)) == s.rd ((PT_WK_CHECK.p n).i k)

/-- Wake a dormant domain (R29, R88): it completes within 50 µs. -/
def State.wakeDomain (s : State) (d : Nat) : State :=
  if s.dom d = 2 ∧ ¬ s.arch.wakes.any (fun w => w.1 == d) then
    { s with arch := { s.arch with wakes := s.arch.wakes ++ [(d, s.clk.lapse + 50 * uUs)] } }
  else s

/-- Carry out the union of the actions of the patterns that a good frame matches (R88). A MAC control frame is never released into the
Hall (R90), so that DISCOVER makes no copy of it. -/
def State.wakeActions (s : State) (n : Nat) (f : Frame) (ctl : Bool) : State :=
  let ks := (List.range 16).filter (fun k => s.wakeMatch n k f.octets)
  match ks with
  | [] => s
  | low :: _ =>
    let t := (s.inc (PT_C_WAKE_HIT.p n)).ptEvent PT_EVENT_WAKE n
    let has := fun (g : Fld) => ks.filter (fun k => s.on ((g.p n).i k))
    let t := if (has PT_WK_WAKE_PORT).isEmpty ∨ t.link n ≠ 3 then t else t.portWake n
    let t := (has PT_WK_WAKE_DOMAIN).foldl (fun t k => t.wakeDomain (s.rd ((PT_WK_DOMAIN.p n).i k))) t
    if (has PT_WK_DISCOVER).isEmpty ∨ ctl then t
    else
      let copy := { f with
        looked := true, complete := true, ring := 0, pattern := some low, cells := 0, cls := 0, copies := [(pI2, 0)] }
      let (i, t) := t.newFrame copy
      t.setQueue pI2 0 (t.queue pI2 0 ++ [i])

/-! ### Reception (R72, R77, R79, R86, R89, R90) -/

/-- The cycle at whose start the governing base reaches `v`, at the increment in force (R72, R73). -/
def State.cycleAt (s : State) (v : Nat) : Nat :=
  if v ≤ s.now then s.cyc else s.cyc + ceilDiv (v - s.now) (s.incNow s.gov)

/-- Release cycle of byte `i` of a frame (R283). -/
def relByte (rate c0 : Nat) (frags : List (Nat × Nat)) (i : Nat) : Nat :=
  let base := c0 + ceilDiv (8 * i) rate
  match (frags.filter (fun p => p.1 ≤ i)).getLast? with
  | none => base
  | some (b, c) => max base (c + ceilDiv (8 * (i - b)) rate)

/-- The raw stamp, in base `b`, of an event `sub` · 2⁻¹⁶ of a cycle into this cycle at port `n`, corrected by RX_LAT (R56). -/
def State.rxStampIn (s : State) (n b sub : Nat) : Nat := s.stampIn b sub - s.rd (HC_PC_RX_LAT.i n)

/-- The release cycle of what begins at port `n`'s pads `after` · 2⁻¹⁶ ns after a bit with corrected stamp `st` (R72, R73). -/
def State.releaseCyc (s : State) (n st after : Nat) : Nat := s.cycleAt ((st + after) * uSt + dIn (s.rate n) * uNs)

/-- Release cycle of byte `i` of a received frame (R72, R283). -/
def rxRelease (n : Nat) (rx : RxFrame) (s : State) : Nat → Nat :=
  let at' := s.releaseCyc n (s.rxStampIn n s.gov rx.sub)
  relByte (s.rate n) (at' 0) ((fragStarts (rx.first.octets.length - 4) rx.more).map (fun p => (p.1, at' p.2)))

/-- The frame as the Porch hands it on: stamps corrected, release schedule fixed (R72, R283–R285). Of an oversize frame the Hall receives
the octets up to the one that shows it oversize (R77, R116; DEDUCED, log entry 94). -/
def rxFrameOf (n : Nat) (rx : RxFrame) (octets : List Byte) (bad : Nat) (s : State) : Frame :=
  let rel := rxRelease n rx s
  let len := if bad = 1 then min octets.length (s.lmax n + 1) else octets.length
  let l := rel (min 127 (len - 1)) + 24
  let e := max (rel (len - 1)) l + 4
  { octets := octets.take (if bad = 1 then len else len - 4), len := len, stamp := s.rxStampIn n s.gov rx.sub, base := s.gov
    stamp0 := s.rxStampIn n 0 rx.sub, ingress := n, bad := bad, fragmented := !rx.more.isEmpty, c0 := rel 0, l := l, e := e }

/-- A good MAC control frame: consumed, counted, and as PAUSE noted for the release of its last byte in cycle `last` (R90). -/
def macControl (n : Nat) (f : Frame) (last : Nat) (s : State) : State :=
  let t := s.inc (PT_C_MACCTL.p n)
  let dst := beAt f.octets 0 6
  if beAt f.octets 14 2 = 1 ∧ (dst = 0x0180C2000001 ∨ dst = t.mac n) then
    let t := t.inc (PT_C_PAUSE_RX.p n)
    let p := t.port n
    t.setPort n { p with pauseReqs := p.pauseReqs ++ [(last, beAt f.octets 16 2)] }
  else t

/-- Whether the port treats a frame that begins `sub` · 2⁻¹⁶ of a cycle into this cycle as received in DORMANT: its corrected stamp is
not later than the return (R89). -/
def State.asDormant (s : State) (n sub : Nat) : Bool :=
  s.link n == 3 || (match (s.port n).retAt with
    | some t => decide (s.clk.lapse + s.incNow s.gov * sub / 65536 ≤ t + s.rd (HC_PC_RX_LAT.i n) * uSt)
    | none => false)

/-- The cycle at whose start the last octet of packet `m` of a frame that begins in this cycle has reached the pads. -/
def State.packetTill (s : State) (n : Nat) (rx : RxFrame) (m : Packet) : Nat :=
  s.cycleAt (s.now + (s.incNow s.gov * rx.sub.val / 65536) + m.after * uSt + ceilDiv (m.octets.length * 8 * uNs) (s.rate n))

/-- Note a frame in reception until its last octet has arrived (R93), with what it counted since the state `s0` before it. -/
def State.openRx (s : State) (n : Nat) (o : RxOpen) (s0 : State) : State :=
  let p := s.port n
  let cs := rxCounters n
  let o := { o with
    took := (List.range cs.length).filter (fun k => (cs[k]?.map (fun f => s.rd f != s0.rd f)).getD false)
    fragTook := s.rd (PT_C_FRAG_RX.p n) - s0.rd (PT_C_FRAG_RX.p n) }
  s.setPort n { p with rxOpen := o :: p.rxOpen.filter (fun x => decide (s.cyc < x.till)) }

/-- Note a Pdelay_Req for the turnaround of its answer (R62). -/
def notePdelay (n : Nat) (f : Frame) (s : State) : State :=
  if ptpType f.octets = some 2 then
    s.setPort n { s.port n with pdelay := some (beAt f.octets ((header f.octets).payload + 30) 2, f.stamp0) }
  else s

/-- How a reassembled frame is screened (R77, R79): 0 good, 1 oversize, 2 bad FCS, 3 runt. -/
def State.screen (s : State) (n : Nat) (l : List Byte) : Nat :=
  if l.length < 64 then 3
  else if s.lmax n < l.length then 1
  else if fcsOf (l.take (l.length - 4)) ≠ l.drop (l.length - 4) then 2
  else 0

/-- The counter of a frame that fails its screening. -/
def badCounter (n verdict : Nat) : Fld :=
  match verdict with
  | 1 => PT_C_OVERSIZE.p n
  | 3 => PT_C_RUNT.p n
  | _ => PT_C_FCS_ERR.p n

/-- A frame enters the Hall and is noted in reception; the first one accepted after a return from DORMANT ends the wait for it
(R89). -/
def acceptRx (n : Nat) (f : Frame) (o : RxOpen) (s0 s : State) : State :=
  let (i, t) := s.newFrame f
  let t := t.setPort n { t.port n with retAt := if o.good then none else (t.port n).retAt }
  t.openRx n { o with fid := some i } s0

/-- A good frame on port `n` (R77, R87–R90): counted, matched, and consumed as MAC control, dropped in DORMANT or accepted; `s0` is the
state before it. A PAUSE frame received in DORMANT takes effect as PAUSE (DESIGN CHOICE, log entry 95: R89 drops it, R90 obeys it). -/
def goodRx (n : Nat) (rx : RxFrame) (f : Frame) (o : RxOpen) (s0 s : State) : State :=
  let ctl := beAt f.octets 12 2 == 0x8808
  let t := (countRx n f.len s).wakeActions n f ctl
  let hit := (List.range 16).any (fun k => s.wakeMatch n k f.octets)
  let o := { o with
    wakeFlag := hit && !s.on (PT_EVENT_WAKE.p n)
    woke := (t.arch.wakes.drop s.arch.wakes.length).map (fun (w : Nat × Nat) => w.1)
    copy := if t.hall.nextId ≠ s.hall.nextId then some s.hall.nextId else none }
  let last := rxRelease n rx s (f.len - 1)
  let u := if ctl then macControl n f last t else t
  let o := { o with pause := if (u.port n).pauseReqs.length ≠ (t.port n).pauseReqs.length then some last else none }
  if s.asDormant n rx.sub then (u.inc (PT_C_DORMANT_DROP.p n)).openRx n o s0
  else if ctl then u.openRx n o s0
  else acceptRx n f o s0 (notePdelay n f u)

/-- FRAME_RECEIVE (R72): the frame whose first bit reaches the pads of port `p` in this cycle, taken whole. -/
def execFrameReceive (p : Fin 19) (rx : RxFrame) (s : State) : Host.Outcome State Fault Refusal :=
  whileOn (portDomain p) s <|
  let n := p.val
  if s.link n ≠ 2 ∧ s.link n ≠ 3 then .next s
  else
    let t := s.count (PT_C_FRAG_RX.p n) (conts rx).length
    let o : RxOpen := {
      cyc0 := s.cyc, till := s.packetTill n rx (rx.more.getLastD rx.first), len := 0, good := false
      frags := (conts rx).map (s.packetTill n rx) }
    match assemble rx with
    | none => .next ((t.inc (PT_C_REASM_ERR.p n)).openRx n o s)
    | some l =>
      let v := t.screen n l
      let f := rxFrameOf n rx l v t
      let o := { o with len := l.length, good := v == 0 }
      if v = 0 then .next (goodRx n rx f o s t)
      else
        let u := t.inc (badCounter n v)
        if v = 3 ∨ beAt l 12 2 = 0x8808 ∨ s.asDormant n rx.sub then .next (u.openRx n o s) else .next (acceptRx n f o s u)

/-! ### PAUSE (R90, R91) -/

/-- A pause of `q` quanta of 512 bit times at the port's rate, in accumulator units. -/
def quanta (q rate : Nat) : Nat := ceilDiv (q * 512 * uNs) rate

/-- Whether the port's egress releases are held (R90): from the cycle after the PAUSE frame's last byte until its time has
run out. -/
def State.pausedNow (s : State) (n : Nat) : Bool :=
  s.on0 (PT_STATUS_PAUSED.p n) && decide (s.clk.lapse < (s.port n).pauseTo)

/-- PAUSE_FRAME_RX (R90): the oldest PAUSE frame whose last byte has been released takes effect. -/
def execPauseFrameRx (p : Fin 19) (s : State) : Host.Outcome State Fault Refusal :=
  whileOn (portDomain p) s <|
  let n := p.val
  match (s.port n).pauseReqs with
  | [] => .next s
  | (c, q) :: rest =>
    if s.cyc < c then .next s
    else
      let t := s.setPort n { s.port n with pauseReqs := rest }
      if ¬ t.on (PT_PAUSE_RX_EN.p n) ∨ t.on (PT_STATUS_PAUSE_BROKEN.p n) then .next t
      else if q = 0 then .next (t.wr (PT_STATUS_PAUSED.p n) 0)
      else
        let going := t.on (PT_STATUS_PAUSED.p n) && decide (t.clk.lapse < (t.port n).pauseTo)
        let o := t.port n
        .next ((t.setPort n { o with
          pauseTo := t.clk.lapse + quanta q (t.rate n)
          pauseFrom := if going then o.pauseFrom else t.clk.lapse + t.incNow t.gov
          pauseRenewed := going }).wr (PT_STATUS_PAUSED.p n) 1)

/-- PAUSE_END (R90). -/
def execPauseEnd (p : Fin 19) (s : State) : Host.Outcome State Fault Refusal :=
  whileOn (portDomain p) s <|
  if s.on (PT_STATUS_PAUSED.p p) ∧ (s.port p).pauseTo ≤ s.clk.lapse then .next (s.wr (PT_STATUS_PAUSED.p p) 0) else .next s

/-- PAUSE_WATCHDOG (R91): a renewed pause has lasted WD_US µs without a break. -/
def execPauseWatchdog (p : Fin 19) (s : State) : Host.Outcome State Fault Refusal :=
  whileOn (portDomain p) s <|
  let n := p.val
  let o := s.port n
  let limit := o.pauseFrom + s.rd (PT_PAUSE_WD_US.p n) * uUs
  if s.on (PT_STATUS_PAUSED.p n) ∧ o.pauseRenewed ∧ limit ≤ o.pauseTo ∧ limit ≤ s.clk.lapse then
    .next (((((s.setPort n { o with pauseTo := min o.pauseTo s.clk.lapse }).wr (PT_STATUS_PAUSED.p n) 0).wr
      (PT_STATUS_PAUSE_BROKEN.p n) 1).inc (PT_C_PAUSE_WD.p n)).ptEvent PT_EVENT_PAUSE_WD n)
  else .next s

/-- PORT_WAKE_DONE (R89). -/
def execPortWakeDone (p : Fin 19) (s : State) : Host.Outcome State Fault Refusal :=
  whileOn (portDomain p) s <|
  if s.link p = 3 ∧ (s.port p).wakeBy.isSome then .next (s.portReturn p) else .next s

/-! ### Preemption verification (R82) -/

/-- Whether the MAC of port `n` can begin a frame in this cycle (R74). -/
def State.macFree (s : State) (n : Nat) : Bool :=
  decide ((s.port n).macBusy ≤ s.cyc) && decide ((s.port n).expBusy ≤ s.cyc)

/-- Egress releases of port `n` are held in this cycle while a frame is in transmission: what waits for a preemption boundary waits from
the cycle after (R74, R81, R90). -/
def State.holdCycle (s : State) (n : Nat) : State :=
  if (s.port n).txFrame.isSome ∧ (s.link n ≠ 2 ∨ s.pausedNow n) then s.setPort n { s.port n with openFrom := s.cyc + 1 } else s

/-- VERIFY_MPACKET_SEND (R82). An mPacket takes the MAC no time, so that a frame may be released in its cycle (DESIGN CHOICE, log entry
95: the spec does not say how long one occupies the MAC). -/
def execVerifyMpacketSend (p : Fin 19) (s : State) : Host.Outcome State Fault Refusal :=
  whileOn (portDomain p) s <|
  let n := p.val
  let o := s.port n
  let due := if o.verifySent = 0 then s.macFree n && !s.pausedNow n
    else decide (o.verifySent < 3) && decide (o.verifyAt + s.rd (PT_PREEMPT_VERIFY_MS.p n) * uMs ≤ s.clk.lapse)
  if s.link n = 2 ∧ s.rd (PT_STATUS_VERIFY.p n) = 2 ∧ due then
    .next (s.setPort n { o with verifySent := o.verifySent + 1, verifyAt := s.clk.lapse })
  else .next s

/-- RESPOND_MPACKET_RX (R82): a respond mPacket whose first bit falls `sub` · 2⁻¹⁶ of a cycle into this cycle. While VERIFYING it makes the
status SUCCEEDED in the cycle after its release (`State.respCycle`); a later one before that release changes nothing. -/
def execRespondMpacketRx (p : Fin 19) (sub : Fin 65536) (s : State) : Host.Outcome State Fault Refusal :=
  whileOn (portDomain p) s <|
  if s.link p = 2 ∧ s.rd (PT_STATUS_VERIFY.p p) = 2 then
    .next (s.setPort p { s.port p with respAt := some ((s.port p).respAt.getD (s.releaseCyc p (s.rxStampIn p s.gov sub) 0)) })
  else .next s

/-- The release of a respond mPacket ends the handshake of port `n` (R82). -/
def State.respCycle (s : State) (n : Nat) : State :=
  match (s.port n).respAt with
  | none => s
  | some c =>
    if s.cyc < c then s
    else
      let t := s.setPort n { s.port n with respAt := none }
      if t.link n = 2 ∧ t.rd (PT_STATUS_VERIFY.p n) = 2 then
        (t.wr (PT_STATUS_VERIFY.p n) 3).wr (PT_STATUS_PREEMPT_ACTIVE.p n) 1
      else t

/-- VERIFY_MPACKET_RX (R82): answered while EN is 1, except in DORMANT, where the port sends no mPacket. -/
def execVerifyMpacketRx (p : Fin 19) (s : State) : Host.Outcome State Fault Refusal :=
  whileOn (portDomain p) s <|
  if s.link p = 2 ∧ s.on (PT_PREEMPT_EN.p p) then
    .next (s.setPort p { s.port p with responds := (s.port p).responds + 1 })
  else .next s

/-- VERIFY_FAIL (R82): three intervals after the first verify mPacket. -/
def execVerifyFail (p : Fin 19) (s : State) : Host.Outcome State Fault Refusal :=
  whileOn (portDomain p) s <|
  let n := p.val
  let o := s.port n
  if s.rd (PT_STATUS_VERIFY.p n) = 2 ∧ o.verifySent = 3 ∧ o.verifyAt + s.rd (PT_PREEMPT_VERIFY_MS.p n) * uMs ≤ s.clk.lapse then
    .next (((s.wr (PT_STATUS_VERIFY.p n) 4).inc (PT_C_VERIFY_FAIL.p n)).ptEvent PT_EVENT_VERIFY_FAIL n)
  else .next s

end Sys2Proof.Machine
end

