-- ==== Sys2Proof/Machine/Switch.lean ====
section
/-!
DEFINITION. The switch core (04_hall_and_larder.md): the forwarding decision, redundancy, admission, cut-through, egress
releases and lifetimes.
-/
namespace Sys2Proof.Machine

/-! ### VLAN, class and copy set (R110–R112, R129–R132, R136) -/

/-- VLAN of a frame on ingress port `n` (R111). -/
def State.vlanOf (s : State) (n : Nat) (h : Header) : Nat :=
  match h.tags with
  | (_, v) :: _ => if v = 0 then s.rd (HL_P_PVID.i n) else v
  | [] => s.rd (HL_P_PVID.i n)

/-- Members of a VLAN; VLANs 0 and 4,095 have none (R135). -/
def State.member (s : State) (v : Nat) : Nat := if v = 0 ∨ 4095 ≤ v then 0 else s.rd (HL_V_MEMBER.i v)

/-- Whether the ingress port drops the frame by its VLAN rules (R111). VID 4,095 is never valid. IFILT filters external ports only: I2 has
no bit in MEMBER, by which it would drop every frame (DESIGN CHOICE, log entry 103). -/
def State.vlanDrop (s : State) (n : Nat) (h : Header) : Bool :=
  let tagged := match h.tags with
    | (_, v) :: _ => v != 0
    | [] => false
  let acc := s.rd (HL_P_ACCEPT.i n)
  let v := s.vlanOf n h
  (acc == 1 && !tagged) || (acc == 2 && tagged) || v == 4095 || (s.on (HL_P_IFILT.i n) && decide (n < 19) && !bit (s.member v) n)

/-- Class of a frame (R112), for a frame from an external port or one whose own class is `own`. -/
def State.classOf (s : State) (n : Nat) (h : Header) (entry : Option (List Byte)) (own : Option Nat) : Nat :=
  match entry.bind (fun b => if eClassOvr b then some (eClass b) else none) with
  | some c => c
  | none =>
    match own with
    | some c => c
    | none =>
      let p := match h.tags with
        | (p, _) :: _ => p
        | [] => s.rd (HL_P_PCP_DEF.i n)
      bits (s.rd (HL_P_PCP_MAP.i n)) (3 * p + 2) (3 * p)

/-- The copy set before redundancy (R110). -/
def State.copySet (s : State) (n : Nat) (h : Header) (entry : Option (List Byte)) : List Nat :=
  let v := s.vlanOf n h
  let m := match entry with
    | some b => (ePorts b &&& s.member v) + (if bit (ePorts b) 19 then 2 ^ 19 else 0) + (if bit (ePorts b) 21 then 2 ^ 21 else 0)
    | none =>
      if n < 19 ∧ ¬ isGroup h.dst ∧ h.dst = s.mac n then 2 ^ 21
      else if s.on (HL_V_FLOOD.i v) then s.member v else 0
  (maskList 22 m).filter (fun p => p != n)

/-- Redundancy mode of the pair that port `n` belongs to: 0 none, 1 PRP, 2 HSR (R129). -/
def State.redMode (s : State) (n : Nat) : Nat := if n < 16 then s.rd (HL_RED_MODE.i (n / 2)) else 0

/-- The other port of a pair. -/
def mate (n : Nat) : Nat := if n % 2 = 0 then n + 1 else n - 1

/-- Copies to redundancy pairs other than the ingress pair go to both ports (R131, R132). -/
def State.widen (s : State) (n : Nat) (ps : List Nat) : List Nat :=
  (List.range 22).filter (fun p => ps.contains p || (s.redMode p != 0 && p / 2 != n / 2 && ps.contains (mate p)))

/-- Copies removed by R136 and by HL_CTRL.EN (R110); a direct frame of a steward ring passes the latter. -/
def State.permitted (s : State) (n : Nat) (direct : Bool) (ps : List Nat) : List Nat :=
  let ps := if ¬ s.on0 SB_CTRL_EN ∨ n = 18 ∨ 19 ≤ n then ps.filter (fun p => p != pI0) else ps
  if s.on0 HL_CTRL_EN || direct then ps else ps.filter (fun p => decide (19 ≤ p))

/-- Whether R136 counts the frame in SRC_REFUSED. -/
def State.srcRefused (s : State) (n : Nat) (ps : List Nat) : Bool :=
  s.on0 SB_CTRL_EN && (n == 18 || n == 21) && ps.contains pI0

/-! ### The duplicate check (R130, R132) -/

/-- Sequence number by which a frame received on port `n` passes the duplicate check. -/
def State.dupSeq (s : State) (n : Nat) (l : List Byte) : Option Nat :=
  match s.redMode n with
  | 1 => prpTrailer l
  | 2 => (header l).hsr
  | _ => none

/-- Whether the copy on the pair's lower port reaches lookup done in the same cycle as frame `f`'s copy with sequence number `seq`: the
check accepts that one (R130). -/
def State.dupBelow (s : State) (f : Frame) (seq : Nat) : Bool :=
  s.hall.frames.any (fun (p : Nat × Frame) =>
    let x := p.2
    !x.looked && x.l == f.l && decide (x.ingress < f.ingress) && x.ingress / 2 == f.ingress / 2 &&
      (header x.octets).src == (header f.octets).src && s.dupSeq x.ingress x.octets == some seq && !s.vlanDrop x.ingress (header x.octets))

/-- The duplicate check: whether frame `f`, whose sequence number is `seq`, is accepted, and the table after it. -/
def State.dupCheck (s : State) (f : Frame) (seq : Nat) : Bool × State :=
  let forget := s.rd HL_DUP_FORGET_MS * uMs
  let key := ((header f.octets).src, f.ingress / 2)
  let live := fun (q : List (Nat × Nat)) => q.filter (fun p => decide (s.clk.lapse ≤ p.2 + forget))
  let seen := live (((s.hall.dups.find? (fun p => p.1 == key)).map (fun p => p.2)).getD [])
  if seen.any (fun p => p.1 == seq) ∨ s.dupBelow f seq then (false, s.inc HL_G_DUP_DROP)
  else
    let rest := (s.hall.dups.filter (fun p => p.1 != key)).filter (fun p => !(live p.2).isEmpty)
    if seen.isEmpty ∧ 8192 ≤ rest.length then (true, (s.inc HL_G_DUP_FULL).event HL_EVENT_DUP_FULL ES_HL)
    else (true, { s with hall := { s.hall with dups := (key, (seq, s.clk.lapse) :: seen) :: rest } })

/-- Copies of a frame received on a redundancy port: none across a PRP pair; round an HSR ring, except a unicast frame to
the module (R129, R132). -/
def State.ringCopies (s : State) (n : Nat) (h : Header) (ps : List Nat) : List Nat :=
  match s.redMode n with
  | 1 => ps.filter (fun p => p != mate n)
  | 2 =>
    let own := !isGroup h.dst && (h.dst == s.mac n || h.dst == s.mac (mate n))
    let ps := ps.filter (fun p => p != mate n)
    if own then ps else ps ++ [mate n]
  | _ => ps

/-- PTP Pdelay messages terminate at each port and are never forwarded (R63): Pdelay_Req, Pdelay_Resp and
Pdelay_Resp_Follow_Up. -/
def stopPdelay (n : Nat) (l : List Byte) (ps : List Nat) : List Nat :=
  if n < 19 ∧ (ptpMessage l = some 2 ∨ ptpMessage l = some 3 ∨ ptpMessage l = some 0xA) then ps.filter (fun p => decide (19 ≤ p)) else ps

/-! ### The octets of a copy (R113, R131, R132) -/

/-- Octets that have to come off a copy to port `p`: PRP trailer or HSR tag of the frame (R131). -/
def State.strips (s : State) (f : Frame) (p : Nat) : Bool :=
  decide (f.ingress < 16) && f.ingress / 2 != p / 2 &&
    ((s.redMode f.ingress == 1 && f.prp) || (s.redMode f.ingress == 2 && (header f.octets).hsr.isSome))

/-- A frame's octets with its outer tag as port `p` sends it (R113). -/
def State.retag (s : State) (f : Frame) (p : Nat) (l : List Byte) : List Byte :=
  let h := header l
  let tagged := !h.tags.isEmpty
  if bit (if f.vlan = 0 ∨ 4095 ≤ f.vlan then 0 else s.rd (HL_V_UNTAG.i f.vlan)) p then
    if tagged then l.take 12 ++ l.drop 16 else l
  else if tagged then l.take 14 ++ beBytes 2 (beAt l 14 2 / 4096 * 4096 + f.vlan) ++ l.drop 16
  else l.take 12 ++ beBytes 2 0x8100 ++ beBytes 2 (s.rd (HL_P_PCP_DEF.i f.ingress) * 8192 + f.vlan) ++ l.drop 12

/-- A frame's octets without its PRP trailer or HSR tag, where it leaves outside its pair (R131). -/
def State.unwrap (s : State) (f : Frame) (p : Nat) : List Byte :=
  let l := f.octets
  if s.strips f p then
    if s.redMode f.ingress = 1 then l.take (l.length - 6)
    else let h := header l; l.take h.hsrAt ++ l.drop (h.hsrAt + 6)
  else l

/-- The octets of a copy that leaves on a redundancy pair from elsewhere, with the pair's sequence number (R131, R132). -/
def State.wrap (s : State) (p seq : Nat) (l : List Byte) : List Byte :=
  let h := header l
  let lan := if p % 2 = 0 then 0xA else 0xB
  match s.redMode p with
  | 1 => l ++ beBytes 2 seq ++ beBytes 2 (lan * 4096 + lsduSize (l.length + 6) h.tags.length % 4096) ++ beBytes 2 0x88FB
  | 2 =>
    let o := h.payload - 2
    l.take o ++ beBytes 2 0x892F ++ beBytes 2 (p % 2 * 4096 + lsduSize (l.length + 6) h.tags.length % 4096) ++
      beBytes 2 seq ++ l.drop o
  | _ => l

/-- Whether the copy to port `p` enters a redundancy pair from elsewhere. -/
def State.entersPair (s : State) (f : Frame) (p : Nat) : Bool :=
  s.redMode p != 0 && (decide (16 ≤ f.ingress) || f.ingress / 2 != p / 2)

/-- The pair's sequence number for a frame: the pair's next one at its first copy (R131). -/
def takeSeq (fid : Nat) (f : Frame) (p : Nat) (s : State) : Nat × State :=
  let k := p / 2
  match f.redSeq.find? (fun x => x.1 == k) with
  | some x => (x.2, s)
  | none =>
    let q := s.rd (HL_RED_SEQ.i k)
    (q, (s.wr (HL_RED_SEQ.i k) (q + 1)).setFrame fid { f with redSeq := (k, q) :: f.redSeq })

/-- Ingress number of the pair controller's own frames, which keep their octets (R454). -/
def pTwin : Nat := 22

/-- The egress stamp that a tick record carries in bytes 12–23 of its payload (R460). -/
def twinStamp (out : Nat) (l : List Byte) : List Byte :=
  if leAt l 14 1 = 2 then splice l (14 + 16 + 12) (stampBytes 0 out) else l

/-- Octets of a copy as port `p` sends it, without FCS. -/
def State.copyOctets (s : State) (f : Frame) (p seq : Nat) : List Byte :=
  let l := if f.ingress = pTwin then f.octets else s.retag f p (s.unwrap f p)
  if s.entersPair f p then s.wrap p seq l else l

/-- Length of the copy of a frame that port `p` sends, FCS included. -/
def State.copyLen (s : State) (f : Frame) (p : Nat) : Nat := (s.copyOctets f p 0).length + 4

/-! ### Cut-through (R114) -/

/-- Cycles for which a frame of `len` octets occupies a MAC: preamble, delimiter and gap add 20 octets (IEEE 802.3). -/
def macCycles (len rate : Nat) : Nat := ceilDiv ((len + 20) * 8) rate

/-- Whether the copy of a frame to external port `p` meets the conditions of cut-through at lookup done, before its own admission
changes the queues (R114); copies already granted are weighed as the grant is made. -/
def State.cuts (s : State) (f : Frame) (entry : Option (List Byte)) (c p : Nat) : Bool :=
  let o := s.port p
  let at' := f.l + 96
  s.on HL_CTRL_CUT_EN && !(entry.map eCutDis).getD false && decide (f.ingress < 19) && !f.fragmented &&
    decide (s.rate p ≤ s.rate f.ingress) && s.link p == 2 && !s.pausedNow p &&
    (List.range 8).all (fun k => decide (k < c) || (s.head p k).isNone) &&
    decide (o.macBusy ≤ at') && decide (o.expBusy ≤ at') && !s.strips f p

/-- Cut-through copies granted on port `p`, and those whose admission is still to come: frame and release cycle. -/
def State.grantsOf (s : State) (p : Nat) : List (Nat × Nat) :=
  (s.port p).grants ++ (s.hall.admits.filter (fun a => a.cuts.contains p)).map (fun a => (a.fid, a.due + 95))

/-- Whether a copy granted to begin on port `p` in cycle `g` still occupies the MAC in cycle `at'`. -/
def State.stillBusy (s : State) (p at' : Nat) (g : Nat × Nat) : Bool :=
  match s.frame g.1 with
  | some x => decide (at' < g.2 + macCycles (s.copyLen x p) (s.rate p))
  | none => false

/-! ### Admission in the cycle after lookup done (R114, R118) -/

/-- Decide the copies of a classified frame, and grant cut-through to those that met its conditions and find in the way no earlier grant,
nor one released since. -/
def settleAdmit (a : Admit) (s : State) : State :=
  let (_, t) := s.admitFrame a.fid a.ports a.cls a.cells
  let took := ((t.frame a.fid).map (fun x => x.copies)).getD []
  let at' := a.due + 95
  let go := a.cuts.filter (fun p => took.contains (p, a.cls) && !(s.port p).grants.any (s.stillBusy p at') &&
    decide ((s.port p).macBusy ≤ at') && decide ((s.port p).expBusy ≤ at'))
  go.foldl (fun (t : State) p => t.setPort p { t.port p with grants := (t.port p).grants ++ [(a.fid, at')] }) t

/-- The admissions that are due by this cycle, in ascending order of ingress port index (R118). -/
def State.settleAdmits (s : State) : State :=
  let due := s.hall.admits.filter (fun a => decide (a.due ≤ s.cyc))
  if due.isEmpty then s
  else
    let t := { s with hall := { s.hall with admits := s.hall.admits.filter (fun a => !decide (a.due ≤ s.cyc)) } }
    ((List.range 23).flatMap (fun n => due.filter (fun a => a.ingress == n))).foldl (fun (t : State) a => settleAdmit a t) t

/-! ### Entering the Hall -/

/-- What classification decides about a frame: the copies, the class, and the frame with its metadata. -/
structure Verdict where
  f : Frame
  entry : Option (List Byte)
  ports : List Nat
  cls : Nat
deriving DecidableEq, Repr

/-- Classification of a frame (R108–R112, R129–R132, R136); a message of the pair on a twin port goes to the pair controller
only (R454); `own` is the class that I1 or I2 gives it. -/
def classify (f : Frame) (own : Option Nat) (s : State) : Verdict × State :=
  let n := f.ingress
  let h := header f.octets
  let gone : State → Verdict × State := fun t => ({ f := { f with looked := true }, entry := none, ports := [], cls := 0 }, t)
  if (n = 16 ∨ n = 17) ∧ h.etype = 0x88B5 then gone s
  else if s.redMode n = 2 ∧ (h.src = s.mac n ∨ h.src = s.mac (mate n)) then gone (s.inc HL_G_HSR_OWN)
  else if s.vlanDrop n h then gone (s.inc (HL_P_VLAN_DROP.i n))
  else
    let seq := s.dupSeq n f.octets
    let (ok, s) := match seq with
      | none => (true, s)
      | some q => s.dupCheck f q
    if ¬ ok then gone s
    else
      let v := s.vlanOf n h
      let hit := s.lookup f.octets v
      let s := if s.idFar f.octets v then s.inc SB_G_ID_FAR else s
      let entry := hit.map (fun p => p.2)
      let ps := s.copySet n h entry
      let s := if s.srcRefused n ps then s.inc SB_G_SRC_REFUSED else s
      let ps := s.permitted n false (stopPdelay n f.octets (s.ringCopies n h (s.widen n ps)))
      let b := entry.getD []
      let f := { f with
        looked := true, entry := hit.map (fun p => p.1), entryVer := (hit.map (fun p => s.entryVer p.1)).getD 0, rule := entry.getD [], vlan := v,
        prp := s.redMode n == 1 && seq.isSome, unknown := isSvGoose h.etype && hit.isNone,
        ring := if entry.isSome then (if eTenant b then 4 + eVi b else eVi b % 4) else 0 }
      ({ f := f, entry := entry, ports := ps, cls := s.classOf n h entry own }, s)

/-- CLASSIFICATION (R108, R118): by lookup done the copy set and class are known; copies are admitted and granted cut-through in the
cycle after (`State.settleAdmits`). -/
def execClassification (fid : Nat) (s : State) : Host.Outcome State Fault Refusal :=
  whileOn 7 s <|
  match s.frame fid with
  | none => .next s
  | some f =>
    if f.looked ∨ s.cyc < f.l then .next s
    else
      let (v, t) := classify f none s
      let t := t.setFrame fid v.f
      if v.ports.isEmpty then .next t
      else
        let a : Admit := {
          fid := fid, ingress := f.ingress, due := s.cyc + 1, ports := v.ports, cls := v.cls, cells := cellsOf (t.lmax f.ingress)
          cuts := v.ports.filter (fun p => decide (p < 19) && t.cuts v.f v.entry v.cls p) }
        .next { t with hall := { t.hall with admits := t.hall.admits ++ [a] } }

/-- A frame enters from I1 or I2 (R75, R107, R118): it is complete, and its copies are decided at entry, after those of frames from
external ports that are due in the same cycle. Answers whether one was admitted. -/
def hallEnter (f : Frame) (ports : List Nat) (c : Nat) (s : State) : Bool × State :=
  let (i, t) := s.settleAdmits.newFrame { f with looked := true, complete := true, c0 := s.cyc, l := s.cyc, e := s.cyc }
  let (ok, t) := t.admitFrame i ports c (cellsOf f.len)
  if ok then
    match f.vi with
    | some v => (true, t.wr (VI_HELD_HELD.p v) (t.rd (VI_HELD_HELD.p v) + cellsOf f.len))
    | none => (true, t)
  else (false, { t with hall := { t.hall with frames := adel t.hall.frames i } })

/-! ### The last byte (R116, R117, R120, R156, R286) -/

/-- What a cut-through copy of bad frame `f` to port `p` has sent of its octets `all` as it ends (R116): no byte that was not received, and
so no PRP trailer of its own. -/
def State.tailOctets (s : State) (f : Frame) (p : Nat) (all : List Byte) : List Byte :=
  let l := all.take (all.length - (if s.redMode p = 1 ∧ s.entersPair f p then 6 else 0))
  if f.bad = 3 then l.take (f.got + l.length - f.octets.length) else l

/-- The frame in transmission on port `p`, or the express frame that interrupts it, is `fid` and ends `k` octets early; the MAC is free
sooner by their time, but not before now. -/
def Port.shorten (o : Port) (fid k rate cyc : Nat) : Port :=
  let d := k * 8 / rate
  if o.expFrame = some fid then
    { o with expBusy := max cyc (o.expBusy - d), fragAt := max cyc (o.fragAt - d), macBusy := max cyc (o.macBusy - d) }
  else if o.txFrame = some fid then { o with macBusy := max cyc (o.macBusy - d), txLen := o.txLen - k }
  else o

/-- A cut-through copy of bad frame `f`, number `fid`, ends after the last byte received, with a stomped FCS (R116). -/
def tailMark (fid : Nat) (f : Frame) (p : Nat) (s : State) : State :=
  let cut := fun (x : TxFrame) => s.tailOctets f p (x.octets.take (x.octets.length - 4))
  let o := s.port p
  let k := match o.sent.find? (fun x => x.fid == fid) with
    | some x => x.octets.length - 4 - (cut x).length
    | none => 0
  let sent := o.sent.map (fun x => if x.fid = fid then { x with octets := cut x ++ stompedFcs (cut x), tail := true } else x)
  (s.setPort p (({ o with sent := sent } : Port).shorten fid k (s.rate p) s.cyc)).inc (PT_C_TAIL_TX.p p)

/-- A frame found bad at its last byte (R116, R117): copies being cut through are tail-marked, the others are discarded. -/
def findBad (fid : Nat) (f : Frame) (s : State) : State :=
  let cutting := f.copies.filter (fun p => f.cut.contains p.1)
  let others := f.copies.filter (fun p => !f.cut.contains p.1)
  let t := cutting.foldl (fun t p => tailMark fid f p.1 t) s
  let t := if f.cut.isEmpty then t else (t.inc HL_G_TAIL_MARK).event HL_EVENT_TAIL ES_HL
  others.foldl (fun t p =>
    let t := t.endCopy fid p.1 p.2
    if f.cut.isEmpty then t else t.inc HL_G_BAD_DROP) t

/-- The verification delay that an entry's AUTH calls for when the frame carries an extension (R286). -/
def verifyDelay (auth : Nat) : Nat := if auth = 1 then 112 else 640

/-- Outcome of the verification of a frame with an extension under entry `b` (R148, R149, R419): 0 or the cause. The slot is
fetched when the verification takes the frame (R417). -/
def verifyTag (b l : List Byte) (s : State) : Nat × State :=
  let named := fun (i : Nat) => kState (s.ksBefore i).bytes != ksEmpty && kKeyId (s.ksBefore i).bytes == Config.extKeyId l
  let pickd := if named (eKeyCur b) then some (eKeyCur b) else if named (eKeyNext b) then some (eKeyNext b) else none
  match pickd with
  | none => (2, s)
  | some i =>
    let (k, ok, s) := s.ksFetch i
    let alg := kAlg k
    let family := if eAuth b = 1 then alg == 1 || alg == 2 else alg == 3
    let tag := Config.extTag l
    if !ok || kState k != ksValid || s.retired then (3, s)
    else if !family || alg != Config.extAlg l || kTagLen k != tag.length || !bit (kUse k) useVerify then (4, s)
    else if slice (Config.macTag alg (kKey k) (Config.extSpan l)) 0 tag.length ≠ tag then (5, s)
    else (0, s)

/-- The entry that a frame's lookup used has been written since (R140). -/
def State.staleEntry (s : State) (f : Frame) : Bool :=
  match f.entry with
  | some e => s.entryVer e != f.entryVer
  | none => false

/-- Fix the acceptance cycle of the I0 copy under the entry that the lookup used (R140, R286): a frame with an extension on an entry
with AUTH takes a place of the verification queue, or finds it full (R150); one without, where REQUIRE is set, is MISSING (R149). A
frame whose entry has changed keeps its acceptance cycle and is not verified (R140). Frames that have left the queue by now are forgotten. -/
def fixAccept (fid : Nat) (f : Frame) (s : State) : State :=
  let b := f.rule
  let l := s.unwrap f pI0
  if eAuth b = 0 ∨ eKind b = 0 ∨ ¬ hasExt l then
    let c := if eKind b ≠ 0 ∧ eRequire b ∧ ¬ hasExt l then 1 else 0
    s.setFrame fid { f with accept := some (f.e + 12), cause := c }
  else if s.staleEntry f then s.setFrame fid { f with accept := some (f.e + verifyDelay (eAuth b) + 4) }
  else
    let q := s.sub.verify.filter (fun p => decide (s.cyc < p.2))
    let d := verifyDelay (eAuth b)
    if 256 ≤ q.length ∨ s.dom 11 ≠ 1 ∨ 16 ≤ s.ic.deadEngines then s.setFrame fid { f with accept := some (f.e + d + 4), cause := 6 }
    else
      let (c, s) := verifyTag b l s
      let f := { f with accept := some (f.e + d + 4), cause := c }
      { (s.setFrame fid f) with sub := { s.sub with verify := q ++ [(fid, f.e + d)] } }

/-- LARDER_COMPLETE (R285): the last byte of the frame has been written; unused cells return (R107). The I0 copy, handed to
subscription in the cycle after, is examined for its size (R78) and its age (R124) and its acceptance is fixed. -/
def execLarderComplete (fid : Nat) (s : State) : Host.Outcome State Fault Refusal :=
  whileOn 7 s <|
  match s.frame fid with
  | none => .next s
  | some f =>
    if f.complete ∨ ¬ f.looked ∨ s.cyc < f.e then .next s
    else
      let n := min f.cells (cellsOf f.len)
      let f := { f with complete := true }
      let t := f.copies.foldl (fun t p => t.qSub p.1 p.2 (f.cells - n)) s
      let t := (t.wr HL_STATUS_FREE (t.freeCells + (f.cells - n))).setFrame fid { f with cells := n }
      if f.bad ≠ 0 then .next ((findBad fid { f with cells := n } t).retire fid)
      else
        let t := if f.unknown then t.observe f.octets f.vlan f.ingress f.stamp f.base else t
        let t :=
          if f.copies.any (fun p => p.1 == pI0) then
            if t.lmax pI0 < t.copyLen f pI0 then (t.endCopy fid pI0 f.cls).inc (HL_P_EGR_SIZE.i pI0)
            else if t.expired f f.cls (t.nextVal t.gov / uSt) then t.dropAged fid pI0 f.cls else fixAccept fid { f with cells := n } t
          else t
        .next (t.retire fid)

/-! ### Egress (R74, R113, R123, R131, R132) -/

/-- Add to the correctionField of a PTP message whose payload starts at octet `o`. -/
def addCorrection (l : List Byte) (o : Nat) (x : Int) : List Byte :=
  splice l (o + 8) (beBytes 8 (toBits 64 (beInt (slice l (o + 8) 8) + x)))

/-- PTP work on a copy as it passes (R62, R63): `out` is its egress stamp in TB_0. One-step insertion acts on the Sync and Pdelay_Resp
messages of every domain (DESIGN CHOICE, log entry 98: R60 says that one domain is handled in hardware, R62 speaks of each message),
and CORR and FOREIGN count each forwarded copy (DESIGN CHOICE, log entry 98: R63 speaks of Sync frames), FOREIGN only where TC_EN is set
and both ports are in HC_TC_PORTS (DESIGN CHOICE, log entry 98). The residence time runs from the stamp without ASYM, which is added
once (DESIGN CHOICE, log entry 98: R63 names ASYM beside an ingress stamp to which R57 applies it). -/
def ptpEgress (f : Frame) (p out : Nat) (l : List Byte) (s : State) : List Byte × State :=
  let h := header l
  let o := h.payload
  match ptpType l with
  | some 0 =>
    if f.ingress = 21 then
      if s.on HC_PTP_CFG_ONE_STEP_TX then
        (splice l (o + 34) (beBytes 6 (stampSec out) ++ beBytes 4 (stampNs out)), s)
      else (l, s)
    else if f.ingress < 19 ∧ s.on HC_PTP_CFG_TC_EN ∧ bit (s.rd HC_TC_PORTS_MASK) f.ingress ∧ bit (s.rd HC_TC_PORTS_MASK) p then
      if beAt l (o + 4) 1 = s.rd HC_PTP_CFG_DOMAIN then
        let x := (out : Int) - (f.stamp0 : Int) + (s.rd (HC_PC_LDLY.i f.ingress) : Int) + sext 32 (s.rd (HC_PC_ASYM.i f.ingress))
        (addCorrection l o x, s.incW HC_TC_CNT_CORR 1)
      else (l, s.inc HC_TC_CNT_FOREIGN)
    else (l, s)
  | some 3 =>
    if f.ingress = 21 ∧ s.on HC_PTP_CFG_ONE_STEP_TX then
      match (s.port p).pdelay with
      | some (q, t) =>
        if q = beAt l (o + 30) 2 then
          (addCorrection l o ((out : Int) - ((t : Int) - sext 32 (s.rd (HC_PC_ASYM.i p)))), s)
        else (l, s)
      | none => (l, s)
    else (l, s)
  | _ => (l, s)

/-- Return the egress stamp of a direct frame in its transmit descriptor (R99). -/
def returnStamp (f : Frame) (stamp base : Nat) (s : State) : State :=
  match f.tsDesc with
  | none => s
  | some d =>
    let s := s.store (d + 16) (stampBytes base stamp)
    s.storeN (d + 12) 4 (setBits (s.loadN (d + 12) 4) 27 27 1)

/-- The cycle at which the MAC can begin an express frame that has waited since cycle `since` behind a preemptable one, and the octets
that the fragment in progress has sent by its end: at least 60 with its mCRC, and at least 64 still to send, for a minimum fragment of
64 bytes (R81, R84; PRESUMED from IEEE 802.3, log entry 96). None where the frame can no longer be divided. -/
def Port.breakAt (o : Port) (rate since : Nat) : Option (Nat × Nat) :=
  let d := max since (o.fragAt + ceilDiv (68 * 8) rate)
  let q := (d - o.fragAt) * rate / 8 - 8
  if o.fragDone + q + 64 ≤ o.txLen then some (d + ceilDiv (16 * 8) rate, q) else none

/-- Whether an express frame that has waited since cycle `since` may begin on port `p` now, and the octets of the preemptable frame's
fragment then sent: none before a continuation that is only to begin. -/
def State.mayInterrupt (s : State) (p since : Nat) : Option Nat :=
  let o := s.port p
  if ¬ (s.on0 (PT_STATUS_PREEMPT_ACTIVE.p p) ∧ o.txPreemptable ∧ o.txFrame.isSome ∧ o.expBusy ≤ s.cyc) then none
  else if o.fragAt = s.cyc ∧ o.expBusy = s.cyc then some 0
  else
    match o.breakAt (s.rate p) (max since o.openFrom) with
    | some (b, q) => if b ≤ s.cyc then some q else none
    | none => none

/-- Occupancy of the MAC after an express frame of `dur` cycles that begins now has interrupted a fragment after `q` octets: the end of
the express frame and that of the rest of the preemptable one, with its preamble and gap. -/
def State.resumeAt (s : State) (p dur q : Nat) : Nat × Nat :=
  let o := s.port p
  (s.cyc + dur, s.cyc + dur + macCycles (o.txLen - (o.fragDone + q)) (s.rate p))

/-- One egress release of frame `fid` on port `p` (R74): the copy is built and sent, or dropped for its size (R131); a frame that is
oversize at its own port is sent and tail-marked (R77). `brk` is the octets sent of a fragment that it interrupts. Answers whether it
was sent. -/
def release (fid p c : Nat) (brk : Option Nat) (s : State) : Bool × State :=
  match s.frame fid with
  | none => (false, s.setQueue p c ((s.queue p c).filter (· != fid)))
  | some f =>
    let (seq, t) := if s.entersPair f p then takeSeq fid f p s else (0, s)
    let f := (t.frame fid).getD f
    let l := t.copyOctets f p seq
    if f.bad ≠ 1 ∧ t.lmax p < l.length + 4 then (false, (t.endCopy fid p c).inc (HL_P_EGR_SIZE.i p))
    else
      let add := fun (v : Nat) => ((v / uSt + dOut (t.rate p) * 65536 : Nat) : Int) + (t.rd (HC_PC_TX_LAT.i p) : Int)
      let out := (add t.now).toNat
      let out0 := (add (t.tb 0).val).toNat
      let ptp := (ptpType l).isSome
      let (l, t) := if f.ingress = pTwin then (twinStamp out0 l, t) else ptpEgress f p out0 l t
      let t := if ptp then returnStamp f out0 0 t else returnStamp f out t.gov t
      let o := t.port p
      let dur := macCycles (l.length + 4) (t.rate p)
      let tx : TxFrame := { fid := fid, octets := l ++ fcsOf l, cyc := t.cyc, stamp := if ptp then out0 else out, cls := c, tail := false }
      let o := { o with sent := (tx :: o.sent).take 8, grants := o.grants.filter (fun g => g.1 != fid) }
      let pre := t.on0 (PT_STATUS_PREEMPT_ACTIVE.p p) && !bit (t.rd (PT_PREEMPT_EXPRESS_MASK.p p)) c
      let t :=
        match brk with
        | some q =>
          let (eb, mb) := t.resumeAt p dur q
          let u := t.setPort p { o with
            expFrame := some fid, expBusy := eb, macBusy := mb, fragAt := eb, fragDone := o.fragDone + q, txCopy := (o.txCopy.1, c) }
          if q = 0 then u else u.inc (PT_C_FRAG_TX.p p)
        | none => t.setPort p { o with
          txFrame := some fid, macBusy := t.cyc + dur, expBusy := 0, txPreemptable := pre, txLen := l.length + 4, fragAt := t.cyc
          fragDone := 0, txCopy := (c, o.txCopy.2) }
      let t := if f.complete then t else t.setFrame fid { f with cut := f.cut ++ [p] }
      (true, countTx p (l.length + 4) t)

/-- The first cycle in which a stored copy may be released (R285). -/
def readyFrom (f : Frame) : Nat := if f.ingress < 19 then max (f.e + 1) (f.l + 96) else f.e + 1

/-- The octets of the fragment that an express copy of frame `f` would interrupt on port `p`, none where it need not or cannot. -/
def State.breakFor (s : State) (p since : Nat) (express : Bool) : Option (Option Nat) :=
  if express then (s.mayInterrupt p since).map some else some none

/-- Whether the head `i` of a queue of port `p` can be released now (R114, R123, R285), leaving room for a cut-through copy already
granted; in place of a preemptable frame in progress where `express`. Answers the octets of the fragment it interrupts. A Bugle frame
is held back where the rest of the frame that it interrupts would still occupy the MAC in the cycle of a grant (DESIGN CHOICE, log entry
95: R84 bounds its wait, R114 keeps the grant). -/
def State.ready (s : State) (p i : Nat) (express : Bool) : Option (Option Nat) :=
  match s.frame i with
  | none => none
  | some f =>
    let gs := s.grantsOf p
    match s.breakFor p (readyFrom f) express with
    | none => none
    | some b =>
      let dur := macCycles (s.copyLen f p) (s.rate p)
      let fin := match b with
        | some q => (s.resumeAt p dur q).2
        | none => s.cyc + dur
      if f.complete ∧ ¬ gs.any (fun g => g.1 == i) ∧ readyFrom f ≤ s.cyc ∧ gs.all (fun g => decide (g.2 ≤ s.cyc) || decide (fin ≤ g.2))
      then some b else none

/-- Classes in the order of service: the Bugle class first, then the others, each from 7 down (R83, R123). -/
def State.serviceOrder (s : State) (p : Nat) (onlyExpress : Bool) : List Nat :=
  let ex := fun c => bit (s.rd (PT_PREEMPT_EXPRESS_MASK.p p)) c
  let down := (List.range 8).reverse
  if onlyExpress then down.filter ex else down.filter ex ++ down.filter (fun c => !ex c)

/-- The copy that port `p` serves: frame, class and the octets of a fragment that it interrupts. A cut-through copy whose cycle has come
goes first, of a Bugle class where only express frames may go, then the first class whose head is ready. -/
def State.nextCopy (s : State) (p : Nat) (express : Bool) : Option (Nat × Nat × Option Nat) :=
  let order := s.serviceOrder p express
  let cls := fun (i : Nat) => ((s.frame i).map (fun f => f.cls)).getD 0
  let granted := (s.port p).grants.filterMap (fun (g : Nat × Nat) =>
    if g.2 ≤ s.cyc ∧ order.contains (cls g.1) then (s.breakFor p g.2 express).map (fun b => (g.1, cls g.1, b)) else none)
  match granted with
  | x :: _ => some x
  | [] => (order.filterMap (fun c => (s.head p c).bind (fun i => (s.ready p i express).map (fun b => (i, c, b))))).head?

/-- Examine the heads of the Bugle classes for which the MAC of port `n` can begin a frame in place of a preemptable one (R124). -/
def State.examineExpress (s : State) (n : Nat) : State :=
  (s.serviceOrder n true).foldl (fun (t : State) c =>
    match (t.head n c).bind t.frame with
    | some f => if (t.mayInterrupt n (readyFrom f)).isSome then examineQueue n c ((t.queue n c).length + 1) t else t
    | none => t) s

/-- Serve one frame. A copy dropped for its size makes room for the next head, which is examined in turn (R124, R125). -/
def serve (p : Nat) (express : Bool) : Nat → State → State
  | 0, s => s
  | k + 1, s =>
    match s.nextCopy p express with
    | none => s
    | some (i, c, b) =>
      let (ok, t) := release i p c b s
      if ok then t else serve p express k (if express then t.examineExpress p else t.examinePort p)

/-- EGRESS_RELEASE (R74, R123): only in a cycle in which the MAC can begin a frame, or in which an express frame may
interrupt a preemptable one (R84). -/
def execEgressRelease (p : Fin 19) (s : State) : Host.Outcome State Fault Refusal :=
  whileOn (portDomain p) s <|
  let n := p.val
  let s := s.finishTx n
  if s.link n ≠ 2 ∨ s.pausedNow n then .next s
  else if s.macFree n then .next (serve n false 64 (s.examinePort n))
  else .next (serve n true 64 (s.examineExpress n))

/-- Ports whose heads the scrub examines: those that are DOWN, DORMANT or paused (R124). -/
def State.scrubs (s : State) (n : Nat) : Bool := s.link n == 1 || s.link n == 3 || (s.link n == 2 && s.pausedNow n)

/-- LIFETIME_SCRUB (R124). -/
def execLifetimeScrub (s : State) : Host.Outcome State Fault Refusal :=
  whileOn 7 s <|
  if s.hall.lastScrub + s.rd HL_CTRL_SCRUB_US * uUs ≤ s.clk.lapse then
    let t := { s with hall := { s.hall with lastScrub := s.clk.lapse } }
    .next ((List.range 19).foldl (fun t n => if s.scrubs n then t.examinePort n else t) t)
  else .next s

/-! ### HL_ registers (R119, R129, R134, R135) -/

/-- HL_RED_k (R129). -/
def hlRedWriteOp (k v : Nat) (s : State) : State :=
  if s.on (PT_CTRL_EN.p (2 * k)) ∨ s.on (PT_CTRL_EN.p (2 * k + 1)) then s.raise ES_HL
  else s.wr (HL_RED_MODE.i k) (if bits v 31 30 = 3 then 0 else bits v 31 30)

/-- A write of the register at offset `o` of the HL_ page. -/
def hlWrite (o v : Nat) (s : State) : State :=
  let a := 0x300000 + o
  if o = 0 then (s.swPut a v).wr HL_CTRL_SCRUB_US (clampN 10 1000 (v % 1024))
  else if o = 0x10 then
    s.swPut a ((List.range 8).foldl (fun x c => setBits x (4 * c + 3) (4 * c) (min 9 (bits v (4 * c + 3) (4 * c)))) v)
  else if o = 0x40 then (s.swPut a v).wr HL_DUP_FORGET_MS (max 1 (v % 65536))
  else if 0x50 ≤ o ∧ o < 0x70 then hlRedWriteOp ((o - 0x50) / 4) v s
  else if 0x400 ≤ o ∧ o < 0x980 then
    let n := (o - 0x400) / 0x40
    if o % 0x40 = 0 then
      let t := s.swPut a v
      if bits v 31 30 = 3 then t.wr (HL_P_ACCEPT.i n) 0 else t
    else if o % 0x40 = 4 then
      let t := s.swPut a v
      t.wr (HL_P_GRACE_MS.i n) (if n = 20 then 0 else min 10 (bits v 19 16))
    else s.swPut a v
  else if 0x8000 ≤ o then
    let k := (o - 0x8000) / 8
    if k = 0 ∨ k = 4095 then s else s.swPut a v
  else s.swPut a v

end Sys2Proof.Machine
end

