-- ==== Sys2Proof/Machine/Subscribe.lean ====
section
/-!
DEFINITION. Subscription (05_subscription.md): the checks of R151 at a frame's acceptance, GOOSE members, time allowed to live,
and the SB_ registers.
-/
namespace Sys2Proof.Machine

/-! ### Subscription state of an entry (R153, R158) -/

/-- A field of SB_ST0–7 as entry `e` keeps it, at internal offsets in the layout of those registers. -/
def sbSt (f : Fld) (e : Nat) : Fld := { f with addr := f.addr - 0x4000A0 + 0x3000000 + e * 0x20 }

/-- Entry `e` of the table. -/
def State.sub? (s : State) (e : Nat) : Option SubEntry := aget s.sub.entries e
def State.setSub (s : State) (e : Nat) (x : SubEntry) : State :=
  { s with sub := { s.sub with entries := aput s.sub.entries e x } }

/-- The verdict of the checks: passed, or the counter of the one that failed. -/
inductive Check where
  | ok
  | fail (f : Fld)
deriving DecidableEq, Repr

/-! ### Sampled values (R143, R144) -/

/-- Quantities of seqData: INT32 value and 32-bit quality. -/
def quantities : Nat → List Byte → List (Int × Nat)
  | 0, _ => []
  | n + 1, l => (sext 32 (beAt l 0 4), beAt l 4 4) :: quantities n (l.drop 8)

/-- One ASDU has what R143 asks. -/
def asduOk (b : List Byte) (first : List Byte) (a : Asdu) : Bool :=
  match a.svId, a.smpCnt, a.confRev, a.smpSynch, a.seqData with
  | some i, some _, some _, some _, some d =>
    i.length == first.length && crc32c i == crc32c first && d.length == 8 * eNq b &&
      (a.smpRate.getD (rateOf (eRate b)) == rateOf (eRate b)) && (a.smpMod.getD 0 == 0)
  | _, _, _, _, _ => false

/-- The layout check of R143. -/
def svLayoutOk (b : List Byte) (p : SvPdu) : Bool :=
  let first := ((p.asdus.head?).bind (fun a => a.svId)).getD []
  p.noAsdu == eNoAsdu b && p.asdus.length == eNoAsdu b && p.asdus.all (asduOk b first)

/-- smpSynch values that R144 accepts. -/
def synchOk (b : List Byte) (v : Nat) : Bool :=
  v == 2 || (decide (5 ≤ v) && decide (v ≤ 254)) || (v == 1 && !eGlobal b)

/-- Checks 3 to 6 for an SV frame (R151). -/
def svChecks (b : List Byte) (p : Option SvPdu) : Check :=
  match p with
  | none => .fail SB_ST5_LAYOUT
  | some p =>
    if !svLayoutOk b p then .fail SB_ST5_LAYOUT
    else if !p.asdus.all (fun a => synchOk b (a.smpSynch.getD 0)) then .fail SB_ST5_UNSYNC
    else if !p.asdus.all (fun a => a.confRev.getD 0 == eConfRev b) then .fail SB_ST6_CONFREV_ERR
    else if !p.asdus.all (fun a => decide (a.smpCnt.getD 0 < rateOf (eRate b))) then .fail SB_ST6_SMPCNT_ERR
    else .ok

/-- Difference of sample counts, reduced to −rate/2 up to below rate/2 (R154). -/
def smpDiff (rate a b : Nat) : Int :=
  let d := ((a : Int) - (b : Int)) % (rate : Int)
  if 2 * d < (rate : Int) then d else d - (rate : Int)

/-! ### GOOSE members (R145, R245) -/

/-- Bits of a BIT STRING, first bit sent first. -/
def bitString (l : List Byte) : List Bool :=
  match l with
  | [] => []
  | u :: t =>
    let all := t.flatMap (fun x => (List.range 8).map (fun i => x.getLsbD (7 - i)))
    all.take (all.length - u.toNat)

/-- A number whose bit i is the i-th bit of a string. -/
def bitsNat (l : List Bool) : Nat := l.reverse.foldl (fun a b => 2 * a + b2n b) 0

/-- A quality string of 13 bits in the order of R174: the two validity bits are a code sent with its upper bit first. -/
def qualWord (l : List Bool) : Nat :=
  let n := bitsNat l
  n / 4 * 4 + n % 2 * 2 + n / 2 % 2

/-- VALUE of a leaf of an expected type (R145, R245), or none where it does not have it. -/
def memberValue (ty : Nat) (x : Leaf) : Option (List Byte) :=
  let bs := bitString x.val
  let n := x.val.length
  match ty with
  | 1 => if x.tag = 0x83 ∧ n = 1 then some (leBytes 8 (b2n (beNat x.val != 0))) else none
  | 2 => if x.tag = 0x84 ∧ bs.length = 2 then
      some (leBytes 8 (b2n (bs.getD 0 false) * 2 + b2n (bs.getD 1 false))) else none
  | 3 => if x.tag = 0x85 ∧ 1 ≤ n ∧ n ≤ 4 then some (leBytes 8 (toBits 32 (beInt x.val))) else none
  | 4 => if x.tag = 0x86 ∧ 1 ≤ n ∧ beNat x.val < 2 ^ 32 then some (leBytes 8 (beNat x.val)) else none
  | 5 => if x.tag = 0x87 ∧ n = 5 ∧ beAt x.val 0 1 = 8 then some (leBytes 8 (beAt x.val 1 4)) else none
  | 6 => if x.tag = 0x84 ∧ bs.length = 13 then some (leBytes 8 (qualWord bs)) else none
  | 7 => if x.tag = 0x91 ∧ n = 8 then some x.val else none
  | 8 => if x.tag = 0x84 ∧ bs.length ≤ 32 then some (leBytes 8 (bitsNat bs)) else none
  | _ => none

/-- Member-map entry `i`. -/
def State.mapEntry (s : State) (i : Nat) : List Byte := agetD s.sub.map (i % 32768) (List.replicate 8 0)

/-- Member-map entries of a subscription. -/
def State.mapOf (s : State) (b : List Byte) : List (List Byte) :=
  (List.range (eMapN b)).map (fun i => s.mapEntry (eMapBase b + i))

/-- Slot, value and quality of one mapped member, or none where its leaf lacks the type. -/
def leafMember (leaves : List Leaf) (m : List Byte) : Option (Nat × List Byte × Nat) :=
  let q := leAt m 1 1
  let qual : Option Nat :=
    if q = 0xFF then some 0
    else (leaves[q]?).bind (fun x => (memberValue 6 x).map (fun v => leAt v 0 2))
  match (leaves[leAt m 0 1]?).bind (memberValue (leAt m 2 1)), qual with
  | some v, some w => some (leAt m 4 2 % 32768, v, w)
  | _, _ => none

/-- All mapped members of a frame, or none (R146). -/
def State.members (s : State) (b : List Byte) (g : GoosePdu) : Option (List (Nat × List Byte × Nat)) :=
  g.leaves.bind (fun l => (s.mapOf b).mapM (leafMember l))

/-- Whether the stNum and sqNum rules reject a frame, once one has been accepted since the WRITE (R146, rules 1 and 2, which come before
rule 3). A sqNum of 0 has wrapped where the last one was not 0 (DEDUCED, log entry 99). -/
def stOld (accepted : Bool) (st sq lastSt lastSq : Nat) : Bool :=
  accepted && ((decide (st < lastSt) && st != 1) || (st == lastSt && decide (sq ≤ lastSq) && !(sq == 0 && lastSq != 0)))

/-! ### Acceptance (R151–R155, R286) -/

/-- A discovery record of an entry, by its code. -/
abbrev DiscEv := Nat × Nat

/-- Queue the records of one frame in ascending order of code (R155). -/
def pushAll (kind e : Nat) (f : Frame) (l : List DiscEv) (s : State) : State :=
  (List.range 9).foldl (fun (t : State) c =>
    match l.filter (fun (x : DiscEv) => x.1 == c) with
    | [] => t
    | xs => xs.foldl (fun (u : State) x => u.discover c kind f.ingress e x.2 f.stamp f.base) t) s

/-- A frame that fails check 1: counted, its cause kept, and the first failure recorded (R149, R155). -/
def authFail (e : Nat) (x : SubEntry) (f : Frame) (s : State) : State :=
  let s := if f.cause = 1 then s.inc (sbSt SB_ST4_AUTH_MISSING e) else s.inc (sbSt SB_ST3_AUTH_FAIL e)
  let s := s.wr (sbSt SB_ST0_LAST_CAUSE e) f.cause
  let s := if f.cause = 6 then (s.inc SB_G_VERIFY_BUSY).event SB_EVENT_VERIFY_BUSY ES_SB else s
  if x.authFailed then s
  else (s.setSub e { x with authFailed := true }).discover 7 (eKind x.bytes) f.ingress e f.cause f.stamp f.base

/-- Insert samples in the order of service of the network write port: by cycle, ingress port, then frame order (R287). -/
def insSample (x : Sample) : List Sample → List Sample
  | [] => [x]
  | y :: t => if y.cyc < x.cyc ∨ (y.cyc = x.cyc ∧ y.port ≤ x.port) then y :: insSample x t else x :: y :: t

/-- An accepted SV frame hands its ASDUs to alignment (R144). -/
def deliverSv (b : List Byte) (f : Frame) (p : SvPdu) (s : State) : State :=
  let a := f.accept.getD s.cyc
  if !s.on AL_CTRL_EN then s
  else
    p.asdus.foldl (fun (t : State) d =>
      let x : Sample := {
        cyc := a, port := f.ingress, stream := eTarget b % 1024, vals := quantities (eNq b) (d.seqData.getD [])
        smpCnt := d.smpCnt.getD 0, synch := d.smpSynch.getD 0, stamp := f.stamp, sim := simBit f.octets, loc := false
        sec := 0 }
      { t with al := { t.al with netQ := insSample x t.al.netQ } }) s

/-- RESTART with cause 2 where the confRev that a frame carries differs from the last one seen, and that value (R154). -/
def watchRev (e : Nat) (r : Option Nat) (s : State) : List DiscEv × State :=
  match r, s.sub? e with
  | some r, some x =>
    (if x.seenRev ∧ r ≠ s.rd (sbSt SB_ST1_LAST_REV e) then [(3, 2 * 2 ^ 24 + r % 2 ^ 24)] else [],
     (s.wr (sbSt SB_ST1_LAST_REV e) r).setSub e { x with seenRev := true })
  | _, _ => ([], s)

/-- SYNC_CHANGE where the smpSynch that a frame carries differs from the last one seen, and that value (R154). -/
def watchSync (e : Nat) (y : Option Nat) (s : State) : List DiscEv × State :=
  match y, s.sub? e with
  | some y, some x =>
    let y0 := s.rd (sbSt SB_ST0_LAST_SYNC e)
    (if x.seenSync ∧ y ≠ y0 then [(4, y0 % 256 * 256 + y % 256)] else [],
     (s.wr (sbSt SB_ST0_LAST_SYNC e) y).setSub e { x with seenSync := true })
  | _, _ => ([], s)

/-- RESTART with cause 1 where the sequence of samples of a PRESENT entry has gone back (R154). -/
def watchCount (e : Nat) (b : List Byte) (n : Option Nat) (s : State) : List DiscEv :=
  match n, s.sub? e with
  | some n, some x =>
    if s.rd (sbSt SB_ST0_STATE e) = 1 ∧ smpDiff (rateOf (eRate b)) n x.nextSmp < -16 then [(3, 2 ^ 24 + n)] else []
  | _, _ => []

/-- What the engine sees of its source in a frame that has passed check 1, by the frame's first ASDU, whether or not a later check
rejects it (R154). -/
def watchSource (e : Nat) (b : List Byte) (p : Option SvPdu) (s : State) : List DiscEv × State :=
  let a := p.bind (fun p => p.asdus.head?)
  let l1 := watchCount e b (a.bind (fun a => a.smpCnt)) s
  let (l2, s) := watchRev e (a.bind (fun a => a.confRev)) s
  let (l3, s) := watchSync e (a.bind (fun a => a.smpSynch)) s
  (l1 ++ l2 ++ l3, s)

/-- Check 2 (R152): a frame that the simulation state refuses. -/
def simRefuses (s : State) (e : Nat) (sim : Bool) : Bool :=
  (sim && !s.on SB_CTRL_SIM) || (!sim && s.on (sbSt SB_ST0_SIM_SRC e))

/-- Effects common to every accepted frame: RX_OK, simulation source, state, and the records ARRIVE and SIM_SWITCH. -/
def acceptCommon (e data : Nat) (f : Frame) (s : State) : List DiscEv × State :=
  let sim := simBit f.octets && !s.on (sbSt SB_ST0_SIM_SRC e)
  let arrive := s.rd (sbSt SB_ST0_STATE e) != 1
  let s := (s.inc (sbSt SB_ST3_RX_OK e)).wr (sbSt SB_ST0_STATE e) 1
  let s := if sim then s.wr (sbSt SB_ST0_SIM_SRC e) 1 else s
  let s := match s.sub? e with
    | some x => s.setSub e { x with authFailed := false, missing := if arrive then 0 else x.missing }
    | none => s
  let l : List DiscEv := if arrive then [(1, data)] else []
  (l ++ (if sim then [(6, 0)] else []), s)

/-- An SV frame that passed check 1. -/
def acceptSv (e : Nat) (f : Frame) (s : State) : State :=
  let b := f.rule
  let p := svPdu f.octets
  let (l1, s) := watchSource e b p s
  let fin := fun (l : List DiscEv) (t : State) => pushAll 1 e f l t
  if simRefuses s e (simBit f.octets) then fin l1 (s.inc (sbSt SB_ST4_SIM_DROP e))
  else
    match svChecks b p, p with
    | .fail c, _ => fin l1 (s.inc (sbSt c e))
    | .ok, none => s
    | .ok, some p =>
      let first := ((p.asdus.head?).bind (fun a => a.smpCnt)).getD 0
      let last := ((p.asdus.getLast?).bind (fun a => a.smpCnt)).getD 0
      let (l2, s) := acceptCommon e first f s
      let s := s.wr (sbSt SB_ST0_LAST_SMPCNT e) last
      let s := match s.sub? e with
        | some y => s.setSub e { y with nextSmp := (last + 1) % rateOf (eRate b) }
        | none => s
      fin (l1 ++ l2) (deliverSv b f p s)

/-- A GOOSE frame that passed check 1. -/
def acceptGoose (fid e : Nat) (f : Frame) (s : State) : State :=
  let b := f.rule
  if simRefuses s e (simBit f.octets) then s.inc (sbSt SB_ST4_SIM_DROP e)
  else
    match goosePdu f.octets with
    | none => s.inc (sbSt SB_ST7_TYPE_ERR e)
    | some g =>
      match s.members b g with
      | none => s.inc (sbSt SB_ST7_TYPE_ERR e)
      | some ms =>
        let present := s.rd (sbSt SB_ST0_STATE e) == 1
        if g.confRev ≠ eConfRev b then s.inc (sbSt SB_ST6_CONFREV_ERR e)
        else if stOld (s.rd (sbSt SB_ST0_STATE e) != 0) g.stNum g.sqNum (s.rd (sbSt SB_ST1_LAST_REV e)) (s.rd (sbSt SB_ST2_LAST_SQ e)) then
          s.inc (sbSt SB_ST7_STNUM_OLD e)
        else
          let new := !present || g.stNum != s.rd (sbSt SB_ST1_LAST_REV e)
          let (l, s) := acceptCommon e g.stNum f s
          let s := (s.wr (sbSt SB_ST1_LAST_REV e) g.stNum).wr (sbSt SB_ST2_LAST_SQ e) g.sqNum
          let s := match s.sub? e with
            | some y => s.setSub e { y with live := some (f.stamp + g.tal * 1000000 * 65536) }
            | none => s
          let ms := ms.map (fun (p : Nat × List Byte × Nat) =>
            (p.1, p.2.1, if g.sim then setBits p.2.2 11 11 1 else p.2.2))
          let s := if new then gooseMarks fid (f.accept.getD s.cyc + 6) e g.stNum false ms s else s
          pushAll 2 e f l s

/-- The I0 copy of a frame leaves the Hall for subscription (R101, R103, R131). -/
def i0Handed (fid : Nat) (f : Frame) (s : State) : State :=
  countTx pI0 ((s.unwrap f pI0).length + 4) (s.endCopy fid pI0 f.cls)

/-- FRAME_ACCEPTANCE (R140, R151, R286): at the frame's acceptance cycle the I0 copy ends, and the checks decide under the entry that
its lookup used. While subscription is disabled no entry's state, counters or records change (R136). -/
def execFrameAcceptance (fid : Nat) (s : State) : Host.Outcome State Fault Refusal :=
  whileOn 6 s <|
  match s.frame fid with
  | none => .next s
  | some f =>
    match f.accept, f.entry with
    | some a, some e =>
      if s.cyc < a ∨ !f.copies.any (fun p => p.1 == pI0) then .next s
      else
        let s := i0Handed fid f s
        let f := { f with octets := s.unwrap f pI0 }
        if s.staleEntry f then .next (s.inc SB_G_STALE_ENTRY)
        else if !s.on SB_CTRL_EN then .next s
        else
          match s.sub? e with
          | none => .next s
          | some x =>
            let k := eKind f.rule
            if k = 0 then .next s
            else if f.cause ≠ 0 then .next (authFail e x f s)
            else if k = 1 then .next (acceptSv e f s)
            else .next (acceptGoose fid e f s)
    | _, _ => .next s

/-! ### Time allowed to live (R147) -/

/-- A frame awaits subscription under entry `e`: its lookup has named the entry and its I0 copy is admitted or about to be, or its
lookup is still to come and names it as the table stands. -/
def State.awaits (s : State) (e fid : Nat) (f : Frame) : Bool :=
  if f.looked then
    f.entry == some e &&
      (f.copies.any (fun c => c.1 == pI0) || s.hall.admits.any (fun a => a.fid == fid && a.ports.contains pI0))
  else f.bad == 0 && ((s.lookup f.octets (s.vlanOf f.ingress (header f.octets))).map (fun p => p.1)) == some e

/-- A frame of entry `e` stamped by the live limit still awaits its acceptance; it counts as arriving in time (R147). -/
def State.inTimeFrame (s : State) (e live : Nat) : Bool :=
  s.hall.frames.any (fun (p : Nat × Frame) => s.awaits e p.1 p.2 && decide (p.2.stamp ≤ live))

/-- GOOSE_TAL_EXPIRY (R147): DEPARTED, each mapped slot marked with its last value and validity invalid, and a record; not while
subscription is disabled (R136). -/
def execGooseTalExpiry (e : Fin 16384) (s : State) : Host.Outcome State Fault Refusal :=
  whileOn 6 s <|
  match s.sub? e with
  | none => .next s
  | some x =>
    match x.live with
    | none => .next s
    | some t =>
      if s.now ≤ t * uSt ∨ s.inTimeFrame e t ∨ s.rd (sbSt SB_ST0_STATE e) ≠ 1 ∨ !s.on SB_CTRL_EN then .next s
      else
        let b := s.entryNow x
        let ms := (s.mapOf b).map (fun m =>
          let i := leAt m 4 2 % 32768
          let o := (s.slot i).latest
          (i, slice o 0 8, setBits (sQual o) 1 0 1))
        let s := (s.setSub e { x with live := none }).wr (sbSt SB_ST0_STATE e) 2
        let s := gooseMarks (2 ^ 40 + e.val) (s.cyc + 6) e (s.rd (sbSt SB_ST1_LAST_REV e)) true ms s
        .next (s.discover 5 2 0x1F e (s.rd (sbSt SB_ST1_LAST_REV e)) t s.gov)

/-! ### SB_ registers (R158) -/

/-- Load a run of 32-bit data registers with bytes. -/
def loadData (base n : Nat) (b : List Byte) (s : State) : State :=
  (List.range n).foldl (fun (t : State) i => t.put (base + 4 * i) (leAt b (4 * i) 4)) s

/-- Bytes held by a run of data registers. -/
def State.dataBytes (s : State) (base n : Nat) : List Byte :=
  (List.range n).flatMap (fun i => leBytes 4 (s.word (base + 4 * i)))

/-- Clear an entry's state and counters (R140). -/
def State.clearSt (s : State) (e : Nat) : State := (List.range 8).foldl (fun (t : State) i => t.put (0x3000000 + e * 0x20 + 4 * i) 0) s

/-- Install contents in a classification entry (R140); the version steps once in a cycle. -/
def sbInstall (e : Nat) (b : List Byte) (s : State) : State :=
  let old := s.sub? e
  let now : List Byte := match old with
    | some x => s.entryNow x
    | none => []
  let again : Bool := match old with
    | some x => x.wrote == some s.cyc
    | none => false
  let v := agetD s.sub.vers e 0
  let vers := if again then s.sub.vers else aput s.sub.vers e (v + 1)
  let s := s.setSub e { bytes := b, prev := now, wrote := some s.cyc }
  ({ s with sub := { s.sub with vers := vers } }).clearSt e

/-- A write of SB_TBL_CMD (R140, R141). An image that loads such a RATE has failed its checks before (R438). -/
def sbTblCmd (r : Requester) (cmd : Nat) (s : State) : State :=
  let e := s.rd SB_TBL_IDX_IDX % 16384
  match cmd with
  | 1 => loadData 0x400040 16 (((s.sub? e).map (fun x => x.bytes)).getD []) s
  | 2 =>
    let b := entryStored (s.dataBytes 0x400040 16)
    if !s.mayWrite r then s.raise ES_SB
    else if 5 ≤ eRate b ∧ r ≠ .loader then s.raise ES_SB
    else
      let s := sbInstall e b s
      s.setVest (s.sub.vest.filter (fun (p : Nat × List Byte × Nat) => !entryCovers b p.2.1))
  | 3 => if s.mayWrite r then sbInstall e (List.replicate 64 0) s else s.raise ES_SB
  | _ => s

/-- A write of SB_MAP_CMD. -/
def sbMapCmd (r : Requester) (cmd : Nat) (s : State) : State :=
  let i := s.rd SB_MAP_IDX_IDX
  match cmd with
  | 1 => loadData 0x400028 2 (s.mapEntry i) s
  | 2 => if s.mayWrite r then { s with sub := { s.sub with map := aput s.sub.map i (mapStored (s.dataBytes 0x400028 2)) } }
    else s.raise ES_SB
  | _ => s

/-- A write of SB_VEST_CMD. -/
def sbVestCmd (cmd : Nat) (s : State) : State :=
  let i := s.rd SB_VEST_IDX_IDX % 256
  match cmd with
  | 1 => loadData 0x400180 16 (((aget s.sub.vest i).map (fun p => p.1)).getD []) s
  | 2 => s.setVest (adel s.sub.vest i)
  | _ => s

/-- A write of SB_ST_IDX: the entry's state is latched and its counters cleared; an event of this cycle stays with the entry
(R11, R158). -/
def sbStIdx (v : Nat) (s : State) : State :=
  let s := s.swPut 0x400080 v
  let e := v % 16384
  let a := 0x3000000 + e * 0x20
  let miss := ((s.sub? e).map (fun x => x.missing)).getD 0
  let sv := ((s.sub? e).map (fun x => eKind x.bytes == 1)).getD false
  let s := (List.range 8).foldl (fun (t : State) i =>
    let w := if 3 ≤ i then t.word0 (a + 4 * i) else t.word (a + 4 * i)
    t.put (0x4000A0 + 4 * i) (if i = 2 ∧ sv then miss % 256 else w)) s
  (List.range 5).foldl (fun (t : State) i => t.put (a + 12 + 4 * i) (t.evWord (a + 12 + 4 * i))) s

/-- A read of SB_DISC_W3 removes the record that it shows, once in a cycle: the one that waited at the start of the cycle (R11, R158). -/
def discPop (s : State) : State :=
  if s.rd0 SB_STATUS_DISC_LEVEL = 0 ∨ s.sub.popped = some s.cyc then s
  else ({ s with sub := { s.sub with disc := s.sub.disc.drop 1, popped := some s.cyc } }).discShow

/-- W0 of a posted record: its reserved bits read 0 (R8), and its PORT shows 0x1F (R155). -/
def postW0 (w : Nat) : Nat := setBits w 21 14 0xF8

/-- A write of SB_CTRL: clearing SIM clears every SIM_SRC (R152). -/
def sbCtrlWrite (v : Nat) (s : State) : State :=
  let was := s.on SB_CTRL_SIM
  let s := s.swPut 0x400000 v
  if was ∧ !s.on SB_CTRL_SIM then
    s.sub.entries.foldl (fun (t : State) (p : Nat × SubEntry) => t.wr (sbSt SB_ST0_SIM_SRC p.1) 0) s
  else s

/-- Writes of the SB_ page. -/
def sbWrite (r : Requester) (o v : Nat) (s : State) : State :=
  if (o = 0x14 ∨ o = 0x24) ∧ !s.mayWrite r then s.raise ES_SB
  else if o = 0x00 then sbCtrlWrite v s
  else if o = 0x14 then sbTblCmd r (v % 4) s
  else if o = 0x24 then sbMapCmd r (v % 4) s
  else if o = 0x144 then sbVestCmd (v % 4) s
  else if o = 0x80 then sbStIdx v s
  else if 0x110 ≤ o ∧ o < 0x11C then s.put (0x400000 + o) v
  else if o = 0x11C then
    let s := s.put 0x40011C v
    s.discPush {
      w0 := postW0 (s.word 0x400110), w1 := s.word 0x400114, w2 := s.word 0x400118, w3 := v }
  else s.swPut (0x400000 + o) v

/-- Reads of the SB_ page that are more than the register's value. -/
def sbRead (o : Nat) (s : State) : Option (Nat × State) :=
  if o = 0x10C then some (s.shown 0x40010C, discPop s) else none

end Sys2Proof.Machine
end

