-- ==== Sys2Proof/Machine/Align.lean ====
section
/-!
DEFINITION. Alignment and the Pantry (06_alignment.md): placing samples, Pantry writes, closure passes, concealment, the
resampler, inboxes and set marks.
-/
namespace Sys2Proof.Machine

/-! ### Stream descriptors (R165, R166) -/

def dValid (b : List Byte) : Bool := bit (leAt b 0 1) 7
def dLocal (b : List Byte) : Bool := bit (leAt b 0 1) 6
def dBank (b : List Byte) : Nat := bits (leAt b 0 1) 5 4
def dGroup (b : List Byte) : Nat := leAt b 1 1 % 64
def dRate (b : List Byte) : Nat := leAt b 2 1 % 8
def dSlot (b : List Byte) : Nat := leAt b 3 1
def dCmask (b : List Byte) : Nat := leAt b 4 4
def dIidx (b : List Byte) : Nat := leAt b 8 1
def dScale (b : List Byte) (i : Nat) : Nat := leAt b (16 + 4 * i) 4

/-- The contents that a WRITE of `b` gives a stream descriptor: its reserved bits read 0 (R8, R165). -/
def dStored (b : List Byte) : List Byte :=
  leBytes 1 (leAt b 0 1 / 16 * 16) ++ leBytes 1 (dGroup b) ++ leBytes 1 (dRate b) ++ slice b 3 6 ++ leBytes 7 0 ++ slice b 16 32 ++
    leBytes 16 0

/-- Descriptor of stream `k`. -/
def State.stream (s : State) (k : Nat) : List Byte := ((aget s.al.str k).map (fun x => x.bytes)).getD (List.replicate 64 0)

/-- A counter of stream `k`, at internal offsets in the layout of AL_CNT0–2. -/
def alCnt (f : Fld) (k : Nat) : Fld := { f with addr := f.addr - 0x500024 + 0x3100000 + k * 0x10 }

/-- An alignment event (R186). -/
def State.alEvent (s : State) (f : Fld) : State := s.event f ES_AL

/-! ### Tick-records (R160–R163) -/

def recPresent : Nat := 1
def recConcealed : Nat := 2
def recAbsent : Nat := 3

/-- Address of the record of stream `k` for grid tick `g`. -/
def recAddr (k g : Nat) : Nat := addrPantry + k * 0x4000 + g % 256 * 0x40

/-- The record of stream `k` for grid tick `g`, where the Pantry still holds it. -/
def State.record? (s : State) (k g : Nat) : Option (List Byte) :=
  let b := s.load (recAddr k g) 64
  if leAt b 48 4 = g / 4800 % 2 ^ 32 ∧ leAt b 52 2 % 8192 = g % 4800 ∧ leAt b 54 1 % 16 ≠ 0 then some b else none

def rState (b : List Byte) : Nat := leAt b 54 1 % 16
def rClosed (b : List Byte) : Bool := bit (leAt b 55 1) 7
def rSim (b : List Byte) : Bool := bit (leAt b 55 1) 4
def rMiss (b : List Byte) : Nat := leAt b 58 1
def rQual (b : List Byte) (i : Nat) : Nat := leAt b (32 + 2 * i) 2

/-- A record from its parts (R161); flags are byte 55. -/
def mkRecord (vals quals : List Nat) (g state flags smp miss synch transit : Nat) : List Byte :=
  ((List.range 8).flatMap (fun i => leBytes 4 (vals.getD i 0))) ++
    ((List.range 8).flatMap (fun i => leBytes 2 (quals.getD i 1))) ++ leBytes 4 (g / 4800) ++ leBytes 2 (g % 4800) ++
    leBytes 1 state ++ leBytes 1 flags ++ leBytes 2 smp ++ leBytes 1 miss ++ leBytes 1 synch ++ leBytes 4 transit

/-- TRANSIT of a record without a sample (R161). -/
def noTransit : Nat := 0x7FFFFFFF

/-- LATE_SEEN and the LATE bit of every quality word (R169). -/
def withLate (b : List Byte) : List Byte :=
  let b := splice b 55 (leBytes 1 (leAt b 55 1 ||| 0x40))
  (List.range 8).foldl (fun x i => splice x (32 + 2 * i) (leBytes 2 (rQual x i ||| 0x8000))) b

/-- A record with flag bits of byte 55 set. -/
def withFlags (b : List Byte) (m : Nat) : List Byte := splice b 55 (leBytes 1 (leAt b 55 1 ||| m))

/-! ### Placing a sample (R164) -/

/-- Stamp units in one second. -/
def stS : Nat := 65536 * 1000000000

/-- The second of a network sample: the last for which s + k/r is at or before the stamp plus one tick (R164). -/
def sampleSec (rate smp stamp : Nat) : Nat :=
  (((stamp * 4800 * rate + stS * rate : Nat) : Int) - ((smp * 4800 * stS : Nat) : Int)).toNat / (stS * 4800 * rate)

/-- Second and absolute number of a sample. -/
def Sample.abs (x : Sample) (rate : Nat) : Nat :=
  (if x.loc then x.sec else sampleSec rate x.smpCnt x.stamp) * rate + x.smpCnt

/-- The sample instant lies after the ingress stamp (R164); never for a local stream (R180). -/
def Sample.early (x : Sample) (rate : Nat) : Bool := !x.loc && decide (x.stamp * rate < x.abs rate * stS)

/-- TRANSIT: nanoseconds from the instant to the stamp, rounded to nearest with halves upward (R161). -/
def Sample.transit (x : Sample) (rate : Nat) : Nat :=
  let num : Int := ((x.stamp * rate : Nat) : Int) - ((x.abs rate * stS : Nat) : Int)
  let den := rate * 65536
  let t := (2 * num + den) / ((2 * den : Nat) : Int)
  if t < -(2 ^ 31) ∨ 2 ^ 31 ≤ t then noTransit else toBits 32 t

/-- Quality bits [12:0] of a received quality (R175): validity 0b10 is written as 0b01. -/
def netQual (q : Nat) : Nat := if q % 4 = 2 then q % 8192 - 1 else q % 8192

/-- Scaled values and quality words (R175, R176). -/
def scaled (b : List Byte) (x : Sample) : List (Nat × Nat) :=
  (x.vals.zipIdx).map (fun (p : (Int × Nat) × Nat) =>
    let v := scaleI32 p.1.1 (dScale b p.2)
    let q := if x.loc then p.1.2 % 8192 else netQual p.1.2
    (v, if f32.isInf v then q ||| 4 else q))

/-! ### Sets and closure (R168, R169) -/

/-- Closure instant of group `grp` for grid tick `g`: that of the open set, or what the group's settings give. -/
def State.closeInstant (s : State) (grp g : Nat) : Nat :=
  match s.al.sets.find? (fun o => o.tick == g && o.group == grp) with
  | some o => o.close
  | none => tickRep g + s.rd (AL_GROUP_W_US.i grp) * uUs + s.closeExtra g

/-- A pass has closed group `grp` for tick `g`, or for a later one, and no set of it is open (R169, R171). -/
def State.closedSet (s : State) (grp g : Nat) : Bool :=
  decide (g < agetD s.al.closed grp 0) && !s.al.sets.any (fun o => o.tick == g && o.group == grp)

/-- Instant at which the set of group `grp` and tick `g` closes: that of the open set, which a claim does not move (R474). -/
def State.closeOf (s : State) (grp g : Nat) : Nat :=
  ((s.al.sets.find? (fun (o : OpenSet) => o.tick == g && o.group == grp)).map (fun o => o.close)).getD (s.closeInstant grp g)

/-- A write for tick `g` of group `grp` that begins now is not in time: less than 32 cycles remain to the closure cycle, or the set has
closed (R169). -/
def State.tooLate (s : State) (grp g : Nat) : Bool :=
  s.closedSet grp g || decide (s.cycleAt (s.closeOf grp g) < s.cyc + 32)

/-- Tick-start of `g`: descriptors written before take effect, and every enabled group opens a set; ticks that a forward step
skips have sets too (R166, R168, R184, R185). A tick's sets open once: a tick that a step back repeats has had them (R162, R171); one
that was skipped and is raised after all no longer counts as skipped (DEDUCED, log entry 100). -/
def openSets (g : Nat) (skip : Bool) (s : State) : State :=
  if s.on AL_CTRL_EN ∧ s.al.openFrom ≤ s.clk.raised ∧ s.al.opened ≤ g then
    let gs := (List.range 64).filter (fun i => s.on (AL_GROUP_EN.i i))
    let new := gs.map (fun i => ({
      tick := g, group := i, close := tickRep g + s.rd (AL_GROUP_W_US.i i) * uUs + s.closeExtra g
      conc := if s.on (AL_GROUP_FNOM.i i) then 80 else 96, skip := skip } : OpenSet))
    { s with al := { s.al with sets := s.al.sets ++ new, opened := g + 1 } }
  else if skip then s
  else { s with al := { s.al with sets := s.al.sets.map (fun o => if o.tick = g then { o with skip := false } else o) } }

/-- The ticks that a forward step skips have sets (R184). -/
def openSkipped (span : Nat × Nat) (s : State) : State :=
  if s.runs 6 then (List.range (span.2 - span.1)).foldl (fun (u : State) i => openSets (span.1 + i) true u) s else s

/-- Descriptors that a WRITE or INVALIDATE set for the next tick start take effect (R166). -/
def applyStreams (s : State) : State :=
  { s with al := { s.al with str := s.al.str.map (fun (p : Nat × Stream) =>
      match p.2.next with
      | some b => (p.1, { bytes := b, next := none })
      | none => p) } }

/-! ### Inboxes (R181) -/

/-- Depth of a cluster's inbox in ticks. -/
def State.inboxDepth (s : State) (c : Nat) : Nat :=
  match s.rd (AL_INBOX_DEPTH.i c) with
  | 0 => 4
  | 1 => 8
  | _ => 16

/-- Address of the inbox copy of a stream for grid tick `g` in cluster `c`. -/
def State.inboxAddr (s : State) (b : List Byte) (c g : Nat) : Nat :=
  let d := s.inboxDepth c
  addrCluster c + s.rd (AL_INBOX_OFS.i c) * 64 + (dIidx b * d + g % d) * 64

/-- Write an inbox copy in every cluster of CMASK. -/
def inboxWrite (b : List Byte) (g : Nat) (r : List Byte) (s : State) : State :=
  (maskList 32 (dCmask b)).foldl (fun (t : State) c => t.mapStore (t.inboxAddr b c g) r) s

/-- A Pantry write of record `r` of stream `k` begins (R167): bytes 0–47 of the record and of its inbox copies are written; bytes
48–63 follow in the write's last cycle. -/
def pantryWrite (k g : Nat) (b r : List Byte) (s : State) : State :=
  let as := recAddr k g :: (maskList 32 (dCmask b)).map (fun c => s.inboxAddr b c g)
  let t := as.foldl (fun (t : State) a => t.mapStore a (r.take 48)) s
  { t with al := { t.al with
    tails := t.al.tails ++ as.map (fun a => (s.cyc + 31, a + 48, r.drop 48))
    wroteTo := (t.al.wroteTo.filter (fun p => !(p.1 == k && p.2.1 == g))) ++ [(k, g, dCmask b)] } }

/-- The CMASK under which the record of stream `k` for tick `g` was written: a later WRITE of the descriptor does not concern it
(R166). -/
def State.maskOf (s : State) (k g : Nat) (b : List Byte) : Nat :=
  ((s.al.wroteTo.find? (fun p => p.1 == k && p.2.1 == g)).map (fun p => p.2.2)).getD (dCmask b)

/-- A write of the record of stream `k` for tick `g` is under way. -/
def State.writing (s : State) (k g : Nat) : Bool := s.al.tails.any (fun p => p.2.1 == recAddr k g + 48)

/-- The write of the record of stream `k` for tick `g` that is under way is given up. -/
def dropWrite (k g : Nat) (b : List Byte) (s : State) : State :=
  let as := recAddr k g :: (maskList 32 (s.maskOf k g b)).map (fun c => s.inboxAddr b c g)
  { s with al := { s.al with tails := s.al.tails.filter (fun p => !as.any (fun a => a + 48 == p.2.1)) } }

/-- Pantry writes that end in this cycle are completed (R167). -/
def State.pantryCycle (s : State) : State :=
  let now := s.al.tails.filter (fun p => decide (p.1 ≤ s.cyc))
  now.foldl (fun (t : State) p => t.mapStore p.2.1 p.2.2)
    { s with al := { s.al with tails := s.al.tails.filter (fun p => !decide (p.1 ≤ s.cyc)) } }

/-- Set CLOSED, MISS and further flags in the inbox copies of the clusters of `mask`. -/
def inboxClose (mask : Nat) (b : List Byte) (g flags miss : Nat) (s : State) : State :=
  (maskList 32 mask).foldl (fun (t : State) c =>
    let a := t.inboxAddr b c g
    (t.mapStore (a + 55) (leBytes 1 (t.loadN (a + 55) 1 ||| flags))).mapStore (a + 58) (leBytes 1 miss)) s

/-! ### The resampler (R177–R179) -/

/-- Interpolation and decimation of a rate code. -/
def rsLM (code : Nat) : Nat × Nat :=
  match code with
  | 0 => (6, 5)
  | 2 => (3, 8)
  | 3 => (2, 6)
  | _ => (5, 16)

/-- Input cycle C_in (R177). -/
def rsCin (code : Nat) (sixty : Bool) : Nat :=
  match code, sixty with
  | 0, false => 80
  | 0, true => 67
  | 2, false => 256
  | 2, true => 213
  | 3, false => 288
  | 3, true => 240
  | _, false => 307
  | _, true => 256

/-- First and last input of the window of grid tick `g`: 48 taps at the interpolated rate, centred on the tick. -/
def rsWindow (code g : Nat) : Nat × Nat :=
  let (l, m) := rsLM code
  (ceilDiv (g * m - 24) l, (g * m + 23) / l)

/-- First grid tick whose output uses input `k`. -/
def rsFirstTick (code k : Nat) : Nat :=
  let (l, m) := rsLM code
  ceilDiv (k * l - 23) m

/-- Inputs of a resampler slot. -/
def State.rsSlot (s : State) (i : Nat) : List RsIn := agetD s.al.rs i []
def State.setRs (s : State) (i : Nat) (l : List RsIn) : State := { s with al := { s.al with rs := aput s.al.rs i l } }

/-- Place an input, newest first; the slot holds the last 320. -/
def insRs (x : RsIn) : List RsIn → List RsIn
  | [] => [x]
  | y :: t => if y.k < x.k then x :: y :: t else y :: insRs x t

/-! ### Pantry writes (R166–R170, R287) -/

/-- A sample found LATE (R169): counted, and seen in its record, or in the record that the closure pass will write where the set has
not closed. -/
def sampleLate (k g : Nat) (s : State) : State :=
  let s := (((s.inc (alCnt AL_CNT0_LATE k)).inc AL_G_LATE_ALL).alEvent AL_EVENT_LATE)
  match s.record? k g with
  | some b => s.store (recAddr k g) (withLate b)
  | none =>
    if s.closedSet (dGroup (s.stream k)) g || s.al.late.contains (k, g) then s else { s with al := { s.al with late := (k, g) :: s.al.late } }

/-- A second sample (R170). -/
def sampleDup (k g : Nat) (s : State) : State :=
  let s := (s.inc (alCnt AL_CNT0_DUP_SAMPLE k)).alEvent AL_EVENT_DUP
  match s.record? k g with
  | some b => s.store (recAddr k g) (withFlags b 0x20)
  | none => s

/-- Count an EARLY sample (R164). -/
def noteEarly (k : Nat) (e : Bool) (s : State) : State :=
  if e then (s.inc (alCnt AL_CNT2_EARLY k)).alEvent AL_EVENT_EARLY else s

/-- Grid tick `g` was skipped by the grid: its set carries SKIP. -/
def State.tickSkipped (s : State) (g : Nat) : Bool := s.al.sets.any (fun o => o.tick == g && o.skip)

/-! ### The authority of the active module's input set (R461–R464) -/

/-- The record digest: bytes 0–47 without the LATE bits, and byte 54 (R462). -/
def recordDigest (b : List Byte) : Nat :=
  crc32c (slice b 0 32 ++ (List.range 8).flatMap (fun i => leBytes 2 (rQual b i % 2 ^ 15)) ++ slice b 54 1)

/-- What the active module's set record says of stream `k` in tick `g`. -/
def State.setEntry (s : State) (k g : Nat) : Option SetEntry :=
  (s.pr.sets.filter (fun (r : SetRec) => r.tick == g)).findSome? (fun r => r.entries.find? (fun e => e.stream == k))

/-- A standby's own sample that the active module's record overrules: it closed the stream as missing, or with another
sample (R463). -/
def State.overruled (s : State) (k g : Nat) (r : List Byte) : Option Bool :=
  match s.setEntry k g with
  | some e =>
    if e.carried then none
    else if e.state = recPresent then if recordDigest r = e.digest then none else some false
    else some true
  | none => none

/-- The Pantry write of a record that a COPY brings, unchanged (R464). -/
def writeCopy (k : Nat) (r b : List Byte) (s : State) : Nat × State :=
  let h := s.tickG / 4800 / 2 ^ 32 * 2 ^ 32
  let g := (h + leAt r 48 4) * 4800 + leAt r 52 2 % 8192
  if ((s.record? k g).map rClosed) = some true ∨ s.tooLate (dGroup b) g then (1, (sampleLate k g s).inc PR_CNT1_COPY_LATE)
  else (32, pantryWrite k g b r s)

/-- The Pantry write of a sample at the grid's own rate; answers the cycles it takes. -/
def writeSample (x : Sample) (b : List Byte) (s : State) : Nat × State :=
  let g := x.abs 4800
  let k := x.stream
  let grp := dGroup b
  let held := s.record? k g
  if (held.map rState) = some recPresent then (1, sampleDup k g s)
  else if (held.map rClosed) = some true ∨ s.tooLate grp g then (1, (sampleLate k g s).capMissed k g)
  else
    let vq := scaled b x
    let e := x.early 4800
    let fl := b2n x.sim * 16 + b2n (s.tickSkipped g) * 8 + b2n e * 4
    let r := mkRecord (vq.map (fun p => p.1)) (vq.map (fun p => p.2)) g recPresent fl x.smpCnt 0 x.synch (x.transit 4800)
    match s.overruled k g r with
    | some drop => (1, if drop then s.inc PR_CNT2_DROP_AUTH else s)
    | none =>
    (32, (noteEarly k e (pantryWrite k g b r s)).capSample k g x.vals)

/-- The write of an input of a resampled stream into its slot (R178, R179). -/
def writeInput (x : Sample) (b : List Byte) (s : State) : Nat × State :=
  let code := dRate b
  let rate := rateOf code
  let n := x.abs rate
  let g := rsFirstTick code n
  let l := s.rsSlot (dSlot b)
  match l.find? (fun y => y.k == n) with
  | some y => if y.conc then (1, (sampleLate x.stream g s).capMissed x.stream n) else (1, sampleDup x.stream g s)
  | none =>
    if ((s.record? x.stream g).map rClosed) = some true ∨ s.tooLate (dGroup b) g then
      (1, (sampleLate x.stream g s).capMissed x.stream n)
    else
      let vq := scaled b x
      let e := x.early rate
      let y : RsIn := {
        k := n, vals := vq.map (fun p => p.1), quals := vq.map (fun p => p.2), conc := false, smpCnt := x.smpCnt
        synch := x.synch, transit := x.transit rate, sim := x.sim, early := e }
      let s := s.setRs (dSlot b) ((insRs y l).take 320)
      (32, (noteEarly x.stream e s).capSample x.stream n x.vals)

/-- A sample's turn: without a valid stream it is discarded (R166). -/
def takeSample (x : Sample) (s : State) : Nat × State :=
  let b := s.stream x.stream
  if !dValid b then (1, s.inc AL_G_NO_STREAM)
  else if x.raw.isSome then writeCopy x.stream (x.raw.getD []) b s
  else if dRate b = 1 then writeSample x b s
  else writeInput x b s

/-- A turn of `n` cycles that begins now would still be in progress where a pass begins (R287). -/
def State.meetsPass (s : State) (n : Nat) : Bool :=
  s.al.sets.any (fun o => decide (s.cycleAt o.close < s.cyc + n))

/-- PANTRY_WRITE (R167, R287): the network port (no bank) takes the request at the head of its queue where it is free and no pass begins
before the turn has ended; a local path takes its bank's, which never waits. -/
def execPantryWrite (bank : Option (Fin 4)) (s : State) : Host.Outcome State Fault Refusal :=
  whileOn 6 s <|
  if !s.on AL_CTRL_EN then .next s
  else
    match bank with
    | none =>
      match s.al.netQ with
      | [] => .next s
      | x :: rest =>
        if s.cyc < x.cyc ∨ s.cyc < s.al.netFree then .next s
        else
          let (n, t) := takeSample x { s with al := { s.al with netQ := rest } }
          if s.meetsPass n then .next s
          else .next { t with al := { t.al with netFree := s.cyc + n } }
    | some k =>
      match agetD s.al.locQ k [] with
      | [] => .next s
      | x :: rest =>
        if s.cyc < x.cyc then .next s
        else .next (takeSample x { s with al := { s.al with locQ := aput s.al.locQ k rest } }).2

/-! ### Closure (R171–R173, R179, R182) -/

/-- The valid classification entries of kind SV that name stream `k`, in order (R137). -/
def State.svEntries (s : State) (k : Nat) : List (Nat × SubEntry) :=
  s.sub.entries.filter (fun (p : Nat × SubEntry) => eValid p.2.bytes && eKind p.2.bytes == 1 && eTarget p.2.bytes % 1024 == k)

/-- The consecutive-missing count of entry `e` at a closure, and its departure (R153). -/
def entryMissing (e : Nat) (x : SubEntry) (close : Nat) (missing : Bool) (s : State) : State :=
  let n := if missing then min 255 (x.missing + 1) else 0
  let s := s.setSub e { x with missing := n }
  if eDepart x.bytes ≤ n ∧ missing ∧ s.rd (sbSt SB_ST0_STATE e) = 1 then
    (s.wr (sbSt SB_ST0_STATE e) 2).discover 2 1 0x1F e (s.rd (sbSt SB_ST0_LAST_SMPCNT e)) (close / uSt) s.gov
  else s

/-- Subscription's part in a closure of stream `k`: every entry that names it counts (R153, R171); none while subscription is
disabled (R136). -/
def subMissing (k close : Nat) (missing : Bool) (s : State) : State :=
  if s.on SB_CTRL_EN then (s.svEntries k).foldl (fun (t : State) p => entryMissing p.1 p.2 close missing t) s else s

/-- MISS of stream `k`, and its update. -/
def State.miss (s : State) (k : Nat) : Nat := agetD s.al.miss k 0
def State.setMiss (s : State) (k n : Nat) : State := { s with al := { s.al with miss := cput 0 s.al.miss k n } }

/-- Write a record made at closure: LATE marks of early finds go to the Pantry record only (R169). -/
def closeWrite (k g : Nat) (b r : List Byte) (s : State) : State :=
  let late := s.al.late.contains (k, g)
  let s := s.store (recAddr k g) (if late then withLate r else r)
  let s := { s with al := { s.al with late := s.al.late.filter (fun p => p != (k, g)) } }
  inboxWrite b g r s

/-- An ABSENT record (R173). -/
def absentRecord (g skip miss : Nat) (resampled : Bool) : List Byte :=
  mkRecord (List.replicate 8 0x7FC00000) (List.replicate 8 (if resampled then 0x4001 else 0x0001)) g recAbsent
    (0x80 + skip * 8) 0 miss 0 noTransit

/-- A CONCEALED record from its source (R172). -/
def concealedRecord (src : List Byte) (g skip miss : Nat) : List Byte :=
  let q := fun i =>
    let w := rQual src i
    (w % 8192 / 4 * 4 + (if w % 4 = 1 then 1 else 3)) ||| (w &&& 0x4000) ||| 0x2000
  mkRecord ((List.range 8).map (fun i => leAt src (4 * i) 4)) ((List.range 8).map q) g recConcealed
    (0x80 + b2n (rSim src) * 16 + skip * 8) (leAt src 56 2) miss (leAt src 59 1) noTransit

/-- Close stream `k` at the grid's own rate. A write still under way, which a step of the base brings to its closure, began less than
32 cycles before it: its sample is LATE and the stream has no record (R162, R169). -/
def closeStream (o : OpenSet) (k : Nat) (b : List Byte) (s : State) : State :=
  let g := o.tick
  let sk := b2n o.skip
  let cut := s.writing k g
  let s := if cut then sampleLate k g (dropWrite k g b s) else s
  match if cut then none else (s.record? k g).filter (fun r => rState r == recPresent) with
  | some r =>
    let s := s.store (recAddr k g) (splice (withFlags r (0x80 + sk * 8)) 58 [0])
    let s := inboxClose (s.maskOf k g b) b g (0x80 + sk * 8) 0 (s.setMiss k 0)
    subMissing k o.close false (s.inc (alCnt AL_CNT2_PRESENT k))
  | none =>
    let m := min 255 (s.miss k + 1)
    let src := (s.record? k (g - o.conc)).filter (fun r => rState r == recPresent || rState r == recConcealed)
    let s := s.setMiss k m
    match src, decide (m ≤ 2) && s.on AL_CTRL_CONCEAL_EN with
    | some r, true =>
      subMissing k o.close true ((closeWrite k g b (concealedRecord r g sk m) s).inc (alCnt AL_CNT1_CONCEAL k))
    | _, _ =>
      let s := closeWrite k g b (absentRecord g sk m false) s
      let s := ((s.inc (alCnt AL_CNT1_ABSENT k)).inc AL_G_ABSENT_ALL).alEvent AL_EVENT_ABSENT
      subMissing k o.close true s

/-- An input of the window that is missing is concealed from one cycle earlier when the run of missing inputs around it is no
longer than two (R179). -/
def concealInput (code : Nat) (sixty : Bool) (last n : Nat) (l : List RsIn) : Option RsIn :=
  let own := fun k => l.any (fun (y : RsIn) => y.k == k && !y.conc)
  let gone := fun k => decide (k ≤ last) && !own k
  let before := if gone (n - 1) then (if gone (n - 2) then 2 else 1) else 0
  let after := if gone (n + 1) then (if gone (n + 2) then 2 else 1) else 0
  if 2 < 1 + before + after then none
  else
    (l.find? (fun (y : RsIn) => y.k == n - rsCin code sixty)).map (fun y => { y with k := n, conc := true, early := false })

/-- Fill the missing inputs of the window of tick `g` that the output needs, those whose tap is not zero; answers the slot, how many
were concealed, and whether one could not be. -/
def fillWindow (code g : Nat) (sixty can : Bool) (lo hi : Nat) (l : List RsIn) : List RsIn × Nat × Bool :=
  ((List.range (hi + 1 - lo)).map (fun i => lo + i)).foldl (fun (a : List RsIn × Nat × Bool) n =>
    if Config.rsZero code g (n - lo) || a.1.any (fun y => y.k == n) then a
    else if !can then (a.1, a.2.1, true)
    else
      match concealInput code sixty hi n a.1 with
      | some y => ((insRs y a.1).take 320, a.2.1 + 1, a.2.2)
      | none => (a.1, a.2.1, true)) (l, 0, false)

/-- The output record of a resampled stream, from the inputs of its window by position; those with a zero tap do not count (R178). -/
def outputRecord (code g skip : Nat) (win : List (Option RsIn)) : List Byte :=
  let used := ((win.zipIdx).filter (fun (p : Option RsIn × Nat) => !Config.rsZero code g p.2)).filterMap (fun p => p.1)
  let nq := ((used.head?).map (fun (y : RsIn) => y.vals.length)).getD 0
  let qual := fun i =>
    let qs := used.map (fun (y : RsIn) => y.quals.getD i 1)
    let v := if qs.any (fun q => q % 4 == 1) then 1 else if qs.any (fun q => q % 4 == 3) then 3 else 0
    (qs.foldl (fun a q => a ||| q) 0) % 8192 / 4 * 4 + v + 0x4000 + b2n (used.any (fun (y : RsIn) => y.conc)) * 0x2000
  let last := used.getLast?.getD ⟨0, [], [], false, 0, 0, 0, false, false⟩
  mkRecord ((List.range nq).map (fun i => Config.rsOut code g ((win.zipIdx).map (fun p =>
      if Config.rsZero code g p.2 then 0 else (p.1.map (fun (x : RsIn) => x.vals.getD i 0)).getD 0))))
    ((List.range nq).map qual) g recPresent (0x80 + b2n last.sim * 16 + skip * 8 + b2n last.early * 4) last.smpCnt 0
    last.synch last.transit

/-- Close a resampled stream (R178, R179). -/
def closeResampled (o : OpenSet) (k : Nat) (b : List Byte) (s : State) : State :=
  let code := dRate b
  let g := o.tick
  let (lo, hi) := rsWindow code g
  let (l, n, bad) := fillWindow code g (o.conc == 80) (s.on AL_CTRL_CONCEAL_EN) lo hi (s.rsSlot (dSlot b))
  let s := (s.setRs (dSlot b) l).count (alCnt AL_CNT1_CONCEAL k) n
  if bad then
    let m := min 255 (s.miss k + 1)
    let s := closeWrite k g b (absentRecord g (b2n o.skip) m true) (s.setMiss k m)
    let s := ((s.inc (alCnt AL_CNT1_ABSENT k)).inc AL_G_ABSENT_ALL).alEvent AL_EVENT_ABSENT
    subMissing k o.close true s
  else
    let win := (List.range (hi + 1 - lo)).map (fun i => l.find? (fun (y : RsIn) => y.k == lo + i))
    let s := closeWrite k g b (outputRecord code g (b2n o.skip) win) (s.setMiss k 0)
    subMissing k o.close false (s.inc (alCnt AL_CNT2_PRESENT k))

/-- Valid streams of a group, in ascending order. -/
def State.groupStreams (s : State) (grp : Nat) : List Nat :=
  (s.al.str.filter (fun (p : Nat × Stream) => dValid p.2.bytes && dGroup p.2.bytes == grp)).map (fun p => p.1)

/-- The set that closes next: the first by tick and then by group among those whose instant the base has reached. -/
def State.dueSet (s : State) : Option OpenSet :=
  (s.al.sets.filter (fun o => decide (o.close ≤ s.now))).foldl (fun (a : Option OpenSet) o =>
    match a with
    | none => some o
    | some b => if o.tick < b.tick ∨ (o.tick = b.tick ∧ o.group < b.group) then some o else some b) none

/-- Summary flags of a set mark (R182, R215): ALL_PRESENT, ANY_CONCEALED, ANY_ABSENT, ANY_SIM from bit 3 down (DEDUCED, log
entry 40). -/
def setFlags (s : State) (g : Nat) (ks : List Nat) : Nat :=
  let st := ks.map (fun k => s.load (recAddr k g) 64)
  b2n (st.all (fun b => rState b == recPresent)) * 8 + b2n (st.any (fun b => rState b == recConcealed)) * 4 +
    b2n (st.any (fun b => rState b == recAbsent)) * 2 + b2n (st.any rSim)

/-- A carried stream: resampled or local (R461). -/
def dCarried (b : List Byte) : Bool := dLocal b || dRate b != 1

/-- A standby closes a carried stream with the active module's record (R463). -/
def closeCarried (o : OpenSet) (k : Nat) (b r : List Byte) (s : State) : State :=
  let s := closeWrite k o.tick b r (s.setMiss k (rMiss r))
  let s :=
    if rState r = recPresent then s.inc (alCnt AL_CNT2_PRESENT k)
    else if rState r = recConcealed then s.inc (alCnt AL_CNT1_CONCEAL k)
    else ((s.inc (alCnt AL_CNT1_ABSENT k)).inc AL_G_ABSENT_ALL).alEvent AL_EVENT_ABSENT
  subMissing k o.close (rState r != recPresent) s

/-- One entry of a set record, and the record it carries (R461). -/
def setEntryBytes (s : State) (g k : Nat) : List Byte × List Byte :=
  let r := s.load (recAddr k g) 64
  let c := dCarried (s.stream k)
  (leBytes 4 (recordDigest r) ++ leBytes 1 (rState r) ++ leBytes 1 (b2n c) ++ leBytes 2 k, if c then r else [])

/-- Send the set record of a closed group in parts of at most 110 entries, in cycle `due` (R461). -/
def sendSet (g grp due : Nat) : Nat → Nat → List Nat → State → State
  | 0, _, _, s => s
  | n + 1, part, ks, s =>
    let es := (ks.take 110).map (setEntryBytes s g)
    let last := decide (ks.length ≤ 110)
    let body := leBytes 1 grp ++ leBytes 1 (b2n last) ++ leBytes 2 es.length ++ leBytes 4 0 ++ es.flatMap (fun e => e.1) ++
      es.flatMap (fun e => e.2)
    let s := s.twinQueue
      { due := due, kind := 3, part := part % 16, sec := g / 4800 % 2 ^ 32, tick := g % 4800, payload := body }
    if last then s else sendSet g grp due n (part + 1) (ks.drop 110) s

/-- The set of a tick that this module owns is recorded for the partner; a standby's that had no record counts (R461, R463,
R467). -/
def recordSet (o : OpenSet) (ks : List Nat) (due : Nat) (s : State) : State :=
  if !s.pairOn then s
  else if s.owned? o.tick then (if s.on PR_STATUS_NOCLAIM then s else sendSet o.tick o.group due 16 0 ks s)
  else if s.on PR_STATUS_NOCLAIM ∧ !s.on PR_STATUS_PARTNER then s
  else
    let got := s.pr.sets.any (fun (r : SetRec) => r.tick == o.tick && r.group == o.group && r.full)
    let s := if got then s else s.inc PR_CNT0_SET_MISSING
    { s with pr := { s.pr with sets := s.pr.sets.filter (fun (r : SetRec) => !(r.tick == o.tick && r.group == o.group)) } }

/-- One closure pass. -/
def closePass (o : OpenSet) (s : State) : State :=
  let ks := s.groupStreams o.group
  let p := 8 + ceilDiv ks.length 4
  let s := { s with al := { s.al with
    sets := s.al.sets.filter (fun x => !(x.tick == o.tick && x.group == o.group))
    netFree := max s.al.netFree (s.cyc + p), passFree := s.cyc + p } }
  let s := ks.foldl (fun (t : State) k =>
    let b := t.stream k
    match t.setEntry k o.tick with
    | some e =>
      if e.carried then closeCarried o k b e.body t
      else if dRate b = 1 then closeStream o k b t else closeResampled o k b t
    | none => if dRate b = 1 then closeStream o k b t else closeResampled o k b t) s
  let s := { s with al := { s.al with
    closed := aput s.al.closed o.group (max (agetD s.al.closed o.group 0) (o.tick + 1))
    wroteTo := s.al.wroteTo.filter (fun x => !(ks.contains x.1 && x.2.1 == o.tick) && decide (o.tick < x.2.1 + 256)) } }
  let s := recordSet o ks (s.cyc + p) s
  let s := (s.wr AL_STATUS_LAST_TICK (o.tick % 4800)).wr AL_STATUS_LAST_GROUP o.group
  if o.skip then s else s.setMark o.group o.tick (setFlags s o.tick ks) (s.cyc + p)

/-- CLOSURE_PASS (R171): only an earlier pass delays it, never a write (R287). -/
def execClosurePass (s : State) : Host.Outcome State Fault Refusal :=
  whileOn 6 s <|
  match s.dueSet with
  | none => .next s
  | some o => if s.on AL_CTRL_EN ∧ s.al.passFree ≤ s.cyc then .next (closePass o s) else .next s

/-! ### The AL_ page (R166, R168, R181, R185) -/

/-- Fields other than CMASK and SCALE agree. -/
def sameFixed (a b : List Byte) : Bool := slice a 0 4 == slice b 0 4 && slice a 8 8 == slice b 8 8 && slice a 48 16 == slice b 48 16

/-- A write of AL_STR_CMD. -/
def alStrCmd (r : Requester) (cmd : Nat) (s : State) : State :=
  let k := s.rd AL_STR_IDX_IDX
  let cur := s.stream k
  let put := fun (x : Stream) => { s with al := { s.al with str := aput s.al.str k x } }
  match cmd with
  | 1 => loadData 0x500040 16 cur s
  | 2 =>
    let b := dStored (s.dataBytes 0x500040 16)
    if !s.mayWrite r then s.alEvent AL_EVENT_REFUSED
    else if !dValid cur then put { bytes := cur, next := some b }
    else if sameFixed cur b then put { bytes := b, next := ((aget s.al.str k).map (fun x => x.next)).getD none }
    else s.alEvent AL_EVENT_REFUSED
  | 3 =>
    if !s.mayWrite r then s.alEvent AL_EVENT_REFUSED
    else put { bytes := cur, next := some (splice cur 0 (leBytes 1 (setBits (leAt cur 0 1) 7 7 0))) }
  | _ => s

/-- A write of AL_CNT_IDX: the counters are latched and cleared; an event of this cycle stays (R11, R185). -/
def alCntIdx (v : Nat) (s : State) : State :=
  let s := s.swPut 0x500020 v
  let a := 0x3100000 + v % 1024 * 0x10
  let s := (List.range 3).foldl (fun (t : State) i => t.put (0x500024 + 4 * i) (t.word0 (a + 4 * i))) s
  (List.range 3).foldl (fun (t : State) i => t.put (a + 4 * i) (t.evWord (a + 4 * i))) s

/-- A write of AL_CTRL: clearing EN abandons open sets and what waits; setting it opens sets from the next tick start. -/
def alCtrlWriteOp (v : Nat) (s : State) : State :=
  let was := s.on AL_CTRL_EN
  let s := s.swPut 0x500000 v
  if was ∧ !s.on AL_CTRL_EN then { s with al := { s.al with sets := [], netQ := [], locQ := [], late := [], tails := [], wroteTo := [] } }
  else if !was ∧ s.on AL_CTRL_EN then { s with al := { s.al with openFrom := s.clk.raised + 1 } }
  else s

/-- Writes of the AL_ page. -/
def alWrite (r : Requester) (o v : Nat) (s : State) : State :=
  if o = 0x14 ∧ !s.mayWrite r then s.alEvent AL_EVENT_REFUSED
  else if o = 0 then alCtrlWriteOp v s
  else if o = 0x14 then alStrCmd r (v % 4) s
  else if o = 0x20 then alCntIdx v s
  else if 0x100 ≤ o ∧ o < 0x280 ∧ !s.mayWrite r then s.alEvent AL_EVENT_REFUSED
  else if 0x100 ≤ o ∧ o < 0x200 then
    let g := (o - 0x100) / 4
    (s.swPut (0x500000 + o) v).wr (AL_GROUP_W_US.i g) (clampN 50 1500 (v % 2048))
  else if 0x200 ≤ o ∧ o < 0x280 then
    let s := s.swPut (0x500000 + o) v
    if bits v 31 30 = 3 then s.wr (AL_INBOX_DEPTH.i ((o - 0x200) / 4)) 2 else s
  else s.swPut (0x500000 + o) v

end Sys2Proof.Machine
end

