-- ==== Sys2Proof/Machine/Publish.lean ====
section
/-!
DEFINITION. Publication and trip outputs (10_publication_trip.md): control blocks, templates, GOOSE state and retransmission, SV
streams, build pipelines, entry into the Hall, token buckets, the gate and the trip stages.
-/
namespace Sys2Proof.Machine

/-! ### Control blocks (R261) -/

def cbValid (b : List Byte) : Bool := bit (leAt b 0 2) 15
def cbSv (b : List Byte) : Bool := bit (leAt b 0 2) 14
def cbSim (b : List Byte) : Bool := bit (leAt b 0 2) 13
def cbVi (b : List Byte) : Nat := leAt b 0 2 % 512
def cbClass (b : List Byte) : Nat := bits (leAt b 2 1) 7 5
/-- AUTH, with 0x3 treated as 0x0. -/
def cbAuth (b : List Byte) : Nat := let a := bits (leAt b 2 1) 4 3; if a = 3 then 0 else a
def cbKey (b : List Byte) : Nat := leAt b 3 1
def cbPorts (b : List Byte) : Nat := leAt b 4 4 % 2 ^ 22
def cbTpl (b : List Byte) : Nat := leAt b 8 5 / 64 * 64
def cbTplLen (b : List Byte) : Nat := leAt b 14 2 % 4096
def cbTmin (b : List Byte) : Nat := leAt b 16 2
def cbTmax (b : List Byte) : Nat := leAt b 18 2
def cbNmem (b : List Byte) : Nat := leAt b 20 1 % 128
def cbNasdu (b : List Byte) : Nat := bits (leAt b 21 1) 7 4
/-- SRC: 0–3 a bank, others LANE. -/
def cbSrc (b : List Byte) : Nat := min 4 (leAt b 21 1 % 8)
def cbLag (b : List Byte) : Nat := leAt b 23 1 % 16
def cbRate (b : List Byte) : Nat := leAt b 22 1 % 8
def cbRel (b : List Byte) : Nat := leAt b 24 4 % 2 ^ 18

/-- Control block `n` and its replacement. -/
def State.cb (s : State) (n : Nat) : Cb := agetD s.pb.cbs n {}
def State.setCb (s : State) (n : Nat) (c : Cb) : State := { s with pb := { s.pb with cbs := aput s.pb.cbs n c } }

/-- A counter of control block `n` (fields of PB_ST2 and PB_ST3, R280). -/
def cbCnt (f : Fld) (n : Nat) : Fld := { f with addr := f.addr - 0x600090 + 0x3500000 + n * 0x10 }

/-- Set an event flag of the engine (R281). -/
def State.pbEvent (s : State) (f : Fld) : State := s.event f ES_PB

/-- The transmit gate in this cycle (R275). -/
def State.gate (s : State) : Bool := s.on0 PB_STATUS_GATE_OPEN

/-! ### Encodings (R262, R263, R267) -/

/-- A BER length in minimal form. -/
def berLen (n : Nat) : List Byte :=
  if n < 128 then beBytes 1 n else if n < 256 then beBytes 1 0x81 ++ beBytes 1 n else beBytes 1 0x82 ++ beBytes 2 n

/-- A tag, the length of a content and the content. -/
def ber (tag : Nat) (c : List Byte) : List Byte := beBytes 1 tag ++ berLen c.length ++ c

/-- An unsigned number in minimal form, with a leading 0x00 where bit 7 would be set. -/
def berUint (x : Nat) : List Byte := beBytes (Nat.log2 x / 8 + 1 + b2n (Nat.log2 x % 8 == 7 && x != 0)) x

/-- A 32-bit signed number in minimal two's complement. -/
def berInt (x : Nat) : List Byte :=
  let i := sext 32 x
  let n := if -128 ≤ i ∧ i < 128 then 1 else if -32768 ≤ i ∧ i < 32768 then 2 else if -8388608 ≤ i ∧ i < 8388608 then 3 else 4
  beBytes n (toBits (8 * n) i)

/-- A bit string whose string bit i is bit i of `x`. -/
def berBits (n x : Nat) : List Byte :=
  let m := ceilDiv n 8
  beBytes 1 (8 * m - n) ++
    (List.range m).map (fun j => BitVec.ofNat 8 ((List.range 8).foldl (fun a i =>
      let k := 8 * j + i
      2 * a + (if k < n then b2n (bit x k) else 0)) 0))

/-- A quality as 13 bits in the order of IEC 61850-8-1, the inverse of `qualWord`. -/
def berQual (q : Nat) : List Byte := let q := q % 8192; berBits 13 (q / 4 * 4 + q % 2 * 2 + q / 2 % 2)

/-- A MEMBER segment's encoding of an item (R263). -/
def memberBytes (ty len : Nat) (x : PubItem) : List Byte :=
  if len % 2 = 1 then ber 0x84 (berQual x.q)
  else
    match ty with
    | 1 => ber 0x83 (beBytes 1 (b2n (x.v != 0)))
    | 2 => ber 0x84 (beBytes 1 6 ++ beBytes 1 (x.v % 4 * 64))
    | 3 => ber 0x85 (berInt x.v)
    | 4 => ber 0x86 (berUint (x.v % 2 ^ 32))
    | 5 => ber 0x87 (beBytes 1 8 ++ beBytes 4 x.v)
    | 6 => ber 0x84 (berQual x.q)
    | 7 => ber 0x91 (leBytes 8 x.v)
    | 8 => let n := clampN 1 32 (bits len 15 8); ber 0x84 (berBits n x.v)
    | _ => []

/-- UtcTime of the governing base now (R267). -/
def State.utcTime (s : State) : List Byte :=
  let sec : Int := ((s.now / uS : Nat) : Int) - sext 16 (s.rd HC_UTC_UTC_OFS)
  let frac := s.now % uS / uNs * 2 ^ 24 / 1000000000
  let fail := s.gov != 0
  let nosync := !s.on HC_CTRL_TB0_LOCKED || s.on HC_STATUS_HOLDOVER
  beBytes 4 (toBits 32 sec) ++ beBytes 3 frac ++
    beBytes 1 (b2n (s.on HC_UTC_VALID) * 128 + b2n fail * 64 + b2n nosync * 32 + (if fail || nosync then 31 else 10))

/-- smpSynch of a local sample or a lane's ASDU (R208, R269). -/
def State.smpSynch (s : State) : Nat :=
  if s.gov ≠ 0 then 0 else if s.on HC_CTRL_TB0_LOCKED ∧ !s.on HC_STATUS_HOLDOVER then 2 else 1

/-! ### Templates (R262) -/

/-- A segment: OP, TYPE, ARG, LEN, the literal octets, and the ASDU it stands in. -/
structure Seg where
  op : Nat
  ty : Nat
  arg : Nat
  len : Nat
  lit : List Byte
  asdu : Nat := 0
deriving DecidableEq, Repr

/-- The segments of a template. -/
def segsOf : Nat → List Byte → List Seg
  | 0, _ => []
  | n + 1, l =>
    if l.length < 4 then []
    else
      let h := leAt l 0 4
      let len := h % 65536
      let lit := bits h 31 28 == 1
      { op := bits h 31 28, ty := bits h 27 24, arg := bits h 23 16, len := len, lit := if lit then slice l 4 len else [] } ::
        segsOf n (l.drop (4 + (if lit then ceilDiv len 4 * 4 else 0)))

/-- The template of a control block. -/
def State.template (s : State) (b : List Byte) : List Seg := segsOf (cbTplLen b / 4 + 1) (s.load (cbTpl b) (cbTplLen b))

/-- The template with the ASDU span written out once per ASDU. -/
def spanOut (n : Nat) (l : List Seg) : List Seg :=
  let pre := l.takeWhile (fun x => !(x.op == 0xE && x.arg == 0))
  let rest := (l.dropWhile (fun x => !(x.op == 0xE && x.arg == 0))).drop 1
  let mid := rest.takeWhile (fun x => x.op != 0xE)
  let post := (rest.dropWhile (fun x => x.op != 0xE)).drop 1
  if pre.length = l.length then l
  else pre ++ (List.range n).flatMap (fun i => mid.map (fun x => { x with asdu := i })) ++ post

/-- What a frame carries. -/
structure Carry where
  sim : Bool
  auth : Nat
  tagLen : Nat
  st : Nat := 0
  sq : Nat := 0
  tal : Nat := 0
  t : List Byte := []
  items : List PubItem := []
  asdus : List SvAsdu := []
deriving DecidableEq, Repr

/-- The octets of one segment that is no OPEN, CLOSE or LEN16. -/
def segBytes (c : Carry) (x : Seg) : List Byte :=
  let a : SvAsdu := c.asdus.getD x.asdu { k := 0, smp := 0, synch := 0, quants := [] }
  match x.op with
  | 0x1 => x.lit
  | 0x5 => beBytes 2 (setBits (if c.auth = 0 then 0 else Config.extRes1 c.auth c.tagLen) 15 15 (b2n c.sim))
  | 0x6 => beBytes 2 (if c.auth = 0 then 0 else Config.extRes2 c.auth c.tagLen)
  | 0x7 => if x.arg = 0 then ber 0x85 (berUint c.st) else if x.arg = 1 then ber 0x86 (berUint c.sq) else ber 0x81 (berUint c.tal)
  | 0x8 => ber 0x84 c.t
  | 0x9 => ber 0x87 (beBytes 1 (b2n c.sim))
  | 0xA => memberBytes x.ty x.len (c.items.getD (x.arg % 64) { ty := 0, v := 0, q := 0 })
  | 0xB => ber 0x82 (beBytes 2 a.smp)
  | 0xC => ber 0x85 (beBytes 1 a.synch)
  | 0xD => ber 0x87 (a.quants.flatMap (fun (p : Int × Nat) => beBytes 4 (toBits 32 p.1) ++ beBytes 4 p.2))
  | _ => []

/-- Emit segments: the open contents, innermost first, and the place of LEN16. -/
def emit (c : Carry) : List Seg → List (List Byte) → Option Nat → List Byte × Option Nat
  | [], st, p => (st.headD [], p)
  | x :: rest, st, p =>
    match x.op, st with
    | 0x2, _ => emit c rest ([] :: st) p
    | 0x3, top :: under :: more => emit c rest ((under ++ berLen top.length ++ top) :: more) p
    | 0x4, top :: more => emit c rest ((top ++ [0, 0]) :: more) (some top.length)
    | _, top :: more => emit c rest ((top ++ segBytes c x) :: more) p
    | _, [] => emit c rest [] p

/-- The frame without its extension: octets from the destination address to the end of the APDU. Length counts from APPID. -/
def frameOf (c : Carry) (l : List Seg) : List Byte :=
  let (b, p) := emit c l [[]] none
  match p with
  | some p => splice b p (beBytes 2 (b.length - (p - 2)))
  | none => b

/-- The frame with the security extension in the place of SECEXT, where the template has one (R262, R274). -/
def secure (c : Carry) (l : List Seg) (ext : List Byte → List Byte) : List Byte :=
  let f := frameOf c l
  if c.auth = 0 ∨ l.all (fun x => x.op != 0xF) then f
  else
    let n := (emit c (l.takeWhile (fun x => x.op != 0xF)) [[]] none).1.length
    f.take n ++ ext f ++ f.drop n

/-- The number of ASDUs that a frame carries replaces NOASDU (R269) in noASDU, the literal that opens the savPdu: tag 0x80, one
octet (DEDUCED, log entry 101). -/
def patchNoAsdu (n m : Nat) (l : List Seg) : List Seg :=
  let i := (l.takeWhile (fun x => x.op != 2)).length + 1
  match l[i]? with
  | some x =>
    if n ≠ m ∧ x.op = 1 ∧ slice x.lit 0 3 = beBytes 3 (0x800100 + n) then l.set i { x with lit := splice x.lit 2 (beBytes 1 m) }
    else l
  | none => l

/-! ### Build requests (R259, R260, R270, R271) -/

/-- Whether pipeline `p` is busy in cycle `c`, not before this one: up to the entry cycle of its last build (R270). -/
def State.pipeBusy (s : State) (p c : Nat) : Bool :=
  match aget s.pb.busyTo p with
  | some d => decide (c ≤ d)
  | none => false

/-- Pipelines of a kind that are in service (R270, R489). -/
def State.pipesOf (s : State) (fg : Bool) : List Nat :=
  (if fg then [0, 1, 2, 3] else [4, 5]).filter (fun p => !s.ic.deadPipes.contains p)

/-- Hand over a build request: it waits where no pipeline of its kind is free in the next cycle. -/
def State.handOver (s : State) (j : Build) : State :=
  let free := ((s.pipesOf j.fg).filter (fun p => !s.pipeBusy p (j.hand + 1))).length
  if j.fg then
    let s' := { s with pb := { s.pb with fg := s.pb.fg ++ [j] } }
    if free ≤ s.pb.fg.length then (s'.inc PB_G_FG_WAIT).pbEvent PB_EVENT_FG_WAIT else s'
  else if free + 256 ≤ s.pb.bg.length then (s.inc PB_G_BUSY).pbEvent PB_EVENT_BUSY
  else
    let s' := { s with pb := { s.pb with bg := s.pb.bg ++ [j] } }
    if free ≤ s.pb.bg.length then s'.inc PB_G_BG_WAIT else s'

/-- Interval I_i of the retransmission schedule in µs (R265). -/
def retxUs (b : List Byte) (i : Nat) : Nat := min (cbTmin b * 2 ^ min (i - 1) 40) (cbTmax b * 1000)

/-- timeAllowedToLive in ms, for the interval to the following frame (R265). -/
def talMs (us : Nat) : Nat := ceilDiv (2 * us) 1000

/-- Cycle of the last tick start. -/
def State.tickStartCy (s : State) : Nat := s.cyc - s.tickCy

/-- A GOOSE request for block `n` brings no difference from the published state (R264). -/
def State.pubSame (s : State) (n : Nat) (items : List PubItem) : Bool :=
  let key := fun (x : PubItem) => (x.v, x.q % 8192)
  (s.cb n).items.map (fun l => l.map key) == some (items.map key)

/-- A GOOSE request that has been taken (R264). -/
def gooseRequest (n : Nat) (items : List PubItem) (gen : Nat) (fg : Bool) (s : State) : State :=
  let c := s.cb n
  let b := c.bytes
  if s.pubSame n items then s.inc (cbCnt PB_ST2_SAME n)
  else
    let st := if c.st + 1 < 2 ^ 32 then c.st + 1 else 1
    let t := s.utcTime
    let s := (s.notePub n).setCb n { c with items := some items, st := st, sq := 0, t := t, nth := 1, at' := some (s.now + retxUs b 1 * uUs) }
    s.handOver { cb := n, fg := fg, hand := s.cyc, vi := cbVi b, gen := gen, items := items, st := st, sq := 0, t := t
                 tal := talMs (retxUs b 1), tickCy := s.tickStartCy }

/-- An ASDU for SV stream block `n` in hand-over cycle `hand`: the frame is built when NOASDU are held, or from those present at the
first ASDU of the next frame (R269). -/
def addAsdu (n : Nat) (a : SvAsdu) (gen hand : Nat) (s : State) : State :=
  let c := s.cb n
  let b := c.bytes
  let job := fun (l : List SvAsdu) =>
    ({ cb := n, fg := true, hand := hand, vi := cbVi b, gen := gen, asdus := l, tickCy := s.tickStartCy } : Build)
  let cut := match c.asdus with
    | [] => false
    | x :: _ => decide (x.k + cbNasdu b ≤ a.k)
  let s := if cut then (s.inc (cbCnt PB_ST3_SV_SHORT n)).handOver (job c.asdus) else s
  let l := (if cut then [] else c.asdus) ++ [a]
  if cbNasdu b ≤ l.length then (s.setCb n { c with asdus := [] }).handOver (job l) else s.setCb n { c with asdus := l }

/-- A sample of bank `bank` for every SV stream it feeds (R208, R269). -/
def svSample (bank : Nat) (a : SvAsdu) (hand : Nat) (s : State) : State :=
  if s.on PB_CTRL_EN then
    (List.range 64).foldl (fun (t : State) i =>
      let b := (t.cb (2048 + i)).bytes
      if cbValid b ∧ cbSv b ∧ cbSrc b = bank then addAsdu (2048 + i) a (t.gen (cbVi b)) hand t else t) s
  else s

/-- A bank's sample is handed over in cycle `hand` (R195, R259). -/
def queueSample (bank : Nat) (a : SvAsdu) (hand : Nat) (s : State) : State :=
  { s with pb := { s.pb with samples := s.pb.samples ++ [(hand, bank, a)] } }

/-- Discard a request (R260). -/
def State.pubRefuse (s : State) (n : Nat) : State := (s.inc (cbCnt PB_ST3_REQ_REFUSED n)).pbEvent PB_EVENT_REFUSED

/-- Whether the items have the types of the template's member values (R260). -/
def typesFit (l : List Seg) (items : List PubItem) : Bool :=
  l.all (fun x => x.op != 0xA || bit x.len 0 || (items[x.arg]?).all (fun i => i.ty == x.ty))

/-- A request of a lane or a tenant for control block `n` (R260, R264, R269): answers whether it was taken. `tick` is the run's
grid tick; `ready` a ready run or tenant. One of a former generation changes nothing (R279, log entry 52). -/
def pubRequest (n : Nat) (items : List PubItem) (vi gen : Nat) (ready : Bool) (tick : Nat) (s : State) : Bool × State :=
  let c := s.cb n
  let b := c.bytes
  if !s.on PB_CTRL_EN ∨ gen ≠ s.gen vi then (false, s)
  else if !cbValid b ∨ cbVi b ≠ vi ∨ items.length < cbNmem b then (false, s.pubRefuse n)
  else
    let items := items.take (cbNmem b)
    if cbSv b then
      if cbSrc b ≠ 4 ∨ ready ∨ !(items.all (fun i => i.ty == 3)) then (false, s.pubRefuse n)
      else
        let k := tick - cbLag b
        let a : SvAsdu := { k := k, smp := k % 4800, synch := s.smpSynch, quants := items.map (fun i => (sext 32 i.v, i.q % 8192)) }
        (true, addAsdu n a gen s.cyc s)
    else if !typesFit (s.template b) items then (false, s.pubRefuse n)
    else (true, gooseRequest n items gen (!ready) s)

/-- Control block `n` is due for a retransmission: the stored items, and the instant that has passed (R265). -/
def State.retxDue (s : State) (n : Nat) : Option (Nat × List PubItem) :=
  let c := s.cb n
  match c.at', c.items with
  | some a, some items => if s.now ≤ a ∨ !cbValid c.bytes then none else some (a, items)
  | _, _ => none

/-- A retransmission is handed over, where none of the cycle's requests has cancelled it (R265, R268); while the engine is disabled
it is discarded, and the schedule runs on (R271, R280). -/
def retransmit (n : Nat) (s : State) : State :=
  let c := s.cb n
  match s.retxDue n with
  | none => s
  | some (a, items) =>
    let sq := (c.sq + 1) % 2 ^ 32
    let us := retxUs c.bytes (c.nth + 1)
    if !s.on PB_CTRL_EN then s.setCb n { c with nth := c.nth + 1, at' := some (a + us * uUs) }
    else
    let s := (s.notePub n).setCb n { c with sq := sq, nth := c.nth + 1, at' := some (a + us * uUs) }
    s.handOver {
      cb := n, fg := false, hand := s.cyc, vi := cbVi c.bytes, gen := s.gen (cbVi c.bytes), items := items, st := c.st, sq := sq
      t := c.t, tal := talMs us, tickCy := s.tickStartCy }

/-- GOOSE_RETRANSMISSION (R265): the retransmission instant has passed; the requests of this cycle go first (R268). -/
def execGooseRetransmission (cb : Fin 2048) (s : State) : Host.Outcome State Fault Refusal :=
  whileOn 6 s <|
  let n := cb.val
  if (s.retxDue n).isSome then
    let l := s.pb.retx.filter (fun x => decide (x < n)) ++ [n] ++ s.pb.retx.filter (fun x => decide (n < x))
    .next { s with pb := { s.pb with retx := l } }
  else .next s

/-- A lane hands a request over in this cycle; requests of one cycle stand in ascending lane (R259, R268). -/
def State.askPub (s : State) (a : PubAsk) : State :=
  let l := s.pb.asks.filter (fun x => decide (x.lane ≤ a.lane)) ++ [a] ++ s.pb.asks.filter (fun x => decide (a.lane < x.lane))
  { s with pb := { s.pb with asks := l } }

/-- The hand-overs of this cycle from banks and lanes (R259, R268). -/
def State.publishCycle (s : State) : State :=
  let due := s.pb.samples.filter (fun (x : Nat × Nat × SvAsdu) => decide (x.1 ≤ s.cyc))
  let asks := s.pb.asks
  let s := { s with pb := { s.pb with asks := [], samples := s.pb.samples.filter (fun x => decide (s.cyc < x.1)) } }
  let s := due.foldl (fun (t : State) (x : Nat × Nat × SvAsdu) => svSample x.2.1 { x.2.2 with synch := t.smpSynch } t.cyc t) s
  asks.foldl (fun (t : State) a => (pubRequest a.cb a.items a.vi a.gen a.ready a.tick t).2) s

/-- The retransmissions of this cycle, after its requests (R268). -/
def State.retxCycle (s : State) : State := s.pb.retx.foldl (fun t n => retransmit n t) { s with pb := { s.pb with retx := [] } }

/-! ### Building (R270, R274) -/

/-- The signing slot's fetch and fit (R274, R419): algorithm, key identifier, tag length, key, and whether the slot serves. -/
def signKey (b : List Byte) (s : State) : Nat × Nat × Nat × List Byte × Bool × State :=
  if cbAuth b = 0 then (0, 0, 0, [], true, s)
  else
    let (k, ok, s) := s.ksFetch (cbKey b)
    let alg := kAlg k
    let family := if cbAuth b = 1 then alg == 1 || alg == 2 else alg == 3
    (alg, kKeyId k, kTagLen k, kKey k, ok && kState k == ksValid && !s.retired && family && bit (kUse k) useSign, s)

/-- Build the frame of a request in pipeline `p`. -/
def buildFrame (p : Nat) (j : Build) (s : State) : State :=
  let c := s.cb j.cb
  let b := c.bytes
  if !cbValid b ∨ s.badSpan (cbTpl b) (cbTplLen b) then s
  else
    let (alg, id, tagLen, key, ok, s) := signKey b s
    let carry : Carry := {
      sim := cbSim b, auth := cbAuth b, tagLen := tagLen, st := j.st, sq := j.sq, tal := j.tal, t := j.t, items := j.items
      asdus := j.asdus }
    let l := secure carry (spanOut j.asdus.length (patchNoAsdu (cbNasdu b) j.asdus.length (s.template b)))
      (Config.extMake alg id tagLen key)
    let done := s.cyc + (if cbAuth b = 2 then 819 else 179)
    let rel := cbSv b && cbRel b != 0 && cbRate b == 1 && cbNasdu b == 1
    let x : Built := {
      pipe := p, cb := j.cb, vi := j.vi, gen := j.gen, octets := l, start := s.cyc, done := done
      entry := if rel then max done (j.tickCy + cbRel b) else done, held := rel, keyBad := !ok, sq := j.sq
      smp := (j.asdus.getLast?.map (fun a => a.smp)).getD 0 }
    let s := { s with pb := { s.pb with built := s.pb.built ++ [x], busyTo := aput s.pb.busyTo p done } }
    if ok then s else (s.inc (cbCnt PB_ST3_KEY_ERR j.cb)).pbEvent PB_EVENT_KEY

/-- BUILD_START (R270): the oldest request of the kind takes the free pipeline with the lowest number. -/
def execBuildStart (fg : Bool) (s : State) : Host.Outcome State Fault Refusal :=
  whileOn 6 s <|
  let q := if fg then s.pb.fg else s.pb.bg
  match q, (s.pipesOf fg).find? (fun p => !s.pipeBusy p s.cyc) with
  | j :: rest, some p =>
    if s.cyc ≤ j.hand then .next s
    else .next (buildFrame p j { s with pb := if fg then { s.pb with fg := rest } else { s.pb with bg := rest } })
  | _, _ => .next s

/-! ### Entry into the Hall (R272, R273) -/

/-- Token-bucket level of instance `v`. -/
def State.tokens (s : State) (v : Nat) : Int := agetD s.pb.level v 0
def State.setTokens (s : State) (v : Nat) (n : Int) : State := { s with pb := { s.pb with level := cput 0 s.pb.level v n } }

/-- Replenish the buckets at a raised tick start (R273). -/
def replenish (s : State) : State :=
  let from' := 0x601000
  let vs := (s.regs.filter (fun (p : Nat × Word) => decide (from' ≤ p.1) && decide (p.1 < from' + 0x1000) && p.1 % 8 == 0)).map
    (fun (p : Nat × Word) => (p.1 - from') / 8) ++ s.pb.level.map (fun (p : Nat × Int) => p.1)
  (vs.eraseDups).foldl (fun (t : State) v =>
    let depth : Int := ((t.rd (PB_VI_TB_DEPTH.i v) * 64 : Nat) : Int)
    t.setTokens v (min (t.tokens v + (t.rd (PB_VI_TB_RATE.i v) : Int)) depth)) s

/-- The copies of a published frame: PORT_MASK within the VLAN's members, none of them while HL_CTRL.EN is 0 (R110), and the
tenant ring (R272). -/
def State.pubCopies (s : State) (b l : List Byte) : List Nat :=
  let h := header l
  let ps := maskList 19 (cbPorts b &&& s.member (s.vlanOf pI1 h))
  (if s.on0 HL_CTRL_EN then s.widen pI1 ps else []) ++ (if bit (cbPorts b) 21 then [pI2] else [])

/-- Whether a frame of length `len` fits instance `v`'s Larder share (R390, R391). -/
def State.inShare (s : State) (v len : Nat) : Bool :=
  decide (s.rd (VI_HELD_HELD.p v) + cellsOf len ≤ s.rd0 (VI_LSHARE_LSHARE.p v))

/-- A frame in its entry cycle passes the gate, the bucket, its instance's share and the Hall's admission (R272). -/
def enterFrame (x : Built) (s : State) : State :=
  let s := { s with pb := { s.pb with built := s.pb.built.erase x } }
  let s := s.setCb x.cb { s.cb x.cb with lastSq := x.sq }
  let b := (s.cb x.cb).bytes
  if x.keyBad then s
  else if !s.gate then (s.inc (cbCnt PB_ST2_GATED x.cb)).inc PB_G_GATED_ALL
  else if s.tokens x.vi < 0 then ((s.inc (PB_VI_TB_DROP.i x.vi)).inc (VI_CNT1_TB_DROP.p x.vi)).pbEvent PB_EVENT_TOKEN
  else
    let s := s.setTokens x.vi (s.tokens x.vi - (x.octets.length : Int))
    if !s.inShare x.vi (x.octets.length + 4) then (s.inc (VI_CNT1_SHARE_DROP.p x.vi)).inc (cbCnt PB_ST3_ADMIT x.cb)
    else
    let f : Frame := {
      octets := x.octets, len := x.octets.length + 4, stamp := s.nowStamp, stamp0 := (s.tb 0).val / uSt, base := s.gov, ingress := pI1
      vi := some x.vi, gen := x.gen, vlan := s.vlanOf pI1 (header x.octets), cls := cbClass b, ring := 4 + x.vi }
    let ps := s.pubCopies b x.octets
    let s := (countRx pI1 f.len s).settleAdmits
    let refused := ps.any (fun n => s.shut n || !s.takes n (cbClass b) (cellsOf f.len))
    let (ok, t) := hallEnter f ps (cbClass b) s
    let t := if refused then t.inc (cbCnt PB_ST3_ADMIT x.cb) else t
    if ok then (t.setCb x.cb { t.cb x.cb with lastSmp := x.smp }).incW PB_G_FRAMES 1 else t

/-- PUB_ENTRY (R272): the frame that pipeline `pipe` has built reaches its entry cycle. -/
def execPubEntry (pipe : Fin 6) (s : State) : Host.Outcome State Fault Refusal :=
  whileOn 6 s <|
  match s.pb.built.find? (fun x => x.pipe == pipe.val && !x.held && decide (x.entry ≤ s.cyc)) with
  | some x => .next (enterFrame x s)
  | none => .next s

/-- SV_REL_ENTRY (R269): the held frame of SV stream `k` enters in cycle REL_CY of its build tick. -/
def execSvRelEntry (k : Fin 64) (s : State) : Host.Outcome State Fault Refusal :=
  whileOn 6 s <|
  match s.pb.built.find? (fun x => x.cb == 2048 + k.val && x.held && decide (x.entry ≤ s.cyc)) with
  | some x => .next (enterFrame x s)
  | none => .next s

/-! ### Trip stages (R276, R277) -/

/-- Trip stage `k` and its replacement. -/
def State.trip (s : State) (k : Nat) : Trip := agetD s.pb.trips k {}
def State.setTrip (s : State) (k : Nat) (t : Trip) : State := { s with pb := { s.pb with trips := aput s.pb.trips k t } }

/-- CMD of pair `k` changes: the pad's change begins 48 cy later, and capture sees the level. -/
def State.setCmd (s : State) (k : Nat) (v : Bool) : State :=
  if s.on (PB_TRIP_CMD.i k) = v then s
  else
    let s := s.wr (PB_TRIP_CMD.i k) (b2n v)
    let s := { s with du := { s.du with cmds := s.du.cmds ++ [(s.cyc + 48, k, v)] } }
    s.binOpen 6 k v false s.nowStamp

/-- A K_TRIP request to pair `k` (R276, R277); in STANDBY_SYNC it is discarded (R470). -/
def tripRequest (k : Nat) (b : Bool) (s : State) : State :=
  if s.pairState = 2 then s
  else if !s.on (PB_TRIP_EN.i k) then s.inc (PB_TRIP_TRIP_REFUSED.i k)
  else
    let t := { s.trip k with last := s.clk.raised, watch := true }
    let cmd := s.on (PB_TRIP_CMD.i k)
    if b then (s.setTrip k { t with clearDue := false, setAt := if cmd then t.setAt else s.clk.lapse }).setCmd k true
    else if cmd ∧ s.clk.lapse < t.setAt + s.rd (PB_TRIP_MIN_ON_MS.i k) * uMs then s.setTrip k { t with clearDue := true }
    else (s.setTrip k { t with clearDue := false }).setCmd k false

/-- TRIP_MIN_ON_EXPIRY (R277): a deferred clear takes effect. -/
def execTripMinOnExpiry (k : Fin 12) (s : State) : Host.Outcome State Fault Refusal :=
  whileOn 6 s <|
  let t := s.trip k
  if t.clearDue ∧ t.setAt + s.rd (PB_TRIP_MIN_ON_MS.i k) * uMs ≤ s.clk.lapse then
    .next ((s.setTrip k { t with clearDue := false }).setCmd k false)
  else .next s

/-- TRIP_REFRESH_EXPIRY (R277): REFRESH_TK whole raised ticks have passed without a request. -/
def execTripRefreshExpiry (k : Fin 12) (s : State) : Host.Outcome State Fault Refusal :=
  whileOn 6 s <|
  let t := s.trip k
  let n := s.rd (PB_TRIP_REFRESH_TK.i k)
  if n ≠ 0 ∧ t.watch ∧ t.last + n < s.clk.raised then
    .next (((((s.setTrip k { t with clearDue := false, watch := false }).setCmd k false).inc
      (PB_TRIP_TRIP_STALE.i k))).pbEvent PB_EVENT_STALE)
  else .next s

/-! ### Reset of an instance and the registers (R279, R280) -/

/-- The GOOSE blocks among `sel` whose stNum or sqNum is about to become 0 have changed in this tick (R460). -/
def State.noteZeroed (s : State) (sel : Cb → Bool) : State :=
  (s.pb.cbs.filter (fun (p : Nat × Cb) => sel p.2 && !cbSv p.2.bytes && (p.2.st != 0 || p.2.sq != 0))).foldl
    (fun (t : State) p => t.notePub p.1) s

/-- The control blocks of a reset instance lose their published state. -/
def pubReset (v : Nat) (s : State) : State :=
  let t := s.noteZeroed (fun c => cbVi c.bytes == v)
  { t with pb := { t.pb with cbs := t.pb.cbs.map (fun (p : Nat × Cb) =>
      if cbVi p.2.bytes = v then (p.1, { p.2 with items := none, st := 0, sq := 0, at' := none, asdus := [] }) else p) } }

/-- Descriptors written before a raised tick start take effect (R280). -/
def applyCbs (s : State) : State :=
  let t := s.noteZeroed (fun c => c.next.any (fun b => !(cbValid c.bytes && cbValid b)))
  { t with pb := { t.pb with cbs := t.pb.cbs.map (fun (p : Nat × Cb) =>
      match p.2.next with
      | none => p
      | some b =>
        if cbValid p.2.bytes ∧ cbValid b then (p.1, { p.2 with bytes := b, next := none })
        else (p.1, { bytes := b })) } }

/-- The fields of a descriptor that a WRITE of a VALID block must not change (R280). -/
def cbFixed (b : List Byte) : List Byte :=
  splice (splice (splice b 0 (leBytes 2 (setBits (leAt b 0 2) 13 13 0))) 3 (List.replicate 5 0)) 16 (List.replicate 4 0)

/-- The contents that a WRITE of `b` gives a descriptor: its reserved bits read 0 (R5, R261). -/
def cbStored (b : List Byte) : List Byte :=
  leBytes 2 (setBits (leAt b 0 2) 12 9 0) ++ leBytes 1 (setBits (leAt b 2 1) 2 0 0) ++ slice b 3 1 ++ leBytes 4 (cbPorts b) ++
    leBytes 5 (cbTpl b) ++ leBytes 1 0 ++ leBytes 2 (cbTplLen b) ++ slice b 16 4 ++ leBytes 1 (cbNmem b) ++
    leBytes 1 (setBits (leAt b 21 1) 3 3 0) ++ leBytes 1 (cbRate b) ++ leBytes 1 (cbLag b) ++ leBytes 4 (cbRel b) ++
    List.replicate 36 0

/-- A command on PB_CB_CMD; VALID is that of the descriptor in force. -/
def pbCbCmd (cmd : Nat) (s : State) : State :=
  let n := min 2111 (s.rd PB_CB_IDX_IDX)
  let c := s.cb n
  let cur := c.next.getD c.bytes
  match cmd with
  | 1 => loadData 0x600040 16 c.bytes s
  | 2 =>
    let b := cbStored (s.dataBytes 0x600040 16)
    if cbValid c.bytes ∧ cbFixed c.bytes ≠ cbFixed b then s.pbEvent PB_EVENT_REFUSED else s.setCb n { c with next := some b }
  | 3 => s.setCb n { c with next := some (splice cur 0 (leBytes 2 (setBits (leAt cur 0 2) 15 15 0))) }
  | _ => s

/-- A write of PB_ST_IDX latches the block's state as the cycle began and clears its counters (R11, R280). -/
def pbStIdx (v : Nat) (s : State) : State :=
  let s := s.swPut 0x600080 v
  let n := min 2111 (v % 4096)
  let c := s.start.cb n
  let a := 0x3500000 + n * 0x10
  let s := (s.put 0x600090 (if cbSv c.bytes then c.lastSmp else c.st)).put 0x600094 (if cbSv c.bytes then 0 else c.lastSq)
  let s := (s.put 0x600098 (s.word0 (a + 8))).put 0x60009C (s.word0 (a + 12))
  (s.put (a + 8) (s.evWord (a + 8))).put (a + 12) (s.evWord (a + 12))

/-- Writes of the PB_ page. -/
def pbWrite (r : Requester) (o v : Nat) (s : State) : State :=
  if !s.mayWrite r then s.pbEvent PB_EVENT_REFUSED
  else if o = 0x14 then pbCbCmd (v % 4) s
  else if o = 0x10 then s.swPut 0x600010 (min 2111 (v % 4096))
  else if o = 0x80 then pbStIdx (min 2111 (v % 4096)) s
  else s.swPut (0x600000 + o) v

/-- Reads of the PB_ page that show the engine's own state. -/
def pbRead (o : Nat) (s : State) : Option (Nat × State) :=
  if o = 4 then
    let z := s.start
    let busy := (List.range 6).foldl (fun a p => a + b2n (z.pipeBusy p s.cyc) * 2 ^ p) 0
    some (setBits (setBits (s.word0 0x600004) 21 16 busy) 8 0 (min 256 z.pb.bg.length), s)
  else none

end Sys2Proof.Machine
end

