-- ==== Sys2Proof/Machine/Acq.lean ====
section
/-!
DEFINITION. Local acquisition (07_local_acquisition.md): codes and calibration, sample instants and completion, quality and
settling, thresholds, comparators, the clamp, the recording buffer and the hand-over to alignment and publication.
-/
namespace Sys2Proof.Machine

/-- The module is a BXM-5120, which has no local acquisition (R2, R4). -/
def State.is5120 (s : State) : Bool := s.rd PM_ID_DEVICE == 0x5120

/-- Set an AQ_EVENT bit (R210). -/
def State.aqEvent (s : State) (f : Fld) : State := s.event f ES_AQ

/-- Whether a bank produces samples. -/
def State.bankOn (s : State) (b : Nat) : Bool := s.on AQ_CTRL_EN && s.on (AQ_BANK_EN.i b)

def State.preset (s : State) (b : Nat) : Nat := s.rd (AQ_BANK_PRESET.i b)

/-- Settling count S of a preset and notch (R189, R191). -/
def settleCount (preset notch : Nat) : Nat :=
  match preset, notch with
  | 0, _ => 7
  | 1, _ => 5
  | 2, _ => 7
  | _, 0 => 13
  | _, 1 => 84
  | _, 2 => 36
  | _, _ => 32

/-- Latency L_p in ticks (R189, R191). -/
def latency (preset notch : Nat) : Nat :=
  match preset, notch with
  | 0, _ => 1
  | 1, _ => 2
  | 2, _ => 3
  | _, 0 => 24
  | _, 1 => 166
  | _, 2 => 70
  | _, _ => 62

def State.latencyOf (s : State) (b : Nat) : Nat := latency (s.preset b) (s.rd (AQ_BANK_NOTCH.i b))

/-- Output rate of a preset. -/
def bankRate (preset : Nat) : Nat := if preset = 0 then 14400 else if preset = 3 then 1200 else 4800

/-- Grid tick of absolute sample `k` (R193). -/
def sampleTick (preset k : Nat) : Nat := if preset = 0 then k / 3 else if preset = 3 then 4 * k else k

/-- First absolute sample whose tick is `g` or later. -/
def firstSample (preset g : Nat) : Nat := if preset = 0 then 3 * g else if preset = 3 then ceilDiv g 4 else g

/-- The bank's next sample, past ticks that the grid skipped (R201). -/
def State.nextSample (s : State) (b : Nat) : Nat :=
  let p := s.preset b
  let k := agetD s.aq.next b (firstSample p (s.tickG + 1 - s.latencyOf b))
  let g := sampleTick p k
  match s.tickSkip g with
  | some (_, hi) => firstSample p hi
  | none => k

/-- The CK_A edge of a raised tick that completes samples as its `j`-th (R195). -/
def completingEdge (j : Nat) : Nat := if j = 0 then 0 else if j = 1 then 854 else 1707

/-- The tick of the completing edge of sample `k` of a bank, and which of the tick's completing edges it is (R195). -/
def completing (preset lp k : Nat) : Nat × Nat := (sampleTick preset k + lp, if preset = 0 then k % 3 else 0)

/-- The samples of bank `b` that completing edge `j` of raised tick `g` completes: those whose own edge it is, and those whose edge
would have fallen where the synthesiser placed none (R195, R201). A sample of a skipped tick is not produced. -/
def bankEdge (b g j : Nat) : Nat → State → State
  | 0, s => s
  | n + 1, s =>
    let k := s.nextSample b
    let c := completing (s.preset b) (s.latencyOf b) k
    if c.1 < g ∨ (c.1 = g ∧ c.2 ≤ j) then
      bankEdge b g j n { s with aq := { s.aq with
        next := aput s.aq.next b (k + 1), due := s.aq.due ++ [(b, k, s.cyc)] } }
    else s

/-- The synthesiser places completing edge `j` of raised tick `g` (R25, R195). -/
def acqEdge (g j : Nat) (s : State) : State :=
  let t := (List.range 4).foldl (fun (u : State) b => if u.bankOn b then bankEdge b g j 4096 u else u) s
  { t with aq := { t.aq with placed := j + 1 } }

/-! ### The filter chain (R190, R191, R194) -/

/-- Every `n`-th element of a list, the first included. -/
def every (n : Nat) (l : List Int) : List Int := (List.range (ceilDiv l.length n)).map (fun i => l.getD (i * n) 0)

/-- The running sums over 64 bits of one CIC section, newest first. -/
def boxSums : List Int → List Int
  | [] => []
  | x :: t => ((x :: t).take 64).sum :: boxSums t

/-- A CIC of order `n`, decimating by 64 (R190). -/
def cic : Nat → List Int → List Int
  | 0, l => every 64 l
  | n + 1, l => cic n (boxSums l)

/-- A FIR over a list, newest first, and its outputs decimated by `d`. -/
def fir (c l : List Int) : Int := ((c.zip l).map (fun p => p.1 * p.2)).sum
def firEvery (c : List Int) (d : Nat) (l : List Int) : List Int :=
  (List.range (ceilDiv l.length d)).map (fun i => fir c (l.drop (i * d)))

/-- The order of a preset's CIC (R189). -/
def cicOrder (preset : Nat) : Nat := if preset = 0 then 3 else if preset = 1 then 4 else 5

/-- The chain ahead of the notch: modulator bits, newest first, through the padding, the CIC and both FIRs (R190). The second FIR
decimates by 20, so that its newest output is the one computed; in WIDE its branch `j` stands at edge 0, 854 or 1,707 (log
entry 91). -/
def chainOut (preset j : Nat) (bits : List Bool) : Int :=
  let x := (bits.drop (Config.padding preset + completingEdge j % 128)).map (fun b => if b then (1 : Int) else -1)
  Config.chainCode preset (fir (Config.fir2 preset j) (firEvery (Config.fir1 preset) 2 (cic (cicOrder preset) x)))

/-- Length of the moving average of a notch (R191). -/
def notchLen (notch : Nat) : Nat := if notch = 1 then 72 else if notch = 2 then 24 else if notch = 3 then 20 else 1

/-- The notch in DC: the mean of the chain's outputs for this sample and those before it, 2,560 bits apart (R191). -/
def notchOut (notch : Nat) (bits : List Bool) : Int :=
  let n := notchLen notch
  let x := ((List.range n).map (fun i => chainOut 3 0 (bits.drop (2560 * i)))).sum
  if x % (n : Int) = 0 then x / (n : Int) else x / (n : Int) + (b2n (Config.notchUp x n) : Int)

/-- The filter output of a channel for a sample, from its modulator's bits up to the completing edge, newest first: PHASE takes the
signal that many edges earlier, in steps of 4 in DC, where every fourth edge gives a bit (R190, R194). -/
def filterOut (preset notch phase j : Nat) (bits : List Bool) : Int :=
  if preset = 3 then notchOut notch (bits.drop (phase / 4)) else chainOut preset j (bits.drop phase)

/-- The corrected code (R188). -/
def satCode (x : Int) : Int := clampI (-8388608) 8388607 x
def corrected (raw ofs : Int) (gain : Nat) : Int := satCode (roundAway ((raw - ofs) * (gain : Int)) (2 ^ 22))

/-- Whether a code stands at a limit (R199). -/
def atLimit (x : Int) : Bool := decide (x = -8388608) || decide (x = 8388607)

/-- Modulator edges of a preset per second (R25, R189). -/
def edgeRate (preset : Nat) : Nat := if preset = 3 then 3072000 else 12288000

/-- Whether the clamp detector of channel `c` reported conduction at a modulator edge of its bank within a span given by two
instants (R25, R198, R200). -/
def State.conducted (s : State) (c lo hi : Nat) : Bool :=
  let rate := edgeRate (s.preset (c / 8))
  s.aq.cond.any (fun (p : Nat × Nat × Option Nat) =>
    p.1 == c &&
      (let first := ceilDiv (max lo p.2.1 * rate) uS
       decide (first * uS ≤ hi * rate) &&
         (match p.2.2 with
          | some e => decide (first * uS < e * rate)
          | none => true)))

/-- The quality word of the conditions in force: disabled or settling under causes 1–4, OVR, settling after OVERLOAD, partner clamp,
ZERO (R197). -/
def qualOf (settle ovr over' partner zero : Bool) : Nat :=
  let v := if settle || over' then 1 else if ovr || partner then 3 else 0
  v + b2n (ovr || over') * 4 + b2n partner * 0x200 + b2n zero * 0x800

/-- HI and LO of a channel after a code (R202). -/
def thrStep (hi lo : Bool) (code tHi tLo : Int) (hyst : Nat) : Bool × Bool :=
  (if tHi < code ∧ !hi then true else if code < tHi - hyst ∧ hi then false else hi,
   if code < tLo ∧ !lo then true else if tLo + hyst < code ∧ lo then false else lo)

/-- A change of HI or LO counts, raises the event and reaches capture. -/
def thrChange (c : Nat) (f : Fld) (kind : Nat) (v : Bool) (stamp : Nat) (s : State) : State :=
  if s.on (f.i c) = v then s
  else ((((s.wr (f.i c) (b2n v)).inc (AQ_CH_THR_EV.i c)).aqEvent AQ_EVENT_THR).binOpen kind c v false stamp)

/-- One channel of a completed sample: answers its code, quality, and the OVR and settling bits. A disabled channel's code is 0 and
carries no OVR (DEDUCED, log entry 91); its other conditions stand beside that of R197. -/
def chanSample (c : Nat) (raw : Int) (overload : Bool) (t lp : Nat) (s : State) : (Int × Nat × Bool × Bool) × State :=
    let en := s.on (AQ_CH_EN.i c)
    let r := satCode raw
    let code := if en then corrected r (s.rdS (AQ_CH_CAL_OFS.i c)) (s.rd (AQ_CH_CAL_GAIN.i c)) else 0
    let ovr := en && (overload || atLimit r || atLimit code)
    let was := s.aqCh c
    let partner := decide (c < 24) && s.conducted (if c % 2 = 0 then c + 1 else c - 1) (t - lp) (t + lp)
    let s := if was.wasOvr ∧ !ovr then s.settle c 5 else s
    let s := if was.wasPartner ∧ !partner then s.settle c 6 else s
    let x := s.aqCh c
    let settling := x.settling
    let mark := partner || decide (0 < x.leftClamp)
    let zero := decide (c < 24) && s.on (AQ_CH_SRC.i c)
    let q := qualOf (!en || decide (0 < x.left)) ovr (decide (0 < x.leftOvl)) mark zero
    let s := s.setAqCh c { x with
      left := x.left - 1, leftOvl := x.leftOvl - 1, leftClamp := x.leftClamp - 1, wasOvr := ovr, wasPartner := partner }
    let s := ((s.wr (AQ_CH_OVR.i c) (b2n ovr)).wr (AQ_CH_SETTLING.i c) (b2n settling)).wr (AQ_CH_CLAMP_MARK.i c) (b2n mark)
    let s := if ovr ∧ !was.wasOvr then (s.inc (AQ_CH_OVR_EP.i c)).aqEvent AQ_EVENT_OVR else s
    let s :=
      if s.on (AQ_CH_THR_EN.i c) ∧ en ∧ !settling then
        let n := thrStep (s.on (AQ_CH_HI.i c)) (s.on (AQ_CH_LO.i c)) code (s.rdS (AQ_CH_THR_HI.i c)) (s.rdS (AQ_CH_THR_LO.i c))
          (s.rd (AQ_CH_THR_HYST.i c))
        thrChange c AQ_CH_LO 4 n.2 (t / uSt) (thrChange c AQ_CH_HI 3 n.1 (t / uSt) s)
      else s
    ((code, q, ovr, settling), s)

/-- The channels of a bank in order. -/
def bankSample (b t lp : Nat) (raw : List Int) (ovr : Nat) : List Nat → State → List (Int × Nat × Bool × Bool) × State
  | [], s => ([], s)
  | i :: rest, s =>
    let (x, s) := chanSample (8 * b + i) (raw.getD i 0) (bit ovr i) t lp s
    let (l, s) := bankSample b t lp raw ovr rest s
    (x :: l, s)

/-- The entry of the recording buffer for a sample, whose write begins in cycle `cyc` (R195, R206). -/
def bufferEntry (b k t cyc : Nat) (l : List (Int × Nat × Bool × Bool)) (s : State) : State :=
  if s.rd (AQ_BUF_SIZE_LOG2.i b) = 0 then s
  else
    let p := s.preset b
    let mask := fun (f : Int × Nat × Bool × Bool → Bool) => (l.zipIdx).foldl (fun a (x : (Int × Nat × Bool × Bool) × Nat) =>
      a + b2n (f x.1) * 2 ^ x.2) 0
    let bytes := l.flatMap (fun (x : Int × Nat × Bool × Bool) => leBytes 4 (toBits 32 x.1)) ++
      l.flatMap (fun (x : Int × Nat × Bool × Bool) => leBytes 2 x.2.1) ++ leBytes 4 (t / uS) ++
      leBytes 2 (sampleTick p k % 4800 + (if p = 0 then k % 3 else 0) * 8192) ++ leBytes 1 (mask (fun x => x.2.2.1)) ++
      leBytes 1 (mask (fun x => x.2.2.2))
    let seq := (s.rd (AQ_BUF_SEQ.i b) + (s.aq.entries.filter (fun e => e.bank == b)).length) % 2 ^ 32
    { s with aq := { s.aq with entries := s.aq.entries ++ [{ cyc := cyc, bank := b, seq := seq, bytes := bytes }] } }

/-- Bytes of an entry to DRAM; nothing reaches the boot region or lies beyond the DRAM (R32; DESIGN CHOICE, log entry 91). -/
def bufferStore (a : Nat) (l : List Byte) (s : State) : State := if a + l.length ≤ addrBoot then s.store a l else s

/-- An entry's write goes on, in the place of its number: bytes 0–47 in its first cycle, bytes 48–63 in the next, and then SEQ and BUF
(R195, R206, R207). -/
def entryWrite (e : AqEntry) (s : State) : State :=
  let b := e.bank
  let size := s.rd (AQ_BUF_SIZE_LOG2.i b)
  let seq := e.seq
  let a := s.rd (AQ_BUF_BASE_LO.i b) * 4096 + s.rd (AQ_BUF_BASE_HI.i b) * 2 ^ 32 + seq % 2 ^ size * 64
  if size = 0 ∨ !s.bankOn b ∨ s.cyc < e.cyc then s
  else if !e.half then bufferStore a (e.bytes.take 48) s
  else
    let s := (bufferStore (a + 48) (e.bytes.drop 48 ++ leBytes 4 seq ++ leBytes 4 0) s).incW (AQ_BUF_SEQ.i b) 1
    if (seq + 1) % 2 ^ min size (s.rd (AQ_BUF_IRQ_LOG2.i b)) = 0 then s.aqEvent AQ_EVENT_BUF else s

/-- The value at which the samples of completing edge `j` of the last raised tick complete: at that edge, or at the first edge of the
tick after a step that jumped it; none where no edge is left (R25, R195, R201). -/
def State.edgeAt (s : State) (j : Nat) : Option Nat :=
  let t := tickRep s.tickG
  let k := max (completingEdge j) (ceilDiv ((s.aq.edgeFrom - t) * 12288000) uS)
  if k < 2560 then some (t + ceilDiv (k * uS) 12288000) else none

/-- What acquisition does of itself in a cycle: it places the completing edges of the tick, and writes entries of the recording
buffers. -/
def State.acqCycle (s : State) : State :=
  let s :=
    match [2, 1, 0].find? (fun j => decide (s.aq.placed ≤ j) && (s.edgeAt j).any (fun v => decide (v ≤ s.now))) with
    | some j => acqEdge s.tickG j s
    | none => s
  let l := s.aq.entries
  let t := l.foldl (fun (u : State) e => entryWrite e u) s
  { t with aq := { t.aq with entries := (l.filter (fun e => !e.half || decide (s.cyc < e.cyc))).map (fun e =>
      if e.cyc ≤ s.cyc then { e with half := true } else e) } }

/-- A published quantity: the code times PUB_SCALE rounded to nearest even; beyond INT32 it saturates and is marked (R208). What a
PUB_SCALE without a product gives is free (DESIGN CHOICE, log entry 91). -/
def pubQuantity (code : Int) (scale q : Nat) : Int × Nat :=
  let mark := fun (q : Nat) => (if q % 4 = 1 then q else q / 4 * 4 + 3) ||| 4
  match f32.exact scale with
  | .fin neg p d =>
    let m := divRne (code.natAbs * p) d
    let v := sgn (neg != decide (code < 0)) m
    let w := clampI (-2147483648) 2147483647 v
    (w, if w = v then q else mark q)
  | .inf neg =>
    if code = 0 then (Config.noQuantity code scale, q)
    else (if neg != decide (code < 0) then -2147483648 else 2147483647, mark q)
  | .nan => (Config.noQuantity code scale, q)

/-- Requests of a sample's Pantry writes, for every local stream of the bank (R180, R195). -/
def localSamples (b cyc idx sec : Nat) (vals : List (Int × Nat)) (s : State) : State :=
  if s.on AL_CTRL_EN then
    (s.al.str.filter (fun (p : Nat × Stream) => dValid p.2.bytes && dLocal p.2.bytes && dBank p.2.bytes == b)).foldl
      (fun (t : State) (p : Nat × Stream) =>
        let (n, t) := t.fresh
        let x : Sample := {
          cyc := cyc, port := b, stream := p.1, vals := vals, smpCnt := idx, synch := 0, stamp := n, sim := false, loc := true
          sec := sec }
        { t with al := { t.al with locQ := aput t.al.locQ b (agetD t.al.locQ b [] ++ [x]) } }) s
  else s

/-- What a completed sample brings: its Pantry writes, its buffer entry and its publication hand-over, all 100 cycles after its
completing edge, which lay in cycle `edge` (R195). -/
def sampleOut (b k edge : Nat) (outs : List Int) (ovr : Nat) (s : State) : State :=
  let p := s.preset b
  let rate := bankRate p
  let t := tickRep (sampleTick p k) + (if p = 0 then k % 3 * uS / 14400 else 0)
  let lp := s.latencyOf b * (uS / 4800)
  let cyc := edge + 100
  let (l, s) := bankSample b t lp outs ovr (List.range 8) s
  let vals := l.map (fun (x : Int × Nat × Bool × Bool) => (x.1, x.2.1))
  let s := localSamples b cyc (k % rate) (k / rate) vals (bufferEntry b k t cyc l s)
  let quants := (vals.zipIdx).map (fun (x : (Int × Nat) × Nat) =>
    pubQuantity x.1.1 (s.rd (AQ_CH_PUB_SCALE.i (8 * b + x.2))) x.1.2)
  if p = 3 then s else queueSample b { k := k, smp := k % rate, synch := s.smpSynch, quants := quants } cyc s

/-- The filter outputs of a bank's channels for its sample `k` (R190, R191, R194). -/
def State.bankOut (s : State) (b k : Nat) (bits : List (List Bool)) : List Int :=
  let p := s.preset b
  (List.range 8).map (fun i =>
    filterOut p (s.rd (AQ_BANK_NOTCH.i b)) (s.rd (AQ_CH_PHASE.i (8 * b + i))) (completing p 0 k).2 (bits.getD i []))

/-- The oldest sample of bank `b` whose completing edge has been placed: its number and the cycle of that edge. -/
def State.acqDue (s : State) (b : Nat) : Option (Nat × Nat) := (s.aq.due.find? (fun p => p.1 == b)).map (fun p => p.2)

/-- ACQ_SAMPLE_COMPLETE (R195): 96 cycles after its completing edge the next sample of bank `b` is complete; `bits` are the bits
that the modulators of its channels gave up to that edge, newest first, and `ovr` marks the channels whose modulator was overloaded
within the span. -/
def execAcqSampleComplete (b : Fin 4) (bits : List (List Bool)) (ovr : BitVec 8) (s : State) :
    Host.Outcome State Fault Refusal :=
  whileOn 12 s <|
  match s.acqDue b with
  | none => .next s
  | some (k, c) =>
    if !s.bankOn b ∨ s.cyc < c + 96 then .next s
    else
      .next (sampleOut b k c (s.bankOut b k bits) ovr.toNat
        { s with aq := { s.aq with due := s.aq.due.filter (fun p => !(p.1 == b.val && p.2.1 == k)) } })

/-! ### Clamp and comparators (R200, R203, R204) -/

/-- Channels of pair `k` that conduct now. -/
def State.conducting (s : State) (c : Nat) : Bool := s.aq.cond.any (fun (p : Nat × Nat × Option Nat) => p.1 == c && p.2.2.isNone)

/-- CLAMP_CONDUCTION (R200): the detector reports conduction at the edges from now on, or from the first that the synthesiser places
after a step. -/
def execClampConduction (ch : Fin 24) (s : State) : Host.Outcome State Fault Refusal :=
  whileOn 12 s <|
  if s.conducting ch then .next s
  else
    let k := ch.val / 2
    let was := bit (s.rd AQ_STATUS_CLAMP) k
    let s := { s with aq := { s.aq with cond := s.aq.cond ++ [(ch.val, max s.now s.aq.edgeFrom, none)] } }
    let s := s.wr AQ_STATUS_CLAMP (s.rd AQ_STATUS_CLAMP ||| 2 ^ k)
    .next (if was then s else s.aqEvent AQ_EVENT_CLAMP)

/-- CLAMP_END (R200): conduction has ended; the partner settles from its first sample whose span holds none of it. -/
def execClampEnd (ch : Fin 24) (s : State) : Host.Outcome State Fault Refusal :=
  whileOn 12 s <|
  if !s.conducting ch then .next s
  else
    let k := ch.val / 2
    let s := { s with aq := { s.aq with cond := s.aq.cond.map (fun (p : Nat × Nat × Option Nat) =>
      if p.1 = ch.val ∧ p.2.2.isNone then (p.1, p.2.1, some s.now) else p) } }
    let still := s.conducting (2 * k) || s.conducting (2 * k + 1)
    .next (if still then s else s.wr AQ_STATUS_CLAMP (setBits (s.rd AQ_STATUS_CLAMP) k k 0))

/-- The edges that the comparator of channel `c` sees as the differential input comes to `uv` µV, in the order in which the input
passes its levels; the hysteresis is taken as its typical 8 mV (R203; DESIGN CHOICE, log entry 91). -/
def State.cmpEdges (s : State) (c : Nat) (uv : Int) : List Nat :=
  let hi := s.rdS (AQ_CH_CMP_HI.i c) * 16000
  let lo := s.rdS (AQ_CH_CMP_LO.i c) * 16000
  let x := s.aqCh c
  let up := (if x.below ∧ lo + 8000 < uv then [3] else []) ++ (if !x.above ∧ hi < uv then [0] else [])
  let down := (if x.above ∧ uv < hi - 8000 then [1] else []) ++ (if !x.below ∧ uv < lo then [2] else [])
  up ++ down

/-- The comparator's levels after an edge. -/
def AqCh.cmpStep (x : AqCh) (edge : Nat) : AqCh :=
  match edge with
  | 0 => { x with above := true }
  | 1 => { x with above := false }
  | 2 => { x with below := true }
  | _ => { x with below := false }

/-- A comparator edge stamped at `t` ns of base `tb`, delivered in cycle `due`: the stamp queue takes it, or counts it as lost, and
capture sees it (R204). -/
def cmpStamp (due c edge tb t : Nat) (s : State) : State :=
  let x := s.aqCh c
  let s :=
    if 16 ≤ x.tdc.length then (s.inc (AQ_CH_TDC_LOST.i c)).aqEvent AQ_EVENT_TDC_LOST
    else s.setAqCh c { x with tdc := x.tdc ++ [(edge, tb, t)] }
  s.binAt due 5 (2 * c + b2n (decide (2 ≤ edge))) (edge % 2 == 0) false (t * 65536) 1

/-- The comparator edges whose delivery begins with the next cycle. -/
def State.cmpCycle (s : State) : State :=
  let due := s.aq.edges.filter (fun (e : Nat × Nat × Nat × Nat × Nat) => decide (e.1 ≤ s.cyc + 1))
  let t := { s with aq := { s.aq with
    edges := s.aq.edges.filter (fun (e : Nat × Nat × Nat × Nat × Nat) => decide (s.cyc + 1 < e.1)) } }
  due.foldl (fun (u : State) (e : Nat × Nat × Nat × Nat × Nat) => cmpStamp e.1 e.2.1 e.2.2.1 e.2.2.2.1 e.2.2.2.2 u) t

/-- COMPARATOR_EDGE (R203, R204): `sub` · 2⁻¹⁶ of a cycle after the start of this cycle, the comparator of channel `ch` has seen the
differential input come to `uv` µV. Each edge is stamped in whole nanoseconds of the governing base, less the propagation delay of
85 ns, and delivered 32 cycles later (R288); without CMP_EN the comparator's levels follow and nothing is reported. -/
def execComparatorEdge (ch : Fin 24) (sub : Fin 65536) (uv : Int) (s : State) : Host.Outcome State Fault Refusal :=
  whileOn 12 s <|
  let t := s.stampIn s.gov sub / 65536 - 85
  .next ((s.cmpEdges ch uv).foldl (fun (u : State) e =>
    let v := u.setAqCh ch ((u.aqCh ch).cmpStep e)
    if s.on (AQ_CH_CMP_EN.i ch) then { v with aq := { v.aq with edges := v.aq.edges ++ [(s.cyc + 32, ch.val, e, s.gov, t)] } }
    else v) s)

/-! ### Registers (R192, R209) -/

/-- Bank `b` starts: its samples begin with the next to complete. -/
def bankStart (b : Nat) (s : State) : State :=
  let k := firstSample (s.preset b) (s.tickG + 1 - s.latencyOf b)
  let k := match aget s.aq.next b with
    | some j => max j k
    | none => k
  { s with aq := { s.aq with next := aput s.aq.next b k } }

/-- Bank `b` stops: samples that are not complete are not produced, and no more entries are written. -/
def bankStop (b : Nat) (s : State) : State :=
  { s with aq := { s.aq with
    due := s.aq.due.filter (fun p => p.1 != b), entries := s.aq.entries.filter (fun e => e.bank != b) } }

/-- A write of AQ_BANK_b. -/
def aqBank (b v : Nat) (s : State) : State :=
  let was := s.on (AQ_BANK_EN.i b)
  if was ∧ (bits v 27 26 ≠ s.preset b ∨ bits v 25 24 ≠ s.rd (AQ_BANK_NOTCH.i b)) then s.aqEvent AQ_EVENT_REFUSED
  else
    let changed := bits v 27 26 != s.preset b
    let s := s.swPut (0x900010 + 4 * b) v
    let s := s.wr (AQ_BANK_SETTLE.i b) (settleCount (bits v 27 26) (bits v 25 24))
    let s := if changed then { s with aq := { s.aq with next := adel s.aq.next b } } else s
    if !was ∧ s.on (AQ_BANK_EN.i b) then
      (if s.on AQ_CTRL_EN then bankStart b s else s).settleAll ((List.range 8).map (fun i => 8 * b + i)) 1
    else if was ∧ !s.on (AQ_BANK_EN.i b) then bankStop b s
    else s

/-- A write of a channel's configuration: EN, SRC and PHASE mark it with their settle causes (R198). -/
def aqChCfg (c v : Nat) (s : State) : State :=
  let old := s.word (0x900100 + c * 0x20)
  let s := s.swPut (0x900100 + c * 0x20) v
  let s := s.wr (AQ_CH_PHASE.i c) (min 2559 (v % 4096))
  let s := if !bit old 31 ∧ bit v 31 then s.settle c 1 else s
  let s := if bit old 30 != bit v 30 ∧ c < 25 then s.settle c 2 else s
  if old % 4096 ≠ min 2559 (v % 4096) then s.settle c 3 else s

/-- A write of AQ_CTRL: EN set starts the enabled banks and marks each enabled channel, EN clear stops every bank (R198, R209). -/
def aqCtrl (v : Nat) (s : State) : State :=
  let was := s.on AQ_CTRL_EN
  let s := s.swPut 0x900000 v
  if !was ∧ s.on AQ_CTRL_EN then
    ((List.range 4).foldl (fun (t : State) b => if t.on (AQ_BANK_EN.i b) then bankStart b t else t) s).settleAll
      (List.range 32) 1
  else if was ∧ !s.on AQ_CTRL_EN then (List.range 4).foldl (fun (t : State) b => bankStop b t) s
  else s

/-- Writes of the AQ_ page. -/
def aqWrite (r : Requester) (o v : Nat) (s : State) : State :=
  if !s.mayWrite r then s.aqEvent AQ_EVENT_REFUSED
  else if o = 0 then aqCtrl v s
  else if 0x10 ≤ o ∧ o < 0x20 then aqBank ((o - 0x10) / 4) v s
  else if 0x40 ≤ o ∧ o < 0x80 then
    let b := (o - 0x40) / 0x10
    if s.on (AQ_BANK_EN.i b) then s.aqEvent AQ_EVENT_REFUSED
    else
      let s := s.swPut (0x900000 + o) v
      if o % 0x10 = 8 then
        let n := bits v 20 16
        s.wr (AQ_BUF_SIZE_LOG2.i b) (if n = 0 then 0 else clampN 6 20 n)
      else s
  else if 0x100 ≤ o ∧ o % 0x20 = 0 then aqChCfg ((o - 0x100) / 0x20) v s
  else s.swPut (0x900000 + o) v

/-- The stamp queue that AQ_TDC_W0–W3 show. -/
def State.tdcQueue (s : State) : List (Nat × Nat × Nat) :=
  let c := s.rd AQ_TDC_IDX_CH
  if c < 24 then (s.aqCh c).tdc else []

/-- Remove the oldest stamp of channel `c`, which a read of the cycle has shown. -/
def tdcPop (c : Nat) (s : State) : State :=
  let z := s.start
  let drop := fun (x : AqCh) => { x with tdc := x.tdc.drop 1 }
  let t := s.setAqCh c (drop (s.aqCh c))
  { t with arch := { t.arch with at0 := { t.arch.at0 with aq := (z.setAqCh c (drop (z.aqCh c))).aq } } }

/-- Reads of the AQ_ page that show acquisition's own state as it stood at the start of the cycle (R11); reading W3 removes the
entry. -/
def aqRead (o : Nat) (s : State) : Option (Nat × State) :=
  let z := s.start
  if o = 4 then
    let run := (List.range 4).foldl (fun a b => a + b2n (z.bankOn b) * 2 ^ b) 0
    let set := (List.range 4).foldl (fun a b => a + b2n ((List.range 8).any (fun i =>
      z.bankOn b && (z.aqCh (8 * b + i)).settling)) * 2 ^ b) 0
    some (setBits (setBits (s.word0 0x900004) 19 16 run) 15 12 set, s)
  else if 0x90 ≤ o ∧ o < 0xA0 then
    match z.tdcQueue with
    | [] => some (0, s)
    | (e, tb, t) :: rest =>
      let sec := t / 1000000000
      match (o - 0x90) / 4 with
      | 0 => some (2 ^ 31 + e * 2 ^ 29 + (rest.length + 1) * 2 ^ 16, s)
      | 1 => some (sec % 2 ^ 32, s)
      | 2 => some (tb * 2 ^ 30 + t % 1000000000, s)
      | _ => some (sec / 2 ^ 32 % 2 ^ 16, tdcPop (z.rd AQ_TDC_IDX_CH) s)
  else none

end Sys2Proof.Machine
end

