-- ==== Sys2Proof/Machine/Drive.lean ====
section
/-!
DEFINITION. Drive unit and sense inputs (13_drive_unit.md): PWM pairs with dither, shadows, dead time and short pulses, the grid lock,
the coil drive, fault inputs, and the stamped and debounced sense inputs.
-/
namespace Sys2Proof.Machine

/-- Pair `k` beside its registers, and its replacement; PHASE and ARMED follow. -/
def State.duPair (s : State) (k : Nat) : DuPair := agetD s.du.pair k {}
def State.setDuPair (s : State) (k : Nat) (p : DuPair) : State :=
  (({ s with du := { s.du with pair := aput s.du.pair k p } } : State).wr (DU_P_PHASE.i k) (b2n (p.phase == 3))).wr
    (DU_P_ARMED.i k) (b2n p.armed.isSome)

/-- Set an event flag of the unit (R327). -/
def State.duEvent (s : State) (f : Fld) : State := s.event f ES_DU

/-- The unit is powered and enabled; pair `k` also. -/
def State.duOn (s : State) : Bool := s.on DU_CTRL_EN && s.dom 13 == 1
def State.padPairOn (s : State) (k : Nat) : Bool := s.on (DU_P_EN.i k) && s.dom 13 == 1

/-- Whether a fault holds the pads of pair `k` off (R324). -/
def State.duHeld (s : State) (k : Nat) : Bool := (s.duPair k).hold.any (fun (p : Nat × Nat) => decide (p.2 ≤ s.cyc))

/-- The pads DU_H_k and DU_L_k: active or not (R314). -/
def State.duPads (s : State) (k : Nat) : Bool × Bool :=
  let p := s.duPair k
  let ok := s.duOn && s.padPairOn k && !s.duHeld k
  let wait := fun (h : Bool) => match p.turn with
    | some (h', _, some on) => h' == h && decide (s.cyc < on)
    | some (h', _, none) => h' == h
    | none => false
  (ok && p.h && !p.l && !wait true, ok && p.l && !p.h && !wait false)

/-- Four bits reversed (R316). -/
def rev4 (k : Nat) : Nat := k % 2 * 8 + k / 2 % 2 * 4 + k / 4 % 2 * 2 + k / 8 % 2

/-- Whole counts of a value in sixteenths for period `k` of the dither (R316). -/
def dithered (x k : Nat) : Nat := x / 16 + b2n (decide (rev4 (k % 16) < x % 16))

/-- DT_MAX, at least DT_MIN (R318). -/
def State.dtMax (s : State) (k : Nat) : Nat := max (s.rd (DU_P_DT_MAX.i k)) (s.rd (DU_P_DT_MIN.i k))

/-- An event of pair `k`, 0 ZERO, 1 CMPA, 2 CMPB, 3 PERIOD, counted by its prescaler (R320). -/
def pwmEvent (k e : Nat) (s : State) : State :=
  let p := s.duPair k
  let n := p.presc.getD e 0
  let pass := decide (s.rd (DU_P_PRESC.i k) ≤ n)
  let s := s.setDuPair k { p with presc := p.presc.set e (if pass then 0 else n + 1) }
  if pass then
    let s := if bit (s.rd (DU_P_IRQ_EN.i k)) e then (s.setBitsEv DU_PEND_PEND.addr (2 ^ k)).raise ES_DU else s
    if bit (s.rd (DU_P_TRG_EN.i k)) e then s.binOpen 8 k true true s.nowStamp else s
  else s

/-- An edge of pair `k` to DU_H (`h`) or to DU_L: the outgoing pad turns off, and the incoming one after the dead time; at once where
the other pad was off (R318). -/
def pwmEdge (k : Nat) (h : Bool) (s : State) : State :=
  let p := s.duPair k
  if (if h then p.h else p.l) then s
  else
    let other := (if h then p.l else p.h) && p.turn.isNone
    let fixed := !s.on (DU_P_ADAPT.i k) || (s.rd (DU_P_MODE.i k) == 2 && h)
    let turn := if other then some (h, s.cyc, if fixed then some (s.cyc + 2 * s.rd (DU_P_DT_MIN.i k)) else none) else none
    s.setDuPair k { p with h := h, l := !h, turn := turn }

/-- The incoming pad of pair `k` turns on, `dt` counts after the other turned off. -/
def turnOn (k : Nat) (h : Bool) (dt : Nat) (s : State) : State :=
  (s.setDuPair k { s.duPair k with turn := none }).wr (if h then DU_P_DT_H.i k else DU_P_DT_L.i k) dt

/-- Load the shadows in force at a zero event (R317). -/
def loadShadows (k : Nat) (s : State) : State :=
  let p := s.duPair k
  if s.on (DU_P_LOAD.i k) then
    let take := fun (w : Option (Nat × Nat)) (f : Fld) (t : State) => match w with
      | some (v, c) => if c < s.cyc then (t.wr (f.i k) v, true) else (t, false)
      | none => (t, false)
    let (s, a) := take p.perW DU_P_PER_ACT s
    let (s, b) := take p.dutyW DU_P_DUTY_ACT s
    if a || b then
      let p' := { s.duPair k with perW := if a then none else p.perW, dutyW := if b then none else p.dutyW, k := 0 }
      let s := s.setDuPair k p'
      if s.rd (DU_P_PER_ACT.i k) < s.rd (DU_P_DUTY_ACT.i k) then (s.inc (DU_P_CLAMP.i k)).duEvent DU_EVENT_CLAMP else s
    else s
  else
    match p.armed with
    | some (per, duty, c) =>
      if c < s.cyc then ((s.setDuPair k { p with armed := none, k := 0 }).wr (DU_P_PER_ACT.i k) per).wr (DU_P_DUTY_ACT.i k) duty
      else s
    | none => s

/-- GRID_K held within its range, and zero event `i` of a triad in eighths of a cycle after its tick 0 (R322). -/
def State.gridK (s : State) (k : Nat) : Nat := clampN 1 4096 (s.rd (DU_P_GRID_K.i k))
def State.gridZero (s : State) (k i : Nat) : Nat := 5000000 * i / s.gridK k

/-- Zero event `i` of the triad of pair state `p`: none where it is that of the next triad's tick 0, unless that tick will not be
raised, in which case periods run on at nominal length (R322). -/
def State.gridNext (s : State) (k : Nat) (p : DuPair) (i : Nat) : Option Nat :=
  if i < s.gridK k ∨ p.gridG + 3 < s.dueTick then some (p.gridCy * 8 + s.gridZero k i) else none

/-- The tick-start event of a tick 0 falls within the next count. -/
def State.triadNear (s : State) : Bool :=
  s.dueTick % 3 == 0 && decide (tickRep s.dueTick ≤ s.now + 2 * s.incNow s.gov)

/-- The short-pulse check of a period of `len` sixteenths of a count: the duty in counts that runs, and the event (R319). A duty of 0
or of the whole period is not checked (R315). -/
def shortCheck (k len duty : Nat) (s : State) : Nat × State :=
  let m := 16 * (s.rd (DU_P_MIN_PULSE.i k) + s.dtMax k)
  let full := ceilDiv len 16
  let short := fun (n : Nat) => decide (0 < n) && decide (n < m)
  if duty = 0 ∨ len ≤ 16 * duty ∨ (!short (16 * duty) ∧ !short (len - 16 * duty)) then (duty, s)
  else if !s.on (DU_P_POLICY.i k) then
    (if short (16 * duty) then 0 else full, (s.inc (DU_P_PULSE_SKIP.i k)).duEvent DU_EVENT_PULSE)
  else
    let s := (s.inc (DU_P_PULSE_STRETCH.i k)).duEvent DU_EVENT_PULSE
    if short (16 * duty) then
      let d := min (m / 16) full
      (if short (len - 16 * d) then full else d, s)
    else
      let d := (len - min m len) / 16
      (if short (16 * d) then 0 else d, s)

/-- CYCLE faults whose input is not recognised release the pads at a zero event (R324). -/
def releaseCycle (k : Nat) (s : State) : State :=
  let p := s.duPair k
  s.setDuPair k { p with hold := p.hold.filter (fun (x : Nat × Nat) =>
    s.on (DU_FLT_LATCHED.i x.1) || s.on (DU_FLT_RECOG.i x.1) || decide (s.cyc < x.2)) }

/-- PWM_ZERO_EVENT (R315): the period begins. -/
def execPwmZeroEvent (k : Fin 12) (s : State) : Host.Outcome State Fault Refusal :=
  whileOn 13 s <|
  match (s.duPair k).nextZ with
  | none => .next s
  | some z =>
    if s.cyc * 8 < z ∨ !s.padPairOn k then .next s
    else
      let s := loadShadows k (releaseCycle k s)
      let p := s.duPair k
      let grid := s.rd (DU_P_MODE.i k) == 1
      let p := if p.phase = 2 then { p with phase := 3, k := 0 } else p
      let len :=
        if grid then s.gridZero k (p.gridI + 1) - s.gridZero k p.gridI
        else max 64 (dithered (s.rd (DU_P_PER_ACT.i k)) p.k) * 16
      let duty := min (ceilDiv len 16) (dithered (s.rd (DU_P_DUTY_ACT.i k)) p.k)
      let peak := p.phase == 1
      let (duty, s) := if peak then (ceilDiv len 16, s) else shortCheck k len duty s
      let next := if grid then s.gridNext k p (p.gridI + 1) else some (z + len)
      let s := s.setDuPair k { p with
        zero := some z, nextZ := next, len := len, duty := duty, cmpa := false, cmpb := false, last := false, k := (p.k + 1) % 16
        gridI := p.gridI + 1 }
      let s := pwmEdge k (decide (0 < duty)) s
      .next (pwmEvent k 0 s)

/-- Whether the pair's counter has reached count `n` of the period in progress. -/
def State.atCount (s : State) (k n : Nat) : Bool :=
  match (s.duPair k).zero with
  | some z => s.padPairOn k && decide (z + n * 16 ≤ s.cyc * 8)
  | none => false

/-- PWM_CMPA_EVENT (R315): DU_H turns off and DU_L follows after its dead time. -/
def execPwmCmpaEvent (k : Fin 12) (s : State) : Host.Outcome State Fault Refusal :=
  whileOn 13 s <|
  let p := s.duPair k
  if p.cmpa ∨ p.len ≤ p.duty * 16 ∨ !s.atCount k p.duty then .next s
  else
    let s := s.setDuPair k { p with cmpa := true }
    .next (pwmEvent k 1 (if p.phase = 1 ∨ p.phase = 2 then s else pwmEdge k false s))

/-- PWM_CMPB_EVENT (R315). -/
def execPwmCmpbEvent (k : Fin 12) (s : State) : Host.Outcome State Fault Refusal :=
  whileOn 13 s <|
  let p := s.duPair k
  let n := s.rd (DU_P_CMPB.i k)
  if p.cmpb ∨ p.len ≤ n * 16 ∨ !s.atCount k n then .next s
  else .next (pwmEvent k 2 (s.setDuPair k { p with cmpb := true }))

/-- The period in progress has reached its last count; the last one of a triad ends with the next tick 0 (R315, R322). -/
def State.lastCount (s : State) (k : Nat) : Bool :=
  let p := s.duPair k
  if p.nextZ.isNone then s.padPairOn k && p.zero.isSome && s.triadNear else s.atCount k (p.len / 16 - 1)

/-- PWM_PERIOD_EVENT (R315): the last count of the period. -/
def execPwmPeriodEvent (k : Fin 12) (s : State) : Host.Outcome State Fault Refusal :=
  whileOn 13 s <|
  let p := s.duPair k
  if p.last ∨ !s.lastCount k then .next s
  else .next (pwmEvent k 3 (s.setDuPair k { p with last := true }))

/-- SWN_SWING (R318): the comparator reports a level; the expected one turns the incoming pad on, not before DT_MIN, while DT_MAX has
not passed. -/
def execSwnSwing (k : Fin 12) (level : Bool) (s : State) : Host.Outcome State Fault Refusal :=
  whileOn 13 s <|
  let p := s.duPair k
  match p.turn with
  | some (h, off, none) =>
    if level = h ∧ s.cyc ≤ off + 2 * s.dtMax k then
      let dt := max (s.rd (DU_P_DT_MIN.i k)) (ceilDiv (s.cyc - off) 2)
      .next (s.setDuPair k { p with turn := some (h, off, some (off + 2 * dt)) })
    else .next s
  | _ => .next s

/-- DT_TIMEOUT (R318): no swing by DT_MAX. -/
def execDtTimeout (k : Fin 12) (s : State) : Host.Outcome State Fault Refusal :=
  whileOn 13 s <|
  match (s.duPair k).turn with
  | some (h, off, none) =>
    let m := s.dtMax k
    if off + 2 * m ≤ s.cyc then .next (((turnOn k h m s).inc (DU_P_DT_TIMEOUT.i k)).duEvent DU_EVENT_DT_TIMEOUT) else .next s
  | _ => .next s

/-! ### Coil drive (R323) -/

/-- A pair's state as its peak phase begins in cycle `c`, at `Clk.lapse` value `t`. -/
def DuPair.peak (p : DuPair) (c t : Nat) : DuPair :=
  { p with phase := 1, peakTo := t, h := true, l := false, turn := none, zero := none, nextZ := some (c * 8), k := 0 }

/-- A pair's state at rest: both pads off and no counter. -/
def DuPair.rest (p : DuPair) : DuPair :=
  { p with phase := 0, h := false, l := false, turn := none, zero := none, nextZ := none }

/-- CMD changes at the pads of pair `k` as the next cycle begins; only an enabled COIL pair follows it. -/
def coilChange (k : Nat) (v : Bool) (s : State) : State :=
  let p := { s.duPair k with cmd := v }
  if s.rd (DU_P_MODE.i k) ≠ 2 ∨ !s.on (DU_P_EN.i k) then s.setDuPair k p
  else
    s.setDuPair k (if v then p.peak (s.cyc + 1) (s.clk.lapse + s.incNow s.gov + s.rd (DU_P_PEAK_US.i k) * uUs) else p.rest)

/-- The peak phase ends: the pads are off for the rest of the period. -/
def peakEnd (k : Nat) (s : State) : State :=
  s.setDuPair k { s.duPair k with phase := 2, h := false, l := false, turn := none }

/-- COIL_PEAK_END (R323). -/
def execCoilPeakEnd (k : Fin 12) (s : State) : Host.Outcome State Fault Refusal :=
  whileOn 13 s <|
  let p := s.duPair k
  if p.phase = 1 ∧ p.peakTo ≤ s.clk.lapse then .next (peakEnd k s) else .next s

/-- Fault input `f` takes hold of the pads in cycle `due`: those of every enabled pair that names it; a CYCLE fault ends a peak
(R323, R324). -/
def faultHolds (due f : Nat) (s : State) : State :=
  (List.range 12).foldl (fun (t : State) k =>
    if t.padPairOn k ∧ bit (t.rd (DU_P_FLT_MASK.i k)) f then
      let u := t.setDuPair k { t.duPair k with hold := (t.duPair k).hold ++ [(f, due)] }
      if (u.duPair k).phase = 1 ∧ !u.on (DU_FLT_LATCHED.i f) then peakEnd k u else u
    else t) s

/-- What takes effect on the pads as the next cycle begins: changes of CMD, and over them the faults (R324). -/
def State.padCycle (s : State) : State :=
  let cmds := s.du.cmds.filter (fun (x : Nat × Nat × Bool) => decide (x.1 ≤ s.cyc + 1))
  let trips := s.du.trips.filter (fun (x : Nat × Nat) => decide (x.1 ≤ s.cyc + 1))
  let s := { s with du := { s.du with
    cmds := s.du.cmds.filter (fun (x : Nat × Nat × Bool) => decide (s.cyc + 1 < x.1))
    trips := s.du.trips.filter (fun (x : Nat × Nat) => decide (s.cyc + 1 < x.1)) } }
  let s := cmds.foldl (fun (t : State) (x : Nat × Nat × Bool) => coilChange x.2.1 x.2.2 t) s
  trips.foldl (fun (t : State) (x : Nat × Nat) => faultHolds x.1 x.2 t) s

/-- Dead times that end in this cycle. -/
def State.turnCycle (s : State) : State :=
  (s.du.pair.map (fun (p : Nat × DuPair) => p.1)).foldl (fun (t : State) k =>
    match (t.duPair k).turn with
    | some (h, off, some on) => if on ≤ t.cyc then turnOn k h ((on - off) / 2) t else t
    | _ => t) s

/-- A raised tick start of tick 0 of a triad starts the periods of GRID pairs afresh (R322). -/
def duTick (g : Nat) (s : State) : State :=
  if g % 3 = 0 then
    (s.du.pair.map (fun (p : Nat × DuPair) => p.1)).foldl (fun (t : State) k =>
      if t.padPairOn k ∧ t.rd (DU_P_MODE.i k) = 1 then
        t.setDuPair k { t.duPair k with nextZ := some (t.cyc * 8), gridI := 0, gridCy := t.cyc, gridG := g }
      else t) s
  else s

/-! ### Fault inputs (R324) -/

/-- Whether fault input `f` is blanked in this cycle: from the zero event of its pair, one due in this cycle included. -/
def State.blanked (s : State) (f : Nat) : Bool :=
  let k := s.rd (DU_FLT_BLANK_PAIR.i f)
  let p := s.duPair k
  s.on (DU_FLT_BLANK_EN.i f) && s.padPairOn k && ((p.nextZ.any (fun z => decide (z ≤ s.cyc * 8))) ||
    p.zero.any (fun z => decide (s.cyc * 8 < z + s.rd (DU_P_CMPB.i k) * 16 + 8)))

/-- Fault input `f` is no longer recognised. -/
def faultLeaves (f : Nat) (s : State) : State :=
  if s.on (DU_FLT_RECOG.i f) then (s.wr (DU_FLT_RECOG.i f) 0).binOpen 7 f false false s.nowStamp else s

/-- FAULT_RECOGNISED (R324): the pad of input `f` has been at `level` for `held` consecutive cycles, up to the one before this; POL
gives the active level. The pads follow ten cycles later. -/
def execFaultRecognised (f : Fin 8) (level : Bool) (held : Nat) (s : State) : Host.Outcome State Fault Refusal :=
  whileOn 13 s <|
  if !s.on (DU_FLT_EN.i f) ∨ held = 0 then .next s
  else if level = s.on (DU_FLT_POL.i f) then .next (faultLeaves f s)
  else if s.on (DU_FLT_RECOG.i f) ∨ held < s.rd (DU_FLT_FILT.i f) + 1 ∨ s.blanked f then .next s
  else
    let s := (((s.wr (DU_FLT_RECOG.i f) 1).inc (DU_FLT_COUNT.i f)).duEvent DU_EVENT_FAULT).binOpen 7 f true false s.nowStamp
    let s := if s.on (DU_FLT_ACTION.i f) then s.wr (DU_FLT_LATCHED.i f) 1 else s
    .next { s with du := { s.du with trips := s.du.trips ++ [(s.cyc + 10, f.val)] } }

/-- A write of DU_FLT_f: an input out of use is not recognised, and CLEAR releases a latch while the input is not recognised. -/
def fltWrite (f v : Nat) (s : State) : State :=
  let s := s.swPut (0xA00020 + 4 * f) v
  let s := s.wr (DU_FLT_BLANK_PAIR.i f) (min 11 (bits v 27 24))
  let s := if s.on (DU_FLT_EN.i f) then s else faultLeaves f s
  if bit v 16 ∧ s.on (DU_FLT_LATCHED.i f) ∧ !s.on (DU_FLT_RECOG.i f) then
    (List.range 12).foldl (fun (t : State) k =>
      t.setDuPair k { t.duPair k with hold := (t.duPair k).hold.filter (fun (x : Nat × Nat) => x.1 != f) })
      (s.wr (DU_FLT_LATCHED.i f) 0)
  else s

/-! ### Sense inputs (R325, R326) -/

/-- A change of sense input `i` is accepted in cycle `c`; its mark carries a scalar BOOL item (R244). -/
def senseTake (c i : Nat) (level : Bool) (s : State) : State :=
  let s := s.wr DU_SNS_STATE_DEB (setBits (s.rd DU_SNS_STATE_DEB) i i (b2n level))
  let s := (s.inc (DU_SI_CHANGES.i i)).binOpenAt c 2 i level false s.nowStamp
  let s := { s with du := { s.du with sns := aput s.du.sns i { cand := none } } }
  if s.on (DU_SI_MARK.i i) then
    let n := s.rd (DU_SI_SLOT.i i)
    let v := tVi (s.task (sTask (s.slot n).latest))
    s.request { due := c + 6, kind := 1, seq := 0, slot := n, value := leBytes 6 (b2n level) ++ [1, 0], qual := 0, vi := v, gen := s.gen v }
  else s

/-- SENSE_EDGE (R325, R326): `sub` · 2⁻¹⁶ of a cycle after the start of this cycle, the pad of input `i` changes to `level`. The stamp
lies within 2 ns of the edge, by a free value, and is delivered 32 cycles later; a candidate change begins with the edge, and an edge
back to the accepted level cancels it. -/
def execSenseEdge (i : Fin 16) (level : Bool) (sub : Fin 65536) (s : State) : Host.Outcome State Fault Refusal :=
  whileOn 13 s <|
  if !s.duOn ∨ !s.on (DU_SI_EN.i i) then .next s
  else
    let (x, s) := s.fresh
    let ns := s.stampIn s.gov sub / 65536 + x % 4 - 1
    let deb := bit (s.rd DU_SNS_STATE_DEB) i
    let old := (agetD s.du.sns i.val {}).cand
    let cand := if level = deb then none else if old.isSome then old else some (level, ns)
    .next { s with du := { s.du with
      edges := s.du.edges ++ [(s.cyc + 32, i.val, level, s.gov, ns)], sns := aput s.du.sns i.val { cand := cand } } }

/-- The stamp of an edge of input `i` reaches the trigger unit, the raw state and the stamp queue in cycle `due` (R325); with DEB_US 0
the change is accepted (R326). -/
def senseDeliver (due i : Nat) (level : Bool) (tb ns : Nat) (s : State) : State :=
  let s := s.binAt due 1 i level false (ns * 65536) 1
  let s := s.wr DU_SNS_STATE_RAW (setBits (s.rd DU_SNS_STATE_RAW) i i (b2n level))
  let s :=
    if 64 ≤ s.du.stamps.length then (s.inc DU_G_SNS_LOST).duEvent DU_EVENT_SNS_LOST
    else { s with du := { s.du with stamps := s.du.stamps ++ [(i, level, tb, ns)] } }
  if s.rd (DU_SI_DEB_US.i i) = 0 ∧ (agetD s.du.sns i {}).cand = some (level, ns) then senseTake due i level s else s

/-- The edges whose delivery begins with the next cycle. -/
def State.senseCycle (s : State) : State :=
  let due := s.du.edges.filter (fun (e : Nat × Nat × Bool × Nat × Nat) => decide (e.1 ≤ s.cyc + 1))
  let t := { s with du := { s.du with
    edges := s.du.edges.filter (fun (e : Nat × Nat × Bool × Nat × Nat) => decide (s.cyc + 1 < e.1)) } }
  due.foldl (fun (u : State) (e : Nat × Nat × Bool × Nat × Nat) => senseDeliver e.1 e.2.1 e.2.2.1 e.2.2.2.1 e.2.2.2.2 u) t

/-- GRID pairs whose last period has no end yet learn here that the next tick 0 will not be raised (R322). -/
def State.gridPairs (s : State) : State :=
  (s.du.pair.map (fun (p : Nat × DuPair) => p.1)).foldl (fun (t : State) k =>
    let p := t.duPair k
    if t.padPairOn k ∧ t.rd (DU_P_MODE.i k) = 1 ∧ p.nextZ.isNone ∧ p.zero.isSome then
      t.setDuPair k { p with nextZ := t.gridNext k p p.gridI } else t) s

/-- The drive unit in one cycle. -/
def State.duCycle (s : State) : State := s.turnCycle.gridPairs.padCycle.senseCycle

/-- The stamp of the edge of input `i` at `ns` is still on its way. -/
def State.onItsWay (s : State) (i ns : Nat) : Bool :=
  s.du.edges.any (fun (e : Nat × Nat × Bool × Nat × Nat) => e.2.1 == i && e.2.2.2.2 == ns)

/-- SENSE_ACCEPT (R326): the first cycle later than the first edge's stamp plus DEB_US, the stamp having been delivered. -/
def execSenseAccept (i : Fin 16) (s : State) : Host.Outcome State Fault Refusal :=
  whileOn 13 s <|
  match (agetD s.du.sns i.val {}).cand with
  | none => .next s
  | some (level, ns) =>
    if s.duOn ∧ s.on (DU_SI_EN.i i) ∧ !s.onItsWay i ns ∧ ns * uNs + s.rd (DU_SI_DEB_US.i i) * uUs < s.now then
      .next (senseTake s.cyc i level s)
    else .next s

/-! ### Registers (R317, R321, R327) -/

/-- A write of DU_COMMIT. -/
def duCommitWrite (v : Nat) (s : State) : State :=
  (maskList 12 v).foldl (fun (t : State) k =>
    let per := t.rd (DU_P_PER.i k)
    let duty := t.rd (DU_P_DUTY.i k)
    if t.on (DU_P_LOAD.i k) then t
    else if per < duty then t.duEvent DU_EVENT_REFUSED
    else t.setDuPair k { t.duPair k with armed := some (per, duty, t.cyc) }) s

/-- A write of PER or DUTY of pair `k`. -/
def duShadow (k : Nat) (duty : Bool) (v : Nat) (s : State) : State :=
  let x := if duty then v % 2 ^ 24 else max 0x400 (v % 2 ^ 24)
  let s := s.wr (if duty then DU_P_DUTY.i k else DU_P_PER.i k) x
  if s.on (DU_P_LOAD.i k) then
    let p := s.duPair k
    s.setDuPair k (if duty then { p with dutyW := some (x, s.cyc) } else { p with perW := some (x, s.cyc) })
  else s

/-- What a write `v` of a pair's configuration word that reads `old` stores: MODE 3 as 0, and while EN is 1 the former MODE, LOAD,
POLICY, ADAPT and FLT_MASK (R321). -/
def duCfgTaken (old v : Nat) : Nat :=
  let v := if bits v 30 29 = 3 then setBits v 30 29 0 else v
  if bit old 31 then setBits (setBits v 30 26 (bits old 30 26)) 7 0 (bits old 7 0) else v

/-- A write of a pair's configuration word (R321). A COIL pair enabled while CMD is TRUE begins its peak then (DESIGN CHOICE, log entry
104). -/
def duPairCfg (k v : Nat) (s : State) : State :=
  let old := s.word (0xA00200 + k * 0x40)
  let new := duCfgTaken old v
  let z := if bits v 30 29 = 3 then setBits v 30 29 0 else v
  let s := if bits new 30 26 = bits z 30 26 ∧ bits new 7 0 = bits z 7 0 then s else s.duEvent DU_EVENT_REFUSED
  let s := s.swPut (0xA00200 + k * 0x40) new
  let p := s.duPair k
  if !bit old 31 ∧ bit v 31 then
    let p : DuPair := { p.rest with presc := [0, 0, 0, 0] }
    let mode := s.rd (DU_P_MODE.i k)
    s.setDuPair k (if mode = 0 then { p with nextZ := some (s.cyc * 8) }
      else if mode = 2 ∧ p.cmd then p.peak s.cyc (s.clk.lapse + s.rd (DU_P_PEAK_US.i k) * uUs)
      else p)
  else if bit old 31 ∧ !bit v 31 then s.setDuPair k p.rest
  else s

/-- Writes of the DU_ page. -/
def duWrite (r : Requester) (o v : Nat) (s : State) : State :=
  if !s.mayWrite r then s.duEvent DU_EVENT_REFUSED
  else if o = 8 then duCommitWrite v s
  else if 0x20 ≤ o ∧ o < 0x40 then fltWrite ((o - 0x20) / 4) v s
  else if 0x200 ≤ o ∧ o < 0x500 then
    let k := (o - 0x200) / 0x40
    let j := o % 0x40
    if j = 0 then duPairCfg k v s
    else if j = 4 then duShadow k false v s
    else if j = 8 then duShadow k true v s
    else if j = 0x14 then (s.swPut (0xA00000 + o) v).wr (DU_P_GRID_K.i k) (clampN 1 4096 (v % 8192))
    else s.swPut (0xA00000 + o) v
  else s.swPut (0xA00000 + o) v

/-- Remove the oldest stamp, which a read of the cycle has shown. -/
def duPop (s : State) : State :=
  let z := s.arch.at0
  { s with
    du := { s.du with stamps := s.du.stamps.drop 1 }
    arch := { s.arch with at0 := { z with du := { z.du with stamps := z.du.stamps.drop 1 } } } }

/-- Reads of the DU_ page that show the stamp queue as it stood at the start of the cycle (R11); reading W3 removes the oldest
entry. -/
def duRead (o : Nat) (s : State) : Option (Nat × State) :=
  if 0x50 ≤ o ∧ o < 0x60 then
    match s.start.du.stamps with
    | [] => some (0, s)
    | (i, level, tb, t) :: rest =>
      let sec := t / 1000000000
      match (o - 0x50) / 4 with
      | 0 => some (2 ^ 31 + b2n level * 2 ^ 30 + (rest.length + 1) * 2 ^ 16 + i, s)
      | 1 => some (sec % 2 ^ 32, s)
      | 2 => some (tb * 2 ^ 30 + t % 1000000000, s)
      | _ => some (sec / 2 ^ 32 % 2 ^ 16, duPop s)
  else none

end Sys2Proof.Machine
end

