-- ==== Sys2Proof/Machine/Recorder.lean ====
section
/-!
DEFINITION. Event recorder (15_recording.md R350–R360, R371): the entry queue, the ring in the Cellar, the drain to the NVM,
reading by sequence number, and clearing.
-/
namespace Sys2Proof.Machine

/-! ### Time of a record (R351) -/

/-- Binary value of a BCD number of `n` digits. -/
def bcd : Nat → Nat → Nat
  | 0, _ => 0
  | n + 1, x => x % 16 + 10 * bcd n (x / 16)

/-- Days from 1970-01-01 to a date of the Gregorian calendar. -/
def daysFrom1970 (y m d : Nat) : Nat :=
  let y' := if m ≤ 2 then y - 1 else y
  let m' := if m ≤ 2 then m + 9 else m - 3
  y' * 365 + y' / 4 - y' / 100 + y' / 400 + (153 * m' + 2) / 5 + d - 1 - 719468

/-- UTC seconds since 1970 of the Cellar calendar at the start of the cycle. -/
def State.calSeconds (s : State) : Nat :=
  daysFrom1970 (bcd 4 (s.rd0 CL_YEAR_YEAR)) (bcd 2 (s.rd0 CL_MONTH_MONTH)) (bcd 2 (s.rd0 CL_DAY_DAY)) * 86400 +
    bcd 2 (s.rd0 CL_HOUR_HOUR) * 3600 + bcd 2 (s.rd0 CL_MIN_MIN) * 60 + bcd 2 (s.rd0 CL_SEC_SEC)

/-- Seconds, nanoseconds and kind that a record without a stamp takes in this cycle (R351). -/
def State.recTime (s : State) : Nat × Nat × Nat :=
  if s.rd0 HC_STATUS_SET % 2 = 1 then ((s.tb 0).val / uS, (s.tb 0).val % uS / uNs, 0)
  else (s.calSeconds, s.rd0 CL_SUBSEC_SUBSEC * 1000000000 / 32768, if s.on0 CL_STATUS_CAL_VALID then 1 else 2)

/-! ### Registers that follow the recorder's state -/

/-- Oldest sequence number in the ring. -/
def Ev.ringFirst (e : Ev) : Nat := e.entered - min e.entered 4096

/-- The smaller of the listed numbers, or `d`. -/
def minOf (d : Nat) (l : List Nat) : Nat := l.foldl min d

/-- Oldest sequence number in the ring as it stands; the next one where it is empty. -/
def Ev.ringOldest (e : Ev) : Nat := minOf e.entered (e.ring.map (fun (p : Nat × Nat × List Byte) => p.2.1))

/-- Oldest sequence number held and not cleared (R358, R359). -/
def Ev.firstHeld (e : Ev) : Nat :=
  max e.cleared (minOf e.ringOldest (e.runs.map (fun (p : Nat × Nat × Nat) => p.1)))

/-- Refresh EV_FIRST, EV_RING_FIRST, EV_LAST, EV_DRAINED and UNDRAINED. -/
def State.evRefresh (s : State) : State :=
  let e := s.ev
  let s := (s.wr EV_FIRST_FIRST e.firstHeld).wr EV_RING_FIRST_RING_FIRST e.ringOldest
  let s := (s.wr EV_LAST_LAST (e.entered - 1)).wr EV_DRAINED_DRAINED e.drained
  s.wr EV_STATUS_UNDRAINED (e.entered - e.drained)

/-- A recorder event (R360, R371). -/
def State.evEvent (s : State) (f : Fld) : State := s.event f ES_EV

/-- Discard the ring after a canary loss: no record enters before the partition is scanned (R332, R355). -/
def State.evDiscard (s : State) : State :=
  ({ s with ev := { s.ev with ring := [], next := 0, entered := 0, cleared := 0, drained := 0, pos := 0, runs := []
                              scan := true } }).evRefresh

/-! ### Entry (R354, R355) -/

/-- A request is lost (R354). -/
def State.evLose (s : State) : State :=
  (({ s with ev := { s.ev with lost := s.ev.lost + 1 } }).inc EV_G_LOST).evEvent EV_EVENT_LOST

/-- A record is taken into the queue with the next sequence number. -/
def State.evTake (s : State) (sec ns tkind src code data : Nat) : State :=
  let q : EvReq := {
    seq := s.ev.next, sec := sec, ns := ns, tkind := tkind, src := src, code := code, data := data, cyc := s.cyc }
  { s with ev := { s.ev with queue := s.ev.queue ++ [q], next := s.ev.next + 1 } }

/-- With room in the queue and requests lost, a LOST record is the next entered, in a cycle after EN has become 1 (R354). -/
def State.evLostRecord (s : State) : State :=
  if s.on0 EV_CTRL_EN ∧ s.ev.lost ≠ 0 ∧ s.ev.queue.length < 64 then
    let (sec, ns, k) := s.recTime
    let n := s.ev.lost
    ({ s with ev := { s.ev with lost := 0 } }).evTake sec ns k 0x12 0x04 n
  else s

/-- The request to be taken next: of the oldest cycle the lowest SRC, in order of request (R354). -/
def nextReq (l : List RecReq) : Option RecReq :=
  match l with
  | [] => none
  | r :: t => some (t.foldl (fun (a : RecReq) b => if b.cyc < a.cyc ∨ (b.cyc = a.cyc ∧ b.src < a.src) then b else a) r)

/-- A capture learns the SEQ of its TRIGGER record; one that was complete before has it entered in its header (R364; log entry 61). -/
def noteTrigger (r : RecReq) (q : Nat) (s : State) : State :=
  if r.src = 0x0F ∧ r.code = 1 then
    let k := r.data % 16
    let put := fun (c : Cap) (t : State) => { t with tg := { t.tg with caps := aput t.tg.caps k c } }
    match aget s.tg.caps k with
    | none => s
    | some c =>
      match c.hdr with
      | some a => put { c with hdr := none } (s.storeN a 4 q)
      | none => put { c with evseq := q } s
  else s

/-- The requests whose cycle has ended, so that all of that cycle are there to be ordered (R354; log entry 59). -/
def State.readyReqs (s : State) : List RecReq := s.recReqs.filter (fun r => decide (r.cyc < s.cyc))

/-- EVENT_REQUEST (R354): one request is taken, or lost, as EV_CTRL.EN stands at the start of the cycle. -/
def execEventRequest (s : State) : Host.Outcome State Fault Refusal :=
  match nextReq s.readyReqs with
  | none => .next s
  | some r =>
    let s := { s with recReqs := s.recReqs.erase r }
    if !s.on0 EV_CTRL_EN then .next s.evLose
    else
      let s := s.evLostRecord
      if 64 ≤ s.ev.queue.length then .next s.evLose
      else
        let s := noteTrigger r s.ev.next s
        match r.stamp with
        | some (sec, ns) => .next (s.evTake sec ns 0 r.src r.code r.data)
        | none =>
          let (sec, ns, k) := s.recTime
          .next (s.evTake sec ns k r.src r.code r.data)

/-- The 32 bytes of a record as it enters the ring (R350). -/
def recBytes (s : State) (q : EvReq) : List Byte :=
  leBytes 4 q.seq ++ leBytes 6 q.sec ++ leBytes 4 (q.tkind * 2 ^ 30 + q.ns % 2 ^ 30) ++ leBytes 4 (s.rd CL_OPH_OPH) ++
    leBytes 4 (s.rd CL_PCYC_PCYC) ++ leBytes 1 q.src ++ leBytes 1 q.code ++ leBytes 8 q.data

/-- A record enters the ring; an undrained record that it replaces is lost, and the drain goes on from the oldest that the ring still
holds (R354, R355). -/
def ringTake (q : EvReq) (s : State) : State :=
  let k := q.seq % 4096
  let replaces := (aget s.ev.ring k).isSome && decide (s.ev.drained ≤ q.seq - 4096) && decide (4096 ≤ q.seq)
  let s := { s with ev := { s.ev with
    ring := aput s.ev.ring k (q.seq, recBytes s q), entered := q.seq + 1, leave := s.cyc
    drained := if replaces then q.seq - 4095 else s.ev.drained } }
  let s := if replaces then (s.inc EV_G_UNDRAINED_LOST).evEvent EV_EVENT_LOST else s
  s.evEvent EV_EVENT_RECORD

/-- RING_ENTRY (R354, R355): the oldest record leaves the queue 8 cy after it could begin to. -/
def execRingEntry (s : State) : Host.Outcome State Fault Refusal :=
  match s.ev.queue with
  | [] => .next s
  | q :: rest =>
    if s.ev.scan ∨ s.cyc < max q.cyc s.ev.leave + 8 then .next s
    else .next (((ringTake q { s with ev := { s.ev with queue := rest } }).evLostRecord).evRefresh)

/-- A record that is written before a restart drops the queue: the records of the queue enter the ring and it after them (R354, R444; log
entry 72). -/
def State.recordThrough (s : State) (src code data : Nat) : State :=
  if !s.on0 EV_CTRL_EN ∨ s.ev.scan then s
  else
    let (sec, ns, k) := s.recTime
    let t := s.evTake sec ns k src code data
    (t.ev.queue.foldl (fun u q => ringTake q u) { t with ev := { t.ev with queue := [] } }).evRefresh

/-! ### The recorder partition (R355–R357) -/

/-- SEQ of the record at partition position `p`, if one was programmed there. -/
def partSeq (s : State) (ofs p : Nat) : Option Nat :=
  let b := s.nvmLoad (ofs + p * 32) 32
  if b.all (fun x => x == 0xFF) then none else some (leAt b 0 4)

/-- A page of 8 records joins what the partition holds: a run goes on within its sector while the numbers do. -/
def addRun (q p : Nat) (l : List (Nat × Nat × Nat)) : List (Nat × Nat × Nat) :=
  let meets := fun (r : Nat × Nat × Nat) => r.1 + r.2.2 == q && r.2.1 + r.2.2 == p && p % 2048 != 0
  if l.any meets then l.map (fun r => if meets r then (r.1, r.2.1, r.2.2 + 8) else r) else (q, p, 8) :: l

/-- The runs of the programmed pages of sector `sec`, the last first: first SEQ, position and count (R355, R356). -/
def sectorRuns (s : State) (ofs sec : Nat) : List (Nat × Nat × Nat) :=
  (List.range 256).foldl (fun l pg =>
    match partSeq s ofs (sec * 2048 + pg * 8) with
    | some q => addRun q (sec * 2048 + pg * 8) l
    | none => l) []

/-- The sectors whose first record was programmed, with its SEQ (R355). -/
def scanSectors (s : State) (ofs : Nat) : List (Nat × Nat) :=
  (List.range 512).filterMap (fun sec => (partSeq s ofs (sec * 2048)).map (fun q => (q, sec)))

/-- A recorded failure of the drain (R357). -/
def State.drainFail (s : State) (cause : Nat) : State :=
  let s := ((s.inc EV_G_DRAIN_FAIL).evEvent EV_EVENT_DRAIN_FAIL).record 0x12 0x05 cause
  if cause = 4 then { s with ev := { s.ev with stop := true } }
  else { s with ev := { s.ev with retryAt := some (s.clk.lapse + uS) } }

/-- Numbering continues after the scan: RING_DISCARDED is the first record, before those that waited (R355), unless the recorder
takes none (R354). -/
def State.evResume (s : State) (last : Option Nat) : State :=
  let base := match last with
    | some l => l + 1
    | none => 0
  let (sec, ns, k) := s.recTime
  let d := s.rd CL_STATUS_CANARY + (last.getD 0xFFFFFFFF) % 2 ^ 32 * 2 ^ 32
  let first : EvReq := { seq := base, sec := sec, ns := ns, tkind := k, src := 0x12, code := 0x01, data := d, cyc := s.cyc }
  let own := if s.on0 EV_CTRL_EN then [first] else []
  let q := own ++ (s.ev.queue.zipIdx (base + own.length)).map (fun (p : EvReq × Nat) => { p.1 with seq := p.2 })
  let s := if s.on0 EV_CTRL_EN then s else s.evLose
  { s with ev := { s.ev with
    queue := q, next := base + q.length, entered := base, cleared := 0, drained := base, scan := false } }

/-- One 32-bit sequence number lies before another, modulo 2³² (R358). -/
def seqBefore (a b : Nat) : Bool := a != b && decide ((b + 2 ^ 32 - a) % 2 ^ 32 < 2 ^ 31)

/-- A 32-bit sequence number as one at or below `l`. -/
def seqBelow (l q : Nat) : Nat := l - (l + 2 ^ 32 - q) % 2 ^ 32

/-- NVM_SCAN (R355, R357): the last SEQ found is that of the last page of the sector whose first is the highest. The boot loader has the NVM's parameters. `answers` tells whether the device answers, `suitable`
whether its parameters meet R357. -/
def execNvmScan (answers suitable : Bool) (s : State) : Host.Outcome State Fault Refusal :=
  if !s.ev.params then .next s else
  let s := { s with ev := { s.ev with params := false } }
  let usable := answers && suitable && s.ev.ofs.isSome
  let s := if answers ∧ !suitable then s.drainFail 4 else s
  let ofs := s.ev.ofs.getD 0
  let secs := if usable then scanSectors s ofs else []
  let s := s.wr EV_STATUS_NVM_OK (b2n usable)
  if s.ev.scan then
    let best := secs.foldl (fun (a : Option (Nat × Nat)) r =>
      match a with
      | none => some r
      | some b => if seqBefore b.1 r.1 then some r else a) none
    match best.bind (fun b => (sectorRuns s ofs b.2).head?) with
    | none => .next ((s.evResume none).evRefresh)
    | some (q, p, n) =>
      let l := 2 ^ 32 + (q + n - 1) % 2 ^ 32
      let held := (secs.flatMap (fun b => sectorRuns s ofs b.2)).map (fun (r : Nat × Nat × Nat) => (seqBelow l r.1, r.2.1, r.2.2))
      let s := { s with ev := { s.ev with runs := held, pos := (p + n) % 1048576 } }
      .next ((s.evResume (some l)).evRefresh)
  else .next s.evRefresh

/-- The drain has a page to program (R356). -/
def drainDue (s : State) : Bool :=
  s.on EV_CTRL_DRAIN_EN && s.on EV_STATUS_NVM_OK && !s.ev.stop && s.ev.retryAt.isNone && !s.ev.scan &&
    (s.rd BT_STATUS_STATE == 5 || s.rd BT_STATUS_STATE == 6) && decide (s.ev.drained + 8 ≤ s.ev.entered)

/-- Erase a 64 KiB sector of the partition. -/
def State.eraseSector (s : State) (ofs sec : Nat) : State :=
  let lo := ofs + sec * 65536
  { s with
    nvm := s.nvm.filter (fun (c : Host.Cell) => c.1 < lo || decide (lo + 65536 ≤ c.1))
    ev := { s.ev with runs := s.ev.runs.filter (fun (r : Nat × Nat × Nat) => r.2.1 / 2048 != sec) } }

/-- The bytes of the ring record with sequence number `q`. -/
def State.ringRec (s : State) (q : Nat) : Option (List Byte) :=
  match aget s.ev.ring (q % 4096) with
  | some (n, b) => if n = q then some b else none
  | none => none

/-- DRAIN_PAGE (R356, R357): `fail` 0 done, 1 no response, 2 program failed, 3 erase failed. -/
def execDrainPage (fail : Fin 4) (s : State) : Host.Outcome State Fault Refusal :=
  if !drainDue s then .next s
  else
    let ofs := s.ev.ofs.getD 0
    let first := s.ev.pos % 2048 == 0
    if fail.val = 1 ∨ (fail.val = 3 ∧ first) then .next (s.drainFail fail.val)
    else
      let s := if first then s.eraseSector ofs (s.ev.pos / 2048) else s
      if fail.val = 2 then .next ((s.drainFail 2).evRefresh)
      else
        let q := s.ev.drained
        let page := (List.range 8).flatMap (fun i => (s.ringRec (q + i)).getD (List.replicate 32 0xFF))
        let s := s.nvmStore (ofs + s.ev.pos * 32) page
        .next ({ s with ev := { s.ev with
          drained := q + 8, pos := (s.ev.pos + 8) % 1048576, runs := addRun q s.ev.pos s.ev.runs } }).evRefresh

/-- DRAIN_RETRY (R357): one second after a failure the drain may try again. -/
def execDrainRetry (s : State) : Host.Outcome State Fault Refusal :=
  match s.ev.retryAt with
  | none => .next s
  | some t => if t ≤ s.clk.lapse then .next { s with ev := { s.ev with retryAt := none } } else .next s

/-! ### Reading (R358) -/

/-- The sequence number that a 32-bit value names, as one not above the last. -/
def seqOf (s : State) (q : Nat) : Nat :=
  let l := s.ev.entered + 2 ^ 32 - 1
  l - (l - q) % 2 ^ 32 - 2 ^ 32

/-- Position in the partition of a sequence number. -/
def runPos (q : Nat) (l : List (Nat × Nat × Nat)) : Option Nat :=
  match l.find? (fun (r : Nat × Nat × Nat) => decide (r.1 ≤ q) && decide (q < r.1 + r.2.2)) with
  | some r => some (r.2.1 + (q - r.1))
  | none => none

/-- Load the read window, with its status bits. -/
def evShow (b : List Byte) (valid notHeld nvm : Bool) (s : State) : State :=
  let s := (List.range 8).foldl (fun (t : State) i => t.put (EV_RD_W_WORD.addr + 4 * i) (leAt b (4 * i) 4)) s
  (((s.wr EV_RD_STAT_VALID (b2n valid)).wr EV_RD_STAT_BUSY 0).wr EV_RD_STAT_NOT_HELD (b2n notHeld)).wr
    EV_RD_STAT_FROM_NVM (b2n nvm)

/-- A write of EV_RD_SEQ (R358). -/
def evRdSeqWrite (v : Nat) (s : State) : State :=
  let s := { s.put EV_RD_SEQ_SEQ.addr v with ev := { s.ev with load := none } }
  let q := seqOf s v
  if s.ev.entered = 0 ∨ q % 2 ^ 32 ≠ v ∨ q < s.ev.firstHeld ∨ s.ev.entered ≤ q then evShow [] false true false s
  else
    match s.ringRec q with
    | some b => evShow b true false false s
    | none =>
      match runPos q s.ev.runs with
      | none => evShow [] false true false s
      | some _ =>
        let s := evShow [] false false false s
        { s.wr EV_RD_STAT_BUSY 1 with ev := { s.ev with load := some q } }

/-- EV_NVM_LOAD_DONE (R358, R359): the record loads, or is no longer held, having been cleared meanwhile among others. -/
def execEvNvmLoadDone (s : State) : Host.Outcome State Fault Refusal :=
  match s.ev.load with
  | none => .next s
  | some q =>
    let s := { s with ev := { s.ev with load := none } }
    match if q < s.ev.firstHeld then none else runPos q s.ev.runs with
    | some p => .next (evShow (s.nvmLoad (s.ev.ofs.getD 0 + p * 32) 32) true false true s)
    | none => .next (evShow [] false true false s)

/-! ### Clearing (R359, R360) -/

/-- A failed CLEAR of the owner. -/
def State.clearRefused (s : State) (slot cause : Nat) : State :=
  ((s.inc EV_G_CLEAR_REFUSED).evEvent EV_EVENT_CLEAR_REFUSED).record 0x12 0x03 (slot + cause * 256)

/-- The full sectors of the partition that lie wholly below `q` (R359). -/
def sectorsBelow (q : Nat) (l : List (Nat × Nat × Nat)) : List Nat :=
  ((l.map (fun (r : Nat × Nat × Nat) => r.2.1 / 2048)).eraseDups).filter (fun k =>
    let mine := l.filter (fun (r : Nat × Nat × Nat) => r.2.1 / 2048 == k)
    mine.all (fun (r : Nat × Nat × Nat) => decide (r.1 + r.2.2 ≤ q)) &&
      (mine.foldl (fun n (r : Nat × Nat × Nat) => n + r.2.2) 0) == 2048)

/-- The clearing token of R359. -/
def clearToken (key : List Byte) (seq nonce : Nat) : List Byte :=
  slice (Config.macTag 3 key ([0x45, 0x56, 0x43, 0x4C] ++ leBytes 4 seq ++ leBytes 8 nonce)) 0 16

/-- CLEAR from the owner seat: every CLEAR consumes the nonce; the causes of R360 are taken in the order of their codes. -/
def evClear (slot : Nat) (s : State) : State :=
  let nonce := s.ev.nonce
  let s := { s with ev := { s.ev with nonce := none } }
  match nonce with
  | none => s.clearRefused slot 1
  | some n =>
    let (b, ok, s) := s.ksFetch slot
    let w := s.rd EV_CLR_SEQ_SEQ
    let q := seqOf s w
    let tok := (List.range 4).flatMap (fun i => leBytes 4 (s.word (EV_CLR_TOK_TOKEN.addr + 4 * i)))
    if !ok || s.retired || kState b != ksValid || !bit (kUse b) useClear || kAlg b != 3 then s.clearRefused slot 2
    else if tok ≠ clearToken (kKey b) w n then s.clearRefused slot 3
    else if s.ev.entered = 0 ∨ q % 2 ^ 32 ≠ w ∨ q < s.ev.firstHeld ∨ s.ev.entered ≤ q then s.clearRefused slot 4
    else if s.on EV_STATUS_CLEAR_BUSY then s.clearRefused slot 5
    else
      let first := s.ev.firstHeld
      let s := { s with ev := { s.ev with cleared := q + 1 } }
      let s := (s.evEvent EV_EVENT_CLEARED).record 0x12 0x02 (first % 2 ^ 32 + w * 2 ^ 32)
      (s.wr EV_STATUS_CLEAR_BUSY (b2n (!(sectorsBelow (q + 1) s.ev.runs).isEmpty))).evRefresh

/-- CLEAR_ERASE_DONE (R359): the sectors wholly below EV_FIRST are erased. -/
def execClearEraseDone (s : State) : Host.Outcome State Fault Refusal :=
  if s.on EV_STATUS_CLEAR_BUSY then
    let s := (sectorsBelow s.ev.cleared s.ev.runs).foldl (fun (t : State) k => t.eraseSector (t.ev.ofs.getD 0) k) s
    .next ((s.wr EV_STATUS_CLEAR_BUSY 0).evRefresh)
  else .next s

/-- A write of EV_CLR_CTRL (R359, R360). -/
def evClrWrite (r : Requester) (v : Nat) (s : State) : State :=
  if bits v 31 30 = 1 then
    if s.isOwner r then evClear (v % 256) (s.swPut EV_CLR_CTRL_SLOT.addr v) else s.evEvent EV_EVENT_REFUSED
  else s.swPut EV_CLR_CTRL_SLOT.addr v

/-- A write of EV_POST2 (R371). -/
def evPost (v : Nat) (s : State) : State :=
  if bits v 15 8 < 0x80 then s.evEvent EV_EVENT_REFUSED
  else s.record (bits v 15 8) (v % 256) (s.rd EV_POST0_DATA_LO + s.rd EV_POST1_DATA_HI * 2 ^ 32)

/-- Writes of the EV_ page. -/
def evWrite (r : Requester) (o v : Nat) (s : State) : State :=
  if o = 0x20 then evRdSeqWrite v s
  else if o = 0x68 then evPost v s
  else if o = 0x88 then evClrWrite r v s
  else if 0x90 ≤ o ∧ o < 0xA0 then s.put (0xB00000 + o) v
  else s.swPut (0xB00000 + o) v

/-- Reads of the EV_ page that are more than the register's value (R356, R358, R359). -/
def evRead (q o : Nat) (s : State) : Option (Nat × State) :=
  if o = 0x04 then some (setBits (s.shown 0xB00004) 30 30 (b2n (drainDue s.start || s.start.on EV_STATUS_CLEAR_BUSY)), s)
  else if o = 0x10 then
    let t := { s with ev := { s.ev with
      latch := aput s.ev.latch q (s.rd0 EV_RING_FIRST_RING_FIRST, s.rd0 EV_LAST_LAST) } }
    some (s.shown 0xB00010, t)
  else if o = 0x14 then some ((agetD s.ev.latch q (0, 0)).1, s)
  else if o = 0x18 then some ((agetD s.ev.latch q (0, 0)).2, s)
  else if o = 0x80 then
    let (n, s) := s.fresh
    let n := n % 2 ^ 64
    let s := { s with ev := { s.ev with nonce := some n } }
    some (n % 2 ^ 32, (s.wr EV_CLR_NONCE_LO_NONCE_LO n).wr EV_CLR_NONCE_HI_NONCE_HI (n / 2 ^ 32))
  else none

end Sys2Proof.Machine
end

