-- ==== Sys2Proof/Machine/Cellar.lean ====
section
/-!
DEFINITION. The Cellar (14_cellar.md): canary, calendar, trim and shift, retentive area, service counters and tamper. The Piccolo
clock is counted from the passing of CK_M cycles of 1 ns (log entry 8).
-/
namespace Sys2Proof.Machine

/-- A CL_EVENT bit; while PD1 is unpowered the event waits for the next wake with PD1 powered (R349). -/
def State.clEvent (s : State) (f : Fld) : State :=
  if s.dom 1 = 1 then s.event f ES_CL else { s.flag f with cl := { s.cl with owed := true } }

/-- The Cellar event that waited is raised, where PD1 has power (R349). -/
def State.clOwed (s : State) : State :=
  if s.cl.owed ∧ s.dom 1 = 1 then { s.raise ES_CL with cl := { s.cl with owed := false } } else s

/-! ### Tamper log (R346, R347) -/

/-- The entry of the tamper log that a detection writes now. -/
def tlogEntry (s : State) (cause : Nat) : List Byte :=
  leBytes 1 cause ++ leBytes 1 (s.rd CL_STATUS_CAL_VALID) ++ leBytes 2 (s.rd CL_YEAR_YEAR) ++
    leBytes 1 (s.rd CL_MONTH_MONTH) ++ leBytes 1 (s.rd CL_DAY_DAY) ++ leBytes 1 (s.rd CL_HOUR_HOUR) ++
    leBytes 1 (s.rd CL_MIN_MIN) ++ leBytes 1 (s.rd CL_SEC_SEC) ++ [0] ++ leBytes 2 (s.rd CL_SUBSEC_SUBSEC) ++
    leBytes 4 (s.rd CL_PCYC_PCYC)

/-- Write a tamper-log entry; the oldest is overwritten first. -/
def State.tlogWrite (s : State) (cause : Nat) : State :=
  let n := s.rd CL_TLOG_CNT_NEXT
  let e := tlogEntry s cause
  ({ s with cl := { s.cl with tlog := aput s.cl.tlog n e } }).wr CL_TLOG_CNT_NEXT (n + 1)

/-- TAMPER_DETECT (R346): MESH, TEMP_HI, TEMP_LO, VBAT_GLITCH and PICCOLO_STOP, codes 1 to 5. Detection needs 1.9 V (R329);
VBAT_GLITCH is the fall below it on VBAT, which stops the calendar. -/
def execTamperDetect (c : Fin 5) (s : State) : Host.Outcome State Fault Refusal :=
  let code := c.val + 1
  if !s.cl.runs ∨ (code = 4 ∧ s.rd CL_STATUS_SUPPLY = 0) then .next s
  else
    let s := (s.tlogWrite code).inc CL_TLOG_CNT_COUNT
    let s := s.zeroRoot.clEvent CL_EVENT_TAMPER
    let s := if code = 5 then s.wr CL_STATUS_CAL_VALID 0 else s
    .next (if code = 4 then { s with cl := { s.cl with runs := false, stopped := true } } else s)

/-! ### Wake and canary (R328–R332) -/

/-- Registers of the CL_ page at their reset values (R331). -/
def State.clRegsReset (s : State) : State :=
  { s with regs := s.regs.filter (fun (p : Nat × Word) => p.1 / 0x10000 != 5) }

/-- The contents that a lost canary discards (R332). -/
def State.clDiscard (s : State) : State :=
  let sup := s.rd CL_STATUS_SUPPLY
  let s := { s with cl := { s.cl with
    root := List.replicate 64 0, tlog := [], ret := [], shift := 0, setTime := none, setWday := none, rollDue := false
    freeze := none, held := [], retHeld := [], ops := 0, opsDue := 0, trim := 0, trimOwed := none, owed := false } }
  let s := ((s.clRegsReset).wr CL_STATUS_SUPPLY sup).evDiscard
  let s := s.tlogWrite 6
  let (r, s) := s.fresh
  let c := r % (2 ^ 64 - 2) + 1
  { s with cl := { s.cl with canHi := c, canLo := 2 ^ 64 - 1 - c } }

/-- The canary check: 1 INTACT, 2 BROKEN, 3 POR. Below 1.45 V the canary cells settle to 0, and below 1.10 V PD0 is reset (R329). -/
def canaryResult (s : State) (lowMv : Nat) : Nat :=
  let hi := if lowMv < 1450 then 0 else s.cl.canHi
  let lo := if lowMv < 1450 then 0 else s.cl.canLo
  if s.cl.por ∨ lowMv < 1100 then 3
  else if hi + lo = 2 ^ 64 - 1 ∧ hi ≠ 0 ∧ lo ≠ 0 then 1 else 2

/-- The mux selection as SUPPLY shows it, and whether the Cellar has its full function with V_CEL at `mv` on the cell; on VIN the rail is
3.0 V (R328, R329). -/
def State.cellarSupply (s : State) (mv : Nat) : State :=
  { s.wr CL_STATUS_SUPPLY (b2n (!s.elec.vin)) with cl := { s.cl with runs := s.elec.vin || decide (1900 ≤ mv) } }

/-- CELLAR_WAKE (R332): `lowMv` is the lowest V_CEL since the wake before, in mV, and since the release where that is the release of a PD0
power-on reset. With no wake due, a Cellar that has stopped on the cell has its full function again where V_CEL has stayed at 1.9 V or
above since the report before (R329; log entry 105). -/
def execCellarWake (lowMv : Nat) (s : State) : Host.Outcome State Fault Refusal :=
  if s.cl.wakeDue ∨ s.cl.por then
    let r := canaryResult s lowMv
    let was := s.cl.stopped || decide (lowMv < 1900)
    let s := if r = 1 then s else s.clDiscard
    let s := if r = 3 then { s with cl := { s.cl with raw := 0, phase := 0, edges := 0 } } else s
    let s := if r = 1 then s else s.clEvent CL_EVENT_CANARY_LOST
    let s := if was then s.wr CL_STATUS_CAL_VALID 0 else s
    let s := ((s.wr CL_PCYC_PCYC (min (s.rd CL_PCYC_PCYC + 1) (2 ^ 32 - 1))).wr CL_STATUS_CANARY r).cellarSupply lowMv
    .next ({ s with cl := { s.cl with por := false, wakeDue := false, stopped := !s.cl.runs, vbatWait := 0 } }).clOwed
  else if s.cl.runs ∨ s.elec.vin ∨ lowMv < 1900 then .next s
  else .next { s with cl := { s.cl with runs := true } }

/-- PD0_POR (R329): V_CEL falls below 1.10 V while VBAT is selected. -/
def execPd0Por (s : State) : Host.Outcome State Fault Refusal :=
  if s.rd CL_STATUS_SUPPLY = 0 ∧ s.cl.runs then .next s
  else
    let sup := s.rd CL_STATUS_SUPPLY
    .next (({ s with cl := {} }).clRegsReset.wr CL_STATUS_SUPPLY sup)

/-- VBAT_MEASURE (R330): at a wake and every 64 s while VIN is selected; `mv` is the reading. -/
def execVbatMeasure (mv : Nat) (s : State) : Host.Outcome State Fault Refusal :=
  if s.rd CL_STATUS_SUPPLY = 0 ∧ s.cl.runs ∧ s.cl.vbatWait = 0 then
    let s := { s with cl := { s.cl with vbatWait := 64 * 32768 } }
    if mv < 2300 then .next ((s.wr CL_STATUS_BAT_LOW 1).clEvent CL_EVENT_BAT_LOW)
    else if 2400 < mv then .next (s.wr CL_STATUS_BAT_LOW 0)
    else .next s
  else .next s

/-! ### Reading the calendar (R337) -/

/-- The eight calendar registers as they stood at the start of the cycle (R11). -/
def calLive (s : State) : List Nat := (List.range 8).map (fun i => s.word0 (0x50010 + 4 * i))

/-- One read of calendar register `k` by requester `r`: its data, or none where it waits for another's freeze. -/
def calRead (r : Requester) (k : Nat) (s : State) : Option Nat × State :=
  let q := rqIndex r
  match s.cl.freeze with
  | some (h, _, sh) =>
    if h = q then
      if k = 7 then (some (sh.getD 7 0), ({ s with cl := { s.cl with freeze := none } }).wr CL_STATUS_FROZEN 0)
      else (some (sh.getD k 0), s)
    else
      let a : Access := { req := r, addr := BitVec.ofNat 40 (addrRegs + 0x50010 + 4 * k), write := none }
      (none, { s with cl := { s.cl with held := s.cl.held ++ [a] } })
  | none =>
    if k = 7 then (some (s.word0 0x5002C + 2 ^ 31), s)
    else
      let l := calLive s
      (some (l.getD k 0), ({ s with cl := { s.cl with freeze := some (q, 0, l) } }).wr CL_STATUS_FROZEN 1)

/-- Reads that waited complete once the freeze has ended; each in turn may begin a freeze of its own. -/
def calServe : Nat → State → State
  | 0, s => s
  | n + 1, s =>
    match s.cl.held with
    | [] => s
    | a :: rest =>
      let go : Bool := match s.cl.freeze with
        | none => true
        | some (h, _, _) => h == rqIndex a.req
      if go then
        let k := (a.addr.toNat - addrRegs - 0x50010) / 4
        let (d, t) := calRead a.req k { s with cl := { s.cl with held := rest } }
        let c : Completion := { req := a.req, addr := a.addr.toNat, data := d.getD 0, unsupported := false }
        calServe n (t.complete c true)
      else s

/-- End the freeze in force. -/
def State.endFreeze (s : State) : State :=
  let t := ({ s with cl := { s.cl with freeze := none } }).wr CL_STATUS_FROZEN 0
  calServe t.cl.held.length t

/-- FREEZE_TIMEOUT (R337): 66 Piccolo periods after the holder's first read. -/
def execFreezeTimeout (s : State) : Host.Outcome State Fault Refusal :=
  match s.cl.freeze with
  | some (_, age, _) => if 66 ≤ age then .next (s.endFreeze.clEvent CL_EVENT_FRZ_TO) else .next s
  | none => .next s

/-! ### The calendar (R334–R336) -/

/-- BCD of a number of at most four digits. -/
def toBcd (x : Nat) : Nat := x % 10 + x / 10 % 10 * 16 + x / 100 % 10 * 256 + x / 1000 % 10 * 4096

/-- Last day of a month of the Gregorian calendar. -/
def monthDays (y m : Nat) : Nat :=
  if m = 2 then (if y % 4 = 0 ∧ (y % 100 ≠ 0 ∨ y % 400 = 0) then 29 else 28)
  else if m = 4 ∨ m = 6 ∨ m = 9 ∨ m = 11 then 30 else 31

/-- The following day at 00:00:00, with the weekday's advance (R334, R335). -/
def nextDay (s : State) : State :=
  let y := bcd 4 (s.rd CL_YEAR_YEAR)
  let m := bcd 2 (s.rd CL_MONTH_MONTH)
  let d := bcd 2 (s.rd CL_DAY_DAY)
  let s := ((s.wr CL_SEC_SEC 0).wr CL_MIN_MIN 0).wr CL_HOUR_HOUR 0
  let s := if s.cl.wdaySet = 1 then s else s.wr CL_WDAY_WDAY ((s.rd CL_WDAY_WDAY + 1) % 7)
  if d < monthDays y m then s.wr CL_DAY_DAY (toBcd (d + 1))
  else
    let s := s.wr CL_DAY_DAY 1
    if m < 12 then s.wr CL_MONTH_MONTH (toBcd (m + 1))
    else (s.wr CL_MONTH_MONTH 1).wr CL_YEAR_YEAR (toBcd (y + 1))

/-- The following day, or the hold at the last second of the range, which is no time of CAL_VALID (R334). -/
def nextDayOrHold (s : State) : State :=
  if s.rd CL_YEAR_YEAR = 0x2199 ∧ s.rd CL_MONTH_MONTH = 0x12 ∧ s.rd CL_DAY_DAY = 0x31 then
    (s.wr CL_SEC_SEC 0x59).wr CL_STATUS_CAL_VALID 0
  else nextDay s

/-- The roll-over of the second (R334, R336). -/
def calRoll (s : State) : State :=
  let sec := s.rd CL_SEC_SEC
  let mn := s.rd CL_MIN_MIN
  let hr := s.rd CL_HOUR_HOUR
  let late := hr == 0x23 && mn == 0x59
  if late && sec == 0x59 && s.on CL_CTRL_LEAP61 then s.wr CL_SEC_SEC 0x60
  else if late && sec == 0x60 then (nextDayOrHold s).wr CL_CTRL_LEAP61 0
  else if late && sec == 0x58 && s.on CL_CTRL_LEAP59 && !s.on CL_CTRL_LEAP61 then
    (nextDayOrHold s).wr CL_CTRL_LEAP59 0
  else if late && sec == 0x59 then nextDayOrHold s
  else if sec ≠ 0x59 then s.wr CL_SEC_SEC (toBcd (bcd 2 sec + 1))
  else if mn ≠ 0x59 then (s.wr CL_SEC_SEC 0).wr CL_MIN_MIN (toBcd (bcd 2 mn + 1))
  else ((s.wr CL_SEC_SEC 0).wr CL_MIN_MIN 0).wr CL_HOUR_HOUR (toBcd (bcd 2 hr + 1))

/-! ### Piccolo edges (R338–R341) -/

/-- The next edge carries a trim correction (R340). -/
def trimDue (s : State) : Bool :=
  let t := s.cl.trim.natAbs
  let j := s.cl.raw
  s.cl.trimOwed.isSome || decide (j * t / 33554432 < (j + 1) * t / 33554432)

/-- The correction of the next edge advances SUBSEC: one that was moved keeps the trim it was made under (R339, R340). -/
def trimUp (s : State) : Bool := s.cl.trimOwed.getD (decide (0 ≤ s.cl.trim))

/-- A commit waits for the next edge (R338). -/
def commitWaits (s : State) : Bool := s.cl.setTime.isSome || s.cl.setWday.isSome

/-- The calendar can take an edge now: one is there, and the roll-over of the edge before is done. -/
def edgeReady (s : State) : Bool := s.cl.edges != 0 && !s.cl.rollDue

/-- Take an edge: its number in the trim window passes, a new window takes the trim written (R340). -/
def takeEdge (s : State) : State :=
  let j := (s.cl.raw + 1) % 33554432
  { s with cl := { s.cl with
    edges := s.cl.edges - 1, raw := j, trim := if j = 0 then s.rdS CL_TRIM_T else s.cl.trim, wdaySet := s.cl.wdaySet - 1 } }

/-- SUBSEC advances by `n`; passing 32,767 makes the roll-over due (R334). -/
def subsecAdd (n : Nat) (s : State) : State :=
  let v := s.rd CL_SUBSEC_SUBSEC + n
  { s.wr CL_SUBSEC_SUBSEC (v % 32768) with cl := { s.cl with rollDue := s.cl.rollDue || decide (32768 ≤ v) } }

/-- Edges that carry nothing but the count, up to the first that carries more. -/
def plainEdges : Nat → State → State
  | 0, s => s
  | n + 1, s =>
    if edgeReady s && !commitWaits s && !trimDue s && s.cl.shift == 0 then plainEdges n (subsecAdd 1 (takeEdge s)) else s

/-- The edges that wait, after one has been handled. -/
def State.moreEdges (s : State) : State := plainEdges s.cl.edges s

/-- One nanosecond of the Cellar: at a raw Piccolo pulse the calendar, the freeze and the operating seconds advance (R334, R337,
R344). -/
def State.cellarCycle (s : State) : State :=
  if !s.cl.runs then s
  else
    let p := s.cl.phase + 32768
    if p < 1000000000 then { s with cl := { s.cl with phase := p } }
    else
      let n := s.cl.ops + (if s.rd CL_STATUS_SUPPLY = 0 then 1 else 0)
      let s := { s with cl := { s.cl with
        phase := p - 1000000000, edges := s.cl.edges + 1, vbatWait := s.cl.vbatWait - 1, ops := n % 32768, opsDue := s.cl.opsDue + n / 32768
        freeze := s.cl.freeze.map (fun (f : Nat × Nat × List Nat) => (f.1, f.2.1 + 1, f.2.2)) } }
      s.moreEdges

/-- CALENDAR_ROLLOVER (R334). -/
def execCalendarRollover (s : State) : Host.Outcome State Fault Refusal :=
  if s.cl.rollDue then
    let t := calRoll s
    .next ({ t with cl := { t.cl with rollDue := false } }).moreEdges
  else .next s

/-- CALENDAR_COMMIT (R338, R339): the edge sets the time, which stands against roll-over, trim and shift, or the weekday, which
stands against the midnight advance of that edge. -/
def execCalendarCommit (s : State) : Host.Outcome State Fault Refusal :=
  if !(edgeReady s && commitWaits s) then .next s
  else
    let trim := if trimDue s then some (trimUp s) else none
    let s := s.wr CL_STATUS_PEND 0
    match s.cl.setTime with
    | some (t, d) =>
      let s := takeEdge s
      let s := ((s.wr CL_SEC_SEC (bits t 6 0)).wr CL_MIN_MIN (bits t 14 8)).wr CL_HOUR_HOUR (bits t 21 16)
      let s := ((s.wr CL_DAY_DAY (bits d 5 0)).wr CL_MONTH_MONTH (bits d 12 8)).wr CL_YEAR_YEAR (bits d 31 16)
      let s := ((s.wr CL_SUBSEC_SUBSEC 0).wr CL_STATUS_CAL_VALID 1).wr CL_STATUS_SHIFT_BUSY 0
      let s := { s with cl := { s.cl with setTime := none, shift := 0, trimOwed := trim } }
      .next (if s.cl.freeze.isSome then s.endFreeze.moreEdges else s.moreEdges)
    | none =>
      let w := s.cl.setWday.getD 0
      let s := s.wr CL_WDAY_WDAY w
      .next ({ s with cl := { s.cl with setWday := none, wdaySet := 2 } }).moreEdges

/-- TRIM_CORRECTION (R340). -/
def execTrimCorrection (s : State) : Host.Outcome State Fault Refusal :=
  if edgeReady s && !commitWaits s && trimDue s then
    let up := trimUp s
    let s := takeEdge { s with cl := { s.cl with trimOwed := none } }
    .next ((subsecAdd (if up then 2 else 0) s).moreEdges)
  else .next s

/-- SHIFT_STEP (R341). -/
def execShiftStep (s : State) : Host.Outcome State Fault Refusal :=
  if edgeReady s && !commitWaits s && !trimDue s && s.cl.shift != 0 then
    let k := s.cl.shift
    let k' := if 0 < k then k - 1 else k + 1
    let s := takeEdge { s with cl := { s.cl with shift := k' } }
    let s := subsecAdd (if 0 < k then 2 else 0) s
    let s := if k' = 0 then (s.wr CL_STATUS_SHIFT_BUSY 0).clEvent CL_EVENT_SHIFT_DONE else s
    .next s.moreEdges
  else .next s

/-- OPS_SECOND (R344). -/
def execOpsSecond (s : State) : Host.Outcome State Fault Refusal :=
  if s.cl.opsDue = 0 then .next s
  else
    let s := { s with cl := { s.cl with opsDue := s.cl.opsDue - 1 } }
    if s.rd CL_OPS_OPS + 1 < 3600 then .next (s.wr CL_OPS_OPS (s.rd CL_OPS_OPS + 1))
    else .next ((s.wr CL_OPS_OPS 0).inc CL_OPH_OPH)

/-! ### The CL_ page (R338–R348) -/

/-- Digits of a BCD number of `n` digits are decimal. -/
def bcdOk : Nat → Nat → Bool
  | 0, _ => true
  | n + 1, x => decide (x % 16 ≤ 9) && bcdOk n (x / 16)

/-- The staged time and date can be set (R338). -/
def calOk (t d : Nat) : Bool :=
  let y := bcd 4 (bits d 31 16)
  let m := bcd 2 (bits d 12 8)
  let dd := bcd 2 (bits d 5 0)
  bcdOk 2 (bits t 6 0) && bcdOk 2 (bits t 14 8) && bcdOk 2 (bits t 21 16) && bcdOk 4 (bits d 31 16) &&
    bcdOk 2 (bits d 12 8) && bcdOk 2 (bits d 5 0) && decide (bcd 2 (bits t 6 0) ≤ 59) &&
    decide (bcd 2 (bits t 14 8) ≤ 59) && decide (bcd 2 (bits t 21 16) ≤ 23) && decide (2000 ≤ y) && decide (y ≤ 2199) &&
    decide (1 ≤ m) && decide (m ≤ 12) && decide (1 ≤ dd) && decide (dd ≤ monthDays y m)

/-- A refused or discarded write (R338, R341, R345, R348). -/
def clRefuse (s : State) : State := s.clEvent CL_EVENT_REFUSED

/-- A write of CL_CMD (R338). -/
def clCmd (v : Nat) (s : State) : State :=
  match v % 4 with
  | 1 =>
    let t := s.word CL_SET_TIME_SEC.addr
    let d := s.word CL_SET_DATE_DAY.addr
    if calOk t d then ({ s with cl := { s.cl with setTime := some (t, d) } }).wr CL_STATUS_PEND 1 else clRefuse s
  | 2 => ({ s with cl := { s.cl with setWday := some (bits v 10 8) } }).wr CL_STATUS_PEND 1
  | _ => s

/-- A write of CL_SHIFT (R341). -/
def clShift (v : Nat) (s : State) : State :=
  if s.on CL_STATUS_SHIFT_BUSY then clRefuse s
  else
    let k := sext 16 v
    if k = 0 then s else ({ s with cl := { s.cl with shift := k } }).wr CL_STATUS_SHIFT_BUSY 1

/-- A write of CL_OPH or CL_PCYC (R345). -/
def clCnt (f : Fld) (v : Nat) (s : State) : State :=
  if s.on CL_STATUS_CNT_LOST ∧ s.rd f ≤ v then
    let s := s.wr f v
    if f = CL_PCYC_PCYC then s.wr CL_STATUS_CNT_LOST 0 else s
  else clRefuse s

/-- A byte of the retentive area, and writing bytes into it: the first write after a loss clears RET_LOST (R342). -/
def State.retByte (s : State) (a : Nat) : Byte := agetD s.cl.ret a 0
def State.retLoad (s : State) (a n : Nat) : List Byte := (List.range n).map (fun i => s.retByte ((a + i) % 16384))
def State.retStore (s : State) (a : Nat) (b : List Byte) : State :=
  let m := (b.zipIdx).foldl (fun (m : List Host.Cell) (p : Byte × Nat) => cput 0 m ((a + p.2) % 16384) p.1) s.cl.ret
  ({ s with cl := { s.cl with ret := m } }).wr CL_STATUS_RET_LOST 0

/-- The save engine writes a record, and accesses to the window wait (R342). -/
def State.retBusy (s : State) : Bool :=
  !s.cl.retHeld.isEmpty || (match s.lg.run with
    | some x => x.rcd && !x.half
    | none => false)

/-- CL_RET_DATA read and written: each access advances the address; one that meets a save waits until its record is written (R342). A
write that waits is answered at once. -/
def retNext (s : State) : State := s.wr CL_RET_ADDR_ADDR (s.rd CL_RET_ADDR_ADDR + 1)
def retHold (r : Requester) (v : Option Word) (s : State) : State :=
  let a : Access := { req := r, addr := BitVec.ofNat 40 (addrRegs + 0x500A4), write := v }
  retNext { s with cl := { s.cl with retHeld := s.cl.retHeld ++ [(a, s.rd CL_RET_ADDR_ADDR * 4)] } }
def retRead (r : Requester) (s : State) : Option Nat × State :=
  if s.retBusy then (none, retHold r none s) else (some (leNat (s.retLoad (s.rd CL_RET_ADDR_ADDR * 4) 4)), retNext s)
def retWrite (r : Requester) (v : Nat) (s : State) : State :=
  if s.retBusy then retHold r (some (BitVec.ofNat 32 v)) s else retNext (s.retStore (s.rd CL_RET_ADDR_ADDR * 4) (leBytes 4 v))

/-- One access that has waited. -/
def retServe (p : Access × Nat) (s : State) : State :=
  match p.1.write with
  | some v => s.retStore p.2 (leBytes 4 v.toNat)
  | none => s.complete { req := p.1.req, addr := p.1.addr.toNat, data := leNat (s.retLoad p.2 4), unsupported := false } true

/-- The accesses that wait for the save engine complete once its record is written. -/
def State.retCycle (s : State) : State :=
  let t := { s with cl := { s.cl with retHeld := [] } }
  if t.retBusy then s else s.cl.retHeld.foldl (fun (u : State) p => retServe p u) t

/-- Writes of the CL_ page. -/
def clWrite (r : Requester) (o v : Nat) (s : State) : State :=
  if (o = 0x30 ∨ o = 0x34 ∨ o = 0x38) ∧ commitWaits s then clRefuse s
  else if o = 0x38 then clCmd v s
  else if o = 0x3C then s.wr CL_TRIM_T (if v % 65536 = 0x8000 then 0x8001 else v)
  else if o = 0x40 then clShift v s
  else if o = 0x50 then clCnt CL_OPH_OPH v s
  else if o = 0x58 then clCnt CL_PCYC_PCYC v s
  else if o = 0xA4 then retWrite r v s
  else s.swPut (0x50000 + o) v

/-- Reads of the CL_ page that are more than the register's value: none where the read waits (R337). -/
def clRead (r : Requester) (o : Nat) (s : State) : Option (Option Nat × State) :=
  if 0x10 ≤ o ∧ o ≤ 0x2C then some (calRead r ((o - 0x10) / 4) s)
  else if o = 0xA4 then some (retRead r s)
  else if 0xD0 ≤ o ∧ o ≤ 0xDC then
    some (some (leAt (agetD s.start.cl.tlog (s.rd0 CL_TLOG_IDX_IDX) []) ((o - 0xD0) / 4 * 4) 4), s)
  else none

end Sys2Proof.Machine
end

