-- ==== Sys2Proof/Machine/Programs.lean ====
section
/-!
DEFINITION. Programs and forces as the dispatcher and the lanes meet them (12_logic_engine.md R293–R296, R304, R305): the
fields of their tables, the programs' cycles and the forces that act.
-/
namespace Sys2Proof.Machine

/-! ### Program descriptors (R293) -/

def pgState (b : List Byte) : Nat := leAt b 0 2 / 16384
def pgVi (b : List Byte) : Nat := leAt b 0 2 % 512
def pgFirst (b : List Byte) : Nat := leAt b 2 2 % 8192
def pgTaskN (b : List Byte) : Nat := leAt b 4 1 % 128
def pgN (b : List Byte) : Nat := leAt b 5 1
def pgCph (b : List Byte) : Nat := leAt b 6 1
def pgSlotBase (b : List Byte) : Nat := leAt b 8 2 % 32768
def pgSlotN (b : List Byte) : Nat := leAt b 10 2 % 8192
def pgSig (b : List Byte) : Nat := leAt b 12 4
def pgHome (b : List Byte) : Nat := leAt b 16 5
def pgHomeUnits (b : List Byte) : Nat := leAt b 24 4 % 2 ^ 21
def pgFbt (b : List Byte) : Nat := leAt b 28 5
def pgFbtN (b : List Byte) : Nat := leAt b 34 2 % 8192
def pgPnt (b : List Byte) : Nat := leAt b 36 5
def pgPntN (b : List Byte) : Nat := leAt b 42 2 % 1024
def pgRmap (b : List Byte) : Nat := leAt b 44 5
def pgRmapN (b : List Byte) : Nat := leAt b 49 1 % 64
def pgRetOfs (b : List Byte) : Nat := leAt b 50 2 % 1024
def pgRetUnits (b : List Byte) : Nat := leAt b 52 2 % 1024

/-- The contents that a WRITE of `b` gives a program: its reserved bits read 0 (R8, R293). -/
def prgStored (b : List Byte) : List Byte :=
  leBytes 2 (pgVi b) ++ leBytes 2 (pgFirst b) ++ leBytes 1 (pgTaskN b) ++ slice b 5 2 ++ [0] ++ leBytes 2 (pgSlotBase b) ++
    leBytes 2 (pgSlotN b) ++ slice b 12 9 ++ leBytes 3 0 ++ leBytes 4 (pgHomeUnits b) ++ slice b 28 5 ++ [0] ++
    leBytes 2 (pgFbtN b) ++ slice b 36 5 ++ [0] ++ leBytes 2 (pgPntN b) ++ slice b 44 5 ++ leBytes 1 (pgRmapN b) ++
    leBytes 2 (pgRetOfs b) ++ leBytes 2 (pgRetUnits b) ++ leBytes 10 0

/-- The logic engine's event (R313). -/
def State.lgEvent (s : State) (f : Fld) : State := s.event f ES_LG

/-- The logic engine writes an event record (R312). -/
def State.lgRecord (s : State) (code data : Nat) : State := s.record 0x09 code data

/-- Program `p`. -/
def State.prg (s : State) (p : Nat) : Prg := agetD s.lg.prgs p {}

/-- ACTIVE_N shows how many programs run (R312). -/
def State.showActive (s : State) : State :=
  s.wr LG_STATUS_ACTIVE_N (s.lg.prgs.filter (fun (p : Nat × Prg) => decide (2 ≤ pgState p.2.bytes))).length

/-- Replace program `p`. -/
def State.setPrg (s : State) (p : Nat) (x : Prg) : State :=
  ({ s with lg := { s.lg with prgs := aput s.lg.prgs p x } }).showActive

/-- STATE of a program descriptor replaced (R294). -/
def withPgState (b : List Byte) (v : Nat) : List Byte := splice b 0 (leBytes 2 (setBits (leAt b 0 2) 15 14 v))

/-- Whether a program runs: ACTIVE or XCH_PENDING (R294). -/
def pgRuns (b : List Byte) : Bool := decide (2 ≤ pgState b)

/-- The running program in whose chain task `t` lies, if any (R293). -/
def State.programOf (s : State) (t : Nat) : Option Nat :=
  (s.lg.prgs.find? (fun (p : Nat × Prg) =>
    pgRuns p.2.bytes && decide (pgFirst p.2.bytes ≤ t) && decide (t < pgFirst p.2.bytes + pgTaskN p.2.bytes))).map
      (fun p => p.1)

/-- Whether task `t` is the head, and the tail, of the program. -/
def pgIsHead (b : List Byte) (t : Nat) : Bool := t == pgFirst b
def pgIsTail (b : List Byte) (t : Nat) : Bool := t + 1 == pgFirst b + pgTaskN b

/-- A program's counters, kept under internal offsets in the layout of LG_PST0–3 (R312). -/
def lgCnt (f : Fld) (p : Nat) : Fld := { f with addr := f.addr - 0x8000A0 + 0x3600000 + p * 0x10 }

/-! ### Forces (R304, R305) -/

def frState (b : List Byte) : Nat := leAt b 0 1 / 64
def frPoint (b : List Byte) : Nat := leAt b 0 1 % 8
def frPrg (b : List Byte) : Nat := leAt b 1 1
def frRef (b : List Byte) : Nat := leAt b 2 2 % 32768
def frArg (b : List Byte) : Nat := leAt b 4 1
def frType (b : List Byte) : Nat := leAt b 5 1
def frHash (b : List Byte) : List Byte := slice b 8 8
def frValue (b : List Byte) : List Byte := slice b 16 8
def frQual (b : List Byte) : Nat := leAt b 24 2

/-- Force entry `e`. -/
def State.frc (s : State) (e : Nat) : Frc := agetD s.lg.frcs e {}

/-- A force that acts at point `point` for program `p` with the REF and ARG given: ACTIVE, and CLEARING until its boundary
(R305); none acts while LG_CTRL.EN is 0 (R312, log entry 55). -/
def State.forceAt (s : State) (p point ref arg : Nat) : Option (List Byte) :=
  if !s.on LG_CTRL_EN then none
  else
  (s.lg.frcs.find? (fun (e : Nat × Frc) =>
    let b := e.2.bytes
    decide (2 ≤ frState b) && frPrg b == p && frPoint b == point &&
      (point == 3 || frRef b == ref) && (point == 1 || point == 4 || frArg b == arg))).map (fun e => e.2.bytes)

/-- The IN force on operand slot `i` at a start of task `t` (R305). -/
def State.forceIn (s : State) (t i : Nat) : Option (List Byte) :=
  match s.programOf t with
  | none => none
  | some p =>
    let b := (s.prg p).bytes
    if pgSlotBase b ≤ i ∧ i < pgSlotBase b + pgSlotN b then s.forceAt p 1 i 0 else none

/-! ### Cycles of a program (R295, R296) -/

/-- The first grid tick number after the tick `g` that is a boundary of the program: tick 0 of a triad T with T mod N = CPH. -/
def nextBoundary (b : List Byte) (g : Nat) : Nat :=
  let t := g / 3 + 1
  let n := max 1 (pgN b)
  3 * (t + (pgCph b + n - t % n) % n)

/-- The mark of a boundary is written into the head's CYCLE slot: its cycle is due, or lost where the mark finds FRESH, which counts
in SKIP (R296). -/
def State.cycleMark (s : State) (slot : Nat) : State :=
  let b := s.slotNow slot
  let t := sTask b
  match s.programOf t with
  | none => s
  | some p =>
    let x := s.prg p
    if !pgIsHead x.bytes t ∨ sKind b ≠ 5 ∨ x.opened.isNone then s
    else if sFresh b then ((s.setPrg p { x with opened := none }).inc (lgCnt LG_PST3_SKIP p)).lgEvent LG_EVENT_SKIP
    else s.setPrg p { x with opened := none, due := x.opened }

/-- Cycle time in whole microseconds, as LAST_US and MAX_US hold it (R296). -/
def cycleUs (a b : Nat) : Nat := min ((b - a) / uUs) 131071

/-- LAST_US and MAX_US take a cycle time, which a latch of the same cycle leaves in MAX_US (R11). -/
def State.cycleTime (s : State) (p us : Nat) : State :=
  let f := lgCnt LG_PST2_MAX_US p
  let ev := max (bits (s.evWord f.addr) f.hi f.lo) us
  let t := (s.wr (lgCnt LG_PST1_LAST_US p) us).wr f (max (s.rd f) us)
  { t with evc := aput t.evc f.addr (BitVec.ofNat 32 (setBits (t.evWord f.addr) f.hi f.lo ev)) }

/-- A cycle begun at boundary tick `g` that ends later than the next boundary's instant counts in OVERRUN (R296). -/
def State.cycleLate (s : State) (p g : Nat) : State :=
  if decide (tickRep (nextBoundary (s.prg p).bytes g) < s.now) then
    (s.inc (lgCnt LG_PST3_OVERRUN p)).lgEvent LG_EVENT_OVERRUN
  else s

/-- A pending exchange notes the cycle end of its old program (R310). -/
def State.xchCycleEnd (s : State) (p : Nat) : State :=
  match s.lg.xch with
  | some y => if y.old = p then { s with lg := { s.lg with xch := some { y with ended := true } } } else s
  | none => s

/-- A save joins those that wait, in order of cycle end and then of program number (R301). -/
def insSave (x : SaveReq) : List SaveReq → List SaveReq
  | [] => [x]
  | y :: t => if x.cyc < y.cyc ∨ (x.cyc = y.cyc ∧ x.prg < y.prg) then x :: y :: t else y :: insSave x t

/-- The cycle end of program `p` (R295, R296, R301): in the cycle in which the lane of the tail's run becomes free. -/
def State.cycleEnd (s : State) (p : Nat) : State :=
  let s := s.xchCycleEnd p
  match (s.prg p).cur with
  | none => s
  | some o =>
    let t := s.setPrg p { s.prg p with cur := none }
    let t := (t.cycleTime p (cycleUs (tickRep o.2) s.now)).cycleLate p o.2
    if t.on LG_CTRL_EN ∧ t.on LG_CTRL_SAVE_EN then
      { t with lg := { t.lg with saves := insSave { cyc := t.cyc, prg := p, seq := o.1 } t.lg.saves } }
    else t

/-- A save of program `p` in the engine, which has not ended by this cycle, or waiting is abandoned (R301). -/
def State.abandonSave (s : State) (p : Nat) : State :=
  let hit := match s.lg.run with
    | some r => r.prg == p && decide (s.cyc < r.stop)
    | none => false
  let waits := s.lg.saves.filter (fun w => w.prg == p)
  let n := b2n hit + waits.length
  if n = 0 then s
  else
    let s := { s with lg := { s.lg with
      run := if hit then none else s.lg.run, saves := s.lg.saves.filter (fun w => w.prg != p) } }
    (s.count (lgCnt LG_PST3_SAVE_ABORT p) n).lgEvent LG_EVENT_SAVE_ABORT

/-- What the logic engine notes at a start of task `t` (R295, R301, R310): the head's next run abandons a save not ended and serves
the cycle due, where it takes a CYCLE mark (`marked`); a run of an old program makes an exchange copy stale. -/
def State.lgStart (s : State) (t : Nat) (marked : Bool) : State :=
  match s.programOf t with
  | none => s
  | some p =>
    let s := if pgIsHead (s.prg p).bytes t then
        let u := s.abandonSave p
        u.setPrg p { u.prg p with cur := if marked then (u.prg p).due else none, due := if marked then none else (u.prg p).due }
      else s
    match s.lg.xch with
    | some y =>
      if y.old = p ∧ y.copy.isSome then { s with lg := { s.lg with xch := some { y with dirty := true } } } else s
    | none => s

end Sys2Proof.Machine
end

