-- ==== Sys2Proof/Machine/Lanes.lean ====
section
/-!
DEFINITION. Runs, lanes and clusters (09_lanes_kernels.md R237–R244, R253, R254; 20_events_errors.md R489, R490): the run in a
lane, its memory, lane faults and fenced clusters.
-/
namespace Sys2Proof.Machine

/-- Set bit 19 of the pending sources: a containment action (R489). -/
def ES_CONTAIN : Nat := 19

/-- Whether no task of cluster `c` can start: fenced, or its quadrant is not ON (R219, R440). -/
def State.clusterOff (s : State) (c : Nat) : Bool := s.fenced c || s.dom (2 + c / 8) != 1

/-- A domain that fails or a cluster that is fenced in DISCOVER or SERVICE degrades the start at once; before, the minimum set decides at
the sections' application (R440). -/
def State.degrade (s : State) : State :=
  if s.rd BT_STATUS_STATE = 5 ∨ s.rd BT_STATUS_STATE = 6 then s.wr PM_STATUS_DEGRADED 1 else s

/-- Fence cluster `c` (R30, R441, R489, R490): the fence bit, the degraded start, the events and a record. -/
def State.fence (s : State) (c : Nat) : State :=
  if s.fenced c then s
  else
    let t := (s.wr PM_FENCE_FENCE (s.rd PM_FENCE_FENCE ||| 2 ^ c)).degrade
    ((t.event PM_EVENT_FENCE ES_PM).raise ES_CONTAIN).record 0x01 0x05 c

/-- The run of lane `l`. -/
def State.laneRun (s : State) (l : Nat) : Option Run := aget s.ln.runs l
def State.setRun (s : State) (l : Nat) (r : Run) : State := { s with ln := { s.ln with runs := aput s.ln.runs l r } }
def State.dropRun (s : State) (l : Nat) : State := { s with ln := { s.ln with runs := adel s.ln.runs l } }

/-- Address of the invocation record that a run has reached (R238). -/
def recordAddr (l : Nat) (r : Run) : Nat := addrCluster (l / 8) + r.entry * 64 + 16 + 16 * r.inv

/-- A lane writes the unit at `a`: of two lanes that write it in one cycle the higher one prevails (R251). -/
def State.laneStore (s : State) (l a : Nat) (b : List Byte) : State :=
  let w := if s.ln.wroteAt = s.cyc then s.ln.wrote else []
  if w.any (fun (x : Nat × Nat) => x.1 == a && decide (l < x.2)) then s
  else { s.store a b with ln := { s.ln with wrote := (a, l) :: w, wroteAt := s.cyc } }

/-- Kernel code of that record. -/
def State.recordCode (s : State) (l : Nat) (r : Run) : Nat := s.loadN (recordAddr l r) 1 % 64

/-- An ECC lane fault in cluster `c`: the third within 4,800 raised ticks fences it (R489). -/
def State.countEcc (s : State) (c : Nat) : State :=
  let l := s.clk.raised :: (agetD s.ic.laneEcc c []).filter (fun n => decide (s.clk.raised < n + 4800))
  let t := { s with ic := { s.ic with laneEcc := aput s.ic.laneEcc c l } }
  if 3 ≤ l.length then t.fence c else t

/-- Lane fault of the run in lane `l` (R253, R254): the run stops, the fault record is written with FAULTS last, and the
lane-fault event is raised. -/
def laneFault (l cause : Nat) (s : State) : State :=
  match s.laneRun l with
  | none => s
  | some r =>
    let a := addrLane l + 0xFF00
    let body := leBytes 1 cause ++ leBytes 1 (s.recordCode l r) ++ leBytes 2 r.inv ++ leBytes 2 r.task ++
      leBytes 2 (r.gen * 4096 + r.vi) ++ leBytes 4 r.startCy ++ stampBytes s.gov s.nowStamp
    let t := (s.mapStore (a + 4) body).mapStore a (leBytes 4 (s.loadN a 4 + 1))
    let t := (t.setRun l { r with stopped := true, staged := [] }).raise (64 + l / 8)
    if cause = 6 then t.countEcc (l / 8) else t

/-- Why the record that a run reaches in this cycle, or has reached, cannot be fetched: it lies beyond the cluster's shared SRAM
(R16), or a word of it is lost (R253). -/
def State.fetchFault (s : State) (l : Nat) (r : Run) : Option Nat :=
  let a := recordAddr l r
  if r.ended ∨ r.stopped ∨ s.cyc < r.next then none
  else if addrCluster (l / 8) + 0x80000 < a + 16 then some 1
  else if s.ic.badWords.contains a ∨ s.ic.badWords.contains (a + 8) then some 6
  else none

/-- A record that cannot be fetched faults at once (R253). -/
def faultFetch (l : Nat) (r : Run) (s : State) : State :=
  match s.fetchFault l r with
  | some c => laneFault l c s
  | none => s

/-- Whether a run belongs to a former generation or a fenced cluster (R232, R490). -/
def State.runStale (s : State) (l : Nat) (r : Run) : Bool := r.gen != s.gen r.vi || s.fenced (l / 8)

/-- Stop a stale run (R232): it issues no staged result. -/
def stopStale (l : Nat) (r : Run) (s : State) : State :=
  let t := s.setRun l { r with stopped := true, staged := [] }
  if r.gen ≠ s.gen r.vi then t.inc DS_G_GEN_DROP else t

/-- The staged results of a run are requested together in its last cycle, in invocation order (R243). -/
def requestStaged (l : Nat) (r : Run) (s : State) : State :=
  r.staged.zipIdx.foldl (fun (t : State) (q : (Nat × Nat × List Byte) × Nat) =>
    let p := q.1
    (t.noteHand r.tick (r.start + r.cost - 1) l r.task 0x3D p.1 r.ready p.2.2).request
      { due := r.start + r.cost + 5, kind := 1, ord := q.2, seq := 0, slot := p.2.1, value := p.2.2, qual := leAt p.2.2 4 2,
        vi := r.vi, gen := r.gen }) s

/-- The lane becomes free in cycle start + COST (R242, R295); on a pair the run end of a map group's last task opens the group's
read (R472). -/
def freeLane (l : Nat) (r : Run) (s : State) : State :=
  let t := if r.stopped then s else if s.runStale l r then stopStale l r s else requestStaged l r s
  let t := stateGroupSend r.task r.tick (t.dropRun l)
  match t.programOf r.task with
  | none => t
  | some p => if pgIsTail (t.prg p).bytes r.task then t.cycleEnd p else t

/-- RUN_END (R242, R243). -/
def execRunEnd (l : Fin 256) (s : State) : Host.Outcome State Fault Refusal :=
  whileOn (2 + l.val / 64) s <|
  match s.laneRun l with
  | none => .next s
  | some r => if (r.ended ∨ r.stopped) ∧ r.start + r.cost ≤ s.cyc then .next (freeLane l r s) else .next s

/-- A run not ended at start + COST is stopped as a lane fault of cause COST (R212). -/
def costOver (l : Nat) (r : Run) (s : State) : State :=
  let t := ((laneFault l 5 s).inc (tcnt DS_TCNT1_COST_OVER r.task)).event DS_EVENT_COST_OVER ES_DS
  freeLane l { r with stopped := true, staged := [] } t

/-- COST_OVER_STOP (R212). -/
def execCostOverStop (l : Fin 256) (s : State) : Host.Outcome State Fault Refusal :=
  whileOn (2 + l.val / 64) s <|
  match s.laneRun l with
  | none => .next s
  | some r =>
    if ¬ r.ended ∧ ¬ r.stopped ∧ r.start + r.cost ≤ s.cyc then .next (costOver l r s) else .next s

/-- A lane whose run has reached start + COST is free, whatever has been noted of it (R242). -/
def settleLane (l : Nat) (s : State) : State :=
  match s.laneRun l with
  | none => s
  | some r =>
    if s.cyc < r.start + r.cost then s
    else if r.ended ∨ r.stopped then freeLane l r s else costOver l r s

/-- The kernel boundaries of a cycle (R232, R490): a run that reaches one while it is stale stops there, one whose record cannot be
fetched faults. -/
def State.laneCycle (s : State) : State :=
  s.ln.runs.foldl (fun (t : State) (p : Nat × Run) =>
    if p.2.next = t.cyc ∧ ¬ p.2.ended ∧ ¬ p.2.stopped ∧ t.runStale p.1 p.2 then stopStale p.1 p.2 t
    else if p.2.next = t.cyc then faultFetch p.1 p.2 t else t) s

end Sys2Proof.Machine
end

