-- ==== Sys2Proof/Machine/Dispatcher.lean ====
section
/-!
DEFINITION. The dispatcher (08_dispatch.md): marks at the general port, slotted and ready starts, the entry area, deadlines,
budgets, flows and the DS_ registers.
-/
namespace Sys2Proof.Machine

/-- Set a DS_EVENT bit and raise the dispatcher event (R236). -/
def State.dsEvent (s : State) (f : Fld) : State := s.event f ES_DS

/-- The events that an instance's counters in DS_VI_v count count on its own page too (R220, R224, R225). -/
def State.viCount (s : State) (f g : Fld) (v : Nat) : State := (s.inc (f.i v)).inc (g.p v)

/-! ### The general port (R217, R218) -/

/-- Write the mark of a request. -/
def writeMark (r : MarkReq) (s : State) : State :=
  let t := if r.kind = 3 then s.cycleMark r.slot else s
  let t := { t with ic := { t.ic with badSlots := t.ic.badSlots.erase r.slot } }
  t.mark r.slot r.value r.qual (if r.kind = 0 then some r.frame else none)

/-- The request has passed the port: a GOOSE frame's last one shows the frame (R218). -/
def State.passMark (s : State) (r : MarkReq) : State := if r.kind = 0 then s.showFrame r.frame else s

/-- GENERAL_PORT_MARK (R217, R218): one request in each cycle; a mark of a former generation is discarded (R232), and none is
written while DS_CTRL.EN is 0 (R235). -/
def execGeneralPortMark (s : State) : Host.Outcome State Fault Refusal :=
  whileOn 6 s <|
  if s.ds.portAt = some s.cyc then .next s
  else
    match s.nextMark with
    | none => .next s
    | some r =>
      let t := { s with ds := { s.ds with marks := s.ds.marks.filter (fun x => x.seq != r.seq), portAt := some s.cyc } }
      let t := t.count DS_G_PORT_HOLD t.heldMarks
      if r.gen ≠ s.gen r.vi then .next ((t.inc DS_G_GEN_DROP).passMark r)
      else if ¬ s.on DS_CTRL_EN then .next (t.passMark r)
      else .next ((writeMark r t).passMark r)

/-! ### Operands at a start (R214, R220, R222, R231, R305) -/

/-- An operand as a start delivers it. -/
structure Opnd where
  slot : Nat
  bytes : List Byte
  absent : Bool
  miss : Bool
  fresh : Bool
deriving DecidableEq, Repr

/-- Whether the VALUE of a SET operand names the set that the running tick `g` wants (R220). -/
def setMatches (b : List Byte) (g : Nat) : Bool :=
  sKind b != 1 || sValue b % 65536 == (g % 65536 + 65536 - sLag b) % 65536

/-- Present at a slotted start in tick `g` (R220). -/
def presentSlotted (g : Nat) (b : List Byte) : Bool :=
  sMarks b && (if sLevel b then sWritten b else sFresh b) && setMatches b g

/-- Present at a ready start (R216, R222, R230). -/
def presentReady (p : Pend) (b : List Byte) : Bool :=
  sMarks b && if sLevel b then sWritten b else sFresh b && (!p.timedOut || decide (sStamp b * uSt ≤ p.deadline))

/-- Operand slot `i` as a start of task `t` delivers it; a slot lost to an uncorrectable error is absent (R489), an IN force
makes it present (R305). -/
def State.operand (s : State) (t : Nat) (present : List Byte → Bool) (i : Nat) : Opnd :=
  let b := s.slotNow i
  match s.forceIn t i with
  | some f =>
    { slot := i, bytes := frValue f ++ leBytes 2 (setBits (frQual f) 10 10 1) ++ slice b 10 18, absent := false,
      miss := false, fresh := true }
  | none =>
    let ok := present b && !s.ic.badSlots.contains i
    { slot := i, bytes := slice b 0 28, absent := !ok, miss := !ok && !sLevel b, fresh := sFresh b }

/-- The operands of a start of task `t`. -/
def State.operands (s : State) (t : Nat) (present : List Byte → Bool) : List Opnd :=
  (List.range (min 16 (tOpN (s.task t)))).map (fun i => s.operand t present (tOpBase (s.task t) + i))

/-- Bytes of an operand entry (R231). -/
def Opnd.entry (o : Opnd) : List Byte :=
  o.bytes ++ leBytes 4 (b2n o.absent + 2 * b2n o.miss + 4 * b2n o.fresh)

/-- ABSENT_MASK of the operands. -/
def absentMask (os : List Opnd) : Nat :=
  ((os.zip (List.range os.length)).map (fun (p : Opnd × Nat) => b2n p.1.absent * 2 ^ p.2)).foldl (· + ·) 0

/-- The header of the entry area (R231). -/
def State.entryHeader (s : State) (t : Nat) (os : List Opnd) (p : Option Pend) : List Byte :=
  let v := tVi (s.task t)
  let times := match p with
    | some p => stampBytes s.gov p.release ++ stampBytes s.gov (p.deadline / uSt)
    | none => leBytes 24 0
  leBytes 2 t ++ leBytes 2 (s.gen v * 4096 + v) ++ leBytes 4 (s.tickG / 4800) ++ leBytes 2 (s.tickG % 4800) ++
    leBytes 2 (absentMask os) ++ leBytes 4 s.tickCy ++ times ++ leBytes 24 0

/-- A run consumes its operands (R218): FRESH clears in every slot, except for a mark not yet seen and, at a start after the
deadline, an operand that arrived later (R230). -/
def State.consume (s : State) (i : Nat) (keep : Bool) : State :=
  let o := s.slot i
  let b := o.seen s.cyc
  let unseen := match o.new with
    | some (_, c) => o.group.isSome || decide (s.cyc < c)
    | none => false
  s.setSlot i { o with bytes := if keep then b else withFresh b false, new := if unseen then o.new else none,
                       group := if unseen then o.group else none, used := if sFresh b ∧ !keep then some s.cyc else o.used }

/-- Start a run of task `t` in lane `l` (R218, R231, R237): the entry area, the run and the counters of runs. -/
def startRun (t l : Nat) (p : Option Pend) (os : List Opnd) (s : State) : State :=
  let b := s.task t
  let v := tVi b
  let a := addrLane l
  let u := s.store a (s.entryHeader t os p ++ (os.map Opnd.entry).flatten)
  let u := u.storeN (a + 0xFF20) 4 (u.loadN (a + 0xFF20) 4 + 1)
  let u := u.incW (tcnt DS_TCNT0_RUNS t) 1
  let late : Opnd → Bool := fun o => match p with
    | some q => q.timedOut && !sLevel o.bytes && o.fresh && decide (q.deadline < sStamp o.bytes * uSt)
    | none => false
  let u := os.foldl (fun (x : State) o => x.consume o.slot (late o)) u
  let at' := addrCluster (l / 8) + tEntry b * 64
  let h := s.old.load at' 16
  let r : Run :=
    { task := t, vi := v, gen := s.gen v, flow := if tReady b then tFlow b else 0, ready := tReady b, start := s.cyc,
      startCy := s.tickCy, tick := s.tickG, cost := tCost b, entry := tEntry b, ibase := leAt h 0 4,
      isize := leAt h 4 4, next := s.cyc + 10 }
  let u := (u.setRun l r).lgStart t (os.any (fun o => sKind o.bytes == 5 && o.fresh))
  if s.ic.badWords.contains at' ∨ s.ic.badWords.contains (at' + 8) then laneFault l 6 u
  else if 65536 < leAt h 0 4 + leAt h 4 4 ∨ 65536 ≤ leAt h 0 4 ∨ leAt h 8 8 ≠ 0 then laneFault l 7 u else u

/-- An instance's tasks may start (R395). -/
def State.mayRun (s : State) (v : Nat) : Bool :=
  s.on (VI_CTRL_RUN.p v) && !s.on0 (VI_STATUS_RESETTING.p v) && decide ((s.vi v).runFrom ≤ s.clk.raised)

/-! ### Slotted service (R219) -/

/-- Whether slotted task descriptor `b` runs in grid tick `g`. -/
def dueInTick (b : List Byte) (g : Nat) : Bool :=
  tValid b && !tReady b && decide (0 < tDiv b) && g % 4800 % (tDiv b) == tPh b

/-- Whether task `t` has been started or skipped in the tick in progress. -/
def State.startedInTick (s : State) (t : Nat) : Bool := (((aget s.ds.tasks t).map (fun x => x.lastTick)).getD none) == some s.clk.raised

/-- Note the start or skip of a task in this tick. -/
def State.noteTick (s : State) (t : Nat) : State :=
  match aget s.ds.tasks t with
  | none => s
  | some x => { s with ds := { s.ds with tasks := aput s.ds.tasks t { x with lastTick := some s.clk.raised } } }

/-- A slotted start whose TRIGGER operand is absent counts a miss, once for the run (R220). -/
def countMiss (t : Nat) (os : List Opnd) (s : State) : State :=
  if os.any (fun o => o.miss) then
    ((s.inc (tcnt DS_TCNT1_SLOT_MISS t)).viCount DS_VI_SLOT_MISS VI_CNT0_SLOT_MISS (tVi (s.task t))).dsEvent
      DS_EVENT_SLOT_MISS
  else s

/-- SLOTTED_START (R219, R220): in cycle OFFSET of a due tick the task starts, or is skipped for a fence or a halt. -/
def execSlottedStart (t : Fin 8192) (s : State) : Host.Outcome State Fault Refusal :=
  whileOn 6 s <|
  let b := s.task t
  let l := tLane b
  if ¬ s.on DS_CTRL_EN ∨ s.clk.lastTick.isNone ∨ ¬ dueInTick b s.tickG ∨ s.tickCy ≠ tOffset b ∨ s.startedInTick t then .next s
  else
    let s := s.noteTick t
    if s.clusterOff (l / 8) then .next (s.inc DS_G_FENCE_SKIP)
    else if ¬ s.mayRun (tVi b) then .next (s.inc (VI_CNT4_HALT_SKIP.p (tVi b)))
    else
      let s := settleLane l s
      let os := s.operands t (presentSlotted s.tickG)
      .next (countMiss t os (startRun t l none os s))

/-! ### Ready service (R222–R226) -/

/-- Every TRIGGER operand of task `t` is FRESH, or forced (R222, R305). -/
def State.allFresh (s : State) (t : Nat) : Bool :=
  let b := s.task t
  (List.range (min 16 (tOpN b))).all (fun i =>
    let k := tOpBase b + i
    sLevel (s.slotNow k) || sArrived (s.slotNow k) || (s.forceIn t k).isSome)

/-- TRIGGER operand slot `k` has arrived by the instant `d` and is not yet seen (R218, R230). -/
def State.arrivingIn (s : State) (d k : Nat) : Bool :=
  let l := (s.slot k).latest
  !sLevel l && !sFresh (s.slotNow k) &&
    ((sFresh l && decide (sStamp l * uSt ≤ d)) || (s.marking.contains k && decide (s.nowStamp * uSt ≤ d)))

/-- A TRIGGER operand of task `t` has arrived by the instant `d` and is not yet seen. -/
def State.arriving (s : State) (t d : Nat) : Bool :=
  (List.range (min 16 (tOpN (s.task t)))).any (fun i => s.arrivingIn d (tOpBase (s.task t) + i))

/-- A TRIGGER operand of task `t` has neither arrived by the instant `d` nor is forced (R222, R230). -/
def State.missing (s : State) (t d : Nat) : Bool :=
  (List.range (min 16 (tOpN (s.task t)))).any (fun i =>
    let k := tOpBase (s.task t) + i
    !(sLevel (s.slotNow k) || sArrived (s.slotNow k) || (s.forceIn t k).isSome || s.arrivingIn d k))

/-- REMAIN of an instance (R225). -/
def State.remain (s : State) (v : Nat) : Nat := agetD s.ds.remain v 0

/-- Replace the pending run of task `t`. -/
def State.setPend (s : State) (t : Nat) (p : Pend) : State := { s with ds := { s.ds with pend := aput s.ds.pend t p } }
def State.dropPend (s : State) (t : Nat) : State := { s with ds := { s.ds with pend := adel s.ds.pend t } }

/-- The pending run `p` of task `t`, its deadline past (R222, R230): with an operand missing it is timed out, which counts once; it
is ready as soon as no operand that arrived by the deadline is still to be seen. -/
def settlePassed (t : Nat) (p : Pend) (s : State) : State :=
  let late := p.timedOut || s.missing t p.deadline
  let u := s.setPend t { p with passed := true, timedOut := late, ready := if s.arriving t p.deadline then none else some s.cyc }
  if late ∧ !p.timedOut then u.inc (tcnt DS_TCNT1_TIMEOUT t) else u

/-- Whether the flow of task `t` permits its pending run `p` (R226): no run of the flow in service, none ready before it. -/
def State.flowFree (s : State) (t : Nat) (p : Pend) : Bool :=
  let f := tFlow (s.task t)
  f == 0 ||
    (!s.ln.runs.any (fun (x : Nat × Run) => x.2.ready && x.2.flow == f && decide (s.cyc < x.2.start + x.2.cost)) &&
     !s.ds.pend.any (fun (x : Nat × Pend) =>
        x.2.ready.isSome && tFlow (s.task x.1) == f &&
          (decide (x.2.release < p.release) || (x.2.release == p.release && decide (x.1 < t)))))

/-- The descriptor that task entry `x` has in the next tick. -/
def Task.coming (x : Task) : List Byte := x.next.getD x.bytes

/-- The last cycle of the tick in which a run in lane `l` may end, none without bound (R223). -/
def State.laneLimit (s : State) (l : Nat) : Option Nat :=
  let here := s.ds.tasks.filterMap (fun (p : Nat × Task) =>
    if tLane p.2.bytes = l ∧ dueInTick p.2.bytes s.tickG ∧ s.tickCy ≤ tOffset p.2.bytes ∧ ¬ s.startedInTick p.1 then
      some (tOffset p.2.bytes) else none)
  let then' := s.ds.tasks.filterMap (fun (p : Nat × Task) =>
    if tLane p.2.coming = l ∧ dueInTick p.2.coming (s.tickG + 1) then some (tOffset p.2.coming) else none)
  match here.min? with
  | some o => some (o - 1)
  | none => then'.min?.map (fun o => 208290 + o)

/-- Lane `l` is idle and has room for a run of `cost` cycles (R223). -/
def State.laneRoom (s : State) (l cost : Nat) : Bool :=
  (match s.laneRun l with
    | some r => decide (r.start + r.cost ≤ s.cyc)
    | none => true) &&
  (match s.laneLimit l with
    | some m => decide (s.tickCy + cost ≤ m + 1)
    | none => true)

/-- The lowest-numbered lane that takes a run of task `t`. -/
def State.laneFor (s : State) (t : Nat) : Option Nat :=
  let b := s.task t
  ((List.range 8).map (fun i => (tLane b % 32) * 8 + i)).find? (fun l => bit (tLmask b) (l % 8) && s.laneRoom l (tCost b))

/-- A ready run that nothing but its budget or a lane could hold (R223, R226). -/
def State.startable (s : State) (t : Nat) (p : Pend) : Bool :=
  (match p.ready with
    | some r => decide (r + 2 ≤ s.cyc)
    | none => false) &&
  tValid (s.task t) && tReady (s.task t) && s.on DS_CTRL_EN && s.on DS_CTRL_READY_EN && p.gen == s.gen (tVi (s.task t)) && s.mayRun (tVi (s.task t)) &&
  !s.clusterOff (tLane (s.task t) % 32) && s.flowFree t p

/-- The ready run that cluster `c` starts: the earliest deadline, then the lowest task number, among those with budget and a
lane with room (R223). -/
def State.readyChoice (s : State) (c : Nat) : Option (Nat × Pend × Nat) :=
  let able := s.ds.pend.filterMap (fun (x : Nat × Pend) =>
    if tLane (s.task x.1) % 32 = c ∧ s.startable x.1 x.2 ∧ tCost (s.task x.1) ≤ s.remain (tVi (s.task x.1)) then
      (s.laneFor x.1).map (fun l => (x.1, x.2, l)) else none)
  able.foldl (fun (best : Option (Nat × Pend × Nat)) x =>
    match best with
    | none => some x
    | some y => if x.2.1.deadline < y.2.1.deadline then some x else best) none

/-- After a start, marks that it did not consume begin the next pending run, at the earliest of their stamps (R222, R230). -/
def State.beginAgain (s : State) (t : Nat) : State :=
  let b := s.task t
  let ms := (List.range (min 16 (tOpN b))).filterMap (fun i =>
    let o := (s.slot (tOpBase b + i)).latest
    if sFresh o ∧ ¬ sLevel o then some (sStamp o) else none)
  match ms.min? with
  | some r => s.beginPend t r
  | none => s

/-- READY_START (R223–R226): at most one start in a cluster in each cycle. -/
def execReadyStart (c : Fin 32) (s : State) : Host.Outcome State Fault Refusal :=
  whileOn 6 s <|
  if aget s.ds.startAt c = some s.cyc then .next s
  else
    match s.readyChoice c with
    | none => .next s
    | some (t, p, l) =>
      let v := tVi (s.task t)
      let os := s.operands t (presentReady p)
      let u := (settleLane l s).dropPend t
      let u := { u with ds := { u.ds with
        startAt := aput u.ds.startAt c s.cyc, remain := aput u.ds.remain v (s.remain v - tCost (s.task t)) } }
      let u := startRun t l (some p) os u
      let u := if p.deadline < s.now then
          ((u.inc (tcnt DS_TCNT1_DL_MISS t)).viCount DS_VI_DL_MISS VI_CNT0_DL_MISS v).dsEvent DS_EVENT_DL_MISS else u
      .next (u.beginAgain t)

/-- DEADLINE_PASS (R222, R229, R230): a pending run whose deadline has passed becomes ready with its missing operands
absent; an operand that arrived by the deadline is waited for until it is seen. -/
def execDeadlinePass (t : Fin 8192) (s : State) : Host.Outcome State Fault Refusal :=
  whileOn 6 s <|
  match aget s.ds.pend t with
  | none => .next s
  | some p =>
    if p.passed ∨ s.now ≤ p.deadline then .next s
    else if p.gen ≠ s.gen (tVi (s.task t)) then .next ((s.dropPend t).inc DS_G_GEN_DROP)
    else
      let s := if s.stepped p.deadline ∧ ¬ p.passed then s.inc DS_G_STEP_FIRE else s
      if p.ready.isSome then .next (s.setPend t { p with passed := true }) else .next (settlePassed t p s)

/-- Readiness decisions of a cycle (R222, R232): a run of a former generation is dropped, one with every TRIGGER operand FRESH
becomes ready, and one whose deadline has passed as settlePassed says. -/
def State.decideReady (s : State) : State :=
  s.ds.pend.foldl (fun (u : State) (x : Nat × Pend) =>
    if x.2.gen ≠ u.gen (tVi (u.task x.1)) then (u.dropPend x.1).inc DS_G_GEN_DROP
    else if x.2.ready.isNone ∧ x.2.since ≤ u.cyc ∧ u.allFresh x.1 then u.setPend x.1 { x.2 with ready := some u.cyc }
    else if x.2.ready.isNone ∧ x.2.passed then settlePassed x.1 x.2 u
    else u) s

/-- Ready runs held back only for budget count once (R225). -/
def State.countHeld (s : State) : State :=
  s.ds.pend.foldl (fun (u : State) (x : Nat × Pend) =>
    let v := tVi (u.task x.1)
    if ¬ x.2.held ∧ u.startable x.1 x.2 ∧ u.remain v < tCost (u.task x.1) ∧ (u.laneFor x.1).isSome then
      ((u.setPend x.1 { x.2 with held := true }).viCount DS_VI_BUDGET_WAIT VI_CNT0_BUDGET_WAIT v).dsEvent DS_EVENT_BUDGET
    else u) s

/-- The dispatcher at the start of a cycle. -/
def State.dispatchCycle (s : State) : State :=
  if s.ds.pend.isEmpty then s else s.decideReady.countHeld

/-! ### Tick-start events (R211, R215, R225, R233, R234) -/

/-- Descriptors written since the last tick-start event take effect; a pending run begun under the old one since the write is
dropped (R233). -/
def applyTasks (s : State) : State :=
  let changed := fun (t : Nat) => ((aget s.ds.tasks t).map (fun x => x.next.isSome)).getD false
  { s with ds := { s.ds with pend := s.ds.pend.filter (fun (p : Nat × Pend) => !changed p.1), tasks := s.ds.tasks.map (fun (p : Nat × Task) =>
      match p.2.next with
      | some b => (p.1, { bytes := b, next := none, lastTick := p.2.lastTick })
      | none => p) } }

/-- REMAIN becomes BUDGET (R225); a run that waited for it is considered again two cycles on, and counts again where its COST
exceeds the budget. -/
def replenishBudgets (s : State) : State :=
  let rs := (List.range 512).filterMap (fun v => let b := s.rd (DS_VI_BUDGET.i v); if b = 0 then none else some (v, b))
  { s with ds := { s.ds with remain := rs, pend := s.ds.pend.map (fun (x : Nat × Pend) =>
      if x.2.held then
        (x.1, { x.2 with ready := some s.cyc,
                         held := decide (tCost (s.task x.1) ≤ s.rd (DS_VI_BUDGET.i (tVi (s.task x.1)))) })
      else x) } }

/-- The greatest triad number T ≤ `t` with T mod N = CPH. -/
def lastTriad (n cph t : Nat) : Option Nat :=
  if n = 0 then none
  else
    let d := (t + n - cph % n) % n
    if d ≤ t then some (t - d) else none

/-- CYCLE marks of the triads from the first not yet considered to that of the tick raised (R215, R234). -/
def cycleMarks (lo hi : Nat) (s : State) : State :=
  s.ds.slots.foldl (fun (u : State) (x : Nat × OpSlot) =>
    let b := x.2.latest
    if sKind b = 5 then
      match lastTriad (sSel b) (sCph b) hi with
      | some t =>
        let v := tVi (u.task (sTask b))
        if lo ≤ t then
          u.request { due := u.cyc + 6, kind := 3, seq := 0, slot := x.1, value := leBytes 4 t, qual := 0, vi := v,
                      gen := u.gen v }
        else u
      | none => u
    else u) s

/-- Triads whose tick 0 a tick-start event of tick `g` marks: from the first not yet considered; at the first event of all, only
the triad that starts with it. -/
def State.triadSpan (s : State) (g : Nat) : Nat × Nat :=
  (if s.ds.triad = 0 then (g + 2) / 3 else s.ds.triad, g / 3)

/-! ### DS_ registers (R233, R235) -/

/-- The slotted rules of R213 that a WRITE of task `t` must keep. -/
def slottedOk (t : Nat) (b : List Byte) (s : State) : Bool :=
  !(tValid b && !tReady b) ||
    (decide (tOffset b + tCost b ≤ 208291) && decide (0 < tDiv b) && 4800 % tDiv b == 0 && decide (tPh b < tDiv b) &&
      s.ds.tasks.all (fun (x : Nat × Task) =>
        let c := x.2.coming
        x.1 == t || !tValid c || tReady c || tLane c != tLane b ||
          decide (tOffset b + tCost b ≤ tOffset c) || decide (tOffset c + tCost c ≤ tOffset b) ||
          tPh b % Nat.gcd (tDiv b) (tDiv c) != tPh c % Nat.gcd (tDiv b) (tDiv c)))

/-- A WRITE of task `t` that keeps the slotted rules of R213, a slotted task's lane lying in a quadrant that the image lights. -/
def taskWriteOk (t : Nat) (b : List Byte) (s : State) : Bool :=
  slottedOk t b s && (!(tValid b && !tReady b) || bit (s.rd PM_ASSIGN_ASSIGN) (2 + tLane b / 64))

/-- What a WRITE or INVALIDATE makes of task `t` at the next tick-start event; its pending run is dropped (R233). -/
def putTask (t : Nat) (b : List Byte) (s : State) : State :=
  let x := agetD s.ds.tasks t { bytes := List.replicate 32 0 }
  { s with ds := { s.ds with tasks := aput s.ds.tasks t { x with next := some b }, pend := adel s.ds.pend t } }

/-- A descriptor with VALID replaced. -/
def withValid (b : List Byte) (v : Bool) : List Byte := splice b 0 (leBytes 2 (setBits (leAt b 0 2) 15 15 (b2n v)))

/-- The contents that a WRITE of `b` gives a task descriptor: its reserved bits read 0 (R5, R211). -/
def taskStored (b : List Byte) : List Byte :=
  leBytes 2 (setBits (leAt b 0 2) 13 9 0) ++ leBytes 2 (tFlow b) ++ leBytes 1 (if tReady b then tLane b % 32 else tLane b) ++
    slice b 5 1 ++ leBytes 1 (tDiv b) ++ leBytes 1 (tPh b) ++ leBytes 4 (tOffset b) ++ leBytes 4 (tCost b) ++ slice b 16 2 ++
    leBytes 2 (tOpBase b) ++ leBytes 1 (tOpN b) ++ leBytes 3 0 ++ leBytes 4 (tEntry b * 64) ++ leBytes 4 0

/-- The contents that a WRITE of `b` gives an operand slot: FRESH and WRITTEN clear, its reserved bits read 0 (R214, R233). -/
def slotStored (b : List Byte) : List Byte :=
  slice b 0 10 ++ leBytes 1 (leAt b 10 1 / 16 * 16) ++ leBytes 1 (sLag b) ++ leBytes 2 (sTask b) ++ leBytes 2 (sSel b) ++
    slice b 16 13 ++ leBytes 1 (leAt b 29 1 % 16) ++ leBytes 2 0

/-- A write of DS_TASK_CMD. -/
def dsTaskCmd (cmd : Nat) (s : State) : State :=
  let t := s.rd DS_TASK_IDX_IDX % 8192
  match cmd with
  | 1 => loadData 0x700040 8 (slice (s.task t) 0 32) s
  | 2 =>
    let b := taskStored (s.dataBytes 0x700040 8)
    if taskWriteOk t b s then putTask t b s else s.dsEvent DS_EVENT_REFUSED
  | 3 => putTask t (withValid (slice (s.task t) 0 32) false) s
  | _ => s

/-- A write of DS_SLOT_CMD: a WRITE clears FRESH and WRITTEN, and stands against a mark not yet seen (R233). -/
def dsSlotCmd (cmd : Nat) (s : State) : State :=
  let i := s.rd DS_SLOT_IDX_IDX
  match cmd with
  | 1 => loadData 0x700060 8 (s.slotNow i) s
  | 2 =>
    s.setSlot i { bytes := slotStored (s.dataBytes 0x700060 8), new := none, group := none }
  | _ => s

/-- The place of a requester among those that arm and cancel in one cycle: after the 256 lanes, by core (R228). -/
def armPlace : Requester → Nat
  | .core c => 256 + c.val
  | _ => 260

/-- A write of DS_TMR_CMD: an ARM or CANCEL joins the queue of the delay lists (R228). -/
def dsTmrCmd (r : Requester) (cmd : Nat) (s : State) : State :=
  let i := s.rd DS_TMR_IDX_IDX % 16384
  match cmd with
  | 1 => loadData 0x700080 4 (s.timer i).bytes s
  | 2 =>
    s.queueArm { made := 0, due := 0, arm := true, timer := i, delay := s.rd DS_TMR_DELAY_DELAY_US, gen := 0, who := armPlace r,
                 setup := some (s.dataBytes 0x700080 2) }
  | 3 => s.queueArm { made := 0, due := 0, arm := false, timer := i, delay := 0, gen := 0, who := armPlace r, setup := none }
  | _ => s

/-- A write of DS_CNT_IDX latches and clears the task's counters; an event of this cycle stays (R11, R235). -/
def dsCntIdx (v : Nat) (s : State) : State :=
  let s := s.swPut 0x700090 v
  let a := 0x3400000 + v % 8192 * 8
  let s := (s.put 0x700094 (s.word0 a)).put 0x700098 (s.word0 (a + 4))
  (s.put a (s.evWord a)).put (a + 4) (s.evWord (a + 4))

/-- Runs of flow `f` in service, and ready runs that wait for it (R226, R235). -/
def State.flowState (s : State) (f : Nat) : Bool × Nat :=
  (f != 0 && s.ln.runs.any (fun (x : Nat × Run) => x.2.ready && x.2.flow == f && decide (s.cyc < x.2.start + x.2.cost)),
   if f = 0 then 0
   else (s.ds.pend.filter (fun (x : Nat × Pend) =>
     x.2.ready.isSome && tFlow (s.task x.1) == f && !s.flowFree x.1 x.2)).length)

/-- A write of DS_FLOW_IDX latches the flow's state. -/
def dsFlowIdx (v : Nat) (s : State) : State :=
  let s := s.swPut 0x7000A0 v
  let x := s.flowState (v % 4096)
  (s.wr DS_FLOW_STAT_BUSY (b2n x.1)).wr DS_FLOW_STAT_WAITING x.2

/-- Writes of the DS_ page (R225, R233, R235). -/
def dsWrite (r : Requester) (o v : Nat) (s : State) : State :=
  if (o = 0x14 ∨ o = 0x24 ∨ o = 0x34 ∨ 0x1000 ≤ o) ∧ !s.mayWrite r then s.dsEvent DS_EVENT_REFUSED
  else if o = 0x14 then dsTaskCmd (v % 4) s
  else if o = 0x24 then dsSlotCmd (v % 4) s
  else if o = 0x34 then dsTmrCmd r (v % 8) s
  else if o = 0x90 then dsCntIdx v s
  else if o = 0xA0 then dsFlowIdx v s
  else if 0x1000 ≤ o ∧ o % 8 = 0 then
    (s.swPut (0x700000 + o) v).wr (DS_VI_BUDGET.i ((o - 0x1000) / 8)) (min 208291 (v % 2 ^ 18))
  else s.swPut (0x700000 + o) v

end Sys2Proof.Machine
end

