-- ==== Sys2Proof/Machine/Formula.lean ====
section
/-!
DEFINITION. Formulas of several operations as kernels compute them (09_lanes_kernels.md R246): every operation is one of IEEE 754 and
rounds once; the fixed sequence in which a kernel takes them, which the spec does not give, is a constant of Config (log entry
10). Sine, cosine and atan2 lie within 2 ulp of the exact result, which is computed here from series.
-/
namespace Sys2Proof.Machine

/-! ### Fractions -/

def fAdd (a b : Int × Nat) : Int × Nat := (a.1 * b.2 + b.1 * a.2, a.2 * b.2)
def fNeg (a : Int × Nat) : Int × Nat := (- a.1, a.2)
def fSub (a b : Int × Nat) : Int × Nat := fAdd a (fNeg b)
def fMul (a b : Int × Nat) : Int × Nat := (a.1 * b.1, a.2 * b.2)
def fLt (a b : Int × Nat) : Bool := decide (a.1 * b.2 < b.1 * a.2)
def fLe (a b : Int × Nat) : Bool := decide (a.1 * b.2 ≤ b.1 * a.2)

/-- A finite pattern as a signed fraction. -/
def Fmt.frac? (f : Fmt) (x : Nat) : Option (Int × Nat) :=
  match f.val x with
  | .fin s p q => some (sgn s p, q)
  | _ => none

/-- A pattern as a kernel delivers it (R246): a NaN without payload, a subnormal number as zero. -/
def Fmt.canon (f : Fmt) (x : Nat) : Nat :=
  match f.val x with
  | .nan => f.qnan
  | .fin neg 0 _ => f.zero neg
  | _ => x

/-! ### Sums and products in a kernel's order -/

/-- x × c + y with one rounding of the exact value. -/
def Fmt.fma (f : Fmt) (x c y : Nat) : Nat :=
  match f.frac? x, f.frac? c, f.frac? y with
  | some a, some b, some d =>
    let r := fAdd (fMul a b) d
    f.ofRat r.1 r.2 (bit (f.add (f.mul x c) y) (f.frac + f.expo) && decide (r.1 = 0))
  | _, _, _ => f.add (f.mul x c) y

/-- A term of a sum: a number, or a product of two. -/
inductive Term where
  | num (x : Nat)
  | prod (x y : Nat)
deriving DecidableEq, Repr

/-- A term as a number. -/
def Term.value (f : Fmt) : Term → Nat
  | .num x => x
  | .prod x y => f.mul x y

/-- Two terms added: with `fused` a product is not rounded before its sum. -/
def Term.add (f : Fmt) (fused : Bool) (a b : Term) : Term :=
  .num (match fused, a, b with
    | true, .prod x y, t => f.fma x y (t.value f)
    | true, .num z, .prod x y => f.fma x y z
    | _, a, b => f.add (a.value f) (b.value f))

/-- The terms of a sum of kernel `code` combined two by two in its order. -/
def combine (f : Fmt) (code total : Nat) : Nat → List Term → List Term
  | 0, l => l
  | n + 1, l =>
    let i := Config.order [code, total, n, 0] % l.length
    let r := l.eraseIdx i
    let j := Config.order [code, total, n, 1] % r.length
    match l[i]?, r[j]? with
    | some a, some b => combine f code total n (Term.add f (Config.fused code) a b :: r.eraseIdx j)
    | _, _ => l

/-- The sum of terms as kernel `code` computes it. -/
def Fmt.sum (f : Fmt) (code : Nat) (l : List Term) : Nat :=
  (((combine f code l.length l.length l).map (Term.value f)).headD (f.zero false))

/-- Division by a constant, or multiplication by its reciprocal. -/
def Fmt.divBy (f : Fmt) (code x n : Nat) : Nat := if Config.recip code then f.mul x (f.div (f.ofInt 1) n) else f.div x n

/-- The magnitude √(a² + b²). -/
def Fmt.magnitude (f : Fmt) (code a b : Nat) : Nat := f.sqrt (f.sum code [.prod a a, .prod b b])

/-! ### Functions that R246 bounds -/

/-- A pattern moved by `d` units in the last place; subnormal results flushed. -/
def Fmt.nudge (f : Fmt) (x : Nat) (d : Int) : Nat :=
  let mag := x % 2 ^ (f.frac + f.expo)
  let v := (if bit x (f.frac + f.expo) then - (mag : Int) else (mag : Int)) + d
  let m := min v.natAbs (f.top * 2 ^ f.frac)
  let m := if m < 2 ^ f.frac then 0 else m
  b2n (decide (v < 0)) * 2 ^ (f.frac + f.expo) + m

/-- Whether a pattern lies within 2 ulp of an exact value. -/
def Fmt.within2 (f : Fmt) (x : Nat) (exact : Int × Nat) : Bool :=
  match f.frac? x with
  | none => false
  | some v =>
    let e : Int := if exact.1 = 0 then 1 - (f.bias : Int) else max (expQ exact.1.natAbs exact.2) (1 - (f.bias : Int))
    let u := pow2Q (e - (f.frac : Int) + 1)
    let d := fSub v exact
    decide (d.1.natAbs * u.2 ≤ u.1 * d.2)

/-- A result that lies within 2 ulp of the exact value (R246): which of them is open. -/
def Fmt.open2 (f : Fmt) (key : List Nat) (exact : Int × Nat) (neg : Bool) : Nat :=
  let x := f.ofRat exact.1 exact.2 neg
  let y := f.nudge x (clampI (-2) 2 (Config.ulps key))
  if f.within2 y exact then y else x

/-- π to 60 decimals. -/
def piQ : Int × Nat := (3141592653589793238462643383279502884197169399375105820974945, 10 ^ 60)

/-- Fixed-point scale of the series. -/
def fixOne : Int := 2 ^ 160

/-- Terms of the series of sine and cosine at the angle whose square is `sq`, from the term of power `n` on. -/
def trigSum (sq : Int) : Nat → Int → Int → Int
  | 0, _, _ => 0
  | k + 1, n, t => t + trigSum sq k (n + 2) (- (t * sq / fixOne) / ((n + 1) * (n + 2)))

/-- 2πk / w as a fixed-point number. -/
def angleFix (w k : Nat) : Int := 2 * piQ.1 * (k : Int) * fixOne / ((piQ.2 * w : Nat) : Int)

/-- cos and sin of 2πk / w to well beyond binary64; exact at the quarters of the circle. -/
def cosQ (w k : Nat) : Int × Nat :=
  if 4 * k % w = 0 then ([1, 0, -1, 0].getD (4 * k / w % 4) 0, 1)
  else
    let a := angleFix w k
    (trigSum (a * a / fixOne) 80 0 fixOne, fixOne.toNat)
def sinQ (w k : Nat) : Int × Nat :=
  if 4 * k % w = 0 then ([0, 1, 0, -1].getD (4 * k / w % 4) 0, 1)
  else
    let a := angleFix w k
    (trigSum (a * a / fixOne) 80 1 a, fixOne.toNat)

/-- cos and sin of 2πk / w as binary64 patterns. -/
def cosW (w k : Nat) : Nat := f64.open2 [0, w, k % w] (cosQ w (k % w)) false
def sinW (w k : Nat) : Nat := f64.open2 [1, w, k % w] (sinQ w (k % w)) false

/-- The sum 1 + (2/3)u + (2/3)(4/5)u² + … of the arctangent, from term `n` on. -/
def atanSum (u : Int) : Nat → Int → Int → Int
  | 0, _, _ => 0
  | k + 1, n, t => t + atanSum u k (n + 1) (t * u / fixOne * (2 * (n + 1)) / (2 * n + 3))

/-- atan (p / q) for 0 < p ≤ q: pq / (p² + q²) times that sum at p² / (p² + q²). -/
def atanQ (p q : Nat) : Int × Nat :=
  let s := p * p + q * q
  (((p * q : Nat) : Int) * atanSum (((p * p : Nat) : Int) * fixOne / (s : Int)) 200 0 fixOne, s * fixOne.toNat)

/-- The angle of a vector in the first quadrant whose sides are not both 0. -/
def angleQ (y x : Nat) : Int × Nat :=
  if y = 0 then (0, 1)
  else if x = 0 then fMul piQ (1, 2)
  else if y ≤ x then atanQ y x
  else fSub (fMul piQ (1, 2)) (atanQ x y)

/-- The angle of a vector as an fp32 pattern (R246): open within 2 ulp, open as a whole at the origin and for infinite parts; the
sign of a zero imaginary part gives that of the angle (PRESUMED from IEEE 754, log entry 10). -/
def atan2 (y x : Nat) : Nat :=
  if f32.isNan y ∨ f32.isNan x then f32.qnan
  else
    match f32.frac? y, f32.frac? x with
    | some a, some b =>
      if a.1 = 0 ∧ b.1 = 0 then Config.numeric 0x19 [y, x] % 2 ^ 32
      else
        let t := angleQ (a.1.natAbs * b.2) (b.1.natAbs * a.2)
        let t := if b.1 < 0 then fSub piQ t else t
        f32.open2 [2, y, x] (if bit y 31 then fNeg t else t) (bit y 31)
    | _, _ => Config.numeric 0x19 [y, x] % 2 ^ 32

/-- The greatest r below 2^k + `r` with r^50 ≤ n, by bits. -/
def rootBits : Nat → Nat → Nat → Nat
  | 0, _, r => r
  | k + 1, n, r => let c := r + 2 ^ k; if c ^ 50 ≤ n then rootBits k n c else rootBits k n r

/-- x^0.02, the 50th root, for a positive number; open within 2 ulp of the exact result as the functions that R246 names (DESIGN
CHOICE, log entry 10). -/
def pow002 (f : Fmt) (x : Nat) : Nat :=
  match f.frac? x with
  | some a =>
    let n := a.1.toNat * 2 ^ 8000 / a.2
    f.open2 [3, f.frac, x] (((2 * rootBits (Nat.log2 n / 50 + 1) n 0 + 1 : Nat) : Int), 2 ^ 161) false
  | none => if f.isNan x then f.qnan else f.infinity false

end Sys2Proof.Machine
end

