-- ==== Sys2Proof/Machine/Kernel.lean ====
section
/-!
DEFINITION. The frame of every kernel (09_lanes_kernels.md R237–R249): the invocation record, references and their bounds,
items, quality and the quality policy, and the one operation that gives an invocation its effect in its last cycle. A result of
`Except.error` is a lane fault with that cause (R253).
-/
namespace Sys2Proof.Machine

/-- Causes of lane faults (R253). -/
def cADDR : Nat := 1
def cRO : Nat := 2
def cTYPE : Nat := 3
def cPARAM : Nat := 4
def cECC : Nat := 6

/-- An invocation record with its lane and run (R238). -/
structure Inv where
  l : Nat
  r : Run
  code : Nat
  qpol : Nat
  n : Nat
  a : Nat
  b : Nat
  out : Nat
  idata : Nat
  m : Nat
  param : Nat
deriving DecidableEq, Repr

/-- The record that the run of lane `l` has reached. -/
def State.invocation (s : State) (l : Nat) (r : Run) : Inv :=
  let x := s.load (recordAddr l r) 16
  { l := l, r := r, code := leAt x 0 1 % 64, qpol := leAt x 0 1 / 64, n := leAt x 1 1, a := leAt x 2 2, b := leAt x 4 2,
    out := leAt x 6 2, idata := leAt x 8 2, m := leAt x 10 2, param := leAt x 12 4 }

/-! ### References (R16, R239, R240) -/

/-- Address of unit `i` after the reference `ref`, for a read or a write. -/
def Inv.unitAddr (k : Inv) (ref i : Nat) (write : Bool) : Except Nat Nat :=
  if ref < 32768 then
    let o := 8 * (ref % 8192 + i)
    if bits ref 14 13 ≠ 0 then .error cPARAM
    else if 65536 ≤ o then .error cADDR
    else if write ∧ (o < 0x240 ∨ 0xFF00 ≤ o) then .error cRO
    else .ok (addrLane k.l + o)
  else
    let j := ref % 32768 + i
    if k.r.isize ≤ j then .error cADDR else .ok (addrCluster (k.l / 8) + 8 * (k.r.ibase + j))

/-- Whether address `a` lies in the reserved part of a lane's SRAM, which reads 0 and takes no write (R240). -/
def Inv.reserved (k : Inv) (a : Nat) : Bool :=
  decide (addrLane k.l + 0x240 ≤ a) && decide (a < addrLane k.l + 0x300)

/-- Read 8 bytes at a unit's address as the cycle began (R241); an uncorrectable word is a fault (R489). -/
def Inv.readAt (k : Inv) (a : Nat) (s : State) : Except Nat (List Byte) :=
  if s.ic.badWords.contains a then .error cECC
  else if k.reserved a then .ok (List.replicate 8 0)
  else .ok (s.old.load a 8)

/-- Unit `i` after the reference `ref`. -/
def Inv.unit (k : Inv) (ref i : Nat) (s : State) : Except Nat (List Byte) :=
  match k.unitAddr ref i false with
  | .error c => .error c
  | .ok a => k.readAt a s

/-- Write units from the reference `ref` on; none where one of them may not be written (R253). -/
def Inv.write (k : Inv) (ref : Nat) (us : List (List Byte)) (s : State) : Except Nat State :=
  (us.zip (List.range us.length)).foldl
    (fun (t : Except Nat State) (p : List Byte × Nat) =>
      match t, k.unitAddr ref p.2 true with
      | .ok t, .ok a => .ok (if k.reserved a then t else t.laneStore k.l a (slice p.1 0 8))
      | .error c, _ => .error c
      | _, .error c => .error c) (.ok s)

/-- Address of the invocation's instance data of `n` bytes (R239, R251). -/
def Inv.dataAddr (k : Inv) (n : Nat) : Except Nat Nat :=
  if k.r.isize < k.idata + ceilDiv n 8 then .error cADDR else .ok (addrCluster (k.l / 8) + 8 * (k.r.ibase + k.idata))

/-- The invocation's instance data of `n` bytes. -/
def Inv.data (k : Inv) (n : Nat) (s : State) : Except Nat (List Byte) :=
  match k.dataAddr n with
  | .error c => .error c
  | .ok a =>
    if (List.range (ceilDiv n 8)).any (fun i => s.ic.badWords.contains (a + 8 * i)) then .error cECC
    else .ok (s.old.load a n)

/-- Write the invocation's instance data. -/
def Inv.setData (k : Inv) (x : List Byte) (s : State) : Except Nat State :=
  match k.dataAddr x.length with
  | .error c => .error c
  | .ok a => .ok ((List.range (ceilDiv x.length 8)).foldl (fun (t : State) i =>
      t.laneStore k.l (a + 8 * i) ((x.drop (8 * i)).take 8)) s)

/-! ### Items (R244) -/

/-- Type codes (R145, R244). -/
def tBOOL : Nat := 1
def tDBPOS : Nat := 2
def tINT : Nat := 3
def tUINT : Nat := 4
def tFLOAT : Nat := 5
def tQUAL : Nat := 6
def tTIME : Nat := 7
def tBITS : Nat := 8
def tPHASOR : Nat := 9

/-- An item: type, value (for a phasor the real part, for a time SECS), second value (imaginary part, FRAC), quality and
ABSENT. -/
structure Item where
  t : Nat
  v : Nat
  w : Nat := 0
  q : Nat
  ab : Bool := false
deriving DecidableEq, Repr

/-- Units that an item of type `t` fills. -/
def itemWidth (t : Nat) : Nat := if t = tPHASOR ∨ t = tTIME then 2 else 1

/-- The units of an item. -/
def Item.units (x : Item) : List (List Byte) :=
  (leBytes 4 x.v ++ leBytes 2 x.q ++ leBytes 1 x.t ++ leBytes 1 (b2n x.ab)) ::
    (if itemWidth x.t = 2 then [leBytes 4 x.w ++ leBytes 4 0] else [])

/-- The item in a first unit, and its second. -/
def itemOf (u : List Byte) (w : List Byte) : Item :=
  { t := leAt u 6 1, v := leAt u 0 4, w := leAt w 0 4, q := leAt u 4 2, ab := bit (leAt u 7 1) 0 }

/-- Read the item that begins at unit `i` after `ref`. -/
def Inv.item (k : Inv) (ref i : Nat) (s : State) : Except Nat Item :=
  match k.unit ref i s with
  | .error c => .error c
  | .ok u =>
    if itemWidth (leAt u 6 1) = 2 then
      match k.unit ref (i + 1) s with
      | .error c => .error c
      | .ok w => .ok (itemOf u w)
    else .ok (itemOf u [])

/-- Read `n` consecutive items from `ref` on; answers them and the unit after them. -/
def Inv.itemsFrom (k : Inv) (ref : Nat) (s : State) : Nat → Nat → Except Nat (List Item)
  | 0, _ => .ok []
  | n + 1, i =>
    match k.item ref i s with
    | .error c => .error c
    | .ok x =>
      match Inv.itemsFrom k ref s n (i + itemWidth x.t) with
      | .error c => .error c
      | .ok l => .ok (x :: l)

/-- `n` items of the types `ts` from `ref` on; another type is a fault (R247). -/
def Inv.items (k : Inv) (ref n : Nat) (ts : List Nat) (s : State) : Except Nat (List Item) :=
  match k.itemsFrom ref s n 0 with
  | .error c => .error c
  | .ok l => if l.all (fun x => ts.contains x.t) then .ok l else .error cTYPE

/-- A result as a kernel delivers it: its fp32 numbers carry no NaN payload and are not subnormal (R246). -/
def Item.canon (x : Item) : Item :=
  if x.t = tFLOAT then { x with v := f32.canon x.v }
  else if x.t = tPHASOR then { x with v := f32.canon x.v, w := f32.canon x.w }
  else x

/-- Units that a kernel moves, as it delivers them (R246): fp32 numbers as in Item.canon. `t` is the type of the item whose second
unit comes first, 0 for none. -/
def canonUnits : Nat → List (List Byte) → List (List Byte)
  | _, [] => []
  | t, u :: us =>
    let t' := if t = 0 then leAt u 6 1 else 0
    (if t = tPHASOR ∨ t' = tFLOAT ∨ t' = tPHASOR then splice u 0 (leBytes 4 (f32.canon (leAt u 0 4))) else u) ::
      canonUnits (if itemWidth t' = 2 then t' else 0) us

/-- Write results as items from OUT on. -/
def Inv.results (k : Inv) (l : List Item) (s : State) : Except Nat State :=
  k.write k.out (l.flatMap (fun x => x.canon.units)) s

/-! ### Quality (R174, R246–R249) -/

/-- Rank of a validity: good, questionable, invalid (R248). -/
def vRank (q : Nat) : Nat := if q % 4 = 0 then 0 else if q % 4 = 3 then 1 else 2
def withValidity (q v : Nat) : Nat := q / 4 * 4 + v
def qInvalid (q : Nat) : Nat := withValidity q 1

/-- The quality that inputs give a result (R248): the worst validity, and the OR of the other bits. -/
def joinQ (l : List Item) : Nat :=
  let r := l.foldl (fun a x => max a (vRank x.q)) 0
  let o := l.foldl (fun a x => a ||| (x.q / 4)) 0
  o * 4 + (if r = 0 then 0 else if r = 1 then 3 else 1)

/-- V of an ABSENT result (R248). -/
def absentV (t : Nat) : Nat := if t = tFLOAT ∨ t = tPHASOR then 0x7FC00000 else 0

/-- An ABSENT item of type `t`. -/
def absentItem (t q : Nat) : Item :=
  { t := t, v := absentV t, w := if t = tPHASOR then 0x7FC00000 else 0, q := qInvalid q, ab := true }

/-- A result formed from inputs (R248): ABSENT where one of them is. -/
def resultOf (ins : List Item) (t v w : Nat) : Item :=
  if ins.any (fun x => x.ab) then absentItem t (joinQ ins) else { t := t, v := v, w := w, q := joinQ ins }

/-- Infinite and NaN results flag their quality (R246). -/
def flagQ (ins : List Nat) (x q : Nat) : Nat :=
  if f32.isInf x ∧ ins.all (fun i => !f32.isInf i && !f32.isNan i) then qInvalid (q ||| 4)
  else if f32.isNan x ∧ ins.all (fun i => !f32.isNan i) then qInvalid (q ||| 0x100)
  else q

/-- An fp32 result formed from inputs whose numbers are `nums`. -/
def floatOf (ins : List Item) (nums : List Nat) (x : Nat) : Item :=
  let r := resultOf ins tFLOAT x 0
  if r.ab then r else { r with q := flagQ nums x r.q }

/-- A phasor result. -/
def phasorOf (ins : List Item) (nums : List Nat) (re im : Nat) : Item :=
  let r := resultOf ins tPHASOR re im
  if r.ab then r else { r with q := flagQ nums im (flagQ nums re r.q) }

/-- A BOOL result. -/
def boolOf (ins : List Item) (b : Bool) : Item := resultOf ins tBOOL (b2n b) 0

/-- Whether an input is unusable under a policy (R249). -/
def unusable (pol : Nat) (x : Item) : Bool := x.ab || vRank x.q == 2 || (pol == 3 && vRank x.q == 1)

/-- What the policy makes of a kernel's inputs (R249). -/
inductive Policy where
  | run
  | hold
  | block
deriving DecidableEq, Repr

/-- The policy in force for the inputs given, for a kernel with or without instance data. -/
def policyOf (pol : Nat) (stateful : Bool) (ins : List Item) : Policy :=
  if pol = 0 ∨ !(ins.any (unusable pol)) then .run
  else if pol = 1 then (if stateful then .hold else .run)
  else .block

/-- Quality of a result under HOLD, and a blocked result (R249). -/
def heldQ : Nat := 0x83
def blocked (t : Nat) : Item := { t := t, v := 0, q := 1 }

/-- Numbers of a list of items. -/
def numsOf (l : List Item) : List Nat := l.flatMap (fun x => if x.t = tPHASOR then [x.v, x.w] else [x.v])

/-! ### The entry area as kernels read it (R231) -/

/-- Operand entry `i`. -/
def Inv.operand (k : Inv) (i : Nat) (s : State) : List Byte := s.old.load (addrLane k.l + 0x40 + i * 0x20) 32
def entryAbsent (b : List Byte) : Bool := bit (leAt b 28 1) 0

/-- Grid tick of the run, from SEC and TICK of the header. -/
def Inv.tick (k : Inv) (s : State) : Nat :=
  s.old.loadN (addrLane k.l + 4) 4 * 4800 + s.old.loadN (addrLane k.l + 8) 2

/-- The SET operand that the sample of channel `i` comes from (R257): that of the last earlier K_GATH of the run whose results hold
the channel's input, else of the last K_GATH before, else the task's first SET operand (log entry 11). -/
def Inv.sampleOp (k : Inv) (s : State) (i : Nat) : Option Nat :=
  let gs := ((List.range k.r.inv).reverse.map (fun j => s.old.invocation k.l { k.r with inv := j })).filter (fun q => q.code == 2)
  match gs.find? (fun q => decide (q.out ≤ k.a + i) && decide (k.a + i < q.out + q.n)), gs.head? with
  | some q, _ => some (q.param % 16)
  | none, some q => some (q.param % 16)
  | none, none => (List.range (min 16 (tOpN (s.task k.r.task)))).find? (fun j => sKind (k.operand j s) == 1)

/-- Words of the entry area that the kernel reads: the operand of K_GATH and K_OPND, the tick of K_DFT, K_HDFT, K_HARM, K_IDMT,
K_SYNC, K_POSN and the timers, with the SET operands of a window's samples. -/
def Inv.entryWords (k : Inv) (s : State) : List Nat :=
  let op := fun (i : Nat) => (List.range 4).map (fun j => addrLane k.l + 0x40 + i * 0x20 + 8 * j)
  let head := [addrLane k.l, addrLane k.l + 8]
  match k.code with
  | 0x02 | 0x03 => op (k.param % 16)
  | 0x10 | 0x11 | 0x12 => head ++ ((List.range k.n).filterMap (k.sampleOp s)).eraseDups.flatMap op
  | 0x26 | 0x28 | 0x29 | 0x38 | 0x39 | 0x3A => head
  | _ => []

/-! ### An invocation (R237, R241, R253) -/

/-- The run goes on to its next invocation. -/
def advance (l cost : Nat) (s : State) : State :=
  match s.laneRun l with
  | some r => s.setRun l { r with inv := r.inv + 1, next := r.next + cost }
  | none => s

/-- Cycles of the kernels in order of code: a number, and a number for each of N (R255). -/
def kernelCosts : List (Nat × Nat) :=
    [(1, 0), (2, 0), (8, 3), (4, 0), (2, 1), (2, 0), (3, 0), (2, 2), (2, 1), (2, 1), (2, 1), (2, 1), (2, 1), (2, 1),
     (3, 1), (4, 2)] ++
    [(10, 22), (10, 22), (12, 30), (8, 10), (30, 0), (40, 0), (60, 0), (24, 0), (4, 3), (6, 8), (4, 7), (4, 3), (4, 2),
     (4, 2), (4, 2), (4, 3)] ++
    [(24, 18), (20, 0), (110, 0), (12, 8), (16, 14), (3, 3), (14, 12), (30, 0), (36, 0), (4, 2), (20, 0), (40, 0),
     (18, 0), (30, 0), (3, 2), (4, 3)] ++
    [(3, 1), (3, 1), (3, 1), (2, 1), (2, 2), (3, 2), (4, 1), (3, 1), (3, 3), (3, 3), (3, 3), (8, 0), (6, 0), (6, 0),
     (12, 2), (8, 0)]

/-- Cycles of an invocation of kernel `code` (R255). -/
def kernelCycles (code n : Nat) : Nat :=
  let x := kernelCosts.getD code (0, 0)
  x.1 + x.2 * n

/-- Kernel `code` takes effect in the last cycle of its invocation in lane `l`: nothing where the run has not reached such an
invocation or its cycles have not passed, nothing but its cycles where K_SKIP skips it, a lane fault where its record cannot be
fetched, an entry it reads is lost, or the kernel's `body` finds one. -/
def invoke (l code : Nat) (body : Inv → State → Except Nat State) (s : State) : State :=
  match s.laneRun l with
  | none => s
  | some r =>
    let k := s.old.invocation l r
    let cost := kernelCycles code k.n
    if (s.fetchFault l r).isSome then faultFetch l r s
    else if k.code ≠ code ∨ r.ended ∨ r.stopped ∨ s.cyc + 1 < r.next + cost ∨ r.start + r.cost < r.next + cost then s
    else if 0 < r.skip then advance l cost (s.setRun l { r with skip := r.skip - 1 })
    else
      match if (k.entryWords s).any s.ic.badWords.contains then .error cECC else body k s with
      | .error c => laneFault l c s
      | .ok t => advance l cost t

/-- N within 1 to 64 (R255). -/
def Inv.nOk (k : Inv) : Bool := decide (1 ≤ k.n) && decide (k.n ≤ 64)

/-- Change the run of the invocation's lane. -/
def Inv.onRun (k : Inv) (f : Run → Run) (s : State) : State :=
  match s.laneRun k.l with
  | some r => s.setRun k.l (f r)
  | none => s

/-- A check of the record: cause PARAM where it fails. -/
def need (b : Bool) : Except Nat Unit := if b then .ok () else .error cPARAM

end Sys2Proof.Machine
end

