-- ==== Sys2Proof/Machine/KernelsBasic.lean ====
section
/-!
DEFINITION. The basic kernels 0x00–0x0F (09_lanes_kernels.md R241, R242, R246–R250, R255).
-/
namespace Sys2Proof.Machine

/-- K_NOP. -/
def execKNop (l : Fin 256) (s : State) : Host.Outcome State Fault Refusal :=
  whileOn (2 + l.val / 64) s <|
  .next (invoke l 0x00 (fun _ s => .ok s) s)

/-- K_END: the run ends; ended short, SHORT counts (R242). -/
def endBody (k : Inv) (s : State) : Except Nat State :=
  let t := k.onRun (fun r => { r with ended := true }) s
  let a := addrLane k.l + 0xFF24
  .ok (if k.r.next + 2 < k.r.start + k.r.cost then t.storeN a 2 (satAdd 16 (t.loadN a 2) 1) else t)

/-- K_END (R242). -/
def execKEnd (l : Fin 256) (s : State) : Host.Outcome State Fault Refusal :=
  whileOn (2 + l.val / 64) s (.next (invoke l 0x01 endBody s))

/-- One gathered quantity from an inbox record (R250). -/
def gatherItem (r : List Byte) (g quantity : Nat) (absent : Bool) : Item :=
  let tick := leAt r 48 4 * 4800 + leAt r 52 2 % 8192
  if absent ∨ rState r = recAbsent ∨ !rClosed r ∨ tick % 65536 ≠ g then absentItem tFLOAT 0
  else { t := tFLOAT, v := leAt r (4 * quantity) 4, q := rQual r quantity }

/-- K_GATH (R250): the gather list holds OFS (bytes 0–3, 64-byte units) and D (byte 4), then IIDX and quantity of each
entry. -/
def gathBody (k : Inv) (s : State) : Except Nat State :=
  let op := k.operand (k.param % 16) s
  match need (k.nOk && decide (k.param % 16 < tOpN (s.task k.r.task))), k.data ((8 + 4 * k.n + 7) / 8 * 8) s with
  | .error c, _ => .error c
  | _, .error c => .error c
  | .ok _, .ok d =>
    if sKind op ≠ 1 then .error cTYPE
    else
      let g := sValue op % 65536
      let depth := leAt d 4 1
      let quant := fun i => leAt d (8 + 4 * i + 2) 1
      let ofs := fun i => leAt d 0 4 * 64 + (leAt d (8 + 4 * i) 2 * depth + g % depth) * 64
      if ¬ (depth = 4 ∨ depth = 8 ∨ depth = 16) ∨ (List.range k.n).any (fun i => decide (8 ≤ quant i)) then .error cPARAM
      else if (List.range k.n).any (fun i => decide (0x80000 < ofs i + 64)) then .error cADDR
      else if (List.range k.n).any (fun i => (List.range 8).any (fun j =>
          s.ic.badWords.contains (addrCluster (k.l / 8) + ofs i + 8 * j))) then .error cECC
      else
        k.results ((List.range k.n).map (fun i =>
          gatherItem (s.old.load (addrCluster (k.l / 8) + ofs i) 64) g (quant i) (entryAbsent op))) s

/-- K_GATH (R250). -/
def execKGath (l : Fin 256) (s : State) : Host.Outcome State Fault Refusal :=
  whileOn (2 + l.val / 64) s <|
  .next (invoke l 0x02 gathBody s)

/-- An operand as an item (R215, R245, R255). -/
def opndItem (b : List Byte) (ty : Nat) : Item :=
  let q := sQual b
  match sKind b with
  | 1 => { t := tBITS, v := sValue b / 2 ^ 16 % 16, q := q, ab := entryAbsent b }
  | 2 =>
    if ty = tTIME then { t := tTIME, v := leAt b 0 4, w := leAt b 4 4, q := q, ab := entryAbsent b }
    else { t := ty, v := leAt b 0 4, q := q, ab := entryAbsent b }
  | 3 => { t := tBOOL, v := 1, q := q, ab := entryAbsent b }
  | 4 => { itemOf (slice b 0 8) [] with ab := entryAbsent b || bit (leAt b 7 1) 0 }
  | 5 => { t := tUINT, v := leAt b 0 4, q := q, ab := entryAbsent b }
  | _ => { t := tFLOAT, v := 0, q := 0, ab := true }

/-- Its type where it is ABSENT and the operand names none. -/
def absentType (t ty : Nat) : Nat :=
  if 1 ≤ t ∧ t ≤ 8 then t else if 1 ≤ ty ∧ ty ≤ 8 then ty else tFLOAT

/-- K_OPND: one operand by its kind. -/
def opndBody (k : Inv) (s : State) : Except Nat State :=
  let b := k.operand (k.param % 16) s
  let ty := bits k.param 7 4
  match need (decide (k.param % 16 < tOpN (s.task k.r.task)) && (sKind b != 2 || (decide (1 ≤ ty) && decide (ty ≤ 8)))) with
  | .error c => .error c
  | .ok _ =>
    let x := opndItem b ty
    k.results [if x.ab then absentItem (absentType x.t ty) x.q else x] s

/-- K_OPND (R255). -/
def execKOpnd (l : Fin 256) (s : State) : Host.Outcome State Fault Refusal :=
  whileOn (2 + l.val / 64) s <|
  .next (invoke l 0x03 opndBody s)

/-- Read `n` units from A on. -/
def readUnits (k : Inv) (ref : Nat) (s : State) : Nat → Nat → Except Nat (List (List Byte))
  | 0, _ => .ok []
  | n + 1, i =>
    match k.unit ref i s, readUnits k ref s n (i + 1) with
    | .ok u, .ok l => .ok (u :: l)
    | .error c, _ => .error c
    | _, .error c => .error c

/-- K_MOVE copies N units; no NaN payload passes (R246). -/
def moveBody (k : Inv) (s : State) : Except Nat State :=
  match need k.nOk, readUnits k k.a s k.n 0 with
  | .error c, _ => .error c
  | _, .error c => .error c
  | .ok _, .ok us => k.write k.out (canonUnits 0 us) s

/-- K_MOVE (R255). -/
def execKMove (l : Fin 256) (s : State) : Host.Outcome State Fault Refusal :=
  whileOn (2 + l.val / 64) s <|
  .next (invoke l 0x04 moveBody s)

/-- K_CONST. -/
def constBody (k : Inv) (s : State) : Except Nat State :=
  if k.m = 0 then k.results [{ t := tFLOAT, v := k.param, q := 0 }] s
  else if k.m = 1 then k.results [{ t := tINT, v := k.param, q := 0 }] s
  else if k.m = 2 then k.results [{ t := tBOOL, v := b2n (k.param != 0), q := 0 }] s
  else .error cPARAM

/-- K_CONST (R255). -/
def execKConst (l : Fin 256) (s : State) : Host.Outcome State Fault Refusal :=
  whileOn (2 + l.val / 64) s <|
  .next (invoke l 0x05 constBody s)

/-- K_SKIP: when the BOOL equals M[0], the next N invocations are skipped (R241). -/
def skipBody (k : Inv) (s : State) : Except Nat State :=
  match need (decide (1 ≤ k.n) && decide (k.n ≤ 16)), k.items k.a 1 [tBOOL] s with
  | .error c, _ => .error c
  | _, .error c => .error c
  | .ok _, .ok xs =>
    let b := xs.any (fun x => x.v != 0)
    .ok (if b = bit k.m 0 then k.onRun (fun r => { r with skip := k.n }) s else s)

/-- K_SKIP (R241). -/
def execKSkip (l : Fin 256) (s : State) : Host.Outcome State Fault Refusal :=
  whileOn (2 + l.val / 64) s <|
  .next (invoke l 0x06 skipBody s)

/-- K_QSEL: the backup is taken when the main item is unusable, or also questionable when M is 1. -/
def qselBody (k : Inv) (s : State) : Except Nat State :=
  match need (k.nOk && decide (k.m ≤ 1)), k.itemsFrom k.a s k.n 0, k.itemsFrom k.b s k.n 0 with
  | .error c, _, _ => .error c
  | _, .error c, _ => .error c
  | _, _, .error c => .error c
  | .ok _, .ok a, .ok b =>
    let ps := a.zip b
    if ps.any (fun p => p.1.t != p.2.t) then .error cTYPE
    else k.results (ps.map (fun p => if unusable (if k.m = 1 then 3 else 1) p.1 then p.2 else p.1)) s

/-- K_QSEL (R255). -/
def execKQsel (l : Fin 256) (s : State) : Host.Outcome State Fault Refusal :=
  whileOn (2 + l.val / 64) s <|
  .next (invoke l 0x07 qselBody s)

/-! ### Conversion (R247) -/

/-- A whole number held in the range of INT, and of UINT. -/
def satInt (i : Int) : Nat := toBits 32 (clampI (- 2 ^ 31) (2 ^ 31 - 1) i)
def satUint (i : Int) : Nat := (clampI 0 (2 ^ 32 - 1) i).toNat

/-- The whole number nearest to an item's value; none for NaN (R247). -/
def itemInt (x : Item) : Option Int :=
  if x.t = tFLOAT then
    match f32.exact x.v with
    | .nan => none
    | .inf neg => some (if neg then - 2 ^ 40 else 2 ^ 40)
    | _ => f32.toInt x.v
  else if x.t = tINT then some (sext 32 x.v)
  else some (x.v : Int)

/-- Whether an fp32 value is not zero. -/
def floatTrue (x : Nat) : Bool :=
  match f32.val x with
  | .fin _ p _ => p != 0
  | _ => true

/-- A scalar item in type `t` (R247). -/
def convItem (t : Nat) (x : Item) : Item :=
  if x.ab then absentItem t x.q
  else
    let fromInt := fun (i : Int) =>
      if t = tFLOAT then f32.ofInt i
      else if t = tINT then satInt i
      else if t = tBOOL then b2n (i != 0)
      else if t = tDBPOS then (clampI 0 3 i).toNat
      else satUint i
    if x.t = tFLOAT ∧ t = tFLOAT then { x with v := f32.add x.v (f32.zero true) }
    else if x.t = tFLOAT ∧ t = tBOOL then { t := t, v := b2n (floatTrue x.v), q := x.q }
    else
      match itemInt x with
      | none => { t := t, v := 0, q := qInvalid x.q }
      | some i => { t := t, v := fromInt i, q := x.q }

/-- Scalar types that K_CONV accepts and produces. -/
def convTypes : List Nat := [tBOOL, tDBPOS, tINT, tUINT, tFLOAT, tBITS]

/-- K_CONV. -/
def convBody (k : Inv) (s : State) : Except Nat State :=
  match need (k.nOk && convTypes.contains (k.param % 16)), k.items k.a k.n (tQUAL :: convTypes) s with
  | .error c, _ => .error c
  | _, .error c => .error c
  | .ok _, .ok xs => k.results (xs.map (convItem (k.param % 16))) s

/-- K_CONV (R247). -/
def execKConv (l : Fin 256) (s : State) : Host.Outcome State Fault Refusal :=
  whileOn (2 + l.val / 64) s <|
  .next (invoke l 0x08 convBody s)

/-! ### Arithmetic (R246, R247) -/

/-- Types of a numeric input. -/
def numTypes : List Nat := [tFLOAT, tINT, tUINT]

/-- A two-operand result in the type of its operands: fp32, saturating INT or saturating UINT. -/
def arith (fl : Nat → Nat → Nat) (op : Int → Int → Int) (a b : Item) : Item :=
  if a.t = tFLOAT then floatOf [a, b] [a.v, b.v] (fl a.v b.v)
  else if a.t = tINT then resultOf [a, b] tINT (satInt (op (sext 32 a.v) (sext 32 b.v))) 0
  else resultOf [a, b] tUINT (satUint (op a.v b.v)) 0

/-- Second operands of an arithmetic kernel: items at B, or PARAM as fp32 with M 1. -/
def Inv.second (k : Inv) (s : State) : Except Nat (List Item) :=
  if k.m = 1 then .ok (List.replicate k.n { t := tFLOAT, v := k.param, q := 0 }) else k.items k.b k.n numTypes s

/-- K_ADD, K_SUB and K_MUL. -/
def arithBody (fl : Nat → Nat → Nat) (op : Int → Int → Int) (k : Inv) (s : State) : Except Nat State :=
  match need (k.nOk && decide (k.m ≤ 1)), k.items k.a k.n numTypes s, k.second s with
  | .error c, _, _ => .error c
  | _, .error c, _ => .error c
  | _, _, .error c => .error c
  | .ok _, .ok a, .ok b =>
    let ps := a.zip b
    if ps.any (fun p => p.1.t != p.2.t) then .error cTYPE else k.results (ps.map (fun p => arith fl op p.1 p.2)) s

/-- K_ADD (R255). -/
def execKAdd (l : Fin 256) (s : State) : Host.Outcome State Fault Refusal :=
  whileOn (2 + l.val / 64) s <|
  .next (invoke l 0x09 (arithBody f32.add (· + ·)) s)

/-- K_SUB (R255). -/
def execKSub (l : Fin 256) (s : State) : Host.Outcome State Fault Refusal :=
  whileOn (2 + l.val / 64) s <|
  .next (invoke l 0x0A (arithBody f32.sub (· - ·)) s)

/-- K_MUL (R255). -/
def execKMul (l : Fin 256) (s : State) : Host.Outcome State Fault Refusal :=
  whileOn (2 + l.val / 64) s <|
  .next (invoke l 0x0B (arithBody f32.mul (· * ·)) s)

/-- K_MAC: A × PARAM + B; whether the product is rounded is open (log entry 10). -/
def macBody (k : Inv) (s : State) : Except Nat State :=
  match need k.nOk, k.items k.a k.n [tFLOAT] s, k.items k.b k.n [tFLOAT] s with
  | .error c, _, _ => .error c
  | _, .error c, _ => .error c
  | _, _, .error c => .error c
  | .ok _, .ok a, .ok b =>
    k.results ((a.zip b).map (fun p =>
      floatOf [p.1, p.2] [p.1.v, k.param, p.2.v] (f32.sum 0x0C [.prod p.1.v k.param, .num p.2.v]))) s

/-- K_MAC (R255). -/
def execKMac (l : Fin 256) (s : State) : Host.Outcome State Fault Refusal :=
  whileOn (2 + l.val / 64) s <|
  .next (invoke l 0x0C macBody s)

/-- Absolute value of an item. -/
def absItem (x : Item) : Item :=
  if x.t = tFLOAT then floatOf [x] [x.v] (f32.abs x.v)
  else if x.t = tINT then resultOf [x] tINT (satInt |sext 32 x.v|) 0
  else resultOf [x] tUINT x.v 0

/-- K_ABS. -/
def absBody (k : Inv) (s : State) : Except Nat State :=
  match need k.nOk, k.items k.a k.n numTypes s with
  | .error c, _ => .error c
  | _, .error c => .error c
  | .ok _, .ok a => k.results (a.map absItem) s

/-- K_ABS (R255). -/
def execKAbs (l : Fin 256) (s : State) : Host.Outcome State Fault Refusal :=
  whileOn (2 + l.val / 64) s <|
  .next (invoke l 0x0D absBody s)

/-- Whether numeric item x is below y. -/
def itemLt (x y : Item) : Bool :=
  if x.t = tFLOAT then f32.lt x.v y.v
  else if x.t = tINT then decide (sext 32 x.v < sext 32 y.v)
  else decide (x.v < y.v)

/-- K_MINMAX: the chosen input with its quality; the first among equals. -/
def minmaxBody (k : Inv) (s : State) : Except Nat State :=
  match need (decide (2 ≤ k.n) && decide (k.n ≤ 64) && decide (k.m ≤ 1)), k.items k.a k.n numTypes s with
  | .error c, _ => .error c
  | _, .error c => .error c
  | .ok _, .ok [] => .error cPARAM
  | .ok _, .ok (x :: l) =>
    if l.any (fun y => y.t != x.t) then .error cTYPE
    else k.results [l.foldl (fun a y => if (if k.m = 0 then itemLt y a else itemLt a y) then y else a) x] s

/-- K_MINMAX (R255). -/
def execKMinmax (l : Fin 256) (s : State) : Host.Outcome State Fault Refusal :=
  whileOn (2 + l.val / 64) s <|
  .next (invoke l 0x0E minmaxBody s)

/-- A quotient (R247, R255): zero with validity invalid where |B| lies below PARAM; a zero divisor that PARAM lets pass gives an
open value for whole numbers. -/
def divItem (param : Nat) (a b : Item) : Item :=
  let r :=
    if a.t = tFLOAT then
      if f32.lt (f32.abs b.v) param then { resultOf [a, b] tFLOAT 0 0 with q := qInvalid (joinQ [a, b]) }
      else floatOf [a, b] [a.v, b.v] (f32.div a.v b.v)
    else if a.t = tINT then
      let d := sext 32 b.v
      if (d.natAbs : Int) < sext 32 param then { resultOf [a, b] tINT 0 0 with q := qInvalid (joinQ [a, b]) }
      else if d = 0 then resultOf [a, b] tINT (Config.divZero a.v % 2 ^ 32) 0
      else resultOf [a, b] tINT (satInt (Int.tdiv (sext 32 a.v) d)) 0
    else
      if b.v < param then { resultOf [a, b] tUINT 0 0 with q := qInvalid (joinQ [a, b]) }
      else if b.v = 0 then resultOf [a, b] tUINT (Config.divZero a.v % 2 ^ 32) 0
      else resultOf [a, b] tUINT (a.v / b.v) 0
  if a.ab ∨ b.ab then resultOf [a, b] a.t 0 0 else r

/-- K_DIV. -/
def divBody (k : Inv) (s : State) : Except Nat State :=
  match need k.nOk, k.items k.a k.n numTypes s, k.items k.b k.n numTypes s with
  | .error c, _, _ => .error c
  | _, .error c, _ => .error c
  | _, _, .error c => .error c
  | .ok _, .ok a, .ok b =>
    let ps := a.zip b
    if ps.any (fun p => p.1.t != p.2.t) then .error cTYPE else k.results (ps.map (fun p => divItem k.param p.1 p.2)) s

/-- K_DIV (R255). -/
def execKDiv (l : Fin 256) (s : State) : Host.Outcome State Fault Refusal :=
  whileOn (2 + l.val / 64) s <|
  .next (invoke l 0x0F divBody s)

end Sys2Proof.Machine
end

