-- ==== Sys2Proof/Machine/KernelsSignal.lean ====
section
/-!
DEFINITION. The signal kernels 0x10–0x1F (09_lanes_kernels.md R246, R248, R255, R257). The layout of instance data within the
sizes that R255 gives is the model's own (log entry 11).
-/
namespace Sys2Proof.Machine

/-! ### Phasors (R257) -/

/-- The ages that a channel keeps for each quality mark in its window: 0 invalid or ABSENT, 1 questionable, 2–15 the bits of
R174; a mark stays `len` runs. -/
def ageStep (len : Nat) (x : Item) (ages : List Byte) : List Byte :=
  (List.range 16).map (fun i =>
    let here := if i = 0 then x.ab || vRank x.q == 2 else if i = 1 then vRank x.q == 1 else bit x.q i
    if here then BitVec.ofNat 8 len else BitVec.ofNat 8 (leAt ages i 1 - 1))

/-- Quality of a channel whose ages are given. -/
def ageQ (ages : List Byte) : Nat :=
  let o := (List.range 14).foldl (fun a i => a + b2n (leAt ages (i + 2) 1 != 0) * 2 ^ (i + 2)) 0
  o + (if leAt ages 0 1 ≠ 0 then 1 else if leAt ages 1 1 ≠ 0 then 3 else 0)

/-- Live and shadow sums, each a real and an imaginary part in binary64, after a run (R257): the sample `new` enters with the
angle of `h` times k = G mod W, the sample `old` leaves with its own; the shadow, which takes incoming samples only, replaces the
live sum where the window begins. -/
def windowSums (code w len g h new old : Nat) (sums : List Nat) : List Nat :=
  let k := h * g % w
  let ko := h * (g + w * len - len) % w
  let begins := g % len == 0
  let at' := fun i => sums.getD i 0
  let live := fun i => if begins then at' (i + 2) else at' i
  let shadow := fun i => if begins then 0 else at' (i + 2)
  let x := fconv f32 f64 new
  let y := f64.neg (fconv f32 f64 old)
  let d := f64.neg (sinW w k)
  let dOld := f64.neg (sinW w ko)
  [f64.sum code [.num (live 0), .prod x (cosW w k), .prod y (cosW w ko)], f64.sum code [.num (live 1), .prod x d, .prod y dOld],
   f64.sum code [.num (shadow 0), .prod x (cosW w k)], f64.sum code [.num (shadow 1), .prod x d]]

/-- A binary64 sum times √2 / `len` as an fp32 part of a phasor. -/
def windowPart (code len a : Nat) : Nat :=
  let scale := f64.div (f64.sqrt (f64.ofInt 2)) (f64.ofInt len)
  if Config.narrowFirst code then f32.mul (fconv f64 f32 a) (fconv f64 f32 scale) else fconv f64 f32 (f64.mul a scale)

/-- Numbers of `n` bytes that follow one another from offset `o` on. -/
def numsAt (b : List Byte) (o n count : Nat) : List Nat := (List.range count).map (fun i => leAt b (o + n * i) n)

/-- One channel of K_DFT and K_HDFT: `len` samples, live and shadow sums, ages. An ABSENT sample enters as 0.0 (R257). -/
def dftChannel (code w len g : Nat) (x : Item) (st : List Byte) : Item × List Byte :=
  let j := g % len
  let new := if x.ab then 0 else x.v
  let sums := windowSums code w len g 1 new (leAt st (4 * j) 4) (numsAt st (4 * len) 8 4)
  let ages := ageStep len x (slice st (4 * len + 32) 16)
  let re := windowPart code len (sums.getD 0 0)
  let im := windowPart code len (sums.getD 1 0)
  ({ t := tPHASOR, v := re, w := im, q := flagQ [new] im (flagQ [new] re (ageQ ages)) },
   slice (splice st (4 * j) (leBytes 4 new)) 0 (4 * len) ++ sums.flatMap (leBytes 8) ++ ages)

/-- The grid tick number G of the sample of channel `i` (R257): the last up to the run's tick whose low 16 bits its SET operand
carries, or the run's tick less LAG where that operand is absent. -/
def Inv.sampleTick (k : Inv) (s : State) (i : Nat) : Nat :=
  let g := k.tick s
  match k.sampleOp s i with
  | none => g
  | some j =>
    let b := k.operand j s
    g - (if entryAbsent b then sLag b else (g % 65536 + 65536 - sValue b % 65536) % 65536)
def Inv.sampleTicks (k : Inv) (s : State) : List Nat := (List.range k.n).map (k.sampleTick s)

/-- Map a channel operation over the instance data after an 8-byte header, `size` bytes a channel. -/
def eachChannel (size : Nat) (f : Item → List Byte → Item × List Byte) (xs : List Item) (d : List Byte) :
    List Item × List Byte :=
  let rs := (xs.zip (List.range xs.length)).map (fun (p : Item × Nat) => f p.1 (slice d (8 + size * p.2) size))
  (rs.map (fun r => r.1), slice d 0 8 ++ rs.flatMap (fun r => r.2))

/-- The same for an operation that takes the grid tick of its channel's sample. -/
def eachWindow (size : Nat) (f : Nat → Item → List Byte → Item × List Byte) (ts : List Nat) (xs : List Item) (d : List Byte) :
    List Item × List Byte :=
  let rs := ((xs.zip ts).zip (List.range xs.length)).map (fun (p : (Item × Nat) × Nat) =>
    f p.1.2 p.1.1 (slice d (8 + size * p.2) size))
  (rs.map (fun r => r.1), slice d 0 8 ++ rs.flatMap (fun r => r.2))

/-- Map an element operation over instance data of `size` bytes an element. -/
def eachElement (size : Nat) (f : Item → List Byte → Item × List Byte) (xs : List Item) (d : List Byte) :
    List Item × List Byte :=
  let rs := (xs.zip (List.range xs.length)).map (fun (p : Item × Nat) => f p.1 (slice d (size * p.2) size))
  (rs.map (fun r => r.1), rs.flatMap (fun r => r.2))

/-- Write results and instance data. -/
def Inv.finish (k : Inv) (rs : List Item) (d : List Byte) (s : State) : Except Nat State :=
  match k.results rs s with
  | .error c => .error c
  | .ok t => k.setData d t

/-- Whether PARAM[7:0] is a window length (R255). -/
def windowOk (w : Nat) : Bool := decide (16 ≤ w) && decide (w ≤ 192)

/-- K_DFT and K_HDFT. -/
def dftBody (half : Bool) (k : Inv) (s : State) : Except Nat State :=
  let w := k.param % 256
  let len := if half then w / 2 else w
  let size := 4 * len + 48
  match need (k.nOk && windowOk w && (!half || w % 2 == 0)), k.items k.a k.n [tFLOAT] s, k.data (8 + size * k.n) s with
  | .error c, _, _ => .error c
  | _, .error c, _ => .error c
  | _, _, .error c => .error c
  | .ok _, .ok xs, .ok d =>
    let r := eachWindow size (dftChannel k.code w len) (k.sampleTicks s) xs d
    k.finish r.1 r.2 s

/-- K_DFT (R257). -/
def execKDft (l : Fin 256) (s : State) : Host.Outcome State Fault Refusal :=
  whileOn (2 + l.val / 64) s <|
  .next (invoke l 0x10 (dftBody false) s)

/-- K_HDFT (R255). -/
def execKHdft (l : Fin 256) (s : State) : Host.Outcome State Fault Refusal :=
  whileOn (2 + l.val / 64) s <|
  .next (invoke l 0x11 (dftBody true) s)

/-! ### Kernels whose formulas the spec does not give (log entry 11) -/

/-- Values and new instance data of an open kernel. -/
def Inv.openRun (k : Inv) (ins : List Item) (d : List Byte) : List Nat × List Byte :=
  let r := Config.kernelRun [k.code, k.n, k.m, k.param, k.r.tick] (numsOf ins) d
  (r.1, slice r.2 0 d.length)

/-- Value `i` of an open result as an item of type `t`. -/
def openItem (ins : List Item) (vs : List Nat) (t i : Nat) : Item :=
  let v := vs.getD i 0
  if t = tBOOL then resultOf ins tBOOL (v % 2) 0
  else if t = tFLOAT then floatOf ins (numsOf ins) (v % 2 ^ 32)
  else resultOf ins t (v % 2 ^ 32) 0

/-- Results of an open kernel: their types with the inputs that contribute to each. -/
def openItems (l : List (Nat × List Item)) (vs : List Nat) : List Item :=
  (l.zip (List.range l.length)).map (fun (p : (Nat × List Item) × Nat) => openItem p.1.2 vs p.1.1 p.2)

/-- The magnitude of a binary64 sum as an fp32 number. -/
def sumMagnitude (code : Nat) (sums : List Nat) : Nat :=
  f32.magnitude code (fconv f64 f32 (sums.getD 0 0)) (fconv f64 f32 (sums.getD 1 0))

/-- One channel of K_HARM: W samples, the sums of the fundamental and of harmonic M, ages (layout: log entry 11). -/
def harmChannel (w m g : Nat) (x : Item) (st : List Byte) : Item × List Byte :=
  let j := g % w
  let new := if x.ab then 0 else x.v
  let old := leAt st (4 * j) 4
  let one := windowSums 0x12 w w g 1 new old (numsAt st (4 * w) 8 4)
  let har := windowSums 0x12 w w g m new old (numsAt st (4 * w + 32) 8 4)
  let ages := ageStep w x (slice st (4 * w + 64) 16)
  let r := f32.div (sumMagnitude 0x12 har) (sumMagnitude 0x12 one)
  ({ t := tFLOAT, v := r, q := flagQ [new] r (ageQ ages) },
   slice (splice st (4 * j) (leBytes 4 new)) 0 (4 * w) ++ (one ++ har).flatMap (leBytes 8) ++ ages)

/-- K_HARM: ratio of harmonic M to the fundamental over W. -/
def harmBody (k : Inv) (s : State) : Except Nat State :=
  let w := k.param % 256
  match need (k.nOk && windowOk w && decide (2 ≤ k.m) && decide (k.m ≤ 15)), k.items k.a k.n [tFLOAT] s,
      k.data (8 + (4 * w + 80) * k.n) s with
  | .error c, _, _ => .error c
  | _, .error c, _ => .error c
  | _, _, .error c => .error c
  | .ok _, .ok xs, .ok d =>
    let r := eachWindow (4 * w + 80) (harmChannel w k.m) (k.sampleTicks s) xs d
    k.finish r.1 r.2 s

/-- K_HARM (R255). -/
def execKHarm (l : Fin 256) (s : State) : Host.Outcome State Fault Refusal :=
  whileOn (2 + l.val / 64) s <|
  .next (invoke l 0x12 harmBody s)

/-- The header of K_FREQ and K_ROCOF, 8 bytes (layout: log entry 11): nominal frequency as fp32, position in the ring of M
numbers, and the grid tick of the previous run modulo 2²⁴. Answers the seconds since that run as an fp32 pattern. -/
def runSeconds (g : Nat) (d : List Byte) : Nat := f32.ofFrac (((g + 2 ^ 24 - leAt d 5 3 % 2 ^ 24) % 2 ^ 24 : Nat) : Int) 4800

/-- Instance data after a run: `x` takes the place of the oldest number of the ring. -/
def ringPut (m g x : Nat) (d : List Byte) : List Byte :=
  let pos := leAt d 4 1 % m
  splice (slice d 0 4 ++ leBytes 1 ((pos + 1) % m) ++ leBytes 3 (g % 2 ^ 24) ++ slice d 8 (4 * m)) (8 + 4 * pos) (leBytes 4 x)

/-- The M numbers of the ring, the oldest first. -/
def ringNums (m : Nat) (d : List Byte) : List Nat :=
  (List.range m).map (fun i => leAt d (8 + 4 * ((leAt d 4 1 + i) % m)) 4)

/-- The angle from `a` to `b`, within half a turn. -/
def turn (a b : Nat) : Nat :=
  let pi := f32.ofFrac piQ.1 piQ.2
  let d := f32.sub b a
  if f32.lt pi d then f32.sub d (f32.add pi pi) else if f32.le d (f32.neg pi) then f32.add d (f32.add pi pi) else d

/-- K_FREQ: the phase advances of M runs, averaged and divided by 2π and the time of a run, above the nominal frequency at which
the phasors' angle reference turns (R257); the ring holds angles. -/
def freqStep (m g : Nat) (x : Item) (d : List Byte) : Nat × List Byte :=
  let now := atan2 x.w x.v
  let as := ringNums m d
  let adv := (as.zip (as.drop 1 ++ [now])).map (fun p => Term.num (turn p.1 p.2))
  let mean := f32.divBy 0x16 (f32.sum 0x16 adv) (f32.ofInt m)
  let pi := f32.ofFrac piQ.1 piQ.2
  (f32.add (leAt d 0 4) (f32.div mean (f32.mul (f32.add pi pi) (runSeconds g d))), ringPut m g now d)

/-- K_ROCOF: the change over M runs divided by their time; the ring holds frequencies. -/
def rocofStep (m g : Nat) (x : Item) (d : List Byte) : Nat × List Byte :=
  let old := (ringNums m d).headD 0
  (f32.div (f32.sub x.v old) (f32.mul (f32.ofInt m) (runSeconds g d)), ringPut m g x.v d)

/-- K_FREQ and K_ROCOF: one input averaged over M runs; an ABSENT one leaves the instance data. -/
def freqBody (ty lo : Nat) (f : Nat → Nat → Item → List Byte → Nat × List Byte) (k : Inv) (s : State) : Except Nat State :=
  match need (decide (lo ≤ k.m) && decide (k.m ≤ 96)), k.items k.a 1 [ty] s, k.data (8 + 4 * k.m) s with
  | .error c, _, _ => .error c
  | _, .error c, _ => .error c
  | _, _, .error c => .error c
  | .ok _, .ok xs, .ok d =>
    let x := xs.headD { t := ty, v := 0, q := 0 }
    let r := f k.m k.r.tick x d
    k.finish [floatOf [x] (numsOf [x]) r.1] (if x.ab then d else r.2) s

/-- K_FREQ (R255). -/
def execKFreq (l : Fin 256) (s : State) : Host.Outcome State Fault Refusal :=
  whileOn (2 + l.val / 64) s <|
  .next (invoke l 0x16 (freqBody tPHASOR 1 freqStep) s)

/-- K_ROCOF (R255). -/
def execKRocof (l : Fin 256) (s : State) : Host.Outcome State Fault Refusal :=
  whileOn (2 + l.val / 64) s <|
  .next (invoke l 0x17 (freqBody tFLOAT 2 rocofStep) s)

/-- One channel of K_BIQ in the transposed direct form (log entry 11): b0, b1, b2, a1 and a2 are the first five fp32 words of the
header, the two states the channel's 8 bytes. An ABSENT input leaves them. -/
def biqElement (h : List Byte) (x : Item) (st : List Byte) : Item × List Byte :=
  let c := fun i => leAt h (4 * i) 4
  let y := f32.sum 0x1A [.prod (c 0) x.v, .num (leAt st 0 4)]
  let s1 := f32.sum 0x1A [.prod (c 1) x.v, .prod (f32.neg (c 3)) y, .num (leAt st 4 4)]
  let s2 := f32.sum 0x1A [.prod (c 2) x.v, .prod (f32.neg (c 4)) y]
  (floatOf [x] [x.v] y, if x.ab then st else leBytes 4 s1 ++ leBytes 4 s2)

/-- K_BIQ: one biquad per channel with shared coefficients. -/
def biqBody (k : Inv) (s : State) : Except Nat State :=
  match need k.nOk, k.items k.a k.n [tFLOAT] s, k.data (24 + 8 * k.n) s with
  | .error c, _, _ => .error c
  | _, .error c, _ => .error c
  | _, _, .error c => .error c
  | .ok _, .ok xs, .ok d =>
    let r := eachElement 8 (biqElement (slice d 0 24)) xs (d.drop 24)
    k.finish r.1 (slice d 0 24 ++ r.2) s

/-- K_BIQ (R255). -/
def execKBiq (l : Fin 256) (s : State) : Host.Outcome State Fault Refusal :=
  whileOn (2 + l.val / 64) s <|
  .next (invoke l 0x1A biqBody s)

/-! ### Rms, sequence, power, complex (R255) -/

/-- One channel of K_RMS: W samples after the position in the header. -/
def rmsChannel (w pos : Nat) (x : Item) (st : List Byte) : Item × List Byte :=
  if x.ab then (absentItem tFLOAT x.q, st)
  else
    let st := splice st (4 * (pos % w)) (leBytes 4 x.v)
    let vs := (List.range w).map (fun i => leAt st (4 * i) 4)
    (floatOf [x] vs (f32.sqrt (f32.divBy 0x13 (f32.sum 0x13 (vs.map (fun v => .prod v v))) (f32.ofInt w))), st)

/-- K_RMS: true rms over the last W runs. -/
def rmsBody (k : Inv) (s : State) : Except Nat State :=
  let w := k.param % 256
  let size := 4 * w + 16
  match need (k.nOk && windowOk w), k.items k.a k.n [tFLOAT] s, k.data (8 + size * k.n) s with
  | .error c, _, _ => .error c
  | _, .error c, _ => .error c
  | _, _, .error c => .error c
  | .ok _, .ok xs, .ok d =>
    let pos := leAt d 0 4
    let r := eachChannel size (rmsChannel w pos) xs d
    k.finish r.1 (splice r.2 0 (leBytes 4 ((pos + 1) % w))) s

/-- K_RMS (R255). -/
def execKRms (l : Fin 256) (s : State) : Host.Outcome State Fault Refusal :=
  whileOn (2 + l.val / 64) s <|
  .next (invoke l 0x13 rmsBody s)

/-- The parts of a sum of phasors, as terms: a phasor, and a phasor times the constant a + jb. -/
def plainTerms (x : Item) : List Term × List Term := ([.num x.v], [.num x.w])
def timesTerms (x : Item) (a b : Nat) : List Term × List Term :=
  ([.prod x.v a, .prod x.w (f32.neg b)], [.prod x.v b, .prod x.w a])

/-- The parts of a sum of phasor terms as kernel `code` computes it. -/
def phasorSum (code : Nat) (l : List (List Term × List Term)) : Nat × Nat :=
  (f32.sum code (l.flatMap (fun x => x.1)), f32.sum code (l.flatMap (fun x => x.2)))

/-- A phasor result whose parts are given. -/
def phasorItem (ins : List Item) (z : Nat × Nat) : Item := phasorOf ins (numsOf ins) z.1 z.2

/-- The constants −½ and √3/2 of the operator a. -/
def minusHalf : Nat := f32.ofFrac (-1) 2
def halfRoot3 : Nat := f32.div (f32.sqrt (f32.ofInt 3)) (f32.ofInt 2)

/-- K_SEQ: zero, positive and negative sequence of L1–L3. -/
def seqBody (k : Inv) (s : State) : Except Nat State :=
  match k.items k.a 3 [tPHASOR] s with
  | .error c => .error c
  | .ok xs =>
    let x := fun i => xs.getD i { t := tPHASOR, v := 0, q := 0 }
    let third := fun (z : Nat × Nat) => (f32.divBy 0x14 z.1 (f32.ofInt 3), f32.divBy 0x14 z.2 (f32.ofInt 3))
    let seq := fun (b c : List Term × List Term) => phasorItem xs (third (phasorSum 0x14 [plainTerms (x 0), b, c]))
    let a := fun i => timesTerms (x i) minusHalf halfRoot3
    let a2 := fun i => timesTerms (x i) minusHalf (f32.neg halfRoot3)
    k.results [seq (plainTerms (x 1)) (plainTerms (x 2)), seq (a 1) (a2 2), seq (a2 1) (a 2)] s

/-- K_SEQ (R255). -/
def execKSeq (l : Fin 256) (s : State) : Host.Outcome State Fault Refusal :=
  whileOn (2 + l.val / 64) s <|
  .next (invoke l 0x14 seqBody s)

/-- K_PWR: P and Q are the parts of Σ U·conj(I); S is open (log entry 10). -/
def pwrBody (k : Inv) (s : State) : Except Nat State :=
  match k.items k.a 3 [tPHASOR] s, k.items k.b 3 [tPHASOR] s with
  | .error c, _ => .error c
  | _, .error c => .error c
  | .ok u, .ok i =>
    let ins := u ++ i
    let nums := numsOf ins
    let z := phasorSum 0x15 ((u.zip i).map (fun p => timesTerms p.1 p.2.v (f32.neg p.2.w)))
    k.results [floatOf ins nums z.1, floatOf ins nums z.2, floatOf ins nums (Config.numeric 0x15 nums % 2 ^ 32)] s

/-- K_PWR (R255). -/
def execKPwr (l : Fin 256) (s : State) : Host.Outcome State Fault Refusal :=
  whileOn (2 + l.val / 64) s <|
  .next (invoke l 0x15 pwrBody s)

/-- One result of K_CPLX. -/
def cplxItem (op : Nat) (a b : Item) : Item :=
  let ins := [a, b]
  if op = 0 then phasorOf ins (numsOf ins) (f32.add a.v b.v) (f32.add a.w b.w)
  else if op = 1 then phasorOf ins (numsOf ins) (f32.sub a.v b.v) (f32.sub a.w b.w)
  else if op = 2 then phasorItem ins (phasorSum 0x18 [timesTerms a b.v b.w])
  else phasorItem ins (phasorSum 0x18 [timesTerms a b.v (f32.neg b.w)])

/-- K_CPLX. -/
def cplxBody (k : Inv) (s : State) : Except Nat State :=
  match need (k.nOk && decide (k.param ≤ 3)), k.items k.a k.n [tPHASOR] s, k.items k.b k.n [tPHASOR] s with
  | .error c, _, _ => .error c
  | _, .error c, _ => .error c
  | _, _, .error c => .error c
  | .ok _, .ok a, .ok b => k.results ((a.zip b).map (fun p => cplxItem k.param p.1 p.2)) s

/-- K_CPLX (R255). -/
def execKCplx (l : Fin 256) (s : State) : Host.Outcome State Fault Refusal :=
  whileOn (2 + l.val / 64) s <|
  .next (invoke l 0x18 cplxBody s)

/-- K_POLAR: magnitudes, with M 1 magnitude and angle pairs. -/
def polarBody (k : Inv) (s : State) : Except Nat State :=
  match need (k.nOk && decide (k.m ≤ 1)), k.items k.a k.n [tPHASOR] s with
  | .error c, _ => .error c
  | _, .error c => .error c
  | .ok _, .ok a =>
    k.results (a.flatMap (fun x =>
      floatOf [x] [x.v, x.w] (f32.magnitude 0x19 x.v x.w) ::
        (if k.m = 1 then [floatOf [x] [x.v, x.w] (atan2 x.w x.v)] else []))) s

/-- K_POLAR (R255). -/
def execKPolar (l : Fin 256) (s : State) : Host.Outcome State Fault Refusal :=
  whileOn (2 + l.val / 64) s <|
  .next (invoke l 0x19 polarBody s)

/-- K_PSUM: the sum of N phasors. -/
def psumBody (k : Inv) (s : State) : Except Nat State :=
  match need k.nOk, k.items k.a k.n [tPHASOR] s with
  | .error c, _ => .error c
  | _, .error c => .error c
  | .ok _, .ok a => k.results [phasorItem a (phasorSum 0x1C (a.map plainTerms))] s

/-- K_PSUM (R255). -/
def execKPsum (l : Fin 256) (s : State) : Host.Outcome State Fault Refusal :=
  whileOn (2 + l.val / 64) s <|
  .next (invoke l 0x1C psumBody s)

/-! ### Kernels with memory of earlier runs (R255) -/

/-- K_DERIV: (x − previous x) × PARAM; an ABSENT input leaves the previous x. -/
def derivElement (c : Nat) (x : Item) (st : List Byte) : Item × List Byte :=
  let p := leAt st 0 4
  if x.ab then (absentItem tFLOAT x.q, st)
  else (floatOf [x] [x.v, p, c] (f32.mul (f32.sub x.v p) c), splice st 0 (leBytes 4 x.v))

/-- K_DERIV. -/
def derivBody (k : Inv) (s : State) : Except Nat State :=
  match need k.nOk, k.items k.a k.n [tFLOAT] s, k.data (8 * k.n) s with
  | .error c, _, _ => .error c
  | _, .error c, _ => .error c
  | _, _, .error c => .error c
  | .ok _, .ok xs, .ok d => let r := eachElement 8 (derivElement k.param) xs d; k.finish r.1 r.2 s

/-- K_DERIV (R255). -/
def execKDeriv (l : Fin 256) (s : State) : Host.Outcome State Fault Refusal :=
  whileOn (2 + l.val / 64) s <|
  .next (invoke l 0x1B derivBody s)

/-- One channel of K_DELAY: the unit of M runs before; where none was stored yet, a zero of the input's type. -/
def delayChannel (m pos : Nat) (x : Item) (st : List Byte) : Item × List Byte :=
  let old := itemOf (slice st (8 * (pos % m)) 8) []
  (if old.t = 0 then { t := x.t, v := 0, q := 0 } else old,
   splice st (8 * (pos % m)) (x.units.headD []))

/-- K_DELAY: delay by M runs. -/
def delayBody (k : Inv) (s : State) : Except Nat State :=
  match need (k.nOk && decide (1 ≤ k.m) && decide (k.m ≤ 255)),
      k.items k.a k.n [tBOOL, tDBPOS, tINT, tUINT, tFLOAT, tQUAL, tBITS] s, k.data (8 + 8 * k.m * k.n) s with
  | .error c, _, _ => .error c
  | _, .error c, _ => .error c
  | _, _, .error c => .error c
  | .ok _, .ok xs, .ok d =>
    let pos := leAt d 0 4
    let r := eachChannel (8 * k.m) (delayChannel k.m pos) xs d
    k.finish r.1 (splice r.2 0 (leBytes 4 ((pos + 1) % k.m))) s

/-- K_DELAY (R255). -/
def execKDelay (l : Fin 256) (s : State) : Host.Outcome State Fault Refusal :=
  whileOn (2 + l.val / 64) s <|
  .next (invoke l 0x1D delayBody s)

/-- K_INTEG: the binary64 sum of A × PARAM, zero while the reset is TRUE. -/
def integElement (c : Nat) (rst : Item) (x : Item) (st : List Byte) : Item × List Byte :=
  let sum := leAt st 0 8
  if rst.v ≠ 0 ∧ ¬ rst.ab then (floatOf [x, rst] [x.v] 0, leBytes 8 0)
  else if x.ab ∨ rst.ab then (resultOf [x, rst] tFLOAT 0 0, st)
  else
    let sum' := f64.add sum (f64.mul (fconv f32 f64 x.v) (fconv f32 f64 c))
    (floatOf [x, rst] [x.v, c] (fconv f64 f32 sum'), leBytes 8 sum')

/-- K_INTEG. -/
def integBody (k : Inv) (s : State) : Except Nat State :=
  match need k.nOk, k.items k.a k.n [tFLOAT] s, k.items k.b 1 [tBOOL] s, k.data (8 * k.n) s with
  | .error c, _, _, _ => .error c
  | _, .error c, _, _ => .error c
  | _, _, .error c, _ => .error c
  | _, _, _, .error c => .error c
  | .ok _, .ok xs, .ok bs, .ok d =>
    let r := eachElement 8 (integElement k.param (bs.headD { t := tBOOL, v := 0, q := 0 })) xs d
    k.finish r.1 r.2 s

/-- K_INTEG (R255). -/
def execKInteg (l : Fin 256) (s : State) : Host.Outcome State Fault Refusal :=
  whileOn (2 + l.val / 64) s <|
  .next (invoke l 0x1E integBody s)

/-- One channel of K_MEAN: M samples after the position in the header. -/
def meanChannel (m pos : Nat) (x : Item) (st : List Byte) : Item × List Byte :=
  if x.ab then (absentItem tFLOAT x.q, st)
  else
    let st := splice st (4 * (pos % m)) (leBytes 4 x.v)
    let vs := (List.range m).map (fun i => leAt st (4 * i) 4)
    (floatOf [x] vs (f32.divBy 0x1F (f32.sum 0x1F (vs.map .num)) (f32.ofInt m)), st)

/-- K_MEAN: mean over the last M runs. -/
def meanBody (k : Inv) (s : State) : Except Nat State :=
  match need (k.nOk && decide (2 ≤ k.m) && decide (k.m ≤ 255)), k.items k.a k.n [tFLOAT] s,
      k.data (8 + (4 * k.m + 8) * k.n) s with
  | .error c, _, _ => .error c
  | _, .error c, _ => .error c
  | _, _, .error c => .error c
  | .ok _, .ok xs, .ok d =>
    let pos := leAt d 0 4
    let r := eachChannel (4 * k.m + 8) (meanChannel k.m pos) xs d
    k.finish r.1 (splice r.2 0 (leBytes 4 ((pos + 1) % k.m))) s

/-- K_MEAN (R255). -/
def execKMean (l : Fin 256) (s : State) : Host.Outcome State Fault Refusal :=
  whileOn (2 + l.val / 64) s <|
  .next (invoke l 0x1F meanBody s)

end Sys2Proof.Machine
end

