-- ==== Sys2Proof/Machine/KernelsProt.lean ====
section
/-!
DEFINITION. The protection kernels 0x20–0x2F (09_lanes_kernels.md R249, R255, R256). Decisions and instance data whose formulas
the spec does not give are open values (log entry 11); quality, policy, types and cycles are the spec's.
-/
namespace Sys2Proof.Machine

/-- An item of an open kernel under its policy (R249). -/
def policyItems (p : Policy) (outs : List (Nat × List Item)) (run held : List Nat) : List Item :=
  match p with
  | .run => openItems outs run
  | .hold => (openItems (outs.map (fun o => (o.1, []))) held).map (fun x => { x with q := heldQ })
  | .block => outs.map (fun o => blocked o.1)

/-- The results of an open kernel over all its inputs, and its instance data: kept under HOLD, with timers and thermal states at
their initial values under BLOCK (R249). -/
def Inv.openWhole (k : Inv) (ins : List Item) (outs : List Nat) (d : List Byte) : List Item × List Byte :=
  let key := [k.code, k.n, k.m, k.param]
  let p := policyOf k.qpol (d.length != 0) ins
  let r := k.openRun ins d
  let os := outs.map (fun t => (t, ins))
  (policyItems p os r.1 (Config.kernelHeld key d),
   match p with
   | .run => if ins.any (fun x => x.ab) then d else r.2
   | .hold => d
   | .block => slice (Config.kernelInit key d) 0 d.length)

/-- A kernel of one judgement over all its inputs. -/
def wholeBody (size : Nat) (outs : List Nat) (ins : Except Nat (List Item)) (k : Inv) (s : State) : Except Nat State :=
  match ins, k.data size s with
  | .error c, _ => .error c
  | _, .error c => .error c
  | .ok xs, .ok d => let r := k.openWhole xs outs d; k.finish r.1 r.2 s

/-- Two groups of inputs together. -/
def both (a b : Except Nat (List Item)) : Except Nat (List Item) :=
  match a, b with
  | .error c, _ => .error c
  | _, .error c => .error c
  | .ok x, .ok y => .ok (x ++ y)

/-! ### Differential (R255) -/

/-- The currents of one phase over N ends, each end's three phases in turn. -/
def phaseOf (xs : List Item) (p : Nat) : List Item :=
  ((xs.zip (List.range xs.length)).filter (fun (q : Item × Nat) => q.2 % 3 == p)).map (fun q => q.1)

/-- Idiff = |ΣI| of a phase. -/
def idiffOf (xs : List Item) : Nat :=
  let z := phasorSum 0x20 (xs.map plainTerms)
  f32.magnitude 0x20 z.1 z.2

/-- bias = ½ Σ|I| of a phase. -/
def biasOf (xs : List Item) : Nat :=
  f32.divBy 0x20 (f32.sum 0x20 (xs.map (fun x => .num (f32.magnitude 0x20 x.v x.w)))) (f32.ofInt 2)

/-- The operate decision of a phase: above Is1 and above the slope k1 to bias Ib2 and k2 beyond it, or above the high-set Ihs. The
24 bytes hold Is1, k1, Ib2, k2 and Ihs as fp32 in this order (log entry 11). -/
def diffOperate (d : List Byte) (idiff bias : Nat) : Bool :=
  let k := fun i => leAt d (4 * i) 4
  let slope :=
    if f32.le bias (k 2) then f32.mul (k 1) bias
    else f32.sum 0x20 [.prod (k 1) (k 2), .prod (k 3) (f32.sub bias (k 2))]
  (f32.lt (k 0) idiff && f32.lt slope idiff) || f32.lt (k 4) idiff

/-- K_DIFF: operate, Idiff and bias of the three phases. -/
def diffBody (k : Inv) (s : State) : Except Nat State :=
  match need (decide (2 ≤ k.n) && decide (k.n ≤ 32)), k.items k.a (3 * k.n) [tPHASOR] s, k.data 24 s with
  | .error c, _, _ => .error c
  | _, .error c, _ => .error c
  | _, _, .error c => .error c
  | .ok _, .ok xs, .ok d =>
    let p := policyOf k.qpol true xs
    let held := Config.kernelHeld [k.code, k.n, k.m, k.param] d
    let ph := [0, 1, 2].map (phaseOf xs)
    let outs := ph.map (fun l => (tBOOL, l)) ++ ph.map (fun l => (tFLOAT, l)) ++ ph.map (fun l => (tFLOAT, l))
    let rs := match p with
      | .run => ph.map (fun l => boolOf l (diffOperate d (idiffOf l) (biasOf l))) ++
          ph.map (fun l => floatOf l (numsOf l) (idiffOf l)) ++ ph.map (fun l => floatOf l (numsOf l) (biasOf l))
      | _ => policyItems p outs [] held
    k.results rs s

/-- K_DIFF (R255). -/
def execKDiff (l : Fin 256) (s : State) : Host.Outcome State Fault Refusal :=
  whileOn (2 + l.val / 64) s <|
  .next (invoke l 0x20 diffBody s)

/-! ### Kernels of one judgement (R255) -/

/-- K_REST: second and fifth harmonic ratios against their limits, the first two fp32 words of the 16 bytes (log entry 11); M 0
blocks per phase, M 1 every phase where one is above a limit (cross-blocking). -/
def restBody (k : Inv) (s : State) : Except Nat State :=
  match need (decide (k.m ≤ 1)), k.items k.a 3 [tFLOAT] s, k.items k.b 3 [tFLOAT] s, k.data 16 s with
  | .error c, _, _, _ => .error c
  | _, .error c, _, _ => .error c
  | _, _, .error c, _ => .error c
  | _, _, _, .error c => .error c
  | .ok _, .ok a, .ok b, .ok d =>
    let p := policyOf k.qpol true (a ++ b)
    let ps := a.zip b
    let above := ps.map (fun x => f32.lt (leAt d 0 4) x.1.v || f32.lt (leAt d 4 4) x.2.v)
    let ins := fun (x : Item × Item) => if k.m = 1 then a ++ b else [x.1, x.2]
    k.results (match p with
      | .run => (ps.zip above).map (fun x => boolOf (ins x.1) (if k.m = 1 then above.any id else x.2))
      | _ => policyItems p (ps.map (fun x => (tBOOL, ins x))) [] (Config.kernelHeld [k.code, k.n, k.m, k.param] d)) s

/-- K_REST (R255). -/
def execKRest (l : Fin 256) (s : State) : Host.Outcome State Fault Refusal :=
  whileOn (2 + l.val / 64) s <|
  .next (invoke l 0x21 restBody s)

/-- The two parts of open phasors. -/
def openPhasors (ins : List Item) (vs : List Nat) (n : Nat) : List Item :=
  (List.range n).map (fun i => phasorOf ins (numsOf ins) (vs.getD (2 * i) 0 % 2 ^ 32) (vs.getD (2 * i + 1) 0 % 2 ^ 32))

/-- The quotient of two phasors given by their parts, with the product of the first and the conjugate of the second over the
second's squared magnitude. -/
def phasorDiv (code : Nat) (u i : Nat × Nat) : Nat × Nat :=
  let m := f32.sum code [.prod i.1 i.1, .prod i.2 i.2]
  (f32.div (f32.sum code [.prod u.1 i.1, .prod u.2 i.2]) m,
   f32.div (f32.sum code [.prod u.2 i.1, .prod u.1 (f32.neg i.2)]) m)

/-- The loop impedance of phase `l` to earth: U / (I + k0 (IL1 + IL2 + IL3)), k0 as two fp32 words (log entry 11). -/
def impEarth (k0 : List Byte) (u i : List Item) (l : Nat) : Item :=
  let z : Item := { t := tPHASOR, v := 0, q := 0 }
  let ins := u.getD l z :: i
  let sum := phasorSum 0x22 (i.map plainTerms)
  let cur := phasorSum 0x22 [plainTerms (i.getD l z), timesTerms { z with v := sum.1, w := sum.2 } (leAt k0 0 4) (leAt k0 4 4)]
  phasorItem ins (phasorDiv 0x22 ((u.getD l z).v, (u.getD l z).w) cur)

/-- The loop impedance between phases `a` and `b`: (Ua − Ub) / (Ia − Ib). -/
def impPair (u i : List Item) (a b : Nat) : Item :=
  let x := fun (l : List Item) n => l.getD n { t := tPHASOR, v := 0, q := 0 }
  let diff := fun (l : List Item) => (f32.sub (x l a).v (x l b).v, f32.sub (x l a).w (x l b).w)
  phasorItem [x u a, x u b, x i a, x i b] (phasorDiv 0x22 (diff u) (diff i))

/-- The six loops in the order of R255. -/
def impLoops (k0 : List Byte) (u i : List Item) : List Item :=
  [impEarth k0 u i 0, impEarth k0 u i 1, impEarth k0 u i 2, impPair u i 0 1, impPair u i 1 2, impPair u i 2 0]

/-- K_IMP: six loop impedances from three voltages and three currents with a complex k0. -/
def impBody (k : Inv) (s : State) : Except Nat State :=
  match k.items k.a 3 [tPHASOR] s, k.items k.b 3 [tPHASOR] s, k.data 8 s with
  | .error c, _, _ => .error c
  | _, .error c, _ => .error c
  | _, _, .error c => .error c
  | .ok us, .ok is, .ok d =>
    let p := policyOf k.qpol true (us ++ is)
    let held := openPhasors [] (Config.kernelHeld [k.code, k.n, k.m, k.param] d) 6
    k.results (match p with
      | .run => impLoops d us is
      | .hold => held.map (fun x => { x with q := heldQ })
      | .block => List.replicate 6 (blocked tPHASOR)) s

/-- K_IMP (R255). -/
def execKImp (l : Fin 256) (s : State) : Host.Outcome State Fault Refusal :=
  whileOn (2 + l.val / 64) s <|
  .next (invoke l 0x22 impBody s)

/-- K_THERM: thermal level, alarm and trip. -/
def thermBody (k : Inv) (s : State) : Except Nat State :=
  wholeBody 32 [tFLOAT, tBOOL, tBOOL] (k.items k.a 1 [tFLOAT] s) k s

/-- K_THERM (R255). -/
def execKTherm (l : Fin 256) (s : State) : Host.Outcome State Fault Refusal :=
  whileOn (2 + l.val / 64) s <|
  .next (invoke l 0x27 thermBody s)

/-- The differences of K_SYNC, line less bus: of magnitude, of frequency in Hz and of angle in rad. The frequency difference is the
change of the angle difference since the previous run over 2π and the time between; bytes 32–39 hold that run's angle difference
and tick (log entry 11). -/
def syncDiffs (g : Nat) (x y : Item) (d : List Byte) : Nat × Nat × Nat :=
  let pi := f32.ofFrac piQ.1 piQ.2
  let phi := turn (atan2 y.w y.v) (atan2 x.w x.v)
  let secs := f32.ofFrac (((g % 2 ^ 32 + 2 ^ 32 - leAt d 36 4) % 2 ^ 32 : Nat) : Int) 4800
  (f32.sub (f32.magnitude 0x28 x.v x.w) (f32.magnitude 0x28 y.v y.w),
   f32.div (turn (leAt d 32 4) phi) (f32.mul (f32.add pi pi) secs), phi)

/-- K_SYNC: release, which the spec leaves open, and the differences of voltage, frequency and angle. -/
def Inv.syncStep (k : Inv) (x y : Item) (d : List Byte) (s : State) : List Item × List Byte :=
  let ins := [x, y]
  let r := k.openWhole ins [tBOOL, tFLOAT, tFLOAT, tFLOAT] d
  match policyOf k.qpol true ins with
  | .run =>
    let m := syncDiffs (k.tick s) x y d
    (r.1.take 1 ++ [m.1, m.2.1, m.2.2].map (floatOf ins (numsOf ins)),
     if ins.any (fun z => z.ab) then d else slice r.2 0 32 ++ leBytes 4 m.2.2 ++ leBytes 4 (k.tick s % 2 ^ 32))
  | _ => r

/-- K_SYNC. -/
def syncBody (k : Inv) (s : State) : Except Nat State :=
  match k.items k.a 1 [tPHASOR] s, k.items k.b 1 [tPHASOR] s, k.data 40 s with
  | .error c, _, _ => .error c
  | _, .error c, _ => .error c
  | _, _, .error c => .error c
  | .ok xs, .ok ys, .ok d =>
    let z : Item := { t := tPHASOR, v := 0, q := 0 }
    let r := k.syncStep (xs.headD z) (ys.headD z) d s
    k.finish r.1 r.2 s

/-- K_SYNC (R255). -/
def execKSync (l : Fin 256) (s : State) : Host.Outcome State Fault Refusal :=
  whileOn (2 + l.val / 64) s <|
  .next (invoke l 0x28 syncBody s)

/-- K_LOCK: motor start and stall trip. -/
def lockBody (k : Inv) (s : State) : Except Nat State :=
  wholeBody 32 [tBOOL, tBOOL] (both (k.items k.a 1 [tFLOAT] s) (k.items k.b 1 [tBOOL] s)) k s

/-- K_LOCK (R255). -/
def execKLock (l : Fin 256) (s : State) : Host.Outcome State Fault Refusal :=
  whileOn (2 + l.val / 64) s <|
  .next (invoke l 0x2A lockBody s)

/-- K_REF: the operate decision, which the spec leaves open, and the differential |IL1 + IL2 + IL3 + IN|. -/
def Inv.refStep (k : Inv) (ins : List Item) (d : List Byte) : List Item × List Byte :=
  let r := k.openWhole ins [tBOOL, tFLOAT] d
  let z := phasorSum 0x2B (ins.map plainTerms)
  match policyOf k.qpol true ins with
  | .run => (r.1.take 1 ++ [floatOf ins (numsOf ins) (f32.magnitude 0x2B z.1 z.2)], r.2)
  | _ => r

/-- K_REF: restricted earth fault. -/
def refBody (k : Inv) (s : State) : Except Nat State :=
  match both (k.items k.a 3 [tPHASOR] s) (k.items k.b 1 [tPHASOR] s), k.data 24 s with
  | .error c, _ => .error c
  | _, .error c => .error c
  | .ok xs, .ok d => let r := k.refStep xs d; k.finish r.1 r.2 s

/-- K_REF (R255). -/
def execKRef (l : Fin 256) (s : State) : Host.Outcome State Fault Refusal :=
  whileOn (2 + l.val / 64) s <|
  .next (invoke l 0x2B refBody s)

/-- K_VHZ: ratio of voltage to frequency; the operate decision is open (log entry 11). -/
def vhzBody (k : Inv) (s : State) : Except Nat State :=
  match both (k.items k.a 1 [tFLOAT] s) (k.items k.b 1 [tFLOAT] s), k.data 32 s with
  | .error c, _ => .error c
  | _, .error c => .error c
  | .ok xs, .ok d =>
    let r := k.openWhole xs [tFLOAT, tBOOL] d
    let x := fun i => (xs.getD i { t := tFLOAT, v := 0, q := 0 }).v
    let rs := match policyOf k.qpol true xs with
      | .run => floatOf xs (numsOf xs) (f32.div (x 0) (x 1)) :: r.1.drop 1
      | _ => r.1
    k.finish rs r.2 s

/-- K_VHZ (R255). -/
def execKVhz (l : Fin 256) (s : State) : Host.Outcome State Fault Refusal :=
  whileOn (2 + l.val / 64) s <|
  .next (invoke l 0x2C vhzBody s)

/-- K_CAPB: compensated unbalance, alarm and trip. -/
def capbBody (k : Inv) (s : State) : Except Nat State :=
  wholeBody 32 [tFLOAT, tBOOL, tBOOL] (both (k.items k.a 1 [tPHASOR] s) (k.items k.b 1 [tPHASOR] s)) k s

/-- K_CAPB (R255). -/
def execKCapb (l : Fin 256) (s : State) : Host.Outcome State Fault Refusal :=
  whileOn (2 + l.val / 64) s <|
  .next (invoke l 0x2D capbBody s)

/-! ### Element by element (R249, R255) -/

/-- One element of an open kernel under the policy `p` of all its inputs: its inputs, result types and instance data. -/
def Inv.openElement (k : Inv) (p : Policy) (i : Nat) (outs : List Nat) (ins : List Item) (d : List Byte) :
    List Item × List Byte :=
  let key := [k.code, k.n, k.m, k.param, i]
  let r := Config.kernelRun (key ++ [k.r.tick]) (numsOf ins) d
  (policyItems p (outs.map (fun t => (t, ins))) r.1 (Config.kernelHeld key d),
   match p with
   | .run => if ins.any (fun x => x.ab) then d else slice r.2 0 d.length
   | .hold => d
   | .block => slice (Config.kernelInit key d) 0 d.length)

/-- K_ZONE: N impedances against a quadrilateral; its 32 bytes of settings stay. -/
def zoneBody (k : Inv) (s : State) : Except Nat State :=
  match need k.nOk, k.items k.a k.n [tPHASOR] s, k.data 32 s with
  | .error c, _, _ => .error c
  | _, .error c, _ => .error c
  | _, _, .error c => .error c
  | .ok _, .ok xs, .ok d =>
    k.results ((xs.zip (List.range xs.length)).flatMap (fun (p : Item × Nat) =>
      (k.openElement (policyOf k.qpol true xs) p.2 [tBOOL] [p.1] d).1)) s

/-- K_ZONE (R255). -/
def execKZone (l : Fin 256) (s : State) : Host.Outcome State Fault Refusal :=
  whileOn (2 + l.val / 64) s <|
  .next (invoke l 0x23 zoneBody s)

/-- A direction decision: 1 forward, −1 reverse, 0 undetermined. -/
def dirValue (x : Item) : Item :=
  if x.ab then x
  else { x with v := if x.v % 3 = 2 then 0xFFFFFFFF else x.v % 3 }

/-- K_DIR: N operating quantities at A, N polarising at B. -/
def dirBody (k : Inv) (s : State) : Except Nat State :=
  match need k.nOk, k.items k.a k.n [tPHASOR] s, k.items k.b k.n [tPHASOR] s, k.data (16 * k.n) s with
  | .error c, _, _, _ => .error c
  | _, .error c, _, _ => .error c
  | _, _, .error c, _ => .error c
  | _, _, _, .error c => .error c
  | .ok _, .ok a, .ok b, .ok d =>
    let rs := ((a.zip b).zip (List.range k.n)).map (fun (p : (Item × Item) × Nat) =>
      k.openElement (policyOf k.qpol true (a ++ b)) p.2 [tINT] [p.1.1, p.1.2] (slice d (16 * p.2) 16))
    k.finish ((rs.flatMap (fun r => r.1)).map dirValue) (rs.flatMap (fun r => r.2)) s

/-- K_DIR (R255). -/
def execKDir (l : Fin 256) (s : State) : Host.Outcome State Fault Refusal :=
  whileOn (2 + l.val / 64) s <|
  .next (invoke l 0x24 dirBody s)

/-- Elapsed grid ticks × 208,333⅓ ns have reached `us` microseconds. -/
def elapsed (g from' us : Nat) : Bool := decide (3 * us ≤ (g - from') * 625)

/-- One element of K_POSN (log entry 11): its state is the position's code as INT, and it alarms while the position has been
intermediate or bad for `ms` milliseconds. Its 8 bytes hold the tick at which that began (0–6), and state, discrepancy and alarm in
byte 7. -/
def posnElement (p : Policy) (ms g : Nat) (x : Item) (st : List Byte) : Item × Item × List Byte :=
  let note := leAt st 7 1
  match p with
  | .hold => ({ t := tINT, v := note % 4, q := heldQ }, { t := tBOOL, v := b2n (bit note 3), q := heldQ }, st)
  | .block => (blocked tINT, blocked tBOOL, leBytes 8 0)
  | .run =>
    if x.ab then (absentItem tINT x.q, absentItem tBOOL x.q, st)
    else
      let v := x.v % 4
      let bad := v == 0 || v == 3
      let since := if bad && bit note 2 then leAt st 0 7 else g
      let alarm := bad && elapsed g since (1000 * ms)
      (resultOf [x] tINT v 0, boolOf [x] alarm, leBytes 7 since ++ leBytes 1 (v + 4 * b2n bad + 8 * b2n alarm))

/-- K_POSN: N switch positions to N INT states and N alarms. -/
def posnBody (k : Inv) (s : State) : Except Nat State :=
  match need k.nOk, k.items k.a k.n [tDBPOS] s, k.data (8 * k.n) s with
  | .error c, _, _ => .error c
  | _, .error c, _ => .error c
  | _, _, .error c => .error c
  | .ok _, .ok xs, .ok d =>
    let rs := (xs.zip (List.range k.n)).map (fun (p : Item × Nat) =>
      posnElement (policyOf k.qpol true xs) k.m (k.tick s) p.1 (slice d (8 * p.2) 8))
    k.finish (rs.map (fun r => r.1) ++ rs.map (fun r => r.2.1)) (rs.flatMap (fun r => r.2.2)) s

/-- K_POSN (R255). -/
def execKPosn (l : Fin 256) (s : State) : Host.Outcome State Fault Refusal :=
  whileOn (2 + l.val / 64) s <|
  .next (invoke l 0x29 posnBody s)

/-- The characteristic through M breakpoints at `x`: the 8-byte header is followed by pairs of fp32 in ascending order of the first
(log entry 11); outside the breakpoints the spec states no value. -/
def pwlValue (m : Nat) (d : List Byte) (x : Nat) : Nat :=
  let px := fun i => leAt d (8 + 8 * i) 4
  let py := fun i => leAt d (12 + 8 * i) 4
  if f32.isNan x then f32.qnan
  else
    match (List.range (m - 1)).find? (fun i => f32.le (px i) x && f32.le x (px (i + 1))) with
    | some i =>
      f32.sum 0x2F [.num (py i),
        .prod (f32.sub x (px i)) (f32.div (f32.sub (py (i + 1)) (py i)) (f32.sub (px (i + 1)) (px i)))]
    | none => Config.numeric 0x2F (x :: (List.range m).flatMap (fun i => [px i, py i])) % 2 ^ 32

/-- K_PWL: a characteristic of M breakpoints; its instance data stays. -/
def pwlBody (k : Inv) (s : State) : Except Nat State :=
  match need (k.nOk && decide (2 ≤ k.m) && decide (k.m ≤ 16)), k.items k.a k.n [tFLOAT] s, k.data (8 + 8 * k.m) s with
  | .error c, _, _ => .error c
  | _, .error c, _ => .error c
  | _, _, .error c => .error c
  | .ok _, .ok xs, .ok d =>
    let p := policyOf k.qpol true xs
    k.results (match p with
      | .run => xs.map (fun x => floatOf [x] [x.v] (pwlValue k.m d x.v))
      | _ => policyItems p (xs.map (fun x => (tFLOAT, [x]))) [] (Config.kernelHeld [k.code, k.n, k.m, k.param] d)) s

/-- K_PWL (R255). -/
def execKPwl (l : Fin 256) (s : State) : Host.Outcome State Fault Refusal :=
  whileOn (2 + l.val / 64) s <|
  .next (invoke l 0x2F pwlBody s)

/-! ### Comparison (R255) -/

/-- The number that a numeric item holds, none for NaN and the infinities. -/
def itemQ (x : Item) : Option (Int × Nat) :=
  if x.t = tFLOAT then f32.frac? x.v else if x.t = tINT then some (sext 32 x.v, 1) else some ((x.v : Int), 1)

/-- Whether an item's number lies below an fp32 limit, or above it. -/
def itemBelow (x : Item) (lim : Nat) : Bool :=
  if x.t = tFLOAT then f32.lt x.v lim
  else
    match itemQ x, f32.frac? lim with
    | some a, some b => fLt a b
    | some _, none => f32.exact lim == .inf false
    | _, _ => false
def itemAbove (x : Item) (lim : Nat) : Bool :=
  if x.t = tFLOAT then f32.lt lim x.v
  else
    match itemQ x, f32.frac? lim with
    | some a, some b => fLt b a
    | some _, none => f32.exact lim == .inf true
    | _, _ => false

/-- One element of K_CMP: pickup (bytes 0–3), dropout (4–7), state (byte 8). M 0 over, 1 under. It picks up beyond the pickup value
and stays only while beyond the dropout value (log entry 48). -/
def cmpElement (p : Policy) (m : Nat) (x : Item) (st : List Byte) : Item × List Byte :=
  let on := bit (leAt st 8 1) 0
  match p with
  | .hold => ({ t := tBOOL, v := b2n on, q := heldQ }, st)
  | .block => (blocked tBOOL, splice st 8 [0])
  | .run =>
    if x.ab then (absentItem tBOOL x.q, st)
    else
      let up := if m = 0 then itemAbove x (leAt st 0 4) else itemBelow x (leAt st 0 4)
      let stays := if m = 0 then itemAbove x (leAt st 4 4) else itemBelow x (leAt st 4 4)
      let on' := up || (on && stays)
      (boolOf [x] on', splice st 8 (leBytes 1 (b2n on')))

/-- K_CMP. -/
def cmpBody (k : Inv) (s : State) : Except Nat State :=
  match need (k.nOk && decide (k.m ≤ 1)), k.items k.a k.n numTypes s, k.data (16 * k.n) s with
  | .error c, _, _ => .error c
  | _, .error c, _ => .error c
  | _, _, .error c => .error c
  | .ok _, .ok xs, .ok d => let r := eachElement 16 (cmpElement (policyOf k.qpol true xs) k.m) xs d; k.finish r.1 r.2 s

/-- K_CMP (R255). -/
def execKCmp (l : Fin 256) (s : State) : Host.Outcome State Fault Refusal :=
  whileOn (2 + l.val / 64) s <|
  .next (invoke l 0x25 cmpBody s)

/-! ### Inverse time (R256) -/

/-- The format in which K_IDMT takes the formulas of R256 (R246); the integrator is binary64. -/
def idmtFmt : Fmt := f32

/-- The operate time t(x) in seconds for x > 1, by curve. -/
def idmtTime (f : Fmt) (curve x tms : Nat) : Nat :=
  let one := f.ofInt 1
  let c := fun (n : Int) (d : Nat) => f.ofFrac n d
  let p := f.sub (pow002 f x) one
  let sq := f.sub (f.mul x x) one
  let simple := fun (k den : Nat) => f.div (f.mul tms k) den
  let offset := fun (k den b : Nat) => f.mul tms (f.add (f.div k den) b)
  match curve with
  | 0 => simple (c 14 100) p
  | 1 => simple (c 135 10) (f.sub x one)
  | 2 => simple (c 80 1) sq
  | 3 => simple (c 120 1) (f.sub x one)
  | 4 => offset (c 515 10000) p (c 114 1000)
  | 5 => offset (c 1961 100) sq (c 491 1000)
  | _ => offset (c 282 10) sq (c 1217 10000)

/-- The reset constant tr of curves 4–6. -/
def idmtReset (f : Fmt) (curve : Nat) : Nat :=
  if curve = 4 then f.ofFrac 485 100 else if curve = 5 then f.ofFrac 216 10 else f.ofFrac 291 10

/-- Binary64 one. -/
def f64One : Nat := f64.ofInt 1

/-- The integrator after a run: `dt` grid ticks since the previous one, current `i` over pickup `is`. It grows by Δt / t(x) for
x > 1, is held at 1, resets at once for codes 0–3 and falls at x < 1 for codes 4–6, to 0 at the least (R256). -/
def idmtStep (curve i is tms rm integ dt : Nat) : Nat :=
  let f := idmtFmt
  let wide := fun (v : Nat) => fconv f32 f v
  let x := f.div (wide i) (wide is)
  let one := f.ofInt 1
  let t := f.ofFrac dt 4800
  if f.lt one x then
    if dt = 0 then integ
    else
      let v := f64.add integ (fconv f f64 (f.div t (idmtTime f curve x (wide tms))))
      if f64.lt f64One v then f64One else v
  else if f.isNan x then integ
  else if curve ≤ 3 then 0
  else if f.lt x one ∧ dt ≠ 0 then
    let full := f.div (f.mul (idmtReset f curve) (wide rm)) (f.sub one (f.mul x x))
    let v := f64.sub integ (fconv f f64 (f.div t full))
    if f64.lt v (f64.ofInt 0) then 0 else v
  else integ

/-- One element of K_IDMT, 24 bytes: curve in word 0 [2:0] with the previous run's tick above it (log entry 11), pickup, TMS,
reset multiplier, integrator. -/
def idmtElement (p : Policy) (g : Nat) (x : Item) (st : List Byte) : Item × List Byte :=
  let w := leAt st 0 4
  let integ := leAt st 16 8
  let noted := g % (2 ^ 29 - 1) + 1
  let keep := fun (v : Nat) => leBytes 4 (w % 8 + noted * 8) ++ slice st 4 12 ++ leBytes 8 v
  match p with
  | .hold => ({ t := tBOOL, v := b2n (f64.le f64One integ), q := heldQ }, st)
  | .block => (blocked tBOOL, keep 0)
  | .run =>
    if x.ab then (absentItem tBOOL x.q, st)
    else
      let before := w / 8
      let dt := if before = 0 then 0 else (noted + (2 ^ 29 - 1) - before) % (2 ^ 29 - 1)
      let v := idmtStep (w % 8) x.v (leAt st 4 4) (leAt st 8 4) (leAt st 12 4) integ dt
      (boolOf [x] (f64.le f64One v), keep v)

/-- K_IDMT; curve code 7 is a PARAM fault (R256). -/
def idmtBody (k : Inv) (s : State) : Except Nat State :=
  match need k.nOk, k.items k.a k.n [tFLOAT] s, k.data (24 * k.n) s with
  | .error c, _, _ => .error c
  | _, .error c, _ => .error c
  | _, _, .error c => .error c
  | .ok _, .ok xs, .ok d =>
    if (List.range k.n).any (fun i => leAt d (24 * i) 1 % 8 == 7) then .error cPARAM
    else let r := eachElement 24 (idmtElement (policyOf k.qpol true xs) (k.tick s)) xs d; k.finish r.1 r.2 s

/-- K_IDMT (R256). -/
def execKIdmt (l : Fin 256) (s : State) : Host.Outcome State Fault Refusal :=
  whileOn (2 + l.val / 64) s <|
  .next (invoke l 0x26 idmtBody s)

/-! ### Counting (R255, R298) -/

/-- One element of K_CNT, 8 bytes: count (0–3), previous inputs (byte 4). The count stays within 0 and the limit. -/
def cntElement (p : Policy) (limit : Nat) (up down : Item) (st : List Byte) : Item × List Byte :=
  let c := sext 32 (leAt st 0 4)
  let was := leAt st 4 1
  match p with
  | .hold => ({ t := tINT, v := leAt st 0 4, q := heldQ }, st)
  | .block => (blocked tINT, st)
  | .run =>
    if up.ab ∨ down.ab then (resultOf [up, down] tINT 0 0, st)
    else
      let c := if up.v ≠ 0 ∧ ¬ bit was 0 then min (c + 1) (max c (sext 32 limit)) else c
      let c := if down.v ≠ 0 ∧ ¬ bit was 1 then max (c - 1) 0 else c
      (resultOf [up, down] tINT (toBits 32 c) 0,
       leBytes 4 (toBits 32 c) ++ leBytes 1 (b2n (up.v != 0) + 2 * b2n (down.v != 0)) ++ leBytes 3 0)

/-- Map an element operation of two inputs over instance data of `size` bytes an element. -/
def eachPair (size : Nat) (f : Item → Item → List Byte → Item × List Byte) (a b : List Item) (d : List Byte) :
    List Item × List Byte :=
  let rs := ((a.zip b).zip (List.range a.length)).map (fun (p : (Item × Item) × Nat) =>
    f p.1.1 p.1.2 (slice d (size * p.2) size))
  (rs.map (fun r => r.1), rs.flatMap (fun r => r.2))

/-- K_CNT. -/
def cntBody (k : Inv) (s : State) : Except Nat State :=
  match need k.nOk, k.items k.a k.n [tBOOL] s, k.items k.b k.n [tBOOL] s, k.data (8 * k.n) s with
  | .error c, _, _, _ => .error c
  | _, .error c, _, _ => .error c
  | _, _, .error c, _ => .error c
  | _, _, _, .error c => .error c
  | .ok _, .ok a, .ok b, .ok d => let r := eachPair 8 (cntElement (policyOf k.qpol true (a ++ b)) k.param) a b d; k.finish r.1 r.2 s

/-- K_CNT (R255). -/
def execKCnt (l : Fin 256) (s : State) : Host.Outcome State Fault Refusal :=
  whileOn (2 + l.val / 64) s <|
  .next (invoke l 0x2E cntBody s)

end Sys2Proof.Machine
end

