-- ==== Sys2Proof/Machine/KernelsLogic.lean ====
section
/-!
DEFINITION. The logic, timer and output kernels 0x30–0x3F (09_lanes_kernels.md R243, R249, R255, R257; R228, R260, R276, R305).
-/
namespace Sys2Proof.Machine

/-! ### Gates (R255) -/

/-- A kernel of N BOOLs to one result without instance data. -/
def gateBody (lo hi t : Nat) (f : List Bool → Nat) (k : Inv) (s : State) : Except Nat State :=
  match need (decide (lo ≤ k.n) && decide (k.n ≤ hi)), k.items k.a k.n [tBOOL] s with
  | .error c, _ => .error c
  | _, .error c => .error c
  | .ok _, .ok xs =>
    match policyOf k.qpol false xs with
    | .block => k.results [blocked t] s
    | _ => k.results [resultOf xs t (f (xs.map (fun x => x.v != 0))) 0] s

/-- K_AND (R255). -/
def execKAnd (l : Fin 256) (s : State) : Host.Outcome State Fault Refusal :=
  whileOn (2 + l.val / 64) s <|
  .next (invoke l 0x30 (gateBody 2 64 tBOOL (fun l => b2n (l.all id))) s)

/-- K_OR (R255). -/
def execKOr (l : Fin 256) (s : State) : Host.Outcome State Fault Refusal :=
  whileOn (2 + l.val / 64) s <|
  .next (invoke l 0x31 (gateBody 2 64 tBOOL (fun l => b2n (l.any id))) s)

/-- K_XOR: TRUE for an odd number of TRUE inputs (R255). -/
def execKXor (l : Fin 256) (s : State) : Host.Outcome State Fault Refusal :=
  whileOn (2 + l.val / 64) s <|
  .next (invoke l 0x32 (gateBody 2 64 tBOOL (fun l => (l.filter id).length % 2)) s)

/-- K_NOT. -/
def notBody (k : Inv) (s : State) : Except Nat State :=
  match need k.nOk, k.items k.a k.n [tBOOL] s with
  | .error c, _ => .error c
  | _, .error c => .error c
  | .ok _, .ok xs =>
    k.results (xs.map (fun x =>
      match policyOf k.qpol false xs with
      | .block => blocked tBOOL
      | _ => boolOf [x] (x.v == 0))) s

/-- K_NOT (R255). -/
def execKNot (l : Fin 256) (s : State) : Host.Outcome State Fault Refusal :=
  whileOn (2 + l.val / 64) s <|
  .next (invoke l 0x33 notBody s)

/-- K_VOTE: TRUE when at least M of N are TRUE. -/
def voteBody (k : Inv) (s : State) : Except Nat State :=
  match need (decide (1 ≤ k.m) && decide (k.m ≤ k.n)) with
  | .error c => .error c
  | .ok _ => gateBody 1 64 tBOOL (fun l => b2n (decide (k.m ≤ (l.filter id).length))) k s

/-- K_VOTE (R255). -/
def execKVote (l : Fin 256) (s : State) : Host.Outcome State Fault Refusal :=
  whileOn (2 + l.val / 64) s <|
  .next (invoke l 0x36 voteBody s)

/-- Bits of a list, the first in bit 0. -/
def packBits (l : List Bool) : Nat := l.foldr (fun b a => b2n b + 2 * a) 0

/-- K_PACK: N BOOLs into BITS32 (R255). -/
def execKPack (l : Fin 256) (s : State) : Host.Outcome State Fault Refusal :=
  whileOn (2 + l.val / 64) s <|
  .next (invoke l 0x37 (gateBody 1 32 tBITS packBits) s)

/-! ### Edges and latches: one bit an element in 8 bytes (R255) -/

/-- One element of K_EDGE: the result and the memory of the input. -/
def edgeElement (p : Policy) (m : Nat) (was : Bool) (x : Item) : Item × Bool :=
  match p with
  | .hold => ({ t := tBOOL, v := 0, q := heldQ }, was)
  | .block => (blocked tBOOL, was)
  | .run =>
    if x.ab then (absentItem tBOOL x.q, was)
    else
      let now := x.v != 0
      let rise := now && !was
      let fall := was && !now
      (boolOf [x] (if m = 0 then rise else if m = 1 then fall else rise || fall), now)

/-- K_EDGE: M 0 rising, 1 falling, 2 both. -/
def edgeBody (k : Inv) (s : State) : Except Nat State :=
  match need (k.nOk && decide (k.m ≤ 2)), k.items k.a k.n [tBOOL] s, k.data 8 s with
  | .error c, _, _ => .error c
  | _, .error c, _ => .error c
  | _, _, .error c => .error c
  | .ok _, .ok xs, .ok d =>
    let w := leAt d 0 8
    let rs := (xs.zip (List.range xs.length)).map (fun (p : Item × Nat) => edgeElement (policyOf k.qpol true xs) k.m (bit w p.2) p.1)
    k.finish (rs.map (fun r => r.1)) (leBytes 8 (w / 2 ^ rs.length * 2 ^ rs.length + packBits (rs.map (fun r => r.2)))) s

/-- K_EDGE (R255). -/
def execKEdge (l : Fin 256) (s : State) : Host.Outcome State Fault Refusal :=
  whileOn (2 + l.val / 64) s <|
  .next (invoke l 0x34 edgeBody s)

/-- One element of K_LATCH: M 0 reset dominant, 1 set dominant. -/
def latchElement (p : Policy) (m : Nat) (was : Bool) (x y : Item) : Item × Bool :=
  match p with
  | .hold => ({ t := tBOOL, v := b2n was, q := heldQ }, was)
  | .block => (blocked tBOOL, was)
  | .run =>
    if x.ab ∨ y.ab then (boolOf [x, y] false, was)
    else
      let st := x.v != 0
      let rs := y.v != 0
      let q := if m = 0 then !rs && (st || was) else st || (was && !rs)
      (boolOf [x, y] q, q)

/-- K_LATCH: N sets at A, N resets at B. -/
def latchBody (k : Inv) (s : State) : Except Nat State :=
  match need (k.nOk && decide (k.m ≤ 1)), k.items k.a k.n [tBOOL] s, k.items k.b k.n [tBOOL] s, k.data 8 s with
  | .error c, _, _, _ => .error c
  | _, .error c, _, _ => .error c
  | _, _, .error c, _ => .error c
  | _, _, _, .error c => .error c
  | .ok _, .ok a, .ok b, .ok d =>
    let w := leAt d 0 8
    let rs := ((a.zip b).zip (List.range k.n)).map (fun (p : (Item × Item) × Nat) =>
      latchElement (policyOf k.qpol true (a ++ b)) k.m (bit w p.2) p.1.1 p.1.2)
    k.finish (rs.map (fun r => r.1)) (leBytes 8 (w / 2 ^ rs.length * 2 ^ rs.length + packBits (rs.map (fun r => r.2)))) s

/-- K_LATCH (R255). -/
def execKLatch (l : Fin 256) (s : State) : Host.Outcome State Fault Refusal :=
  whileOn (2 + l.val / 64) s <|
  .next (invoke l 0x35 latchBody s)

/-! ### Timers in grid ticks (R257): tick of the change (bytes 0–7), previous input and output (byte 8) -/

/-- The output and the tick noted of a timer element by kernel: on-delay, off-delay, and the pulse, which as TP of IEC 61131-3 is
not started again while it runs (R298). -/
def timerStep (code us g : Nat) (now was on : Bool) (at' : Nat) : Bool × Nat :=
  if code = 0x38 then
    let t := if now && !was then g else at'
    (now && elapsed g t us, t)
  else if code = 0x39 then
    let t := if was && !now then g else at'
    (now || (on && !elapsed g t us), t)
  else
    let busy := on && !elapsed g at' us
    let t := if now && !was && !busy then g else at'
    (((now && !was) || busy) && !elapsed g t us, t)

/-- One element of K_TON, K_TOF and K_TPLS. -/
def timerElement (p : Policy) (code us g : Nat) (x : Item) (st : List Byte) : Item × List Byte :=
  let was := bit (leAt st 8 1) 0
  let on := bit (leAt st 8 1) 1
  match p with
  | .hold => ({ t := tBOOL, v := b2n on, q := heldQ }, st)
  | .block => (blocked tBOOL, leBytes 16 0)
  | .run =>
    if x.ab then (absentItem tBOOL x.q, st)
    else
      let now := x.v != 0
      let r := timerStep code us g now was on (leAt st 0 8)
      (boolOf [x] r.1, leBytes 8 r.2 ++ leBytes 1 (b2n now + 2 * b2n r.1) ++ leBytes 7 0)

/-- K_TON, K_TOF and K_TPLS. -/
def timerBody (k : Inv) (s : State) : Except Nat State :=
  match need k.nOk, k.items k.a k.n [tBOOL] s, k.data (16 * k.n) s with
  | .error c, _, _ => .error c
  | _, .error c, _ => .error c
  | _, _, .error c => .error c
  | .ok _, .ok xs, .ok d => let r := eachElement 16 (timerElement (policyOf k.qpol true xs) k.code k.param (k.tick s)) xs d; k.finish r.1 r.2 s

/-- K_TON (R257). -/
def execKTon (l : Fin 256) (s : State) : Host.Outcome State Fault Refusal :=
  whileOn (2 + l.val / 64) s <|
  .next (invoke l 0x38 timerBody s)

/-- K_TOF (R257). -/
def execKTof (l : Fin 256) (s : State) : Host.Outcome State Fault Refusal :=
  whileOn (2 + l.val / 64) s <|
  .next (invoke l 0x39 timerBody s)

/-- K_TPLS (R257). -/
def execKTpls (l : Fin 256) (s : State) : Host.Outcome State Fault Refusal :=
  whileOn (2 + l.val / 64) s <|
  .next (invoke l 0x3A timerBody s)

/-! ### Requests to the delay lists (R228, R243) -/

/-- The hand-over of an invocation on a pair (R468). -/
def Inv.note (k : Inv) (b : List Byte) (s : State) : State :=
  s.noteHand k.r.tick s.cyc k.l k.r.task k.code k.r.inv k.r.ready b

/-- The arming instant of a slotted run on a pair: the instant of its tick and the cycles since, as ns (R466). -/
def Inv.armInst (k : Inv) (s : State) : Option Nat :=
  if k.r.ready ∨ !s.pairOn then none else some (tickRep k.r.tick + s.tickCy * uNs)

/-- Whether PARAM names a timer of the run's instance. -/
def Inv.ownTimer (k : Inv) (s : State) : Bool := mVi (s.timer (k.param % 16384)).bytes == k.r.vi

/-- K_TARM: an unusable delay arms nothing under BLOCK and STRICT. -/
def tarmBody (k : Inv) (s : State) : Except Nat State :=
  match need (decide (k.param < 16384)), k.items k.a 1 [tUINT] s with
  | .error c, _ => .error c
  | _, .error c => .error c
  | .ok _, .ok xs =>
    if !k.ownTimer s then .error cADDR
    else
      match policyOf k.qpol false xs with
      | .block => .ok s
      | _ =>
        let x := xs.headD { t := tUINT, v := 0, q := 0 }
        .ok ((k.note x.units.flatten s).queueArm
          { made := 0, due := 0, arm := true, timer := k.param,
            delay := x.v, gen := k.r.gen, who := k.l, setup := none, inst := k.armInst s })

/-- K_TARM (R228). -/
def execKTarm (l : Fin 256) (s : State) : Host.Outcome State Fault Refusal :=
  whileOn (2 + l.val / 64) s (.next (invoke l 0x3B tarmBody s))

/-- K_TCAN. -/
def tcanBody (k : Inv) (s : State) : Except Nat State :=
  match need (decide (k.param < 16384)) with
  | .error c => .error c
  | .ok _ =>
    if !k.ownTimer s then .error cADDR
    else
      .ok ((k.note [] s).queueArm
        { made := 0, due := 0, arm := false, timer := k.param, delay := 0, gen := k.r.gen, who := k.l,
          setup := none })

/-- K_TCAN (R228). -/
def execKTcan (l : Fin 256) (s : State) : Host.Outcome State Fault Refusal :=
  whileOn (2 + l.val / 64) s (.next (invoke l 0x3C tcanBody s))

/-! ### Outputs (R243, R260, R276, R305) -/

/-- The unit of a forced item: VALUE, QUAL with source substituted, and TYPE (R305). -/
def forcedUnit (f : List Byte) : List Byte :=
  (frValue f).take 4 ++ leBytes 2 (setBits (frQual f) 10 10 1) ++ leBytes 1 (frType f) ++ leBytes 1 0

/-- The force that acts for the run's program at a point. -/
def Inv.force (k : Inv) (point ref arg : Nat) (s : State) : Option (List Byte) :=
  match s.programOf k.r.task with
  | some p => s.forceAt p point ref arg
  | none => none

/-- K_POST stages the unit at A as the RESULT of a slot (R243). -/
def postBody (k : Inv) (s : State) : Except Nat State :=
  match need (decide (k.param < 32768)), k.unit k.a 0 s with
  | .error c, _ => .error c
  | _, .error c => .error c
  | .ok _, .ok u =>
    let u := match k.force 4 k.param 0 s with
      | some f => forcedUnit f
      | none => (canonUnits 0 [u]).headD u
    .ok (k.onRun (fun r => { r with staged := r.staged ++ [(k.r.inv, k.param, u)] }) s)

/-- K_POST (R243). -/
def execKPost (l : Fin 256) (s : State) : Host.Outcome State Fault Refusal :=
  whileOn (2 + l.val / 64) s (.next (invoke l 0x3D postBody s))

/-- An item as publication takes it (R263). -/
def Item.pub (x : Item) : PubItem := { ty := x.t, v := if x.t = tTIME then x.v + x.w * 2 ^ 32 else x.v, q := x.q }

/-- A forced member (R305). -/
def forcedPub (f : List Byte) : PubItem :=
  { ty := frType f, v := if frType f = tTIME then leNat (frValue f) else leAt (frValue f) 0 4,
    q := setBits (frQual f) 10 10 1 }

/-- K_PUB hands a build request over (R260). -/
def pubBody (k : Inv) (s : State) : Except Nat State :=
  match need (k.nOk && decide (k.param ≤ 2111)), k.itemsFrom k.a s k.n 0 with
  | .error c, _ => .error c
  | _, .error c => .error c
  | .ok _, .ok xs =>
    let items := (xs.zip (List.range xs.length)).map (fun (p : Item × Nat) =>
      match k.force 2 k.param p.2 s with
      | some f => forcedPub f
      | none => p.1.canon.pub)
    let units := (xs.zip (List.range xs.length)).flatMap (fun (p : Item × Nat) =>
      match k.force 2 k.param p.2 s with
      | some f => forcedUnit f
      | none => p.1.canon.units.flatten)
    .ok ((k.note units s).askPub {
      lane := k.l, cb := k.param, items := items, vi := k.r.vi, gen := k.r.gen, ready := k.r.ready, tick := k.r.tick })

/-- K_PUB (R260). -/
def execKPub (l : Fin 256) (s : State) : Host.Outcome State Fault Refusal :=
  whileOn (2 + l.val / 64) s <|
  .next (invoke l 0x3E pubBody s)

/-- K_TRIP hands its BOOL to the trip stage of a pair; an ABSENT or invalid one is FALSE (R276). -/
def tripBody (k : Inv) (s : State) : Except Nat State :=
  match need (decide (k.param % 16 ≤ 11)), k.items k.a 1 [tBOOL] s with
  | .error c, _ => .error c
  | _, .error c => .error c
  | .ok _, .ok xs =>
    let own := xs.any (fun x => x.v != 0 && !x.ab && vRank x.q != 2)
    .ok (tripRequest (k.param % 16) (match k.force 3 0 (k.param % 16) s with
      | some f => bit (leAt (frValue f) 0 1) 0
      | none => own) (k.note (xs.flatMap (fun x => x.units.flatten)) s))

/-- K_TRIP (R276). -/
def execKTrip (l : Fin 256) (s : State) : Host.Outcome State Fault Refusal :=
  whileOn (2 + l.val / 64) s (.next (invoke l 0x3F tripBody s))

end Sys2Proof.Machine
end

