-- ==== Sys2Proof/Machine/Logic.lean ====
section
/-!
DEFINITION. The logic engine (12_logic_engine.md R293–R313): saves, forces, boundaries, the on-line exchange, restore and the LG_
registers.
-/
namespace Sys2Proof.Machine

/-- A record of the engine whose DATA the spec does not give (R312): a free value. -/
def State.lgRecordOpen (s : State) (code : Nat) : State :=
  let (x, t) := s.fresh
  t.lgRecord code (x % 2 ^ 64)

/-- A program's tasks. -/
def pgTasks (b : List Byte) : List Nat := (List.range (pgTaskN b)).map (fun i => pgFirst b + i)

/-! ### Function blocks and retained units (R299, R300, R307) -/

/-- Entry `i` of a program's function-block table. -/
def State.fbEntry (s : State) (b : List Byte) (i : Nat) : List Byte := s.load (pgFbt b + 24 * i) 24
def fbSig (e : List Byte) : List Byte := slice e 0 11
def fbCluster (e : List Byte) : Nat := leAt e 11 1 % 32
def fbUofs (e : List Byte) : Nat := leAt e 12 2
def fbUn (e : List Byte) : Nat := leAt e 14 2
def fbTmrFirst (e : List Byte) : Nat := leAt e 16 2 % 16384
def fbTmrN (e : List Byte) : Nat := leAt e 18 1 % 16

/-- A program's function-block entries in table order. -/
def State.fbEntries (s : State) (b : List Byte) : List (List Byte) := (List.range (pgFbtN b)).map (s.fbEntry b)

/-- Address of an entry's instance data from unit `u` on. -/
def fbAddr (e : List Byte) (u : Nat) : Nat := addrCluster (fbCluster e) + 8 * (fbUofs e + u)

/-- The retained units of a program in retain-map order: address and bytes. -/
def State.retained (s : State) (b : List Byte) : List (Nat × Nat) :=
  (List.range (pgRmapN b)).map (fun i =>
    let r := s.load (pgRmap b + 8 * i) 8
    (fbAddr (s.fbEntry b (leAt r 0 2 % 4096)) (leAt r 2 2), 8 * leAt r 4 2))

/-- Bytes of the retained units, and of the whole instance data. -/
def State.retainedBytes (s : State) (b : List Byte) : List Byte :=
  ((s.retained b).flatMap (fun (p : Nat × Nat) => s.mapLoad p.1 p.2)).take (8 * pgRetUnits b)
def State.instanceBytes (s : State) (b : List Byte) : List Byte :=
  (s.fbEntries b).flatMap (fun e => s.mapLoad (fbAddr e 0) (8 * fbUn e))

/-- Store bytes over a list of regions in turn. -/
def storeOver : List (Nat × Nat) → List Byte → State → State
  | [], _, s => s
  | (a, n) :: t, x, s => storeOver t (x.drop n) (s.mapStore a (x.take n))

/-- Place of a program's Cellar record in bank `i`, and of its home copy `i`. -/
def retPlace (b : List Byte) (i : Nat) : Nat := i * 0x2000 + pgRetOfs b * 8
def homePlace (b : List Byte) (i : Nat) : Nat := pgHome b + i * (64 + ceilDiv (8 * pgHomeUnits b) 64 * 64)

/-! ### Saves (R301) -/

/-- The save engine writes the data of a Cellar record. -/
def saveData (x : SaveRun) (s : State) : State :=
  let b := (s.prg x.prg).bytes
  if pgRetUnits b = 0 then s else s.retStore (retPlace b (x.seq % 2) + 16) (s.retainedBytes b)

/-- Then the record's header, and the home copy from SEQ_HEAD to its data (R299, R300). -/
def saveMiddle (x : SaveRun) (s : State) : State :=
  let b := (s.prg x.prg).bytes
  let h := leBytes 4 x.seq ++ leBytes 4 (pgSig b) ++ leBytes 2 (pgRetUnits b) ++ leBytes 1 x.prg ++ leBytes 1 0
  let s := if pgRetUnits b = 0 then s
    else s.retStore (retPlace b (x.seq % 2)) (h ++ leBytes 4 (crc32c (h ++ s.retLoad (retPlace b (x.seq % 2) + 16) (8 * pgRetUnits b))))
  let a := homePlace b (x.seq % 2)
  let s := s.store a (leBytes 4 x.seq ++ leBytes 4 (pgSig b) ++ leBytes 4 (pgHomeUnits b) ++ leBytes 48 0)
  (s.store (a + 64) (s.instanceBytes b))

/-- At last SEQ_TAIL. -/
def saveEnd (x : SaveRun) (s : State) : State :=
  let b := (s.prg x.prg).bytes
  let s := s.store (homePlace b (x.seq % 2) + 60) (leBytes 4 x.seq)
  { s with lg := { s.lg with run := none } }

/-- Whether the exchange copy occupies the save engine. -/
def State.copying (s : State) : Bool :=
  match s.lg.xch with
  | some y => (match y.copy with
    | some c => decide (s.cyc ≤ c.2)
    | none => false)
  | none => false

/-- A lower program's cycle ends in this cycle, in which save `x` was requested too, and is still to be noted (R301). -/
def State.endsBefore (s : State) (x : SaveReq) : Bool :=
  x.cyc == s.cyc && s.ln.runs.any (fun (p : Nat × Run) =>
    decide (p.2.start + p.2.cost ≤ s.cyc) && (match s.programOf p.2.task with
      | some q => decide (q < x.prg) && pgIsTail (s.prg q).bytes p.2.task
      | none => false))

/-- The exchange copy, whose conditions on OLD have held since cycle `since`, goes before save `x` (R310). -/
def State.copyBefore (s : State) (x : SaveReq) : Bool :=
  match s.lg.xch with
  | some y => y.copy.isNone && (match y.since with
    | some c => decide (c < x.cyc)
    | none => false)
  | none => false

/-- The run of save `x` begun in this cycle. -/
def State.saveRun (s : State) (x : SaveReq) : SaveRun :=
  let b := (s.prg x.prg).bytes
  let mid := s.cyc + 24 + 2 * pgRetUnits b
  { prg := x.prg, seq := x.seq, mid := mid, stop := mid + 32 + ceilDiv (8 * pgHomeUnits b) 16, rcd := pgRetUnits b != 0 }

/-- CYCLE_END_SAVE (R301): the engine, while it is enabled, takes the next save; its parts follow in their cycles. -/
def execCycleEndSave (s : State) : Host.Outcome State Fault Refusal :=
  whileOn 6 s <|
  match s.lg.run, s.lg.saves with
  | none, x :: rest =>
    if !s.on LG_CTRL_EN ∨ s.copying ∨ s.endsBefore x ∨ s.copyBefore x then .next s
    else .next (saveData (s.saveRun x) { s with lg := { s.lg with saves := rest, run := some (s.saveRun x) } })
  | _, _ => .next s

/-- Whether a run of the program is in service or pending. -/
def State.programBusy (s : State) (b : List Byte) : Bool :=
  s.ln.runs.any (fun (x : Nat × Run) => (pgTasks b).contains x.2.task && decide (s.cyc < x.2.start + x.2.cost)) ||
    s.ds.pend.any (fun (x : Nat × Pend) => (pgTasks b).contains x.1)

/-- Whether the conditions on OLD of a pending exchange hold (R310). -/
def State.oldRests (s : State) (y : Xch) : Bool := y.ended && !s.programBusy (s.prg y.old).bytes

/-- A pending exchange notes since when its conditions on OLD hold. -/
def State.noteRest (s : State) : State :=
  match s.lg.xch with
  | none => s
  | some y => { s with lg := { s.lg with xch := some { y with since := if s.oldRests y then some (y.since.getD s.cyc) else none } } }

/-- The save engine in one cycle. -/
def State.saveCycle (s : State) : State :=
  let s := s.noteRest
  match s.lg.run with
  | none => s
  | some x =>
    let t := if !x.half ∧ x.mid ≤ s.cyc then
        saveMiddle x { s with lg := { s.lg with run := some { x with half := true } } } else s
    if x.stop ≤ s.cyc then saveEnd x t else t

/-! ### Forces (R303–R306) -/

/-- How many force entries are not FREE. -/
def State.forceCount (s : State) : Nat := (s.lg.frcs.filter (fun (e : Nat × Frc) => decide (frState e.2.bytes ≠ 0))).length

/-- Write both bank headers (R300). -/
def State.writeBankHeaders (s : State) (n : Nat) : State :=
  let h := leBytes 2 0x4C47 ++ leBytes 1 n ++ leBytes 13 0
  (s.retStore 0 h).retStore 0x2000 h

/-- Replace force entry `e`; FORCE_N and the bank headers follow the number of forces. -/
def State.setFrc (s : State) (e : Nat) (x : Frc) : State :=
  let t := { s with lg := { s.lg with frcs := aput s.lg.frcs e x } }
  if t.forceCount = s.forceCount then t else (t.wr LG_STATUS_FORCE_N t.forceCount).writeBankHeaders t.forceCount

/-- STATE of a force entry replaced. -/
def withFrState (b : List Byte) (v : Nat) : List Byte := splice b 0 (leBytes 1 (setBits (leAt b 0 1) 7 6 v))

/-- The point-table entry of a path in a program (R303). -/
def State.pointOf (s : State) (b : List Byte) (hash : List Byte) : Option (List Byte) :=
  ((List.range (pgPntN b)).map (fun i => s.load (pgPnt b + 16 * i) 16)).find? (fun e => slice e 0 8 == hash)

/-- Why a SET is refused (R305), if it is. -/
def State.setRefused (s : State) (e p : Nat) (hash : List Byte) : Bool :=
  let cur := (s.frc e).bytes
  let b := (s.prg p).bytes
  !pgRuns b || (s.pointOf b hash).isNone ||
    s.lg.frcs.any (fun (x : Nat × Frc) =>
      x.1 != e && frState x.2.bytes != 0 && frPrg x.2.bytes == p && frHash x.2.bytes == hash) ||
    !(frState cur == 0 || (frState cur == 2 && frPrg cur == p && frHash cur == hash))

/-- A force entry at a point. -/
def forceEntry (state p : Nat) (pt : List Byte) (hash value : List Byte) (qual : Nat) : List Byte :=
  leBytes 1 (state * 64 + leAt pt 8 1 % 8) ++ leBytes 1 p ++ leBytes 2 (leAt pt 10 2 % 32768) ++ leBytes 1 (leAt pt 12 1) ++
    leBytes 1 (leAt pt 9 1) ++ leBytes 2 0 ++ hash ++ value ++ leBytes 2 (setBits qual 10 10 1) ++ leBytes 6 0

/-- A SET on entry `e` with the entry form `d` (R305). -/
def frcSetOp (e : Nat) (d : List Byte) (s : State) : State :=
  let p := frPrg d
  let hash := frHash d
  if s.setRefused e p hash then s.lgEvent LG_EVENT_REFUSED
  else
    let x := s.frc e
    if frState x.bytes = 0 then
      match s.pointOf (s.prg p).bytes hash with
      | some pt => s.setFrc e { bytes := forceEntry 1 p pt hash (frValue d) (frQual d), pend := none }
      | none => s
    else s.setFrc e { x with pend := some (frValue d ++ leBytes 2 (setBits (frQual d) 10 10 1)) }

/-- A SET on the entry indexed. -/
def frcSetCmd (s : State) : State := frcSetOp (s.rd LG_FRC_IDX_IDX % 64) (s.dataBytes 0x800080 8) s

/-- A CLEAR on entry `e` (R305). -/
def frcClearOp (e : Nat) (s : State) : State :=
  let x := s.frc e
  if frState x.bytes = 2 then s.setFrc e { x with bytes := withFrState x.bytes 3 }
  else if frState x.bytes = 1 then s.setFrc e {}
  else s

/-- A CLEAR on the entry indexed. -/
def frcClearCmd (s : State) : State := frcClearOp (s.rd LG_FRC_IDX_IDX % 64) s

/-- The change of force entry `e` takes effect (R305). -/
def forceTake (e : Nat) (x : Frc) (t : State) : State :=
  let b := x.bytes
  if frState b = 1 then (t.setFrc e { bytes := withFrState b 2, pend := none }).lgRecordOpen 0x01
  else if frState b = 3 then (t.setFrc e {}).lgRecordOpen 0x02
  else
    match x.pend with
    | some v => if frState b = 2 then t.setFrc e { bytes := splice b 16 v, pend := none } else t
    | none => t

/-- The force changes that take effect at a boundary of program `p` (R305). -/
def forceBoundary (p : Nat) (s : State) : State :=
  s.lg.frcs.foldl (fun (t : State) (x : Nat × Frc) => if frPrg x.2.bytes = p then forceTake x.1 x.2 t else t) s

/-- FORCE_IND and LG_STATUS.FORCED follow the entries ACTIVE or CLEARING (R306), and capture hears a change (R363). -/
def State.showForced (s : State) : State :=
  let f := s.lg.frcs.any (fun (x : Nat × Frc) => decide (2 ≤ frState x.2.bytes))
  let t := { s.wr LG_STATUS_FORCED (b2n f) with lg := { s.lg with ind := f } }
  if s.lg.ind = f then t else t.binOpen 0xA 0 f false s.nowStamp

/-! ### Commands on programs (R294, R312) -/

/-- Invalidate, or validate, the tasks of a program at the next raised tick-start event (R233). -/
def State.putTasks (s : State) (ts : List Nat) (v : Bool) : State :=
  ts.foldl (fun (t : State) k => putTask k (withValid (slice (t.task k) 0 32) v) t) s

/-- A write of LG_PRG_CMD. -/
def prgCmd (cmd : Nat) (s : State) : State :=
  let p := s.rd LG_PRG_IDX_IDX
  let x := s.prg p
  let st := pgState x.bytes
  match cmd with
  | 1 => loadData 0x800040 16 x.bytes s
  | 2 =>
    if st ≤ 1 then s.setPrg p { x with bytes := withPgState (prgStored (s.dataBytes 0x800040 16)) 1 }
    else s.lgEvent LG_EVENT_REFUSED
  | 3 =>
    if st = 1 then s.setPrg p {}
    else if st = 2 then (s.putTasks (pgTasks x.bytes) false).setPrg p { x with leave := true }
    else s.lgEvent LG_EVENT_REFUSED
  | _ => s

/-! ### On-line exchange (R308–R311) -/

/-- The refusal code of an EXCHANGE, 0 for none (R309). -/
def State.xchCause (s : State) (old new : Nat) : Nat :=
  let o := (s.prg old).bytes
  let n := (s.prg new).bytes
  let ts := (pgTasks n).map s.task
  if pgState o ≠ 2 ∨ pgState n ≠ 1 then 1
  else if pgVi o ≠ pgVi n then 2
  else if pgSlotBase o < pgSlotBase n ∨ pgSlotBase n + pgSlotN n < pgSlotBase o + pgSlotN o then 3
  else if s.lg.xch.isSome then 4
  else if ts.any (fun t => tValid t || !tReady t || tFlow t == 0 || tFlow t != tFlow (ts.headD [])) then 5
  else 0

/-- EXCHANGE (R309). -/
def xchStart (s : State) : State :=
  let old := s.rd LG_XCH_OLD
  let new := s.rd LG_XCH_NEW
  let c := s.xchCause old new
  if c ≠ 0 then (s.wr LG_XCH_CAUSE c).lgEvent LG_EVENT_XCH_REFUSED
  else
    let x := s.prg old
    let t := (s.setPrg old { x with bytes := withPgState x.bytes 3 }).wr LG_XCH_PEND 1
    { t with lg := { t.lg with xch := some { old := old, new := new } } }

/-- Task writes not yet in force are withdrawn. -/
def State.dropTaskWrites (s : State) (ts : List Nat) : State :=
  { s with ds := { s.ds with tasks := s.ds.tasks.map (fun (p : Nat × Task) =>
      if ts.contains p.1 then (p.1, { p.2 with next := none }) else p) } }

/-- CANCEL, or a reset of the instance, withdraws a pending exchange (R311). -/
def xchCancel (s : State) : State :=
  match s.lg.xch with
  | none => s
  | some y =>
    let o := s.prg y.old
    let s := if y.issued then s.dropTaskWrites (pgTasks o.bytes ++ pgTasks (s.prg y.new).bytes) else s
    let t := ((s.setPrg y.old { o with bytes := withPgState o.bytes 2 }).wr LG_XCH_PEND 0).wr LG_XCH_CAUSE 6
    { t with lg := { t.lg with xch := none } }

/-- The entry of `es` with the signature of `e` (R307). -/
def matchEntry (es : List (List Byte)) (e : List Byte) : Option (List Byte) := es.find? (fun f => fbSig f == fbSig e)

/-- The task of a program that owns slot `i`. -/
def State.slotOwner (s : State) (b : List Byte) (i : Nat) : Option Nat :=
  (pgTasks b).find? (fun t => decide (tOpBase (s.task t) ≤ i) && decide (i < tOpBase (s.task t) + tOpN (s.task t)))

/-- TASK of an operand slot replaced; the rest of the slot stays. -/
def withTask (b : List Byte) (t : Nat) : List Byte := splice b 12 (leBytes 2 (setBits (leAt b 12 2) 12 0 t))

/-- An operand slot given to task `t`, a mark not yet seen with it. -/
def OpSlot.giveTo (x : OpSlot) (t : Nat) : OpSlot :=
  { x with bytes := withTask x.bytes t, new := x.new.map (fun y => (withTask y.1 t, y.2)) }

/-- Rewrite the owner of each slot of OLD's range to the task of NEW that owns it (R310). -/
def State.rewriteOwners (s : State) (o n : List Byte) : State :=
  (List.range (pgSlotN o)).foldl (fun (u : State) i =>
    match s.slotOwner n (pgSlotBase o + i) with
    | some t => u.setSlot (pgSlotBase o + i) ((u.slot (pgSlotBase o + i)).giveTo t)
    | none => u) s

/-- The exchange copy (R310): matching instance data, slot owners and counts; answers the bytes kept. -/
def copyExchange (y : Xch) (s : State) : Nat × State :=
  let o := (s.prg y.old).bytes
  let n := (s.prg y.new).bytes
  let olds := s.fbEntries o
  let news := s.fbEntries n
  let kept := news.filterMap (fun e => (matchEntry olds e).map (fun f => (e, f)))
  let t := kept.foldl (fun (t : State) (p : List Byte × List Byte) =>
    t.mapStore (fbAddr p.1 0) (s.mapLoad (fbAddr p.2 0) (8 * fbUn p.1))) s
  let t := (t.count LG_G_KEPT kept.length).count LG_G_INIT (news.length - kept.length)
  ((kept.map (fun p => 8 * fbUn p.1)).foldl (· + ·) 0, t.rewriteOwners o n)

/-- A save that was requested by the cycle in which the conditions on OLD came to hold is still to be taken. -/
def State.savesAhead (s : State) (y : Xch) : Bool := s.lg.saves.any (fun x => decide (x.cyc ≤ y.since.getD s.cyc))

/-- EXCHANGE_COPY (R310). -/
def execExchangeCopy (s : State) : Host.Outcome State Fault Refusal :=
  whileOn 6 s <|
  match s.lg.xch with
  | none => .next s
  | some y =>
    let o := (s.prg y.old).bytes
    if !s.on LG_CTRL_EN ∨ !s.oldRests y ∨ y.copy.isSome ∨ s.lg.run.isSome ∨ s.savesAhead y then .next s
    else
      let (kept, t) := copyExchange y s
      let len := 64 + pgSlotN o + 2 * (pgTaskN o + pgTaskN (s.prg y.new).bytes) + ceilDiv kept 16
      .next { t with lg := { t.lg with xch := some { y with copy := some (s.cyc, s.cyc + len - 1), dirty := false } } }

/-- Whether a raised tick-start event of tick `g` is a boundary of the program (R295, R215). -/
def State.isBoundary (s : State) (b : List Byte) (g : Nat) : Bool :=
  let sp := s.triadSpan g
  match lastTriad (pgN b) (pgCph b) sp.2 with
  | some t => decide (sp.1 ≤ t)
  | none => false

/-- Whether the next tick-start event falls in the next cycle. -/
def State.tickNext (s : State) : Bool :=
  decide (s.now < tickRep s.dueTick) && decide (tickRep s.dueTick ≤ s.nextVal s.gov)

/-- EXCHANGE_BOUNDARY (R311): in the cycle before the tick-start event of B, the held task writes issue, or the copy is repeated
where OLD has started a run since it began. What takes effect at B does so at its tick-start event. -/
def execExchangeBoundary (s : State) : Host.Outcome State Fault Refusal :=
  whileOn 6 s <|
  match s.lg.xch with
  | none => .next s
  | some y =>
    match y.copy with
    | none => .next s
    | some c =>
      let o := (s.prg y.old).bytes
      if !s.on LG_CTRL_EN ∨ s.cyc ≤ c.2 ∨ y.issued ∨ !s.tickNext ∨ !s.isBoundary o s.dueTick then .next s
      else if y.dirty then .next { s with lg := { s.lg with xch := some { y with copy := none, dirty := false, since := none } } }
      else
        let t := (s.putTasks (pgTasks o) false).putTasks (pgTasks (s.prg y.new).bytes) true
        .next { t with lg := { t.lg with xch := some { y with issued := true } } }

/-- Cancel the delay-list timers of OLD's entries without a match in NEW (R311). -/
def cancelTimers (olds news : List (List Byte)) (s : State) : State :=
  (olds.filter (fun e => (matchEntry news e).isNone)).foldl (fun (t : State) e =>
    (List.range (fbTmrN e)).foldl (fun (u : State) i =>
      applyCancel { made := u.cyc, due := u.cyc, arm := false, timer := fbTmrFirst e + i, delay := 0, gen := 0,
                    who := 261, setup := none } u) t) s

/-- Rebind the forces of OLD to NEW's points, or free them (R311). -/
def rebindForces (old new : Nat) (s : State) : State :=
  let n := (s.prg new).bytes
  s.lg.frcs.foldl (fun (t : State) (x : Nat × Frc) =>
    let b := x.2.bytes
    if frState b = 0 ∨ frPrg b ≠ old then t
    else
      match s.pointOf n (frHash b) with
      | some pt =>
        if leAt pt 9 1 = frType b then
          t.setFrc x.1 { x.2 with bytes := forceEntry (frState b) new pt (frHash b) (frValue b) (frQual b) }
        else ((t.setFrc x.1 {}).inc LG_G_FORCE_DROP).lgRecordOpen 0x03
      | none => ((t.setFrc x.1 {}).inc LG_G_FORCE_DROP).lgRecordOpen 0x03) s

/-- What takes effect at the exchange boundary after the task writes (R311). -/
def xchApply (y : Xch) (s : State) : State :=
  let o := s.prg y.old
  let n := s.prg y.new
  let t := (s.setPrg y.new { n with bytes := withPgState n.bytes 2, seq := o.seq, opened := none, due := none, cur := none }).setPrg y.old {}
  let t := cancelTimers (s.fbEntries o.bytes) (s.fbEntries n.bytes) t
  let t := forceBoundary y.new (rebindForces y.old y.new t)
  let t := { t with lg := { t.lg with xch := none } }
  ((t.wr LG_XCH_PEND 0).lgRecordOpen 0x05).lgEvent LG_EVENT_XCH_DONE

/-! ### Boundaries (R295, R305) -/

/-- A program's next cycle begins. -/
def beginCycle (p g : Nat) (s : State) : State :=
  let x := s.prg p
  let q := (x.seq + 1) % 2 ^ 32
  s.setPrg p { x with seq := q, opened := some (q, g) }

/-- What a program's boundary at grid tick `g` does (R295, R305): force changes take effect and a cycle begins; with the engine
disabled the boundary begins none. -/
def boundary (p g : Nat) (s : State) : State :=
  if s.on LG_CTRL_EN then beginCycle p g (forceBoundary p s) else s.setPrg p { s.prg p with opened := none }

/-- The logic engine at a raised tick-start event of tick `g`, after the task writes have applied: programs leave, an exchange
takes effect, and each program whose boundary it is takes its force changes and begins a cycle. -/
def logicTick (g : Nat) (s : State) : State :=
  let gone := match s.lg.xch with
    | some y => (s.prg y.old).leave
    | none => false
  let s := if gone then xchCancel s else s
  let s := s.lg.prgs.foldl (fun (t : State) (x : Nat × Prg) => if x.2.leave then t.setPrg x.1 {} else t) s
  let s := match s.lg.xch with
    | some y => if y.issued then xchApply y s else s
    | none => s
  (s.lg.prgs.foldl (fun (t : State) (x : Nat × Prg) =>
    if pgRuns x.2.bytes ∧ t.isBoundary x.2.bytes g then boundary x.1 g t else t) s).showForced

/-! ### Start and reset (R301, R302, R306, R311) -/

/-- Whether SEQ a is later than SEQ b, counted modulo 2³² (R295). -/
def seqLater (a b : Nat) : Bool := decide (0 < (a + 2 ^ 32 - b) % 2 ^ 32) && decide ((a + 2 ^ 32 - b) % 2 ^ 32 < 2 ^ 31)

/-- The usable home copy with the later SEQ: SEQ and place (R302). -/
def State.usableHome (s : State) (b : List Byte) : Option (Nat × Nat) :=
  ([0, 1].filterMap (fun i =>
    let h := s.load (homePlace b i) 64
    if leAt h 0 4 = leAt h 60 4 ∧ leAt h 4 4 = pgSig b then some (leAt h 0 4, homePlace b i) else none)).foldl
    (fun (a : Option (Nat × Nat)) x => match a with
      | none => some x
      | some y => if seqLater x.1 y.1 then some x else a) none

/-- The usable Cellar record with the later SEQ: SEQ and place (R300, R302). -/
def State.usableRecord (s : State) (b : List Byte) : Option (Nat × Nat) :=
  ([0, 1].filterMap (fun i =>
    let a := retPlace b i
    let h := s.retLoad a 16
    if pgRetUnits b ≠ 0 ∧ leAt h 4 4 = pgSig b ∧
        leAt h 12 4 = crc32c (slice h 0 12 ++ s.retLoad (a + 16) (8 * pgRetUnits b)) then some (leAt h 0 4, a) else none)).foldl
    (fun (a : Option (Nat × Nat)) x => match a with
      | none => some x
      | some y => if seqLater x.1 y.1 then some x else a) none

/-- Write a record's retained units into the instance data. -/
def State.putRetained (s : State) (b : List Byte) (a : Nat) : State :=
  storeOver (s.retained b) (s.retLoad (a + 16) (8 * pgRetUnits b)) s

/-- Restore program `p` at a start (R302): home copies count at a warm restart entry, records while the retentive area is not
lost. -/
def restoreProgram (warm retOk : Bool) (p : Nat) (s : State) : State :=
  let x := s.prg p
  let b := x.bytes
  let home := if warm then s.usableHome b else none
  let rcd := if retOk then s.usableRecord b else none
  let (kind, seq, t) : Nat × Nat × State :=
    match home, rcd with
    | some h, some r =>
      let u := storeOver ((s.fbEntries b).map (fun e => (fbAddr e 0, 8 * fbUn e))) (s.load (h.2 + 64) (8 * pgHomeUnits b)) s
      if seqLater r.1 h.1 then (0, r.1, u.putRetained b r.2) else (0, h.1, u)
    | some h, none =>
      (0, h.1, storeOver ((s.fbEntries b).map (fun e => (fbAddr e 0, 8 * fbUn e))) (s.load (h.2 + 64) (8 * pgHomeUnits b)) s)
    | none, some r => (1, r.1, s.putRetained b r.2)
    | none, none => (2, 0, s)
  let t := t.setPrg p { x with seq := seq, kind := kind, opened := none, due := none, cur := none }
  let t := if pgRetUnits b ≠ 0 ∧ rcd.isNone then
      ((t.inc LG_G_RET_BAD).lgEvent LG_EVENT_RET_BAD).lgRecordOpen 0x07 else t
  t.lgRecord 0x06 kind

/-- Forces that were present when the module last stopped (R306): a record, and FORCE_CNT becomes 0. -/
def forcesLost (s : State) : State :=
  let lost := [0, 0x2000].any (fun a => leNat (s.retLoad a 2) == 0x4C47 && decide (0 < leNat (s.retLoad (a + 2) 1)))
  if lost then
    [0, 0x2000].foldl (fun (t : State) a => if leNat (t.retLoad a 2) = 0x4C47 then t.retStore (a + 2) [0] else t)
      (s.lgRecordOpen 0x04)
  else s

/-- A reset of instance `v` abandons the saves of its programs and cancels its pending exchange (R301, R311, R394). -/
def logicReset (v : Nat) (s : State) : State :=
  let s := s.lg.prgs.foldl (fun (t : State) (x : Nat × Prg) =>
    if pgVi x.2.bytes = v then
      let u := t.abandonSave x.1
      u.setPrg x.1 { u.prg x.1 with opened := none, due := none, cur := none }
    else t) s
  match s.lg.xch with
  | some y => if pgVi (s.prg y.old).bytes = v then xchCancel s else s
  | none => s

/-! ### LG_ registers (R312) -/

/-- A write of LG_CTRL; with the engine disabled no exchange takes effect: task writes that it has issued are withdrawn (log entry
55). -/
def lgCtrlWrite (v : Nat) (s : State) : State :=
  let t := s.swPut 0x800000 v
  match t.lg.xch with
  | some y =>
    if t.on LG_CTRL_EN ∨ !y.issued then t
    else
      let u := t.dropTaskWrites (pgTasks (t.prg y.old).bytes ++ pgTasks (t.prg y.new).bytes)
      { u with lg := { u.lg with xch := some { y with issued := false } } }
  | none => t

/-- A write of LG_ST_IDX latches the program's status and clears its counters and MAX_US. -/
def lgStIdx (v : Nat) (s : State) : State :=
  let s := s.swPut 0x800030 v
  let p := v % 256
  let x := s.start.prg p
  let a := 0x3600000 + p * 0x10
  let s := (s.put 0x8000A0 x.seq).put 0x8000A4 (pgState x.bytes * 2 ^ 30 + x.kind * 2 ^ 28 + s.word0 (a + 4) % 2 ^ 17)
  let s := (s.put 0x8000A8 (s.word0 (a + 8))).put 0x8000AC (s.word0 (a + 12))
  (s.put (a + 8) (s.evWord (a + 8))).put (a + 12) (s.evWord (a + 12))

/-- Writes of the LG_ page: only the steward cores and the owner seat may write it. -/
def lgWrite (r : Requester) (o v : Nat) (s : State) : State :=
  if !s.mayWrite r then s.lgEvent LG_EVENT_REFUSED
  else if o = 0 then lgCtrlWrite v s
  else if o = 0x14 then prgCmd (v % 4) s
  else if o = 0x18 then
    let t := s.swPut 0x800018 v
    if v / 2 ^ 30 % 4 = 1 then xchStart t else if v / 2 ^ 30 % 4 = 2 then xchCancel t else t
  else if o = 0x24 then
    match v % 4 with
    | 1 => loadData 0x800080 8 (s.frc (s.rd LG_FRC_IDX_IDX % 64)).bytes s
    | 2 => frcSetCmd s
    | 3 => frcClearCmd s
    | _ => s
  else if o = 0x30 then lgStIdx v s
  else s.swPut (0x800000 + o) v

end Sys2Proof.Machine
end

