-- ==== Sys2Proof/Machine/Rings.lean ====
section
/-!
DEFINITION. Descriptor rings of I2 (R94–R100): delivery into receive rings, fetch from transmit rings, and the memory that a
tenant ring may touch (R387).
-/
namespace Sys2Proof.Machine

/-- Base address of a receive or transmit ring. -/
def State.rxBase (s : State) (r : Ring) : Nat :=
  s.rd (ringFld r PT_RING_RX_BASE_HI VI_RING_RX_BASE_HI) * 2 ^ 32 + s.rd (ringFld r PT_RING_RX_BASE_LO VI_RING_RX_BASE_LO) * 4096
def State.txBase (s : State) (r : Ring) : Nat :=
  s.rd (ringFld r PT_RING_TX_BASE_HI VI_RING_TX_BASE_HI) * 2 ^ 32 + s.rd (ringFld r PT_RING_TX_BASE_LO VI_RING_TX_BASE_LO) * 4096

/-- DRAM base of window entry `w` of instance `v`, and its span in bytes (R384). -/
def State.winBase (s : State) (v w : Nat) : Nat :=
  s.rd ((VI_W_BASE_HI.p v).i w) * 2 ^ 32 + s.rd ((VI_W_BASE_LO.p v).i w) * 4096
def State.winSpan (s : State) (v w : Nat) : Nat := s.rd ((VI_W_PAGES.p v).i w) * 4096

/-- Whether DRAM bytes lie within an enabled window entry of the instance, with WR set where `wr` asks for it (R387). -/
def State.inWindow (s : State) (v addr n : Nat) (wr : Bool) : Bool :=
  (List.range 16).any (fun w => s.on ((VI_W_EN.p v).i w) && (!wr || s.on ((VI_W_WR.p v).i w)) &&
    decide (s.winBase v w ≤ addr) && decide (addr + n ≤ s.winBase v w + s.winSpan v w))

/-- Whether a ring may use a buffer: a tenant's within its window (R387), a steward ring's within DRAM (R94). -/
def State.bufferOk (s : State) (r : Ring) (addr n : Nat) (wr : Bool) : Bool :=
  match r with
  | .steward _ => decide (addr + n ≤ 0x0200000000)
  | .tenant v => s.inWindow v addr n wr

/-! ### Receive (R95–R98) -/

/-- Address of descriptor `i` of a receive ring. -/
def State.rxDesc (s : State) (r : Ring) (i : Nat) : Nat := s.rxBase r + i % max 1 (s.rd (rxSize r)) * 32

/-- Whether the module owns the descriptor at an address. -/
def State.owned (s : State) (d : Nat) : Bool := bit (s.loadN (d + 12) 4) 31

/-- Size of a receive descriptor's buffer in bytes: 0 means 256 units. -/
def State.bufBytes (s : State) (d : Nat) : Nat :=
  let u := s.loadN (d + 8) 1
  (if u = 0 then 256 else u) * 64

/-- The owned descriptors that a frame of `n` bytes takes from index `i` on, at most `k` of them; true where they hold all
of it. -/
def State.claim (s : State) (r : Ring) : Nat → Nat → Nat → List Nat × Bool
  | 0, _, _ => ([], false)
  | k + 1, i, n =>
    let d := s.rxDesc r i
    if ¬ s.owned d then ([], false)
    else if n ≤ s.bufBytes d then ([d], true)
    else
      let (ds, ok) := s.claim r k (i + 1) (n - s.bufBytes d)
      (d :: ds, ok)

/-- The ingress stamp that a receive descriptor carries: TB_0 corrected by ASYM for a PTP event message (R44, R57), else the
governing base's (R72). -/
def State.rxStamp (s : State) (f : Frame) : List Byte :=
  if (ptpType f.octets).isSome then
    stampBytes 0 (((f.stamp0 : Int) - (if f.ingress < 19 then sext 32 (s.rd (HC_PC_ASYM.i f.ingress)) else 0)).toNat)
  else stampBytes f.base f.stamp

/-- Take the ring's next descriptor, at address `d`, for the octets that remain: the buffer and bytes 16–31 are written, and bytes
12–15 wait until it is known whether the frame goes on (R96, R97). -/
def fillRx (f : Frame) (d : Nat) (p : RxPart) (s : State) : RxPart × State :=
  let r := ringOf p.ring
  let n := min p.rest.length (s.bufBytes d)
  let tag := match (header f.octets).tags with
    | (c, v) :: _ => c * 8192 + 4096 + v
    | [] => 0
  let t := s.store (s.loadN d 5) (p.rest.take n)
  let t := if p.sop then t.store (d + 16) (s.rxStamp f) else t
  let t := (t.storeN (d + 28) 2 tag).storeN (d + 30) 2 p.seq
  ({ p with desc := d, len := n, rest := p.rest.drop n }, t.wr (rxNext r) ((s.rd (rxNext r) + 1) % max 1 (s.rd (rxSize r))))

/-- Whether the ring's next descriptor, at address `d`, can take octets: the module owns it and its buffer is permitted. -/
def State.usable (s : State) (r : Ring) (d : Nat) : Bool :=
  s.owned d && (match r with
    | .tenant _ => s.bufferOk r (s.loadN d 5) (s.bufBytes d) true
    | .steward _ => true)

/-- Deliver what remains of a frame, through at most `k` further descriptors in this step: the frame ends, is truncated where the ring
runs out (R97), or stays part-way. -/
def runRx (f : Frame) : Nat → RxPart → State → State
  | k, p, s =>
    if p.rest.isEmpty then rxDone p f (s.storeN (p.desc + 12) 4 (rxWord f p.sop true false p.len))
    else
      match k with
      | 0 => { s with ports := { s.ports with rxPart := some p } }
      | k + 1 =>
        let r := ringOf p.ring
        let d := s.rxDesc r (s.rd (rxNext r))
        if s.usable r d then
          let (q, t) := fillRx f d { p with sop := false } (s.storeN (p.desc + 12) 4 (rxWord f p.sop false false p.len))
          runRx f k q t
        else truncateRx p f s

/-- The octets of an I2 or I0 copy: without the HSR tag or PRP trailer of the pair it came from (R131), and with the tags it carried. -/
def State.inward (s : State) (f : Frame) (p : Nat) : Frame := { f with octets := s.unwrap f p }

/-- Begin to deliver frame `i` of class `c` to its ring, or drop it (R78, R98, R387). SEQ runs on when a ring is disabled and enabled
again (DESIGN CHOICE, log entry 95: R95 does not say that it restarts). The size check counts the tag that R113 gives the copy (R78),
which the octets in the ring lack (DEDUCED, log entry 103: R95 and the example of R97). -/
def deliverRx (i c : Nat) (f : Frame) (k : Nat) (s : State) : State :=
  let r := ringOf f.ring
  let (ds, _) := s.claim r (s.rd (rxSize r)) (s.rd (rxNext r)) f.octets.length
  let bad := match r with
    | .tenant _ => ds.any (fun d => !s.bufferOk r (s.loadN d 5) (s.bufBytes d) true)
    | .steward _ => false
  if s.lmax pI2 < (s.retag f pI2 f.octets).length + 4 then (s.endCopy i pI2 c).inc (HL_P_EGR_SIZE.i pI2)
  else
    match r, ds, bad with
    | _, [], _ => (s.endCopy i pI2 c).inc (rxNoBuf r)
    | .tenant v, _, true => ((s.endCopy i pI2 c).inc (rxNoBuf r)).inc (VI_CNT4_RING_ADDR.p v)
    | _, d :: _, _ =>
      let seq := agetD s.ports.rxSeq (ringIndex r) 0
      let t := { s with ports := { s.ports with rxSeq := aput s.ports.rxSeq (ringIndex r) ((seq + 1) % 65536) } }
      let (p, t) := fillRx f d { fid := i, cls := c, ring := f.ring, desc := d, len := 0, sop := true, rest := f.octets, seq := seq } t
      runRx f (k - 1) p t

/-- Whether an I2 copy can be delivered in this cycle: stored whole, and a frame from M0 no sooner than 2.4 µs after its last bit
(R59, R285). -/
def State.rxReady (s : State) (f : Frame) : Bool := f.complete && decide ((if f.ingress = 18 then f.e + 3 else f.e) < s.cyc)

/-- The I2 copy that is delivered next, in order of class. -/
def State.rxPick (s : State) : Option (Nat × Nat × Frame) :=
  ((List.range 8).reverse.filterMap (fun c =>
    (s.queue pI2 c).head?.bind (fun i => (s.frame i).bind (fun f => if s.rxReady f then some (i, c, f) else none)))).head?

/-- RING_RX_DELIVER (R95): the next I2 copy is written to its ring; with `upTo`, the step ends after that many descriptors and a later
row goes on with the frame. -/
def execRingRxDeliver (upTo : Option (Fin 4096)) (s : State) : Host.Outcome State Fault Refusal :=
  whileOn 7 s <|
  let k := match upTo with
    | none => 4096
    | some n => max 1 n.val
  match s.ports.rxPart with
  | some p =>
    match s.frame p.fid with
    | some f => .next (runRx (s.inward f pI2) k p s)
    | none => .next { s with ports := { s.ports with rxPart := none } }
  | none =>
    let t := s.examinePort pI2
    match t.rxPick with
    | none => .next t
    | some (i, c, f) => .next (deliverRx i c (t.inward f pI2) k t)

/-! ### Transmit (R99, R100) -/

/-- Address of descriptor `i` of a transmit ring. -/
def State.txDesc (s : State) (r : Ring) (i : Nat) : Nat := s.txBase r + i % max 1 (s.rd (txSize r)) * 32

/-- The descriptors of the frame at index `i`, its SOP through its EOP, where all are module-owned (R100); a tenant's lie in its
window (R387). -/
def State.txChain (s : State) (r : Ring) : Nat → Nat → Option (List Nat)
  | 0, _ => none
  | k + 1, i =>
    let d := s.txDesc r i
    let lies : Bool := match r with
      | .steward _ => true
      | .tenant v => s.inWindow v d 32 true
    if !s.owned d || !lies then none
    else if bit (s.loadN (d + 12) 4) 29 then some [d]
    else (s.txChain r k (i + 1)).map (fun t => d :: t)

/-- LEN of a transmit descriptor. -/
def State.txLen (s : State) (d : Nat) : Nat := s.loadN (d + 8) 2 % 16384

/-- The octets of a frame, padded to 60 (R100). -/
def State.txOctets (s : State) (ds : List Nat) : List Byte :=
  let l := ds.flatMap (fun d => s.load (s.loadN d 5) (s.txLen d))
  l ++ List.replicate (60 - l.length) 0

/-- The index of the next descriptor to fetch passes `n` descriptors. -/
def txAdvance (r : Ring) (n : Nat) (s : State) : State := s.wr (txNext r) ((s.rd (txNext r) + n) % max 1 (s.rd (txSize r)))

/-- Clear OWN on every descriptor of a frame and write its results to the EOP descriptor (R100). -/
def txResult (r : Ring) (ds : List Nat) (res : Nat) (s : State) : State :=
  let t := ds.foldl (fun t d => t.storeN (d + 12) 4 (setBits (t.loadN (d + 12) 4) 31 31 0)) s
  let t := match ds.getLast? with
    | some d => t.storeN (d + 12) 4 (setBits (t.loadN (d + 12) 4) 28 24 res)
    | none => t
  match r with
  | .tenant v => t.vfVector v 2
  | .steward _ => t

/-- A frame that enters from I2: stamped at its entry cycle (R75). -/
def State.i2Frame (s : State) (l : List Byte) : Frame :=
  { octets := l, len := l.length + 4, stamp := s.nowStamp, stamp0 := (s.tb 0).val / uSt, base := s.gov, ingress := pI2 }

/-- Enter a frame from I2 by lookup, with the class of its descriptor (R100, R112), as instance `vi`'s where given. -/
def i2Lookup (l : List Byte) (cls : Nat) (vi : Option (Nat × Nat)) (s : State) : State :=
  let f := s.i2Frame l
  let (v, t) := classify { f with vi := vi.map (fun p => p.1), gen := (vi.map (fun p => p.2)).getD 0 } (some cls) s
  let t := countRx pI2 f.len t
  let t := if v.f.unknown then t.observe l v.f.vlan pI2 f.stamp f.base else t
  (hallEnter v.f v.ports v.cls t).2

/-- Enter a frame of a steward ring with a direct DEST (R99, R110). ACCEPT of I2 and the check of VID 4,095 do not apply to it, and a frame
for a port of a redundancy pair goes to both ports of it, also while HL_CTRL.EN is 0 (DESIGN CHOICE, log entry 103: R111 speaks of
frames that are classified, and R110 of the one port where R131 has both). -/
def i2Direct (l : List Byte) (cls dest : Nat) (ts : Option Nat) (s : State) : State :=
  let f := s.i2Frame l
  let f := { f with direct := some dest, tsDesc := ts, vlan := s.vlanOf pI2 (header l), cls := cls }
  (hallEnter f (s.widen pI2 [dest]) cls (countRx pI2 f.len s)).2

/-- A published frame enters the Hall in this cycle; its copies are decided before those of a frame from I2 (R118). -/
def State.pubFirst (s : State) : Bool := s.runs 6 && s.pb.built.any (fun x => x.entry == s.cyc)

/-- RING_TX_FETCH (R100): the frame at the ring's next descriptor is fetched, checked and handed to the Hall; a tenant's
waits at the ring for its gate, bucket and share (R387). A frame whose octets hold a lost word is discarded, its descriptors handed back
with neither DONE nor an error (R489; log entry 83). A frame of EtherType 0x8808 is sent like any other (DESIGN CHOICE, log entry 95:
R90 gives such a descriptor no outcome). -/
def execRingTxFetch (r : Ring) (s : State) : Host.Outcome State Fault Refusal :=
  whileOn 7 s <|
  match s.txChain r (s.rd (txSize r)) (s.rd (txNext r)) with
  | none => .next s
  | some ds =>
    if s.pubFirst then .next s else
    let d := ds.headD 0
    let b := s.loadN (d + 10) 1
    let (cls, dest) := (bits b 7 5, bits b 4 0)
    let l := s.txOctets ds
    let addr := ds.any (fun d => !s.bufferOk r (s.loadN d 5) (s.txLen d) false)
    let wrong := match r with
      | .tenant _ => dest != 0x1F
      | .steward _ => decide (19 ≤ dest) && dest != 0x1F
    let max' := if dest < 19 then s.lmax dest else 9216
    let res := b2n addr * 2 + b2n wrong + b2n (decide (max' < l.length + 4)) * 4
    let lost := ds.any (fun d => s.badSpan (s.loadN d 5) (s.txLen d))
    if res ≠ 0 ∨ lost then .next (txResult r ds res (txAdvance r ds.length s))
    else
      match r with
      | .steward _ =>
        let t := txResult r ds 16 (txAdvance r ds.length s)
        if dest = 0x1F then .next (i2Lookup l cls none t)
        else
          let ts := if bit (s.loadN (d + 11) 1) 0 then ds.getLast? else none
          .next (i2Direct l cls dest ts t)
      | .tenant v =>
        if (aget s.ports.waiting v).isSome then .next s
        else
          let w : WaitFrame :=
            { octets := l, cls := cls, descs := ds, gen := s.rd0 (VI_STATUS_GEN.p v), tbWaited := false, shareWaited := false
              tick := s.clk.raised }
          let t := txAdvance r ds.length s
          .next { t with ports := { t.ports with waiting := aput t.ports.waiting v w } }

end Sys2Proof.Machine
end

