-- ==== Sys2Proof/Machine/Instances.lean ====
section
/-!
DEFINITION. Instances and tenants (16_instances.md R374–R397, R403, R405): virtual functions, the instance page, mailbox,
direct window, mirrors, tenant publication and rings, shares, generations and reset.
-/
namespace Sys2Proof.Machine

/-! ### Virtual functions (R374–R377) -/

/-- Virtual function of instance `v`: bound, with its Memory Space Enable set (R374, R403). -/
def State.vfMapped (s : State) (v : Nat) : Bool := decide (v < s.vis.numVfs) && (s.vf v).mse

/-- A configuration write of the host (R374, R376, R398, R487). -/
def cfgWrite (c : PcieCfg) (s : State) : State :=
  match c with
  | .msix v k e => let f := s.vf v; s.setVf v ({ f with table := aput f.table k e } : Vf).release
  | .numVfs n => { s with vis := { s.vis with numVfs := min n s.vis.sriov.totalVfs } }
  | .mse none b => { s with vis := { s.vis with pfMse := b } }
  | .bme none b => { s with vis := { s.vis with pfBme := b } }
  | .fmask none b => { s with vis := { s.vis with pfFmask := b } }
  | .mse (some v) b => s.setVf v { s.vf v with mse := b }
  | .bme (some v) b => s.setVf v ({ s.vf v with bme := b } : Vf).release
  | .fmask (some v) b => s.setVf v ({ s.vf v with fmask := b } : Vf).release

/-- A function that exists: PF0, and the virtual functions up to NumVFs (R374). -/
def State.functionOf (s : State) (c : PcieCfg) : Bool :=
  match c with
  | .mse (some v) _ | .bme (some v) _ | .fmask (some v) _ | .msix v _ _ => decide (v.val < s.vis.numVfs)
  | _ => true

/-- PCIE_CONFIG_WRITE (R374, R376, R398). Until CELLAR_UP ends, PF0 only asks for a retry (R433). -/
def execPcieConfigWrite (c : PcieCfg) (s : State) : Host.Outcome State Fault Refusal :=
  if s.rd0 BT_STATUS_STATE ≤ 1 ∨ !s.functionOf c then .next s else .next (cfgWrite c s)

/-- Offset of instance page `v` in register space (R36). -/
def viPage (v : Nat) : Nat := 0x1000000 + v * 0x10000

/-- VF_FLR (R377): the tenant interface of VF `v` is reset, the instance is not. -/
def execVfFlr (v : Fin 512) (s : State) : Host.Outcome State Fault Refusal :=
  if s.vis.numVfs ≤ v then .next s
  else
    let a := viPage v + 0x800
    let t := cutRing (.tenant v) (ringWrite a 6 0 (fun x => x) (ringWrite a 2 0 (fun x => x) s))
    let t := (t.wr (VI_MB_STAT_M2T_FULL.p v) 0).wr (VI_MB_STAT_M2T_OLDER.p v) 0
    let t := t.setVf v { t.vf v with bme := false, fmask := false, table := [], pend := [] }
    .next ((t.viEvent VI_EVENT_FLR v).record 0x02 0x12 v)

/-! ### Mailbox (R379, R380) -/

/-- Length field of a mailbox slot whose words begin at offset `a`. -/
def State.mbLen (s : State) (a : Nat) : Nat := s.word a / 65536

/-- Post slot `i` of a direction: its FULL and OLDER fields and the offset of its slot 0. Judged against FULL at the start of
the cycle. -/
def mbPost (full older : Fld) (base v i : Nat) (raise : State → State) (s : State) : State :=
  let a := base + i * 0x100
  if bit (s.rd0 (full.p v)) i ∨ 240 < s.mbLen a then s.inc (VI_CNT3_MB_DROP.p v)
  else
    let t := s.wr (full.p v) (s.rd (full.p v) ||| 2 ^ i)
    let t := t.put (a + 4) (setBits (t.word (a + 4)) 19 16 (t.gen v))
    let t := if t.rd (full.p v) = 3 then t.wr (older.p v) (1 - i) else t
    raise t

/-- Acknowledge slot `i` of a direction. -/
def mbAck (full older : Fld) (v i : Nat) (raise : State → State) (s : State) : State :=
  if !bit (s.rd0 (full.p v)) i then s
  else raise ((s.wr (full.p v) (s.rd (full.p v) &&& (3 - 2 ^ i))).wr (older.p v) 0)

def postT2mOp (v i : Nat) (s : State) : State :=
  mbPost VI_MB_STAT_T2M_FULL VI_MB_STAT_T2M_OLDER (viPage v + 0x400) v i (fun t => t.mbEvent v) s
def postM2tOp (v i : Nat) (s : State) : State :=
  mbPost VI_MB_STAT_M2T_FULL VI_MB_STAT_M2T_OLDER (viPage v + 0x600) v i (fun t => t.vfVector v 0) s
def ackM2tOp (v i : Nat) (s : State) : State :=
  mbAck VI_MB_STAT_M2T_FULL VI_MB_STAT_M2T_OLDER v i (fun t => t.mbEvent v) s
def ackT2mOp (v i : Nat) (s : State) : State :=
  mbAck VI_MB_STAT_T2M_FULL VI_MB_STAT_T2M_OLDER v i (fun t => t.vfVector v 0) s

/-- A doorbell write: bits 0 and 1 post, bits 8 and 9 acknowledge. -/
def doorbell (post ack : Nat → State → State) (w : Nat) (s : State) : State :=
  let t := if bit w 8 then ack 0 s else s
  let t := if bit w 9 then ack 1 t else t
  let t := if bit w 0 then post 0 t else t
  if bit w 1 then post 1 t else t

/-! ### Direct window (R384, R385) -/

/-- Whether the four words of a window entry keep the rules of R384; an entry of no pages has no span. -/
def State.windowOk (s : State) (v w : Nat) : Bool :=
  let lo := s.rd ((VI_W_WOFS.p v).i w) * 4096
  let n := s.winSpan v w
  let base := s.winBase v w
  n == 0 || (decide (base + n ≤ 0x01FC000000) && decide (lo + n ≤ 2 ^ 30) &&
    (List.range 16).all (fun x =>
      x == w || !s.on ((VI_W_EN.p v).i x) || s.winSpan v x == 0 ||
        (let lo' := s.rd ((VI_W_WOFS.p v).i x) * 4096
         decide (lo + n ≤ lo') || decide (lo' + s.winSpan v x ≤ lo))))

/-- A write of word `k` of window entry `w`: refused where the entry would break a rule, enabled or not (R384). -/
def windowWrite (v w k x : Nat) (s : State) : State :=
  let t := s.swPut (viPage v + 0x1000 + w * 0x10 + k * 4) x
  if t.windowOk v w then t else s.viEvent VI_EVENT_REFUSED v

/-- The enabled window entry of instance `v` that spans four bytes from BAR2 offset `o`. -/
def State.windowAt (s : State) (v o : Nat) : Option Nat :=
  (List.range 16).find? (fun w =>
    let lo := s.rd0 ((VI_W_WOFS.p v).i w) * 4096
    s.on0 ((VI_W_EN.p v).i w) && decide (lo ≤ o) && decide (o + 4 ≤ lo + s.rd0 ((VI_W_PAGES.p v).i w) * 4096))

/-- DRAM address of BAR2 offset `o` through entry `w`. -/
def State.windowAddr (s : State) (v w o : Nat) : Nat :=
  s.rd0 ((VI_W_BASE_HI.p v).i w) * 2 ^ 32 + s.rd0 ((VI_W_BASE_LO.p v).i w) * 4096 + (o - s.rd0 ((VI_W_WOFS.p v).i w) * 4096)

/-! ### Mirrors (R386) -/

/-- Whether mirror `m` of instance `v` waits for the engine since an earlier cycle. -/
def State.mirrorWaits (s : State) (v m : Nat) : Bool :=
  match aget (s.vi v).mirWait m with
  | some w => (aget (s.vi v).mirTick m).all (fun t => decide (t < w))
  | none => false

/-- The tick, by count of raised ticks, whose copy begins where mirror `m` of instance `v` is copied now: that since which it has waited. -/
def State.mirrorTick (s : State) (v m : Nat) : Nat :=
  if s.mirrorWaits v m then agetD (s.vi v).mirWait m s.clk.raised else s.clk.raised

/-- Replace an entry of a mirror's bookkeeping. -/
def State.mirNote (s : State) (v : Nat) (f : Vi → Vi) : State := s.setVi v (f (s.vi v))

/-- Start copying mirror `m` of instance `v`: the header's first eleven bytes now. The header's words that a copy writes in part are
read first: a lost one discards the copy (R489; log entry 83). -/
def mirrorStart (v m : Nat) (s : State) : State :=
  let f : Fld → Fld := fun x => (x.p v).i m
  let n := s.rd (f VI_M_UN)
  let dest := s.rd (f VI_M_DEST_HI) * 2 ^ 32 + s.rd (f VI_M_DEST_LO) * 64
  if s.badSpan (dest + 8) 8 || s.badSpan (dest + 56) 8 then
    s.mirNote v (fun x => { x with mirTick := aput x.mirTick m (s.mirrorTick v m) })
  else
  let seq := (agetD (s.vi v).mirSeq m 0 + 1) % 2 ^ 32
  let src := addrCluster (s.rd (f VI_M_CLUSTER)) + s.rd (f VI_M_UOFS) * 8
  let t := s.store dest (leBytes 4 seq ++ leBytes 4 (s.tickG / 4800) ++ leBytes 2 (s.tickG % 4800) ++ leBytes 1 (s.gen v))
  let t := t.mirNote v (fun x => { x with mirSeq := aput x.mirSeq m seq, mirTick := aput x.mirTick m (s.mirrorTick v m) })
  { t with vis := { t.vis with mirror := some {
      vi := v, m := m, start := s.cyc, stop := s.cyc + 32 + ceilDiv n 2, gen := s.gen v, src := src, dest := dest, units := n
      seq := seq } } }

/-- The mirror engine copies two units in a cycle, from 32 cycles after the copy began, as the cycle found them (R241, R386; DESIGN
CHOICE, log entry 64). -/
def State.mirrorCycle (s : State) : State :=
  match s.vis.mirror with
  | none => s
  | some r =>
    let i := s.cyc - (r.start + 32)
    if s.cyc < r.start + 32 ∨ r.units ≤ 2 * i then s
    else s.store (r.dest + 64 + 16 * i) (s.old.mapLoad (r.src + 16 * i) (8 * min 2 (r.units - 2 * i)))

/-- The tail of a copy, written in its last cycle. -/
def mirrorEnd (s : State) : State :=
  match s.vis.mirror with
  | none => s
  | some r =>
    if s.cyc + 1 < r.stop then s
    else
      let t := s.storeN (r.dest + 60) 4 r.seq
      { t with vis := { t.vis with mirror := none } }

/-- Whether mirror `m` of instance `v` is due in this tick and not yet copied, or waits. -/
def State.mirrorDue (s : State) (v m : Nat) : Bool :=
  let f : Fld → Fld := fun x => (x.p v).i m
  let div := s.rd (f VI_M_DIV)
  s.on (f VI_M_EN) && (s.mirrorWaits v m ||
    (s.clk.lastTick.isSome && decide (0 < div) && s.tickG % 4800 % div == 0 && decide (s.rd (f VI_M_CY) ≤ s.tickCy) &&
      aget (s.vi v).mirTick m != some s.clk.raised))

/-- The mirrors whose first word is set, as instance and number. -/
def State.mirrorsSet (s : State) : List (Nat × Nat) :=
  (s.regs.filter (fun (p : Nat × Word) => decide (0x1000000 ≤ p.1) && decide (p.1 < 0x3000000) && decide (0x1100 ≤ p.1 % 65536) &&
    decide (p.1 % 65536 < 0x1140) && p.1 % 16 == 0)).map (fun (p : Nat × Word) => ((p.1 - 0x1000000) / 65536, p.1 % 65536 / 16 % 4))

/-- Another mirror that is due comes first: in order of CY, then of instance, then of number (R386). -/
def State.mirrorAhead (s : State) (v m : Nat) : Bool :=
  let key := fun (x : Nat × Nat) => [s.rd ((VI_M_CY.p x.1).i x.2), x.1, x.2]
  s.mirrorsSet.any (fun x => s.mirrorDue x.1 x.2 && listBefore (key x) (key (v, m)))

/-- MIRROR_COPY (R386): a due copy begins, or waits for the engine and counts once. -/
def execMirrorCopy (v : Fin 512) (m : Fin 4) (s : State) : Host.Outcome State Fault Refusal :=
  whileOn 1 s <|
  if !s.mirrorDue v m then .next s
  else if s.vis.mirror.isSome ∨ s.mirrorAhead v m then
    if s.mirrorWaits v m then .next s
    else .next ((s.mirNote v (fun x => { x with mirWait := aput x.mirWait m s.clk.raised })).inc (VI_CNT4_MIR_WAIT.p v))
  else .next (mirrorStart v m s)

/-! ### Tenant rings (R387, R392) -/

/-- Whether base register `j` of a tenant ring, low or high, may take value `x` beside the other's `y`: the whole base lies in an enabled
window entry with WR (R387). -/
def State.ringBaseOk (s : State) (v j y x : Nat) : Bool :=
  let hi := if j = 1 then x else y
  let lo := if j = 1 then y else x
  s.inWindow v (hi % 256 * 2 ^ 32 + lo / 4096 * 4096) 4096 true

/-- A write of register `k` of the tenant ring pair. -/
def tenantRingWrite (v k x : Nat) (s : State) : State :=
  let a := viPage v + 0x800
  let j := if k < 4 then k else k - 4
  let other := s.word (a + (if k < 4 then 0 else 0x10) + (if j = 0 then 4 else 0))
  if k < 8 ∧ j < 2 ∧ ¬ s.ringBaseOk v j other x then s.viEvent VI_EVENT_REFUSED v
  else cutRing (.tenant (Fin.ofNat 512 v)) (ringWrite a k x (fun t => t.viEvent VI_EVENT_REFUSED v) s)

/-- Replace the waiting frame of instance `v`. -/
def State.setWaiting (s : State) (v : Nat) (w : Option WaitFrame) : State :=
  { s with ports := { s.ports with waiting := match w with
      | some x => aput s.ports.waiting v x
      | none => adel s.ports.waiting v } }

/-- TENANT_FRAME_ENTRY (R275, R387, R390, R392): gate, bucket and share, in that order. -/
def execTenantFrameEntry (v : Fin 512) (s : State) : Host.Outcome State Fault Refusal :=
  whileOn 7 s <|
  match aget s.ports.waiting v.val with
  | none => .next s
  | some w =>
    let ds := w.descs
    if s.pubFirst then .next s
    else if !s.gate then .next (((txResult (.tenant v) ds 16 s).setWaiting v none).inc PB_G_GATED_ALL)
    else if s.tokens v < 0 then
      if w.tbWaited then .next s
      else .next ((s.setWaiting v (some { w with tbWaited := true, tick := s.clk.raised })).inc (VI_CNT2_TB_WAIT.p v))
    else if w.tbWaited ∧ w.tick = s.clk.raised then .next s
    else if !s.inShare v (w.octets.length + 4) then
      if w.shareWaited then .next s
      else .next ((s.setWaiting v (some { w with shareWaited := true })).inc (VI_CNT2_SHARE_WAIT.p v))
    else
      let t := (txResult (.tenant v) ds 16 s).setWaiting v none
      let t := t.setTokens v (t.tokens v - (w.octets.length : Int))
      .next (i2Lookup w.octets w.cls (some (v, w.gen)) t)

/-! ### Tenant publication (R388) -/

/-- `n` consecutive items in the layouts of R244. -/
def itemsIn : Nat → List Byte → List PubItem
  | 0, _ => []
  | n + 1, l =>
    let x := itemOf (slice l 0 8) (slice l 8 8)
    x.pub :: itemsIn n (l.drop (8 * itemWidth x.t))

/-- The item area of instance `v`. -/
def State.itemArea (s : State) (v : Nat) : List Byte := (List.range 256).flatMap (fun i => leBytes 4 (s.word0 ((VI_ITEM_W.p v).i i).addr))

/-- Cause for which a tenant's request for control block `n` is refused, zero for none; one with no difference builds nothing that R271 could
discard. -/
def pubCause (v n : Nat) (items : List PubItem) (s : State) : Nat :=
  let b := (s.cb n).bytes
  let free := ((s.pipesOf false).filter (fun p => !s.pipeBusy p (s.cyc + 1))).length
  if !s.on (VI_CTRL_RUN.p v) || s.on (VI_STATUS_RESETTING.p v) then 5
  else if !cbValid b then 1
  else if cbVi b ≠ v then 2
  else if cbSv b then 3
  else if !typesFit (s.template b) items then 4
  else if free + 256 ≤ s.pb.bg.length ∧ !s.pubSame n items then 6
  else 0

/-- The hand-over of a tenant's request (R388), after the lanes' requests of its cycle. -/
def tenantPublish (v n : Nat) (s : State) : State :=
  let items := itemsIn (cbNmem (s.cb n).bytes) (s.itemArea v)
  let cause := pubCause v n items s
  let t := if cause = 5 then s else (pubRequest n items v (s.gen v) true 0 s).2
  let t := t.wr (VI_PUB_STAT_CAUSE.p v) cause
  if cause = 0 then t else t.viEvent VI_EVENT_PUB_REFUSED v

/-- The tenant requests whose hand-over cycle this is. -/
def State.tenantHandOver (s : State) : State :=
  s.vis.vi.foldl (fun (t : State) (x : Nat × Vi) =>
    let due := x.2.pubReq.filter (fun (p : Nat × Nat) => decide (p.1 ≤ t.cyc))
    if due.isEmpty then t
    else
      due.foldl (fun (u : State) (p : Nat × Nat) => tenantPublish x.1 p.2 u)
        (t.setVi x.1 { t.vi x.1 with pubReq := x.2.pubReq.filter (fun (p : Nat × Nat) => decide (t.cyc < p.1)) })) s

/-- A write of VI_PUB_CB. -/
def pubCbWrite (v x : Nat) (s : State) : State :=
  let t := s.swPut (viPage v + 0x900) x
  if bit x 31 then t.setVi v { t.vi v with pubReq := (s.vi v).pubReq ++ [(s.cyc + 1, min 2111 (x % 4096))] } else t

/-! ### Shares (R389–R391) -/

/-- A write of VI_LSHARE: values above 98,304 are held there. -/
def lshareWrite (v x : Nat) (s : State) : State :=
  let new := min 98304 (x % 2 ^ 17)
  let held := s.rd (VI_HELD_HELD.p v)
  let t := s.wr (VI_LSHARE_LSHARE.p v) new
  if held ≤ s.rd (VI_LSHARE_LSHARE.p v) ∧ new < held then t.viEvent VI_EVENT_OVER_SHARE v else t

/-- VI_SLOT_SHARE of every instance (R389), at the tick start at which task writes take effect. -/
def updateSlotShares (s : State) : State :=
  let sums := s.ds.tasks.foldl (fun (m : List (Nat × Nat)) (p : Nat × Task) =>
    let b := p.2.bytes
    if tValid b ∧ ¬ tReady b ∧ 0 < tDiv b then
      aput m (tVi b) (agetD m (tVi b) 0 + tCost b * 4800 / (tDiv b))
    else m) []
  let old := (s.regs.filter (fun (p : Nat × Word) => decide (0x1000000 ≤ p.1) && decide (p.1 < 0x3000000) && p.1 % 65536 == 0x18)).map
    (fun (p : Nat × Word) => (p.1 - 0x1000000) / 65536)
  let t := old.foldl (fun (t : State) v => t.wr (VI_SLOT_SHARE_SLOT.p v) 0) s
  sums.foldl (fun (t : State) (p : Nat × Nat) => t.wr (VI_SLOT_SHARE_SLOT.p p.1) (ceilDiv p.2 64)) t

/-! ### Generations and reset (R393–R396) -/

/-- Armed timers and Larder frames that carry generation `g` of instance `v` (R396). -/
def State.lingerTimers (s : State) (v g : Nat) : Nat :=
  (s.ds.timers.filter (fun (p : Nat × Timer) => mState p.2.bytes == 1 && mVi p.2.bytes == v && mGen p.2.bytes == g)).length
def State.lingerFrames (s : State) (v g : Nat) : Nat :=
  (s.hall.frames.filter (fun (p : Nat × Frame) => p.2.vi == some v && p.2.gen == g)).length
def State.linger (s : State) (v : Nat) : Nat :=
  let g := (s.rd (VI_STATUS_GEN.p v) + 1) % 16
  s.lingerTimers v g + s.lingerFrames v g

/-- Items of instance `v` in flight that carry a former generation (R394). -/
def State.inflight (s : State) (v : Nat) : Nat :=
  let g := s.rd (VI_STATUS_GEN.p v)
  let old : Nat → Nat → Bool := fun vi gen => vi == v && gen != g
  (s.ln.runs.filter (fun (p : Nat × Run) => old p.2.vi p.2.gen && !p.2.ended && !p.2.stopped)).length +
  (s.ds.pend.filter (fun (p : Nat × Pend) => old (tVi (s.task p.1)) p.2.gen)).length +
  (s.ds.marks.filter (fun r => old r.vi r.gen)).length +
  ((s.pb.fg ++ s.pb.bg).filter (fun j => old j.vi j.gen)).length +
  (s.pb.built.filter (fun x => old x.vi x.gen)).length +
  (match aget s.ports.waiting v with
    | some w => b2n (w.gen != g && !w.tbWaited && !w.shareWaited)
    | none => 0)

/-- The work that a reset abandons or cancels at once (R394): a mirror copy, a save, a pending exchange, published state. -/
def resetAbandon (v : Nat) (s : State) : State :=
  let t := match s.vis.mirror with
    | some r => if r.vi = v then { s with vis := { s.vis with mirror := none } } else s
    | none => s
  pubReset v (logicReset v t)

/-- The items that a reset abandons in the reset cycle, which INFLIGHT still shows there (R394). -/
def State.abandoned (s : State) (v : Nat) : Nat :=
  let mine := fun (p : Nat) => pgVi (s.prg p).bytes == v
  b2n (s.vis.mirror.any (fun r => r.vi == v)) + b2n (s.lg.run.any (fun r => mine r.prg && decide (s.cyc < r.stop))) +
    (s.lg.saves.filter (fun q => mine q.prg)).length + b2n (s.lg.xch.any (fun y => mine y.old))

/-- VI_CMD.RESET (R393, R396): GEN, RESETTING and what follows show from the reset cycle on, which is the next. -/
def viResetOp (v : Nat) (keep : Bool) (s : State) : State :=
  if s.on (VI_STATUS_RESETTING.p v) then s.viEvent VI_EVENT_REFUSED v
  else if s.linger v ≠ 0 then
    ((s.setVi v (s.vi v)).wr (VI_STATUS_GEN_WAIT.p v) 1).viEvent VI_EVENT_REFUSED v
  else
    let g := (s.rd (VI_STATUS_GEN.p v) + 1) % 16
    let t := (s.wr (VI_STATUS_GEN.p v) g).wr (VI_STATUS_RESETTING.p v) 1
    let t := t.setVi v { t.vi v with keepRun := keep, resetAt := some (s.cyc + 1) }
    t.record 0x02 0x10 (v + g * 65536 + b2n keep * 2 ^ 20)

/-- One background request of a former generation leaves the queue (R394). -/
def dropBackground (v : Nat) (s : State) : State :=
  let g := s.rd (VI_STATUS_GEN.p v)
  match s.pb.bg.find? (fun j => j.vi == v && j.gen != g) with
  | some j => { s with pb := { s.pb with bg := s.pb.bg.erase j } }
  | none => s

/-- The end of a cycle for an instance with a reset in progress or one waiting for a generation. -/
def resetCycle (v : Nat) (x : Vi) (s : State) : State :=
  let t := if s.on (VI_STATUS_GEN_WAIT.p v) ∧ s.linger v = 0 then s.wr (VI_STATUS_GEN_WAIT.p v) 0 else s
  match x.resetAt with
  | none => t
  | some r =>
    if t.cyc + 1 = r then (resetAbandon v t).wr (VI_STATUS_INFLIGHT.p v) (t.inflight v + t.abandoned v)
    else
      let t := if r < t.cyc then dropBackground v t else t
      t.wr (VI_STATUS_INFLIGHT.p v) (t.inflight v)

/-- The instances at the end of a cycle: resets (R394) and the mirror engine (R386). -/
def State.viCycle (s : State) : State :=
  let t := mirrorEnd s
  t.vis.vi.foldl (fun (u : State) (x : Nat × Vi) => resetCycle x.1 x.2 u) t

/-- VI_RESET_DONE (R395): the cycle after INFLIGHT reached 0. -/
def execViResetDone (v : Fin 512) (s : State) : Host.Outcome State Fault Refusal :=
  let x := s.vi v
  match x.resetAt with
  | none => .next s
  | some r =>
    if s.cyc ≤ r ∨ s.rd0 (VI_STATUS_INFLIGHT.p v) ≠ 0 ∨ s.inflight v ≠ 0 then .next s
    else
      let t := s.wr (VI_STATUS_RESETTING.p v) 0
      let t := if x.keepRun then t.setVi v { x with resetAt := none, runFrom := s.clk.raised + 1 }
               else (t.setVi v { x with resetAt := none }).wr (VI_CTRL_RUN.p v) 0
      .next ((t.viEvent VI_EVENT_RESET_DONE v).record 0x02 0x11 (v + (s.cyc - r) % 65536 * 65536))

/-! ### The instance page (R378, R403) -/

/-- Whether a tenant may write offset `o` of its page. -/
def tenantWrites (o : Nat) : Bool :=
  o == 8 || o == 0x100 || (decide (0x400 ≤ o) && decide (o < 0x600)) || (decide (0x800 ≤ o) && decide (o < 0x840)) ||
    o == 0x900 || (decide (0xA00 ≤ o) && decide (o < 0xE00))

/-- Whether offset `o` is VI_MDB or an M2T slot, which PF0 and the steward cores write whoever is owner. -/
def managerWrites (o : Nat) : Bool := o == 0x104 || (decide (0x600 ≤ o) && decide (o < 0x800))

/-- A write into a mailbox slot word: dropped while its slot is FULL (R380). -/
def mbWordWrite (full : Fld) (v i o x : Nat) (s : State) : State :=
  if bit (s.rd0 (full.p v)) i then s.inc (VI_CNT3_MB_DROP.p v) else s.swPut (viPage v + o) x

/-- A permitted write of offset `o` of instance page `v`. -/
def viPut (v o x : Nat) (s : State) : State :=
  if o = 0xC then (if x % 4 = 1 then viResetOp v (bit x 2) s else s)
  else if o = 0x10 then lshareWrite v x s
  else if o = 0x100 then doorbell (postT2mOp v) (ackM2tOp v) x s
  else if o = 0x104 then doorbell (postM2tOp v) (ackT2mOp v) x s
  else if 0x400 ≤ o ∧ o < 0x600 then mbWordWrite VI_MB_STAT_T2M_FULL v ((o - 0x400) / 0x100) o x s
  else if 0x600 ≤ o ∧ o < 0x800 then mbWordWrite VI_MB_STAT_M2T_FULL v ((o - 0x600) / 0x100) o x s
  else if 0x800 ≤ o ∧ o < 0x840 then tenantRingWrite v ((o - 0x800) / 4) x s
  else if o = 0x900 then pubCbWrite v x s
  else if 0x1000 ≤ o ∧ o < 0x1100 then windowWrite v ((o - 0x1000) / 0x10) (o % 0x10 / 4) x s
  else s.swPut (viPage v + o) x

/-- A tenant's write that its page does not take (R378). -/
def tenantForbid (v : Nat) (s : State) : State := (s.inc (VI_CNT3_PERM.p v)).viEvent VI_EVENT_REFUSED v

/-- A write of offset `o` of instance page `v` (R378). A steward core that acts as a seat writes as that seat (R398). -/
def viWrite (r : Requester) (v o x : Nat) (s : State) : State :=
  match r with
  | .vf _ => if tenantWrites o then viPut v o x s else tenantForbid v s
  | _ =>
    if managerWrites o && (s.asCore r || s.seat r == 0) then viPut v o x s
    else if s.mayWrite r then viPut v o x s
    else s.inc OW_CNT_NONOWNER

/-- Reads of an instance page that show what its registers do not hold. -/
def viRead (v o : Nat) (s : State) : Option (Nat × State) :=
  if o = 4 then
    let w := s.word0 (viPage v + 4)
    let above := decide (s.rd0 (VI_LSHARE_LSHARE.p v) < s.rd0 (VI_HELD_HELD.p v))
    some (setBits (setBits w 30 30 (b2n above)) 29 29 (b2n (s.start.vfMapped v)), s)
  else if o = 0x1C then some (s.rd0 (DS_VI_BUDGET.i v), s)
  else if o = 0x20 then some (s.rd0 (PB_VI_TB_RATE.i v) * 65536 + s.rd0 (PB_VI_TB_DEPTH.i v), s)
  else if o = 0x24 then some (toBits 32 (s.start.tokens v), s)
  else if o = 0x28 then
    let z := s.start
    let g := (z.rd (VI_STATUS_GEN.p v) + 1) % 16
    some (z.lingerTimers v g * 65536 + min 65535 (z.lingerFrames v g), s)
  else none

end Sys2Proof.Machine
end

