-- ==== Sys2Proof/Machine/Ownership.lean ====
section
/-!
DEFINITION. Seats and ownership (16_instances.md R398–R402, R404, R405).
-/
namespace Sys2Proof.Machine

/-- Whether seat `k` is present (R398). -/
def State.present (s : State) (k : Nat) : Bool :=
  match k with
  | 0 => s.vis.pfMse
  | 1 => s.on0 PR_STATUS_PARTNER
  | 7 => s.debugSeat
  | k => decide (k < 7) && bit (s.word0 OW_SESS_SESS.addr) k

/-- PRESENT of OW_STATUS. -/
def State.presentMask (s : State) : Nat := (List.range 8).foldl (fun a k => a + b2n (s.present k) * 2 ^ k) 0

/-- The owner seat now, 0xF for none. -/
def State.owner (s : State) : Nat := s.rd OW_STATUS_OWNER

/-- Set an OW_EVENT bit and raise the ownership event (R405). -/
def State.owEvent (s : State) (f : Fld) : State := s.event f ES_OW

/-- A claim, offer or acceptance that does not succeed, or a write by one who may not make it (R399, R400, R404). -/
def State.owFail (s : State) : State := (s.inc OW_CNT_REFUSED).owEvent OW_EVENT_REFUSED

/-- A write that its requester may not make: a seat that is not the owner counts in NONOWNER too (R398, R404). -/
def owForbid (r : Requester) (s : State) : State :=
  let t := if s.seat r ≠ 0xF ∧ !s.isOwner r then s.inc OW_CNT_NONOWNER else s
  t.owFail

/-- The owner becomes seat `k`. -/
def State.setOwner (s : State) (k state : Nat) : State :=
  let t := ((s.wr OW_STATUS_OWNER k).wr OW_STATUS_STATE state).wr OW_STATUS_TARGET 0xF
  { t with vis := { t.vis with offerLapse := none, leaseFrom := s.cyc, leaseWas := s.vis.leaseFrom } }.owEvent OW_EVENT_CHANGE

/-- OW_CLAIM (R399): among claims of one cycle the lowest seat wins. -/
def owClaimOp (r : Requester) (s : State) : State :=
  let k := s.seat r
  if k = 0xF ∨ !s.present k then owForbid r s
  else if s.rd0 OW_STATUS_OWNER ≠ 0xF then s.owFail
  else
    match s.vis.claimed with
    | some (c, j) =>
      if c = s.cyc then
        if k < j then
          let t := { s with vis := { s.vis with claimed := some (c, k) } }
          let t := { t with recReqs := t.recReqs.map (fun (q : RecReq) =>
            if q.src = 0x02 ∧ q.code = 0x01 ∧ q.cyc = c then { q with data := k } else q) }
          (t.wr OW_STATUS_OWNER k).owFail
        else s.owFail
      else if s.owner ≠ 0xF then s.owFail
      else (({ s with vis := { s.vis with claimed := some (s.cyc, k) } }).setOwner k 1).record 0x02 0x01 k
    | none =>
      if s.owner ≠ 0xF then s.owFail
      else (({ s with vis := { s.vis with claimed := some (s.cyc, k) } }).setOwner k 1).record 0x02 0x01 k

/-- OW_RELEASE (R399). -/
def owReleaseOp (r : Requester) (s : State) : State :=
  if !s.isOwner r then owForbid r s
  else if s.owner ≠ s.seat r then s
  else (s.setOwner 0xF 0).wr OW_STATUS_CAUSE 1

/-- Ownership is lost (R401). -/
def loseOwner (cause : Nat) (s : State) : State :=
  if s.owner = 0xF then s
  else
    let t := s.record 0x02 0x04 (s.owner + cause * 256)
    ((t.setOwner 0xF 0).wr OW_STATUS_CAUSE cause).owEvent OW_EVENT_LOST

/-- An event bit of this cycle taken back, where it was clear at the start of the cycle. -/
def State.unflag (s : State) (f : Fld) : State := if s.on0 f then s else s.wr f 0

/-- Take back the records of a code that the ownership source requested in this cycle. -/
def State.unrecord (s : State) (code : Nat) : State :=
  { s with recReqs := s.recReqs.filter (fun (q : RecReq) => !(q.src == 0x02 && q.code == code && q.cyc == s.cyc)) }

/-- An acceptance of this cycle is taken back: a withdrawal in the same cycle wins (R400). -/
def undoAccept (s : State) : State :=
  let t := (s.wr OW_STATUS_OWNER (s.rd0 OW_STATUS_OWNER)).wr OW_STATUS_CAUSE (s.rd0 OW_STATUS_CAUSE)
  let t := ((t.unflag OW_EVENT_HANDOVER).unflag OW_EVENT_CHANGE).unrecord 0x02
  { t with vis := { t.vis with leaseFrom := t.vis.leaseWas } }

/-- OW_OFFER (R400). -/
def owOfferOp (r : Requester) (k : Nat) (s : State) : State :=
  if !s.isOwner r then owForbid r s
  else
    let moved := s.owner != s.rd0 OW_STATUS_OWNER
    if k = 0xF then
      let t := if moved && s.rd0 OW_STATUS_STATE == 2 && s.owner != 0xF then (undoAccept s).owFail else s
      let t := if t.owner = 0xF then t else (t.wr OW_STATUS_STATE 1).wr OW_STATUS_TARGET 0xF
      { t with vis := { t.vis with offerLapse := none } }
    else if !moved && decide (k < 8) && s.present k && k != s.owner then
      let t := (s.wr OW_STATUS_STATE 2).wr OW_STATUS_TARGET k
      { t with vis := { t.vis with offerLapse := some (s.clk.lapse + s.rd OW_HO_HO_MS * uMs) } }
    else s.owFail

/-- OW_ACCEPT (R400): an acceptance in the cycle of the lapse wins. -/
def owAcceptOp (r : Requester) (s : State) : State :=
  let k := s.seat r
  let was := s.rd0 OW_STATUS_OWNER
  let lapsed := s.vis.lapsed == some s.cyc
  if k = 0xF ∨ !s.present k then owForbid r s
  else if s.rd0 OW_STATUS_STATE = 2 ∧ s.rd0 OW_STATUS_TARGET = k ∧ s.owner = was ∧ (s.rd OW_STATUS_STATE = 2 ∨ lapsed) then
    let t := if lapsed then (s.unflag OW_EVENT_LAPSED).unrecord 0x03 else s
    let t := (t.setOwner k 1).wr OW_STATUS_CAUSE 5
    (t.owEvent OW_EVENT_HANDOVER).record 0x02 0x02 (was + k * 16)
  else s.owFail

/-- OFFER_LAPSE (R400). -/
def execOfferLapse (s : State) : Host.Outcome State Fault Refusal :=
  match s.vis.offerLapse with
  | none => .next s
  | some c =>
    if s.rd OW_STATUS_STATE ≠ 2 ∨ s.clk.lapse < c then .next s
    else
      let t := s.record 0x02 0x03 (s.rd OW_STATUS_TARGET)
      let t := (t.wr OW_STATUS_STATE 1).wr OW_STATUS_TARGET 0xF
      .next ({ t with vis := { t.vis with offerLapse := none, lapsed := some s.cyc } }.owEvent OW_EVENT_LAPSED)

/-- A write of OW_LEASE (R401): a refresh, or a lease set anew, counts from now. -/
def owLeaseOp (r : Requester) (x : Nat) (s : State) : State :=
  if !s.isOwner r then owForbid r s
  else
    let anew := bit x 31 || s.rd OW_LEASE_LEASE_MS == 0
    let t := s.swPut 0x20014 x
    if anew then { t with vis := { t.vis with leaseFrom := s.cyc, leaseWas := s.cyc } } else t

/-- LEASE_LAPSE (R401): a lease counts in units of 1,000,000 cycles. -/
def execLeaseLapse (s : State) : Host.Outcome State Fault Refusal :=
  let ms := s.rd OW_LEASE_LEASE_MS
  if ms = 0 ∨ s.cyc < s.vis.leaseFrom + ms * 1000000 then .next s else .next (loseOwner 3 s)

/-- SEAT_ABSENT (R401): the owner's seat has ceased to be present. -/
def execSeatAbsent (s : State) : Host.Outcome State Fault Refusal :=
  if s.owner = 0xF ∨ s.present s.owner then .next s else .next (loseOwner 2 s)

/-- OW_REVOKE (R401): only a steward core acting as itself. -/
def owRevokeOp (r : Requester) (s : State) : State := if s.asCore r then loseOwner 4 s else owForbid r s

/-- A command register of the page: a write by one who may make it is the command where bit 0 is set, any other is refused (R404). -/
def owCommand (may : Bool) (r : Requester) (x : Nat) (op : State → State) (s : State) : State :=
  if !may then owForbid r s else if bit x 0 then op s else s

/-- Writes of the OW_ page (R404): OW_STATUS and OW_CNT take none. -/
def owWrite (r : Requester) (o x : Nat) (s : State) : State :=
  let seated := s.seat r != 0xF && s.present (s.seat r)
  if o = 4 then owCommand seated r x (owClaimOp r) s
  else if o = 8 then owCommand (s.isOwner r) r x (owReleaseOp r) s
  else if o = 0xC then owOfferOp r (x % 16) s
  else if o = 0x10 then owCommand seated r x (owAcceptOp r) s
  else if o = 0x14 then owLeaseOp r x s
  else if o = 0x18 then
    if s.isOwner r then (s.swPut 0x20018 x).wr OW_HO_HO_MS (max 1 (x % 65536)) else owForbid r s
  else if o = 0x1C then (if s.asCore r then s.swPut 0x2001C x else owForbid r s)
  else if 0x20 ≤ o ∧ o < 0x30 then
    match r with
    | .core c => if o = 0x20 + 4 * c.val then s.swPut (0x20000 + o) x else owForbid r s
    | _ => owForbid r s
  else if o = 0x30 then owCommand (s.asCore r) r x (owRevokeOp r) s
  else if o = 0x34 ∧ s.mayWrite r then s.swPut (0x20000 + o) x
  else owForbid r s

/-- Reads of the OW_ page: PRESENT as it stood at the start of the cycle (R11). -/
def owRead (o : Nat) (s : State) : Option (Nat × State) :=
  if o = 0 then some (setBits (s.word0 0x20000) 23 16 s.start.presentMask, s) else none

end Sys2Proof.Machine
end

