-- ==== Sys2Proof/Machine/Pair.lean ====
section
/-!
DEFINITION. The redundant pair (19_redundant_pair.md): the interlock, the pair states and roles, the twin-link messages, the
ledger, the authority of the active module's input set, the state transfer, claims, reverts and the PR_ page.
-/
namespace Sys2Proof.Machine

/-! ### Conditions and events -/

/-- Pair operation: PD10 is ON and PR_CTRL.EN is set; without it the module is ALONE (R452, R457). -/
def State.pairOp (s : State) : Bool := s.dom 10 == 1 && s.on PR_CTRL_EN

/-- The module is in SERVICE. -/
def State.inService (s : State) : Bool := s.rd BT_STATUS_STATE == 6

/-- A present and compatible partner (R458). -/
def State.partnerOk (s : State) : Bool := s.on PR_STATUS_PARTNER && s.on PR_STATUS_COMPAT

/-- A standby: STANDBY_SYNC, STANDBY_INSTEP, or REVERTING without the claim. -/
def State.standby (s : State) : Bool :=
  s.pairState == 2 || s.pairState == 3 || (s.pairState == 5 && !s.pr.wasActive)

/-- Set a PR_EVENT bit and raise the pair event (R483). -/
def State.prEvent (s : State) (f : Fld) : State := s.event f ES_PR

/-- An event record of the pair controller (R482). -/
def State.prRecord (s : State) (code data : Nat) : State := s.record 0x10 code data

/-! ### The interlock (R449, R451, R452) -/

/-- ILK_OUT: in SERVICE while the module holds the claim and its watchdog has not fired (R449, R452). -/
def State.ilkWanted (s : State) : Bool :=
  s.inService && !s.on IC_STATUS_FATAL && !s.on PR_STATUS_NOCLAIM && s.holdsClaim

/-- ILK_OUT and OEN_EXT follow the state: module B's OEN_EXT gives way to an active ILK_IN (R451). The transmit gate follows
OEN_EXT in the next cycle (R275). -/
def State.pairPins (s : State) : State :=
  let out := s.ilkWanted
  let oen := out && !(s.isB && s.on PR_STATUS_ILK_IN)
  let s := s.wr PR_STATUS_ILK_OUT (b2n out)
  let s := s.wr PR_STATUS_BLOCKED (b2n (s.pairState == 4 && out && s.isB && s.on PR_STATUS_ILK_IN && s.on PR_STATUS_BLOCKED))
  if s.on PR_STATUS_OEN_EXT = oen then s
  else ((s.wr PR_STATUS_OEN_EXT (b2n oen)).wr PB_STATUS_GATE_OPEN (b2n oen)).binOpen 0xB 0 oen false s.nowStamp

/-! ### Pair states (R457) -/

/-- What a pass of the state transfer starts with on a standby; of an empty map every group has been installed (R472). -/
def State.newPass (s : State) : State :=
  let none' := s.smGroups.isEmpty
  { s.wr PR_STATUS_XFER_DONE (b2n none') with pr := { s.pr with
      syncAt := some s.clk.lapse, installed := [], parts := [], doneAt := if none' then some s.tickG else none, doneRun := 0 } }

/-- Entry into STANDBY_SYNC. -/
def State.beginSync (s : State) : State :=
  let s := (s.newPass.wr PR_STATUS_MATCH_RUN 0).wr PR_STATUS_MIS_100 0
  { s with pr := { s.pr with
      mis := [], detected := none, gr := none, wasActive := false, standbyFrom := s.tickG, checked := none, missed := false, revDue := false
      reqAt := none, pass := none } }

/-- Frames pending without a listing count as accepted in tick `g` (R474). -/
def State.listPending (s : State) (g : Nat) : State :=
  { s with pr := { s.pr with
      goose := s.pr.goose.map (fun (n : GNote) =>
        if n.listed ∨ g < n.tick then n else { n with listed := true, tick := g, at' := some (g + 2) }) } }

/-- Entry into ACTIVE. What the partner's set records say of sets that are still open stays (R467, R474); after a revert the listing of
the tick before G_r is the partner's, and what it does not list is this module's (R465, R477; log entry 79). -/
def State.beginActive (s : State) (revert : Bool) : State :=
  let t := { s with pr := { s.pr with
      detected := none, gr := none, wasActive := false, revDue := false, reqAt := none, syncAt := none } }
  if revert then t else t.listPending s.tickG

/-- Enter a pair state: the record STATE and PR_EVENT.STATE, and the pads follow. -/
def State.prEnter (s : State) (new : Nat) : State :=
  let old := s.pairState
  if old = new then s
  else
    let s := ((s.wr PR_STATUS_STATE new).prEvent PR_EVENT_STATE).prRecord 0x01 (new + old * 16)
    let s :=
      if new = 2 then s.beginSync
      else if new = 4 then s.beginActive (old == 5 && !s.pr.wasActive)
      else if new = 3 then
        { s with pr := { s.pr with
            stepFrom := s.clk.lapse, standbyFrom := if old = 5 then s.pr.gr.getD s.tickG else s.pr.standbyFrom, gr := none
            missed := false, wasActive := false } }
      else s
    s.pairPins

/-- A claim: the record CLAIM and PR_EVENT.CLAIM (R474, R477, R482). -/
def State.claimRecord (s : State) (instep : Bool) (cause : Nat) : State :=
  (s.prEvent PR_EVENT_CLAIM).prRecord 0x02 (b2n instep + cause * 2)

/-- A release: the record RELEASE and PR_EVENT.CLAIM (R459, R477). -/
def State.releaseRecord (s : State) (cause : Nat) : State := (s.prEvent PR_EVENT_CLAIM).prRecord 0x03 cause

/-- The roles at entry into SERVICE from SEEKING (R459). -/
def State.serviceRole (s : State) : State :=
  if s.partnerOk ∧ (s.pr.peer = 4 ∨ s.pr.peer = 0) ∧ s.pr.peerBoot = 6 then s.prEnter 2
  else (s.prEnter (if s.partnerOk then 4 else 0)).claimRecord false 3

/-- Entry into SERVICE as the pair sees it. -/
def State.pairService (s : State) : State := (if s.pairState = 1 then s.serviceRole else s).pairPins

/-- Entry into DISCOVER: SEEKING, a fresh proposal and the first HELLO (R456–R458). -/
def State.pairDiscover (s : State) : State :=
  if s.pairOp then
    let (n, s) := s.fresh
    { s.prEnter 1 with pr := { (s.prEnter 1).pr with
        proposal := n % 65536, helloAt := some s.clk.lapse, incompat := false, paired := false } }
  else s

/-- The roles as the partner's report changes (R459); a module A that has not claimed and whose partner stays ACTIVE past G_r
returns to STANDBY_INSTEP (R477). -/
def State.reportRole (s : State) : State :=
  let st := s.pairState
  if (st = 4 ∨ st = 0) ∧ s.isB ∧ s.pr.peer = 4 ∧ s.on PR_STATUS_ILK_IN then (s.prEnter 2).releaseRecord 2
  else if st = 0 ∧ s.inService ∧ s.pairOp then s.prEnter 4
  else if st = 5 ∧ !s.pr.wasActive ∧ s.pr.peer = 4 ∧ s.pr.gr.any (fun g => decide (g < s.tickG)) then s.prEnter 3
  else s

/-- The partner is absent, or counts as absent (R457, R458). -/
def State.absentRole (s : State) : State :=
  if s.pairState = 4 ∨ (s.pairState = 5 ∧ s.pr.wasActive) then s.prEnter 0 else s

/-! ### Messages (R454, R455, R458) -/

def mType (b : List Byte) : Nat := leAt b 0 1
def msgState (b : List Byte) : Nat := bits (leAt b 1 1) 6 4
def mPart (b : List Byte) : Nat := leAt b 1 1 % 16
def mLen (b : List Byte) : Nat := leAt b 2 2
def mSeq (b : List Byte) : Nat := leAt b 4 4
def mEpoch (b : List Byte) : Nat := leAt b 14 2
def mBody (b : List Byte) : List Byte := slice b 16 (mLen b)

/-- The grid tick that a message's header names; the seconds continue this module's own. -/
def State.mTick (s : State) (b : List Byte) : Nat :=
  (s.tickG / 4800 / 2 ^ 32 * 2 ^ 32 + leAt b 8 4) * 4800 + leAt b 12 2 % 8192

/-- The pair state that a message reports: HELLO of a module whose watchdog has fired reports STANDBY_SYNC (R453). -/
def State.reported (s : State) (kind : Nat) : Nat := if kind = 1 ∧ s.on PR_STATUS_NOCLAIM then 2 else s.pairState

/-- The header of a message (R455). -/
def State.header (s : State) (m : TwinOut) : List Byte :=
  leBytes 1 m.kind ++ leBytes 1 (b2n s.isB * 128 + s.reported m.kind * 16 + m.part) ++ leBytes 2 m.payload.length ++
    leBytes 4 s.pr.mseq ++ leBytes 4 m.sec ++ leBytes 2 m.tick ++ leBytes 2 s.pr.epoch

/-- A message enters the Hall for twin port T`k`, untagged and in class 7 (R454). -/
def twinFrame (b : List Byte) (k : Nat) (s : State) : State :=
  let l := beBytes 6 (Config.partnerMac k) ++ beBytes 6 (s.mac (16 + k)) ++ beBytes 2 0x88B5 ++ b
  let l := l ++ List.replicate (60 - l.length) 0
  let f : Frame := {
    octets := l, len := l.length + 4, stamp := s.nowStamp, stamp0 := (s.tb 0).val / uSt, base := s.gov, ingress := pTwin, cls := 7 }
  (hallEnter f [16 + k] 7 s).2

/-- Send a message on both twin ports, or a bundle message on one (R454). -/
def sendTwin (m : TwinOut) (s : State) : State :=
  let b := s.header m ++ m.payload
  let s := { s with pr := { s.pr with mseq := (s.pr.mseq + 1) % 2 ^ 32 } }
  if m.single then twinFrame b (if s.link 16 = 2 then 0 else 1) s else twinFrame b 1 (twinFrame b 0 s)

/-- Messages whose cycle has come leave. -/
def State.twinCycle (s : State) : State :=
  let now := s.pr.out.filter (fun (m : TwinOut) => decide (m.due ≤ s.cyc))
  if now.isEmpty then s
  else
    let t := { s with pr := { s.pr with out := s.pr.out.filter (fun (m : TwinOut) => decide (s.cyc < m.due)) } }
    if t.dom 10 = 1 then now.foldl (fun (u : State) m => sendTwin m u) t else t

/-- Each change of PARTNER sets PR_EVENT.PARTNER (R458). -/
def State.setPartner (s : State) (v : Bool) : State :=
  if s.on PR_STATUS_PARTNER = v then s else (s.wr PR_STATUS_PARTNER (b2n v)).prEvent PR_EVENT_PARTNER

/-- A message of type `kind` arrives: whether it is taken, and the state after its common effects: a message of another EPOCH
and a second copy are discarded, any other shows the partner present. BUNDLE_DATA and BUNDLE_END come once and have no second copy
(R454, R458). -/
def twinTake (kind : Nat) (m : TwinRx) (s : State) : Bool × State :=
  let b := m.octets
  let bundle := decide (0x10 ≤ kind)
  let once := decide (0x11 ≤ kind)
  if s.dom 10 ≠ 1 ∨ mType b ≠ kind ∨ (!bundle ∧ !s.on PR_CTRL_EN) then (false, s)
  else if !bundle ∧ kind ≠ 1 ∧ mEpoch b ≠ s.pr.epoch then (false, s)
  else if !once ∧ s.pr.seen.contains (mSeq b) then (false, s.inc PR_CNT5_TWIN_DUP)
  else
    let seen := if once then s.pr.seen else (mSeq b :: s.pr.seen).take 1024
    let s := { s with pr := { s.pr with seen := seen, lastRx := s.clk.lapse, peer := msgState b } }
    (true, s.setPartner true)

/-- The payload of a HELLO (R458). -/
def State.helloBody (s : State) : List Byte :=
  leBytes 1 (s.reported 1) ++ leBytes 1 (s.rd BT_STATUS_STATE) ++ leBytes 1 (b2n s.isB) ++ leBytes 1 0 ++
    leBytes 4 (s.rd BT_FW_VER_FW_VER) ++ leBytes 8 s.boot.imgId ++ leBytes 2 s.pr.proposal

/-- HELLO_SEND (R456): every 1 ms from entry into DISCOVER. -/
def execHelloSend (s : State) : Host.Outcome State Fault Refusal :=
  whileOn 10 s <|
  match s.pr.helloAt with
  | some t =>
    if s.clk.lapse < t ∨ !s.pairOp then .next s
    else
      .next ({ s with pr := { s.pr with helloAt := some (t + uMs) } }.twinQueue
        { due := s.cyc, kind := 1, payload := s.helloBody })
  | none => .next s

/-- What of a HELLO differs: FW_VER, IMG_ID, and an equal PAIR_ID (R458, R482). -/
def State.helloMisfit (s : State) (p : List Byte) : Nat :=
  b2n (leAt p 4 4 != s.rd BT_FW_VER_FW_VER) + b2n (leAt p 8 8 != s.boot.imgId) * 2 +
    b2n (bit (leAt p 2 1) 0 == s.isB) * 4

/-- A HELLO of a compatible partner: the first of a pairing sets EPOCH (R458). -/
def helloGood (p : List Byte) (s : State) : State :=
  let s := s.wr PR_STATUS_COMPAT 1
  let s := if s.pr.paired then s
    else { s with pr := { s.pr with paired := true, epoch := (max s.pr.proposal (leAt p 16 2) + 1) % 65536 } }
  s.reportRole

/-- A HELLO of an incompatible partner, which counts as absent (R458). -/
def helloBad (misfit : Nat) (s : State) : State :=
  let s := (s.wr PR_STATUS_COMPAT 0).absentRole
  if s.pr.incompat then s
  else ({ s with pr := { s.pr with incompat := true } }.prEvent PR_EVENT_INCOMPAT).prRecord 0x08 misfit

/-- HELLO_RX (R458, R459). -/
def execHelloRx (m : TwinRx) (s : State) : Host.Outcome State Fault Refusal :=
  whileOn 10 s <|
  let (ok, t) := twinTake 1 m s
  if ok then
    let p := mBody m.octets
    let t := { t with pr := { t.pr with peer := leAt p 0 1 % 8, peerBoot := leAt p 1 1 % 16 } }
    if t.helloMisfit p = 0 then .next (helloGood p t) else .next (helloBad (t.helloMisfit p) t)
  else .next t

/-- PARTNER_TIMEOUT (R458): 10 ms without a message. -/
def execPartnerTimeout (s : State) : Host.Outcome State Fault Refusal :=
  whileOn 10 s <|
  if s.on PR_STATUS_PARTNER ∧ s.pr.lastRx + 10 * uMs < s.clk.lapse then
    let (n, t) := s.fresh
    let t := { t with pr := { t.pr with
      seen := [], paired := false, incompat := false, proposal := n % 65536, pass := none } }
    .next ((t.setPartner false).wr PR_STATUS_COMPAT 0).absentRole
  else .next s

/-! ### The claim watchdog (R452, R453) -/

/-- The tick record of the tick raised before the current one is owed and not complete: by a module in pair operation whose PD10 is not
dark (R452). -/
def State.recordOwed (s : State) : Bool :=
  (s.dom 10 == 1 || s.dom 10 == 2) && s.on PR_CTRL_EN && s.inService && s.holdsClaim && s.clk.prevTick.any (fun n => s.owned? n && s.pr.fed != some n)

/-- CLAIM_WATCHDOG (R452, R453), in PD1: by cycle 10,000 the tick record of the tick before is not complete. -/
def execClaimWatchdog (s : State) : Host.Outcome State Fault Refusal :=
  whileOn 1 s <|
  if s.recordOwed ∧ 10000 ≤ s.tickCy ∧ !s.on PR_STATUS_NOCLAIM then
    .next (((s.wr PR_STATUS_NOCLAIM 1).prEnter 2).pairPins.prRecord 0x07 0)
  else .next s

/-! ### The tick record (R460, R468) -/

/-- Insert a hand-over in order of cycle and then of lane. -/
def insHand (h : Hand) : List Hand → List Hand
  | [] => [h]
  | x :: t => if x.cyc < h.cyc ∨ (x.cyc = h.cyc ∧ x.lane ≤ h.lane) then x :: insHand h t else h :: x :: t

/-- CMD of trip stages 0–11. -/
def State.tripBits (s : State) : Nat := (List.range 12).foldl (fun a k => a + b2n (s.on (PB_TRIP_CMD.i k)) * 2 ^ k) 0

/-- FORCE_DIGEST: CRC-32C over the 64 force entries (R460). -/
def State.forceDigest (s : State) : Nat := crc32c ((List.range 64).flatMap (fun i => slice (s.frc i).bytes 0 32))

/-- OUT_DIGEST of tick `g`, ending with its TRIP bits (R468). -/
def State.outDigest (s : State) (g trips : Nat) : Nat :=
  let hs := (s.pr.hands.filter (fun (h : Hand) => h.tick == g)).foldl (fun l h => insHand h l) []
  crc32c (hs.flatMap (fun h => h.bytes) ++ leBytes 2 trips)

/-- Publication entries of tick `g` (R460). -/
def State.pubEntries (s : State) (g : Nat) : List (List Byte) :=
  (s.pr.pubs.filter (fun p => p.1 == g)).map (fun p =>
    let c := s.cb p.2
    leBytes 4 p.2 ++ leBytes 4 c.st ++ leBytes 4 c.sq)

/-- GOOSE entries of tick `g` (R460). -/
def State.gooseEntries (s : State) (g : Nat) : List (List Byte) :=
  (s.pr.goose.filter (fun (n : GNote) => n.tick == g && n.listed)).map (fun n =>
    leBytes 2 (n.sub % 8192 + b2n n.depart * 32768) ++ leBytes 2 0 ++ leBytes 4 n.st)

/-- Send the tick record of tick `g` in parts (R460). -/
def sendRecord (g due trips out frc : Nat) : Nat → Nat → List (List Byte) → List (List Byte) → State → State
  | 0, _, _, _, s => s
  | n + 1, part, ps, gs, s =>
    let p := ps.take 340
    let q := gs.take 500
    let last := decide (ps.length ≤ 340) && decide (gs.length ≤ 500)
    let body := leBytes 4 out ++ leBytes 2 trips ++ leBytes 1 (b2n last) ++ leBytes 1 0 ++ leBytes 4 frc ++ leBytes 12 0 ++
      leBytes 2 p.length ++ leBytes 2 q.length ++ p.flatten ++ q.flatten
    let s := s.twinQueue
      { due := due, kind := 2, part := part % 16, sec := g / 4800 % 2 ^ 32, tick := g % 4800, payload := body }
    if last then s else sendRecord g due trips out frc n (part + 1) (ps.drop 340) (gs.drop 500) s

/-- TICK_RECORD_SEND (R460): the tick record of the tick raised before (log entry 79) is sent in cycle 16 of the new tick by the
module that held the claim at that tick's start, and its completion feeds the claim watchdog. It needs the stream engines and the
controller. -/
def tickRecord (s : State) : State :=
  match s.clk.prevTick with
  | none => s
  | some n =>
  let s := { s with pr := { s.pr with trips := ((n, s.tripBits, s.forceDigest) :: s.pr.trips).take 8 } }
  if !s.owned? n ∨ s.on PR_STATUS_NOCLAIM ∨ s.dom 6 ≠ 1 ∨ s.dom 10 ≠ 1 then s
  else
    let s := { s with pr := { s.pr with fed := some n } }.listPending n
    if s.pairState = 0 then s
    else sendRecord n (s.cyc + 16) s.tripBits (s.outDigest n s.tripBits) s.forceDigest 16 0 (s.pubEntries n) (s.gooseEntries n) s

/-- A REVERT_REQ that is due leaves at the tick-start event of tick `g` and names G_r (R476). -/
def sendRevert (g : Nat) (s : State) : State :=
  if s.pr.revDue ∧ s.pairState = 3 then
    { s with pr := { s.pr with revDue := false, gr := some (g + 8), reqAt := some s.clk.raised, ackCause := 0 } }.twinTick 9
      (g + 8) []
  else s

/-- The pair controller at the tick-start event of grid tick `g` (R460, R465–R467, R469, R476). -/
def pairTick (g : Nat) (s : State) : State :=
  if !s.pairOp then s
  else
    let s := tickRecord s
    let s := { s with pr := { s.pr with own := ((g, s.ownsTick g) :: s.pr.own).take 8 } }
    let s := sendRevert g s
    let mis := s.pr.mis.filter (fun t => decide (g < t + 101))
    let s := if s.pairOn then s.wr PR_STATUS_MIS_100 mis.length else s
    { s with pr := { s.pr with
        mis := mis, hands := s.pr.hands.filter (fun (h : Hand) => decide (g < h.tick + 4))
        pubs := s.pr.pubs.filter (fun p => decide (g < p.1 + 4)), trips := s.pr.trips.filter (fun p => decide (g < p.1 + 4))
        asked := s.pr.asked.filter (fun p => decide (g < p.1 + 8))
        sets := s.pr.sets.filter (fun (r : SetRec) => decide (g < r.tick + 16)) } }

/-! ### A tick record arrives (R463, R465, R469, R470, R472, R478) -/

/-- PR_OFFSET (R478): the ingress stamp less the link delay and the record's own stamp, in ns. -/
def pairOffset (m : TwinRx) (s : State) : State :=
  let p := 16 + m.port.val
  let d := (s.stampAgo 0 m.ago : Int) - (s.rd (HC_PC_RX_LAT.i p) : Int) - (s.rd (HC_PC_LDLY.i p) : Int) -
    (stampAt (mBody m.octets) 12 : Int)
  let ns := (d + 32768) / 65536
  let s := s.wrS PR_OFFSET_OFFSET ns
  if 500 < ns.natAbs then s.prEvent PR_EVENT_OFFSET else s

/-- A publication entry sets stNum and sqNum of its control block (R470). -/
def pubFix (e : List Byte) (s : State) : State :=
  let n := leAt e 0 2 % 4096
  let c := s.cb n
  if c.st = leAt e 4 4 ∧ c.sq = leAt e 8 4 then s
  else (s.setCb n { c with st := leAt e 4 4, sq := leAt e 8 4 }).inc PR_CNT4_PUB_FIX

/-- Ask the active module for records or members, at most 100 entries a request (R463–R465). -/
def askCopies (g : Nat) : Nat → List Nat → State → State
  | 0, _, s => s
  | n + 1, es, s =>
    if es.isEmpty then s
    else
      let p := es.take 100
      let s := s.twinTick 4 g (leBytes 2 p.length ++ p.flatMap (fun e => leBytes 4 e))
      let s := { s with pr := { s.pr with asked := s.pr.asked ++ [(g, 0, p)] } }
      askCopies g n (es.drop 100) (s.count PR_CNT1_COPY_REQ p.length)

/-- A GOOSE entry of the tick record of tick `g`: this module's own acceptance is listed, a departure is marked, and any other
entry is asked for (R465). Answers the subscription to ask for. What is listed stands in the order of the listing. -/
def gooseEntry (g : Nat) (e : List Byte) (s : State) : Option Nat × State :=
  let sub := leAt e 0 2 % 8192
  let dep := bit (leAt e 0 2) 15
  let st := leAt e 4 4
  let mine := fun (n : GNote) => n.sub == sub && n.depart == dep && (dep || n.st == st) && !n.listed
  match s.pr.goose.find? mine with
  | some n =>
    (none, { s with pr := { s.pr with
      goose := s.pr.goose.erase n ++ [{ n with listed := true, tick := g, at' := some (g + 2) }] } })
  | none =>
    let ms := if dep then
        match s.sub? sub with
        | some x => (s.mapOf (s.entryNow x)).filterMap (fun m =>
            let i := leAt m 4 2 % 32768
            if s.slottedSlot i then some (i, ([] : List Byte), 0) else none)
        | none => []
      else []
    let n : GNote := { tick := g, sub := sub, st := st, depart := dep, frame := 2 ^ 41 + (g * 8192 + sub) * 2 ^ 32 + st, marks := ms, listed := true,
                       at' := some (g + 2), want := !dep }
    (if dep then none else some (2 ^ 31 + sub), { s with pr := { s.pr with goose := s.pr.goose ++ [n] } })

/-- The GOOSE entries of a part. -/
def gooseList (g : Nat) (es : List (List Byte)) (s : State) : State :=
  let (ask, s) := es.foldl (fun (a : List Nat × State) e =>
    let (x, t) := gooseEntry g e a.2
    (a.1 ++ x.toList, t)) ([], s)
  askCopies g 16 ask s

/-- A matching tick: in STANDBY_SYNC the sixteenth in a row since XFER_DONE puts the module in step (R472). -/
def tickMatch (g : Nat) (s : State) : State :=
  let s := s.wr PR_STATUS_MATCH_RUN (satAdd 8 (s.rd PR_STATUS_MATCH_RUN) 1)
  match s.pr.doneAt with
  | some d =>
    let n := if d ≤ g then s.pr.doneRun + 1 else 0
    let s := { s with pr := { s.pr with doneRun := n } }
    if s.pairState = 2 ∧ 16 ≤ n then (s.prRecord 0x05 (min 65535 (s.tickG - d))).prEnter 3 else s
  | none => s

/-- A mismatch; the third within 100 ticks puts a module that was in step out of step (R469). -/
def tickMismatch (g : Nat) (s : State) : State :=
  let s := ((s.inc PR_CNT3_MISMATCH).prEvent PR_EVENT_MISMATCH).wr PR_STATUS_MATCH_RUN 0
  let mis : List Nat := g :: s.pr.mis.filter (fun t => decide (g < t + 100))
  let s : State := { s.wr PR_STATUS_MIS_100 (min 255 mis.length) with pr := { s.pr with mis := mis, doneRun := 0 } }
  if s.pairState ≠ 2 ∧ 3 ≤ mis.length then
    (((s.prEvent PR_EVENT_OUT_OF_STEP).prRecord 0x04 (min 255 mis.length)).prEnter 2)
  else s

/-- 64 ticks after XFER_DONE without a run of 16 a new pass begins (R472). -/
def State.resync (s : State) : State :=
  match s.pr.doneAt with
  | some d => if s.pairState = 2 ∧ d + 64 ≤ s.tickG then s.newPass.inc PR_CNT3_RESYNC else s
  | none => s

/-- Compare the digests of tick `g`, as they stood at its end, with those of its tick record (R469). -/
def compareTick (g : Nat) (p : List Byte) (s : State) : State :=
  let (trips, frc) := ((s.pr.trips.find? (fun x => x.1 == g)).map (fun x => x.2)).getD (s.tripBits, s.forceDigest)
  let same := s.outDigest g trips == leAt p 0 4 && frc == leAt p 8 4
  (if same then tickMatch g s else tickMismatch g s).resync

/-- In STANDBY_SYNC the trip stages take CMD from the TRIP bits (R470). -/
def followTrips (b : Nat) (s : State) : State :=
  if s.pairState = 2 then (List.range 12).foldl (fun (t : State) k => t.setCmd k (bit b k)) s else s

/-- The GOOSE entries of a tick record's part. -/
def recordGoose (p : List Byte) : List (List Byte) :=
  (List.range (leAt p 26 2)).map (fun i => slice p (28 + 12 * leAt p 24 2 + 8 * i) 8)

/-- What a standby does with a part of the tick record of tick `g` (R463, R465, R469, R470, R478). -/
def followRecord (m : TwinRx) (g : Nat) (p : List Byte) (t : State) : State :=
  let t := if mPart m.octets = 0 then pairOffset m t else t
  let t := (List.range (leAt p 24 2)).foldl (fun (u : State) i => pubFix (slice p (28 + 12 * i) 12) u) t
  let t := gooseList g (recordGoose p) t
  if bit (leAt p 6 1) 0 then
    let t := { t with pr := { t.pr with recs := (g :: t.pr.recs).take 16 } }
    compareTick g p (followTrips (leAt p 4 2 % 4096) t)
  else t

/-- TICK_RECORD_RX (R463, R465, R469, R470, R478). A module that has claimed since still takes the listing of a tick that was its
partner's (R465, R467, R477). -/
def execTickRecordRx (m : TwinRx) (s : State) : Host.Outcome State Fault Refusal :=
  whileOn 10 s <|
  let (ok, t) := twinTake 2 m s
  let g := t.mTick m.octets
  if !ok then .next t
  else if t.standby then .next (followRecord m g (mBody m.octets) t)
  else if !t.owned? g then .next (gooseList g (recordGoose (mBody m.octets)) t)
  else .next t

/-! ### Set records and copies (R461–R465) -/

/-- The entries of a set record's payload. -/
def setEntries (p : List Byte) : List SetEntry :=
  let n := leAt p 2 2
  (((List.range n).foldl (fun (a : List SetEntry × Nat) i =>
    let o := 8 + 8 * i
    let c := bit (leAt p (o + 5) 1) 0
    let e : SetEntry := {
      stream := leAt p (o + 6) 2 % 1024, digest := leAt p o 4, state := leAt p (o + 4) 1 % 16, carried := c
      body := if c then slice p (8 + 8 * n + 64 * a.2) 64 else [] }
    (a.1 ++ [e], if c then a.2 + 1 else a.2)) ([], 0)).1)

/-- What a standby does at once for one entry: its own sample gives way, or a copy is asked for (R463). -/
def adoptEntry (g : Nat) (e : SetEntry) (s : State) : Option Nat × State :=
  let r := (s.record? e.stream g).filter (fun r => rState r == recPresent)
  if e.carried then (none, s)
  else if e.state = recPresent then
    match r with
    | some r => if recordDigest r = e.digest then (none, s) else (some e.stream, s)
    | none => (some e.stream, s)
  else
    match r with
    | some r => (none, (s.store (recAddr e.stream g) (splice r 54 [0])).inc PR_CNT2_DROP_AUTH)
    | none => (none, s)

/-- A part of a set record joins what has arrived. -/
def State.addSet (s : State) (g grp : Nat) (es : List SetEntry) (last : Bool) : State :=
  let here := fun (r : SetRec) => r.tick == g && r.group == grp
  let old := ((s.pr.sets.find? here).map (fun r => r.entries)).getD []
  { s with pr := { s.pr with sets := s.pr.sets.filter (fun r => !here r) ++
      [{ tick := g, group := grp, entries := old ++ es, full := last }] } }

/-- SET_RECORD_RX (R463): taken up to 32 cy before the closure cycle of the set, by a standby and by a module that has claimed since for a
tick that was its partner's (R467, R474, R477). -/
def execSetRecordRx (m : TwinRx) (s : State) : Host.Outcome State Fault Refusal :=
  whileOn 10 s <|
  let (ok, t) := twinTake 3 m s
  let g := t.mTick m.octets
  if ok ∧ (t.standby ∨ !t.owned? g) then
    let p := mBody m.octets
    let grp := leAt p 0 1 % 64
    if t.cycleAt (t.closeOf grp g) < t.cyc + 32 ∨ !t.al.sets.any (fun o => o.tick == g && o.group == grp) then .next t
    else
      let es := setEntries p
      let (ask, t) := es.foldl (fun (a : List Nat × State) e =>
        let (x, u) := adoptEntry g e a.2
        (a.1 ++ x.toList, u)) ([], t)
      .next (askCopies g 16 ask (t.addSet g grp es (bit (leAt p 1 1) 0)))
  else .next t

/-- Bytes 0–9 of the slot form of every mapped member of a subscription, from its last acceptance that waits or the slots (R465). -/
def State.memberCopy (s : State) (g sub : Nat) : List Byte :=
  match s.sub? sub with
  | none => []
  | some x =>
    let notes := s.pr.goose.filter (fun (n : GNote) => n.sub == sub && n.tick == g)
    (s.mapOf (s.entryNow x)).flatMap (fun m =>
      let i := leAt m 4 2 % 32768
      match (notes.reverse.flatMap (fun n => n.marks)).find? (fun k => k.1 == i) with
      | some k => slice k.2.1 0 8 ++ leBytes 2 k.2.2
      | none => slice (s.slot i).latest 0 10)

/-- The answers to the entries of a request, in messages of at most 8,192 bytes (R454, R456). -/
def packCopies (l : List (List Byte)) : List (List Byte) :=
  let p := l.foldl (fun (a : List (List Byte) × List Byte) b =>
    if 8192 < a.2.length + b.length then (a.1 ++ [a.2], b) else (a.1, a.2 ++ b)) ([], [])
  p.1 ++ [p.2]

/-- COPY_REQ_RX (R464, R465): the requested records or members, in the order asked for, in consecutive parts. -/
def execCopyReqRx (m : TwinRx) (s : State) : Host.Outcome State Fault Refusal :=
  whileOn 10 s <|
  let (ok, t) := twinTake 4 m s
  if ok ∧ (t.holdsClaim ∨ t.owned? (t.mTick m.octets)) then
    let p := mBody m.octets
    let g := t.mTick m.octets
    let bodies := (List.range (leAt p 0 2)).map (fun i =>
      let e := leAt p (2 + 4 * i) 4
      if bit e 31 then t.memberCopy g (e % 16384) else t.load (recAddr (e % 1024) g) 64)
    .next ((packCopies bodies).zipIdx.foldl (fun (u : State) x => u.twinPart 5 g x.2 x.1) t)
  else .next t

/-- A copied record queues for the network write port (R464). -/
def queueCopy (k : Nat) (r : List Byte) (s : State) : State :=
  let x : Sample := { cyc := s.cyc, port := 18, stream := k, vals := [], smpCnt := 0, synch := 0, stamp := s.nowStamp,
                      sim := false, loc := false, sec := 0, raw := some r }
  { s with al := { s.al with netQ := insSample x s.al.netQ } }

/-- Copied members fill the acceptances that wait for them (R465). -/
def fillMembers (g sub : Nat) (b : List Byte) (s : State) : State :=
  match s.sub? sub with
  | none => s
  | some x =>
    let ms := ((s.mapOf (s.entryNow x)).zipIdx).filterMap (fun (p : List Byte × Nat) =>
      let i := leAt p.1 4 2 % 32768
      if s.slottedSlot i then some (i, slice b (10 * p.2) 8, leAt b (10 * p.2 + 8) 2) else none)
    { s with pr := { s.pr with goose := s.pr.goose.map (fun (n : GNote) =>
        if n.want && n.sub == sub && n.tick == g then { n with want := false, marks := ms } else n) } }

/-- Bytes that a COPY carries for an entry. -/
def State.copyBytes (s : State) (e : Nat) : Nat :=
  if bit e 31 then
    match s.sub? (e % 16384) with
    | some x => 10 * eMapN (s.entryNow x)
    | none => 0
  else 64

/-- Take what a part of a COPY carries for the entries asked for, in order; answers the entries that are still to come. -/
def takeCopies (g : Nat) : List Nat → List Byte → State → List Nat × State
  | [], _, s => ([], s)
  | e :: es, b, s =>
    let n := s.copyBytes e
    if b.length < n then (e :: es, s)
    else if bit e 31 then takeCopies g es (b.drop n) (fillMembers g (e % 16384) (b.take n) s)
    else takeCopies g es (b.drop n) (queueCopy e (b.take n) s)

/-- A part of the answer to request `a` (R464, R465). -/
def takePart (a : Nat × Nat × List Nat) (b : List Byte) (s : State) : State :=
  let t := { s with pr := { s.pr with asked := s.pr.asked.erase a } }
  let (rest, t) := takeCopies a.1 a.2.2 b t
  if rest.isEmpty then t else { t with pr := { t.pr with asked := (a.1, a.2.1 + 1, rest) :: t.pr.asked } }

/-- COPY_RX (R464, R465): the part that the oldest request of its tick expects. -/
def execCopyRx (m : TwinRx) (s : State) : Host.Outcome State Fault Refusal :=
  whileOn 10 s <|
  let (ok, t) := twinTake 5 m s
  let g := t.mTick m.octets
  if ok ∧ (t.standby ∨ !t.owned? g) then
    match t.pr.asked.find? (fun a => a.1 == g && a.2.1 % 16 == mPart m.octets) with
    | some a => .next (takePart a (mBody m.octets) t)
    | none => .next t
  else .next t

/-! ### Forces (R470) -/

/-- The message FORCE of an accepted SET or CLEAR: the entry form, the program's next boundary, the entry's number and the
command. -/
def sendForce (e cmd : Nat) (d : List Byte) (s : State) : State :=
  let g := nextBoundary (s.prg (frPrg d)).bytes s.tickG
  s.twinTick 6 s.tickG (slice d 0 32 ++ leBytes 8 g ++ leBytes 1 e ++ leBytes 1 cmd)

/-- FORCE_MSG_RX (R470): a standby applies the SET or CLEAR as if it had been accepted here at the same moment; at a boundary that
has passed meanwhile it takes effect at once. -/
def execForceMsgRx (m : TwinRx) (s : State) : Host.Outcome State Fault Refusal :=
  whileOn 10 s <|
  let (ok, t) := twinTake 6 m s
  if ok ∧ t.standby then
    let p := mBody m.octets
    let e := leAt p 40 1 % 64
    let t := if leAt p 41 1 = 2 then frcSetOp e (slice p 0 32) t else frcClearOp e t
    .next (if leAt p 32 8 ≤ t.tickG then (forceTake e (t.frc e) t).showForced else t)
  else .next t

/-- Whether a write of LG_FRC_CMD is an accepted SET or CLEAR (R305). -/
def State.frcTaken (s : State) (r : Requester) (v : Nat) : Bool :=
  let d := s.dataBytes 0x800080 8
  s.mayWrite r && (v % 4 == 3 || (v % 4 == 2 && !s.setRefused (s.rd LG_FRC_IDX_IDX % 64) (frPrg d) (frHash d)))

/-- Writes of the LG_ page on a pair (R456, R470): a standby refuses LG_FRC_CMD, the active module reports what it accepts. -/
def lgWritePair (r : Requester) (o v : Nat) (s : State) : State :=
  if o = 0x24 ∧ s.standby then s.lgEvent LG_EVENT_REFUSED
  else
    let t := lgWrite r o v s
    let e := s.rd LG_FRC_IDX_IDX % 64
    if o = 0x24 ∧ s.pairOn ∧ s.frcTaken r v then
      sendForce e (v % 4) (if v % 4 = 2 then s.dataBytes 0x800080 8 else (s.frc e).bytes) t
    else t

/-! ### The state transfer (R471, R472) -/

/-- SYNC_REQ_SEND (R456): at entry into STANDBY_SYNC, then every 100 ms until the first STATE; while a partner is present. -/
def execSyncReqSend (s : State) : Host.Outcome State Fault Refusal :=
  whileOn 10 s <|
  match s.pr.syncAt with
  | some t =>
    if s.clk.lapse < t ∨ s.pairState ≠ 2 ∨ !s.partnerOk then .next s
    else .next ({ s with pr := { s.pr with syncAt := some (s.clk.lapse + 100 * uMs) } }.twinQueue { due := s.cyc, kind := 7 })
  | none => .next s

/-- SYNC_REQ_RX (R472): the active module starts a pass over the map groups in ascending order. -/
def execSyncReqRx (m : TwinRx) (s : State) : Host.Outcome State Fault Refusal :=
  whileOn 10 s <|
  let (ok, t) := twinTake 7 m s
  if ok ∧ t.holdsClaim ∧ t.pairOn then .next { t with pr := { t.pr with pass := some t.smGroups, passOnce := false } } else .next t

/-- Cycle of the next start of slotted task `k` after this one (R219); none within 128 ticks. -/
def State.nextStart (s : State) (k : Nat) : Option Nat :=
  let b := s.task k
  if dueInTick b s.tickG ∧ s.tickCy < tOffset b then some (s.cyc - s.tickCy + tOffset b)
  else ((List.range 128).find? (fun i => dueInTick b (s.tickG + 1 + i))).map
    (fun i => s.cycleAt (tickRep (s.tickG + 1 + i)) + tOffset b)

/-- The run of task `k` in grid tick `g` has ended here. -/
def State.runEnded (s : State) (k g : Nat) : Bool :=
  decide (g < s.tickG) ||
    (decide (g = s.tickG) && s.startedInTick k &&
      !s.ln.runs.any (fun (x : Nat × Run) => x.2.task == k && decide (s.cyc < x.2.start + x.2.cost)))

/-- Write the items of a map entry (R472): units as they are, timers with STATE and expiry instant, LEVEL slots with VALUE,
QUAL and WRITTEN, control blocks with their items, stNum and sqNum. -/
def installItems (e b : List Byte) (s : State) : State :=
  let l := (List.range (smCount e)).map (fun i => (smFirst e + i, i))
  match smKind e with
  | 1 => s.mapStore (addrCluster (smCluster e) + 8 * smFirst e) b
  | 2 => l.foldl (fun (t : State) (p : Nat × Nat) =>
      let x := t.timer p.1
      let d := slice b (16 * p.2) 16
      let y := withState (splice x.bytes 8 (slice d 8 8)) (mState d)
      let sec := (t.now / uS) / 2 ^ 32 * 2 ^ 32 + leAt d 8 4
      t.setTimer p.1 { x with bytes := y, exp := sec * uS + leAt d 12 4 % 2 ^ 20 * uUs }) s
  | 3 => l.foldl (fun (t : State) (p : Nat × Nat) =>
      let o := t.slot p.1
      let d := slice b (32 * p.2) 32
      let y := splice o.latest 0 (slice d 0 10)
      t.setSlot p.1 { bytes := splice y 10 (leBytes 1 (setBits (leAt y 10 1) 2 2 (b2n (sWritten d)))), new := none }) s
  | 4 =>
    let c := s.cb (smFirst e)
    let items := (List.range 128).filterMap (fun i =>
      let d := slice b (8 + 12 * i) 12
      if leAt d 0 1 = 1 then some ({ ty := leAt d 1 1, v := leAt d 4 8, q := leAt d 2 2 } : PubItem) else none)
    s.setCb (smFirst e) { c with
      st := leAt b 0 4, sq := leAt b 4 4, items := if items.isEmpty then none else some items }
  | _ => s

/-- The data of one map entry as it has arrived, in order of offset. -/
def State.arrived (s : State) (grp g i n : Nat) : List Byte :=
  ((List.range (n / 8184 + 1)).filterMap (fun k =>
    (s.pr.parts.find? (fun p => p.1 == grp && p.2.1 == g && p.2.2.1 == i && p.2.2.2.1 == 8184 * k)).map
      (fun p => p.2.2.2.2))).flatten

/-- The last STATE message of a group has arrived: it is installed, or counts in XFER_RETRY (R472). -/
def installGroup (grp g : Nat) (es : List (Nat × List Byte)) (s : State) : State :=
  let bytes := es.foldl (fun a e => a + smBytes e.2) 0
  let inTime := es.all (fun e =>
    s.runEnded (smLast e.2) g &&
      (match s.nextStart (smFirstTask e.2) with
        | some c => decide (s.cyc + 16 + ceilDiv bytes 16 ≤ c)
        | none => true))
  let parts := s.pr.parts.filter (fun p => p.1 != grp)
  if inTime then
    let t := es.foldl (fun (t : State) e => installItems e.2 (s.arrived grp g e.1 (smBytes e.2)) t) s
    let done := insNat grp t.pr.installed
    let t : State := { t with pr := { t.pr with installed := done, parts := parts } }
    if t.smGroups.all (fun x => done.contains x) ∧ !t.on PR_STATUS_XFER_DONE then
      { t.wr PR_STATUS_XFER_DONE 1 with pr := { t.pr with doneAt := some t.tickG, doneRun := 0 } }
    else t
  else { s with pr := { s.pr with parts := parts } }.inc PR_CNT5_XFER_RETRY

/-- STATE_MSG_RX (R472). -/
def execStateMsgRx (m : TwinRx) (s : State) : Host.Outcome State Fault Refusal :=
  whileOn 10 s <|
  let (ok, t) := twinTake 8 m s
  if ok ∧ t.pairState = 2 then
    let p := mBody m.octets
    let g := t.mTick m.octets
    let grp := leAt p 0 2 % 4096
    let t := { t with pr := { t.pr with syncAt := none } }
    if t.pr.installed.contains grp then .next t
    else
      let keep := t.pr.parts.filter (fun x => !(x.1 == grp && x.2.1 != g))
      let t := { t with pr := { t.pr with parts := keep ++ [(grp, g, leAt p 2 2, leAt p 4 4, p.drop 8)] } }
      let es := t.smGroupOf grp
      if es.all (fun e => (t.arrived grp g e.1 (smBytes e.2)).length == smBytes e.2) then .next (installGroup grp g es t)
      else .next t
  else .next t

/-! ### Failure and claim (R473–R475) -/

/-- A standby detects failure of the active module (R473); one whose watchdog has fired never claims (R453). -/
def State.detect (s : State) (cause : Nat) : State :=
  if s.standby ∧ !s.on PR_STATUS_NOCLAIM ∧ s.pr.detected.isNone then
    { s with pr := { s.pr with detected := some (s.clk.raised, cause) } }
  else s

/-- LEDGER_MISS_CHECK (R473): by cycle 20,000 the tick record of the tick before has not arrived; the second in a row is a
failure. -/
def execLedgerMissCheck (s : State) : Host.Outcome State Fault Refusal :=
  whileOn 10 s <|
  match s.clk.prevTick with
  | none => .next s
  | some n =>
    if !s.standby ∨ !s.pairOp ∨ s.tickCy < 20000 ∨ s.pr.checked = some n ∨ n < s.pr.standbyFrom then .next s
    else
      let miss := !s.pr.recs.contains n
      let t := { s with pr := { s.pr with checked := some n, missed := miss } }
      if !miss then .next t
      else
        let t := t.inc PR_CNT0_LEDGER_MISS
        if s.pr.missed then .next (t.detect 2) else .next t

/-- ILK_IN_FALL (R473): a standby detects failure, a blocked module takes the outputs. The pad's level is the carrier's whatever PD1 does. -/
def execIlkInFall (s : State) : Host.Outcome State Fault Refusal :=
  if !s.on PR_STATUS_ILK_IN then .next s
  else if s.runs 1 then .next ((s.wr PR_STATUS_ILK_IN 0).pairPins.detect 1)
  else .next (s.wr PR_STATUS_ILK_IN 0)

/-- ILK_IN_RISE (R451, R477): module B's OEN_EXT falls; in REVERTING module B releases. -/
def execIlkInRise (s : State) : Host.Outcome State Fault Refusal :=
  if s.on PR_STATUS_ILK_IN then .next s
  else if !s.runs 1 then .next (s.wr PR_STATUS_ILK_IN 1)
  else
    let t := (s.wr PR_STATUS_ILK_IN 1).pairPins
    if t.pairState = 5 ∧ t.pr.wasActive ∧ t.isB then .next ((t.prEnter 3).releaseRecord 1) else .next t

/-- A claim in the tick-start cycle: the sets of the tick close at W and its records are this module's (R467, R474). -/
def claimTick (s : State) : State :=
  if s.tickCy = 0 then
    let g := s.tickG
    let was := s.owned? g
    { s with
      pr := { s.pr with own := (g, true) :: s.pr.own.filter (fun x => x.1 != g) }
      al := { s.al with sets := s.al.sets.map (fun (o : OpenSet) =>
        if o.tick = g ∧ !was then { o with close := o.close - 20 * uUs } else o) } }
  else s

/-- STANDBY_CLAIM (R474): in a tick-start cycle after the detection. -/
def execStandbyClaim (s : State) : Host.Outcome State Fault Refusal :=
  whileOn 10 s <|
  match s.pr.detected with
  | some (r, cause) =>
    if s.clk.raised ≤ r ∨ s.tickCy ≠ 0 ∨ !s.standby ∨ s.on PR_STATUS_NOCLAIM then .next s
    else
      let instep := s.pairState != 2
      let blocked := s.isB && s.on PR_STATUS_ILK_IN
      let t := claimTick s
      let t := t.prEnter 4
      let t := if blocked then (t.wr PR_STATUS_BLOCKED 1).inc PR_CNT4_CLAIM_BLOCKED else t
      .next (t.claimRecord instep cause)
  | none => .next s

/-! ### Revert (R476, R477) -/

/-- REVERT_HOLD_EXPIRY (R476): module A has been in step for HOLD_S; REVERT_REQ leaves at its next tick start. -/
def execRevertHoldExpiry (s : State) : Host.Outcome State Fault Refusal :=
  whileOn 10 s <|
  if s.pairState = 3 ∧ !s.isB ∧ s.on PR_CTRL_REVERT_EN ∧ !s.on PR_STATUS_NOCLAIM ∧ !s.pr.revDue ∧ s.pr.reqAt.isNone ∧
      s.pr.stepFrom + s.rd PR_REVERT_HOLD_S * uS ≤ s.clk.lapse then
    .next { s with pr := { s.pr with revDue := true } }
  else .next s

/-- The cause with which module B answers REVERT_REQ for G_r `g` (R476). -/
def State.revertCause (s : State) (g : Nat) : Nat :=
  if s.pairState ≠ 4 ∨ s.on PR_STATUS_BLOCKED then 1
  else if g < s.tickG + 4 then 2
  else if 500 < (s.rdS PR_OFFSET_OFFSET).natAbs then 3
  else 0

/-- REVERT_REQ_RX (R476): module B answers, and enters REVERTING where it accepts. -/
def execRevertReqRx (m : TwinRx) (s : State) : Host.Outcome State Fault Refusal :=
  whileOn 10 s <|
  let (ok, t) := twinTake 9 m s
  if ok ∧ t.isB then
    let g := t.mTick m.octets
    let c := t.revertCause g
    let t := t.twinTick 0xA g (leBytes 1 c)
    if c = 0 then .next ({ t with pr := { t.pr with wasActive := true, gr := some g } }.prEnter 5) else .next t
  else .next t

/-- REVERT_ACK_RX (R476): an accepting answer puts module A into REVERTING; a refusing one is kept. -/
def execRevertAckRx (m : TwinRx) (s : State) : Host.Outcome State Fault Refusal :=
  whileOn 10 s <|
  let (ok, t) := twinTake 0xA m s
  if ok ∧ !t.isB ∧ t.pairState = 3 ∧ t.pr.reqAt.isSome then
    let c := leAt (mBody m.octets) 0 1 % 16
    if c = 0 then .next ({ t with pr := { t.pr with wasActive := false, reqAt := none } }.prEnter 5)
    else .next { t with pr := { t.pr with ackCause := c } }
  else .next t

/-- REVERT_ACK_TIMEOUT (R476): four ticks without an accepting answer. -/
def execRevertAckTimeout (s : State) : Host.Outcome State Fault Refusal :=
  whileOn 10 s <|
  match s.pr.reqAt with
  | some r =>
    if s.pairState = 3 ∧ r + 4 ≤ s.clk.raised then
      .next (({ s with pr := { s.pr with reqAt := none, gr := none, stepFrom := s.clk.lapse } }.prEvent PR_EVENT_REVERT_FAIL).prRecord
        0x06 s.pr.ackCause)
    else .next s
  | none => .next s

/-- REVERT_CLAIM (R477): at its tick start of G_r module A claims. -/
def execRevertClaim (s : State) : Host.Outcome State Fault Refusal :=
  whileOn 10 s <|
  match s.pr.gr with
  | some g =>
    if s.pairState = 5 ∧ !s.pr.wasActive ∧ g = s.tickG ∧ s.tickCy = 0 ∧ !s.on PR_STATUS_NOCLAIM then
      .next ((s.prEnter 4).claimRecord true 4)
    else .next s
  | none => .next s

/-- REVERT_RELEASE_TIMEOUT (R477): 1 tk after its own tick start of G_r module B has not seen ILK_IN and stays ACTIVE. -/
def execRevertReleaseTimeout (s : State) : Host.Outcome State Fault Refusal :=
  whileOn 10 s <|
  match s.pr.gr with
  | some g =>
    if s.pairState = 5 ∧ s.pr.wasActive ∧ g < s.tickG ∧ !s.on PR_STATUS_ILK_IN then
      .next (((s.prEnter 4).prEvent PR_EVENT_REVERT_FAIL).prRecord 0x06 4)
    else .next s
  | none => .next s

/-! ### Serving the bundle (R479) -/

/-- BUNDLE_LEN of the bundle in the boot region. -/
def State.bundleLen (s : State) : Nat := s.loadN (addrBoot + 8) 4

/-- BUNDLE_REQ_RX (R479): the module serves in SERVICE with SERVE_EN, and refuses otherwise. -/
def execBundleReqRx (m : TwinRx) (s : State) : Host.Outcome State Fault Refusal :=
  whileOn 10 s <|
  let (ok, t) := twinTake 0x10 m s
  if ok then
    if t.inService ∧ t.on PR_CTRL_SERVE_EN then
      .next (if t.pr.serve.isSome then t else { t with pr := { t.pr with serve := some (0, t.cyc) } })
    else .next (t.twinQueue { due := t.cyc, kind := 0x12, payload := leBytes 4 0, single := true })
  else .next t

/-- The next part of a bundle that is being served, and its end (R479): a part of 8,184 bytes in 3,719 cy is 2.2 GB/s. -/
def State.serveCycle (s : State) : State :=
  match s.pr.serve with
  | some (o, c) =>
    if s.cyc < c then s
    else
      let n := s.bundleLen
      if o < n then
        let k := min 8184 (n - o)
        { s with pr := { s.pr with serve := some (o + k, s.cyc + 3719) } }.twinQueue
          { due := s.cyc, kind := 0x11, payload := leBytes 4 o ++ s.load (addrBoot + o) k, single := true }
      else
        ({ s with pr := { s.pr with serve := none } }.twinQueue
          { due := s.cyc, kind := 0x12, payload := leBytes 4 n, single := true }).prRecord 0x09 n
  | none => s

/-- The pair controller over one cycle. -/
def State.pairCycle (s : State) : State := s.serveCycle.twinCycle

/-! ### The PR_ page (R481) -/

/-- Before DISCOVER. -/
def State.beforeDiscover (s : State) : Bool := decide (s.rd BT_STATUS_STATE < 5) || s.rd BT_STATUS_STATE == 0xF

/-- Writes of the PR_ page: only the steward cores and the owner seat; SERVE_EN the owner seat only; EN and the state map only
before DISCOVER. -/
def prWrite (r : Requester) (o v : Nat) (s : State) : State :=
  if !s.mayWrite r then s.prEvent PR_EVENT_REFUSED
  else if o = 0 then
    let badEn := bit v 31 != s.on PR_CTRL_EN && !s.beforeDiscover
    let badServe := bit v 29 != s.on PR_CTRL_SERVE_EN && !s.isOwner r
    let v := if badEn then setBits v 31 31 (s.rd PR_CTRL_EN) else v
    let v := if badServe then setBits v 29 29 (s.rd PR_CTRL_SERVE_EN) else v
    let t := s.swPut 0xD00000 v
    if badEn ∨ badServe then t.prEvent PR_EVENT_REFUSED else t
  else if (o = 0x18 ∨ o = 0x1C ∨ o = 0x20) ∧ !s.beforeDiscover then s.prEvent PR_EVENT_REFUSED
  else if o = 0x0C then (s.swPut 0xD0000C v).wr PR_REVERT_HOLD_S (clampN 1 3600 (v % 4096))
  else if o = 0x14 then (s.swPut 0xD00014 v).wr PR_XFER_XFER_KIB (max 1 (v % 65536))
  else s.swPut (0xD00000 + o) v

end Sys2Proof.Machine
end

