-- ==== Sys2Proof/Machine/Boot.lean ====
section
/-!
DEFINITION. From power to service (18_start_to_service.md) and the supplies (21_electrical_package.md R493): boot states,
restarts, firmware download and verification, image headers, domains and self-test, service, the watchdog, and the PM_ and BT_
pages.
-/
namespace Sys2Proof.Machine

/-! ### Boot states and records (R424, R448) -/

def btCold : Nat := 0
def btCellarUp : Nat := 1
def btWait : Nat := 2
def btVerify : Nat := 3
def btConfigure : Nat := 4
def btDiscover : Nat := 5
def btService : Nat := 6
def btFail : Nat := 0xF

/-- The boot state. -/
def State.bt (s : State) : Nat := s.rd BT_STATUS_STATE

/-- Set a PM_EVENT or BT_EVENT bit and raise the power-manager event (R448). -/
def State.pmEvent (s : State) (f : Fld) : State := s.event f ES_PM

/-- An event record of the power manager or boot loader (R448). -/
def State.pmRecord (s : State) (code data : Nat) : State := s.record 0x01 code data

/-- Enter a boot state: BT_STATUS, BT_EVENT.STATE and a STATE record. -/
def State.btEnter (s : State) (n : Nat) : State :=
  (((s.wr BT_STATUS_STATE n).pmEvent BT_EVENT_STATE).pmRecord 0x01 (n + s.rd PM_ENTRY_TRIGGER * 256)).pairPins

/-- Enter BOOT_FAIL with a cause (R436). -/
def State.bootFail (s : State) (cause : Nat) : State := (s.wr BT_STATUS_CAUSE cause).btEnter btFail

/-- Domain `d` loses power: it is dark, dormant or has failed, and its ports enter OFF (R92). A module whose PD10 goes dark is ALONE
(R452, R457). -/
def State.unpower (s : State) (d v : Nat) : State :=
  let t := (s.portsOff d).setDom d v
  if d = 10 ∧ v ≠ 2 ∧ t.pairState ≠ 0 then t.prEnter 0 else t

/-! ### Restarts (R443, R449) -/

/-- Addresses of the DRAM (R33). -/
def inDram (a : Nat) : Bool := decide (a < 0x0200000000)

/-- A warm entry's three conditions (R443): the second fails where PD14 has lost its power-good. -/
def State.warmOk (s : State) : Bool :=
  s.elec.vin && s.dom 14 == 1 && !s.elec.pgLost && s.rd KS_STATUS_LC_NEXT == s.rd KS_STATUS_LC && !s.on CL_STATUS_ROOT_LOST

/-- What lasts over a start: the Cellar with its page and the recorder's ring in it, the NOR, the fuses and the supplies; a
warm entry keeps the DRAM, K_INT and the straps too (R343, R409, R425, R443). PM_ID names the part for good; its strap bits are sampled
again at a cold start (R2, R425, R446). PR_STATUS.ILK_IN is a pad level and stays as the pad is (R449, R481). -/
def State.startReset (s : State) (warm : Bool) : State :=
  let e := s.ev
  let id := s.word PM_ID_DEVICE.addr
  let regs := cput (regReset PM_ID_DEVICE.addr) (s.regs.filter (fun (p : Nat × Word) => p.1 / 0x10000 == 5)) PM_ID_DEVICE.addr
    (BitVec.ofNat 32 (if warm then id else setBits id 2 0 0))
  let t : State := {
    pending := s.pending, cyc := s.cyc, free := s.free, nvm := s.nvm, regs := regs, regs0 := regs
    elec := { s.elec with pgLost := false }
    mem := if warm then s.mem.filter (fun (c : Host.Cell) => inDram c.1) else []
    cl := { s.cl with held := [], retHeld := [] }
    ev := { ring := e.ring, next := e.entered, entered := e.entered, cleared := e.cleared, drained := e.drained, pos := e.pos,
            runs := e.runs, scan := e.scan }
    ks := { fuses := s.ks.fuses, kInt := if warm then s.ks.kInt else 0 } }
  t.wr PR_STATUS_ILK_IN (b2n (s.on PR_STATUS_ILK_IN))

/-- A trigger restarts the module (R443): warm where it asks for that and the conditions hold, cold otherwise. -/
def State.restart (s : State) (trigger : Nat) (wantWarm : Bool) : State :=
  let warm := wantWarm && s.warmOk
  let lc := s.rd KS_STATUS_LC
  let t := (((s.startReset warm).wr PM_ENTRY_KIND (b2n warm)).wr PM_ENTRY_TRIGGER trigger).evRefresh
  let t := t.setDom 0 1
  let t :=
    if warm then
      let t := (((t.setDom 1 1).setDom 14 1).ksShowPkh).wr KS_STATUS_LC lc
      let t := if lc = 0 ∨ lc = 3 then t else t.ksTakeRoot lc
      t.ksRefresh.btEnter btCellarUp
    else t
  { t with regs0 := t.regs }

/-- A trigger of an unpowered module is without effect. -/
def State.tryRestart (s : State) (trigger : Nat) (wantWarm : Bool) : State :=
  if s.elec.vin then s.restart trigger wantWarm else s

/-! ### Supplies and RST_N (R443, R493) -/

/-- VIN_VALID (R328, R443): the Cellar selects VIN and wakes, and a cold entry begins. -/
def execVinValid (s : State) : Host.Outcome State Fault Refusal :=
  if s.elec.vin then .next s
  else
    let t := { s with elec := { s.elec with vin := true }, cl := { s.cl with wakeDue := true } }
    .next ((t.restart 0 false).wr CL_STATUS_SUPPLY 0)

/-- VIN_INVALID (R328, R493): the Cellar selects VBAT; every other domain loses power and the outputs are inactive. -/
def execVinInvalid (s : State) : Host.Outcome State Fault Refusal :=
  if s.elec.vin then
    let t := ({ s with elec := { s.elec with vin := false } }.startReset false).wr CL_STATUS_SUPPLY 1
    .next { t.evRefresh with regs0 := t.evRefresh.regs }
  else .next s

/-- RST_N_LOW (R443): RST_N has been low for 1 µs; a cold entry begins and waits for the release. -/
def execRstNLow (s : State) : Host.Outcome State Fault Refusal :=
  .next ({ s with elec := { s.elec with rst := true } }.tryRestart 1 false)

/-- RST_N_RELEASE (R443, R445). -/
def execRstNRelease (s : State) : Host.Outcome State Fault Refusal := .next { s with elec := { s.elec with rst := false } }

/-- VIO_LOSS (R493): acts as RST_N held low. -/
def execVioLoss (s : State) : Host.Outcome State Fault Refusal :=
  .next ({ s with elec := { s.elec with vio := true } }.tryRestart 1 false)

/-- VIO_RESTORE (R493). -/
def execVioRestore (s : State) : Host.Outcome State Fault Refusal := .next { s with elec := { s.elec with vio := false } }

/-- A domain fails while the module runs, or at power-up (R440, R493): a start that has passed its minimum set is degraded at once. -/
def State.domainFail (s : State) (d : Nat) : State :=
  (((s.unpower d 3).degrade).pmEvent PM_EVENT_DOMAIN).pmRecord 0x04 d

/-- VANA_LOSS (R493): a powered PD12 becomes FAILED until the next start. -/
def execVanaLoss (s : State) : Host.Outcome State Fault Refusal :=
  if s.dom 12 = 1 ∨ s.dom 12 = 2 then .next (s.domainFail 12) else .next s

/-! ### COLD and CELLAR_UP (R425–R428) -/

/-- PD1_RESET_RELEASE (R426): PD1 leaves reset in COLD, with the Cellar's wake done; the straps are sampled, K_INT is drawn and
the effective life-cycle state fixed. -/
def execPd1ResetRelease (pairId bootSrc nvmWidth : Bool) (s : State) : Host.Outcome State Fault Refusal :=
  if s.bt ≠ btCold ∨ s.dom 1 = 1 ∨ !s.elec.vin ∨ s.elec.rst ∨ s.elec.vio ∨ s.cl.wakeDue ∨ s.cl.por then .next s
  else
    let t := ((s.wr PM_ID_PAIR_ID (b2n pairId)).wr PM_ID_BOOT_SRC (b2n bootSrc)).wr PM_ID_NVM_WIDTH (b2n nvmWidth)
    .next (((t.setDom 0 1).setDom 1 1).clOwed.ksCold.btEnter btCellarUp)

/-- PLL_M_LOCK (R427, R43): PD1 runs on CK_M and the house clock starts with TB_1 governing. -/
def execPllMLock (s : State) : Host.Outcome State Fault Refusal :=
  if s.bt = btCellarUp ∧ !s.clk.running then
    .next ({ s with clk := { s.clk with running := true } }.wr HC_CTRL_GOV 1)
  else .next s

/-- DRAM_INIT_DONE (R427): `r` is 0 where PD14 and PD15 are powered and the DRAM is initialised, 1 where the DRAM failed, 2 or 3
where PD14 or PD15 failed its power-good check, as with VIN still above 18.0 V (R493). -/
def execDramInitDone (r : Fin 4) (s : State) : Host.Outcome State Fault Refusal :=
  if s.bt ≠ btCellarUp ∨ s.boot.dram then .next s
  else
    match r.val with
    | 0 => .next ({ s with boot := { s.boot with dram := true } }.setDom 14 1 |>.setDom 15 1)
    | 1 => .next (((s.setDom 14 1).setDom 15 1).bootFail 0x10)
    | 2 => .next ((((s.setDom 14 3).pmEvent PM_EVENT_DOMAIN).pmRecord 0x04 14).bootFail 0x11)
    | _ => .next (((((s.setDom 14 1).setDom 15 3).pmEvent PM_EVENT_DOMAIN).pmRecord 0x04 15).bootFail 0x11)

/-- A directory's spans: start and length of A, B and the recorder partition, without empty ones (R429). -/
def dirSpans (d : List Byte) : List (Nat × Nat) :=
  ([(leAt d 8 4, leAt d 12 4), (leAt d 16 4, leAt d 20 4), (leAt d 24 4, leAt d 28 4)]).filter (fun p => p.2 != 0)

/-- Two spans overlap. -/
def spansMeet (a b : Nat × Nat) : Bool := decide (a.1 < b.1 + b.2) && decide (b.1 < a.1 + a.2)

/-- A directory in order (R429): MAGIC and CRC, and spans of 64 KiB multiples above sector 1, within the device and apart. -/
def dirOk (size : Nat) (d : List Byte) : Bool :=
  leAt d 0 4 == 0x444E5842 && leAt d 60 4 == crc32c (slice d 0 60) &&
    (dirSpans d).all (fun p => p.1 % 0x10000 == 0 && p.2 % 0x10000 == 0 && decide (0x20000 ≤ p.1) && decide (p.1 + p.2 ≤ size)) &&
    (dirSpans d).zipIdx.all (fun (p : (Nat × Nat) × Nat) =>
      (dirSpans d).zipIdx.all (fun (q : (Nat × Nat) × Nat) => p.2 == q.2 || !spansMeet p.1 q.1)) &&
    (leAt d 28 4 == 0 || leAt d 28 4 == 0x02000000)

/-- The directory in use: the first of the two copies that is in order (R429). -/
def State.directory (s : State) (size : Nat) : List Byte :=
  let a := s.nvmLoad 0 64
  let b := s.nvmLoad 0x10000 64
  if dirOk size a then a else if dirOk size b then b else []

/-- The key rule (R431): the hash named is set and not revoked and equals that of the public key; in BLANK no hash is compared. -/
def keyOk (s : State) (k : Nat) (pub : List Byte) : Bool :=
  s.rd KS_STATUS_LC == 0 ||
    (bit s.ks.fuses.pkhSet k && !bit s.ks.fuses.revoke k && decide (k < 2) &&
      Config.sha384 pub == (if k = 0 then s.ks.fuses.pkh0 else s.ks.fuses.pkh1))

/-- VARIANT admits this module (R430, R434). -/
def variantOk (s : State) (v : Nat) : Bool := v == 0 || (v == 4 && !s.is5120)

/-- SIG verifies under PUBKEY over bytes 0–191 (R430, R434). -/
def sigOk (h : List Byte) : Bool := Config.ecdsaOk (slice h 96 96) (slice h 192 96) (Config.sha384 (slice h 0 192))

/-- Cause for an image by its header, 0 where it passes (R431, R436). -/
def imageCause (s : State) (d : List Byte) (b : Bool) : Nat :=
  let o := if b then 16 else 8
  let len := leAt d (o + 4) 4
  if d.isEmpty ∨ len = 0 then 0x0B
  else
    let h := s.nvmLoad (leAt d o 4) 512
    if leAt h 0 4 = 0xFFFFFFFF then 0x0B
    else if leAt h 0 4 ≠ 0x49535842 then 1
    else if leAt h 508 4 ≠ crc32c (slice h 0 508) then 2
    else if leAt h 6 2 ≠ 512 ∨ 100663296 < leAt h 8 4 ∨ len < 512 + leAt h 8 4 then 3
    else if !variantOk s (leAt h 16 1) then 7
    else if !keyOk s (leAt h 17 1) (slice h 96 96) then 4
    else if !sigOk h then 5
    else 0

/-- CELLAR_UP_COMPLETE (R427–R431): SFDP, the directory and the image headers have been read and checked; BOOT_WAIT begins.
`answers` tells whether the NOR answers its SFDP read, `size` the device size that SFDP declares. -/
def execCellarUpComplete (answers : Bool) (size : Nat) (s : State) : Host.Outcome State Fault Refusal :=
  if s.bt ≠ btCellarUp ∨ !s.boot.dram ∨ !s.clk.running then .next s
  else
    let d := if answers then s.directory size else []
    let t := (s.wr BT_IMG_A_CAUSE (imageCause s d false)).wr BT_IMG_B_CAUSE (imageCause s d true)
    let src := t.on PM_ID_BOOT_SRC
    let t := { t with
      boot := { t.boot with dir := d, waitFrom := t.clk.lapse, begun := false, apOpen := !src }
      ev := { t.ev with ofs := if d.isEmpty ∨ leAt d 28 4 = 0 then none else some (leAt d 24 4), params := true }
      pr := { t.pr with reqNext := t.clk.lapse } }
    let t := if src then (t.setDom 10 1).portsOn 10 else t
    .next (t.btEnter btWait)

/-! ### Firmware download (R432–R435) -/

/-- BOOT_SRC_TIMEOUT (R432): 2.0 s after entry into BOOT_WAIT no twin-link transfer has begun. -/
def execBootSrcTimeout (s : State) : Host.Outcome State Fault Refusal :=
  if s.bt = btWait ∧ s.on PM_ID_BOOT_SRC ∧ !s.boot.begun ∧ s.boot.waitFrom + 2 * uS ≤ s.clk.lapse then
    .next { s with boot := { s.boot with apOpen := true } }
  else .next s

/-- BOOT_APERTURE_WRITE (R433): word `o` of BAR4. With Memory Space Enable 0 no BAR is mapped, and nothing takes the write (R34). -/
def execBootApertureWrite (o : Fin 16777216) (v : Word) (s : State) : Host.Outcome State Fault Refusal :=
  if !s.vis.pfMse then .next s
  else if s.bt = btWait ∧ s.boot.apOpen then .next (s.storeN (addrBoot + 4 * o.val) 4 v.toNat)
  else .next (s.inc BT_CNT_AP_LATE)

/-- Submit the bundle in the boot region (R435): VERIFY is entered. -/
def State.submit (s : State) (len src : Nat) : State :=
  ({ s with boot := { s.boot with subLen := len }, pr := { s.pr with rx := none } }.wr BT_STATUS_SRC src).btEnter btVerify

/-! ### Verification (R436, R437) -/

/-- Cause of a bundle's verification, 0 where it passes (R436). -/
def bundleCause (s : State) : Nat :=
  let h := s.load addrBoot 512
  let len := leAt h 8 4
  if leAt h 0 4 ≠ 0x42465842 then 1
  else if leAt h 508 4 ≠ crc32c (slice h 0 508) then 2
  else if leAt h 6 2 ≠ 512 ∨ len < 1024 ∨ 67108864 < len ∨ s.boot.subLen ≠ len then 3
  else if !variantOk s (leAt h 21 1) then 7
  else if !keyOk s (leAt h 20 1) (slice h 96 96) then 4
  else if !sigOk h then 5
  else if Config.sha384 (s.load (addrBoot + 512) (len - 512)) ≠ slice h 48 48 then 6
  else 0

/-- The image tried first: the first whose header passed (R438). -/
def State.firstImage (s : State) : Option Bool :=
  if s.rd BT_IMG_A_CAUSE = 0 then some false else if s.rd BT_IMG_B_CAUSE = 0 then some true else none

/-- Try an image's body, or end in BOOT_FAIL where none is left (R438). -/
def State.tryImage (s : State) (i : Option Bool) : State :=
  match i with
  | some b => { s with boot := { s.boot with trial := some b } }
  | none => { s with boot := { s.boot with trial := none } }.bootFail 0x12

/-- VERIFY_DONE (R436, R437). -/
def execVerifyDone (s : State) : Host.Outcome State Fault Refusal :=
  if s.bt ≠ btVerify then .next s
  else
    let c := bundleCause s
    if c ≠ 0 then
      let t := (((s.wr BT_STATUS_CAUSE c).inc BT_CNT_VERIFY_FAIL).pmEvent BT_EVENT_VERIFY_FAIL).pmRecord 0x02
        (c + s.rd BT_STATUS_SRC * 256)
      .next ({ t with boot := { t.boot with waitFrom := t.clk.lapse, begun := false } }.btEnter btWait)
    else
      let h := s.load addrBoot 512
      let t := s.wr BT_FW_VER_FW_VER (leAt h 12 4)
      let t := { t with boot := { t.boot with cores := some (addrBoot + leAt h 16 4) } }
      let lc := s.rd KS_STATUS_LC
      if lc = 0 ∨ lc = 3 ∨ lc = 0xF then .next (t.bootFail 0x14)
      else .next ((t.btEnter btConfigure).tryImage t.firstImage)

/-- HOST_PORT_RESET (R433): only the host port and its configuration space; seat 0 ceases to be present. -/
def execHostPortReset (s : State) : Host.Outcome State Fault Refusal :=
  .next { s with vis := { s.vis with numVfs := 0, pfMse := false, pfBme := false, pfFmask := false, vf := [] } }

/-! ### Domains and self-test (R440, R441) -/

/-- The order in which assigned domains are powered (R440). -/
def powerOrder : List Nat := [6, 7, 11, 2, 3, 4, 5, 12, 13, 8, 9, 10]

/-- DOMAIN_POWER_UP (R440): the next assigned domain, with its power-good or without. -/
def execDomainPowerUp (good : Bool) (s : State) : Host.Outcome State Fault Refusal :=
  match s.boot.todo with
  | d :: rest =>
    if s.bt ≠ btConfigure then .next s
    else
      let t := { s with boot := { s.boot with todo := rest } }
      if good then .next ((t.setDom d 1).portsOn d) else .next (t.domainFail d)
  | [] => .next s

/-- SELF_TEST_DONE (R441): quadrant `q`'s self-test ends; bit i of `fails` is cluster 8q + i. -/
def execSelfTestDone (q : Fin 4) (fails : BitVec 8) (s : State) : Host.Outcome State Fault Refusal :=
  if s.bt ≠ btConfigure ∨ s.dom (2 + q.val) ≠ 1 ∨ s.boot.tested.contains q.val then .next s
  else
    let t := { s with boot := { s.boot with tested := q.val :: s.boot.tested } }
    .next ((maskList 8 fails.toNat).foldl (fun (u : State) c => u.fence (8 * q.val + c)) t)

/-- The minimum set is present (R440). -/
def State.minimumSet (s : State) : Bool :=
  [0, 1, 14, 15, 6, 7].all (fun d => s.dom d == 1) && (s.dom 8 == 1 || s.dom 9 == 1) &&
    (List.range 32).any (fun c => s.dom (2 + c / 8) == 1 && s.boot.tested.contains (c / 8) && !s.fenced c)

/-! ### Service (R442, R444) -/

/-- Enter SERVICE (R45, R442): TB_0 governs and GOV_LOCK is set, a SERVICE record, and the roles of the pair. -/
def State.enterService (s : State) (timeout : Bool) : State :=
  let t := hcCtrlWriteOp (s.word 0x40000 / 4 * 4) s
  (((t.wr HC_STATUS_GOV_LOCK 1).btEnter btService).pmRecord 0x06 (b2n timeout)).pairService

/-- DISCOVER_TIMEOUT (R442). -/
def execDiscoverTimeout (s : State) : Host.Outcome State Fault Refusal :=
  if s.bt = btDiscover ∧ s.boot.discFrom + s.rd BT_SVC_DISC_MAX_S * uS ≤ s.clk.lapse then .next (s.enterService true)
  else .next s

/-- WDOG_EXPIRY (R444): with ACTION 1 the WDOG record is written and the restart follows. -/
def execWdogExpiry (s : State) : Host.Outcome State Fault Refusal :=
  let ms := s.rd PM_WDOG_MS
  if s.boot.wdRuns ∧ ms ≠ 0 ∧ s.boot.wdFrom + ms * uMs < s.clk.lapse then
    let t := { s with boot := { s.boot with wdFrom := s.clk.lapse } }.pmEvent PM_EVENT_WDOG
    .next (if s.on PM_WDOG_ACTION then (t.recordThrough 0x01 0x07 1).restart 4 true else t.pmRecord 0x07 0)
  else .next s

/-! ### The PM_ page (R443, R444, R446) -/

/-- A domain for which a DORMANT command is accepted: PD8–PD12, or a quadrant without a valid task (R446). -/
def State.mayRest (s : State) (d : Nat) : Bool :=
  (decide (8 ≤ d) && decide (d ≤ 12)) ||
    (decide (2 ≤ d) && decide (d ≤ 5) &&
      s.ds.tasks.all (fun (p : Nat × Task) =>
        let l := tLane p.2.bytes
        !tValid p.2.bytes || (if tReady p.2.bytes then l % 32 / 8 else l / 64) != d - 2))

/-- An accepted DORMANT: a domain that is ON goes into retention, any other stays as it is (R27, R446; log entry 72). -/
def State.rest (s : State) (d : Nat) : State := if s.dom d = 1 then s.unpower d 2 else s

/-- PM_CMD (R443, R446). -/
def pmCmd (v : Nat) (s : State) : State :=
  let d := v % 16
  match v / 2 ^ 28 with
  | 1 => s.restart 2 false
  | 2 => s.restart 3 true
  | 3 => if s.mayRest d then s.rest d else s.pmEvent PM_EVENT_REFUSED
  | 4 => s.wakeDomain d
  | _ => s

/-- PM_WDOG (R444): it runs from the first write of MS after VERIFY; a KICK or a new MS begins its period. -/
def pmWdog (v : Nat) (s : State) : State :=
  let t := s.swPut 0x14 v
  let after := s.boot.cores.isSome
  let start := after && (!s.boot.wdRuns || bit v 31 || t.rd PM_WDOG_MS != s.rd PM_WDOG_MS)
  { t with boot := { t.boot with wdRuns := t.boot.wdRuns || after, wdFrom := if start then t.clk.lapse else t.boot.wdFrom } }

/-- Writes of the PM_ page. PM_CMD takes one of a steward core acting as itself or of the owner seat only. -/
def pmWrite (r : Requester) (o v : Nat) (s : State) : State :=
  if o = 0x10 then (if s.mayWrite r then pmCmd v s else s.pmEvent PM_EVENT_REFUSED)
  else if o = 0x14 then pmWdog v s
  else s.swPut o v

/-! ### The BT_ page (R435, R442, R447) -/

/-- BT_DL_CMD (R435). -/
def btCmd (v : Nat) (s : State) : State :=
  match v % 4 with
  | 1 =>
    if s.bt = btWait then s.submit (s.rd BT_DL_LEN_LEN) 1
    else if s.bt = btVerify then s.inc BT_CNT_AP_LATE
    else s
  | 2 => if s.bt = btWait then { s with pr := { s.pr with rx := none } } else s
  | _ => s

/-- Writes of the BT_ page: BT_DL_LEN and BT_DL_CMD from PF0 only, BT_SVC from the steward cores and the owner seat only. -/
def btWrite (r : Requester) (o v : Nat) (s : State) : State :=
  if o = 4 ∨ o = 8 then
    if r = .pf0 then (if o = 8 then btCmd v s else s.swPut 0x10004 v) else s.pmEvent BT_EVENT_REFUSED
  else if o = 0x14 then
    if !s.mayWrite r then s.pmEvent BT_EVENT_REFUSED
    else if bit v 31 ∧ s.bt = btDiscover then s.enterService false
    else s
  else s.swPut (0x10000 + o) v

/-! ### Partner-served firmware (R479) -/

/-- BUNDLE_REQ_SEND (R479): every 100 ms in BOOT_WAIT with BOOT_SRC high, while no transfer is in progress. -/
def execBundleReqSend (s : State) : Host.Outcome State Fault Refusal :=
  if s.bt = btWait ∧ s.on PM_ID_BOOT_SRC ∧ s.dom 10 = 1 ∧ s.pr.rx.isNone ∧ s.pr.reqNext ≤ s.clk.lapse then
    .next ({ s with pr := { s.pr with reqNext := s.clk.lapse + 100 * uMs } }.twinQueue { due := s.cyc, kind := 0x10, single := false })
  else .next s

/-- A transfer fails (R432, R479): the event, a SERVED record of 0, and the aperture opens. -/
def State.bundleFail (s : State) : State :=
  let t := { s with pr := { s.pr with rx := none }, boot := { s.boot with apOpen := true } }
  (t.prEvent PR_EVENT_SERVE_FAIL).prRecord 0x09 0

/-- BUNDLE_DATA_RX (R479): a transfer begins with its first part; each part is written into the boot region at its offset. -/
def execBundleDataRx (m : TwinRx) (s : State) : Host.Outcome State Fault Refusal :=
  let (ok, t) := twinTake 0x11 m s
  if ok ∧ t.bt = btWait ∧ t.on PM_ID_BOOT_SRC then
    let p := mBody m.octets
    let o := leAt p 0 4
    let b := (p.drop 4).take (67108864 - o)
    let parts := (t.pr.rx.map (fun x => x.parts)).getD []
    let t := { t with
      boot := { t.boot with begun := true }
      pr := { t.pr with rx := some { last := t.clk.lapse, parts := parts ++ [(o, b.length)] } } }
    .next (t.store (addrBoot + o) b)
  else .next t

/-- The first offset not covered by parts, from `o` on, that arrived in ascending order or not. -/
def covered (parts : List (Nat × Nat)) : Nat → Nat → Nat
  | 0, o => o
  | n + 1, o =>
    match parts.find? (fun p => decide (p.1 ≤ o) && decide (o < p.1 + p.2)) with
    | some p => covered parts n (p.1 + p.2)
    | none => o

/-- BUNDLE_END_RX (R479): every offset has arrived and the bundle is submitted, or the transfer fails; length 0 is a refusal,
which is no transfer. -/
def execBundleEndRx (m : TwinRx) (s : State) : Host.Outcome State Fault Refusal :=
  let (ok, t) := twinTake 0x12 m s
  if ok ∧ t.bt = btWait ∧ t.on PM_ID_BOOT_SRC then
    let n := leAt (mBody m.octets) 0 4
    match t.pr.rx with
    | some x =>
      if n = 0 then .next t
      else if n ≤ covered x.parts x.parts.length 0 then .next (t.submit n 2)
      else .next t.bundleFail
    | none => .next t
  else .next t

/-- BUNDLE_TIMEOUT (R479): 100 ms without a message during a transfer. -/
def execBundleTimeout (s : State) : Host.Outcome State Fault Refusal :=
  match s.pr.rx with
  | some x => if s.bt = btWait ∧ x.last + 100 * uMs < s.clk.lapse then .next s.bundleFail else .next s
  | none => .next s

end Sys2Proof.Machine
end

