-- ==== Sys2Proof/Machine/Contain.lean ====
section
/-!
DEFINITION. Event delivery, ECC reporting and containment (20_events_errors.md): routing to cores and PF0, MSI-X, the scrubber,
containment, the stopped condition and the IC_ page.
-/
namespace Sys2Proof.Machine

/-! ### Routing and delivery (R486, R487) -/

/-- Word `k` of PF0's MSI-X table entry `v`; bit 0 of word 3 masks the vector. -/
def State.msixWord (s : State) (v k : Nat) : Nat := s.rd (IC_MSIX_W.i (4 * v + k))

/-- A due message of vector `v` is held: its Mask bit or the Function Mask is set, or Bus Master Enable is clear. -/
def State.vecHeld (s : State) (v : Nat) : Bool := bit (s.msixWord v 3) 0 || s.vis.pfFmask || !s.vis.pfBme

/-- MSIX_SEND (R487): a due message begins its TLP. -/
def execMsixSend (vec : Fin 64) (s : State) : Host.Outcome State Fault Refusal :=
  if s.ic.due.contains vec.val ∧ !s.vecHeld vec.val then
    .next { s with ic := { s.ic with
      due := s.ic.due.filter (fun v => v != vec.val), sent := s.ic.sent + 1, lastVec := vec.val } }
  else .next s

/-- The Pending Bit Array: messages that are held (R487). -/
def State.pba (s : State) (i : Nat) : Nat :=
  (s.ic.due.filter (fun v => v / 32 == i && s.vecHeld v)).foldl (fun a v => a ||| 2 ^ (v % 32)) 0

/-- Source `es` is deliverable as the registers stood at the start of the cycle. -/
def State.deliverable0 (s : State) (es : Nat) : Bool :=
  bit (s.word0 (0x30010 + es / 32 * 4)) (es % 32) && !bit (s.word0 (0x30030 + es / 32 * 4)) (es % 32)

/-- What IC_CLAIM_c shows: the lowest deliverable source routed to core `c`, or 0x1FF (R487). -/
def State.icClaim (s : State) (c : Nat) : Nat :=
  ((List.range 256).find? (fun es => s.deliverable0 es && bit (s.rd0 (IC_ROUTE_CORE.i es)) c)).getD 0x1FF

/-- Interrupt line of steward core `c` (R487). -/
def State.coreLine (s : State) (c : Nat) : Bool := s.on IC_CTRL_EN && s.icClaim c != 0x1FF

/-- Sources that a write has made deliverable toward PF0 have their messages due (R487). -/
def State.newlyDue (s t : State) : State :=
  (List.range 256).foldl (fun (u : State) es => if t.toPf es && !s.toPf es then u.makeDue es else u) t

/-! ### The stopped condition (R490) -/

/-- A fault stops service: ILK_OUT and OEN_EXT drop, FATAL is set with the cause, and a FATAL record is written. -/
def State.fatal (s : State) (cause : Nat) : State :=
  if s.on IC_STATUS_FATAL then s
  else ((((s.wr IC_STATUS_FATAL 1).wr IC_STATUS_CAUSE cause).raise ES_CONTAIN).record 0x11 0x01 cause).pairPins

/-- A fault detected in this cycle stops service in the next (R490). -/
def State.stopNext (s : State) (cause : Nat) : State :=
  if s.on IC_STATUS_FATAL ∨ s.ic.stop.isSome then s else { s with ic := { s.ic with stop := some cause } }

/-- As the cycle ends, a fault that it detected stops service (R490). -/
def State.stopCycle (s : State) : State :=
  match s.ic.stop with
  | none => s
  | some c => { s with ic := { s.ic with stop := none } }.fatal c

/-- A loss of power-good of PD1, PD6, PD7 or PD14: which of them it is the row does not say, so whether PD14 still holds the DRAM is a free
value (R443, R489; log entry 5). -/
def State.powerLost (s : State) : State :=
  let (n, t) := s.fresh
  { t with elec := { t.elec with pgLost := t.elec.pgLost || n % 2 == 1 } }

/-- FATAL_STOP (R489, R490), in the cycle after the detection: 1 the DRAM boot region, 2 PLL_M, 3 the power-good of PD1, PD6, PD7 or PD14. -/
def execFatalStop (cause : Fin 4) (s : State) : Host.Outcome State Fault Refusal :=
  if cause.val = 0 ∨ s.dom 1 ≠ 1 then .next s
  else if cause.val = 3 then .next (s.powerLost.fatal 3)
  else .next (s.fatal cause.val)

/-- PLL_M_LOSS (R489): CK_M is lost, and service stops. -/
def execPllMLoss (s : State) : Host.Outcome State Fault Refusal :=
  if s.clk.running then .next ({ s with clk := { s.clk with running := false } }.fatal 2) else .next s

/-- VIN_OVERVOLTAGE (R493): the core regulators stop, PD14's among them; a loss of power-good of PD1. -/
def execVinOvervoltage (s : State) : Host.Outcome State Fault Refusal :=
  if s.elec.vin then .next ({ s with elec := { s.elec with pgLost := true } }.fatal 3) else .next s

/-! ### ECC (R488, R489) -/

def ES_CE : Nat := 17
def ES_UE : Nat := 18

/-- A corrected error of memory code `m` (R488). -/
def eccCorrected (m : Nat) (s : State) : State :=
  let f := if m % 2 = 0 then IC_ECC_CE_CE_EVEN.i (m / 2) else IC_ECC_CE_CE_ODD.i (m / 2)
  ((s.inc f).inc IC_G_CE).raise ES_CE

/-- Log an uncorrectable error (R488). -/
def eccLog (m a syn : Nat) (s : State) : State :=
  let s := (s.inc IC_G_UE).raise ES_UE
  if s.on IC_ECC_LOG0_VALID then (s.inc IC_G_LOG_LOST).raise ES_IC
  else
    let cl := if m = 1 ∨ m = 2 then (a - addrCluster 0) / 0x100000 % 32 else 0
    let s := (((s.flag IC_ECC_LOG0_VALID).wr IC_ECC_LOG0_MEM m).wr IC_ECC_LOG0_CLUSTER cl).wr IC_ECC_LOG0_SYNDROME syn
    ((s.wr IC_ECC_LOG1_ADDR_LO a).wr IC_ECC_LOG2_ADDR_HI (a / 2 ^ 32)).wr IC_ECC_LOG3_STAMP_NS (stampNs s.nowStamp)

/-- A word that stays uncorrectable until it is rewritten. -/
def markBad (a : Nat) (s : State) : State :=
  let w := a / 8 * 8
  if s.ic.badWords.contains w then s else { s with ic := { s.ic with badWords := w :: s.ic.badWords } }

/-- The Pantry record that holds address `a` reads as ABSENT; its tick, and whether its set is closed, stay. -/
def absentInPlace (a : Nat) (s : State) : State :=
  let r := a / 64 * 64
  let b := splice (absentRecord 0 0 0 false) 48 (s.load (r + 48) 6)
  s.store r (splice b 55 (leBytes 1 (leAt (s.load (r + 55) 1) 0 1 / 128 * 128)))

/-- A unit inside a port, crypto engine or build pipeline fails: entry 0–18 a port, 32–47 an engine, 48–53 a pipeline. -/
def localFail (a : Nat) (s : State) : State :=
  if a < 19 then (s.enterOff a)
  else if 32 ≤ a ∧ a < 48 then { s with ic := { s.ic with deadEngines := min 16 (s.ic.deadEngines + 1) } }
  else if 48 ≤ a ∧ a < 54 then { s with ic := { s.ic with deadPipes := insNat (a - 48) s.ic.deadPipes } }
  else s

/-- A frame whose cell is lost is discarded before its egress releases, each counted in BAD_DROP (R116, R489). -/
def loseFrame (i : Nat) (s : State) : State :=
  match s.frame i with
  | none => s
  | some f => f.copies.foldl (fun (t : State) p => (t.endCopy i p.1 p.2).inc HL_G_BAD_DROP) s

/-- An entry of a table that the memory holds beside others: what names none of its entries is left as it is (log entry 83). -/
def entryBelow (n a : Nat) (f : State → State) (s : State) : State := if a < n then (f s).raise ES_CONTAIN else s

/-- Containment of an uncorrectable error in memory code `m` at address or entry `a` (R489). -/
def contain (m a : Nat) (s : State) : State :=
  match m with
  | 0 => if addrBoot ≤ a ∧ inDram a then (markBad a s).stopNext 1 else markBad a s
  | 1 => markBad a s
  | 2 => s.fence ((a - addrCluster 0) / 0x100000 % 32)
  | 3 => absentInPlace a s
  | 4 => { s with ic := { s.ic with badSlots := insNat (a % 32768) s.ic.badSlots } }
  | 5 => entryBelow 8192 a (fun t => putTask a (withValid (slice (t.task a) 0 32) false) t) s
  | 6 => entryBelow 16384 a (fun t => t.setTimer a { t.timer a with bytes := withState (t.timer a).bytes 3 }) s
  | 7 => entryBelow 16384 a (sbInstall a (List.replicate 64 0)) s
  | 8 => loseFrame a s
  | 9 => ksEcc (a % 256) s
  | 10 => { s with cl := { s.cl with canLo := (s.cl.canLo + 1) % 2 ^ 64 } }.raise ES_CONTAIN
  | _ => (localFail a s).raise ES_CONTAIN

/-- ECC_SCRUB (R488, R489): the scrubber reads a word of memory code `mem` at address or entry `addr`: good (0), corrected (1) or
uncorrectable (2). -/
def execEccScrub (mem : Fin 12) (addr : BitVec 40) (kind : Fin 3) (syndrome : Fin 256) (s : State) :
    Host.Outcome State Fault Refusal :=
  match kind.val with
  | 0 => .next s
  | 1 => .next (eccCorrected mem.val s)
  | _ => .next (contain mem.val addr.toNat (eccLog mem.val addr.toNat syndrome.val s))

/-! ### The IC_ page (R491) -/

/-- Writes of the IC_ page: the steward cores and the owner seat, and PF0 the MSI-X table; others raise ES2. -/
def icWrite (r : Requester) (o v : Nat) (s : State) : State :=
  let table := decide (0x1000 ≤ o) && decide (o < 0x1400)
  if !(s.mayWrite r || (table && r == .pf0)) then s.raise ES_IC
  else if o = 0x08 then s.raise (224 + v % 16)
  else if o = 0x0C then (if bit v 31 then s.fence (v % 32) else s)
  else if o = 0 ∨ (0x30 ≤ o ∧ o < 0x50) ∨ (0x100 ≤ o ∧ o < 0x500) then s.newlyDue (s.swPut (0x30000 + o) v)
  else s.swPut (0x30000 + o) v

/-- Reads of the IC_ page that show the controller's own state. -/
def icRead (o : Nat) (s : State) : Option (Nat × State) :=
  if 0x50 ≤ o ∧ o < 0x60 then some (s.start.icClaim ((o - 0x50) / 4), s)
  else if o = 0x1800 ∨ o = 0x1804 then some (s.start.pba ((o - 0x1800) / 4), s)
  else none

end Sys2Proof.Machine
end

