-- ==== Sys2Proof/Machine/Bus.lean ====
section
/-!
DEFINITION. Accesses to the module address map (01_architecture.md): the map, who reaches what, the register pages and their
domains, reads and writes of registers, memory, the tenant's direct window and register accesses over the twin link.
-/
namespace Sys2Proof.Machine

/-! ### The map (R33, R36) -/

/-- What lies at an address of the map. -/
inductive Target where
  /-- A memory of power domain `d`; `cluster` names the cluster of an SRAM. -/
  | memory (d : Nat) (cluster : Option Nat)
  | larder
  /-- Offset `o` of register space. -/
  | register (o : Nat)
  | unassigned
deriving DecidableEq, Repr

/-- The map (R33). -/
def target (a : Nat) : Target :=
  if a < 0x0200000000 then .memory 14 none
  else if a < 0x0201800000 then .larder
  else if 0x0300000000 ≤ a ∧ a < 0x0302000000 then
    let c := (a - 0x0300000000) / 0x100000
    .memory (2 + c / 8) (some c)
  else if addrPantry ≤ a ∧ a < addrPantry + 0x1000000 then .memory 6 none
  else if addrRegs ≤ a ∧ a < addrRegs + 0x3000000 then .register (a - addrRegs)
  else .unassigned

/-! ### Who reaches what (R34, R35, R375, R398, R433) -/

/-- How far an access gets: it goes through, it returns 0 and discards, or it completes with Unsupported Request, reported or
not. -/
inductive Reach where
  | through
  | nothing
  | unsupported (report : Bool)
deriving DecidableEq, Repr

/-- A region that PF0's BARs reach: register space in every state, the map below 0x08_0000_0000 from CONFIGURE, and the boot
region for reads in every state (R433). An unassigned address is reported in every state (R34). -/
def State.pfReach (s : State) (a : Nat) (read : Bool) : Reach :=
  if !s.vis.pfMse then .unsupported false
  else if addrRegs ≤ a then .through
  else if a < 0x0800000000 then
    let st := s.rd BT_STATUS_STATE
    if (4 ≤ st ∧ st ≤ 6) ∨ (read ∧ addrBoot ≤ a ∧ a < 0x0200000000) then .through
    else .unsupported (target a == .unassigned)
  else .unsupported true

/-- The reach of a requester's access: a tenant reaches its instance page only (R35), the debug port only while it is
present. -/
def State.reach (s : State) (r : Requester) (a : Nat) (read : Bool) : Reach :=
  match r with
  | .pf0 => s.pfReach a read
  | .vf v =>
    let page := addrRegs + 0x1000000 + v.val * 0x10000
    if !s.vfMapped v then .unsupported false
    else if page ≤ a ∧ a < page + 0x10000 then .through
    else .unsupported true
  | .debug => if s.present 7 then .through else .nothing
  | _ => .through

/-- Whether a requester comes through the host port (R34). -/
def viaHost (r : Requester) : Bool :=
  match r with
  | .pf0 | .vf _ => true
  | _ => false

/-! ### Register pages (R9–R11, R28, R29, R37, R398) -/

/-- Fields that describe a crypto engine: the verification engines' VERIFY_BUSY, event and counter, and the tag generators' KEY and
KEY_ERR (R37; DEDUCED, log entry 12). -/
def cryptoFields (o : Nat) : List Fld :=
  [SB_EVENT_VERIFY_BUSY, SB_G_VERIFY_BUSY, PB_EVENT_KEY, PB_ST3_KEY_ERR].filter (fun f => f.addr == o)

/-- A value read from offset `o` with the crypto fields at 0 while PD11 is dark. -/
def hideCrypto (o v : Nat) : Nat := (cryptoFields o).foldl (fun x f => setBits x f.hi f.lo 0) v

/-- Reads of a page that are more than the register's value; the inner result is none where the read waits. -/
def pageRead (b : Block) (i : Nat) (r : Requester) (o : Nat) (s : State) : Option (Option Nat × State) :=
  let some' := fun (x : Option (Nat × State)) => x.map (fun p => (some p.1, p.2))
  match b with
  | .hc => some' (hcRead (rqIndex r) o s)
  | .pt => some' (ptRead (rqIndex r) i o s)
  | .sb => some' (sbRead o s)
  | .pb => some' (pbRead o s)
  | .aq => some' (aqRead o s)
  | .du => some' (duRead o s)
  | .ks => (ksRead r o s).map (fun v => (some v, s))
  | .cl => clRead r o s
  | .ev => some' (evRead (rqIndex r) o s)
  | .vi => some' (viRead i o s)
  | .ow => some' (owRead o s)
  | .ic => some' (icRead o s)
  | .pm | .bt | .hl | .al | .ds | .lg | .tg | .pr => none

/-- A read of an assigned register: its value at the start of the cycle; RC fields are cleared (R10, R11). -/
def regRead (b : Block) (i : Nat) (r : Requester) (o page : Nat) (s : State) : Option Nat × State :=
  let a := page * 0x10000 + o
  match pageRead b i r o s with
  | some x => x
  | none => (some (s.shown a), s.readClear a)

/-- Writes of a page by one who may make them, or whom the page itself turns away. -/
def pageWrite (b : Block) (i : Nat) (r : Requester) (o v : Nat) (s : State) : State :=
  match b with
  | .pm => pmWrite r o v s
  | .bt => btWrite r o v s
  | .ow => owWrite r o v s
  | .ic => icWrite r o v s
  | .hc => hcWrite o v s
  | .cl => clWrite r o v s
  | .ks => ksWrite r o v s
  | .pt => ptWrite i o v s
  | .hl => hlWrite o v s
  | .sb => sbWrite r o v s
  | .al => alWrite r o v s
  | .pb => pbWrite r o v s
  | .ds => dsWrite r o v s
  | .lg => lgWritePair r o v s
  | .aq => aqWrite r o v s
  | .du => duWrite r o v s
  | .ev => evWrite r o v s
  | .tg => tgWrite o v s
  | .pr => prWrite r o v s
  | .vi => viWrite r i o v s

/-- Registers for which the page's own write turns a requester away. -/
def ownRule (b : Block) (o : Nat) : Bool :=
  match b with
  | .pm => o == 0x10
  | .bt => o == 4 || o == 8 || o == 0x14
  | .sb => o == 0x14 || o == 0x24
  | .al => o == 0x14 || (decide (0x100 ≤ o) && decide (o < 0x280))
  | .ds => o == 0x14 || o == 0x24 || o == 0x34 || decide (0x1000 ≤ o)
  | .ks => o == 8 || o == 0xC
  | .ow | .vi | .ic | .pb | .lg | .aq | .du | .pr => true
  | .hc | .cl | .pt | .hl | .ev | .tg => false

/-- A write that none but the steward cores and the owner seat may make is taken from this requester: the doorways that a page
opens to others. -/
def ownDoor (b : Block) (r : Requester) (o : Nat) (s : State) : Bool :=
  match b with
  | .bt => (o == 4 || o == 8) && r == .pf0
  | .ks => lcSeatOk s r && (o == 0xC || (decide (0x40 ≤ o) && decide (o < 0x80)))
  | .ic => decide (0x1000 ≤ o) && decide (o < 0x1400) && r == .pf0
  | .ow | .vi => true
  | _ => false

/-- What a page that states it does with a write it discards. -/
def pageRefuse (b : Block) (s : State) : State :=
  match b with
  | .cl => s.clEvent CL_EVENT_REFUSED
  | .ev => s.evEvent EV_EVENT_REFUSED
  | .tg => s.tgEvent TG_EVENT_REFUSED
  | _ => s

/-- A write of an assigned register. A write by one who is neither a steward core nor the owner seat is discarded as its page
states; that of a seat counts in NONOWNER as well (R398). -/
def regWrite (b : Block) (i : Nat) (r : Requester) (o v : Nat) (s : State) : State :=
  if s.mayWrite r || ownDoor b r o s then pageWrite b i r o v s
  else
    let t := if s.seat r ≠ 0xF then s.inc OW_CNT_NONOWNER else s
    if ownRule b o then pageWrite b i r o v t else pageRefuse b t

/-- An access answers nothing: 0 for a read, no effect for a write, Unsupported Request where asked. -/
def State.answer (s : State) (a : Access) (data : Nat) (ur : Bool) (bad : Bool := false) : State :=
  s.complete { req := a.req, addr := a.addr.toNat, data := data, unsupported := ur, bad := bad } a.write.isNone

/-- A reported access that finds nothing (R9, R28, R34, R37). -/
def State.answerError (s : State) (a : Access) (kind : Nat) (ur : Bool) : State :=
  (s.accessError a.req a.addr.toNat a.write.isSome kind).answer a 0 ur

/-- Reads that waited for the calendar complete once no freeze is in force (R337). -/
def State.calFree (s : State) : State := if s.cl.freeze.isNone then calServe s.cl.held.length s else s

/-- An access to a register of a powered page. -/
def regAccess (b : Block) (i o : Nat) (a : Access) (s : State) : State :=
  let page := (a.addr.toNat - addrRegs) / 0x10000
  if (descIn b i o).isNone then
    let t := match a.req, a.write with
      | .vf v, some _ => tenantForbid v s
      | _, _ => s
    t.answerError a 1 false
  else
    match a.write with
    | some v => (regWrite b i a.req o v.toNat s).answer a 0 false
    | none =>
      let dark := s.dom 11 == 0 || s.dom 11 == 3
      match regRead b i a.req o page s with
      | (none, t) => t
      | (some d, t) =>
        let off := page * 0x10000 + o
        if dark ∧ cryptoFields off ≠ [] then
          ((t.accessError a.req a.addr.toNat false 4).answer a (hideCrypto off d) false).calFree
        else (t.answer a d false).calFree

/-- An access that needs power domain `d`: a dark one finds nothing (R28), a dormant one is held while the domain wakes (R29). -/
def needDomain (d : Nat) (a : Access) (run : State → State) (s : State) : State :=
  if d < 2 ∨ s.dom d = 1 then run s
  else if s.dom d = 2 then { s with arch := { s.arch with held := s.arch.held ++ [a] } }.wakeDomain d
  else s.answerError a 2 false

/-- Whether an address lies in a reserved part of a lane's local SRAM, which reads 0 (R240, R254). -/
def laneReserved (x : Nat) : Bool :=
  let o := (x - addrCluster 0) % 0x100000
  let p := o % 0x10000
  decide (addrCluster 0 ≤ x) && decide (x < addrCluster 32) && decide (0x80000 ≤ o) &&
    ((decide (0x240 ≤ p) && decide (p < 0x300)) || decide (0xFF26 ≤ p))

/-- Four bytes as the map shows them. -/
def State.mapWord (s : State) (x : Nat) : Nat :=
  leNat ((List.range 4).map (fun i => if laneReserved (x + i) then 0 else s.memByte (x + i)))

/-- Store a word where the map has one. -/
def mapStoreWord (x : Nat) (v : Word) (s : State) : State := if laneReserved x then s else s.storeN x 4 v.toNat

/-- An access to memory, both words of a unit in one transaction (R383): a fenced cluster reads 0 and discards (R30), and so do the reserved parts of a lane's SRAM (R240); a word
lost to an uncorrectable error is marked (R489). -/
def memAccess (cluster : Option Nat) (a : Access) (s : State) : State :=
  let x := a.addr.toNat
  if (cluster.map s.fenced).getD false then s.answer a 0 false
  else
    match a.write with
    | some v => (mapStoreWord x v (a.high.elim s (fun h => mapStoreWord (x + 4) h s))).answer a 0 false
    | none => s.answer a (s.mapWord x) false (s.badSpan x 4)

/-- An access to the Larder: the spec does not say which cell holds which frame, so a read returns a free value and a write has no
effect that it states (log entry 5). -/
def larderAccess (a : Access) (s : State) : State :=
  match a.write with
  | some _ => s.answer a 0 false
  | none =>
    let (v, t) := s.fresh
    t.answer a (v % 2 ^ 32) false

/-- An access that has reached the map. -/
def mapAccess (a : Access) (s : State) : State :=
  match target a.addr.toNat with
  | .memory d c => needDomain d a (memAccess c a) s
  | .larder => needDomain 7 a (larderAccess a) s
  | .unassigned => s.answerError a 3 (viaHost a.req)
  | .register o =>
    match pageBlock (o / 0x10000) with
    | none => s.answerError a 3 (viaHost a.req)
    | some (b, i) =>
      if b = .aq ∧ s.is5120 then s.answer a 0 false
      else needDomain (pageDomain b i) a (regAccess b i (o % 0x10000) a) s

/-- An access to the address map. -/
def access (a : Access) (s : State) : State :=
  match s.reach a.req a.addr.toNat a.write.isNone with
  | .through => mapAccess a s
  | .nothing => s.answer a 0 false
  | .unsupported true => s.answerError a 3 true
  | .unsupported false => s.answer a 0 true

/-- A write and a read of register-space offset `o`. -/
def writeReg (r : Requester) (o v : Nat) (s : State) : State :=
  access { req := r, addr := BitVec.ofNat 40 (addrRegs + o), write := some (BitVec.ofNat 32 v) } s
def readReg (r : Requester) (o : Nat) (s : State) : State :=
  access { req := r, addr := BitVec.ofNat 40 (addrRegs + o), write := none } s

/-! ### The rows of chapter 1 -/

/-- REGISTER_WRITE (R10, R398). -/
def execRegisterWrite (req : Requester) (addr : BitVec 40) (v : Word) (s : State) : Host.Outcome State Fault Refusal :=
  .next (access { req := req, addr := addr, write := some v } s)

/-- READ_CLEAR_ACCESS (R10, R11). -/
def execReadClearAccess (req : Requester) (addr : BitVec 40) (s : State) : Host.Outcome State Fault Refusal :=
  .next (access { req := req, addr := addr, write := none } s)

/-- DARK_PAGE_ACCESS (R28). -/
def execDarkPageAccess (a : Access) (s : State) : Host.Outcome State Fault Refusal := .next (access a s)

/-- DORMANT_PAGE_ACCESS (R29). -/
def execDormantPageAccess (a : Access) (s : State) : Host.Outcome State Fault Refusal := .next (access a s)

/-- UNASSIGNED_ADDRESS_ACCESS (R34). -/
def execUnassignedAddressAccess (a : Access) (s : State) : Host.Outcome State Fault Refusal := .next (access a s)

/-- Accesses that waited for domain `d` complete in the order in which they came; others wait on. -/
def serveHeld (l : List Access) (s : State) : State := l.foldl (fun (t : State) a => access a t) s

/-- DOMAIN_WAKE_DONE (R29): a waking domain is ON again, its ports return to UP, and held accesses complete. -/
def execDomainWakeDone (pd : Fin 16) (s : State) : Host.Outcome State Fault Refusal :=
  if s.arch.wakes.any (fun w => w.1 == pd.val) ∧ s.dom pd = 2 then
    let held := s.arch.held
    let t := { s with arch := { s.arch with wakes := s.arch.wakes.filter (fun w => w.1 != pd.val), held := [] } }
    .next (serveHeld held ((t.setDom pd 1).portsOn pd))
  else .next s

/-! ### The tenant's direct window (R385) -/

/-- A window access counts, and sets WINDOW. -/
def windowMiss (f : Fld) (v : Nat) (s : State) : State := (s.inc (f.p v)).viEvent VI_EVENT_WINDOW v

/-- WINDOW_ACCESS (R385): a word of BAR2 at offset `o` of instance `v`. -/
def execWindowAccess (v : Fin 512) (o : Fin 1073741824) (data : Option Word) (s : State) : Host.Outcome State Fault Refusal :=
  let miss : Access := { req := .vf v, addr := BitVec.ofNat 40 o, write := data }
  if !s.vfMapped v then .next (s.answer miss 0 true)
  else
    match s.windowAt v o with
    | none => .next ((windowMiss VI_CNT3_WIN_MISS v s).answer miss 0 data.isNone)
    | some w =>
      let a := { miss with addr := BitVec.ofNat 40 (s.windowAddr v w o) }
      if data.isSome ∧ !s.on0 ((VI_W_WR.p v).i w) then .next ((windowMiss VI_CNT3_WIN_RO v s).answer miss 0 false)
      else .next (needDomain 14 a (memAccess none a) s)

/-! ### Register accesses over the twin link (R456) -/

/-- TWIN_REG_RX: the partner reads or writes a register of this module as seat 1. -/
def execTwinRegRx (m : TwinRx) (s : State) : Host.Outcome State Fault Refusal :=
  let (ok, t) := twinTake 0x0B m s
  let p := mBody m.octets
  let a : Access := {
    req := .twin, addr := BitVec.ofNat 40 (leAt p 0 5)
    write := if leAt p 5 1 = 2 then some (BitVec.ofNat 32 (leAt p 8 4)) else none }
  if ok ∧ (leAt p 5 1 = 1 ∨ leAt p 5 1 = 2) then .next (access a t) else .next t

/-- TWIN_REG_RSP_RX: the answer to an access that this module made to its partner. -/
def execTwinRegRspRx (m : TwinRx) (s : State) : Host.Outcome State Fault Refusal :=
  let (ok, t) := twinTake 0x0C m s
  let p := mBody m.octets
  if ok then .next { t with pr := { t.pr with regRsp := some (leAt p 0 1, leAt p 8 4) } } else .next t

end Sys2Proof.Machine
end

