-- ==== Sys2Proof/Machine/Graphs.lean ====
section
/-!
DEFINITION. Kernel graphs as the configuration checks read them (09_lanes_kernels.md R238, R239, R255, R258): the ranges, the
units and the instance data that every kernel's row gives it.
-/
namespace Sys2Proof.Machine

/-- Ranges and footprint of a kernel: the range of N and of M, and the units at A, B and OUT as a number and a number for each
of N. A kernel that has no N or no M admits every value. -/
structure KShape where
  a : Nat × Nat := (0, 0)
  b : Nat × Nat := (0, 0)
  out : Nat × Nat := (0, 0)
  n : Nat × Nat := (1, 64)
  m : Nat × Nat := (0, 65535)
deriving DecidableEq, Repr

/-- The shape of kernels without N. -/
def single (a b out : Nat) : KShape := { a := (a, 0), b := (b, 0), out := (out, 0), n := (0, 255) }

/-- The shape of kernels with `a` units of A, `b` of B and `out` of results for each of N. -/
def each (a b out : Nat) : KShape := { a := (0, a), b := (0, b), out := (0, out) }

/-- Kernels 0x00 to 0x0F (R255). -/
def shapes0 : List KShape :=
  [single 0 0 0, single 0 0 0, each 0 0 1, single 0 0 1, each 1 0 1, { single 0 0 1 with m := (0, 2) },
   { single 1 0 0 with n := (1, 16) }, { each 1 1 1 with m := (0, 1) }, each 1 0 1, { each 1 1 1 with m := (0, 1) },
   { each 1 1 1 with m := (0, 1) }, { each 1 1 1 with m := (0, 1) }, each 1 1 1, each 1 0 1,
   { each 1 0 0 with out := (1, 0), n := (2, 64), m := (0, 1) }, each 1 1 1]

/-- Kernels 0x10 to 0x1F. -/
def shapes1 : List KShape :=
  [each 1 0 2, each 1 0 2, { each 1 0 1 with m := (2, 15) }, each 1 0 1, single 6 0 6, single 6 6 3,
   { single 2 0 1 with m := (1, 96) }, { single 1 0 1 with m := (2, 96) }, each 2 2 2, { each 2 0 1 with m := (0, 1) },
   each 1 0 1, each 1 0 1, { each 2 0 0 with out := (2, 0) }, { each 1 0 1 with m := (1, 255) },
   { each 1 0 1 with b := (1, 0) }, { each 1 0 1 with m := (2, 255) }]

/-- Kernels 0x20 to 0x2F. -/
def shapes2 : List KShape :=
  [{ each 6 0 0 with out := (9, 0), n := (2, 32) }, { single 3 3 3 with m := (0, 1) }, single 6 6 12, each 2 0 1, each 2 2 1,
   { each 1 0 1 with m := (0, 1) }, each 1 0 1, single 1 0 3, single 2 2 4, each 1 0 2, single 1 1 2, single 6 2 2,
   single 1 1 2, single 2 2 3, each 1 1 1, { each 1 0 1 with m := (2, 16) }]

/-- Kernels 0x30 to 0x3F. -/
def shapes3 : List KShape :=
  [{ each 1 0 0 with out := (1, 0), n := (2, 64) }, { each 1 0 0 with out := (1, 0), n := (2, 64) },
   { each 1 0 0 with out := (1, 0), n := (2, 64) }, each 1 0 1, { each 1 0 1 with m := (0, 2) },
   { each 1 1 1 with m := (0, 1) }, { each 1 0 0 with out := (1, 0) }, { each 1 0 0 with out := (1, 0), n := (1, 32) },
   each 1 0 1, each 1 0 1, each 1 0 1, single 1 0 0, single 0 0 0, single 1 0 0, each 1 0 0, single 1 0 0]

/-- The shape of an invocation: K_ADD, K_SUB and K_MUL with M 1 have no B, K_POLAR with M 1 has two results for each of N. -/
def Inv.shape (k : Inv) : KShape :=
  let x := (shapes0 ++ shapes1 ++ shapes2 ++ shapes3).getD k.code {}
  if 9 ≤ k.code ∧ k.code ≤ 0xB ∧ k.m = 1 then { x with b := (0, 0) }
  else if k.code = 0x19 ∧ k.m = 1 then { x with out := (0, 2) }
  else x

/-- Units of a footprint for N. -/
def footUnits (p : Nat × Nat) (n : Nat) : Nat := p.1 + p.2 * n

/-- Bytes of an invocation's instance data (R255). -/
def Inv.dataLen (k : Inv) : Nat :=
  let n := k.n
  let m := k.m
  let w := k.param % 256
  match k.code with
  | 0x02 => ceilDiv (8 + 4 * n) 8 * 8
  | 0x10 => 8 + (4 * w + 48) * n
  | 0x11 => 8 + (2 * w + 48) * n
  | 0x12 => 8 + (4 * w + 80) * n
  | 0x13 => 8 + (4 * w + 16) * n
  | 0x16 | 0x17 => 8 + 4 * m
  | 0x1A => 24 + 8 * n
  | 0x1B | 0x1E | 0x29 | 0x2E => 8 * n
  | 0x1D => 8 + 8 * m * n
  | 0x1F => 8 + (4 * m + 8) * n
  | 0x20 | 0x2B => 24
  | 0x21 => 16
  | 0x22 | 0x34 | 0x35 => 8
  | 0x23 | 0x27 | 0x2A | 0x2C | 0x2D => 32
  | 0x24 | 0x25 | 0x38 | 0x39 | 0x3A => 16 * n
  | 0x26 => 24 * n
  | 0x28 => 40
  | 0x2F => 8 + 8 * m
  | _ => 0

/-- Kernels whose instance data hold settings only (DEDUCED). -/
def settingsOnly (code : Nat) : Bool := [0x02, 0x20, 0x21, 0x22, 0x23, 0x2F].contains code

/-- PARAM, and for K_VOTE M, lie in the kernel's range; that of K_GATH and K_OPND names an operand of the task, and a GOOSE one's
type (R255). -/
def Inv.paramOk (k : Inv) (s : State) : Bool :=
  let w := k.param % 256
  let b := s.task k.r.task
  let own := decide (k.param % 16 < tOpN b)
  match k.code with
  | 0x02 => own
  | 0x03 => own && (sKind (s.slot (tOpBase b + k.param % 16)).latest != 2 ||
      (decide (1 ≤ bits k.param 7 4) && decide (bits k.param 7 4 ≤ 8)))
  | 0x08 => convTypes.contains (k.param % 16)
  | 0x10 | 0x12 | 0x13 => decide (16 ≤ w) && decide (w ≤ 192)
  | 0x11 => decide (16 ≤ w) && decide (w ≤ 192) && w % 2 == 0
  | 0x18 => decide (k.param ≤ 3)
  | 0x36 => decide (1 ≤ k.m) && decide (k.m ≤ k.n)
  | 0x3B | 0x3C => decide (k.param < 16384)
  | 0x3D => decide (k.param < 32768)
  | 0x3E => decide (k.param ≤ 2111)
  | 0x3F => decide (k.param % 16 ≤ 11)
  | _ => true

/-- The units that a reference names lie in its bounds (R239), where the kernel uses the reference. -/
def Inv.refOk (k : Inv) (ref count : Nat) : Bool :=
  count == 0 || (match k.unitAddr ref 0 false, k.unitAddr ref (count - 1) false with
    | .ok _, .ok _ => true
    | _, _ => false)

/-- Values, references and instance data of an invocation are in order (R258). -/
def Inv.inOrder (k : Inv) (s : State) : Bool :=
  let x := k.shape
  decide (x.n.1 ≤ k.n) && decide (k.n ≤ x.n.2) && decide (x.m.1 ≤ k.m) && decide (k.m ≤ x.m.2) && k.paramOk s &&
    k.refOk k.a (footUnits x.a k.n) && k.refOk k.b (footUnits x.b k.n) &&
    k.refOk k.out (footUnits x.out k.n) && (k.dataLen == 0 || decide (k.idata + ceilDiv k.dataLen 8 ≤ k.r.isize))

/-- A lane in which task descriptor `b` runs: that of a slotted task, the first of its cluster for a ready task. -/
def taskLane (b : List Byte) : Nat := if tReady b then tLane b % 32 * 8 else tLane b

/-- A run of task `t` as the checks follow it. -/
def State.checkRun (s : State) (t : Nat) : Run :=
  let b := s.task t
  let h := s.load (addrCluster (taskLane b / 8) + tEntry b * 64) 16
  { task := t, vi := tVi b, gen := 0, flow := 0, ready := tReady b, start := 0, startCy := tOffset b, cost := tCost b
    entry := tEntry b, next := 10, ibase := leAt h 0 4, isize := leAt h 4 4 }

/-- Invocations from record `i` to K_END, each with the cycle of the run, counted from 0, after its last one. -/
def State.graphFrom (s : State) (l : Nat) (r : Run) : Nat → Nat → Nat → List (Inv × Nat)
  | 0, _, _ => []
  | fuel + 1, i, cy =>
    let k := s.invocation l { r with inv := i }
    let e := cy + kernelCycles k.code k.n
    (k, e) :: (if k.code = 1 then [] else State.graphFrom s l r fuel (i + 1) e)

/-- The graph of task `t`; a graph without K_END runs to the end of the cluster's instance memory. -/
def State.graph (s : State) (t : Nat) : List (Inv × Nat) :=
  let r := s.checkRun t
  s.graphFrom (taskLane (s.task t)) r (32768 - 4 * r.entry) 0 10

/-- Tasks in use, with their descriptors. -/
def State.liveTasks (s : State) : List (Nat × List Byte) :=
  (s.ds.tasks.filter (fun (p : Nat × Task) => tValid p.2.bytes)).map (fun (p : Nat × Task) => (p.1, p.2.bytes))

/-- The graph of a task keeps R258. -/
def graphOk (t : Nat) (b : List Byte) (s : State) : Bool :=
  let g := s.graph t
  match g.getLast? with
  | none => false
  | some (k, cy) => k.code == 1 && cy == tCost b && g.all (fun (x : Inv × Nat) => x.1.inOrder s)

/-- Instance regions of different instances in one cluster lie apart (R251, R258). -/
def regionsApart (s : State) : Bool :=
  let rs := s.liveTasks.map (fun (x : Nat × List Byte) =>
    let r := s.checkRun x.1
    (taskLane x.2 / 8, r.vi, r.ibase, r.isize))
  rs.all (fun (x : Nat × Nat × Nat × Nat) => rs.all (fun (y : Nat × Nat × Nat × Nat) =>
    x.1 != y.1 || x.2.1 == y.2.1 || decide (x.2.2.1 + x.2.2.2 ≤ y.2.2.1) || decide (y.2.2.1 + y.2.2.2 ≤ x.2.2.1) ||
      x.2.2.2 == 0 || y.2.2.2 == 0))

/-- The checks of R258. -/
def graphsOk (s : State) : Bool :=
  s.liveTasks.all (fun (x : Nat × List Byte) => graphOk x.1 x.2 s) && regionsApart s

/-! ### What a graph does outside its lane -/

/-- Invocations of kernel `code` in a task's graph, with the cycle after their last. -/
def State.calls (s : State) (t code : Nat) : List (Inv × Nat) :=
  (s.graph t).filter (fun (x : Inv × Nat) => x.1.code == code)

/-- Spans of cluster shared SRAM that a reference names: cluster, first unit from the cluster base, units. -/
def Inv.spanOf (k : Inv) (ref count : Nat) : List (Nat × Nat × Nat) :=
  if ref < 32768 ∨ count = 0 then [] else [(k.l / 8, k.r.ibase + ref % 32768, count)]

/-- The span of an invocation's instance data. -/
def Inv.dataSpan (k : Inv) : List (Nat × Nat × Nat) :=
  if k.dataLen = 0 then [] else [(k.l / 8, k.r.ibase + k.idata, ceilDiv k.dataLen 8)]

/-- Spans that an invocation writes, and all that it accesses. -/
def Inv.writeSpans (k : Inv) : List (Nat × Nat × Nat) :=
  k.spanOf k.out (footUnits k.shape.out k.n) ++ (if settingsOnly k.code then [] else k.dataSpan)
def Inv.allSpans (k : Inv) : List (Nat × Nat × Nat) :=
  k.spanOf k.a (footUnits k.shape.a k.n) ++ k.spanOf k.b (footUnits k.shape.b k.n) ++
    k.spanOf k.out (footUnits k.shape.out k.n) ++ k.dataSpan

/-- Two spans share a unit. -/
def spansShare (x y : Nat × Nat × Nat) : Bool :=
  x.1 == y.1 && decide (x.2.1 < y.2.1 + y.2.2) && decide (y.2.1 < x.2.1 + x.2.2)

end Sys2Proof.Machine
end

