-- ==== Sys2Proof/Machine/Checks.lean ====
section
/-!
DEFINITION. The configuration checks of a station image (R4, R38, R142, R183, R208, R213, R258, R274, R278, R297, R370, R480):
each looks at a state `s` in which every domain is powered and the image's sections are applied; `doms` is DOMAINS of the
header.
-/
namespace Sys2Proof.Machine

/-- No value stands twice in a list. -/
def distinct (l : List Nat) : Bool := l.eraseDups.length == l.length

/-! ### Subscription (R38, R141, R142) -/

/-- Entries in use of a kind. -/
def State.entriesOf (s : State) (kind : Nat) : List (List Byte) :=
  (s.sub.entries.filter (fun (p : Nat × SubEntry) => eValid p.2.bytes && eKind p.2.bytes == kind)).map
    (fun (p : Nat × SubEntry) => p.2.bytes)

/-- The checks of subscription. -/
def subscriptionOk (s : State) : Bool :=
  let sv := s.entriesOf 1
  let go := s.entriesOf 2
  s.sub.entries.all (fun (p : Nat × SubEntry) => !eValid p.2.bytes || decide (eRate p.2.bytes ≤ 4)) &&
    distinct (sv.map eTarget) && distinct (go.map eTarget) && (sv ++ go).all (fun b => bit (ePorts b) pI0) &&
    decide ((sv.map (fun b => rateOf (eRate b))).foldl (· + ·) 0 ≤ 4915200) &&
    go.all (fun b => decide (eMapBase b + eMapN b ≤ 32768) && decide (eTarget b < 8192)) &&
    sv.all (fun b => decide (eTarget b < 1024) && decide (1 ≤ eNoAsdu b) && decide (eNoAsdu b ≤ 8))

/-! ### Alignment (R4, R177, R183, R196, R221) -/

/-- Stream descriptors in use. -/
def State.liveStreams (s : State) : List (Nat × List Byte) :=
  (s.al.str.filter (fun (p : Nat × Stream) => dValid p.2.bytes)).map (fun (p : Nat × Stream) => (p.1, p.2.bytes))

/-- Least W in µs of a group that holds a stream of a rate code (R177). -/
def leastW (code : Nat) : Nat :=
  match code with
  | 0 => 1030
  | 2 => 662
  | 3 => 866
  | 4 => 356
  | _ => 0

/-- Least W of a group that holds a local stream of a preset (R196). -/
def leastLocalW (preset : Nat) : Nat :=
  match preset with
  | 0 => 974
  | 1 => 418
  | 2 => 627
  | _ => 0

/-- A SCALE that is 0 or NaN. -/
def badScale (x : Nat) : Bool := x % 2 ^ 31 == 0 || f32.isNan x

/-- One stream descriptor in order. -/
def streamOk (s : State) (k : Nat) (b : List Byte) : Bool :=
  let w := s.rd (AL_GROUP_W_US.i (dGroup b))
  s.on (AL_GROUP_EN.i (dGroup b)) && (List.range 8).all (fun i => !badScale (dScale b i)) && decide (leastW (dRate b) ≤ w) &&
    (if dLocal b then !s.is5120 && s.preset (dBank b) != 3 && decide (leastLocalW (s.preset (dBank b)) ≤ w)
     else (s.svEntries k).all (fun (x : Nat × SubEntry) => eRate x.2.bytes == dRate b))

/-- The inbox of cluster `c` ends within its 512 KiB (R181, R183). -/
def inboxOk (s : State) (c : Nat) : Bool :=
  s.liveStreams.all (fun (x : Nat × List Byte) => !bit (dCmask x.2) c ||
    decide (s.rd (AL_INBOX_OFS.i c) * 64 + (dIidx x.2 + 1) * s.inboxDepth c * 64 ≤ 0x80000))

/-- The cycle of the tick before which no slotted task that reads the set of group `g` with lag `lag` may be placed, without
its marks: X + P + 7 on a module of a pair (R221). -/
def earliestRead (s : State) (g lag : Nat) : Int :=
  let d : Int := 3 * ((s.rd (AL_GROUP_W_US.i g) * 1000 + 20000 : Nat) : Int) - ((lag * 625000 : Nat) : Int)
  let x := -((-(d * 10002)) / 30000) + 1
  x + ((8 + ceilDiv (s.groupStreams g).length 4 + 7 : Nat) : Int)

/-- The place of slot `i` among those bound to the set of its group (R182). -/
def setPlace (s : State) (g i : Nat) : Nat :=
  (s.ds.slots.filter (fun (p : Nat × OpSlot) =>
    sKind p.2.latest == 1 && sSel p.2.latest == g && decide (p.1 < i))).length

/-- On a pair, no slotted task is placed before the sets that it reads (R183). -/
def readsOk (s : State) : Bool :=
  s.liveTasks.all (fun (x : Nat × List Byte) => tReady x.2 ||
    (List.range (tOpN x.2)).all (fun j =>
      let i := tOpBase x.2 + j
      let b := (s.slot i).latest
      sKind b != 1 || decide (earliestRead s (sSel b) (sLag b) + (setPlace s (sSel b) i : Int) ≤ (tOffset x.2 : Int))))

/-- The checks of alignment. -/
def alignmentOk (s : State) : Bool :=
  let l := s.liveStreams
  let rs := l.filter (fun (x : Nat × List Byte) => dRate x.2 != 1)
  l.all (fun (x : Nat × List Byte) => streamOk s x.1 x.2) && distinct (rs.map (fun (x : Nat × List Byte) => dSlot x.2)) &&
    decide (rs.length ≤ 256) && (List.range 32).all (inboxOk s) &&
    l.all (fun (x : Nat × List Byte) => l.all (fun (y : Nat × List Byte) =>
      x.1 == y.1 || dCmask x.2 &&& dCmask y.2 == 0 || dIidx x.2 != dIidx y.2)) &&
    (!s.on PR_CTRL_EN || readsOk s)

/-! ### The dispatcher (R213) -/

/-- One task in order. -/
def taskOk (s : State) (doms t : Nat) (b : List Byte) : Bool :=
  slottedOk t b s && bit doms (2 + taskLane b / 64) && decide (tOpBase b + tOpN b ≤ 32768) && decide (tOpN b ≤ 16) &&
    (!tReady b || decide (tCost b ≤ s.rd (DS_VI_BUDGET.i (tVi b))))

/-- The checks of the dispatcher; a WRITE refused while the image was applied fails them too. -/
def tasksOk (s : State) (doms : Nat) : Bool :=
  let l := s.liveTasks
  !s.on DS_EVENT_REFUSED && l.all (fun (x : Nat × List Byte) => taskOk s doms x.1 x.2) &&
    l.all (fun (x : Nat × List Byte) => l.all (fun (y : Nat × List Byte) => x.1 == y.1 ||
      ((tFlow x.2 == 0 || tFlow x.2 != tFlow y.2 || tReady x.2 == tReady y.2) &&
        (decide (tOpBase x.2 + tOpN x.2 ≤ tOpBase y.2) || decide (tOpBase y.2 + tOpN y.2 ≤ tOpBase x.2) ||
          tOpN x.2 == 0 || tOpN y.2 == 0))))

/-! ### Publication (R4, R208, R274, R278) -/

/-- Control blocks in use. -/
def State.liveCbs (s : State) : List (Nat × List Byte) :=
  (s.pb.cbs.filter (fun (p : Nat × Cb) => cbValid p.2.bytes)).map (fun (p : Nat × Cb) => (p.1, p.2.bytes))

/-- OPEN and CLOSE nest up to six deep, and a SECEXT, at most one, follows the APDU (R262). -/
def nests : Nat → List Seg → Bool
  | d, [] => d == 0
  | d, x :: t =>
    match x.op with
    | 0x2 => decide (d < 6) && nests (d + 1) t
    | 0x3 => decide (0 < d) && nests (d - 1) t
    | 0xF => d == 0 && t.all (fun y => y.op != 0xF && y.op != 0x2) && nests d t
    | _ => nests d t

/-- ASDU segments bound one span, within which OPEN and CLOSE pair (R262). -/
def spanOk (l : List Seg) : Bool :=
  let marks := (l.filter (fun x => x.op == 0xE)).map (fun x => x.arg)
  let rest := (l.dropWhile (fun x => x.op != 0xE)).drop 1
  marks == [] || (marks == [0, 1] && nests 0 (rest.takeWhile (fun x => x.op != 0xE)))

/-- Every segment of a template lies within its length (R262). -/
def segsFit : Nat → List Byte → Bool
  | 0, l => l.isEmpty
  | n + 1, l =>
    l.isEmpty || (decide (4 ≤ l.length) &&
      (let pad := if bits (leAt l 0 4) 31 28 = 1 then ceilDiv (leAt l 0 4 % 65536) 4 * 4 else 0
       decide (4 + pad ≤ l.length) && segsFit n (l.drop (4 + pad))))

/-- One segment has values that R262 and R263 give. -/
def segOk (nmem : Nat) (x : Seg) : Bool :=
  match x.op with
  | 0x0 => false
  | 0x7 => decide (x.arg ≤ 2)
  | 0xA => decide (x.arg < nmem) && (bit x.len 0 ||
      (decide (1 ≤ x.ty) && decide (x.ty ≤ 8) && (x.ty != 8 || (decide (1 ≤ bits x.len 15 8) && decide (bits x.len 15 8 ≤ 32)))))
  | 0xE => decide (x.arg ≤ 1)
  | _ => true

/-- The value of member `i` with the longest encoding. -/
def longItem (l : List Seg) (i : Nat) : PubItem :=
  match l.find? (fun x => x.op == 0xA && x.arg == i && !bit x.len 0) with
  | some x => { ty := x.ty, v := if x.ty = 3 then 0x80000000 else 0xFFFFFFFF, q := 0 }
  | none => { ty := 0, v := 0, q := 0 }

/-- The largest frame of a control block, under the AUTH code `auth`; an extension is that of the family's longest tag (R148). -/
def longFrame (s : State) (b : List Byte) (auth : Nat) : List Byte :=
  let l := s.template b
  let n := if cbSrc b = 4 then cbNmem b else 8
  let tag := if auth = 1 then 16 else 32
  let a : SvAsdu := { k := 0, smp := 0, synch := 0, quants := List.replicate n (0, 0) }
  let c : Carry := {
    sim := true, auth := auth, tagLen := tag, st := 2 ^ 32 - 1, sq := 2 ^ 32 - 1
    tal := talMs (max (cbTmin b) (cbTmax b * 1000)), t := leBytes 8 0, items := (List.range 64).map (longItem l)
    asdus := List.replicate (cbNasdu b) a }
  secure c (spanOut (cbNasdu b) l) (Config.extMake (if auth = 1 then 2 else 3) 0 tag [])

/-- Its length with its FCS. -/
def largestFrame (s : State) (b : List Byte) : Nat := (longFrame s b (cbAuth b)).length + 4

/-- Literal octets of segments. -/
def litsOf (l : List Seg) : List Byte := l.flatMap (fun x => x.lit)

/-- The literal numDatSetEntries (tag 0x8A, before the allData of tag 0xAB) equals the number of value MEMBERs (R278). -/
def countOk (l : List Seg) : Bool :=
  let n := (l.filter (fun x => x.op == 0xA && !bit x.len 0)).length
  let b := litsOf (l.takeWhile (fun x => x.op != 0xA))
  (List.range b.length).any (fun i => slice b i 4 == beBytes 4 (0x8A0100AB + n * 256))

/-- Elements of the content of the first element of `l`. -/
def inner (l : List Byte) : Option (List Tlv) := (tlv l).bind (fun e => elems e.1.val)

/-- The identity in the frames of a control block: gocbRef of the GOOSE APDU, or svID of its first ASDU (tag 0x80 of each). -/
def cbIdentity (s : State) (b : List Byte) : Option (List Byte) :=
  match inner (pduOctets (longFrame s b 0)) with
  | none => none
  | some es => if cbSv b then ((pick es 0xA2).bind inner).bind (fun x => pick x 0x80) else pick es 0x80

/-- Cycles of the tick at which bank samples are handed over (R195). -/
def bankHands (s : State) (bank : Nat) : List Nat := if s.preset bank = 0 then [100, 69600, 139017] else [100]

/-- Cycles from hand-over to the entry of a frame (R270). -/
def buildCycles (b : List Byte) : Nat := if cbAuth b = 2 then 820 else 180

/-- Foreground builds of the slotted schedule that lanes hand over: DIV, PH, hand-over cycle, control block. A request that R260
refuses in every run, for a control block that is not in use, of another instance or of a bank, builds nothing. -/
def laneBuilds (s : State) : List (Nat × Nat × Nat × Nat) :=
  (s.liveTasks.filter (fun (x : Nat × List Byte) => !tReady x.2)).flatMap (fun (x : Nat × List Byte) =>
    ((s.calls x.1 0x3E).filter (fun (k : Inv × Nat) =>
      let b := (s.cb k.1.param).bytes
      cbValid b && cbVi b == tVi x.2 && !(cbSv b && cbSrc b != 4))).map
        (fun (k : Inv × Nat) => (tDiv x.2, tPh x.2, tOffset x.2 + k.2 - 1, k.1.param)))

/-- Those that acquisition banks hand over. -/
def bankBuilds (s : State) : List (Nat × Nat × Nat × Nat) :=
  (s.liveCbs.filter (fun (x : Nat × List Byte) => cbSv x.2 && cbSrc x.2 != 4)).flatMap (fun (x : Nat × List Byte) =>
    (bankHands s (cbSrc x.2)).map (fun h => (1, 0, h, x.1)))

/-- Busy spans of the pipelines around tick `g`, counted from its start (R270). -/
def busySpans (s : State) (l : List (Nat × Nat × Nat × Nat)) (g : Nat) : List (Int × Int) :=
  let span := fun (h n : Nat) (back : Int) => ((h : Int) + 1 - back, (h : Int) + (buildCycles (s.cb n).bytes : Int) - back)
  l.flatMap (fun (x : Nat × Nat × Nat × Nat) =>
    (if g % x.1 = x.2.1 then [span x.2.2.1 x.2.2.2 0] else []) ++
      (if (g + 4799) % x.1 = x.2.1 then [span x.2.2.1 x.2.2.2 208333] else []))

/-- Never are more than four foreground builds busy in one cycle. -/
def buildsOk (s : State) : Bool :=
  let l := laneBuilds s ++ bankBuilds s
  decide (l.length ≤ 2) || (List.range 4800).all (fun g =>
    let sp := busySpans s l g
    sp.all (fun (x : Int × Int) => decide ((sp.filter (fun (y : Int × Int) =>
      decide (y.1 ≤ x.1) && decide (x.1 ≤ y.2))).length ≤ 4)))

/-- The tasks that issue K_TRIP, each with a pair it names. -/
def tripCalls (s : State) : List (Nat × Nat) :=
  s.liveTasks.flatMap (fun (x : Nat × List Byte) => (s.calls x.1 0x3F).map (fun (k : Inv × Nat) => (x.1, k.1.param % 16)))

/-- K_TRIP: one task for a pair, of a pair whose stage and pads are enabled, in COIL mode, with PD13 assigned (R278, R323). -/
def tripsOk (s : State) (doms : Nat) : Bool :=
  let l := tripCalls s
  l.all (fun (x : Nat × Nat) => bit doms 13 && s.on (PB_TRIP_EN.i x.2) && s.on (DU_P_EN.i x.2) && s.rd (DU_P_MODE.i x.2) == 2 &&
    l.all (fun (y : Nat × Nat) => x.1 == y.1 || x.2 != y.2))

/-- The latest entry cycle of a stream's build (R270). -/
def entryCycles (s : State) (n : Nat) (b : List Byte) : List Nat :=
  (if cbSrc b = 4 then (laneBuilds s).filterMap (fun (x : Nat × Nat × Nat × Nat) => if x.2.2.2 = n then some x.2.2.1 else none)
   else bankHands s (cbSrc b)).map (fun h => h + buildCycles b)

/-- The rate of an SV stream fits its source: a bank's output rate, or for LANE one frame a tick from slotted tasks of DIV 1; a
release cycle goes with RATE 0x1 and NOASDU 1 (R269; DEDUCED as a check, log entry 101). -/
def svRateOk (s : State) (n : Nat) (b : List Byte) : Bool :=
  (if cbSrc b = 4 then
    cbRate b == 1 && s.liveTasks.all (fun (x : Nat × List Byte) =>
      (!tReady x.2 && tDiv x.2 == 1) || (s.calls x.1 0x3E).all (fun (k : Inv × Nat) => k.1.param != n))
   else decide (cbRate b ≤ 4) && rateOf (cbRate b) == bankRate (s.preset (cbSrc b))) &&
    (cbRel b == 0 || (cbRate b == 1 && cbNasdu b == 1))

/-- One control block in order: its number tells GOOSE from SV (R38, R259). -/
def cbOk (s : State) (doms n : Nat) (b : List Byte) : Bool :=
  let l := s.template b
  decide (n < 2112) && cbSv b == decide (2048 ≤ n) && spanOk l && segsFit 1025 (s.load (cbTpl b) (cbTplLen b)) &&
  (cbAuth b == 0 || bit doms 11) && !bit (cbPorts b) 19 && !bit (cbPorts b) 20 && nests 0 l && l.all (segOk (cbNmem b)) &&
    decide (largestFrame s b ≤ 1518) &&
    (if cbSv b then
      (cbSrc b == 4 || (!s.is5120 && s.preset (cbSrc b) != 3 &&
        (List.range 8).all (fun i => !badScale (s.rd (AQ_CH_PUB_SCALE.i (8 * cbSrc b + i)))))) &&
      svRateOk s n b && (cbRel b == 0 || (entryCycles s n b).all (fun e => decide (e ≤ cbRel b)))
     else countOk l)

/-- The checks of publication. -/
def publicationOk (s : State) (doms : Nat) : Bool :=
  let l := s.liveCbs
  let ids := l.map (fun (x : Nat × List Byte) => (x.1, cbSv x.2, cbIdentity s x.2))
  l.all (fun (x : Nat × List Byte) => cbOk s doms x.1 x.2) && tripsOk s doms && buildsOk s &&
    ids.all (fun (x : Nat × Bool × Option (List Byte)) => ids.all (fun (y : Nat × Bool × Option (List Byte)) =>
      x.1 == y.1 || x.2.1 != y.2.1 || x.2.2.isNone || x.2.2 != y.2.2))

/-! ### Logic programs (R297) -/

/-- Operand slots of a task. -/
def tSlots (b : List Byte) : List Nat := (List.range (tOpN b)).map (fun i => tOpBase b + i)

/-- The head has one CYCLE operand in TRIGGER mode, which is the program's; each later task a RESULT operand that the task before
it posts. -/
def chainOk (s : State) (b : List Byte) : Bool :=
  (pgTasks b).all (fun t =>
    let slots := (tSlots (s.task t)).map (fun i => (i, (s.slot i).latest))
    if t = pgFirst b then
      let cyc := slots.filter (fun (p : Nat × List Byte) => sKind p.2 == 5 && !sLevel p.2)
      cyc.length == 1 && cyc.all (fun (p : Nat × List Byte) => sSel p.2 == pgN b && sCph p.2 == pgCph b)
    else
      slots.any (fun (p : Nat × List Byte) => sKind p.2 == 4 && !sLevel p.2 &&
        (s.calls (t - 1) 0x3D).any (fun (k : Inv × Nat) => k.1.param == p.1)))

/-- One program in order; its home area lies below the boot region (R32). -/
def programOk (s : State) (b : List Byte) : Bool :=
  let f := tFlow (s.task (pgFirst b))
  (pgTasks b).all (fun t =>
    let x := s.task t
    tValid x && tReady x && tVi x == pgVi b && tFlow x == f && f != 0 &&
      (tSlots x).all (fun i => decide (pgSlotBase b ≤ i) && decide (i < pgSlotBase b + pgSlotN b))) &&
    chainOk s b && decide (homePlace b 2 ≤ addrBoot) && pgHomeUnits b == ((s.fbEntries b).map fbUn).foldl (· + ·) 0 &&
    (pgRetUnits b == 0 || (decide (16 ≤ pgRetOfs b * 8) && decide (pgRetOfs b * 8 + 16 + 8 * pgRetUnits b ≤ 0x2000)))

/-- The checks of the logic engine. -/
def programsOk (s : State) : Bool :=
  let l := (s.lg.prgs.filter (fun (p : Nat × Prg) => pgState p.2.bytes != 0)).map (fun (p : Nat × Prg) => (p.1, p.2.bytes))
  l.all (fun (x : Nat × List Byte) => programOk s x.2) &&
    l.all (fun (x : Nat × List Byte) => l.all (fun (y : Nat × List Byte) =>
      x.1 == y.1 || pgRetUnits x.2 == 0 || pgRetUnits y.2 == 0 ||
        decide (pgRetOfs x.2 * 8 + 16 + 8 * pgRetUnits x.2 ≤ pgRetOfs y.2 * 8) ||
        decide (pgRetOfs y.2 * 8 + 16 + 8 * pgRetUnits y.2 ≤ pgRetOfs x.2 * 8)))

/-! ### Disturbance capture (R370) -/

/-- An analogue entry of a definition names a stream of its group and rate, and no bank in DC. -/
def analogueOk (s : State) (r e : Nat) : Bool :=
  let b := s.stream (bits e 12 0 / 8)
  dValid b && dGroup b == s.rd (TG_D_GROUP.i r) &&
    (if dLocal b then s.preset (dBank b) != 3 && bankRate (s.preset (dBank b)) == s.tgRate r
     else dRate b == s.rd (TG_D_RATE.i r))

/-- One record definition in order. -/
def captureOk (s : State) (r : Nat) : Bool :=
  let na := s.tgNa r
  let nb := s.tgNb r
  let mode := s.rd (TG_D_MODE.i r)
  let ch := s.rd (TG_D_CH.i r)
  let n := s.rd (TG_D_PAT_N.i r)
  let pat := s.rd (TG_D_PAT_LO.i r) * 4 + s.rd (TG_D_PAT_HI.i r) * 2 ^ 32
  !s.on (TG_D_EN.i r) ||
    (decide (na ≤ 1024) && decide (nb ≤ 4096) && (List.range na).all (fun i => analogueOk s r (s.chEntry r i)) &&
      (mode != 0 || (decide (1 ≤ n) && decide (n ≤ 256) &&
        (List.range n).all (fun i => decide (s.loadN (pat + 4 * i) 4 % 4096 < nb)))) &&
      decide (s.capBuf r (s.rd (TG_D_BUF_N.i r) + 1) ≤ addrBoot) &&
      (if mode = 1 ∨ mode = 3 then decide (ch < nb) else if mode = 2 ∨ mode = 4 then decide (ch < na) else true))

/-! ### The redundant pair (R480) -/

/-- Map groups that hold unit, timer, slot or control block `i`. -/
def groupsWith (s : State) (kind cluster i : Nat) : List Nat :=
  ((s.smap.filter (fun (e : Nat × List Byte) => smKind e.2 == kind && (kind != 1 || smCluster e.2 == cluster) &&
    decide (smFirst e.2 ≤ i) && decide (i < smFirst e.2 + smCount e.2))).map (fun (e : Nat × List Byte) => smGroup e.2)).eraseDups

/-- What an invocation of a slotted task writes, as kind, cluster and number in the state map. -/
def writtenItems (s : State) (k : Inv) : List (Nat × Nat × Nat) :=
  (k.writeSpans.flatMap (fun (x : Nat × Nat × Nat) => (List.range x.2.2).map (fun i => (1, x.1, x.2.1 + i)))) ++
    (match k.code with
      | 0x3B | 0x3C => [(2, 0, k.param)]
      | 0x3D => if sLevel (s.slot k.param).latest then [(3, 0, k.param)] else []
      | 0x3E => [(4, 0, k.param)]
      | _ => [])

/-- What a slotted task writes. -/
def taskItems (s : State) (t : Nat) : List (Nat × Nat × Nat) := (s.graph t).flatMap (fun (k : Inv × Nat) => writtenItems s k.1)

/-- Spans of units of a map group. -/
def groupUnits (s : State) (g : Nat) : List (Nat × Nat × Nat) :=
  ((s.smGroupOf g).filter (fun (e : Nat × List Byte) => smKind e.2 == 1)).map
    (fun (e : Nat × List Byte) => (smCluster e.2, smFirst e.2, smCount e.2))

/-- Two spans of cycles meet. -/
def cyclesMeet (a b c d : Int) : Bool := decide (a < d) && decide (c < b)

/-- Some tick in which slotted task `x` runs lies `d` ticks after one in which slotted task `y` runs (R219): both DIV divide 4,800. -/
def ticksApart (x y : List Byte) (d : Int) : Bool :=
  (d - ((tPh x : Int) - (tPh y : Int))) % ((Nat.gcd (tDiv x) (tDiv y) : Nat) : Int) == 0

/-- A run of task `b` meets the span of cycles from `lo` to `hi`, counted from a tick start of task `y`, in a tick at most `n` before or after:
tick starts lie 208,333 or 208,334 cycles apart (R23). -/
def runMeets (b y : List Byte) (n : Nat) (lo hi : Int) : Bool :=
  (List.range (2 * n + 1)).any (fun i =>
    let d : Int := (i : Int) - (n : Int)
    ticksApart b y d && [(208333 : Int), 208334].any (fun (t : Int) =>
      cyclesMeet (d * t + (tOffset b : Nat)) (d * t + (tOffset b + tCost b : Nat)) lo hi))

/-- A run of task `t`, which does not belong to group `g`, keeps clear of the group's read and install spans wherever it accesses the
group's units: the read from a run's end of LAST_TASK on, the install before a start of FIRST_TASK, across the tick boundary too (R472). -/
def clearOf (s : State) (g t : Nat) (b : List Byte) : Bool :=
  let es := s.smGroupOf g
  let touches := (s.graph t).any (fun (k : Inv × Nat) => k.1.allSpans.any (fun x => (groupUnits s g).any (spansShare x)))
  let bytes := es.foldl (fun a (e : Nat × List Byte) => a + smBytes e.2) 0
  let len : Int := (ceilDiv bytes 16 : Nat)
  let n := (ceilDiv bytes 16 + 500000) / 208333 + 1
  !touches || (taskItems s t).any (fun (x : Nat × Nat × Nat) => (groupsWith s x.1 x.2.1 x.2.2).contains g) ||
    (!tReady b && es.all (fun (e : Nat × List Byte) =>
      let l := s.task (smLast e.2)
      let f := s.task (smFirstTask e.2)
      let from' : Int := (tOffset l + tCost l : Nat)
      let to' : Int := (tOffset f : Nat)
      !runMeets b l n from' (from' + len) && !runMeets b f n (to' - 16 - len) to'))

/-- A cycle at which no entry and no change of a pad may lie on a pair. -/
def edgeCycle (c : Nat) : Bool := decide (c < 1000) || decide (207291 ≤ c)

/-- The checks of the pair. -/
def pairOk (s : State) (doms : Nat) : Bool :=
  let slotted := s.liveTasks.filter (fun (x : Nat × List Byte) => !tReady x.2)
  !s.on PR_CTRL_EN ||
    (bit doms 10 && s.liveTasks.all (fun (x : Nat × List Byte) => !tReady x.2 || (s.calls x.1 0x3F).isEmpty) &&
      (laneBuilds s).all (fun (x : Nat × Nat × Nat × Nat) =>
        let b := (s.cb x.2.2.2).bytes
        !edgeCycle (if cbSv b ∧ cbRel b ≠ 0 then cbRel b else x.2.2.1 + buildCycles b)) &&
      slotted.all (fun (x : Nat × List Byte) =>
        (s.calls x.1 0x3F).all (fun (k : Inv × Nat) => !edgeCycle (tOffset x.2 + k.2 - 1 + 48)) &&
        (taskItems s x.1).all (fun (y : Nat × Nat × Nat) => (groupsWith s y.1 y.2.1 y.2.2).length == 1)) &&
      s.smGroups.all (fun g => s.liveTasks.all (fun (x : Nat × List Byte) => clearOf s g x.1 x.2)))

/-! ### The boot region (R32) -/

/-- No recording buffer and no mirror destination reaches into the boot region or beyond the DRAM (R32, R206, R386). -/
def assignOk (s : State) : Bool :=
  (List.range 4).all (fun b =>
    let n := s.rd (AQ_BUF_SIZE_LOG2.i b)
    n == 0 || decide (s.rd (AQ_BUF_BASE_LO.i b) * 4096 + s.rd (AQ_BUF_BASE_HI.i b) * 2 ^ 32 + 2 ^ n * 64 ≤ addrBoot)) &&
    (List.range 512).all (fun v => (List.range 4).all (fun m =>
      !s.on ((VI_M_EN.p v).i m) ||
        decide (s.rd ((VI_M_DEST_HI.p v).i m) * 2 ^ 32 + s.rd ((VI_M_DEST_LO.p v).i m) * 64 + 64 +
          8 * s.rd ((VI_M_UN.p v).i m) ≤ addrBoot)))

/-! ### All of them -/

/-- The configuration checks of every chapter (R438): the image's own state `s`, DOMAINS `doms`. -/
def checksOk (s : State) (doms : Nat) : Bool :=
  bit doms 0 && bit doms 1 && bit doms 14 && bit doms 15 && !(s.is5120 && bit doms 12) && subscriptionOk s && alignmentOk s &&
    tasksOk s doms && graphsOk s && publicationOk s doms && programsOk s && (List.range 16).all (captureOk s) && pairOk s doms &&
    assignOk s

end Sys2Proof.Machine
end

