-- ==== Sys2Proof/Machine/RegRows.lean ====
section
/-!
DEFINITION. The commands that are one access of one register: each writes or reads its register over the map, so that the
register's page, its domain and its requester are treated as for any access.
-/
namespace Sys2Proof.Machine

/-- Offset of register `k` of a ring pair: a steward ring on the page of I2, or the tenant ring of an instance page (R103). -/
def ringReg (r : Ring) (k : Nat) : Nat :=
  match r with
  | .steward n => 0x250400 + 0x40 * n.val + 4 * k
  | .tenant v => 0x1000800 + v.val * 0x10000 + 4 * k

/-! ### House clock (R41–R51, R67) -/

/-- RATE_WRITE (R41). -/
def execRateWrite (req : Requester) (b : Fin 4) (v : Word) (s : State) : Host.Outcome State Fault Refusal :=
  .next (writeReg req (0x40118 + b.val * 0x40) (v.toNat) s)

/-- SLEW_WRITE (R42). -/
def execSlewWrite (req : Requester) (b : Fin 4) (v : Word) (s : State) : Host.Outcome State Fault Refusal :=
  .next (writeReg req (0x40120 + b.val * 0x40) (v.toNat) s)

/-- SLEW_PPM_WRITE (R42). -/
def execSlewPpmWrite (req : Requester) (b : Fin 4) (v : Word) (s : State) : Host.Outcome State Fault Refusal :=
  .next (writeReg req (0x40124 + b.val * 0x40) (v.toNat) s)

/-- HC_CTRL_WRITE (R45). -/
def execHcCtrlWrite (req : Requester) (v : Word) (s : State) : Host.Outcome State Fault Refusal :=
  .next (writeReg req (0x40000) (v.toNat) s)

/-- TIME_SNAPSHOT (R48). -/
def execTimeSnapshot (req : Requester) (b : Fin 4) (s : State) : Host.Outcome State Fault Refusal :=
  .next (readReg req (0x40100 + b.val * 0x40) s)

/-- STAGING_WRITE (R51). -/
def execStagingWrite (req : Requester) (b : Fin 4) (k : Fin 5) (v : Word) (s : State) : Host.Outcome State Fault Refusal :=
  .next (writeReg req (0x40128 + b.val * 0x40 + 4 * k.val) (v.toNat) s)

/-- COMMIT_ABS (R49). -/
def execCommitAbs (req : Requester) (b : Fin 4) (s : State) : Host.Outcome State Fault Refusal :=
  .next (writeReg req (0x4013C + b.val * 0x40) (1) s)

/-- COMMIT_REL (R49). -/
def execCommitRel (req : Requester) (b : Fin 4) (s : State) : Host.Outcome State Fault Refusal :=
  .next (writeReg req (0x4013C + b.val * 0x40) (2) s)

/-- CANCEL (R51). -/
def execHcCancel (req : Requester) (b : Fin 4) (s : State) : Host.Outcome State Fault Refusal :=
  .next (writeReg req (0x4013C + b.val * 0x40) (3) s)

/-- PPS_GROUP_LATCH (R67). -/
def execPpsGroupLatch (req : Requester) (irig : Bool) (s : State) : Host.Outcome State Fault Refusal :=
  .next (readReg req (if irig then 0x40044 else 0x40024) s)

/-! ### Ports and the Hall (R71, R82, R89, R91, R92, R101, R104, R128, R129) -/

/-- PT_CTRL_WRITE (R71). -/
def execPtCtrlWrite (req : Requester) (p : Fin 22) (v : Word) (s : State) : Host.Outcome State Fault Refusal :=
  .next (writeReg req (0x100000 + p.val * 0x10000) (v.toNat) s)

/-- PORT_ENABLE (R92; PT_CTRL with EN set). -/
def execPortEnable (req : Requester) (p : Fin 19) (s : State) : Host.Outcome State Fault Refusal :=
  .next (writeReg req (0x100000 + p.val * 0x10000) (setBits (s.word (PT_CTRL_EN.p p.val).addr) 31 31 1) s)

/-- PORT_DISABLE (R128; PT_CTRL with EN clear). -/
def execPortDisable (req : Requester) (p : Fin 19) (s : State) : Host.Outcome State Fault Refusal :=
  .next (writeReg req (0x100000 + p.val * 0x10000) (setBits (s.word (PT_CTRL_EN.p p.val).addr) 31 31 0) s)

/-- PAUSE_REARM (R91). -/
def execPauseRearm (req : Requester) (p : Fin 19) (s : State) : Host.Outcome State Fault Refusal :=
  .next (writeReg req (0x100000 + p.val * 0x10000 + 8) (4) s)

/-- DORMANT (R89). -/
def execPtDormant (req : Requester) (p : Fin 19) (s : State) : Host.Outcome State Fault Refusal :=
  .next (writeReg req (0x100000 + p.val * 0x10000 + 8) (1) s)

/-- WAKE (R89). -/
def execPtWake (req : Requester) (p : Fin 19) (s : State) : Host.Outcome State Fault Refusal :=
  .next (writeReg req (0x100000 + p.val * 0x10000 + 8) (2) s)

/-- PREEMPT_EN_WRITE (R82). -/
def execPreemptEnWrite (req : Requester) (p : Fin 19) (v : Word) (s : State) : Host.Outcome State Fault Refusal :=
  .next (writeReg req (0x100000 + p.val * 0x10000 + 0x10) (v.toNat) s)

/-- OCTET_COUNTER_LATCH (R101). -/
def execOctetCounterLatch (req : Requester) (p : Fin 22) (tx : Bool) (s : State) : Host.Outcome State Fault Refusal :=
  .next (readReg req (0x100000 + p.val * 0x10000 + (if tx then 0x110 else 0x104)) s)

/-- RING_REG_WRITE (R104). -/
def execRingRegWrite (req : Requester) (r : Ring) (k : Fin 9) (v : Word) (s : State) : Host.Outcome State Fault Refusal :=
  .next (writeReg req (ringReg r k.val) (v.toNat) s)

/-- HL_RED_WRITE (R129). -/
def execHlRedWrite (req : Requester) (k : Fin 8) (v : Word) (s : State) : Host.Outcome State Fault Refusal :=
  .next (writeReg req (0x300050 + 4 * k.val) (v.toNat) s)

/-! ### Subscription (R140, R152, R157, R158) -/

/-- SB_TBL_READ (R158). -/
def execSbTblRead (req : Requester) (s : State) : Host.Outcome State Fault Refusal :=
  .next (writeReg req (0x400014) (1) s)

/-- SB_TBL_WRITE (R140). -/
def execSbTblWrite (req : Requester) (s : State) : Host.Outcome State Fault Refusal :=
  .next (writeReg req (0x400014) (2) s)

/-- SB_TBL_INVALIDATE (R140). -/
def execSbTblInvalidate (req : Requester) (s : State) : Host.Outcome State Fault Refusal :=
  .next (writeReg req (0x400014) (3) s)

/-- SB_MAP_READ (R158). -/
def execSbMapRead (req : Requester) (s : State) : Host.Outcome State Fault Refusal :=
  .next (writeReg req (0x400024) (1) s)

/-- SB_MAP_WRITE (R158). -/
def execSbMapWrite (req : Requester) (s : State) : Host.Outcome State Fault Refusal :=
  .next (writeReg req (0x400024) (2) s)

/-- SB_VEST_READ (R157). -/
def execSbVestRead (req : Requester) (s : State) : Host.Outcome State Fault Refusal :=
  .next (writeReg req (0x400144) (1) s)

/-- SB_VEST_REMOVE (R158). -/
def execSbVestRemove (req : Requester) (s : State) : Host.Outcome State Fault Refusal :=
  .next (writeReg req (0x400144) (2) s)

/-- SB_ST_LATCH (R158). -/
def execSbStLatch (req : Requester) (v : Word) (s : State) : Host.Outcome State Fault Refusal :=
  .next (writeReg req (0x400080) (v.toNat) s)

/-- DISC_RECORD_POP (R158). -/
def execDiscRecordPop (req : Requester) (s : State) : Host.Outcome State Fault Refusal :=
  .next (readReg req (0x40010C) s)

/-- DISC_POST (R158). -/
def execDiscPost (req : Requester) (v : Word) (s : State) : Host.Outcome State Fault Refusal :=
  .next (writeReg req (0x40011C) (v.toNat) s)

/-- SB_SIM_WRITE (R152). -/
def execSbSimWrite (req : Requester) (v : Word) (s : State) : Host.Outcome State Fault Refusal :=
  .next (writeReg req (0x400000) (v.toNat) s)

/-! ### Alignment and acquisition (R166, R168, R185, R192, R198, R209) -/

/-- AL_STR_READ (R185). -/
def execAlStrRead (req : Requester) (s : State) : Host.Outcome State Fault Refusal :=
  .next (writeReg req (0x500014) (1) s)

/-- AL_STR_WRITE (R166). -/
def execAlStrWrite (req : Requester) (s : State) : Host.Outcome State Fault Refusal :=
  .next (writeReg req (0x500014) (2) s)

/-- AL_STR_INVALIDATE (R166). -/
def execAlStrInvalidate (req : Requester) (s : State) : Host.Outcome State Fault Refusal :=
  .next (writeReg req (0x500014) (3) s)

/-- AL_CNT_LATCH (R185). -/
def execAlCntLatch (req : Requester) (v : Word) (s : State) : Host.Outcome State Fault Refusal :=
  .next (writeReg req (0x500020) (v.toNat) s)

/-- AL_CTRL_WRITE (R185). -/
def execAlCtrlWrite (req : Requester) (v : Word) (s : State) : Host.Outcome State Fault Refusal :=
  .next (writeReg req (0x500000) (v.toNat) s)

/-- AL_GROUP_WRITE (R168). -/
def execAlGroupWrite (req : Requester) (g : Fin 64) (v : Word) (s : State) : Host.Outcome State Fault Refusal :=
  .next (writeReg req (0x500100 + 4 * g.val) (v.toNat) s)

/-- TDC_POP (R209). -/
def execTdcPop (req : Requester) (s : State) : Host.Outcome State Fault Refusal := .next (readReg req (0x90009C) s)

/-- AQ_BANK_WRITE (R192; word 0 is AQ_BANK, words 1 to 3 the buffer's). -/
def execAqBankWrite (req : Requester) (b : Fin 4) (k : Fin 4) (v : Word) (s : State) : Host.Outcome State Fault Refusal :=
  .next (writeReg req (if k.val = 0 then 0x900010 + 4 * b.val else 0x90003C + 0x10 * b.val + 4 * k.val) (v.toNat) s)

/-- AQ_CH_CFG_WRITE (R198). -/
def execAqChCfgWrite (req : Requester) (ch : Fin 32) (v : Word) (s : State) : Host.Outcome State Fault Refusal :=
  .next (writeReg req (0x900100 + 0x20 * ch.val) (v.toNat) s)

/-- AQ_CTRL_WRITE (R198). -/
def execAqCtrlWrite (req : Requester) (v : Word) (s : State) : Host.Outcome State Fault Refusal :=
  .next (writeReg req (0x900000) (v.toNat) s)

/-! ### Dispatcher (R228, R233, R235) -/

/-- DS_TASK_READ (R235). -/
def execDsTaskRead (req : Requester) (s : State) : Host.Outcome State Fault Refusal :=
  .next (writeReg req (0x700014) (1) s)

/-- DS_TASK_WRITE (R233). -/
def execDsTaskWrite (req : Requester) (s : State) : Host.Outcome State Fault Refusal :=
  .next (writeReg req (0x700014) (2) s)

/-- DS_TASK_INVALIDATE (R233). -/
def execDsTaskInvalidate (req : Requester) (s : State) : Host.Outcome State Fault Refusal :=
  .next (writeReg req (0x700014) (3) s)

/-- DS_SLOT_READ (R235). -/
def execDsSlotRead (req : Requester) (s : State) : Host.Outcome State Fault Refusal :=
  .next (writeReg req (0x700024) (1) s)

/-- DS_SLOT_WRITE (R233). -/
def execDsSlotWrite (req : Requester) (s : State) : Host.Outcome State Fault Refusal :=
  .next (writeReg req (0x700024) (2) s)

/-- DS_TMR_READ (R235). -/
def execDsTmrRead (req : Requester) (s : State) : Host.Outcome State Fault Refusal :=
  .next (writeReg req (0x700034) (1) s)

/-- ARM (R228). -/
def execDsArm (req : Requester) (s : State) : Host.Outcome State Fault Refusal := .next (writeReg req (0x700034) (2) s)

/-- DS_TMR_CANCEL (R228). -/
def execDsTmrCancel (req : Requester) (s : State) : Host.Outcome State Fault Refusal :=
  .next (writeReg req (0x700034) (3) s)

/-- DS_CNT_LATCH (R235). -/
def execDsCntLatch (req : Requester) (v : Word) (s : State) : Host.Outcome State Fault Refusal :=
  .next (writeReg req (0x700090) (v.toNat) s)

/-- DS_FLOW_LATCH (R235). -/
def execDsFlowLatch (req : Requester) (v : Word) (s : State) : Host.Outcome State Fault Refusal :=
  .next (writeReg req (0x7000A0) (v.toNat) s)

/-! ### Publication (R280) -/

/-- PB_CB_READ (R280). -/
def execPbCbRead (req : Requester) (s : State) : Host.Outcome State Fault Refusal :=
  .next (writeReg req (0x600014) (1) s)

/-- PB_CB_WRITE (R280). -/
def execPbCbWrite (req : Requester) (s : State) : Host.Outcome State Fault Refusal :=
  .next (writeReg req (0x600014) (2) s)

/-- PB_CB_INVALIDATE (R280). -/
def execPbCbInvalidate (req : Requester) (s : State) : Host.Outcome State Fault Refusal :=
  .next (writeReg req (0x600014) (3) s)

/-- PB_ST_LATCH (R280). -/
def execPbStLatch (req : Requester) (v : Word) (s : State) : Host.Outcome State Fault Refusal :=
  .next (writeReg req (0x600080) (v.toNat) s)

/-! ### Logic engine (R294, R305, R309, R311, R312) -/

/-- LG_PRG_READ (R312). -/
def execLgPrgRead (req : Requester) (s : State) : Host.Outcome State Fault Refusal :=
  .next (writeReg req (0x800014) (1) s)

/-- LG_PRG_WRITE (R294). -/
def execLgPrgWrite (req : Requester) (s : State) : Host.Outcome State Fault Refusal :=
  .next (writeReg req (0x800014) (2) s)

/-- LG_PRG_INVALIDATE (R294). -/
def execLgPrgInvalidate (req : Requester) (s : State) : Host.Outcome State Fault Refusal :=
  .next (writeReg req (0x800014) (3) s)

/-- LG_FRC_READ (R312). -/
def execLgFrcRead (req : Requester) (s : State) : Host.Outcome State Fault Refusal :=
  .next (writeReg req (0x800024) (1) s)

/-- SET (R305). -/
def execFrcSet (req : Requester) (s : State) : Host.Outcome State Fault Refusal := .next (writeReg req (0x800024) (2) s)

/-- CLEAR (R305). -/
def execFrcClear (req : Requester) (s : State) : Host.Outcome State Fault Refusal :=
  .next (writeReg req (0x800024) (3) s)

/-- EXCHANGE (R309). -/
def execExchange (req : Requester) (v : Word) (s : State) : Host.Outcome State Fault Refusal :=
  .next (writeReg req (0x800018) (setBits v.toNat 31 30 1) s)

/-- LG_XCH_CANCEL (R311). -/
def execLgXchCancel (req : Requester) (s : State) : Host.Outcome State Fault Refusal :=
  .next (writeReg req (0x800018) (setBits (s.word LG_XCH_OLD.addr) 31 30 2) s)

/-- LG_ST_LATCH (R312). -/
def execLgStLatch (req : Requester) (v : Word) (s : State) : Host.Outcome State Fault Refusal :=
  .next (writeReg req (0x800030) (v.toNat) s)

/-! ### Drive unit (R317, R321, R324, R327) -/

/-- DU_COMMIT (R317). -/
def execDuCommit (req : Requester) (v : Word) (s : State) : Host.Outcome State Fault Refusal :=
  .next (writeReg req (0xA00008) (v.toNat) s)

/-- DU_SHADOW_WRITE (R317). -/
def execDuShadowWrite (req : Requester) (k : Fin 12) (duty : Bool) (v : Word) (s : State) : Host.Outcome State Fault Refusal :=
  .next (writeReg req (0xA00204 + 0x40 * k.val + 4 * b2n duty) (v.toNat) s)

/-- DU_PAIR_CFG_WRITE (R321). -/
def execDuPairCfgWrite (req : Requester) (k : Fin 12) (v : Word) (s : State) : Host.Outcome State Fault Refusal :=
  .next (writeReg req (0xA00200 + 0x40 * k.val) (v.toNat) s)

/-- DU_CTRL_WRITE (R327). -/
def execDuCtrlWrite (req : Requester) (v : Word) (s : State) : Host.Outcome State Fault Refusal :=
  .next (writeReg req (0xA00000) (v.toNat) s)

/-- FAULT_CLEAR (R324). -/
def execFaultClear (req : Requester) (f : Fin 8) (v : Word) (s : State) : Host.Outcome State Fault Refusal :=
  .next (writeReg req (0xA00020 + 4 * f.val) (setBits v.toNat 16 16 1) s)

/-- SNS_POP (R327). -/
def execSnsPop (req : Requester) (s : State) : Host.Outcome State Fault Refusal := .next (readReg req (0xA0005C) s)

/-! ### Cellar (R337, R338, R341, R342, R345) -/

/-- CALENDAR_FREEZE (R337). -/
def execCalendarFreeze (req : Requester) (k : Fin 7) (s : State) : Host.Outcome State Fault Refusal :=
  .next (readReg req (0x50010 + 4 * k.val) s)

/-- CALENDAR_YEAR_READ (R337). -/
def execCalendarYearRead (req : Requester) (s : State) : Host.Outcome State Fault Refusal :=
  .next (readReg req (0x5002C) s)

/-- SET_TIME (R338). -/
def execSetTime (req : Requester) (s : State) : Host.Outcome State Fault Refusal := .next (writeReg req (0x50038) (1) s)

/-- SET_WDAY (R338). -/
def execSetWday (req : Requester) (w : Fin 8) (s : State) : Host.Outcome State Fault Refusal :=
  .next (writeReg req (0x50038) (w.val * 256 + 2) s)

/-- CL_SHIFT_WRITE (R341). -/
def execClShiftWrite (req : Requester) (v : Word) (s : State) : Host.Outcome State Fault Refusal :=
  .next (writeReg req (0x50040) (v.toNat) s)

/-- CNT_WRITE (R345). -/
def execCntWrite (req : Requester) (pcyc : Bool) (v : Word) (s : State) : Host.Outcome State Fault Refusal :=
  .next (writeReg req (if pcyc then 0x50058 else 0x50050) (v.toNat) s)

/-! ### Recording (R358, R359, R365, R368, R371) -/

/-- EV_RD_SEQ_WRITE (R358). -/
def execEvRdSeqWrite (req : Requester) (v : Word) (s : State) : Host.Outcome State Fault Refusal :=
  .next (writeReg req (0xB00020) (v.toNat) s)

/-- EV_FIRST_LATCH (R358). -/
def execEvFirstLatch (req : Requester) (s : State) : Host.Outcome State Fault Refusal := .next (readReg req (0xB00010) s)

/-- CLEAR_NONCE (R359). -/
def execClearNonce (req : Requester) (s : State) : Host.Outcome State Fault Refusal := .next (readReg req (0xB00080) s)

/-- LOG_CLEAR (R359). -/
def execLogClear (req : Requester) (slot : Fin 256) (s : State) : Host.Outcome State Fault Refusal :=
  .next (writeReg req (0xB00088) (2 ^ 30 + slot.val) s)

/-- EV_POST (R371). -/
def execEvPost (req : Requester) (src : Fin 256) (code : Fin 256) (s : State) : Host.Outcome State Fault Refusal :=
  .next (writeReg req (0xB00068) (src.val * 256 + code.val) s)

/-- TG_FORCE (R365). -/
def execTgForce (req : Requester) (v : Word) (s : State) : Host.Outcome State Fault Refusal :=
  .next (writeReg req (0xC0000C) (v.toNat) s)

/-- TG_REL (R368). -/
def execTgRel (req : Requester) (v : Word) (s : State) : Host.Outcome State Fault Refusal :=
  .next (writeReg req (0xC00010) (v.toNat) s)

/-! ### Instances (R379, R384, R388, R391, R393) -/

/-- POST_T2M (R379). -/
def execPostT2m (req : Requester) (v : Fin 512) (i : Fin 2) (s : State) : Host.Outcome State Fault Refusal :=
  .next (writeReg req (0x1000000 + v.val * 0x10000 + 0x100) (2 ^ i.val) s)

/-- ACK_M2T (R379). -/
def execAckM2t (req : Requester) (v : Fin 512) (i : Fin 2) (s : State) : Host.Outcome State Fault Refusal :=
  .next (writeReg req (0x1000000 + v.val * 0x10000 + 0x100) (2 ^ (8 + i.val)) s)

/-- POST_M2T (R379). -/
def execPostM2t (req : Requester) (v : Fin 512) (i : Fin 2) (s : State) : Host.Outcome State Fault Refusal :=
  .next (writeReg req (0x1000000 + v.val * 0x10000 + 0x104) (2 ^ i.val) s)

/-- ACK_T2M (R379). -/
def execAckT2m (req : Requester) (v : Fin 512) (i : Fin 2) (s : State) : Host.Outcome State Fault Refusal :=
  .next (writeReg req (0x1000000 + v.val * 0x10000 + 0x104) (2 ^ (8 + i.val)) s)

/-- WINDOW_ENTRY_WRITE (R384). -/
def execWindowEntryWrite (req : Requester) (v : Fin 512) (w : Fin 16) (k : Fin 4) (x : Word) (s : State) : Host.Outcome State Fault Refusal :=
  .next (writeReg req (0x1000000 + v.val * 0x10000 + 0x1000 + 0x10 * w.val + 4 * k.val) (x.toNat) s)

/-- VI_PUB_REQUEST (R388). -/
def execViPubRequest (req : Requester) (v : Fin 512) (x : Word) (s : State) : Host.Outcome State Fault Refusal :=
  .next (writeReg req (0x1000000 + v.val * 0x10000 + 0x900) (setBits x.toNat 31 31 1) s)

/-- LSHARE_WRITE (R391). -/
def execLshareWrite (req : Requester) (v : Fin 512) (x : Word) (s : State) : Host.Outcome State Fault Refusal :=
  .next (writeReg req (0x1000000 + v.val * 0x10000 + 0x10) (x.toNat) s)

/-- RESET (R393). -/
def execViReset (req : Requester) (v : Fin 512) (keep : Bool) (s : State) : Host.Outcome State Fault Refusal :=
  .next (writeReg req (0x1000000 + v.val * 0x10000 + 0xC) (1 + 4 * b2n keep) s)

/-! ### Ownership (R399–R401) -/

/-- OW_CLAIM (R399). -/
def execOwClaim (req : Requester) (s : State) : Host.Outcome State Fault Refusal := .next (writeReg req (0x20004) (1) s)

/-- OW_RELEASE (R399). -/
def execOwRelease (req : Requester) (s : State) : Host.Outcome State Fault Refusal :=
  .next (writeReg req (0x20008) (1) s)

/-- OW_OFFER (R400). -/
def execOwOffer (req : Requester) (t : Fin 16) (s : State) : Host.Outcome State Fault Refusal :=
  .next (writeReg req (0x2000C) (t.val) s)

/-- OW_ACCEPT (R400). -/
def execOwAccept (req : Requester) (s : State) : Host.Outcome State Fault Refusal := .next (writeReg req (0x20010) (1) s)

/-- REFRESH (R401). -/
def execRefresh (req : Requester) (v : Word) (s : State) : Host.Outcome State Fault Refusal :=
  .next (writeReg req (0x20014) (setBits v.toNat 31 31 1) s)

/-- OW_REVOKE (R401). -/
def execOwRevoke (req : Requester) (s : State) : Host.Outcome State Fault Refusal := .next (writeReg req (0x20030) (1) s)

/-! ### Key store (R413, R415, R416, R418) -/

/-- READ_ATTR (R415). -/
def execReadAttr (req : Requester) (t : Fin 256) (s : State) : Host.Outcome State Fault Refusal :=
  .next (writeReg req (0x60008) (2 ^ 28 + t.val) s)

/-- IMPORT (R415). -/
def execKsImport (req : Requester) (t : Fin 256) (s : State) : Host.Outcome State Fault Refusal :=
  .next (writeReg req (0x60008) (2 * 2 ^ 28 + t.val) s)

/-- GENERATE (R415). -/
def execGenerate (req : Requester) (t : Fin 256) (s : State) : Host.Outcome State Fault Refusal :=
  .next (writeReg req (0x60008) (3 * 2 ^ 28 + t.val) s)

/-- DERIVE (R415). -/
def execDerive (req : Requester) (t : Fin 256) (src : Fin 256) (rooted : Bool) (s : State) : Host.Outcome State Fault Refusal :=
  .next (writeReg req (0x60008) (4 * 2 ^ 28 + b2n rooted * 2 ^ 27 + src.val * 256 + t.val) s)

/-- WRAP (R418). -/
def execWrap (req : Requester) (src : Fin 256) (s : State) : Host.Outcome State Fault Refusal :=
  .next (writeReg req (0x60008) (5 * 2 ^ 28 + src.val * 256) s)

/-- UNWRAP (R418). -/
def execUnwrap (req : Requester) (t : Fin 256) (s : State) : Host.Outcome State Fault Refusal :=
  .next (writeReg req (0x60008) (6 * 2 ^ 28 + t.val) s)

/-- KS_INVALIDATE (R416). -/
def execKsInvalidate (req : Requester) (t : Fin 256) (s : State) : Host.Outcome State Fault Refusal :=
  .next (writeReg req (0x60008) (7 * 2 ^ 28 + t.val) s)

/-- SESSION_OUT (R415). -/
def execSessionOut (req : Requester) (src : Fin 256) (s : State) : Host.Outcome State Fault Refusal :=
  .next (writeReg req (0x60008) (8 * 2 ^ 28 + src.val * 256) s)

/-- PROVISION (R413). -/
def execProvision (req : Requester) (key : BitVec 16) (s : State) : Host.Outcome State Fault Refusal :=
  .next (writeReg req (0x6000C) (key.toNat * 65536 + 1) s)

/-- COMMISSION (R413). -/
def execCommission (req : Requester) (key : BitVec 16) (s : State) : Host.Outcome State Fault Refusal :=
  .next (writeReg req (0x6000C) (key.toNat * 65536 + 2) s)

/-- RECOVER (R413). -/
def execRecover (req : Requester) (key : BitVec 16) (s : State) : Host.Outcome State Fault Refusal :=
  .next (writeReg req (0x6000C) (key.toNat * 65536 + 3) s)

/-- INSTALL_ROOT (R413). -/
def execInstallRoot (req : Requester) (key : BitVec 16) (s : State) : Host.Outcome State Fault Refusal :=
  .next (writeReg req (0x6000C) (key.toNat * 65536 + 4) s)

/-- ADD_PKH1 (R413). -/
def execAddPkh1 (req : Requester) (key : BitVec 16) (s : State) : Host.Outcome State Fault Refusal :=
  .next (writeReg req (0x6000C) (key.toNat * 65536 + 5) s)

/-- REVOKE0 (R413). -/
def execRevoke0 (req : Requester) (key : BitVec 16) (s : State) : Host.Outcome State Fault Refusal :=
  .next (writeReg req (0x6000C) (key.toNat * 65536 + 6) s)

/-- RETIRE (R413). -/
def execRetire (req : Requester) (key : BitVec 16) (s : State) : Host.Outcome State Fault Refusal :=
  .next (writeReg req (0x6000C) (key.toNat * 65536 + 7) s)

/-! ### Boot, power and events (R27, R435, R442–R444, R484, R490) -/

/-- SUBMIT (R435). -/
def execSubmit (req : Requester) (s : State) : Host.Outcome State Fault Refusal := .next (writeReg req (0x10008) (1) s)

/-- ABORT (R435). -/
def execAbort (req : Requester) (s : State) : Host.Outcome State Fault Refusal := .next (writeReg req (0x10008) (2) s)

/-- ENTER (R442). -/
def execSvcEnter (req : Requester) (s : State) : Host.Outcome State Fault Refusal :=
  .next (writeReg req (0x10014) (2 ^ 31) s)

/-- RESTART_COLD (R443). -/
def execRestartCold (req : Requester) (s : State) : Host.Outcome State Fault Refusal :=
  .next (writeReg req (0x10) (2 ^ 28) s)

/-- RESTART_WARM (R443). -/
def execRestartWarm (req : Requester) (s : State) : Host.Outcome State Fault Refusal :=
  .next (writeReg req (0x10) (2 * 2 ^ 28) s)

/-- PM_DORMANT (R27). -/
def execPmDormant (req : Requester) (pd : Fin 16) (s : State) : Host.Outcome State Fault Refusal :=
  .next (writeReg req (0x10) (3 * 2 ^ 28 + pd.val) s)

/-- PM_WAKE (R27). -/
def execPmWake (req : Requester) (pd : Fin 16) (s : State) : Host.Outcome State Fault Refusal :=
  .next (writeReg req (0x10) (4 * 2 ^ 28 + pd.val) s)

/-- KICK (R444). -/
def execKick (req : Requester) (v : Word) (s : State) : Host.Outcome State Fault Refusal :=
  .next (writeReg req (0x14) (setBits v.toNat 31 31 1) s)

/-- IC_SOFT_WRITE (R484). -/
def execIcSoftWrite (req : Requester) (v : Word) (s : State) : Host.Outcome State Fault Refusal :=
  .next (writeReg req (0x30008) (v.toNat) s)

/-- IC_FENCE_GO (R490). -/
def execIcFenceGo (req : Requester) (c : Fin 32) (s : State) : Host.Outcome State Fault Refusal :=
  .next (writeReg req (0x3000C) (2 ^ 31 + c.val) s)

/-- RET_DATA_ACCESS (R342). -/
def execRetDataAccess (req : Requester) (v : Option Word) (s : State) : Host.Outcome State Fault Refusal :=
  match v with
  | some x => .next (writeReg req 0x500A4 x.toNat s)
  | none => .next (readReg req 0x500A4 s)

end Sys2Proof.Machine
end

