-- ==== Sys2Proof/Machine/Image.lean ====
section
/-!
DEFINITION. The station image (18_start_to_service.md R438–R440): its body in the staging range, its sections, its checks, and
CONFIGURE's end.
-/
namespace Sys2Proof.Machine

/-! ### Header and sections (R430, R439) -/

def imgBodyLen (h : List Byte) : Nat := leAt h 8 4
def imgDomains (h : List Byte) : Nat := leAt h 18 2
def imgDiscMax (h : List Byte) : Nat := leAt h 28 2
def imgSections (h : List Byte) : Nat := leAt h 30 2
def imgFwMin (h : List Byte) : Nat := leAt h 32 4
def imgDigest (h : List Byte) : List Byte := slice h 48 48

/-- The staging range (R438). -/
def addrStaging : Nat := 0x01F6000000

/-- A section: KIND, ADDR, LEN and its data. -/
structure Section where
  kind : Nat
  addr : Nat
  len : Nat
  data : List Byte
deriving DecidableEq, Repr

/-- The sections of a body. A FILL section has no data. -/
def sectionsOf : Nat → List Byte → List Section
  | 0, _ => []
  | n + 1, b =>
    let kind := leAt b 0 1
    let len := leAt b 12 4
    let data := if kind = 3 then [] else slice b 16 len
    { kind := kind, addr := leAt b 4 5, len := len, data := data } ::
      sectionsOf n (b.drop (16 + (if kind = 3 then 0 else ceilDiv len 16 * 16)))

/-- One byte to the address map: memory of a powered domain takes it, unless it lies in a fenced cluster (R28, R30). -/
def loadByte (a : Nat) (v : Byte) (s : State) : State :=
  match target a with
  | .memory d c => if s.dom d = 1 ∧ !((c.map s.fenced).getD false) then s.store a [v] else s
  | .larder | .register _ | .unassigned => s

/-- A section is applied: bytes, register pairs as writes of the loader, or zeros. -/
def applySection (x : Section) (s : State) : State :=
  match x.kind with
  | 1 => x.data.zipIdx.foldl (fun (t : State) p => loadByte (x.addr + p.2) p.1 t) s
  | 2 => (List.range (x.len / 8)).foldl (fun (t : State) i =>
      writeReg .loader (leAt x.data (8 * i) 4) (leAt x.data (8 * i + 4) 4) t) s
  | 3 => (List.range x.len).foldl (fun (t : State) i => loadByte (x.addr + i) 0 t) s
  | _ => s

/-- The sections in body order; the loader's own writes leave no completion behind. -/
def applySections (l : List Section) (s : State) : State :=
  { l.foldl (fun (t : State) x => applySection x t) s with bus := s.bus }

/-! ### The checks (R438) -/

/-- What the checks look at: the image applied with every domain powered and its own assignment in force (R213, R440), and table
commands that wait for a tick start in force. -/
def State.withImage (s : State) (h body : List Byte) : State :=
  let t := powerOrder.foldl (fun (u : State) d => u.setDom d 1) s
  let t := (t.wr PM_ASSIGN_ASSIGN (imgDomains h)).wr DS_EVENT_REFUSED 0
  applyTasks (applyCbs (applyStreams (applySections (sectionsOf (imgSections h) body) t)))

/-- The header of image A or B in the NOR, and its body. -/
def State.imgHeader (s : State) (b : Bool) : List Byte := s.nvmLoad (leAt s.boot.dir (if b then 16 else 8) 4) 512
def State.imgBody (s : State) (b : Bool) : List Byte :=
  s.nvmLoad (leAt s.boot.dir (if b then 16 else 8) 4 + 512) (imgBodyLen (s.imgHeader b))

/-- No section targets the boot region, which the image cannot assign (R32), and none that carries data the staging range (R439). -/
def sectionsClear (l : List Section) : Bool :=
  l.all (fun x => x.kind == 2 || decide (x.addr + x.len ≤ (if x.kind = 1 then addrStaging else addrBoot)) ||
    decide (0x0200000000 ≤ x.addr))

/-- Cause of an image's body, 0 where it passes: DIGEST, FW_MIN, CHECKS in this order. -/
def bodyCause (h body : List Byte) (s : State) : Nat :=
  if Config.sha384 body ≠ imgDigest h then 6
  else if s.rd BT_FW_VER_FW_VER < imgFwMin h then 8
  else if !sectionsClear (sectionsOf (imgSections h) body) || !checksOk (s.withImage h body) (imgDomains h) then 9
  else 0

/-- An image fails: its cause, an IMAGE_FAIL record, and the other image or BOOT_FAIL. -/
def imageFail (b : Bool) (c : Nat) (s : State) : State :=
  let t := ((s.wr (if b then BT_IMG_B_CAUSE else BT_IMG_A_CAUSE) c).pmEvent BT_EVENT_IMAGE_FAIL).pmRecord 0x03 (c + b2n b * 256)
  t.tryImage (if !b ∧ t.rd BT_IMG_B_CAUSE = 0 then some true else none)

/-- The image is in use: its domains are to be powered (R440), PD10 stays powered only where it is assigned. -/
def useImage (b : Bool) (h : List Byte) (s : State) : State :=
  let t := ((s.wr BT_STATUS_IMG_SEL (if b then 2 else 1)).wr PM_ASSIGN_ASSIGN (imgDomains h)).wr BT_SVC_DISC_MAX_S (imgDiscMax h)
  let t := if bit (imgDomains h) 10 ∨ t.dom 10 = 0 then t else t.unpower 10 0
  let todo := powerOrder.filter (fun d => bit (imgDomains h) d && t.dom d != 1 && !(d == 12 && t.is5120))
  { t with boot := { t.boot with trial := none, hdr := h, imgId := leAt h 48 8, todo := todo } }

/-- IMAGE_CHECKS_DONE (R438): the body has been streamed into the staging range and checked; `readOk` tells whether the NOR gave
it without an error. -/
def execImageChecksDone (readOk : Bool) (s : State) : Host.Outcome State Fault Refusal :=
  match s.boot.trial with
  | none => .next s
  | some b =>
    if s.bt ≠ btConfigure then .next s
    else if !readOk then .next (imageFail b 0x0A s)
    else
      let h := s.imgHeader b
      let body := s.imgBody b
      let t := s.store addrStaging body
      let c := bodyCause h body t
      if c ≠ 0 then .next (imageFail b c t) else .next (useImage b h t)

/-! ### The sections are applied (R294, R302, R306, R439, R440) -/

/-- Programs of the station image become ACTIVE and are restored in ascending order, each with its START record. -/
def restorePrograms (s : State) : State :=
  let warm := s.on PM_ENTRY_KIND
  let kept := !s.on CL_STATUS_RET_LOST
  let ps := (s.lg.prgs.filter (fun (p : Nat × Prg) => pgState p.2.bytes != 0)).map (fun (p : Nat × Prg) => p.1)
  ps.foldl (fun (t : State) p =>
    let x := t.prg p
    restoreProgram warm kept p (t.setPrg p { x with bytes := withPgState x.bytes 2 })) s

/-- Every assigned domain has been powered or has failed, and every powered quadrant has ended its self-test. -/
def State.domainsDone (s : State) : Bool :=
  s.boot.trial.isNone && s.boot.todo.isEmpty && s.rd BT_STATUS_IMG_SEL != 0 &&
    (List.range 4).all (fun q => s.dom (2 + q) != 1 || s.boot.tested.contains q)

/-- With the minimum set present, a failed domain or a fenced cluster leaves a degraded start (R440). -/
def State.degradedStart (s : State) : State :=
  if s.rd PM_FENCE_FENCE ≠ 0 ∨ (List.range 16).any (fun d => s.dom d == 3) then s.wr PM_STATUS_DEGRADED 1 else s

/-- SECTIONS_APPLY (R439, R440): without the minimum set the start ends in BOOT_FAIL; else the image is applied, programs are
restored and DISCOVER begins. -/
def execSectionsApply (s : State) : Host.Outcome State Fault Refusal :=
  if s.bt ≠ btConfigure ∨ !s.domainsDone then .next s
  else if !s.minimumSet then .next (s.bootFail 0x13)
  else
    let h := s.boot.hdr
    let t := applySections (sectionsOf (imgSections h) (s.load addrStaging (imgBodyLen h))) s.degradedStart
    let t := (forcesLost (restorePrograms t)).btEnter btDiscover
    .next ({ t with boot := { t.boot with discFrom := t.clk.lapse } }.pairDiscover)

end Sys2Proof.Machine
end

