-- ==== Sys2Proof/Machine/TickRows.lean ====
section
/-!
DEFINITION. What time does of itself: the tick-start event and all that it brings, the commit of a time base, and the cycle of
CK_M that passes while no command waits.
-/
namespace Sys2Proof.Machine

/-! ### The tick-start event (R22) -/

/-- The next tick is due: the governing value has reached its representation. -/
def State.tickDue (s : State) : Bool := s.clk.running && decide (tickRep s.dueTick ≤ s.now)

/-- The grid generator raises grid tick `g` in this cycle. -/
def raiseTick (g : Nat) (s : State) : State :=
  { s.wr HC_GRID_TICK (g % 4800) with clk := { s.clk with
    nextTick := g + 1, prevTick := s.clk.lastTick.map (fun p => p.1), lastTick := some (g, s.cyc, (s.now - tickRep g) / uSt), raised := s.clk.raised + 1 } }

/-- CYCLE marks of the tick's triad and of skipped ones (R215, R234). -/
def tickCycleMarks (g : Nat) (s : State) : State :=
  let span := s.triadSpan g
  let t := cycleMarks span.1 span.2 s
  { t with ds := { t.ds with triad := g / 3 + 1 } }

/-- The stream engines at the tick-start event of grid tick `g`: tables written before take effect, sets open, buckets and
budgets are replenished, and programs begin their cycles. -/
def tickStreams (g : Nat) (s : State) : State :=
  let s := openSets g false (applyStreams s)
  let s := replenish (applyCbs s)
  let s := replenishBudgets (updateSlotShares (applyTasks s))
  deferredMarks g (tickCycleMarks g (logicTick g s))

/-- `f` where domain `d` works. -/
def State.ifRuns (s : State) (d : Nat) (f : State → State) : State := if s.runs d then f s else s

/-- TICK_START (R22): the event carries its tick and lateness to every block. -/
def execTickStart (s : State) : Host.Outcome State Fault Refusal :=
  if s.tickDue then
    let g := s.dueTick
    .next (((((raiseTick g s).ifRuns 12 (acqEdge g 0)).ifRuns 6 (tickStreams g)).ifRuns 13 (duTick g)).ifRuns 10 (pairTick g))
  else .next s

/-! ### Commits (R50) -/

/-- COMMIT_APPLY (R50). -/
def execCommitApply (b : Fin 4) (s : State) : Host.Outcome State Fault Refusal :=
  if s.clk.running ∧ commitDue s b then .next (hcApply b s) else .next s

/-! ### A cycle without a command -/

/-- A step of the governing value takes its effect on the grid as the cycle ends (R46, R52, R53): ticks are skipped or repeated, the
sets of skipped ticks open, and a change of the governing base settles acquisition (R198). -/
def State.gridCycle (s : State) : State :=
  match s.govStep with
  | none => s
  | some (before, after) =>
    let t := openSkipped (skipSpan before after) (gridStep before after s)
    if s.rd HC_CTRL_GOV ≠ s.gov then t.settleAll (List.range 32) 4 else t

/-- The publication engine takes the requests of the cycle: banks, lanes, tenants, and then retransmissions (R259, R268, R388). -/
def State.requestCycle (s : State) : State := s.publishCycle.tenantHandOver.retxCycle

/-- The stream engines over one cycle: Pantry writes that end, the save engine, the requests of publication, the set port,
readiness decisions. -/
def State.streamCycle (s : State) : State := s.pantryCycle.saveCycle.requestCycle.setPortCycle.dispatchCycle

/-- What each block does of itself in a cycle, and then the end of the cycle (log entry 1). -/
def State.idle (s : State) : State :=
  let s := (List.range 19).foldl (fun (t : State) n => t.ifRuns (portDomain n) (fun u => ((u.respCycle n).graceCycle n).holdCycle n)) s
  let s := s.ifRuns 7 (fun t => ((List.range 19).foldl (fun (u : State) n => u.finishTx n) t).settleAdmits)
  let s := s.ifRuns 6 State.streamCycle
  let s := s.ifRuns 1 State.mirrorCycle
  let s := if s.on IC_STATUS_FATAL then s else s.laneCycle
  let s := s.ifRuns 12 (fun t => t.cmpCycle.acqCycle)
  let s := s.ifRuns 13 State.duCycle
  let s := s.ifRuns 10 State.pairCycle
  let s := s.ifRuns 1 State.ksCycle
  s.retCycle.viCycle.evLostRecord.cellarCycle.gridCycle.stopCycle.msixCycle.nextCycle

end Sys2Proof.Machine
end

