-- ==== Sys2Proof/Machine/Dispatch.lean ====
section
/-!
DEFINITION. The one dispatcher: one arm per constructor of `Instr`, each a direct call of its meaning.
-/
namespace Sys2Proof.Machine

def exec (i : Instr) (s : State) : Host.Outcome State Fault Refusal :=
  match i with
  | .registerWrite req addr v => Sys2Proof.Machine.execRegisterWrite req addr v s
  | .readClearAccess req addr => Sys2Proof.Machine.execReadClearAccess req addr s
  | .darkPageAccess a => Sys2Proof.Machine.execDarkPageAccess a s
  | .dormantPageAccess a => Sys2Proof.Machine.execDormantPageAccess a s
  | .domainWakeDone pd => Sys2Proof.Machine.execDomainWakeDone pd s
  | .unassignedAddressAccess a => Sys2Proof.Machine.execUnassignedAddressAccess a s
  | .tickStart => Sys2Proof.Machine.execTickStart s
  | .rateWrite req b v => Sys2Proof.Machine.execRateWrite req b v s
  | .slewWrite req b v => Sys2Proof.Machine.execSlewWrite req b v s
  | .slewPpmWrite req b v => Sys2Proof.Machine.execSlewPpmWrite req b v s
  | .slewDone b => Sys2Proof.Machine.execSlewDone b s
  | .holdoverEntry => Sys2Proof.Machine.execHoldoverEntry s
  | .tb0SecondStart => Sys2Proof.Machine.execTb0SecondStart s
  | .hcCtrlWrite req v => Sys2Proof.Machine.execHcCtrlWrite req v s
  | .timeSnapshot req b => Sys2Proof.Machine.execTimeSnapshot req b s
  | .stagingWrite req b k v => Sys2Proof.Machine.execStagingWrite req b k v s
  | .commitAbs req b => Sys2Proof.Machine.execCommitAbs req b s
  | .commitRel req b => Sys2Proof.Machine.execCommitRel req b s
  | .hcCancel req b => Sys2Proof.Machine.execHcCancel req b s
  | .commitApply b => Sys2Proof.Machine.execCommitApply b s
  | .ppsInEdge rising stamp heldUs => Sys2Proof.Machine.execPpsInEdge rising stamp heldUs s
  | .irigFrame f => Sys2Proof.Machine.execIrigFrame f s
  | .ppsOutRise => Sys2Proof.Machine.execPpsOutRise s
  | .ppsOutFall => Sys2Proof.Machine.execPpsOutFall s
  | .ppsGroupLatch req irig => Sys2Proof.Machine.execPpsGroupLatch req irig s
  | .ptCtrlWrite req p v => Sys2Proof.Machine.execPtCtrlWrite req p v s
  | .portEnable req p => Sys2Proof.Machine.execPortEnable req p s
  | .portDisable req p => Sys2Proof.Machine.execPortDisable req p s
  | .anDone p speed => Sys2Proof.Machine.execAnDone p speed s
  | .linkUp p => Sys2Proof.Machine.execLinkUp p s
  | .pcsLockLoss p negotiation => Sys2Proof.Machine.execPcsLockLoss p negotiation s
  | .graceExpiry p => Sys2Proof.Machine.execGraceExpiry p s
  | .frameReceive p rx => Sys2Proof.Machine.execFrameReceive p rx s
  | .pauseFrameRx p => Sys2Proof.Machine.execPauseFrameRx p s
  | .pauseEnd p => Sys2Proof.Machine.execPauseEnd p s
  | .pauseWatchdog p => Sys2Proof.Machine.execPauseWatchdog p s
  | .pauseRearm req p => Sys2Proof.Machine.execPauseRearm req p s
  | .ptDormant req p => Sys2Proof.Machine.execPtDormant req p s
  | .ptWake req p => Sys2Proof.Machine.execPtWake req p s
  | .portWakeDone p => Sys2Proof.Machine.execPortWakeDone p s
  | .preemptEnWrite req p v => Sys2Proof.Machine.execPreemptEnWrite req p v s
  | .verifyMpacketSend p => Sys2Proof.Machine.execVerifyMpacketSend p s
  | .respondMpacketRx p sub => Sys2Proof.Machine.execRespondMpacketRx p sub s
  | .verifyMpacketRx p => Sys2Proof.Machine.execVerifyMpacketRx p s
  | .verifyFail p => Sys2Proof.Machine.execVerifyFail p s
  | .octetCounterLatch req p tx => Sys2Proof.Machine.execOctetCounterLatch req p tx s
  | .ringRegWrite req r k v => Sys2Proof.Machine.execRingRegWrite req r k v s
  | .ringRxDeliver upTo => Sys2Proof.Machine.execRingRxDeliver upTo s
  | .ringTxFetch r => Sys2Proof.Machine.execRingTxFetch r s
  | .tenantFrameEntry v => Sys2Proof.Machine.execTenantFrameEntry v s
  | .classification fid => Sys2Proof.Machine.execClassification fid s
  | .larderComplete fid => Sys2Proof.Machine.execLarderComplete fid s
  | .egressRelease p => Sys2Proof.Machine.execEgressRelease p s
  | .lifetimeScrub => Sys2Proof.Machine.execLifetimeScrub s
  | .hlRedWrite req k v => Sys2Proof.Machine.execHlRedWrite req k v s
  | .frameAcceptance fid => Sys2Proof.Machine.execFrameAcceptance fid s
  | .gooseTalExpiry e => Sys2Proof.Machine.execGooseTalExpiry e s
  | .vestAgeExpiry j => Sys2Proof.Machine.execVestAgeExpiry j s
  | .sbTblRead req => Sys2Proof.Machine.execSbTblRead req s
  | .sbTblWrite req => Sys2Proof.Machine.execSbTblWrite req s
  | .sbTblInvalidate req => Sys2Proof.Machine.execSbTblInvalidate req s
  | .sbMapRead req => Sys2Proof.Machine.execSbMapRead req s
  | .sbMapWrite req => Sys2Proof.Machine.execSbMapWrite req s
  | .sbVestRead req => Sys2Proof.Machine.execSbVestRead req s
  | .sbVestRemove req => Sys2Proof.Machine.execSbVestRemove req s
  | .sbStLatch req v => Sys2Proof.Machine.execSbStLatch req v s
  | .discRecordPop req => Sys2Proof.Machine.execDiscRecordPop req s
  | .discPost req v => Sys2Proof.Machine.execDiscPost req v s
  | .sbSimWrite req v => Sys2Proof.Machine.execSbSimWrite req v s
  | .pantryWrite bank => Sys2Proof.Machine.execPantryWrite bank s
  | .closurePass => Sys2Proof.Machine.execClosurePass s
  | .alStrRead req => Sys2Proof.Machine.execAlStrRead req s
  | .alStrWrite req => Sys2Proof.Machine.execAlStrWrite req s
  | .alStrInvalidate req => Sys2Proof.Machine.execAlStrInvalidate req s
  | .alCntLatch req v => Sys2Proof.Machine.execAlCntLatch req v s
  | .alCtrlWrite req v => Sys2Proof.Machine.execAlCtrlWrite req v s
  | .alGroupWrite req g v => Sys2Proof.Machine.execAlGroupWrite req g v s
  | .acqSampleComplete b bits ovr => Sys2Proof.Machine.execAcqSampleComplete b bits ovr s
  | .clampConduction ch => Sys2Proof.Machine.execClampConduction ch s
  | .clampEnd ch => Sys2Proof.Machine.execClampEnd ch s
  | .comparatorEdge ch sub uv => Sys2Proof.Machine.execComparatorEdge ch sub uv s
  | .tdcPop req => Sys2Proof.Machine.execTdcPop req s
  | .aqBankWrite req b k v => Sys2Proof.Machine.execAqBankWrite req b k v s
  | .aqChCfgWrite req ch v => Sys2Proof.Machine.execAqChCfgWrite req ch v s
  | .aqCtrlWrite req v => Sys2Proof.Machine.execAqCtrlWrite req v s
  | .slottedStart t => Sys2Proof.Machine.execSlottedStart t s
  | .generalPortMark => Sys2Proof.Machine.execGeneralPortMark s
  | .deadlinePass t => Sys2Proof.Machine.execDeadlinePass t s
  | .readyStart c => Sys2Proof.Machine.execReadyStart c s
  | .runEnd l => Sys2Proof.Machine.execRunEnd l s
  | .costOverStop l => Sys2Proof.Machine.execCostOverStop l s
  | .timerArmApply => Sys2Proof.Machine.execTimerArmApply s
  | .timerCancelApply => Sys2Proof.Machine.execTimerCancelApply s
  | .timerExpiry j => Sys2Proof.Machine.execTimerExpiry j s
  | .dsTaskRead req => Sys2Proof.Machine.execDsTaskRead req s
  | .dsTaskWrite req => Sys2Proof.Machine.execDsTaskWrite req s
  | .dsTaskInvalidate req => Sys2Proof.Machine.execDsTaskInvalidate req s
  | .dsSlotRead req => Sys2Proof.Machine.execDsSlotRead req s
  | .dsSlotWrite req => Sys2Proof.Machine.execDsSlotWrite req s
  | .dsTmrRead req => Sys2Proof.Machine.execDsTmrRead req s
  | .dsArm req => Sys2Proof.Machine.execDsArm req s
  | .dsTmrCancel req => Sys2Proof.Machine.execDsTmrCancel req s
  | .dsCntLatch req v => Sys2Proof.Machine.execDsCntLatch req v s
  | .dsFlowLatch req v => Sys2Proof.Machine.execDsFlowLatch req v s
  | .kNop l => Sys2Proof.Machine.execKNop l s
  | .kEnd l => Sys2Proof.Machine.execKEnd l s
  | .kGath l => Sys2Proof.Machine.execKGath l s
  | .kOpnd l => Sys2Proof.Machine.execKOpnd l s
  | .kMove l => Sys2Proof.Machine.execKMove l s
  | .kConst l => Sys2Proof.Machine.execKConst l s
  | .kSkip l => Sys2Proof.Machine.execKSkip l s
  | .kQsel l => Sys2Proof.Machine.execKQsel l s
  | .kConv l => Sys2Proof.Machine.execKConv l s
  | .kAdd l => Sys2Proof.Machine.execKAdd l s
  | .kSub l => Sys2Proof.Machine.execKSub l s
  | .kMul l => Sys2Proof.Machine.execKMul l s
  | .kMac l => Sys2Proof.Machine.execKMac l s
  | .kAbs l => Sys2Proof.Machine.execKAbs l s
  | .kMinmax l => Sys2Proof.Machine.execKMinmax l s
  | .kDiv l => Sys2Proof.Machine.execKDiv l s
  | .kDft l => Sys2Proof.Machine.execKDft l s
  | .kHdft l => Sys2Proof.Machine.execKHdft l s
  | .kHarm l => Sys2Proof.Machine.execKHarm l s
  | .kRms l => Sys2Proof.Machine.execKRms l s
  | .kSeq l => Sys2Proof.Machine.execKSeq l s
  | .kPwr l => Sys2Proof.Machine.execKPwr l s
  | .kFreq l => Sys2Proof.Machine.execKFreq l s
  | .kRocof l => Sys2Proof.Machine.execKRocof l s
  | .kCplx l => Sys2Proof.Machine.execKCplx l s
  | .kPolar l => Sys2Proof.Machine.execKPolar l s
  | .kBiq l => Sys2Proof.Machine.execKBiq l s
  | .kDeriv l => Sys2Proof.Machine.execKDeriv l s
  | .kPsum l => Sys2Proof.Machine.execKPsum l s
  | .kDelay l => Sys2Proof.Machine.execKDelay l s
  | .kInteg l => Sys2Proof.Machine.execKInteg l s
  | .kMean l => Sys2Proof.Machine.execKMean l s
  | .kDiff l => Sys2Proof.Machine.execKDiff l s
  | .kRest l => Sys2Proof.Machine.execKRest l s
  | .kImp l => Sys2Proof.Machine.execKImp l s
  | .kZone l => Sys2Proof.Machine.execKZone l s
  | .kDir l => Sys2Proof.Machine.execKDir l s
  | .kCmp l => Sys2Proof.Machine.execKCmp l s
  | .kIdmt l => Sys2Proof.Machine.execKIdmt l s
  | .kTherm l => Sys2Proof.Machine.execKTherm l s
  | .kSync l => Sys2Proof.Machine.execKSync l s
  | .kPosn l => Sys2Proof.Machine.execKPosn l s
  | .kLock l => Sys2Proof.Machine.execKLock l s
  | .kRef l => Sys2Proof.Machine.execKRef l s
  | .kVhz l => Sys2Proof.Machine.execKVhz l s
  | .kCapb l => Sys2Proof.Machine.execKCapb l s
  | .kCnt l => Sys2Proof.Machine.execKCnt l s
  | .kPwl l => Sys2Proof.Machine.execKPwl l s
  | .kAnd l => Sys2Proof.Machine.execKAnd l s
  | .kOr l => Sys2Proof.Machine.execKOr l s
  | .kXor l => Sys2Proof.Machine.execKXor l s
  | .kNot l => Sys2Proof.Machine.execKNot l s
  | .kEdge l => Sys2Proof.Machine.execKEdge l s
  | .kLatch l => Sys2Proof.Machine.execKLatch l s
  | .kVote l => Sys2Proof.Machine.execKVote l s
  | .kPack l => Sys2Proof.Machine.execKPack l s
  | .kTon l => Sys2Proof.Machine.execKTon l s
  | .kTof l => Sys2Proof.Machine.execKTof l s
  | .kTpls l => Sys2Proof.Machine.execKTpls l s
  | .kTarm l => Sys2Proof.Machine.execKTarm l s
  | .kTcan l => Sys2Proof.Machine.execKTcan l s
  | .kPost l => Sys2Proof.Machine.execKPost l s
  | .kPub l => Sys2Proof.Machine.execKPub l s
  | .kTrip l => Sys2Proof.Machine.execKTrip l s
  | .buildStart fg => Sys2Proof.Machine.execBuildStart fg s
  | .pubEntry pipe => Sys2Proof.Machine.execPubEntry pipe s
  | .svRelEntry k => Sys2Proof.Machine.execSvRelEntry k s
  | .gooseRetransmission cb => Sys2Proof.Machine.execGooseRetransmission cb s
  | .tripMinOnExpiry k => Sys2Proof.Machine.execTripMinOnExpiry k s
  | .tripRefreshExpiry k => Sys2Proof.Machine.execTripRefreshExpiry k s
  | .pbCbRead req => Sys2Proof.Machine.execPbCbRead req s
  | .pbCbWrite req => Sys2Proof.Machine.execPbCbWrite req s
  | .pbCbInvalidate req => Sys2Proof.Machine.execPbCbInvalidate req s
  | .pbStLatch req v => Sys2Proof.Machine.execPbStLatch req v s
  | .cycleEndSave => Sys2Proof.Machine.execCycleEndSave s
  | .lgPrgRead req => Sys2Proof.Machine.execLgPrgRead req s
  | .lgPrgWrite req => Sys2Proof.Machine.execLgPrgWrite req s
  | .lgPrgInvalidate req => Sys2Proof.Machine.execLgPrgInvalidate req s
  | .lgFrcRead req => Sys2Proof.Machine.execLgFrcRead req s
  | .frcSet req => Sys2Proof.Machine.execFrcSet req s
  | .frcClear req => Sys2Proof.Machine.execFrcClear req s
  | .exchange req v => Sys2Proof.Machine.execExchange req v s
  | .lgXchCancel req => Sys2Proof.Machine.execLgXchCancel req s
  | .lgStLatch req v => Sys2Proof.Machine.execLgStLatch req v s
  | .exchangeCopy => Sys2Proof.Machine.execExchangeCopy s
  | .exchangeBoundary => Sys2Proof.Machine.execExchangeBoundary s
  | .pwmZeroEvent k => Sys2Proof.Machine.execPwmZeroEvent k s
  | .pwmCmpaEvent k => Sys2Proof.Machine.execPwmCmpaEvent k s
  | .pwmCmpbEvent k => Sys2Proof.Machine.execPwmCmpbEvent k s
  | .pwmPeriodEvent k => Sys2Proof.Machine.execPwmPeriodEvent k s
  | .swnSwing k level => Sys2Proof.Machine.execSwnSwing k level s
  | .dtTimeout k => Sys2Proof.Machine.execDtTimeout k s
  | .duCommit req v => Sys2Proof.Machine.execDuCommit req v s
  | .duShadowWrite req k duty v => Sys2Proof.Machine.execDuShadowWrite req k duty v s
  | .duPairCfgWrite req k v => Sys2Proof.Machine.execDuPairCfgWrite req k v s
  | .duCtrlWrite req v => Sys2Proof.Machine.execDuCtrlWrite req v s
  | .coilPeakEnd k => Sys2Proof.Machine.execCoilPeakEnd k s
  | .faultRecognised f level held => Sys2Proof.Machine.execFaultRecognised f level held s
  | .faultClear req f v => Sys2Proof.Machine.execFaultClear req f v s
  | .senseEdge j level sub => Sys2Proof.Machine.execSenseEdge j level sub s
  | .senseAccept j => Sys2Proof.Machine.execSenseAccept j s
  | .snsPop req => Sys2Proof.Machine.execSnsPop req s
  | .vinValid => Sys2Proof.Machine.execVinValid s
  | .vinInvalid => Sys2Proof.Machine.execVinInvalid s
  | .pd0Por => Sys2Proof.Machine.execPd0Por s
  | .cellarWake lowMv => Sys2Proof.Machine.execCellarWake lowMv s
  | .vbatMeasure mv => Sys2Proof.Machine.execVbatMeasure mv s
  | .calendarRollover => Sys2Proof.Machine.execCalendarRollover s
  | .calendarFreeze req k => Sys2Proof.Machine.execCalendarFreeze req k s
  | .calendarYearRead req => Sys2Proof.Machine.execCalendarYearRead req s
  | .freezeTimeout => Sys2Proof.Machine.execFreezeTimeout s
  | .setTime req => Sys2Proof.Machine.execSetTime req s
  | .setWday req w => Sys2Proof.Machine.execSetWday req w s
  | .calendarCommit => Sys2Proof.Machine.execCalendarCommit s
  | .trimCorrection => Sys2Proof.Machine.execTrimCorrection s
  | .clShiftWrite req v => Sys2Proof.Machine.execClShiftWrite req v s
  | .shiftStep => Sys2Proof.Machine.execShiftStep s
  | .opsSecond => Sys2Proof.Machine.execOpsSecond s
  | .retDataAccess req v => Sys2Proof.Machine.execRetDataAccess req v s
  | .cntWrite req pcyc v => Sys2Proof.Machine.execCntWrite req pcyc v s
  | .tamperDetect c => Sys2Proof.Machine.execTamperDetect c s
  | .eventRequest => Sys2Proof.Machine.execEventRequest s
  | .ringEntry => Sys2Proof.Machine.execRingEntry s
  | .nvmScan answers suitable => Sys2Proof.Machine.execNvmScan answers suitable s
  | .drainPage fail => Sys2Proof.Machine.execDrainPage fail s
  | .drainRetry => Sys2Proof.Machine.execDrainRetry s
  | .evRdSeqWrite req v => Sys2Proof.Machine.execEvRdSeqWrite req v s
  | .evNvmLoadDone => Sys2Proof.Machine.execEvNvmLoadDone s
  | .evFirstLatch req => Sys2Proof.Machine.execEvFirstLatch req s
  | .clearNonce req => Sys2Proof.Machine.execClearNonce req s
  | .logClear req slot => Sys2Proof.Machine.execLogClear req slot s
  | .clearEraseDone => Sys2Proof.Machine.execClearEraseDone s
  | .evPost req src code => Sys2Proof.Machine.execEvPost req src code s
  | .rowFinalise r => Sys2Proof.Machine.execRowFinalise r s
  | .binaryChange => Sys2Proof.Machine.execBinaryChange s
  | .seqWindowTimeout r => Sys2Proof.Machine.execSeqWindowTimeout r s
  | .triggerLevelTimeout r => Sys2Proof.Machine.execTriggerLevelTimeout r s
  | .holdExpiry r => Sys2Proof.Machine.execHoldExpiry r s
  | .tgForce req v => Sys2Proof.Machine.execTgForce req v s
  | .tgRel req v => Sys2Proof.Machine.execTgRel req v s
  | .vfFlr v => Sys2Proof.Machine.execVfFlr v s
  | .postT2m req v j => Sys2Proof.Machine.execPostT2m req v j s
  | .ackM2t req v j => Sys2Proof.Machine.execAckM2t req v j s
  | .postM2t req v j => Sys2Proof.Machine.execPostM2t req v j s
  | .ackT2m req v j => Sys2Proof.Machine.execAckT2m req v j s
  | .windowAccess v o data => Sys2Proof.Machine.execWindowAccess v o data s
  | .windowEntryWrite req v w k x => Sys2Proof.Machine.execWindowEntryWrite req v w k x s
  | .mirrorCopy v m => Sys2Proof.Machine.execMirrorCopy v m s
  | .viPubRequest req v x => Sys2Proof.Machine.execViPubRequest req v x s
  | .lshareWrite req v x => Sys2Proof.Machine.execLshareWrite req v x s
  | .viReset req v keep => Sys2Proof.Machine.execViReset req v keep s
  | .viResetDone v => Sys2Proof.Machine.execViResetDone v s
  | .owClaim req => Sys2Proof.Machine.execOwClaim req s
  | .owRelease req => Sys2Proof.Machine.execOwRelease req s
  | .owOffer req t => Sys2Proof.Machine.execOwOffer req t s
  | .owAccept req => Sys2Proof.Machine.execOwAccept req s
  | .offerLapse => Sys2Proof.Machine.execOfferLapse s
  | .refresh req v => Sys2Proof.Machine.execRefresh req v s
  | .leaseLapse => Sys2Proof.Machine.execLeaseLapse s
  | .owRevoke req => Sys2Proof.Machine.execOwRevoke req s
  | .seatAbsent => Sys2Proof.Machine.execSeatAbsent s
  | .readAttr req t => Sys2Proof.Machine.execReadAttr req t s
  | .ksImport req t => Sys2Proof.Machine.execKsImport req t s
  | .generate req t => Sys2Proof.Machine.execGenerate req t s
  | .derive req t src rooted => Sys2Proof.Machine.execDerive req t src rooted s
  | .wrap req src => Sys2Proof.Machine.execWrap req src s
  | .unwrap req t => Sys2Proof.Machine.execUnwrap req t s
  | .ksInvalidate req t => Sys2Proof.Machine.execKsInvalidate req t s
  | .sessionOut req src => Sys2Proof.Machine.execSessionOut req src s
  | .ksCmdApply => Sys2Proof.Machine.execKsCmdApply s
  | .provision req key => Sys2Proof.Machine.execProvision req key s
  | .commission req key => Sys2Proof.Machine.execCommission req key s
  | .recover req key => Sys2Proof.Machine.execRecover req key s
  | .installRoot req key => Sys2Proof.Machine.execInstallRoot req key s
  | .addPkh1 req key => Sys2Proof.Machine.execAddPkh1 req key s
  | .revoke0 req key => Sys2Proof.Machine.execRevoke0 req key s
  | .retire req key => Sys2Proof.Machine.execRetire req key s
  | .fuseProgramDone wrong => Sys2Proof.Machine.execFuseProgramDone wrong s
  | .rstNLow => Sys2Proof.Machine.execRstNLow s
  | .pd1ResetRelease pairId bootSrc nvmWidth => Sys2Proof.Machine.execPd1ResetRelease pairId bootSrc nvmWidth s
  | .pllMLock => Sys2Proof.Machine.execPllMLock s
  | .dramInitDone r => Sys2Proof.Machine.execDramInitDone r s
  | .cellarUpComplete answers size => Sys2Proof.Machine.execCellarUpComplete answers size s
  | .bootSrcTimeout => Sys2Proof.Machine.execBootSrcTimeout s
  | .bootApertureWrite o v => Sys2Proof.Machine.execBootApertureWrite o v s
  | .submit req => Sys2Proof.Machine.execSubmit req s
  | .abort req => Sys2Proof.Machine.execAbort req s
  | .verifyDone => Sys2Proof.Machine.execVerifyDone s
  | .hostPortReset => Sys2Proof.Machine.execHostPortReset s
  | .imageChecksDone readOk => Sys2Proof.Machine.execImageChecksDone readOk s
  | .domainPowerUp good => Sys2Proof.Machine.execDomainPowerUp good s
  | .selfTestDone q fails => Sys2Proof.Machine.execSelfTestDone q fails s
  | .sectionsApply => Sys2Proof.Machine.execSectionsApply s
  | .svcEnter req => Sys2Proof.Machine.execSvcEnter req s
  | .discoverTimeout => Sys2Proof.Machine.execDiscoverTimeout s
  | .restartCold req => Sys2Proof.Machine.execRestartCold req s
  | .restartWarm req => Sys2Proof.Machine.execRestartWarm req s
  | .pmDormant req pd => Sys2Proof.Machine.execPmDormant req pd s
  | .pmWake req pd => Sys2Proof.Machine.execPmWake req pd s
  | .kick req v => Sys2Proof.Machine.execKick req v s
  | .wdogExpiry => Sys2Proof.Machine.execWdogExpiry s
  | .helloSend => Sys2Proof.Machine.execHelloSend s
  | .helloRx m => Sys2Proof.Machine.execHelloRx m s
  | .partnerTimeout => Sys2Proof.Machine.execPartnerTimeout s
  | .claimWatchdog => Sys2Proof.Machine.execClaimWatchdog s
  | .tickRecordRx m => Sys2Proof.Machine.execTickRecordRx m s
  | .ledgerMissCheck => Sys2Proof.Machine.execLedgerMissCheck s
  | .setRecordRx m => Sys2Proof.Machine.execSetRecordRx m s
  | .copyReqRx m => Sys2Proof.Machine.execCopyReqRx m s
  | .copyRx m => Sys2Proof.Machine.execCopyRx m s
  | .forceMsgRx m => Sys2Proof.Machine.execForceMsgRx m s
  | .syncReqSend => Sys2Proof.Machine.execSyncReqSend s
  | .syncReqRx m => Sys2Proof.Machine.execSyncReqRx m s
  | .stateMsgRx m => Sys2Proof.Machine.execStateMsgRx m s
  | .ilkInFall => Sys2Proof.Machine.execIlkInFall s
  | .ilkInRise => Sys2Proof.Machine.execIlkInRise s
  | .standbyClaim => Sys2Proof.Machine.execStandbyClaim s
  | .revertHoldExpiry => Sys2Proof.Machine.execRevertHoldExpiry s
  | .revertReqRx m => Sys2Proof.Machine.execRevertReqRx m s
  | .revertAckRx m => Sys2Proof.Machine.execRevertAckRx m s
  | .revertAckTimeout => Sys2Proof.Machine.execRevertAckTimeout s
  | .revertClaim => Sys2Proof.Machine.execRevertClaim s
  | .revertReleaseTimeout => Sys2Proof.Machine.execRevertReleaseTimeout s
  | .twinRegRx m => Sys2Proof.Machine.execTwinRegRx m s
  | .bundleReqSend => Sys2Proof.Machine.execBundleReqSend s
  | .bundleReqRx m => Sys2Proof.Machine.execBundleReqRx m s
  | .bundleDataRx m => Sys2Proof.Machine.execBundleDataRx m s
  | .bundleEndRx m => Sys2Proof.Machine.execBundleEndRx m s
  | .bundleTimeout => Sys2Proof.Machine.execBundleTimeout s
  | .icSoftWrite req v => Sys2Proof.Machine.execIcSoftWrite req v s
  | .icFenceGo req c => Sys2Proof.Machine.execIcFenceGo req c s
  | .msixSend vec => Sys2Proof.Machine.execMsixSend vec s
  | .eccScrub mem addr kind syndrome => Sys2Proof.Machine.execEccScrub mem addr kind syndrome s
  | .fatalStop cause => Sys2Proof.Machine.execFatalStop cause s
  | .pllMLoss => Sys2Proof.Machine.execPllMLoss s
  | .vinOvervoltage => Sys2Proof.Machine.execVinOvervoltage s
  | .vioLoss => Sys2Proof.Machine.execVioLoss s
  | .vioRestore => Sys2Proof.Machine.execVioRestore s
  | .vanaLoss => Sys2Proof.Machine.execVanaLoss s
  | .rstNRelease => Sys2Proof.Machine.execRstNRelease s
  | .pcieConfigWrite c => Sys2Proof.Machine.execPcieConfigWrite c s
  | .twinRegRspRx m => Sys2Proof.Machine.execTwinRegRspRx m s

end Sys2Proof.Machine
end

