-- ==== Sys2Proof/WellFormed.lean ====
section
/-!
DEFINITION. Which terms of `Instr` are commands that the hardware can meet: aligned accesses, digits that are digits, as many
samples as a bank has channels. Operands of bounded types need no check. The machine gives every term a meaning; a term that is
not well formed stands for nothing outside.
-/
namespace Sys2Proof

/-- An access to the address map is of an aligned 32-bit word (R8, R33). -/
def Access.wellFormed (a : Access) : Bool := a.addr.toNat % 4 == 0

/-- A digit of IRIG-B time, its binary seconds of the day and its control-function bits (R65). -/
def IrigFrame.wellFormed (f : IrigFrame) : Bool :=
  [f.secU, f.secT, f.minU, f.minT, f.hrU, f.hrT, f.dayU, f.dayT, f.dayH, f.yrU, f.yrT].all (fun d => decide (d < 16)) &&
    decide (f.sbs < 131072) && decide (f.cf < 134217728)

/-- Each packet of a frame has at least the octets of its check and begins after the one before it, and a frame sent whole has no
fragments (R56, R86). -/
def RxFrame.wellFormed (f : RxFrame) : Bool :=
  (f.first :: f.more).all (fun m => decide (4 ≤ m.octets.length)) && f.first.after == 0 &&
    decide (((f.first :: f.more).map (fun m => m.after)).Pairwise (· < ·)) && (f.first.kind != .whole || (f.first.final && f.more.isEmpty))

/-- A message of the pair has its 16-byte header (R454). -/
def TwinRx.wellFormed (m : TwinRx) : Bool := decide (16 ≤ m.octets.length)

/-- The command can be met. -/
def Instr.wellFormed : Instr → Bool
  | .registerWrite _ addr _ | .readClearAccess _ addr => addr.toNat % 4 == 0
  | .darkPageAccess a | .dormantPageAccess a | .unassignedAddressAccess a => a.wellFormed
  | .windowAccess _ o _ => o.val % 4 == 0
  | .irigFrame f => f.wellFormed
  | .frameReceive _ rx => rx.wellFormed
  | .acqSampleComplete _ bits _ => bits.length == 8
  | .helloRx m | .tickRecordRx m | .setRecordRx m | .copyReqRx m | .copyRx m | .forceMsgRx m | .syncReqRx m | .stateMsgRx m
  | .revertReqRx m | .revertAckRx m | .twinRegRx m | .bundleReqRx m | .bundleDataRx m | .bundleEndRx m | .twinRegRspRx m =>
    m.wellFormed
  | _ => true

end Sys2Proof
end

