-- ==== Sys2Proof/Safety.lean ====
section
/-!
DEFINITION. What counts as a safe state and a safe run of the block, and the terms that claims use: who is served, what a command
keeps, and what an outcome answers.
-/
namespace Sys2Proof.Machine

/-- The outcome is a next state, and it satisfies `p`. -/
def Answers (o : Host.Outcome State Fault Refusal) (p : State → Prop) : Prop := ∃ t, o = .next t ∧ p t

/-- The module's outputs that act on the plant are off: the trip pads and OEN_EXT (R440, R493). -/
def OutputsOff (s : State) : Prop := (∀ k, k < 12 → s.duPads k = (false, false)) ∧ s.on PR_STATUS_OEN_EXT = false

/-- The memory and the NOR hold their one canonical form. -/
def MemoryCanonical (s : State) : Prop :=
  Memory.wf s.mem = true ∧ canonical (fun _ => (0xFF : Byte)) s.nvm = true

/-- A requester whose accesses reach register space (R34, R35, R398): PF0 with its memory space enabled, the debug seat while it is
present, never a tenant. -/
def State.Reaches (s : State) (r : Requester) : Prop :=
  (∀ v, r ≠ .vf v) ∧ (r = .pf0 → s.vis.pfMse = true) ∧ (r = .debug → s.present 7 = true)

/-- A requester whose accesses reach the memories of the map (R34, R35): as for registers, PF0 in the boot states 4 to 6 (R433). -/
def State.ReachesMemory (s : State) (r : Requester) : Prop :=
  s.Reaches r ∧ (r = .pf0 → 4 ≤ s.rd BT_STATUS_STATE ∧ s.rd BT_STATUS_STATE ≤ 6)

/-- A requester whose writes are taken: a steward core acting as itself, or the owner seat (R398). -/
def State.Writer (s : State) (r : Requester) : Prop := s.Reaches r ∧ s.mayWrite r = true

/-- Power domain `d` answers accesses: domains 0 and 1 always, another while it is ON (R28, R29). -/
def State.Powered (s : State) (d : Nat) : Prop := d < 2 ∨ s.dom d = 1

/-- No read of the calendar waits for a freeze that has ended (R337): reads wait only while a freeze is in force. -/
def State.CalServed (s : State) : Prop := s.cl.freeze = none → s.cl.held = []

/-- The pair controller takes message `m` as one of type `kind` (R454, R458): PD10 is ON and the type is the message's; but for the bundle
messages pair operation is enabled and EPOCH is that of the pairing, which a HELLO need not carry; but for BUNDLE_DATA and BUNDLE_END no
copy of it came before. -/
structure State.Takes (s : State) (kind : Nat) (m : TwinRx) : Prop where
  power : s.dom 10 = 1
  ofType : mType m.octets = kind
  paired : kind < 0x10 → s.on PR_CTRL_EN = true ∧ (kind = 1 ∨ mEpoch m.octets = s.pr.epoch)
  fresh : kind < 0x11 → s.pr.seen.contains (mSeq m.octets) = false

/-- The write of `v` to register-space offset `o` by requester `r` has completed. -/
def State.wrote (s : State) (r : Requester) (o v : Nat) : State :=
  s.answer { req := r, addr := BitVec.ofNat 40 (addrRegs + o), write := some (BitVec.ofNat 32 v) } 0 false

/-- The read of register-space offset `o` by requester `r` has completed with data `d`. -/
def State.gave (s : State) (r : Requester) (o d : Nat) : State :=
  s.answer { req := r, addr := BitVec.ofNat 40 (addrRegs + o), write := none } d false

/-- Every register outside `l` reads as before. -/
def RegsKept (l : List Nat) (s t : State) : Prop := ∀ a, a ∉ l → t.word a = s.word a

/-- Every byte of the map and of the NOR reads as before. -/
def BytesKept (s t : State) : Prop := (∀ a, t.memByte a = s.memByte a) ∧ (∀ a, t.nvmByte a = s.nvmByte a)

/-- `s` with the register file of `t`: the frame of a command that writes registers only. -/
def State.withRegs (s t : State) : State := { s with regs := t.regs, regs0 := t.regs0, evc := t.evc }

/-- `s` with the register file and the event delivery of `t` (R484–R487). -/
def State.withEvents (s t : State) : State := { s with regs := t.regs, regs0 := t.regs0, evc := t.evc, ic := t.ic }

/-- `s` with the register file, the event delivery and the completion of an access of `t`: the data bus and, for an access of the
partner, the answer queued in the pair controller (R10, R456). -/
def State.withAccess (s t : State) : State :=
  { s with regs := t.regs, regs0 := t.regs0, evc := t.evc, ic := t.ic, bus := t.bus, free := t.free, pr := t.pr }

/-- The slew of base `b` that is in force from the next cycle would, beside its rate, pass ±200 ppm (R41). -/
def State.TotalLimited (s : State) (b : Nat) : Prop :=
  ∃ m, s.slewAhead b = some m ∧
    ((0 < m ∧ 219902325 < s.rdS (HC_TB_RATE.i b) + min |m| (slewFull (s.rd (HC_TB_SLEW_PPM.i b)))) ∨
      (m < 0 ∧ s.rdS (HC_TB_RATE.i b) - min |m| (slewFull (s.rd (HC_TB_SLEW_PPM.i b))) < -219902325))

/-- The four registers of the stamp group at offset `a` hold the stamp `x` (R55, R67). -/
def StampIs (s : State) (a x : Nat) : Prop :=
  s.word a = stampSec x % 2 ^ 32 ∧ s.word (a + 4) = stampSec x / 2 ^ 32 % 2 ^ 16 ∧ s.word (a + 8) = stampNs x ∧
    s.word (a + 12) = stampFrac x

/-- The run `r` of lane `l` has reached the invocation `k` of kernel `code`, which is due in this cycle: its cluster's domain works, the
run has neither ended nor been stopped nor skips, the invocation's cycles have passed and lie within the run's COST (R237–R242), and
its record and the entries it reads are sound (R253). -/
structure State.AtKernel (s : State) (l code : Nat) (r : Run) (k : Inv) : Prop where
  works : s.runs (2 + l / 64) = true
  run : s.laneRun l = some r
  inv : k = s.old.invocation l r
  sound : s.fetchFault l r = none ∧ (k.entryWords s).any s.ic.badWords.contains = false
  kernel : k.code = code
  open' : r.ended = false ∧ r.stopped = false
  skip : r.skip = 0
  due : r.next + kernelCycles code k.n ≤ s.cyc + 1
  fits : r.next + kernelCycles code k.n ≤ r.start + r.cost

/-- The units `us`, and the items `rs`, fit where the invocation's OUT lets the kernel write (R239, R240). -/
def Inv.CanWrite (k : Inv) (us : List (List Byte)) : Prop := ∀ i, i < us.length → ∃ a, k.unitAddr k.out i true = .ok a
def Inv.CanGive (k : Inv) (rs : List Item) : Prop := k.CanWrite (rs.flatMap (fun x => x.canon.units))

/-- Command `c` completes the invocation `k` with the effect `o`: its cycles are charged and the run goes on to its next invocation. -/
def Inv.Completes (k : Inv) (c : Instr) (s : State) (o : Except Nat State) : Prop :=
  ∃ u, o = .ok u ∧ exec c s = .next (advance k.l (kernelCycles k.code k.n) u)

end Sys2Proof.Machine
end

