-- ==== Sys2Proof/Certificates/Slice0/Obligations.lean ====
section
/-!
DEFINITION. The statements for the provers. Each is about every state that meets its hypotheses; `Answers o p` says that the outcome
`o` is a next state that satisfies `p`, and an equation `t = { s.withRegs t with … }` that nothing but the named parts of the
state has changed.
-/
open Sys2Proof Sys2Proof.Machine

/-! ### The queue, the step and reset -/

/-- Log entry 1: a step takes the command at the front of the queue and runs it with the queue's rest. -/
def Obligations.StepRunsFrontCommand : Prop :=
  ∀ (c : Instr) (rest : List Instr) (s : State), step { s with pending := c :: rest } = exec c { s with pending := rest }

/-- Log entry 1 (the model's choice): on an empty queue one CK_M cycle passes. The cycle count steps, reads of the next cycle see the
registers as they then stand (R11), and nothing enters the queue. -/
def Obligations.EmptyQueueStepIsOneCycle : Prop :=
  ∀ s : State, s.pending = [] →
    ∃ t, step s = .next t ∧ t.cyc = (s.cyc + 1) % 2 ^ 64 ∧ t.pending = [] ∧ (∀ f : Fld, t.rd0 f = t.rd f) ∧ t.evc = []

/-- No command stops the machine (R485, R489, R490 give every error an effect on state): each answers a next state, in the same cycle
and with the same queue. -/
def Obligations.EveryCommandAnswers : Prop :=
  ∀ (c : Instr) (s : State), ∃ t, exec c s = .next t ∧ t.pending = s.pending ∧ t.cyc = s.cyc

/-- The memories keep their one canonical form over every step: addresses strictly rising, no entry equal to what an unlisted byte
reads as. -/
def Obligations.StepKeepsMemoriesCanonical : Prop :=
  ∀ s t : State, MemoryCanonical s → step s = .next t → MemoryCanonical t

/-- That form holds at reset. -/
def Obligations.ResetMemoriesCanonical : Prop := MemoryCanonical State.reset

/-- R411: the fuses are one-time. Over every step, each programmed fuse stays programmed: the two sets of key-hash fuses, the revocation
fuses and the three life-cycle fuses. -/
def Obligations.StepKeepsProgrammedFuses : Prop :=
  ∀ s t : State, step s = .next t →
    (∀ k, s.ks.fuses.pkhSet.testBit k = true → t.ks.fuses.pkhSet.testBit k = true) ∧
    (∀ k, s.ks.fuses.revoke.testBit k = true → t.ks.fuses.revoke.testBit k = true) ∧
    (s.ks.fuses.prov = true → t.ks.fuses.prov = true) ∧ (s.ks.fuses.field = true → t.ks.fuses.field = true) ∧
    (s.ks.fuses.ret = true → t.ks.fuses.ret = true)

/-- R337: over every step, reads of the calendar wait only while a freeze is in force. -/
def Obligations.StepKeepsCalendarReadsServed : Prop :=
  ∀ s t : State, s.CalServed → step s = .next t → t.CalServed

/-- What reset leaves (the reset columns of R67, R103, R134, R158, R185, R209, R235, R280, R312, R446, R491): every register reads the
reset value of its table, at the start of the first cycle as well; the cycle count is 0, no command, access, frame, run, timer or
record waits, the memory below the map is unwritten, and no fuse is programmed. The values of what the tables leave out are the
model's (log entries 2 to 4). -/
def Obligations.ResetLeavesTableValues : Prop :=
  (∀ a, State.reset.word a = (regReset a).toNat ∧ State.reset.word0 a = (regReset a).toNat) ∧
  State.reset.rd PT_CTRL_MAXLEN = 1 ∧ State.reset.rd PT_CTRL_UP_HOLD_MS = 0x0A ∧ State.reset.rd HC_CTRL_GOV = 1 ∧
  State.reset.rd HC_PPS_OUT_WIDTH_MS = 0x64 ∧ State.reset.rd PT_PAUSE_WD_US = 0x3E8 ∧
  State.reset.cyc = 0 ∧ State.reset.pending = [] ∧ State.reset.recReqs = [] ∧ State.reset.hall.frames = [] ∧
  State.reset.ds.marks = [] ∧ State.reset.ds.pend = [] ∧ State.reset.arch.held = [] ∧ State.reset.clk.running = false ∧
  (∀ a, State.reset.memByte a = memBlank) ∧ (∀ a, State.reset.nvmByte a = 0xFF) ∧
  State.reset.ks.fuses.prov = false ∧ State.reset.ks.fuses.field = false ∧ State.reset.ks.fuses.ret = false

/-! ### Memory and the register file -/

/-- R31, R33: bytes stored to the map, or programmed into the NOR, read back, and every other byte reads as before; no register and no
other part of the state changes, except that a rewritten map word is correctable again (R489). -/
def Obligations.StoredBytesReadBack : Prop :=
  (∀ (s : State) (a x : Nat) (l : List Byte),
    (s.store a l).memByte x = (if a ≤ x ∧ x < a + l.length then l.getD (x - a) 0 else s.memByte x) ∧
    (s.store a l).ic = { s.ic with badWords := (s.store a l).ic.badWords } ∧
    s.store a l = { s with mem := (s.store a l).mem, ic := (s.store a l).ic }) ∧
  (∀ (s : State) (a x : Nat) (l : List Byte),
    (s.nvmStore a l).nvmByte x = (if a ≤ x ∧ x < a + l.length then l.getD (x - a) 0 else s.nvmByte x) ∧
    s.nvmStore a l = { s with nvm := (s.nvmStore a l).nvm })

/-- R10: what a software write makes of a register: an RW field takes its value, a W1C bit written 1 clears unless an event of this
cycle set it (R11), an RO, RC or WO field and a reserved bit stay. For a register whose fields do not overlap. -/
def Obligations.SoftwareWriteByAccessCode : Prop :=
  ∀ (d : RegDesc) (old ev v i : Nat), i < 32 → (∀ f ∈ d.fields, f.lo ≤ f.hi ∧ f.hi < 32) →
    d.fields.Pairwise (fun f g => f.hi < g.lo ∨ g.hi < f.lo) →
    (∀ f ∈ d.fields, f.lo ≤ i → i ≤ f.hi →
      (swValue d old ev v).testBit i =
        (match f.acc with
          | .rw => v.testBit i
          | .w1c => old.testBit i && (!v.testBit i || ev.testBit i)
          | .ro => old.testBit i
          | .rc => old.testBit i
          | .wo => old.testBit i)) ∧
    ((∀ f ∈ d.fields, i < f.lo ∨ f.hi < i) → (swValue d old ev v).testBit i = old.testBit i)

/-! ### Accesses (01_architecture.md) and the tick -/

/-- R8, R10, R11, R33: a write of an assigned register of a powered page by one who may write does what the page does with it and completes;
a read of a register without an own reading returns its value at the start of the cycle and clears its RC fields except for what
this cycle's events contributed, and leaves every other field and register; a word of a powered memory is stored and read, its
loss to an uncorrectable error marked (R489); the reserved parts of a lane's SRAM (R240) and the SRAM of a fenced cluster (R30) read 0
and discard. PF0 reaches memory in the boot states 4 to 6 (R433). -/
def Obligations.ServedAccesses : Prop :=
  (∀ (req : Requester) (o i : Nat) (b : Block) (v : Word) (s : State), s.Writer req → o < 0x3000000 →
    pageBlock (o / 0x10000) = some (b, i) → s.Powered (pageDomain b i) → (descIn b i (o % 0x10000)).isSome = true →
    (b ≠ .aq ∨ s.is5120 = false) →
    exec (.registerWrite req (BitVec.ofNat 40 (addrRegs + o)) v) s =
      .next ((pageWrite b i req (o % 0x10000) v.toNat s).wrote req o v.toNat)) ∧
  (∀ (req : Requester) (o i : Nat) (b : Block) (d : RegDesc) (s : State), s.Reaches req → s.CalServed → o < 0x3000000 →
    pageBlock (o / 0x10000) = some (b, i) → s.Powered (pageDomain b i) → descIn b i (o % 0x10000) = some d →
    (b ≠ .aq ∨ s.is5120 = false) → cryptoFields o = [] → pageRead b i req (o % 0x10000) s = none →
    Answers (exec (.readClearAccess req (BitVec.ofNat 40 (addrRegs + o))) s) (fun t =>
      t = (s.readClear o).gave req o (s.shown o) ∧
      (∀ f ∈ d.fields, f.acc ≠ .rc → f.lo ≤ f.hi → f.hi < 32 →
        (∀ g ∈ d.fields, g ≠ f → g.lo ≤ g.hi ∧ g.hi < 32 ∧ (g.hi < f.lo ∨ f.hi < g.lo)) →
        bits (t.word o) f.hi f.lo = bits (s.word o) f.hi f.lo) ∧
      RegsKept [o] s t)) ∧
  (∀ (req : Requester) (a d : Nat) (c : Option Nat) (v : Word) (s : State), s.ReachesMemory req → target a = .memory d c → s.Powered d →
    (∀ n, c = some n → s.fenced n = false) → (∀ i, i < 4 → laneReserved (a + i) = false) →
    exec (.registerWrite req (BitVec.ofNat 40 a) v) s =
      .next ((s.storeN a 4 v.toNat).answer { req := req, addr := BitVec.ofNat 40 a, write := some v } 0 false) ∧
    exec (.readClearAccess req (BitVec.ofNat 40 a)) s =
      .next (s.answer { req := req, addr := BitVec.ofNat 40 a, write := none } (s.loadN a 4) false (s.badSpan a 4))) ∧
  (∀ (req : Requester) (a d : Nat) (c : Option Nat) (v : Word) (s : State), s.ReachesMemory req → target a = .memory d c → s.Powered d →
    (∀ n, c = some n → s.fenced n = false) → (∀ i, i < 4 → laneReserved (a + i) = true) →
    exec (.registerWrite req (BitVec.ofNat 40 a) v) s =
      .next (s.answer { req := req, addr := BitVec.ofNat 40 a, write := some v } 0 false) ∧
    exec (.readClearAccess req (BitVec.ofNat 40 a)) s =
      .next (s.answer { req := req, addr := BitVec.ofNat 40 a, write := none } 0 false (s.badSpan a 4))) ∧
  (∀ (req : Requester) (a d n : Nat) (v : Word) (s : State), s.ReachesMemory req → target a = .memory d (some n) → s.Powered d →
    s.fenced n = true →
    exec (.registerWrite req (BitVec.ofNat 40 a) v) s =
      .next (s.answer { req := req, addr := BitVec.ofNat 40 a, write := some v } 0 false) ∧
    exec (.readClearAccess req (BitVec.ofNat 40 a)) s =
      .next (s.answer { req := req, addr := BitVec.ofNat 40 a, write := none } 0 false))

/-- R28: an access of a dark domain's page, at every offset, returns 0 and discards; it is counted and raised on ES2, and logged with KIND 2
where no access error stands in the log. Nothing else changes. -/
def Obligations.DarkPageAccessReadsZero : Prop :=
  ∀ (a : Access) (o i : Nat) (b : Block) (s : State), s.Reaches a.req → a.addr = BitVec.ofNat 40 (addrRegs + o) → o < 0x3000000 →
    pageBlock (o / 0x10000) = some (b, i) → 2 ≤ pageDomain b i → s.dom (pageDomain b i) = 0 → (b ≠ .aq ∨ s.is5120 = false) →
    Answers (exec (.darkPageAccess a) s) (fun t =>
      t.bus = some { req := a.req, addr := addrRegs + o, data := 0, unsupported := false } ∧
      t.rd IC_G_ACC_ERR = min (s.rd IC_G_ACC_ERR + 1) (2 ^ IC_G_ACC_ERR.width - 1) ∧ bit (t.word 0x30010) ES_IC = true ∧
      (s.on IC_ACC_INFO_VALID = false → t.on IC_ACC_INFO_VALID = true ∧ t.rd IC_ACC_INFO_KIND = 2 ∧
        t.rd IC_ACC_ADDR_LO_ADDR_LO = (addrRegs + o) % 2 ^ 32) ∧
      RegsKept [IC_ACC_ADDR_LO_ADDR_LO.addr, IC_ACC_ADDR_HI_ADDR_HI.addr, IC_ACC_INFO_KIND.addr, IC_G_ACC_ERR.addr, 0x30010] s t ∧
      BytesKept s t ∧ t = s.withAccess t)

/-- R29, R34, R485: an access of a dormant domain's page is held while the domain wakes, and the held accesses complete in order when it has
woken and is ON; an access of an unassigned address returns 0, with Unsupported Request for the host port, and is reported. -/
def Obligations.DormantAndUnassignedAccesses : Prop :=
  (∀ (a : Access) (o i : Nat) (b : Block) (s : State), s.Reaches a.req → a.addr = BitVec.ofNat 40 (addrRegs + o) → o < 0x3000000 →
    pageBlock (o / 0x10000) = some (b, i) → 2 ≤ pageDomain b i → s.dom (pageDomain b i) = 2 → (b ≠ .aq ∨ s.is5120 = false) →
    Answers (exec (.dormantPageAccess a) s) (fun t =>
      t.arch.held = s.arch.held ++ [a] ∧ (∃ w, (pageDomain b i, w) ∈ t.arch.wakes) ∧
      t = { s with arch := { s.arch with wakes := t.arch.wakes, held := s.arch.held ++ [a] } })) ∧
  (∀ (pd : Fin 16) (w : Nat) (s : State), (pd.val, w) ∈ s.arch.wakes → s.dom pd = 2 →
    exec (.domainWakeDone pd) s =
      .next (serveHeld s.arch.held
        ((({ s with arch := { s.arch with
          wakes := s.arch.wakes.filter (fun x => x.1 != pd.val), held := [] } }).setDom pd 1).portsOn pd))) ∧
  (∀ (req : Requester) (x : Nat) (v : Option Word) (s : State), s.Reaches req → x < 2 ^ 40 →
    (target x = .unassigned ∨ ∃ o, target x = .register o ∧ pageBlock (o / 0x10000) = none) →
    Answers (exec (.unassignedAddressAccess { req := req, addr := BitVec.ofNat 40 x, write := v }) s) (fun t =>
      t.bus = some { req := req, addr := x, data := 0, unsupported := viaHost req } ∧
      t.rd IC_G_ACC_ERR = min (s.rd IC_G_ACC_ERR + 1) (2 ^ IC_G_ACC_ERR.width - 1) ∧ bit (t.word 0x30010) ES_IC = true ∧
      (s.on IC_ACC_INFO_VALID = false → t.on IC_ACC_INFO_VALID = true ∧ t.rd IC_ACC_INFO_KIND = 3 ∧
        t.rd IC_ACC_INFO_WRITE = b2n v.isSome ∧ t.rd IC_ACC_INFO_REQ = reqCode req ∧
        t.rd IC_ACC_ADDR_LO_ADDR_LO = x % 2 ^ 32 ∧ t.rd IC_ACC_ADDR_HI_ADDR_HI = x / 2 ^ 32) ∧
      RegsKept [IC_ACC_ADDR_LO_ADDR_LO.addr, IC_ACC_ADDR_HI_ADDR_HI.addr, IC_ACC_INFO_KIND.addr, IC_G_ACC_ERR.addr, 0x30010] s t ∧
      BytesKept s t ∧ t = s.withAccess t))

/-- R22, R23: when the governing value has reached the representation of the due tick (R21, R52, R53), the tick is raised in this cycle with
its lateness, the tick count of the grid register and the next tick follow, and each block that runs takes the event: acquisition,
the streams, the drive unit and the pair; with none of the four running nothing else changes. -/
def Obligations.TickStartRaisesTheDueTick : Prop :=
  ∀ s : State, s.clk.running = true → tickRep s.dueTick ≤ s.now →
    exec .tickStart s =
      .next (((((raiseTick s.dueTick s).ifRuns 12 (acqEdge s.dueTick 0)).ifRuns 6 (tickStreams s.dueTick)).ifRuns 13
        (duTick s.dueTick)).ifRuns 10 (pairTick s.dueTick)) ∧
    (s.runs 12 = false → s.runs 6 = false → s.runs 13 = false → s.runs 10 = false →
      Answers (exec .tickStart s) (fun t =>
        t.clk = { s.clk with
          nextTick := s.dueTick + 1
          prevTick := s.clk.lastTick.map (fun p => p.1)
          lastTick := some (s.dueTick, s.cyc, (s.now - tickRep s.dueTick) / 2 ^ 24)
          raised := s.clk.raised + 1 } ∧
        t.tickG = s.dueTick ∧ t.tickCy = 0 ∧ t.rd HC_GRID_TICK = s.dueTick % 4800 ∧
        RegsKept [HC_GRID_TICK.addr] s t ∧ t = { s with regs := t.regs, clk := t.clk }))

/-- R3: on a BXM-5120, whatever the power state of PD12, a read of any offset of the AQ_ page by one whose accesses reach it completes with 0
and a write completes without effect; nothing else changes, and nothing is reported. -/
def Obligations.AcquisitionPageOfA5120 : Prop :=
  ∀ (req : Requester) (x : Fin 65536) (v : Word) (s : State), s.Reaches req → s.is5120 = true →
    exec (.readClearAccess req (BitVec.ofNat 40 (addrRegs + (0x900000 + x.val)))) s = .next (s.gave req (0x900000 + x.val) 0) ∧
    exec (.registerWrite req (BitVec.ofNat 40 (addrRegs + (0x900000 + x.val))) v) s =
      .next (s.wrote req (0x900000 + x.val) v.toNat)

/-- R9: a read or a write of an unassigned offset of an assigned page that answers accesses returns 0 or is discarded; it is counted and raised
on ES2, and logged with KIND 1 where no access error stands in the log. Nothing else changes. -/
def Obligations.UnassignedOffsetReadsZero : Prop :=
  ∀ (req : Requester) (o i : Nat) (b : Block) (v : Word) (c : Instr) (s : State), s.Reaches req → o < 0x3000000 →
    pageBlock (o / 0x10000) = some (b, i) → s.Powered (pageDomain b i) → descIn b i (o % 0x10000) = none →
    (b ≠ .aq ∨ s.is5120 = false) →
    c = .registerWrite req (BitVec.ofNat 40 (addrRegs + o)) v ∨ c = .readClearAccess req (BitVec.ofNat 40 (addrRegs + o)) →
    Answers (exec c s) (fun t =>
      t.bus = some { req := req, addr := addrRegs + o, data := 0, unsupported := false } ∧
      t.rd IC_G_ACC_ERR = min (s.rd IC_G_ACC_ERR + 1) (2 ^ IC_G_ACC_ERR.width - 1) ∧ bit (t.word 0x30010) ES_IC = true ∧
      (s.on IC_ACC_INFO_VALID = false → t.on IC_ACC_INFO_VALID = true ∧ t.rd IC_ACC_INFO_KIND = 1 ∧
        t.rd IC_ACC_ADDR_LO_ADDR_LO = (addrRegs + o) % 2 ^ 32) ∧
      RegsKept [IC_ACC_ADDR_LO_ADDR_LO.addr, IC_ACC_ADDR_HI_ADDR_HI.addr, IC_ACC_INFO_KIND.addr, IC_G_ACC_ERR.addr, 0x30010] s t ∧
      BytesKept s t ∧ t = s.withAccess t)

/-! ### House clock (02_house_clock.md) -/

/-- R41, R42, R45, R47, R51: writes of a time base's rate, slew, slew rate and staging registers, by one who may write. A RATE beyond
±200 ppm is stored as the limit, a slew amount waits for the next cycle, SLEW_PPM 0 is held at 1, and each sets RATE_CLAMP where the
rate or the total is limited (log entry 21: at the write). Writes of TB_0's RATE and slew restart its holdover watchdog. A staging
register takes its value while no commit is pending and leaves it, with cause BUSY, while one is. Nothing but the registers named
changes. -/
def Obligations.ClockSteeringWrites : Prop :=
  ∀ (req : Requester) (b : Fin 4) (v : Word) (s : State), s.Writer req →
    Answers (exec (.rateWrite req b v) s) (fun t =>
      t.rdS (HC_TB_RATE.i b) = clampI (-219902325) 219902325 (sext 32 v.toNat) ∧
      (t.on (HC_TB_RATE_CLAMP.i b) = true ↔ s.on (HC_TB_RATE_CLAMP.i b) = true ∨
        clampI (-219902325) 219902325 (sext 32 v.toNat) ≠ sext 32 v.toNat ∨ t.TotalLimited b) ∧
      (b = 0 → t.rd HC_STATUS_HOLDOVER = 0 ∧ t.clk = { s.clk with wdFrom := s.clk.lapse }) ∧ (b ≠ 0 → t.clk = s.clk) ∧
      RegsKept [(HC_TB_RATE.i b).addr, (HC_TB_RATE_CLAMP.i b).addr, HC_STATUS_HOLDOVER.addr, 0x30010] s t ∧
      t = { s.withAccess t with clk := t.clk }) ∧
    Answers (exec (.slewWrite req b v) s) (fun t =>
      t.tb b = { s.tb b with slewNew := some (sext 32 v.toNat * 2 ^ 40) } ∧ (∀ b', b' ≠ b.val → t.tb b' = s.tb b') ∧
      (t.on (HC_TB_RATE_CLAMP.i b) = true ↔ s.on (HC_TB_RATE_CLAMP.i b) = true ∨ t.TotalLimited b) ∧
      t.clk = { s.clk with tb := t.clk.tb, wdFrom := if b = 0 then s.clk.lapse else s.clk.wdFrom } ∧
      RegsKept [(HC_TB_RATE_CLAMP.i b).addr, 0x30010] s t ∧ t = { s.withAccess t with clk := t.clk }) ∧
    Answers (exec (.slewPpmWrite req b v) s) (fun t =>
      t.rd (HC_TB_SLEW_PPM.i b) = max 1 (v.toNat % 256) ∧
      (t.on (HC_TB_RATE_CLAMP.i b) = true ↔ s.on (HC_TB_RATE_CLAMP.i b) = true ∨ t.TotalLimited b) ∧
      RegsKept [(HC_TB_SLEW_PPM.i b).addr, (HC_TB_RATE_CLAMP.i b).addr, 0x30010] s t ∧ t = s.withAccess t) ∧
    (∀ k : Fin 5, (s.tb b).commit = none → Answers (exec (.stagingWrite req b k v) s) (fun t =>
      (k = 0 → t.rd (HC_TB_STG_SEC_LO.i b) = v.toNat) ∧ (k = 1 → t.rd (HC_TB_STG_SEC_HI.i b) = v.toNat % 2 ^ 16) ∧
      (k = 2 → t.rd (HC_TB_STG_NS.i b) = v.toNat % 2 ^ 30) ∧ (k = 3 → t.rd (HC_TB_STG_FRAC.i b) = v.toNat % 2 ^ 16) ∧
      (k = 4 → t.rd (HC_TB_STG_AT.i b) = v.toNat % 2 ^ 30) ∧
      RegsKept [(HC_TB_STG_SEC_LO.i b).addr + 4 * k] s t ∧ t = s.withAccess t)) ∧
    (∀ k : Fin 5, (s.tb b).commit ≠ none → Answers (exec (.stagingWrite req b k v) s) (fun t =>
      t.rd (HC_TB_CAUSE.i b) = 3 ∧ t.on (HC_TB_REFUSED.i b) = true ∧
      RegsKept [(HC_TB_CAUSE.i b).addr, 0x30010] s t ∧ t = s.withAccess t))

/-- R45, R46, R48, R67: a write of HC_CTRL stores its fields, GOV with them unless it differs while GOV_LOCK is set, which is discarded
with the house-clock event; a read of a base's SEC_LO, of PPS_SEC_LO or of IRIG_SEC_LO latches the group for its requester and
leaves those of the others. -/
def Obligations.ClockControlAndLatches : Prop :=
  (∀ (req : Requester) (v : Word) (s : State), s.Writer req →
    s.on HC_STATUS_GOV_LOCK = false ∨ v.toNat % 4 = s.rd HC_CTRL_GOV →
    Answers (exec (.hcCtrlWrite req v) s) (fun t =>
      t.rd HC_CTRL_GOV = v.toNat % 4 ∧ t.rd HC_CTRL_STEP_LOCK = bits v.toNat 8 8 ∧ t.rd HC_CTRL_TB0_LOCKED = bits v.toNat 4 4 ∧
      t.gov = s.gov ∧ RegsKept [0x40000] s t ∧ t = s.withAccess t)) ∧
  (∀ (req : Requester) (v : Word) (s : State), s.Writer req → s.on HC_STATUS_GOV_LOCK = true → v.toNat % 4 ≠ s.rd HC_CTRL_GOV →
    Answers (exec (.hcCtrlWrite req v) s) (fun t =>
      t.rd HC_CTRL_GOV = s.rd HC_CTRL_GOV ∧ t.rd HC_CTRL_STEP_LOCK = bits v.toNat 8 8 ∧
      t.rd HC_CTRL_TB0_LOCKED = bits v.toNat 4 4 ∧ bit (t.word 0x30010) ES_HC = true ∧
      RegsKept [0x40000, 0x30010] s t ∧ t = s.withAccess t)) ∧
  (∀ (req : Requester) (b : Fin 4) (s : State), s.Reaches req → s.CalServed →
    Answers (exec (.timeSnapshot req b) s) (fun t =>
      t.snap b (rqIndex req) = { val := (s.tb b).val, cyc := s.cyc } ∧
      (∀ c q, c * 8 + q ≠ b * 8 + rqIndex req → t.snap c q = s.snap c q) ∧
      (t.bus.map (fun c => c.data)) = some ((s.tb b).val / uS % 2 ^ 32) ∧
      RegsKept [] s t ∧ t = { s.withAccess t with clk := { s.clk with snaps := t.clk.snaps } })) ∧
  (∀ (req : Requester) (irig : Bool) (s : State), s.Reaches req → s.CalServed →
    Answers (exec (.ppsGroupLatch req irig) s) (fun t =>
      (∀ i, i < (if irig then 8 else 4) →
        t.groupWord irig (rqIndex req) i = s.word0 ((if irig then 0x40044 else 0x40024) + 4 * i)) ∧
      (∀ g q i, b2n g * 8 + q ≠ b2n irig * 8 + rqIndex req → t.groupWord g q i = s.groupWord g q i) ∧
      (t.bus.map (fun c => c.data)) = some (s.word0 (if irig then 0x40044 else 0x40024)) ∧
      RegsKept [] s t ∧ t = { s.withAccess t with clk := { s.clk with groups := t.clk.groups } }))

/-- R49–R51: a commit whose staging registers are in range, with none pending and no STEP_LOCK on the governing base, is accepted
and waits for its instant; one with a staging register out of range is refused as INVALID, else one while another is pending as
BUSY, else one of the governing base under STEP_LOCK as STEP_LOCK; CANCEL withdraws a pending commit without setting DONE or
REFUSED; a commit applies when its base reaches its instant, sets DONE and the base's SET bit and gives the base its new value at the
start of the next cycle. -/
def Obligations.ClockCommits : Prop :=
  (∀ (req : Requester) (b : Fin 4) (s : State), s.Writer req → s.rd (HC_TB_STG_NS.i b) < 1000000000 →
    s.rd (HC_TB_STG_AT.i b) < 1000000000 → (s.tb b).commit = none → ¬ (b.val = s.gov ∧ s.on HC_CTRL_STEP_LOCK = true) →
    (∀ rel : Bool, Answers (exec (if rel then .commitRel req b else .commitAbs req b) s) (fun t =>
      (t.tb b).commit = some
        { rel := rel, staged := stagedValue s b rel, instant := commitInstant (s.tb b).val (s.rd (HC_TB_STG_AT.i b)) } ∧
      t.tb b = { s.tb b with commit := (t.tb b).commit } ∧
      t.on (HC_TB_PEND.i b) = true ∧ (∀ b', b' ≠ b.val → t.tb b' = s.tb b') ∧
      t.clk = { s.clk with tb := t.clk.tb, wdFrom := if b = 0 then s.clk.lapse else s.clk.wdFrom } ∧
      RegsKept [(HC_TB_PEND.i b).addr] s t ∧ t = { s.withAccess t with clk := t.clk }))) ∧
  (∀ (req : Requester) (b : Fin 4) (cause : Nat) (s : State), s.Writer req →
    cause = (if 1000000000 ≤ s.rd (HC_TB_STG_NS.i b) ∨ 1000000000 ≤ s.rd (HC_TB_STG_AT.i b) then 2
      else if (s.tb b).commit.isSome then 3 else if b.val = s.gov ∧ s.on HC_CTRL_STEP_LOCK = true then 1 else 0) → cause ≠ 0 →
    (∀ rel : Bool, Answers (exec (if rel then .commitRel req b else .commitAbs req b) s) (fun t =>
      t.rd (HC_TB_CAUSE.i b) = cause ∧ t.on (HC_TB_REFUSED.i b) = true ∧ (∀ b', t.tb b' = s.tb b') ∧
      RegsKept [(HC_TB_PEND.i b).addr, 0x30010] s t ∧
      t = { s.withAccess t with clk := { s.clk with wdFrom := if b = 0 then s.clk.lapse else s.clk.wdFrom } }))) ∧
  (∀ (req : Requester) (b : Fin 4) (s : State), s.Writer req →
    Answers (exec (.hcCancel req b) s) (fun t =>
      t.tb b = { s.tb b with commit := none } ∧ t.on (HC_TB_PEND.i b) = false ∧ (∀ b', b' ≠ b.val → t.tb b' = s.tb b') ∧
      t.on (HC_TB_DONE.i b) = s.on (HC_TB_DONE.i b) ∧ t.on (HC_TB_REFUSED.i b) = s.on (HC_TB_REFUSED.i b) ∧
      t.clk = { s.clk with tb := t.clk.tb, wdFrom := if b = 0 then s.clk.lapse else s.clk.wdFrom } ∧
      RegsKept [(HC_TB_PEND.i b).addr] s t ∧ t = { s.withAccess t with clk := t.clk })) ∧
  (∀ (b : Fin 4) (c : Commit) (s : State), s.clk.running = true → (s.tb b).commit = some c → c.instant ≤ (s.tb b).val →
    Answers (exec (.commitApply b) s) (fun t =>
      (t.tb b).commit = none ∧ t.on (HC_TB_PEND.i b) = false ∧ t.on (HC_TB_DONE.i b) = true ∧
      t.rd HC_STATUS_SET = (s.rd HC_STATUS_SET ||| 2 ^ b.val) % 16 ∧
      (c.rel = false → t.nextVal b = (c.staged + (((s.tb b).val - c.instant : Nat) : Int)).toNat) ∧
      (c.rel = true → t.nextVal b = ((s.nextVal b : Int) + c.staged).toNat) ∧
      (t.tb b).val = (s.tb b).val ∧ (∀ b', b' ≠ b.val → t.tb b' = s.tb b') ∧ bit (t.word 0x30010) ES_HC = true ∧
      RegsKept [(HC_TB_PEND.i b).addr, HC_STATUS_SET.addr, 0x30010] s t ∧
      t = { s.withEvents t with clk := { s.clk with tb := t.clk.tb } }))

/-- R42, R47, R54, R64–R66: what the clock does of itself. SLEW_DONE: a slew whose last contribution was added in the cycle before sets
its flag and event (R42). HOLDOVER_ENTRY: TB_0 without a write for HOLD_WD ms takes AVG as its rate, its slew cancelled (R47).
TB0_SECOND_START: a completed second enters the mean, AVG is its rounding, and the leap flags act at their instants (R47, R54).
PPS_IN_EDGE: an edge of the chosen polarity that starts a level held for MINW_US is stamped in the base of HC_PPS_IN and counted in
EDGES, a shorter one is counted in REJECT (R64). IRIG_FRAME: a valid frame loads its stamp and fields together and counts in
FRAMES, another counts in ERR (R65). PPS_OUT_RISE and PPS_OUT_FALL: the output rises at a second start of its base unless GATE
suppresses it, and falls WIDTH_MS later (R66). -/
def Obligations.ClockEvents : Prop :=
  (∀ (b : Fin 4) (s : State), (s.tb b).slewEnded = true →
    Answers (exec (.slewDone b) s) (fun t =>
      t.on (HC_TB_SLEW_DONE.i b) = true ∧ t.tb b = { s.tb b with slewEnded := false } ∧
      (∀ b', b' ≠ b.val → t.tb b' = s.tb b') ∧ bit (t.word 0x30010) ES_HC = true ∧
      RegsKept [(HC_TB_SLEW_DONE.i b).addr, 0x30010] s t ∧ t = { s.withEvents t with clk := { s.clk with tb := t.clk.tb } })) ∧
  (∀ s : State, s.clk.running = true → s.rd HC_HOLD_WD_MS ≠ 0 → s.on HC_STATUS_HOLDOVER = false →
    s.clk.wdFrom + s.rd HC_HOLD_WD_MS * (1000000 * 2 ^ 40) ≤ s.clk.lapse →
    Answers (exec .holdoverEntry s) (fun t =>
      t.rd (HC_TB_RATE.i 0) = s.rd (HC_TB_AVG.i 0) ∧ t.on HC_STATUS_HOLDOVER = true ∧
      t.tb 0 = { s.tb 0 with slewNew := some 0 } ∧ (∀ b', b' ≠ 0 → t.tb b' = s.tb b') ∧ bit (t.word 0x30010) ES_HC = true ∧
      RegsKept [(HC_TB_RATE.i 0).addr, HC_STATUS_HOLDOVER.addr, 0x30010] s t ∧
      t = { s.withEvents t with clk := { s.clk with tb := t.clk.tb } })) ∧
  (∀ (sec : Nat) (ofs : Int) (l61 l59 : Prop) (s : State), s.clk.secChange = true → sec = (s.tb 0).val / uS →
    ofs = sext 16 (s.rd HC_UTC_UTC_OFS) →
    (l61 ↔ s.clk.leap61 = some (sec - 1) ∧ s.on HC_UTC_LEAP61 = true) →
    (l59 ↔ s.on HC_UTC_LEAP59 = true ∧ ((sec : Int) - ofs) % 86400 = 86399) →
    Answers (exec .tb0SecondStart s) (fun t =>
      t.clk.means = (match s.clk.secDone with | some m => (m :: s.clk.means).take 64 | none => s.clk.means) ∧
      (t.clk.means ≠ [] → t.rd (HC_TB_AVG.i 0) = toBits 32 (avgOf t.clk.means)) ∧
      (t.clk.means = [] → t.rd (HC_TB_AVG.i 0) = s.rd (HC_TB_AVG.i 0)) ∧ t.clk.secDone = none ∧ t.clk.secChange = false ∧
      (l61 → ¬ l59 → t.rd HC_UTC_UTC_OFS = toBits 16 (ofs + 1) ∧ t.on HC_UTC_LEAP61 = false) ∧
      (l59 → t.rd HC_UTC_UTC_OFS = toBits 16 (ofs - 1) ∧ t.on HC_UTC_LEAP59 = false) ∧
      (¬ l61 → t.on HC_UTC_LEAP61 = s.on HC_UTC_LEAP61) ∧ (¬ l59 → t.on HC_UTC_LEAP59 = s.on HC_UTC_LEAP59) ∧
      (¬ l61 → ¬ l59 → t.word HC_UTC_UTC_OFS.addr = s.word HC_UTC_UTC_OFS.addr) ∧
      t.clk.leap61 = (if t.on HC_UTC_LEAP61 = true ∧ ((sec : Int) - ofs) % 86400 = 0 then some sec else none) ∧
      RegsKept [(HC_TB_AVG.i 0).addr, HC_UTC_UTC_OFS.addr] s t ∧
      t = { s.withRegs t with clk := { s.clk with
        means := t.clk.means, secDone := none, secChange := false, leap61 := t.clk.leap61 } })) ∧
  (∀ (sub : Fin 65536) (heldUs : Nat) (s : State), s.on HC_PPS_IN_EN = true → s.rd HC_PPS_IN_MINW_US ≤ heldUs →
    Answers (exec (.ppsInEdge (!s.on HC_PPS_IN_EDGE) sub heldUs) s) (fun t =>
      StampIs t 0x40024 (s.stampIn (s.rd HC_PPS_IN_TB) sub) ∧
      t.rd HC_PPS_CNT_EDGES = (s.rd HC_PPS_CNT_EDGES + 1) % 2 ^ 16 ∧ t.rd HC_PPS_CNT_REJECT = s.rd HC_PPS_CNT_REJECT ∧
      RegsKept [0x40024, 0x40028, 0x4002C, 0x40030, HC_PPS_CNT_EDGES.addr] s t ∧ t = s.withRegs t)) ∧
  (∀ (sub : Fin 65536) (heldUs : Nat) (s : State), s.on HC_PPS_IN_EN = true → heldUs < s.rd HC_PPS_IN_MINW_US →
    Answers (exec (.ppsInEdge (!s.on HC_PPS_IN_EDGE) sub heldUs) s) (fun t =>
      t.rd HC_PPS_CNT_REJECT = min (s.rd HC_PPS_CNT_REJECT + 1) (2 ^ 16 - 1) ∧ bit (t.word 0x30010) ES_HC = true ∧
      t.rd HC_PPS_CNT_EDGES = s.rd HC_PPS_CNT_EDGES ∧ RegsKept [HC_PPS_CNT_EDGES.addr, 0x30010] s t ∧ t = s.withEvents t)) ∧
  (∀ (f : IrigFrame) (s : State), s.on HC_IRIG_CTRL_EN = true → irigGood f = true →
    Answers (exec (.irigFrame f) s) (fun t =>
      StampIs t 0x40044 (s.stampAgo (s.irigBase f.ago) f.ago) ∧
      t.rd HC_IRIG_TOD_SEC = (f.secT * 10 + f.secU) % 64 ∧ t.rd HC_IRIG_TOD_MIN = (f.minT * 10 + f.minU) % 64 ∧
      t.rd HC_IRIG_TOD_HOUR = (f.hrT * 10 + f.hrU) % 32 ∧
      t.rd HC_IRIG_DATE_DAY = (f.dayH * 100 + f.dayT * 10 + f.dayU) % 512 ∧ t.on HC_IRIG_DATE_VALID = true ∧
      (t.on HC_IRIG_DATE_YEAR_PRES = true ↔ 4 ≤ f.code.val) ∧
      t.rd HC_IRIG_DATE_YEAR = (if 4 ≤ f.code.val then (f.yrT * 10 + f.yrU) % 128 else 0) ∧
      (t.on HC_IRIG_SBS_SBS_PRES = true ↔ f.code.val ∈ [0, 3, 4, 7]) ∧
      t.rd HC_IRIG_SBS_SBS = (if f.code.val ∈ [0, 3, 4, 7] then f.sbs % 2 ^ 17 else 0) ∧ t.rd HC_IRIG_CF_CF = f.cf % 2 ^ 27 ∧
      t.rd HC_IRIG_CNT_FRAMES = (s.rd HC_IRIG_CNT_FRAMES + 1) % 2 ^ 16 ∧
      RegsKept [0x40044, 0x40048, 0x4004C, 0x40050, 0x40054, 0x40058, 0x4005C, 0x40060, 0x40064] s t ∧ t = s.withRegs t)) ∧
  (∀ (f : IrigFrame) (s : State), s.on HC_IRIG_CTRL_EN = true → irigGood f = false →
    Answers (exec (.irigFrame f) s) (fun t =>
      t.rd HC_IRIG_CNT_ERR = min (s.rd HC_IRIG_CNT_ERR + 1) (2 ^ 16 - 1) ∧ bit (t.word 0x30010) ES_HC = true ∧
      t.rd HC_IRIG_CNT_FRAMES = s.rd HC_IRIG_CNT_FRAMES ∧ RegsKept [0x40064, 0x30010] s t ∧ t = s.withEvents t)) ∧
  (∀ (b n : Nat) (s : State), s.on HC_PPS_OUT_EN = true → b = s.rd HC_PPS_OUT_TB → (s.tb b).secReached = some n →
    (b, n) ∉ s.clk.ppsMarked → n * uS ≤ (s.tb b).val → (s.tb b).val < n * uS + 2 * 2 ^ 40 →
    (s.on HC_PPS_OUT_GATE = false ∨ (s.on HC_STATUS_HOLDOVER = false ∧ s.on HC_CTRL_TB0_LOCKED = true)) →
    exec .ppsOutRise s = .next { s with clk := { s.clk with
      ppsOut := true, ppsMarked := (b, n) :: s.clk.ppsMarked
      ppsFall := s.clk.lapse + s.rd HC_PPS_OUT_WIDTH_MS * (1000000 * 2 ^ 40) } }) ∧
  (∀ s : State, s.on HC_PPS_OUT_GATE = true → (s.on HC_STATUS_HOLDOVER = true ∨ s.on HC_CTRL_TB0_LOCKED = false) →
    exec .ppsOutRise s = .next s) ∧
  (∀ s : State, s.clk.ppsOut = true → s.clk.ppsFall ≤ s.clk.lapse →
    exec .ppsOutFall s = .next { s with clk := { s.clk with ppsOut := false } })

/-! ### Ports (03_ports.md) -/

/-- R71, R82, R89, R91, R92, R101, R104, R128: what the register commands of a port do for one who may write, its page powered.
PT_CTRL_WRITE: a disabled port stores the fields of PT_CTRL, an unlisted MODE as the reset MODE (R71), and an enabled one keeps MODE,
MAXLEN, FEC and AN_EN, with the port event where they differ; PORT_ENABLE takes the port from OFF to DOWN with its grace time running
(R92), PORT_DISABLE to OFF (R128); PAUSE_REARM forgives a broken pause (R91); DORMANT takes ports 0 to 15 from UP to DORMANT and WAKE lets
a dormant one return within 50 µs, and each is discarded with the port event otherwise (R89); PREEMPT_EN_WRITE: clearing EN stops
preemption, and setting it begins verification, skips it or waits for the link (R82); RING_REG_WRITE: a ring's SIZE of a valid value
enables it at NEXT 0 (log entry 95) and its base is stored while SIZE is 0, an invalid SIZE disables it with the event (R104), for the
ring pairs of I2 and for a tenant's own; OCTET_COUNTER_LATCH: a latched octet counter keeps its high word for its requester (R101). -/
def Obligations.PortRegisterCommands : Prop :=
  (∀ (req : Requester) (p : Fin 19) (s : State), s.Writer req → s.dom (portDomain p) = 1 →
    (∀ v : Word, s.on (PT_CTRL_EN.p p) = false → bit v.toNat 31 = false →
      Answers (exec (.ptCtrlWrite req (p.castLE (by decide)) v) s) (fun t =>
        t.on (PT_CTRL_EN.p p) = false ∧ t.rd (PT_CTRL_UP_HOLD_MS.p p) = bits v.toNat 15 8 ∧
        t.rd (PT_CTRL_MODE.p p) = modeStored p (bits v.toNat 30 28) ∧ t.rd (PT_CTRL_AN_EN.p p) = bits v.toNat 23 23 ∧
        RegsKept [(PT_CTRL_EN.p p).addr] s t ∧ t = s.withAccess t)) ∧
    (∀ v : Word, s.on (PT_CTRL_EN.p p) = true → bit v.toNat 31 = true →
      Answers (exec (.ptCtrlWrite req (p.castLE (by decide)) v) s) (fun t =>
        t.on (PT_CTRL_EN.p p) = true ∧ t.rd (PT_CTRL_UP_HOLD_MS.p p) = bits v.toNat 15 8 ∧
        t.rd (PT_CTRL_MODE.p p) = s.rd (PT_CTRL_MODE.p p) ∧ t.rd (PT_CTRL_MAXLEN.p p) = s.rd (PT_CTRL_MAXLEN.p p) ∧
        t.rd (PT_CTRL_FEC.p p) = s.rd (PT_CTRL_FEC.p p) ∧ t.rd (PT_CTRL_AN_EN.p p) = s.rd (PT_CTRL_AN_EN.p p) ∧
        (bits v.toNat 30 23 ≠ bits (s.word (PT_CTRL_EN.p p).addr) 30 23 → bit (t.word 0x30014) p = true) ∧
        RegsKept [(PT_CTRL_EN.p p).addr, 0x30014] s t ∧ t = s.withAccess t)) ∧
    (s.on (PT_CTRL_EN.p p) = false → s.link p = 0 → Answers (exec (.portEnable req p) s) (fun t =>
      t.on (PT_CTRL_EN.p p) = true ∧ t.link p = 1 ∧
      (t.port p).graceTo = some (s.clk.lapse + max 1 (s.rd (HL_P_GRACE_MS.i p) * (1000000 * 2 ^ 40))) ∧
      (∀ q, q ≠ p.val → t.port q = s.port q) ∧
      RegsKept [(PT_CTRL_EN.p p).addr, (PT_STATUS_STATE.p p).addr] s t ∧ t = { s.withAccess t with ports := t.ports })) ∧
    (s.on (PT_CTRL_EN.p p) = true → Answers (exec (.portDisable req p) s) (fun t =>
      t.on (PT_CTRL_EN.p p) = false ∧ t.link p = 0 ∧
      t = (((s.wr (PT_CTRL_EN.p p) 0).wr (PT_CTRL_UP_HOLD_MS.p p) (s.rd (PT_CTRL_UP_HOLD_MS.p p))).enterOff p).wrote req
        (0x100000 + p.val * 0x10000) (setBits (s.word (PT_CTRL_EN.p p).addr) 31 31 0))) ∧
    (Answers (exec (.pauseRearm req p) s) (fun t =>
      t.on (PT_STATUS_PAUSE_BROKEN.p p) = false ∧ RegsKept [(PT_STATUS_PAUSE_BROKEN.p p).addr] s t ∧ t = s.withAccess t)) ∧
    (p.val < 16 → s.link p = 2 → Answers (exec (.ptDormant req p) s) (fun t =>
      t.link p = 3 ∧ t.rd (PT_STATUS_VERIFY.p p) = (if s.rd (PT_STATUS_VERIFY.p p) = 2 then 1 else s.rd (PT_STATUS_VERIFY.p p)) ∧
      RegsKept [(PT_STATUS_STATE.p p).addr] s t ∧ t = s.withAccess t)) ∧
    (16 ≤ p.val ∨ s.link p ≠ 2 → Answers (exec (.ptDormant req p) s) (fun t =>
      bit (t.word 0x30014) p = true ∧ RegsKept [0x30014] s t ∧ t = s.withAccess t)) ∧
    (s.link p = 3 → Answers (exec (.ptWake req p) s) (fun t =>
      (t.port p).wakeBy = some ((s.port p).wakeBy.getD (s.clk.lapse + 50000 * 2 ^ 40)) ∧
      RegsKept [] s t ∧ t = { s.withAccess t with ports := t.ports })) ∧
    (s.link p ≠ 3 → Answers (exec (.ptWake req p) s) (fun t =>
      bit (t.word 0x30014) p = true ∧ RegsKept [0x30014] s t ∧ t = s.withAccess t)) ∧
    (∀ v : Word, s.on (PT_PREEMPT_EN.p p) = true → bit v.toNat 31 = false →
      Answers (exec (.preemptEnWrite req p v) s) (fun t =>
        t.on (PT_PREEMPT_EN.p p) = false ∧ t.rd (PT_STATUS_VERIFY.p p) = 0 ∧ t.on (PT_STATUS_PREEMPT_ACTIVE.p p) = false ∧
        t.rd (PT_PREEMPT_VERIFY_MS.p p) = clampN 1 128 (v.toNat % 256) ∧
        RegsKept [(PT_PREEMPT_EN.p p).addr, (PT_STATUS_VERIFY.p p).addr] s t ∧ t = s.withAccess t)) ∧
    (∀ v : Word, p.val ≠ 18 → s.on (PT_PREEMPT_EN.p p) = false → bit v.toNat 31 = true →
      Answers (exec (.preemptEnWrite req p v) s) (fun t =>
        t.on (PT_PREEMPT_EN.p p) = true ∧ t.rd (PT_PREEMPT_EXPRESS_MASK.p p) = bits v.toNat 23 16 ∧
        t.rd (PT_STATUS_VERIFY.p p) = (if s.link p ≠ 2 then 1 else if bit v.toNat 30 then 5 else 2) ∧
        t.on (PT_STATUS_PREEMPT_ACTIVE.p p) = (s.link p == 2 && bit v.toNat 30) ∧
        (s.link p = 2 → bit v.toNat 30 = false → (t.port p).verifySent = 0) ∧
        RegsKept [(PT_PREEMPT_EN.p p).addr, (PT_STATUS_VERIFY.p p).addr] s t ∧ t = { s.withAccess t with ports := t.ports }))) ∧
  (∀ (req : Requester) (q : Fin 22) (tx : Bool) (s : State), s.Reaches req → s.CalServed → s.dom (pageDomain .pt q) = 1 →
    Answers (exec (.octetCounterLatch req q tx) s) (fun t =>
      agetD t.ports.octLatch (rqIndex req * 64 + q.val * 2 + b2n tx) 0 =
        s.word0 (0x100000 + q.val * 0x10000 + (if tx then 0x114 else 0x108)) ∧
      (∀ k, k ≠ rqIndex req * 64 + q.val * 2 + b2n tx → agetD t.ports.octLatch k 0 = agetD s.ports.octLatch k 0) ∧
      t.bus.map (fun c => c.data) = some (s.word0 (0x100000 + q.val * 0x10000 + (if tx then 0x110 else 0x104))) ∧
      RegsKept [] s t ∧ t = { s.withAccess t with ports := { s.ports with octLatch := t.ports.octLatch } })) ∧
  (∀ (req : Requester) (r : Ring) (v : Word) (s : State),
    ((∃ i, r = .steward i) ∧ s.Writer req ∧ s.dom 7 = 1) ∨ (∃ i, r = .tenant i ∧ req = .vf i ∧ s.vfMapped i = true) →
    (ringSizeOk (v.toNat % 8192) = true → v.toNat % 8192 ≠ 0 → s.word (ringReg r 2) = 0 →
      Answers (exec (.ringRegWrite req r 2 v) s) (fun t =>
        t.word (ringReg r 2) = v.toNat % 8192 ∧ t.word (ringReg r 3) = 0 ∧
        RegsKept [ringReg r 2, ringReg r 3] s t ∧ t = s.withAccess t)) ∧
    (ringSizeOk (v.toNat % 8192) = false → s.ports.rxPart = none → Answers (exec (.ringRegWrite req r 2 v) s) (fun t =>
      t.word (ringReg r 2) = 0 ∧ (∀ i, r = .steward i → bit (t.word 0x30014) 21 = true) ∧
      (∀ i, r = .tenant i → t.on (VI_EVENT_REFUSED.p i) = true) ∧
      (∀ i, r = .steward i → RegsKept [ringReg r 2, 0x30014] s t)))) ∧
  (∀ (req : Requester) (i : Fin 4) (v : Word) (s : State), s.Writer req → s.dom 7 = 1 → s.ports.rxPart = none →
    (s.word (ringReg (.steward i) 2) = 0 → Answers (exec (.ringRegWrite req (.steward i) 0 v) s) (fun t =>
      t.rd ((PT_RING_RX_BASE_LO.p 21).i i) = bits v.toNat 31 12 ∧
      RegsKept [ringReg (.steward i) 0] s t ∧ t = s.withAccess t)) ∧
    (s.word (ringReg (.steward i) 2) ≠ 0 → Answers (exec (.ringRegWrite req (.steward i) 0 v) s) (fun t =>
      RegsKept [] s t ∧ t = s.withAccess t)))

/-- R70, R89, R92, R93, R127, for a port whose domain works. AN_DONE: completed negotiation of a DOWN port shows lock and AN_DONE, and its
hold begins; a PHY at 10 or 100 Mb/s over SGMII keeps it DOWN (R70). LINK_UP: a DOWN port whose lock and negotiation have held for UP_HOLD_MS
enters UP with LINK_UP (R92); before that the lock only shows, or the hold begins (log entry 32). PCS_LOCK_LOSS: loss of lock, or of
the negotiation alone, takes an UP or DORMANT port DOWN with LINK_DOWN and its grace time running, and a DOWN one back to the start of its
hold (R92, R93). GRACE_EXPIRY: a DOWN port's grace time ends, and its queues are flushed as the cycle ends unless it enters UP in it (R127).
PORT_WAKE_DONE: a dormant port told to
wake returns to UP (R89). -/
def Obligations.PortLinkEvents : Prop :=
  ∀ (p : Fin 19) (s : State), s.runs (portDomain p) = true →
    (∀ speed : Fin 3, s.link p = 1 → s.negotiates p = true → Answers (exec (.anDone p speed) s) (fun t =>
      t.on (PT_STATUS_PCS_LOCK.p p) = true ∧ t.on (PT_STATUS_AN_DONE.p p) = true ∧ t.link p = 1 ∧
      t.port p = { s.port p with
        slow := decide (s.rd (PT_CTRL_MODE.p p) = 3 ∧ speed.val ≠ 2), upFrom := some ((s.port p).upFrom.getD s.clk.lapse) } ∧
      (∀ q, q ≠ p.val → t.port q = s.port q) ∧
      RegsKept [(PT_STATUS_AN_DONE.p p).addr] s t ∧ t = { s with regs := t.regs, ports := t.ports })) ∧
    (∀ u : Nat, s.link p = 1 → (s.port p).slow = false → (s.port p).upFrom = some u →
      u + s.rd (PT_CTRL_UP_HOLD_MS.p p) * (1000000 * 2 ^ 40) ≤ s.clk.lapse →
      Answers (exec (.linkUp p) s) (fun t => t = (s.wr (PT_STATUS_PCS_LOCK.p p) 1).enterUp p ∧
        t.link p = 2 ∧ t.on (PT_STATUS_PCS_LOCK.p p) = true ∧ t.on (PT_STATUS_PAUSE_BROKEN.p p) = false ∧
        t.on (PT_EVENT_LINK_UP.p p) = true ∧ (t.port p).graceTo = none)) ∧
    (∀ u : Nat, s.link p = 1 → (s.port p).upFrom = some u →
      (s.port p).slow = true ∨ s.clk.lapse < u + s.rd (PT_CTRL_UP_HOLD_MS.p p) * (1000000 * 2 ^ 40) →
      exec (.linkUp p) s = .next (s.wr (PT_STATUS_PCS_LOCK.p p) 1)) ∧
    (s.link p = 1 → (s.port p).upFrom = none → (s.negotiates p = true → s.on (PT_STATUS_AN_DONE.p p) = true) →
      (s.port p).slow = true ∨ s.rd (PT_CTRL_UP_HOLD_MS.p p) ≠ 0 →
      exec (.linkUp p) s =
        .next ((s.wr (PT_STATUS_PCS_LOCK.p p) 1).setPort p { s.port p with upFrom := some s.clk.lapse })) ∧
    (s.link p = 1 → (s.port p).upFrom = none → s.negotiates p = true → s.on (PT_STATUS_AN_DONE.p p) = false →
      exec (.linkUp p) s = .next (s.wr (PT_STATUS_PCS_LOCK.p p) 1)) ∧
    (∀ neg : Bool, 2 ≤ s.link p → (neg = true → s.negotiates p = true ∧ s.on (PT_STATUS_AN_DONE.p p) = true) →
      Answers (exec (.pcsLockLoss p neg) s) (fun t =>
        t = ((if neg then s else s.wr (PT_STATUS_PCS_LOCK.p p) 0).wr (PT_STATUS_AN_DONE.p p) 0).enterDown p ∧
        t.link p = 1 ∧ t.on (PT_STATUS_AN_DONE.p p) = false ∧ (neg = false → t.on (PT_STATUS_PCS_LOCK.p p) = false) ∧
        t.on (PT_EVENT_LINK_DOWN.p p) = true ∧
        (t.port p).graceTo = some (s.clk.lapse + max 1 (s.rd (HL_P_GRACE_MS.i p) * (1000000 * 2 ^ 40))) ∧
        (t.port p).rxOpen = [] ∧ (t.port p).txFrame = none ∧ (t.port p).upFrom = none)) ∧
    (∀ neg : Bool, s.link p = 1 → (neg = true → s.negotiates p = true ∧ s.on (PT_STATUS_AN_DONE.p p) = true) →
      Answers (exec (.pcsLockLoss p neg) s) (fun t =>
        (neg = false → t.on (PT_STATUS_PCS_LOCK.p p) = false) ∧ t.on (PT_STATUS_AN_DONE.p p) = false ∧ t.link p = 1 ∧
        t.port p = { s.port p with upFrom := none, slow := false } ∧ (∀ q, q ≠ p.val → t.port q = s.port q) ∧
        RegsKept [(PT_STATUS_AN_DONE.p p).addr] s t ∧ t = { s with regs := t.regs, ports := t.ports })) ∧
    (∀ g : Nat, s.link p = 1 → (s.port p).graceTo = some g → g ≤ s.clk.lapse → s.linkHeld p = false →
      exec (.graceExpiry p) s = .next (s.setPort p { s.port p with graceTo := none, graceEnd := true })) ∧
    ((s.port p).graceEnd = true → s.link p = 1 →
      s.graceCycle p = (s.setPort p { s.port p with graceEnd := false, graceOver := true }).flushPort p ∧
      ((s.graceCycle p).port p).graceOver = true ∧ ((s.graceCycle p).port p).grants = []) ∧
    ((s.port p).graceEnd = true → s.link p ≠ 1 → s.graceCycle p = s.setPort p { s.port p with graceEnd := false }) ∧
    (s.link p = 3 → (s.port p).wakeBy.isSome = true → Answers (exec (.portWakeDone p) s) (fun t =>
      t = s.portReturn p ∧ t.link p = 2 ∧ (t.port p).wakeBy = none ∧ (t.port p).retAt = some s.clk.lapse))

/-- R82, R90, R91, for a port whose domain works. PAUSE_FRAME_RX: a PAUSE of q quanta whose last byte has been released pauses the port
for q quanta of its rate, a PAUSE of 0 ends the pause (R90); PAUSE_END: a pause ends at its instant; PAUSE_WATCHDOG: one renewed that has
lasted WD_US is broken, counted and reported (R91). VERIFY_MPACKET_SEND: the first verify mPacket goes when the MAC is free, the second and
third VERIFY_MS after the one before; RESPOND_MPACKET_RX: an answer's release cycle is noted, and that release makes the status
SUCCEEDED with preemption active; VERIFY_MPACKET_RX: a received verify mPacket is answered; VERIFY_FAIL: three intervals without an
answer end in FAILED (R82). -/
def Obligations.PauseAndVerify : Prop :=
  ∀ (p : Fin 19) (s : State), s.runs (portDomain p) = true →
    (∀ (c q : Nat) (rest : List (Nat × Nat)), (s.port p).pauseReqs = (c, q) :: rest → c ≤ s.cyc → q ≠ 0 →
      s.on (PT_PAUSE_RX_EN.p p) = true → s.on (PT_STATUS_PAUSE_BROKEN.p p) = false →
      Answers (exec (.pauseFrameRx p) s) (fun t =>
        t.on (PT_STATUS_PAUSED.p p) = true ∧ (t.port p).pauseTo = s.clk.lapse + quanta q (s.rate p) ∧
        (t.port p).pauseReqs = rest ∧
        (t.port p).pauseRenewed = (s.on (PT_STATUS_PAUSED.p p) && decide (s.clk.lapse < (s.port p).pauseTo)) ∧
        (∀ k, k ≠ p.val → t.port k = s.port k) ∧
        RegsKept [(PT_STATUS_PAUSED.p p).addr] s t ∧ t = { s with regs := t.regs, ports := t.ports })) ∧
    (∀ (c : Nat) (rest : List (Nat × Nat)), (s.port p).pauseReqs = (c, 0) :: rest → c ≤ s.cyc →
      s.on (PT_PAUSE_RX_EN.p p) = true → s.on (PT_STATUS_PAUSE_BROKEN.p p) = false →
      Answers (exec (.pauseFrameRx p) s) (fun t =>
        t.on (PT_STATUS_PAUSED.p p) = false ∧ t.port p = { s.port p with pauseReqs := rest } ∧
        RegsKept [(PT_STATUS_PAUSED.p p).addr] s t ∧ t = { s with regs := t.regs, ports := t.ports })) ∧
    (s.on (PT_STATUS_PAUSED.p p) = true → (s.port p).pauseTo ≤ s.clk.lapse → Answers (exec (.pauseEnd p) s) (fun t =>
      t.on (PT_STATUS_PAUSED.p p) = false ∧ RegsKept [(PT_STATUS_PAUSED.p p).addr] s t ∧ t = { s with regs := t.regs })) ∧
    (s.on (PT_STATUS_PAUSED.p p) = true → (s.port p).pauseRenewed = true →
      (s.port p).pauseFrom + s.rd (PT_PAUSE_WD_US.p p) * (1000 * 2 ^ 40) ≤ (s.port p).pauseTo →
      (s.port p).pauseFrom + s.rd (PT_PAUSE_WD_US.p p) * (1000 * 2 ^ 40) ≤ s.clk.lapse →
      Answers (exec (.pauseWatchdog p) s) (fun t =>
        t.on (PT_STATUS_PAUSED.p p) = false ∧ t.on (PT_STATUS_PAUSE_BROKEN.p p) = true ∧
        t.rd (PT_C_PAUSE_WD.p p) = min (s.rd (PT_C_PAUSE_WD.p p) + 1) (2 ^ PT_C_PAUSE_WD.width - 1) ∧
        t.on (PT_EVENT_PAUSE_WD.p p) = true ∧
        RegsKept [(PT_STATUS_PAUSED.p p).addr, (PT_C_PAUSE_WD.p p).addr, (PT_EVENT_PAUSE_WD.p p).addr, 0x30014] s t ∧
        t = { s.withEvents t with ports := t.ports })) ∧
    (s.link p = 2 → s.rd (PT_STATUS_VERIFY.p p) = 2 → (s.port p).verifySent = 0 → s.macFree p = true → s.pausedNow p = false →
      exec (.verifyMpacketSend p) s = .next (s.setPort p { s.port p with verifySent := 1, verifyAt := s.clk.lapse })) ∧
    (s.link p = 2 → s.rd (PT_STATUS_VERIFY.p p) = 2 → (s.port p).verifySent = 1 ∨ (s.port p).verifySent = 2 →
      (s.port p).verifyAt + s.rd (PT_PREEMPT_VERIFY_MS.p p) * (1000000 * 2 ^ 40) ≤ s.clk.lapse →
      exec (.verifyMpacketSend p) s =
        .next (s.setPort p { s.port p with verifySent := (s.port p).verifySent + 1, verifyAt := s.clk.lapse })) ∧
    (∀ sub : Fin 65536, s.link p = 2 → s.rd (PT_STATUS_VERIFY.p p) = 2 →
      exec (.respondMpacketRx p sub) s =
        .next (s.setPort p { s.port p with
          respAt := some ((s.port p).respAt.getD (s.releaseCyc p (s.rxStampIn p s.gov sub) 0)) })) ∧
    (∀ c : Nat, (s.port p).respAt = some c → c ≤ s.cyc → s.link p = 2 → s.rd (PT_STATUS_VERIFY.p p) = 2 →
      (s.respCycle p).rd (PT_STATUS_VERIFY.p p) = 3 ∧ (s.respCycle p).on (PT_STATUS_PREEMPT_ACTIVE.p p) = true ∧
      ((s.respCycle p).port p).respAt = none ∧ RegsKept [(PT_STATUS_VERIFY.p p).addr] s (s.respCycle p)) ∧
    (s.link p = 2 → s.on (PT_PREEMPT_EN.p p) = true →
      exec (.verifyMpacketRx p) s = .next (s.setPort p { s.port p with responds := (s.port p).responds + 1 })) ∧
    (s.rd (PT_STATUS_VERIFY.p p) = 2 → (s.port p).verifySent = 3 →
      (s.port p).verifyAt + s.rd (PT_PREEMPT_VERIFY_MS.p p) * (1000000 * 2 ^ 40) ≤ s.clk.lapse →
      Answers (exec (.verifyFail p) s) (fun t =>
        t.rd (PT_STATUS_VERIFY.p p) = 4 ∧ t.on (PT_EVENT_VERIFY_FAIL.p p) = true ∧
        t.rd (PT_C_VERIFY_FAIL.p p) = min (s.rd (PT_C_VERIFY_FAIL.p p) + 1) (2 ^ PT_C_VERIFY_FAIL.width - 1) ∧
        RegsKept [(PT_STATUS_VERIFY.p p).addr, (PT_C_VERIFY_FAIL.p p).addr, (PT_EVENT_VERIFY_FAIL.p p).addr, 0x30014] s t ∧
        t = s.withEvents t))

/-- R72, R77, R79, R86, R89, R90, R95–R97, R100, R390. FRAME_RECEIVE, on an UP or DORMANT port: a good frame that matches no pattern is
counted and enters the Hall without its FCS, with its stamps and release schedule; one received in DORMANT is counted in DORMANT_DROP;
a MAC control frame is consumed; a runt, and a frame whose reassembly fails, are counted and dropped; an oversize frame or one with a bad FCS is
counted and handed on as bad. RING_RX_DELIVER: a complete I2 copy is written to its ring; where one descriptor of a steward ring
holds it, its octets, its bytes 12–31 and NEXT are as R95 says, and the copy is gone. RING_TX_FETCH: a steward ring's frame with good buffers
leaves its descriptors, by lookup or to its DEST; one in error hands its descriptors back with its errors; a tenant's frame waits.
TENANT_FRAME_ENTRY: it enters when gate, bucket and share let it. -/
def Obligations.FramesAndRings : Prop :=
  (∀ (p : Fin 19) (rx : RxFrame) (l : List Byte) (s : State), s.runs (portDomain p) = true → s.link p = 2 ∨ s.link p = 3 →
    assemble rx = some l → s.screen p l = 0 → (∀ k, k < 16 → s.wakeMatch p k (l.take (l.length - 4)) = false) →
    Answers (exec (.frameReceive p rx) s) (fun t =>
      t.rd (PT_C_RX_FRAMES.p p) = (s.rd (PT_C_RX_FRAMES.p p) + 1) % 2 ^ 32 ∧
      t.rd (PT_C_FRAG_RX.p p) = min (s.rd (PT_C_FRAG_RX.p p) + (conts rx).length) (2 ^ PT_C_FRAG_RX.width - 1) ∧
      (s.asDormant p rx.sub = false → beAt l 12 2 ≠ 0x8808 →
        ∃ f, t.frame s.hall.nextId = some f ∧ f.octets = l.take (l.length - 4) ∧ f.len = l.length ∧ f.ingress = p.val ∧ f.bad = 0 ∧
          f.base = s.gov ∧ f.stamp = s.rxStampIn p s.gov rx.sub ∧ f.stamp0 = s.rxStampIn p 0 rx.sub ∧
          f.c0 = rxRelease p rx s 0 ∧ f.l = rxRelease p rx s (min 127 (l.length - 1)) + 24 ∧
          f.e = max (rxRelease p rx s (l.length - 1)) f.l + 4 ∧
          (∀ i, i ≠ s.hall.nextId → t.frame i = s.frame i) ∧
          RegsKept [(PT_C_RX_FRAMES.p p).addr, (PT_C_RX_OCT_LO.p p).addr, (PT_C_RX_OCT_HI.p p).addr, (PT_C_FRAG_RX.p p).addr] s t ∧
          t = { s.withRegs t with hall := t.hall, ports := t.ports }) ∧
      (s.asDormant p rx.sub = true →
        t.rd (PT_C_DORMANT_DROP.p p) = min (s.rd (PT_C_DORMANT_DROP.p p) + 1) (2 ^ PT_C_DORMANT_DROP.width - 1) ∧
        t.hall = s.hall) ∧
      (beAt l 12 2 = 0x8808 →
        t.rd (PT_C_MACCTL.p p) = min (s.rd (PT_C_MACCTL.p p) + 1) (2 ^ PT_C_MACCTL.width - 1) ∧ t.hall = s.hall))) ∧
  (∀ (p : Fin 19) (rx : RxFrame) (l : List Byte) (s : State), s.runs (portDomain p) = true → s.link p = 2 ∨ s.link p = 3 →
    assemble rx = some l →
    (s.screen p l = 3 → Answers (exec (.frameReceive p rx) s) (fun t =>
      t.rd (PT_C_RUNT.p p) = min (s.rd (PT_C_RUNT.p p) + 1) (2 ^ PT_C_RUNT.width - 1) ∧ t.hall = s.hall ∧
      RegsKept [(PT_C_RUNT.p p).addr, (PT_C_FRAG_RX.p p).addr] s t ∧ t = { s.withRegs t with ports := t.ports })) ∧
    (s.screen p l = 1 → s.asDormant p rx.sub = false → beAt l 12 2 ≠ 0x8808 → Answers (exec (.frameReceive p rx) s) (fun t =>
      t.rd (PT_C_OVERSIZE.p p) = min (s.rd (PT_C_OVERSIZE.p p) + 1) (2 ^ PT_C_OVERSIZE.width - 1) ∧
      (∃ f, t.frame s.hall.nextId = some f ∧ f.bad = 1 ∧ f.ingress = p.val ∧ f.octets = l.take (min l.length (s.lmax p + 1))) ∧
      t = { s.withRegs t with hall := t.hall, ports := t.ports })) ∧
    (s.screen p l = 2 → s.asDormant p rx.sub = false → beAt l 12 2 ≠ 0x8808 → Answers (exec (.frameReceive p rx) s) (fun t =>
      t.rd (PT_C_FCS_ERR.p p) = min (s.rd (PT_C_FCS_ERR.p p) + 1) (2 ^ PT_C_FCS_ERR.width - 1) ∧
      (∃ f, t.frame s.hall.nextId = some f ∧ f.bad = 2 ∧ f.ingress = p.val ∧ f.octets = l.take (l.length - 4)) ∧
      t = { s.withRegs t with hall := t.hall, ports := t.ports }))) ∧
  (∀ (p : Fin 19) (rx : RxFrame) (s : State), s.runs (portDomain p) = true → s.link p = 2 ∨ s.link p = 3 → assemble rx = none →
    Answers (exec (.frameReceive p rx) s) (fun t =>
      t.rd (PT_C_REASM_ERR.p p) = min (s.rd (PT_C_REASM_ERR.p p) + 1) (2 ^ PT_C_REASM_ERR.width - 1) ∧
      RegsKept [(PT_C_REASM_ERR.p p).addr, (PT_C_FRAG_RX.p p).addr] s t ∧ t = { s.withRegs t with ports := t.ports })) ∧
  (∀ (i c : Nat) (f : Frame) (s : State), s.runs 7 = true → s.ports.rxPart = none → c < 8 → s.queue pI2 c = [i] →
    (∀ c', c' < 8 → c' ≠ c → s.queue pI2 c' = []) → s.onWire pI2 i = false → s.frame i = some f → f.complete = true →
    (if f.ingress = 18 then f.e + 3 else f.e) < s.cyc → s.stale f = false → s.expired f c s.nowStamp = false →
    exec (.ringRxDeliver none) s = .next (deliverRx i c (s.inward f pI2) 4096 s) ∧
    (∀ (n : Fin 4) (d b : Nat) (l : List Byte), f.ring = n.val → l = s.unwrap f pI2 → 0 < l.length → (s.retag f pI2 l).length + 4 ≤ 9216 →
      d = s.rxBase (.steward n) + s.rd (rxNext (.steward n)) % max 1 (s.rd (rxSize (.steward n))) * 32 →
      s.rd (rxSize (.steward n)) ≠ 0 → s.owned d = true → l.length ≤ s.bufBytes d → b = s.loadN d 5 → b + l.length ≤ d ∨ d + 32 ≤ b →
      Answers (exec (.ringRxDeliver none) s) (fun t =>
        t.load b l.length = l ∧ t.loadN (d + 12) 4 = rxWord (s.inward f pI2) true true false l.length % 2 ^ 32 ∧
        t.load (d + 16) 12 = s.rxStamp (s.inward f pI2) ∧
        t.loadN (d + 30) 2 = agetD s.ports.rxSeq (ringIndex (.steward n)) 0 % 65536 ∧
        t.rd (rxNext (.steward n)) = (s.rd (rxNext (.steward n)) + 1) % s.rd (rxSize (.steward n)) % 4096 ∧
        (∀ x, (x < b ∨ b + l.length ≤ x) → (x < d + 12 ∨ d + 32 ≤ x) → t.memByte x = s.memByte x) ∧
        t.queue pI2 c = [] ∧ t.rd (PT_C_TX_FRAMES.p 21) = (s.rd (PT_C_TX_FRAMES.p 21) + 1) % 2 ^ 32 ∧
        bit (t.word 0x30014) 21 = true))) ∧
  (∀ (r : Ring) (ds : List Nat) (cls dest : Nat) (l : List Byte) (s : State), s.runs 7 = true → s.pubFirst = false →
    s.txChain r (s.rd (txSize r)) (s.rd (txNext r)) = some ds →
    cls = bits (s.loadN (ds.headD 0 + 10) 1) 7 5 → dest = bits (s.loadN (ds.headD 0 + 10) 1) 4 0 → l = s.txOctets ds →
    (∀ d ∈ ds, s.badSpan (s.loadN d 5) (s.txLen d) = false) →
    ((∀ d ∈ ds, s.bufferOk r (s.loadN d 5) (s.txLen d) false = true) → l.length + 4 ≤ (if dest < 19 then s.lmax dest else 9216) →
      (∀ n, r = .steward n → dest = 0x1F → exec (.ringTxFetch r) s =
        .next (i2Lookup l cls none (txResult r ds 16 (txAdvance r ds.length s)))) ∧
      (∀ n, r = .steward n → dest < 19 → exec (.ringTxFetch r) s =
        .next (i2Direct l cls dest (if bit (s.loadN (ds.headD 0 + 11) 1) 0 then ds.getLast? else none)
          (txResult r ds 16 (txAdvance r ds.length s)))) ∧
      (∀ v : Fin 512, r = .tenant v → dest = 0x1F → aget s.ports.waiting v.val = none → exec (.ringTxFetch r) s =
        .next ((txAdvance r ds.length s).setWaiting v (some {
          octets := l, cls := cls, descs := ds, gen := s.rd0 (VI_STATUS_GEN.p v), tbWaited := false, shareWaited := false
          tick := s.clk.raised })))) ∧
    (∀ res, res = b2n (ds.any (fun d => !s.bufferOk r (s.loadN d 5) (s.txLen d) false)) * 2 +
        b2n (match r with | .tenant _ => dest != 0x1F | .steward _ => decide (19 ≤ dest) && dest != 0x1F) +
        b2n (decide ((if dest < 19 then s.lmax dest else 9216) < l.length + 4)) * 4 → res ≠ 0 →
      exec (.ringTxFetch r) s = .next (txResult r ds res (txAdvance r ds.length s)))) ∧
  (∀ (n : Fin 4) (d res : Nat) (s : State), (txResult (.steward n) [d] res s).loadN (d + 12) 4 =
    setBits (setBits (s.loadN (d + 12) 4) 31 31 0) 28 24 res) ∧
  (∀ (v : Fin 512) (w : WaitFrame) (s : State), s.runs 7 = true → aget s.ports.waiting v.val = some w → s.pubFirst = false →
    (s.gate = false → exec (.tenantFrameEntry v) s =
      .next (((txResult (.tenant v) w.descs 16 s).setWaiting v none).inc PB_G_GATED_ALL)) ∧
    (s.gate = true → 0 ≤ s.tokens v → ¬ (w.tbWaited = true ∧ w.tick = s.clk.raised) → s.inShare v (w.octets.length + 4) = true →
      ∃ t, t = (txResult (.tenant v) w.descs 16 s).setWaiting v none ∧ exec (.tenantFrameEntry v) s =
        .next (i2Lookup w.octets w.cls (some (v, w.gen)) (t.setTokens v (t.tokens v - (w.octets.length : Int))))))

/-- R74, R108, R110, R111, R118, R120, R124, R129, R285. CLASSIFICATION: at its lookup cycle a frame that its ingress port's VLAN rules
drop is counted and has no copy; one without redundancy, entry or source refusal takes the copy set of R110 and the class of R112, and its
copies are decided in the cycle after. LARDER_COMPLETE: at its end a good frame is complete, its unused cells return (R285), and its I0
copy is handed on; a bad one is discarded or tail-marked. EGRESS_RELEASE: a port whose MAC is free sends its one complete copy with FCS and
stamp, and serves its queues in general (R74). LIFETIME_SCRUB: every SCRUB_US the heads of the ports that cannot transmit are examined
(R124). HL_RED_WRITE: MODE is stored while both ports of the pair are disabled, and discarded with the Hall event otherwise (R129). -/
def Obligations.SwitchCommands : Prop :=
  (∀ (fid n : Nat) (f : Frame) (s : State), s.runs 7 = true → s.frame fid = some f → f.looked = false → f.l ≤ s.cyc → n = f.ingress →
    ¬ ((n = 16 ∨ n = 17) ∧ (header f.octets).etype = 0x88B5) → s.redMode n = 0 →
    (s.vlanDrop n (header f.octets) = true → Answers (exec (.classification fid) s) (fun t =>
      t.rd (HL_P_VLAN_DROP.i n) = min (s.rd (HL_P_VLAN_DROP.i n) + 1) (2 ^ HL_P_VLAN_DROP.width - 1) ∧
      t.frame fid = some { f with looked := true } ∧ t.hall.admits = s.hall.admits ∧
      RegsKept [(HL_P_VLAN_DROP.i n).addr] s t ∧ t = { s.withRegs t with hall := t.hall })) ∧
    (∀ (ps : List Nat) (g : Frame), s.vlanDrop n (header f.octets) = false → s.lookup f.octets (s.vlanOf n (header f.octets)) = none →
      s.idFar f.octets (s.vlanOf n (header f.octets)) = false → s.srcRefused n (s.copySet n (header f.octets) none) = false →
      ps = s.permitted n false (stopPdelay n f.octets (s.widen n (s.copySet n (header f.octets) none))) → ps ≠ [] →
      g = { f with
        looked := true, entry := none, entryVer := 0, rule := [], vlan := s.vlanOf n (header f.octets), prp := false
        unknown := isSvGoose (header f.octets).etype, ring := 0 } →
      Answers (exec (.classification fid) s) (fun t => t.frame fid = some g ∧
        (∃ a, t.hall.admits = s.hall.admits ++ [a] ∧ a.fid = fid ∧ a.ingress = n ∧ a.due = s.cyc + 1 ∧ a.ports = ps ∧
          a.cls = s.classOf n (header f.octets) none none ∧ a.cells = cellsOf (s.lmax n) ∧
          a.cuts = ps.filter (fun p => decide (p < 19) && (s.setFrame fid g).cuts g none a.cls p)) ∧
        t = { s with hall := t.hall }))) ∧
  (∀ (fid n : Nat) (f : Frame) (s t : State), s.runs 7 = true → s.frame fid = some f → f.looked = true → f.complete = false →
    f.e ≤ s.cyc → n = min f.cells (cellsOf f.len) → t = f.copies.foldl (fun t p => t.qSub p.1 p.2 (f.cells - n)) s →
    ∀ g u, g = { f with complete := true, cells := n } → u = (t.wr HL_STATUS_FREE (t.freeCells + (f.cells - n))).setFrame fid g →
    (f.bad ≠ 0 → exec (.larderComplete fid) s = .next ((findBad fid g u).retire fid)) ∧
    (∀ w, w = (if f.unknown then u.observe f.octets f.vlan f.ingress f.stamp f.base else u) → f.bad = 0 →
      ((∀ c, (pI0, c) ∉ f.copies) → exec (.larderComplete fid) s = .next (w.retire fid)) ∧
      ((∃ c, (pI0, c) ∈ f.copies) → w.copyLen f pI0 ≤ 9216 → w.expired f f.cls (w.nextVal w.gov / uSt) = false →
        exec (.larderComplete fid) s = .next ((fixAccept fid g w).retire fid)) ∧
      ((∃ c, (pI0, c) ∈ f.copies) → w.copyLen f pI0 ≤ 9216 → w.expired f f.cls (w.nextVal w.gov / uSt) = true →
        exec (.larderComplete fid) s = .next ((w.dropAged fid pI0 f.cls).retire fid)) ∧
      ((∃ c, (pI0, c) ∈ f.copies) → 9216 < w.copyLen f pI0 →
        exec (.larderComplete fid) s = .next (((w.endCopy fid pI0 f.cls).inc (HL_P_EGR_SIZE.i pI0)).retire fid)))) ∧
  (∀ (p : Fin 19) (s : State), s.runs (portDomain p) = true → (s.finishTx p).link p = 2 → (s.finishTx p).pausedNow p = false →
    (s.finishTx p).macFree p = true →
    exec (.egressRelease p) s = .next (serve p false 64 ((s.finishTx p).examinePort p))) ∧
  (∀ (p : Fin 19) (i c : Nat) (f : Frame) (l : List Byte) (s : State), s.runs (portDomain p) = true → s.link p = 2 →
    s.pausedNow p = false → s.macFree p = true → (s.port p).txFrame = none → (s.port p).expFrame = none → (s.port p).grants = [] →
    s.hall.admits = [] → c < 8 → s.queue p c = [i] → (∀ c', c' < 8 → c' ≠ c → s.queue p c' = []) → s.frame i = some f →
    f.complete = true → f.bad = 0 → f.ingress ≠ pTwin → f.tsDesc = none → readyFrom f ≤ s.cyc → s.stale f = false →
    s.expired f c s.nowStamp = false → s.redMode p = 0 → l = s.copyOctets f p 0 → ptpType l = none → l.length + 4 ≤ s.lmax p →
    exec (.egressRelease p) s = .next (countTx p (l.length + 4) (s.setPort p { s.port p with
      sent := ({
        fid := i, octets := l ++ fcsOf l, cyc := s.cyc, cls := c, tail := false
        stamp := s.now / uSt + dOut (s.rate p) * 65536 + s.rd (HC_PC_TX_LAT.i p) } :: (s.port p).sent).take 8
      txFrame := some i, macBusy := s.cyc + macCycles (l.length + 4) (s.rate p), expBusy := 0
      txPreemptable := s.on0 (PT_STATUS_PREEMPT_ACTIVE.p p) && !bit (s.rd (PT_PREEMPT_EXPRESS_MASK.p p)) c
      txLen := l.length + 4, fragAt := s.cyc, fragDone := 0, txCopy := (c, (s.port p).txCopy.2) }))) ∧
  (∀ s : State, s.runs 7 = true → s.hall.lastScrub + s.rd HL_CTRL_SCRUB_US * (1000 * 2 ^ 40) ≤ s.clk.lapse →
    exec .lifetimeScrub s = .next ((List.range 19).foldl
      (fun t n => if s.scrubs n then t.examinePort n else t) { s with hall := { s.hall with lastScrub := s.clk.lapse } })) ∧
  (∀ (req : Requester) (k : Fin 8) (v : Word) (s : State), s.Writer req → s.dom 7 = 1 →
    (s.on (PT_CTRL_EN.p (2 * k)) = false → s.on (PT_CTRL_EN.p (2 * k + 1)) = false → Answers (exec (.hlRedWrite req k v) s) (fun t =>
      t.rd (HL_RED_MODE.i k) = (if bits v.toNat 31 30 = 3 then 0 else bits v.toNat 31 30) ∧
      RegsKept [(HL_RED_MODE.i k).addr] s t ∧ t = s.withAccess t)) ∧
    (s.on (PT_CTRL_EN.p (2 * k)) = true ∨ s.on (PT_CTRL_EN.p (2 * k + 1)) = true → Answers (exec (.hlRedWrite req k v) s) (fun t =>
      bit (t.word 0x30010) ES_HL = true ∧ RegsKept [0x30010] s t ∧ t = s.withAccess t)))

/-! ### Subscription (05_subscription.md), alignment (06_alignment.md) and acquisition (07_local_acquisition.md) -/

/-- R140, R145, R152, R156–R158: what the register commands of subscription do for one who may write, domain 6 powered. SB_TBL_READ,
SB_MAP_READ and SB_VEST_READ load the data registers; SB_TBL_WRITE and SB_TBL_INVALIDATE install a classification entry (with a legal
RATE) and clear its state and counters, and a WRITE removes the Vestibule observations it covers; SB_MAP_WRITE stores a map entry;
SB_VEST_REMOVE removes an observation; SB_ST_LATCH latches an entry's state and clears its counters but for this cycle's events;
DISC_RECORD_POP removes the record shown, DISC_POST queues one or counts it as lost; SB_SIM_WRITE stores SB_CTRL, and clearing SIM
clears every SIM_SRC. -/
def Obligations.SubscriptionRegisterCommands : Prop :=
  ∀ (req : Requester) (s : State), s.Writer req → s.dom 6 = 1 →
    (exec (.sbTblRead req) s = .next ((loadData 0x400040 16
      (((s.sub? (s.rd SB_TBL_IDX_IDX % 16384)).map (fun x => x.bytes)).getD []) s).wrote req 0x400014 1)) ∧
    (∀ b, b = entryStored (s.dataBytes 0x400040 16) → eRate b < 5 → Answers (exec (.sbTblWrite req) s) (fun t =>
      (t.sub? (s.rd SB_TBL_IDX_IDX % 16384)).map (fun x => x.bytes) = some b ∧
      (∀ e, e ≠ s.rd SB_TBL_IDX_IDX % 16384 → t.sub? e = s.sub? e) ∧
      (∀ i, i < 8 → t.word (0x3000000 + s.rd SB_TBL_IDX_IDX % 16384 * 0x20 + 4 * i) = 0) ∧
      (∀ p ∈ t.sub.vest, p ∈ s.sub.vest ∧ entryCovers b p.2.1 = false) ∧
      (∀ p ∈ s.sub.vest, entryCovers b p.2.1 = false → p ∈ t.sub.vest) ∧
      t = { s.withAccess t with sub := t.sub })) ∧
    (Answers (exec (.sbTblInvalidate req) s) (fun t =>
      (t.sub? (s.rd SB_TBL_IDX_IDX % 16384)).map (fun x => x.bytes) = some (List.replicate 64 0) ∧
      (∀ e, e ≠ s.rd SB_TBL_IDX_IDX % 16384 → t.sub? e = s.sub? e) ∧
      (∀ i, i < 8 → t.word (0x3000000 + s.rd SB_TBL_IDX_IDX % 16384 * 0x20 + 4 * i) = 0) ∧ t.sub.vest = s.sub.vest ∧
      t = { s.withAccess t with sub := t.sub })) ∧
    (exec (.sbMapRead req) s =
      .next ((loadData 0x400028 2 (s.mapEntry (s.rd SB_MAP_IDX_IDX)) s).wrote req 0x400024 1)) ∧
    (Answers (exec (.sbMapWrite req) s) (fun t =>
      aget t.sub.map (s.rd SB_MAP_IDX_IDX) = some (mapStored (s.dataBytes 0x400028 2)) ∧
      (∀ i, i ≠ s.rd SB_MAP_IDX_IDX → aget t.sub.map i = aget s.sub.map i) ∧
      RegsKept [] s t ∧ t = { s.withAccess t with sub := t.sub })) ∧
    (exec (.sbVestRead req) s = .next ((loadData 0x400180 16
      (((aget s.sub.vest (s.rd SB_VEST_IDX_IDX % 256)).map (fun p => p.1)).getD []) s).wrote req 0x400144 1)) ∧
    (Answers (exec (.sbVestRemove req) s) (fun t =>
      aget t.sub.vest (s.rd SB_VEST_IDX_IDX % 256) = none ∧ t.rd SB_STATUS_VEST_USED = t.sub.vest.length % 2 ^ SB_STATUS_VEST_USED.width ∧
      (∀ i, i ≠ s.rd SB_VEST_IDX_IDX % 256 → aget t.sub.vest i = aget s.sub.vest i) ∧
      RegsKept [SB_STATUS_VEST_USED.addr] s t ∧ t = { s.withAccess t with sub := t.sub })) ∧
    (∀ (v : Word) (e a : Nat), e = v.toNat % 16384 → a = 0x3000000 + e * 0x20 → Answers (exec (.sbStLatch req v) s) (fun t =>
      (∀ i, 3 ≤ i → i < 8 → t.word (0x4000A0 + 4 * i) = s.word0 (a + 4 * i) ∧ t.word (a + 4 * i) = s.evWord (a + 4 * i)) ∧
      t.word 0x4000A0 = s.word a ∧ t.word 0x4000A4 = s.word (a + 4) ∧
      t.word 0x4000A8 = (if ((s.sub? e).map (fun x => eKind x.bytes == 1)).getD false then
        ((s.sub? e).map (fun x => x.missing)).getD 0 % 256 else s.word (a + 8)) ∧
      t = s.withAccess t)) ∧
    (s.CalServed → s.rd0 SB_STATUS_DISC_LEVEL = 0 ∨ s.sub.popped = some s.cyc → Answers (exec (.discRecordPop req) s) (fun t =>
      t.sub = s.sub ∧ t.bus.map (fun c => c.data) = some (s.shown 0x40010C) ∧ RegsKept [] s t ∧ t = s.withAccess t)) ∧
    (s.CalServed → s.rd0 SB_STATUS_DISC_LEVEL ≠ 0 → s.sub.popped ≠ some s.cyc → Answers (exec (.discRecordPop req) s) (fun t =>
      t.sub.disc = s.sub.disc.drop 1 ∧
      t.rd SB_STATUS_DISC_LEVEL = (s.sub.disc.drop 1).length % 2 ^ SB_STATUS_DISC_LEVEL.width ∧
      t.bus.map (fun c => c.data) = some (s.shown 0x40010C) ∧ t = { s.withAccess t with sub := t.sub })) ∧
    (∀ v : Word, s.sub.disc.length < 512 → Answers (exec (.discPost req v) s) (fun t =>
      t.sub.disc = s.sub.disc ++ [{ w0 := setBits (s.word 0x400110) 21 14 0xF8, w1 := s.word 0x400114, w2 := s.word 0x400118, w3 := v.toNat }] ∧
      t.on SB_EVENT_DISC = true ∧ t = { s.withAccess t with sub := t.sub })) ∧
    (∀ v : Word, 512 ≤ s.sub.disc.length → Answers (exec (.discPost req v) s) (fun t =>
      t.sub = s.sub ∧ t.on SB_EVENT_DISC_LOST = true ∧
      t.rd SB_G_DISC_LOST = min (s.rd SB_G_DISC_LOST + 1) (2 ^ SB_G_DISC_LOST.width - 1) ∧ t = s.withAccess t)) ∧
    (∀ v : Word, Answers (exec (.sbSimWrite req v) s) (fun t =>
      t.on SB_CTRL_EN = bit v.toNat 31 ∧ t.on SB_CTRL_SIM = bit v.toNat 30 ∧ t.on SB_CTRL_VEST_EN = bit v.toNat 29 ∧
      t.rd SB_CTRL_VEST_AGE_S = v.toNat % 2 ^ 16 ∧
      (s.on SB_CTRL_SIM = true → bit v.toNat 30 = false →
        ∀ e x, (e, x) ∈ s.sub.entries → t.on (sbSt SB_ST0_SIM_SRC e) = false) ∧
      (s.on SB_CTRL_SIM = false ∨ bit v.toNat 30 = true → RegsKept [0x400000] s t) ∧ t = s.withAccess t))

/-- R136, R140, R146, R147, R149, R156, with domain 6 running. FRAME_ACCEPTANCE: at its acceptance cycle the I0 copy of a frame ends; one
whose entry has changed counts in STALE_ENTRY (R140), one whose tag failed fails check 1 (R149), an SV frame and a GOOSE frame pass to
their kind's checks, and a GOOSE frame that meets them all counts in RX_OK and leaves its entry PRESENT with its stNum and sqNum; with
subscription disabled nothing else changes (R136). GOOSE_TAL_EXPIRY: a PRESENT GOOSE entry whose live limit has passed departs, its slots
marked with their last value as invalid, and a record (R147). VEST_AGE_EXPIRY: an observation past its age is removed (R156). -/
def Obligations.SubscriptionEvents : Prop :=
  (∀ (fid a e : Nat) (f g : Frame) (x : SubEntry) (s t : State), s.runs 6 = true → s.frame fid = some f → f.accept = some a →
    f.entry = some e → e < 16384 → a ≤ s.cyc → f.copies.any (fun p => p.1 == pI0) = true → t = i0Handed fid f s →
    g = { f with octets := t.unwrap f pI0 } →
    (s.staleEntry f = true → exec (.frameAcceptance fid) s = .next (t.inc SB_G_STALE_ENTRY)) ∧
    (s.staleEntry f = false → s.on SB_CTRL_EN = false → exec (.frameAcceptance fid) s = .next t) ∧
    (s.staleEntry f = false → s.on SB_CTRL_EN = true → s.sub? e = some x →
      (eKind f.rule ≠ 0 → f.cause ≠ 0 → exec (.frameAcceptance fid) s = .next (authFail e x g t)) ∧
      (eKind f.rule = 1 → f.cause = 0 → exec (.frameAcceptance fid) s = .next (acceptSv e g t)) ∧
      (eKind f.rule = 2 → f.cause = 0 → exec (.frameAcceptance fid) s = .next (acceptGoose fid e g t)) ∧
      (∀ (p : GoosePdu) (ms : List (Nat × List Byte × Nat)), eKind f.rule = 2 → f.cause = 0 →
        simRefuses s e (simBit g.octets) = false → goosePdu g.octets = some p → s.members f.rule p = some ms →
        p.confRev = eConfRev f.rule →
        stOld (s.rd (sbSt SB_ST0_STATE e) != 0) p.stNum p.sqNum (s.rd (sbSt SB_ST1_LAST_REV e)) (s.rd (sbSt SB_ST2_LAST_SQ e)) = false →
        Answers (exec (.frameAcceptance fid) s) (fun u =>
          u.rd (sbSt SB_ST3_RX_OK e) = min (s.rd (sbSt SB_ST3_RX_OK e) + 1) (2 ^ SB_ST3_RX_OK.width - 1) ∧
          u.rd (sbSt SB_ST0_STATE e) = 1 ∧ u.rd (sbSt SB_ST1_LAST_REV e) = p.stNum % 2 ^ 32 ∧
          u.rd (sbSt SB_ST2_LAST_SQ e) = p.sqNum % 2 ^ 32 ∧
          (u.sub? e).map (fun y => y.live) = some (some (g.stamp + p.tal * 1000000 * 65536)))))) ∧
  (∀ (e : Fin 16384) (x : SubEntry) (d : Nat) (ms : List (Nat × List Byte × Nat)) (s u : State), s.runs 6 = true →
    s.sub? e = some x → x.live = some d → d * 2 ^ 24 < s.now → s.inTimeFrame e d = false → s.rd (sbSt SB_ST0_STATE e) = 1 →
    s.on SB_CTRL_EN = true →
    ms = (s.mapOf (s.entryNow x)).map (fun m =>
      (leAt m 4 2 % 32768, slice (s.slot (leAt m 4 2 % 32768)).latest 0 8,
        setBits (sQual (s.slot (leAt m 4 2 % 32768)).latest) 1 0 1)) →
    u = gooseMarks (2 ^ 40 + e.val) (s.cyc + 6) e (s.rd (sbSt SB_ST1_LAST_REV e)) true ms
      ((s.setSub e { x with live := none }).wr (sbSt SB_ST0_STATE e) 2) →
    Answers (exec (.gooseTalExpiry e) s) (fun t =>
      t = u.discover 5 2 0x1F e (u.rd (sbSt SB_ST1_LAST_REV e)) d u.gov ∧ t.rd (sbSt SB_ST0_STATE e) = 2)) ∧
  (∀ (i : Fin 256) (s : State), s.runs 6 = true → s.vestAged i = true → Answers (exec (.vestAgeExpiry i) s) (fun t =>
    aget t.sub.vest i.val = none ∧ (∀ j, j ≠ i.val → aget t.sub.vest j = aget s.sub.vest j) ∧
    t.rd SB_STATUS_VEST_USED = t.sub.vest.length % 2 ^ SB_STATUS_VEST_USED.width ∧
    RegsKept [SB_STATUS_VEST_USED.addr] s t ∧ t = { s with regs := t.regs, sub := t.sub }))

/-- R166–R168, R171, R185, R287. PANTRY_WRITE: with alignment enabled the network port takes the sample at the head of its queue unless its
turn would meet a pass, and is busy for the turn's cycles; a local path takes its bank's at once (R287); a sample at the grid's own rate that is
neither late nor a second one has bytes 0–47 of its record written first and bytes 48–63 in the write's last cycle (R167). CLOSURE_PASS: the due
set is closed, whatever write is under way, the port is held for the pass, and AL_STATUS shows it (R171). AL_STR_READ loads a descriptor; AL_STR_WRITE installs one
of a stream not in use with the next tick start, changes CMASK and SCALE of one in use at once and is otherwise refused;
AL_STR_INVALIDATE takes effect with the next tick start (R166); AL_CNT_LATCH latches and clears the counters; AL_CTRL_WRITE begins and
abandons alignment (R185); AL_GROUP_WRITE holds W within 50 to 1,500 µs (R168). -/
def Obligations.AlignmentCommands : Prop :=
  (∀ (x : Sample) (rest : List Sample) (s u : State), s.runs 6 = true → s.on AL_CTRL_EN = true → s.al.netQ = x :: rest →
    x.cyc ≤ s.cyc → s.al.netFree ≤ s.cyc → u = { s with al := { s.al with netQ := rest } } →
    exec (.pantryWrite none) s = (if s.meetsPass (takeSample x u).1 then .next s else
      .next { (takeSample x u).2 with al := { (takeSample x u).2.al with netFree := s.cyc + (takeSample x u).1 } })) ∧
  (∀ (k : Fin 4) (x : Sample) (rest : List Sample) (s u : State), s.runs 6 = true → s.on AL_CTRL_EN = true →
    agetD s.al.locQ k.val [] = x :: rest → x.cyc ≤ s.cyc →
    u = { s with al := { s.al with locQ := aput s.al.locQ k rest } } →
    exec (.pantryWrite (some k)) s = .next (takeSample x u).2) ∧
  (∀ (x : Sample) (rest : List Sample) (b r : List Byte) (g : Nat) (s : State), s.runs 6 = true → s.on AL_CTRL_EN = true →
    s.al.netQ = x :: rest → x.cyc ≤ s.cyc → s.al.netFree ≤ s.cyc → s.meetsPass 32 = false → b = s.stream x.stream →
    dValid b = true → dRate b = 1 → x.raw = none → g = x.abs 4800 → s.record? x.stream g = none →
    s.tooLate (dGroup b) g = false → x.stream < 1024 → dCmask b = 0 →
    r = mkRecord ((scaled b x).map (fun p => p.1)) ((scaled b x).map (fun p => p.2)) g recPresent
      (b2n x.sim * 16 + b2n (s.tickSkipped g) * 8 + b2n (x.early 4800) * 4) x.smpCnt 0 x.synch (x.transit 4800) →
    s.overruled x.stream g r = none →
    Answers (exec (.pantryWrite none) s) (fun t =>
      t.load (recAddr x.stream g) 48 = r.take 48 ∧ (s.cyc + 31, recAddr x.stream g + 48, r.drop 48) ∈ t.al.tails ∧
      t.al.netFree = s.cyc + 32 ∧ t.al.netQ = rest)) ∧
  (∀ (o : OpenSet) (s : State), s.runs 6 = true → s.dueSet = some o → s.on AL_CTRL_EN = true → s.al.passFree ≤ s.cyc →
    Answers (exec .closurePass s) (fun t => t = closePass o s ∧
      t.al.sets = s.al.sets.filter (fun x => !(x.tick == o.tick && x.group == o.group)) ∧
      t.al.passFree = s.cyc + (8 + ceilDiv (s.groupStreams o.group).length 4) ∧
      t.al.netFree = max s.al.netFree t.al.passFree ∧ t.closedSet o.group o.tick = true ∧
      t.rd AL_STATUS_LAST_TICK = o.tick % 4800 ∧ t.rd AL_STATUS_LAST_GROUP = o.group % 64)) ∧
  (∀ (req : Requester) (s : State), s.Writer req → s.dom 6 = 1 →
    (exec (.alStrRead req) s =
      .next ((loadData 0x500040 16 (s.stream (s.rd AL_STR_IDX_IDX)) s).wrote req 0x500014 1)) ∧
    (∀ b, b = dStored (s.dataBytes 0x500040 16) →
      (dValid (s.stream (s.rd AL_STR_IDX_IDX)) = false → Answers (exec (.alStrWrite req) s) (fun t =>
        aget t.al.str (s.rd AL_STR_IDX_IDX) = some { bytes := s.stream (s.rd AL_STR_IDX_IDX), next := some b } ∧
        (∀ k, k ≠ s.rd AL_STR_IDX_IDX → aget t.al.str k = aget s.al.str k) ∧
        RegsKept [] s t ∧ t = { s.withAccess t with al := { s.al with str := t.al.str } })) ∧
      (dValid (s.stream (s.rd AL_STR_IDX_IDX)) = true → sameFixed (s.stream (s.rd AL_STR_IDX_IDX)) b = true →
        Answers (exec (.alStrWrite req) s) (fun t => t.stream (s.rd AL_STR_IDX_IDX) = b ∧
          (∀ k, k ≠ s.rd AL_STR_IDX_IDX → aget t.al.str k = aget s.al.str k) ∧
          RegsKept [] s t ∧ t = { s.withAccess t with al := { s.al with str := t.al.str } })) ∧
      (dValid (s.stream (s.rd AL_STR_IDX_IDX)) = true → sameFixed (s.stream (s.rd AL_STR_IDX_IDX)) b = false →
        Answers (exec (.alStrWrite req) s) (fun t => t.on AL_EVENT_REFUSED = true ∧
          RegsKept [AL_EVENT_REFUSED.addr, 0x30010] s t ∧ t = s.withAccess t))) ∧
    (Answers (exec (.alStrInvalidate req) s) (fun t =>
      t.stream (s.rd AL_STR_IDX_IDX) = s.stream (s.rd AL_STR_IDX_IDX) ∧
      ((aget t.al.str (s.rd AL_STR_IDX_IDX)).bind (fun x => x.next)) = some (splice (s.stream (s.rd AL_STR_IDX_IDX)) 0
        (leBytes 1 (setBits (leAt (s.stream (s.rd AL_STR_IDX_IDX)) 0 1) 7 7 0))) ∧
      (∀ k, k ≠ s.rd AL_STR_IDX_IDX → aget t.al.str k = aget s.al.str k) ∧
      RegsKept [] s t ∧ t = { s.withAccess t with al := { s.al with str := t.al.str } })) ∧
    (∀ (v : Word) (a : Nat), a = 0x3100000 + v.toNat % 1024 * 0x10 → Answers (exec (.alCntLatch req v) s) (fun t =>
      (∀ i, i < 3 → t.word (0x500024 + 4 * i) = s.word0 (a + 4 * i) ∧ t.word (a + 4 * i) = s.evWord (a + 4 * i)) ∧
      t = s.withAccess t)) ∧
    (∀ v : Word, Answers (exec (.alCtrlWrite req v) s) (fun t =>
      t.on AL_CTRL_EN = bit v.toNat 31 ∧ t.on AL_CTRL_CONCEAL_EN = bit v.toNat 30 ∧
      (s.on AL_CTRL_EN = true → bit v.toNat 31 = false →
        t.al = { s.al with sets := [], netQ := [], locQ := [], late := [], tails := [], wroteTo := [] }) ∧
      (s.on AL_CTRL_EN = false → bit v.toNat 31 = true → t.al = { s.al with openFrom := s.clk.raised + 1 }) ∧
      (s.on AL_CTRL_EN = bit v.toNat 31 → t.al = s.al) ∧
      RegsKept [0x500000] s t ∧ t = { s.withAccess t with al := t.al })) ∧
    (∀ (g : Fin 64) (v : Word), Answers (exec (.alGroupWrite req g v) s) (fun t =>
      t.rd (AL_GROUP_W_US.i g) = clampN 50 1500 (v.toNat % 2048) ∧ t.on (AL_GROUP_EN.i g) = bit v.toNat 31 ∧
      t.on (AL_GROUP_FNOM.i g) = bit v.toNat 30 ∧
      RegsKept [(AL_GROUP_W_US.i g).addr] s t ∧ t = s.withAccess t)))

/-- R188, R192, R195, R197, R198, R200, R204, R209. ACQ_SAMPLE_COMPLETE: 96 cycles after its completing edge a bank's oldest sample is
completed from its modulators' bits and leaves the bank's queue (R195); the code and quality of a channel under no condition are the
corrected code and good, with TEST for SRC ZERO (R188, R197). CLAMP_CONDUCTION shows in AQ_STATUS, with its event at the first of an
episode, and CLAMP_END ends it (R200). COMPARATOR_EDGE: the edges that the input's change brings are stamped, less the propagation delay
of 85 ns, and reach the channel's queue 32 cycles later (R204, R288). TDC_POP removes the oldest stamp shown; AQ_BANK_WRITE,
AQ_CH_CFG_WRITE and AQ_CTRL_WRITE store their fields, mark channels with cause ENABLE or PHASE and are refused while the bank is
enabled (R192, R198, R209). -/
def Obligations.AcquisitionCommands : Prop :=
  (∀ (b : Fin 4) (bits : List (List Bool)) (ovr : BitVec 8) (k c : Nat) (s : State), s.runs 12 = true → s.bankOn b = true →
    s.acqDue b = some (k, c) → c + 96 ≤ s.cyc →
    exec (.acqSampleComplete b bits ovr) s = .next (sampleOut b k c (s.bankOut b k bits) ovr.toNat
      { s with aq := { s.aq with due := s.aq.due.filter (fun p => !(p.1 == b.val && p.2.1 == k)) } })) ∧
  (∀ (c : Nat) (raw : Int) (t lp : Nat) (s : State), c < 32 → s.on (AQ_CH_EN.i c) = true →
    atLimit (satCode raw) = false →
    atLimit (corrected (satCode raw) (s.rdS (AQ_CH_CAL_OFS.i c)) (s.rd (AQ_CH_CAL_GAIN.i c))) = false →
    (s.aqCh c).wasOvr = false → (s.aqCh c).wasPartner = false → (s.aqCh c).settling = false →
    s.conducted (if c % 2 = 0 then c + 1 else c - 1) (t - lp) (t + lp) = false →
    (chanSample c raw false t lp s).1 =
      (corrected (satCode raw) (s.rdS (AQ_CH_CAL_OFS.i c)) (s.rd (AQ_CH_CAL_GAIN.i c)),
        b2n (decide (c < 24) && s.on (AQ_CH_SRC.i c)) * 0x800, false, false)) ∧
  (∀ (ch : Fin 24) (s : State), s.runs 12 = true → s.conducting ch = false → Answers (exec (.clampConduction ch) s) (fun t =>
    t.aq = { s.aq with cond := s.aq.cond ++ [(ch.val, max s.now s.aq.edgeFrom, none)] } ∧ t.conducting ch = true ∧
    bit (t.rd AQ_STATUS_CLAMP) (ch.val / 2) = true ∧
    (bit (s.rd AQ_STATUS_CLAMP) (ch.val / 2) = false → t.on AQ_EVENT_CLAMP = true) ∧
    (bit (s.rd AQ_STATUS_CLAMP) (ch.val / 2) = true → RegsKept [AQ_STATUS_CLAMP.addr] s t) ∧
    RegsKept [AQ_STATUS_CLAMP.addr, AQ_EVENT_CLAMP.addr, 0x30010] s t ∧ t = { s.withEvents t with aq := t.aq })) ∧
  (∀ (ch : Fin 24) (s : State), s.runs 12 = true → s.conducting ch = true → Answers (exec (.clampEnd ch) s) (fun t =>
    t.conducting ch = false ∧ (ch.val, s.now) ∈ t.aq.cond.filterMap (fun p => p.2.2.map (fun e => (p.1, e))) ∧
    bit (t.rd AQ_STATUS_CLAMP) (ch.val / 2) =
      (bit (s.rd AQ_STATUS_CLAMP) (ch.val / 2) && s.conducting (if ch.val % 2 = 0 then ch.val + 1 else ch.val - 1)) ∧
    RegsKept [AQ_STATUS_CLAMP.addr] s t ∧ t = { s with regs := t.regs, aq := { s.aq with cond := t.aq.cond } })) ∧
  (∀ (ch : Fin 24) (sub : Fin 65536) (uv : Int) (s : State), s.runs 12 = true →
    Answers (exec (.comparatorEdge ch sub uv) s) (fun t =>
      t.aqCh ch = (s.cmpEdges ch uv).foldl AqCh.cmpStep (s.aqCh ch) ∧ (∀ c, c ≠ ch.val → t.aqCh c = s.aqCh c) ∧
      (s.on (AQ_CH_CMP_EN.i ch) = true → t.aq.edges = s.aq.edges ++
        (s.cmpEdges ch uv).map (fun e => (s.cyc + 32, ch.val, e, s.gov, s.stampIn s.gov sub / 65536 - 85))) ∧
      (s.on (AQ_CH_CMP_EN.i ch) = false → t.aq.edges = s.aq.edges) ∧
      t = { s with aq := { s.aq with ch := t.aq.ch, edges := t.aq.edges } })) ∧
  (∀ (d c e tb ns : Nat) (s : State), s.aq.edges = [(d, c, e, tb, ns)] → d ≤ s.cyc + 1 → (s.aqCh c).tdc.length < 16 →
    (s.cmpCycle.aqCh c).tdc = (s.aqCh c).tdc ++ [(e, tb, ns)] ∧ s.cmpCycle.aq.edges = []) ∧
  (∀ (req : Requester) (s : State), s.Writer req → s.dom 12 = 1 → s.is5120 = false →
    (∀ (c e tb n : Nat) (rest : List (Nat × Nat × Nat)), s.CalServed → c = s.rd0 AQ_TDC_IDX_CH →
      s.start.tdcQueue = (e, tb, n) :: rest → Answers (exec (.tdcPop req) s) (fun t =>
        t.start.tdcQueue = rest ∧ (t.aqCh c).tdc = (s.aqCh c).tdc.drop 1 ∧ (∀ k, k ≠ c → t.aqCh k = s.aqCh k) ∧
        t.bus.map (fun x => x.data) = some (n / 1000000000 / 2 ^ 32 % 2 ^ 16) ∧
        RegsKept [] s t ∧ t = { s.withAccess t with aq := t.aq, arch := { s.arch with at0 := t.arch.at0 } })) ∧
    (∀ (b : Fin 4) (v : Word), s.on (AQ_BANK_EN.i b) = false → Answers (exec (.aqBankWrite req b 0 v) s) (fun t =>
      t.on (AQ_BANK_EN.i b) = bit v.toNat 31 ∧ t.preset b = bits v.toNat 27 26 ∧ t.rd (AQ_BANK_NOTCH.i b) = bits v.toNat 25 24 ∧
      t.rd (AQ_BANK_SETTLE.i b) = settleCount (bits v.toNat 27 26) (bits v.toNat 25 24) ∧
      (bit v.toNat 31 = false → RegsKept [(AQ_BANK_EN.i b).addr] s t ∧ t.aq.ch = s.aq.ch) ∧
      (bit v.toNat 31 = true → ∀ i, i < 8 → s.on (AQ_CH_EN.i (8 * b + i)) = true →
        (t.aqCh (8 * b + i)).left = settleCount (bits v.toNat 27 26) (bits v.toNat 25 24) ∧ t.rd (AQ_CH_CAUSE.i (8 * b + i)) = 1) ∧
      t = { s.withAccess t with aq := t.aq })) ∧
    (∀ (b k : Fin 4) (v : Word), s.on (AQ_BANK_EN.i b) = true →
      (k = 0 → bits v.toNat 27 26 ≠ s.preset b ∨ bits v.toNat 25 24 ≠ s.rd (AQ_BANK_NOTCH.i b)) →
      Answers (exec (.aqBankWrite req b k v) s) (fun t => t.on AQ_EVENT_REFUSED = true ∧
        RegsKept [AQ_EVENT_REFUSED.addr, 0x30010] s t ∧ t = s.withAccess t)) ∧
    (∀ (b : Fin 4) (v : Word), s.on (AQ_BANK_EN.i b) = false → Answers (exec (.aqBankWrite req b 1 v) s) (fun t =>
      t.rd (AQ_BUF_BASE_LO.i b) = bits v.toNat 31 12 ∧ RegsKept [(AQ_BUF_BASE_LO.i b).addr] s t ∧ t = s.withAccess t)) ∧
    (∀ (ch : Fin 32) (v : Word), Answers (exec (.aqChCfgWrite req ch v) s) (fun t =>
      t.on (AQ_CH_EN.i ch) = bit v.toNat 31 ∧ t.rd (AQ_CH_PHASE.i ch) = min 2559 (v.toNat % 4096) ∧
      (s.on (AQ_CH_EN.i ch) = false → bit v.toNat 31 = true → (t.aqCh ch).left = s.rd (AQ_BANK_SETTLE.i (ch.val / 8))) ∧
      (∀ c, c ≠ ch.val → t.aqCh c = s.aqCh c) ∧
      RegsKept [(AQ_CH_EN.i ch).addr, (AQ_CH_CAUSE.i ch).addr] s t ∧ t = { s.withAccess t with aq := t.aq })) ∧
    (∀ v : Word, Answers (exec (.aqCtrlWrite req v) s) (fun t =>
      t.on AQ_CTRL_EN = bit v.toNat 31 ∧
      (bit v.toNat 31 = false → RegsKept [0x900000] s t ∧ t.aq.ch = s.aq.ch) ∧
      (s.on AQ_CTRL_EN = true → bit v.toNat 31 = false → ∀ p ∈ t.aq.due, 4 ≤ p.1) ∧
      (s.on AQ_CTRL_EN = false → bit v.toNat 31 = true → ∀ c, c < 32 → s.on (AQ_CH_EN.i c) = true →
        (t.aqCh c).left = s.rd (AQ_BANK_SETTLE.i (c / 8)) ∧ t.rd (AQ_CH_CAUSE.i c) = 1) ∧
      t = { s.withAccess t with aq := t.aq })))

/-! ### Dispatch and lanes (08_dispatch.md, 09_lanes_kernels.md) -/

/-- R215, R218–R220, R222, R223, R225, R229, R230, R232, R395, with domain 6 running. SLOTTED_START: a slotted task that is due in the tick
starts in cycle OFFSET: its run stands in the lane, with its missing triggers counted; where its cluster is off it is skipped and
FENCE_SKIP counts, where its instance may not run HALT_SKIP counts. READY_START: at most one ready run starts in a cluster in a cycle, the
one the dispatcher chooses; its COST leaves its instance's REMAIN, and one that starts after its deadline counts DL_MISS.
GENERAL_PORT_MARK: the next request takes the port and its mark is written; one of a former generation counts GEN_DROP, and with
dispatch disabled nothing is written. DEADLINE_PASS: a pending run whose deadline has passed is dropped where its generation is past;
otherwise, unless it is ready already, it is timed out where a trigger is missing, which TIMEOUT counts, and becomes ready where none is
still arriving; an instant that a step carried the base past counts STEP_FIRE. -/
def Obligations.DispatcherEvents : Prop :=
  (∀ (t : Fin 8192) (s : State), s.runs 6 = true → s.on DS_CTRL_EN = true → s.clk.lastTick ≠ none →
    dueInTick (s.task t) s.tickG = true → s.tickCy = tOffset (s.task t) → s.startedInTick t = false →
    ((s.noteTick t).clusterOff (tLane (s.task t) / 8) = false → (s.noteTick t).mayRun (tVi (s.task t)) = true →
      Answers (exec (.slottedStart t) s) (fun w => ∃ u, u = settleLane (tLane (s.task t)) (s.noteTick t) ∧
        w = countMiss t (u.operands t (presentSlotted u.tickG))
          (startRun t (tLane (s.task t)) none (u.operands t (presentSlotted u.tickG)) u) ∧
        ∃ r, w.laneRun (tLane (s.task t)) = some r ∧ r.task = t ∧ r.start = s.cyc ∧ r.cost = tCost (u.task t) ∧ r.ended = false)) ∧
    ((s.noteTick t).clusterOff (tLane (s.task t) / 8) = true →
      exec (.slottedStart t) s = .next ((s.noteTick t).inc DS_G_FENCE_SKIP)) ∧
    ((s.noteTick t).clusterOff (tLane (s.task t) / 8) = false → (s.noteTick t).mayRun (tVi (s.task t)) = false →
      exec (.slottedStart t) s = .next ((s.noteTick t).inc (VI_CNT4_HALT_SKIP.p (tVi (s.task t)))))) ∧
  (∀ (c : Fin 32) (t l : Nat) (p : Pend) (s u : State), s.runs 6 = true → aget s.ds.startAt c.val ≠ some s.cyc →
    s.readyChoice c = some (t, p, l) →
    u = (settleLane l s).dropPend t →
    ∃ w, w = startRun t l (some p) (s.operands t (presentReady p)) { u with ds := { u.ds with
        startAt := aput u.ds.startAt c s.cyc,
        remain := aput u.ds.remain (tVi (s.task t)) (s.remain (tVi (s.task t)) - tCost (s.task t)) } } ∧
      (s.now ≤ p.deadline → exec (.readyStart c) s = .next (w.beginAgain t)) ∧
      (p.deadline < s.now → exec (.readyStart c) s = .next ((((w.inc (tcnt DS_TCNT1_DL_MISS t)).viCount DS_VI_DL_MISS
        VI_CNT0_DL_MISS (tVi (s.task t))).dsEvent DS_EVENT_DL_MISS).beginAgain t)) ∧
      ∃ r, w.laneRun l = some r ∧ r.task = t ∧ r.start = s.cyc ∧ r.ended = false) ∧
  (∀ (r : MarkReq) (s u : State), s.runs 6 = true → s.ds.portAt ≠ some s.cyc → s.nextMark = some r →
    u = { s with ds := { s.ds with marks := s.ds.marks.filter (fun x => x.seq != r.seq), portAt := some s.cyc } } →
    (r.gen = s.gen r.vi → s.on DS_CTRL_EN = true →
      exec .generalPortMark s = .next ((writeMark r (u.count DS_G_PORT_HOLD u.heldMarks)).passMark r)) ∧
    (r.gen = s.gen r.vi → s.on DS_CTRL_EN = false →
      exec .generalPortMark s = .next ((u.count DS_G_PORT_HOLD u.heldMarks).passMark r)) ∧
    (r.gen ≠ s.gen r.vi →
      exec .generalPortMark s = .next (((u.count DS_G_PORT_HOLD u.heldMarks).inc DS_G_GEN_DROP).passMark r))) ∧
  (∀ (t : Fin 8192) (p : Pend) (s u : State), s.runs 6 = true → aget s.ds.pend t.val = some p → p.passed = false →
    p.deadline < s.now → u = (if s.stepped p.deadline = true then s.inc DS_G_STEP_FIRE else s) →
    (p.gen ≠ s.gen (tVi (s.task t)) → exec (.deadlinePass t) s = .next ((s.dropPend t).inc DS_G_GEN_DROP)) ∧
    (p.gen = s.gen (tVi (s.task t)) → p.ready.isSome = true →
      exec (.deadlinePass t) s = .next (u.setPend t { p with passed := true })) ∧
    (p.gen = s.gen (tVi (s.task t)) → p.ready = none → u.missing t p.deadline = false →
      exec (.deadlinePass t) s = .next (u.setPend t
        { p with passed := true, ready := if u.arriving t p.deadline = true then none else some s.cyc })) ∧
    (p.gen = s.gen (tVi (s.task t)) → p.ready = none → p.timedOut = false → u.missing t p.deadline = true →
      exec (.deadlinePass t) s = .next ((u.setPend t
        { p with passed := true, timedOut := true,
                 ready := if u.arriving t p.deadline = true then none else some s.cyc }).inc (tcnt DS_TCNT1_TIMEOUT t))))

/-- R212, R228–R230, R232, R242, R243. RUN_END: a run ended or stopped leaves its lane at start + COST, issuing its staged results unless it
was stopped or is stale. COST_OVER_STOP: a run not ended by then is stopped with cause COST, counted and reported, and leaves its lane.
TIMER_ARM_APPLY and TIMER_CANCEL_APPLY: the request at the front of the queue of the delay lists applies when its cycle has come; an
arm sets the expiry instant to the first whole microsecond at or after the arming instant plus the delay, a cancel sets CANCELLED.
TIMER_EXPIRY: a due timer of the generation in force that no watch cancels fires, and otherwise becomes CANCELLED. -/
def Obligations.RunEndsAndTimers : Prop :=
  (∀ (l : Fin 256) (r : Run) (s : State), s.runs (2 + l.val / 64) = true → s.laneRun l = some r → r.start + r.cost ≤ s.cyc →
    (r.ended = true ∨ r.stopped = true → Answers (exec (.runEnd l) s) (fun t => t = freeLane l r s ∧ t.laneRun l = none)) ∧
    (r.ended = false → r.stopped = false →
      Answers (exec (.costOverStop l) s) (fun t => t = costOver l r s ∧ t.laneRun l = none))) ∧
  (∀ (r : ArmReq) (rest : List ArmReq) (s u : State), s.runs 6 = true → s.ds.arms = r :: rest → r.due ≤ s.cyc →
    u = { s with ds := { s.ds with arms := rest } } →
    (r.arm = true → Answers (exec .timerArmApply s) (fun t => t = applyArm r u ∧ t.ds.arms = rest ∧
      (t.timer r.timer).exp = (ceilDiv (r.inst.getD s.now) uUs + r.delay) * uUs ∧
      (t.timer r.timer).armAt = r.inst.getD s.now ∧ (t.timer r.timer).seen = false)) ∧
    (r.arm = false → Answers (exec .timerCancelApply s) (fun t => t = applyCancel r u ∧ t.ds.arms = rest ∧
      (2 ≤ (s.timer r.timer).bytes.length → mState (t.timer r.timer).bytes = 3)))) ∧
  (∀ (i : Fin 16384) (b : List Byte) (s u : State), s.runs 6 = true → s.timerDue i = true → b = (s.timer i).bytes →
    2 ≤ b.length → u = (if s.stepped (s.timer i).exp = true then s.inc DS_G_STEP_FIRE else s) →
    (mGen b ≠ u.gen (mVi b) → Answers (exec (.timerExpiry i) s) (fun t =>
      t = (u.setTimer i { s.timer i with bytes := withState b 3 }).inc DS_G_GEN_DROP ∧ mState (t.timer i).bytes = 3)) ∧
    (mGen b = u.gen (mVi b) → mWatch b = true →
      (s.timer i).seen = true ∨ u.marking.any (fun k => u.arrivesAt k (s.timer i)) = true →
      Answers (exec (.timerExpiry i) s) (fun t =>
        t = (u.setTimer i { s.timer i with bytes := withState b 3 }).inc DS_G_WATCH_CANCEL ∧ mState (t.timer i).bytes = 3)) ∧
    (mGen b = u.gen (mVi b) →
      mWatch b = false ∨ ((s.timer i).seen = false ∧ u.marking.any (fun k => u.arrivesAt k (s.timer i)) = false) →
      Answers (exec (.timerExpiry i) s) (fun t =>
        t = (u.setTimer i { s.timer i with bytes := withState b 2 }).timerMark (s.timer i).exp
          { due := s.cyc + 6, kind := 2, ord := (s.timer i).exp * 16384 + i, seq := 0, slot := mSlot b,
            value := leBytes 4 i ++ leBytes 4 (leAt b 12 4 % 2 ^ 20), qual := 0, vi := mVi b, gen := mGen b } ∧
        mState (t.timer i).bytes = 2)))

/-- R211, R213, R214, R228, R233, R235, for one who may write, domain 6 powered: DS_TASK_READ, DS_SLOT_READ and DS_TMR_READ load a task, slot
or timer into the data registers; DS_TASK_WRITE of a task that keeps the slotted rules and DS_TASK_INVALIDATE take effect at the next
tick start and drop its pending run, and a WRITE that breaks them is discarded with the event; DS_SLOT_WRITE writes a slot with FRESH and
WRITTEN clear; ARM and DS_TMR_CANCEL join the queue of the delay lists, where a request with none ahead applies 8 cycles later;
DS_CNT_LATCH latches a task's counters and clears them but for this cycle's events (R11), and DS_FLOW_LATCH a flow's state. -/
def Obligations.DispatcherRegisterCommands : Prop :=
  ∀ (req : Requester) (s : State), s.Writer req → s.dom 6 = 1 →
    (exec (.dsTaskRead req) s = .next ((loadData 0x700040 8
      (slice (s.task (s.rd DS_TASK_IDX_IDX % 8192)) 0 32) s).wrote req 0x700014 1)) ∧
    (∀ b, b = taskStored (s.dataBytes 0x700040 8) →
      (taskWriteOk (s.rd DS_TASK_IDX_IDX % 8192) b s = true → Answers (exec (.dsTaskWrite req) s) (fun t =>
        (aget t.ds.tasks (s.rd DS_TASK_IDX_IDX % 8192)).bind (fun x => x.next) = some b ∧
        t.task (s.rd DS_TASK_IDX_IDX % 8192) =
          (if (aget s.ds.tasks (s.rd DS_TASK_IDX_IDX % 8192)).isSome then s.task (s.rd DS_TASK_IDX_IDX % 8192)
          else List.replicate 32 0) ∧
        aget t.ds.pend (s.rd DS_TASK_IDX_IDX % 8192) = none ∧
        (∀ k, k ≠ s.rd DS_TASK_IDX_IDX % 8192 → aget t.ds.tasks k = aget s.ds.tasks k ∧ aget t.ds.pend k = aget s.ds.pend k) ∧
        RegsKept [] s t ∧ t = { s.withAccess t with ds := t.ds })) ∧
      (taskWriteOk (s.rd DS_TASK_IDX_IDX % 8192) b s = false → Answers (exec (.dsTaskWrite req) s) (fun t =>
        t.on DS_EVENT_REFUSED = true ∧ RegsKept [DS_EVENT_REFUSED.addr, 0x30010] s t ∧ t = s.withAccess t))) ∧
    (Answers (exec (.dsTaskInvalidate req) s) (fun t =>
      (aget t.ds.tasks (s.rd DS_TASK_IDX_IDX % 8192)).bind (fun x => x.next) =
        some (withValid (slice (s.task (s.rd DS_TASK_IDX_IDX % 8192)) 0 32) false) ∧
      aget t.ds.pend (s.rd DS_TASK_IDX_IDX % 8192) = none ∧
      (∀ k, k ≠ s.rd DS_TASK_IDX_IDX % 8192 → aget t.ds.tasks k = aget s.ds.tasks k ∧ aget t.ds.pend k = aget s.ds.pend k) ∧
      RegsKept [] s t ∧ t = { s.withAccess t with ds := t.ds })) ∧
    (exec (.dsSlotRead req) s =
      .next ((loadData 0x700060 8 (s.slotNow (s.rd DS_SLOT_IDX_IDX)) s).wrote req 0x700024 1)) ∧
    (Answers (exec (.dsSlotWrite req) s) (fun t =>
      t.slot (s.rd DS_SLOT_IDX_IDX) = { bytes := slotStored (s.dataBytes 0x700060 8), new := none, group := none } ∧
      sFresh (t.slot (s.rd DS_SLOT_IDX_IDX)).bytes = false ∧ sWritten (t.slot (s.rd DS_SLOT_IDX_IDX)).bytes = false ∧
      (∀ i, i ≠ s.rd DS_SLOT_IDX_IDX → t.slot i = s.slot i) ∧
      RegsKept [] s t ∧ t = { s.withAccess t with ds := t.ds })) ∧
    (exec (.dsTmrRead req) s = .next ((loadData 0x700080 4
      (s.timer (s.rd DS_TMR_IDX_IDX % 16384)).bytes s).wrote req 0x700034 1)) ∧
    (∀ a c : ArmReq,
      a = { made := 0, due := 0, arm := true, timer := s.rd DS_TMR_IDX_IDX % 16384, delay := s.rd DS_TMR_DELAY_DELAY_US, gen := 0,
            who := armPlace req, setup := some (s.dataBytes 0x700080 2) } →
      c = { made := 0, due := 0, arm := false, timer := s.rd DS_TMR_IDX_IDX % 16384, delay := 0, gen := 0, who := armPlace req,
            setup := none } →
      (exec (.dsArm req) s = .next ((s.queueArm a).wrote req 0x700034 2)) ∧
      (exec (.dsTmrCancel req) s = .next ((s.queueArm c).wrote req 0x700034 3)) ∧
      (∀ x, s.ds.arms = [] → (s.queueArm x).ds.arms = [{ x with made := s.cyc, due := s.cyc + 8 }])) ∧
    (∀ (v : Word) (a : Nat), a = 0x3400000 + v.toNat % 8192 * 8 → Answers (exec (.dsCntLatch req v) s) (fun t =>
      t.word 0x700094 = s.word0 a ∧ t.word 0x700098 = s.word0 (a + 4) ∧ t.word a = s.evWord a ∧
      t.word (a + 4) = s.evWord (a + 4) ∧ t = s.withAccess t)) ∧
    (∀ v : Word, Answers (exec (.dsFlowLatch req v) s) (fun t =>
      t.on DS_FLOW_STAT_BUSY = (s.flowState (v.toNat % 4096)).1 ∧
      t.rd DS_FLOW_STAT_WAITING = (s.flowState (v.toNat % 4096)).2 % 2 ^ DS_FLOW_STAT_WAITING.width ∧
      t = s.withAccess t))

/-! ### Kernels (09_lanes_kernels.md) -/

/-- R237–R239, R241, R242, R244, R246, R247, R249, R250, R255: the basic kernels 0x00 to 0x0F complete. Where the run of a lane has
reached the kernel (`AtKernel`), its N, M and PARAM lie in the ranges of R255, its operands are readable and of its types and its
results fit, it gives its results and its cycles are charged: K_NOP; K_END, which ends the run and counts SHORT; K_GATH, from inbox
records; K_OPND; K_MOVE; K_CONST; K_SKIP; K_QSEL; K_CONV; K_ADD; K_SUB; K_MUL; K_MAC; K_ABS; K_MINMAX; K_DIV. -/
def Obligations.BasicKernelsComplete : Prop :=
  ∀ (l : Fin 256) (r : Run) (k : Inv) (s : State) (x : Item) (xs ys rs : List Item) (d op : List Byte)
    (ofs : Nat → Nat) (us : List (List Byte)),
    (s.AtKernel l 0x00 r k → exec (.kNop l) s = .next (s.setRun l { r with inv := r.inv + 1, next := r.next + 1 })) ∧
    (s.AtKernel l 0x01 r k →
      Answers (exec (.kEnd l) s) (fun t => t.laneRun l = some { r with ended := true, inv := r.inv + 1, next := r.next + 2 } ∧
        t.loadN (addrLane l + 0xFF24) 2 = (if r.next + 2 < r.start + r.cost then satAdd 16 (s.loadN (addrLane l + 0xFF24) 2) 1
        else s.loadN (addrLane l + 0xFF24) 2))) ∧
    (s.AtKernel l 0x02 r k → 1 ≤ k.n → k.n ≤ 64 → k.param % 16 < tOpN (s.task r.task) → op = k.operand (k.param % 16) s →
      sKind op = 1 → k.data ((8 + 4 * k.n + 7) / 8 * 8) s = .ok d → (leAt d 4 1 = 4 ∨ leAt d 4 1 = 8 ∨ leAt d 4 1 = 16) →
      ofs = (fun i => leAt d 0 4 * 64 + (leAt d (8 + 4 * i) 2 * leAt d 4 1 + sValue op % 65536 % leAt d 4 1) * 64) →
      (∀ i, i < k.n → leAt d (8 + 4 * i + 2) 1 < 8 ∧ ofs i + 64 ≤ 0x80000 ∧ ∀ j, j < 8 → s.ic.badWords.contains (addrCluster (l /
        8) + ofs i + 8 * j) = false) →
      rs = (List.range k.n).map (fun i => gatherItem (s.old.load (addrCluster (l / 8) + ofs i) 64) (sValue op % 65536) (leAt d (8
        + 4 * i + 2) 1) (entryAbsent op)) → k.CanGive rs → k.Completes (.kGath l) s (k.results rs s)) ∧
    (s.AtKernel l 0x03 r k → k.param % 16 < tOpN (s.task r.task) → op = k.operand (k.param % 16) s →
      (sKind op = 2 → 1 ≤ bits k.param 7 4 ∧ bits k.param 7 4 ≤ 8) → x = opndItem op (bits k.param 7 4) →
      rs = [if x.ab then absentItem (absentType x.t (bits k.param 7 4)) x.q else x] → k.CanGive rs →
      k.Completes (.kOpnd l) s (k.results rs s)) ∧
    (s.AtKernel l 0x04 r k → 1 ≤ k.n → k.n ≤ 64 → readUnits k k.a s k.n 0 = .ok us → k.CanWrite (canonUnits 0 us) →
      k.Completes (.kMove l) s (k.write k.out (canonUnits 0 us) s)) ∧
    (s.AtKernel l 0x05 r k →
      ((k.m = 0 ∧ x = { t := tFLOAT, v := k.param, q := 0 }) ∨ (k.m = 1 ∧ x = { t := tINT, v := k.param, q := 0 }) ∨ (k.m = 2 ∧ x
        = { t := tBOOL, v := b2n (k.param != 0), q := 0 })) → k.CanGive [x] → k.Completes (.kConst l) s (k.results [x] s)) ∧
    (s.AtKernel l 0x06 r k → 1 ≤ k.n → k.n ≤ 16 → k.items k.a 1 [tBOOL] s = .ok [x] →
      exec (.kSkip l) s = .next (s.setRun l
        { r with skip := if (x.v != 0) = bit k.m 0 then k.n else 0, inv := r.inv + 1, next := r.next + 3 })) ∧
    (s.AtKernel l 0x07 r k → 1 ≤ k.n → k.n ≤ 64 → k.m ≤ 1 → k.itemsFrom k.a s k.n 0 = .ok xs → k.itemsFrom k.b s k.n 0 = .ok ys →
      (∀ p ∈ xs.zip ys, p.1.t = p.2.t) →
      rs = (xs.zip ys).map (fun p => if unusable (if k.m = 1 then 3 else 1) p.1 then p.2 else p.1) → k.CanGive rs →
      k.Completes (.kQsel l) s (k.results rs s)) ∧
    (s.AtKernel l 0x08 r k → 1 ≤ k.n → k.n ≤ 64 → convTypes.contains (k.param % 16) = true →
      k.items k.a k.n (tQUAL :: convTypes) s = .ok xs → rs = xs.map (convItem (k.param % 16)) → k.CanGive rs →
      k.Completes (.kConv l) s (k.results rs s)) ∧
    (s.AtKernel l 0x09 r k → 1 ≤ k.n → k.n ≤ 64 → k.m ≤ 1 → k.items k.a k.n numTypes s = .ok xs → k.second s = .ok ys →
      (∀ p ∈ xs.zip ys, p.1.t = p.2.t) → rs = (xs.zip ys).map (fun p => arith f32.add (· + ·) p.1 p.2) → k.CanGive rs →
      k.Completes (.kAdd l) s (k.results rs s)) ∧
    (s.AtKernel l 0x0A r k → 1 ≤ k.n → k.n ≤ 64 → k.m ≤ 1 → k.items k.a k.n numTypes s = .ok xs → k.second s = .ok ys →
      (∀ p ∈ xs.zip ys, p.1.t = p.2.t) → rs = (xs.zip ys).map (fun p => arith f32.sub (· - ·) p.1 p.2) → k.CanGive rs →
      k.Completes (.kSub l) s (k.results rs s)) ∧
    (s.AtKernel l 0x0B r k → 1 ≤ k.n → k.n ≤ 64 → k.m ≤ 1 → k.items k.a k.n numTypes s = .ok xs → k.second s = .ok ys →
      (∀ p ∈ xs.zip ys, p.1.t = p.2.t) → rs = (xs.zip ys).map (fun p => arith f32.mul (· * ·) p.1 p.2) → k.CanGive rs →
      k.Completes (.kMul l) s (k.results rs s)) ∧
    (s.AtKernel l 0x0C r k → 1 ≤ k.n → k.n ≤ 64 → k.items k.a k.n [tFLOAT] s = .ok xs → k.items k.b k.n [tFLOAT] s = .ok ys →
      rs = (xs.zip ys).map (fun p => floatOf [p.1, p.2] [p.1.v, k.param, p.2.v] (f32.sum 0x0C [.prod p.1.v k.param, .num p.2.v]))
        → k.CanGive rs → k.Completes (.kMac l) s (k.results rs s)) ∧
    (s.AtKernel l 0x0D r k → 1 ≤ k.n → k.n ≤ 64 → k.items k.a k.n numTypes s = .ok xs → rs = xs.map absItem → k.CanGive rs →
      k.Completes (.kAbs l) s (k.results rs s)) ∧
    (s.AtKernel l 0x0E r k → 2 ≤ k.n → k.n ≤ 64 → k.m ≤ 1 → k.items k.a k.n numTypes s = .ok (x :: xs) → (∀ y ∈ xs, y.t = x.t) →
      rs = [xs.foldl (fun a y => if (if k.m = 0 then itemLt y a else itemLt a y) then y else a) x] → k.CanGive rs →
      k.Completes (.kMinmax l) s (k.results rs s)) ∧
    (s.AtKernel l 0x0F r k → 1 ≤ k.n → k.n ≤ 64 → k.items k.a k.n numTypes s = .ok xs → k.items k.b k.n numTypes s = .ok ys →
      (∀ p ∈ xs.zip ys, p.1.t = p.2.t) → rs = (xs.zip ys).map (fun p => divItem k.param p.1 p.2) → k.CanGive rs →
      k.Completes (.kDiv l) s (k.results rs s))

/-- R237–R239, R241, R246, R248, R255, R257: the signal kernels 0x10 to 0x1F complete. Where the run of a lane has reached the kernel, its
N, M and PARAM lie in the ranges of R255, its operands and instance data are readable and its results fit, it gives its results, writes
its instance data and its cycles are charged: K_DFT; K_HDFT; K_HARM; K_RMS; K_SEQ; K_PWR; K_FREQ; K_ROCOF; K_CPLX; K_POLAR; K_BIQ; K_DERIV; K_PSUM; K_DELAY; K_INTEG; K_MEAN. -/
def Obligations.SignalKernelsComplete : Prop :=
  ∀ (l : Fin 256) (r : Run) (k : Inv) (s : State) (x y w : Item) (xs ys rs : List Item) (d : List Byte)
    (z : List Item × List Byte) (v : Nat × Nat) (seq : List Term × List Term → List Term × List Term → Item)
    (pos neg : Item → List Term × List Term),
    (s.AtKernel l 0x10 r k → 1 ≤ k.n → k.n ≤ 64 → 16 ≤ k.param % 256 → k.param % 256 ≤ 192 → k.items k.a k.n [tFLOAT] s = .ok xs →
      k.data (8 + (4 * (k.param % 256) + 48) * k.n) s = .ok d →
      z = eachWindow (4 * (k.param % 256) + 48) (dftChannel 0x10 (k.param % 256) (k.param % 256)) (k.sampleTicks s) xs d →
      k.CanGive z.1 → k.Completes (.kDft l) s (k.finish z.1 z.2 s)) ∧
    (s.AtKernel l 0x11 r k → 1 ≤ k.n → k.n ≤ 64 → 16 ≤ k.param % 256 → k.param % 256 ≤ 192 → k.param % 2 = 0 →
      k.items k.a k.n [tFLOAT] s = .ok xs → k.data (8 + (4 * (k.param % 256 / 2) + 48) * k.n) s = .ok d →
      z = eachWindow (4 * (k.param % 256 / 2) + 48) (dftChannel 0x11 (k.param % 256) (k.param % 256 / 2)) (k.sampleTicks s) xs d →
      k.CanGive z.1 → k.Completes (.kHdft l) s (k.finish z.1 z.2 s)) ∧
    (s.AtKernel l 0x12 r k → 1 ≤ k.n → k.n ≤ 64 → 16 ≤ k.param % 256 → k.param % 256 ≤ 192 → 2 ≤ k.m → k.m ≤ 15 →
      k.items k.a k.n [tFLOAT] s = .ok xs → k.data (8 + (4 * (k.param % 256) + 80) * k.n) s = .ok d →
      z = eachWindow (4 * (k.param % 256) + 80) (harmChannel (k.param % 256) k.m) (k.sampleTicks s) xs d → k.CanGive z.1 →
      k.Completes (.kHarm l) s (k.finish z.1 z.2 s)) ∧
    (s.AtKernel l 0x13 r k → 1 ≤ k.n → k.n ≤ 64 → 16 ≤ k.param % 256 → k.param % 256 ≤ 192 → k.items k.a k.n [tFLOAT] s = .ok xs →
      k.data (8 + (4 * (k.param % 256) + 16) * k.n) s = .ok d →
      z = eachChannel (4 * (k.param % 256) + 16) (rmsChannel (k.param % 256) (leAt d 0 4)) xs d → k.CanGive z.1 →
      k.Completes (.kRms l) s (k.finish z.1 (splice z.2 0 (leBytes 4 ((leAt d 0 4 + 1) % (k.param % 256)))) s)) ∧
    (s.AtKernel l 0x14 r k → k.items k.a 3 [tPHASOR] s = .ok [x, y, w] →
      seq = (fun b c => phasorItem [x, y, w] (f32.divBy 0x14 (phasorSum 0x14 [plainTerms x, b, c]).1 (f32.ofInt 3), f32.divBy 0x14
        (phasorSum 0x14 [plainTerms x, b, c]).2 (f32.ofInt 3))) → pos = (fun i => timesTerms i minusHalf halfRoot3) →
      neg = (fun i => timesTerms i minusHalf (f32.neg halfRoot3)) →
      rs = [seq (plainTerms y) (plainTerms w), seq (pos y) (neg w), seq (neg y) (pos w)] → k.CanGive rs →
      k.Completes (.kSeq l) s (k.results rs s)) ∧
    (s.AtKernel l 0x15 r k → k.items k.a 3 [tPHASOR] s = .ok xs → k.items k.b 3 [tPHASOR] s = .ok ys →
      v = phasorSum 0x15 ((xs.zip ys).map (fun p => timesTerms p.1 p.2.v (f32.neg p.2.w))) →
      rs = [floatOf (xs ++ ys) (numsOf (xs ++ ys)) v.1, floatOf (xs ++ ys) (numsOf (xs ++ ys)) v.2, floatOf (xs ++ ys) (numsOf (xs
        ++ ys)) (Config.numeric 0x15 (numsOf (xs ++ ys)) % 2 ^ 32)] → k.CanGive rs → k.Completes (.kPwr l) s (k.results rs s)) ∧
    (s.AtKernel l 0x16 r k → 1 ≤ k.m → k.m ≤ 96 → k.items k.a 1 [tPHASOR] s = .ok [x] → k.data (8 + 4 * k.m) s = .ok d →
      z = ([floatOf [x] (numsOf [x]) (freqStep k.m r.tick x d).1], if x.ab then d else (freqStep k.m r.tick x d).2) →
      k.CanGive z.1 → k.Completes (.kFreq l) s (k.finish z.1 z.2 s)) ∧
    (s.AtKernel l 0x17 r k → 2 ≤ k.m → k.m ≤ 96 → k.items k.a 1 [tFLOAT] s = .ok [x] → k.data (8 + 4 * k.m) s = .ok d →
      z = ([floatOf [x] (numsOf [x]) (rocofStep k.m r.tick x d).1], if x.ab then d else (rocofStep k.m r.tick x d).2) →
      k.CanGive z.1 → k.Completes (.kRocof l) s (k.finish z.1 z.2 s)) ∧
    (s.AtKernel l 0x18 r k → 1 ≤ k.n → k.n ≤ 64 → k.param ≤ 3 → k.items k.a k.n [tPHASOR] s = .ok xs →
      k.items k.b k.n [tPHASOR] s = .ok ys → rs = (xs.zip ys).map (fun p => cplxItem k.param p.1 p.2) → k.CanGive rs →
      k.Completes (.kCplx l) s (k.results rs s)) ∧
    (s.AtKernel l 0x19 r k → 1 ≤ k.n → k.n ≤ 64 → k.m ≤ 1 → k.items k.a k.n [tPHASOR] s = .ok xs →
      rs = xs.flatMap (fun x => floatOf [x] [x.v, x.w] (f32.magnitude 0x19 x.v x.w) :: (if k.m = 1 then [floatOf [x] [x.v, x.w]
        (atan2 x.w x.v)] else [])) → k.CanGive rs → k.Completes (.kPolar l) s (k.results rs s)) ∧
    (s.AtKernel l 0x1A r k → 1 ≤ k.n → k.n ≤ 64 → k.items k.a k.n [tFLOAT] s = .ok xs → k.data (24 + 8 * k.n) s = .ok d →
      z = eachElement 8 (biqElement (slice d 0 24)) xs (d.drop 24) → k.CanGive z.1 →
      k.Completes (.kBiq l) s (k.finish z.1 (slice d 0 24 ++ z.2) s)) ∧
    (s.AtKernel l 0x1B r k → 1 ≤ k.n → k.n ≤ 64 → k.items k.a k.n [tFLOAT] s = .ok xs → k.data (8 * k.n) s = .ok d →
      z = eachElement 8 (derivElement k.param) xs d → k.CanGive z.1 → k.Completes (.kDeriv l) s (k.finish z.1 z.2 s)) ∧
    (s.AtKernel l 0x1C r k → 1 ≤ k.n → k.n ≤ 64 → k.items k.a k.n [tPHASOR] s = .ok xs →
      rs = [phasorItem xs (phasorSum 0x1C (xs.map plainTerms))] → k.CanGive rs → k.Completes (.kPsum l) s (k.results rs s)) ∧
    (s.AtKernel l 0x1D r k → 1 ≤ k.n → k.n ≤ 64 → 1 ≤ k.m → k.m ≤ 255 →
      k.items k.a k.n [tBOOL, tDBPOS, tINT, tUINT, tFLOAT, tQUAL, tBITS] s = .ok xs → k.data (8 + 8 * k.m * k.n) s = .ok d →
      z = eachChannel (8 * k.m) (delayChannel k.m (leAt d 0 4)) xs d → k.CanGive z.1 →
      k.Completes (.kDelay l) s (k.finish z.1 (splice z.2 0 (leBytes 4 ((leAt d 0 4 + 1) % k.m))) s)) ∧
    (s.AtKernel l 0x1E r k → 1 ≤ k.n → k.n ≤ 64 → k.items k.a k.n [tFLOAT] s = .ok xs → k.items k.b 1 [tBOOL] s = .ok [x] →
      k.data (8 * k.n) s = .ok d → z = eachElement 8 (integElement k.param x) xs d → k.CanGive z.1 →
      k.Completes (.kInteg l) s (k.finish z.1 z.2 s)) ∧
    (s.AtKernel l 0x1F r k → 1 ≤ k.n → k.n ≤ 64 → 2 ≤ k.m → k.m ≤ 255 → k.items k.a k.n [tFLOAT] s = .ok xs →
      k.data (8 + (4 * k.m + 8) * k.n) s = .ok d → z = eachChannel (4 * k.m + 8) (meanChannel k.m (leAt d 0 4)) xs d →
      k.CanGive z.1 → k.Completes (.kMean l) s (k.finish z.1 (splice z.2 0 (leBytes 4 ((leAt d 0 4 + 1) % k.m))) s))

/-- R237–R239, R241, R248, R249, R255, R256: the protection kernels 0x20 to 0x2F complete under the quality policy of R249 over all their
inputs. Where the run of a lane has reached the kernel, its N, M and PARAM lie in the ranges of R255, its operands and instance data are
readable and its results fit, it gives its results, writes its instance data and its cycles are charged: K_DIFF; K_REST; K_IMP; K_ZONE;
K_DIR; K_CMP; K_IDMT, for a curve code other than 7 (R256); K_THERM; K_SYNC; K_POSN; K_LOCK; K_REF; K_VHZ; K_CAPB; K_CNT; K_PWL. The
formulas that the spec does not give are the model's free values (log entry 11). -/
def Obligations.ProtectionKernelsComplete : Prop :=
  ∀ (l : Fin 256) (r : Run) (k : Inv) (s : State) (x y : Item) (xs ys rs : List Item) (d : List Byte)
    (z : List Item × List Byte) (zs : List (List Item × List Byte)) (ps : List (Item × Item × List Byte)) (p : Policy) (ph : List (List Item)) (above : List Bool)
    (ins : Item × Item → List Item),
    (s.AtKernel l 0x20 r k → 2 ≤ k.n → k.n ≤ 32 → k.items k.a (3 * k.n) [tPHASOR] s = .ok xs → k.data (24) s = .ok d →
      p = policyOf k.qpol true xs → ph = [phaseOf xs 0, phaseOf xs 1, phaseOf xs 2] →
      rs = (if p = .run then ph.map (fun i => boolOf i (diffOperate d (idiffOf i) (biasOf i))) ++ ph.map (fun i => floatOf i
        (numsOf i) (idiffOf i)) ++ ph.map (fun i => floatOf i (numsOf i) (biasOf i)) else policyItems p (ph.map (fun i => (tBOOL,
        i)) ++ ph.map (fun i => (tFLOAT, i)) ++ ph.map (fun i => (tFLOAT, i))) [] (Config.kernelHeld [k.code, k.n, k.m, k.param]
        d)) → k.CanGive rs → k.Completes (.kDiff l) s (k.results rs s)) ∧
    (s.AtKernel l 0x21 r k → k.m ≤ 1 → k.items k.a 3 [tFLOAT] s = .ok xs → k.items k.b 3 [tFLOAT] s = .ok ys →
      k.data (16) s = .ok d → p = policyOf k.qpol true (xs ++ ys) →
      above = (xs.zip ys).map (fun q => f32.lt (leAt d 0 4) q.1.v || f32.lt (leAt d 4 4) q.2.v) →
      ins = (fun q => if k.m = 1 then xs ++ ys else [q.1, q.2]) →
      rs = (if p = .run then ((xs.zip ys).zip above).map (fun q => boolOf (ins q.1) (if k.m = 1 then above.any id else q.2)) else
        policyItems p ((xs.zip ys).map (fun q => (tBOOL, ins q))) [] (Config.kernelHeld [k.code, k.n, k.m, k.param] d)) →
      k.CanGive rs → k.Completes (.kRest l) s (k.results rs s)) ∧
    (s.AtKernel l 0x22 r k → k.items k.a 3 [tPHASOR] s = .ok xs → k.items k.b 3 [tPHASOR] s = .ok ys → k.data (8) s = .ok d →
      p = policyOf k.qpol true (xs ++ ys) →
      ((p = .run ∧ rs = impLoops d xs ys) ∨ (p = .hold ∧ rs = (openPhasors []
        (Config.kernelHeld [k.code, k.n, k.m, k.param] d) 6).map (fun q => { q with q := heldQ })) ∨ (p = .block ∧ rs =
        List.replicate 6 (blocked tPHASOR))) → k.CanGive rs → k.Completes (.kImp l) s (k.results rs s)) ∧
    (s.AtKernel l 0x23 r k → 1 ≤ k.n → k.n ≤ 64 → k.items k.a k.n [tPHASOR] s = .ok xs → k.data (32) s = .ok d →
      rs = (xs.zip (List.range xs.length)).flatMap (fun q => (k.openElement (policyOf k.qpol true xs) q.2 [tBOOL] [q.1] d).1) →
      k.CanGive rs → k.Completes (.kZone l) s (k.results rs s)) ∧
    (s.AtKernel l 0x24 r k → 1 ≤ k.n → k.n ≤ 64 → k.items k.a k.n [tPHASOR] s = .ok xs → k.items k.b k.n [tPHASOR] s = .ok ys →
      k.data (16 * k.n) s = .ok d →
      zs = ((xs.zip ys).zip (List.range k.n)).map (fun q => k.openElement (policyOf k.qpol true (xs ++ ys)) q.2 [tINT] [q.1.1,
        q.1.2] (slice d (16 * q.2) 16)) → rs = (zs.flatMap (fun q => q.1)).map dirValue → k.CanGive rs →
      k.Completes (.kDir l) s (k.finish rs (zs.flatMap (fun q => q.2)) s)) ∧
    (s.AtKernel l 0x25 r k → 1 ≤ k.n → k.n ≤ 64 → k.m ≤ 1 → k.items k.a k.n numTypes s = .ok xs → k.data (16 * k.n) s = .ok d →
      z = eachElement 16 (cmpElement (policyOf k.qpol true xs) k.m) xs d → k.CanGive z.1 →
      k.Completes (.kCmp l) s (k.finish z.1 z.2 s)) ∧
    (s.AtKernel l 0x26 r k → 1 ≤ k.n → k.n ≤ 64 → k.items k.a k.n [tFLOAT] s = .ok xs → k.data (24 * k.n) s = .ok d →
      (∀ i, i < k.n → leAt d (24 * i) 1 % 8 ≠ 7) → z = eachElement 24 (idmtElement (policyOf k.qpol true xs) (k.tick s)) xs d →
      k.CanGive z.1 → k.Completes (.kIdmt l) s (k.finish z.1 z.2 s)) ∧
    (s.AtKernel l 0x27 r k → k.items k.a 1 [tFLOAT] s = .ok xs → k.data (32) s = .ok d →
      z = k.openWhole xs [tFLOAT, tBOOL, tBOOL] d → k.CanGive z.1 → k.Completes (.kTherm l) s (k.finish z.1 z.2 s)) ∧
    (s.AtKernel l 0x28 r k → k.items k.a 1 [tPHASOR] s = .ok [x] → k.items k.b 1 [tPHASOR] s = .ok [y] → k.data (40) s = .ok d →
      z = k.syncStep x y d s → k.CanGive z.1 →
      k.Completes (.kSync l) s (k.finish z.1 z.2 s)) ∧
    (s.AtKernel l 0x29 r k → 1 ≤ k.n → k.n ≤ 64 → k.items k.a k.n [tDBPOS] s = .ok xs → k.data (8 * k.n) s = .ok d →
      ps = (xs.zip (List.range k.n)).map (fun q => posnElement (policyOf k.qpol true xs) k.m (k.tick s) q.1 (slice d (8 * q.2) 8)) →
      rs = ps.map (fun q => q.1) ++ ps.map (fun q => q.2.1) → k.CanGive rs →
      k.Completes (.kPosn l) s (k.finish rs (ps.flatMap (fun q => q.2.2)) s)) ∧
    (s.AtKernel l 0x2A r k → k.items k.a 1 [tFLOAT] s = .ok xs → k.items k.b 1 [tBOOL] s = .ok ys → k.data (32) s = .ok d →
      z = k.openWhole (xs ++ ys) [tBOOL, tBOOL] d → k.CanGive z.1 → k.Completes (.kLock l) s (k.finish z.1 z.2 s)) ∧
    (s.AtKernel l 0x2B r k → k.items k.a 3 [tPHASOR] s = .ok xs → k.items k.b 1 [tPHASOR] s = .ok ys → k.data (24) s = .ok d →
      z = k.refStep (xs ++ ys) d → k.CanGive z.1 → k.Completes (.kRef l) s (k.finish z.1 z.2 s)) ∧
    (s.AtKernel l 0x2C r k → k.items k.a 1 [tFLOAT] s = .ok [x] → k.items k.b 1 [tFLOAT] s = .ok [y] → k.data (32) s = .ok d →
      z = k.openWhole [x, y] [tFLOAT, tBOOL] d →
      rs = (if policyOf k.qpol true [x, y] = .run then floatOf [x, y] (numsOf [x, y]) (f32.div x.v y.v) :: z.1.drop 1 else z.1) →
      k.CanGive rs → k.Completes (.kVhz l) s (k.finish rs z.2 s)) ∧
    (s.AtKernel l 0x2D r k → k.items k.a 1 [tPHASOR] s = .ok xs → k.items k.b 1 [tPHASOR] s = .ok ys → k.data (32) s = .ok d →
      z = k.openWhole (xs ++ ys) [tFLOAT, tBOOL, tBOOL] d → k.CanGive z.1 → k.Completes (.kCapb l) s (k.finish z.1 z.2 s)) ∧
    (s.AtKernel l 0x2E r k → 1 ≤ k.n → k.n ≤ 64 → k.items k.a k.n [tBOOL] s = .ok xs → k.items k.b k.n [tBOOL] s = .ok ys →
      k.data (8 * k.n) s = .ok d → z = eachPair 8 (cntElement (policyOf k.qpol true (xs ++ ys)) k.param) xs ys d → k.CanGive z.1 →
      k.Completes (.kCnt l) s (k.finish z.1 z.2 s)) ∧
    (s.AtKernel l 0x2F r k → 1 ≤ k.n → k.n ≤ 64 → 2 ≤ k.m → k.m ≤ 16 → k.items k.a k.n [tFLOAT] s = .ok xs →
      k.data (8 + 8 * k.m) s = .ok d → p = policyOf k.qpol true xs →
      rs = (if p = .run then xs.map (fun q => floatOf [q] [q.v] (pwlValue k.m d q.v)) else policyItems p (xs.map (fun q =>
        (tFLOAT, [q]))) [] (Config.kernelHeld [k.code, k.n, k.m, k.param] d)) → k.CanGive rs →
      k.Completes (.kPwl l) s (k.results rs s))

/-- R228, R237–R239, R241, R243, R248, R249, R255, R257, R260, R276: the logic, timer and output kernels 0x30 to 0x3F complete. Where the run
of a lane has reached the kernel, its N, M and PARAM lie in the ranges of R255, its operands and instance data are readable and its
results fit, it has its effect and its cycles are charged: K_AND; K_OR; K_XOR; K_NOT; K_EDGE; K_LATCH; K_VOTE; K_PACK; K_TON; K_TOF;
K_TPLS; K_TARM and K_TCAN, for a timer of the run's instance, join the queue of the delay lists; K_POST stages its unit; K_PUB hands a
build request over; K_TRIP hands its BOOL to a trip stage, an ABSENT or invalid one as FALSE. -/
def Obligations.LogicKernelsComplete : Prop :=
  ∀ (l : Fin 256) (r : Run) (k : Inv) (s : State) (x : Item) (xs ys rs : List Item) (d u : List Byte)
    (z : List Item × List Byte) (es : List (Item × Bool)) (items : List PubItem) (a : ArmReq),
    (s.AtKernel l 0x30 r k → 2 ≤ k.n → k.n ≤ 64 → k.items k.a k.n [tBOOL] s = .ok xs →
      rs = [if policyOf k.qpol false xs = .block then blocked tBOOL else resultOf xs tBOOL (b2n ((xs.map (fun q => q.v != 0)).all
        id)) 0] → k.CanGive rs → k.Completes (.kAnd l) s (k.results rs s)) ∧
    (s.AtKernel l 0x31 r k → 2 ≤ k.n → k.n ≤ 64 → k.items k.a k.n [tBOOL] s = .ok xs →
      rs = [if policyOf k.qpol false xs = .block then blocked tBOOL else resultOf xs tBOOL (b2n ((xs.map (fun q => q.v != 0)).any
        id)) 0] → k.CanGive rs → k.Completes (.kOr l) s (k.results rs s)) ∧
    (s.AtKernel l 0x32 r k → 2 ≤ k.n → k.n ≤ 64 → k.items k.a k.n [tBOOL] s = .ok xs →
      rs = [if policyOf k.qpol false xs = .block then blocked tBOOL else resultOf xs tBOOL (((xs.map (fun q => q.v != 0)).filter
        id).length % 2) 0] → k.CanGive rs → k.Completes (.kXor l) s (k.results rs s)) ∧
    (s.AtKernel l 0x33 r k → 1 ≤ k.n → k.n ≤ 64 → k.items k.a k.n [tBOOL] s = .ok xs →
      rs = xs.map (fun q => if policyOf k.qpol false xs = .block then blocked tBOOL else boolOf [q] (q.v == 0)) → k.CanGive rs →
      k.Completes (.kNot l) s (k.results rs s)) ∧
    (s.AtKernel l 0x34 r k → 1 ≤ k.n → k.n ≤ 64 → k.m ≤ 2 → k.items k.a k.n [tBOOL] s = .ok xs → k.data (8) s = .ok d →
      es = (xs.zip (List.range xs.length)).map (fun q => edgeElement (policyOf k.qpol true xs) k.m (bit (leAt d 0 8) q.2) q.1) →
      rs = es.map (fun q => q.1) → k.CanGive rs →
      k.Completes (.kEdge l) s (k.finish rs (leBytes 8 (leAt d 0 8 / 2 ^ es.length * 2 ^ es.length + packBits (es.map (fun q =>
        q.2)))) s)) ∧
    (s.AtKernel l 0x35 r k → 1 ≤ k.n → k.n ≤ 64 → k.m ≤ 1 → k.items k.a k.n [tBOOL] s = .ok xs →
      k.items k.b k.n [tBOOL] s = .ok ys → k.data (8) s = .ok d →
      es = ((xs.zip ys).zip (List.range k.n)).map (fun q => latchElement (policyOf k.qpol true (xs ++ ys)) k.m (bit (leAt d 0 8)
        q.2) q.1.1 q.1.2) → rs = es.map (fun q => q.1) → k.CanGive rs →
      k.Completes (.kLatch l) s (k.finish rs (leBytes 8 (leAt d 0 8 / 2 ^ es.length * 2 ^ es.length + packBits (es.map (fun q =>
        q.2)))) s)) ∧
    (s.AtKernel l 0x36 r k → 1 ≤ k.m → k.m ≤ k.n → 1 ≤ k.n → k.n ≤ 64 → k.items k.a k.n [tBOOL] s = .ok xs →
      rs = [if policyOf k.qpol false xs = .block then blocked tBOOL else resultOf xs tBOOL (b2n (decide (k.m ≤ ((xs.map (fun q =>
        q.v != 0)).filter id).length))) 0] → k.CanGive rs → k.Completes (.kVote l) s (k.results rs s)) ∧
    (s.AtKernel l 0x37 r k → 1 ≤ k.n → k.n ≤ 32 → k.items k.a k.n [tBOOL] s = .ok xs →
      rs = [if policyOf k.qpol false xs = .block then blocked tBITS else resultOf xs tBITS (packBits (xs.map (fun q => q.v != 0)))
        0] → k.CanGive rs → k.Completes (.kPack l) s (k.results rs s)) ∧
    (s.AtKernel l 0x38 r k → 1 ≤ k.n → k.n ≤ 64 → k.items k.a k.n [tBOOL] s = .ok xs → k.data (16 * k.n) s = .ok d →
      z = eachElement 16 (timerElement (policyOf k.qpol true xs) 0x38 k.param (k.tick s)) xs d → k.CanGive z.1 →
      k.Completes (.kTon l) s (k.finish z.1 z.2 s)) ∧
    (s.AtKernel l 0x39 r k → 1 ≤ k.n → k.n ≤ 64 → k.items k.a k.n [tBOOL] s = .ok xs → k.data (16 * k.n) s = .ok d →
      z = eachElement 16 (timerElement (policyOf k.qpol true xs) 0x39 k.param (k.tick s)) xs d → k.CanGive z.1 →
      k.Completes (.kTof l) s (k.finish z.1 z.2 s)) ∧
    (s.AtKernel l 0x3A r k → 1 ≤ k.n → k.n ≤ 64 → k.items k.a k.n [tBOOL] s = .ok xs → k.data (16 * k.n) s = .ok d →
      z = eachElement 16 (timerElement (policyOf k.qpol true xs) 0x3A k.param (k.tick s)) xs d → k.CanGive z.1 →
      k.Completes (.kTpls l) s (k.finish z.1 z.2 s)) ∧
    (s.AtKernel l 0x3B r k → k.param < 16384 → k.items k.a 1 [tUINT] s = .ok [x] → mVi (s.timer k.param).bytes = r.vi →
      a = { made := 0, due := 0, arm := true, timer := k.param, delay := x.v, gen := r.gen, who := l, inst := k.armInst s } →
      exec (.kTarm l) s = .next (advance l 8 (if policyOf k.qpol false [x] = .block then s else (k.note x.units.flatten
        s).queueArm a))) ∧
    (s.AtKernel l 0x3C r k → k.param < 16384 → mVi (s.timer k.param).bytes = r.vi →
      exec (.kTcan l) s = .next (advance l 6 ((k.note [] s).queueArm
        { made := 0, due := 0, arm := false, timer := k.param, delay := 0, gen := r.gen, who := l, setup := none }))) ∧
    (s.AtKernel l 0x3D r k → k.param < 32768 → k.unit k.a 0 s = .ok d → u = ((k.force 4 k.param 0 s).map forcedUnit).getD ((canonUnits 0 [d]).headD d) →
      exec (.kPost l) s = .next (s.setRun l
        { r with staged := r.staged ++ [(r.inv, k.param, u)], inv := r.inv + 1, next := r.next + 6 })) ∧
    (s.AtKernel l 0x3E r k → 1 ≤ k.n → k.n ≤ 64 → k.param ≤ 2111 → k.itemsFrom k.a s k.n 0 = .ok xs →
      items = (xs.zip (List.range xs.length)).map (fun q => ((k.force 2 k.param q.2 s).map forcedPub).getD q.1.canon.pub) →
      u = (xs.zip (List.range xs.length)).flatMap (fun q => ((k.force 2 k.param q.2 s).map forcedUnit).getD q.1.canon.units.flatten) →
      exec (.kPub l) s = .next (advance l (12 + 2 * k.n) ((k.note u s).askPub
        { lane := l, cb := k.param, items := items, vi := r.vi, gen := r.gen, ready := r.ready, tick := r.tick }))) ∧
    (s.AtKernel l 0x3F r k → k.param % 16 ≤ 11 → k.items k.a 1 [tBOOL] s = .ok [x] →
      exec (.kTrip l) s = .next (advance l 8 (tripRequest (k.param % 16) (((k.force 3 0 (k.param % 16) s).map (fun f => bit (leAt
        (frValue f) 0 1) 0)).getD (x.v != 0 && !x.ab && vRank x.q != 2)) (k.note x.units.flatten s))))

/-- R237, R241, R253. An error of a kernel's body with cause c is a lane fault of that cause, whichever kernel it is: the run stops in the
same cycle, nothing of it remains staged, and no byte of the map changes but the lane's fault record. An invocation within a skip costs
its cycles and has no other effect. Stated for the frame that all kernels share, and for K_ADD, K_DFT, K_DIFF and K_AND as commands. -/
def Obligations.KernelFaultsAndSkips : Prop :=
  ∀ (l : Fin 256) (r : Run) (k : Inv) (c code : Nat) (body : Inv → State → Except Nat State) (s : State),
    (s.AtKernel l code r k → body k s = .error c → invoke l code body s = laneFault l c s) ∧
    (s.AtKernel l 0x09 r k → arithBody f32.add (· + ·) k s = .error c → exec (.kAdd l) s = .next (laneFault l c s)) ∧
    (s.AtKernel l 0x10 r k → dftBody false k s = .error c → exec (.kDft l) s = .next (laneFault l c s)) ∧
    (s.AtKernel l 0x20 r k → diffBody k s = .error c → exec (.kDiff l) s = .next (laneFault l c s)) ∧
    (s.AtKernel l 0x30 r k → gateBody 2 64 tBOOL (fun x => b2n (x.all id)) k s = .error c →
      exec (.kAnd l) s = .next (laneFault l c s)) ∧
    (s.laneRun l = some r → (laneFault l c s).laneRun l = some { r with stopped := true, staged := [] } ∧
      (∀ a, a < addrLane l + 0xFF00 ∨ addrLane l + 0xFF1C ≤ a → (laneFault l c s).memByte a = s.memByte a)) ∧
    (s.laneRun l = some r → k = s.old.invocation l r → s.fetchFault l r = none → k.code = code → r.ended = false →
      r.stopped = false → 0 < r.skip → r.next + kernelCycles code k.n ≤ s.cyc + 1 →
      r.next + kernelCycles code k.n ≤ r.start + r.cost → invoke l code body s =
        s.setRun l { r with skip := r.skip - 1, inv := r.inv + 1, next := r.next + kernelCycles code k.n })

/-- R239–R241, R251, R253: results that are written stand in the units they fill, unless the unit is of the lane's reserved part or a higher
lane wrote it in the same cycle; every byte of the map outside those units is as it was, and no other part of the state changes but the
marks of lost words, which a rewrite corrects, and the note of who wrote what in this cycle. -/
def Obligations.KernelResultsFrame : Prop :=
  ∀ (k : Inv) (ref : Nat) (us : List (List Byte)) (s t : State), k.write ref us s = .ok t →
    (∀ i a, i < us.length → k.unitAddr ref i true = .ok a → k.reserved a = false →
      (s.ln.wroteAt = s.cyc → ∀ x ∈ s.ln.wrote, x.1 = a → x.2 ≤ k.l) → t.load a 8 = slice (us.getD i []) 0 8) ∧
    (∀ a, (∀ i x, i < us.length → k.unitAddr ref i true = .ok x → a < x ∨ x + 8 ≤ a) → t.memByte a = s.memByte a) ∧
    t = { s with mem := t.mem, ic := { s.ic with badWords := t.ic.badWords },
                 ln := { s.ln with wrote := t.ln.wrote, wroteAt := t.ln.wroteAt } }

/-- R246–R248, R255: INT and UINT results saturate, an ABSENT input gives an ABSENT result with V 0 of the same type, validities take the
worst and the other quality bits the OR; AND, OR and XOR of BOOLs; the items of a result lie one after another from OUT. -/
def Obligations.ArithmeticAndGateResults : Prop :=
  (∀ (op : Int → Int → Int) (fl : Nat → Nat → Nat) (a b : Item), a.t = tINT → a.ab = false → b.ab = false →
    arith fl op a b = { t := tINT, v := toBits 32 (clampI (-2147483648) 2147483647 (op (sext 32 a.v) (sext 32 b.v))), q := joinQ [a, b] }) ∧
  (∀ (op : Int → Int → Int) (fl : Nat → Nat → Nat) (a b : Item), a.t = tUINT → a.ab = false → b.ab = false →
    arith fl op a b = { t := tUINT, v := (clampI 0 4294967295 (op a.v b.v)).toNat, q := joinQ [a, b] }) ∧
  (∀ (op : Int → Int → Int) (fl : Nat → Nat → Nat) (a b : Item), a.t = tINT → (a.ab = true ∨ b.ab = true) →
    arith fl op a b = { t := tINT, v := 0, q := qInvalid (joinQ [a, b]), ab := true }) ∧
  (∀ (k : Inv) (xs : List Item) (s : State), 2 ≤ k.n → k.n ≤ 64 → k.items k.a k.n [tBOOL] s = .ok xs → k.qpol = 0 →
    (∀ x ∈ xs, x.ab = false) →
    gateBody 2 64 tBOOL (fun l => b2n (l.all id)) k s =
      k.results [{ t := tBOOL, v := b2n (xs.all (fun x => x.v != 0)), q := joinQ xs }] s ∧
    gateBody 2 64 tBOOL (fun l => b2n (l.any id)) k s =
      k.results [{ t := tBOOL, v := b2n (xs.any (fun x => x.v != 0)), q := joinQ xs }] s ∧
    gateBody 2 64 tBOOL (fun l => (l.filter id).length % 2) k s =
      k.results [{ t := tBOOL, v := (xs.filter (fun x => x.v != 0)).length % 2, q := joinQ xs }] s) ∧
  (∀ l : List Item, joinQ l % 4 = (if l.any (fun x => x.q % 4 = 1 ∨ x.q % 4 = 2) then 1 else if l.any (fun x => x.q % 4 = 3) then 3 else 0))

/-! ### Publication (10_publication_trip.md), the logic engine (12_logic_engine.md) -/

/-- R265, R268–R270, R272, R276, R277, with domain 6 running. BUILD_START: the oldest request of a kind takes the free pipeline of that kind
with the lowest number, and its frame is built 179 cycles on where it is not signed (R270). PUB_ENTRY: a built frame enters at its entry
cycle; SV_REL_ENTRY: a held one in its release cycle (R269). GOOSE_RETRANSMISSION: a block whose retransmission instant has passed is noted,
and after the cycle's requests, none of which has cancelled it (R268), it counts its sqNum on and hands its items over again with the next
interval (R265); with the engine disabled it is discarded and only its schedule runs on (log entry 52). TRIP_MIN_ON_EXPIRY: a deferred clear takes effect MIN_ON_MS after the set, and the pad follows 48 cycles later (R277).
TRIP_REFRESH_EXPIRY: a stage without a request for more than REFRESH_TK ticks is cleared and counted (R277). -/
def Obligations.PublicationEvents : Prop :=
  (∀ (fg : Bool) (j : Build) (rest : List Build) (p : Nat) (s u : State), s.runs 6 = true →
    (if fg then s.pb.fg else s.pb.bg) = j :: rest → (s.pipesOf fg).find? (fun p => !s.pipeBusy p s.cyc) = some p →
    j.hand < s.cyc → u = { s with pb := if fg then { s.pb with fg := rest } else { s.pb with bg := rest } } →
    Answers (exec (.buildStart fg) s) (fun t => t = buildFrame p j u ∧
      (cbValid (s.cb j.cb).bytes = true → s.badSpan (cbTpl (s.cb j.cb).bytes) (cbTplLen (s.cb j.cb).bytes) = false →
        cbAuth (s.cb j.cb).bytes = 0 → ∃ x, t.pb.built = s.pb.built ++ [x] ∧ x.pipe = p ∧ x.cb = j.cb ∧ x.start = s.cyc ∧
          x.done = s.cyc + 179 ∧ x.sq = j.sq ∧ t.pb.busyTo = aput s.pb.busyTo p (s.cyc + 179)))) ∧
  (∀ (pipe : Fin 6) (x : Built) (s : State), s.runs 6 = true →
    s.pb.built.find? (fun x => x.pipe == pipe.val && !x.held && decide (x.entry ≤ s.cyc)) = some x →
    exec (.pubEntry pipe) s = .next (enterFrame x s)) ∧
  (∀ (k : Fin 64) (x : Built) (s : State), s.runs 6 = true →
    s.pb.built.find? (fun x => x.cb == 2048 + k.val && x.held && decide (x.entry ≤ s.cyc)) = some x →
    exec (.svRelEntry k) s = .next (enterFrame x s)) ∧
  (∀ (x : Built) (s u : State), u = { s with pb := { s.pb with
      built := s.pb.built.erase x, cbs := aput s.pb.cbs x.cb { s.cb x.cb with lastSq := x.sq } } } →
    (x.keyBad = true → enterFrame x s = u) ∧
    (x.keyBad = false → s.gate = false → enterFrame x s = (u.inc (cbCnt PB_ST2_GATED x.cb)).inc PB_G_GATED_ALL) ∧
    (x.keyBad = false → s.gate = true → s.tokens x.vi < 0 → enterFrame x s =
      ((u.inc (PB_VI_TB_DROP.i x.vi)).inc (VI_CNT1_TB_DROP.p x.vi)).pbEvent PB_EVENT_TOKEN)) ∧
  (∀ (cb : Fin 2048) (a us : Nat) (items : List PubItem) (s u : State), s.runs 6 = true → s.on PB_CTRL_EN = true →
    cbValid (s.cb cb).bytes = true → (s.cb cb).at' = some a → (s.cb cb).items = some items → a < s.now →
    us = retxUs (s.cb cb).bytes ((s.cb cb).nth + 1) →
    u = (s.notePub cb).setCb cb { s.cb cb with
        sq := ((s.cb cb).sq + 1) % 2 ^ 32, nth := (s.cb cb).nth + 1, at' := some (a + us * (1000 * 2 ^ 40)) } →
    (s.pb.retx = [] → exec (.gooseRetransmission cb) s = .next { s with pb := { s.pb with retx := [cb.val] } }) ∧
    Answers (exec (.gooseRetransmission cb) s) (fun t => cb.val ∈ t.pb.retx ∧ t = { s with pb := { s.pb with retx := t.pb.retx } }) ∧
    retransmit cb s = u.handOver {
      cb := cb, fg := false, hand := u.cyc, vi := cbVi (s.cb cb).bytes, gen := u.gen (cbVi (s.cb cb).bytes), items := items
      st := (s.cb cb).st, sq := ((s.cb cb).sq + 1) % 2 ^ 32, t := (s.cb cb).t, tal := talMs us, tickCy := u.tickStartCy }) ∧
  (∀ (cb : Fin 2048) (a : Nat) (items : List PubItem) (s : State), s.on PB_CTRL_EN = false → cbValid (s.cb cb).bytes = true →
    (s.cb cb).at' = some a → (s.cb cb).items = some items → a < s.now →
    retransmit cb s = s.setCb cb { s.cb cb with
      nth := (s.cb cb).nth + 1, at' := some (a + retxUs (s.cb cb).bytes ((s.cb cb).nth + 1) * (1000 * 2 ^ 40)) }) ∧
  (∀ (k : Fin 12) (s : State), s.runs 6 = true → (s.trip k).clearDue = true →
    (s.trip k).setAt + s.rd (PB_TRIP_MIN_ON_MS.i k) * (1000000 * 2 ^ 40) ≤ s.clk.lapse → s.on (PB_TRIP_CMD.i k) = true →
    Answers (exec (.tripMinOnExpiry k) s) (fun t =>
      t.on (PB_TRIP_CMD.i k) = false ∧ (t.trip k).clearDue = false ∧
      t.du.cmds = s.du.cmds ++ [(s.cyc + 48, k.val, false)] ∧ RegsKept [(PB_TRIP_CMD.i k).addr] s t ∧
      t = { s with regs := t.regs, pb := t.pb, du := t.du, tg := t.tg, free := t.free })) ∧
  (∀ (k : Fin 12) (s : State), s.runs 6 = true → s.rd (PB_TRIP_REFRESH_TK.i k) ≠ 0 → (s.trip k).watch = true →
    (s.trip k).last + s.rd (PB_TRIP_REFRESH_TK.i k) < s.clk.raised →
    Answers (exec (.tripRefreshExpiry k) s) (fun t =>
      t.on (PB_TRIP_CMD.i k) = false ∧ (t.trip k).watch = false ∧ (t.trip k).clearDue = false ∧ t.on PB_EVENT_STALE = true ∧
      t.rd (PB_TRIP_TRIP_STALE.i k) = min (s.rd (PB_TRIP_TRIP_STALE.i k) + 1) (2 ^ PB_TRIP_TRIP_STALE.width - 1) ∧
      (s.on (PB_TRIP_CMD.i k) = true → t.du.cmds = s.du.cmds ++ [(s.cyc + 48, k.val, false)]) ∧
      t.mem = s.mem ∧ t.nvm = s.nvm))

/-- R261, R280, for one who may write, domain 6 powered: PB_CB_READ loads a control block into the data registers; PB_CB_WRITE of a block that
is not valid, or that changes only what a valid one may change, waits for the next tick start, and another WRITE is discarded with the
event; PB_CB_INVALIDATE waits for the next tick start; PB_ST_LATCH latches a block's state and counters and clears the counters but for
this cycle's events (R11). -/
def Obligations.PublicationRegisterCommands : Prop :=
  ∀ (req : Requester) (n : Nat) (s : State), s.Writer req → s.dom 6 = 1 → n = min 2111 (s.rd PB_CB_IDX_IDX) →
    (exec (.pbCbRead req) s = .next ((loadData 0x600040 16 (s.cb n).bytes s).wrote req 0x600014 1)) ∧
    (∀ b, b = cbStored (s.dataBytes 0x600040 16) →
      (cbValid (s.cb n).bytes = false ∨ cbFixed (s.cb n).bytes = cbFixed b → Answers (exec (.pbCbWrite req) s) (fun t =>
        t.cb n = { s.cb n with next := some b } ∧ (∀ k, k ≠ n → t.cb k = s.cb k) ∧
        RegsKept [] s t ∧ t = { s.withAccess t with pb := t.pb })) ∧
      (cbValid (s.cb n).bytes = true → cbFixed (s.cb n).bytes ≠ cbFixed b → Answers (exec (.pbCbWrite req) s) (fun t =>
        t.on PB_EVENT_REFUSED = true ∧ RegsKept [PB_EVENT_REFUSED.addr, 0x30010] s t ∧ t = s.withAccess t))) ∧
    (Answers (exec (.pbCbInvalidate req) s) (fun t =>
      (t.cb n).bytes = (s.cb n).bytes ∧ (t.cb n).next = some (splice ((s.cb n).next.getD (s.cb n).bytes) 0
        (leBytes 2 (setBits (leAt ((s.cb n).next.getD (s.cb n).bytes) 0 2) 15 15 0))) ∧ (∀ k, k ≠ n → t.cb k = s.cb k) ∧
      RegsKept [] s t ∧ t = { s.withAccess t with pb := t.pb })) ∧
    (∀ (v : Word) (c : Cb) (a : Nat), c = s.start.cb (min 2111 (v.toNat % 4096)) → a = 0x3500000 + min 2111 (v.toNat % 4096) * 0x10 →
      Answers (exec (.pbStLatch req v) s) (fun t =>
        t.word 0x600090 = (if cbSv c.bytes then c.lastSmp else c.st) % 2 ^ 32 ∧
        t.word 0x600094 = (if cbSv c.bytes then 0 else c.lastSq) % 2 ^ 32 ∧
        t.word 0x600098 = s.word0 (a + 8) ∧ t.word 0x60009C = s.word0 (a + 12) ∧
        t.word (a + 8) = s.evWord (a + 8) ∧ t.word (a + 12) = s.evWord (a + 12) ∧ t = s.withAccess t))

/-- R293, R294, R301, R305, R309–R312, R470. For one who may write, domain 6 powered: LG_PRG_READ loads a program; LG_PRG_WRITE installs one that
is not running, and LG_PRG_INVALIDATE removes an installed one and lets an active one leave with the next tick start; either is refused with
the event otherwise (R294). LG_FRC_READ loads a force entry; SET makes a free entry PENDING at a point of a running program, and CLEAR frees
a PENDING entry and makes an ACTIVE one CLEARING (R305), on a module that is not standby (R470). EXCHANGE that no rule refuses is pending
(R309), and one refused shows its cause with the event; LG_XCH_CANCEL ends it (R311); LG_ST_LATCH latches a program's status and clears its
counters but for this cycle's events. With the engine running: CYCLE_END_SAVE takes the next save (R301), EXCHANGE_COPY copies once OLD has
ended its cycle and rests (R310), and EXCHANGE_BOUNDARY issues the task writes in the cycle before the boundary, or repeats the copy where
OLD has run since (R311). -/
def Obligations.LogicCommands : Prop :=
  (∀ (req : Requester) (p : Nat) (x : Prg) (s : State), s.Writer req → s.dom 6 = 1 → p = s.rd LG_PRG_IDX_IDX → x = s.prg p →
    (exec (.lgPrgRead req) s = .next ((loadData 0x800040 16 x.bytes s).wrote req 0x800014 1)) ∧
    (pgState x.bytes ≤ 1 → Answers (exec (.lgPrgWrite req) s) (fun t =>
      t.prg p = { x with bytes := withPgState (prgStored (s.dataBytes 0x800040 16)) 1 } ∧ pgState (t.prg p).bytes = 1 ∧
      (∀ q, q ≠ p → t.prg q = s.prg q) ∧ RegsKept [LG_STATUS_ACTIVE_N.addr] s t ∧ t = { s.withAccess t with lg := t.lg })) ∧
    (2 ≤ pgState x.bytes → Answers (exec (.lgPrgWrite req) s) (fun t => t.on LG_EVENT_REFUSED = true ∧ t = s.withAccess t)) ∧
    (pgState x.bytes = 1 → Answers (exec (.lgPrgInvalidate req) s) (fun t =>
      t.prg p = {} ∧ (∀ q, q ≠ p → t.prg q = s.prg q) ∧
      RegsKept [LG_STATUS_ACTIVE_N.addr] s t ∧ t = { s.withAccess t with lg := t.lg })) ∧
    (pgState x.bytes = 2 → exec (.lgPrgInvalidate req) s =
      .next (((s.putTasks (pgTasks x.bytes) false).setPrg p { x with leave := true }).wrote req 0x800014 3)) ∧
    (pgState x.bytes = 0 ∨ pgState x.bytes = 3 → Answers (exec (.lgPrgInvalidate req) s) (fun t =>
      t.on LG_EVENT_REFUSED = true ∧ t = s.withAccess t))) ∧
  (∀ (req : Requester) (e : Nat) (d : List Byte) (s : State), s.Writer req → s.dom 6 = 1 → s.standby = false →
    e = s.rd LG_FRC_IDX_IDX % 64 → d = s.dataBytes 0x800080 8 →
    (exec (.lgFrcRead req) s = .next ((loadData 0x800080 8 (s.frc e).bytes s).wrote req 0x800024 1)) ∧
    (∀ pt, s.setRefused e (frPrg d) (frHash d) = false → frState (s.frc e).bytes = 0 →
      s.pointOf (s.prg (frPrg d)).bytes (frHash d) = some pt → Answers (exec (.frcSet req) s) (fun t =>
        t.frc e = { bytes := forceEntry 1 (frPrg d) pt (frHash d) (frValue d) (frQual d), pend := none } ∧
        (∀ x, x ≠ e → t.frc x = s.frc x))) ∧
    (s.setRefused e (frPrg d) (frHash d) = false → frState (s.frc e).bytes = 2 → Answers (exec (.frcSet req) s) (fun t =>
      t.frc e = { s.frc e with pend := some (frValue d ++ leBytes 2 (setBits (frQual d) 10 10 1)) } ∧
      (∀ x, x ≠ e → t.frc x = s.frc x))) ∧
    (s.setRefused e (frPrg d) (frHash d) = true → Answers (exec (.frcSet req) s) (fun t =>
      t.on LG_EVENT_REFUSED = true ∧ t = s.withAccess t)) ∧
    (frState (s.frc e).bytes = 2 → Answers (exec (.frcClear req) s) (fun t =>
      t.frc e = { s.frc e with bytes := withFrState (s.frc e).bytes 3 } ∧ (∀ x, x ≠ e → t.frc x = s.frc x))) ∧
    (frState (s.frc e).bytes = 1 → Answers (exec (.frcClear req) s) (fun t =>
      t.frc e = {} ∧ (∀ x, x ≠ e → t.frc x = s.frc x)))) ∧
  (∀ (req : Requester) (s : State), s.Writer req → s.dom 6 = 1 →
    (∀ (v : Word) (o n : Nat), o = v.toNat % 256 → n = bits v.toNat 23 16 →
      (s.xchCause o n = 0 → Answers (exec (.exchange req v) s) (fun t =>
        t.lg.xch = some { old := o, new := n } ∧ t.prg o = { s.prg o with bytes := withPgState (s.prg o).bytes 3 } ∧
        (∀ q, q ≠ o → t.prg q = s.prg q) ∧ t.rd LG_XCH_PEND = 1 ∧ t.rd LG_XCH_OLD = o ∧ t.rd LG_XCH_NEW = n ∧
        RegsKept [0x800018, LG_STATUS_ACTIVE_N.addr] s t ∧ t = { s.withAccess t with lg := t.lg })) ∧
      (s.xchCause o n ≠ 0 → Answers (exec (.exchange req v) s) (fun t =>
        t.rd LG_XCH_CAUSE = s.xchCause o n ∧ t.on LG_EVENT_XCH_REFUSED = true ∧ t = s.withAccess t))) ∧
    (∀ y : Xch, s.lg.xch = some y → Answers (exec (.lgXchCancel req) s) (fun t =>
      t.lg.xch = none ∧ t.prg y.old = { s.prg y.old with bytes := withPgState (s.prg y.old).bytes 2 } ∧
      t.rd LG_XCH_PEND = 0 ∧ t.rd LG_XCH_CAUSE = 6 ∧ (y.issued = false → t.ds = s.ds) ∧
      (y.issued = true → ∀ k x, k ∈ pgTasks (s.prg y.old).bytes ++ pgTasks (s.prg y.new).bytes → aget t.ds.tasks k = some x →
        x.next = none) ∧
      RegsKept [0x800018, LG_STATUS_ACTIVE_N.addr] s t ∧ t = { s.withAccess t with lg := t.lg, ds := t.ds })) ∧
    (∀ (v : Word) (x : Prg) (a : Nat), x = s.start.prg (v.toNat % 256) → a = 0x3600000 + v.toNat % 256 * 0x10 →
      Answers (exec (.lgStLatch req v) s) (fun t =>
        t.word 0x8000A0 = x.seq % 2 ^ 32 ∧
        t.word 0x8000A4 = (pgState x.bytes * 2 ^ 30 + x.kind * 2 ^ 28 + s.word0 (a + 4) % 2 ^ 17) % 2 ^ 32 ∧
        t.word 0x8000A8 = s.word0 (a + 8) ∧ t.word 0x8000AC = s.word0 (a + 12) ∧
        t.word (a + 8) = s.evWord (a + 8) ∧ t.word (a + 12) = s.evWord (a + 12) ∧ t = s.withAccess t))) ∧
  (∀ (x : SaveReq) (rest : List SaveReq) (s : State), s.runs 6 = true → s.on LG_CTRL_EN = true → s.lg.run = none →
    s.lg.saves = x :: rest → s.copying = false → s.endsBefore x = false → s.copyBefore x = false →
    exec .cycleEndSave s = .next (saveData (s.saveRun x) { s with lg := { s.lg with saves := rest, run := some (s.saveRun x) } }) ∧
    (s.saveRun x).mid = s.cyc + 24 + 2 * pgRetUnits (s.prg x.prg).bytes) ∧
  (∀ (y : Xch) (s t : State) (kept len : Nat), s.runs 6 = true → s.on LG_CTRL_EN = true → s.lg.xch = some y → s.oldRests y = true →
    y.copy = none → s.lg.run = none → s.savesAhead y = false → copyExchange y s = (kept, t) →
    len = 64 + pgSlotN (s.prg y.old).bytes + 2 * (pgTaskN (s.prg y.old).bytes + pgTaskN (s.prg y.new).bytes) + ceilDiv kept 16 →
    exec .exchangeCopy s =
      .next { t with lg := { t.lg with xch := some { y with copy := some (s.cyc, s.cyc + len - 1), dirty := false } } }) ∧
  (∀ (y : Xch) (c : Nat × Nat) (s t : State), s.runs 6 = true → s.on LG_CTRL_EN = true → s.lg.xch = some y → y.copy = some c →
    c.2 < s.cyc → y.issued = false → s.tickNext = true → s.isBoundary (s.prg y.old).bytes s.dueTick = true →
    t = (s.putTasks (pgTasks (s.prg y.old).bytes) false).putTasks (pgTasks (s.prg y.new).bytes) true →
    (y.dirty = true → exec .exchangeBoundary s =
      .next { s with lg := { s.lg with xch := some { y with copy := none, dirty := false, since := none } } }) ∧
    (y.dirty = false → exec .exchangeBoundary s = .next { t with lg := { t.lg with xch := some { y with issued := true } } }))

/-! ### Drive unit and sense inputs (13_drive_unit.md) -/

/-- R315–R320, R322, R323, with domain 13 running. PWM_ZERO_EVENT: at the zero event of an enabled pair the shadows in force load and the next
period begins, of max(64, dithered PER) counts in the PWM and COIL modes, or up to the next zero event of the triad in the GRID mode; its
duty after the short-pulse check turns a pad on, and the first zero event after a coil's peak begins its hold (R323). Armed values load
whole. PWM_CMPA_EVENT hands the edge to DU_L; PWM_CMPB_EVENT and PWM_PERIOD_EVENT raise their events. SWN_SWING: the expected swing within
DT_MAX sets the end of an adaptive dead time, not before DT_MIN; DT_TIMEOUT: without it DT_MAX ends the dead time and counts (R318). -/
def Obligations.PwmEvents : Prop :=
  (∀ (k : Fin 12) (z per duty d : Nat) (p : DuPair) (s u v : State), s.runs 13 = true → s.padPairOn k = true →
    (s.duPair k).nextZ = some z → z ≤ s.cyc * 8 → u = loadShadows k (releaseCycle k s) →
    p = (if (u.duPair k).phase = 2 then { u.duPair k with phase := 3, k := 0 } else u.duPair k) →
    (u.rd (DU_P_MODE.i k) ≠ 1 → per = max 64 (dithered (u.rd (DU_P_PER_ACT.i k)) p.k) →
      duty = min per (dithered (u.rd (DU_P_DUTY_ACT.i k)) p.k) →
      (d, v) = (if p.phase = 1 then (per, u) else shortCheck k (per * 16) duty u) →
      exec (.pwmZeroEvent k) s = .next (pwmEvent k 0 (pwmEdge k (decide (0 < d)) (v.setDuPair k { p with
        zero := some z, nextZ := some (z + per * 16), len := per * 16, duty := d, cmpa := false, cmpb := false, last := false
        k := (p.k + 1) % 16, gridI := p.gridI + 1 })))) ∧
    (u.rd (DU_P_MODE.i k) = 1 → per = u.gridZero k (p.gridI + 1) - u.gridZero k p.gridI →
      duty = min (ceilDiv per 16) (dithered (u.rd (DU_P_DUTY_ACT.i k)) p.k) →
      (d, v) = (if p.phase = 1 then (ceilDiv per 16, u) else shortCheck k per duty u) →
      exec (.pwmZeroEvent k) s = .next (pwmEvent k 0 (pwmEdge k (decide (0 < d)) (v.setDuPair k { p with
        zero := some z, nextZ := v.gridNext k p (p.gridI + 1), len := per, duty := d, cmpa := false, cmpb := false, last := false
        k := (p.k + 1) % 16, gridI := p.gridI + 1 }))))) ∧
  (∀ (k : Fin 12) (per duty c : Nat) (s : State), s.on (DU_P_LOAD.i k) = false → (s.duPair k).armed = some (per, duty, c) →
    c < s.cyc → (loadShadows k s).rd (DU_P_PER_ACT.i k) = per % 2 ^ 24 ∧ (loadShadows k s).rd (DU_P_DUTY_ACT.i k) = duty % 2 ^ 24 ∧
      (loadShadows k s).duPair k = { s.duPair k with armed := none, k := 0 }) ∧
  (∀ (k : Fin 12) (s : State), s.runs 13 = true → (s.duPair k).cmpa = false → (s.duPair k).duty * 16 < (s.duPair k).len →
    s.atCount k (s.duPair k).duty = true → Answers (exec (.pwmCmpaEvent k) s) (fun t =>
      (∃ u, u = s.setDuPair k { s.duPair k with cmpa := true } ∧
        t = pwmEvent k 1 (if (s.duPair k).phase = 1 ∨ (s.duPair k).phase = 2 then u else pwmEdge k false u)) ∧
      ((s.duPair k).phase = 0 → (s.duPair k).l = false → (t.duPair k).h = false ∧ (t.duPair k).l = true) ∧
      t.mem = s.mem ∧ t.nvm = s.nvm ∧ t.pb = s.pb ∧ t.ds = s.ds)) ∧
  (∀ (k : Fin 12) (s : State), s.runs 13 = true → (s.duPair k).cmpb = false →
    s.rd (DU_P_CMPB.i k) * 16 < (s.duPair k).len → s.atCount k (s.rd (DU_P_CMPB.i k)) = true →
    exec (.pwmCmpbEvent k) s = .next (pwmEvent k 2 (s.setDuPair k { s.duPair k with cmpb := true }))) ∧
  (∀ (k : Fin 12) (s : State), s.runs 13 = true → (s.duPair k).last = false →
    s.lastCount k = true → exec (.pwmPeriodEvent k) s = .next (pwmEvent k 3 (s.setDuPair k { s.duPair k with last := true }))) ∧
  (∀ (k : Fin 12) (h : Bool) (off : Nat) (s : State), s.runs 13 = true → (s.duPair k).turn = some (h, off, none) →
    (s.cyc ≤ off + 2 * s.dtMax k → ∃ dt, dt = max (s.rd (DU_P_DT_MIN.i k)) (ceilDiv (s.cyc - off) 2) ∧
      exec (.swnSwing k h) s = .next (s.setDuPair k { s.duPair k with turn := some (h, off, some (off + 2 * dt)) })) ∧
    exec (.swnSwing k (!h)) s = .next s ∧
    (off + 2 * s.dtMax k ≤ s.cyc → Answers (exec (.dtTimeout k) s) (fun t =>
      (t.duPair k).turn = none ∧ t.rd (if h then DU_P_DT_H.i k else DU_P_DT_L.i k) = s.dtMax k ∧
      t.rd (DU_P_DT_TIMEOUT.i k) = min (s.rd (DU_P_DT_TIMEOUT.i k) + 1) 255 ∧ t.on DU_EVENT_DT_TIMEOUT = true ∧
      (∀ j, j ≠ k.val → t.duPair j = s.duPair j) ∧
      RegsKept [(DU_P_DT_H.i k).addr, (DU_P_DT_TIMEOUT.i k).addr, DU_EVENT_DT_TIMEOUT.addr, 0x30010] s t ∧
      t = { s.withEvents t with du := t.du })))

/-- R323–R326, with domain 13 running. COIL_PEAK_END: at the end of the peak phase both pads of a COIL pair turn off until the next zero event
(R323). FAULT_RECOGNISED: an enabled fault input whose active level has held for FILT + 1 cycles and that is not blanked is recognised,
counted, latched where ACTION says so, and ten cycles later holds the pads of every enabled pair that names it off; the inactive level ends
its recognition (R324). SENSE_EDGE: an edge of an enabled input is stamped within 2 ns and delivered 32 cycles later (R325); delivered, it
shows in RAW and is queued with its stamp or counted as lost. SENSE_ACCEPT: the change is accepted once the debounce time has passed (R326). -/
def Obligations.CoilFaultAndSense : Prop :=
  (∀ (k : Fin 12) (s : State), s.runs 13 = true → (s.duPair k).phase = 1 → (s.duPair k).peakTo ≤ s.clk.lapse →
    Answers (exec (.coilPeakEnd k) s) (fun t =>
      t.duPair k = { s.duPair k with phase := 2, h := false, l := false, turn := none } ∧
      (∀ j, j ≠ k.val → t.duPair j = s.duPair j) ∧ t.duPads k = (false, false) ∧
      RegsKept [(DU_P_PHASE.i k).addr] s t ∧ t = { s with regs := t.regs, du := t.du })) ∧
  (∀ (f : Fin 8) (level : Bool) (held : Nat) (s : State), s.runs 13 = true → s.on (DU_FLT_EN.i f) = true →
    (level ≠ s.on (DU_FLT_POL.i f) → s.on (DU_FLT_RECOG.i f) = false → s.rd (DU_FLT_FILT.i f) + 1 ≤ held → s.blanked f = false →
      Answers (exec (.faultRecognised f level held) s) (fun t =>
        t.on (DU_FLT_RECOG.i f) = true ∧ t.rd (DU_FLT_COUNT.i f) = min (s.rd (DU_FLT_COUNT.i f) + 1) 255 ∧
        t.on DU_EVENT_FAULT = true ∧ t.on (DU_FLT_LATCHED.i f) = (s.on (DU_FLT_LATCHED.i f) || s.on (DU_FLT_ACTION.i f)) ∧
        t.du = { s.du with trips := s.du.trips ++ [(s.cyc + 10, f.val)] } ∧
        t.mem = s.mem ∧ t.nvm = s.nvm ∧ t.pb = s.pb ∧ t.ds = s.ds)) ∧
    (level = s.on (DU_FLT_POL.i f) → s.on (DU_FLT_RECOG.i f) = true → 0 < held →
      exec (.faultRecognised f level held) s = .next ((s.wr (DU_FLT_RECOG.i f) 0).binOpen 7 f false false s.nowStamp))) ∧
  (∀ (f : Fin 8) (k : Fin 12) (due : Nat) (s : State), ((faultHolds due f s).duPair k).hold =
    if s.padPairOn k ∧ bit (s.rd (DU_P_FLT_MASK.i k)) f then (s.duPair k).hold ++ [(f.val, due)] else (s.duPair k).hold) ∧
  (∀ (j : Fin 16) (level : Bool) (sub : Fin 65536) (s : State), s.runs 13 = true → s.duOn = true → s.on (DU_SI_EN.i j) = true →
    Answers (exec (.senseEdge j level sub) s) (fun t => ∃ ns,
      s.stampIn s.gov sub / 65536 ≤ ns + 1 ∧ ns ≤ s.stampIn s.gov sub / 65536 + 2 ∧
      t.du.edges = s.du.edges ++ [(s.cyc + 32, j.val, level, s.gov, ns)] ∧
      (agetD t.du.sns j.val {}).cand = (if level = bit (s.rd DU_SNS_STATE_DEB) j then none
        else if (agetD s.du.sns j.val {}).cand.isSome then (agetD s.du.sns j.val {}).cand else some (level, ns)) ∧
      (∀ i, i ≠ j.val → agetD t.du.sns i {} = agetD s.du.sns i {}) ∧
      t = { s with du := { s.du with edges := t.du.edges, sns := t.du.sns }, free := t.free })) ∧
  (∀ (j : Fin 16) (level : Bool) (due tb ns : Nat) (s t : State), s.rd (DU_SI_DEB_US.i j) ≠ 0 → t = senseDeliver due j level tb ns s →
    t.rd DU_SNS_STATE_RAW = setBits (s.rd DU_SNS_STATE_RAW) j j (b2n level) ∧
    t.rd DU_SNS_STATE_DEB = s.rd DU_SNS_STATE_DEB ∧
    (s.du.stamps.length < 64 → t.du.stamps = s.du.stamps ++ [(j.val, level, tb, ns)]) ∧
    (64 ≤ s.du.stamps.length → t.du.stamps = s.du.stamps ∧ t.on DU_EVENT_SNS_LOST = true ∧
      t.rd DU_G_SNS_LOST = min (s.rd DU_G_SNS_LOST + 1) 65535) ∧
    RegsKept [DU_SNS_STATE_RAW.addr, DU_G_SNS_LOST.addr, DU_EVENT_SNS_LOST.addr, 0x30010] s t ∧
    t = { s.withEvents t with du := t.du, tg := t.tg }) ∧
  (∀ (j : Fin 16) (level : Bool) (ns : Nat) (s : State), s.runs 13 = true → s.duOn = true → s.on (DU_SI_EN.i j) = true →
    (agetD s.du.sns j.val {}).cand = some (level, ns) → s.onItsWay j ns = false →
    ns * 2 ^ 40 + s.rd (DU_SI_DEB_US.i j) * (1000 * 2 ^ 40) < s.now →
    Answers (exec (.senseAccept j) s) (fun t =>
      t = senseTake s.cyc j level s ∧ bit (t.rd DU_SNS_STATE_DEB) j = level ∧ (agetD t.du.sns j.val {}).cand = none ∧
      t.rd (DU_SI_CHANGES.i j) = min (s.rd (DU_SI_CHANGES.i j) + 1) 65535 ∧
      (s.on (DU_SI_MARK.i j) = false → t.ds = s.ds) ∧
      (s.on (DU_SI_MARK.i j) = true → t.ds.marks.length = s.ds.marks.length + 1) ∧
      RegsKept [DU_SNS_STATE_DEB.addr, (DU_SI_CHANGES.i j).addr] s t))

/-- R317, R321, R324, R327, for one who may write, domain 13 powered. DU_COMMIT arms PER and DUTY of every selected shadow pair whose duty fits;
DU_SHADOW_WRITE and DU_PAIR_CFG_WRITE are stored by their rules, a change of a running pair's fixed fields being discarded with the event,
the rest of the word taken (R321); a COIL pair enabled while CMD is TRUE begins its peak (the model's choice, log entry 104); DU_CTRL_WRITE is stored; FAULT_CLEAR releases a latched fault whose input is not recognised (R324); SNS_POP removes the oldest entry
of the stamp queue and answers its last word (R327). -/
def Obligations.DriveRegisterCommands : Prop :=
  ∀ (req : Requester) (s : State), s.Writer req → s.dom 13 = 1 →
    (∀ v : Word, exec (.duCommit req v) s = .next ((duCommitWrite v.toNat s).wrote req 0xA00008 v.toNat)) ∧
    (∀ k : Fin 12, s.on (DU_P_LOAD.i k) = false → s.rd (DU_P_DUTY.i k) ≤ s.rd (DU_P_PER.i k) →
      Answers (exec (.duCommit req (BitVec.ofNat 32 (2 ^ k.val))) s) (fun t =>
        (t.duPair k).armed = some (s.rd (DU_P_PER.i k), s.rd (DU_P_DUTY.i k), s.cyc) ∧ t.on (DU_P_ARMED.i k) = true ∧
        (∀ j, j ≠ k.val → t.duPair j = s.duPair j) ∧
        RegsKept [(DU_P_ARMED.i k).addr] s t ∧ t = { s.withAccess t with du := t.du })) ∧
    (∀ (k : Fin 12) (v : Word), Answers (exec (.duShadowWrite req k true v) s) (fun t =>
      t.rd (DU_P_DUTY.i k) = v.toNat % 2 ^ 24 ∧
      (s.on (DU_P_LOAD.i k) = true → (t.duPair k).dutyW = some (v.toNat % 2 ^ 24, s.cyc)) ∧
      (s.on (DU_P_LOAD.i k) = false → t.du = s.du) ∧ t.rd (DU_P_DUTY_ACT.i k) = s.rd (DU_P_DUTY_ACT.i k) ∧
      RegsKept [(DU_P_DUTY.i k).addr, (DU_P_ARMED.i k).addr] s t ∧ t = { s.withAccess t with du := t.du })) ∧
    (∀ (k : Fin 12) (v : Word), Answers (exec (.duShadowWrite req k false v) s) (fun t =>
      t.rd (DU_P_PER.i k) = max 0x400 (v.toNat % 2 ^ 24) ∧
      (s.on (DU_P_LOAD.i k) = true → (t.duPair k).perW = some (max 0x400 (v.toNat % 2 ^ 24), s.cyc)) ∧
      (s.on (DU_P_LOAD.i k) = false → t.du = s.du) ∧ t.rd (DU_P_PER_ACT.i k) = s.rd (DU_P_PER_ACT.i k) ∧
      RegsKept [(DU_P_PER.i k).addr, (DU_P_ARMED.i k).addr] s t ∧ t = { s.withAccess t with du := t.du })) ∧
    (∀ (k : Fin 12) (v : Word), s.on (DU_P_EN.i k) = true →
      bits v.toNat 30 29 ≠ s.rd (DU_P_MODE.i k) → bits v.toNat 30 29 ≠ 3 → bit v.toNat 31 = true →
      Answers (exec (.duPairCfgWrite req k v) s) (fun t =>
        t.on DU_EVENT_REFUSED = true ∧ t.on (DU_P_EN.i k) = true ∧ t.rd (DU_P_MODE.i k) = s.rd (DU_P_MODE.i k) ∧
        t.rd (DU_P_FLT_MASK.i k) = s.rd (DU_P_FLT_MASK.i k) ∧ t.rd (DU_P_PRESC.i k) = bits v.toNat 23 20 ∧
        RegsKept [DU_EVENT_REFUSED.addr, 0x30010, (DU_P_EN.i k).addr] s t ∧ t = s.withAccess t)) ∧
    (∀ (k : Fin 12) (v : Word) (m : Nat), m = (if bits v.toNat 30 29 = 3 then 0 else bits v.toNat 30 29) →
      s.on (DU_P_EN.i k) = false → bit v.toNat 31 = true → Answers (exec (.duPairCfgWrite req k v) s) (fun t =>
        t.on (DU_P_EN.i k) = true ∧ t.rd (DU_P_MODE.i k) = m ∧ t.rd (DU_P_FLT_MASK.i k) = v.toNat % 256 ∧
        (∀ p : DuPair, p = { (s.duPair k).rest with presc := [0, 0, 0, 0] } → t.duPair k =
          if m = 0 then { p with nextZ := some (s.cyc * 8) }
          else if m = 2 ∧ (s.duPair k).cmd = true then p.peak s.cyc (s.clk.lapse + s.rd (DU_P_PEAK_US.i k) * uUs) else p) ∧
        (∀ j, j ≠ k.val → t.duPair j = s.duPair j) ∧
        RegsKept [(DU_P_EN.i k).addr, (DU_P_ARMED.i k).addr] s t ∧ t = { s.withAccess t with du := t.du })) ∧
    (∀ (k : Fin 12) (v : Word), s.on (DU_P_EN.i k) = true → bit v.toNat 31 = false →
      Answers (exec (.duPairCfgWrite req k v) s) (fun t =>
        t.on (DU_P_EN.i k) = false ∧ t.duPair k = (s.duPair k).rest ∧ t.rd (DU_P_MODE.i k) = s.rd (DU_P_MODE.i k) ∧
        (∀ j, j ≠ k.val → t.duPair j = s.duPair j) ∧
        RegsKept [DU_EVENT_REFUSED.addr, 0x30010, (DU_P_EN.i k).addr, (DU_P_ARMED.i k).addr] s t ∧ t = { s.withAccess t with du := t.du })) ∧
    (∀ v : Word, Answers (exec (.duCtrlWrite req v) s) (fun t =>
      t.on DU_CTRL_EN = bit v.toNat 31 ∧ RegsKept [0xA00000] s t ∧ t = s.withAccess t)) ∧
    (∀ (f : Fin 8) (v : Word), s.on (DU_FLT_LATCHED.i f) = true → s.on (DU_FLT_RECOG.i f) = false →
      Answers (exec (.faultClear req f v) s) (fun t => t.on (DU_FLT_LATCHED.i f) = false ∧
        (∀ k, k < 12 → (t.duPair k).hold = (s.duPair k).hold.filter (fun x => x.1 != f.val)) ∧
        t = { s.withAccess t with du := t.du })) ∧
    (∀ (f : Fin 8) (v : Word), s.on (DU_FLT_LATCHED.i f) = true → s.on (DU_FLT_RECOG.i f) = true → bit v.toNat 31 = true →
      Answers (exec (.faultClear req f v) s) (fun t => t.on (DU_FLT_LATCHED.i f) = true ∧ t.du = s.du)) ∧
    (∀ (e : Nat × Bool × Nat × Nat) (rest : List (Nat × Bool × Nat × Nat)), s.CalServed → s.start.du.stamps = e :: rest →
      Answers (exec (.snsPop req) s) (fun t => t.du = { s.du with stamps := s.du.stamps.drop 1 } ∧ t.start.du.stamps = rest ∧
        (t.bus.map (fun c => c.data)) = some (e.2.2.2 / 1000000000 / 2 ^ 32 % 2 ^ 16) ∧
        RegsKept [] s t ∧ t = { s.withAccess t with du := t.du, arch := t.arch }))

/-! ### The Cellar (14_cellar.md) -/

/-- R328–R332, R342, R344–R347. VIN_VALID: the mux selects VIN, a wake is due and a cold entry begins, in which the Cellar's contents,
the CL_ page and PM_ID.DEVICE stay. VIN_INVALID: every domain but PD0 is dark and the outputs are off; the same things stay. PD0_POR: the
CL_ page and the Cellar's contents are at their reset values but for SUPPLY. CELLAR_WAKE: with the canary intact the contents stay and PCYC
counts, and an event that waited for PD1 is raised (R349); otherwise the contents are discarded, CANARY_LOST is set and a new canary drawn;
SUPPLY shows the selection, and the Cellar has its full function on VIN and from 1.9 V of the cell; with no wake due, a stopped Cellar has it
again once the cell is back there (the report is the model's choice, log entry 105).
VBAT_MEASURE: BAT_LOW follows 2.30 V and 2.40 V. OPS_SECOND: seconds carry into hours. TAMPER_DETECT: the root secret is zeroed, the detection
is logged and counted, and it waits in CL_EVENT while PD1 has no power. CNT_WRITE: taken upwards only, and only while CNT_LOST is set.
RET_DATA_ACCESS: the word at RET_ADDR is written or read and the address advances; an access that meets a save waits. -/
def Obligations.CellarSupplyAndContents : Prop :=
  (∀ s : State, s.elec.vin = false → Answers (exec .vinValid s) (fun t =>
    t.elec = { s.elec with vin := true } ∧ t.cl.wakeDue = true ∧ t.rd CL_STATUS_SUPPLY = 0 ∧ t.rd BT_STATUS_STATE = 0 ∧
    t.rd PM_ENTRY_TRIGGER = 0 ∧ t.rd PM_ENTRY_KIND = 0 ∧ t.rd PM_ID_DEVICE = s.rd PM_ID_DEVICE ∧ t.mem = [] ∧ t.nvm = s.nvm ∧
    t.cl.root = s.cl.root ∧ t.cl.ret = s.cl.ret ∧ t.cl.tlog = s.cl.tlog ∧ t.ev.ring = s.ev.ring ∧ t.ks.fuses = s.ks.fuses ∧
    (∀ a, a / 0x10000 = 5 → a ≠ CL_STATUS_SUPPLY.addr → t.word a = s.word a))) ∧
  (∀ s : State, s.elec.vin = true → Answers (exec .vinInvalid s) (fun t =>
    t.elec = { s.elec with vin := false, pgLost := false } ∧ t.rd CL_STATUS_SUPPLY = 1 ∧ (∀ d, 1 ≤ d → d < 16 → t.dom d = 0) ∧ OutputsOff t ∧
    t.mem = [] ∧ t.nvm = s.nvm ∧ t.rd PM_ID_DEVICE = s.rd PM_ID_DEVICE ∧ t.cl.root = s.cl.root ∧ t.cl.ret = s.cl.ret ∧
    t.cl.tlog = s.cl.tlog ∧ t.ev.ring = s.ev.ring ∧ t.ks.fuses = s.ks.fuses ∧
    (∀ a, a / 0x10000 = 5 → a ≠ CL_STATUS_SUPPLY.addr → t.word a = s.word a))) ∧
  (∀ s : State, s.rd CL_STATUS_SUPPLY ≠ 0 ∨ s.cl.runs = false → Answers (exec .pd0Por s) (fun t =>
    t.cl = {} ∧ t.rd CL_STATUS_SUPPLY = s.rd CL_STATUS_SUPPLY ∧ (∀ a, a / 0x10000 ≠ 5 → t.word a = s.word a) ∧
    (∀ a, a / 0x10000 = 5 → a ≠ CL_STATUS_SUPPLY.addr → t.word a = (regReset a).toNat) ∧ t = { s with regs := t.regs, cl := t.cl })) ∧
  (∀ (lowMv : Nat) (s : State), s.cl.wakeDue = true ∨ s.cl.por = true → canaryResult s lowMv = 1 →
    (s.cl.owed = false ∨ s.dom 1 ≠ 1 → Answers (exec (.cellarWake lowMv) s) (fun t => ∃ r, r = (s.elec.vin || decide (1900 ≤ lowMv)) ∧
      t.cl = { s.cl with por := false, wakeDue := false, stopped := !r, runs := r, vbatWait := 0 } ∧
      t.rd CL_STATUS_SUPPLY = b2n (!s.elec.vin) ∧ t.rd CL_STATUS_CANARY = 1 ∧ t.rd CL_PCYC_PCYC = min (s.rd CL_PCYC_PCYC + 1) (2 ^ 32 - 1) ∧
      (s.cl.stopped = true ∨ lowMv < 1900 → t.rd CL_STATUS_CAL_VALID = 0) ∧
      (s.cl.stopped = false → 1900 ≤ lowMv → t.rd CL_STATUS_CAL_VALID = s.rd CL_STATUS_CAL_VALID) ∧
      RegsKept [CL_STATUS_CANARY.addr, CL_PCYC_PCYC.addr] s t ∧ t = { s with regs := t.regs, cl := t.cl })) ∧
    (s.cl.owed = true → s.dom 1 = 1 → Answers (exec (.cellarWake lowMv) s) (fun t => ∃ r, r = (s.elec.vin || decide (1900 ≤ lowMv)) ∧
      t.cl = { s.cl with por := false, wakeDue := false, stopped := !r, runs := r, vbatWait := 0, owed := false } ∧
      bit (t.word 0x30010) ES_CL = true ∧ RegsKept [CL_STATUS_CANARY.addr, CL_PCYC_PCYC.addr, 0x30010] s t ∧
      t = { s.withEvents t with cl := t.cl }))) ∧
  (∀ (lowMv : Nat) (s : State), s.cl.wakeDue = true ∨ s.cl.por = true → canaryResult s lowMv ≠ 1 →
    Answers (exec (.cellarWake lowMv) s) (fun t =>
      t.rd CL_STATUS_CANARY = canaryResult s lowMv ∧ t.rd CL_PCYC_PCYC = 1 ∧ t.on CL_STATUS_ROOT_LOST = true ∧
      t.on CL_STATUS_RET_LOST = true ∧ t.on CL_STATUS_CNT_LOST = true ∧ t.on CL_STATUS_CAL_VALID = false ∧
      t.cl.root = List.replicate 64 0 ∧ t.cl.ret = [] ∧ t.cl.runs = (s.elec.vin || decide (1900 ≤ lowMv)) ∧
      t.rd CL_STATUS_SUPPLY = b2n (!s.elec.vin) ∧
      t.cl.canHi + t.cl.canLo = 2 ^ 64 - 1 ∧ t.cl.canHi ≠ 0 ∧ t.cl.canLo ≠ 0 ∧ t.ev.ring = [] ∧ t.ev.scan = true ∧
      t.on CL_EVENT_CANARY_LOST = true ∧ t.nvm = s.nvm ∧ t.mem = s.mem)) ∧
  (∀ (lowMv : Nat) (s : State), s.cl.wakeDue = false → s.cl.por = false → s.cl.runs = false → s.elec.vin = false →
    1900 ≤ lowMv → exec (.cellarWake lowMv) s = .next { s with cl := { s.cl with runs := true } }) ∧
  (∀ (mv : Nat) (s : State), s.rd CL_STATUS_SUPPLY = 0 → s.cl.runs = true → s.cl.vbatWait = 0 → s.dom 1 = 1 →
    Answers (exec (.vbatMeasure mv) s) (fun t => t.cl = { s.cl with vbatWait := 64 * 32768 } ∧
      (mv < 2300 → t.rd CL_STATUS_BAT_LOW = 1 ∧ t.on CL_EVENT_BAT_LOW = true) ∧
      (2400 < mv → t.rd CL_STATUS_BAT_LOW = 0 ∧ t.rd CL_EVENT_BAT_LOW = s.rd CL_EVENT_BAT_LOW) ∧
      (2300 ≤ mv → mv ≤ 2400 → t.regs = s.regs) ∧
      RegsKept [CL_STATUS_BAT_LOW.addr, CL_EVENT_BAT_LOW.addr, 0x30010] s t ∧ t = { s.withEvents t with cl := t.cl })) ∧
  (∀ s : State, s.cl.opsDue ≠ 0 → Answers (exec .opsSecond s) (fun t =>
    t.cl = { s.cl with opsDue := s.cl.opsDue - 1 } ∧
    (s.rd CL_OPS_OPS + 1 < 3600 → t.rd CL_OPS_OPS = s.rd CL_OPS_OPS + 1 ∧ t.rd CL_OPH_OPH = s.rd CL_OPH_OPH) ∧
    (3600 ≤ s.rd CL_OPS_OPS + 1 → t.rd CL_OPS_OPS = 0 ∧ t.rd CL_OPH_OPH = min (s.rd CL_OPH_OPH + 1) (2 ^ 32 - 1)) ∧
    RegsKept [CL_OPS_OPS.addr, CL_OPH_OPH.addr] s t ∧ t = { s.withRegs t with cl := t.cl })) ∧
  (∀ (c : Fin 5) (s : State), s.cl.runs = true → c.val ≠ 3 ∨ s.rd CL_STATUS_SUPPLY ≠ 0 → Answers (exec (.tamperDetect c) s) (fun t =>
    t.cl.root = List.replicate 64 0 ∧ t.on CL_STATUS_ROOT_LOST = true ∧
    aget t.cl.tlog (s.rd CL_TLOG_CNT_NEXT) = some (tlogEntry s (c.val + 1)) ∧
    t.rd CL_TLOG_CNT_COUNT = min (s.rd CL_TLOG_CNT_COUNT + 1) 65535 ∧ t.rd CL_TLOG_CNT_NEXT = (s.rd CL_TLOG_CNT_NEXT + 1) % 16 ∧
    t.on CL_EVENT_TAMPER = true ∧ (s.dom 1 = 1 → bit (t.word 0x30010) ES_CL = true) ∧ (s.dom 1 ≠ 1 → t.cl.owed = true) ∧
    (c.val = 4 → t.rd CL_STATUS_CAL_VALID = 0) ∧ t.cl.runs = decide (c.val ≠ 3) ∧
    (∀ i, i ≠ s.rd CL_TLOG_CNT_NEXT → aget t.cl.tlog i = aget s.cl.tlog i) ∧ t.cl.ret = s.cl.ret ∧ t.mem = s.mem ∧ t.nvm = s.nvm)) ∧
  (∀ (req : Requester) (s : State), s.Writer req → s.dom 1 = 1 →
    (∀ v : Word, s.on CL_STATUS_CNT_LOST = true → s.rd CL_PCYC_PCYC ≤ v.toNat → Answers (exec (.cntWrite req true v) s) (fun t =>
      t.rd CL_PCYC_PCYC = v.toNat ∧ t.on CL_STATUS_CNT_LOST = false ∧
      RegsKept [CL_PCYC_PCYC.addr, CL_STATUS_CNT_LOST.addr] s t ∧ t = s.withAccess t)) ∧
    (∀ v : Word, s.on CL_STATUS_CNT_LOST = true → s.rd CL_OPH_OPH ≤ v.toNat → Answers (exec (.cntWrite req false v) s) (fun t =>
      t.rd CL_OPH_OPH = v.toNat ∧ RegsKept [CL_OPH_OPH.addr] s t ∧ t = s.withAccess t)) ∧
    (∀ (p : Bool) (v : Word), s.on CL_STATUS_CNT_LOST = false ∨ v.toNat < s.rd (if p then CL_PCYC_PCYC else CL_OPH_OPH) →
      Answers (exec (.cntWrite req p v) s) (fun t =>
        t.on CL_EVENT_REFUSED = true ∧ RegsKept [CL_EVENT_REFUSED.addr, 0x30010] s t ∧ t = s.withAccess t))) ∧
  (∀ (req : Requester) (s : State),
    (s.Writer req → ∀ x : Word,
      (s.retBusy = false → exec (.retDataAccess req (some x)) s =
          .next ((retNext (s.retStore (s.rd CL_RET_ADDR_ADDR * 4) (leBytes 4 x.toNat))).wrote req 0x500A4 x.toNat) ∧
        (s.retStore (s.rd CL_RET_ADDR_ADDR * 4) (leBytes 4 x.toNat)).retLoad (s.rd CL_RET_ADDR_ADDR * 4) 4 = leBytes 4 x.toNat) ∧
      (s.retBusy = true →
        exec (.retDataAccess req (some x)) s = .next ((retHold req (some x) s).wrote req 0x500A4 x.toNat))) ∧
    (s.Reaches req → s.retBusy = false → s.CalServed → exec (.retDataAccess req none) s =
      .next ((retNext s).gave req 0x500A4 (leNat (s.retLoad (s.rd CL_RET_ADDR_ADDR * 4) 4)))) ∧
    (s.Reaches req → s.retBusy = true → exec (.retDataAccess req none) s = .next (retHold req none s)))

/-- R334–R341. CALENDAR_FREEZE: the first read freezes the calendar for its reader and shows it as the cycle began; a read by another waits.
CALENDAR_YEAR_READ ends its reader's freeze, and without one shows the live year with NOFRZ; FREEZE_TIMEOUT: the limit of 66 Piccolo
periods ends a freeze with FRZ_TO. SET_TIME and SET_WDAY wait for the next edge, invalid values and a command while a commit waits are refused;
CALENDAR_COMMIT: at the edge what was staged is set, SET_TIME leaving the weekday. CALENDAR_ROLLOVER: the second rolls over, at midnight with
the date and the weekday. TRIM_CORRECTION and SHIFT_STEP count an edge as two pulses or none; CL_SHIFT_WRITE sets the shift, refused while
one goes on. The refusals are stated for a module whose PD1 has power. -/
def Obligations.CalendarCommands : Prop :=
  (∀ (req : Requester) (k : Fin 7) (s : State), s.Reaches req → s.cl.freeze = none →
    Answers (exec (.calendarFreeze req k) s) (fun t =>
      t.cl = { s.cl with freeze := some (rqIndex req, 0, calLive s) } ∧ t.on CL_STATUS_FROZEN = true ∧
      (t.bus.map (fun c => c.data)) = some (s.word0 (0x50010 + 4 * k.val)) ∧
      RegsKept [CL_STATUS_FROZEN.addr] s t ∧ t = { s.withAccess t with cl := t.cl })) ∧
  (∀ (req : Requester) (k : Fin 7) (f : Nat × Nat × List Nat) (s : State), s.Reaches req → s.cl.freeze = some f →
    f.1 ≠ rqIndex req → exec (.calendarFreeze req k) s = .next { s with cl := { s.cl with held := s.cl.held ++
      [{ req := req, addr := BitVec.ofNat 40 (addrRegs + 0x50010 + 4 * k), write := none }] } }) ∧
  (∀ (req : Requester) (k : Fin 7) (age : Nat) (sh : List Nat) (s : State), s.Reaches req → s.cl.freeze = some (rqIndex req, age, sh) →
    exec (.calendarFreeze req k) s = .next (s.gave req (0x50010 + 4 * k) (sh.getD k 0))) ∧
  (∀ (req : Requester) (age : Nat) (sh : List Nat) (s : State), s.Reaches req → s.cl.freeze = some (rqIndex req, age, sh) →
    s.cl.held = [] → Answers (exec (.calendarYearRead req) s) (fun t =>
      t.cl = { s.cl with freeze := none } ∧ t.on CL_STATUS_FROZEN = false ∧ (t.bus.map (fun c => c.data)) = some (sh.getD 7 0) ∧
      RegsKept [CL_STATUS_FROZEN.addr] s t ∧ t = { s.withAccess t with cl := t.cl })) ∧
  (∀ (req : Requester) (s : State), s.Reaches req → s.cl.freeze = none → s.cl.held = [] →
    exec (.calendarYearRead req) s = .next (s.gave req 0x5002C (s.word0 0x5002C + 2 ^ 31))) ∧
  (∀ (h age : Nat) (sh : List Nat) (s : State), s.cl.freeze = some (h, age, sh) → 66 ≤ age → s.cl.held = [] → s.dom 1 = 1 →
    Answers (exec .freezeTimeout s) (fun t =>
      t.cl = { s.cl with freeze := none } ∧ t.on CL_STATUS_FROZEN = false ∧ t.on CL_EVENT_FRZ_TO = true ∧
      RegsKept [CL_STATUS_FROZEN.addr, CL_EVENT_FRZ_TO.addr, 0x30010] s t ∧ t = { s.withEvents t with cl := t.cl })) ∧
  (∀ (req : Requester) (s : State), s.Writer req → commitWaits s = false →
    (calOk (s.word 0x50030) (s.word 0x50034) = true → Answers (exec (.setTime req) s) (fun t =>
      t.cl = { s.cl with setTime := some (s.word 0x50030, s.word 0x50034) } ∧ t.on CL_STATUS_PEND = true ∧
      RegsKept [CL_STATUS_PEND.addr] s t ∧ t = { s.withAccess t with cl := t.cl })) ∧
    (∀ w : Fin 8, Answers (exec (.setWday req w) s) (fun t =>
      t.cl = { s.cl with setWday := some w.val } ∧ t.on CL_STATUS_PEND = true ∧
      RegsKept [CL_STATUS_PEND.addr] s t ∧ t = { s.withAccess t with cl := t.cl }))) ∧
  (∀ (req : Requester) (w : Fin 8) (c : Instr) (s : State), s.Writer req → s.dom 1 = 1 →
    (c = .setTime req ∧ (commitWaits s = true ∨ calOk (s.word 0x50030) (s.word 0x50034) = false)) ∨
      (c = .setWday req w ∧ commitWaits s = true) →
    Answers (exec c s) (fun t =>
      t.on CL_EVENT_REFUSED = true ∧ RegsKept [CL_EVENT_REFUSED.addr, 0x30010] s t ∧ t = s.withAccess t)) ∧
  (∀ (v d : Nat) (s : State), s.cl.rollDue = false → s.cl.edges = 1 → s.cl.setTime = some (v, d) → s.cl.freeze = none →
    Answers (exec .calendarCommit s) (fun t =>
      t.rd CL_SEC_SEC = bits v 6 0 ∧ t.rd CL_MIN_MIN = bits v 14 8 ∧ t.rd CL_HOUR_HOUR = bits v 21 16 ∧
      t.rd CL_DAY_DAY = bits d 5 0 ∧ t.rd CL_MONTH_MONTH = bits d 12 8 ∧ t.rd CL_YEAR_YEAR = bits d 31 16 ∧
      t.rd CL_SUBSEC_SUBSEC = 0 ∧ t.on CL_STATUS_CAL_VALID = true ∧ t.on CL_STATUS_PEND = false ∧
      t.on CL_STATUS_SHIFT_BUSY = false ∧ t.cl.setTime = none ∧ t.cl.shift = 0 ∧ t.cl.trimOwed = (if trimDue s then some (trimUp s) else none) ∧ t.cl.edges = 0 ∧
      RegsKept [0x50004, 0x50010, 0x50014, 0x50018, 0x5001C, 0x50024, 0x50028, 0x5002C] s t ∧
      t = { s with regs := t.regs, cl := t.cl })) ∧
  (∀ (w : Nat) (s : State), edgeReady s = true → s.cl.setTime = none → s.cl.setWday = some w →
    ∃ u, u = (s.wr CL_STATUS_PEND 0).wr CL_WDAY_WDAY w ∧ exec .calendarCommit s =
      .next ({ u with cl := { s.cl with setWday := none, wdaySet := 2 } } : State).moreEdges) ∧
  (∀ s : State, s.cl.rollDue = true → s.cl.edges = 0 →
    (s.rd CL_SEC_SEC < 0x58 → Answers (exec .calendarRollover s) (fun t =>
      t.rd CL_SEC_SEC = toBcd (bcd 2 (s.rd CL_SEC_SEC) + 1) ∧ t.cl = { s.cl with rollDue := false } ∧
      RegsKept [CL_SEC_SEC.addr] s t ∧ t = { s with regs := t.regs, cl := t.cl })) ∧
    (s.rd CL_SEC_SEC = 0x59 → s.rd CL_MIN_MIN = 0x59 → s.rd CL_HOUR_HOUR = 0x23 → s.on CL_CTRL_LEAP61 = false →
      s.rd CL_YEAR_YEAR ≠ 0x2199 → s.cl.wdaySet ≠ 1 → Answers (exec .calendarRollover s) (fun t =>
        t.rd CL_SEC_SEC = 0 ∧ t.rd CL_MIN_MIN = 0 ∧ t.rd CL_HOUR_HOUR = 0 ∧ t.rd CL_WDAY_WDAY = (s.rd CL_WDAY_WDAY + 1) % 7 ∧
        (bcd 2 (s.rd CL_DAY_DAY) < monthDays (bcd 4 (s.rd CL_YEAR_YEAR)) (bcd 2 (s.rd CL_MONTH_MONTH)) →
          t.rd CL_DAY_DAY = toBcd (bcd 2 (s.rd CL_DAY_DAY) + 1) % 64 ∧ t.rd CL_MONTH_MONTH = s.rd CL_MONTH_MONTH ∧
          t.rd CL_YEAR_YEAR = s.rd CL_YEAR_YEAR) ∧
        t.cl = { s.cl with rollDue := false } ∧ t = { s with regs := t.regs, cl := t.cl })) ∧
    (s.rd CL_SEC_SEC = 0x59 → s.rd CL_MIN_MIN = 0x59 → s.rd CL_HOUR_HOUR = 0x23 → s.on CL_CTRL_LEAP61 = true →
      Answers (exec .calendarRollover s) (fun t => t.rd CL_SEC_SEC = 0x60 ∧ t.cl = { s.cl with rollDue := false } ∧
        RegsKept [CL_SEC_SEC.addr] s t ∧ t = { s with regs := t.regs, cl := t.cl }))) ∧
  (∀ s : State, edgeReady s = true → commitWaits s = false → trimDue s = true →
    exec .trimCorrection s = .next ((subsecAdd (if trimUp s then 2 else 0)
      (takeEdge { s with cl := { s.cl with trimOwed := none } })).moreEdges)) ∧
  (∀ (req : Requester) (v : Word) (s : State), s.Writer req →
    (s.on CL_STATUS_SHIFT_BUSY = false → sext 16 v.toNat ≠ 0 → Answers (exec (.clShiftWrite req v) s) (fun t =>
      t.cl = { s.cl with shift := sext 16 v.toNat } ∧ t.on CL_STATUS_SHIFT_BUSY = true ∧
      RegsKept [CL_STATUS_SHIFT_BUSY.addr] s t ∧ t = { s.withAccess t with cl := t.cl })) ∧
    (s.on CL_STATUS_SHIFT_BUSY = true → s.dom 1 = 1 → Answers (exec (.clShiftWrite req v) s) (fun t =>
      t.on CL_EVENT_REFUSED = true ∧ RegsKept [CL_EVENT_REFUSED.addr, 0x30010] s t ∧ t = s.withAccess t))) ∧
  (∀ s : State, edgeReady s = true → commitWaits s = false → trimDue s = false → s.cl.shift ≠ 0 →
    ∃ k u, k = (if 0 < s.cl.shift then s.cl.shift - 1 else s.cl.shift + 1) ∧
      u = subsecAdd (if 0 < s.cl.shift then 2 else 0) (takeEdge { s with cl := { s.cl with shift := k } }) ∧
      exec .shiftStep s = .next (if k = 0 then (u.wr CL_STATUS_SHIFT_BUSY 0).clEvent CL_EVENT_SHIFT_DONE else u).moreEdges)

/-! ### Event recorder and disturbance capture (15_recording.md) -/

/-- R350, R351, R354–R358. EVENT_REQUEST: with EN set as the cycle begins and room, the next request takes the next number with its stamp or
the time of this cycle; without EN or room it is lost and counted. RING_ENTRY: a record leaves the queue for the ring 8 cy on and shows in
EV_LAST. NVM_SCAN: sets NVM_OK; an unsuitable device stops the drain; after a discarded ring numbering restarts with RING_DISCARDED.
DRAIN_PAGE programs 8 records at the write position and nothing below it; a failure is counted, recorded and left for one second, which
DRAIN_RETRY ends. EV_NVM_LOAD_DONE: a record held in the NVM loads into the read window, and one cleared meanwhile reads NOT_HELD. -/
def Obligations.RecorderEvents : Prop :=
  (∀ (r : RecReq) (s : State), nextReq s.readyReqs = some r → s.on0 EV_CTRL_EN = true → s.ev.lost = 0 → s.ev.queue.length < 64 →
    Answers (exec .eventRequest s) (fun t =>
      (∃ sec ns k, (∀ x, r.stamp = some x → (sec, ns, k) = (x.1, x.2, 0)) ∧ (r.stamp = none → (sec, ns, k) = s.recTime) ∧
        t.ev = { s.ev with next := s.ev.next + 1, queue := s.ev.queue ++ [{
          seq := s.ev.next, sec := sec, ns := ns, tkind := k, src := r.src, code := r.code, data := r.data, cyc := s.cyc }] }) ∧
      t.recReqs = s.recReqs.erase r ∧ (r.src ≠ 0x0F ∨ r.code ≠ 1 → t.mem = s.mem ∧ t.ic = s.ic ∧ t.tg = s.tg) ∧
      t = { s with ev := t.ev, tg := t.tg, mem := t.mem, ic := t.ic, recReqs := t.recReqs })) ∧
  (∀ (r : RecReq) (s : State), nextReq s.readyReqs = some r → s.on0 EV_CTRL_EN = false ∨ 64 ≤ s.ev.queue.length →
    Answers (exec .eventRequest s) (fun t =>
      t.ev = { s.ev with lost := s.ev.lost + 1 } ∧ t.rd EV_G_LOST = min (s.rd EV_G_LOST + 1) 65535 ∧ t.on EV_EVENT_LOST = true ∧
      t.recReqs = s.recReqs.erase r ∧ RegsKept [EV_G_LOST.addr, EV_EVENT_LOST.addr, 0x30010] s t ∧
      t = { s.withEvents t with ev := t.ev, recReqs := t.recReqs })) ∧
  (∀ (q : EvReq) (rest : List EvReq) (s : State), s.ev.queue = q :: rest → s.ev.scan = false → s.ev.lost = 0 →
    max q.cyc s.ev.leave + 8 ≤ s.cyc → aget s.ev.ring (q.seq % 4096) = none → Answers (exec .ringEntry s) (fun t =>
      t.ev = { s.ev with ring := aput s.ev.ring (q.seq % 4096) (q.seq, recBytes s q), queue := rest
                         entered := q.seq + 1, leave := s.cyc } ∧
      t.rd EV_LAST_LAST = q.seq % 2 ^ 32 ∧ t.on EV_EVENT_RECORD = true ∧
      RegsKept [EV_EVENT_RECORD.addr, EV_FIRST_FIRST.addr, EV_RING_FIRST_RING_FIRST.addr, EV_LAST_LAST.addr, EV_DRAINED_DRAINED.addr,
        EV_STATUS_UNDRAINED.addr, 0x30010] s t ∧ t = { s.withEvents t with ev := t.ev })) ∧
  (∀ (answers suitable : Bool) (u s : State), s.ev.params = true → s.ev.scan = false →
    (¬(answers = true ∧ suitable = false) → u = { s with ev := { s.ev with params := false } } →
      exec (.nvmScan answers suitable) s =
        .next (u.wr EV_STATUS_NVM_OK (b2n (answers && suitable && s.ev.ofs.isSome))).evRefresh) ∧
    (answers = true → suitable = false → Answers (exec (.nvmScan answers suitable) s) (fun t =>
      t.on EV_STATUS_NVM_OK = false ∧ t.ev = { s.ev with params := false, stop := true } ∧ t.on EV_EVENT_DRAIN_FAIL = true ∧
      t.rd EV_G_DRAIN_FAIL = min (s.rd EV_G_DRAIN_FAIL + 1) 65535 ∧ t.nvm = s.nvm ∧ t.mem = s.mem))) ∧
  (∀ (suitable : Bool) (s : State), s.ev.params = true → s.ev.scan = true → s.on0 EV_CTRL_EN = true →
    Answers (exec (.nvmScan false suitable) s) (fun t =>
      t.on EV_STATUS_NVM_OK = false ∧ t.ev.scan = false ∧ t.ev.params = false ∧ t.ev.entered = 0 ∧ t.ev.drained = 0 ∧
      t.ev.next = s.ev.queue.length + 1 ∧ (t.ev.queue.head?.map (fun q => (q.seq, q.src, q.code))) = some (0, 0x12, 0x01) ∧
      t.nvm = s.nvm ∧ t.mem = s.mem)) ∧
  (∀ s : State, drainDue s = true → s.ev.pos % 2048 ≠ 0 → s.ev.pos < 1048576 → Answers (exec (.drainPage 0) s) (fun t =>
    t.ev.drained = s.ev.drained + 8 ∧ t.ev.pos = (s.ev.pos + 8) % 1048576 ∧ t.ev.ring = s.ev.ring ∧
    (∀ (i : Fin 8) (j : Fin 32) (b : List Byte), s.ringRec (s.ev.drained + i) = some b → b.length = 32 →
      (∀ (n : Fin 8) (c : List Byte), s.ringRec (s.ev.drained + n) = some c → c.length = 32) →
      t.nvmByte (s.ev.ofs.getD 0 + s.ev.pos * 32 + 32 * i + j) = b.getD j 0) ∧
    (∀ a, a < s.ev.ofs.getD 0 + s.ev.pos * 32 → t.nvmByte a = s.nvmByte a) ∧ t.mem = s.mem)) ∧
  (∀ s : State, drainDue s = true → Answers (exec (.drainPage 1) s) (fun t =>
    t.ev = { s.ev with retryAt := some (s.clk.lapse + uS) } ∧ t.rd EV_G_DRAIN_FAIL = min (s.rd EV_G_DRAIN_FAIL + 1) 65535 ∧
    t.on EV_EVENT_DRAIN_FAIL = true ∧ t.nvm = s.nvm ∧
    t.recReqs = s.recReqs ++ [{ src := 0x12, code := 0x05, data := 1, stamp := none, cyc := s.cyc }] ∧
    RegsKept [EV_G_DRAIN_FAIL.addr, EV_EVENT_DRAIN_FAIL.addr, 0x30010] s t ∧
    t = { s.withEvents t with ev := t.ev, recReqs := t.recReqs })) ∧
  (∀ (c : Nat) (s : State), s.ev.retryAt = some c → c ≤ s.clk.lapse →
    exec .drainRetry s = .next { s with ev := { s.ev with retryAt := none } }) ∧
  (∀ (q p : Nat) (s : State), s.ev.load = some q → s.ev.firstHeld ≤ q → runPos q s.ev.runs = some p → Answers (exec .evNvmLoadDone s) (fun t =>
    t.ev = { s.ev with load := none } ∧ t.on EV_RD_STAT_VALID = true ∧ t.on EV_RD_STAT_FROM_NVM = true ∧ t.on EV_RD_STAT_BUSY = false ∧
    (∀ i : Fin 8, t.rd (EV_RD_W_WORD.i i) = leAt (s.nvmLoad (s.ev.ofs.getD 0 + p * 32) 32) (4 * i) 4) ∧
    t = { s with regs := t.regs, ev := t.ev })) ∧
  (∀ (q : Nat) (s : State), s.ev.load = some q → q < s.ev.firstHeld → Answers (exec .evNvmLoadDone s) (fun t =>
    t.ev = { s.ev with load := none } ∧ t.on EV_RD_STAT_VALID = false ∧ t.on EV_RD_STAT_NOT_HELD = true ∧ t.on EV_RD_STAT_BUSY = false ∧
    (∀ i : Fin 8, t.rd (EV_RD_W_WORD.i i) = 0) ∧ t = { s with regs := t.regs, ev := t.ev }))

/-- R353, R358, R359, R371. EV_RD_SEQ_WRITE: a number held in the ring loads its record into the read window. EV_FIRST_LATCH: a read of EV_FIRST
latches the group for its requester. CLEAR_NONCE: a read of the nonce draws one, the low word being its data. LOG_CLEAR: of the owner with
the right slot, token and number clears up to it and is recorded; CLEAR_ERASE_DONE ends CLEAR_BUSY with no sector wholly below the clearing.
EV_POST: a post with a firmware source requests its record, with another it is refused. -/
def Obligations.RecorderRegisterCommands : Prop :=
  (∀ (req : Requester) (v : Word) (b : List Byte) (s : State), s.Writer req → s.ev.entered ≠ 0 → seqOf s v.toNat % 2 ^ 32 = v.toNat →
    s.ev.firstHeld ≤ seqOf s v.toNat → seqOf s v.toNat < s.ev.entered → s.ringRec (seqOf s v.toNat) = some b →
    Answers (exec (.evRdSeqWrite req v) s) (fun t =>
      t.rd EV_RD_SEQ_SEQ = v.toNat ∧ t.on EV_RD_STAT_VALID = true ∧ t.on EV_RD_STAT_FROM_NVM = false ∧
      t.on EV_RD_STAT_NOT_HELD = false ∧ (∀ i : Fin 8, t.rd (EV_RD_W_WORD.i i) = leAt b (4 * i) 4) ∧
      t.ev = { s.ev with load := none } ∧ t = { s.withAccess t with ev := t.ev })) ∧
  (∀ (req : Requester) (s : State), s.Reaches req → s.CalServed → Answers (exec (.evFirstLatch req) s) (fun t =>
    aget t.ev.latch (rqIndex req) = some (s.rd0 EV_RING_FIRST_RING_FIRST, s.rd0 EV_LAST_LAST) ∧
    (∀ q, q ≠ rqIndex req → aget t.ev.latch q = aget s.ev.latch q) ∧
    (t.bus.map (fun c => c.data)) = some (s.word0 0xB00010) ∧ RegsKept [] s t ∧ t = { s.withAccess t with ev := t.ev })) ∧
  (∀ (req : Requester) (s : State), s.Reaches req → s.CalServed → Answers (exec (.clearNonce req) s) (fun t =>
    ∃ n, n = Config.freeValue s.free % 2 ^ 64 ∧ t.ev = { s.ev with nonce := some n } ∧ t.rd EV_CLR_NONCE_LO_NONCE_LO = n % 2 ^ 32 ∧
      t.rd EV_CLR_NONCE_HI_NONCE_HI = n / 2 ^ 32 ∧ (t.bus.map (fun c => c.data)) = some (n % 2 ^ 32) ∧
      RegsKept [EV_CLR_NONCE_LO_NONCE_LO.addr, EV_CLR_NONCE_HI_NONCE_HI.addr] s t ∧ t = { s.withAccess t with ev := t.ev })) ∧
  (∀ (req : Requester) (slot : Fin 256) (n : Nat) (b : List Byte) (w u : State) (s : State), s.Writer req → s.isOwner req = true →
    s.ev.nonce = some n →
    w = { s.swPut 0xB00088 (2 ^ 30 + slot.val) with ev := { s.ev with nonce := none } } → w.ksFetch slot = (b, true, u) →
    u.retired = false → kState b = ksValid → bit (kUse b) useClear = true → kAlg b = 3 →
    (List.range 4).flatMap (fun i => leBytes 4 (u.word (EV_CLR_TOK_TOKEN.addr + 4 * i))) =
      clearToken (kKey b) (u.rd EV_CLR_SEQ_SEQ) n →
    u.ev.entered ≠ 0 → seqOf u (u.rd EV_CLR_SEQ_SEQ) % 2 ^ 32 = u.rd EV_CLR_SEQ_SEQ →
    u.ev.firstHeld ≤ seqOf u (u.rd EV_CLR_SEQ_SEQ) → seqOf u (u.rd EV_CLR_SEQ_SEQ) < u.ev.entered → u.on EV_STATUS_CLEAR_BUSY = false →
    Answers (exec (.logClear req slot) s) (fun t =>
      t.ev = { u.ev with cleared := seqOf u (u.rd EV_CLR_SEQ_SEQ) + 1 } ∧ t.on EV_EVENT_CLEARED = true ∧
      t.recReqs = u.recReqs ++ [{ src := 0x12, code := 0x02, data := u.ev.firstHeld % 2 ^ 32 + u.rd EV_CLR_SEQ_SEQ * 2 ^ 32
                                  stamp := none, cyc := u.cyc }] ∧
      t.on EV_STATUS_CLEAR_BUSY = !(sectorsBelow (seqOf u (u.rd EV_CLR_SEQ_SEQ) + 1) u.ev.runs).isEmpty ∧ t.nvm = s.nvm ∧ t.mem = s.mem)) ∧
  (∀ s : State, s.on EV_STATUS_CLEAR_BUSY = true → Answers (exec .clearEraseDone s) (fun t =>
    t.on EV_STATUS_CLEAR_BUSY = false ∧ sectorsBelow s.ev.cleared t.ev.runs = [] ∧ t.ev.cleared = s.ev.cleared ∧
    t.ev.ring = s.ev.ring ∧ t.mem = s.mem)) ∧
  (∀ (req : Requester) (src code : Fin 256) (s : State), s.Writer req →
    (0x80 ≤ src.val → Answers (exec (.evPost req src code) s) (fun t =>
      t.recReqs = s.recReqs ++ [{ src := src, code := code, data := s.rd EV_POST0_DATA_LO + s.rd EV_POST1_DATA_HI * 2 ^ 32
                                  stamp := none, cyc := s.cyc }] ∧
      RegsKept [] s t ∧ t = { s.withAccess t with recReqs := t.recReqs })) ∧
    (src.val < 0x80 → Answers (exec (.evPost req src code) s) (fun t =>
      t.on EV_EVENT_REFUSED = true ∧ RegsKept [EV_EVENT_REFUSED.addr, 0x30010] s t ∧ t = s.withAccess t)))

/-- R361–R368, R489, with domain 14 working. ROW_FINALISE: the next row of an armed definition is stored at its slot once its instant plus W
has passed and the changes delivered have been applied, unless its channel list is lost; captures whose last row is final complete.
BINARY_CHANGE: the changes of the oldest cycle that has ended are applied together. SEQ_WINDOW_TIMEOUT: a late sequence returns to stage 0.
TRIGGER_LEVEL_TIMEOUT: a level that has lasted T1 fires once. HOLD_EXPIRY: HOLD ends in ARMED, or in WAIT_BUF. TG_FORCE fires the definitions it
names, and an armed one becomes TRIGGERED. TG_REL frees the buffer. -/
def Obligations.CaptureCommands : Prop :=
  (∀ (r : Fin 16) (k inst : Nat) (skip : Bool) (c : Cap) (u : State) (s : State), s.runs 14 = true →
    s.tgState r = 1 ∨ s.tgState r = 2 → c = s.cap r → k = c.nextRow → s.rowFinal r k ≤ s.now → s.changeDue = none →
    inst = rowInstant (s.tgRate r) k → skip = s.clk.stepSpan.any (fun p => decide (p.1 < inst) && decide (inst < p.2)) →
    s.rowLost r = true ∨ (s.rd (TG_D_MODE.i r) ≠ 2 ∧ s.rd (TG_D_MODE.i r) ≠ 4) →
    u = (if s.rowLost r then s else
      s.store (s.capBuf r (s.rd (TG_D_CUR.i r)) + 64 + (k - c.row0) % s.rowSlots r * s.rowBytes r) (rowContents s r k skip)) →
    ∃ v, v.cap r = { c with
          nextRow := k + 1
          base := (c.changes.filter (fun x => decide (x.2.1 ≤ inst / 2 ^ 24) && !x.2.2.2)).foldl (fun m x => aput m x.1 x.2.2.1) c.base
          changes := c.changes.filter (fun x => decide (inst / 2 ^ 24 < x.2.1))
          vals := c.vals.filter (fun v => decide (k < v.1)) } ∧
      v = { u with tg := v.tg } ∧ (∀ q, q ≠ r.val → v.cap q = s.cap q) ∧ exec (.rowFinalise r) s = .next (settleCaps v)) ∧
  (∀ s : State, (∀ q, q < 16 → (s.cap q).trig = none) → settleCaps s = s) ∧
  (∀ (r : Fin 16) (time tk row : Nat) (s : State), (s.cap r).trig = some (time, tk, row) →
    row + s.rd (TG_D_POST.i r) < (s.cap r).nextRow → (∀ q, q < 16 → q ≠ r.val → (s.cap q).trig = none) →
    settleCaps s = capDone r time tk row s) ∧
  (∀ (k : Nat) (u s : State), s.runs 14 = true → s.changeDue = some k →
    u = { s with tg := { s.tg with changes := s.tg.changes.filter (fun c => c.cyc != k) } } →
    exec .binaryChange s = .next (settleCaps ((List.range 16).foldl (fun t r =>
      capChanges (s.tg.changes.filter (fun c => c.cyc == k)) r t) u))) ∧
  (∀ (r : Fin 16) (s : State), s.runs 14 = true → s.tgState r ≠ 0 → s.rd (TG_D_MODE.i r) = 0 → s.seqLate r s.nowStamp = true →
    s.changeWaits (s.seqEnd r) = false →
    Answers (exec (.seqWindowTimeout r) s) (fun t =>
      (t.cap r).stage = 0 ∧ (∀ q, q ≠ r.val → t.cap q = s.cap q) ∧
      t.rd (TG_D_SEQ_RESET.i r) = min (s.rd (TG_D_SEQ_RESET.i r) + 1) 65535 ∧ RegsKept [(TG_D_SEQ_RESET.i r).addr] s t ∧
      t = { s.withRegs t with tg := t.tg })) ∧
  (∀ (r : Fin 16) (m : Nat) (s : State), s.runs 14 = true → (s.cap r).mark = some m → s.rd (TG_D_MODE.i r) = 3 →
    (s.cap r).fired = false → m + s.rd (TG_D_T1.i r) * 65536 ≤ s.nowStamp → s.tgState r ≠ 0 →
    s.changeWaits (m + s.rd (TG_D_T1.i r) * 65536) = false →
    exec (.triggerLevelTimeout r) s =
      .next (settleCaps (fire r (m + s.rd (TG_D_T1.i r) * 65536) 4 (s.setCap r { s.cap r with fired := true })))) ∧
  (∀ (r : Fin 16) (c : Nat) (s : State), s.runs 14 = true → (s.cap r).holdTo = some c → s.tgState r = 3 → c ≤ s.clk.lapse →
    Answers (exec (.holdExpiry r) s) (fun t => t = enterArmed r 0 s ∧
      (∀ b, s.freeBuf r = some b → b < 8 → t.tgState r = 1 ∧ t.rd (TG_D_CUR.i r) = b ∧ (t.cap r).holdTo = none) ∧
      (s.freeBuf r = none → t.tgState r = 4 ∧ t.on TG_EVENT_NOBUF = true ∧ (t.cap r).holdTo = none))) ∧
  (∀ (req : Requester) (s : State), s.Writer req → s.dom 14 = 1 →
    (∀ v : Word, exec (.tgForce req v) s = .next ((tgForceWrite v.toNat s).wrote req 0xC0000C v.toNat)) ∧
    (∀ (r : Fin 16) (time tk : Nat), s.tgState r = 1 → (s.cap r).ignore = 0 →
      (fireOne r time tk s).1 = true ∧ (fireOne r time tk s).2.tgState r = 2 ∧
      ((fireOne r time tk s).2.cap r).trig = some (time, tk, time * 2 ^ 24 * s.tgRate r / (1000000000 * 2 ^ 40)) ∧
      (fireOne r time tk s).2.recReqs.length = s.recReqs.length + 1) ∧
    (∀ v : Word, s.tgState (bits v.toNat 7 4) ≠ 4 → Answers (exec (.tgRel req v) s) (fun t =>
      t.rd (TG_D_FULL.i (bits v.toNat 7 4)) =
        setBits (s.rd (TG_D_FULL.i (bits v.toNat 7 4))) (v.toNat % 8) (v.toNat % 8) 0 ∧
      RegsKept [(TG_D_FULL.i (bits v.toNat 7 4)).addr] s t ∧ t = s.withAccess t)))

/-! ### Instances, tenants and ownership (16_instances.md) -/

/-- R377, R379, R380, R384, R385, R388. POST_T2M and ACK_M2T: a tenant posts a message into a free slot and acknowledges a full one, and so do
the steward cores and the owner the other way (POST_M2T, ACK_T2M). WINDOW_ACCESS: a tenant reaches DRAM through an enabled window entry, writing
only where it may. WINDOW_ENTRY_WRITE: an entry that keeps the rules is stored, another refused. VI_PUB_REQUEST: a publication request waits for
the next cycle. VF_FLR: a function-level reset, here with no frame part-way into the tenant's ring, disables the ring pair, empties the M2T slots
and sends STATUS; that it clears BME and the Function Mask and leaves MSE is the model's reading of "as the specification requires"
(PRESUMED, log entry 62). -/
def Obligations.TenantCommands : Prop :=
  (∀ (v : Fin 512) (j : Fin 2) (s : State), s.vfMapped v = true → bit (s.rd0 (VI_MB_STAT_T2M_FULL.p v)) j = false →
    s.mbLen (0x1000400 + v.val * 0x10000 + j.val * 0x100) ≤ 240 → Answers (exec (.postT2m (.vf v) v j) s) (fun t =>
      t.rd (VI_MB_STAT_T2M_FULL.p v) = (s.rd (VI_MB_STAT_T2M_FULL.p v) ||| 2 ^ j.val) ∧
      bits (t.word (0x1000404 + v.val * 0x10000 + j.val * 0x100)) 19 16 = s.gen v ∧
      (t.rd (VI_MB_STAT_T2M_FULL.p v) = 3 → t.rd (VI_MB_STAT_T2M_OLDER.p v) = 1 - j.val) ∧
      bit (t.word (0x30840 + v.val / 32 * 4)) (v.val % 32) = true ∧
      RegsKept [(VI_MB_STAT_T2M_FULL.p v).addr, 0x1000404 + v.val * 0x10000 + j.val * 0x100, 0x30840 + v.val / 32 * 4,
        0x30010 + (160 + v.val / 8) / 32 * 4] s t ∧ t = s.withAccess t)) ∧
  (∀ (v : Fin 512) (j : Fin 2) (s : State), s.vfMapped v = true → bit (s.rd0 (VI_MB_STAT_M2T_FULL.p v)) j = true →
    Answers (exec (.ackM2t (.vf v) v j) s) (fun t =>
      t.rd (VI_MB_STAT_M2T_FULL.p v) = (s.rd (VI_MB_STAT_M2T_FULL.p v) &&& (3 - 2 ^ j.val)) ∧ t.rd (VI_MB_STAT_M2T_OLDER.p v) = 0 ∧
      RegsKept [(VI_MB_STAT_M2T_FULL.p v).addr, 0x30840 + v.val / 32 * 4, 0x30010 + (160 + v.val / 8) / 32 * 4] s t ∧
      t = s.withAccess t)) ∧
  (∀ (req : Requester) (v : Fin 512) (j : Fin 2) (s : State), s.Writer req → bit (s.rd0 (VI_MB_STAT_M2T_FULL.p v)) j = false →
    s.mbLen (0x1000600 + v.val * 0x10000 + j.val * 0x100) ≤ 240 → Answers (exec (.postM2t req v j) s) (fun t =>
      t.rd (VI_MB_STAT_M2T_FULL.p v) = (s.rd (VI_MB_STAT_M2T_FULL.p v) ||| 2 ^ j.val) ∧
      bits (t.word (0x1000604 + v.val * 0x10000 + j.val * 0x100)) 19 16 = s.gen v ∧
      RegsKept [(VI_MB_STAT_M2T_FULL.p v).addr, 0x1000604 + v.val * 0x10000 + j.val * 0x100] s t ∧
      t = { s.withAccess t with vis := t.vis })) ∧
  (∀ (req : Requester) (v : Fin 512) (j : Fin 2) (s : State), s.Writer req → bit (s.rd0 (VI_MB_STAT_T2M_FULL.p v)) j = true →
    Answers (exec (.ackT2m req v j) s) (fun t =>
      t.rd (VI_MB_STAT_T2M_FULL.p v) = (s.rd (VI_MB_STAT_T2M_FULL.p v) &&& (3 - 2 ^ j.val)) ∧ t.rd (VI_MB_STAT_T2M_OLDER.p v) = 0 ∧
      RegsKept [(VI_MB_STAT_T2M_FULL.p v).addr] s t ∧ t = { s.withAccess t with vis := t.vis })) ∧
  (∀ (v : Fin 512) (o : Fin 1073741824) (w a : Nat) (s : State), s.vfMapped v = true → s.windowAt v o = some w → s.dom 14 = 1 →
    a = s.windowAddr v w o → a + 4 ≤ 0x01FC000000 →
    exec (.windowAccess v o none) s =
      .next (s.answer { req := .vf v, addr := BitVec.ofNat 40 a, write := none } (s.loadN a 4) false (s.badSpan a 4)) ∧
    (∀ x : Word, s.on0 ((VI_W_WR.p v).i w) = true → exec (.windowAccess v o (some x)) s =
      .next ((s.storeN a 4 x.toNat).answer { req := .vf v, addr := BitVec.ofNat 40 a, write := some x } 0 false)) ∧
    (∀ x : Word, s.on0 ((VI_W_WR.p v).i w) = false → Answers (exec (.windowAccess v o (some x)) s) (fun t =>
      t.rd (VI_CNT3_WIN_RO.p v) = min (s.rd (VI_CNT3_WIN_RO.p v) + 1) 255 ∧ t.on (VI_EVENT_WINDOW.p v) = true ∧ BytesKept s t))) ∧
  (∀ (req : Requester) (v : Fin 512) (w : Fin 16) (k : Fin 4) (x : Word) (o : Nat) (u : State) (s : State), s.Writer req →
    o = 0x1000000 + v.val * 0x10000 + 0x1000 + 0x10 * w.val + 4 * k.val → u = s.swPut o x.toNat →
    (u.windowOk v w = true →
      exec (.windowEntryWrite req v w k x) s = .next (u.wrote req o x.toNat)) ∧
    (u.windowOk v w = false →
      exec (.windowEntryWrite req v w k x) s = .next ((s.viEvent VI_EVENT_REFUSED v).wrote req o x.toNat))) ∧
  (∀ (v : Fin 512) (x : Word) (s : State), s.vfMapped v = true → Answers (exec (.viPubRequest (.vf v) v x) s) (fun t =>
    (t.vi v).pubReq = (s.vi v).pubReq ++ [(s.cyc + 1, min 2111 (x.toNat % 4096))] ∧
    (∀ q, q ≠ v.val → t.vi q = s.vi q) ∧ RegsKept [(VI_PUB_CB_CB.p v).addr] s t ∧
    t = { s.withAccess t with vis := t.vis })) ∧
  (∀ (v : Fin 512) (s : State), v.val < s.vis.numVfs → s.ports.rxPart = none → Answers (exec (.vfFlr v) s) (fun t =>
    t.word (0x1000808 + v.val * 0x10000) = 0 ∧ t.word (0x1000818 + v.val * 0x10000) = 0 ∧
    t.rd (VI_MB_STAT_M2T_FULL.p v) = 0 ∧ t.rd (VI_MB_STAT_M2T_OLDER.p v) = 0 ∧ t.on (VI_EVENT_FLR.p v) = true ∧
    t.vf v = { s.vf v with bme := false, fmask := false, table := [], pend := [3] } ∧ (∀ q, q ≠ v.val → t.vf q = s.vf q) ∧
    t.recReqs = s.recReqs ++ [{ src := 0x02, code := 0x12, data := v.val, stamp := none, cyc := s.cyc }] ∧
    t.rd (VI_STATUS_GEN.p v) = s.rd (VI_STATUS_GEN.p v) ∧ BytesKept s t))

/-- R386, R391, R393–R396, R489. MIRROR_COPY: a due copy begins when the engine is free and none that is due comes first, otherwise it waits and
counts once; a copy whose header holds a lost word is discarded. LSHARE_WRITE: a Larder share is stored, held at 98,304. RESET of an instance
with nothing lingering advances its generation, begins the reset in the next cycle and is recorded; a RESET during a reset is refused.
VI_RESET_DONE ends it once nothing is in flight, RUN being cleared unless KEEP_RUN. -/
def Obligations.InstanceCommands : Prop :=
  (∀ (v : Fin 512) (m : Fin 4) (d : Nat) (s : State), s.runs 1 = true → s.vis.mirror = none → s.mirrorDue v m = true →
    s.mirrorAhead v m = false → d = s.rd ((VI_M_DEST_HI.p v).i m) * 2 ^ 32 + s.rd ((VI_M_DEST_LO.p v).i m) * 64 →
    exec (.mirrorCopy v m) s = .next (mirrorStart v m s) ∧ (mirrorStart v m s).regs = s.regs ∧
    aget ((mirrorStart v m s).vi v).mirTick m = some (s.mirrorTick v m) ∧
    (s.mirrorWaits v m = false → s.mirrorTick v m = s.clk.raised) ∧
    (∀ w, s.mirrorWaits v m = true → aget (s.vi v).mirWait m = some w → s.mirrorTick v m = w) ∧
    (s.badSpan (d + 8) 8 = false → s.badSpan (d + 56) 8 = false →
      ∃ r, (mirrorStart v m s).vis.mirror = some r ∧ r.vi = v.val ∧ r.m = m.val ∧ r.gen = s.gen v ∧ r.start = s.cyc ∧ r.dest = d ∧
        r.units = s.rd ((VI_M_UN.p v).i m) ∧ r.seq = (agetD (s.vi v).mirSeq m 0 + 1) % 2 ^ 32) ∧
    (s.badSpan (d + 8) 8 = true ∨ s.badSpan (d + 56) 8 = true →
      (mirrorStart v m s).vis.mirror = none ∧ (mirrorStart v m s).mem = s.mem)) ∧
  (∀ (v : Fin 512) (m : Fin 4) (s : State), s.runs 1 = true → s.vis.mirror.isSome = true ∨ s.mirrorAhead v m = true →
    s.mirrorDue v m = true →
    (s.mirrorWaits v m = true → exec (.mirrorCopy v m) s = .next s) ∧
    (s.mirrorWaits v m = false → Answers (exec (.mirrorCopy v m) s) (fun t =>
      t.rd (VI_CNT4_MIR_WAIT.p v) = min (s.rd (VI_CNT4_MIR_WAIT.p v) + 1) 255 ∧ aget (t.vi v).mirWait m = some s.clk.raised ∧
      t.vis.mirror = s.vis.mirror ∧ RegsKept [(VI_CNT4_MIR_WAIT.p v).addr] s t ∧ t = { s.withRegs t with vis := t.vis }))) ∧
  (∀ (req : Requester) (v : Fin 512) (x : Word) (s : State), s.Writer req →
    s.rd (VI_LSHARE_LSHARE.p v) < s.rd (VI_HELD_HELD.p v) ∨ s.rd (VI_HELD_HELD.p v) ≤ min 98304 (x.toNat % 2 ^ 17) →
    Answers (exec (.lshareWrite req v x) s) (fun t =>
      t.rd (VI_LSHARE_LSHARE.p v) = min 98304 (x.toNat % 2 ^ 17) ∧
      RegsKept [(VI_LSHARE_LSHARE.p v).addr] s t ∧ t = s.withAccess t)) ∧
  (∀ (req : Requester) (v : Fin 512) (keep : Bool) (g : Nat) (u : State) (s : State), s.Writer req →
    s.on (VI_STATUS_RESETTING.p v) = false → s.linger v = 0 → g = (s.rd (VI_STATUS_GEN.p v) + 1) % 16 →
    u = ((s.wr (VI_STATUS_GEN.p v) g).wr (VI_STATUS_RESETTING.p v) 1).setVi v
      { s.vi v with keepRun := keep, resetAt := some (s.cyc + 1) } →
    exec (.viReset req v keep) s = .next ((u.record 0x02 0x10 (v.val + g * 65536 + b2n keep * 2 ^ 20)).wrote req
      (0x100000C + v.val * 0x10000) (1 + 4 * b2n keep)) ∧
    u.rd (VI_STATUS_GEN.p v) = g ∧ u.on (VI_STATUS_RESETTING.p v) = true ∧ (u.vi v).resetAt = some (s.cyc + 1)) ∧
  (∀ (req : Requester) (v : Fin 512) (keep : Bool) (s : State), s.Writer req → s.on (VI_STATUS_RESETTING.p v) = true →
    exec (.viReset req v keep) s = .next ((s.viEvent VI_EVENT_REFUSED v).wrote req (0x100000C + v.val * 0x10000) (1 + 4 * b2n keep))) ∧
  (∀ (v : Fin 512) (c : Nat) (s : State), (s.vi v).resetAt = some c → c < s.cyc → s.rd0 (VI_STATUS_INFLIGHT.p v) = 0 →
    s.inflight v = 0 → Answers (exec (.viResetDone v) s) (fun t =>
      t.on (VI_STATUS_RESETTING.p v) = false ∧ (t.vi v).resetAt = none ∧ t.on (VI_EVENT_RESET_DONE.p v) = true ∧
      ((s.vi v).keepRun = false → t.on (VI_CTRL_RUN.p v) = false) ∧
      ((s.vi v).keepRun = true → t.rd (VI_CTRL_RUN.p v) = s.rd (VI_CTRL_RUN.p v) ∧ (t.vi v).runFrom = s.clk.raised + 1) ∧
      t.recReqs = s.recReqs ++
        [{ src := 0x02, code := 0x11, data := v.val + (s.cyc - c) % 65536 * 65536, stamp := none, cyc := s.cyc }] ∧
      (∀ q, q ≠ v.val → t.vi q = s.vi q) ∧ BytesKept s t))

/-- R398–R401. OW_CLAIM: a present seat that claims while there is no owner becomes owner. OW_RELEASE: the owner releases. OW_OFFER: it offers to a
present seat, and OFFER_LAPSE: the offer lapses after HO_MS. OW_ACCEPT: the seat offered to accepts and becomes owner. REFRESH counts the lease
anew. LEASE_LAPSE, SEAT_ABSENT and OW_REVOKE: a lapsed lease, an absent seat and a revocation by a steward core end ownership with their causes.
Nothing but the ownership registers, their event and their records changes. -/
def Obligations.OwnershipCommands : Prop :=
  (∀ (req : Requester) (s : State), s.Reaches req → s.seat req ≠ 0xF → s.present (s.seat req) = true →
    s.rd0 OW_STATUS_OWNER = 0xF → s.owner = 0xF → (∀ c j, s.vis.claimed = some (c, j) → c ≠ s.cyc) →
    Answers (exec (.owClaim req) s) (fun t =>
      t.owner = s.seat req ∧ t.rd OW_STATUS_STATE = 1 ∧ t.rd OW_STATUS_TARGET = 0xF ∧ t.on OW_EVENT_CHANGE = true ∧
      t.recReqs = s.recReqs ++ [{ src := 0x02, code := 0x01, data := s.seat req, stamp := none, cyc := s.cyc }] ∧
      RegsKept [0x20000, OW_EVENT_CHANGE.addr, 0x30010] s t ∧ t = { s.withAccess t with vis := t.vis, recReqs := t.recReqs })) ∧
  (∀ (req : Requester) (s : State), s.Reaches req → s.isOwner req = true → s.owner = s.seat req →
    Answers (exec (.owRelease req) s) (fun t =>
      t.owner = 0xF ∧ t.rd OW_STATUS_STATE = 0 ∧ t.rd OW_STATUS_CAUSE = 1 ∧ t.on OW_EVENT_CHANGE = true ∧
      RegsKept [0x20000, OW_EVENT_CHANGE.addr, 0x30010] s t ∧ t = { s.withAccess t with vis := t.vis })) ∧
  (∀ (req : Requester) (k : Fin 16) (s : State), s.Reaches req → s.isOwner req = true → s.owner = s.rd0 OW_STATUS_OWNER → k.val < 8 →
    s.present k = true → k.val ≠ s.owner → Answers (exec (.owOffer req k) s) (fun t =>
      t.rd OW_STATUS_STATE = 2 ∧ t.rd OW_STATUS_TARGET = k.val ∧ t.owner = s.owner ∧
      t.vis = { s.vis with offerLapse := some (s.clk.lapse + s.rd OW_HO_HO_MS * uMs) } ∧
      RegsKept [0x20000] s t ∧ t = { s.withAccess t with vis := t.vis })) ∧
  (∀ (req : Requester) (s : State), s.Reaches req → s.seat req ≠ 0xF → s.present (s.seat req) = true →
    s.rd0 OW_STATUS_STATE = 2 → s.rd0 OW_STATUS_TARGET = s.seat req → s.owner = s.rd0 OW_STATUS_OWNER → s.rd OW_STATUS_STATE = 2 →
    s.vis.lapsed ≠ some s.cyc → Answers (exec (.owAccept req) s) (fun t =>
      t.owner = s.seat req ∧ t.rd OW_STATUS_STATE = 1 ∧ t.rd OW_STATUS_CAUSE = 5 ∧ t.on OW_EVENT_HANDOVER = true ∧
      t.recReqs = s.recReqs ++ [{ src := 0x02, code := 0x02, data := s.owner + s.seat req * 16, stamp := none, cyc := s.cyc }] ∧
      RegsKept [0x20000, OW_EVENT_CHANGE.addr, 0x30010] s t ∧ t = { s.withAccess t with vis := t.vis, recReqs := t.recReqs })) ∧
  (∀ (c : Nat) (s : State), s.vis.offerLapse = some c → s.rd OW_STATUS_STATE = 2 → c ≤ s.clk.lapse →
    Answers (exec .offerLapse s) (fun t =>
      t.rd OW_STATUS_STATE = 1 ∧ t.rd OW_STATUS_TARGET = 0xF ∧ t.owner = s.owner ∧ t.on OW_EVENT_LAPSED = true ∧
      t.vis = { s.vis with offerLapse := none, lapsed := some s.cyc } ∧
      RegsKept [0x20000, OW_EVENT_LAPSED.addr, 0x30010] s t ∧ t = { s.withEvents t with vis := t.vis, recReqs := t.recReqs })) ∧
  (∀ (req : Requester) (v : Word) (s : State), s.Reaches req → s.isOwner req = true → Answers (exec (.refresh req v) s) (fun t =>
    t.rd OW_LEASE_LEASE_MS = v.toNat % 65536 ∧ t.vis = { s.vis with leaseFrom := s.cyc } ∧
    RegsKept [OW_LEASE_LEASE_MS.addr] s t ∧ t = { s.withAccess t with vis := t.vis })) ∧
  (∀ s : State, s.owner ≠ 0xF →
    (s.rd OW_LEASE_LEASE_MS ≠ 0 → s.vis.leaseFrom + s.rd OW_LEASE_LEASE_MS * 1000000 ≤ s.cyc →
      Answers (exec .leaseLapse s) (fun t => t = loseOwner 3 s ∧ t.owner = 0xF ∧ t.rd OW_STATUS_CAUSE = 3)) ∧
    (s.present s.owner = false → Answers (exec .seatAbsent s) (fun t =>
      t = loseOwner 2 s ∧ t.owner = 0xF ∧ t.rd OW_STATUS_CAUSE = 2)) ∧
    (∀ req, s.Reaches req → s.asCore req = true → exec (.owRevoke req) s = .next ((loseOwner 4 s).wrote req 0x20030 1)) ∧
    (∀ c, c < 16 → (loseOwner c s).rd OW_STATUS_STATE = 0 ∧ (loseOwner c s).rd OW_STATUS_CAUSE = c ∧
      (loseOwner c s).owner = 0xF ∧ (loseOwner c s).on OW_EVENT_LOST = true ∧
      (loseOwner c s).recReqs = s.recReqs ++
        [{ src := 0x02, code := 0x04, data := s.owner + c * 256, stamp := none, cyc := s.cyc }] ∧
      RegsKept [0x20000, OW_EVENT_LOST.addr, 0x30010] s (loseOwner c s)))

/-! ### Key store and life cycle (17_keys.md) -/

/-- R408–R410, R415–R417. READ_ATTR, IMPORT, GENERATE, DERIVE, WRAP, UNWRAP, KS_INVALIDATE and SESSION_OUT by one who may give them, with the
store idle, not RETIRED, the attributes legal and the target not BAD (but for the owner), are taken with the data and blob registers as they
stand, and BUSY shows. KS_CMD_APPLY: the command applies after its cycles: an import leaves its slot VALID with its origin and integrity tag,
an invalidation leaves it EMPTY, READ_ATTR loads the attributes, and DONE is set; a slot that is BAD by then takes a write of the owner seat
only (R410). That the registers are read when the command is written is
the model's choice (log entry 35). -/
def Obligations.KeyStoreCommands : Prop :=
  (∀ (req : Requester) (d src : Fin 256) (rooted : Bool) (c : Instr) (v : Nat) (s : State), s.Writer req → s.on0 KS_STATUS_BUSY = false →
    s.ks.run = none → s.ks.prog = [] → s.retired = false →
    (c = .readAttr req d ∧ v = 2 ^ 28 + d.val) ∨ (c = .ksImport req d ∧ v = 2 * 2 ^ 28 + d.val) ∨
    (c = .generate req d ∧ v = 3 * 2 ^ 28 + d.val) ∨
    (c = .derive req d src rooted ∧ v = 4 * 2 ^ 28 + b2n rooted * 2 ^ 27 + src.val * 256 + d.val) ∨
    (c = .wrap req src ∧ v = 5 * 2 ^ 28 + src.val * 256) ∨ (c = .unwrap req d ∧ v = 6 * 2 ^ 28 + d.val) ∨
    (c = .ksInvalidate req d ∧ v = 7 * 2 ^ 28 + d.val) ∨ (c = .sessionOut req src ∧ v = 8 * 2 ^ 28 + src.val * 256) →
    (2 ≤ v / 2 ^ 28 → v / 2 ^ 28 ≤ 4 → attrBad s.ksData = false) →
    (ksWrites (v / 2 ^ 28) = true → kState (s.ksSlot d).bytes ≠ ksBad ∨ s.isOwner req = true) →
    (v / 2 ^ 28 = 8 → s.asCore req = true) → Answers (exec c s) (fun t =>
      t.ks = { s.ks with run := some {
        cmd := v, data := s.ksData, blob := s.rd KS_BLOB_LO_ADDR_LO * 16 + s.rd KS_BLOB_HI_ADDR_HI * 2 ^ 32
        done := s.cyc + ksCycles (v / 2 ^ 28), own := s.isOwner req } } ∧
      t.on KS_STATUS_BUSY = true ∧ RegsKept [KS_CMD_CMD.addr, KS_STATUS_BUSY.addr] s t ∧
      t = { s.withAccess t with ks := t.ks })) ∧
  (∀ (q : KsRun) (u : State) (s : State), s.ks.run = some q → q.done ≤ s.cyc → s.retired = false → s.ks.prog = [] →
    u = { s with ks := { s.ks with run := none } } →
    (ksWrites (bits q.cmd 31 28) = true → kState (s.ksSlot (q.cmd % 256)).bytes = ksBad → q.own = false →
      Answers (exec .ksCmdApply s) (fun t => t.rd KS_STATUS_CAUSE = 3 ∧ t.ks.slots = s.ks.slots ∧ t.ks.run = none ∧ t.mem = s.mem)) ∧
    (ksWrites (bits q.cmd 31 28) = false ∨ kState (s.ksSlot (q.cmd % 256)).bytes ≠ ksBad ∨ q.own = true → ∃ w, w = ksApply q u ∧
      exec .ksCmdApply s = .next { w with ks := { w.ks with before := some (w.cyc, s.ks.slots) } }) ∧
    (bits q.cmd 31 28 = 1 → (ksApply q u).ks.slots = s.ks.slots ∧ (ksApply q u).on KS_EVENT_DONE = true ∧
      (∀ i : Fin 4, aget (ksApply q u).ks.shown i.val = some (leAt (s.ksSlot (q.cmd % 256)).bytes (4 * i) 4))) ∧
    (bits q.cmd 31 28 = 2 → ∃ k, k = (ksApply q u).ksSlot (q.cmd % 256) ∧ kState k.bytes = ksValid ∧ kOrigin k.bytes = 0 ∧
      kLc k.bytes = s.rd KS_STATUS_LC ∧ k.tag = ksTag s.ks.kInt (q.cmd % 256) k.bytes ∧
      (ksApply q u).on KS_EVENT_DONE = true ∧ (ksApply q u).on KS_STATUS_BUSY = false ∧ (ksApply q u).mem = s.mem) ∧
    (bits q.cmd 31 28 = 7 → ((ksApply q u).ksSlot (q.cmd % 256)).bytes = List.replicate 64 0 ∧
      (ksApply q u).on KS_EVENT_DONE = true ∧ (ksApply q u).mem = s.mem))

/-- R411–R414. PROVISION, COMMISSION, RECOVER, INSTALL_ROOT, ADD_PKH1, REVOKE0 and RETIRE with the keyword, from the owner seat or seat 7, in a
state that allows it, hand their fuse groups over for programming, have their effect (a new root secret, its loss, or the end of all slots),
set LC and are recorded; with another keyword they are refused with cause LC. FUSE_PROGRAM_DONE: a group read back right takes its value, a
wrong one leaves the fuses and is reported. -/
def Obligations.LifeCycleCommands : Prop :=
  (∀ (req : Requester) (key : BitVec 16) (c : Instr) (n : Nat) (u w : State) (s : State), s.Reaches req → lcSeatOk s req = true →
    (c = .provision req key ∧ n = 1) ∨ (c = .commission req key ∧ n = 2) ∨ (c = .recover req key ∧ n = 3) ∨
    (c = .installRoot req key ∧ n = 4) ∨ (c = .addPkh1 req key ∧ n = 5) ∨ (c = .revoke0 req key ∧ n = 6) ∨
    (c = .retire req key ∧ n = 7) →
    (key = 0xC3A5 → lcAllowed s n = true →
      u = { s with ks := { s.ks with prog := s.ks.prog ++ lcGroups n (slice s.ksData 0 48) } } →
      w = ((lcEffect n u).ksRefresh).ksEvent KS_EVENT_LC →
      exec c s = .next ((w.record 0x05 0x03 (n + w.seat req * 16 + w.rd KS_STATUS_LC_NEXT * 256)).wrote req 0x6000C
        (key.toNat * 65536 + n)) ∧
      w.on KS_EVENT_LC = true ∧ w.nvm = s.nvm ∧ w.mem = s.mem ∧ w.ks.fuses = s.ks.fuses ∧
      (n = 1 → w.cl.root = leBytes 64 (Config.freeValue s.free) ∧ w.on CL_STATUS_ROOT_LOST = false) ∧
      (n = 3 → w.cl.root = List.replicate 64 0 ∧ w.on CL_STATUS_ROOT_LOST = true) ∧
      (n = 4 → w.cl.root = leBytes 64 (Config.freeValue s.free) ∧ w.ks.root = some (stateRoot w.cl.root 3)) ∧
      (n = 7 → w.cl.root = List.replicate 64 0 ∧ w.ks.slots = [] ∧ w.retired = true) ∧
      (n = 2 ∨ n = 5 ∨ n = 6 → w.cl = s.cl ∧ w.ks.slots = s.ks.slots)) ∧
    (key ≠ 0xC3A5 → Answers (exec c s) (fun t =>
      t.rd KS_STATUS_CAUSE = 0xA ∧ t.on KS_EVENT_REFUSED = true ∧
      RegsKept [KS_STATUS_CAUSE.addr, KS_CNT_REFUSED.addr, KS_EVENT_REFUSED.addr, 0x30010] s t ∧ t = s.withAccess t))) ∧
  (∀ (g : Nat) (d : List Byte) (rest : List (Nat × List Byte)) (s : State), s.ks.prog = (g, d) :: rest →
    Answers (exec (.fuseProgramDone false) s) (fun t =>
      t.ks = { s.ks with prog := rest, fuses := fuseSet g d s.ks.fuses } ∧
      (∀ i : Fin 12, t.rd (KS_PKH0_PKH.i i) = leAt t.ks.fuses.pkh0 (4 * i) 4) ∧
      (∀ i : Fin 12, t.rd (KS_PKH1_PKH.i i) = leAt t.ks.fuses.pkh1 (4 * i) 4) ∧
      (∀ a, a < 0x60080 ∨ 0x600F0 ≤ a → a ≠ KS_STATUS_LC.addr → t.word a = s.word a) ∧
      t = { s with regs := t.regs, ks := t.ks }) ∧
    Answers (exec (.fuseProgramDone true) s) (fun t =>
      t.ks.fuses = s.ks.fuses ∧ t.on KS_EVENT_FUSE_FAIL = true ∧
      t.ks.prog = (if g ≤ 1 then rest.filter (fun p => p.1 != 2) else rest) ∧
      t.recReqs = s.recReqs ++ [{ src := 0x05, code := 0x05, data := g, stamp := none, cyc := s.cyc }] ∧
      RegsKept [KS_STATUS_LC.addr, KS_EVENT_FUSE_FAIL.addr, 0x30010] s t ∧
      t = { s.withEvents t with ks := t.ks, recReqs := t.recReqs }))

/-! ### From power to service (18_start_to_service.md), the supplies (21_electrical_package.md) -/

/-- R27, R426–R428, R433, R443, R444, R493. RST_N_LOW and VIO_LOSS begin a cold entry of a powered module, RST_N_RELEASE and VIO_RESTORE end what
holds it, and HOST_PORT_RESET resets the host port alone. RESTART_COLD leaves COLD with empty memory, RESTART_WARM under its conditions
CELLAR_UP with the DRAM, and both the NOR and the fuses. PD1_RESET_RELEASE: COLD samples the straps and fixes the life cycle. PLL_M_LOCK,
DRAM_INIT_DONE and CELLAR_UP_COMPLETE complete CELLAR_UP in turn. PM_DORMANT, PM_WAKE and VANA_LOSS: domains rest, wake and fail. KICK begins a
watchdog period; WDOG_EXPIRY: one that passes is recorded, and restarts the module with ACTION 1. -/
def Obligations.StartsAndSupplies : Prop :=
  (∀ s : State, s.elec.vin = true →
    exec .rstNLow s = .next ({ s with elec := { s.elec with rst := true } }.restart 1 false) ∧
    exec .vioLoss s = .next ({ s with elec := { s.elec with vio := true } }.restart 1 false)) ∧
  (∀ s : State, exec .rstNRelease s = .next { s with elec := { s.elec with rst := false } } ∧
    exec .vioRestore s = .next { s with elec := { s.elec with vio := false } } ∧
    exec .hostPortReset s =
      .next { s with vis := { s.vis with numVfs := 0, pfMse := false, pfBme := false, pfFmask := false, vf := [] } }) ∧
  (∀ (req : Requester) (s : State), s.Writer req →
    exec (.restartCold req) s = .next ((s.restart 2 false).wrote req 0x10 (2 ^ 28)) ∧
    exec (.restartWarm req) s = .next ((s.restart 3 true).wrote req 0x10 (2 * 2 ^ 28))) ∧
  (∀ (tr : Nat) (warm : Bool) (t s : State), tr < 8 → t = s.restart tr warm →
    t.rd PM_ENTRY_TRIGGER = tr ∧ t.rd PM_ENTRY_KIND = b2n (warm && s.warmOk) ∧ t.nvm = s.nvm ∧ t.ks.fuses = s.ks.fuses ∧
    t.cl.root = s.cl.root ∧ t.pending = s.pending ∧ t.on PR_STATUS_ILK_IN = s.on PR_STATUS_ILK_IN ∧
    (warm = true → s.warmOk = true → t.bt = 1 ∧ t.dom 1 = 1 ∧ t.dom 14 = 1 ∧ ∀ a, a < 0x0200000000 → t.memByte a = s.memByte a) ∧
    (warm = false ∨ s.warmOk = false → t.bt = 0 ∧ t.mem = [] ∧ OutputsOff t ∧ ∀ d, 1 ≤ d → d < 16 → t.dom d = 0)) ∧
  (∀ (pair src wide : Bool) (s : State), s.bt = 0 → s.dom 1 ≠ 1 → s.elec.vin = true → s.elec.rst = false → s.elec.vio = false →
    s.cl.wakeDue = false → s.cl.por = false → Answers (exec (.pd1ResetRelease pair src wide) s) (fun t =>
      t.bt = 1 ∧ t.dom 1 = 1 ∧ t.on PM_ID_PAIR_ID = pair ∧ t.on PM_ID_BOOT_SRC = src ∧ t.on PM_ID_NVM_WIDTH = wide ∧
      t.rd KS_STATUS_LC = lcOf s.ks.fuses (s.on CL_STATUS_ROOT_LOST) ∧ t.ks.slots = [] ∧ t.ks.fuses = s.ks.fuses ∧ t.nvm = s.nvm)) ∧
  (∀ s : State, s.bt = 1 →
    (s.clk.running = false →
      exec .pllMLock s = .next ({ s with clk := { s.clk with running := true } }.wr HC_CTRL_GOV 1)) ∧
    (s.boot.dram = false → exec (.dramInitDone 0) s =
      .next (({ s with boot := { s.boot with dram := true } }.setDom 14 1).setDom 15 1)) ∧
    (s.boot.dram = false → Answers (exec (.dramInitDone 1) s) (fun t => t.bt = 0xF ∧ t.rd BT_STATUS_CAUSE = 0x10)) ∧
    (s.boot.dram = false → Answers (exec (.dramInitDone 2) s) (fun t => t.bt = 0xF ∧ t.rd BT_STATUS_CAUSE = 0x11 ∧ t.dom 14 = 3)) ∧
    (s.boot.dram = false → Answers (exec (.dramInitDone 3) s) (fun t => t.bt = 0xF ∧ t.rd BT_STATUS_CAUSE = 0x11 ∧ t.dom 15 = 3)) ∧
    (s.boot.dram = true → s.clk.running = true → ∀ (answers : Bool) (size : Nat),
      Answers (exec (.cellarUpComplete answers size) s) (fun t =>
        t.bt = 2 ∧ (∃ d, d = (if answers then s.directory size else []) ∧ t.boot.dir = d ∧
          t.rd BT_IMG_A_CAUSE = imageCause s d false ∧ t.rd BT_IMG_B_CAUSE = imageCause s d true) ∧
        t.boot.waitFrom = s.clk.lapse ∧ t.boot.apOpen = !s.on PM_ID_BOOT_SRC ∧ t.nvm = s.nvm ∧ t.mem = s.mem))) ∧
  (∀ (req : Requester) (pd : Fin 16) (s : State), s.Writer req →
    (s.mayRest pd = true → exec (.pmDormant req pd) s = .next ((s.rest pd).wrote req 0x10 (3 * 2 ^ 28 + pd.val)) ∧
      (s.dom pd = 1 → s.rest pd = s.unpower pd 2 ∧ (s.rest pd).dom pd = 2) ∧ (s.dom pd ≠ 1 → s.rest pd = s)) ∧
    (s.dom pd = 2 → (∀ w, (pd.val, w) ∉ s.arch.wakes) → Answers (exec (.pmWake req pd) s) (fun t =>
      t.arch = { s.arch with wakes := s.arch.wakes ++ [(pd.val, s.clk.lapse + 50 * uUs)] } ∧ t.dom pd = 2 ∧
      RegsKept [] s t ∧ t = { s.withAccess t with arch := t.arch })) ∧
    (∀ v : Word, s.boot.cores.isSome = true → Answers (exec (.kick req v) s) (fun t =>
      t.boot = { s.boot with wdRuns := true, wdFrom := s.clk.lapse } ∧ t.rd PM_WDOG_MS = v.toNat % 65536 ∧
      t.on PM_WDOG_ACTION = bit v.toNat 30 ∧ RegsKept [PM_WDOG_MS.addr] s t ∧ t = { s.withAccess t with boot := t.boot }))) ∧
  (∀ s : State, s.boot.wdRuns = true → s.rd PM_WDOG_MS ≠ 0 → s.boot.wdFrom + s.rd PM_WDOG_MS * uMs < s.clk.lapse →
    ∃ u, u = { s with boot := { s.boot with wdFrom := s.clk.lapse } }.pmEvent PM_EVENT_WDOG ∧
      u.on PM_EVENT_WDOG = true ∧ (s.on PM_WDOG_ACTION = false → exec .wdogExpiry s = .next (u.pmRecord 0x07 0)) ∧
      (s.on PM_WDOG_ACTION = true → exec .wdogExpiry s = .next ((u.recordThrough 0x01 0x07 1).restart 4 true) ∧
        (s.on0 EV_CTRL_EN = true → s.ev.scan = false → s.ev.queue = [] → ∃ b,
          aget ((u.recordThrough 0x01 0x07 1).restart 4 true).ev.ring (s.ev.next % 4096) = some (s.ev.next, b) ∧
          slice b 22 3 = [0x01, 0x07, 1]))) ∧
  (∀ s : State, s.dom 12 = 1 ∨ s.dom 12 = 2 → Answers (exec .vanaLoss s) (fun t =>
    t = s.domainFail 12 ∧ t.dom 12 = 3 ∧ t.on PM_EVENT_DOMAIN = true ∧
    (s.bt = 5 ∨ s.bt = 6 → t.on PM_STATUS_DEGRADED = true) ∧
    (s.bt ≠ 5 → s.bt ≠ 6 → t.rd PM_STATUS_DEGRADED = s.rd PM_STATUS_DEGRADED)))

/-- R432–R442. BOOT_SRC_TIMEOUT opens the aperture in BOOT_WAIT; BOOT_APERTURE_WRITE takes words of the bundle while it is open and counts them
otherwise; SUBMIT and ABORT of PF0. VERIFY_DONE: a bundle that fails returns to BOOT_WAIT with its cause, a good one enters CONFIGURE in
PROVISIONING and FIELD. IMAGE_CHECKS_DONE: an image is used or fails with its cause. DOMAIN_POWER_UP: a domain is powered or fails. SELF_TEST_DONE
fences clusters. SECTIONS_APPLY: with the minimum set the sections are applied and DISCOVER begins. ENTER and DISCOVER_TIMEOUT end it in
SERVICE. -/
def Obligations.BootCommands : Prop :=
  (∀ s : State, s.bt = 2 →
    (s.on PM_ID_BOOT_SRC = true → s.boot.begun = false → s.boot.waitFrom + 2 * uS ≤ s.clk.lapse →
      exec .bootSrcTimeout s = .next { s with boot := { s.boot with apOpen := true } }) ∧
    (∀ (o : Fin 16777216) (v : Word), s.vis.pfMse = false → exec (.bootApertureWrite o v) s = .next s) ∧
    (∀ (o : Fin 16777216) (v : Word), s.vis.pfMse = true → s.boot.apOpen = true →
      exec (.bootApertureWrite o v) s = .next (s.storeN (0x01FC000000 + 4 * o.val) 4 v.toNat)) ∧
    (∀ (o : Fin 16777216) (v : Word), s.vis.pfMse = true → s.boot.apOpen = false →
      Answers (exec (.bootApertureWrite o v) s) (fun t => t.rd BT_CNT_AP_LATE = min (s.rd BT_CNT_AP_LATE + 1) 65535 ∧
        RegsKept [BT_CNT_AP_LATE.addr] s t ∧ t = s.withRegs t)) ∧
    (s.vis.pfMse = true → Answers (exec (.submit .pf0) s) (fun t =>
      t.bt = 3 ∧ t.rd BT_STATUS_SRC = 1 ∧ t.boot = { s.boot with subLen := s.rd BT_DL_LEN_LEN } ∧ t.pr.rx = none ∧ t.mem = s.mem)) ∧
    (s.vis.pfMse = true → exec (.abort .pf0) s =
      .next (({ s with pr := { s.pr with rx := none } } : State).wrote .pf0 0x10008 2))) ∧
  (∀ s : State, s.bt = 3 →
    (bundleCause s ≠ 0 → Answers (exec .verifyDone s) (fun t =>
      t.bt = 2 ∧ t.rd BT_STATUS_CAUSE = bundleCause s ∧ t.on BT_EVENT_VERIFY_FAIL = true ∧ t.boot.waitFrom = s.clk.lapse ∧
      t.rd BT_CNT_VERIFY_FAIL = min (s.rd BT_CNT_VERIFY_FAIL + 1) 65535 ∧ t.mem = s.mem ∧ t.nvm = s.nvm)) ∧
    (bundleCause s = 0 → s.rd KS_STATUS_LC = 1 ∨ s.rd KS_STATUS_LC = 2 →
      ∃ u h, h = s.load 0x01FC000000 512 ∧ u = s.wr BT_FW_VER_FW_VER (leAt h 12 4) ∧
        (∃ w, w = ({ u with boot := { u.boot with cores := some (0x01FC000000 + leAt h 16 4) } } : State) ∧
          exec .verifyDone s = .next ((w.btEnter 4).tryImage w.firstImage))) ∧
    (bundleCause s = 0 → s.rd KS_STATUS_LC = 0 ∨ s.rd KS_STATUS_LC = 3 ∨ s.rd KS_STATUS_LC = 15 →
      Answers (exec .verifyDone s) (fun t => t.bt = 0xF ∧ t.rd BT_STATUS_CAUSE = 0x14 ∧ t.mem = s.mem))) ∧
  (∀ (b : Bool) (s : State), s.bt = 4 → s.boot.trial = some b →
    exec (.imageChecksDone false) s = .next (imageFail b 0x0A s) ∧
    (∃ h body t, h = s.imgHeader b ∧ body = s.imgBody b ∧ t = s.store addrStaging body ∧
      (bodyCause h body t = 0 → exec (.imageChecksDone true) s = .next (useImage b h t) ∧
        (useImage b h t).boot.trial = none ∧ (useImage b h t).boot.hdr = h) ∧
      (bodyCause h body t ≠ 0 → exec (.imageChecksDone true) s = .next (imageFail b (bodyCause h body t) t)))) ∧
  (∀ (d : Nat) (rest : List Nat) (s : State), s.bt = 4 → s.boot.todo = d :: rest → d < 16 →
    ∃ u, u = ({ s with boot := { s.boot with todo := rest } } : State) ∧
      exec (.domainPowerUp true) s = .next ((u.setDom d 1).portsOn d) ∧ (u.setDom d 1).dom d = 1 ∧
      exec (.domainPowerUp false) s = .next (u.domainFail d) ∧ (u.domainFail d).dom d = 3) ∧
  (∀ (q : Fin 4) (fails : BitVec 8) (s : State), s.bt = 4 → s.dom (2 + q.val) = 1 → s.boot.tested.contains q.val = false →
    Answers (exec (.selfTestDone q fails) s) (fun t =>
      t.boot = { s.boot with tested := q.val :: s.boot.tested } ∧
      (∀ c : Fin 32, t.fenced c = (s.fenced c || (decide (c.val / 8 = q.val) && bit fails.toNat (c.val % 8)))) ∧
      t.mem = s.mem ∧ t.nvm = s.nvm)) ∧
  (∀ s : State, s.bt = 4 → s.domainsDone = true →
    (s.minimumSet = false → Answers (exec .sectionsApply s) (fun t => t.bt = 0xF ∧ t.rd BT_STATUS_CAUSE = 0x13 ∧ t.mem = s.mem ∧
      t.rd PM_STATUS_DEGRADED = s.rd PM_STATUS_DEGRADED)) ∧
    (s.rd PM_FENCE_FENCE ≠ 0 ∨ (∃ d, d < 16 ∧ s.dom d = 3) → s.degradedStart.on PM_STATUS_DEGRADED = true) ∧
    (s.minimumSet = true → ∃ u w, u = applySections
        (sectionsOf (imgSections s.boot.hdr) (s.load addrStaging (imgBodyLen s.boot.hdr))) s.degradedStart ∧
      w = (forcesLost (restorePrograms u)).btEnter 5 ∧ w.bt = 5 ∧
      exec .sectionsApply s = .next (({ w with boot := { w.boot with discFrom := w.clk.lapse } } : State).pairDiscover))) ∧
  (∀ s : State, s.bt = 5 →
    (∀ req, s.Writer req → exec (.svcEnter req) s = .next ((s.enterService false).wrote req 0x10014 (2 ^ 31))) ∧
    (s.boot.discFrom + s.rd BT_SVC_DISC_MAX_S * uS ≤ s.clk.lapse → exec .discoverTimeout s = .next (s.enterService true)) ∧
    (∀ b, (s.enterService b).bt = 6 ∧ (s.enterService b).on HC_STATUS_GOV_LOCK = true))

/-! ### The redundant pair (19_redundant_pair.md) -/

/-- R454, R456, R458, R463–R465, R469, R470, R472, R479. A message of its type and epoch that has not come before is taken and shows the partner
present. HELLO_RX: a compatible partner pairs. TICK_RECORD_RX, SET_RECORD_RX, COPY_REQ_RX, COPY_RX, FORCE_MSG_RX, SYNC_REQ_RX, STATE_MSG_RX,
TWIN_REG_RX, TWIN_REG_RSP_RX, BUNDLE_REQ_RX, BUNDLE_DATA_RX and BUNDLE_END_RX: tick records, set records, copy requests and copies, forces,
synchronisations, state parts, register accesses and bundle parts have their effects on a module in the state that takes them; set records, the
listing of tick records and copies also on one that has claimed since their tick. No part of a copy's answer exceeds 8,192 bytes. HELLO_SEND,
SYNC_REQ_SEND and BUNDLE_REQ_SEND: they leave when they are due. BUNDLE_TIMEOUT: a transfer that pauses for 100 ms fails. -/
def Obligations.PairMessages : Prop :=
  (∀ (kind : Nat) (m : TwinRx) (s : State), s.Takes kind m →
    ∃ t, twinTake kind m s = (true, t) ∧ t.on PR_STATUS_PARTNER = true ∧
      t.pr = { s.pr with
        seen := if kind < 0x11 then (mSeq m.octets :: s.pr.seen).take 1024 else s.pr.seen
        lastRx := s.clk.lapse, peer := msgState m.octets } ∧
      RegsKept [PR_STATUS_PARTNER.addr, PR_EVENT_PARTNER.addr, 0x30010] s t ∧ t = { s.withEvents t with pr := t.pr }) ∧
  (∀ (m : TwinRx) (p : List Byte) (g : Nat) (t s : State), s.runs 10 = true → p = mBody m.octets → g = t.mTick m.octets →
    (s.Takes 1 m → t = (twinTake 1 m s).2 →
      ∃ u, u = ({ t with pr := { t.pr with peer := leAt p 0 1 % 8, peerBoot := leAt p 1 1 % 16 } } : State) ∧
        exec (.helloRx m) s = .next (if u.helloMisfit p = 0 then helloGood p u else helloBad (u.helloMisfit p) u)) ∧
    (s.Takes 2 m → t = (twinTake 2 m s).2 → s.standby = true →
      ∃ u, u = gooseList g ((List.range (leAt p 26 2)).map (fun i => slice p (28 + 12 * leAt p 24 2 + 8 * i) 8))
          ((List.range (leAt p 24 2)).foldl (fun x i => pubFix (slice p (28 + 12 * i) 12) x)
            (if mPart m.octets = 0 then pairOffset m t else t)) ∧
        exec (.tickRecordRx m) s = .next (if bit (leAt p 6 1) 0 then
          compareTick g p (followTrips (leAt p 4 2 % 4096) { u with pr := { u.pr with recs := (g :: u.pr.recs).take 16 } }) else u)) ∧
    (s.Takes 2 m → t = (twinTake 2 m s).2 → s.standby = false →
      exec (.tickRecordRx m) s = .next (if t.owned? g = true then t else gooseList g (recordGoose p) t)) ∧
    (∀ (grp : Nat) (ask : List Nat) (u : State), s.Takes 3 m → t = (twinTake 3 m s).2 →
      s.standby = true ∨ t.owned? g = false → grp = leAt p 0 1 % 64 →
      t.cyc + 32 ≤ t.cycleAt (t.closeOf grp g) →
      t.al.sets.any (fun o => o.tick == g && o.group == grp) = true →
      (setEntries p).foldl (fun a e => (a.1 ++ (adoptEntry g e a.2).1.toList, (adoptEntry g e a.2).2)) ([], t) = (ask, u) →
      exec (.setRecordRx m) s = .next (askCopies g 16 ask (u.addSet g grp (setEntries p) (bit (leAt p 1 1) 0)))) ∧
    (s.Takes 4 m → t = (twinTake 4 m s).2 → s.holdsClaim = true ∨ s.owned? g = true →
      ∃ l, exec (.copyReqRx m) s = .next ((packCopies l).zipIdx.foldl (fun u x => u.twinPart 5 g x.2 x.1) t) ∧
        l = (List.range (leAt p 0 2)).map (fun i => if bit (leAt p (2 + 4 * i) 4) 31
          then t.memberCopy g (leAt p (2 + 4 * i) 4 % 16384)
          else t.load (recAddr (leAt p (2 + 4 * i) 4 % 1024) g) 64) ∧
        (packCopies l).flatten = l.flatten ∧ ((∀ b, b ∈ l → b.length ≤ 8192) → ∀ b, b ∈ packCopies l → b.length ≤ 8192)) ∧
    (∀ a, s.Takes 5 m → t = (twinTake 5 m s).2 → s.standby = true ∨ t.owned? g = false →
      s.pr.asked.find? (fun x => x.1 == g && x.2.1 % 16 == mPart m.octets) = some a →
      exec (.copyRx m) s = .next (takePart a p t)) ∧
    (s.Takes 6 m → t = (twinTake 6 m s).2 → s.standby = true →
      ∃ u e, e = leAt p 40 1 % 64 ∧ u = (if leAt p 41 1 = 2 then frcSetOp e (slice p 0 32) t else frcClearOp e t) ∧
        exec (.forceMsgRx m) s = .next (if leAt p 32 8 ≤ u.tickG then (forceTake e (u.frc e) u).showForced else u)) ∧
    (s.Takes 7 m → t = (twinTake 7 m s).2 → s.holdsClaim = true → t.pairOn = true →
      exec (.syncReqRx m) s = .next { t with pr := { t.pr with pass := some t.smGroups, passOnce := false } }) ∧
    (∀ (grp : Nat) (u : State), s.Takes 8 m → t = (twinTake 8 m s).2 → s.pairState = 2 → grp = leAt p 0 2 % 4096 →
      s.pr.installed.contains grp = false →
      u = { t with pr := { t.pr with
        syncAt := none
        parts := t.pr.parts.filter (fun x => !(x.1 == grp && x.2.1 != g)) ++ [(grp, g, leAt p 2 2, leAt p 4 4, p.drop 8)] } } →
      exec (.stateMsgRx m) s = .next
        (if (u.smGroupOf grp).all (fun e => (u.arrived grp g e.1 (smBytes e.2)).length == smBytes e.2)
          then installGroup grp g (u.smGroupOf grp) u else u)) ∧
    (s.Takes 0x10 m → t = (twinTake 0x10 m s).2 →
      (s.inService = true → s.on PR_CTRL_SERVE_EN = true → s.pr.serve = none →
        exec (.bundleReqRx m) s = .next { t with pr := { t.pr with serve := some (0, s.cyc) } }) ∧
      (s.inService = false ∨ s.on PR_CTRL_SERVE_EN = false → exec (.bundleReqRx m) s =
        .next (t.twinQueue { due := s.cyc, kind := 0x12, payload := leBytes 4 0, single := true })))) ∧
  (∀ (m : TwinRx) (p : List Byte) (t s : State), p = mBody m.octets →
    (s.Takes 0x0B m → t = (twinTake 0x0B m s).2 → leAt p 5 1 = 1 → exec (.twinRegRx m) s =
      .next (access { req := .twin, addr := BitVec.ofNat 40 (leAt p 0 5), write := none } t)) ∧
    (s.Takes 0x0B m → t = (twinTake 0x0B m s).2 → leAt p 5 1 = 2 → exec (.twinRegRx m) s =
      .next (access { req := .twin, addr := BitVec.ofNat 40 (leAt p 0 5), write := some (BitVec.ofNat 32 (leAt p 8 4)) } t)) ∧
    (s.Takes 0x0C m → t = (twinTake 0x0C m s).2 → exec (.twinRegRspRx m) s =
      .next { t with pr := { t.pr with regRsp := some (leAt p 0 1, leAt p 8 4) } }) ∧
    (s.Takes 0x11 m → t = (twinTake 0x11 m s).2 → s.bt = 2 → s.on PM_ID_BOOT_SRC = true →
      ∃ o b, o = leAt p 0 4 ∧ b = (p.drop 4).take (67108864 - o) ∧ Answers (exec (.bundleDataRx m) s) (fun u =>
        u.pr.rx = some { last := s.clk.lapse, parts := (s.pr.rx.map (fun x => x.parts)).getD [] ++ [(o, b.length)] } ∧
        u.boot.begun = true ∧ (∀ i, i < b.length → u.memByte (0x01FC000000 + o + i) = b.getD i 0) ∧
        (∀ a, a < 0x01FC000000 + o ∨ 0x01FC000000 + o + b.length ≤ a → u.memByte a = s.memByte a) ∧ u.regs = t.regs)) ∧
    (∀ x, s.Takes 0x12 m → t = (twinTake 0x12 m s).2 → s.bt = 2 → s.on PM_ID_BOOT_SRC = true → s.pr.rx = some x → leAt p 0 4 ≠ 0 →
      exec (.bundleEndRx m) s = .next (if leAt p 0 4 ≤ covered x.parts x.parts.length 0 then t.submit (leAt p 0 4) 2
        else t.bundleFail))) ∧
  (∀ (c : Nat) (s : State), s.runs 10 = true → c ≤ s.clk.lapse →
    (s.pr.helloAt = some c → s.pairOp = true → exec .helloSend s = .next ({ s with pr := { s.pr with
      helloAt := some (c + uMs) } }.twinQueue { due := s.cyc, kind := 1, payload := s.helloBody })) ∧
    (s.pr.syncAt = some c → s.pairState = 2 → s.partnerOk = true → exec .syncReqSend s = .next ({ s with pr := { s.pr with
      syncAt := some (s.clk.lapse + 100 * uMs) } }.twinQueue { due := s.cyc, kind := 7 }))) ∧
  (∀ s : State, s.bt = 2 →
    (s.on PM_ID_BOOT_SRC = true → s.dom 10 = 1 → s.pr.rx = none → s.pr.reqNext ≤ s.clk.lapse → exec .bundleReqSend s =
      .next ({ s with pr := { s.pr with reqNext := s.clk.lapse + 100 * uMs } }.twinQueue
        { due := s.cyc, kind := 0x10, single := false })) ∧
    (∀ x, s.pr.rx = some x → x.last + 100 * uMs < s.clk.lapse → Answers (exec .bundleTimeout s) (fun t =>
      t = s.bundleFail ∧ t.pr.rx = none ∧ t.boot.apOpen = true ∧ t.on PR_EVENT_SERVE_FAIL = true)))

/-- R449–R453, R457, R458, R473–R477. CLAIM_WATCHDOG, with domain 1 working: it sets NOCLAIM and turns ILK_OUT and OEN_EXT off where a tick record
is owed. ILK_IN_FALL and ILK_IN_RISE without domain 1 change the pad's level only. With domains 1 and 10 working, PARTNER_TIMEOUT: a partner
not heard for 10 ms is absent. LEDGER_MISS_CHECK and ILK_IN_FALL: a standby detects failure by two missing records in a row or
a fallen ILK_IN, and STANDBY_CLAIM: it claims in the next tick-start cycle, driving its outputs in SERVICE unless module B's are blocked.
REVERT_HOLD_EXPIRY: module A asks to revert after HOLD_S; REVERT_REQ_RX: B accepts or refuses; REVERT_ACK_RX: A enters REVERTING or keeps the
cause; REVERT_CLAIM: A claims at its tick start of G_r; ILK_IN_RISE: B releases; REVERT_ACK_TIMEOUT and REVERT_RELEASE_TIMEOUT return them to where
they were. -/
def Obligations.ClaimsAndReverts : Prop :=
  (∀ s : State, s.runs 1 = true →
    (s.recordOwed = true → 10000 ≤ s.tickCy → s.on PR_STATUS_NOCLAIM = false → Answers (exec .claimWatchdog s) (fun t =>
      t.on PR_STATUS_NOCLAIM = true ∧ t.pairState = 2 ∧ t.on PR_STATUS_ILK_OUT = false ∧ t.on PR_STATUS_OEN_EXT = false ∧
      t.mem = s.mem ∧ t.nvm = s.nvm)) ∧
    (s.recordOwed = false ∨ s.tickCy < 10000 → exec .claimWatchdog s = .next s)) ∧
  (∀ s : State, s.runs 1 = false →
    (s.on PR_STATUS_ILK_IN = true → exec .ilkInFall s = .next (s.wr PR_STATUS_ILK_IN 0)) ∧
    (s.on PR_STATUS_ILK_IN = false → exec .ilkInRise s = .next (s.wr PR_STATUS_ILK_IN 1))) ∧
  ∀ s : State, s.runs 10 = true → s.runs 1 = true →
    (s.on PR_STATUS_PARTNER = true → s.pr.lastRx + 10 * uMs < s.clk.lapse → Answers (exec .partnerTimeout s) (fun t =>
      t.on PR_STATUS_PARTNER = false ∧ t.on PR_STATUS_COMPAT = false ∧ t.on PR_EVENT_PARTNER = true ∧
      t.pr.paired = false ∧ t.pr.seen = [] ∧ t.pr.pass = none ∧
      (s.pairState = 4 ∨ (s.pairState = 5 ∧ s.pr.wasActive = true) → t.pairState = 0))) ∧
    (∀ n, s.clk.prevTick = some n → s.standby = true → s.pairOp = true → 20000 ≤ s.tickCy →
      s.pr.checked ≠ some n → s.pr.standbyFrom ≤ n →
      (s.pr.recs.contains n = true →
        exec .ledgerMissCheck s = .next { s with pr := { s.pr with checked := some n, missed := false } }) ∧
      (s.pr.recs.contains n = false → s.pr.missed = false ∨ (s.on PR_STATUS_NOCLAIM = false ∧ s.pr.detected = none) →
        Answers (exec .ledgerMissCheck s) (fun t =>
          t.rd PR_CNT0_LEDGER_MISS = min (s.rd PR_CNT0_LEDGER_MISS + 1) 65535 ∧
          t.pr = { s.pr with
            checked := some n, missed := true
            detected := if s.pr.missed then some (s.clk.raised, 2) else s.pr.detected } ∧
          RegsKept [PR_CNT0_LEDGER_MISS.addr] s t ∧ t = { s.withRegs t with pr := t.pr }))) ∧
    (s.on PR_STATUS_ILK_IN = true → Answers (exec .ilkInFall s) (fun t =>
      t.on PR_STATUS_ILK_IN = false ∧ t.pairState = s.pairState ∧ t.on PR_STATUS_OEN_EXT = s.ilkWanted ∧
      (s.standby = true → s.on PR_STATUS_NOCLAIM = false → s.pr.detected = none → t.pr.detected = some (s.clk.raised, 1)))) ∧
    (s.on PR_STATUS_ILK_IN = false → Answers (exec .ilkInRise s) (fun t =>
      t.on PR_STATUS_ILK_IN = true ∧ (s.isB = true → t.on PR_STATUS_OEN_EXT = false) ∧
      (s.pairState = 5 → s.pr.wasActive = true → s.isB = true → t.pairState = 3 ∧ t.on PR_EVENT_CLAIM = true))) ∧
    (∀ r cause, s.pr.detected = some (r, cause) → r < s.clk.raised → s.tickCy = 0 → s.standby = true → s.on PR_STATUS_NOCLAIM = false →
      ((s.isB && s.on PR_STATUS_ILK_IN) = false → Answers (exec .standbyClaim s) (fun t =>
        t = ((claimTick s).prEnter 4).claimRecord (s.pairState != 2) cause ∧ t.pairState = 4 ∧ t.on PR_EVENT_CLAIM = true ∧
        t.pr.detected = none ∧ (s.inService = true → t.on PR_STATUS_ILK_OUT = true ∧ t.on PR_STATUS_OEN_EXT = true))) ∧
      ((s.isB && s.on PR_STATUS_ILK_IN) = true → Answers (exec .standbyClaim s) (fun t =>
        t.pairState = 4 ∧ t.on PR_EVENT_CLAIM = true ∧ t.on PR_STATUS_BLOCKED = true ∧ t.on PR_STATUS_OEN_EXT = false ∧
        t.rd PR_CNT4_CLAIM_BLOCKED = min (s.rd PR_CNT4_CLAIM_BLOCKED + 1) 65535))) ∧
    (s.pairState = 3 → s.isB = false → s.on PR_CTRL_REVERT_EN = true → s.on PR_STATUS_NOCLAIM = false → s.pr.revDue = false →
      s.pr.reqAt = none → s.pr.stepFrom + s.rd PR_REVERT_HOLD_S * uS ≤ s.clk.lapse →
      exec .revertHoldExpiry s = .next { s with pr := { s.pr with revDue := true } }) ∧
    (∀ (m : TwinRx) (t u : State), s.Takes 9 m → t = (twinTake 9 m s).2 → s.isB = true →
      u = t.twinTick 0xA (t.mTick m.octets) (leBytes 1 (t.revertCause (t.mTick m.octets))) →
      exec (.revertReqRx m) s = .next (if t.revertCause (t.mTick m.octets) = 0
        then ({ u with pr := { u.pr with wasActive := true, gr := some (t.mTick m.octets) } } : State).prEnter 5 else u)) ∧
    (∀ (m : TwinRx) (t : State), s.Takes 0xA m → t = (twinTake 0xA m s).2 → s.isB = false → s.pairState = 3 → s.pr.reqAt ≠ none →
      (leAt (mBody m.octets) 0 1 % 16 = 0 → Answers (exec (.revertAckRx m) s) (fun u =>
        u = ({ t with pr := { t.pr with wasActive := false, reqAt := none } } : State).prEnter 5 ∧ u.pairState = 5)) ∧
      (leAt (mBody m.octets) 0 1 % 16 ≠ 0 → exec (.revertAckRx m) s =
        .next { t with pr := { t.pr with ackCause := leAt (mBody m.octets) 0 1 % 16 } })) ∧
    (∀ r, s.pr.reqAt = some r → s.pairState = 3 → r + 4 ≤ s.clk.raised → Answers (exec .revertAckTimeout s) (fun t =>
      t.pr = { s.pr with reqAt := none, gr := none, stepFrom := s.clk.lapse } ∧ t.on PR_EVENT_REVERT_FAIL = true ∧ t.pairState = 3 ∧
      RegsKept [PR_EVENT_REVERT_FAIL.addr, 0x30010] s t ∧ t = { s.withEvents t with pr := t.pr, recReqs := t.recReqs })) ∧
    (∀ g, s.pr.gr = some g → s.pairState = 5 →
      (s.pr.wasActive = false → g = s.tickG → s.tickCy = 0 → s.on PR_STATUS_NOCLAIM = false → Answers (exec .revertClaim s) (fun t =>
        t = (s.prEnter 4).claimRecord true 4 ∧ t.pairState = 4 ∧ t.on PR_EVENT_CLAIM = true)) ∧
      (s.pr.wasActive = true → g < s.tickG → s.on PR_STATUS_ILK_IN = false → Answers (exec .revertReleaseTimeout s) (fun t =>
        t.pairState = 4 ∧ t.on PR_EVENT_REVERT_FAIL = true)))

/-! ### Events, errors and containment (20_events_errors.md) -/

/-- R374, R376, R484, R486–R490, R493. IC_SOFT_WRITE: a write of IC_SOFT pends its source. IC_FENCE_GO: a fence stops its cluster and is recorded.
MSIX_SEND: a due message of a vector that is not held is sent. ECC_SCRUB: a corrected error is counted, an uncorrectable one logged where the
log is free and contained. PLL_M_LOSS, FATAL_STOP and VIN_OVERVOLTAGE: the loss of PLL_M, of a domain's power-good or of the boot region, and VIN
above its limit, stop service with their causes: ILK_OUT and OEN_EXT fall and FATAL stays. PCIE_CONFIG_WRITE: once CELLAR_UP has ended, a write
to a function that exists is taken. -/
def Obligations.EventsAndContainment : Prop :=
  (∀ (req : Requester) (s : State), s.Writer req →
    (∀ v : Word, Answers (exec (.icSoftWrite req v) s) (fun t =>
      t.word 0x3002C = (s.word 0x3002C ||| 2 ^ (v.toNat % 16)) ∧ RegsKept [0x3002C] s t ∧ t = s.withAccess t)) ∧
    (∀ c : Fin 32, exec (.icFenceGo req c) s = .next ((s.fence c).wrote req 0x3000C (2 ^ 31 + c.val)))) ∧
  (∀ (c : Fin 32) (s : State), s.fenced c = false → (s.fence c).fenced c = true ∧
    (s.bt = 5 ∨ s.bt = 6 → (s.fence c).on PM_STATUS_DEGRADED = true) ∧
    (s.fence c).on PM_EVENT_FENCE = true ∧ (∀ d : Fin 32, d ≠ c → (s.fence c).fenced d = s.fenced d) ∧
    (s.fence c).recReqs = s.recReqs ++ [{ src := 0x01, code := 0x05, data := c.val, stamp := none, cyc := s.cyc }]) ∧
  (∀ (vec : Fin 64) (s : State), s.ic.due.contains vec.val = true → s.vecHeld vec = false →
    exec (.msixSend vec) s = .next { s with ic := { s.ic with
      due := s.ic.due.filter (fun v => v != vec.val), sent := s.ic.sent + 1, lastVec := vec.val } }) ∧
  (∀ (mem : Fin 12) (addr : BitVec 40) (syn : Fin 256) (s : State),
    exec (.eccScrub mem addr 0 syn) s = .next s ∧
    Answers (exec (.eccScrub mem addr 1 syn) s) (fun t =>
      t = eccCorrected mem s ∧ t.rd IC_G_CE = min (s.rd IC_G_CE + 1) 65535 ∧ t.mem = s.mem ∧ t = s.withEvents t) ∧
    (∃ u, u = eccLog mem addr.toNat syn s ∧ exec (.eccScrub mem addr 2 syn) s = .next (contain mem addr.toNat u) ∧
      u.rd IC_G_UE = min (s.rd IC_G_UE + 1) 65535 ∧
      (s.on IC_ECC_LOG0_VALID = false → u.on IC_ECC_LOG0_VALID = true ∧ u.rd IC_ECC_LOG0_MEM = mem.val ∧
        u.rd IC_ECC_LOG0_SYNDROME = syn.val) ∧ u = s.withEvents u)) ∧
  (∀ s : State,
    (∀ cause : Fin 4, cause.val = 1 ∨ cause.val = 2 → s.dom 1 = 1 → exec (.fatalStop cause) s = .next (s.fatal cause)) ∧
    (s.dom 1 = 1 → exec (.fatalStop 3) s = .next (s.powerLost.fatal 3)) ∧
    (∃ b, s.powerLost = { s with free := s.free + 1, elec := { s.elec with pgLost := b } }) ∧
    (∀ u : State, u.elec.pgLost = true → u.warmOk = false) ∧
    (s.clk.running = true → exec .pllMLoss s = .next (({ s with clk := { s.clk with running := false } } : State).fatal 2)) ∧
    (s.elec.vin = true → exec .vinOvervoltage s = .next (({ s with elec := { s.elec with pgLost := true } } : State).fatal 3)) ∧
    (∀ c, c < 256 → s.on IC_STATUS_FATAL = false → (s.fatal c).on IC_STATUS_FATAL = true ∧ (s.fatal c).rd IC_STATUS_CAUSE = c ∧
      (s.fatal c).on PR_STATUS_ILK_OUT = false ∧ (s.fatal c).on PR_STATUS_OEN_EXT = false ∧
      (∀ d, (s.fatal c).runs d = false) ∧ (s.fatal c).mem = s.mem ∧ (s.fatal c).nvm = s.nvm)) ∧
  (∀ (c : PcieCfg) (s : State), 2 ≤ s.rd0 BT_STATUS_STATE → s.functionOf c = true →
    exec (.pcieConfigWrite c) s = .next (cfgWrite c s) ∧
    (∀ n, c = .numVfs n → cfgWrite c s = { s with vis := { s.vis with numVfs := min n.val s.vis.sriov.totalVfs } }) ∧
    (∀ b, c = .mse none b → cfgWrite c s = { s with vis := { s.vis with pfMse := b } }) ∧
    (∀ b, c = .bme none b → cfgWrite c s = { s with vis := { s.vis with pfBme := b } }) ∧
    (∀ b, c = .fmask none b → cfgWrite c s = { s with vis := { s.vis with pfFmask := b } }) ∧
    (∀ v b, c = .mse (some v) b → cfgWrite c s = s.setVf v { s.vf v with mse := b }) ∧
    (∀ v b, c = .bme (some v) b → (cfgWrite c s).vf v = ({ s.vf v with bme := b } : Vf).release) ∧
    (∀ v b, c = .fmask (some v) b → (cfgWrite c s).vf v = ({ s.vf v with fmask := b } : Vf).release) ∧
    (∀ v k e, c = .msix v k e → (cfgWrite c s).vf v = ({ s.vf v with table := aput (s.vf v).table k e } : Vf).release) ∧
    (∀ f : Vf, (f.bme = true → f.fmask = false → (∀ k, k ∈ f.pend → (agetD f.table k {}).mask = false) → f.release.pend = []) ∧
      (∀ k, f.pend.contains k = true → f.holds k = true → f.release.pend.contains k = true) ∧
      f.release.table = f.table ∧ f.release.bme = f.bme ∧ f.release.fmask = f.fmask) ∧
    (∀ v, c = .bme (some v) false ∨ c = .fmask (some v) true → ((cfgWrite c s).vf v).pend = (s.vf v).pend ∧
      (∀ w, w ≠ v.val → (cfgWrite c s).vf w = s.vf w)))
end

