-- ==== Sys2Proof/Laws/Assoc.lean ====
section
/-!
SUPPORT. Reading sparse tables after writing them, and the canonical form that writing keeps.
-/
namespace Sys2Proof.Machine

variable {α : Type}

@[simp] theorem aget_nil (k : Nat) : aget ([] : List (Nat × α)) k = none := rfl

@[simp] theorem aget_aput_self (m : List (Nat × α)) (k : Nat) (v : α) : aget (aput m k v) k = some v := by
  induction m with
  | nil => simp [aput, aget]
  | cons p t ih =>
    obtain ⟨j, w⟩ := p
    simp only [aput]
    split
    · simp [aget]
    · split
      · simp [aget]
      · simp [aget, ih, Ne.symm ‹_›]

theorem aget_aput_ne (m : List (Nat × α)) {k k' : Nat} (v : α) (h : k' ≠ k) :
    aget (aput m k v) k' = aget m k' := by
  induction m with
  | nil => simp [aput, aget, Ne.symm h]
  | cons p t ih =>
    obtain ⟨j, w⟩ := p
    simp only [aput]
    split
    · subst_vars
      simp [aget, Ne.symm h]
    · split
      · simp [aget, Ne.symm h]
      · simp [aget, ih]

@[simp] theorem aget_adel_self (m : List (Nat × α)) (k : Nat) : aget (adel m k) k = none := by
  induction m with
  | nil => rfl
  | cons p t ih =>
    obtain ⟨j, w⟩ := p
    simp only [adel]
    split
    · exact ih
    · simp [aget, ih, ‹_›]

theorem aget_adel_ne (m : List (Nat × α)) {k k' : Nat} (h : k' ≠ k) : aget (adel m k) k' = aget m k' := by
  induction m with
  | nil => rfl
  | cons p t ih =>
    obtain ⟨j, w⟩ := p
    simp only [adel]
    split
    · subst_vars
      simp [aget, ih, Ne.symm h]
    · simp [aget, ih]

@[simp] theorem agetD_aput_self (m : List (Nat × α)) (k : Nat) (v d : α) : agetD (aput m k v) k d = v := by
  simp [agetD]

theorem agetD_aput_ne (m : List (Nat × α)) {k k' : Nat} (v d : α) (h : k' ≠ k) :
    agetD (aput m k v) k' d = agetD m k' d := by
  simp [agetD, aget_aput_ne m v h]

@[simp] theorem agetD_adel_self (m : List (Nat × α)) (k : Nat) (d : α) : agetD (adel m k) k d = d := by
  simp [agetD]

theorem agetD_adel_ne (m : List (Nat × α)) {k k' : Nat} (d : α) (h : k' ≠ k) :
    agetD (adel m k) k' d = agetD m k' d := by
  simp [agetD, aget_adel_ne m h]

@[simp] theorem agetD_cput_self [DecidableEq α] (d : α) (m : List (Nat × α)) (k : Nat) (v : α) :
    agetD (cput d m k v) k d = v := by
  unfold cput
  split <;> simp [*]

theorem agetD_cput_ne [DecidableEq α] (d d' : α) (m : List (Nat × α)) {k k' : Nat} (v : α) (h : k' ≠ k) :
    agetD (cput d m k v) k' d' = agetD m k' d' := by
  unfold cput
  split
  · exact agetD_adel_ne m d' h
  · exact agetD_aput_ne m v d' h

/-! ### The canonical form -/

/-- Every key of the table lies above `b`. -/
def keysAbove (b : Nat) (m : List (Nat × α)) : Prop := ∀ p ∈ m, b < p.1

theorem sortedKeys_cons (j : Nat) (w : α) (t : List (Nat × α)) :
    sortedKeys ((j, w) :: t) = true ↔ keysAbove j t ∧ sortedKeys t = true := by
  induction t generalizing j w with
  | nil => simp [sortedKeys, keysAbove]
  | cons p t ih =>
    obtain ⟨k, x⟩ := p
    simp only [sortedKeys, Bool.and_eq_true, decide_eq_true_eq, keysAbove, List.mem_cons]
    constructor
    · rintro ⟨h, hs⟩
      have ht := ((ih k x).1 hs).1
      refine ⟨?_, hs⟩
      rintro q (rfl | hq)
      · exact h
      · exact Nat.lt_trans h (ht q hq)
    · rintro ⟨h, hs⟩
      exact ⟨h (k, x) (.inl rfl), hs⟩

theorem mem_aput {m : List (Nat × α)} {k : Nat} {v : α} {p : Nat × α} (h : p ∈ aput m k v) :
    p = (k, v) ∨ p ∈ m := by
  induction m with
  | nil => simpa [aput] using h
  | cons q t ih =>
    obtain ⟨j, w⟩ := q
    simp only [aput] at h
    split at h
    · rcases List.mem_cons.1 h with h | h
      · exact .inl h
      · exact .inr (List.mem_cons_of_mem _ h)
    · split at h
      · rcases List.mem_cons.1 h with h | h
        · exact .inl h
        · exact .inr h
      · rcases List.mem_cons.1 h with h | h
        · exact .inr (by simp [h])
        · rcases ih h with h | h
          · exact .inl h
          · exact .inr (List.mem_cons_of_mem _ h)

theorem mem_adel {m : List (Nat × α)} {k : Nat} {p : Nat × α} (h : p ∈ adel m k) : p ∈ m := by
  induction m with
  | nil => exact h
  | cons q t ih =>
    obtain ⟨j, w⟩ := q
    simp only [adel] at h
    split at h
    · exact List.mem_cons_of_mem _ (ih h)
    · rcases List.mem_cons.1 h with h | h
      · simp [h]
      · exact List.mem_cons_of_mem _ (ih h)

theorem sortedKeys_aput (m : List (Nat × α)) (k : Nat) (v : α) (h : sortedKeys m = true) :
    sortedKeys (aput m k v) = true := by
  induction m with
  | nil => rfl
  | cons q t ih =>
    obtain ⟨j, w⟩ := q
    obtain ⟨ha, hs⟩ := (sortedKeys_cons j w t).1 h
    simp only [aput]
    split
    · subst_vars
      exact (sortedKeys_cons _ _ _).2 ⟨ha, hs⟩
    · split
      · refine (sortedKeys_cons _ _ _).2 ⟨?_, h⟩
        rintro p hp
        rcases List.mem_cons.1 hp with rfl | hp
        · assumption
        · exact Nat.lt_trans ‹_› (ha p hp)
      · refine (sortedKeys_cons _ _ _).2 ⟨?_, ih hs⟩
        intro p hp
        rcases mem_aput hp with rfl | hp
        · simp only
          omega
        · exact ha p hp

theorem sortedKeys_adel (m : List (Nat × α)) (k : Nat) (h : sortedKeys m = true) : sortedKeys (adel m k) = true := by
  induction m with
  | nil => rfl
  | cons q t ih =>
    obtain ⟨j, w⟩ := q
    obtain ⟨ha, hs⟩ := (sortedKeys_cons j w t).1 h
    simp only [adel]
    split
    · exact ih hs
    · exact (sortedKeys_cons _ _ _).2 ⟨fun p hp => ha p (mem_adel hp), ih hs⟩

/-- The canonical write keeps the canonical form. -/
theorem canonical_cput [DecidableEq α] (d : Nat → α) (m : List (Nat × α)) (k : Nat) (v : α)
    (h : canonical d m = true) : canonical d (cput (d k) m k v) = true := by
  simp only [canonical, Bool.and_eq_true, List.all_eq_true, decide_eq_true_eq] at h ⊢
  unfold cput
  split
  · exact ⟨sortedKeys_adel m k h.1, fun p hp => h.2 p (mem_adel hp)⟩
  · refine ⟨sortedKeys_aput m k v h.1, fun p hp => ?_⟩
    rcases mem_aput hp with rfl | hp
    · assumption
    · exact h.2 p hp

end Sys2Proof.Machine
end

