-- ==== Sys2Proof/Laws/Bits.lean ====
section
/-!
SUPPORT. Bit fields after a field has been replaced.
-/
namespace Sys2Proof.Machine

theorem bits_lt (x hi lo : Nat) : bits x hi lo < 2 ^ (hi + 1 - lo) := Nat.mod_lt _ (Nat.two_pow_pos _)

/-- A word as its part above a field, the field, and the part below. -/
theorem split_field (x lo w : Nat) :
    x = (x >>> lo / 2 ^ w) * 2 ^ w * 2 ^ lo + (x >>> lo % 2 ^ w) * 2 ^ lo + x % 2 ^ lo := by
  have h1 : x = 2 ^ lo * (x >>> lo) + x % 2 ^ lo := by
    rw [Nat.shiftRight_eq_div_pow]
    exact (Nat.div_add_mod x (2 ^ lo)).symm
  have h2 : x >>> lo = 2 ^ w * (x >>> lo / 2 ^ w) + x >>> lo % 2 ^ w := (Nat.div_add_mod _ _).symm
  calc x = 2 ^ lo * (x >>> lo) + x % 2 ^ lo := h1
    _ = 2 ^ lo * (2 ^ w * (x >>> lo / 2 ^ w) + x >>> lo % 2 ^ w) + x % 2 ^ lo := by rw [← h2]
    _ = _ := by ring

theorem setBits_eq (x hi lo v : Nat) :
    setBits x hi lo v = (x >>> lo / 2 ^ (hi + 1 - lo)) * 2 ^ (hi + 1 - lo) * 2 ^ lo +
      (v % 2 ^ (hi + 1 - lo)) * 2 ^ lo + x % 2 ^ lo := by
  have h := split_field x lo (hi + 1 - lo)
  simp only [setBits]
  generalize (x >>> lo / 2 ^ (hi + 1 - lo)) * 2 ^ (hi + 1 - lo) * 2 ^ lo = a at *
  generalize (x >>> lo % 2 ^ (hi + 1 - lo)) * 2 ^ lo = b at *
  generalize x % 2 ^ lo = c at *
  generalize (v % 2 ^ (hi + 1 - lo)) * 2 ^ lo = d at *
  omega

theorem testBit_setBits (x hi lo v i : Nat) (h : lo ≤ hi) :
    (setBits x hi lo v).testBit i =
      if lo ≤ i ∧ i ≤ hi then v.testBit (i - lo) else x.testBit i := by
  have e : setBits x hi lo v =
      2 ^ lo * (2 ^ (hi + 1 - lo) * (x >>> lo / 2 ^ (hi + 1 - lo)) + v % 2 ^ (hi + 1 - lo)) + x % 2 ^ lo := by
    rw [setBits_eq]
    ring
  rw [e, Nat.testBit_two_pow_mul_add _ (Nat.mod_lt _ (Nat.two_pow_pos _))]
  split
  · rw [if_neg (by omega), Nat.testBit_mod_two_pow]
    simp [*]
  · rw [Nat.testBit_two_pow_mul_add _ (Nat.mod_lt _ (Nat.two_pow_pos _))]
    split
    · rw [if_pos (by omega), Nat.testBit_mod_two_pow]
      simp [*]
    · rw [if_neg (by omega), Nat.testBit_div_two_pow, Nat.testBit_shiftRight]
      congr 1
      omega

theorem testBit_bits (x hi lo i : Nat) :
    (bits x hi lo).testBit i = (decide (i < hi + 1 - lo) && x.testBit (lo + i)) := by
  simp [bits, Nat.testBit_mod_two_pow, Nat.testBit_shiftRight]

/-- A field reads as it was set. -/
theorem bits_setBits_self (x hi lo v : Nat) (h : lo ≤ hi) :
    bits (setBits x hi lo v) hi lo = v % 2 ^ (hi + 1 - lo) := by
  apply Nat.eq_of_testBit_eq
  intro i
  rw [testBit_bits, testBit_setBits _ _ _ _ _ h, Nat.testBit_mod_two_pow]
  by_cases hi' : i < hi + 1 - lo
  · rw [if_pos (by omega)]
    simp [hi']
  · simp [hi']

/-- A field that shares no bit with the one set reads as before. -/
theorem bits_setBits_disjoint (x hi lo v hi' lo' : Nat) (h : lo ≤ hi) (hd : hi < lo' ∨ hi' < lo) :
    bits (setBits x hi lo v) hi' lo' = bits x hi' lo' := by
  apply Nat.eq_of_testBit_eq
  intro i
  rw [testBit_bits, testBit_bits, testBit_setBits _ _ _ _ _ h]
  by_cases hi2 : i < hi' + 1 - lo'
  · rw [if_neg (by omega)]
  · simp [hi2]

theorem setBits_lt (x hi lo v n : Nat) (h : lo ≤ hi) (hn : hi < n) (hx : x < 2 ^ n) : setBits x hi lo v < 2 ^ n := by
  apply Nat.lt_pow_two_of_testBit
  intro i hi'
  rw [testBit_setBits _ _ _ _ _ h, if_neg (by omega)]
  exact Nat.testBit_lt_two_pow (Nat.lt_of_lt_of_le hx (Nat.pow_le_pow_right (by omega) hi'))

@[simp] theorem b2n_true : b2n true = 1 := rfl
@[simp] theorem b2n_false : b2n false = 0 := rfl

end Sys2Proof.Machine
end

