-- ==== Sys2Proof/Laws/Regs.lean ====
section
/-!
SUPPORT. The register file: what a register or a field reads as after a register or a field has been written, counted or set.
-/
namespace Sys2Proof.Machine

theorem State.word_lt (s : State) (a : Nat) : s.word a < 2 ^ 32 := BitVec.isLt _

@[simp] theorem State.word_put_self (s : State) (a v : Nat) : (s.put a v).word a = v % 2 ^ 32 := by
  simp [State.word, State.put]

theorem State.word_put_ne (s : State) {a b : Nat} (v : Nat) (h : b ≠ a) : (s.put a v).word b = s.word b := by
  simp [State.word, State.put, agetD_cput_ne _ _ _ _ h]

/-- A field whose place lies inside a register. -/
def Fld.fits (f : Fld) : Prop := f.lo ≤ f.hi ∧ f.hi < 32

/-- Two fields that share no bit. -/
def Fld.apart (f g : Fld) : Prop := f.addr ≠ g.addr ∨ f.hi < g.lo ∨ g.hi < f.lo

@[simp] theorem State.word_wr_self (s : State) (f : Fld) (v : Nat) (h : f.fits) :
    (s.wr f v).word f.addr = setBits (s.word f.addr) f.hi f.lo v := by
  rw [State.wr, State.word_put_self]
  exact Nat.mod_eq_of_lt (setBits_lt _ _ _ _ _ h.1 h.2 (s.word_lt _))

theorem State.word_wr_ne (s : State) (f : Fld) {a : Nat} (v : Nat) (h : a ≠ f.addr) :
    (s.wr f v).word a = s.word a := State.word_put_ne _ _ h

/-- A field reads as the module has set it. -/
theorem State.rd_wr_self (s : State) (f : Fld) (v : Nat) (h : f.fits) :
    (s.wr f v).rd f = v % 2 ^ (f.hi + 1 - f.lo) := by
  rw [State.rd, State.word_wr_self s f v h, bits_setBits_self _ _ _ _ h.1]

/-- A field that shares no bit with the one set reads as before. -/
theorem State.rd_wr_apart (s : State) (f g : Fld) (v : Nat) (hf : f.fits) (h : f.apart g) :
    (s.wr f v).rd g = s.rd g := by
  by_cases e : g.addr = f.addr
  · rw [State.rd, e, State.word_wr_self s f v hf, bits_setBits_disjoint _ _ _ _ _ _ hf.1, State.rd, e]
    rcases h with h | h
    · exact absurd e.symm h
    · exact h
  · rw [State.rd, State.word_wr_ne s f v e, State.rd]

@[simp] theorem State.word_count (s : State) (f : Fld) (n a : Nat) :
    (s.count f n).word a = (s.wr f (satAdd f.width (s.rd f) n)).word a := rfl

@[simp] theorem State.word_flag (s : State) (f : Fld) (a : Nat) :
    (s.flag f).word a = (s.wr f (2 ^ f.width - 1)).word a := rfl

@[simp] theorem State.word_setBitsEv (s : State) (b m a : Nat) :
    (s.setBitsEv b m).word a = (s.put b (s.word b ||| m)).word a := rfl

@[simp] theorem State.word_makeDue (s : State) (es a : Nat) : (s.makeDue es).word a = s.word a := by
  unfold State.makeDue
  split <;> rfl

/-- A source's pending word has its bit set once it is raised (R484, R486). -/
theorem State.word_raise (s : State) (es a : Nat) :
    (s.raise es).word a = (s.put (0x30010 + es / 32 * 4) (s.word (0x30010 + es / 32 * 4) ||| 2 ^ (es % 32))).word a := by
  simp [State.raise]

theorem State.rd_of_word {s t : State} {f : Fld} (h : s.word f.addr = t.word f.addr) : s.rd f = t.rd f := by
  rw [State.rd, h, State.rd]

/-! ### Registers that an update leaves -/

theorem State.word_count_ne (s : State) (f : Fld) (n : Nat) {a : Nat} (h : a ≠ f.addr) : (s.count f n).word a = s.word a := by
  rw [State.word_count, State.word_wr_ne s f _ h]

theorem State.word_inc_ne (s : State) (f : Fld) {a : Nat} (h : a ≠ f.addr) : (s.inc f).word a = s.word a :=
  s.word_count_ne f 1 h

theorem State.word_flag_ne (s : State) (f : Fld) {a : Nat} (h : a ≠ f.addr) : (s.flag f).word a = s.word a := by
  rw [State.word_flag, State.word_wr_ne s f _ h]

theorem State.word_raise_ne (s : State) (es : Nat) {a : Nat} (h : a ≠ 0x30010 + es / 32 * 4) :
    (s.raise es).word a = s.word a := by
  rw [State.word_raise, State.word_put_ne _ _ h]

theorem State.word_event_ne (s : State) (f : Fld) (es : Nat) {a : Nat} (h : a ≠ f.addr) (h' : a ≠ 0x30010 + es / 32 * 4) :
    (s.event f es).word a = s.word a := by
  rw [State.event, State.word_raise_ne _ _ h', State.word_flag_ne _ _ h]

/-- A counter counts up to its all-ones value (R12). -/
theorem State.rd_inc_self (s : State) (f : Fld) (h : f.fits) : (s.inc f).rd f = min (s.rd f + 1) (2 ^ (f.hi + 1 - f.lo) - 1) := by
  have e : (s.inc f).rd f = (s.wr f (satAdd f.width (s.rd f) 1)).rd f := rfl
  have hl : s.rd f < 2 ^ (f.hi + 1 - f.lo) := bits_lt ..
  rw [e, State.rd_wr_self s f _ h, satAdd, Fld.width]
  split
  · rw [Nat.mod_eq_of_lt ‹_›]
    omega
  · rw [Nat.mod_eq_of_lt (by omega)]
    omega

/-- A flag reads all ones once an event has set it. -/
theorem State.rd_flag_self (s : State) (f : Fld) (h : f.fits) : (s.flag f).rd f = 2 ^ (f.hi + 1 - f.lo) - 1 := by
  have e : (s.flag f).rd f = (s.wr f (2 ^ f.width - 1)).rd f := rfl
  rw [e, State.rd_wr_self s f _ h, Fld.width, Nat.mod_eq_of_lt (Nat.sub_lt (Nat.two_pow_pos _) Nat.one_pos)]

theorem State.rd_event_self (s : State) (f : Fld) (es : Nat) (h : f.fits) (h' : f.addr ≠ 0x30010 + es / 32 * 4) :
    (s.event f es).rd f = 2 ^ (f.hi + 1 - f.lo) - 1 := by
  rw [State.event, State.rd_of_word (State.word_raise_ne _ _ h'), State.rd_flag_self s f h]

end Sys2Proof.Machine
end

