-- ==== Sys2Proof/Laws/State.lean ====
section
/-!
SUPPORT. One lemma for each field of the state and each of the named updates that leaves it as it is: no later proof unfolds a
record update.
-/
namespace Sys2Proof.Machine

/-! ### `State.put` -/

@[simp] theorem State.put_pending (s : State) (a v : Nat) : (s.put a v).pending = s.pending := by cases s; rfl
@[simp] theorem State.put_cyc (s : State) (a v : Nat) : (s.put a v).cyc = s.cyc := by cases s; rfl
@[simp] theorem State.put_regs0 (s : State) (a v : Nat) : (s.put a v).regs0 = s.regs0 := by cases s; rfl
@[simp] theorem State.put_evc (s : State) (a v : Nat) : (s.put a v).evc = s.evc := by cases s; rfl
@[simp] theorem State.put_free (s : State) (a v : Nat) : (s.put a v).free = s.free := by cases s; rfl
@[simp] theorem State.put_bus (s : State) (a v : Nat) : (s.put a v).bus = s.bus := by cases s; rfl
@[simp] theorem State.put_mem (s : State) (a v : Nat) : (s.put a v).mem = s.mem := by cases s; rfl
@[simp] theorem State.put_nvm (s : State) (a v : Nat) : (s.put a v).nvm = s.nvm := by cases s; rfl
@[simp] theorem State.put_recReqs (s : State) (a v : Nat) : (s.put a v).recReqs = s.recReqs := by cases s; rfl
@[simp] theorem State.put_arch (s : State) (a v : Nat) : (s.put a v).arch = s.arch := by cases s; rfl
@[simp] theorem State.put_clk (s : State) (a v : Nat) : (s.put a v).clk = s.clk := by cases s; rfl
@[simp] theorem State.put_ic (s : State) (a v : Nat) : (s.put a v).ic = s.ic := by cases s; rfl
@[simp] theorem State.put_ports (s : State) (a v : Nat) : (s.put a v).ports = s.ports := by cases s; rfl
@[simp] theorem State.put_hall (s : State) (a v : Nat) : (s.put a v).hall = s.hall := by cases s; rfl
@[simp] theorem State.put_sub (s : State) (a v : Nat) : (s.put a v).sub = s.sub := by cases s; rfl
@[simp] theorem State.put_al (s : State) (a v : Nat) : (s.put a v).al = s.al := by cases s; rfl
@[simp] theorem State.put_aq (s : State) (a v : Nat) : (s.put a v).aq = s.aq := by cases s; rfl
@[simp] theorem State.put_ds (s : State) (a v : Nat) : (s.put a v).ds = s.ds := by cases s; rfl
@[simp] theorem State.put_ln (s : State) (a v : Nat) : (s.put a v).ln = s.ln := by cases s; rfl
@[simp] theorem State.put_pb (s : State) (a v : Nat) : (s.put a v).pb = s.pb := by cases s; rfl
@[simp] theorem State.put_lg (s : State) (a v : Nat) : (s.put a v).lg = s.lg := by cases s; rfl
@[simp] theorem State.put_du (s : State) (a v : Nat) : (s.put a v).du = s.du := by cases s; rfl
@[simp] theorem State.put_cl (s : State) (a v : Nat) : (s.put a v).cl = s.cl := by cases s; rfl
@[simp] theorem State.put_ev (s : State) (a v : Nat) : (s.put a v).ev = s.ev := by cases s; rfl
@[simp] theorem State.put_tg (s : State) (a v : Nat) : (s.put a v).tg = s.tg := by cases s; rfl
@[simp] theorem State.put_vis (s : State) (a v : Nat) : (s.put a v).vis = s.vis := by cases s; rfl
@[simp] theorem State.put_ks (s : State) (a v : Nat) : (s.put a v).ks = s.ks := by cases s; rfl
@[simp] theorem State.put_elec (s : State) (a v : Nat) : (s.put a v).elec = s.elec := by cases s; rfl
@[simp] theorem State.put_boot (s : State) (a v : Nat) : (s.put a v).boot = s.boot := by cases s; rfl
@[simp] theorem State.put_pr (s : State) (a v : Nat) : (s.put a v).pr = s.pr := by cases s; rfl

/-! ### `State.wr` -/

@[simp] theorem State.wr_pending (s : State) (f : Fld) (v : Nat) : (s.wr f v).pending = s.pending := by cases s; rfl
@[simp] theorem State.wr_cyc (s : State) (f : Fld) (v : Nat) : (s.wr f v).cyc = s.cyc := by cases s; rfl
@[simp] theorem State.wr_regs0 (s : State) (f : Fld) (v : Nat) : (s.wr f v).regs0 = s.regs0 := by cases s; rfl
@[simp] theorem State.wr_evc (s : State) (f : Fld) (v : Nat) : (s.wr f v).evc = s.evc := by cases s; rfl
@[simp] theorem State.wr_free (s : State) (f : Fld) (v : Nat) : (s.wr f v).free = s.free := by cases s; rfl
@[simp] theorem State.wr_bus (s : State) (f : Fld) (v : Nat) : (s.wr f v).bus = s.bus := by cases s; rfl
@[simp] theorem State.wr_mem (s : State) (f : Fld) (v : Nat) : (s.wr f v).mem = s.mem := by cases s; rfl
@[simp] theorem State.wr_nvm (s : State) (f : Fld) (v : Nat) : (s.wr f v).nvm = s.nvm := by cases s; rfl
@[simp] theorem State.wr_recReqs (s : State) (f : Fld) (v : Nat) : (s.wr f v).recReqs = s.recReqs := by cases s; rfl
@[simp] theorem State.wr_arch (s : State) (f : Fld) (v : Nat) : (s.wr f v).arch = s.arch := by cases s; rfl
@[simp] theorem State.wr_clk (s : State) (f : Fld) (v : Nat) : (s.wr f v).clk = s.clk := by cases s; rfl
@[simp] theorem State.wr_ic (s : State) (f : Fld) (v : Nat) : (s.wr f v).ic = s.ic := by cases s; rfl
@[simp] theorem State.wr_ports (s : State) (f : Fld) (v : Nat) : (s.wr f v).ports = s.ports := by cases s; rfl
@[simp] theorem State.wr_hall (s : State) (f : Fld) (v : Nat) : (s.wr f v).hall = s.hall := by cases s; rfl
@[simp] theorem State.wr_sub (s : State) (f : Fld) (v : Nat) : (s.wr f v).sub = s.sub := by cases s; rfl
@[simp] theorem State.wr_al (s : State) (f : Fld) (v : Nat) : (s.wr f v).al = s.al := by cases s; rfl
@[simp] theorem State.wr_aq (s : State) (f : Fld) (v : Nat) : (s.wr f v).aq = s.aq := by cases s; rfl
@[simp] theorem State.wr_ds (s : State) (f : Fld) (v : Nat) : (s.wr f v).ds = s.ds := by cases s; rfl
@[simp] theorem State.wr_ln (s : State) (f : Fld) (v : Nat) : (s.wr f v).ln = s.ln := by cases s; rfl
@[simp] theorem State.wr_pb (s : State) (f : Fld) (v : Nat) : (s.wr f v).pb = s.pb := by cases s; rfl
@[simp] theorem State.wr_lg (s : State) (f : Fld) (v : Nat) : (s.wr f v).lg = s.lg := by cases s; rfl
@[simp] theorem State.wr_du (s : State) (f : Fld) (v : Nat) : (s.wr f v).du = s.du := by cases s; rfl
@[simp] theorem State.wr_cl (s : State) (f : Fld) (v : Nat) : (s.wr f v).cl = s.cl := by cases s; rfl
@[simp] theorem State.wr_ev (s : State) (f : Fld) (v : Nat) : (s.wr f v).ev = s.ev := by cases s; rfl
@[simp] theorem State.wr_tg (s : State) (f : Fld) (v : Nat) : (s.wr f v).tg = s.tg := by cases s; rfl
@[simp] theorem State.wr_vis (s : State) (f : Fld) (v : Nat) : (s.wr f v).vis = s.vis := by cases s; rfl
@[simp] theorem State.wr_ks (s : State) (f : Fld) (v : Nat) : (s.wr f v).ks = s.ks := by cases s; rfl
@[simp] theorem State.wr_elec (s : State) (f : Fld) (v : Nat) : (s.wr f v).elec = s.elec := by cases s; rfl
@[simp] theorem State.wr_boot (s : State) (f : Fld) (v : Nat) : (s.wr f v).boot = s.boot := by cases s; rfl
@[simp] theorem State.wr_pr (s : State) (f : Fld) (v : Nat) : (s.wr f v).pr = s.pr := by cases s; rfl

/-! ### `State.wrS` -/

@[simp] theorem State.wrS_pending (s : State) (f : Fld) (v : Int) : (s.wrS f v).pending = s.pending := by cases s; rfl
@[simp] theorem State.wrS_cyc (s : State) (f : Fld) (v : Int) : (s.wrS f v).cyc = s.cyc := by cases s; rfl
@[simp] theorem State.wrS_regs0 (s : State) (f : Fld) (v : Int) : (s.wrS f v).regs0 = s.regs0 := by cases s; rfl
@[simp] theorem State.wrS_evc (s : State) (f : Fld) (v : Int) : (s.wrS f v).evc = s.evc := by cases s; rfl
@[simp] theorem State.wrS_free (s : State) (f : Fld) (v : Int) : (s.wrS f v).free = s.free := by cases s; rfl
@[simp] theorem State.wrS_bus (s : State) (f : Fld) (v : Int) : (s.wrS f v).bus = s.bus := by cases s; rfl
@[simp] theorem State.wrS_mem (s : State) (f : Fld) (v : Int) : (s.wrS f v).mem = s.mem := by cases s; rfl
@[simp] theorem State.wrS_nvm (s : State) (f : Fld) (v : Int) : (s.wrS f v).nvm = s.nvm := by cases s; rfl
@[simp] theorem State.wrS_recReqs (s : State) (f : Fld) (v : Int) : (s.wrS f v).recReqs = s.recReqs := by cases s; rfl
@[simp] theorem State.wrS_arch (s : State) (f : Fld) (v : Int) : (s.wrS f v).arch = s.arch := by cases s; rfl
@[simp] theorem State.wrS_clk (s : State) (f : Fld) (v : Int) : (s.wrS f v).clk = s.clk := by cases s; rfl
@[simp] theorem State.wrS_ic (s : State) (f : Fld) (v : Int) : (s.wrS f v).ic = s.ic := by cases s; rfl
@[simp] theorem State.wrS_ports (s : State) (f : Fld) (v : Int) : (s.wrS f v).ports = s.ports := by cases s; rfl
@[simp] theorem State.wrS_hall (s : State) (f : Fld) (v : Int) : (s.wrS f v).hall = s.hall := by cases s; rfl
@[simp] theorem State.wrS_sub (s : State) (f : Fld) (v : Int) : (s.wrS f v).sub = s.sub := by cases s; rfl
@[simp] theorem State.wrS_al (s : State) (f : Fld) (v : Int) : (s.wrS f v).al = s.al := by cases s; rfl
@[simp] theorem State.wrS_aq (s : State) (f : Fld) (v : Int) : (s.wrS f v).aq = s.aq := by cases s; rfl
@[simp] theorem State.wrS_ds (s : State) (f : Fld) (v : Int) : (s.wrS f v).ds = s.ds := by cases s; rfl
@[simp] theorem State.wrS_ln (s : State) (f : Fld) (v : Int) : (s.wrS f v).ln = s.ln := by cases s; rfl
@[simp] theorem State.wrS_pb (s : State) (f : Fld) (v : Int) : (s.wrS f v).pb = s.pb := by cases s; rfl
@[simp] theorem State.wrS_lg (s : State) (f : Fld) (v : Int) : (s.wrS f v).lg = s.lg := by cases s; rfl
@[simp] theorem State.wrS_du (s : State) (f : Fld) (v : Int) : (s.wrS f v).du = s.du := by cases s; rfl
@[simp] theorem State.wrS_cl (s : State) (f : Fld) (v : Int) : (s.wrS f v).cl = s.cl := by cases s; rfl
@[simp] theorem State.wrS_ev (s : State) (f : Fld) (v : Int) : (s.wrS f v).ev = s.ev := by cases s; rfl
@[simp] theorem State.wrS_tg (s : State) (f : Fld) (v : Int) : (s.wrS f v).tg = s.tg := by cases s; rfl
@[simp] theorem State.wrS_vis (s : State) (f : Fld) (v : Int) : (s.wrS f v).vis = s.vis := by cases s; rfl
@[simp] theorem State.wrS_ks (s : State) (f : Fld) (v : Int) : (s.wrS f v).ks = s.ks := by cases s; rfl
@[simp] theorem State.wrS_elec (s : State) (f : Fld) (v : Int) : (s.wrS f v).elec = s.elec := by cases s; rfl
@[simp] theorem State.wrS_boot (s : State) (f : Fld) (v : Int) : (s.wrS f v).boot = s.boot := by cases s; rfl
@[simp] theorem State.wrS_pr (s : State) (f : Fld) (v : Int) : (s.wrS f v).pr = s.pr := by cases s; rfl

/-! ### `State.incW` -/

@[simp] theorem State.incW_pending (s : State) (f : Fld) (n : Nat) : (s.incW f n).pending = s.pending := by cases s; rfl
@[simp] theorem State.incW_cyc (s : State) (f : Fld) (n : Nat) : (s.incW f n).cyc = s.cyc := by cases s; rfl
@[simp] theorem State.incW_regs0 (s : State) (f : Fld) (n : Nat) : (s.incW f n).regs0 = s.regs0 := by cases s; rfl

@[simp] theorem State.incW_free (s : State) (f : Fld) (n : Nat) : (s.incW f n).free = s.free := by cases s; rfl
@[simp] theorem State.incW_bus (s : State) (f : Fld) (n : Nat) : (s.incW f n).bus = s.bus := by cases s; rfl
@[simp] theorem State.incW_mem (s : State) (f : Fld) (n : Nat) : (s.incW f n).mem = s.mem := by cases s; rfl
@[simp] theorem State.incW_nvm (s : State) (f : Fld) (n : Nat) : (s.incW f n).nvm = s.nvm := by cases s; rfl
@[simp] theorem State.incW_recReqs (s : State) (f : Fld) (n : Nat) : (s.incW f n).recReqs = s.recReqs := by cases s; rfl
@[simp] theorem State.incW_arch (s : State) (f : Fld) (n : Nat) : (s.incW f n).arch = s.arch := by cases s; rfl
@[simp] theorem State.incW_clk (s : State) (f : Fld) (n : Nat) : (s.incW f n).clk = s.clk := by cases s; rfl
@[simp] theorem State.incW_ic (s : State) (f : Fld) (n : Nat) : (s.incW f n).ic = s.ic := by cases s; rfl
@[simp] theorem State.incW_ports (s : State) (f : Fld) (n : Nat) : (s.incW f n).ports = s.ports := by cases s; rfl
@[simp] theorem State.incW_hall (s : State) (f : Fld) (n : Nat) : (s.incW f n).hall = s.hall := by cases s; rfl
@[simp] theorem State.incW_sub (s : State) (f : Fld) (n : Nat) : (s.incW f n).sub = s.sub := by cases s; rfl
@[simp] theorem State.incW_al (s : State) (f : Fld) (n : Nat) : (s.incW f n).al = s.al := by cases s; rfl
@[simp] theorem State.incW_aq (s : State) (f : Fld) (n : Nat) : (s.incW f n).aq = s.aq := by cases s; rfl
@[simp] theorem State.incW_ds (s : State) (f : Fld) (n : Nat) : (s.incW f n).ds = s.ds := by cases s; rfl
@[simp] theorem State.incW_ln (s : State) (f : Fld) (n : Nat) : (s.incW f n).ln = s.ln := by cases s; rfl
@[simp] theorem State.incW_pb (s : State) (f : Fld) (n : Nat) : (s.incW f n).pb = s.pb := by cases s; rfl
@[simp] theorem State.incW_lg (s : State) (f : Fld) (n : Nat) : (s.incW f n).lg = s.lg := by cases s; rfl
@[simp] theorem State.incW_du (s : State) (f : Fld) (n : Nat) : (s.incW f n).du = s.du := by cases s; rfl
@[simp] theorem State.incW_cl (s : State) (f : Fld) (n : Nat) : (s.incW f n).cl = s.cl := by cases s; rfl
@[simp] theorem State.incW_ev (s : State) (f : Fld) (n : Nat) : (s.incW f n).ev = s.ev := by cases s; rfl
@[simp] theorem State.incW_tg (s : State) (f : Fld) (n : Nat) : (s.incW f n).tg = s.tg := by cases s; rfl
@[simp] theorem State.incW_vis (s : State) (f : Fld) (n : Nat) : (s.incW f n).vis = s.vis := by cases s; rfl
@[simp] theorem State.incW_ks (s : State) (f : Fld) (n : Nat) : (s.incW f n).ks = s.ks := by cases s; rfl
@[simp] theorem State.incW_elec (s : State) (f : Fld) (n : Nat) : (s.incW f n).elec = s.elec := by cases s; rfl
@[simp] theorem State.incW_boot (s : State) (f : Fld) (n : Nat) : (s.incW f n).boot = s.boot := by cases s; rfl
@[simp] theorem State.incW_pr (s : State) (f : Fld) (n : Nat) : (s.incW f n).pr = s.pr := by cases s; rfl

/-! ### `State.setDom` -/

@[simp] theorem State.setDom_pending (s : State) (d v : Nat) : (s.setDom d v).pending = s.pending := by cases s; rfl
@[simp] theorem State.setDom_cyc (s : State) (d v : Nat) : (s.setDom d v).cyc = s.cyc := by cases s; rfl
@[simp] theorem State.setDom_regs0 (s : State) (d v : Nat) : (s.setDom d v).regs0 = s.regs0 := by cases s; rfl
@[simp] theorem State.setDom_evc (s : State) (d v : Nat) : (s.setDom d v).evc = s.evc := by cases s; rfl
@[simp] theorem State.setDom_free (s : State) (d v : Nat) : (s.setDom d v).free = s.free := by cases s; rfl
@[simp] theorem State.setDom_bus (s : State) (d v : Nat) : (s.setDom d v).bus = s.bus := by cases s; rfl
@[simp] theorem State.setDom_mem (s : State) (d v : Nat) : (s.setDom d v).mem = s.mem := by cases s; rfl
@[simp] theorem State.setDom_nvm (s : State) (d v : Nat) : (s.setDom d v).nvm = s.nvm := by cases s; rfl
@[simp] theorem State.setDom_recReqs (s : State) (d v : Nat) : (s.setDom d v).recReqs = s.recReqs := by cases s; rfl
@[simp] theorem State.setDom_arch (s : State) (d v : Nat) : (s.setDom d v).arch = s.arch := by cases s; rfl
@[simp] theorem State.setDom_clk (s : State) (d v : Nat) : (s.setDom d v).clk = s.clk := by cases s; rfl
@[simp] theorem State.setDom_ic (s : State) (d v : Nat) : (s.setDom d v).ic = s.ic := by cases s; rfl
@[simp] theorem State.setDom_ports (s : State) (d v : Nat) : (s.setDom d v).ports = s.ports := by cases s; rfl
@[simp] theorem State.setDom_hall (s : State) (d v : Nat) : (s.setDom d v).hall = s.hall := by cases s; rfl
@[simp] theorem State.setDom_sub (s : State) (d v : Nat) : (s.setDom d v).sub = s.sub := by cases s; rfl
@[simp] theorem State.setDom_al (s : State) (d v : Nat) : (s.setDom d v).al = s.al := by cases s; rfl
@[simp] theorem State.setDom_aq (s : State) (d v : Nat) : (s.setDom d v).aq = s.aq := by cases s; rfl
@[simp] theorem State.setDom_ds (s : State) (d v : Nat) : (s.setDom d v).ds = s.ds := by cases s; rfl
@[simp] theorem State.setDom_ln (s : State) (d v : Nat) : (s.setDom d v).ln = s.ln := by cases s; rfl
@[simp] theorem State.setDom_pb (s : State) (d v : Nat) : (s.setDom d v).pb = s.pb := by cases s; rfl
@[simp] theorem State.setDom_lg (s : State) (d v : Nat) : (s.setDom d v).lg = s.lg := by cases s; rfl
@[simp] theorem State.setDom_du (s : State) (d v : Nat) : (s.setDom d v).du = s.du := by cases s; rfl
@[simp] theorem State.setDom_cl (s : State) (d v : Nat) : (s.setDom d v).cl = s.cl := by cases s; rfl
@[simp] theorem State.setDom_ev (s : State) (d v : Nat) : (s.setDom d v).ev = s.ev := by cases s; rfl
@[simp] theorem State.setDom_tg (s : State) (d v : Nat) : (s.setDom d v).tg = s.tg := by cases s; rfl
@[simp] theorem State.setDom_vis (s : State) (d v : Nat) : (s.setDom d v).vis = s.vis := by cases s; rfl
@[simp] theorem State.setDom_ks (s : State) (d v : Nat) : (s.setDom d v).ks = s.ks := by cases s; rfl
@[simp] theorem State.setDom_elec (s : State) (d v : Nat) : (s.setDom d v).elec = s.elec := by cases s; rfl
@[simp] theorem State.setDom_boot (s : State) (d v : Nat) : (s.setDom d v).boot = s.boot := by cases s; rfl
@[simp] theorem State.setDom_pr (s : State) (d v : Nat) : (s.setDom d v).pr = s.pr := by cases s; rfl

/-! ### `State.count` -/

@[simp] theorem State.count_pending (s : State) (f : Fld) (n : Nat) : (s.count f n).pending = s.pending := by cases s; rfl
@[simp] theorem State.count_cyc (s : State) (f : Fld) (n : Nat) : (s.count f n).cyc = s.cyc := by cases s; rfl
@[simp] theorem State.count_regs0 (s : State) (f : Fld) (n : Nat) : (s.count f n).regs0 = s.regs0 := by cases s; rfl
@[simp] theorem State.count_free (s : State) (f : Fld) (n : Nat) : (s.count f n).free = s.free := by cases s; rfl
@[simp] theorem State.count_bus (s : State) (f : Fld) (n : Nat) : (s.count f n).bus = s.bus := by cases s; rfl
@[simp] theorem State.count_mem (s : State) (f : Fld) (n : Nat) : (s.count f n).mem = s.mem := by cases s; rfl
@[simp] theorem State.count_nvm (s : State) (f : Fld) (n : Nat) : (s.count f n).nvm = s.nvm := by cases s; rfl
@[simp] theorem State.count_recReqs (s : State) (f : Fld) (n : Nat) : (s.count f n).recReqs = s.recReqs := by cases s; rfl
@[simp] theorem State.count_arch (s : State) (f : Fld) (n : Nat) : (s.count f n).arch = s.arch := by cases s; rfl
@[simp] theorem State.count_clk (s : State) (f : Fld) (n : Nat) : (s.count f n).clk = s.clk := by cases s; rfl
@[simp] theorem State.count_ic (s : State) (f : Fld) (n : Nat) : (s.count f n).ic = s.ic := by cases s; rfl
@[simp] theorem State.count_ports (s : State) (f : Fld) (n : Nat) : (s.count f n).ports = s.ports := by cases s; rfl
@[simp] theorem State.count_hall (s : State) (f : Fld) (n : Nat) : (s.count f n).hall = s.hall := by cases s; rfl
@[simp] theorem State.count_sub (s : State) (f : Fld) (n : Nat) : (s.count f n).sub = s.sub := by cases s; rfl
@[simp] theorem State.count_al (s : State) (f : Fld) (n : Nat) : (s.count f n).al = s.al := by cases s; rfl
@[simp] theorem State.count_aq (s : State) (f : Fld) (n : Nat) : (s.count f n).aq = s.aq := by cases s; rfl
@[simp] theorem State.count_ds (s : State) (f : Fld) (n : Nat) : (s.count f n).ds = s.ds := by cases s; rfl
@[simp] theorem State.count_ln (s : State) (f : Fld) (n : Nat) : (s.count f n).ln = s.ln := by cases s; rfl
@[simp] theorem State.count_pb (s : State) (f : Fld) (n : Nat) : (s.count f n).pb = s.pb := by cases s; rfl
@[simp] theorem State.count_lg (s : State) (f : Fld) (n : Nat) : (s.count f n).lg = s.lg := by cases s; rfl
@[simp] theorem State.count_du (s : State) (f : Fld) (n : Nat) : (s.count f n).du = s.du := by cases s; rfl
@[simp] theorem State.count_cl (s : State) (f : Fld) (n : Nat) : (s.count f n).cl = s.cl := by cases s; rfl
@[simp] theorem State.count_ev (s : State) (f : Fld) (n : Nat) : (s.count f n).ev = s.ev := by cases s; rfl
@[simp] theorem State.count_tg (s : State) (f : Fld) (n : Nat) : (s.count f n).tg = s.tg := by cases s; rfl
@[simp] theorem State.count_vis (s : State) (f : Fld) (n : Nat) : (s.count f n).vis = s.vis := by cases s; rfl
@[simp] theorem State.count_ks (s : State) (f : Fld) (n : Nat) : (s.count f n).ks = s.ks := by cases s; rfl
@[simp] theorem State.count_elec (s : State) (f : Fld) (n : Nat) : (s.count f n).elec = s.elec := by cases s; rfl
@[simp] theorem State.count_boot (s : State) (f : Fld) (n : Nat) : (s.count f n).boot = s.boot := by cases s; rfl
@[simp] theorem State.count_pr (s : State) (f : Fld) (n : Nat) : (s.count f n).pr = s.pr := by cases s; rfl

/-! ### `State.inc` -/

@[simp] theorem State.inc_pending (s : State) (f : Fld) : (s.inc f).pending = s.pending := by cases s; rfl
@[simp] theorem State.inc_cyc (s : State) (f : Fld) : (s.inc f).cyc = s.cyc := by cases s; rfl
@[simp] theorem State.inc_regs0 (s : State) (f : Fld) : (s.inc f).regs0 = s.regs0 := by cases s; rfl
@[simp] theorem State.inc_free (s : State) (f : Fld) : (s.inc f).free = s.free := by cases s; rfl
@[simp] theorem State.inc_bus (s : State) (f : Fld) : (s.inc f).bus = s.bus := by cases s; rfl
@[simp] theorem State.inc_mem (s : State) (f : Fld) : (s.inc f).mem = s.mem := by cases s; rfl
@[simp] theorem State.inc_nvm (s : State) (f : Fld) : (s.inc f).nvm = s.nvm := by cases s; rfl
@[simp] theorem State.inc_recReqs (s : State) (f : Fld) : (s.inc f).recReqs = s.recReqs := by cases s; rfl
@[simp] theorem State.inc_arch (s : State) (f : Fld) : (s.inc f).arch = s.arch := by cases s; rfl
@[simp] theorem State.inc_clk (s : State) (f : Fld) : (s.inc f).clk = s.clk := by cases s; rfl
@[simp] theorem State.inc_ic (s : State) (f : Fld) : (s.inc f).ic = s.ic := by cases s; rfl
@[simp] theorem State.inc_ports (s : State) (f : Fld) : (s.inc f).ports = s.ports := by cases s; rfl
@[simp] theorem State.inc_hall (s : State) (f : Fld) : (s.inc f).hall = s.hall := by cases s; rfl
@[simp] theorem State.inc_sub (s : State) (f : Fld) : (s.inc f).sub = s.sub := by cases s; rfl
@[simp] theorem State.inc_al (s : State) (f : Fld) : (s.inc f).al = s.al := by cases s; rfl
@[simp] theorem State.inc_aq (s : State) (f : Fld) : (s.inc f).aq = s.aq := by cases s; rfl
@[simp] theorem State.inc_ds (s : State) (f : Fld) : (s.inc f).ds = s.ds := by cases s; rfl
@[simp] theorem State.inc_ln (s : State) (f : Fld) : (s.inc f).ln = s.ln := by cases s; rfl
@[simp] theorem State.inc_pb (s : State) (f : Fld) : (s.inc f).pb = s.pb := by cases s; rfl
@[simp] theorem State.inc_lg (s : State) (f : Fld) : (s.inc f).lg = s.lg := by cases s; rfl
@[simp] theorem State.inc_du (s : State) (f : Fld) : (s.inc f).du = s.du := by cases s; rfl
@[simp] theorem State.inc_cl (s : State) (f : Fld) : (s.inc f).cl = s.cl := by cases s; rfl
@[simp] theorem State.inc_ev (s : State) (f : Fld) : (s.inc f).ev = s.ev := by cases s; rfl
@[simp] theorem State.inc_tg (s : State) (f : Fld) : (s.inc f).tg = s.tg := by cases s; rfl
@[simp] theorem State.inc_vis (s : State) (f : Fld) : (s.inc f).vis = s.vis := by cases s; rfl
@[simp] theorem State.inc_ks (s : State) (f : Fld) : (s.inc f).ks = s.ks := by cases s; rfl
@[simp] theorem State.inc_elec (s : State) (f : Fld) : (s.inc f).elec = s.elec := by cases s; rfl
@[simp] theorem State.inc_boot (s : State) (f : Fld) : (s.inc f).boot = s.boot := by cases s; rfl
@[simp] theorem State.inc_pr (s : State) (f : Fld) : (s.inc f).pr = s.pr := by cases s; rfl

/-! ### `State.flag` -/

@[simp] theorem State.flag_pending (s : State) (f : Fld) : (s.flag f).pending = s.pending := by cases s; rfl
@[simp] theorem State.flag_cyc (s : State) (f : Fld) : (s.flag f).cyc = s.cyc := by cases s; rfl
@[simp] theorem State.flag_regs0 (s : State) (f : Fld) : (s.flag f).regs0 = s.regs0 := by cases s; rfl
@[simp] theorem State.flag_free (s : State) (f : Fld) : (s.flag f).free = s.free := by cases s; rfl
@[simp] theorem State.flag_bus (s : State) (f : Fld) : (s.flag f).bus = s.bus := by cases s; rfl
@[simp] theorem State.flag_mem (s : State) (f : Fld) : (s.flag f).mem = s.mem := by cases s; rfl
@[simp] theorem State.flag_nvm (s : State) (f : Fld) : (s.flag f).nvm = s.nvm := by cases s; rfl
@[simp] theorem State.flag_recReqs (s : State) (f : Fld) : (s.flag f).recReqs = s.recReqs := by cases s; rfl
@[simp] theorem State.flag_arch (s : State) (f : Fld) : (s.flag f).arch = s.arch := by cases s; rfl
@[simp] theorem State.flag_clk (s : State) (f : Fld) : (s.flag f).clk = s.clk := by cases s; rfl
@[simp] theorem State.flag_ic (s : State) (f : Fld) : (s.flag f).ic = s.ic := by cases s; rfl
@[simp] theorem State.flag_ports (s : State) (f : Fld) : (s.flag f).ports = s.ports := by cases s; rfl
@[simp] theorem State.flag_hall (s : State) (f : Fld) : (s.flag f).hall = s.hall := by cases s; rfl
@[simp] theorem State.flag_sub (s : State) (f : Fld) : (s.flag f).sub = s.sub := by cases s; rfl
@[simp] theorem State.flag_al (s : State) (f : Fld) : (s.flag f).al = s.al := by cases s; rfl
@[simp] theorem State.flag_aq (s : State) (f : Fld) : (s.flag f).aq = s.aq := by cases s; rfl
@[simp] theorem State.flag_ds (s : State) (f : Fld) : (s.flag f).ds = s.ds := by cases s; rfl
@[simp] theorem State.flag_ln (s : State) (f : Fld) : (s.flag f).ln = s.ln := by cases s; rfl
@[simp] theorem State.flag_pb (s : State) (f : Fld) : (s.flag f).pb = s.pb := by cases s; rfl
@[simp] theorem State.flag_lg (s : State) (f : Fld) : (s.flag f).lg = s.lg := by cases s; rfl
@[simp] theorem State.flag_du (s : State) (f : Fld) : (s.flag f).du = s.du := by cases s; rfl
@[simp] theorem State.flag_cl (s : State) (f : Fld) : (s.flag f).cl = s.cl := by cases s; rfl
@[simp] theorem State.flag_ev (s : State) (f : Fld) : (s.flag f).ev = s.ev := by cases s; rfl
@[simp] theorem State.flag_tg (s : State) (f : Fld) : (s.flag f).tg = s.tg := by cases s; rfl
@[simp] theorem State.flag_vis (s : State) (f : Fld) : (s.flag f).vis = s.vis := by cases s; rfl
@[simp] theorem State.flag_ks (s : State) (f : Fld) : (s.flag f).ks = s.ks := by cases s; rfl
@[simp] theorem State.flag_elec (s : State) (f : Fld) : (s.flag f).elec = s.elec := by cases s; rfl
@[simp] theorem State.flag_boot (s : State) (f : Fld) : (s.flag f).boot = s.boot := by cases s; rfl
@[simp] theorem State.flag_pr (s : State) (f : Fld) : (s.flag f).pr = s.pr := by cases s; rfl

/-! ### `State.setBitsEv` -/

@[simp] theorem State.setBitsEv_pending (s : State) (a m : Nat) : (s.setBitsEv a m).pending = s.pending := by cases s; rfl
@[simp] theorem State.setBitsEv_cyc (s : State) (a m : Nat) : (s.setBitsEv a m).cyc = s.cyc := by cases s; rfl
@[simp] theorem State.setBitsEv_regs0 (s : State) (a m : Nat) : (s.setBitsEv a m).regs0 = s.regs0 := by cases s; rfl
@[simp] theorem State.setBitsEv_free (s : State) (a m : Nat) : (s.setBitsEv a m).free = s.free := by cases s; rfl
@[simp] theorem State.setBitsEv_bus (s : State) (a m : Nat) : (s.setBitsEv a m).bus = s.bus := by cases s; rfl
@[simp] theorem State.setBitsEv_mem (s : State) (a m : Nat) : (s.setBitsEv a m).mem = s.mem := by cases s; rfl
@[simp] theorem State.setBitsEv_nvm (s : State) (a m : Nat) : (s.setBitsEv a m).nvm = s.nvm := by cases s; rfl
@[simp] theorem State.setBitsEv_recReqs (s : State) (a m : Nat) : (s.setBitsEv a m).recReqs = s.recReqs := by cases s; rfl
@[simp] theorem State.setBitsEv_arch (s : State) (a m : Nat) : (s.setBitsEv a m).arch = s.arch := by cases s; rfl
@[simp] theorem State.setBitsEv_clk (s : State) (a m : Nat) : (s.setBitsEv a m).clk = s.clk := by cases s; rfl
@[simp] theorem State.setBitsEv_ic (s : State) (a m : Nat) : (s.setBitsEv a m).ic = s.ic := by cases s; rfl
@[simp] theorem State.setBitsEv_ports (s : State) (a m : Nat) : (s.setBitsEv a m).ports = s.ports := by cases s; rfl
@[simp] theorem State.setBitsEv_hall (s : State) (a m : Nat) : (s.setBitsEv a m).hall = s.hall := by cases s; rfl
@[simp] theorem State.setBitsEv_sub (s : State) (a m : Nat) : (s.setBitsEv a m).sub = s.sub := by cases s; rfl
@[simp] theorem State.setBitsEv_al (s : State) (a m : Nat) : (s.setBitsEv a m).al = s.al := by cases s; rfl
@[simp] theorem State.setBitsEv_aq (s : State) (a m : Nat) : (s.setBitsEv a m).aq = s.aq := by cases s; rfl
@[simp] theorem State.setBitsEv_ds (s : State) (a m : Nat) : (s.setBitsEv a m).ds = s.ds := by cases s; rfl
@[simp] theorem State.setBitsEv_ln (s : State) (a m : Nat) : (s.setBitsEv a m).ln = s.ln := by cases s; rfl
@[simp] theorem State.setBitsEv_pb (s : State) (a m : Nat) : (s.setBitsEv a m).pb = s.pb := by cases s; rfl
@[simp] theorem State.setBitsEv_lg (s : State) (a m : Nat) : (s.setBitsEv a m).lg = s.lg := by cases s; rfl
@[simp] theorem State.setBitsEv_du (s : State) (a m : Nat) : (s.setBitsEv a m).du = s.du := by cases s; rfl
@[simp] theorem State.setBitsEv_cl (s : State) (a m : Nat) : (s.setBitsEv a m).cl = s.cl := by cases s; rfl
@[simp] theorem State.setBitsEv_ev (s : State) (a m : Nat) : (s.setBitsEv a m).ev = s.ev := by cases s; rfl
@[simp] theorem State.setBitsEv_tg (s : State) (a m : Nat) : (s.setBitsEv a m).tg = s.tg := by cases s; rfl
@[simp] theorem State.setBitsEv_vis (s : State) (a m : Nat) : (s.setBitsEv a m).vis = s.vis := by cases s; rfl
@[simp] theorem State.setBitsEv_ks (s : State) (a m : Nat) : (s.setBitsEv a m).ks = s.ks := by cases s; rfl
@[simp] theorem State.setBitsEv_elec (s : State) (a m : Nat) : (s.setBitsEv a m).elec = s.elec := by cases s; rfl
@[simp] theorem State.setBitsEv_boot (s : State) (a m : Nat) : (s.setBitsEv a m).boot = s.boot := by cases s; rfl
@[simp] theorem State.setBitsEv_pr (s : State) (a m : Nat) : (s.setBitsEv a m).pr = s.pr := by cases s; rfl

/-! ### `State.setVf` -/

@[simp] theorem State.setVf_pending (s : State) (v : Nat) (f : Vf) : (s.setVf v f).pending = s.pending := by cases s; rfl
@[simp] theorem State.setVf_cyc (s : State) (v : Nat) (f : Vf) : (s.setVf v f).cyc = s.cyc := by cases s; rfl
@[simp] theorem State.setVf_regs (s : State) (v : Nat) (f : Vf) : (s.setVf v f).regs = s.regs := by cases s; rfl
@[simp] theorem State.setVf_regs0 (s : State) (v : Nat) (f : Vf) : (s.setVf v f).regs0 = s.regs0 := by cases s; rfl
@[simp] theorem State.setVf_evc (s : State) (v : Nat) (f : Vf) : (s.setVf v f).evc = s.evc := by cases s; rfl
@[simp] theorem State.setVf_free (s : State) (v : Nat) (f : Vf) : (s.setVf v f).free = s.free := by cases s; rfl
@[simp] theorem State.setVf_bus (s : State) (v : Nat) (f : Vf) : (s.setVf v f).bus = s.bus := by cases s; rfl
@[simp] theorem State.setVf_mem (s : State) (v : Nat) (f : Vf) : (s.setVf v f).mem = s.mem := by cases s; rfl
@[simp] theorem State.setVf_nvm (s : State) (v : Nat) (f : Vf) : (s.setVf v f).nvm = s.nvm := by cases s; rfl
@[simp] theorem State.setVf_recReqs (s : State) (v : Nat) (f : Vf) : (s.setVf v f).recReqs = s.recReqs := by cases s; rfl
@[simp] theorem State.setVf_arch (s : State) (v : Nat) (f : Vf) : (s.setVf v f).arch = s.arch := by cases s; rfl
@[simp] theorem State.setVf_clk (s : State) (v : Nat) (f : Vf) : (s.setVf v f).clk = s.clk := by cases s; rfl
@[simp] theorem State.setVf_ic (s : State) (v : Nat) (f : Vf) : (s.setVf v f).ic = s.ic := by cases s; rfl
@[simp] theorem State.setVf_ports (s : State) (v : Nat) (f : Vf) : (s.setVf v f).ports = s.ports := by cases s; rfl
@[simp] theorem State.setVf_hall (s : State) (v : Nat) (f : Vf) : (s.setVf v f).hall = s.hall := by cases s; rfl
@[simp] theorem State.setVf_sub (s : State) (v : Nat) (f : Vf) : (s.setVf v f).sub = s.sub := by cases s; rfl
@[simp] theorem State.setVf_al (s : State) (v : Nat) (f : Vf) : (s.setVf v f).al = s.al := by cases s; rfl
@[simp] theorem State.setVf_aq (s : State) (v : Nat) (f : Vf) : (s.setVf v f).aq = s.aq := by cases s; rfl
@[simp] theorem State.setVf_ds (s : State) (v : Nat) (f : Vf) : (s.setVf v f).ds = s.ds := by cases s; rfl
@[simp] theorem State.setVf_ln (s : State) (v : Nat) (f : Vf) : (s.setVf v f).ln = s.ln := by cases s; rfl
@[simp] theorem State.setVf_pb (s : State) (v : Nat) (f : Vf) : (s.setVf v f).pb = s.pb := by cases s; rfl
@[simp] theorem State.setVf_lg (s : State) (v : Nat) (f : Vf) : (s.setVf v f).lg = s.lg := by cases s; rfl
@[simp] theorem State.setVf_du (s : State) (v : Nat) (f : Vf) : (s.setVf v f).du = s.du := by cases s; rfl
@[simp] theorem State.setVf_cl (s : State) (v : Nat) (f : Vf) : (s.setVf v f).cl = s.cl := by cases s; rfl
@[simp] theorem State.setVf_ev (s : State) (v : Nat) (f : Vf) : (s.setVf v f).ev = s.ev := by cases s; rfl
@[simp] theorem State.setVf_tg (s : State) (v : Nat) (f : Vf) : (s.setVf v f).tg = s.tg := by cases s; rfl
@[simp] theorem State.setVf_ks (s : State) (v : Nat) (f : Vf) : (s.setVf v f).ks = s.ks := by cases s; rfl
@[simp] theorem State.setVf_elec (s : State) (v : Nat) (f : Vf) : (s.setVf v f).elec = s.elec := by cases s; rfl
@[simp] theorem State.setVf_boot (s : State) (v : Nat) (f : Vf) : (s.setVf v f).boot = s.boot := by cases s; rfl
@[simp] theorem State.setVf_pr (s : State) (v : Nat) (f : Vf) : (s.setVf v f).pr = s.pr := by cases s; rfl

/-! ### `State.setVi` -/

@[simp] theorem State.setVi_pending (s : State) (v : Nat) (x : Vi) : (s.setVi v x).pending = s.pending := by cases s; rfl
@[simp] theorem State.setVi_cyc (s : State) (v : Nat) (x : Vi) : (s.setVi v x).cyc = s.cyc := by cases s; rfl
@[simp] theorem State.setVi_regs (s : State) (v : Nat) (x : Vi) : (s.setVi v x).regs = s.regs := by cases s; rfl
@[simp] theorem State.setVi_regs0 (s : State) (v : Nat) (x : Vi) : (s.setVi v x).regs0 = s.regs0 := by cases s; rfl
@[simp] theorem State.setVi_evc (s : State) (v : Nat) (x : Vi) : (s.setVi v x).evc = s.evc := by cases s; rfl
@[simp] theorem State.setVi_free (s : State) (v : Nat) (x : Vi) : (s.setVi v x).free = s.free := by cases s; rfl
@[simp] theorem State.setVi_bus (s : State) (v : Nat) (x : Vi) : (s.setVi v x).bus = s.bus := by cases s; rfl
@[simp] theorem State.setVi_mem (s : State) (v : Nat) (x : Vi) : (s.setVi v x).mem = s.mem := by cases s; rfl
@[simp] theorem State.setVi_nvm (s : State) (v : Nat) (x : Vi) : (s.setVi v x).nvm = s.nvm := by cases s; rfl
@[simp] theorem State.setVi_recReqs (s : State) (v : Nat) (x : Vi) : (s.setVi v x).recReqs = s.recReqs := by cases s; rfl
@[simp] theorem State.setVi_arch (s : State) (v : Nat) (x : Vi) : (s.setVi v x).arch = s.arch := by cases s; rfl
@[simp] theorem State.setVi_clk (s : State) (v : Nat) (x : Vi) : (s.setVi v x).clk = s.clk := by cases s; rfl
@[simp] theorem State.setVi_ic (s : State) (v : Nat) (x : Vi) : (s.setVi v x).ic = s.ic := by cases s; rfl
@[simp] theorem State.setVi_ports (s : State) (v : Nat) (x : Vi) : (s.setVi v x).ports = s.ports := by cases s; rfl
@[simp] theorem State.setVi_hall (s : State) (v : Nat) (x : Vi) : (s.setVi v x).hall = s.hall := by cases s; rfl
@[simp] theorem State.setVi_sub (s : State) (v : Nat) (x : Vi) : (s.setVi v x).sub = s.sub := by cases s; rfl
@[simp] theorem State.setVi_al (s : State) (v : Nat) (x : Vi) : (s.setVi v x).al = s.al := by cases s; rfl
@[simp] theorem State.setVi_aq (s : State) (v : Nat) (x : Vi) : (s.setVi v x).aq = s.aq := by cases s; rfl
@[simp] theorem State.setVi_ds (s : State) (v : Nat) (x : Vi) : (s.setVi v x).ds = s.ds := by cases s; rfl
@[simp] theorem State.setVi_ln (s : State) (v : Nat) (x : Vi) : (s.setVi v x).ln = s.ln := by cases s; rfl
@[simp] theorem State.setVi_pb (s : State) (v : Nat) (x : Vi) : (s.setVi v x).pb = s.pb := by cases s; rfl
@[simp] theorem State.setVi_lg (s : State) (v : Nat) (x : Vi) : (s.setVi v x).lg = s.lg := by cases s; rfl
@[simp] theorem State.setVi_du (s : State) (v : Nat) (x : Vi) : (s.setVi v x).du = s.du := by cases s; rfl
@[simp] theorem State.setVi_cl (s : State) (v : Nat) (x : Vi) : (s.setVi v x).cl = s.cl := by cases s; rfl
@[simp] theorem State.setVi_ev (s : State) (v : Nat) (x : Vi) : (s.setVi v x).ev = s.ev := by cases s; rfl
@[simp] theorem State.setVi_tg (s : State) (v : Nat) (x : Vi) : (s.setVi v x).tg = s.tg := by cases s; rfl
@[simp] theorem State.setVi_ks (s : State) (v : Nat) (x : Vi) : (s.setVi v x).ks = s.ks := by cases s; rfl
@[simp] theorem State.setVi_elec (s : State) (v : Nat) (x : Vi) : (s.setVi v x).elec = s.elec := by cases s; rfl
@[simp] theorem State.setVi_boot (s : State) (v : Nat) (x : Vi) : (s.setVi v x).boot = s.boot := by cases s; rfl
@[simp] theorem State.setVi_pr (s : State) (v : Nat) (x : Vi) : (s.setVi v x).pr = s.pr := by cases s; rfl

/-! ### `State.setTb` -/

@[simp] theorem State.setTb_pending (s : State) (b : Nat) (t : TimeBase) : (s.setTb b t).pending = s.pending := by cases s; rfl
@[simp] theorem State.setTb_cyc (s : State) (b : Nat) (t : TimeBase) : (s.setTb b t).cyc = s.cyc := by cases s; rfl
@[simp] theorem State.setTb_regs (s : State) (b : Nat) (t : TimeBase) : (s.setTb b t).regs = s.regs := by cases s; rfl
@[simp] theorem State.setTb_regs0 (s : State) (b : Nat) (t : TimeBase) : (s.setTb b t).regs0 = s.regs0 := by cases s; rfl
@[simp] theorem State.setTb_evc (s : State) (b : Nat) (t : TimeBase) : (s.setTb b t).evc = s.evc := by cases s; rfl
@[simp] theorem State.setTb_free (s : State) (b : Nat) (t : TimeBase) : (s.setTb b t).free = s.free := by cases s; rfl
@[simp] theorem State.setTb_bus (s : State) (b : Nat) (t : TimeBase) : (s.setTb b t).bus = s.bus := by cases s; rfl
@[simp] theorem State.setTb_mem (s : State) (b : Nat) (t : TimeBase) : (s.setTb b t).mem = s.mem := by cases s; rfl
@[simp] theorem State.setTb_nvm (s : State) (b : Nat) (t : TimeBase) : (s.setTb b t).nvm = s.nvm := by cases s; rfl
@[simp] theorem State.setTb_recReqs (s : State) (b : Nat) (t : TimeBase) : (s.setTb b t).recReqs = s.recReqs := by cases s; rfl
@[simp] theorem State.setTb_arch (s : State) (b : Nat) (t : TimeBase) : (s.setTb b t).arch = s.arch := by cases s; rfl
@[simp] theorem State.setTb_ic (s : State) (b : Nat) (t : TimeBase) : (s.setTb b t).ic = s.ic := by cases s; rfl
@[simp] theorem State.setTb_ports (s : State) (b : Nat) (t : TimeBase) : (s.setTb b t).ports = s.ports := by cases s; rfl
@[simp] theorem State.setTb_hall (s : State) (b : Nat) (t : TimeBase) : (s.setTb b t).hall = s.hall := by cases s; rfl
@[simp] theorem State.setTb_sub (s : State) (b : Nat) (t : TimeBase) : (s.setTb b t).sub = s.sub := by cases s; rfl
@[simp] theorem State.setTb_al (s : State) (b : Nat) (t : TimeBase) : (s.setTb b t).al = s.al := by cases s; rfl
@[simp] theorem State.setTb_aq (s : State) (b : Nat) (t : TimeBase) : (s.setTb b t).aq = s.aq := by cases s; rfl
@[simp] theorem State.setTb_ds (s : State) (b : Nat) (t : TimeBase) : (s.setTb b t).ds = s.ds := by cases s; rfl
@[simp] theorem State.setTb_ln (s : State) (b : Nat) (t : TimeBase) : (s.setTb b t).ln = s.ln := by cases s; rfl
@[simp] theorem State.setTb_pb (s : State) (b : Nat) (t : TimeBase) : (s.setTb b t).pb = s.pb := by cases s; rfl
@[simp] theorem State.setTb_lg (s : State) (b : Nat) (t : TimeBase) : (s.setTb b t).lg = s.lg := by cases s; rfl
@[simp] theorem State.setTb_du (s : State) (b : Nat) (t : TimeBase) : (s.setTb b t).du = s.du := by cases s; rfl
@[simp] theorem State.setTb_cl (s : State) (b : Nat) (t : TimeBase) : (s.setTb b t).cl = s.cl := by cases s; rfl
@[simp] theorem State.setTb_ev (s : State) (b : Nat) (t : TimeBase) : (s.setTb b t).ev = s.ev := by cases s; rfl
@[simp] theorem State.setTb_tg (s : State) (b : Nat) (t : TimeBase) : (s.setTb b t).tg = s.tg := by cases s; rfl
@[simp] theorem State.setTb_vis (s : State) (b : Nat) (t : TimeBase) : (s.setTb b t).vis = s.vis := by cases s; rfl
@[simp] theorem State.setTb_ks (s : State) (b : Nat) (t : TimeBase) : (s.setTb b t).ks = s.ks := by cases s; rfl
@[simp] theorem State.setTb_elec (s : State) (b : Nat) (t : TimeBase) : (s.setTb b t).elec = s.elec := by cases s; rfl
@[simp] theorem State.setTb_boot (s : State) (b : Nat) (t : TimeBase) : (s.setTb b t).boot = s.boot := by cases s; rfl
@[simp] theorem State.setTb_pr (s : State) (b : Nat) (t : TimeBase) : (s.setTb b t).pr = s.pr := by cases s; rfl

/-! ### `State.setAqCh` -/

@[simp] theorem State.setAqCh_pending (s : State) (c : Nat) (x : AqCh) : (s.setAqCh c x).pending = s.pending := by cases s; rfl
@[simp] theorem State.setAqCh_cyc (s : State) (c : Nat) (x : AqCh) : (s.setAqCh c x).cyc = s.cyc := by cases s; rfl
@[simp] theorem State.setAqCh_regs (s : State) (c : Nat) (x : AqCh) : (s.setAqCh c x).regs = s.regs := by cases s; rfl
@[simp] theorem State.setAqCh_regs0 (s : State) (c : Nat) (x : AqCh) : (s.setAqCh c x).regs0 = s.regs0 := by cases s; rfl
@[simp] theorem State.setAqCh_evc (s : State) (c : Nat) (x : AqCh) : (s.setAqCh c x).evc = s.evc := by cases s; rfl
@[simp] theorem State.setAqCh_free (s : State) (c : Nat) (x : AqCh) : (s.setAqCh c x).free = s.free := by cases s; rfl
@[simp] theorem State.setAqCh_bus (s : State) (c : Nat) (x : AqCh) : (s.setAqCh c x).bus = s.bus := by cases s; rfl
@[simp] theorem State.setAqCh_mem (s : State) (c : Nat) (x : AqCh) : (s.setAqCh c x).mem = s.mem := by cases s; rfl
@[simp] theorem State.setAqCh_nvm (s : State) (c : Nat) (x : AqCh) : (s.setAqCh c x).nvm = s.nvm := by cases s; rfl
@[simp] theorem State.setAqCh_recReqs (s : State) (c : Nat) (x : AqCh) : (s.setAqCh c x).recReqs = s.recReqs := by cases s; rfl
@[simp] theorem State.setAqCh_arch (s : State) (c : Nat) (x : AqCh) : (s.setAqCh c x).arch = s.arch := by cases s; rfl
@[simp] theorem State.setAqCh_clk (s : State) (c : Nat) (x : AqCh) : (s.setAqCh c x).clk = s.clk := by cases s; rfl
@[simp] theorem State.setAqCh_ic (s : State) (c : Nat) (x : AqCh) : (s.setAqCh c x).ic = s.ic := by cases s; rfl
@[simp] theorem State.setAqCh_ports (s : State) (c : Nat) (x : AqCh) : (s.setAqCh c x).ports = s.ports := by cases s; rfl
@[simp] theorem State.setAqCh_hall (s : State) (c : Nat) (x : AqCh) : (s.setAqCh c x).hall = s.hall := by cases s; rfl
@[simp] theorem State.setAqCh_sub (s : State) (c : Nat) (x : AqCh) : (s.setAqCh c x).sub = s.sub := by cases s; rfl
@[simp] theorem State.setAqCh_al (s : State) (c : Nat) (x : AqCh) : (s.setAqCh c x).al = s.al := by cases s; rfl
@[simp] theorem State.setAqCh_ds (s : State) (c : Nat) (x : AqCh) : (s.setAqCh c x).ds = s.ds := by cases s; rfl
@[simp] theorem State.setAqCh_ln (s : State) (c : Nat) (x : AqCh) : (s.setAqCh c x).ln = s.ln := by cases s; rfl
@[simp] theorem State.setAqCh_pb (s : State) (c : Nat) (x : AqCh) : (s.setAqCh c x).pb = s.pb := by cases s; rfl
@[simp] theorem State.setAqCh_lg (s : State) (c : Nat) (x : AqCh) : (s.setAqCh c x).lg = s.lg := by cases s; rfl
@[simp] theorem State.setAqCh_du (s : State) (c : Nat) (x : AqCh) : (s.setAqCh c x).du = s.du := by cases s; rfl
@[simp] theorem State.setAqCh_cl (s : State) (c : Nat) (x : AqCh) : (s.setAqCh c x).cl = s.cl := by cases s; rfl
@[simp] theorem State.setAqCh_ev (s : State) (c : Nat) (x : AqCh) : (s.setAqCh c x).ev = s.ev := by cases s; rfl
@[simp] theorem State.setAqCh_tg (s : State) (c : Nat) (x : AqCh) : (s.setAqCh c x).tg = s.tg := by cases s; rfl
@[simp] theorem State.setAqCh_vis (s : State) (c : Nat) (x : AqCh) : (s.setAqCh c x).vis = s.vis := by cases s; rfl
@[simp] theorem State.setAqCh_ks (s : State) (c : Nat) (x : AqCh) : (s.setAqCh c x).ks = s.ks := by cases s; rfl
@[simp] theorem State.setAqCh_elec (s : State) (c : Nat) (x : AqCh) : (s.setAqCh c x).elec = s.elec := by cases s; rfl
@[simp] theorem State.setAqCh_boot (s : State) (c : Nat) (x : AqCh) : (s.setAqCh c x).boot = s.boot := by cases s; rfl
@[simp] theorem State.setAqCh_pr (s : State) (c : Nat) (x : AqCh) : (s.setAqCh c x).pr = s.pr := by cases s; rfl

/-! ### `State.settle` -/

@[simp] theorem State.settle_pending (s : State) (c cause : Nat) : (s.settle c cause).pending = s.pending := by cases s; rfl
@[simp] theorem State.settle_cyc (s : State) (c cause : Nat) : (s.settle c cause).cyc = s.cyc := by cases s; rfl
@[simp] theorem State.settle_regs0 (s : State) (c cause : Nat) : (s.settle c cause).regs0 = s.regs0 := by cases s; rfl
@[simp] theorem State.settle_evc (s : State) (c cause : Nat) : (s.settle c cause).evc = s.evc := by cases s; rfl
@[simp] theorem State.settle_free (s : State) (c cause : Nat) : (s.settle c cause).free = s.free := by cases s; rfl
@[simp] theorem State.settle_bus (s : State) (c cause : Nat) : (s.settle c cause).bus = s.bus := by cases s; rfl
@[simp] theorem State.settle_mem (s : State) (c cause : Nat) : (s.settle c cause).mem = s.mem := by cases s; rfl
@[simp] theorem State.settle_nvm (s : State) (c cause : Nat) : (s.settle c cause).nvm = s.nvm := by cases s; rfl
@[simp] theorem State.settle_recReqs (s : State) (c cause : Nat) : (s.settle c cause).recReqs = s.recReqs := by cases s; rfl
@[simp] theorem State.settle_arch (s : State) (c cause : Nat) : (s.settle c cause).arch = s.arch := by cases s; rfl
@[simp] theorem State.settle_clk (s : State) (c cause : Nat) : (s.settle c cause).clk = s.clk := by cases s; rfl
@[simp] theorem State.settle_ic (s : State) (c cause : Nat) : (s.settle c cause).ic = s.ic := by cases s; rfl
@[simp] theorem State.settle_ports (s : State) (c cause : Nat) : (s.settle c cause).ports = s.ports := by cases s; rfl
@[simp] theorem State.settle_hall (s : State) (c cause : Nat) : (s.settle c cause).hall = s.hall := by cases s; rfl
@[simp] theorem State.settle_sub (s : State) (c cause : Nat) : (s.settle c cause).sub = s.sub := by cases s; rfl
@[simp] theorem State.settle_al (s : State) (c cause : Nat) : (s.settle c cause).al = s.al := by cases s; rfl
@[simp] theorem State.settle_ds (s : State) (c cause : Nat) : (s.settle c cause).ds = s.ds := by cases s; rfl
@[simp] theorem State.settle_ln (s : State) (c cause : Nat) : (s.settle c cause).ln = s.ln := by cases s; rfl
@[simp] theorem State.settle_pb (s : State) (c cause : Nat) : (s.settle c cause).pb = s.pb := by cases s; rfl
@[simp] theorem State.settle_lg (s : State) (c cause : Nat) : (s.settle c cause).lg = s.lg := by cases s; rfl
@[simp] theorem State.settle_du (s : State) (c cause : Nat) : (s.settle c cause).du = s.du := by cases s; rfl
@[simp] theorem State.settle_cl (s : State) (c cause : Nat) : (s.settle c cause).cl = s.cl := by cases s; rfl
@[simp] theorem State.settle_ev (s : State) (c cause : Nat) : (s.settle c cause).ev = s.ev := by cases s; rfl
@[simp] theorem State.settle_tg (s : State) (c cause : Nat) : (s.settle c cause).tg = s.tg := by cases s; rfl
@[simp] theorem State.settle_vis (s : State) (c cause : Nat) : (s.settle c cause).vis = s.vis := by cases s; rfl
@[simp] theorem State.settle_ks (s : State) (c cause : Nat) : (s.settle c cause).ks = s.ks := by cases s; rfl
@[simp] theorem State.settle_elec (s : State) (c cause : Nat) : (s.settle c cause).elec = s.elec := by cases s; rfl
@[simp] theorem State.settle_boot (s : State) (c cause : Nat) : (s.settle c cause).boot = s.boot := by cases s; rfl
@[simp] theorem State.settle_pr (s : State) (c cause : Nat) : (s.settle c cause).pr = s.pr := by cases s; rfl

/-! ### `State.record` -/

@[simp] theorem State.record_pending (s : State) (src code data : Nat) : (s.record src code data).pending = s.pending := by cases s; rfl
@[simp] theorem State.record_cyc (s : State) (src code data : Nat) : (s.record src code data).cyc = s.cyc := by cases s; rfl
@[simp] theorem State.record_regs (s : State) (src code data : Nat) : (s.record src code data).regs = s.regs := by cases s; rfl
@[simp] theorem State.record_regs0 (s : State) (src code data : Nat) : (s.record src code data).regs0 = s.regs0 := by cases s; rfl
@[simp] theorem State.record_evc (s : State) (src code data : Nat) : (s.record src code data).evc = s.evc := by cases s; rfl
@[simp] theorem State.record_free (s : State) (src code data : Nat) : (s.record src code data).free = s.free := by cases s; rfl
@[simp] theorem State.record_bus (s : State) (src code data : Nat) : (s.record src code data).bus = s.bus := by cases s; rfl
@[simp] theorem State.record_mem (s : State) (src code data : Nat) : (s.record src code data).mem = s.mem := by cases s; rfl
@[simp] theorem State.record_nvm (s : State) (src code data : Nat) : (s.record src code data).nvm = s.nvm := by cases s; rfl
@[simp] theorem State.record_arch (s : State) (src code data : Nat) : (s.record src code data).arch = s.arch := by cases s; rfl
@[simp] theorem State.record_clk (s : State) (src code data : Nat) : (s.record src code data).clk = s.clk := by cases s; rfl
@[simp] theorem State.record_ic (s : State) (src code data : Nat) : (s.record src code data).ic = s.ic := by cases s; rfl
@[simp] theorem State.record_ports (s : State) (src code data : Nat) : (s.record src code data).ports = s.ports := by cases s; rfl
@[simp] theorem State.record_hall (s : State) (src code data : Nat) : (s.record src code data).hall = s.hall := by cases s; rfl
@[simp] theorem State.record_sub (s : State) (src code data : Nat) : (s.record src code data).sub = s.sub := by cases s; rfl
@[simp] theorem State.record_al (s : State) (src code data : Nat) : (s.record src code data).al = s.al := by cases s; rfl
@[simp] theorem State.record_aq (s : State) (src code data : Nat) : (s.record src code data).aq = s.aq := by cases s; rfl
@[simp] theorem State.record_ds (s : State) (src code data : Nat) : (s.record src code data).ds = s.ds := by cases s; rfl
@[simp] theorem State.record_ln (s : State) (src code data : Nat) : (s.record src code data).ln = s.ln := by cases s; rfl
@[simp] theorem State.record_pb (s : State) (src code data : Nat) : (s.record src code data).pb = s.pb := by cases s; rfl
@[simp] theorem State.record_lg (s : State) (src code data : Nat) : (s.record src code data).lg = s.lg := by cases s; rfl
@[simp] theorem State.record_du (s : State) (src code data : Nat) : (s.record src code data).du = s.du := by cases s; rfl
@[simp] theorem State.record_cl (s : State) (src code data : Nat) : (s.record src code data).cl = s.cl := by cases s; rfl
@[simp] theorem State.record_ev (s : State) (src code data : Nat) : (s.record src code data).ev = s.ev := by cases s; rfl
@[simp] theorem State.record_tg (s : State) (src code data : Nat) : (s.record src code data).tg = s.tg := by cases s; rfl
@[simp] theorem State.record_vis (s : State) (src code data : Nat) : (s.record src code data).vis = s.vis := by cases s; rfl
@[simp] theorem State.record_ks (s : State) (src code data : Nat) : (s.record src code data).ks = s.ks := by cases s; rfl
@[simp] theorem State.record_elec (s : State) (src code data : Nat) : (s.record src code data).elec = s.elec := by cases s; rfl
@[simp] theorem State.record_boot (s : State) (src code data : Nat) : (s.record src code data).boot = s.boot := by cases s; rfl
@[simp] theorem State.record_pr (s : State) (src code data : Nat) : (s.record src code data).pr = s.pr := by cases s; rfl

/-! ### `State.recordAt` -/

@[simp] theorem State.recordAt_pending (s : State) (src code data sec ns : Nat) : (s.recordAt src code data sec ns).pending = s.pending := by cases s; rfl
@[simp] theorem State.recordAt_cyc (s : State) (src code data sec ns : Nat) : (s.recordAt src code data sec ns).cyc = s.cyc := by cases s; rfl
@[simp] theorem State.recordAt_regs (s : State) (src code data sec ns : Nat) : (s.recordAt src code data sec ns).regs = s.regs := by cases s; rfl
@[simp] theorem State.recordAt_regs0 (s : State) (src code data sec ns : Nat) : (s.recordAt src code data sec ns).regs0 = s.regs0 := by cases s; rfl
@[simp] theorem State.recordAt_evc (s : State) (src code data sec ns : Nat) : (s.recordAt src code data sec ns).evc = s.evc := by cases s; rfl
@[simp] theorem State.recordAt_free (s : State) (src code data sec ns : Nat) : (s.recordAt src code data sec ns).free = s.free := by cases s; rfl
@[simp] theorem State.recordAt_bus (s : State) (src code data sec ns : Nat) : (s.recordAt src code data sec ns).bus = s.bus := by cases s; rfl
@[simp] theorem State.recordAt_mem (s : State) (src code data sec ns : Nat) : (s.recordAt src code data sec ns).mem = s.mem := by cases s; rfl
@[simp] theorem State.recordAt_nvm (s : State) (src code data sec ns : Nat) : (s.recordAt src code data sec ns).nvm = s.nvm := by cases s; rfl
@[simp] theorem State.recordAt_arch (s : State) (src code data sec ns : Nat) : (s.recordAt src code data sec ns).arch = s.arch := by cases s; rfl
@[simp] theorem State.recordAt_clk (s : State) (src code data sec ns : Nat) : (s.recordAt src code data sec ns).clk = s.clk := by cases s; rfl
@[simp] theorem State.recordAt_ic (s : State) (src code data sec ns : Nat) : (s.recordAt src code data sec ns).ic = s.ic := by cases s; rfl
@[simp] theorem State.recordAt_ports (s : State) (src code data sec ns : Nat) : (s.recordAt src code data sec ns).ports = s.ports := by cases s; rfl
@[simp] theorem State.recordAt_hall (s : State) (src code data sec ns : Nat) : (s.recordAt src code data sec ns).hall = s.hall := by cases s; rfl
@[simp] theorem State.recordAt_sub (s : State) (src code data sec ns : Nat) : (s.recordAt src code data sec ns).sub = s.sub := by cases s; rfl
@[simp] theorem State.recordAt_al (s : State) (src code data sec ns : Nat) : (s.recordAt src code data sec ns).al = s.al := by cases s; rfl
@[simp] theorem State.recordAt_aq (s : State) (src code data sec ns : Nat) : (s.recordAt src code data sec ns).aq = s.aq := by cases s; rfl
@[simp] theorem State.recordAt_ds (s : State) (src code data sec ns : Nat) : (s.recordAt src code data sec ns).ds = s.ds := by cases s; rfl
@[simp] theorem State.recordAt_ln (s : State) (src code data sec ns : Nat) : (s.recordAt src code data sec ns).ln = s.ln := by cases s; rfl
@[simp] theorem State.recordAt_pb (s : State) (src code data sec ns : Nat) : (s.recordAt src code data sec ns).pb = s.pb := by cases s; rfl
@[simp] theorem State.recordAt_lg (s : State) (src code data sec ns : Nat) : (s.recordAt src code data sec ns).lg = s.lg := by cases s; rfl
@[simp] theorem State.recordAt_du (s : State) (src code data sec ns : Nat) : (s.recordAt src code data sec ns).du = s.du := by cases s; rfl
@[simp] theorem State.recordAt_cl (s : State) (src code data sec ns : Nat) : (s.recordAt src code data sec ns).cl = s.cl := by cases s; rfl
@[simp] theorem State.recordAt_ev (s : State) (src code data sec ns : Nat) : (s.recordAt src code data sec ns).ev = s.ev := by cases s; rfl
@[simp] theorem State.recordAt_tg (s : State) (src code data sec ns : Nat) : (s.recordAt src code data sec ns).tg = s.tg := by cases s; rfl
@[simp] theorem State.recordAt_vis (s : State) (src code data sec ns : Nat) : (s.recordAt src code data sec ns).vis = s.vis := by cases s; rfl
@[simp] theorem State.recordAt_ks (s : State) (src code data sec ns : Nat) : (s.recordAt src code data sec ns).ks = s.ks := by cases s; rfl
@[simp] theorem State.recordAt_elec (s : State) (src code data sec ns : Nat) : (s.recordAt src code data sec ns).elec = s.elec := by cases s; rfl
@[simp] theorem State.recordAt_boot (s : State) (src code data sec ns : Nat) : (s.recordAt src code data sec ns).boot = s.boot := by cases s; rfl
@[simp] theorem State.recordAt_pr (s : State) (src code data sec ns : Nat) : (s.recordAt src code data sec ns).pr = s.pr := by cases s; rfl

/-! ### `State.twinQueue` -/

@[simp] theorem State.twinQueue_pending (s : State) (m : TwinOut) : (s.twinQueue m).pending = s.pending := by cases s; rfl
@[simp] theorem State.twinQueue_cyc (s : State) (m : TwinOut) : (s.twinQueue m).cyc = s.cyc := by cases s; rfl
@[simp] theorem State.twinQueue_regs (s : State) (m : TwinOut) : (s.twinQueue m).regs = s.regs := by cases s; rfl
@[simp] theorem State.twinQueue_regs0 (s : State) (m : TwinOut) : (s.twinQueue m).regs0 = s.regs0 := by cases s; rfl
@[simp] theorem State.twinQueue_evc (s : State) (m : TwinOut) : (s.twinQueue m).evc = s.evc := by cases s; rfl
@[simp] theorem State.twinQueue_free (s : State) (m : TwinOut) : (s.twinQueue m).free = s.free := by cases s; rfl
@[simp] theorem State.twinQueue_bus (s : State) (m : TwinOut) : (s.twinQueue m).bus = s.bus := by cases s; rfl
@[simp] theorem State.twinQueue_mem (s : State) (m : TwinOut) : (s.twinQueue m).mem = s.mem := by cases s; rfl
@[simp] theorem State.twinQueue_nvm (s : State) (m : TwinOut) : (s.twinQueue m).nvm = s.nvm := by cases s; rfl
@[simp] theorem State.twinQueue_recReqs (s : State) (m : TwinOut) : (s.twinQueue m).recReqs = s.recReqs := by cases s; rfl
@[simp] theorem State.twinQueue_arch (s : State) (m : TwinOut) : (s.twinQueue m).arch = s.arch := by cases s; rfl
@[simp] theorem State.twinQueue_clk (s : State) (m : TwinOut) : (s.twinQueue m).clk = s.clk := by cases s; rfl
@[simp] theorem State.twinQueue_ic (s : State) (m : TwinOut) : (s.twinQueue m).ic = s.ic := by cases s; rfl
@[simp] theorem State.twinQueue_ports (s : State) (m : TwinOut) : (s.twinQueue m).ports = s.ports := by cases s; rfl
@[simp] theorem State.twinQueue_hall (s : State) (m : TwinOut) : (s.twinQueue m).hall = s.hall := by cases s; rfl
@[simp] theorem State.twinQueue_sub (s : State) (m : TwinOut) : (s.twinQueue m).sub = s.sub := by cases s; rfl
@[simp] theorem State.twinQueue_al (s : State) (m : TwinOut) : (s.twinQueue m).al = s.al := by cases s; rfl
@[simp] theorem State.twinQueue_aq (s : State) (m : TwinOut) : (s.twinQueue m).aq = s.aq := by cases s; rfl
@[simp] theorem State.twinQueue_ds (s : State) (m : TwinOut) : (s.twinQueue m).ds = s.ds := by cases s; rfl
@[simp] theorem State.twinQueue_ln (s : State) (m : TwinOut) : (s.twinQueue m).ln = s.ln := by cases s; rfl
@[simp] theorem State.twinQueue_pb (s : State) (m : TwinOut) : (s.twinQueue m).pb = s.pb := by cases s; rfl
@[simp] theorem State.twinQueue_lg (s : State) (m : TwinOut) : (s.twinQueue m).lg = s.lg := by cases s; rfl
@[simp] theorem State.twinQueue_du (s : State) (m : TwinOut) : (s.twinQueue m).du = s.du := by cases s; rfl
@[simp] theorem State.twinQueue_cl (s : State) (m : TwinOut) : (s.twinQueue m).cl = s.cl := by cases s; rfl
@[simp] theorem State.twinQueue_ev (s : State) (m : TwinOut) : (s.twinQueue m).ev = s.ev := by cases s; rfl
@[simp] theorem State.twinQueue_tg (s : State) (m : TwinOut) : (s.twinQueue m).tg = s.tg := by cases s; rfl
@[simp] theorem State.twinQueue_vis (s : State) (m : TwinOut) : (s.twinQueue m).vis = s.vis := by cases s; rfl
@[simp] theorem State.twinQueue_ks (s : State) (m : TwinOut) : (s.twinQueue m).ks = s.ks := by cases s; rfl
@[simp] theorem State.twinQueue_elec (s : State) (m : TwinOut) : (s.twinQueue m).elec = s.elec := by cases s; rfl
@[simp] theorem State.twinQueue_boot (s : State) (m : TwinOut) : (s.twinQueue m).boot = s.boot := by cases s; rfl

/-! ### `State.setByte` -/

@[simp] theorem State.setByte_pending (s : State) (a : Nat) (v : Byte) : (s.setByte a v).pending = s.pending := by cases s; rfl
@[simp] theorem State.setByte_cyc (s : State) (a : Nat) (v : Byte) : (s.setByte a v).cyc = s.cyc := by cases s; rfl
@[simp] theorem State.setByte_regs (s : State) (a : Nat) (v : Byte) : (s.setByte a v).regs = s.regs := by cases s; rfl
@[simp] theorem State.setByte_regs0 (s : State) (a : Nat) (v : Byte) : (s.setByte a v).regs0 = s.regs0 := by cases s; rfl
@[simp] theorem State.setByte_evc (s : State) (a : Nat) (v : Byte) : (s.setByte a v).evc = s.evc := by cases s; rfl
@[simp] theorem State.setByte_free (s : State) (a : Nat) (v : Byte) : (s.setByte a v).free = s.free := by cases s; rfl
@[simp] theorem State.setByte_bus (s : State) (a : Nat) (v : Byte) : (s.setByte a v).bus = s.bus := by cases s; rfl
@[simp] theorem State.setByte_nvm (s : State) (a : Nat) (v : Byte) : (s.setByte a v).nvm = s.nvm := by cases s; rfl
@[simp] theorem State.setByte_recReqs (s : State) (a : Nat) (v : Byte) : (s.setByte a v).recReqs = s.recReqs := by cases s; rfl
@[simp] theorem State.setByte_arch (s : State) (a : Nat) (v : Byte) : (s.setByte a v).arch = s.arch := by cases s; rfl
@[simp] theorem State.setByte_clk (s : State) (a : Nat) (v : Byte) : (s.setByte a v).clk = s.clk := by cases s; rfl
@[simp] theorem State.setByte_ic (s : State) (a : Nat) (v : Byte) : (s.setByte a v).ic = s.ic := by cases s; rfl
@[simp] theorem State.setByte_ports (s : State) (a : Nat) (v : Byte) : (s.setByte a v).ports = s.ports := by cases s; rfl
@[simp] theorem State.setByte_hall (s : State) (a : Nat) (v : Byte) : (s.setByte a v).hall = s.hall := by cases s; rfl
@[simp] theorem State.setByte_sub (s : State) (a : Nat) (v : Byte) : (s.setByte a v).sub = s.sub := by cases s; rfl
@[simp] theorem State.setByte_al (s : State) (a : Nat) (v : Byte) : (s.setByte a v).al = s.al := by cases s; rfl
@[simp] theorem State.setByte_aq (s : State) (a : Nat) (v : Byte) : (s.setByte a v).aq = s.aq := by cases s; rfl
@[simp] theorem State.setByte_ds (s : State) (a : Nat) (v : Byte) : (s.setByte a v).ds = s.ds := by cases s; rfl
@[simp] theorem State.setByte_ln (s : State) (a : Nat) (v : Byte) : (s.setByte a v).ln = s.ln := by cases s; rfl
@[simp] theorem State.setByte_pb (s : State) (a : Nat) (v : Byte) : (s.setByte a v).pb = s.pb := by cases s; rfl
@[simp] theorem State.setByte_lg (s : State) (a : Nat) (v : Byte) : (s.setByte a v).lg = s.lg := by cases s; rfl
@[simp] theorem State.setByte_du (s : State) (a : Nat) (v : Byte) : (s.setByte a v).du = s.du := by cases s; rfl
@[simp] theorem State.setByte_cl (s : State) (a : Nat) (v : Byte) : (s.setByte a v).cl = s.cl := by cases s; rfl
@[simp] theorem State.setByte_ev (s : State) (a : Nat) (v : Byte) : (s.setByte a v).ev = s.ev := by cases s; rfl
@[simp] theorem State.setByte_tg (s : State) (a : Nat) (v : Byte) : (s.setByte a v).tg = s.tg := by cases s; rfl
@[simp] theorem State.setByte_vis (s : State) (a : Nat) (v : Byte) : (s.setByte a v).vis = s.vis := by cases s; rfl
@[simp] theorem State.setByte_ks (s : State) (a : Nat) (v : Byte) : (s.setByte a v).ks = s.ks := by cases s; rfl
@[simp] theorem State.setByte_elec (s : State) (a : Nat) (v : Byte) : (s.setByte a v).elec = s.elec := by cases s; rfl
@[simp] theorem State.setByte_boot (s : State) (a : Nat) (v : Byte) : (s.setByte a v).boot = s.boot := by cases s; rfl
@[simp] theorem State.setByte_pr (s : State) (a : Nat) (v : Byte) : (s.setByte a v).pr = s.pr := by cases s; rfl

/-! ### Raising a source: only registers, the cycle's contributions and the messages due change -/

@[simp] theorem State.makeDue_pending (s : State) (es : Nat) : (s.makeDue es).pending = s.pending := by
  unfold State.makeDue
  split <;> rfl
@[simp] theorem State.makeDue_cyc (s : State) (es : Nat) : (s.makeDue es).cyc = s.cyc := by
  unfold State.makeDue
  split <;> rfl
@[simp] theorem State.makeDue_regs (s : State) (es : Nat) : (s.makeDue es).regs = s.regs := by
  unfold State.makeDue
  split <;> rfl
@[simp] theorem State.makeDue_regs0 (s : State) (es : Nat) : (s.makeDue es).regs0 = s.regs0 := by
  unfold State.makeDue
  split <;> rfl
@[simp] theorem State.makeDue_evc (s : State) (es : Nat) : (s.makeDue es).evc = s.evc := by
  unfold State.makeDue
  split <;> rfl
@[simp] theorem State.makeDue_free (s : State) (es : Nat) : (s.makeDue es).free = s.free := by
  unfold State.makeDue
  split <;> rfl
@[simp] theorem State.makeDue_bus (s : State) (es : Nat) : (s.makeDue es).bus = s.bus := by
  unfold State.makeDue
  split <;> rfl
@[simp] theorem State.makeDue_mem (s : State) (es : Nat) : (s.makeDue es).mem = s.mem := by
  unfold State.makeDue
  split <;> rfl
@[simp] theorem State.makeDue_nvm (s : State) (es : Nat) : (s.makeDue es).nvm = s.nvm := by
  unfold State.makeDue
  split <;> rfl
@[simp] theorem State.makeDue_recReqs (s : State) (es : Nat) : (s.makeDue es).recReqs = s.recReqs := by
  unfold State.makeDue
  split <;> rfl
@[simp] theorem State.makeDue_arch (s : State) (es : Nat) : (s.makeDue es).arch = s.arch := by
  unfold State.makeDue
  split <;> rfl
@[simp] theorem State.makeDue_clk (s : State) (es : Nat) : (s.makeDue es).clk = s.clk := by
  unfold State.makeDue
  split <;> rfl
@[simp] theorem State.makeDue_ports (s : State) (es : Nat) : (s.makeDue es).ports = s.ports := by
  unfold State.makeDue
  split <;> rfl
@[simp] theorem State.makeDue_hall (s : State) (es : Nat) : (s.makeDue es).hall = s.hall := by
  unfold State.makeDue
  split <;> rfl
@[simp] theorem State.makeDue_sub (s : State) (es : Nat) : (s.makeDue es).sub = s.sub := by
  unfold State.makeDue
  split <;> rfl
@[simp] theorem State.makeDue_al (s : State) (es : Nat) : (s.makeDue es).al = s.al := by
  unfold State.makeDue
  split <;> rfl
@[simp] theorem State.makeDue_aq (s : State) (es : Nat) : (s.makeDue es).aq = s.aq := by
  unfold State.makeDue
  split <;> rfl
@[simp] theorem State.makeDue_ds (s : State) (es : Nat) : (s.makeDue es).ds = s.ds := by
  unfold State.makeDue
  split <;> rfl
@[simp] theorem State.makeDue_ln (s : State) (es : Nat) : (s.makeDue es).ln = s.ln := by
  unfold State.makeDue
  split <;> rfl
@[simp] theorem State.makeDue_pb (s : State) (es : Nat) : (s.makeDue es).pb = s.pb := by
  unfold State.makeDue
  split <;> rfl
@[simp] theorem State.makeDue_lg (s : State) (es : Nat) : (s.makeDue es).lg = s.lg := by
  unfold State.makeDue
  split <;> rfl
@[simp] theorem State.makeDue_du (s : State) (es : Nat) : (s.makeDue es).du = s.du := by
  unfold State.makeDue
  split <;> rfl
@[simp] theorem State.makeDue_cl (s : State) (es : Nat) : (s.makeDue es).cl = s.cl := by
  unfold State.makeDue
  split <;> rfl
@[simp] theorem State.makeDue_ev (s : State) (es : Nat) : (s.makeDue es).ev = s.ev := by
  unfold State.makeDue
  split <;> rfl
@[simp] theorem State.makeDue_tg (s : State) (es : Nat) : (s.makeDue es).tg = s.tg := by
  unfold State.makeDue
  split <;> rfl
@[simp] theorem State.makeDue_vis (s : State) (es : Nat) : (s.makeDue es).vis = s.vis := by
  unfold State.makeDue
  split <;> rfl
@[simp] theorem State.makeDue_ks (s : State) (es : Nat) : (s.makeDue es).ks = s.ks := by
  unfold State.makeDue
  split <;> rfl
@[simp] theorem State.makeDue_elec (s : State) (es : Nat) : (s.makeDue es).elec = s.elec := by
  unfold State.makeDue
  split <;> rfl
@[simp] theorem State.makeDue_boot (s : State) (es : Nat) : (s.makeDue es).boot = s.boot := by
  unfold State.makeDue
  split <;> rfl
@[simp] theorem State.makeDue_pr (s : State) (es : Nat) : (s.makeDue es).pr = s.pr := by
  unfold State.makeDue
  split <;> rfl
@[simp] theorem State.raise_pending (s : State) (es : Nat) : (s.raise es).pending = s.pending := by
  simp [State.raise]
@[simp] theorem State.event_pending (s : State) (f : Fld) (es : Nat) : (s.event f es).pending = s.pending := by
  simp [State.event]
@[simp] theorem State.raise_cyc (s : State) (es : Nat) : (s.raise es).cyc = s.cyc := by
  simp [State.raise]
@[simp] theorem State.event_cyc (s : State) (f : Fld) (es : Nat) : (s.event f es).cyc = s.cyc := by
  simp [State.event]
@[simp] theorem State.raise_regs0 (s : State) (es : Nat) : (s.raise es).regs0 = s.regs0 := by
  simp [State.raise]
@[simp] theorem State.event_regs0 (s : State) (f : Fld) (es : Nat) : (s.event f es).regs0 = s.regs0 := by
  simp [State.event]
@[simp] theorem State.raise_free (s : State) (es : Nat) : (s.raise es).free = s.free := by
  simp [State.raise]
@[simp] theorem State.event_free (s : State) (f : Fld) (es : Nat) : (s.event f es).free = s.free := by
  simp [State.event]
@[simp] theorem State.raise_bus (s : State) (es : Nat) : (s.raise es).bus = s.bus := by
  simp [State.raise]
@[simp] theorem State.event_bus (s : State) (f : Fld) (es : Nat) : (s.event f es).bus = s.bus := by
  simp [State.event]
@[simp] theorem State.raise_mem (s : State) (es : Nat) : (s.raise es).mem = s.mem := by
  simp [State.raise]
@[simp] theorem State.event_mem (s : State) (f : Fld) (es : Nat) : (s.event f es).mem = s.mem := by
  simp [State.event]
@[simp] theorem State.raise_nvm (s : State) (es : Nat) : (s.raise es).nvm = s.nvm := by
  simp [State.raise]
@[simp] theorem State.event_nvm (s : State) (f : Fld) (es : Nat) : (s.event f es).nvm = s.nvm := by
  simp [State.event]
@[simp] theorem State.raise_recReqs (s : State) (es : Nat) : (s.raise es).recReqs = s.recReqs := by
  simp [State.raise]
@[simp] theorem State.event_recReqs (s : State) (f : Fld) (es : Nat) : (s.event f es).recReqs = s.recReqs := by
  simp [State.event]
@[simp] theorem State.raise_arch (s : State) (es : Nat) : (s.raise es).arch = s.arch := by
  simp [State.raise]
@[simp] theorem State.event_arch (s : State) (f : Fld) (es : Nat) : (s.event f es).arch = s.arch := by
  simp [State.event]
@[simp] theorem State.raise_clk (s : State) (es : Nat) : (s.raise es).clk = s.clk := by
  simp [State.raise]
@[simp] theorem State.event_clk (s : State) (f : Fld) (es : Nat) : (s.event f es).clk = s.clk := by
  simp [State.event]
@[simp] theorem State.raise_ports (s : State) (es : Nat) : (s.raise es).ports = s.ports := by
  simp [State.raise]
@[simp] theorem State.event_ports (s : State) (f : Fld) (es : Nat) : (s.event f es).ports = s.ports := by
  simp [State.event]
@[simp] theorem State.raise_hall (s : State) (es : Nat) : (s.raise es).hall = s.hall := by
  simp [State.raise]
@[simp] theorem State.event_hall (s : State) (f : Fld) (es : Nat) : (s.event f es).hall = s.hall := by
  simp [State.event]
@[simp] theorem State.raise_sub (s : State) (es : Nat) : (s.raise es).sub = s.sub := by
  simp [State.raise]
@[simp] theorem State.event_sub (s : State) (f : Fld) (es : Nat) : (s.event f es).sub = s.sub := by
  simp [State.event]
@[simp] theorem State.raise_al (s : State) (es : Nat) : (s.raise es).al = s.al := by
  simp [State.raise]
@[simp] theorem State.event_al (s : State) (f : Fld) (es : Nat) : (s.event f es).al = s.al := by
  simp [State.event]
@[simp] theorem State.raise_aq (s : State) (es : Nat) : (s.raise es).aq = s.aq := by
  simp [State.raise]
@[simp] theorem State.event_aq (s : State) (f : Fld) (es : Nat) : (s.event f es).aq = s.aq := by
  simp [State.event]
@[simp] theorem State.raise_ds (s : State) (es : Nat) : (s.raise es).ds = s.ds := by
  simp [State.raise]
@[simp] theorem State.event_ds (s : State) (f : Fld) (es : Nat) : (s.event f es).ds = s.ds := by
  simp [State.event]
@[simp] theorem State.raise_ln (s : State) (es : Nat) : (s.raise es).ln = s.ln := by
  simp [State.raise]
@[simp] theorem State.event_ln (s : State) (f : Fld) (es : Nat) : (s.event f es).ln = s.ln := by
  simp [State.event]
@[simp] theorem State.raise_pb (s : State) (es : Nat) : (s.raise es).pb = s.pb := by
  simp [State.raise]
@[simp] theorem State.event_pb (s : State) (f : Fld) (es : Nat) : (s.event f es).pb = s.pb := by
  simp [State.event]
@[simp] theorem State.raise_lg (s : State) (es : Nat) : (s.raise es).lg = s.lg := by
  simp [State.raise]
@[simp] theorem State.event_lg (s : State) (f : Fld) (es : Nat) : (s.event f es).lg = s.lg := by
  simp [State.event]
@[simp] theorem State.raise_du (s : State) (es : Nat) : (s.raise es).du = s.du := by
  simp [State.raise]
@[simp] theorem State.event_du (s : State) (f : Fld) (es : Nat) : (s.event f es).du = s.du := by
  simp [State.event]
@[simp] theorem State.raise_cl (s : State) (es : Nat) : (s.raise es).cl = s.cl := by
  simp [State.raise]
@[simp] theorem State.event_cl (s : State) (f : Fld) (es : Nat) : (s.event f es).cl = s.cl := by
  simp [State.event]
@[simp] theorem State.raise_ev (s : State) (es : Nat) : (s.raise es).ev = s.ev := by
  simp [State.raise]
@[simp] theorem State.event_ev (s : State) (f : Fld) (es : Nat) : (s.event f es).ev = s.ev := by
  simp [State.event]
@[simp] theorem State.raise_tg (s : State) (es : Nat) : (s.raise es).tg = s.tg := by
  simp [State.raise]
@[simp] theorem State.event_tg (s : State) (f : Fld) (es : Nat) : (s.event f es).tg = s.tg := by
  simp [State.event]
@[simp] theorem State.raise_vis (s : State) (es : Nat) : (s.raise es).vis = s.vis := by
  simp [State.raise]
@[simp] theorem State.event_vis (s : State) (f : Fld) (es : Nat) : (s.event f es).vis = s.vis := by
  simp [State.event]
@[simp] theorem State.raise_ks (s : State) (es : Nat) : (s.raise es).ks = s.ks := by
  simp [State.raise]
@[simp] theorem State.event_ks (s : State) (f : Fld) (es : Nat) : (s.event f es).ks = s.ks := by
  simp [State.event]
@[simp] theorem State.raise_elec (s : State) (es : Nat) : (s.raise es).elec = s.elec := by
  simp [State.raise]
@[simp] theorem State.event_elec (s : State) (f : Fld) (es : Nat) : (s.event f es).elec = s.elec := by
  simp [State.event]
@[simp] theorem State.raise_boot (s : State) (es : Nat) : (s.raise es).boot = s.boot := by
  simp [State.raise]
@[simp] theorem State.event_boot (s : State) (f : Fld) (es : Nat) : (s.event f es).boot = s.boot := by
  simp [State.event]
@[simp] theorem State.raise_pr (s : State) (es : Nat) : (s.raise es).pr = s.pr := by
  simp [State.raise]
@[simp] theorem State.event_pr (s : State) (f : Fld) (es : Nat) : (s.event f es).pr = s.pr := by
  simp [State.event]

end Sys2Proof.Machine
end

