-- ==== Sys2Proof/Laws/Bus.lean ====
section
/-!
SUPPORT. What an access of register space does when its requester is served and its page is powered, said once.
-/
namespace Sys2Proof.Machine

theorem addr_toNat {o : Nat} (h : o < 0x3000000) : (BitVec.ofNat 40 (addrRegs + o)).toNat = addrRegs + o := by
  simp only [BitVec.toNat_ofNat, addrRegs]
  omega

theorem target_register {o : Nat} (h : o < 0x3000000) : target (addrRegs + o) = .register o := by
  have e : addrRegs + o - addrRegs = o := Nat.add_sub_cancel_left ..
  rw [target, e, if_neg, if_neg, if_neg, if_neg, if_pos] <;> simp only [addrRegs, addrPantry] <;> omega

theorem State.Reaches.reach {s : State} {r : Requester} (h : s.Reaches r) (o : Nat) (read : Bool) :
    s.reach r (addrRegs + o) read = .through := by
  obtain ⟨hv, hp, hd⟩ := h
  generalize ha : addrRegs + o = a
  have hle : addrRegs ≤ a := ha ▸ Nat.le_add_right ..
  unfold State.reach
  cases r with
  | core => rfl
  | loader => rfl
  | twin => rfl
  | vf v => exact absurd rfl (hv v)
  | pf0 => simp only [State.pfReach, hp rfl, if_pos hle, Bool.not_true, Bool.false_eq_true, if_false]
  | debug => simp only [hd rfl, if_true]

/-! ### Completions -/

@[simp] theorem State.complete_pending (s : State) (c : Completion) (r : Bool) : (s.complete c r).pending = s.pending := by
  unfold State.complete
  split <;> cases s <;> rfl
@[simp] theorem State.complete_cyc (s : State) (c : Completion) (r : Bool) : (s.complete c r).cyc = s.cyc := by
  unfold State.complete
  split <;> cases s <;> rfl
@[simp] theorem State.complete_regs (s : State) (c : Completion) (r : Bool) : (s.complete c r).regs = s.regs := by
  unfold State.complete
  split <;> cases s <;> rfl
@[simp] theorem State.complete_regs0 (s : State) (c : Completion) (r : Bool) : (s.complete c r).regs0 = s.regs0 := by
  unfold State.complete
  split <;> cases s <;> rfl
@[simp] theorem State.complete_evc (s : State) (c : Completion) (r : Bool) : (s.complete c r).evc = s.evc := by
  unfold State.complete
  split <;> cases s <;> rfl
@[simp] theorem State.complete_mem (s : State) (c : Completion) (r : Bool) : (s.complete c r).mem = s.mem := by
  unfold State.complete
  split <;> cases s <;> rfl
@[simp] theorem State.complete_nvm (s : State) (c : Completion) (r : Bool) : (s.complete c r).nvm = s.nvm := by
  unfold State.complete
  split <;> cases s <;> rfl
@[simp] theorem State.complete_recReqs (s : State) (c : Completion) (r : Bool) : (s.complete c r).recReqs = s.recReqs := by
  unfold State.complete
  split <;> cases s <;> rfl
@[simp] theorem State.complete_arch (s : State) (c : Completion) (r : Bool) : (s.complete c r).arch = s.arch := by
  unfold State.complete
  split <;> cases s <;> rfl
@[simp] theorem State.complete_clk (s : State) (c : Completion) (r : Bool) : (s.complete c r).clk = s.clk := by
  unfold State.complete
  split <;> cases s <;> rfl
@[simp] theorem State.complete_ic (s : State) (c : Completion) (r : Bool) : (s.complete c r).ic = s.ic := by
  unfold State.complete
  split <;> cases s <;> rfl
@[simp] theorem State.complete_ports (s : State) (c : Completion) (r : Bool) : (s.complete c r).ports = s.ports := by
  unfold State.complete
  split <;> cases s <;> rfl
@[simp] theorem State.complete_hall (s : State) (c : Completion) (r : Bool) : (s.complete c r).hall = s.hall := by
  unfold State.complete
  split <;> cases s <;> rfl
@[simp] theorem State.complete_sub (s : State) (c : Completion) (r : Bool) : (s.complete c r).sub = s.sub := by
  unfold State.complete
  split <;> cases s <;> rfl
@[simp] theorem State.complete_al (s : State) (c : Completion) (r : Bool) : (s.complete c r).al = s.al := by
  unfold State.complete
  split <;> cases s <;> rfl
@[simp] theorem State.complete_aq (s : State) (c : Completion) (r : Bool) : (s.complete c r).aq = s.aq := by
  unfold State.complete
  split <;> cases s <;> rfl
@[simp] theorem State.complete_ds (s : State) (c : Completion) (r : Bool) : (s.complete c r).ds = s.ds := by
  unfold State.complete
  split <;> cases s <;> rfl
@[simp] theorem State.complete_ln (s : State) (c : Completion) (r : Bool) : (s.complete c r).ln = s.ln := by
  unfold State.complete
  split <;> cases s <;> rfl
@[simp] theorem State.complete_pb (s : State) (c : Completion) (r : Bool) : (s.complete c r).pb = s.pb := by
  unfold State.complete
  split <;> cases s <;> rfl
@[simp] theorem State.complete_lg (s : State) (c : Completion) (r : Bool) : (s.complete c r).lg = s.lg := by
  unfold State.complete
  split <;> cases s <;> rfl
@[simp] theorem State.complete_du (s : State) (c : Completion) (r : Bool) : (s.complete c r).du = s.du := by
  unfold State.complete
  split <;> cases s <;> rfl
@[simp] theorem State.complete_cl (s : State) (c : Completion) (r : Bool) : (s.complete c r).cl = s.cl := by
  unfold State.complete
  split <;> cases s <;> rfl
@[simp] theorem State.complete_ev (s : State) (c : Completion) (r : Bool) : (s.complete c r).ev = s.ev := by
  unfold State.complete
  split <;> cases s <;> rfl
@[simp] theorem State.complete_tg (s : State) (c : Completion) (r : Bool) : (s.complete c r).tg = s.tg := by
  unfold State.complete
  split <;> cases s <;> rfl
@[simp] theorem State.complete_vis (s : State) (c : Completion) (r : Bool) : (s.complete c r).vis = s.vis := by
  unfold State.complete
  split <;> cases s <;> rfl
@[simp] theorem State.complete_ks (s : State) (c : Completion) (r : Bool) : (s.complete c r).ks = s.ks := by
  unfold State.complete
  split <;> cases s <;> rfl
@[simp] theorem State.complete_elec (s : State) (c : Completion) (r : Bool) : (s.complete c r).elec = s.elec := by
  unfold State.complete
  split <;> cases s <;> rfl
@[simp] theorem State.complete_boot (s : State) (c : Completion) (r : Bool) : (s.complete c r).boot = s.boot := by
  unfold State.complete
  split <;> cases s <;> rfl
@[simp] theorem State.answer_pending (s : State) (a : Access) (d : Nat) (u b : Bool) : (s.answer a d u b).pending = s.pending :=
  State.complete_pending ..
@[simp] theorem State.answer_cyc (s : State) (a : Access) (d : Nat) (u b : Bool) : (s.answer a d u b).cyc = s.cyc :=
  State.complete_cyc ..
@[simp] theorem State.answer_regs (s : State) (a : Access) (d : Nat) (u b : Bool) : (s.answer a d u b).regs = s.regs :=
  State.complete_regs ..
@[simp] theorem State.answer_regs0 (s : State) (a : Access) (d : Nat) (u b : Bool) : (s.answer a d u b).regs0 = s.regs0 :=
  State.complete_regs0 ..
@[simp] theorem State.answer_evc (s : State) (a : Access) (d : Nat) (u b : Bool) : (s.answer a d u b).evc = s.evc :=
  State.complete_evc ..
@[simp] theorem State.answer_mem (s : State) (a : Access) (d : Nat) (u b : Bool) : (s.answer a d u b).mem = s.mem :=
  State.complete_mem ..
@[simp] theorem State.answer_nvm (s : State) (a : Access) (d : Nat) (u b : Bool) : (s.answer a d u b).nvm = s.nvm :=
  State.complete_nvm ..
@[simp] theorem State.answer_recReqs (s : State) (a : Access) (d : Nat) (u b : Bool) : (s.answer a d u b).recReqs = s.recReqs :=
  State.complete_recReqs ..
@[simp] theorem State.answer_arch (s : State) (a : Access) (d : Nat) (u b : Bool) : (s.answer a d u b).arch = s.arch :=
  State.complete_arch ..
@[simp] theorem State.answer_clk (s : State) (a : Access) (d : Nat) (u b : Bool) : (s.answer a d u b).clk = s.clk :=
  State.complete_clk ..
@[simp] theorem State.answer_ic (s : State) (a : Access) (d : Nat) (u b : Bool) : (s.answer a d u b).ic = s.ic :=
  State.complete_ic ..
@[simp] theorem State.answer_ports (s : State) (a : Access) (d : Nat) (u b : Bool) : (s.answer a d u b).ports = s.ports :=
  State.complete_ports ..
@[simp] theorem State.answer_hall (s : State) (a : Access) (d : Nat) (u b : Bool) : (s.answer a d u b).hall = s.hall :=
  State.complete_hall ..
@[simp] theorem State.answer_sub (s : State) (a : Access) (d : Nat) (u b : Bool) : (s.answer a d u b).sub = s.sub :=
  State.complete_sub ..
@[simp] theorem State.answer_al (s : State) (a : Access) (d : Nat) (u b : Bool) : (s.answer a d u b).al = s.al :=
  State.complete_al ..
@[simp] theorem State.answer_aq (s : State) (a : Access) (d : Nat) (u b : Bool) : (s.answer a d u b).aq = s.aq :=
  State.complete_aq ..
@[simp] theorem State.answer_ds (s : State) (a : Access) (d : Nat) (u b : Bool) : (s.answer a d u b).ds = s.ds :=
  State.complete_ds ..
@[simp] theorem State.answer_ln (s : State) (a : Access) (d : Nat) (u b : Bool) : (s.answer a d u b).ln = s.ln :=
  State.complete_ln ..
@[simp] theorem State.answer_pb (s : State) (a : Access) (d : Nat) (u b : Bool) : (s.answer a d u b).pb = s.pb :=
  State.complete_pb ..
@[simp] theorem State.answer_lg (s : State) (a : Access) (d : Nat) (u b : Bool) : (s.answer a d u b).lg = s.lg :=
  State.complete_lg ..
@[simp] theorem State.answer_du (s : State) (a : Access) (d : Nat) (u b : Bool) : (s.answer a d u b).du = s.du :=
  State.complete_du ..
@[simp] theorem State.answer_cl (s : State) (a : Access) (d : Nat) (u b : Bool) : (s.answer a d u b).cl = s.cl :=
  State.complete_cl ..
@[simp] theorem State.answer_ev (s : State) (a : Access) (d : Nat) (u b : Bool) : (s.answer a d u b).ev = s.ev :=
  State.complete_ev ..
@[simp] theorem State.answer_tg (s : State) (a : Access) (d : Nat) (u b : Bool) : (s.answer a d u b).tg = s.tg :=
  State.complete_tg ..
@[simp] theorem State.answer_vis (s : State) (a : Access) (d : Nat) (u b : Bool) : (s.answer a d u b).vis = s.vis :=
  State.complete_vis ..
@[simp] theorem State.answer_ks (s : State) (a : Access) (d : Nat) (u b : Bool) : (s.answer a d u b).ks = s.ks :=
  State.complete_ks ..
@[simp] theorem State.answer_elec (s : State) (a : Access) (d : Nat) (u b : Bool) : (s.answer a d u b).elec = s.elec :=
  State.complete_elec ..
@[simp] theorem State.answer_boot (s : State) (a : Access) (d : Nat) (u b : Bool) : (s.answer a d u b).boot = s.boot :=
  State.complete_boot ..
@[simp] theorem State.answer_bus (s : State) (a : Access) (d : Nat) (u b : Bool) : (s.answer a d u b).bus =
    some { req := a.req, addr := a.addr.toNat, data := d, unsupported := u, bad := b } := by
  unfold State.answer State.complete
  split <;> rfl

@[simp] theorem State.answer_word (s : State) (a : Access) (d : Nat) (u b : Bool) (x : Nat) :
    (s.answer a d u b).word x = s.word x := by
  rw [State.word, State.answer_regs, State.word]

@[simp] theorem State.answer_rd (s : State) (a : Access) (d : Nat) (u b : Bool) (f : Fld) :
    (s.answer a d u b).rd f = s.rd f := State.rd_of_word (State.answer_word ..)

@[simp] theorem State.answer_on (s : State) (a : Access) (d : Nat) (u b : Bool) (f : Fld) :
    (s.answer a d u b).on f = s.on f := by
  rw [State.on, State.answer_rd, State.on]

@[simp] theorem State.answer_tb (s : State) (a : Access) (d : Nat) (u b : Bool) (k : Nat) :
    (s.answer a d u b).tb k = s.tb k := by
  rw [State.tb, State.answer_clk, State.tb]

@[simp] theorem State.wrote_pending (s : State) (r : Requester) (o v : Nat) : (s.wrote r o v).pending = s.pending :=
  State.answer_pending ..
@[simp] theorem State.wrote_cyc (s : State) (r : Requester) (o v : Nat) : (s.wrote r o v).cyc = s.cyc :=
  State.answer_cyc ..
@[simp] theorem State.wrote_regs (s : State) (r : Requester) (o v : Nat) : (s.wrote r o v).regs = s.regs :=
  State.answer_regs ..
@[simp] theorem State.wrote_regs0 (s : State) (r : Requester) (o v : Nat) : (s.wrote r o v).regs0 = s.regs0 :=
  State.answer_regs0 ..
@[simp] theorem State.wrote_evc (s : State) (r : Requester) (o v : Nat) : (s.wrote r o v).evc = s.evc :=
  State.answer_evc ..
@[simp] theorem State.wrote_mem (s : State) (r : Requester) (o v : Nat) : (s.wrote r o v).mem = s.mem :=
  State.answer_mem ..
@[simp] theorem State.wrote_nvm (s : State) (r : Requester) (o v : Nat) : (s.wrote r o v).nvm = s.nvm :=
  State.answer_nvm ..
@[simp] theorem State.wrote_recReqs (s : State) (r : Requester) (o v : Nat) : (s.wrote r o v).recReqs = s.recReqs :=
  State.answer_recReqs ..
@[simp] theorem State.wrote_arch (s : State) (r : Requester) (o v : Nat) : (s.wrote r o v).arch = s.arch :=
  State.answer_arch ..
@[simp] theorem State.wrote_clk (s : State) (r : Requester) (o v : Nat) : (s.wrote r o v).clk = s.clk :=
  State.answer_clk ..
@[simp] theorem State.wrote_ic (s : State) (r : Requester) (o v : Nat) : (s.wrote r o v).ic = s.ic :=
  State.answer_ic ..
@[simp] theorem State.wrote_ports (s : State) (r : Requester) (o v : Nat) : (s.wrote r o v).ports = s.ports :=
  State.answer_ports ..
@[simp] theorem State.wrote_hall (s : State) (r : Requester) (o v : Nat) : (s.wrote r o v).hall = s.hall :=
  State.answer_hall ..
@[simp] theorem State.wrote_sub (s : State) (r : Requester) (o v : Nat) : (s.wrote r o v).sub = s.sub :=
  State.answer_sub ..
@[simp] theorem State.wrote_al (s : State) (r : Requester) (o v : Nat) : (s.wrote r o v).al = s.al :=
  State.answer_al ..
@[simp] theorem State.wrote_aq (s : State) (r : Requester) (o v : Nat) : (s.wrote r o v).aq = s.aq :=
  State.answer_aq ..
@[simp] theorem State.wrote_ds (s : State) (r : Requester) (o v : Nat) : (s.wrote r o v).ds = s.ds :=
  State.answer_ds ..
@[simp] theorem State.wrote_ln (s : State) (r : Requester) (o v : Nat) : (s.wrote r o v).ln = s.ln :=
  State.answer_ln ..
@[simp] theorem State.wrote_pb (s : State) (r : Requester) (o v : Nat) : (s.wrote r o v).pb = s.pb :=
  State.answer_pb ..
@[simp] theorem State.wrote_lg (s : State) (r : Requester) (o v : Nat) : (s.wrote r o v).lg = s.lg :=
  State.answer_lg ..
@[simp] theorem State.wrote_du (s : State) (r : Requester) (o v : Nat) : (s.wrote r o v).du = s.du :=
  State.answer_du ..
@[simp] theorem State.wrote_cl (s : State) (r : Requester) (o v : Nat) : (s.wrote r o v).cl = s.cl :=
  State.answer_cl ..
@[simp] theorem State.wrote_ev (s : State) (r : Requester) (o v : Nat) : (s.wrote r o v).ev = s.ev :=
  State.answer_ev ..
@[simp] theorem State.wrote_tg (s : State) (r : Requester) (o v : Nat) : (s.wrote r o v).tg = s.tg :=
  State.answer_tg ..
@[simp] theorem State.wrote_vis (s : State) (r : Requester) (o v : Nat) : (s.wrote r o v).vis = s.vis :=
  State.answer_vis ..
@[simp] theorem State.wrote_ks (s : State) (r : Requester) (o v : Nat) : (s.wrote r o v).ks = s.ks :=
  State.answer_ks ..
@[simp] theorem State.wrote_elec (s : State) (r : Requester) (o v : Nat) : (s.wrote r o v).elec = s.elec :=
  State.answer_elec ..
@[simp] theorem State.wrote_boot (s : State) (r : Requester) (o v : Nat) : (s.wrote r o v).boot = s.boot :=
  State.answer_boot ..
@[simp] theorem State.wrote_word (s : State) (r : Requester) (o v : Nat) (x : Nat) : (s.wrote r o v).word x = s.word x :=
  State.answer_word ..
@[simp] theorem State.wrote_rd (s : State) (r : Requester) (o v : Nat) (x : Fld) : (s.wrote r o v).rd x = s.rd x :=
  State.answer_rd ..
@[simp] theorem State.wrote_on (s : State) (r : Requester) (o v : Nat) (x : Fld) : (s.wrote r o v).on x = s.on x :=
  State.answer_on ..
@[simp] theorem State.wrote_tb (s : State) (r : Requester) (o v : Nat) (x : Nat) : (s.wrote r o v).tb x = s.tb x :=
  State.answer_tb ..
@[simp] theorem State.gave_pending (s : State) (r : Requester) (o v : Nat) : (s.gave r o v).pending = s.pending :=
  State.answer_pending ..
@[simp] theorem State.gave_cyc (s : State) (r : Requester) (o v : Nat) : (s.gave r o v).cyc = s.cyc :=
  State.answer_cyc ..
@[simp] theorem State.gave_regs (s : State) (r : Requester) (o v : Nat) : (s.gave r o v).regs = s.regs :=
  State.answer_regs ..
@[simp] theorem State.gave_regs0 (s : State) (r : Requester) (o v : Nat) : (s.gave r o v).regs0 = s.regs0 :=
  State.answer_regs0 ..
@[simp] theorem State.gave_evc (s : State) (r : Requester) (o v : Nat) : (s.gave r o v).evc = s.evc :=
  State.answer_evc ..
@[simp] theorem State.gave_mem (s : State) (r : Requester) (o v : Nat) : (s.gave r o v).mem = s.mem :=
  State.answer_mem ..
@[simp] theorem State.gave_nvm (s : State) (r : Requester) (o v : Nat) : (s.gave r o v).nvm = s.nvm :=
  State.answer_nvm ..
@[simp] theorem State.gave_recReqs (s : State) (r : Requester) (o v : Nat) : (s.gave r o v).recReqs = s.recReqs :=
  State.answer_recReqs ..
@[simp] theorem State.gave_arch (s : State) (r : Requester) (o v : Nat) : (s.gave r o v).arch = s.arch :=
  State.answer_arch ..
@[simp] theorem State.gave_clk (s : State) (r : Requester) (o v : Nat) : (s.gave r o v).clk = s.clk :=
  State.answer_clk ..
@[simp] theorem State.gave_ic (s : State) (r : Requester) (o v : Nat) : (s.gave r o v).ic = s.ic :=
  State.answer_ic ..
@[simp] theorem State.gave_ports (s : State) (r : Requester) (o v : Nat) : (s.gave r o v).ports = s.ports :=
  State.answer_ports ..
@[simp] theorem State.gave_hall (s : State) (r : Requester) (o v : Nat) : (s.gave r o v).hall = s.hall :=
  State.answer_hall ..
@[simp] theorem State.gave_sub (s : State) (r : Requester) (o v : Nat) : (s.gave r o v).sub = s.sub :=
  State.answer_sub ..
@[simp] theorem State.gave_al (s : State) (r : Requester) (o v : Nat) : (s.gave r o v).al = s.al :=
  State.answer_al ..
@[simp] theorem State.gave_aq (s : State) (r : Requester) (o v : Nat) : (s.gave r o v).aq = s.aq :=
  State.answer_aq ..
@[simp] theorem State.gave_ds (s : State) (r : Requester) (o v : Nat) : (s.gave r o v).ds = s.ds :=
  State.answer_ds ..
@[simp] theorem State.gave_ln (s : State) (r : Requester) (o v : Nat) : (s.gave r o v).ln = s.ln :=
  State.answer_ln ..
@[simp] theorem State.gave_pb (s : State) (r : Requester) (o v : Nat) : (s.gave r o v).pb = s.pb :=
  State.answer_pb ..
@[simp] theorem State.gave_lg (s : State) (r : Requester) (o v : Nat) : (s.gave r o v).lg = s.lg :=
  State.answer_lg ..
@[simp] theorem State.gave_du (s : State) (r : Requester) (o v : Nat) : (s.gave r o v).du = s.du :=
  State.answer_du ..
@[simp] theorem State.gave_cl (s : State) (r : Requester) (o v : Nat) : (s.gave r o v).cl = s.cl :=
  State.answer_cl ..
@[simp] theorem State.gave_ev (s : State) (r : Requester) (o v : Nat) : (s.gave r o v).ev = s.ev :=
  State.answer_ev ..
@[simp] theorem State.gave_tg (s : State) (r : Requester) (o v : Nat) : (s.gave r o v).tg = s.tg :=
  State.answer_tg ..
@[simp] theorem State.gave_vis (s : State) (r : Requester) (o v : Nat) : (s.gave r o v).vis = s.vis :=
  State.answer_vis ..
@[simp] theorem State.gave_ks (s : State) (r : Requester) (o v : Nat) : (s.gave r o v).ks = s.ks :=
  State.answer_ks ..
@[simp] theorem State.gave_elec (s : State) (r : Requester) (o v : Nat) : (s.gave r o v).elec = s.elec :=
  State.answer_elec ..
@[simp] theorem State.gave_boot (s : State) (r : Requester) (o v : Nat) : (s.gave r o v).boot = s.boot :=
  State.answer_boot ..
@[simp] theorem State.gave_word (s : State) (r : Requester) (o v : Nat) (x : Nat) : (s.gave r o v).word x = s.word x :=
  State.answer_word ..
@[simp] theorem State.gave_rd (s : State) (r : Requester) (o v : Nat) (x : Fld) : (s.gave r o v).rd x = s.rd x :=
  State.answer_rd ..
@[simp] theorem State.gave_on (s : State) (r : Requester) (o v : Nat) (x : Fld) : (s.gave r o v).on x = s.on x :=
  State.answer_on ..
@[simp] theorem State.gave_tb (s : State) (r : Requester) (o v : Nat) (x : Nat) : (s.gave r o v).tb x = s.tb x :=
  State.answer_tb ..

/-! ### Register accesses -/

/-- The access that writes `v` to register-space offset `o`. -/
theorem writeReg_served {s : State} {r : Requester} {o v i : Nat} {b : Block} (hw : s.Writer r) (ho : o < 0x3000000)
    (hb : pageBlock (o / 0x10000) = some (b, i)) (hp : s.Powered (pageDomain b i)) (hd : (descIn b i (o % 0x10000)).isSome)
    (hn : b ≠ .aq ∨ s.is5120 = false) (hx : v < 2 ^ 32) :
    writeReg r o v s = (pageWrite b i r (o % 0x10000) v s).wrote r o v := by
  have hv : (BitVec.ofNat 32 v).toNat = v := by
    simp only [BitVec.toNat_ofNat]
    omega
  have hq : ¬ (b = .aq ∧ s.is5120 = true) := by
    rintro ⟨h1, h2⟩
    rcases hn with h | h
    · exact h h1
    · simp [h] at h2
  have hpw : pageDomain b i < 2 ∨ s.dom (pageDomain b i) = 1 := hp
  have hd' : (descIn b i (o % 0x10000)).isNone = false := by
    cases h : descIn b i (o % 0x10000) <;> simp_all
  simp only [writeReg, access, addr_toNat ho, hw.1.reach, mapAccess, target_register ho, hb, if_neg hq, needDomain,
    if_pos hpw, regAccess, hd', Bool.false_eq_true, if_false, regWrite, hw.2, Bool.true_or, if_true, hv]
  rfl

/-- The access that reads register-space offset `o`, where the page has it ready. -/
theorem readReg_served {s t : State} {r : Requester} {o d i : Nat} {b : Block} (hr : s.Reaches r) (ho : o < 0x3000000)
    (hb : pageBlock (o / 0x10000) = some (b, i)) (hp : s.Powered (pageDomain b i)) (hd : (descIn b i (o % 0x10000)).isSome)
    (hn : b ≠ .aq ∨ s.is5120 = false) (hc : cryptoFields o = [])
    (ht : regRead b i r (o % 0x10000) (o / 0x10000) s = (some d, t)) (hs : t.CalServed) :
    readReg r o s = t.gave r o d := by
  have hq : ¬ (b = .aq ∧ s.is5120 = true) := by
    rintro ⟨h1, h2⟩
    rcases hn with h | h
    · exact h h1
    · simp [h] at h2
  have hpw : pageDomain b i < 2 ∨ s.dom (pageDomain b i) = 1 := hp
  have hd' : (descIn b i (o % 0x10000)).isNone = false := by
    cases h : descIn b i (o % 0x10000) <;> simp_all
  have ha : (addrRegs + o - addrRegs) / 0x10000 = o / 0x10000 := by rw [Nat.add_sub_cancel_left]
  have hm : o / 0x10000 * 0x10000 + o % 0x10000 = o := by omega
  simp only [readReg, access, addr_toNat ho, Option.isNone_none, hr.reach, mapAccess, target_register ho, hb, if_neg hq,
    needDomain, if_pos hpw, regAccess, hd', Bool.false_eq_true, if_false, ha, ht, hm, hc, ne_eq, not_true_eq_false, and_false]
  unfold State.calFree
  split
  · rename_i h
    rw [State.answer_cl, Option.isNone_iff_eq_none] at h
    rw [State.answer_cl, hs h]
    rfl
  · rfl

end Sys2Proof.Machine
end

