-- ==== Sys2Proof/Laws/Frame.lean ====
section
/-!
SUPPORT. How a claim's frame is shown: field by field.
-/
namespace Sys2Proof.Machine

/-- Two states that agree in every field are one. -/
theorem State.eq_of_fields {s t : State} (h0 : s.pending = t.pending) (h1 : s.cyc = t.cyc) (h2 : s.regs = t.regs) (h3
    : s.regs0 = t.regs0) (h4 : s.evc = t.evc) (h5 : s.free = t.free) (h6 : s.bus = t.bus) (h7 : s.mem = t.mem) (h8 :
    s.nvm = t.nvm) (h9 : s.recReqs = t.recReqs) (h10 : s.arch = t.arch) (h11 : s.clk = t.clk) (h12 : s.ic = t.ic) (h13
    : s.ports = t.ports) (h14 : s.hall = t.hall) (h15 : s.sub = t.sub) (h16 : s.al = t.al) (h17 : s.aq = t.aq) (h18 :
    s.ds = t.ds) (h19 : s.ln = t.ln) (h20 : s.pb = t.pb) (h21 : s.lg = t.lg) (h22 : s.du = t.du) (h23 : s.cl = t.cl)
    (h24 : s.ev = t.ev) (h25 : s.tg = t.tg) (h26 : s.vis = t.vis) (h27 : s.ks = t.ks) (h28 : s.elec = t.elec) (h29 :
    s.boot = t.boot) (h30 : s.pr = t.pr) : s = t := by
  cases s
  cases t
  simp_all


/-! ### `State.withRegs` -/

@[simp] theorem State.withRegs_pending (s t : State) : (s.withRegs t).pending = s.pending := by cases s; cases t; rfl
@[simp] theorem State.withRegs_cyc (s t : State) : (s.withRegs t).cyc = s.cyc := by cases s; cases t; rfl
@[simp] theorem State.withRegs_regs (s t : State) : (s.withRegs t).regs = t.regs := by cases s; cases t; rfl
@[simp] theorem State.withRegs_regs0 (s t : State) : (s.withRegs t).regs0 = t.regs0 := by cases s; cases t; rfl
@[simp] theorem State.withRegs_evc (s t : State) : (s.withRegs t).evc = t.evc := by cases s; cases t; rfl
@[simp] theorem State.withRegs_free (s t : State) : (s.withRegs t).free = s.free := by cases s; cases t; rfl
@[simp] theorem State.withRegs_bus (s t : State) : (s.withRegs t).bus = s.bus := by cases s; cases t; rfl
@[simp] theorem State.withRegs_mem (s t : State) : (s.withRegs t).mem = s.mem := by cases s; cases t; rfl
@[simp] theorem State.withRegs_nvm (s t : State) : (s.withRegs t).nvm = s.nvm := by cases s; cases t; rfl
@[simp] theorem State.withRegs_recReqs (s t : State) : (s.withRegs t).recReqs = s.recReqs := by cases s; cases t; rfl
@[simp] theorem State.withRegs_arch (s t : State) : (s.withRegs t).arch = s.arch := by cases s; cases t; rfl
@[simp] theorem State.withRegs_clk (s t : State) : (s.withRegs t).clk = s.clk := by cases s; cases t; rfl
@[simp] theorem State.withRegs_ic (s t : State) : (s.withRegs t).ic = s.ic := by cases s; cases t; rfl
@[simp] theorem State.withRegs_ports (s t : State) : (s.withRegs t).ports = s.ports := by cases s; cases t; rfl
@[simp] theorem State.withRegs_hall (s t : State) : (s.withRegs t).hall = s.hall := by cases s; cases t; rfl
@[simp] theorem State.withRegs_sub (s t : State) : (s.withRegs t).sub = s.sub := by cases s; cases t; rfl
@[simp] theorem State.withRegs_al (s t : State) : (s.withRegs t).al = s.al := by cases s; cases t; rfl
@[simp] theorem State.withRegs_aq (s t : State) : (s.withRegs t).aq = s.aq := by cases s; cases t; rfl
@[simp] theorem State.withRegs_ds (s t : State) : (s.withRegs t).ds = s.ds := by cases s; cases t; rfl
@[simp] theorem State.withRegs_ln (s t : State) : (s.withRegs t).ln = s.ln := by cases s; cases t; rfl
@[simp] theorem State.withRegs_pb (s t : State) : (s.withRegs t).pb = s.pb := by cases s; cases t; rfl
@[simp] theorem State.withRegs_lg (s t : State) : (s.withRegs t).lg = s.lg := by cases s; cases t; rfl
@[simp] theorem State.withRegs_du (s t : State) : (s.withRegs t).du = s.du := by cases s; cases t; rfl
@[simp] theorem State.withRegs_cl (s t : State) : (s.withRegs t).cl = s.cl := by cases s; cases t; rfl
@[simp] theorem State.withRegs_ev (s t : State) : (s.withRegs t).ev = s.ev := by cases s; cases t; rfl
@[simp] theorem State.withRegs_tg (s t : State) : (s.withRegs t).tg = s.tg := by cases s; cases t; rfl
@[simp] theorem State.withRegs_vis (s t : State) : (s.withRegs t).vis = s.vis := by cases s; cases t; rfl
@[simp] theorem State.withRegs_ks (s t : State) : (s.withRegs t).ks = s.ks := by cases s; cases t; rfl
@[simp] theorem State.withRegs_elec (s t : State) : (s.withRegs t).elec = s.elec := by cases s; cases t; rfl
@[simp] theorem State.withRegs_boot (s t : State) : (s.withRegs t).boot = s.boot := by cases s; cases t; rfl
@[simp] theorem State.withRegs_pr (s t : State) : (s.withRegs t).pr = s.pr := by cases s; cases t; rfl

/-! ### `State.withEvents` -/

@[simp] theorem State.withEvents_pending (s t : State) : (s.withEvents t).pending = s.pending := by cases s; cases t; rfl
@[simp] theorem State.withEvents_cyc (s t : State) : (s.withEvents t).cyc = s.cyc := by cases s; cases t; rfl
@[simp] theorem State.withEvents_regs (s t : State) : (s.withEvents t).regs = t.regs := by cases s; cases t; rfl
@[simp] theorem State.withEvents_regs0 (s t : State) : (s.withEvents t).regs0 = t.regs0 := by cases s; cases t; rfl
@[simp] theorem State.withEvents_evc (s t : State) : (s.withEvents t).evc = t.evc := by cases s; cases t; rfl
@[simp] theorem State.withEvents_free (s t : State) : (s.withEvents t).free = s.free := by cases s; cases t; rfl
@[simp] theorem State.withEvents_bus (s t : State) : (s.withEvents t).bus = s.bus := by cases s; cases t; rfl
@[simp] theorem State.withEvents_mem (s t : State) : (s.withEvents t).mem = s.mem := by cases s; cases t; rfl
@[simp] theorem State.withEvents_nvm (s t : State) : (s.withEvents t).nvm = s.nvm := by cases s; cases t; rfl
@[simp] theorem State.withEvents_recReqs (s t : State) : (s.withEvents t).recReqs = s.recReqs := by cases s; cases t; rfl
@[simp] theorem State.withEvents_arch (s t : State) : (s.withEvents t).arch = s.arch := by cases s; cases t; rfl
@[simp] theorem State.withEvents_clk (s t : State) : (s.withEvents t).clk = s.clk := by cases s; cases t; rfl
@[simp] theorem State.withEvents_ic (s t : State) : (s.withEvents t).ic = t.ic := by cases s; cases t; rfl
@[simp] theorem State.withEvents_ports (s t : State) : (s.withEvents t).ports = s.ports := by cases s; cases t; rfl
@[simp] theorem State.withEvents_hall (s t : State) : (s.withEvents t).hall = s.hall := by cases s; cases t; rfl
@[simp] theorem State.withEvents_sub (s t : State) : (s.withEvents t).sub = s.sub := by cases s; cases t; rfl
@[simp] theorem State.withEvents_al (s t : State) : (s.withEvents t).al = s.al := by cases s; cases t; rfl
@[simp] theorem State.withEvents_aq (s t : State) : (s.withEvents t).aq = s.aq := by cases s; cases t; rfl
@[simp] theorem State.withEvents_ds (s t : State) : (s.withEvents t).ds = s.ds := by cases s; cases t; rfl
@[simp] theorem State.withEvents_ln (s t : State) : (s.withEvents t).ln = s.ln := by cases s; cases t; rfl
@[simp] theorem State.withEvents_pb (s t : State) : (s.withEvents t).pb = s.pb := by cases s; cases t; rfl
@[simp] theorem State.withEvents_lg (s t : State) : (s.withEvents t).lg = s.lg := by cases s; cases t; rfl
@[simp] theorem State.withEvents_du (s t : State) : (s.withEvents t).du = s.du := by cases s; cases t; rfl
@[simp] theorem State.withEvents_cl (s t : State) : (s.withEvents t).cl = s.cl := by cases s; cases t; rfl
@[simp] theorem State.withEvents_ev (s t : State) : (s.withEvents t).ev = s.ev := by cases s; cases t; rfl
@[simp] theorem State.withEvents_tg (s t : State) : (s.withEvents t).tg = s.tg := by cases s; cases t; rfl
@[simp] theorem State.withEvents_vis (s t : State) : (s.withEvents t).vis = s.vis := by cases s; cases t; rfl
@[simp] theorem State.withEvents_ks (s t : State) : (s.withEvents t).ks = s.ks := by cases s; cases t; rfl
@[simp] theorem State.withEvents_elec (s t : State) : (s.withEvents t).elec = s.elec := by cases s; cases t; rfl
@[simp] theorem State.withEvents_boot (s t : State) : (s.withEvents t).boot = s.boot := by cases s; cases t; rfl
@[simp] theorem State.withEvents_pr (s t : State) : (s.withEvents t).pr = s.pr := by cases s; cases t; rfl

/-! ### `State.withAccess` -/

@[simp] theorem State.withAccess_pending (s t : State) : (s.withAccess t).pending = s.pending := by cases s; cases t; rfl
@[simp] theorem State.withAccess_cyc (s t : State) : (s.withAccess t).cyc = s.cyc := by cases s; cases t; rfl
@[simp] theorem State.withAccess_regs (s t : State) : (s.withAccess t).regs = t.regs := by cases s; cases t; rfl
@[simp] theorem State.withAccess_regs0 (s t : State) : (s.withAccess t).regs0 = t.regs0 := by cases s; cases t; rfl
@[simp] theorem State.withAccess_evc (s t : State) : (s.withAccess t).evc = t.evc := by cases s; cases t; rfl
@[simp] theorem State.withAccess_free (s t : State) : (s.withAccess t).free = t.free := by cases s; cases t; rfl
@[simp] theorem State.withAccess_bus (s t : State) : (s.withAccess t).bus = t.bus := by cases s; cases t; rfl
@[simp] theorem State.withAccess_mem (s t : State) : (s.withAccess t).mem = s.mem := by cases s; cases t; rfl
@[simp] theorem State.withAccess_nvm (s t : State) : (s.withAccess t).nvm = s.nvm := by cases s; cases t; rfl
@[simp] theorem State.withAccess_recReqs (s t : State) : (s.withAccess t).recReqs = s.recReqs := by cases s; cases t; rfl
@[simp] theorem State.withAccess_arch (s t : State) : (s.withAccess t).arch = s.arch := by cases s; cases t; rfl
@[simp] theorem State.withAccess_clk (s t : State) : (s.withAccess t).clk = s.clk := by cases s; cases t; rfl
@[simp] theorem State.withAccess_ic (s t : State) : (s.withAccess t).ic = t.ic := by cases s; cases t; rfl
@[simp] theorem State.withAccess_ports (s t : State) : (s.withAccess t).ports = s.ports := by cases s; cases t; rfl
@[simp] theorem State.withAccess_hall (s t : State) : (s.withAccess t).hall = s.hall := by cases s; cases t; rfl
@[simp] theorem State.withAccess_sub (s t : State) : (s.withAccess t).sub = s.sub := by cases s; cases t; rfl
@[simp] theorem State.withAccess_al (s t : State) : (s.withAccess t).al = s.al := by cases s; cases t; rfl
@[simp] theorem State.withAccess_aq (s t : State) : (s.withAccess t).aq = s.aq := by cases s; cases t; rfl
@[simp] theorem State.withAccess_ds (s t : State) : (s.withAccess t).ds = s.ds := by cases s; cases t; rfl
@[simp] theorem State.withAccess_ln (s t : State) : (s.withAccess t).ln = s.ln := by cases s; cases t; rfl
@[simp] theorem State.withAccess_pb (s t : State) : (s.withAccess t).pb = s.pb := by cases s; cases t; rfl
@[simp] theorem State.withAccess_lg (s t : State) : (s.withAccess t).lg = s.lg := by cases s; cases t; rfl
@[simp] theorem State.withAccess_du (s t : State) : (s.withAccess t).du = s.du := by cases s; cases t; rfl
@[simp] theorem State.withAccess_cl (s t : State) : (s.withAccess t).cl = s.cl := by cases s; cases t; rfl
@[simp] theorem State.withAccess_ev (s t : State) : (s.withAccess t).ev = s.ev := by cases s; cases t; rfl
@[simp] theorem State.withAccess_tg (s t : State) : (s.withAccess t).tg = s.tg := by cases s; cases t; rfl
@[simp] theorem State.withAccess_vis (s t : State) : (s.withAccess t).vis = s.vis := by cases s; cases t; rfl
@[simp] theorem State.withAccess_ks (s t : State) : (s.withAccess t).ks = s.ks := by cases s; cases t; rfl
@[simp] theorem State.withAccess_elec (s t : State) : (s.withAccess t).elec = s.elec := by cases s; cases t; rfl
@[simp] theorem State.withAccess_boot (s t : State) : (s.withAccess t).boot = s.boot := by cases s; cases t; rfl
@[simp] theorem State.withAccess_pr (s t : State) : (s.withAccess t).pr = t.pr := by cases s; cases t; rfl

end Sys2Proof.Machine
end

