-- ==== Sys2Proof/Laws/Kept.lean ====
section
/-!
SUPPORT. What every command keeps, said once: the queue, the cycle count, every programmed fuse, and the canonical form of the
two memories. The relation is reflexive and transitive, so that each operation needs one lemma.
-/
namespace Sys2Proof.Machine

/-- Every fuse programmed in `f` is programmed in `g` (R411). -/
structure Fuses.le (f g : Fuses) : Prop where
  pkhSet : ∀ k, f.pkhSet.testBit k = true → g.pkhSet.testBit k = true
  revoke : ∀ k, f.revoke.testBit k = true → g.revoke.testBit k = true
  prov : f.prov = true → g.prov = true
  field : f.field = true → g.field = true
  ret : f.ret = true → g.ret = true

/-- What every command keeps. -/
structure Kept (s t : State) : Prop where
  pending : t.pending = s.pending
  cyc : t.cyc = s.cyc
  fuses : s.ks.fuses.le t.ks.fuses
  mem : Memory.wf s.mem = true → Memory.wf t.mem = true
  nvm : canonical (fun _ => (0xFF : Byte)) s.nvm = true → canonical (fun _ => (0xFF : Byte)) t.nvm = true

theorem Fuses.le.refl (f : Fuses) : f.le f := ⟨fun _ h => h, fun _ h => h, id, id, id⟩

theorem Fuses.le.trans {f g h : Fuses} (a : f.le g) (b : g.le h) : f.le h :=
  ⟨fun k x => b.pkhSet k (a.pkhSet k x), fun k x => b.revoke k (a.revoke k x), fun x => b.prov (a.prov x),
    fun x => b.field (a.field x), fun x => b.ret (a.ret x)⟩

theorem Kept.refl (s : State) : Kept s s := ⟨rfl, rfl, Fuses.le.refl _, id, id⟩

theorem Kept.trans {s t u : State} (a : Kept s t) (b : Kept t u) : Kept s u :=
  ⟨b.pending.trans a.pending, b.cyc.trans a.cyc, a.fuses.trans b.fuses, fun h => b.mem (a.mem h), fun h => b.nvm (a.nvm h)⟩

/-- A state that differs only elsewhere. -/
theorem Kept.of_eq {s t u : State} (h : Kept s t) (h1 : u.pending = t.pending) (h2 : u.cyc = t.cyc)
    (h3 : u.ks.fuses = t.ks.fuses) (h4 : u.mem = t.mem) (h5 : u.nvm = t.nvm) : Kept s u :=
  h.trans ⟨h1, h2, h3 ▸ Fuses.le.refl _, h4 ▸ id, h5 ▸ id⟩

theorem Kept.ite {s t u : State} {c : Prop} [Decidable c] (h : Kept s t) (h' : Kept s u) : Kept s (if c then t else u) := by
  split
  · exact h
  · exact h'

theorem Kept.foldl {α : Type} {s t : State} (g : State → α → State) (l : List α) (h : Kept s t)
    (hg : ∀ t x, Kept t (g t x)) : Kept s (l.foldl g t) := by
  induction l generalizing t with
  | nil => exact h
  | cons x l ih => exact ih (h.trans (hg t x))

/-- The state of a pair with its other part. -/
theorem Kept.snd {α : Type} {s u : State} {p : α × State} {x : α} (h : Kept s p.2) (e : p = (x, u)) : Kept s u := by
  subst e
  exact h

theorem Kept.fst {α : Type} {s u : State} {p : State × α} {x : α} (h : Kept s p.1) (e : p = (u, x)) : Kept s u := by
  subst e
  exact h

/-- A command answers a next state that keeps what `s` has. -/
def Answered (s : State) (o : Host.Outcome State Fault Refusal) : Prop := ∃ t, o = .next t ∧ Kept s t

theorem Answered.next {s t : State} (h : Kept s t) : Answered s (.next t) := ⟨t, rfl, h⟩

theorem Answered.ite {s : State} {o o' : Host.Outcome State Fault Refusal} {c : Prop} [Decidable c] (h : Answered s o)
    (h' : Answered s o') : Answered s (if c then o else o') := by
  split
  · exact h
  · exact h'

theorem Answered.whileOn {s t : State} {o : Host.Outcome State Fault Refusal} (d : Nat) (ht : Kept s t) (h : Answered s o) :
    Answered s (Machine.whileOn d t o) := by
  unfold Machine.whileOn
  split
  · exact h
  · exact .next ht

/-- What a partial operation answers keeps what `s` has. -/
abbrev PairKept {α : Type} (s : State) (p : α × State) : Prop := Kept s p.2
abbrev OkKept (s : State) (e : Except Nat State) : Prop := ∀ t, e = .ok t → Kept s t
abbrev SomeKept {α : Type} (s : State) (o : Option (α × State)) : Prop := ∀ x t, o = some (x, t) → Kept s t

theorem PairKept.mk {α : Type} {s t : State} (x : α) (h : Kept s t) : PairKept s (x, t) := h

theorem PairKept.ite {α : Type} {s : State} {p q : α × State} {c : Prop} [Decidable c] (h : PairKept s p)
    (h' : PairKept s q) : PairKept s (if c then p else q) := by
  split
  · exact h
  · exact h'

theorem OkKept.ok {s t : State} (h : Kept s t) : OkKept s (.ok t) := by
  rintro u ⟨⟩
  exact h

theorem OkKept.error {s : State} (c : Nat) : OkKept s (.error c) := by
  rintro u ⟨⟩

theorem OkKept.ite {s : State} {p q : Except Nat State} {c : Prop} [Decidable c] (h : OkKept s p) (h' : OkKept s q) :
    OkKept s (if c then p else q) := by
  split
  · exact h
  · exact h'

theorem OkKept.after {s t : State} {e : Except Nat State} (h : Kept s t) (h' : OkKept t e) : OkKept s e :=
  fun u hu => h.trans (h' u hu)

theorem SomeKept.some {α : Type} {s t : State} (x : α) (h : Kept s t) : SomeKept s (some (x, t)) := by
  rintro y u ⟨⟩
  exact h

theorem SomeKept.none {α : Type} {s : State} : SomeKept s (none : Option (α × State)) := by
  rintro y u ⟨⟩

theorem SomeKept.ite {α : Type} {s : State} {p q : Option (α × State)} {c : Prop} [Decidable c] (h : SomeKept s p)
    (h' : SomeKept s q) : SomeKept s (if c then p else q) := by
  split
  · exact h
  · exact h'

theorem SomeKept.after {α : Type} {s t : State} {e : Option (α × State)} (h : Kept s t) (h' : SomeKept t e) :
    SomeKept s e :=
  fun x u hu => h.trans (h' x u hu)

/-- A record update that leaves the queue, the cycle count, the memories and the fuses. -/
theorem Kept.upd {s t : State}
    {regs' : List (Nat × Word)} {regs0' : List (Nat × Word)} {evc' : List (Nat × Word)} {free' : Nat} {bus' : Option
      Completion} {recReqs' : List RecReq} {arch' : Arch} {clk' : Clk} {ic' : Ic} {ports' : Ports} {hall' : Hall} {sub' :
      Sub} {al' : Al} {aq' : Aq} {ds' : Ds} {ln' : Ln} {pb' : Pb} {lg' : Lg} {du' : Du} {cl' : Cellar} {ev' : Ev} {tg' :
      Tg} {vis' : Vis} {ks' : Ks} {elec' : Elec} {boot' : Boot} {pr' : Pr}
    (h : Kept s t) (hf : ks'.fuses = t.ks.fuses) :
    Kept s (State.mk t.pending t.cyc regs' regs0' evc' free' bus' t.mem t.nvm recReqs' arch' clk' ic' ports' hall' sub' al'
      aq' ds' ln' pb' lg' du' cl' ev' tg' vis' ks' elec' boot' pr') :=
  h.trans ⟨rfl, rfl, hf ▸ Fuses.le.refl _, id, id⟩

/-! ### The named updates -/

theorem State.setByte_kept (s : State) (a : Nat) (v : Byte) : Kept s (s.setByte a v) :=
  ⟨rfl, rfl, Fuses.le.refl _, canonical_cput (fun _ => memBlank) s.mem a v, id⟩

theorem State.store_kept (s : State) (a : Nat) (l : List Byte) : Kept s (s.store a l) := by
  induction l generalizing s a with
  | nil => exact .refl s
  | cons v t ih =>
    unfold State.store
    refine Kept.trans ?_ (ih _ _)
    exact Kept.of_eq (s.setByte_kept a v) rfl rfl rfl rfl rfl

theorem State.nvmStore_kept (s : State) (a : Nat) (l : List Byte) : Kept s (s.nvmStore a l) := by
  induction l generalizing s a with
  | nil => exact .refl s
  | cons v t ih =>
    unfold State.nvmStore
    refine Kept.trans ?_ (ih _ _)
    exact ⟨rfl, rfl, Fuses.le.refl _, id, canonical_cput (fun _ => (0xFF : Byte)) s.nvm a v⟩

theorem fuseSet_le (g : Nat) (d : List Byte) (f : Fuses) : f.le (fuseSet g d f) := by
  unfold fuseSet
  split <;> constructor <;> simp_all

theorem sortedKeys_filter {α : Type} (p : Nat × α → Bool) (m : List (Nat × α)) (h : sortedKeys m = true) :
    sortedKeys (m.filter p) = true := by
  induction m with
  | nil => rfl
  | cons q t ih =>
    obtain ⟨j, w⟩ := q
    obtain ⟨ha, hs⟩ := (sortedKeys_cons j w t).1 h
    rw [List.filter_cons]
    split
    · exact (sortedKeys_cons _ _ _).2 ⟨fun x hx => ha x (List.mem_filter.1 hx).1, ih hs⟩
    · exact ih hs

theorem canonical_filter {α : Type} [DecidableEq α] (d : Nat → α) (p : Nat × α → Bool) (m : List (Nat × α))
    (h : canonical d m = true) : canonical d (m.filter p) = true := by
  simp only [canonical, Bool.and_eq_true, List.all_eq_true, decide_eq_true_eq] at h ⊢
  exact ⟨sortedKeys_filter p m h.1, fun q hq => h.2 q (List.mem_filter.1 hq).1⟩

end Sys2Proof.Machine
end

