-- ==== Sys2Proof/Tests/Slice0.lean ====
section
/-!
SUPPORT. Small tests of the model: for each statement with hypotheses a state and operands that meet them, clause by clause.
-/
namespace Sys2Proof.Machine

set_option Elab.async false

/-- `s` with the fields `l` set, at the start of a cycle. -/
def testOn (l : List (Fld × Nat)) (s : State := State.reset) : State :=
  let t := l.foldl (fun u p => u.wr p.1 p.2) s
  { t with regs0 := t.regs }

/-- A module with every domain ON and the fields `l` set. -/
def testUp (l : List (Fld × Nat)) : State := testOn l (State.reset.put PM_DOMAIN_PD0.addr 0x55555555)

/-- The 60 octets of an untagged frame of EtherType `et`, without its FCS. -/
def testOctets (et : Nat) : List Byte :=
  leBytes 6 0x020000000001 ++ leBytes 6 0x020000000002 ++ beBytes 2 et ++ List.replicate 46 0

/-- A frame that arrives whole with the octets `l` before its FCS. -/
def testRx (l : List Byte) : RxFrame := ⟨0x8000, ⟨.whole, l ++ fcsOf l, true, 0⟩, []⟩

/-- That frame in the Hall. -/
def testFrame (et : Nat) : Frame := { octets := testOctets et, len := 64, stamp := 0, stamp0 := 0, ingress := 0 }

/-- A complete frame in the queue of I2 for class 2, with a steward ring whose first descriptor holds a buffer of 64 bytes. -/
def testDeliver : State :=
  { (((testUp [((PT_RING_RX_SIZE.p 21).i 0, 16)]).storeN 12 4 0x80000000).storeN 0 5 4096).storeN 8 1 1 with
    cyc := 10
    hall := { frames := [(7, { testFrame 0x0800 with complete := true, copies := [(21, 2)] })], queues := [(170, [7])] } }

/-- A transmit descriptor at address 0 with class and destination `cd`, buffer at 4,096, SOP and EOP. -/
def testTx (l : List (Fld × Nat)) (cd len : Nat) : State :=
  (((testUp l).storeN 0 5 4096).storeN 8 4 (cd * 65536 + len)).storeN 12 4 0xE0000000

/-- A module with the frame `f` as frame 7 in the Hall, at cycle 200. -/
def testHall (l : List (Fld × Nat)) (f : Frame) : State :=
  { testUp l with cyc := 200, hall := { frames := [(7, f)], nextId := 8 } }

/-- A module with frame 7 at its acceptance cycle 200, matched by entry 3 of kind `k` (1 SV, 2 GOOSE). -/
def testAccept (l : List (Fld × Nat)) (f : Frame) (r now : List Byte) : State :=
  { testHall l { f with accept := some 200, entry := some 3, rule := r, copies := [(19, 0)] } with
    sub := { entries := [(3, { bytes := now })] } }

/-- A run in lane 0 that has reached the first record of its graph. -/
def testGraph : Run :=
  { task := 7, vi := 3, gen := 0, flow := 0, ready := false, start := 100, startCy := 0, cost := 100000, entry := 0, next := 110,
    ibase := 0x200, isize := 0x1000 }

/-- A module in whose lane 0 the run `testGraph` has reached kernel `code`, the items `xs` and `ys` lying in its references A and B. -/
def testKernel (code n m param : Nat) (xs ys : List Item) : State :=
  let record := leBytes 1 code ++ leBytes 1 n ++ leBytes 2 0x100 ++ leBytes 2 0x200 ++ leBytes 2 0x300 ++ leBytes 2 0 ++
    leBytes 2 m ++ leBytes 4 param
  let s := (((testUp []).store (addrCluster 0 + 16) record).store (addrLane 0 + 0x800)
    (xs.flatMap (fun x => x.units.flatten))).store (addrLane 0 + 0x1000) (ys.flatMap (fun x => x.units.flatten))
  { s with cyc := 50000, ln := { runs := [(0, testGraph)] }, arch := { at0 := { mem := s.mem } } }

/-- The record that it has reached. -/
def testInv (s : State) : Inv := s.old.invocation 0 testGraph

/-- A good number, phasor or BOOL as a kernel reads it. -/
def testNum : Item := { t := tFLOAT, v := 0x3F800000, q := 0 }
def testPhasor : Item := { t := tPHASOR, v := 0x3F800000, w := 0x40000000, q := 0 }
def testTrue : Item := { t := tBOOL, v := 1, q := 0 }

theorem core_reaches {s : State} {c : Fin 4} : s.Reaches (.core c) :=
  ⟨(by intro v h; cases h), (by intro h; cases h), (by intro h; cases h)⟩

theorem core_writer {s : State} {c : Fin 4} (h : s.mayWrite (.core c) = true) : s.Writer (.core c) := ⟨core_reaches, h⟩

theorem core_memory {s : State} {c : Fin 4} : s.ReachesMemory (.core c) := ⟨core_reaches, by intro h; cases h⟩

theorem except_ok {α : Type} [DecidableEq α] {e : Except Nat α} {x : α}
    (h : (match e with | .ok y => decide (y = x) | .error _ => false) = true) : e = .ok x := by
  cases e with
  | ok y => exact congrArg _ (of_decide_eq_true h)
  | error c => cases h

theorem except_error {α : Type} {e : Except Nat α} {c : Nat}
    (h : (match e with | .ok _ => false | .error d => decide (d = c)) = true) : e = .error c := by
  cases e with
  | ok y => cases h
  | error d => exact congrArg _ (of_decide_eq_true h)

theorem can_write {k : Inv} {us : List (List Byte)}
    (h : (List.range us.length).all (fun i => (k.unitAddr k.out i true).toOption.isSome) = true) : k.CanWrite us := by
  intro i hi
  have := List.all_eq_true.mp h i (List.mem_range.mpr hi)
  cases e : k.unitAddr k.out i true with
  | ok a => exact ⟨a, rfl⟩
  | error c => simp [e, Except.toOption] at this

theorem test_reset_memory : MemoryCanonical State.reset := ⟨rfl, rfl⟩

/-! ### Well-formed commands -/

/-- A time of 12:34:56 on day 78 of year 9. -/
def testIrig : IrigFrame :=
  { ago := 0, code := 4, markers := true, lengthOk := true, secU := 6, secT := 5, minU := 4, minT := 3, hrU := 2
    hrT := 1, dayU := 8, dayT := 7, dayH := 0
    yrU := 9, yrT := 0, sbs := 45296, cf := 0 }

theorem test_wellFormed :
    (Instr.registerWrite .pf0 0x800004 5).wellFormed = true ∧ (Instr.windowAccess 511 0x3FFFFFFC none).wellFormed = true ∧
    (Instr.irigFrame testIrig).wellFormed = true ∧ (Instr.frameReceive 18 (testRx (testOctets 0x88B8))).wellFormed = true ∧
    (Instr.acqSampleComplete 3 (List.replicate 8 [true]) 0).wellFormed = true ∧
    (Instr.helloRx ⟨1, 0, List.replicate 16 0⟩).wellFormed = true := by decide +kernel

theorem test_illFormed_address :
    (Instr.registerWrite .pf0 0x800002 5).wellFormed = false ∧ (Instr.readClearAccess .pf0 0x800001).wellFormed = false ∧
    (Instr.darkPageAccess ⟨.pf0, 0x800003, none, none⟩).wellFormed = false ∧ (Instr.windowAccess 0 2 none).wellFormed = false := by decide

theorem test_illFormed_irig :
    (Instr.irigFrame { testIrig with secU := 16 }).wellFormed = false ∧
    (Instr.irigFrame { testIrig with sbs := 131072 }).wellFormed = false ∧
    (Instr.irigFrame { testIrig with cf := 134217728 }).wellFormed = false := by decide

/-- A check of fewer than four octets, a first packet that begins late, packets out of order, and a whole frame with a fragment. -/
theorem test_illFormed_frame :
    (Instr.frameReceive 0 ⟨0, ⟨.whole, [1, 2, 3], true, 0⟩, []⟩).wellFormed = false ∧
    (Instr.frameReceive 0 ⟨0, ⟨.whole, [1, 2, 3, 4], true, 1⟩, []⟩).wellFormed = false ∧
    (Instr.frameReceive 0 ⟨0, ⟨.start 0, [1, 2, 3, 4], false, 0⟩, [⟨.cont 0 0, [1, 2, 3, 4], true, 0⟩]⟩).wellFormed = false ∧
    (Instr.frameReceive 0 ⟨0, ⟨.whole, [1, 2, 3, 4], true, 0⟩, [⟨.cont 0 0, [1, 2, 3, 4], true, 9⟩]⟩).wellFormed = false := by decide

theorem test_illFormed_samples : (Instr.acqSampleComplete 0 (List.replicate 7 []) 0).wellFormed = false := by decide

theorem test_illFormed_message : (Instr.helloRx ⟨0, 0, List.replicate 15 0⟩).wellFormed = false := by decide

/-- The opcode table gives no row any bits, so no word spells a command. -/
theorem test_table_word : decodeTableWord 32 0 = none ∧ State.reset.withFetchWord 32 0 = State.reset := ⟨rfl, rfl⟩

/-! ### EmptyQueueStepIsOneCycle -/

theorem witness_EmptyQueueStepIsOneCycle :
    ∃ (s : State),
      s.pending = [] :=
  ⟨(testUp []), by decide +kernel⟩

/-! ### SoftwareWriteByAccessCode -/

theorem witness_SoftwareWriteByAccessCode :
    ∃ (d : RegDesc) (i : Nat),
      i < 32 ∧ (∀ f ∈ d.fields, f.lo ≤ f.hi ∧ f.hi < 32) ∧ List.Pairwise (fun f g => f.hi < g.lo ∨ g.hi < f.lo) d.fields :=
  ⟨⟨0, 0, 1, [⟨31, 16, .rw, 0⟩, ⟨15, 8, .w1c, 0⟩, ⟨7, 4, .ro, 0⟩]⟩, 8, by decide +kernel⟩

/-! ### ServedAccesses -/

theorem witness_ServedAccesses_write :
    ∃ (req : Requester) (o : Nat) (i : Nat) (b : Block) (s : State),
      s.Writer req ∧
        o < 50331648 ∧
          pageBlock (o / 65536) = some (b, i) ∧
            s.Powered (pageDomain b i) ∧ (descIn b i (o % 65536)).isSome = true ∧ (b ≠ Block.aq ∨ s.is5120 = false) :=
  ⟨(.core 0), 0x100000, 0, Block.pt, (testUp []), core_writer (by decide +kernel), by decide +kernel, by decide +kernel,
   by unfold State.Powered; decide +kernel, by decide +kernel⟩

theorem witness_ServedAccesses_read :
    ∃ (req : Requester) (o : Nat) (i : Nat) (b : Block) (d : RegDesc) (s : State),
      s.Reaches req ∧
        s.CalServed ∧
          o < 50331648 ∧
            pageBlock (o / 65536) = some (b, i) ∧
              s.Powered (pageDomain b i) ∧
                descIn b i (o % 65536) = some d ∧
                  (b ≠ Block.aq ∨ s.is5120 = false) ∧ cryptoFields o = [] ∧ pageRead b i req (o % 65536) s = none :=
  ⟨(.core 0), 0x8, 0, Block.pm, _, (testUp []), core_reaches, fun _ => rfl, by decide +kernel, by decide +kernel,
   by unfold State.Powered; decide +kernel, rfl, by decide +kernel⟩

theorem witness_ServedAccesses_memory :
    ∃ (req : Requester) (a : Nat) (d : Nat) (c : Option Nat) (s : State),
      s.ReachesMemory req ∧
        target a = Target.memory d c ∧
          s.Powered d ∧ (∀ (n : Nat), c = some n → s.fenced n = false) ∧ ∀ i < 4, laneReserved (a + i) = false :=
  ⟨(.core 0), 0x0300010000, 2, (some 0), (testUp []), core_memory, by decide +kernel, by unfold State.Powered; decide +kernel,
   by decide +kernel⟩

theorem witness_ServedAccesses_dram :
    ∃ (req : Requester) (a : Nat) (d : Nat) (c : Option Nat) (s : State),
      s.ReachesMemory req ∧
        target a = Target.memory d c ∧
          s.Powered d ∧ (∀ (n : Nat), c = some n → s.fenced n = false) ∧ ∀ i < 4, laneReserved (a + i) = false :=
  ⟨.pf0, 0x1FFFFFFFC, 14, none, { testUp [(BT_STATUS_STATE, 4)] with vis := { pfMse := true } }, ⟨⟨(by intro v h; cases h), (by decide +kernel), (by decide +kernel)⟩,
   by decide +kernel⟩, by decide +kernel, by unfold State.Powered; decide +kernel, by decide +kernel⟩

theorem witness_ServedAccesses_reserved :
    ∃ (req : Requester) (a : Nat) (d : Nat) (c : Option Nat) (s : State),
      s.ReachesMemory req ∧
        target a = Target.memory d c ∧
          s.Powered d ∧ (∀ (n : Nat), c = some n → s.fenced n = false) ∧ ∀ i < 4, laneReserved (a + i) = true :=
  ⟨(.core 0), 0x0301FF0240, 5, (some 31), (testUp []), core_memory, by decide +kernel, by unfold State.Powered; decide +kernel,
   by decide +kernel⟩

theorem witness_ServedAccesses_fenced :
    ∃ (req : Requester) (a : Nat) (d : Nat) (n : Nat) (s : State),
      s.ReachesMemory req ∧ target a = Target.memory d (some n) ∧ s.Powered d ∧ s.fenced n = true :=
  ⟨(.core 0), 0x0301FFFFFC, 5, 31, (testUp [(PM_FENCE_FENCE, 0x80000000)]), core_memory, by decide +kernel,
   by unfold State.Powered; decide +kernel, by decide +kernel⟩

/-! ### DarkPageAccessReadsZero -/

theorem witness_DarkPageAccessReadsZero :
    ∃ (a : Access) (o : Nat) (i : Nat) (b : Block) (s : State),
      s.Reaches a.req ∧
        a.addr = BitVec.ofNat 40 (addrRegs + o) ∧
          o < 50331648 ∧
            pageBlock (o / 65536) = some (b, i) ∧
              2 ≤ pageDomain b i ∧ s.dom (pageDomain b i) = 0 ∧ (b ≠ Block.aq ∨ s.is5120 = false) :=
  ⟨⟨.core 0, BitVec.ofNat 40 (addrRegs + 0xD00000), none, none⟩, 0xD00000, 0, Block.pr, (testOn []), core_reaches, by decide +kernel⟩

/-! ### DormantAndUnassignedAccesses -/

theorem witness_DormantAndUnassignedAccesses_held :
    ∃ (a : Access) (o : Nat) (i : Nat) (b : Block) (s : State),
      s.Reaches a.req ∧
        a.addr = BitVec.ofNat 40 (addrRegs + o) ∧
          o < 50331648 ∧
            pageBlock (o / 65536) = some (b, i) ∧
              2 ≤ pageDomain b i ∧ s.dom (pageDomain b i) = 2 ∧ (b ≠ Block.aq ∨ s.is5120 = false) :=
  ⟨⟨.core 0, BitVec.ofNat 40 (addrRegs + 0xD00000), none, none⟩, 0xD00000, 0, Block.pr, ((testUp []).setDom 10 2), core_reaches,
   by decide +kernel⟩

theorem witness_DormantAndUnassignedAccesses_woken :
    ∃ (pd : Fin 16) (w : Nat) (s : State),
      (↑pd, w) ∈ s.arch.wakes ∧ s.dom ↑pd = 2 :=
  ⟨10, 5, { (testUp []).setDom 10 2 with arch := { wakes := [(10, 5)] } }, by decide +kernel⟩

theorem witness_DormantAndUnassignedAccesses_hole :
    ∃ (req : Requester) (x : Nat) (s : State),
      s.Reaches req ∧
        x < 2 ^ 40 ∧ (target x = Target.unassigned ∨ ∃ o, target x = Target.register o ∧ pageBlock (o / 65536) = none) :=
  ⟨(.core 0), 0x0201800000, (testUp []), core_reaches, by decide +kernel, Or.inl (by decide +kernel)⟩

/-! ### TickStartRaisesTheDueTick -/

theorem witness_TickStartRaisesTheDueTick :
    ∃ (s : State),
      s.clk.running = true ∧ tickRep s.dueTick ≤ s.now :=
  ⟨{ testUp [(HC_CTRL_GOV, 1)] with clk := { running := true, tb := [(1, { val := 300000 * 2 ^ 40 })], nextTick := 1 } },
   by decide +kernel⟩

theorem witness_TickStartRaisesTheDueTick_alone :
    ∃ (s : State),
      s.clk.running = true ∧
        tickRep s.dueTick ≤ s.now ∧ s.runs 12 = false ∧ s.runs 6 = false ∧ s.runs 13 = false ∧ s.runs 10 = false :=
  ⟨{ (testOn [] : State) with clk := { running := true, tb := [(1, { val := 300000 * 2 ^ 40 })], nextTick := 1 } },
   by decide +kernel⟩

/-! ### AcquisitionPageOfA5120 -/

theorem witness_AcquisitionPageOfA5120 :
    ∃ (req : Requester) (s : State),
      s.Reaches req ∧ s.is5120 = true :=
  ⟨(.core 0), (testOn [(PM_ID_DEVICE, 0x5120)]), core_reaches, by decide +kernel⟩

/-! ### UnassignedOffsetReadsZero -/

theorem witness_UnassignedOffsetReadsZero :
    ∃ (req : Requester) (o : Nat) (i : Nat) (b : Block) (v : Word) (c : Instr) (s : State),
      s.Reaches req ∧
        o < 50331648 ∧
          pageBlock (o / 65536) = some (b, i) ∧
            s.Powered (pageDomain b i) ∧
              descIn b i (o % 65536) = none ∧
                (b ≠ Block.aq ∨ s.is5120 = false) ∧
                  (c = Instr.registerWrite req (BitVec.ofNat 40 (addrRegs + o)) v ∨
                    c = Instr.readClearAccess req (BitVec.ofNat 40 (addrRegs + o))) :=
  ⟨(.core 0), 0x2FF00, 0, Block.ow, 5, (.registerWrite (.core 0) (BitVec.ofNat 40 (addrRegs + 0x2FF00)) 5), (testUp []), core_reaches,
   by decide +kernel, by decide +kernel, by unfold State.Powered; decide +kernel, by decide +kernel⟩

/-! ### ClockSteeringWrites -/

theorem witness_ClockSteeringWrites :
    ∃ (req : Requester) (s : State),
      s.Writer req :=
  ⟨(.core 0), (testUp []), core_writer (by decide +kernel)⟩

theorem witness_ClockSteeringWrites_free :
    ∃ (req : Requester) (b : Fin 4) (s : State),
      s.Writer req ∧ (s.tb ↑b).commit = none :=
  ⟨(.core 0), 3, (testUp []), core_writer (by decide +kernel), by decide +kernel⟩

theorem witness_ClockSteeringWrites_pending :
    ∃ (req : Requester) (b : Fin 4) (s : State),
      s.Writer req ∧ (s.tb ↑b).commit ≠ none :=
  ⟨(.core 0), 3, { testUp [] with clk := { tb := [(3, { commit := some { rel := false, staged := 0, instant := 9 } })] } }, core_writer (by decide +kernel),
   by decide +kernel⟩

/-! ### ClockControlAndLatches -/

theorem witness_ClockControlAndLatches_gov :
    ∃ (req : Requester) (v : Word) (s : State),
      s.Writer req ∧ (s.on HC_STATUS_GOV_LOCK = false ∨ BitVec.toNat v % 4 = s.rd HC_CTRL_GOV) :=
  ⟨(.core 1), 0x00000002, (testUp []), core_writer (by decide +kernel), by decide +kernel⟩

theorem witness_ClockControlAndLatches_same :
    ∃ (req : Requester) (v : Word) (s : State),
      s.Writer req ∧ (s.on HC_STATUS_GOV_LOCK = false ∨ BitVec.toNat v % 4 = s.rd HC_CTRL_GOV) :=
  ⟨(.core 1), 0x00000111, (testUp [(HC_STATUS_GOV_LOCK, 1)]), core_writer (by decide +kernel), by decide +kernel⟩

theorem witness_ClockControlAndLatches_locked :
    ∃ (req : Requester) (v : Word) (s : State),
      s.Writer req ∧ s.on HC_STATUS_GOV_LOCK = true ∧ BitVec.toNat v % 4 ≠ s.rd HC_CTRL_GOV :=
  ⟨(.core 1), 0x00000112, (testUp [(HC_STATUS_GOV_LOCK, 1)]), core_writer (by decide +kernel), by decide +kernel⟩

theorem witness_ClockControlAndLatches_latch :
    ∃ (req : Requester) (s : State),
      s.Reaches req ∧ s.CalServed :=
  ⟨(.core 2), { testUp [] with clk := { tb := [(3, { val := 123456789012345678901234567890 })] } }, core_reaches, fun _ => rfl⟩

/-! ### ClockCommits -/

theorem witness_ClockCommits_accepted :
    ∃ (req : Requester) (b : Fin 4) (s : State),
      s.Writer req ∧
        s.rd (HC_TB_STG_NS.i ↑b) < 1000000000 ∧
          s.rd (HC_TB_STG_AT.i ↑b) < 1000000000 ∧ (s.tb ↑b).commit = none ∧ ¬(↑b = s.gov ∧ s.on HC_CTRL_STEP_LOCK = true) :=
  ⟨(.core 0), 3, (testUp [(HC_TB_STG_NS.i 3, 999999999), (HC_TB_STG_AT.i 3, 999999999)]), core_writer (by decide +kernel),
   by decide +kernel⟩

theorem witness_ClockCommits_invalid :
    ∃ (req : Requester) (b : Fin 4) (cause : Nat) (s : State),
      s.Writer req ∧
        (cause =
            if 1000000000 ≤ s.rd (HC_TB_STG_NS.i ↑b) ∨ 1000000000 ≤ s.rd (HC_TB_STG_AT.i ↑b) then 2
            else if (s.tb ↑b).commit.isSome = true then 3 else if ↑b = s.gov ∧ s.on HC_CTRL_STEP_LOCK = true then 1 else 0) ∧
          cause ≠ 0 :=
  ⟨(.core 0), 3, 2, (testUp [(HC_TB_STG_NS.i 3, 1000000000)]), core_writer (by decide +kernel), by decide +kernel⟩

theorem witness_ClockCommits_busy :
    ∃ (req : Requester) (b : Fin 4) (cause : Nat) (s : State),
      s.Writer req ∧
        (cause =
            if 1000000000 ≤ s.rd (HC_TB_STG_NS.i ↑b) ∨ 1000000000 ≤ s.rd (HC_TB_STG_AT.i ↑b) then 2
            else if (s.tb ↑b).commit.isSome = true then 3 else if ↑b = s.gov ∧ s.on HC_CTRL_STEP_LOCK = true then 1 else 0) ∧
          cause ≠ 0 :=
  ⟨(.core 0), 3, 3, { testUp [] with clk := { tb := [(3, { commit := some { rel := false, staged := 0, instant := 9 } })] } }, core_writer (by decide +kernel),
   by decide +kernel⟩

theorem witness_ClockCommits_locked :
    ∃ (req : Requester) (b : Fin 4) (cause : Nat) (s : State),
      s.Writer req ∧
        (cause =
            if 1000000000 ≤ s.rd (HC_TB_STG_NS.i ↑b) ∨ 1000000000 ≤ s.rd (HC_TB_STG_AT.i ↑b) then 2
            else if (s.tb ↑b).commit.isSome = true then 3 else if ↑b = s.gov ∧ s.on HC_CTRL_STEP_LOCK = true then 1 else 0) ∧
          cause ≠ 0 :=
  ⟨(.core 0), 1, 1, (testUp [(HC_CTRL_STEP_LOCK, 1)]), core_writer (by decide +kernel), by decide +kernel⟩

theorem witness_ClockCommits_cancel :
    ∃ (req : Requester) (s : State),
      s.Writer req :=
  ⟨(.core 0), { testUp [(HC_TB_PEND.i 0, 1)] with clk := { lapse := 5, tb := [(0, { commit := some { rel := false, staged := 0, instant := 9 } })] } }, core_writer (by decide +kernel)⟩

theorem witness_ClockCommits_apply :
    ∃ (b : Fin 4) (c : Commit) (s : State),
      s.clk.running = true ∧ (s.tb ↑b).commit = some c ∧ c.instant ≤ (s.tb ↑b).val :=
  ⟨3, { rel := false, staged := 100, instant := 9 }, { testUp [(HC_TB_PEND.i 3, 1)] with clk := { running := true, tb := [(3, { val := 12, commit := some { rel := false, staged := 100, instant := 9 } })] } },
   by decide +kernel⟩

/-! ### ClockEvents -/

theorem witness_ClockEvents_slew :
    ∃ (b : Fin 4) (s : State),
      (s.tb ↑b).slewEnded = true :=
  ⟨2, { testUp [] with clk := { tb := [(2, { slewEnded := true })] } }, by decide +kernel⟩

theorem witness_ClockEvents_holdover :
    ∃ (s : State),
      s.clk.running = true ∧
        s.rd HC_HOLD_WD_MS ≠ 0 ∧
          s.on HC_STATUS_HOLDOVER = false ∧ s.clk.wdFrom + s.rd HC_HOLD_WD_MS * (1000000 * 2 ^ 40) ≤ s.clk.lapse :=
  ⟨{ testUp [(HC_HOLD_WD_MS, 1), (HC_TB_AVG.i 0, 55)] with clk := { running := true, wdFrom := 3, lapse := 3 + 1000000 * 2 ^ 40 } },
   by decide +kernel⟩

theorem witness_ClockEvents_second :
    ∃ (sec : Nat) (ofs : Int) (l61 : Prop) (l59 : Prop) (s : State),
      s.clk.secChange = true ∧
        sec = (s.tb 0).val / uS ∧
          ofs = sext 16 (s.rd HC_UTC_UTC_OFS) ∧
            (l61 ↔ s.clk.leap61 = some (sec - 1) ∧ s.on HC_UTC_LEAP61 = true) ∧
              (l59 ↔ s.on HC_UTC_LEAP59 = true ∧ (↑sec - ofs) % 86400 = 86399) :=
  ⟨_,
   _, False, False, { testUp [] with clk := { running := true, secChange := true, secDone := some (500, 1000), tb := [(0, { val := 5 * uS })] } },
   by decide +kernel, rfl, rfl, by decide +kernel⟩

theorem witness_ClockEvents_leap :
    ∃ (sec : Nat) (ofs : Int) (l61 : Prop) (l59 : Prop) (s : State),
      s.clk.secChange = true ∧
        sec = (s.tb 0).val / uS ∧
          ofs = sext 16 (s.rd HC_UTC_UTC_OFS) ∧
            (l61 ↔ s.clk.leap61 = some (sec - 1) ∧ s.on HC_UTC_LEAP61 = true) ∧
              (l59 ↔ s.on HC_UTC_LEAP59 = true ∧ (↑sec - ofs) % 86400 = 86399) :=
  ⟨_,
   _, False, True, { testUp [(HC_UTC_LEAP59, 1), (HC_UTC_UTC_OFS, 0xFFFF)] with clk := { running := true, secChange := true, means := [(7, 3)], tb := [(0, { val := 86398 * uS })] } },
   by decide +kernel, rfl, rfl, by decide +kernel⟩

theorem witness_ClockEvents_ppsIn :
    ∃ (heldUs : Nat) (s : State),
      s.on HC_PPS_IN_EN = true ∧ s.rd HC_PPS_IN_MINW_US ≤ heldUs :=
  ⟨10, (testUp [(HC_PPS_IN_EN, 1), (HC_PPS_IN_MINW_US, 10), (HC_PPS_IN_TB, 2)]), by decide +kernel⟩

theorem witness_ClockEvents_ppsShort :
    ∃ (heldUs : Nat) (s : State),
      s.on HC_PPS_IN_EN = true ∧ heldUs < s.rd HC_PPS_IN_MINW_US :=
  ⟨9, (testUp [(HC_PPS_IN_EN, 1), (HC_PPS_IN_EDGE, 1), (HC_PPS_IN_MINW_US, 10)]), by decide +kernel⟩

theorem witness_ClockEvents_rise :
    ∃ (b : Nat) (n : Nat) (s : State),
      s.on HC_PPS_OUT_EN = true ∧
        b = s.rd HC_PPS_OUT_TB ∧
          (s.tb b).secReached = some n ∧
            (b, n) ∉ s.clk.ppsMarked ∧
              n * uS ≤ (s.tb b).val ∧
                (s.tb b).val < n * uS + 2 * 2 ^ 40 ∧
                  (s.on HC_PPS_OUT_GATE = false ∨ s.on HC_STATUS_HOLDOVER = false ∧ s.on HC_CTRL_TB0_LOCKED = true) :=
  ⟨0, 5, { testUp [(HC_PPS_OUT_EN, 1)] with clk := { running := true, tb := [(0, { val := 5 * uS + 2 ^ 41 - 1, secReached := some 5 })] } },
   by decide +kernel⟩

theorem witness_ClockEvents_gated :
    ∃ (s : State),
      s.on HC_PPS_OUT_GATE = true ∧ (s.on HC_STATUS_HOLDOVER = true ∨ s.on HC_CTRL_TB0_LOCKED = false) :=
  ⟨(testUp [(HC_PPS_OUT_EN, 1), (HC_PPS_OUT_GATE, 1)]), by decide +kernel⟩

theorem witness_ClockEvents_fall :
    ∃ (s : State),
      s.clk.ppsOut = true ∧ s.clk.ppsFall ≤ s.clk.lapse :=
  ⟨{ testUp [] with clk := { ppsOut := true, ppsFall := 4, lapse := 4 } }, by decide +kernel⟩

theorem witness_ClockEvents_irig :
    ∃ (f : IrigFrame) (s : State),
      s.on HC_IRIG_CTRL_EN = true ∧ irigGood f = true :=
  ⟨⟨7, 4, true, true, 9, 5, 9, 5, 3, 2, 5, 6, 3, 4, 2, 86399, 5⟩, (testUp [(HC_IRIG_CTRL_EN, 1)]), by decide +kernel⟩

theorem witness_ClockEvents_irigBad :
    ∃ (f : IrigFrame) (s : State),
      s.on HC_IRIG_CTRL_EN = true ∧ irigGood f = false :=
  ⟨⟨7, 4, false, true, 1, 5, 9, 5, 4, 2, 5, 6, 3, 4, 2, 86399, 5⟩, (testUp [(HC_IRIG_CTRL_EN, 1)]), by decide +kernel⟩

/-! ### PortRegisterCommands -/

theorem witness_PortRegisterCommands_disabled :
    ∃ (req : Requester) (p : Fin 19) (s : State) (v : Word),
      s.Writer req ∧ s.dom (portDomain ↑p) = 1 ∧ s.on (PT_CTRL_EN.p ↑p) = false ∧ bit (BitVec.toNat v) 31 = false :=
  ⟨(.core 0), 3, (testUp []), 0x70001403, core_writer (by decide +kernel), by decide +kernel⟩

theorem witness_PortRegisterCommands_enabled :
    ∃ (req : Requester) (p : Fin 19) (s : State) (v : Word),
      s.Writer req ∧ s.dom (portDomain ↑p) = 1 ∧ s.on (PT_CTRL_EN.p ↑p) = true ∧ bit (BitVec.toNat v) 31 = true :=
  ⟨(.core 0), 18, (testUp [(PT_CTRL_EN.p 18, 1)]), 0xF0001403, core_writer (by decide +kernel), by decide +kernel⟩

theorem witness_PortRegisterCommands_enable :
    ∃ (req : Requester) (p : Fin 19) (s : State),
      s.Writer req ∧ s.dom (portDomain ↑p) = 1 ∧ s.on (PT_CTRL_EN.p ↑p) = false ∧ s.link ↑p = 0 :=
  ⟨(.core 0), 18, (testUp []), core_writer (by decide +kernel), by decide +kernel⟩

theorem witness_PortRegisterCommands_disable :
    ∃ (req : Requester) (p : Fin 19) (s : State),
      s.Writer req ∧ s.dom (portDomain ↑p) = 1 ∧ s.on (PT_CTRL_EN.p ↑p) = true :=
  ⟨(.core 0), 0, (testUp [(PT_CTRL_EN.p 0, 1), (PT_STATUS_STATE.p 0, 2)]), core_writer (by decide +kernel), by decide +kernel⟩

theorem witness_PortRegisterCommands_dormant :
    ∃ (req : Requester) (p : Fin 19) (s : State),
      s.Writer req ∧ s.dom (portDomain ↑p) = 1 ∧ ↑p < 16 ∧ s.link ↑p = 2 :=
  ⟨(.core 0), 15, (testUp [(PT_STATUS_STATE.p 15, 2), (PT_STATUS_VERIFY.p 15, 2)]), core_writer (by decide +kernel),
   by decide +kernel⟩

theorem witness_PortRegisterCommands_notDormant :
    ∃ (req : Requester) (p : Fin 19) (s : State),
      s.Writer req ∧ s.dom (portDomain ↑p) = 1 ∧ (16 ≤ ↑p ∨ s.link ↑p ≠ 2) :=
  ⟨(.core 0), 16, (testUp [(PT_STATUS_STATE.p 16, 2)]), core_writer (by decide +kernel), by decide +kernel⟩

theorem witness_PortRegisterCommands_wake :
    ∃ (req : Requester) (p : Fin 19) (s : State),
      s.Writer req ∧ s.dom (portDomain ↑p) = 1 ∧ s.link ↑p = 3 :=
  ⟨(.core 0), 3, (testUp [(PT_STATUS_STATE.p 3, 3)]), core_writer (by decide +kernel), by decide +kernel⟩

theorem witness_PortRegisterCommands_noWake :
    ∃ (req : Requester) (p : Fin 19) (s : State),
      s.Writer req ∧ s.dom (portDomain ↑p) = 1 ∧ s.link ↑p ≠ 3 :=
  ⟨(.core 0), 3, (testUp [(PT_STATUS_STATE.p 3, 2)]), core_writer (by decide +kernel), by decide +kernel⟩

theorem witness_PortRegisterCommands_preemptOff :
    ∃ (req : Requester) (p : Fin 19) (s : State) (v : Word),
      s.Writer req ∧ s.dom (portDomain ↑p) = 1 ∧ s.on (PT_PREEMPT_EN.p ↑p) = true ∧ bit (BitVec.toNat v) 31 = false :=
  ⟨(.core 0), 3, (testUp [(PT_PREEMPT_EN.p 3, 1), (PT_STATUS_VERIFY.p 3, 3), (PT_STATUS_PREEMPT_ACTIVE.p 3, 1)]), 0, core_writer (by decide +kernel),
   by decide +kernel⟩

theorem witness_PortRegisterCommands_preemptOn :
    ∃ (req : Requester) (p : Fin 19) (s : State) (v : Word),
      s.Writer req ∧ s.dom (portDomain ↑p) = 1 ∧ ↑p ≠ 18 ∧ s.on (PT_PREEMPT_EN.p ↑p) = false ∧ bit (BitVec.toNat v) 31 = true :=
  ⟨(.core 0), 17, (testUp [(PT_STATUS_STATE.p 17, 2)]), 0x80A50010, core_writer (by decide +kernel), by decide +kernel⟩

theorem witness_PortRegisterCommands_latch :
    ∃ (req : Requester) (q : Fin 22) (s : State),
      s.Reaches req ∧ s.CalServed ∧ s.dom (pageDomain Block.pt ↑q) = 1 :=
  ⟨(.core 1), 21, (testUp [(PT_C_TX_OCT_HI.p 21, 5)]), core_reaches, fun _ => rfl, by decide +kernel⟩

theorem witness_PortRegisterCommands_ringOn :
    ∃ (req : Requester) (r : Ring) (v : Word) (s : State),
      ((∃ i, r = Ring.steward i) ∧ s.Writer req ∧ s.dom 7 = 1 ∨
          ∃ i, r = Ring.tenant i ∧ req = Requester.vf i ∧ s.vfMapped ↑i = true) ∧
        ringSizeOk (BitVec.toNat v % 8192) = true ∧ BitVec.toNat v % 8192 ≠ 0 ∧ s.word (ringReg r 2) = 0 :=
  ⟨(.core 0), (.steward 3), 0x1000, (testUp []), Or.inl (⟨⟨_, rfl⟩, ⟨core_writer (by decide +kernel), by decide +kernel⟩⟩),
   by decide +kernel⟩

theorem witness_PortRegisterCommands_tenantRing :
    ∃ (req : Requester) (r : Ring) (v : Word) (s : State),
      ((∃ i, r = Ring.steward i) ∧ s.Writer req ∧ s.dom 7 = 1 ∨
          ∃ i, r = Ring.tenant i ∧ req = Requester.vf i ∧ s.vfMapped ↑i = true) ∧
        ringSizeOk (BitVec.toNat v % 8192) = true ∧ BitVec.toNat v % 8192 ≠ 0 ∧ s.word (ringReg r 2) = 0 :=
  ⟨(.vf 5), (.tenant 5), 0x10, { testUp [] with vis := { numVfs := 6, vf := [(5, { mse := true })] } }, Or.inr (⟨_, rfl, rfl,
   rfl⟩), by decide +kernel⟩

theorem witness_PortRegisterCommands_ringBad :
    ∃ (req : Requester) (r : Ring) (v : Word) (s : State),
      ((∃ i, r = Ring.steward i) ∧ s.Writer req ∧ s.dom 7 = 1 ∨
          ∃ i, r = Ring.tenant i ∧ req = Requester.vf i ∧ s.vfMapped ↑i = true) ∧
        ringSizeOk (BitVec.toNat v % 8192) = false ∧ s.ports.rxPart = none :=
  ⟨(.core 0), (.steward 0), 0x1001, (testUp []), Or.inl (⟨⟨_, rfl⟩, ⟨core_writer (by decide +kernel), by decide +kernel⟩⟩),
   by decide +kernel⟩

theorem witness_PortRegisterCommands_base :
    ∃ (req : Requester) (i : Fin 4) (s : State),
      s.Writer req ∧ s.dom 7 = 1 ∧ s.ports.rxPart = none ∧ s.word (ringReg (Ring.steward i) 2) = 0 :=
  ⟨(.core 0), 2, (testUp []), core_writer (by decide +kernel), by decide +kernel⟩

theorem witness_PortRegisterCommands_baseHeld :
    ∃ (req : Requester) (i : Fin 4) (s : State),
      s.Writer req ∧ s.dom 7 = 1 ∧ s.ports.rxPart = none ∧ s.word (ringReg (Ring.steward i) 2) ≠ 0 :=
  ⟨(.core 0), 2, ((testUp []).put (ringReg (.steward 2) 2) 8), core_writer (by decide +kernel), by decide +kernel⟩

/-! ### PortLinkEvents -/

theorem witness_PortLinkEvents_negotiated :
    ∃ (p : Fin 19) (s : State),
      s.runs (portDomain ↑p) = true ∧ s.link ↑p = 1 ∧ s.negotiates ↑p = true :=
  ⟨18, (testUp [(PT_STATUS_STATE.p 18, 1), (PT_CTRL_MODE.p 18, 3)]), by decide +kernel⟩

theorem witness_PortLinkEvents_up :
    ∃ (p : Fin 19) (s : State) (u : Nat),
      s.runs (portDomain ↑p) = true ∧
        s.link ↑p = 1 ∧
          (s.port ↑p).slow = false ∧
            (s.port ↑p).upFrom = some u ∧ u + s.rd (PT_CTRL_UP_HOLD_MS.p ↑p) * (1000000 * 2 ^ 40) ≤ s.clk.lapse :=
  ⟨3, ({ testUp [(PT_STATUS_STATE.p 3, 1)] with clk := { lapse := 10 * (1000000 * 2 ^ 40) + 4 } }.setPort 3 { upFrom := some 4, graceTo := some 7 }), 4,
   by decide +kernel⟩

theorem witness_PortLinkEvents_held :
    ∃ (p : Fin 19) (s : State) (u : Nat),
      s.runs (portDomain ↑p) = true ∧
        s.link ↑p = 1 ∧
          (s.port ↑p).upFrom = some u ∧
            ((s.port ↑p).slow = true ∨ s.clk.lapse < u + s.rd (PT_CTRL_UP_HOLD_MS.p ↑p) * (1000000 * 2 ^ 40)) :=
  ⟨3, ({ testUp [(PT_STATUS_STATE.p 3, 1)] with clk := { lapse := 10 * (1000000 * 2 ^ 40) + 3 } }.setPort 3 { upFrom := some 4 }), 4,
   by decide +kernel⟩

theorem witness_PortLinkEvents_begins :
    ∃ (p : Fin 19) (s : State),
      s.runs (portDomain ↑p) = true ∧
        s.link ↑p = 1 ∧
          (s.port ↑p).upFrom = none ∧
            (s.negotiates ↑p = true → s.on (PT_STATUS_AN_DONE.p ↑p) = true) ∧
              ((s.port ↑p).slow = true ∨ s.rd (PT_CTRL_UP_HOLD_MS.p ↑p) ≠ 0) :=
  ⟨3, (testUp [(PT_STATUS_STATE.p 3, 1)]), by decide +kernel⟩

theorem witness_PortLinkEvents_waits :
    ∃ (p : Fin 19) (s : State),
      s.runs (portDomain ↑p) = true ∧
        s.link ↑p = 1 ∧ (s.port ↑p).upFrom = none ∧ s.negotiates ↑p = true ∧ s.on (PT_STATUS_AN_DONE.p ↑p) = false :=
  ⟨18, (testUp [(PT_STATUS_STATE.p 18, 1), (PT_CTRL_MODE.p 18, 3)]), by decide +kernel⟩

theorem witness_PortLinkEvents_loss :
    ∃ (p : Fin 19) (s : State) (neg : Bool),
      s.runs (portDomain ↑p) = true ∧
        2 ≤ s.link ↑p ∧ (neg = true → s.negotiates ↑p = true ∧ s.on (PT_STATUS_AN_DONE.p ↑p) = true) :=
  ⟨3, ((testUp [(PT_STATUS_STATE.p 3, 2), (PT_STATUS_PCS_LOCK.p 3, 1)]).setPort 3 { upFrom := some 4, txFrame := some 3 }), false,
   by decide +kernel⟩

theorem witness_PortLinkEvents_lossDown :
    ∃ (p : Fin 19) (s : State) (neg : Bool),
      s.runs (portDomain ↑p) = true ∧
        s.link ↑p = 1 ∧ (neg = true → s.negotiates ↑p = true ∧ s.on (PT_STATUS_AN_DONE.p ↑p) = true) :=
  ⟨18, (testUp [(PT_STATUS_STATE.p 18, 1), (PT_STATUS_PCS_LOCK.p 18, 1), (PT_STATUS_AN_DONE.p 18, 1), (PT_CTRL_MODE.p 18, 3)]), true,
   by decide +kernel⟩

theorem witness_PortLinkEvents_grace :
    ∃ (p : Fin 19) (s : State) (g : Nat),
      s.runs (portDomain ↑p) = true ∧ s.link ↑p = 1 ∧ (s.port ↑p).graceTo = some g ∧ g ≤ s.clk.lapse ∧ s.linkHeld ↑p = false :=
  ⟨3, ((testUp [(PT_STATUS_STATE.p 3, 1)]).setPort 3 { graceTo := some 0, grants := [(4, 4)] }), 0, by decide +kernel⟩

theorem witness_PortLinkEvents_wake :
    ∃ (p : Fin 19) (s : State),
      s.runs (portDomain ↑p) = true ∧ s.link ↑p = 3 ∧ (s.port ↑p).wakeBy.isSome = true :=
  ⟨3, ((testUp [(PT_STATUS_STATE.p 3, 3)]).setPort 3 { wakeBy := some 0 }), by decide +kernel⟩

/-! ### PauseAndVerify -/

theorem witness_PauseAndVerify_pause :
    ∃ (p : Fin 19) (s : State) (c : Nat) (q : Nat) (rest : List (Nat × Nat)),
      s.runs (portDomain ↑p) = true ∧
        (s.port ↑p).pauseReqs = (c, q) :: rest ∧
          c ≤ s.cyc ∧ q ≠ 0 ∧ s.on (PT_PAUSE_RX_EN.p ↑p) = true ∧ s.on (PT_STATUS_PAUSE_BROKEN.p ↑p) = false :=
  ⟨3, ((testUp [(PT_PAUSE_RX_EN.p 3, 1)]).setPort 3 { pauseReqs := [(0, 5), (9, 9)] }), 0, 5, _, by decide +kernel, rfl,
   by decide +kernel⟩

theorem witness_PauseAndVerify_resume :
    ∃ (p : Fin 19) (s : State) (c : Nat) (rest : List (Nat × Nat)),
      s.runs (portDomain ↑p) = true ∧
        (s.port ↑p).pauseReqs = (c, 0) :: rest ∧
          c ≤ s.cyc ∧ s.on (PT_PAUSE_RX_EN.p ↑p) = true ∧ s.on (PT_STATUS_PAUSE_BROKEN.p ↑p) = false :=
  ⟨3, ((testUp [(PT_PAUSE_RX_EN.p 3, 1), (PT_STATUS_PAUSED.p 3, 1)]).setPort 3 { pauseReqs := [(0, 0)], pauseTo := 9 }), 0, _,
   by decide +kernel, rfl, by decide +kernel⟩

theorem witness_PauseAndVerify_end :
    ∃ (p : Fin 19) (s : State),
      s.runs (portDomain ↑p) = true ∧ s.on (PT_STATUS_PAUSED.p ↑p) = true ∧ (s.port ↑p).pauseTo ≤ s.clk.lapse :=
  ⟨3, (testUp [(PT_STATUS_PAUSED.p 3, 1)]), by decide +kernel⟩

theorem witness_PauseAndVerify_watchdog :
    ∃ (p : Fin 19) (s : State),
      s.runs (portDomain ↑p) = true ∧
        s.on (PT_STATUS_PAUSED.p ↑p) = true ∧
          (s.port ↑p).pauseRenewed = true ∧
            (s.port ↑p).pauseFrom + s.rd (PT_PAUSE_WD_US.p ↑p) * (1000 * 2 ^ 40) ≤ (s.port ↑p).pauseTo ∧
              (s.port ↑p).pauseFrom + s.rd (PT_PAUSE_WD_US.p ↑p) * (1000 * 2 ^ 40) ≤ s.clk.lapse :=
  ⟨3, ({ testUp [(PT_STATUS_PAUSED.p 3, 1), (PT_C_PAUSE_WD.p 3, 5)] with clk := { lapse := 1000 * (1000 * 2 ^ 40) + 2 } }.setPort 3 { pauseRenewed := true, pauseFrom := 2, pauseTo := 1000 * (1000 * 2 ^ 40) + 2 }),
   by decide +kernel⟩

theorem witness_PauseAndVerify_first :
    ∃ (p : Fin 19) (s : State),
      s.runs (portDomain ↑p) = true ∧
        s.link ↑p = 2 ∧
          s.rd (PT_STATUS_VERIFY.p ↑p) = 2 ∧ (s.port ↑p).verifySent = 0 ∧ s.macFree ↑p = true ∧ s.pausedNow ↑p = false :=
  ⟨3, (testUp [(PT_STATUS_STATE.p 3, 2), (PT_STATUS_VERIFY.p 3, 2)]), by decide +kernel⟩

theorem witness_PauseAndVerify_again :
    ∃ (p : Fin 19) (s : State),
      s.runs (portDomain ↑p) = true ∧
        s.link ↑p = 2 ∧
          s.rd (PT_STATUS_VERIFY.p ↑p) = 2 ∧
            ((s.port ↑p).verifySent = 1 ∨ (s.port ↑p).verifySent = 2) ∧
              (s.port ↑p).verifyAt + s.rd (PT_PREEMPT_VERIFY_MS.p ↑p) * (1000000 * 2 ^ 40) ≤ s.clk.lapse :=
  ⟨3, ({ testUp [(PT_STATUS_STATE.p 3, 2), (PT_STATUS_VERIFY.p 3, 2)] with clk := { lapse := 10 * (1000000 * 2 ^ 40) } }.setPort 3 { verifySent := 2 }),
   by decide +kernel⟩

theorem witness_PauseAndVerify_respond :
    ∃ (p : Fin 19) (s : State),
      s.runs (portDomain ↑p) = true ∧ s.link ↑p = 2 ∧ s.rd (PT_STATUS_VERIFY.p ↑p) = 2 :=
  ⟨3, (testUp [(PT_STATUS_STATE.p 3, 2), (PT_STATUS_VERIFY.p 3, 2)]), by decide +kernel⟩

theorem witness_PauseAndVerify_succeeded :
    ∃ (p : Fin 19) (s : State) (c : Nat),
      s.runs (portDomain ↑p) = true ∧
        (s.port ↑p).respAt = some c ∧ c ≤ s.cyc ∧ s.link ↑p = 2 ∧ s.rd (PT_STATUS_VERIFY.p ↑p) = 2 :=
  ⟨3, ((testUp [(PT_STATUS_STATE.p 3, 2), (PT_STATUS_VERIFY.p 3, 2)]).setPort 3 { respAt := some 0 }), 0, by decide +kernel⟩

theorem witness_PauseAndVerify_answer :
    ∃ (p : Fin 19) (s : State),
      s.runs (portDomain ↑p) = true ∧ s.link ↑p = 2 ∧ s.on (PT_PREEMPT_EN.p ↑p) = true :=
  ⟨3, (testUp [(PT_STATUS_STATE.p 3, 2), (PT_PREEMPT_EN.p 3, 1)]), by decide +kernel⟩

theorem witness_PauseAndVerify_fail :
    ∃ (p : Fin 19) (s : State),
      s.runs (portDomain ↑p) = true ∧
        s.rd (PT_STATUS_VERIFY.p ↑p) = 2 ∧
          (s.port ↑p).verifySent = 3 ∧
            (s.port ↑p).verifyAt + s.rd (PT_PREEMPT_VERIFY_MS.p ↑p) * (1000000 * 2 ^ 40) ≤ s.clk.lapse :=
  ⟨3, ({ testUp [(PT_STATUS_VERIFY.p 3, 2)] with clk := { lapse := 10 * (1000000 * 2 ^ 40) } }.setPort 3 { verifySent := 3 }),
   by decide +kernel⟩

/-! ### FramesAndRings -/

theorem witness_FramesAndRings_good :
    ∃ (p : Fin 19) (rx : RxFrame) (l : List Byte) (s : State),
      s.runs (portDomain ↑p) = true ∧
        (s.link ↑p = 2 ∨ s.link ↑p = 3) ∧
          assemble rx = some l ∧ s.screen (↑p) l = 0 ∧ ∀ k < 16, s.wakeMatch (↑p) k (List.take (l.length - 4) l) = false :=
  ⟨3, (testRx (testOctets 0x0800)), _, (testUp [(PT_STATUS_STATE.p 3, 2)]), by decide +kernel, by decide +kernel, rfl,
   by decide +kernel⟩

theorem witness_FramesAndRings_runt :
    ∃ (p : Fin 19) (rx : RxFrame) (l : List Byte) (s : State),
      s.runs (portDomain ↑p) = true ∧ (s.link ↑p = 2 ∨ s.link ↑p = 3) ∧ assemble rx = some l ∧ s.screen (↑p) l = 3 :=
  ⟨3, ⟨0, ⟨.whole, testOctets 0x0800, true, 0⟩, []⟩, _, (testUp [(PT_STATUS_STATE.p 3, 2)]), by decide +kernel, by decide +kernel,
   rfl, by decide +kernel⟩

theorem witness_FramesAndRings_oversize :
    ∃ (p : Fin 19) (rx : RxFrame) (l : List Byte) (s : State),
      s.runs (portDomain ↑p) = true ∧
        (s.link ↑p = 2 ∨ s.link ↑p = 3) ∧
          assemble rx = some l ∧ s.screen (↑p) l = 1 ∧ s.asDormant ↑p ↑rx.sub = false ∧ beAt l 12 2 ≠ 34824 :=
  ⟨3, ⟨0, ⟨.whole, testOctets 0x0800 ++ List.replicate 1463 0, true, 0⟩, []⟩,
   _, (testUp [(PT_STATUS_STATE.p 3, 2), (PT_CTRL_MAXLEN.p 3, 0)]), by decide +kernel, by decide +kernel, rfl, by decide +kernel⟩

theorem witness_FramesAndRings_badFcs :
    ∃ (p : Fin 19) (rx : RxFrame) (l : List Byte) (s : State),
      s.runs (portDomain ↑p) = true ∧
        (s.link ↑p = 2 ∨ s.link ↑p = 3) ∧
          assemble rx = some l ∧ s.screen (↑p) l = 2 ∧ s.asDormant ↑p ↑rx.sub = false ∧ beAt l 12 2 ≠ 34824 :=
  ⟨3, ⟨0, ⟨.whole, testOctets 0x0800 ++ [1, 2, 3, 4], true, 0⟩, []⟩, _, (testUp [(PT_STATUS_STATE.p 3, 2)]), by decide +kernel,
   by decide +kernel, rfl, by decide +kernel⟩

theorem witness_FramesAndRings_reassembly :
    ∃ (p : Fin 19) (rx : RxFrame) (s : State),
      s.runs (portDomain ↑p) = true ∧ (s.link ↑p = 2 ∨ s.link ↑p = 3) ∧ assemble rx = none :=
  ⟨3, ⟨0, ⟨.cont 0 0, testOctets 0x0800, true, 0⟩, []⟩, (testUp [(PT_STATUS_STATE.p 3, 2)]), by decide +kernel⟩

theorem witness_FramesAndRings_deliver :
    ∃ (i : Nat) (c : Nat) (f : Frame) (s : State),
      s.runs 7 = true ∧
        s.ports.rxPart = none ∧
          c < 8 ∧
            s.queue pI2 c = [i] ∧
              (∀ c' < 8, c' ≠ c → s.queue pI2 c' = []) ∧
                s.onWire pI2 i = false ∧
                  s.frame i = some f ∧
                    f.complete = true ∧
                      (if f.ingress = 18 then f.e + 3 else f.e) < s.cyc ∧ s.stale f = false ∧ s.expired f c s.nowStamp = false :=
  ⟨7, 2, { testFrame 0x0800 with complete := true, copies := [(21, 2)] }, testDeliver, by decide +kernel⟩

theorem witness_FramesAndRings_oneBuffer :
    ∃ (i : Nat) (c : Nat) (f : Frame) (s : State) (n : Fin 4) (d : Nat) (b : Nat) (l : List Byte),
      s.runs 7 = true ∧
        s.ports.rxPart = none ∧
          c < 8 ∧
            s.queue pI2 c = [i] ∧
              (∀ c' < 8, c' ≠ c → s.queue pI2 c' = []) ∧
                s.onWire pI2 i = false ∧
                  s.frame i = some f ∧
                    f.complete = true ∧
                      (if f.ingress = 18 then f.e + 3 else f.e) < s.cyc ∧
                        s.stale f = false ∧
                          s.expired f c s.nowStamp = false ∧
                            f.ring = ↑n ∧
                              l = s.unwrap f pI2 ∧
                                0 < l.length ∧
                                  l.length + 4 ≤ 9216 ∧
                                    d =
                                        s.rxBase (Ring.steward n) +
                                          s.rd (rxNext (Ring.steward n)) % max 1 (s.rd (rxSize (Ring.steward n))) * 32 ∧
                                      s.rd (rxSize (Ring.steward n)) ≠ 0 ∧
                                        s.owned d = true ∧
                                          l.length ≤ s.bufBytes d ∧ b = s.loadN d 5 ∧ (b + l.length ≤ d ∨ d + 32 ≤ b) :=
  ⟨7, 2, { testFrame 0x0800 with complete := true, copies := [(21, 2)] }, testDeliver, 0, 0, 4096, (testOctets 0x0800),
   by decide +kernel⟩

theorem witness_FramesAndRings_fetch :
    ∃ (r : Ring) (ds : List Nat) (cls : Nat) (dest : Nat) (l : List Byte) (s : State),
      s.runs 7 = true ∧
        s.pubFirst = false ∧
          s.txChain r (s.rd (txSize r)) (s.rd (txNext r)) = some ds ∧
            cls = bits (s.loadN (ds.headD 0 + 10) 1) 7 5 ∧
              dest = bits (s.loadN (ds.headD 0 + 10) 1) 4 0 ∧
                l = s.txOctets ds ∧
                  (∀ d ∈ ds, s.badSpan (s.loadN d 5) (s.txLen d) = false) ∧
                    (∀ d ∈ ds, s.bufferOk r (s.loadN d 5) (s.txLen d) false = true) ∧
                      l.length + 4 ≤ if dest < 19 then s.lmax dest else 9216 :=
  ⟨(.steward 0), [0], 0, 0x1F, _, (testTx [((PT_RING_TX_SIZE.p 21).i 0, 16)] 0x1F 64), by decide +kernel, by decide +kernel,
   by decide +kernel, by decide +kernel, by decide +kernel, rfl, by decide +kernel⟩

theorem witness_FramesAndRings_direct :
    ∃ (r : Ring) (ds : List Nat) (cls : Nat) (dest : Nat) (l : List Byte) (s : State),
      s.runs 7 = true ∧
        s.pubFirst = false ∧
          s.txChain r (s.rd (txSize r)) (s.rd (txNext r)) = some ds ∧
            cls = bits (s.loadN (ds.headD 0 + 10) 1) 7 5 ∧
              dest = bits (s.loadN (ds.headD 0 + 10) 1) 4 0 ∧
                l = s.txOctets ds ∧
                  (∀ d ∈ ds, s.badSpan (s.loadN d 5) (s.txLen d) = false) ∧
                    (∀ d ∈ ds, s.bufferOk r (s.loadN d 5) (s.txLen d) false = true) ∧
                      l.length + 4 ≤ if dest < 19 then s.lmax dest else 9216 :=
  ⟨(.steward 0), [0], 7, 3, _, (testTx [((PT_RING_TX_SIZE.p 21).i 0, 16)] 0x1E3 64), by decide +kernel, by decide +kernel,
   by decide +kernel, by decide +kernel, by decide +kernel, rfl, by decide +kernel⟩

theorem witness_FramesAndRings_tenant :
    ∃ (r : Ring) (ds : List Nat) (cls : Nat) (dest : Nat) (l : List Byte) (s : State),
      s.runs 7 = true ∧
        s.pubFirst = false ∧
          s.txChain r (s.rd (txSize r)) (s.rd (txNext r)) = some ds ∧
            cls = bits (s.loadN (ds.headD 0 + 10) 1) 7 5 ∧
              dest = bits (s.loadN (ds.headD 0 + 10) 1) 4 0 ∧
                l = s.txOctets ds ∧
                  (∀ d ∈ ds, s.badSpan (s.loadN d 5) (s.txLen d) = false) ∧
                    (∀ d ∈ ds, s.bufferOk r (s.loadN d 5) (s.txLen d) false = true) ∧
                      l.length + 4 ≤ if dest < 19 then s.lmax dest else 9216 :=
  ⟨(.tenant 5), [0], 0, 0x1F,
   _, (testTx [(VI_RING_TX_SIZE.p 5, 16), ((VI_W_EN.p 5).i 0, 1), ((VI_W_WR.p 5).i 0, 1), ((VI_W_PAGES.p 5).i 0, 2)] 0x1F 64),
   by decide +kernel, by decide +kernel, by decide +kernel, by decide +kernel, by decide +kernel, rfl, by decide +kernel⟩

theorem witness_FramesAndRings_error :
    ∃ (r : Ring) (ds : List Nat) (cls : Nat) (dest : Nat) (l : List Byte) (s : State) (res : Nat),
      s.runs 7 = true ∧
        s.pubFirst = false ∧
          s.txChain r (s.rd (txSize r)) (s.rd (txNext r)) = some ds ∧
            cls = bits (s.loadN (ds.headD 0 + 10) 1) 7 5 ∧
              dest = bits (s.loadN (ds.headD 0 + 10) 1) 4 0 ∧
                l = s.txOctets ds ∧
                  (∀ d ∈ ds, s.badSpan (s.loadN d 5) (s.txLen d) = false) ∧
                    res =
                        b2n (ds.any fun d => !s.bufferOk r (s.loadN d 5) (s.txLen d) false) * 2 +
                            b2n
                              (match r with
                              | Ring.tenant _ => dest != 31
                              | Ring.steward _ => decide (19 ≤ dest) && dest != 31) +
                          b2n (decide ((if dest < 19 then s.lmax dest else 9216) < l.length + 4)) * 4 ∧
                      res ≠ 0 :=
  ⟨(.steward 0), [0], 0, 0x1E, _, (testTx [((PT_RING_TX_SIZE.p 21).i 0, 16)] 0x1E 64), 1, by decide +kernel, by decide +kernel,
   by decide +kernel, by decide +kernel, by decide +kernel, rfl, by decide +kernel⟩

theorem witness_FramesAndRings_gated :
    ∃ (v : Fin 512) (w : WaitFrame) (s : State),
      s.runs 7 = true ∧ aget s.ports.waiting ↑v = some w ∧ s.pubFirst = false ∧ s.gate = false :=
  ⟨5, ⟨testOctets 0x0800, 0, [0], 0, false, false, 0⟩, { testUp [] with ports := { waiting := [(5, ⟨testOctets 0x0800, 0, [0], 0, false, false, 0⟩)] } },
   by decide +kernel⟩

theorem witness_FramesAndRings_enters :
    ∃ (v : Fin 512) (w : WaitFrame) (s : State),
      s.runs 7 = true ∧
        aget s.ports.waiting ↑v = some w ∧
          s.pubFirst = false ∧
            s.gate = true ∧
              0 ≤ s.tokens ↑v ∧ ¬(w.tbWaited = true ∧ w.tick = s.clk.raised) ∧ s.inShare (↑v) (w.octets.length + 4) = true :=
  ⟨5, ⟨testOctets 0x0800, 0, [0], 0, false, false, 0⟩, { testUp [(PB_STATUS_GATE_OPEN, 1), (VI_LSHARE_LSHARE.p 5, 98304), (HL_STATUS_FREE, 1000)] with ports := { waiting := [(5, ⟨testOctets 0x0800, 0, [0], 0, false, false, 0⟩)] } },
   by decide +kernel⟩

/-! ### SwitchCommands -/

theorem witness_SwitchCommands_vlanDrop :
    ∃ (fid : Nat) (n : Nat) (f : Frame) (s : State),
      s.runs 7 = true ∧
        s.frame fid = some f ∧
          f.looked = false ∧
            f.l ≤ s.cyc ∧
              n = f.ingress ∧
                ¬((n = 16 ∨ n = 17) ∧ (header f.octets).etype = 34997) ∧
                  s.redMode n = 0 ∧ s.vlanDrop n (header f.octets) = true :=
  ⟨7, _, { testFrame 0x0800 with ingress := 3 }, (testHall [] { testFrame 0x0800 with ingress := 3 }), by decide +kernel,
   by decide +kernel, by decide +kernel, by decide +kernel, rfl, by decide +kernel⟩

theorem witness_SwitchCommands_copies :
    ∃ (fid : Nat) (n : Nat) (f : Frame) (s : State) (ps : List Nat) (g : Frame),
      s.runs 7 = true ∧
        s.frame fid = some f ∧
          f.looked = false ∧
            f.l ≤ s.cyc ∧
              n = f.ingress ∧
                ¬((n = 16 ∨ n = 17) ∧ (header f.octets).etype = 34997) ∧
                  s.redMode n = 0 ∧
                    s.vlanDrop n (header f.octets) = false ∧
                      s.lookup f.octets (s.vlanOf n (header f.octets)) = none ∧
                        s.idFar f.octets (s.vlanOf n (header f.octets)) = false ∧
                          s.srcRefused n (s.copySet n (header f.octets) none) = false ∧
                            ps =
                                s.permitted n false (stopPdelay n f.octets (s.widen n (s.copySet n (header f.octets) none))) ∧
                              ps ≠ [] ∧
                                g =
                                  { octets := f.octets, len := f.len, stamp := f.stamp, base := f.base, stamp0 := f.stamp0,
                                    ingress := f.ingress, bad := f.bad, got := f.got, fragmented := f.fragmented, c0 := f.c0,
                                    l := f.l, e := f.e, looked := true, complete := f.complete, cls := f.cls,
                                    vlan := s.vlanOf n (header f.octets), vi := f.vi, gen := f.gen, cells := f.cells,
                                    copies := f.copies, cut := f.cut, pattern := f.pattern, direct := f.direct,
                                    tsDesc := f.tsDesc, accept := f.accept, cause := f.cause,
                                    unknown := isSvGoose (header f.octets).etype, redSeq := f.redSeq } :=
  ⟨7,
   _, { testFrame 0x0800 with ingress := 3 }, (testHall [(HL_CTRL_EN, 1), (HL_V_MEMBER.i 1, 0x1F), (HL_V_FLOOD.i 1, 1)] { testFrame 0x0800 with ingress := 3 }),
   _, _, by decide +kernel, by decide +kernel, by decide +kernel, by decide +kernel, rfl, by decide +kernel, by decide +kernel,
   by decide +kernel, by decide +kernel, by decide +kernel, by decide +kernel, rfl, by decide +kernel, rfl⟩

theorem witness_SwitchCommands_bad :
    ∃ (fid : Nat) (n : Nat) (f : Frame) (s : State) (t : State) (g : Frame) (u : State),
      s.runs 7 = true ∧
        s.frame fid = some f ∧
          f.looked = true ∧
            f.complete = false ∧
              f.e ≤ s.cyc ∧
                n = min f.cells (cellsOf f.len) ∧
                  t = List.foldl (fun t p => t.qSub p.1 p.2 (f.cells - n)) s f.copies ∧
                    g =
                        { octets := f.octets, len := f.len, stamp := f.stamp, base := f.base, stamp0 := f.stamp0,
                          ingress := f.ingress, bad := f.bad, got := f.got, fragmented := f.fragmented, c0 := f.c0, l := f.l,
                          e := f.e, looked := f.looked, complete := true, entry := f.entry, entryVer := f.entryVer,
                          rule := f.rule, cls := f.cls, vlan := f.vlan, vi := f.vi, gen := f.gen, cells := n,
                          copies := f.copies, cut := f.cut, prp := f.prp, ring := f.ring, pattern := f.pattern,
                          direct := f.direct, tsDesc := f.tsDesc, accept := f.accept, cause := f.cause, unknown := f.unknown,
                          redSeq := f.redSeq } ∧
                      u = (t.wr HL_STATUS_FREE (t.freeCells + (f.cells - n))).setFrame fid g ∧ f.bad ≠ 0 :=
  ⟨7,
   _, { testFrame 0x0800 with looked := true, bad := 2, cells := 4, copies := [(3, 0)] }, (testHall [] { testFrame 0x0800 with looked := true, bad := 2, cells := 4, copies := [(3, 0)] }),
   _, _, _, by decide +kernel, by decide +kernel, by decide +kernel, by decide +kernel, by decide +kernel, rfl, rfl, rfl, rfl,
   by decide +kernel⟩

theorem witness_SwitchCommands_good :
    ∃ (fid : Nat) (n : Nat) (f : Frame) (s : State) (t : State) (g : Frame) (u : State) (w : State),
      s.runs 7 = true ∧
        s.frame fid = some f ∧
          f.looked = true ∧
            f.complete = false ∧
              f.e ≤ s.cyc ∧
                n = min f.cells (cellsOf f.len) ∧
                  t = List.foldl (fun t p => t.qSub p.1 p.2 (f.cells - n)) s f.copies ∧
                    g =
                        { octets := f.octets, len := f.len, stamp := f.stamp, base := f.base, stamp0 := f.stamp0,
                          ingress := f.ingress, bad := f.bad, got := f.got, fragmented := f.fragmented, c0 := f.c0, l := f.l,
                          e := f.e, looked := f.looked, complete := true, entry := f.entry, entryVer := f.entryVer,
                          rule := f.rule, cls := f.cls, vlan := f.vlan, vi := f.vi, gen := f.gen, cells := n,
                          copies := f.copies, cut := f.cut, prp := f.prp, ring := f.ring, pattern := f.pattern,
                          direct := f.direct, tsDesc := f.tsDesc, accept := f.accept, cause := f.cause, unknown := f.unknown,
                          redSeq := f.redSeq } ∧
                      u = (t.wr HL_STATUS_FREE (t.freeCells + (f.cells - n))).setFrame fid g ∧
                        (w = if f.unknown = true then u.observe f.octets f.vlan f.ingress f.stamp f.base else u) ∧
                          f.bad = 0 ∧ ∀ (c : Nat), (pI0, c) ∉ f.copies :=
  ⟨7,
   _, { testFrame 0x0800 with looked := true, cells := 4, copies := [(3, 0)] }, (testHall [] { testFrame 0x0800 with looked := true, cells := 4, copies := [(3, 0)] }),
   _, _, _, _, by decide +kernel, by decide +kernel, by decide +kernel, by decide +kernel, by decide +kernel, rfl, rfl, rfl, rfl,
   rfl, by decide +kernel, by intro c h; rcases List.mem_singleton.mp h with h; cases h⟩

theorem witness_SwitchCommands_accepted :
    ∃ (fid : Nat) (n : Nat) (f : Frame) (s : State) (t : State) (g : Frame) (u : State) (w : State),
      s.runs 7 = true ∧
        s.frame fid = some f ∧
          f.looked = true ∧
            f.complete = false ∧
              f.e ≤ s.cyc ∧
                n = min f.cells (cellsOf f.len) ∧
                  t = List.foldl (fun t p => t.qSub p.1 p.2 (f.cells - n)) s f.copies ∧
                    g =
                        { octets := f.octets, len := f.len, stamp := f.stamp, base := f.base, stamp0 := f.stamp0,
                          ingress := f.ingress, bad := f.bad, got := f.got, fragmented := f.fragmented, c0 := f.c0, l := f.l,
                          e := f.e, looked := f.looked, complete := true, entry := f.entry, entryVer := f.entryVer,
                          rule := f.rule, cls := f.cls, vlan := f.vlan, vi := f.vi, gen := f.gen, cells := n,
                          copies := f.copies, cut := f.cut, prp := f.prp, ring := f.ring, pattern := f.pattern,
                          direct := f.direct, tsDesc := f.tsDesc, accept := f.accept, cause := f.cause, unknown := f.unknown,
                          redSeq := f.redSeq } ∧
                      u = (t.wr HL_STATUS_FREE (t.freeCells + (f.cells - n))).setFrame fid g ∧
                        (w = if f.unknown = true then u.observe f.octets f.vlan f.ingress f.stamp f.base else u) ∧
                          f.bad = 0 ∧ (∃ c, (pI0, c) ∈ f.copies) ∧ w.expired f f.cls (w.nextVal w.gov / uSt) = false :=
  ⟨7,
   _, { testFrame 0x0800 with looked := true, cells := 4, copies := [(19, 0)] }, (testHall [] { testFrame 0x0800 with looked := true, cells := 4, copies := [(19, 0)] }),
   _, _, _, _, by decide +kernel, by decide +kernel, by decide +kernel, by decide +kernel, by decide +kernel, rfl, rfl, rfl, rfl,
   rfl, by decide +kernel, ⟨0, by decide +kernel⟩, by decide +kernel⟩

theorem witness_SwitchCommands_aged :
    ∃ (fid : Nat) (n : Nat) (f : Frame) (s : State) (t : State) (g : Frame) (u : State) (w : State),
      s.runs 7 = true ∧
        s.frame fid = some f ∧
          f.looked = true ∧
            f.complete = false ∧
              f.e ≤ s.cyc ∧
                n = min f.cells (cellsOf f.len) ∧
                  t = List.foldl (fun t p => t.qSub p.1 p.2 (f.cells - n)) s f.copies ∧
                    g =
                        { octets := f.octets, len := f.len, stamp := f.stamp, base := f.base, stamp0 := f.stamp0,
                          ingress := f.ingress, bad := f.bad, got := f.got, fragmented := f.fragmented, c0 := f.c0, l := f.l,
                          e := f.e, looked := f.looked, complete := true, entry := f.entry, entryVer := f.entryVer,
                          rule := f.rule, cls := f.cls, vlan := f.vlan, vi := f.vi, gen := f.gen, cells := n,
                          copies := f.copies, cut := f.cut, prp := f.prp, ring := f.ring, pattern := f.pattern,
                          direct := f.direct, tsDesc := f.tsDesc, accept := f.accept, cause := f.cause, unknown := f.unknown,
                          redSeq := f.redSeq } ∧
                      u = (t.wr HL_STATUS_FREE (t.freeCells + (f.cells - n))).setFrame fid g ∧
                        (w = if f.unknown = true then u.observe f.octets f.vlan f.ingress f.stamp f.base else u) ∧
                          f.bad = 0 ∧ (∃ c, (pI0, c) ∈ f.copies) ∧ w.expired f f.cls (w.nextVal w.gov / uSt) = true :=
  ⟨7,
   _, { testFrame 0x0800 with looked := true, cells := 4, copies := [(19, 0)] }, { testHall [(HL_LIFE_LIFE_US.i 0, 1)] { testFrame 0x0800 with looked := true, cells := 4, copies := [(19, 0)] } with clk := { running := true, tb := [(1, { val := uS })] } },
   _, _, _, _, by decide +kernel, by decide +kernel, by decide +kernel, by decide +kernel, by decide +kernel, rfl, rfl, rfl, rfl,
   rfl, by decide +kernel, ⟨0, by decide +kernel⟩, by decide +kernel⟩

theorem witness_SwitchCommands_serve :
    ∃ (p : Fin 19) (s : State),
      s.runs (portDomain ↑p) = true ∧
        (s.finishTx ↑p).link ↑p = 2 ∧ (s.finishTx ↑p).pausedNow ↑p = false ∧ (s.finishTx ↑p).macFree ↑p = true :=
  ⟨3, (testUp [(PT_STATUS_STATE.p 3, 2)]), by decide +kernel⟩

theorem witness_SwitchCommands_release :
    ∃ (p : Fin 19) (i : Nat) (c : Nat) (f : Frame) (l : List Byte) (s : State),
      (s.runs (portDomain ↑p) = true ∧
        s.link ↑p = 2 ∧
          s.pausedNow ↑p = false ∧
            s.macFree ↑p = true ∧
              (s.port ↑p).txFrame = none ∧
                (s.port ↑p).expFrame = none ∧
                  (s.port ↑p).grants = [] ∧
                    s.hall.admits = [] ∧
                      c < 8 ∧
                        s.queue (↑p) c = [i] ∧
                          (∀ c' < 8, c' ≠ c → s.queue (↑p) c' = []) ∧
                            s.frame i = some f ∧
                              f.complete = true ∧
                                f.bad = 0 ∧
                                  f.ingress ≠ pTwin ∧
                                    f.tsDesc = none ∧
                                      readyFrom f ≤ s.cyc ∧
                                        s.stale f = false ∧
                                          s.expired f c s.nowStamp = false ∧
                                            s.redMode ↑p = 0) ∧
                                              l = s.copyOctets f (↑p) 0 ∧ ptpType l = none ∧ l.length + 4 ≤ s.lmax ↑p :=
  ⟨3, 7, 2, { testFrame 0x0800 with complete := true, looked := true, copies := [(3, 2)] },
   _, { testHall [(PT_STATUS_STATE.p 3, 2)] { testFrame 0x0800 with complete := true, looked := true, copies := [(3, 2)] } with hall := { frames := [(7, { testFrame 0x0800 with complete := true, looked := true, copies := [(3, 2)] })], nextId := 8, queues := [(26, [7])] } },
   by decide +kernel, rfl, by decide +kernel⟩

theorem witness_SwitchCommands_scrub :
    ∃ (s : State),
      s.runs 7 = true ∧ s.hall.lastScrub + s.rd HL_CTRL_SCRUB_US * (1000 * 2 ^ 40) ≤ s.clk.lapse :=
  ⟨{ testUp [(HL_CTRL_SCRUB_US, 1)] with clk := { lapse := 1000 * 2 ^ 40 } }, by decide +kernel⟩

theorem witness_SwitchCommands_red :
    ∃ (req : Requester) (k : Fin 8) (s : State),
      s.Writer req ∧ s.dom 7 = 1 ∧ s.on (PT_CTRL_EN.p (2 * ↑k)) = false ∧ s.on (PT_CTRL_EN.p (2 * ↑k + 1)) = false :=
  ⟨(.core 0), 7, (testUp []), core_writer (by decide +kernel), by decide +kernel⟩

theorem witness_SwitchCommands_redHeld :
    ∃ (req : Requester) (k : Fin 8) (s : State),
      s.Writer req ∧ s.dom 7 = 1 ∧ (s.on (PT_CTRL_EN.p (2 * ↑k)) = true ∨ s.on (PT_CTRL_EN.p (2 * ↑k + 1)) = true) :=
  ⟨(.core 0), 7, (testUp [(PT_CTRL_EN.p 15, 1)]), core_writer (by decide +kernel), by decide +kernel⟩

/-! ### SubscriptionRegisterCommands -/

theorem witness_SubscriptionRegisterCommands :
    ∃ (req : Requester) (s : State),
      s.Writer req ∧ s.dom 6 = 1 :=
  ⟨(.core 0), (testUp [(SB_TBL_IDX_IDX, 16383), (SB_VEST_IDX_IDX, 255)]), core_writer (by decide +kernel), by decide +kernel⟩

theorem witness_SubscriptionRegisterCommands_write :
    ∃ (req : Requester) (s : State) (b : List Byte),
      s.Writer req ∧ s.dom 6 = 1 ∧ b = entryStored (s.dataBytes 4194368 16) ∧ eRate b < 5 :=
  ⟨(.core 0), (testUp []), _, core_writer (by decide +kernel), by decide +kernel, rfl, by decide +kernel⟩

theorem witness_SubscriptionRegisterCommands_latch :
    ∃ (req : Requester) (s : State) (v : Word) (e : Nat) (a : Nat),
      s.Writer req ∧ s.dom 6 = 1 ∧ e = BitVec.toNat v % 16384 ∧ a = 50331648 + e * 32 :=
  ⟨(.core 0), (testUp []), 5, _, _, core_writer (by decide +kernel), by decide +kernel, rfl, rfl⟩

theorem witness_SubscriptionRegisterCommands_pop :
    ∃ (req : Requester) (s : State),
      s.Writer req ∧ s.dom 6 = 1 ∧ s.CalServed ∧ s.rd0 SB_STATUS_DISC_LEVEL ≠ 0 ∧ s.sub.popped ≠ some s.cyc :=
  ⟨(.core 0), { testUp [(SB_STATUS_DISC_LEVEL, 1)] with sub := { disc := [⟨1, 2, 3, 4⟩] } }, core_writer (by decide +kernel),
   by decide +kernel, fun _ => rfl, by decide +kernel⟩

theorem witness_SubscriptionRegisterCommands_popped :
    ∃ (req : Requester) (s : State),
      s.Writer req ∧ s.dom 6 = 1 ∧ s.CalServed ∧ (s.rd0 SB_STATUS_DISC_LEVEL = 0 ∨ s.sub.popped = some s.cyc) :=
  ⟨(.core 0), testUp [], core_writer (by decide +kernel), by decide +kernel, fun _ => rfl, Or.inl (by decide +kernel)⟩

theorem witness_SubscriptionRegisterCommands_post :
    ∃ (req : Requester) (s : State),
      s.Writer req ∧ s.dom 6 = 1 ∧ s.sub.disc.length < 512 :=
  ⟨(.core 0), (testUp []), core_writer (by decide +kernel), by decide +kernel⟩

theorem witness_SubscriptionRegisterCommands_lost :
    ∃ (req : Requester) (s : State),
      s.Writer req ∧ s.dom 6 = 1 ∧ 512 ≤ s.sub.disc.length :=
  ⟨(.core 0), { testUp [] with sub := { disc := List.replicate 512 ⟨1, 2, 3, 4⟩ } }, core_writer (by decide +kernel),
   by decide +kernel⟩

/-- A GOOSE data set of one BOOLEAN, in a frame with stNum 5 and sqNum 2. -/
def testGoose : List Byte :=
  leBytes 6 0x0000010CCD01 ++ leBytes 6 0x020000000002 ++ beBytes 2 0x88B8 ++ beBytes 2 1 ++ beBytes 2 47 ++ List.replicate 4 0 ++
    [0x61, 37, 0x80, 1, 0x47, 0x81, 2, 0x03, 0xE8, 0x82, 1, 0x44, 0x84, 8, 0, 0, 0, 0, 0, 0, 0, 0, 0x85, 1, 5, 0x86, 1, 2, 0x88, 1, 1,
      0x8A, 1, 1, 0xAB, 3, 0x83, 1, 1]

/-- An entry of kind `k` (1 SV, 2 GOOSE) with confRev 1 and one member. -/
def testRule (k : Nat) : List Byte := splice (splice (List.replicate 64 0) 16 (leBytes 1 (8 * k))) 20 (leBytes 4 1)

/-! ### SubscriptionEvents -/

theorem witness_SubscriptionEvents_stale :
    ∃ (fid : Nat) (a : Nat) (e : Nat) (f : Frame) (g : Frame) (s : State) (t : State),
      s.runs 6 = true ∧
        s.frame fid = some f ∧
          f.accept = some a ∧
            f.entry = some e ∧
              e < 16384 ∧
                a ≤ s.cyc ∧
                  (f.copies.any fun p => p.1 == pI0) = true ∧
                    t = i0Handed fid f s ∧
                      g =
                          { octets := t.unwrap f pI0, len := f.len, stamp := f.stamp, base := f.base, stamp0 := f.stamp0,
                            ingress := f.ingress, bad := f.bad, got := f.got, fragmented := f.fragmented, c0 := f.c0,
                            l := f.l, e := f.e, looked := f.looked, complete := f.complete, entry := f.entry,
                            entryVer := f.entryVer, rule := f.rule, cls := f.cls, vlan := f.vlan, vi := f.vi, gen := f.gen,
                            cells := f.cells, copies := f.copies, cut := f.cut, prp := f.prp, ring := f.ring,
                            pattern := f.pattern, direct := f.direct, tsDesc := f.tsDesc, accept := f.accept,
                            cause := f.cause, unknown := f.unknown, redSeq := f.redSeq } ∧
                        s.staleEntry f = true :=
  ⟨7, 200, 3, _, _, (testAccept [] { testFrame 0x88B8 with entryVer := 1 } (testRule 2) (testRule 2)), _, by decide +kernel, rfl,
   by decide +kernel, by decide +kernel, by decide +kernel, by decide +kernel, by decide +kernel, rfl, rfl, by decide +kernel⟩

theorem witness_SubscriptionEvents_disabled :
    ∃ (fid : Nat) (a : Nat) (e : Nat) (f : Frame) (g : Frame) (s : State) (t : State),
      s.runs 6 = true ∧
        s.frame fid = some f ∧
          f.accept = some a ∧
            f.entry = some e ∧
              e < 16384 ∧
                a ≤ s.cyc ∧
                  (f.copies.any fun p => p.1 == pI0) = true ∧
                    t = i0Handed fid f s ∧
                      g =
                          { octets := t.unwrap f pI0, len := f.len, stamp := f.stamp, base := f.base, stamp0 := f.stamp0,
                            ingress := f.ingress, bad := f.bad, got := f.got, fragmented := f.fragmented, c0 := f.c0,
                            l := f.l, e := f.e, looked := f.looked, complete := f.complete, entry := f.entry,
                            entryVer := f.entryVer, rule := f.rule, cls := f.cls, vlan := f.vlan, vi := f.vi, gen := f.gen,
                            cells := f.cells, copies := f.copies, cut := f.cut, prp := f.prp, ring := f.ring,
                            pattern := f.pattern, direct := f.direct, tsDesc := f.tsDesc, accept := f.accept,
                            cause := f.cause, unknown := f.unknown, redSeq := f.redSeq } ∧
                        s.staleEntry f = false ∧ s.on SB_CTRL_EN = false :=
  ⟨7, 200, 3, _, _, (testAccept [] (testFrame 0x88B8) (testRule 2) (testRule 2)), _, by decide +kernel, rfl, by decide +kernel,
   by decide +kernel, by decide +kernel, by decide +kernel, by decide +kernel, rfl, rfl, by decide +kernel⟩

theorem witness_SubscriptionEvents_auth :
    ∃ (fid : Nat) (a : Nat) (e : Nat) (f : Frame) (g : Frame) (x : SubEntry) (s : State) (t : State),
      s.runs 6 = true ∧
        s.frame fid = some f ∧
          f.accept = some a ∧
            f.entry = some e ∧
              e < 16384 ∧
                a ≤ s.cyc ∧
                  (f.copies.any fun p => p.1 == pI0) = true ∧
                    t = i0Handed fid f s ∧
                      g =
                          { octets := t.unwrap f pI0, len := f.len, stamp := f.stamp, base := f.base, stamp0 := f.stamp0,
                            ingress := f.ingress, bad := f.bad, got := f.got, fragmented := f.fragmented, c0 := f.c0,
                            l := f.l, e := f.e, looked := f.looked, complete := f.complete, entry := f.entry,
                            entryVer := f.entryVer, rule := f.rule, cls := f.cls, vlan := f.vlan, vi := f.vi, gen := f.gen,
                            cells := f.cells, copies := f.copies, cut := f.cut, prp := f.prp, ring := f.ring,
                            pattern := f.pattern, direct := f.direct, tsDesc := f.tsDesc, accept := f.accept,
                            cause := f.cause, unknown := f.unknown, redSeq := f.redSeq } ∧
                        s.staleEntry f = false ∧ s.on SB_CTRL_EN = true ∧ s.sub? e = some x ∧ eKind f.rule ≠ 0 ∧ f.cause ≠ 0 :=
  ⟨7, 200, 3, _,
   _, { bytes := testRule 2 }, (testAccept [(SB_CTRL_EN, 1)] { testFrame 0x88B8 with cause := 5 } (testRule 2) (testRule 2)), _,
   by decide +kernel, rfl, by decide +kernel, by decide +kernel, by decide +kernel, by decide +kernel, by decide +kernel, rfl,
   rfl, by decide +kernel⟩

theorem witness_SubscriptionEvents_sv :
    ∃ (fid : Nat) (a : Nat) (e : Nat) (f : Frame) (g : Frame) (x : SubEntry) (s : State) (t : State),
      s.runs 6 = true ∧
        s.frame fid = some f ∧
          f.accept = some a ∧
            f.entry = some e ∧
              e < 16384 ∧
                a ≤ s.cyc ∧
                  (f.copies.any fun p => p.1 == pI0) = true ∧
                    t = i0Handed fid f s ∧
                      g =
                          { octets := t.unwrap f pI0, len := f.len, stamp := f.stamp, base := f.base, stamp0 := f.stamp0,
                            ingress := f.ingress, bad := f.bad, got := f.got, fragmented := f.fragmented, c0 := f.c0,
                            l := f.l, e := f.e, looked := f.looked, complete := f.complete, entry := f.entry,
                            entryVer := f.entryVer, rule := f.rule, cls := f.cls, vlan := f.vlan, vi := f.vi, gen := f.gen,
                            cells := f.cells, copies := f.copies, cut := f.cut, prp := f.prp, ring := f.ring,
                            pattern := f.pattern, direct := f.direct, tsDesc := f.tsDesc, accept := f.accept,
                            cause := f.cause, unknown := f.unknown, redSeq := f.redSeq } ∧
                        s.staleEntry f = false ∧ s.on SB_CTRL_EN = true ∧ s.sub? e = some x ∧ eKind f.rule = 1 ∧ f.cause = 0 :=
  ⟨7, 200, 3, _, _, { bytes := testRule 1 }, (testAccept [(SB_CTRL_EN, 1)] (testFrame 0x88BA) (testRule 1) (testRule 1)), _,
   by decide +kernel, rfl, by decide +kernel, by decide +kernel, by decide +kernel, by decide +kernel, by decide +kernel, rfl,
   rfl, by decide +kernel⟩

theorem witness_SubscriptionEvents_goose :
    ∃ (fid : Nat) (a : Nat) (e : Nat) (f : Frame) (g : Frame) (x : SubEntry) (s : State) (t : State) (p : GoosePdu) (ms : List (Nat × List Byte × Nat)),
      s.runs 6 = true ∧
        s.frame fid = some f ∧
          f.accept = some a ∧
            f.entry = some e ∧
              e < 16384 ∧
                a ≤ s.cyc ∧
                  (f.copies.any fun p => p.1 == pI0) = true ∧
                    t = i0Handed fid f s ∧
                      g =
                          { octets := t.unwrap f pI0, len := f.len, stamp := f.stamp, base := f.base, stamp0 := f.stamp0,
                            ingress := f.ingress, bad := f.bad, got := f.got, fragmented := f.fragmented, c0 := f.c0,
                            l := f.l, e := f.e, looked := f.looked, complete := f.complete, entry := f.entry,
                            entryVer := f.entryVer, rule := f.rule, cls := f.cls, vlan := f.vlan, vi := f.vi, gen := f.gen,
                            cells := f.cells, copies := f.copies, cut := f.cut, prp := f.prp, ring := f.ring,
                            pattern := f.pattern, direct := f.direct, tsDesc := f.tsDesc, accept := f.accept,
                            cause := f.cause, unknown := f.unknown, redSeq := f.redSeq } ∧
                        s.staleEntry f = false ∧
                          s.on SB_CTRL_EN = true ∧
                            s.sub? e = some x ∧
                              eKind f.rule = 2 ∧
                                f.cause = 0 ∧
                                  simRefuses s e (simBit g.octets) = false ∧
                                    goosePdu g.octets = some p ∧
                                      s.members f.rule p = some ms ∧
                                        p.confRev = eConfRev f.rule ∧
                                          stOld (s.rd (sbSt SB_ST0_STATE e) != 0) p.stNum p.sqNum
                                              (s.rd (sbSt SB_ST1_LAST_REV e)) (s.rd (sbSt SB_ST2_LAST_SQ e)) =
                                            false :=
  ⟨7, 200, 3, _,
   _, { bytes := testRule 2 }, (testAccept [(SB_CTRL_EN, 1)] { testFrame 0x88B8 with octets := testGoose } (testRule 2) (testRule 2)),
   _, ⟨[0x47], 1000, [], 5, 2, false, 1, some [⟨0x83, [1]⟩]⟩, [], by decide +kernel, rfl, by decide +kernel, by decide +kernel,
   by decide +kernel, by decide +kernel, by decide +kernel, rfl, rfl, by decide +kernel, by decide +kernel, by decide +kernel,
   by decide +kernel, by decide +kernel, by decide +kernel, by decide +kernel, by decide +kernel, rfl, by decide +kernel⟩

theorem witness_SubscriptionEvents_departs :
    ∃ (e : Fin 16384) (x : SubEntry) (d : Nat) (ms : List (Nat × List Byte × Nat)) (s : State) (u : State),
      s.runs 6 = true ∧
        s.sub? ↑e = some x ∧
          x.live = some d ∧
            d * 2 ^ 24 < s.now ∧
              s.inTimeFrame (↑e) d = false ∧
                s.rd (sbSt SB_ST0_STATE ↑e) = 1 ∧
                  s.on SB_CTRL_EN = true ∧
                    ms =
                        List.map
                          (fun m =>
                            (leAt m 4 2 % 32768, slice (s.slot (leAt m 4 2 % 32768)).latest 0 8,
                              setBits (sQual (s.slot (leAt m 4 2 % 32768)).latest) 1 0 1))
                          (s.mapOf (s.entryNow x)) ∧
                      u =
                        gooseMarks (2 ^ 40 + ↑e) (s.cyc + 6) (↑e) (s.rd (sbSt SB_ST1_LAST_REV ↑e)) true ms
                          ((s.setSub ↑e
                                { bytes := x.bytes, prev := x.prev, wrote := x.wrote, missing := x.missing,
                                  seenRev := x.seenRev, seenSync := x.seenSync, authFailed := x.authFailed,
                                  nextSmp := x.nextSmp }).wr
                            (sbSt SB_ST0_STATE ↑e) 2) :=
  ⟨3, { bytes := testRule 2, live := some 5 }, 5,
   _, { testUp [(SB_CTRL_EN, 1), (sbSt SB_ST0_STATE 3, 1)] with clk := { tb := [(1, { val := 5 * 2 ^ 24 + 1 })] }, sub := { entries := [(3, { bytes := testRule 2, live := some 5 })] } },
   _, by decide +kernel, by decide +kernel, by decide +kernel, by decide +kernel, by decide +kernel, by decide +kernel,
   by decide +kernel, rfl, rfl⟩

theorem witness_SubscriptionEvents_aged :
    ∃ (i : Fin 256) (s : State),
      s.runs 6 = true ∧ s.vestAged ↑i = true :=
  ⟨4, { testUp [(SB_CTRL_VEST_AGE_S, 1)] with clk := { tb := [(1, { val := uS })] }, sub := { vest := [(4, List.replicate 64 2, 0), (6, List.replicate 64 2, 9)] } },
   by decide +kernel⟩

/-- A sample of stream 3 in the network port's queue, and a module that aligns, at cycle 200. -/
def testSample : Sample := ⟨0, 5, 3, [(1, 0)], 0, 2, 0, false, false, 0, none⟩

def testAlign (b : List Byte) : State :=
  { testUp [(AL_CTRL_EN, 1), (AL_GROUP_EN.i 0, 1), (AL_GROUP_W_US.i 0, 1000)] with
    cyc := 200
    clk := { running := true, tb := [(1, { val := 10 })] }
    al := { str := [(3, { bytes := b })], netQ := [testSample] } }

/-- A valid descriptor at the grid's own rate with one value. -/
def testStr : List Byte := splice (List.replicate 64 0) 0 (leBytes 3 0x010080)

/-! ### AlignmentCommands -/

theorem witness_AlignmentCommands_write :
    ∃ (x : Sample) (rest : List Sample) (s : State) (u : State),
      s.runs 6 = true ∧
        s.on AL_CTRL_EN = true ∧
          s.al.netQ = x :: rest ∧
            x.cyc ≤ s.cyc ∧
              s.al.netFree ≤ s.cyc ∧
                u =
                    { s with al := { s.al with netQ := rest } } ∧
                  s.meetsPass (takeSample x u).1 = false :=
  ⟨testSample, [], (testAlign testStr), _, by decide +kernel, by decide +kernel, by decide +kernel, by decide +kernel,
   by decide +kernel, rfl, by decide +kernel⟩

theorem witness_AlignmentCommands_local :
    ∃ (k : Fin 4) (x : Sample) (rest : List Sample) (s : State) (u : State),
      s.runs 6 = true ∧
        s.on AL_CTRL_EN = true ∧
          agetD s.al.locQ ↑k [] = x :: rest ∧
            x.cyc ≤ s.cyc ∧
                u =
                  { s with al := { s.al with locQ := aput s.al.locQ (↑k) rest } } :=
  ⟨1, testSample, [], { testAlign testStr with al := { str := [(3, { bytes := testStr })], locQ := [(1, [testSample])] } }, _,
   by decide +kernel, by decide +kernel, by decide +kernel, by decide +kernel, rfl⟩

theorem witness_AlignmentCommands_record :
    ∃ (x : Sample) (rest : List Sample) (b : List Byte) (r : List Byte) (g : Nat) (s : State),
      (s.runs 6 = true ∧
        s.on AL_CTRL_EN = true ∧
          s.al.netQ = x :: rest ∧
            x.cyc ≤ s.cyc ∧
              s.al.netFree ≤ s.cyc ∧
                s.meetsPass 32 = false ∧
                  b = s.stream x.stream ∧
                    dValid b = true ∧
                      dRate b = 1 ∧
                        x.raw = none) ∧
                          g = x.abs 4800 ∧
                            s.record? x.stream g = none ∧
                              s.tooLate (dGroup b) g = false ∧
                                x.stream < 1024 ∧
                                  dCmask b = 0 ∧
                                    r =
                                        mkRecord (List.map (fun p => p.1) (scaled b x)) (List.map (fun p => p.2) (scaled b x))
                                          g recPresent (b2n x.sim * 16 + b2n (s.tickSkipped g) * 8 + b2n (x.early 4800) * 4)
                                          x.smpCnt 0 x.synch (x.transit 4800) ∧
                                      s.overruled x.stream g r = none :=
  ⟨testSample, [], testStr, _, _, (testAlign testStr), by decide +kernel, rfl, by decide +kernel, by decide +kernel,
   by decide +kernel, by decide +kernel, rfl, by decide +kernel⟩

theorem witness_AlignmentCommands_close :
    ∃ (o : OpenSet) (s : State),
      s.runs 6 = true ∧ s.dueSet = some o ∧ s.on AL_CTRL_EN = true ∧ s.al.passFree ≤ s.cyc :=
  ⟨⟨0, 0, 5, 0, false⟩, { testAlign testStr with al := { sets := [⟨0, 0, 5, 0, false⟩] } }, by decide +kernel⟩

theorem witness_AlignmentCommands_registers :
    ∃ (req : Requester) (s : State),
      s.Writer req ∧ s.dom 6 = 1 :=
  ⟨(.core 0), (testUp []), core_writer (by decide +kernel), by decide +kernel⟩

theorem witness_AlignmentCommands_new :
    ∃ (req : Requester) (s : State) (b : List Byte),
      s.Writer req ∧ s.dom 6 = 1 ∧ b = dStored (s.dataBytes 5242944 16) ∧ dValid (s.stream (s.rd AL_STR_IDX_IDX)) = false :=
  ⟨(.core 0), (testUp []), _, core_writer (by decide +kernel), by decide +kernel, rfl, by decide +kernel⟩

theorem witness_AlignmentCommands_change :
    ∃ (req : Requester) (s : State) (b : List Byte),
      s.Writer req ∧
        s.dom 6 = 1 ∧
          b = dStored (s.dataBytes 5242944 16) ∧
            dValid (s.stream (s.rd AL_STR_IDX_IDX)) = true ∧ sameFixed (s.stream (s.rd AL_STR_IDX_IDX)) b = true :=
  ⟨(.core 0), { (testUp [(AL_STR_IDX_IDX, 3)]).put 0x500040 0x010080 with al := { str := [(3, { bytes := testStr })] } },
   _, core_writer (by decide +kernel), by decide +kernel, rfl, by decide +kernel⟩

theorem witness_AlignmentCommands_held :
    ∃ (req : Requester) (s : State) (b : List Byte),
      s.Writer req ∧
        s.dom 6 = 1 ∧
          b = dStored (s.dataBytes 5242944 16) ∧
            dValid (s.stream (s.rd AL_STR_IDX_IDX)) = true ∧ sameFixed (s.stream (s.rd AL_STR_IDX_IDX)) b = false :=
  ⟨(.core 0), { testUp [(AL_STR_IDX_IDX, 3)] with al := { str := [(3, { bytes := testStr })] } },
   _, core_writer (by decide +kernel), by decide +kernel, rfl, by decide +kernel⟩

/-! ### AcquisitionCommands -/

theorem witness_AcquisitionCommands_sample :
    ∃ (b : Fin 4) (k : Nat) (c : Nat) (s : State),
      s.runs 12 = true ∧ s.bankOn ↑b = true ∧ s.acqDue ↑b = some (k, c) ∧ c + 96 ≤ s.cyc :=
  ⟨3, 5, 4, { testUp [(AQ_CTRL_EN, 1), (AQ_BANK_EN.i 3, 1)] with cyc := 100, aq := { due := [(3, 5, 4)] } }, by decide +kernel⟩

theorem witness_AcquisitionCommands_code :
    ∃ (c : Nat) (raw : Int) (t : Nat) (lp : Nat) (s : State),
      c < 32 ∧
        s.on (AQ_CH_EN.i c) = true ∧
          atLimit (satCode raw) = false ∧
            atLimit (corrected (satCode raw) (s.rdS (AQ_CH_CAL_OFS.i c)) (s.rd (AQ_CH_CAL_GAIN.i c))) = false ∧
              (s.aqCh c).wasOvr = false ∧
                (s.aqCh c).wasPartner = false ∧
                  (s.aqCh c).settling = false ∧ s.conducted (if c % 2 = 0 then c + 1 else c - 1) (t - lp) (t + lp) = false :=
  ⟨31, 8388606, 5, 3, (testUp [(AQ_CH_EN.i 31, 1), (AQ_CH_CAL_GAIN.i 31, 0x100000)]), by decide +kernel⟩

theorem witness_AcquisitionCommands_clamp :
    ∃ (ch : Fin 24) (s : State),
      s.runs 12 = true ∧ s.conducting ↑ch = false :=
  ⟨23, (testUp []), by decide +kernel⟩

theorem witness_AcquisitionCommands_clampEnd :
    ∃ (ch : Fin 24) (s : State),
      s.runs 12 = true ∧ s.conducting ↑ch = true :=
  ⟨23, { testUp [(AQ_STATUS_CLAMP, 0x800)] with aq := { cond := [(23, 0, none)] } }, by decide +kernel⟩

theorem witness_AcquisitionCommands_edge :
    ∃ (s : State),
      s.runs 12 = true :=
  ⟨(testUp [(AQ_CH_CMP_EN.i 23, 1)]), by decide +kernel⟩

theorem witness_AcquisitionCommands_queued :
    ∃ (d : Nat) (c : Nat) (e : Nat) (tb : Nat) (ns : Nat) (s : State),
      s.aq.edges = [(d, c, e, tb, ns)] ∧ d ≤ s.cyc + 1 ∧ (s.aqCh c).tdc.length < 16 :=
  ⟨32, 23, 1, 1, 77, { testUp [] with cyc := 31, aq := { edges := [(32, 23, 1, 1, 77)] } }, by decide +kernel⟩

theorem witness_AcquisitionCommands_pop :
    ∃ (req : Requester) (s : State) (c : Nat) (e : Nat) (tb : Nat) (n : Nat) (rest : List (Nat × Nat × Nat)),
      s.Writer req ∧
        s.dom 12 = 1 ∧ s.is5120 = false ∧ s.CalServed ∧ c = s.rd0 AQ_TDC_IDX_CH ∧ s.start.tdcQueue = (e, tb, n) :: rest :=
  ⟨(.core 0), { testUp [(AQ_TDC_IDX_CH, 3)] with aq := { ch := [(3, { tdc := [(1, 1, 5000000000)] })] }, arch := { at0 := { aq := { ch := [(3, { tdc := [(1, 1, 5000000000)] })] } } } },
   _, 1, 1, 5000000000, [], core_writer (by decide +kernel), by decide +kernel, by decide +kernel, fun _ => rfl, rfl,
   by decide +kernel⟩

theorem witness_AcquisitionCommands_bank :
    ∃ (req : Requester) (s : State) (b : Fin 4),
      s.Writer req ∧ s.dom 12 = 1 ∧ s.is5120 = false ∧ s.on (AQ_BANK_EN.i ↑b) = false :=
  ⟨(.core 0), (testUp [(AQ_CH_EN.i 31, 1)]), 3, core_writer (by decide +kernel), by decide +kernel⟩

theorem witness_AcquisitionCommands_refused :
    ∃ (req : Requester) (s : State) (b : Fin 4) (k : Fin 4) (v : Word),
      s.Writer req ∧
        s.dom 12 = 1 ∧
          s.is5120 = false ∧
            s.on (AQ_BANK_EN.i ↑b) = true ∧
              (k = 0 → bits (BitVec.toNat v) 27 26 ≠ s.preset ↑b ∨ bits (BitVec.toNat v) 25 24 ≠ s.rd (AQ_BANK_NOTCH.i ↑b)) :=
  ⟨(.core 0), (testUp [(AQ_BANK_EN.i 3, 1)]), 3, 0, 0x06000000, core_writer (by decide +kernel), by decide +kernel⟩

theorem witness_AcquisitionCommands_base :
    ∃ (req : Requester) (s : State) (b : Fin 4),
      s.Writer req ∧ s.dom 12 = 1 ∧ s.is5120 = false ∧ s.on (AQ_BANK_EN.i ↑b) = false :=
  ⟨(.core 0), (testUp []), 3, core_writer (by decide +kernel), by decide +kernel⟩

/-- A task descriptor of instance 3: its first halfword, lane, DIV, OFFSET, COST and number of operands from slot 0. -/
def testTask (w lane div offset cost opN : Nat) : List Byte :=
  leBytes 2 (w + 3) ++ leBytes 2 0 ++ leBytes 1 lane ++ leBytes 1 1 ++ leBytes 1 div ++ leBytes 1 0 ++ leBytes 4 offset ++
    leBytes 4 cost ++ leBytes 2 9 ++ leBytes 2 0 ++ leBytes 1 opN ++ leBytes 11 0

/-- A module that dispatches, at cycle 500 of grid tick 10, with instance 3 running and `b` as task 7. -/
def testDisp (b : List Byte) (d : Ds := {}) : State :=
  { testUp [(DS_CTRL_EN, 1), (DS_CTRL_READY_EN, 1), (VI_CTRL_RUN.p 3, 1)] with
    cyc := 1000
    clk := { running := true, lastTick := some (10, 500, 0), raised := 4, tb := [(1, { val := 5000 * uUs })] }
    ds := { d with tasks := [(7, { bytes := b })] } }

/-- A mark request of slot 5, that waits. -/
def testMark (gen : Nat) : MarkReq := { due := 900, kind := 2, seq := 4, slot := 5, value := leBytes 8 77, qual := 0, vi := 3, gen := gen }

/-- A slot of KIND TIMER. -/
def testSlot : OpSlot := { bytes := splice (List.replicate 32 0) 10 (leBytes 1 0x80) }

/-- A pending run with its deadline at `d`. -/
def testPend (d gen : Nat) (r : Option Nat) : Pend := { release := 5, deadline := d, gen := gen, ready := r }

/-! ### DispatcherEvents -/

theorem witness_DispatcherEvents_slotted :
    ∃ (t : Fin 8192) (s : State),
      s.runs 6 = true ∧
        s.on DS_CTRL_EN = true ∧
          s.clk.lastTick ≠ none ∧
            dueInTick (s.task ↑t) s.tickG = true ∧
              s.tickCy = tOffset (s.task ↑t) ∧
                s.startedInTick ↑t = false ∧
                  (s.noteTick ↑t).clusterOff (tLane (s.task ↑t) / 8) = false ∧ (s.noteTick ↑t).mayRun (tVi (s.task ↑t)) = true :=
  ⟨7, (testDisp (testTask 0x8000 9 1 500 1000 1)), by decide +kernel⟩

theorem witness_DispatcherEvents_fenced :
    ∃ (t : Fin 8192) (s : State),
      s.runs 6 = true ∧
        s.on DS_CTRL_EN = true ∧
          s.clk.lastTick ≠ none ∧
            dueInTick (s.task ↑t) s.tickG = true ∧
              s.tickCy = tOffset (s.task ↑t) ∧
                s.startedInTick ↑t = false ∧ (s.noteTick ↑t).clusterOff (tLane (s.task ↑t) / 8) = true :=
  ⟨7, ((testDisp (testTask 0x8000 9 1 500 1000 1)).wr PM_FENCE_FENCE 2), by decide +kernel⟩

theorem witness_DispatcherEvents_halted :
    ∃ (t : Fin 8192) (s : State),
      s.runs 6 = true ∧
        s.on DS_CTRL_EN = true ∧
          s.clk.lastTick ≠ none ∧
            dueInTick (s.task ↑t) s.tickG = true ∧
              s.tickCy = tOffset (s.task ↑t) ∧
                s.startedInTick ↑t = false ∧
                  (s.noteTick ↑t).clusterOff (tLane (s.task ↑t) / 8) = false ∧
                    (s.noteTick ↑t).mayRun (tVi (s.task ↑t)) = false :=
  ⟨7, ((testDisp (testTask 0x8000 9 1 500 1000 1)).wr (VI_CTRL_RUN.p 3) 0), by decide +kernel⟩

theorem witness_DispatcherEvents_ready :
    ∃ (c : Fin 32) (t : Nat) (l : Nat) (p : Pend) (s : State) (u : State),
      s.runs 6 = true ∧
        aget s.ds.startAt ↑c ≠ some s.cyc ∧ s.readyChoice ↑c = some (t, p, l) ∧ u = (settleLane l s).dropPend t :=
  ⟨1, 7, 8, (testPend (9000 * uUs) 0 (some 990)), { testDisp (testTask 0xC000 1 0 0 1000 0) { pend := [(7, testPend (9000 * uUs) 0 (some 990))], remain := [(3, 2000)] } with cyc := 1000 },
   _, by decide +kernel, by decide +kernel, by decide +kernel, rfl⟩

theorem witness_DispatcherEvents_late :
    ∃ (c : Fin 32) (t : Nat) (l : Nat) (p : Pend) (s : State) (u : State),
      s.runs 6 = true ∧
        aget s.ds.startAt ↑c ≠ some s.cyc ∧ s.readyChoice ↑c = some (t, p, l) ∧ u = (settleLane l s).dropPend t :=
  ⟨1, 7, 8, (testPend 9000 0 (some 990)), { testDisp (testTask 0xC000 1 0 0 1000 0) { pend := [(7, testPend 9000 0 (some 990))], remain := [(3, 2000)] } with cyc := 1000 },
   _, by decide +kernel, by decide +kernel, by decide +kernel, rfl⟩

theorem witness_DispatcherEvents_mark :
    ∃ (r : MarkReq) (s : State) (u : State),
      s.runs 6 = true ∧
        s.ds.portAt ≠ some s.cyc ∧
          s.nextMark = some r ∧
            u =
                { s with ds := { s.ds with marks := List.filter (fun x => x.seq != r.seq) s.ds.marks, portAt := some s.cyc } } ∧
              r.gen = s.gen r.vi ∧ s.on DS_CTRL_EN = true :=
  ⟨(testMark 0), (testDisp [] { marks := [testMark 0], slots := [(5, testSlot)] }), _, by decide +kernel, by decide +kernel,
   by decide +kernel, rfl, by decide +kernel⟩

theorem witness_DispatcherEvents_markOff :
    ∃ (r : MarkReq) (s : State) (u : State),
      s.runs 6 = true ∧
        s.ds.portAt ≠ some s.cyc ∧
          s.nextMark = some r ∧
            u =
                { s with ds := { s.ds with marks := List.filter (fun x => x.seq != r.seq) s.ds.marks, portAt := some s.cyc } } ∧
              r.gen = s.gen r.vi ∧ s.on DS_CTRL_EN = false :=
  ⟨(testMark 0), ((testDisp [] { marks := [testMark 0], slots := [(5, testSlot)] }).wr DS_CTRL_EN 0), _, by decide +kernel,
   by decide +kernel, by decide +kernel, rfl, by decide +kernel⟩

theorem witness_DispatcherEvents_markStale :
    ∃ (r : MarkReq) (s : State) (u : State),
      s.runs 6 = true ∧
        s.ds.portAt ≠ some s.cyc ∧
          s.nextMark = some r ∧
            u =
                { s with ds := { s.ds with marks := List.filter (fun x => x.seq != r.seq) s.ds.marks, portAt := some s.cyc } } ∧
              r.gen ≠ s.gen r.vi :=
  ⟨(testMark 9), (testDisp [] { marks := [testMark 9], slots := [(5, testSlot)] }), _, by decide +kernel, by decide +kernel,
   by decide +kernel, rfl, by decide +kernel⟩

theorem witness_DispatcherEvents_stale :
    ∃ (t : Fin 8192) (p : Pend) (s : State) (u : State),
      s.runs 6 = true ∧
        aget s.ds.pend ↑t = some p ∧
          p.passed = false ∧
            p.deadline < s.now ∧
              (u = if s.stepped p.deadline = true then s.inc DS_G_STEP_FIRE else s) ∧ p.gen ≠ s.gen (tVi (s.task ↑t)) :=
  ⟨7, (testPend 9000 1 none), (testDisp (testTask 0xC000 1 0 0 1000 0) { pend := [(7, testPend 9000 1 none)] }), _,
   by decide +kernel, by decide +kernel, by decide +kernel, by decide +kernel, rfl, by decide +kernel⟩

theorem witness_DispatcherEvents_wasReady :
    ∃ (t : Fin 8192) (p : Pend) (s : State) (u : State),
      s.runs 6 = true ∧
        aget s.ds.pend ↑t = some p ∧
          p.passed = false ∧
            p.deadline < s.now ∧
              (u = if s.stepped p.deadline = true then s.inc DS_G_STEP_FIRE else s) ∧
                p.gen = s.gen (tVi (s.task ↑t)) ∧ p.ready.isSome = true :=
  ⟨7, (testPend 9000 0 (some 900)), (testDisp (testTask 0xC000 1 0 0 1000 0) { pend := [(7, testPend 9000 0 (some 900))] }), _,
   by decide +kernel, by decide +kernel, by decide +kernel, by decide +kernel, rfl, by decide +kernel⟩

theorem witness_DispatcherEvents_fresh :
    ∃ (t : Fin 8192) (p : Pend) (s : State) (u : State),
      s.runs 6 = true ∧
        aget s.ds.pend ↑t = some p ∧
          p.passed = false ∧
            p.deadline < s.now ∧
              (u = if s.stepped p.deadline = true then s.inc DS_G_STEP_FIRE else s) ∧
                p.gen = s.gen (tVi (s.task ↑t)) ∧ p.ready = none ∧ u.missing (↑t) p.deadline = false :=
  ⟨7, (testPend 9000 0 none), (testDisp (testTask 0xC000 1 0 0 1000 0) { pend := [(7, testPend 9000 0 none)] }), _,
   by decide +kernel, by decide +kernel, by decide +kernel, by decide +kernel, rfl, by decide +kernel⟩

theorem witness_DispatcherEvents_timeout :
    ∃ (t : Fin 8192) (p : Pend) (s : State) (u : State),
      s.runs 6 = true ∧
        aget s.ds.pend ↑t = some p ∧
          p.passed = false ∧
            p.deadline < s.now ∧
              (u = if s.stepped p.deadline = true then s.inc DS_G_STEP_FIRE else s) ∧
                p.gen = s.gen (tVi (s.task ↑t)) ∧ p.ready = none ∧ p.timedOut = false ∧ u.missing (↑t) p.deadline = true :=
  ⟨7, (testPend 9000 0 none), (testDisp (testTask 0xC000 1 0 0 1000 1) { pend := [(7, testPend 9000 0 none)] }), _,
   by decide +kernel, by decide +kernel, by decide +kernel, by decide +kernel, rfl, by decide +kernel⟩

/-- A run of task 7 in service since cycle 100. -/
def testRun (ended : Bool) : Run :=
  { task := 7, vi := 3, gen := 0, flow := 0, ready := false, start := 100, startCy := 0, cost := 200, entry := 0, next := 110, ended := ended }

/-- A timer of instance 3 whose expiry instant is 100 µs: STATE, watch and GEN. -/
def testTimer (st w g : Nat) (seen : Bool) : Timer :=
  { bytes := leBytes 2 (st * 16384 + 3) ++ leBytes 2 6 ++ leBytes 2 w ++ leBytes 2 g ++ leBytes 8 0, exp := 100 * uUs, seen := seen }

/-! ### RunEndsAndTimers -/

theorem witness_RunEndsAndTimers_end :
    ∃ (l : Fin 256) (r : Run) (s : State),
      s.runs (2 + ↑l / 64) = true ∧ s.laneRun ↑l = some r ∧ r.start + r.cost ≤ s.cyc ∧ (r.ended = true ∨ r.stopped = true) :=
  ⟨9, (testRun true), { testDisp (testTask 0x8000 9 1 500 1000 1) with ln := { runs := [(9, testRun true)] } }, by decide +kernel⟩

theorem witness_RunEndsAndTimers_over :
    ∃ (l : Fin 256) (r : Run) (s : State),
      s.runs (2 + ↑l / 64) = true ∧ s.laneRun ↑l = some r ∧ r.start + r.cost ≤ s.cyc ∧ r.ended = false ∧ r.stopped = false :=
  ⟨9, (testRun false), { testDisp (testTask 0x8000 9 1 500 1000 1) with ln := { runs := [(9, testRun false)] } },
   by decide +kernel⟩

theorem witness_RunEndsAndTimers_arm :
    ∃ (r : ArmReq) (rest : List ArmReq) (s : State) (u : State),
      s.runs 6 = true ∧
        s.ds.arms = r :: rest ∧
          r.due ≤ s.cyc ∧
            u =
                { s with ds := { s.ds with arms := rest } } ∧
              r.arm = true :=
  ⟨{ made := 900, due := 908, arm := true, timer := 11, delay := 50, gen := 0, who := 256, setup := none }, [], (testDisp [] { arms := [{ made := 900, due := 908, arm := true, timer := 11, delay := 50, gen := 0, who := 256, setup := none }] }),
   _, by decide +kernel, by decide +kernel, by decide +kernel, rfl, by decide +kernel⟩

theorem witness_RunEndsAndTimers_cancel :
    ∃ (r : ArmReq) (rest : List ArmReq) (s : State) (u : State),
      s.runs 6 = true ∧
        s.ds.arms = r :: rest ∧
          r.due ≤ s.cyc ∧
            u =
                { s with ds := { s.ds with arms := rest } } ∧
              r.arm = false :=
  ⟨{ made := 900, due := 908, arm := false, timer := 11, delay := 0, gen := 0, who := 256, setup := none }, [], (testDisp [] { timers := [(11, testTimer 1 0 0 false)], arms := [{ made := 900, due := 908, arm := false, timer := 11, delay := 0, gen := 0, who := 256, setup := none }] }),
   _, by decide +kernel, by decide +kernel, by decide +kernel, rfl, by decide +kernel⟩

theorem witness_RunEndsAndTimers_old :
    ∃ (i : Fin 16384) (b : List Byte) (s : State) (u : State),
      s.runs 6 = true ∧
        s.timerDue ↑i = true ∧
          b = (s.timer ↑i).bytes ∧
            2 ≤ b.length ∧
              (u = if s.stepped (s.timer ↑i).exp = true then s.inc DS_G_STEP_FIRE else s) ∧ mGen b ≠ u.gen (mVi b) :=
  ⟨11, (testTimer 1 0 5 false).bytes, (testDisp [] { timers := [(11, testTimer 1 0 5 false)] }), _, by decide +kernel,
   by decide +kernel, by decide +kernel, by decide +kernel, rfl, by decide +kernel⟩

theorem witness_RunEndsAndTimers_watched :
    ∃ (i : Fin 16384) (b : List Byte) (s : State) (u : State),
      s.runs 6 = true ∧
        s.timerDue ↑i = true ∧
          b = (s.timer ↑i).bytes ∧
            2 ≤ b.length ∧
              (u = if s.stepped (s.timer ↑i).exp = true then s.inc DS_G_STEP_FIRE else s) ∧
                mGen b = u.gen (mVi b) ∧
                  mWatch b = true ∧ ((s.timer ↑i).seen = true ∨ (u.marking.any fun k => u.arrivesAt k (s.timer ↑i)) = true) :=
  ⟨11, (testTimer 1 0x8005 0 true).bytes, (testDisp [] { timers := [(11, testTimer 1 0x8005 0 true)] }), _, by decide +kernel,
   by decide +kernel, by decide +kernel, by decide +kernel, rfl, rfl, by decide +kernel⟩

theorem witness_RunEndsAndTimers_fires :
    ∃ (i : Fin 16384) (b : List Byte) (s : State) (u : State),
      s.runs 6 = true ∧
        s.timerDue ↑i = true ∧
          b = (s.timer ↑i).bytes ∧
            2 ≤ b.length ∧
              (u = if s.stepped (s.timer ↑i).exp = true then s.inc DS_G_STEP_FIRE else s) ∧
                mGen b = u.gen (mVi b) ∧
                  (mWatch b = false ∨ (s.timer ↑i).seen = false ∧ (u.marking.any fun k => u.arrivesAt k (s.timer ↑i)) = false) :=
  ⟨11, (testTimer 1 0x8005 0 false).bytes, (testDisp [] { timers := [(11, testTimer 1 0x8005 0 false)], slots := [(6, testSlot)] }),
   _, by decide +kernel, by decide +kernel, by decide +kernel, by decide +kernel, rfl, rfl, by decide +kernel⟩

/-! ### DispatcherRegisterCommands -/

theorem witness_DispatcherRegisterCommands_taskRead :
    ∃ (req : Requester) (s : State),
      s.Writer req ∧ s.dom 6 = 1 :=
  ⟨(.core 0), (testDisp (testTask 0x8000 9 1 500 1000 1)), core_writer (by decide +kernel), by decide +kernel⟩

theorem witness_DispatcherRegisterCommands_taskWrite :
    ∃ (req : Requester) (s : State) (b : List Byte),
      s.Writer req ∧
        s.dom 6 = 1 ∧ b = taskStored (s.dataBytes 7340096 8) ∧ taskWriteOk (s.rd DS_TASK_IDX_IDX % 8192) b s = true :=
  ⟨(.core 0), (testOn [(DS_TASK_IDX_IDX, 7)] (testDisp (testTask 0x8000 9 1 500 1000 1))), (List.replicate 32 0), core_writer (by decide +kernel),
   by decide +kernel⟩

theorem witness_DispatcherRegisterCommands_taskRefused :
    ∃ (req : Requester) (s : State) (b : List Byte),
      s.Writer req ∧
        s.dom 6 = 1 ∧ b = taskStored (s.dataBytes 7340096 8) ∧ taskWriteOk (s.rd DS_TASK_IDX_IDX % 8192) b s = false :=
  ⟨(.core 0), (testOn [(DS_TASK_IDX_IDX, 7)] ((testDisp (testTask 0x8000 9 1 500 1000 1)).put 0x700040 0x8000)), (taskStored (leBytes 32 0x8000)), core_writer (by decide +kernel),
   by decide +kernel⟩

/-- Task 7 with one operand, and its entry for a SET operand, gathered from an inbox of depth 4, or for a GOOSE one. -/
def testOperand (code n m param kind : Nat) : State :=
  let s := testKernel code n m param [] []
  let s := (s.storeN (addrLane 0 + 0x4A) 1 (kind * 32)).storeN (addrCluster 0 + 0x1004) 1 4
  { s with ds := { tasks := [(7, { bytes := splice (List.replicate 32 0) 20 [1] })] }, arch := { at0 := { mem := s.mem } } }

def testGather : State := testOperand 0x02 1 0 0 1

def testGatherData : List Byte := [0, 0, 0, 0, 4, 0, 0, 0, 0, 0, 0, 0, 0, 0, 0, 0]

def testOpnd : State := testOperand 0x03 0 0 0x30 2

/-- A run has reached an invocation where each condition of `State.AtKernel` holds. -/
theorem at_kernel {s : State} {l code : Nat} {r : Run} {k : Inv} (works : s.runs (2 + l / 64) = true)
    (run : s.laneRun l = some r) (inv : k = s.old.invocation l r)
    (h : (s.fetchFault l r = none ∧ (k.entryWords s).any s.ic.badWords.contains = false) ∧ k.code = code ∧
      (r.ended = false ∧ r.stopped = false) ∧ r.skip = 0 ∧ r.next + kernelCycles code k.n ≤ s.cyc + 1 ∧
      r.next + kernelCycles code k.n ≤ r.start + r.cost) : s.AtKernel l code r k :=
  ⟨works, run, inv, h.1, h.2.1, h.2.2.1, h.2.2.2.1, h.2.2.2.2.1, h.2.2.2.2.2⟩

/-! ### BasicKernelsComplete -/

theorem witness_BasicKernelsComplete_nop :
    ∃ (l : Fin 256) (r : Run) (k : Inv) (s : State),
      s.AtKernel (↑l) 0 r k :=
  ⟨0, testGraph, (testInv (testKernel 0x0 1 0 0x0 [] [])), (testKernel 0x0 1 0 0x0 [] []), at_kernel (by decide +kernel) rfl rfl (by decide +kernel)⟩

theorem witness_BasicKernelsComplete_end :
    ∃ (l : Fin 256) (r : Run) (k : Inv) (s : State),
      s.AtKernel (↑l) 1 r k :=
  ⟨0, testGraph, (testInv (testKernel 0x1 0 0 0x0 [] [])), (testKernel 0x1 0 0 0x0 [] []), at_kernel (by decide +kernel) rfl rfl (by decide +kernel)⟩

theorem witness_BasicKernelsComplete_move :
    ∃ (l : Fin 256) (r : Run) (k : Inv) (s : State) (us : List (List Byte)),
      s.AtKernel (↑l) 4 r k ∧ 1 ≤ k.n ∧ k.n ≤ 64 ∧ readUnits k k.a s k.n 0 = Except.ok us ∧ k.CanWrite (canonUnits 0 us) :=
  ⟨0, testGraph, (testInv (testKernel 0x4 1 0 0x0 [testNum] [])), (testKernel 0x4 1 0 0x0 [testNum] []), testNum.units, at_kernel (by decide +kernel) rfl rfl (by decide +kernel),
   by decide +kernel, by decide +kernel, except_ok (by decide +kernel), can_write (by decide +kernel)⟩

theorem witness_BasicKernelsComplete_const :
    ∃ (l : Fin 256) (r : Run) (k : Inv) (s : State) (x : Item),
      s.AtKernel (↑l) 5 r k ∧
        (k.m = 0 ∧ x = { t := tFLOAT, v := k.param, q := 0 } ∨
            k.m = 1 ∧ x = { t := tINT, v := k.param, q := 0 } ∨
              k.m = 2 ∧ x = { t := tBOOL, v := b2n (k.param != 0), q := 0 }) ∧
          k.CanGive [x] :=
  ⟨0, testGraph, (testInv (testKernel 0x5 0 1 0x5 [] [])), (testKernel 0x5 0 1 0x5 [] []), { t := tINT, v := 5, q := 0 }, at_kernel (by decide +kernel) rfl rfl (by decide +kernel),
   by decide +kernel, can_write (by decide +kernel)⟩

theorem witness_BasicKernelsComplete_skip :
    ∃ (l : Fin 256) (r : Run) (k : Inv) (s : State) (x : Item),
      s.AtKernel (↑l) 6 r k ∧ 1 ≤ k.n ∧ k.n ≤ 16 ∧ k.items k.a 1 [tBOOL] s = Except.ok [x] :=
  ⟨0, testGraph, (testInv (testKernel 0x6 16 1 0x0 [testTrue] [])), (testKernel 0x6 16 1 0x0 [testTrue] []), testTrue, at_kernel (by decide +kernel) rfl rfl (by decide +kernel),
   by decide +kernel, by decide +kernel, except_ok (by decide +kernel)⟩

theorem witness_BasicKernelsComplete_qsel :
    ∃ (l : Fin 256) (r : Run) (k : Inv) (s : State) (xs : List Item) (ys : List Item) (rs : List Item),
      s.AtKernel (↑l) 7 r k ∧
        1 ≤ k.n ∧
          k.n ≤ 64 ∧
            k.m ≤ 1 ∧
              k.itemsFrom k.a s k.n 0 = Except.ok xs ∧
                k.itemsFrom k.b s k.n 0 = Except.ok ys ∧
                  (∀ p ∈ xs.zip ys, p.1.t = p.2.t) ∧
                    rs = List.map (fun p => if unusable (if k.m = 1 then 3 else 1) p.1 = true then p.2 else p.1) (xs.zip ys) ∧
                      k.CanGive rs :=
  ⟨0, testGraph, (testInv (testKernel 0x7 2 0 0x0 [testNum, testNum] [testNum, testNum])), (testKernel 0x7 2 0 0x0 [testNum, testNum] [testNum, testNum]), [testNum, testNum], [testNum, testNum],
   _, at_kernel (by decide +kernel) rfl rfl (by decide +kernel), by decide +kernel, by decide +kernel,
   by decide +kernel, except_ok (by decide +kernel), except_ok (by decide +kernel), by decide +kernel,
   rfl, can_write (by decide +kernel)⟩

theorem witness_BasicKernelsComplete_conv :
    ∃ (l : Fin 256) (r : Run) (k : Inv) (s : State) (xs : List Item) (rs : List Item),
      s.AtKernel (↑l) 8 r k ∧
        1 ≤ k.n ∧
          k.n ≤ 64 ∧
            convTypes.contains (k.param % 16) = true ∧
              k.items k.a k.n (tQUAL :: convTypes) s = Except.ok xs ∧
                rs = List.map (convItem (k.param % 16)) xs ∧ k.CanGive rs :=
  ⟨0, testGraph, (testInv (testKernel 0x8 1 0 0x3 [testNum] [])), (testKernel 0x8 1 0 0x3 [testNum] []), [testNum],
   _, at_kernel (by decide +kernel) rfl rfl (by decide +kernel), by decide +kernel, by decide +kernel, by decide +kernel, except_ok (by decide +kernel),
   rfl, can_write (by decide +kernel)⟩

theorem witness_BasicKernelsComplete_add :
    ∃ (l : Fin 256) (r : Run) (k : Inv) (s : State) (xs : List Item) (ys : List Item) (rs : List Item),
      s.AtKernel (↑l) 9 r k ∧
        1 ≤ k.n ∧
          k.n ≤ 64 ∧
            k.m ≤ 1 ∧
              k.items k.a k.n numTypes s = Except.ok xs ∧
                k.second s = Except.ok ys ∧
                  (∀ p ∈ xs.zip ys, p.1.t = p.2.t) ∧
                    rs = List.map (fun p => arith f32.add (fun x1 x2 => x1 + x2) p.1 p.2) (xs.zip ys) ∧ k.CanGive rs :=
  ⟨0, testGraph, (testInv (testKernel 0x9 2 0 0x0 [testNum, testNum] [testNum, testNum])), (testKernel 0x9 2 0 0x0 [testNum, testNum] [testNum, testNum]), [testNum, testNum], [testNum, testNum],
   _, at_kernel (by decide +kernel) rfl rfl (by decide +kernel), by decide +kernel, by decide +kernel,
   by decide +kernel, except_ok (by decide +kernel), except_ok (by decide +kernel), by decide +kernel,
   rfl, can_write (by decide +kernel)⟩

theorem witness_BasicKernelsComplete_sub :
    ∃ (l : Fin 256) (r : Run) (k : Inv) (s : State) (xs : List Item) (ys : List Item) (rs : List Item),
      s.AtKernel (↑l) 10 r k ∧
        1 ≤ k.n ∧
          k.n ≤ 64 ∧
            k.m ≤ 1 ∧
              k.items k.a k.n numTypes s = Except.ok xs ∧
                k.second s = Except.ok ys ∧
                  (∀ p ∈ xs.zip ys, p.1.t = p.2.t) ∧
                    rs = List.map (fun p => arith f32.sub (fun x1 x2 => x1 - x2) p.1 p.2) (xs.zip ys) ∧ k.CanGive rs :=
  ⟨0, testGraph, (testInv (testKernel 0xa 1 0 0x0 [testNum] [testNum])), (testKernel 0xa 1 0 0x0 [testNum] [testNum]), [testNum], [testNum],
   _, at_kernel (by decide +kernel) rfl rfl (by decide +kernel), by decide +kernel, by decide +kernel,
   by decide +kernel, except_ok (by decide +kernel), except_ok (by decide +kernel), by decide +kernel,
   rfl, can_write (by decide +kernel)⟩

theorem witness_BasicKernelsComplete_mul :
    ∃ (l : Fin 256) (r : Run) (k : Inv) (s : State) (xs : List Item) (ys : List Item) (rs : List Item),
      s.AtKernel (↑l) 11 r k ∧
        1 ≤ k.n ∧
          k.n ≤ 64 ∧
            k.m ≤ 1 ∧
              k.items k.a k.n numTypes s = Except.ok xs ∧
                k.second s = Except.ok ys ∧
                  (∀ p ∈ xs.zip ys, p.1.t = p.2.t) ∧
                    rs = List.map (fun p => arith f32.mul (fun x1 x2 => x1 * x2) p.1 p.2) (xs.zip ys) ∧ k.CanGive rs :=
  ⟨0, testGraph, (testInv (testKernel 0xb 1 0 0x0 [testNum] [testNum])), (testKernel 0xb 1 0 0x0 [testNum] [testNum]), [testNum], [testNum],
   _, at_kernel (by decide +kernel) rfl rfl (by decide +kernel), by decide +kernel, by decide +kernel,
   by decide +kernel, except_ok (by decide +kernel), except_ok (by decide +kernel), by decide +kernel,
   rfl, can_write (by decide +kernel)⟩

theorem witness_BasicKernelsComplete_mac :
    ∃ (l : Fin 256) (r : Run) (k : Inv) (s : State) (xs : List Item) (ys : List Item) (rs : List Item),
      s.AtKernel (↑l) 12 r k ∧
        1 ≤ k.n ∧
          k.n ≤ 64 ∧
            k.items k.a k.n [tFLOAT] s = Except.ok xs ∧
              k.items k.b k.n [tFLOAT] s = Except.ok ys ∧
                rs =
                    List.map
                      (fun p =>
                        floatOf [p.1, p.2] [p.1.v, k.param, p.2.v] (f32.sum 12 [Term.prod p.1.v k.param, Term.num p.2.v]))
                      (xs.zip ys) ∧
                  k.CanGive rs :=
  ⟨0, testGraph, (testInv (testKernel 0xc 1 0 0x40000000 [testNum] [testNum])), (testKernel 0xc 1 0 0x40000000 [testNum] [testNum]), [testNum], [testNum],
   _, at_kernel (by decide +kernel) rfl rfl (by decide +kernel), by decide +kernel, by decide +kernel, except_ok (by decide +kernel), except_ok (by decide +kernel),
   rfl, can_write (by decide +kernel)⟩

theorem witness_BasicKernelsComplete_abs :
    ∃ (l : Fin 256) (r : Run) (k : Inv) (s : State) (xs : List Item) (rs : List Item),
      s.AtKernel (↑l) 13 r k ∧
        1 ≤ k.n ∧ k.n ≤ 64 ∧ k.items k.a k.n numTypes s = Except.ok xs ∧ rs = List.map absItem xs ∧ k.CanGive rs :=
  ⟨0, testGraph, (testInv (testKernel 0xd 1 0 0x0 [testNum] [])), (testKernel 0xd 1 0 0x0 [testNum] []), [testNum],
   _, at_kernel (by decide +kernel) rfl rfl (by decide +kernel), by decide +kernel, by decide +kernel, except_ok (by decide +kernel), rfl, can_write (by decide +kernel)⟩

theorem witness_BasicKernelsComplete_minmax :
    ∃ (l : Fin 256) (r : Run) (k : Inv) (s : State) (x : Item) (xs : List Item) (rs : List Item),
      s.AtKernel (↑l) 14 r k ∧
        2 ≤ k.n ∧
          k.n ≤ 64 ∧
            k.m ≤ 1 ∧
              k.items k.a k.n numTypes s = Except.ok (x :: xs) ∧
                (∀ y ∈ xs, y.t = x.t) ∧
                  rs = [List.foldl (fun a y => if (if k.m = 0 then itemLt y a else itemLt a y) = true then y else a) x xs] ∧
                    k.CanGive rs :=
  ⟨0, testGraph, (testInv (testKernel 0xe 2 1 0x0 [testNum, testNum] [])), (testKernel 0xe 2 1 0x0 [testNum, testNum] []), testNum, [testNum],
   _, at_kernel (by decide +kernel) rfl rfl (by decide +kernel), by decide +kernel, by decide +kernel, by decide +kernel, except_ok (by decide +kernel), by decide +kernel,
   rfl, can_write (by decide +kernel)⟩

theorem witness_BasicKernelsComplete_div :
    ∃ (l : Fin 256) (r : Run) (k : Inv) (s : State) (xs : List Item) (ys : List Item) (rs : List Item),
      s.AtKernel (↑l) 15 r k ∧
        1 ≤ k.n ∧
          k.n ≤ 64 ∧
            k.items k.a k.n numTypes s = Except.ok xs ∧
              k.items k.b k.n numTypes s = Except.ok ys ∧
                (∀ p ∈ xs.zip ys, p.1.t = p.2.t) ∧ rs = List.map (fun p => divItem k.param p.1 p.2) (xs.zip ys) ∧ k.CanGive rs :=
  ⟨0, testGraph, (testInv (testKernel 0xf 1 0 0x0 [testNum] [testNum])), (testKernel 0xf 1 0 0x0 [testNum] [testNum]), [testNum], [testNum],
   _, at_kernel (by decide +kernel) rfl rfl (by decide +kernel), by decide +kernel, by decide +kernel, except_ok (by decide +kernel), except_ok (by decide +kernel),
   by decide +kernel, rfl, can_write (by decide +kernel)⟩

theorem witness_BasicKernelsComplete_gath :
    ∃ (l : Fin 256) (r : Run) (k : Inv) (s : State) (rs : List Item) (d : List Byte) (op : List Byte) (ofs : Nat → Nat),
      s.AtKernel (↑l) 2 r k ∧
        1 ≤ k.n ∧
          k.n ≤ 64 ∧
            k.param % 16 < tOpN (s.task r.task) ∧
              op = k.operand (k.param % 16) s ∧
                sKind op = 1 ∧
                  k.data ((8 + 4 * k.n + 7) / 8 * 8) s = Except.ok d ∧
                    (leAt d 4 1 = 4 ∨ leAt d 4 1 = 8 ∨ leAt d 4 1 = 16) ∧
                      (ofs = fun i =>
                          leAt d 0 4 * 64 + (leAt d (8 + 4 * i) 2 * leAt d 4 1 + sValue op % 65536 % leAt d 4 1) * 64) ∧
                        (∀ i < k.n,
                            leAt d (8 + 4 * i + 2) 1 < 8 ∧
                              ofs i + 64 ≤ 524288 ∧
                                ∀ j < 8, s.ic.badWords.contains (addrCluster (↑l / 8) + ofs i + 8 * j) = false) ∧
                          rs =
                              List.map
                                (fun i =>
                                  gatherItem (s.old.load (addrCluster (↑l / 8) + ofs i) 64) (sValue op % 65536)
                                    (leAt d (8 + 4 * i + 2) 1) (entryAbsent op))
                                (List.range k.n) ∧
                            k.CanGive rs :=
  ⟨0, testGraph, (testInv testGather), testGather, _, testGatherData, _, _, at_kernel (by decide +kernel) rfl rfl (by decide +kernel), by decide +kernel,
   by decide +kernel, by decide +kernel, rfl, by decide +kernel, except_ok (by decide +kernel), by decide +kernel, rfl,
   by decide +kernel, rfl, can_write (by decide +kernel)⟩

theorem witness_BasicKernelsComplete_opnd :
    ∃ (l : Fin 256) (r : Run) (k : Inv) (s : State) (x : Item) (rs : List Item) (op : List Byte),
      s.AtKernel (↑l) 3 r k ∧
        k.param % 16 < tOpN (s.task r.task) ∧
          op = k.operand (k.param % 16) s ∧
            (sKind op = 2 → 1 ≤ bits k.param 7 4 ∧ bits k.param 7 4 ≤ 8) ∧
              x = opndItem op (bits k.param 7 4) ∧
                rs = [if x.ab = true then absentItem (absentType x.t (bits k.param 7 4)) x.q else x] ∧ k.CanGive rs :=
  ⟨0, testGraph, (testInv testOpnd), testOpnd, _, _, _, at_kernel (by decide +kernel) rfl rfl (by decide +kernel), by decide +kernel, rfl, by decide +kernel, rfl,
   rfl, can_write (by decide +kernel)⟩

/-! ### SignalKernelsComplete -/

theorem witness_SignalKernelsComplete_dft :
    ∃ (l : Fin 256) (r : Run) (k : Inv) (s : State) (xs : List Item) (d : List Byte) (z : List Item × List Byte),
      s.AtKernel (↑l) 16 r k ∧
        1 ≤ k.n ∧
          k.n ≤ 64 ∧
            16 ≤ k.param % 256 ∧
              k.param % 256 ≤ 192 ∧
                k.items k.a k.n [tFLOAT] s = Except.ok xs ∧
                  k.data (8 + (4 * (k.param % 256) + 48) * k.n) s = Except.ok d ∧
                    z =
                        eachWindow (4 * (k.param % 256) + 48)
                          (dftChannel 16 (k.param % 256) (k.param % 256)) (k.sampleTicks s) xs d ∧
                      k.CanGive z.1 :=
  ⟨0, testGraph, (testInv (testKernel 0x10 1 0 0x10 [testNum] [])), (testKernel 0x10 1 0 0x10 [testNum] []), [testNum], (List.replicate 120 0),
   _, at_kernel (by decide +kernel) rfl rfl (by decide +kernel), by decide +kernel, by decide +kernel, by decide +kernel,
   by decide +kernel, except_ok (by decide +kernel), except_ok (by decide +kernel), rfl, can_write (by decide +kernel)⟩

theorem witness_SignalKernelsComplete_hdft :
    ∃ (l : Fin 256) (r : Run) (k : Inv) (s : State) (xs : List Item) (d : List Byte) (z : List Item × List Byte),
      s.AtKernel (↑l) 17 r k ∧
        1 ≤ k.n ∧
          k.n ≤ 64 ∧
            16 ≤ k.param % 256 ∧
              k.param % 256 ≤ 192 ∧
                k.param % 2 = 0 ∧
                  k.items k.a k.n [tFLOAT] s = Except.ok xs ∧
                    k.data (8 + (4 * (k.param % 256 / 2) + 48) * k.n) s = Except.ok d ∧
                      z =
                          eachWindow (4 * (k.param % 256 / 2) + 48)
                            (dftChannel 17 (k.param % 256) (k.param % 256 / 2)) (k.sampleTicks s) xs d ∧
                        k.CanGive z.1 :=
  ⟨0, testGraph, (testInv (testKernel 0x11 1 0 0x10 [testNum] [])), (testKernel 0x11 1 0 0x10 [testNum] []), [testNum], (List.replicate 88 0),
   _, at_kernel (by decide +kernel) rfl rfl (by decide +kernel), by decide +kernel, by decide +kernel, by decide +kernel, by decide +kernel,
   by decide +kernel, except_ok (by decide +kernel), except_ok (by decide +kernel), rfl, can_write (by decide +kernel)⟩

theorem witness_SignalKernelsComplete_harm :
    ∃ (l : Fin 256) (r : Run) (k : Inv) (s : State) (xs : List Item) (d : List Byte) (z : List Item × List Byte),
      s.AtKernel (↑l) 18 r k ∧
        1 ≤ k.n ∧
          k.n ≤ 64 ∧
            16 ≤ k.param % 256 ∧
              k.param % 256 ≤ 192 ∧
                2 ≤ k.m ∧
                  k.m ≤ 15 ∧
                    k.items k.a k.n [tFLOAT] s = Except.ok xs ∧
                      k.data (8 + (4 * (k.param % 256) + 80) * k.n) s = Except.ok d ∧
                        z = eachWindow (4 * (k.param % 256) + 80) (harmChannel (k.param % 256) k.m) (k.sampleTicks s) xs d ∧
                          k.CanGive z.1 :=
  ⟨0, testGraph, (testInv (testKernel 0x12 1 2 0x10 [testNum] [])), (testKernel 0x12 1 2 0x10 [testNum] []), [testNum], (List.replicate 152 0),
   _, at_kernel (by decide +kernel) rfl rfl (by decide +kernel), by decide +kernel, by decide +kernel, by decide +kernel, by decide +kernel, by decide +kernel,
   by decide +kernel, except_ok (by decide +kernel), except_ok (by decide +kernel), rfl, can_write (by decide +kernel)⟩

theorem witness_SignalKernelsComplete_rms :
    ∃ (l : Fin 256) (r : Run) (k : Inv) (s : State) (xs : List Item) (d : List Byte) (z : List Item × List Byte),
      s.AtKernel (↑l) 19 r k ∧
        1 ≤ k.n ∧
          k.n ≤ 64 ∧
            16 ≤ k.param % 256 ∧
              k.param % 256 ≤ 192 ∧
                k.items k.a k.n [tFLOAT] s = Except.ok xs ∧
                  k.data (8 + (4 * (k.param % 256) + 16) * k.n) s = Except.ok d ∧
                    z = eachChannel (4 * (k.param % 256) + 16) (rmsChannel (k.param % 256) (leAt d 0 4)) xs d ∧ k.CanGive z.1 :=
  ⟨0, testGraph, (testInv (testKernel 0x13 1 0 0x10 [testNum] [])), (testKernel 0x13 1 0 0x10 [testNum] []), [testNum], (List.replicate 88 0),
   _, at_kernel (by decide +kernel) rfl rfl (by decide +kernel), by decide +kernel, by decide +kernel, by decide +kernel,
   by decide +kernel, except_ok (by decide +kernel), except_ok (by decide +kernel), rfl, can_write (by decide +kernel)⟩

theorem witness_SignalKernelsComplete_seq :
    ∃ (l : Fin 256) (r : Run) (k : Inv) (s : State) (x : Item) (y : Item) (w : Item) (rs : List Item) (seq : List Term × List Term → List Term × List Term → Item) (pos : Item → List Term × List Term) (neg : Item → List Term × List Term),
      s.AtKernel (↑l) 20 r k ∧
        k.items k.a 3 [tPHASOR] s = Except.ok [x, y, w] ∧
          (seq = fun b c =>
              phasorItem [x, y, w]
                (f32.divBy 20 (phasorSum 20 [plainTerms x, b, c]).1 (f32.ofInt 3),
                  f32.divBy 20 (phasorSum 20 [plainTerms x, b, c]).2 (f32.ofInt 3))) ∧
            (pos = fun i => timesTerms i minusHalf halfRoot3) ∧
              (neg = fun i => timesTerms i minusHalf (f32.neg halfRoot3)) ∧
                rs = [seq (plainTerms y) (plainTerms w), seq (pos y) (neg w), seq (neg y) (pos w)] ∧ k.CanGive rs :=
  ⟨0, testGraph, (testInv (testKernel 0x14 0 0 0x0 [testPhasor, testPhasor, testPhasor] [])), (testKernel 0x14 0 0 0x0 [testPhasor, testPhasor, testPhasor] []), testPhasor, testPhasor, testPhasor,
   _, _, _, _, at_kernel (by decide +kernel) rfl rfl (by decide +kernel), except_ok (by decide +kernel), rfl, rfl, rfl, rfl, can_write (by decide +kernel)⟩

theorem witness_SignalKernelsComplete_pwr :
    ∃ (l : Fin 256) (r : Run) (k : Inv) (s : State) (xs : List Item) (ys : List Item) (rs : List Item) (v : Nat × Nat),
      s.AtKernel (↑l) 21 r k ∧
        k.items k.a 3 [tPHASOR] s = Except.ok xs ∧
          k.items k.b 3 [tPHASOR] s = Except.ok ys ∧
            v = phasorSum 21 (List.map (fun p => timesTerms p.1 p.2.v (f32.neg p.2.w)) (xs.zip ys)) ∧
              rs =
                  [floatOf (xs ++ ys) (numsOf (xs ++ ys)) v.1, floatOf (xs ++ ys) (numsOf (xs ++ ys)) v.2,
                    floatOf (xs ++ ys) (numsOf (xs ++ ys)) (Config.numeric 21 (numsOf (xs ++ ys)) % 2 ^ 32)] ∧
                k.CanGive rs :=
  ⟨0, testGraph, (testInv (testKernel 0x15 0 0 0x0 [testPhasor, testPhasor, testPhasor] [testPhasor, testPhasor, testPhasor])), (testKernel 0x15 0 0 0x0 [testPhasor, testPhasor, testPhasor] [testPhasor, testPhasor, testPhasor]), [testPhasor, testPhasor, testPhasor], [testPhasor, testPhasor, testPhasor],
   _, _, at_kernel (by decide +kernel) rfl rfl (by decide +kernel), except_ok (by decide +kernel), except_ok (by decide +kernel), rfl,
   rfl, can_write (by decide +kernel)⟩

theorem witness_SignalKernelsComplete_freq :
    ∃ (l : Fin 256) (r : Run) (k : Inv) (s : State) (x : Item) (d : List Byte) (z : List Item × List Byte),
      s.AtKernel (↑l) 22 r k ∧
        1 ≤ k.m ∧
          k.m ≤ 96 ∧
            k.items k.a 1 [tPHASOR] s = Except.ok [x] ∧
              k.data (8 + 4 * k.m) s = Except.ok d ∧
                z =
                    ([floatOf [x] (numsOf [x]) (freqStep k.m r.tick x d).1],
                      if x.ab = true then d else (freqStep k.m r.tick x d).2) ∧
                  k.CanGive z.1 :=
  ⟨0, testGraph, (testInv (testKernel 0x16 0 1 0x0 [testPhasor] [])), (testKernel 0x16 0 1 0x0 [testPhasor] []), testPhasor, (List.replicate 12 0),
   _, at_kernel (by decide +kernel) rfl rfl (by decide +kernel), by decide +kernel, by decide +kernel, except_ok (by decide +kernel), except_ok (by decide +kernel),
   rfl, can_write (by decide +kernel)⟩

theorem witness_SignalKernelsComplete_rocof :
    ∃ (l : Fin 256) (r : Run) (k : Inv) (s : State) (x : Item) (d : List Byte) (z : List Item × List Byte),
      s.AtKernel (↑l) 23 r k ∧
        2 ≤ k.m ∧
          k.m ≤ 96 ∧
            k.items k.a 1 [tFLOAT] s = Except.ok [x] ∧
              k.data (8 + 4 * k.m) s = Except.ok d ∧
                z =
                    ([floatOf [x] (numsOf [x]) (rocofStep k.m r.tick x d).1],
                      if x.ab = true then d else (rocofStep k.m r.tick x d).2) ∧
                  k.CanGive z.1 :=
  ⟨0, testGraph, (testInv (testKernel 0x17 0 96 0x0 [testNum] [])), (testKernel 0x17 0 96 0x0 [testNum] []), testNum, (List.replicate 392 0),
   _, at_kernel (by decide +kernel) rfl rfl (by decide +kernel), by decide +kernel, by decide +kernel, except_ok (by decide +kernel), except_ok (by decide +kernel),
   rfl, can_write (by decide +kernel)⟩

theorem witness_SignalKernelsComplete_cplx :
    ∃ (l : Fin 256) (r : Run) (k : Inv) (s : State) (xs : List Item) (ys : List Item) (rs : List Item),
      s.AtKernel (↑l) 24 r k ∧
        1 ≤ k.n ∧
          k.n ≤ 64 ∧
            k.param ≤ 3 ∧
              k.items k.a k.n [tPHASOR] s = Except.ok xs ∧
                k.items k.b k.n [tPHASOR] s = Except.ok ys ∧
                  rs = List.map (fun p => cplxItem k.param p.1 p.2) (xs.zip ys) ∧ k.CanGive rs :=
  ⟨0, testGraph, (testInv (testKernel 0x18 1 0 0x3 [testPhasor] [testPhasor])), (testKernel 0x18 1 0 0x3 [testPhasor] [testPhasor]), [testPhasor], [testPhasor],
   _, at_kernel (by decide +kernel) rfl rfl (by decide +kernel), by decide +kernel, by decide +kernel,
   by decide +kernel, except_ok (by decide +kernel), except_ok (by decide +kernel), rfl, can_write (by decide +kernel)⟩

theorem witness_SignalKernelsComplete_polar :
    ∃ (l : Fin 256) (r : Run) (k : Inv) (s : State) (xs : List Item) (rs : List Item),
      s.AtKernel (↑l) 25 r k ∧
        1 ≤ k.n ∧
          k.n ≤ 64 ∧
            k.m ≤ 1 ∧
              k.items k.a k.n [tPHASOR] s = Except.ok xs ∧
                rs =
                    List.flatMap
                      (fun x =>
                        floatOf [x] [x.v, x.w] (f32.magnitude 25 x.v x.w) ::
                          if k.m = 1 then [floatOf [x] [x.v, x.w] (atan2 x.w x.v)] else [])
                      xs ∧
                  k.CanGive rs :=
  ⟨0, testGraph, (testInv (testKernel 0x19 1 1 0x0 [testPhasor] [])), (testKernel 0x19 1 1 0x0 [testPhasor] []), [testPhasor],
   _, at_kernel (by decide +kernel) rfl rfl (by decide +kernel), by decide +kernel, by decide +kernel, by decide +kernel, except_ok (by decide +kernel),
   rfl, can_write (by decide +kernel)⟩

theorem witness_SignalKernelsComplete_biq :
    ∃ (l : Fin 256) (r : Run) (k : Inv) (s : State) (xs : List Item) (d : List Byte) (z : List Item × List Byte),
      s.AtKernel (↑l) 26 r k ∧
        1 ≤ k.n ∧
          k.n ≤ 64 ∧
            k.items k.a k.n [tFLOAT] s = Except.ok xs ∧
              k.data (24 + 8 * k.n) s = Except.ok d ∧
                z = eachElement 8 (biqElement (slice d 0 24)) xs (d.drop 24) ∧ k.CanGive z.1 :=
  ⟨0, testGraph, (testInv (testKernel 0x1a 1 0 0x0 [testNum] [])), (testKernel 0x1a 1 0 0x0 [testNum] []), [testNum], (List.replicate 32 0),
   _, at_kernel (by decide +kernel) rfl rfl (by decide +kernel), by decide +kernel, by decide +kernel, except_ok (by decide +kernel), except_ok (by decide +kernel),
   rfl, can_write (by decide +kernel)⟩

theorem witness_SignalKernelsComplete_deriv :
    ∃ (l : Fin 256) (r : Run) (k : Inv) (s : State) (xs : List Item) (d : List Byte) (z : List Item × List Byte),
      s.AtKernel (↑l) 27 r k ∧
        1 ≤ k.n ∧
          k.n ≤ 64 ∧
            k.items k.a k.n [tFLOAT] s = Except.ok xs ∧
              k.data (8 * k.n) s = Except.ok d ∧ z = eachElement 8 (derivElement k.param) xs d ∧ k.CanGive z.1 :=
  ⟨0, testGraph, (testInv (testKernel 0x1b 1 0 0x0 [testNum] [])), (testKernel 0x1b 1 0 0x0 [testNum] []), [testNum], (List.replicate 8 0),
   _, at_kernel (by decide +kernel) rfl rfl (by decide +kernel), by decide +kernel, by decide +kernel, except_ok (by decide +kernel), except_ok (by decide +kernel),
   rfl, can_write (by decide +kernel)⟩

theorem witness_SignalKernelsComplete_psum :
    ∃ (l : Fin 256) (r : Run) (k : Inv) (s : State) (xs : List Item) (rs : List Item),
      s.AtKernel (↑l) 28 r k ∧
        1 ≤ k.n ∧
          k.n ≤ 64 ∧
            k.items k.a k.n [tPHASOR] s = Except.ok xs ∧
              rs = [phasorItem xs (phasorSum 28 (List.map plainTerms xs))] ∧ k.CanGive rs :=
  ⟨0, testGraph, (testInv (testKernel 0x1c 1 0 0x0 [testPhasor] [])), (testKernel 0x1c 1 0 0x0 [testPhasor] []), [testPhasor],
   _, at_kernel (by decide +kernel) rfl rfl (by decide +kernel), by decide +kernel, by decide +kernel, except_ok (by decide +kernel), rfl, can_write (by decide +kernel)⟩

theorem witness_SignalKernelsComplete_delay :
    ∃ (l : Fin 256) (r : Run) (k : Inv) (s : State) (xs : List Item) (d : List Byte) (z : List Item × List Byte),
      s.AtKernel (↑l) 29 r k ∧
        1 ≤ k.n ∧
          k.n ≤ 64 ∧
            1 ≤ k.m ∧
              k.m ≤ 255 ∧
                k.items k.a k.n [tBOOL, tDBPOS, tINT, tUINT, tFLOAT, tQUAL, tBITS] s = Except.ok xs ∧
                  k.data (8 + 8 * k.m * k.n) s = Except.ok d ∧
                    z = eachChannel (8 * k.m) (delayChannel k.m (leAt d 0 4)) xs d ∧ k.CanGive z.1 :=
  ⟨0, testGraph, (testInv (testKernel 0x1d 1 255 0x0 [testNum] [])), (testKernel 0x1d 1 255 0x0 [testNum] []), [testNum], (List.replicate 2048 0),
   _, at_kernel (by decide +kernel) rfl rfl (by decide +kernel), by decide +kernel, by decide +kernel, by decide +kernel,
   by decide +kernel, except_ok (by decide +kernel), except_ok (by decide +kernel), rfl, can_write (by decide +kernel)⟩

theorem witness_SignalKernelsComplete_integ :
    ∃ (l : Fin 256) (r : Run) (k : Inv) (s : State) (x : Item) (xs : List Item) (d : List Byte) (z : List Item × List Byte),
      s.AtKernel (↑l) 30 r k ∧
        1 ≤ k.n ∧
          k.n ≤ 64 ∧
            k.items k.a k.n [tFLOAT] s = Except.ok xs ∧
              k.items k.b 1 [tBOOL] s = Except.ok [x] ∧
                k.data (8 * k.n) s = Except.ok d ∧ z = eachElement 8 (integElement k.param x) xs d ∧ k.CanGive z.1 :=
  ⟨0, testGraph, (testInv (testKernel 0x1e 1 0 0x0 [testNum] [testTrue])), (testKernel 0x1e 1 0 0x0 [testNum] [testTrue]), testTrue, [testNum], (List.replicate 8 0),
   _, at_kernel (by decide +kernel) rfl rfl (by decide +kernel), by decide +kernel,
   by decide +kernel, except_ok (by decide +kernel), except_ok (by decide +kernel), except_ok (by decide +kernel),
   rfl, can_write (by decide +kernel)⟩

theorem witness_SignalKernelsComplete_mean :
    ∃ (l : Fin 256) (r : Run) (k : Inv) (s : State) (xs : List Item) (d : List Byte) (z : List Item × List Byte),
      s.AtKernel (↑l) 31 r k ∧
        1 ≤ k.n ∧
          k.n ≤ 64 ∧
            2 ≤ k.m ∧
              k.m ≤ 255 ∧
                k.items k.a k.n [tFLOAT] s = Except.ok xs ∧
                  k.data (8 + (4 * k.m + 8) * k.n) s = Except.ok d ∧
                    z = eachChannel (4 * k.m + 8) (meanChannel k.m (leAt d 0 4)) xs d ∧ k.CanGive z.1 :=
  ⟨0, testGraph, (testInv (testKernel 0x1f 1 2 0x0 [testNum] [])), (testKernel 0x1f 1 2 0x0 [testNum] []), [testNum], (List.replicate 24 0),
   _, at_kernel (by decide +kernel) rfl rfl (by decide +kernel), by decide +kernel, by decide +kernel, by decide +kernel,
   by decide +kernel, except_ok (by decide +kernel), except_ok (by decide +kernel), rfl, can_write (by decide +kernel)⟩

/-! ### ProtectionKernelsComplete -/

theorem witness_ProtectionKernelsComplete_diff :
    ∃ (l : Fin 256) (r : Run) (k : Inv) (s : State) (xs : List Item) (rs : List Item) (d : List Byte) (p : Policy) (ph : List (List Item)),
      s.AtKernel (↑l) 32 r k ∧
        2 ≤ k.n ∧
          k.n ≤ 32 ∧
            k.items k.a (3 * k.n) [tPHASOR] s = Except.ok xs ∧
              k.data 24 s = Except.ok d ∧
                p = policyOf k.qpol true xs ∧
                  ph = [phaseOf xs 0, phaseOf xs 1, phaseOf xs 2] ∧
                    (rs =
                        if p = Policy.run then
                          List.map (fun i => boolOf i (diffOperate d (idiffOf i) (biasOf i))) ph ++
                              List.map (fun i => floatOf i (numsOf i) (idiffOf i)) ph ++
                            List.map (fun i => floatOf i (numsOf i) (biasOf i)) ph
                        else
                          policyItems p
                            (List.map (fun i => (tBOOL, i)) ph ++ List.map (fun i => (tFLOAT, i)) ph ++
                              List.map (fun i => (tFLOAT, i)) ph)
                            [] (Config.kernelHeld [k.code, k.n, k.m, k.param] d)) ∧
                      k.CanGive rs :=
  ⟨0, testGraph, (testInv (testKernel 0x20 2 0 0x0 [testPhasor, testPhasor, testPhasor, testPhasor, testPhasor, testPhasor] [])), (testKernel 0x20 2 0 0x0 [testPhasor, testPhasor, testPhasor, testPhasor, testPhasor, testPhasor] []), [testPhasor, testPhasor, testPhasor, testPhasor, testPhasor, testPhasor],
   _, (List.replicate 24 0), _, _, at_kernel (by decide +kernel) rfl rfl (by decide +kernel), by decide +kernel,
   by decide +kernel, except_ok (by decide +kernel), except_ok (by decide +kernel), rfl, rfl, rfl, can_write (by decide +kernel)⟩

theorem witness_ProtectionKernelsComplete_rest :
    ∃ (l : Fin 256) (r : Run) (k : Inv) (s : State) (xs : List Item) (ys : List Item) (rs : List Item) (d : List Byte) (p : Policy) (above : List Bool) (ins : Item × Item → List Item),
      s.AtKernel (↑l) 33 r k ∧
        k.m ≤ 1 ∧
          k.items k.a 3 [tFLOAT] s = Except.ok xs ∧
            k.items k.b 3 [tFLOAT] s = Except.ok ys ∧
              k.data 16 s = Except.ok d ∧
                p = policyOf k.qpol true (xs ++ ys) ∧
                  above = List.map (fun q => f32.lt (leAt d 0 4) q.1.v || f32.lt (leAt d 4 4) q.2.v) (xs.zip ys) ∧
                    (ins = fun q => if k.m = 1 then xs ++ ys else [q.1, q.2]) ∧
                      (rs =
                          if p = Policy.run then
                            List.map (fun q => boolOf (ins q.1) (if k.m = 1 then above.any id else q.2))
                              ((xs.zip ys).zip above)
                          else
                            policyItems p (List.map (fun q => (tBOOL, ins q)) (xs.zip ys)) []
                              (Config.kernelHeld [k.code, k.n, k.m, k.param] d)) ∧
                        k.CanGive rs :=
  ⟨0, testGraph, (testInv (testKernel 0x21 0 1 0x0 [testNum, testNum, testNum] [testNum, testNum, testNum])), (testKernel 0x21 0 1 0x0 [testNum, testNum, testNum] [testNum, testNum, testNum]), [testNum, testNum, testNum], [testNum, testNum, testNum],
   _, (List.replicate 16 0), _, _, _, at_kernel (by decide +kernel) rfl rfl (by decide +kernel),
   by decide +kernel, except_ok (by decide +kernel), except_ok (by decide +kernel), except_ok (by decide +kernel), rfl, rfl, rfl,
   rfl, can_write (by decide +kernel)⟩

theorem witness_ProtectionKernelsComplete_imp :
    ∃ (l : Fin 256) (r : Run) (k : Inv) (s : State) (xs : List Item) (ys : List Item) (rs : List Item) (d : List Byte) (p : Policy),
      s.AtKernel (↑l) 34 r k ∧
        k.items k.a 3 [tPHASOR] s = Except.ok xs ∧
          k.items k.b 3 [tPHASOR] s = Except.ok ys ∧
            k.data 8 s = Except.ok d ∧
              p = policyOf k.qpol true (xs ++ ys) ∧
                (p = Policy.run ∧ rs = impLoops d xs ys ∨
                    p = Policy.hold ∧
                        rs =
                          List.map (fun q => { t := q.t, v := q.v, w := q.w, q := heldQ, ab := q.ab })
                            (openPhasors [] (Config.kernelHeld [k.code, k.n, k.m, k.param] d) 6) ∨
                      p = Policy.block ∧ rs = List.replicate 6 (blocked tPHASOR)) ∧
                  k.CanGive rs :=
  ⟨0, testGraph, (testInv (testKernel 0x22 0 0 0x0 [testPhasor, testPhasor, testPhasor] [testPhasor, testPhasor, testPhasor])), (testKernel 0x22 0 0 0x0 [testPhasor, testPhasor, testPhasor] [testPhasor, testPhasor, testPhasor]), [testPhasor, testPhasor, testPhasor], [testPhasor, testPhasor, testPhasor], (impLoops (List.replicate 8 0) [testPhasor, testPhasor, testPhasor] [testPhasor, testPhasor, testPhasor]), (List.replicate 8 0),
   _, at_kernel (by decide +kernel) rfl rfl (by decide +kernel), except_ok (by decide +kernel), except_ok (by decide +kernel), except_ok (by decide +kernel),
   rfl, Or.inl ⟨by decide +kernel, rfl⟩, can_write (by decide +kernel)⟩

theorem witness_ProtectionKernelsComplete_zone :
    ∃ (l : Fin 256) (r : Run) (k : Inv) (s : State) (xs : List Item) (rs : List Item) (d : List Byte),
      s.AtKernel (↑l) 35 r k ∧
        1 ≤ k.n ∧
          k.n ≤ 64 ∧
            k.items k.a k.n [tPHASOR] s = Except.ok xs ∧
              k.data 32 s = Except.ok d ∧
                rs =
                    List.flatMap (fun q => (k.openElement (policyOf k.qpol true xs) q.2 [tBOOL] [q.1] d).1)
                      (xs.zip (List.range xs.length)) ∧
                  k.CanGive rs :=
  ⟨0, testGraph, (testInv (testKernel 0x23 1 0 0x0 [testPhasor] [])), (testKernel 0x23 1 0 0x0 [testPhasor] []), [testPhasor],
   _, (List.replicate 32 0), at_kernel (by decide +kernel) rfl rfl (by decide +kernel), by decide +kernel,
   by decide +kernel, except_ok (by decide +kernel), except_ok (by decide +kernel), rfl, can_write (by decide +kernel)⟩

theorem witness_ProtectionKernelsComplete_dir :
    ∃ (l : Fin 256) (r : Run) (k : Inv) (s : State) (xs : List Item) (ys : List Item) (rs : List Item) (d : List Byte) (zs : List (List Item × List Byte)),
      s.AtKernel (↑l) 36 r k ∧
        1 ≤ k.n ∧
          k.n ≤ 64 ∧
            k.items k.a k.n [tPHASOR] s = Except.ok xs ∧
              k.items k.b k.n [tPHASOR] s = Except.ok ys ∧
                k.data (16 * k.n) s = Except.ok d ∧
                  zs =
                      List.map
                        (fun q =>
                          k.openElement (policyOf k.qpol true (xs ++ ys)) q.2 [tINT] [q.1.1, q.1.2] (slice d (16 * q.2) 16))
                        ((xs.zip ys).zip (List.range k.n)) ∧
                    rs = List.map dirValue (List.flatMap (fun q => q.1) zs) ∧ k.CanGive rs :=
  ⟨0, testGraph, (testInv (testKernel 0x24 1 0 0x0 [testPhasor] [testPhasor])), (testKernel 0x24 1 0 0x0 [testPhasor] [testPhasor]), [testPhasor], [testPhasor],
   _, (List.replicate 16 0), _, at_kernel (by decide +kernel) rfl rfl (by decide +kernel), by decide +kernel,
   by decide +kernel, except_ok (by decide +kernel), except_ok (by decide +kernel), except_ok (by decide +kernel), rfl,
   rfl, can_write (by decide +kernel)⟩

theorem witness_ProtectionKernelsComplete_cmp :
    ∃ (l : Fin 256) (r : Run) (k : Inv) (s : State) (xs : List Item) (d : List Byte) (z : List Item × List Byte),
      s.AtKernel (↑l) 37 r k ∧
        1 ≤ k.n ∧
          k.n ≤ 64 ∧
            k.m ≤ 1 ∧
              k.items k.a k.n numTypes s = Except.ok xs ∧
                k.data (16 * k.n) s = Except.ok d ∧
                  z = eachElement 16 (cmpElement (policyOf k.qpol true xs) k.m) xs d ∧ k.CanGive z.1 :=
  ⟨0, testGraph, (testInv (testKernel 0x25 1 0 0x0 [testNum] [])), (testKernel 0x25 1 0 0x0 [testNum] []), [testNum], (List.replicate 16 0),
   _, at_kernel (by decide +kernel) rfl rfl (by decide +kernel), by decide +kernel, by decide +kernel,
   by decide +kernel, except_ok (by decide +kernel), except_ok (by decide +kernel), rfl, can_write (by decide +kernel)⟩

theorem witness_ProtectionKernelsComplete_idmt :
    ∃ (l : Fin 256) (r : Run) (k : Inv) (s : State) (xs : List Item) (d : List Byte) (z : List Item × List Byte),
      s.AtKernel (↑l) 38 r k ∧
        1 ≤ k.n ∧
          k.n ≤ 64 ∧
            k.items k.a k.n [tFLOAT] s = Except.ok xs ∧
              k.data (24 * k.n) s = Except.ok d ∧
                (∀ i < k.n, leAt d (24 * i) 1 % 8 ≠ 7) ∧
                  z = eachElement 24 (idmtElement (policyOf k.qpol true xs) (k.tick s)) xs d ∧ k.CanGive z.1 :=
  ⟨0, testGraph, (testInv (testKernel 0x26 1 0 0x0 [testNum] [])), (testKernel 0x26 1 0 0x0 [testNum] []), [testNum], (List.replicate 24 0),
   _, at_kernel (by decide +kernel) rfl rfl (by decide +kernel), by decide +kernel, by decide +kernel, except_ok (by decide +kernel), except_ok (by decide +kernel),
   by decide +kernel, rfl, can_write (by decide +kernel)⟩

theorem witness_ProtectionKernelsComplete_therm :
    ∃ (l : Fin 256) (r : Run) (k : Inv) (s : State) (xs : List Item) (d : List Byte) (z : List Item × List Byte),
      s.AtKernel (↑l) 39 r k ∧
        k.items k.a 1 [tFLOAT] s = Except.ok xs ∧
          k.data 32 s = Except.ok d ∧ z = k.openWhole xs [tFLOAT, tBOOL, tBOOL] d ∧ k.CanGive z.1 :=
  ⟨0, testGraph, (testInv (testKernel 0x27 0 0 0x0 [testNum] [])), (testKernel 0x27 0 0 0x0 [testNum] []), [testNum], (List.replicate 32 0),
   _, at_kernel (by decide +kernel) rfl rfl (by decide +kernel), except_ok (by decide +kernel), except_ok (by decide +kernel), rfl, can_write (by decide +kernel)⟩

theorem witness_ProtectionKernelsComplete_sync :
    ∃ (l : Fin 256) (r : Run) (k : Inv) (s : State) (x : Item) (y : Item) (d : List Byte) (z : List Item × List Byte),
      s.AtKernel (↑l) 40 r k ∧
        k.items k.a 1 [tPHASOR] s = Except.ok [x] ∧
          k.items k.b 1 [tPHASOR] s = Except.ok [y] ∧
            k.data 40 s = Except.ok d ∧ z = k.syncStep x y d s ∧ k.CanGive z.1 :=
  ⟨0, testGraph, (testInv (testKernel 0x28 0 0 0x0 [testPhasor] [testPhasor])), (testKernel 0x28 0 0 0x0 [testPhasor] [testPhasor]), testPhasor, testPhasor, (List.replicate 40 0),
   _, at_kernel (by decide +kernel) rfl rfl (by decide +kernel), except_ok (by decide +kernel), except_ok (by decide +kernel), except_ok (by decide +kernel),
   rfl, can_write (by decide +kernel)⟩

theorem witness_ProtectionKernelsComplete_posn :
    ∃ (l : Fin 256) (r : Run) (k : Inv) (s : State) (xs : List Item) (rs : List Item) (d : List Byte) (zs : List (Item × Item × List Byte)),
      s.AtKernel (↑l) 41 r k ∧
        1 ≤ k.n ∧
          k.n ≤ 64 ∧
            k.items k.a k.n [tDBPOS] s = Except.ok xs ∧
              k.data (8 * k.n) s = Except.ok d ∧
                zs =
                    List.map (fun q => posnElement (policyOf k.qpol true xs) k.m (k.tick s) q.1 (slice d (8 * q.2) 8))
                      (xs.zip (List.range k.n)) ∧
                  rs = List.map (fun q => q.1) zs ++ List.map (fun q => q.2.1) zs ∧ k.CanGive rs :=
  ⟨0, testGraph, (testInv (testKernel 0x29 1 0 0x0 [{ t := tDBPOS, v := 2, q := 0 }] [])), (testKernel 0x29 1 0 0x0 [{ t := tDBPOS, v := 2, q := 0 }] []), [{ t := tDBPOS, v := 2, q := 0 }],
   _, (List.replicate 8 0), _, at_kernel (by decide +kernel) rfl rfl (by decide +kernel), by decide +kernel,
   by decide +kernel, except_ok (by decide +kernel), except_ok (by decide +kernel), rfl, rfl, can_write (by decide +kernel)⟩

theorem witness_ProtectionKernelsComplete_lock :
    ∃ (l : Fin 256) (r : Run) (k : Inv) (s : State) (xs : List Item) (ys : List Item) (d : List Byte) (z : List Item × List Byte),
      s.AtKernel (↑l) 42 r k ∧
        k.items k.a 1 [tFLOAT] s = Except.ok xs ∧
          k.items k.b 1 [tBOOL] s = Except.ok ys ∧
            k.data 32 s = Except.ok d ∧ z = k.openWhole (xs ++ ys) [tBOOL, tBOOL] d ∧ k.CanGive z.1 :=
  ⟨0, testGraph, (testInv (testKernel 0x2a 0 0 0x0 [testNum] [testTrue])), (testKernel 0x2a 0 0 0x0 [testNum] [testTrue]), [testNum], [testTrue], (List.replicate 32 0),
   _, at_kernel (by decide +kernel) rfl rfl (by decide +kernel), except_ok (by decide +kernel), except_ok (by decide +kernel), except_ok (by decide +kernel),
   rfl, can_write (by decide +kernel)⟩

theorem witness_ProtectionKernelsComplete_ref :
    ∃ (l : Fin 256) (r : Run) (k : Inv) (s : State) (xs : List Item) (ys : List Item) (d : List Byte) (z : List Item × List Byte),
      s.AtKernel (↑l) 43 r k ∧
        k.items k.a 3 [tPHASOR] s = Except.ok xs ∧
          k.items k.b 1 [tPHASOR] s = Except.ok ys ∧
            k.data 24 s = Except.ok d ∧ z = k.refStep (xs ++ ys) d ∧ k.CanGive z.1 :=
  ⟨0, testGraph, (testInv (testKernel 0x2b 0 0 0x0 [testPhasor, testPhasor, testPhasor] [testPhasor])), (testKernel 0x2b 0 0 0x0 [testPhasor, testPhasor, testPhasor] [testPhasor]), [testPhasor, testPhasor, testPhasor], [testPhasor], (List.replicate 24 0),
   _, at_kernel (by decide +kernel) rfl rfl (by decide +kernel), except_ok (by decide +kernel), except_ok (by decide +kernel), except_ok (by decide +kernel),
   rfl, can_write (by decide +kernel)⟩

theorem witness_ProtectionKernelsComplete_vhz :
    ∃ (l : Fin 256) (r : Run) (k : Inv) (s : State) (x : Item) (y : Item) (rs : List Item) (d : List Byte) (z : List Item × List Byte),
      s.AtKernel (↑l) 44 r k ∧
        k.items k.a 1 [tFLOAT] s = Except.ok [x] ∧
          k.items k.b 1 [tFLOAT] s = Except.ok [y] ∧
            k.data 32 s = Except.ok d ∧
              z = k.openWhole [x, y] [tFLOAT, tBOOL] d ∧
                (rs =
                    if policyOf k.qpol true [x, y] = Policy.run then
                      floatOf [x, y] (numsOf [x, y]) (f32.div x.v y.v) :: List.drop 1 z.1
                    else z.1) ∧
                  k.CanGive rs :=
  ⟨0, testGraph, (testInv (testKernel 0x2c 0 0 0x0 [testNum] [testNum])), (testKernel 0x2c 0 0 0x0 [testNum] [testNum]), testNum, testNum,
   _, (List.replicate 32 0), _, at_kernel (by decide +kernel) rfl rfl (by decide +kernel), except_ok (by decide +kernel), except_ok (by decide +kernel), except_ok (by decide +kernel), rfl,
   rfl, can_write (by decide +kernel)⟩

theorem witness_ProtectionKernelsComplete_capb :
    ∃ (l : Fin 256) (r : Run) (k : Inv) (s : State) (xs : List Item) (ys : List Item) (d : List Byte) (z : List Item × List Byte),
      s.AtKernel (↑l) 45 r k ∧
        k.items k.a 1 [tPHASOR] s = Except.ok xs ∧
          k.items k.b 1 [tPHASOR] s = Except.ok ys ∧
            k.data 32 s = Except.ok d ∧ z = k.openWhole (xs ++ ys) [tFLOAT, tBOOL, tBOOL] d ∧ k.CanGive z.1 :=
  ⟨0, testGraph, (testInv (testKernel 0x2d 0 0 0x0 [testPhasor] [testPhasor])), (testKernel 0x2d 0 0 0x0 [testPhasor] [testPhasor]), [testPhasor], [testPhasor], (List.replicate 32 0),
   _, at_kernel (by decide +kernel) rfl rfl (by decide +kernel), except_ok (by decide +kernel), except_ok (by decide +kernel), except_ok (by decide +kernel),
   rfl, can_write (by decide +kernel)⟩

theorem witness_ProtectionKernelsComplete_cnt :
    ∃ (l : Fin 256) (r : Run) (k : Inv) (s : State) (xs : List Item) (ys : List Item) (d : List Byte) (z : List Item × List Byte),
      s.AtKernel (↑l) 46 r k ∧
        1 ≤ k.n ∧
          k.n ≤ 64 ∧
            k.items k.a k.n [tBOOL] s = Except.ok xs ∧
              k.items k.b k.n [tBOOL] s = Except.ok ys ∧
                k.data (8 * k.n) s = Except.ok d ∧
                  z = eachPair 8 (cntElement (policyOf k.qpol true (xs ++ ys)) k.param) xs ys d ∧ k.CanGive z.1 :=
  ⟨0, testGraph, (testInv (testKernel 0x2e 1 0 0x0 [testTrue] [testTrue])), (testKernel 0x2e 1 0 0x0 [testTrue] [testTrue]), [testTrue], [testTrue], (List.replicate 8 0),
   _, at_kernel (by decide +kernel) rfl rfl (by decide +kernel), by decide +kernel,
   by decide +kernel, except_ok (by decide +kernel), except_ok (by decide +kernel), except_ok (by decide +kernel),
   rfl, can_write (by decide +kernel)⟩

theorem witness_ProtectionKernelsComplete_pwl :
    ∃ (l : Fin 256) (r : Run) (k : Inv) (s : State) (xs : List Item) (rs : List Item) (d : List Byte) (p : Policy),
      s.AtKernel (↑l) 47 r k ∧
        1 ≤ k.n ∧
          k.n ≤ 64 ∧
            2 ≤ k.m ∧
              k.m ≤ 16 ∧
                k.items k.a k.n [tFLOAT] s = Except.ok xs ∧
                  k.data (8 + 8 * k.m) s = Except.ok d ∧
                    p = policyOf k.qpol true xs ∧
                      (rs =
                          if p = Policy.run then List.map (fun q => floatOf [q] [q.v] (pwlValue k.m d q.v)) xs
                          else
                            policyItems p (List.map (fun q => (tFLOAT, [q])) xs) []
                              (Config.kernelHeld [k.code, k.n, k.m, k.param] d)) ∧
                        k.CanGive rs :=
  ⟨0, testGraph, (testInv (testKernel 0x2f 1 16 0x0 [testNum] [])), (testKernel 0x2f 1 16 0x0 [testNum] []), [testNum],
   _, (List.replicate 136 0), _, at_kernel (by decide +kernel) rfl rfl (by decide +kernel), by decide +kernel, by decide +kernel, by decide +kernel,
   by decide +kernel, except_ok (by decide +kernel), except_ok (by decide +kernel), rfl, rfl, can_write (by decide +kernel)⟩

/-! ### LogicKernelsComplete -/

theorem witness_LogicKernelsComplete_and :
    ∃ (l : Fin 256) (r : Run) (k : Inv) (s : State) (xs : List Item) (rs : List Item),
      s.AtKernel (↑l) 48 r k ∧
        2 ≤ k.n ∧
          k.n ≤ 64 ∧
            k.items k.a k.n [tBOOL] s = Except.ok xs ∧
              rs =
                  [if policyOf k.qpol false xs = Policy.block then blocked tBOOL
                    else resultOf xs tBOOL (b2n ((List.map (fun q => q.v != 0) xs).all id)) 0] ∧
                k.CanGive rs :=
  ⟨0, testGraph, (testInv (testKernel 0x30 2 0 0x0 [testTrue, testTrue] [])), (testKernel 0x30 2 0 0x0 [testTrue, testTrue] []), [testTrue, testTrue],
   _, at_kernel (by decide +kernel) rfl rfl (by decide +kernel), by decide +kernel, by decide +kernel, except_ok (by decide +kernel), rfl, can_write (by decide +kernel)⟩

theorem witness_LogicKernelsComplete_or :
    ∃ (l : Fin 256) (r : Run) (k : Inv) (s : State) (xs : List Item) (rs : List Item),
      s.AtKernel (↑l) 49 r k ∧
        2 ≤ k.n ∧
          k.n ≤ 64 ∧
            k.items k.a k.n [tBOOL] s = Except.ok xs ∧
              rs =
                  [if policyOf k.qpol false xs = Policy.block then blocked tBOOL
                    else resultOf xs tBOOL (b2n ((List.map (fun q => q.v != 0) xs).any id)) 0] ∧
                k.CanGive rs :=
  ⟨0, testGraph, (testInv (testKernel 0x31 2 0 0x0 [testTrue, testTrue] [])), (testKernel 0x31 2 0 0x0 [testTrue, testTrue] []), [testTrue, testTrue],
   _, at_kernel (by decide +kernel) rfl rfl (by decide +kernel), by decide +kernel, by decide +kernel, except_ok (by decide +kernel), rfl, can_write (by decide +kernel)⟩

theorem witness_LogicKernelsComplete_xor :
    ∃ (l : Fin 256) (r : Run) (k : Inv) (s : State) (xs : List Item) (rs : List Item),
      s.AtKernel (↑l) 50 r k ∧
        2 ≤ k.n ∧
          k.n ≤ 64 ∧
            k.items k.a k.n [tBOOL] s = Except.ok xs ∧
              rs =
                  [if policyOf k.qpol false xs = Policy.block then blocked tBOOL
                    else resultOf xs tBOOL ((List.filter id (List.map (fun q => q.v != 0) xs)).length % 2) 0] ∧
                k.CanGive rs :=
  ⟨0, testGraph, (testInv (testKernel 0x32 2 0 0x0 [testTrue, testTrue] [])), (testKernel 0x32 2 0 0x0 [testTrue, testTrue] []), [testTrue, testTrue],
   _, at_kernel (by decide +kernel) rfl rfl (by decide +kernel), by decide +kernel, by decide +kernel, except_ok (by decide +kernel), rfl, can_write (by decide +kernel)⟩

theorem witness_LogicKernelsComplete_not :
    ∃ (l : Fin 256) (r : Run) (k : Inv) (s : State) (xs : List Item) (rs : List Item),
      s.AtKernel (↑l) 51 r k ∧
        1 ≤ k.n ∧
          k.n ≤ 64 ∧
            k.items k.a k.n [tBOOL] s = Except.ok xs ∧
              rs =
                  List.map (fun q => if policyOf k.qpol false xs = Policy.block then blocked tBOOL else boolOf [q] (q.v == 0))
                    xs ∧
                k.CanGive rs :=
  ⟨0, testGraph, (testInv (testKernel 0x33 1 0 0x0 [testTrue] [])), (testKernel 0x33 1 0 0x0 [testTrue] []), [testTrue],
   _, at_kernel (by decide +kernel) rfl rfl (by decide +kernel), by decide +kernel, by decide +kernel, except_ok (by decide +kernel), rfl, can_write (by decide +kernel)⟩

theorem witness_LogicKernelsComplete_edge :
    ∃ (l : Fin 256) (r : Run) (k : Inv) (s : State) (xs : List Item) (rs : List Item) (d : List Byte) (es : List (Item × Bool)),
      s.AtKernel (↑l) 52 r k ∧
        1 ≤ k.n ∧
          k.n ≤ 64 ∧
            k.m ≤ 2 ∧
              k.items k.a k.n [tBOOL] s = Except.ok xs ∧
                k.data 8 s = Except.ok d ∧
                  es =
                      List.map (fun q => edgeElement (policyOf k.qpol true xs) k.m (bit (leAt d 0 8) q.2) q.1)
                        (xs.zip (List.range xs.length)) ∧
                    rs = List.map (fun q => q.1) es ∧ k.CanGive rs :=
  ⟨0, testGraph, (testInv (testKernel 0x34 1 2 0x0 [testTrue] [])), (testKernel 0x34 1 2 0x0 [testTrue] []), [testTrue],
   _, (List.replicate 8 0), _, at_kernel (by decide +kernel) rfl rfl (by decide +kernel), by decide +kernel, by decide +kernel,
   by decide +kernel, except_ok (by decide +kernel), except_ok (by decide +kernel), rfl, rfl, can_write (by decide +kernel)⟩

theorem witness_LogicKernelsComplete_latch :
    ∃ (l : Fin 256) (r : Run) (k : Inv) (s : State) (xs : List Item) (ys : List Item) (rs : List Item) (d : List Byte) (es : List (Item × Bool)),
      s.AtKernel (↑l) 53 r k ∧
        1 ≤ k.n ∧
          k.n ≤ 64 ∧
            k.m ≤ 1 ∧
              k.items k.a k.n [tBOOL] s = Except.ok xs ∧
                k.items k.b k.n [tBOOL] s = Except.ok ys ∧
                  k.data 8 s = Except.ok d ∧
                    es =
                        List.map
                          (fun q => latchElement (policyOf k.qpol true (xs ++ ys)) k.m (bit (leAt d 0 8) q.2) q.1.1 q.1.2)
                          ((xs.zip ys).zip (List.range k.n)) ∧
                      rs = List.map (fun q => q.1) es ∧ k.CanGive rs :=
  ⟨0, testGraph, (testInv (testKernel 0x35 1 1 0x0 [testTrue] [testTrue])), (testKernel 0x35 1 1 0x0 [testTrue] [testTrue]), [testTrue], [testTrue],
   _, (List.replicate 8 0), _, at_kernel (by decide +kernel) rfl rfl (by decide +kernel), by decide +kernel, by decide +kernel,
   by decide +kernel, except_ok (by decide +kernel), except_ok (by decide +kernel), except_ok (by decide +kernel), rfl,
   rfl, can_write (by decide +kernel)⟩

theorem witness_LogicKernelsComplete_vote :
    ∃ (l : Fin 256) (r : Run) (k : Inv) (s : State) (xs : List Item) (rs : List Item),
      s.AtKernel (↑l) 54 r k ∧
        1 ≤ k.m ∧
          k.m ≤ k.n ∧
            1 ≤ k.n ∧
              k.n ≤ 64 ∧
                k.items k.a k.n [tBOOL] s = Except.ok xs ∧
                  rs =
                      [if policyOf k.qpol false xs = Policy.block then blocked tBOOL
                        else
                          resultOf xs tBOOL (b2n (decide (k.m ≤ (List.filter id (List.map (fun q => q.v != 0) xs)).length)))
                            0] ∧
                    k.CanGive rs :=
  ⟨0, testGraph, (testInv (testKernel 0x36 2 2 0x0 [testTrue, testTrue] [])), (testKernel 0x36 2 2 0x0 [testTrue, testTrue] []), [testTrue, testTrue],
   _, at_kernel (by decide +kernel) rfl rfl (by decide +kernel), by decide +kernel, by decide +kernel, by decide +kernel, by decide +kernel, except_ok (by decide +kernel),
   rfl, can_write (by decide +kernel)⟩

theorem witness_LogicKernelsComplete_pack :
    ∃ (l : Fin 256) (r : Run) (k : Inv) (s : State) (xs : List Item) (rs : List Item),
      s.AtKernel (↑l) 55 r k ∧
        1 ≤ k.n ∧
          k.n ≤ 32 ∧
            k.items k.a k.n [tBOOL] s = Except.ok xs ∧
              rs =
                  [if policyOf k.qpol false xs = Policy.block then blocked tBITS
                    else resultOf xs tBITS (packBits (List.map (fun q => q.v != 0) xs)) 0] ∧
                k.CanGive rs :=
  ⟨0, testGraph, (testInv (testKernel 0x37 2 0 0x0 [testTrue, testTrue] [])), (testKernel 0x37 2 0 0x0 [testTrue, testTrue] []), [testTrue, testTrue],
   _, at_kernel (by decide +kernel) rfl rfl (by decide +kernel), by decide +kernel, by decide +kernel, except_ok (by decide +kernel), rfl, can_write (by decide +kernel)⟩

theorem witness_LogicKernelsComplete_ton :
    ∃ (l : Fin 256) (r : Run) (k : Inv) (s : State) (xs : List Item) (d : List Byte) (z : List Item × List Byte),
      s.AtKernel (↑l) 56 r k ∧
        1 ≤ k.n ∧
          k.n ≤ 64 ∧
            k.items k.a k.n [tBOOL] s = Except.ok xs ∧
              k.data (16 * k.n) s = Except.ok d ∧
                z = eachElement 16 (timerElement (policyOf k.qpol true xs) 56 k.param (k.tick s)) xs d ∧ k.CanGive z.1 :=
  ⟨0, testGraph, (testInv (testKernel 0x38 1 0 0x5 [testTrue] [])), (testKernel 0x38 1 0 0x5 [testTrue] []), [testTrue], (List.replicate 16 0),
   _, at_kernel (by decide +kernel) rfl rfl (by decide +kernel), by decide +kernel, by decide +kernel, except_ok (by decide +kernel), except_ok (by decide +kernel),
   rfl, can_write (by decide +kernel)⟩

theorem witness_LogicKernelsComplete_tof :
    ∃ (l : Fin 256) (r : Run) (k : Inv) (s : State) (xs : List Item) (d : List Byte) (z : List Item × List Byte),
      s.AtKernel (↑l) 57 r k ∧
        1 ≤ k.n ∧
          k.n ≤ 64 ∧
            k.items k.a k.n [tBOOL] s = Except.ok xs ∧
              k.data (16 * k.n) s = Except.ok d ∧
                z = eachElement 16 (timerElement (policyOf k.qpol true xs) 57 k.param (k.tick s)) xs d ∧ k.CanGive z.1 :=
  ⟨0, testGraph, (testInv (testKernel 0x39 1 0 0x5 [testTrue] [])), (testKernel 0x39 1 0 0x5 [testTrue] []), [testTrue], (List.replicate 16 0),
   _, at_kernel (by decide +kernel) rfl rfl (by decide +kernel), by decide +kernel, by decide +kernel, except_ok (by decide +kernel), except_ok (by decide +kernel),
   rfl, can_write (by decide +kernel)⟩

theorem witness_LogicKernelsComplete_tpls :
    ∃ (l : Fin 256) (r : Run) (k : Inv) (s : State) (xs : List Item) (d : List Byte) (z : List Item × List Byte),
      s.AtKernel (↑l) 58 r k ∧
        1 ≤ k.n ∧
          k.n ≤ 64 ∧
            k.items k.a k.n [tBOOL] s = Except.ok xs ∧
              k.data (16 * k.n) s = Except.ok d ∧
                z = eachElement 16 (timerElement (policyOf k.qpol true xs) 58 k.param (k.tick s)) xs d ∧ k.CanGive z.1 :=
  ⟨0, testGraph, (testInv (testKernel 0x3a 1 0 0x5 [testTrue] [])), (testKernel 0x3a 1 0 0x5 [testTrue] []), [testTrue], (List.replicate 16 0),
   _, at_kernel (by decide +kernel) rfl rfl (by decide +kernel), by decide +kernel, by decide +kernel, except_ok (by decide +kernel), except_ok (by decide +kernel),
   rfl, can_write (by decide +kernel)⟩

theorem witness_LogicKernelsComplete_tarm :
    ∃ (l : Fin 256) (r : Run) (k : Inv) (s : State) (x : Item) (a : ArmReq),
      s.AtKernel (↑l) 59 r k ∧
        k.param < 16384 ∧
          k.items k.a 1 [tUINT] s = Except.ok [x] ∧
            mVi (s.timer k.param).bytes = r.vi ∧
              a =
                { made := 0, due := 0, arm := true, timer := k.param, delay := x.v, gen := r.gen, who := ↑l,
                  inst := k.armInst s } :=
  ⟨0, testGraph, (testInv { testKernel 0x3B 0 0 9 [{ t := tUINT, v := 50, q := 0 }] [] with ds := { timers := [(9, { bytes := leBytes 16 3 })] } }), { testKernel 0x3B 0 0 9 [{ t := tUINT, v := 50, q := 0 }] [] with ds := { timers := [(9, { bytes := leBytes 16 3 })] } }, { t := tUINT, v := 50, q := 0 },
   _, at_kernel (by decide +kernel) rfl rfl (by decide +kernel), by decide +kernel, except_ok (by decide +kernel), by decide +kernel, rfl⟩

theorem witness_LogicKernelsComplete_tcan :
    ∃ (l : Fin 256) (r : Run) (k : Inv) (s : State),
      s.AtKernel (↑l) 60 r k ∧ k.param < 16384 ∧ mVi (s.timer k.param).bytes = r.vi :=
  ⟨0, testGraph, (testInv { testKernel 0x3C 0 0 9 [] [] with ds := { timers := [(9, { bytes := leBytes 16 3 })] } }), { testKernel 0x3C 0 0 9 [] [] with ds := { timers := [(9, { bytes := leBytes 16 3 })] } }, at_kernel (by decide +kernel) rfl rfl (by decide +kernel),
   by decide +kernel⟩

theorem witness_LogicKernelsComplete_post :
    ∃ (l : Fin 256) (r : Run) (k : Inv) (s : State) (d : List Byte) (u : List Byte),
      s.AtKernel (↑l) 61 r k ∧
        k.param < 32768 ∧ k.unit k.a 0 s = Except.ok d ∧ u = (Option.map forcedUnit (k.force 4 k.param 0 s)).getD ((canonUnits 0 [d]).headD d) :=
  ⟨0, testGraph, (testInv (testKernel 0x3d 0 0 0x7fff [testNum] [])), (testKernel 0x3d 0 0 0x7fff [testNum] []), testNum.units.flatten,
   _, at_kernel (by decide +kernel) rfl rfl (by decide +kernel), by decide +kernel, except_ok (by decide +kernel), rfl⟩

theorem witness_LogicKernelsComplete_pub :
    ∃ (l : Fin 256) (r : Run) (k : Inv) (s : State) (xs : List Item) (u : List Byte) (items : List PubItem),
      s.AtKernel (↑l) 62 r k ∧
        1 ≤ k.n ∧
          k.n ≤ 64 ∧
            k.param ≤ 2111 ∧
              k.itemsFrom k.a s k.n 0 = Except.ok xs ∧
                items =
                    List.map (fun q => (Option.map forcedPub (k.force 2 k.param q.2 s)).getD q.1.canon.pub)
                      (xs.zip (List.range xs.length)) ∧
                  u =
                    List.flatMap (fun q => (Option.map forcedUnit (k.force 2 k.param q.2 s)).getD q.1.canon.units.flatten)
                      (xs.zip (List.range xs.length)) :=
  ⟨0, testGraph, (testInv (testKernel 0x3e 1 0 0x83f [testNum] [])), (testKernel 0x3e 1 0 0x83f [testNum] []), [testNum], _,
   _, at_kernel (by decide +kernel) rfl rfl (by decide +kernel), by decide +kernel, by decide +kernel, by decide +kernel, except_ok (by decide +kernel), rfl, rfl⟩

theorem witness_LogicKernelsComplete_trip :
    ∃ (l : Fin 256) (r : Run) (k : Inv) (s : State) (x : Item),
      s.AtKernel (↑l) 63 r k ∧ k.param % 16 ≤ 11 ∧ k.items k.a 1 [tBOOL] s = Except.ok [x] :=
  ⟨0, testGraph, (testInv (testKernel 0x3f 0 0 0xb [testTrue] [])), (testKernel 0x3f 0 0 0xb [testTrue] []), testTrue, at_kernel (by decide +kernel) rfl rfl (by decide +kernel),
   by decide +kernel, except_ok (by decide +kernel)⟩

/-! ### KernelFaultsAndSkips -/

theorem witness_KernelFaultsAndSkips_body :
    ∃ (l : Fin 256) (r : Run) (k : Inv) (c : Nat) (code : Nat) (body : Inv → State → Except Nat State) (s : State),
      s.AtKernel (↑l) code r k ∧ body k s = Except.error c :=
  ⟨0, testGraph, (testInv (testKernel 9 65 0 0 [] [])), 4, 9, (arithBody f32.add (· + ·)), (testKernel 9 65 0 0 [] []), at_kernel (by decide +kernel) rfl rfl (by decide +kernel), except_error (by decide +kernel)⟩

theorem witness_KernelFaultsAndSkips_add :
    ∃ (l : Fin 256) (r : Run) (k : Inv) (c : Nat) (s : State),
      s.AtKernel (↑l) 9 r k ∧ arithBody f32.add (fun x1 x2 => x1 + x2) k s = Except.error c :=
  ⟨0, testGraph, (testInv (testKernel 9 65 0 0 [] [])), 4, (testKernel 9 65 0 0 [] []), at_kernel (by decide +kernel) rfl rfl (by decide +kernel), except_error (by decide +kernel)⟩

theorem witness_KernelFaultsAndSkips_dft :
    ∃ (l : Fin 256) (r : Run) (k : Inv) (c : Nat) (s : State),
      s.AtKernel (↑l) 16 r k ∧ dftBody false k s = Except.error c :=
  ⟨0, testGraph, (testInv (testKernel 0x10 65 0 16 [] [])), 4, (testKernel 0x10 65 0 16 [] []), at_kernel (by decide +kernel) rfl rfl (by decide +kernel), except_error (by decide +kernel)⟩

theorem witness_KernelFaultsAndSkips_diff :
    ∃ (l : Fin 256) (r : Run) (k : Inv) (c : Nat) (s : State),
      s.AtKernel (↑l) 32 r k ∧ diffBody k s = Except.error c :=
  ⟨0, testGraph, (testInv (testKernel 0x20 1 0 0 [] [])), 4, (testKernel 0x20 1 0 0 [] []), at_kernel (by decide +kernel) rfl rfl (by decide +kernel), except_error (by decide +kernel)⟩

theorem witness_KernelFaultsAndSkips_and :
    ∃ (l : Fin 256) (r : Run) (k : Inv) (c : Nat) (s : State),
      s.AtKernel (↑l) 48 r k ∧ gateBody 2 64 tBOOL (fun x => b2n (x.all id)) k s = Except.error c :=
  ⟨0, testGraph, (testInv (testKernel 0x30 1 0 0 [] [])), 4, (testKernel 0x30 1 0 0 [] []), at_kernel (by decide +kernel) rfl rfl (by decide +kernel), except_error (by decide +kernel)⟩

theorem witness_KernelFaultsAndSkips_fault :
    ∃ (l : Fin 256) (r : Run) (s : State),
      s.laneRun ↑l = some r :=
  ⟨0, testGraph, (testKernel 0x30 1 0 0 [] []), by decide +kernel⟩

theorem witness_KernelFaultsAndSkips_skip :
    ∃ (l : Fin 256) (r : Run) (k : Inv) (code : Nat) (s : State),
      s.laneRun ↑l = some r ∧
        k = s.old.invocation (↑l) r ∧
          s.fetchFault (↑l) r = none ∧
            k.code = code ∧
              r.ended = false ∧
                r.stopped = false ∧
                  0 < r.skip ∧ r.next + kernelCycles code k.n ≤ s.cyc + 1 ∧ r.next + kernelCycles code k.n ≤ r.start + r.cost :=
  ⟨0, { testGraph with skip := 2 }, (State.invocation (State.old ({ testKernel 9 2 0 0 [] [] with ln := { runs := [(0, { testGraph with skip := 2 })] } })) 0 { testGraph with skip := 2 }), 9, { testKernel 9 2 0 0 [] [] with ln := { runs := [(0, { testGraph with skip := 2 })] } },
   by decide +kernel⟩

/-! ### KernelResultsFrame -/

theorem witness_KernelResultsFrame :
    ∃ (k : Inv) (ref : Nat) (us : List (List Byte)) (s : State) (t : State),
      k.write ref us s = Except.ok t :=
  ⟨(testInv (testKernel 9 1 0 0 [] [])), 0x300, testNum.units, (testKernel 9 1 0 0 [] []), ((testKernel 9 1 0 0 [] []).laneStore 0 (addrLane 0 + 0x1800) (testNum.units.getD 0 [])), except_ok (by decide +kernel)⟩

/-! ### ArithmeticAndGateResults -/

theorem witness_ArithmeticAndGateResults_int :
    ∃ (a : Item) (b : Item),
      a.t = tINT ∧ a.ab = false ∧ b.ab = false :=
  ⟨{ t := tINT, v := 0x7FFFFFFF, q := 0 }, { t := tINT, v := 1, q := 0 }, by decide +kernel⟩

theorem witness_ArithmeticAndGateResults_uint :
    ∃ (a : Item) (b : Item),
      a.t = tUINT ∧ a.ab = false ∧ b.ab = false :=
  ⟨{ t := tUINT, v := 0, q := 0 }, { t := tUINT, v := 1, q := 0 }, by decide +kernel⟩

theorem witness_ArithmeticAndGateResults_absent :
    ∃ (a : Item) (b : Item),
      a.t = tINT ∧ (a.ab = true ∨ b.ab = true) :=
  ⟨{ t := tINT, v := 5, q := 0, ab := true }, { t := tINT, v := 1, q := 0 }, by decide +kernel⟩

theorem witness_ArithmeticAndGateResults_gate :
    ∃ (k : Inv) (xs : List Item) (s : State),
      2 ≤ k.n ∧ k.n ≤ 64 ∧ k.items k.a k.n [tBOOL] s = Except.ok xs ∧ k.qpol = 0 ∧ ∀ x ∈ xs, x.ab = false :=
  ⟨(testInv (testKernel 0x30 2 0 0 [testTrue, testTrue] [])), [testTrue, testTrue], (testKernel 0x30 2 0 0 [testTrue, testTrue] []),
   by decide +kernel, by decide +kernel, except_ok (by decide +kernel), by decide +kernel⟩

/-- A control block of instance 3, valid for `w` = 0x8000. -/
def testCb (w : Nat) : List Byte := splice (List.replicate 64 0) 0 (leBytes 2 (w + 3))

/-- A build request for block `cb`, and a frame built for it. -/
def testBuild (cb : Nat) : Build := { cb := cb, fg := false, hand := 900, vi := 3, gen := 0 }

def testBuilt (cb entry : Nat) (held bad : Bool) : Built :=
  { pipe := 4, cb := cb, vi := 3, gen := 0, octets := testOctets 0x88B8, start := 800, done := 979, entry := entry, held := held, keyBad := bad, sq := 6 }

/-! ### PublicationEvents -/

theorem witness_PublicationEvents_build :
    ∃ (fg : Bool) (j : Build) (rest : List Build) (p : Nat) (s : State) (u : State),
      s.runs 6 = true ∧
        (if fg = true then s.pb.fg else s.pb.bg) = j :: rest ∧
          List.find? (fun p => !s.pipeBusy p s.cyc) (s.pipesOf fg) = some p ∧
            j.hand < s.cyc ∧
              u =
                { s with pb := if fg = true then { s.pb with fg := rest } else { s.pb with bg := rest } } :=
  ⟨false, (testBuild 5), [], 4, { testUp [] with cyc := 1000, pb := { bg := [testBuild 5], cbs := [(5, { bytes := testCb 0x8000 })] } },
   _, by decide +kernel, by decide +kernel, by decide +kernel, by decide +kernel, rfl⟩

theorem witness_PublicationEvents_entry :
    ∃ (pipe : Fin 6) (x : Built) (s : State),
      s.runs 6 = true ∧ List.find? (fun x => x.pipe == ↑pipe && !x.held && decide (x.entry ≤ s.cyc)) s.pb.built = some x :=
  ⟨4, (testBuilt 5 980 false false), { testUp [] with cyc := 1000, pb := { built := [testBuilt 5 980 false false] } },
   by decide +kernel⟩

theorem witness_PublicationEvents_release :
    ∃ (k : Fin 64) (x : Built) (s : State),
      s.runs 6 = true ∧ List.find? (fun x => x.cb == 2048 + k.val && x.held && decide (x.entry ≤ s.cyc)) s.pb.built = some x :=
  ⟨63, (testBuilt 2111 980 true false), { testUp [] with cyc := 1000, pb := { built := [testBuilt 2111 980 true false] } },
   by decide +kernel⟩

theorem witness_PublicationEvents_noKey :
    ∃ (x : Built) (s : State) (u : State),
      u =
          { s with pb := { s.pb with cbs := aput s.pb.cbs x.cb { s.cb x.cb with lastSq := x.sq }, built := s.pb.built.erase x } } ∧
        x.keyBad = true :=
  ⟨(testBuilt 5 980 false true), (testUp []), _, rfl, by decide +kernel⟩

theorem witness_PublicationEvents_gated :
    ∃ (x : Built) (s : State) (u : State),
      u =
          { s with pb := { s.pb with cbs := aput s.pb.cbs x.cb { s.cb x.cb with lastSq := x.sq }, built := s.pb.built.erase x } } ∧
        x.keyBad = false ∧ s.gate = false :=
  ⟨(testBuilt 5 980 false false), (testUp []), _, rfl, by decide +kernel⟩

theorem witness_PublicationEvents_tokens :
    ∃ (x : Built) (s : State) (u : State),
      u =
          { s with pb := { s.pb with cbs := aput s.pb.cbs x.cb { s.cb x.cb with lastSq := x.sq }, built := s.pb.built.erase x } } ∧
        x.keyBad = false ∧ s.gate = true ∧ s.tokens x.vi < 0 :=
  ⟨(testBuilt 5 980 false false), { testUp [(PB_STATUS_GATE_OPEN, 1)] with pb := { level := [(3, -1)] } }, _, rfl,
   by decide +kernel⟩

theorem witness_PublicationEvents_retransmission :
    ∃ (cb : Fin 2048) (a : Nat) (us : Nat) (items : List PubItem) (s : State) (u : State),
      s.runs 6 = true ∧
        s.on PB_CTRL_EN = true ∧
          cbValid (s.cb ↑cb).bytes = true ∧
            (s.cb ↑cb).at' = some a ∧
              (s.cb ↑cb).items = some items ∧
                a < s.now ∧
                  us = retxUs (s.cb ↑cb).bytes ((s.cb ↑cb).nth + 1) ∧
                    u =
                        (s.notePub ↑cb).setCb (↑cb)
                          { s.cb ↑cb with
                            sq := ((s.cb ↑cb).sq + 1) % 2 ^ 32, nth := (s.cb ↑cb).nth + 1, at' := some (a + us * (1000 * 2 ^ 40)) } ∧
                      s.pb.retx = [] :=
  ⟨2047, 9,
   _, [], { testUp [(PB_CTRL_EN, 1)] with clk := { tb := [(1, { val := 10 })] }, pb := { cbs := [(2047, { bytes := testCb 0x8000, at' := some 9, items := some [] })] } },
   _, by decide +kernel, by decide +kernel, by decide +kernel, by decide +kernel, by decide +kernel, by decide +kernel, rfl, rfl,
   by decide +kernel⟩

theorem witness_PublicationEvents_disabled :
    ∃ (cb : Fin 2048) (a : Nat) (items : List PubItem) (s : State),
      s.on PB_CTRL_EN = false ∧ cbValid (s.cb ↑cb).bytes = true ∧ (s.cb ↑cb).at' = some a ∧ (s.cb ↑cb).items = some items ∧ a < s.now :=
  ⟨2047, 9, [], { testUp [] with clk := { tb := [(1, { val := 10 })] }, pb := { cbs := [(2047, { bytes := testCb 0x8000, at' := some 9, items := some [] })] } },
   by decide +kernel⟩

theorem witness_PublicationEvents_minOn :
    ∃ (k : Fin 12) (s : State),
      s.runs 6 = true ∧
        (s.trip ↑k).clearDue = true ∧
          (s.trip ↑k).setAt + s.rd (PB_TRIP_MIN_ON_MS.i ↑k) * (1000000 * 2 ^ 40) ≤ s.clk.lapse ∧
            s.on (PB_TRIP_CMD.i ↑k) = true :=
  ⟨11, { testUp [(PB_TRIP_CMD.i 11, 1)] with pb := { trips := [(11, { clearDue := true })] } }, by decide +kernel⟩

theorem witness_PublicationEvents_refresh :
    ∃ (k : Fin 12) (s : State),
      s.runs 6 = true ∧
        s.rd (PB_TRIP_REFRESH_TK.i ↑k) ≠ 0 ∧
          (s.trip ↑k).watch = true ∧ (s.trip ↑k).last + s.rd (PB_TRIP_REFRESH_TK.i ↑k) < s.clk.raised :=
  ⟨11, { testUp [(PB_TRIP_CMD.i 11, 1), (PB_TRIP_REFRESH_TK.i 11, 5)] with clk := { raised := 6 }, pb := { trips := [(11, { watch := true })] } },
   by decide +kernel⟩

/-! ### PublicationRegisterCommands -/

theorem witness_PublicationRegisterCommands_read :
    ∃ (req : Requester) (n : Nat) (s : State),
      s.Writer req ∧ s.dom 6 = 1 ∧ n = min 2111 (s.rd PB_CB_IDX_IDX) :=
  ⟨(.core 0), _, (testUp []), core_writer (by decide +kernel), by decide +kernel, rfl⟩

theorem witness_PublicationRegisterCommands_write :
    ∃ (req : Requester) (n : Nat) (s : State) (b : List Byte),
      s.Writer req ∧
        s.dom 6 = 1 ∧
          n = min 2111 (s.rd PB_CB_IDX_IDX) ∧
            b = cbStored (s.dataBytes 6291520 16) ∧ (cbValid (s.cb n).bytes = false ∨ cbFixed (s.cb n).bytes = cbFixed b) :=
  ⟨(.core 0), _, (testUp [(PB_CB_IDX_IDX, 5)]), _, core_writer (by decide +kernel), by decide +kernel, rfl, rfl, by decide +kernel⟩

theorem witness_PublicationRegisterCommands_refused :
    ∃ (req : Requester) (n : Nat) (s : State) (b : List Byte),
      s.Writer req ∧
        s.dom 6 = 1 ∧
          n = min 2111 (s.rd PB_CB_IDX_IDX) ∧
            b = cbStored (s.dataBytes 6291520 16) ∧ cbValid (s.cb n).bytes = true ∧ cbFixed (s.cb n).bytes ≠ cbFixed b :=
  ⟨(.core 0), _, { testUp [(PB_CB_IDX_IDX, 5)] with pb := { cbs := [(5, { bytes := testCb 0x8000 })] } },
   _, core_writer (by decide +kernel), by decide +kernel, rfl, rfl, by decide +kernel⟩

theorem witness_PublicationRegisterCommands_latch :
    ∃ (req : Requester) (n : Nat) (s : State) (v : Word) (c : Cb) (a : Nat),
      s.Writer req ∧
        s.dom 6 = 1 ∧
          n = min 2111 (s.rd PB_CB_IDX_IDX) ∧
            c = s.cb (min 2111 (BitVec.toNat v % 4096)) ∧ a = 55574528 + min 2111 (BitVec.toNat v % 4096) * 16 :=
  ⟨(.core 0), _, { testUp [] with pb := { cbs := [(5, { bytes := testCb 0xC000, lastSmp := 44 })] } }, 5, _,
   _, core_writer (by decide +kernel), by decide +kernel, rfl, rfl, rfl⟩

/-- A program of instance 3 in state `st` whose one task is `t`, with one point at address 0 and a boundary in each triad. -/
def testPrg (st t : Nat) : List Byte :=
  leBytes 2 (st * 16384 + 3) ++ leBytes 2 t ++ [1, 1] ++ List.replicate 36 0 ++ leBytes 2 1 ++ List.replicate 20 0

/-- A module with the programs `l`. -/
def testLogic (l : List (Nat × Nat × Nat)) (g : Lg := {}) : State :=
  { testUp [(LG_CTRL_EN, 1)] with
    cyc := 1000
    lg := { g with prgs := l.map (fun p => (p.1, { bytes := testPrg p.2.1 p.2.2 })) } }

/-- A force entry in state `st` at that point of program 0. -/
def testForce (st : Nat) : Frc := { bytes := leBytes 32 (st * 64) }

/-! ### LogicCommands -/

theorem witness_LogicCommands_program :
    ∃ (req : Requester) (p : Nat) (x : Prg) (s : State),
      s.Writer req ∧ s.dom 6 = 1 ∧ p = s.rd LG_PRG_IDX_IDX ∧ x = s.prg p :=
  ⟨(.core 0), 0, _, (testLogic []), core_writer (by decide +kernel), by decide +kernel, by decide +kernel, rfl⟩

theorem witness_LogicCommands_write :
    ∃ (req : Requester) (p : Nat) (x : Prg) (s : State),
      s.Writer req ∧ s.dom 6 = 1 ∧ p = s.rd LG_PRG_IDX_IDX ∧ x = s.prg p ∧ pgState x.bytes ≤ 1 :=
  ⟨(.core 0), 0, _, (testLogic [(0, 1, 7)]), core_writer (by decide +kernel), by decide +kernel, by decide +kernel, rfl,
   by decide +kernel⟩

theorem witness_LogicCommands_writeRefused :
    ∃ (req : Requester) (p : Nat) (x : Prg) (s : State),
      s.Writer req ∧ s.dom 6 = 1 ∧ p = s.rd LG_PRG_IDX_IDX ∧ x = s.prg p ∧ 2 ≤ pgState x.bytes :=
  ⟨(.core 0), 0, _, (testLogic [(0, 2, 7)]), core_writer (by decide +kernel), by decide +kernel, by decide +kernel, rfl,
   by decide +kernel⟩

theorem witness_LogicCommands_remove :
    ∃ (req : Requester) (p : Nat) (x : Prg) (s : State),
      s.Writer req ∧ s.dom 6 = 1 ∧ p = s.rd LG_PRG_IDX_IDX ∧ x = s.prg p ∧ pgState x.bytes = 1 :=
  ⟨(.core 0), 0, _, (testLogic [(0, 1, 7)]), core_writer (by decide +kernel), by decide +kernel, by decide +kernel, rfl,
   by decide +kernel⟩

theorem witness_LogicCommands_leave :
    ∃ (req : Requester) (p : Nat) (x : Prg) (s : State),
      s.Writer req ∧ s.dom 6 = 1 ∧ p = s.rd LG_PRG_IDX_IDX ∧ x = s.prg p ∧ pgState x.bytes = 2 :=
  ⟨(.core 0), 0, _, (testLogic [(0, 2, 7)]), core_writer (by decide +kernel), by decide +kernel, by decide +kernel, rfl,
   by decide +kernel⟩

theorem witness_LogicCommands_invalidateRefused :
    ∃ (req : Requester) (p : Nat) (x : Prg) (s : State),
      s.Writer req ∧ s.dom 6 = 1 ∧ p = s.rd LG_PRG_IDX_IDX ∧ x = s.prg p ∧ (pgState x.bytes = 0 ∨ pgState x.bytes = 3) :=
  ⟨(.core 0), 0, _, (testLogic [(0, 3, 7)]), core_writer (by decide +kernel), by decide +kernel, by decide +kernel, rfl,
   by decide +kernel⟩

theorem witness_LogicCommands_force :
    ∃ (req : Requester) (e : Nat) (d : List Byte) (s : State),
      s.Writer req ∧ s.dom 6 = 1 ∧ s.standby = false ∧ e = s.rd LG_FRC_IDX_IDX % 64 ∧ d = s.dataBytes 8388736 8 :=
  ⟨(.core 0), 63, _, (testOn [(LG_FRC_IDX_IDX, 63)] (testLogic [(0, 2, 7)])), core_writer (by decide +kernel), by decide +kernel,
   by decide +kernel, by decide +kernel, rfl⟩

theorem witness_LogicCommands_set :
    ∃ (req : Requester) (e : Nat) (d : List Byte) (s : State) (pt : List Byte),
      s.Writer req ∧
        s.dom 6 = 1 ∧
          s.standby = false ∧
            e = s.rd LG_FRC_IDX_IDX % 64 ∧
              d = s.dataBytes 8388736 8 ∧
                s.setRefused e (frPrg d) (frHash d) = false ∧
                  frState (s.frc e).bytes = 0 ∧ s.pointOf (s.prg (frPrg d)).bytes (frHash d) = some pt :=
  ⟨(.core 0), 63,
   _, (testOn [(LG_FRC_IDX_IDX, 63)] (testLogic [(0, 2, 7)])), (List.replicate 16 0), core_writer (by decide +kernel),
   by decide +kernel, by decide +kernel, by decide +kernel, rfl, by decide +kernel⟩

theorem witness_LogicCommands_replace :
    ∃ (req : Requester) (e : Nat) (d : List Byte) (s : State),
      s.Writer req ∧
        s.dom 6 = 1 ∧
          s.standby = false ∧
            e = s.rd LG_FRC_IDX_IDX % 64 ∧
              d = s.dataBytes 8388736 8 ∧ s.setRefused e (frPrg d) (frHash d) = false ∧ frState (s.frc e).bytes = 2 :=
  ⟨(.core 0), 0, _, (testLogic [(0, 2, 7)] { frcs := [(0, testForce 2)] }), core_writer (by decide +kernel), by decide +kernel,
   by decide +kernel, by decide +kernel, rfl, by decide +kernel⟩

theorem witness_LogicCommands_setRefused :
    ∃ (req : Requester) (e : Nat) (d : List Byte) (s : State),
      s.Writer req ∧
        s.dom 6 = 1 ∧
          s.standby = false ∧
            e = s.rd LG_FRC_IDX_IDX % 64 ∧ d = s.dataBytes 8388736 8 ∧ s.setRefused e (frPrg d) (frHash d) = true :=
  ⟨(.core 0), 0, _, (testLogic [(0, 1, 7)]), core_writer (by decide +kernel), by decide +kernel, by decide +kernel,
   by decide +kernel, rfl, by decide +kernel⟩

theorem witness_LogicCommands_clear :
    ∃ (req : Requester) (e : Nat) (d : List Byte) (s : State),
      s.Writer req ∧
        s.dom 6 = 1 ∧
          s.standby = false ∧ e = s.rd LG_FRC_IDX_IDX % 64 ∧ d = s.dataBytes 8388736 8 ∧ frState (s.frc e).bytes = 2 :=
  ⟨(.core 0), 0, _, (testLogic [(0, 2, 7)] { frcs := [(0, testForce 2)] }), core_writer (by decide +kernel), by decide +kernel,
   by decide +kernel, by decide +kernel, rfl, by decide +kernel⟩

theorem witness_LogicCommands_drop :
    ∃ (req : Requester) (e : Nat) (d : List Byte) (s : State),
      s.Writer req ∧
        s.dom 6 = 1 ∧
          s.standby = false ∧ e = s.rd LG_FRC_IDX_IDX % 64 ∧ d = s.dataBytes 8388736 8 ∧ frState (s.frc e).bytes = 1 :=
  ⟨(.core 0), 0, _, (testLogic [(0, 2, 7)] { frcs := [(0, testForce 1)] }), core_writer (by decide +kernel), by decide +kernel,
   by decide +kernel, by decide +kernel, rfl, by decide +kernel⟩

/-- The new program's task, not yet valid. -/
def testNewTask : Ds := { tasks := [(8, { bytes := leBytes 32 0x54003 })] }

theorem witness_LogicCommands_exchange :
    ∃ (req : Requester) (s : State) (v : Word) (o : Nat) (n : Nat),
      s.Writer req ∧ s.dom 6 = 1 ∧ o = BitVec.toNat v % 256 ∧ n = bits (BitVec.toNat v) 23 16 ∧ s.xchCause o n = 0 :=
  ⟨(.core 0), { testLogic [(1, 2, 7), (255, 1, 8)] with ds := testNewTask }, 0xFF0001, _, _, core_writer (by decide +kernel),
   by decide +kernel, rfl, rfl, by decide +kernel⟩

theorem witness_LogicCommands_exchangeRefused :
    ∃ (req : Requester) (s : State) (v : Word) (o : Nat) (n : Nat),
      s.Writer req ∧ s.dom 6 = 1 ∧ o = BitVec.toNat v % 256 ∧ n = bits (BitVec.toNat v) 23 16 ∧ s.xchCause o n ≠ 0 :=
  ⟨(.core 0), (testLogic [(1, 2, 7), (255, 2, 8)]), 0xFF0001, _, _, core_writer (by decide +kernel), by decide +kernel, rfl, rfl,
   by decide +kernel⟩

theorem witness_LogicCommands_cancel :
    ∃ (req : Requester) (s : State) (y : Xch),
      s.Writer req ∧ s.dom 6 = 1 ∧ s.lg.xch = some y :=
  ⟨(.core 0), { testLogic [(1, 3, 7), (255, 1, 8)] { xch := some { old := 1, new := 255, issued := true } } with ds := { tasks := [(8, { bytes := leBytes 32 0x4003, next := some (leBytes 32 0xC003) })] } }, { old := 1, new := 255, issued := true }, core_writer (by decide +kernel),
   by decide +kernel⟩

theorem witness_LogicCommands_save :
    ∃ (x : SaveReq) (rest : List SaveReq) (s : State),
      s.runs 6 = true ∧
        s.on LG_CTRL_EN = true ∧
          s.lg.run = none ∧ s.lg.saves = x :: rest ∧ s.copying = false ∧ s.endsBefore x = false ∧ s.copyBefore x = false :=
  ⟨⟨990, 1, 5⟩, [], (testLogic [(1, 2, 7)] { saves := [⟨990, 1, 5⟩] }), by decide +kernel⟩

theorem witness_LogicCommands_copy :
    ∃ (y : Xch) (s : State) (t : State) (kept : Nat) (len : Nat),
      s.runs 6 = true ∧
       s.on LG_CTRL_EN = true ∧
        s.lg.xch = some y ∧
          s.oldRests y = true ∧
            y.copy = none ∧
              s.lg.run = none ∧
                s.savesAhead y = false ∧
                  copyExchange y s = (kept, t) ∧
                    len =
                      64 + pgSlotN (s.prg y.old).bytes + 2 * (pgTaskN (s.prg y.old).bytes + pgTaskN (s.prg y.new).bytes) +
                        ceilDiv kept 16 :=
  ⟨{ old := 1, new := 255, ended := true }, (testLogic [(1, 3, 7), (255, 1, 8)] { xch := some { old := 1, new := 255, ended := true } }),
   _, 0, _, by decide +kernel, by decide +kernel, by decide +kernel, by decide +kernel, by decide +kernel, by decide +kernel,
   by decide +kernel, rfl, rfl⟩

/-- A module in the cycle before tick 3, whose exchange from 1 to 255 has copied. -/
def testBoundary (dirty : Bool) : State :=
  { testLogic [(1, 3, 7), (255, 1, 8)] { xch := some { old := 1, new := 255, ended := true, copy := some (900, 964), dirty := dirty } } with
    clk := { running := true, tb := [(1, { val := 625000 * 2 ^ 40 - 5 })], nextTick := 3 }, ds := testNewTask }

theorem witness_LogicCommands_again :
    ∃ (y : Xch) (c : Nat × Nat) (s : State) (t : State),
      s.runs 6 = true ∧
       s.on LG_CTRL_EN = true ∧
        s.lg.xch = some y ∧
          y.copy = some c ∧
            c.2 < s.cyc ∧
              y.issued = false ∧
                s.tickNext = true ∧
                  s.isBoundary (s.prg y.old).bytes s.dueTick = true ∧
                    t = (s.putTasks (pgTasks (s.prg y.old).bytes) false).putTasks (pgTasks (s.prg y.new).bytes) true ∧
                      y.dirty = true :=
  ⟨{ old := 1, new := 255, ended := true, copy := some (900, 964), dirty := true }, (900, 964), (testBoundary true), _,
   by decide +kernel, by decide +kernel, by decide +kernel, by decide +kernel, by decide +kernel, by decide +kernel, by decide +kernel,
   by decide +kernel, rfl, by decide +kernel⟩

theorem witness_LogicCommands_boundary :
    ∃ (y : Xch) (c : Nat × Nat) (s : State) (t : State),
      s.runs 6 = true ∧
       s.on LG_CTRL_EN = true ∧
        s.lg.xch = some y ∧
          y.copy = some c ∧
            c.2 < s.cyc ∧
              y.issued = false ∧
                s.tickNext = true ∧
                  s.isBoundary (s.prg y.old).bytes s.dueTick = true ∧
                    t = (s.putTasks (pgTasks (s.prg y.old).bytes) false).putTasks (pgTasks (s.prg y.new).bytes) true ∧
                      y.dirty = false :=
  ⟨{ old := 1, new := 255, ended := true, copy := some (900, 964) }, (900, 964), (testBoundary false), _, by decide +kernel, by decide +kernel,
   by decide +kernel, by decide +kernel, by decide +kernel, by decide +kernel, by decide +kernel, by decide +kernel, rfl,
   by decide +kernel⟩

/-- A module whose pair 11 is `p`, the fields `l` set beside its EN, at cycle 1000. -/
def testPair (l : List (Fld × Nat)) (p : DuPair) : State :=
  { testUp ([(DU_CTRL_EN, 1), (DU_P_EN.i 11, 1)] ++ l) with cyc := 1000, du := { pair := [(11, p)] } }

/-! ### PwmEvents -/

theorem witness_PwmEvents_zero :
    ∃ (k : Fin 12) (z : Nat) (per : Nat) (duty : Nat) (d : Nat) (p : DuPair) (s : State) (u : State) (v : State),
      s.runs 13 = true ∧
        s.padPairOn ↑k = true ∧
          (s.duPair ↑k).nextZ = some z ∧
            z ≤ s.cyc * 8 ∧
              u = loadShadows (↑k) (releaseCycle (↑k) s) ∧
                (p = if (u.duPair ↑k).phase = 2 then ({ u.duPair ↑k with phase := 3, k := 0 } : DuPair) else u.duPair ↑k) ∧
                  u.rd (DU_P_MODE.i ↑k) ≠ 1 ∧
                    per = max 64 (dithered (u.rd (DU_P_PER_ACT.i ↑k)) p.k) ∧
                      duty = min per (dithered (u.rd (DU_P_DUTY_ACT.i ↑k)) p.k) ∧
                        (d, v) = if p.phase = 1 then (per, u) else shortCheck (↑k) (per * 16) duty u :=
  ⟨11, 8000, _, _, 500, { nextZ := some 8000 }, (testPair [(DU_P_PER_ACT.i 11, 16000), (DU_P_DUTY_ACT.i 11, 8000)] { nextZ := some 8000 }), _,
   (testPair [(DU_P_PER_ACT.i 11, 16000), (DU_P_DUTY_ACT.i 11, 8000)] { nextZ := some 8000 } |> releaseCycle 11 |> loadShadows 11), by decide +kernel, by decide +kernel, by decide +kernel,
   by decide +kernel, rfl, by decide +kernel, by decide +kernel, rfl, rfl, rfl⟩

theorem witness_PwmEvents_zeroGrid :
    ∃ (k : Fin 12) (z : Nat) (per : Nat) (duty : Nat) (d : Nat) (p : DuPair) (s : State) (u : State) (v : State),
      s.runs 13 = true ∧
        s.padPairOn ↑k = true ∧
          (s.duPair ↑k).nextZ = some z ∧
            z ≤ s.cyc * 8 ∧
              u = loadShadows (↑k) (releaseCycle (↑k) s) ∧
                (p = if (u.duPair ↑k).phase = 2 then ({ u.duPair ↑k with phase := 3, k := 0 } : DuPair) else u.duPair ↑k) ∧
                  u.rd (DU_P_MODE.i ↑k) = 1 ∧
                    per = u.gridZero (↑k) (p.gridI + 1) - u.gridZero (↑k) p.gridI ∧
                      duty = min (ceilDiv per 16) (dithered (u.rd (DU_P_DUTY_ACT.i ↑k)) p.k) ∧
                        (d, v) = if p.phase = 1 then (ceilDiv per 16, u) else shortCheck (↑k) per duty u :=
  ⟨11, 8000, 1666666, 0, 0, { nextZ := some 8000 }, (testPair [(DU_P_MODE.i 11, 1), (DU_P_GRID_K.i 11, 3)] { nextZ := some 8000 }), _,
   (testPair [(DU_P_MODE.i 11, 1), (DU_P_GRID_K.i 11, 3)] { nextZ := some 8000 } |> releaseCycle 11 |> loadShadows 11), by decide +kernel, by decide +kernel, by decide +kernel,
   by decide +kernel, rfl, by decide +kernel⟩

theorem witness_PwmEvents_load :
    ∃ (k : Fin 12) (per : Nat) (duty : Nat) (c : Nat) (s : State),
      s.on (DU_P_LOAD.i ↑k) = false ∧ (s.duPair ↑k).armed = some (per, duty, c) ∧ c < s.cyc :=
  ⟨11, 16000, 8000, 900, (testPair [] { armed := some (16000, 8000, 900) }), by decide +kernel⟩

theorem witness_PwmEvents_cmpa :
    ∃ (k : Fin 12) (s : State),
      s.runs 13 = true ∧
        (s.duPair ↑k).cmpa = false ∧ (s.duPair ↑k).duty * 16 < (s.duPair ↑k).len ∧ s.atCount (↑k) (s.duPair ↑k).duty = true :=
  ⟨11, (testPair [] { zero := some 8000, len := 16000, duty := 0, h := true }), by decide +kernel⟩

theorem witness_PwmEvents_cmpb :
    ∃ (k : Fin 12) (s : State),
      s.runs 13 = true ∧
        (s.duPair ↑k).cmpb = false ∧
          s.rd (DU_P_CMPB.i ↑k) * 16 < (s.duPair ↑k).len ∧ s.atCount (↑k) (s.rd (DU_P_CMPB.i ↑k)) = true :=
  ⟨11, (testPair [] { zero := some 8000, len := 16000 }), by decide +kernel⟩

theorem witness_PwmEvents_period :
    ∃ (k : Fin 12) (s : State),
      s.runs 13 = true ∧ (s.duPair ↑k).last = false ∧ s.lastCount ↑k = true :=
  ⟨11, (testPair [] { zero := some 7984, nextZ := some 8016, len := 32 }), by decide +kernel⟩

theorem witness_PwmEvents_swing :
    ∃ (k : Fin 12) (h : Bool) (off : Nat) (s : State),
      s.runs 13 = true ∧ (s.duPair ↑k).turn = some (h, off, none) ∧ s.cyc ≤ off + 2 * s.dtMax ↑k :=
  ⟨11, true, 990, (testPair [(DU_P_DT_MAX.i 11, 50)] { turn := some (true, 990, none) }), by decide +kernel⟩

theorem witness_PwmEvents_timeout :
    ∃ (k : Fin 12) (h : Bool) (off : Nat) (s : State),
      s.runs 13 = true ∧ (s.duPair ↑k).turn = some (h, off, none) ∧ off + 2 * s.dtMax ↑k ≤ s.cyc :=
  ⟨11, true, 900, (testPair [(DU_P_DT_MAX.i 11, 50)] { turn := some (true, 900, none) }), by decide +kernel⟩

/-! ### CoilFaultAndSense -/

theorem witness_CoilFaultAndSense_peak :
    ∃ (k : Fin 12) (s : State),
      s.runs 13 = true ∧ (s.duPair ↑k).phase = 1 ∧ (s.duPair ↑k).peakTo ≤ s.clk.lapse :=
  ⟨11, (testPair [] { phase := 1, h := true }), by decide +kernel⟩

theorem witness_CoilFaultAndSense_recognised :
    ∃ (f : Fin 8) (level : Bool) (held : Nat) (s : State),
      s.runs 13 = true ∧
        s.on (DU_FLT_EN.i ↑f) = true ∧
          level ≠ s.on (DU_FLT_POL.i ↑f) ∧
            s.on (DU_FLT_RECOG.i ↑f) = false ∧ s.rd (DU_FLT_FILT.i ↑f) + 1 ≤ held ∧ s.blanked ↑f = false :=
  ⟨7, true, 4, (testUp [(DU_FLT_EN.i 7, 1), (DU_FLT_FILT.i 7, 3)]), by decide +kernel⟩

theorem witness_CoilFaultAndSense_ended :
    ∃ (f : Fin 8) (level : Bool) (held : Nat) (s : State),
      s.runs 13 = true ∧
        s.on (DU_FLT_EN.i ↑f) = true ∧ level = s.on (DU_FLT_POL.i ↑f) ∧ s.on (DU_FLT_RECOG.i ↑f) = true ∧ 0 < held :=
  ⟨7, false, 1, (testUp [(DU_FLT_EN.i 7, 1), (DU_FLT_RECOG.i 7, 1)]), by decide +kernel⟩

theorem witness_CoilFaultAndSense_edge :
    ∃ (j : Fin 16) (s : State),
      s.runs 13 = true ∧ s.duOn = true ∧ s.on (DU_SI_EN.i ↑j) = true :=
  ⟨15, (testUp [(DU_CTRL_EN, 1), (DU_SI_EN.i 15, 1)]), by decide +kernel⟩

theorem witness_CoilFaultAndSense_delivered :
    ∃ (j : Fin 16) (level : Bool) (due : Nat) (tb : Nat) (ns : Nat) (s : State) (t : State),
      s.rd (DU_SI_DEB_US.i ↑j) ≠ 0 ∧ t = senseDeliver due (↑j) level tb ns s :=
  ⟨15, true, 1032, 1, 77, (testUp [(DU_SI_DEB_US.i 15, 10)]), _, by decide +kernel, rfl⟩

theorem witness_CoilFaultAndSense_accepted :
    ∃ (j : Fin 16) (level : Bool) (ns : Nat) (s : State),
      s.runs 13 = true ∧
        s.duOn = true ∧
          s.on (DU_SI_EN.i ↑j) = true ∧
            (agetD s.du.sns ↑j { }).cand = some (level, ns) ∧
              s.onItsWay (↑j) ns = false ∧ ns * 2 ^ 40 + s.rd (DU_SI_DEB_US.i ↑j) * (1000 * 2 ^ 40) < s.now :=
  ⟨15, true, 77, { testUp [(DU_CTRL_EN, 1), (DU_SI_EN.i 15, 1), (DU_SI_MARK.i 15, 1), (DU_SI_DEB_US.i 15, 10)] with clk := { tb := [(1, { val := 10078 * 2 ^ 40 })] }, du := { sns := [(15, { cand := some (true, 77) })] } },
   by decide +kernel⟩

/-! ### DriveRegisterCommands -/

theorem witness_DriveRegisterCommands_commit :
    ∃ (req : Requester) (s : State) (k : Fin 12),
      s.Writer req ∧ s.dom 13 = 1 ∧ s.on (DU_P_LOAD.i ↑k) = false ∧ s.rd (DU_P_DUTY.i ↑k) ≤ s.rd (DU_P_PER.i ↑k) :=
  ⟨(.core 0), (testPair [(DU_P_PER.i 11, 0x400), (DU_P_DUTY.i 11, 0x400)] {}), 11, core_writer (by decide +kernel),
   by decide +kernel⟩

theorem witness_DriveRegisterCommands_refused :
    ∃ (req : Requester) (s : State) (k : Fin 12) (v : Word),
      s.Writer req ∧
        s.dom 13 = 1 ∧
          s.on (DU_P_EN.i ↑k) = true ∧
            bits (BitVec.toNat v) 30 29 ≠ s.rd (DU_P_MODE.i ↑k) ∧
              bits (BitVec.toNat v) 30 29 ≠ 3 ∧ bit (BitVec.toNat v) 31 = true :=
  ⟨(.core 0), (testPair [] {}), 11, 0xA0000000, core_writer (by decide +kernel), by decide +kernel⟩

theorem witness_DriveRegisterCommands_enable :
    ∃ (req : Requester) (s : State) (k : Fin 12) (v : Word) (m : Nat),
      s.Writer req ∧
        s.dom 13 = 1 ∧
          (m = if bits (BitVec.toNat v) 30 29 = 3 then 0 else bits (BitVec.toNat v) 30 29) ∧
            s.on (DU_P_EN.i ↑k) = false ∧ bit (BitVec.toNat v) 31 = true :=
  ⟨(.core 0), (testUp []), 11, 0xC0000081, _, core_writer (by decide +kernel), by decide +kernel, rfl, by decide +kernel⟩

theorem witness_DriveRegisterCommands_disable :
    ∃ (req : Requester) (s : State) (k : Fin 12) (v : Word),
      s.Writer req ∧
        s.dom 13 = 1 ∧
          s.on (DU_P_EN.i ↑k) = true ∧ bit (BitVec.toNat v) 31 = false :=
  ⟨(.core 0), (testPair [] { zero := some 5, l := true }), 11, 0x20000001, core_writer (by decide +kernel), by decide +kernel⟩

theorem witness_DriveRegisterCommands_clear :
    ∃ (req : Requester) (s : State) (f : Fin 8),
      s.Writer req ∧ s.dom 13 = 1 ∧ s.on (DU_FLT_LATCHED.i ↑f) = true ∧ s.on (DU_FLT_RECOG.i ↑f) = false :=
  ⟨(.core 0), (testPair [(DU_FLT_LATCHED.i 7, 1)] { hold := [(7, 5), (6, 5)] }), 7, core_writer (by decide +kernel),
   by decide +kernel⟩

theorem witness_DriveRegisterCommands_held :
    ∃ (req : Requester) (s : State) (f : Fin 8) (v : Word),
      s.Writer req ∧
        s.dom 13 = 1 ∧ s.on (DU_FLT_LATCHED.i ↑f) = true ∧ s.on (DU_FLT_RECOG.i ↑f) = true ∧ bit (BitVec.toNat v) 31 = true :=
  ⟨(.core 0), (testPair [(DU_FLT_LATCHED.i 7, 1), (DU_FLT_RECOG.i 7, 1)] { hold := [(7, 5)] }), 7, 0x80000000, core_writer (by decide +kernel),
   by decide +kernel⟩

theorem witness_DriveRegisterCommands_pop :
    ∃ (req : Requester) (s : State) (e : Nat × Bool × Nat × Nat) (rest : List (Nat × Bool × Nat × Nat)),
      s.Writer req ∧ s.dom 13 = 1 ∧ s.CalServed ∧ s.start.du.stamps = e :: rest :=
  ⟨(.core 0), { testUp [] with du := { stamps := [(15, true, 1, 5000000000)] }, arch := { at0 := { du := { stamps := [(15, true, 1, 5000000000)] } } } }, (15, true, 1, 5000000000), [], core_writer (by decide +kernel),
   by decide +kernel, fun _ => rfl, by decide +kernel⟩

/-- A module on VIN whose Cellar is `c`. -/
def testCellar (l : List (Fld × Nat)) (c : Cellar := {}) : State := { testUp l with cl := { c with runs := true } }

/-- A Cellar whose canary is intact, at a wake. -/
def testWake (owed : Bool) : Cellar := { canHi := 5, canLo := 2 ^ 64 - 6, por := false, wakeDue := true, owed := owed }

/-! ### CellarSupplyAndContents -/

theorem witness_CellarSupplyAndContents_valid :
    ∃ (s : State),
      s.elec.vin = false :=
  ⟨(testUp []), by decide +kernel⟩

theorem witness_CellarSupplyAndContents_invalid :
    ∃ (s : State),
      s.elec.vin = true :=
  ⟨{ testUp [] with elec := { State.reset.elec with vin := true } }, by decide +kernel⟩

theorem witness_CellarSupplyAndContents_por :
    ∃ (s : State),
      s.rd CL_STATUS_SUPPLY ≠ 0 ∨ s.cl.runs = false :=
  ⟨(testUp [(CL_STATUS_SUPPLY, 1)]), by decide +kernel⟩

theorem witness_CellarSupplyAndContents_wake :
    ∃ (lowMv : Nat) (s : State),
      (s.cl.wakeDue = true ∨ s.cl.por = true) ∧ canaryResult s lowMv = 1 ∧ (s.cl.owed = false ∨ s.dom 1 ≠ 1) :=
  ⟨1450, (testCellar [] (testWake false)), by decide +kernel⟩

theorem witness_CellarSupplyAndContents_owed :
    ∃ (lowMv : Nat) (s : State),
      (s.cl.wakeDue = true ∨ s.cl.por = true) ∧ canaryResult s lowMv = 1 ∧ s.cl.owed = true ∧ s.dom 1 = 1 :=
  ⟨1450, (testCellar [] (testWake true)), by decide +kernel⟩

theorem witness_CellarSupplyAndContents_lost :
    ∃ (lowMv : Nat) (s : State),
      (s.cl.wakeDue = true ∨ s.cl.por = true) ∧ canaryResult s lowMv ≠ 1 :=
  ⟨1449, (testCellar [] (testWake false)), by decide +kernel⟩

theorem witness_CellarSupplyAndContents_again :
    ∃ (lowMv : Nat) (s : State),
      s.cl.wakeDue = false ∧ s.cl.por = false ∧ s.cl.runs = false ∧ s.elec.vin = false ∧ 1900 ≤ lowMv :=
  ⟨1900, { testUp [] with cl := { por := false } }, by decide +kernel⟩

theorem witness_CellarSupplyAndContents_vbat :
    ∃ (s : State),
      s.rd CL_STATUS_SUPPLY = 0 ∧ s.cl.runs = true ∧ s.cl.vbatWait = 0 ∧ s.dom 1 = 1 :=
  ⟨(testCellar []), by decide +kernel⟩

theorem witness_CellarSupplyAndContents_second :
    ∃ (s : State),
      s.cl.opsDue ≠ 0 :=
  ⟨(testCellar [(CL_OPS_OPS, 3599)] { opsDue := 1 }), by decide +kernel⟩

theorem witness_CellarSupplyAndContents_tamper :
    ∃ (c : Fin 5) (s : State),
      s.cl.runs = true ∧ (↑c ≠ 3 ∨ s.rd CL_STATUS_SUPPLY ≠ 0) :=
  ⟨4, (testCellar []), by decide +kernel⟩

theorem witness_CellarSupplyAndContents_cycles :
    ∃ (req : Requester) (s : State) (v : Word),
      s.Writer req ∧ s.dom 1 = 1 ∧ s.on CL_STATUS_CNT_LOST = true ∧ s.rd CL_PCYC_PCYC ≤ BitVec.toNat v :=
  ⟨(.core 0), (testCellar [(CL_STATUS_CNT_LOST, 1), (CL_PCYC_PCYC, 5)]), 5, core_writer (by decide +kernel), by decide +kernel⟩

theorem witness_CellarSupplyAndContents_hours :
    ∃ (req : Requester) (s : State) (v : Word),
      s.Writer req ∧ s.dom 1 = 1 ∧ s.on CL_STATUS_CNT_LOST = true ∧ s.rd CL_OPH_OPH ≤ BitVec.toNat v :=
  ⟨(.core 0), (testCellar [(CL_STATUS_CNT_LOST, 1), (CL_OPH_OPH, 5)]), 5, core_writer (by decide +kernel), by decide +kernel⟩

theorem witness_CellarSupplyAndContents_down :
    ∃ (req : Requester) (s : State) (p : Bool) (v : Word),
      s.Writer req ∧
        s.dom 1 = 1 ∧
          (s.on CL_STATUS_CNT_LOST = false ∨ BitVec.toNat v < s.rd (if p = true then CL_PCYC_PCYC else CL_OPH_OPH)) :=
  ⟨(.core 0), (testCellar [(CL_STATUS_CNT_LOST, 1), (CL_OPH_OPH, 5)]), false, 4, core_writer (by decide +kernel),
   by decide +kernel⟩

theorem witness_CellarSupplyAndContents_write :
    ∃ (req : Requester) (s : State),
      s.Writer req ∧ s.retBusy = false :=
  ⟨(.core 0), (testCellar [(CL_RET_ADDR_ADDR, 16383)]), core_writer (by decide +kernel), by decide +kernel⟩

theorem witness_CellarSupplyAndContents_writeHeld :
    ∃ (req : Requester) (s : State),
      s.Writer req ∧ s.retBusy = true :=
  ⟨(.core 0), { testCellar [] with lg := { run := some { prg := 1, seq := 5, mid := 9, stop := 9 } } }, core_writer (by decide +kernel),
   by decide +kernel⟩

theorem witness_CellarSupplyAndContents_read :
    ∃ (req : Requester) (s : State),
      s.Reaches req ∧ s.retBusy = false ∧ s.CalServed :=
  ⟨(.core 0), (testCellar [(CL_RET_ADDR_ADDR, 16383)]), core_reaches, by decide +kernel, fun _ => rfl⟩

theorem witness_CellarSupplyAndContents_readHeld :
    ∃ (req : Requester) (s : State),
      s.Reaches req ∧ s.retBusy = true :=
  ⟨(.core 0), { testCellar [] with lg := { run := some { prg := 1, seq := 5, mid := 9, stop := 9 } } }, core_reaches,
   by decide +kernel⟩

/-! ### CalendarCommands -/

theorem witness_CalendarCommands_freeze :
    ∃ (req : Requester) (s : State),
      s.Reaches req ∧ s.cl.freeze = none :=
  ⟨(.core 0), (testCellar [(CL_YEAR_YEAR, 0x2026)]), core_reaches, by decide +kernel⟩

theorem witness_CalendarCommands_waits :
    ∃ (req : Requester) (f : Nat × Nat × List Nat) (s : State),
      s.Reaches req ∧ s.cl.freeze = some f ∧ f.1 ≠ rqIndex req :=
  ⟨(.core 0), (1, 0, []), (testCellar [] { freeze := some (1, 0, []) }), core_reaches, by decide +kernel⟩

theorem witness_CalendarCommands_holder :
    ∃ (req : Requester) (age : Nat) (sh : List Nat) (s : State),
      s.Reaches req ∧ s.cl.freeze = some (rqIndex req, age, sh) :=
  ⟨(.core 0), 0, [1, 2, 3, 4, 5, 6, 7, 8], (testCellar [] { freeze := some (rqIndex (.core 0), 0, [1, 2, 3, 4, 5, 6, 7, 8]) }), core_reaches,
   by decide +kernel⟩

theorem witness_CalendarCommands_year :
    ∃ (req : Requester) (age : Nat) (sh : List Nat) (s : State),
      s.Reaches req ∧ s.cl.freeze = some (rqIndex req, age, sh) ∧ s.cl.held = [] :=
  ⟨(.core 0), 0, [1, 2, 3, 4, 5, 6, 7, 8], (testCellar [] { freeze := some (rqIndex (.core 0), 0, [1, 2, 3, 4, 5, 6, 7, 8]) }), core_reaches,
   by decide +kernel⟩

theorem witness_CalendarCommands_live :
    ∃ (req : Requester) (s : State),
      s.Reaches req ∧ s.cl.freeze = none ∧ s.cl.held = [] :=
  ⟨(.core 0), (testCellar []), core_reaches, by decide +kernel⟩

theorem witness_CalendarCommands_limit :
    ∃ (h : Nat) (age : Nat) (sh : List Nat) (s : State),
      s.cl.freeze = some (h, age, sh) ∧ 66 ≤ age ∧ s.cl.held = [] ∧ s.dom 1 = 1 :=
  ⟨1, 66, [], (testCellar [] { freeze := some (1, 66, []) }), by decide +kernel⟩

/-- 23:59:58 on 29 February 2024 as CL_SET_T and CL_SET_D hold it, and a Cellar with it. -/
def testTime : Nat := 0x235958

def testDate : Nat := 0x20240229

def testDated (c : Cellar) : State := (testOn [] ((testCellar [] c).put 0x50030 testTime)).put 0x50034 testDate

theorem witness_CalendarCommands_time :
    ∃ (req : Requester) (s : State),
      s.Writer req ∧ commitWaits s = false ∧ calOk (s.word 327728) (s.word 327732) = true :=
  ⟨(.core 0), (testDated {}), core_writer (by decide +kernel), by decide +kernel⟩

theorem witness_CalendarCommands_wday :
    ∃ (req : Requester) (s : State),
      s.Writer req ∧ commitWaits s = false :=
  ⟨(.core 0), (testDated {}), core_writer (by decide +kernel), by decide +kernel⟩

theorem witness_CalendarCommands_refused :
    ∃ (req : Requester) (w : Fin 8) (c : Instr) (s : State),
      s.Writer req ∧
        s.dom 1 = 1 ∧
          (c = Instr.setTime req ∧ (commitWaits s = true ∨ calOk (s.word 327728) (s.word 327732) = false) ∨
            c = Instr.setWday req w ∧ commitWaits s = true) :=
  ⟨(.core 0), 7, (.setTime (.core 0)), (testDated { setWday := some 1 }), core_writer (by decide +kernel), by decide +kernel⟩

theorem witness_CalendarCommands_commit :
    ∃ (v : Nat) (d : Nat) (s : State),
      s.cl.rollDue = false ∧ s.cl.edges = 1 ∧ s.cl.setTime = some (v, d) ∧ s.cl.freeze = none :=
  ⟨testTime, testDate, (testCellar [] { edges := 1, setTime := some (testTime, testDate) }), by decide +kernel⟩

theorem witness_CalendarCommands_commitWday :
    ∃ (w : Nat) (s : State),
      edgeReady s = true ∧ s.cl.setTime = none ∧ s.cl.setWday = some w :=
  ⟨7, (testCellar [] { edges := 1, setWday := some 7 }), by decide +kernel⟩

theorem witness_CalendarCommands_second :
    ∃ (s : State),
      s.cl.rollDue = true ∧ s.cl.edges = 0 ∧ s.rd CL_SEC_SEC < 88 :=
  ⟨(testCellar [(CL_SEC_SEC, 0x57)] { rollDue := true }), by decide +kernel⟩

theorem witness_CalendarCommands_midnight :
    ∃ (s : State),
      s.cl.rollDue = true ∧
        s.cl.edges = 0 ∧
          s.rd CL_SEC_SEC = 89 ∧
            s.rd CL_MIN_MIN = 89 ∧
              s.rd CL_HOUR_HOUR = 35 ∧ s.on CL_CTRL_LEAP61 = false ∧ s.rd CL_YEAR_YEAR ≠ 8601 ∧ s.cl.wdaySet ≠ 1 :=
  ⟨(testCellar [(CL_SEC_SEC, 0x59), (CL_MIN_MIN, 0x59), (CL_HOUR_HOUR, 0x23), (CL_DAY_DAY, 0x28), (CL_MONTH_MONTH, 2), (CL_YEAR_YEAR, 0x2024)] { rollDue := true }),
   by decide +kernel⟩

theorem witness_CalendarCommands_leap :
    ∃ (s : State),
      s.cl.rollDue = true ∧
        s.cl.edges = 0 ∧ s.rd CL_SEC_SEC = 89 ∧ s.rd CL_MIN_MIN = 89 ∧ s.rd CL_HOUR_HOUR = 35 ∧ s.on CL_CTRL_LEAP61 = true :=
  ⟨(testCellar [(CL_SEC_SEC, 0x59), (CL_MIN_MIN, 0x59), (CL_HOUR_HOUR, 0x23), (CL_CTRL_LEAP61, 1)] { rollDue := true }),
   by decide +kernel⟩

theorem witness_CalendarCommands_trim :
    ∃ (s : State),
      edgeReady s = true ∧ commitWaits s = false ∧ trimDue s = true :=
  ⟨(testCellar [] { edges := 1, trimOwed := some true }), by decide +kernel⟩

theorem witness_CalendarCommands_shift :
    ∃ (req : Requester) (v : Word) (s : State),
      s.Writer req ∧ s.on CL_STATUS_SHIFT_BUSY = false ∧ sext 16 (BitVec.toNat v) ≠ 0 :=
  ⟨(.core 0), 0xFFFF, (testCellar []), core_writer (by decide +kernel), by decide +kernel⟩

theorem witness_CalendarCommands_shiftRefused :
    ∃ (req : Requester) (s : State),
      s.Writer req ∧ s.on CL_STATUS_SHIFT_BUSY = true ∧ s.dom 1 = 1 :=
  ⟨(.core 0), (testCellar [(CL_STATUS_SHIFT_BUSY, 1)]), core_writer (by decide +kernel), by decide +kernel⟩

theorem witness_CalendarCommands_step :
    ∃ (s : State),
      edgeReady s = true ∧ commitWaits s = false ∧ trimDue s = false ∧ s.cl.shift ≠ 0 :=
  ⟨(testCellar [(CL_STATUS_SHIFT_BUSY, 1)] { edges := 1, shift := -1 }), by decide +kernel⟩

/-- A record request, a module whose recorder takes it at cycle 1000, and a record in the queue. -/
def testReq : RecReq := { src := 0x12, code := 5, data := 1, stamp := none, cyc := 999 }

def testEv (l : List (Fld × Nat)) (e : Ev) : State := { testUp l with cyc := 1000, ev := { e with scan := false }, recReqs := [testReq] }

def testRec : EvReq := { seq := 4095, sec := 5, ns := 6, tkind := 0, src := 0x80, code := 1, data := 7, cyc := 992 }

/-- A recorder whose ring holds 9 records and whose NVM takes them. -/
def testDrain : State :=
  testEv [(EV_CTRL_DRAIN_EN, 1), (EV_STATUS_NVM_OK, 1), (BT_STATUS_STATE, 5)]
    { ofs := some 0x100000, entered := 9, next := 9, pos := 8
      ring := (List.range 9).map (fun q => (q, q, leBytes 32 (q + 1))) }

/-! ### RecorderEvents -/

theorem witness_RecorderEvents_request :
    ∃ (r : RecReq) (s : State),
      nextReq s.readyReqs = some r ∧ s.on0 EV_CTRL_EN = true ∧ s.ev.lost = 0 ∧ s.ev.queue.length < 64 :=
  ⟨testReq, (testEv [(EV_CTRL_EN, 1)] {}), by decide +kernel⟩

theorem witness_RecorderEvents_lost :
    ∃ (r : RecReq) (s : State),
      nextReq s.readyReqs = some r ∧ (s.on0 EV_CTRL_EN = false ∨ 64 ≤ s.ev.queue.length) :=
  ⟨testReq, (testEv [(EV_CTRL_EN, 1)] { queue := List.replicate 64 testRec }), by decide +kernel⟩

theorem witness_RecorderEvents_entry :
    ∃ (q : EvReq) (rest : List EvReq) (s : State),
      s.ev.queue = q :: rest ∧
        s.ev.scan = false ∧ s.ev.lost = 0 ∧ max q.cyc s.ev.leave + 8 ≤ s.cyc ∧ aget s.ev.ring (q.seq % 4096) = none :=
  ⟨testRec, [], (testEv [] { queue := [testRec], next := 4096, entered := 4095 }), by decide +kernel⟩

theorem witness_RecorderEvents_scan :
    ∃ (answers : Bool) (suitable : Bool) (u : State) (s : State),
      s.ev.params = true ∧
        s.ev.scan = false ∧
          ¬(answers = true ∧ suitable = false) ∧
            u =
              { s with ev := { s.ev with params := false } } :=
  ⟨true, true, _, (testEv [] { params := true, ofs := some 0x100000 }), by decide +kernel, by decide +kernel, by decide +kernel,
   rfl⟩

theorem witness_RecorderEvents_unsuitable :
    ∃ (answers : Bool) (suitable : Bool) (s : State),
      s.ev.params = true ∧ s.ev.scan = false ∧ answers = true ∧ suitable = false :=
  ⟨true, false, (testEv [] { params := true }), by decide +kernel, by decide +kernel, rfl, rfl⟩

theorem witness_RecorderEvents_restart :
    ∃ (s : State),
      s.ev.params = true ∧ s.ev.scan = true ∧ s.on0 EV_CTRL_EN = true :=
  ⟨{ testUp [(EV_CTRL_EN, 1)] with ev := { params := true } }, by decide +kernel⟩

theorem witness_RecorderEvents_page :
    ∃ (s : State),
      drainDue s = true ∧ s.ev.pos % 2048 ≠ 0 ∧ s.ev.pos < 1048576 :=
  ⟨testDrain, by decide +kernel⟩

theorem witness_RecorderEvents_failed :
    ∃ (s : State),
      drainDue s = true :=
  ⟨testDrain, by decide +kernel⟩

theorem witness_RecorderEvents_retry :
    ∃ (c : Nat) (s : State),
      s.ev.retryAt = some c ∧ c ≤ s.clk.lapse :=
  ⟨0, (testEv [] { retryAt := some 0 }), by decide +kernel⟩

theorem witness_RecorderEvents_load :
    ∃ (q : Nat) (p : Nat) (s : State),
      s.ev.load = some q ∧ s.ev.firstHeld ≤ q ∧ runPos q s.ev.runs = some p :=
  ⟨6, 6, (testEv [] { load := some 6, ofs := some 0x100000, runs := [(0, 0, 8)] }), by decide +kernel⟩

theorem witness_RecorderEvents_cleared :
    ∃ (q : Nat) (s : State), s.ev.load = some q ∧ q < s.ev.firstHeld :=
  ⟨6, (testEv [] { load := some 6, cleared := 7, runs := [(0, 0, 8)] }), by decide +kernel⟩

/-! ### RecorderRegisterCommands -/

theorem witness_RecorderRegisterCommands_held :
    ∃ (req : Requester) (v : Word) (b : List Byte) (s : State),
      s.Writer req ∧
        s.ev.entered ≠ 0 ∧
          seqOf s (BitVec.toNat v) % 2 ^ 32 = BitVec.toNat v ∧
            s.ev.firstHeld ≤ seqOf s (BitVec.toNat v) ∧
              seqOf s (BitVec.toNat v) < s.ev.entered ∧ s.ringRec (seqOf s (BitVec.toNat v)) = some b :=
  ⟨(.core 0), 8, (leBytes 32 9), testDrain, core_writer (by decide +kernel), by decide +kernel⟩

theorem witness_RecorderRegisterCommands_erased :
    ∃ (s : State),
      s.on EV_STATUS_CLEAR_BUSY = true :=
  ⟨(testEv [(EV_STATUS_CLEAR_BUSY, 1)] { ofs := some 0x100000, runs := [(0, 0, 2048)], cleared := 2048 }), by decide +kernel⟩

theorem witness_RecorderRegisterCommands_post :
    ∃ (req : Requester) (src : Fin 256) (s : State),
      s.Writer req ∧ 128 ≤ ↑src :=
  ⟨(.core 0), 0x80, (testEv [] {}), core_writer (by decide +kernel), by decide +kernel⟩

theorem witness_RecorderRegisterCommands_refused :
    ∃ (req : Requester) (src : Fin 256) (s : State),
      s.Writer req ∧ ↑src < 128 :=
  ⟨(.core 0), 0x7F, (testEv [] {}), core_writer (by decide +kernel), by decide +kernel⟩

/-- A module in which definition 15 is `c` in state `st`, of one analogue and one binary channel. -/
def testCap (st : Nat) (l : List (Fld × Nat)) (c : Cap) : State :=
  { testUp ([(TG_D_STATE.i 15, st), (TG_D_NA.i 15, 1), (TG_D_NB.i 15, 1), (TG_D_PRE.i 15, 3), (TG_D_POST.i 15, 4), (TG_D_BUF_N.i 15, 1)] ++ l) with
    cyc := 1000, clk := { tb := [(1, { val := 10 ^ 10 * 2 ^ 40 })] }, tg := { caps := [(15, c)] } }

/-! ### CaptureCommands -/

theorem witness_CaptureCommands_row :
    ∃ (r : Fin 16) (k : Nat) (inst : Nat) (skip : Bool) (c : Cap) (u : State) (s : State),
      s.runs 14 = true ∧
        (s.tgState ↑r = 1 ∨ s.tgState ↑r = 2) ∧
          c = s.cap ↑r ∧
            k = c.nextRow ∧
              s.rowFinal (↑r) k ≤ s.now ∧
                s.changeDue = none ∧
                  inst = rowInstant (s.tgRate ↑r) k ∧
                    (skip = s.clk.stepSpan.any fun p => decide (p.1 < inst) && decide (inst < p.2)) ∧
                      (s.rowLost ↑r = true ∨ s.rd (TG_D_MODE.i ↑r) ≠ 2 ∧ s.rd (TG_D_MODE.i ↑r) ≠ 4) ∧
                        u =
                          if s.rowLost ↑r = true then s
                          else
                            s.store (s.capBuf (↑r) (s.rd (TG_D_CUR.i ↑r)) + 64 + (k - c.row0) % s.rowSlots ↑r * s.rowBytes ↑r)
                              (rowContents s (↑r) k skip) :=
  ⟨15, _, _, _, _, _, (testCap 1 [(TG_D_MODE.i 15, 1)] { nextRow := 5 }), by decide +kernel, by decide +kernel, rfl, rfl,
   by decide +kernel, by decide +kernel, rfl, rfl, by decide +kernel, rfl⟩

theorem witness_CaptureCommands_waits :
    ∃ (s : State),
      ∀ q < 16, (s.cap q).trig = none :=
  ⟨(testUp []), by decide +kernel⟩

theorem witness_CaptureCommands_last :
    ∃ (r : Fin 16) (time : Nat) (tk : Nat) (row : Nat) (s : State),
      (s.cap ↑r).trig = some (time, tk, row) ∧
        row + s.rd (TG_D_POST.i ↑r) < (s.cap ↑r).nextRow ∧ ∀ q < 16, q ≠ ↑r → (s.cap q).trig = none :=
  ⟨15, 500, 0, 5, (testCap 2 [] { nextRow := 10, trig := some (500, 0, 5) }), by decide +kernel⟩

theorem witness_CaptureCommands_change :
    ∃ (k : Nat) (u : State) (s : State),
      s.runs 14 = true ∧
        s.changeDue = some k ∧
          u =
            { s with tg := { s.tg with changes := List.filter (fun c => c.cyc != k) s.tg.changes } } :=
  ⟨990, _, { testCap 1 [(TG_D_MODE.i 15, 1)] {} with tg := { changes := [⟨5, 3, true, false, 77, 0, 990⟩] } }, by decide +kernel,
   by decide +kernel, rfl⟩

theorem witness_CaptureCommands_window :
    ∃ (r : Fin 16) (s : State),
      s.runs 14 = true ∧
        s.tgState ↑r ≠ 0 ∧ s.rd (TG_D_MODE.i ↑r) = 0 ∧ s.seqLate (↑r) s.nowStamp = true ∧ s.changeWaits (s.seqEnd ↑r) = false :=
  ⟨15, (testCap 1 [(TG_D_MODE.i 15, 0)] { stage := 1 }), by decide +kernel⟩

theorem witness_CaptureCommands_level :
    ∃ (r : Fin 16) (m : Nat) (s : State),
      s.runs 14 = true ∧
        (s.cap ↑r).mark = some m ∧
          s.rd (TG_D_MODE.i ↑r) = 3 ∧
            (s.cap ↑r).fired = false ∧
              m + s.rd (TG_D_T1.i ↑r) * 65536 ≤ s.nowStamp ∧
                s.tgState ↑r ≠ 0 ∧ s.changeWaits (m + s.rd (TG_D_T1.i ↑r) * 65536) = false :=
  ⟨15, 5, (testCap 1 [(TG_D_MODE.i 15, 3), (TG_D_T1.i 15, 6)] { mark := some 5 }), by decide +kernel⟩

theorem witness_CaptureCommands_hold :
    ∃ (r : Fin 16) (c : Nat) (s : State),
      s.runs 14 = true ∧ (s.cap ↑r).holdTo = some c ∧ s.tgState ↑r = 3 ∧ c ≤ s.clk.lapse :=
  ⟨15, 0, (testCap 3 [] { holdTo := some 0 }), by decide +kernel⟩

theorem witness_CaptureCommands_force :
    ∃ (req : Requester) (s : State) (r : Fin 16),
      s.Writer req ∧ s.dom 14 = 1 ∧ s.tgState ↑r = 1 ∧ (s.cap ↑r).ignore = 0 :=
  ⟨(.core 0), (testCap 1 [] {}), 15, core_writer (by decide +kernel), by decide +kernel⟩

theorem witness_CaptureCommands_release :
    ∃ (req : Requester) (s : State) (v : Word),
      s.Writer req ∧ s.dom 14 = 1 ∧ s.tgState (bits (BitVec.toNat v) 7 4) ≠ 4 :=
  ⟨(.core 0), (testCap 1 [(TG_D_FULL.i 15, 3)] {}), 0xF1, core_writer (by decide +kernel), by decide +kernel⟩

/-- A module whose 512 functions are mapped, the fields `l` set. -/
def testVf (l : List (Fld × Nat)) : State := { testUp l with vis := { numVfs := 512, vf := [(511, { mse := true, bme := true })] } }

/-! ### TenantCommands -/

theorem witness_TenantCommands_postT2m :
    ∃ (v : Fin 512) (j : Fin 2) (s : State),
      s.vfMapped ↑v = true ∧
        bit (s.rd0 (VI_MB_STAT_T2M_FULL.p ↑v)) ↑j = false ∧ s.mbLen (16778240 + ↑v * 65536 + ↑j * 256) ≤ 240 :=
  ⟨511, 1, (testVf [(VI_MB_STAT_T2M_FULL.p 511, 1)]), by decide +kernel⟩

theorem witness_TenantCommands_ackM2t :
    ∃ (v : Fin 512) (j : Fin 2) (s : State),
      s.vfMapped ↑v = true ∧ bit (s.rd0 (VI_MB_STAT_M2T_FULL.p ↑v)) ↑j = true :=
  ⟨511, 1, (testVf [(VI_MB_STAT_M2T_FULL.p 511, 3)]), by decide +kernel⟩

theorem witness_TenantCommands_postM2t :
    ∃ (req : Requester) (v : Fin 512) (j : Fin 2) (s : State),
      s.Writer req ∧ bit (s.rd0 (VI_MB_STAT_M2T_FULL.p ↑v)) ↑j = false ∧ s.mbLen (16778752 + ↑v * 65536 + ↑j * 256) ≤ 240 :=
  ⟨(.core 0), 511, 1, (testVf [(VI_MB_STAT_M2T_FULL.p 511, 1)]), core_writer (by decide +kernel), by decide +kernel⟩

theorem witness_TenantCommands_ackT2m :
    ∃ (req : Requester) (v : Fin 512) (j : Fin 2) (s : State),
      s.Writer req ∧ bit (s.rd0 (VI_MB_STAT_T2M_FULL.p ↑v)) ↑j = true :=
  ⟨(.core 0), 511, 1, (testVf [(VI_MB_STAT_T2M_FULL.p 511, 3)]), core_writer (by decide +kernel), by decide +kernel⟩

/-- One page of DRAM, the last below the boot region, in the last entry of the window. -/
def testWindow (wr : Nat) : List (Fld × Nat) :=
  [((VI_W_EN.p 511).i 15, 1), ((VI_W_PAGES.p 511).i 15, 1), ((VI_W_WR.p 511).i 15, wr), ((VI_W_WOFS.p 511).i 15, 0x3FFFF),
   ((VI_W_BASE_HI.p 511).i 15, 1), ((VI_W_BASE_LO.p 511).i 15, 0xFBFFF)]

theorem witness_TenantCommands_windowRead :
    ∃ (v : Fin 512) (o : Fin 1073741824) (w : Nat) (a : Nat) (s : State),
      s.vfMapped ↑v = true ∧ s.windowAt ↑v ↑o = some w ∧ s.dom 14 = 1 ∧ a = s.windowAddr (↑v) w ↑o ∧ a + 4 ≤ 8522825728 :=
  ⟨511, 0x3FFFFFFC, 15, _, (testVf (testWindow 1)), by decide +kernel, by decide +kernel, by decide +kernel, rfl, by decide +kernel⟩

theorem witness_TenantCommands_windowWrite :
    ∃ (v : Fin 512) (o : Fin 1073741824) (w : Nat) (a : Nat) (s : State),
      s.vfMapped ↑v = true ∧
        s.windowAt ↑v ↑o = some w ∧
          s.dom 14 = 1 ∧ a = s.windowAddr (↑v) w ↑o ∧ a + 4 ≤ 8522825728 ∧ s.on0 ((VI_W_WR.p ↑v).i w) = true :=
  ⟨511, 0x3FFFFFFC, 15, _, (testVf (testWindow 1)), by decide +kernel, by decide +kernel, by decide +kernel, rfl,
   by decide +kernel⟩

theorem witness_TenantCommands_windowReadOnly :
    ∃ (v : Fin 512) (o : Fin 1073741824) (w : Nat) (a : Nat) (s : State),
      s.vfMapped ↑v = true ∧
        s.windowAt ↑v ↑o = some w ∧
          s.dom 14 = 1 ∧ a = s.windowAddr (↑v) w ↑o ∧ a + 4 ≤ 8522825728 ∧ s.on0 ((VI_W_WR.p ↑v).i w) = false :=
  ⟨511, 0x3FFFFFFC, 15, _, (testVf (testWindow 0)), by decide +kernel, by decide +kernel, by decide +kernel, rfl,
   by decide +kernel⟩

theorem witness_TenantCommands_entry :
    ∃ (req : Requester) (v : Fin 512) (w : Fin 16) (k : Fin 4) (x : Word) (o : Nat) (u : State) (s : State),
      s.Writer req ∧
        o = 16777216 + ↑v * 65536 + 4096 + 16 * ↑w + 4 * ↑k ∧
          u = s.swPut o (BitVec.toNat x) ∧ (u.on ((VI_W_EN.p ↑v).i ↑w) = false ∨ u.windowOk ↑v ↑w = true) :=
  ⟨(.core 0), 511, 15, 2, 0xFBFFE000, _, _, (testVf (testWindow 0)), core_writer (by decide +kernel), rfl, rfl, by decide +kernel⟩

theorem witness_TenantCommands_entryRefused :
    ∃ (req : Requester) (v : Fin 512) (w : Fin 16) (k : Fin 4) (x : Word) (o : Nat) (u : State) (s : State),
      s.Writer req ∧
        o = 16777216 + ↑v * 65536 + 4096 + 16 * ↑w + 4 * ↑k ∧
          u = s.swPut o (BitVec.toNat x) ∧ u.on ((VI_W_EN.p ↑v).i ↑w) = true ∧ u.windowOk ↑v ↑w = false :=
  ⟨(.core 0), 511, 15, 0, 0xFC000000, _, _, (testVf (testWindow 0)), core_writer (by decide +kernel), rfl, rfl, by decide +kernel⟩

theorem witness_TenantCommands_publish :
    ∃ (v : Fin 512) (s : State),
      s.vfMapped ↑v = true :=
  ⟨511, (testVf []), by decide +kernel⟩

theorem witness_TenantCommands_reset :
    ∃ (v : Fin 512) (s : State),
      ↑v < s.vis.numVfs ∧ s.ports.rxPart = none :=
  ⟨511, (testVf [(VI_MB_STAT_M2T_FULL.p 511, 3)]), by decide +kernel⟩

/-- Mirror 3 of instance 511, due in tick 0. -/
def testMirror (l : List Nat) : State :=
  { testUp [((VI_M_EN.p 511).i 3, 1), ((VI_M_DIV.p 511).i 3, 1), ((VI_M_UN.p 511).i 3, 4), ((VI_M_DEST_LO.p 511).i 3, 64)] with
    cyc := 10, clk := { lastTick := some (0, 5, 0), raised := 1 }, ic := { badWords := l } }

/-! ### InstanceCommands -/

theorem witness_InstanceCommands_mirror :
    ∃ (v : Fin 512) (m : Fin 4) (d : Nat) (s : State),
      s.runs 1 = true ∧
        s.vis.mirror = none ∧
          s.mirrorDue ↑v ↑m = true ∧
            s.mirrorAhead ↑v ↑m = false ∧
              d = s.rd ((VI_M_DEST_HI.p ↑v).i ↑m) * 2 ^ 32 + s.rd ((VI_M_DEST_LO.p ↑v).i ↑m) * 64 ∧
                s.badSpan (d + 8) 8 = false ∧ s.badSpan (d + 56) 8 = false :=
  ⟨511, 3, _, (testMirror []), by decide +kernel, by decide +kernel, by decide +kernel, by decide +kernel, rfl, by decide +kernel⟩

theorem witness_InstanceCommands_mirrorLost :
    ∃ (v : Fin 512) (m : Fin 4) (d : Nat) (s : State),
      s.runs 1 = true ∧
        s.vis.mirror = none ∧
          s.mirrorDue ↑v ↑m = true ∧
            s.mirrorAhead ↑v ↑m = false ∧
              d = s.rd ((VI_M_DEST_HI.p ↑v).i ↑m) * 2 ^ 32 + s.rd ((VI_M_DEST_LO.p ↑v).i ↑m) * 64 ∧
                (s.badSpan (d + 8) 8 = true ∨ s.badSpan (d + 56) 8 = true) :=
  ⟨511, 3, _, (testMirror [4096 + 8]), by decide +kernel, by decide +kernel, by decide +kernel, by decide +kernel, rfl,
   by decide +kernel⟩

theorem witness_InstanceCommands_waiting :
    ∃ (v : Fin 512) (m : Fin 4) (s : State),
      s.runs 1 = true ∧
        (s.vis.mirror.isSome = true ∨ s.mirrorAhead ↑v ↑m = true) ∧ s.mirrorDue ↑v ↑m = true ∧ s.mirrorWaits ↑v ↑m = true :=
  ⟨511, 3, { testMirror [] with vis := { mirror := some ⟨1, 1, 1, 99, 0, 0, 0, 4, 1⟩, vi := [(511, { mirWait := [(3, 1)] })] } },
   by decide +kernel⟩

theorem witness_InstanceCommands_waits :
    ∃ (v : Fin 512) (m : Fin 4) (s : State),
      s.runs 1 = true ∧
        (s.vis.mirror.isSome = true ∨ s.mirrorAhead ↑v ↑m = true) ∧ s.mirrorDue ↑v ↑m = true ∧ s.mirrorWaits ↑v ↑m = false :=
  ⟨511, 3, { testMirror [] with vis := { mirror := some ⟨1, 1, 1, 99, 0, 0, 0, 4, 1⟩ } }, by decide +kernel⟩

theorem witness_InstanceCommands_share :
    ∃ (req : Requester) (v : Fin 512) (x : Word) (s : State),
      s.Writer req ∧
        (s.rd (VI_LSHARE_LSHARE.p ↑v) < s.rd (VI_HELD_HELD.p ↑v) ∨
          s.rd (VI_HELD_HELD.p ↑v) ≤ min 98304 (BitVec.toNat x % 2 ^ 17)) :=
  ⟨(.core 0), 511, 0x1FFFF, (testUp []), core_writer (by decide +kernel), by decide +kernel⟩

theorem witness_InstanceCommands_reset :
    ∃ (req : Requester) (v : Fin 512) (keep : Bool) (g : Nat) (u : State) (s : State),
      s.Writer req ∧
        s.on (VI_STATUS_RESETTING.p ↑v) = false ∧
          s.linger ↑v = 0 ∧
            g = (s.rd (VI_STATUS_GEN.p ↑v) + 1) % 16 ∧
              u =
                ((s.wr (VI_STATUS_GEN.p ↑v) g).wr (VI_STATUS_RESETTING.p ↑v) 1).setVi (↑v)
                  { s.vi ↑v with keepRun := keep, resetAt := some (s.cyc + 1) } :=
  ⟨(.core 0), 511, true, _, _, (testUp [(VI_STATUS_GEN.p 511, 15)]), core_writer (by decide +kernel), by decide +kernel,
   by decide +kernel, rfl, rfl⟩

theorem witness_InstanceCommands_refused :
    ∃ (req : Requester) (v : Fin 512) (s : State),
      s.Writer req ∧ s.on (VI_STATUS_RESETTING.p ↑v) = true :=
  ⟨(.core 0), 511, (testUp [(VI_STATUS_RESETTING.p 511, 1)]), core_writer (by decide +kernel), by decide +kernel⟩

theorem witness_InstanceCommands_done :
    ∃ (v : Fin 512) (c : Nat) (s : State),
      (s.vi ↑v).resetAt = some c ∧ c < s.cyc ∧ s.rd0 (VI_STATUS_INFLIGHT.p ↑v) = 0 ∧ s.inflight ↑v = 0 :=
  ⟨511, 900, { testUp [(VI_STATUS_RESETTING.p 511, 1), (VI_CTRL_RUN.p 511, 1)] with cyc := 1000, vis := { vi := [(511, { resetAt := some 900, keepRun := true })] } },
   by decide +kernel⟩

/-- The host's seat is present, and owns where `o` is 0. -/
def testSeat (o : Nat) (l : List (Fld × Nat)) : State := { testUp ([(OW_STATUS_OWNER, o)] ++ l) with cyc := 1000, vis := { pfMse := true } }

/-! ### OwnershipCommands -/

theorem witness_OwnershipCommands_claim :
    ∃ (req : Requester) (s : State),
      s.Reaches req ∧
        s.seat req ≠ 15 ∧
          s.present (s.seat req) = true ∧
            s.rd0 OW_STATUS_OWNER = 15 ∧ s.owner = 15 ∧ ∀ (c j : Nat), s.vis.claimed = some (c, j) → c ≠ s.cyc :=
  ⟨(.core 1), (testSeat 0xF [(OW_ACT_SEAT.i 1, 0)]), core_reaches, by decide +kernel, by decide +kernel, by decide +kernel,
   by decide +kernel, by rintro c j ⟨⟩⟩

theorem witness_OwnershipCommands_release :
    ∃ (req : Requester) (s : State),
      s.Reaches req ∧ s.isOwner req = true ∧ s.owner = s.seat req :=
  ⟨(.core 1), (testSeat 0 [(OW_ACT_SEAT.i 1, 0)]), core_reaches, by decide +kernel⟩

theorem witness_OwnershipCommands_offer :
    ∃ (req : Requester) (k : Fin 16) (s : State),
      s.Reaches req ∧ s.isOwner req = true ∧ s.owner = s.rd0 OW_STATUS_OWNER ∧ ↑k < 8 ∧ s.present ↑k = true ∧ ↑k ≠ s.owner :=
  ⟨(.core 1), 6, (testSeat 0 [(OW_ACT_SEAT.i 1, 0), (OW_SESS_SESS, 0x10), (OW_HO_HO_MS, 9)]), core_reaches, by decide +kernel⟩

theorem witness_OwnershipCommands_accept :
    ∃ (req : Requester) (s : State),
      s.Reaches req ∧
        s.seat req ≠ 15 ∧
          s.present (s.seat req) = true ∧
            s.rd0 OW_STATUS_STATE = 2 ∧
              s.rd0 OW_STATUS_TARGET = s.seat req ∧
                s.owner = s.rd0 OW_STATUS_OWNER ∧ s.rd OW_STATUS_STATE = 2 ∧ s.vis.lapsed ≠ some s.cyc :=
  ⟨(.core 1), (testSeat 6 [(OW_ACT_SEAT.i 1, 0), (OW_STATUS_STATE, 2), (OW_STATUS_TARGET, 0)]), core_reaches, by decide +kernel⟩

theorem witness_OwnershipCommands_offerLapse :
    ∃ (c : Nat) (s : State),
      s.vis.offerLapse = some c ∧ s.rd OW_STATUS_STATE = 2 ∧ c ≤ s.clk.lapse :=
  ⟨5, { testSeat 0 [(OW_STATUS_STATE, 2)] with clk := { lapse := 5 }, vis := { offerLapse := some 5 } }, by decide +kernel⟩

theorem witness_OwnershipCommands_refresh :
    ∃ (req : Requester) (s : State),
      s.Reaches req ∧ s.isOwner req = true :=
  ⟨(.core 1), (testSeat 0 [(OW_ACT_SEAT.i 1, 0)]), core_reaches, by decide +kernel⟩

theorem witness_OwnershipCommands_lease :
    ∃ (s : State),
      s.owner ≠ 15 ∧ s.rd OW_LEASE_LEASE_MS ≠ 0 ∧ s.vis.leaseFrom + s.rd OW_LEASE_LEASE_MS * 1000000 ≤ s.cyc :=
  ⟨{ testSeat 0 [(OW_LEASE_LEASE_MS, 1)] with cyc := 1000000 }, by decide +kernel⟩

theorem witness_OwnershipCommands_absent :
    ∃ (s : State),
      s.owner ≠ 15 ∧ s.present s.owner = false :=
  ⟨(testUp [(OW_STATUS_OWNER, 0)]), by decide +kernel⟩

theorem witness_OwnershipCommands_revoke :
    ∃ (s : State) (req : Requester),
      s.owner ≠ 15 ∧ s.Reaches req ∧ s.asCore req = true :=
  ⟨(testSeat 0 []), (.core 0), by decide +kernel, core_reaches, by decide +kernel⟩

theorem witness_OwnershipCommands_cause :
    ∃ (s : State) (c : Nat),
      s.owner ≠ 15 ∧ c < 16 :=
  ⟨(testSeat 0 []), 15, by decide +kernel⟩

/-- A module in life-cycle state `lc` whose KS_DATA words hold the attributes of an AES-GMAC key in slot `d` of `ks`. -/
def testKs (lc : Nat) (ks : Ks) : State :=
  { testUp [(KS_STATUS_LC, lc), (OW_ACT_SEAT.i 1, 7), (KS_DATA_DATA.i 0, 0x10030400)] with cyc := 1000, ks := ks }

/-! ### KeyStoreCommands -/

theorem witness_KeyStoreCommands_attr :
    ∃ (req : Requester) (d : Fin 256) (src : Fin 256) (rooted : Bool) (c : Instr) (v : Nat) (s : State),
      s.Writer req ∧
        s.on0 KS_STATUS_BUSY = false ∧
          s.ks.run = none ∧
            s.ks.prog = [] ∧
              s.retired = false ∧
                (c = Instr.readAttr req d ∧ v = 2 ^ 28 + ↑d ∨
                    c = Instr.ksImport req d ∧ v = 2 * 2 ^ 28 + ↑d ∨
                      c = Instr.generate req d ∧ v = 3 * 2 ^ 28 + ↑d ∨
                        c = Instr.derive req d src rooted ∧ v = 4 * 2 ^ 28 + b2n rooted * 2 ^ 27 + ↑src * 256 + ↑d ∨
                          c = Instr.wrap req src ∧ v = 5 * 2 ^ 28 + ↑src * 256 ∨
                            c = Instr.unwrap req d ∧ v = 6 * 2 ^ 28 + ↑d ∨
                              c = Instr.ksInvalidate req d ∧ v = 7 * 2 ^ 28 + ↑d ∨
                                c = Instr.sessionOut req src ∧ v = 8 * 2 ^ 28 + ↑src * 256) ∧
                  (2 ≤ v / 2 ^ 28 → v / 2 ^ 28 ≤ 4 → attrBad s.ksData = false) ∧
                    (ksWrites (v / 2 ^ 28) = true → kState (s.ksSlot ↑d).bytes ≠ ksBad ∨ s.isOwner req = true) ∧
                      (v / 2 ^ 28 = 8 → s.asCore req = true) :=
  ⟨(.core 0), 255, 3, true, (.readAttr (.core 0) 255), (2 ^ 28 + 255), (testKs 1 {}), core_writer (by decide +kernel),
   by decide +kernel⟩

theorem witness_KeyStoreCommands_import :
    ∃ (req : Requester) (d : Fin 256) (src : Fin 256) (rooted : Bool) (c : Instr) (v : Nat) (s : State),
      s.Writer req ∧
        s.on0 KS_STATUS_BUSY = false ∧
          s.ks.run = none ∧
            s.ks.prog = [] ∧
              s.retired = false ∧
                (c = Instr.readAttr req d ∧ v = 2 ^ 28 + ↑d ∨
                    c = Instr.ksImport req d ∧ v = 2 * 2 ^ 28 + ↑d ∨
                      c = Instr.generate req d ∧ v = 3 * 2 ^ 28 + ↑d ∨
                        c = Instr.derive req d src rooted ∧ v = 4 * 2 ^ 28 + b2n rooted * 2 ^ 27 + ↑src * 256 + ↑d ∨
                          c = Instr.wrap req src ∧ v = 5 * 2 ^ 28 + ↑src * 256 ∨
                            c = Instr.unwrap req d ∧ v = 6 * 2 ^ 28 + ↑d ∨
                              c = Instr.ksInvalidate req d ∧ v = 7 * 2 ^ 28 + ↑d ∨
                                c = Instr.sessionOut req src ∧ v = 8 * 2 ^ 28 + ↑src * 256) ∧
                  (2 ≤ v / 2 ^ 28 → v / 2 ^ 28 ≤ 4 → attrBad s.ksData = false) ∧
                    (ksWrites (v / 2 ^ 28) = true → kState (s.ksSlot ↑d).bytes ≠ ksBad ∨ s.isOwner req = true) ∧
                      (v / 2 ^ 28 = 8 → s.asCore req = true) :=
  ⟨(.core 0), 255, 3, true, (.ksImport (.core 0) 255), (2 * 2 ^ 28 + 255), (testKs 1 {}), core_writer (by decide +kernel),
   by decide +kernel⟩

theorem witness_KeyStoreCommands_generate :
    ∃ (req : Requester) (d : Fin 256) (src : Fin 256) (rooted : Bool) (c : Instr) (v : Nat) (s : State),
      s.Writer req ∧
        s.on0 KS_STATUS_BUSY = false ∧
          s.ks.run = none ∧
            s.ks.prog = [] ∧
              s.retired = false ∧
                (c = Instr.readAttr req d ∧ v = 2 ^ 28 + ↑d ∨
                    c = Instr.ksImport req d ∧ v = 2 * 2 ^ 28 + ↑d ∨
                      c = Instr.generate req d ∧ v = 3 * 2 ^ 28 + ↑d ∨
                        c = Instr.derive req d src rooted ∧ v = 4 * 2 ^ 28 + b2n rooted * 2 ^ 27 + ↑src * 256 + ↑d ∨
                          c = Instr.wrap req src ∧ v = 5 * 2 ^ 28 + ↑src * 256 ∨
                            c = Instr.unwrap req d ∧ v = 6 * 2 ^ 28 + ↑d ∨
                              c = Instr.ksInvalidate req d ∧ v = 7 * 2 ^ 28 + ↑d ∨
                                c = Instr.sessionOut req src ∧ v = 8 * 2 ^ 28 + ↑src * 256) ∧
                  (2 ≤ v / 2 ^ 28 → v / 2 ^ 28 ≤ 4 → attrBad s.ksData = false) ∧
                    (ksWrites (v / 2 ^ 28) = true → kState (s.ksSlot ↑d).bytes ≠ ksBad ∨ s.isOwner req = true) ∧
                      (v / 2 ^ 28 = 8 → s.asCore req = true) :=
  ⟨(.core 0), 255, 3, true, (.generate (.core 0) 255), (3 * 2 ^ 28 + 255), (testKs 1 {}), core_writer (by decide +kernel),
   by decide +kernel⟩

theorem witness_KeyStoreCommands_derive :
    ∃ (req : Requester) (d : Fin 256) (src : Fin 256) (rooted : Bool) (c : Instr) (v : Nat) (s : State),
      s.Writer req ∧
        s.on0 KS_STATUS_BUSY = false ∧
          s.ks.run = none ∧
            s.ks.prog = [] ∧
              s.retired = false ∧
                (c = Instr.readAttr req d ∧ v = 2 ^ 28 + ↑d ∨
                    c = Instr.ksImport req d ∧ v = 2 * 2 ^ 28 + ↑d ∨
                      c = Instr.generate req d ∧ v = 3 * 2 ^ 28 + ↑d ∨
                        c = Instr.derive req d src rooted ∧ v = 4 * 2 ^ 28 + b2n rooted * 2 ^ 27 + ↑src * 256 + ↑d ∨
                          c = Instr.wrap req src ∧ v = 5 * 2 ^ 28 + ↑src * 256 ∨
                            c = Instr.unwrap req d ∧ v = 6 * 2 ^ 28 + ↑d ∨
                              c = Instr.ksInvalidate req d ∧ v = 7 * 2 ^ 28 + ↑d ∨
                                c = Instr.sessionOut req src ∧ v = 8 * 2 ^ 28 + ↑src * 256) ∧
                  (2 ≤ v / 2 ^ 28 → v / 2 ^ 28 ≤ 4 → attrBad s.ksData = false) ∧
                    (ksWrites (v / 2 ^ 28) = true → kState (s.ksSlot ↑d).bytes ≠ ksBad ∨ s.isOwner req = true) ∧
                      (v / 2 ^ 28 = 8 → s.asCore req = true) :=
  ⟨(.core 0), 255, 3, true, (.derive (.core 0) 255 3 true), (4 * 2 ^ 28 + 2 ^ 27 + 3 * 256 + 255), (testKs 1 {}), core_writer (by decide +kernel),
   by decide +kernel⟩

theorem witness_KeyStoreCommands_wrap :
    ∃ (req : Requester) (d : Fin 256) (src : Fin 256) (rooted : Bool) (c : Instr) (v : Nat) (s : State),
      s.Writer req ∧
        s.on0 KS_STATUS_BUSY = false ∧
          s.ks.run = none ∧
            s.ks.prog = [] ∧
              s.retired = false ∧
                (c = Instr.readAttr req d ∧ v = 2 ^ 28 + ↑d ∨
                    c = Instr.ksImport req d ∧ v = 2 * 2 ^ 28 + ↑d ∨
                      c = Instr.generate req d ∧ v = 3 * 2 ^ 28 + ↑d ∨
                        c = Instr.derive req d src rooted ∧ v = 4 * 2 ^ 28 + b2n rooted * 2 ^ 27 + ↑src * 256 + ↑d ∨
                          c = Instr.wrap req src ∧ v = 5 * 2 ^ 28 + ↑src * 256 ∨
                            c = Instr.unwrap req d ∧ v = 6 * 2 ^ 28 + ↑d ∨
                              c = Instr.ksInvalidate req d ∧ v = 7 * 2 ^ 28 + ↑d ∨
                                c = Instr.sessionOut req src ∧ v = 8 * 2 ^ 28 + ↑src * 256) ∧
                  (2 ≤ v / 2 ^ 28 → v / 2 ^ 28 ≤ 4 → attrBad s.ksData = false) ∧
                    (ksWrites (v / 2 ^ 28) = true → kState (s.ksSlot ↑d).bytes ≠ ksBad ∨ s.isOwner req = true) ∧
                      (v / 2 ^ 28 = 8 → s.asCore req = true) :=
  ⟨(.core 0), 255, 3, true, (.wrap (.core 0) 3), (5 * 2 ^ 28 + 3 * 256), (testKs 1 {}), core_writer (by decide +kernel),
   by decide +kernel⟩

theorem witness_KeyStoreCommands_unwrap :
    ∃ (req : Requester) (d : Fin 256) (src : Fin 256) (rooted : Bool) (c : Instr) (v : Nat) (s : State),
      s.Writer req ∧
        s.on0 KS_STATUS_BUSY = false ∧
          s.ks.run = none ∧
            s.ks.prog = [] ∧
              s.retired = false ∧
                (c = Instr.readAttr req d ∧ v = 2 ^ 28 + ↑d ∨
                    c = Instr.ksImport req d ∧ v = 2 * 2 ^ 28 + ↑d ∨
                      c = Instr.generate req d ∧ v = 3 * 2 ^ 28 + ↑d ∨
                        c = Instr.derive req d src rooted ∧ v = 4 * 2 ^ 28 + b2n rooted * 2 ^ 27 + ↑src * 256 + ↑d ∨
                          c = Instr.wrap req src ∧ v = 5 * 2 ^ 28 + ↑src * 256 ∨
                            c = Instr.unwrap req d ∧ v = 6 * 2 ^ 28 + ↑d ∨
                              c = Instr.ksInvalidate req d ∧ v = 7 * 2 ^ 28 + ↑d ∨
                                c = Instr.sessionOut req src ∧ v = 8 * 2 ^ 28 + ↑src * 256) ∧
                  (2 ≤ v / 2 ^ 28 → v / 2 ^ 28 ≤ 4 → attrBad s.ksData = false) ∧
                    (ksWrites (v / 2 ^ 28) = true → kState (s.ksSlot ↑d).bytes ≠ ksBad ∨ s.isOwner req = true) ∧
                      (v / 2 ^ 28 = 8 → s.asCore req = true) :=
  ⟨(.core 0), 255, 3, true, (.unwrap (.core 0) 255), (6 * 2 ^ 28 + 255), (testKs 1 {}), core_writer (by decide +kernel),
   by decide +kernel⟩

theorem witness_KeyStoreCommands_invalidate :
    ∃ (req : Requester) (d : Fin 256) (src : Fin 256) (rooted : Bool) (c : Instr) (v : Nat) (s : State),
      s.Writer req ∧
        s.on0 KS_STATUS_BUSY = false ∧
          s.ks.run = none ∧
            s.ks.prog = [] ∧
              s.retired = false ∧
                (c = Instr.readAttr req d ∧ v = 2 ^ 28 + ↑d ∨
                    c = Instr.ksImport req d ∧ v = 2 * 2 ^ 28 + ↑d ∨
                      c = Instr.generate req d ∧ v = 3 * 2 ^ 28 + ↑d ∨
                        c = Instr.derive req d src rooted ∧ v = 4 * 2 ^ 28 + b2n rooted * 2 ^ 27 + ↑src * 256 + ↑d ∨
                          c = Instr.wrap req src ∧ v = 5 * 2 ^ 28 + ↑src * 256 ∨
                            c = Instr.unwrap req d ∧ v = 6 * 2 ^ 28 + ↑d ∨
                              c = Instr.ksInvalidate req d ∧ v = 7 * 2 ^ 28 + ↑d ∨
                                c = Instr.sessionOut req src ∧ v = 8 * 2 ^ 28 + ↑src * 256) ∧
                  (2 ≤ v / 2 ^ 28 → v / 2 ^ 28 ≤ 4 → attrBad s.ksData = false) ∧
                    (ksWrites (v / 2 ^ 28) = true → kState (s.ksSlot ↑d).bytes ≠ ksBad ∨ s.isOwner req = true) ∧
                      (v / 2 ^ 28 = 8 → s.asCore req = true) :=
  ⟨(.core 0), 255, 3, true, (.ksInvalidate (.core 0) 255), (7 * 2 ^ 28 + 255), (testKs 1 {}), core_writer (by decide +kernel),
   by decide +kernel⟩

theorem witness_KeyStoreCommands_session :
    ∃ (req : Requester) (d : Fin 256) (src : Fin 256) (rooted : Bool) (c : Instr) (v : Nat) (s : State),
      s.Writer req ∧
        s.on0 KS_STATUS_BUSY = false ∧
          s.ks.run = none ∧
            s.ks.prog = [] ∧
              s.retired = false ∧
                (c = Instr.readAttr req d ∧ v = 2 ^ 28 + ↑d ∨
                    c = Instr.ksImport req d ∧ v = 2 * 2 ^ 28 + ↑d ∨
                      c = Instr.generate req d ∧ v = 3 * 2 ^ 28 + ↑d ∨
                        c = Instr.derive req d src rooted ∧ v = 4 * 2 ^ 28 + b2n rooted * 2 ^ 27 + ↑src * 256 + ↑d ∨
                          c = Instr.wrap req src ∧ v = 5 * 2 ^ 28 + ↑src * 256 ∨
                            c = Instr.unwrap req d ∧ v = 6 * 2 ^ 28 + ↑d ∨
                              c = Instr.ksInvalidate req d ∧ v = 7 * 2 ^ 28 + ↑d ∨
                                c = Instr.sessionOut req src ∧ v = 8 * 2 ^ 28 + ↑src * 256) ∧
                  (2 ≤ v / 2 ^ 28 → v / 2 ^ 28 ≤ 4 → attrBad s.ksData = false) ∧
                    (ksWrites (v / 2 ^ 28) = true → kState (s.ksSlot ↑d).bytes ≠ ksBad ∨ s.isOwner req = true) ∧
                      (v / 2 ^ 28 = 8 → s.asCore req = true) :=
  ⟨(.core 0), 255, 3, true, (.sessionOut (.core 0) 3), (8 * 2 ^ 28 + 3 * 256), (testKs 1 {}), core_writer (by decide +kernel),
   by decide +kernel⟩

/-- A command in progress that is due. -/
def testKsRun (cmd : Nat) : KsRun := { cmd := cmd * 2 ^ 28 + 255, data := [0, 4, 3, 16] ++ List.replicate 60 0, blob := 0, done := 1000, own := true }

theorem witness_KeyStoreCommands_apply :
    ∃ (q : KsRun) (u : State) (s : State),
      s.ks.run = some q ∧
        q.done ≤ s.cyc ∧
          s.retired = false ∧
            s.ks.prog = [] ∧
              u =
                { s with ks := { s.ks with run := none } } :=
  ⟨(testKsRun 3), _, (testKs 1 { run := some (testKsRun 3) }), by decide +kernel, by decide +kernel, by decide +kernel,
   by decide +kernel, rfl⟩

theorem witness_KeyStoreCommands_shown :
    ∃ (q : KsRun) (u : State) (s : State),
      s.ks.run = some q ∧
        q.done ≤ s.cyc ∧
          s.retired = false ∧
            s.ks.prog = [] ∧
              u =
                  { s with ks := { s.ks with run := none } } ∧
                bits q.cmd 31 28 = 1 :=
  ⟨(testKsRun 1), _, (testKs 1 { run := some (testKsRun 1) }), by decide +kernel, by decide +kernel, by decide +kernel,
   by decide +kernel, rfl, by decide +kernel⟩

theorem witness_KeyStoreCommands_imported :
    ∃ (q : KsRun) (u : State) (s : State),
      s.ks.run = some q ∧
        q.done ≤ s.cyc ∧
          s.retired = false ∧
            s.ks.prog = [] ∧
              u =
                  { s with ks := { s.ks with run := none } } ∧
                bits q.cmd 31 28 = 2 :=
  ⟨(testKsRun 2), _, (testKs 1 { run := some (testKsRun 2) }), by decide +kernel, by decide +kernel, by decide +kernel,
   by decide +kernel, rfl, by decide +kernel⟩

theorem witness_KeyStoreCommands_emptied :
    ∃ (q : KsRun) (u : State) (s : State),
      s.ks.run = some q ∧
        q.done ≤ s.cyc ∧
          s.retired = false ∧
            s.ks.prog = [] ∧
              u =
                  { s with ks := { s.ks with run := none } } ∧
                bits q.cmd 31 28 = 7 :=
  ⟨(testKsRun 7), _, (testKs 1 { run := some (testKsRun 7) }), by decide +kernel, by decide +kernel, by decide +kernel,
   by decide +kernel, rfl, by decide +kernel⟩

/-! ### LifeCycleCommands -/

theorem witness_LifeCycleCommands_provision :
    ∃ (req : Requester) (key : BitVec 16) (c : Instr) (n : Nat) (u : State) (w : State) (s : State),
      s.Reaches req ∧
        lcSeatOk s req = true ∧
          (c = Instr.provision req key ∧ n = 1 ∨
              c = Instr.commission req key ∧ n = 2 ∨
                c = Instr.recover req key ∧ n = 3 ∨
                  c = Instr.installRoot req key ∧ n = 4 ∨
                    c = Instr.addPkh1 req key ∧ n = 5 ∨
                      c = Instr.revoke0 req key ∧ n = 6 ∨ c = Instr.retire req key ∧ n = 7) ∧
            key = 50085 ∧
              lcAllowed s n = true ∧
                u =
                    { s with ks := { s.ks with prog := s.ks.prog ++ lcGroups n (slice s.ksData 0 48) } } ∧
                  w = (lcEffect n u).ksRefresh.ksEvent KS_EVENT_LC :=
  ⟨(.core 1), 0xC3A5, (.provision (.core 1) 0xC3A5), 1, _, _, (testKs 0 {}), core_reaches, by decide +kernel, by decide +kernel,
   rfl, by decide +kernel, rfl, rfl⟩

theorem witness_LifeCycleCommands_commission :
    ∃ (req : Requester) (key : BitVec 16) (c : Instr) (n : Nat) (u : State) (w : State) (s : State),
      s.Reaches req ∧
        lcSeatOk s req = true ∧
          (c = Instr.provision req key ∧ n = 1 ∨
              c = Instr.commission req key ∧ n = 2 ∨
                c = Instr.recover req key ∧ n = 3 ∨
                  c = Instr.installRoot req key ∧ n = 4 ∨
                    c = Instr.addPkh1 req key ∧ n = 5 ∨
                      c = Instr.revoke0 req key ∧ n = 6 ∨ c = Instr.retire req key ∧ n = 7) ∧
            key = 50085 ∧
              lcAllowed s n = true ∧
                u =
                    { s with ks := { s.ks with prog := s.ks.prog ++ lcGroups n (slice s.ksData 0 48) } } ∧
                  w = (lcEffect n u).ksRefresh.ksEvent KS_EVENT_LC :=
  ⟨(.core 1), 0xC3A5, (.commission (.core 1) 0xC3A5), 2, _, _, (testKs 1 {}), core_reaches, by decide +kernel, by decide +kernel,
   rfl, by decide +kernel, rfl, rfl⟩

theorem witness_LifeCycleCommands_recover :
    ∃ (req : Requester) (key : BitVec 16) (c : Instr) (n : Nat) (u : State) (w : State) (s : State),
      s.Reaches req ∧
        lcSeatOk s req = true ∧
          (c = Instr.provision req key ∧ n = 1 ∨
              c = Instr.commission req key ∧ n = 2 ∨
                c = Instr.recover req key ∧ n = 3 ∨
                  c = Instr.installRoot req key ∧ n = 4 ∨
                    c = Instr.addPkh1 req key ∧ n = 5 ∨
                      c = Instr.revoke0 req key ∧ n = 6 ∨ c = Instr.retire req key ∧ n = 7) ∧
            key = 50085 ∧
              lcAllowed s n = true ∧
                u =
                    { s with ks := { s.ks with prog := s.ks.prog ++ lcGroups n (slice s.ksData 0 48) } } ∧
                  w = (lcEffect n u).ksRefresh.ksEvent KS_EVENT_LC :=
  ⟨(.pf0), 0xC3A5, (.recover .pf0 0xC3A5), 3, _,
   _, { testUp [(KS_STATUS_LC, 2), (OW_STATUS_OWNER, 0)] with vis := { pfMse := true } }, ⟨(by intro v h; cases h), (by decide +kernel), (by decide +kernel)⟩,
   by decide +kernel, by decide +kernel, rfl, by decide +kernel, rfl, rfl⟩

theorem witness_LifeCycleCommands_installRoot :
    ∃ (req : Requester) (key : BitVec 16) (c : Instr) (n : Nat) (u : State) (w : State) (s : State),
      s.Reaches req ∧
        lcSeatOk s req = true ∧
          (c = Instr.provision req key ∧ n = 1 ∨
              c = Instr.commission req key ∧ n = 2 ∨
                c = Instr.recover req key ∧ n = 3 ∨
                  c = Instr.installRoot req key ∧ n = 4 ∨
                    c = Instr.addPkh1 req key ∧ n = 5 ∨
                      c = Instr.revoke0 req key ∧ n = 6 ∨ c = Instr.retire req key ∧ n = 7) ∧
            key = 50085 ∧
              lcAllowed s n = true ∧
                u =
                    { s with ks := { s.ks with prog := s.ks.prog ++ lcGroups n (slice s.ksData 0 48) } } ∧
                  w = (lcEffect n u).ksRefresh.ksEvent KS_EVENT_LC :=
  ⟨(.core 1), 0xC3A5, (.installRoot (.core 1) 0xC3A5), 4, _, _, (testKs 3 {}), core_reaches, by decide +kernel, by decide +kernel,
   rfl, by decide +kernel, rfl, rfl⟩

theorem witness_LifeCycleCommands_addPkh1 :
    ∃ (req : Requester) (key : BitVec 16) (c : Instr) (n : Nat) (u : State) (w : State) (s : State),
      s.Reaches req ∧
        lcSeatOk s req = true ∧
          (c = Instr.provision req key ∧ n = 1 ∨
              c = Instr.commission req key ∧ n = 2 ∨
                c = Instr.recover req key ∧ n = 3 ∨
                  c = Instr.installRoot req key ∧ n = 4 ∨
                    c = Instr.addPkh1 req key ∧ n = 5 ∨
                      c = Instr.revoke0 req key ∧ n = 6 ∨ c = Instr.retire req key ∧ n = 7) ∧
            key = 50085 ∧
              lcAllowed s n = true ∧
                u =
                    { s with ks := { s.ks with prog := s.ks.prog ++ lcGroups n (slice s.ksData 0 48) } } ∧
                  w = (lcEffect n u).ksRefresh.ksEvent KS_EVENT_LC :=
  ⟨(.core 1), 0xC3A5, (.addPkh1 (.core 1) 0xC3A5), 5, _, _, (testKs 3 {}), core_reaches, by decide +kernel, by decide +kernel,
   rfl, by decide +kernel, rfl, rfl⟩

theorem witness_LifeCycleCommands_revoke0 :
    ∃ (req : Requester) (key : BitVec 16) (c : Instr) (n : Nat) (u : State) (w : State) (s : State),
      s.Reaches req ∧
        lcSeatOk s req = true ∧
          (c = Instr.provision req key ∧ n = 1 ∨
              c = Instr.commission req key ∧ n = 2 ∨
                c = Instr.recover req key ∧ n = 3 ∨
                  c = Instr.installRoot req key ∧ n = 4 ∨
                    c = Instr.addPkh1 req key ∧ n = 5 ∨
                      c = Instr.revoke0 req key ∧ n = 6 ∨ c = Instr.retire req key ∧ n = 7) ∧
            key = 50085 ∧
              lcAllowed s n = true ∧
                u =
                    { s with ks := { s.ks with prog := s.ks.prog ++ lcGroups n (slice s.ksData 0 48) } } ∧
                  w = (lcEffect n u).ksRefresh.ksEvent KS_EVENT_LC :=
  ⟨(.core 1), 0xC3A5, (.revoke0 (.core 1) 0xC3A5), 6, _, _, (testKs 3 { fuses := { pkhSet := 3 } }), core_reaches,
   by decide +kernel, by decide +kernel, rfl, by decide +kernel, rfl, rfl⟩

theorem witness_LifeCycleCommands_retire :
    ∃ (req : Requester) (key : BitVec 16) (c : Instr) (n : Nat) (u : State) (w : State) (s : State),
      s.Reaches req ∧
        lcSeatOk s req = true ∧
          (c = Instr.provision req key ∧ n = 1 ∨
              c = Instr.commission req key ∧ n = 2 ∨
                c = Instr.recover req key ∧ n = 3 ∨
                  c = Instr.installRoot req key ∧ n = 4 ∨
                    c = Instr.addPkh1 req key ∧ n = 5 ∨
                      c = Instr.revoke0 req key ∧ n = 6 ∨ c = Instr.retire req key ∧ n = 7) ∧
            key = 50085 ∧
              lcAllowed s n = true ∧
                u =
                    { s with ks := { s.ks with prog := s.ks.prog ++ lcGroups n (slice s.ksData 0 48) } } ∧
                  w = (lcEffect n u).ksRefresh.ksEvent KS_EVENT_LC :=
  ⟨(.core 1), 0xC3A5, (.retire (.core 1) 0xC3A5), 7, _, _, (testKs 0 {}), core_reaches, by decide +kernel, by decide +kernel, rfl,
   by decide +kernel, rfl, rfl⟩

theorem witness_LifeCycleCommands_refused :
    ∃ (req : Requester) (key : BitVec 16) (c : Instr) (n : Nat) (s : State),
      s.Reaches req ∧
        lcSeatOk s req = true ∧
          (c = Instr.provision req key ∧ n = 1 ∨
              c = Instr.commission req key ∧ n = 2 ∨
                c = Instr.recover req key ∧ n = 3 ∨
                  c = Instr.installRoot req key ∧ n = 4 ∨
                    c = Instr.addPkh1 req key ∧ n = 5 ∨
                      c = Instr.revoke0 req key ∧ n = 6 ∨ c = Instr.retire req key ∧ n = 7) ∧
            key ≠ 50085 :=
  ⟨(.core 1), 0xC3A4, (.retire (.core 1) 0xC3A4), 7, (testKs 0 {}), core_reaches, by decide +kernel⟩

theorem witness_LifeCycleCommands_fuses :
    ∃ (g : Nat) (d : List Byte) (rest : List (Nat × List Byte)) (s : State),
      s.ks.prog = (g, d) :: rest :=
  ⟨0, (List.replicate 48 5), [(2, [1]), (4, [])], (testKs 0 { prog := [(0, List.replicate 48 5), (2, [1]), (4, [])] }),
   by decide +kernel⟩

/-- The four words of 16 bytes give them back. -/
theorem token_words (l : List Byte) (h : l.length = 16) (f : Nat → Nat)
    (hf : ∀ i, i < 4 → f i = leAt l (4 * i) 4 % 2 ^ 32) : (List.range 4).flatMap (fun i => leBytes 4 (f i)) = l := by
  have e : (List.range 4).flatMap (fun i => leBytes 4 (f i)) =
      (List.range 4).flatMap (fun i => leBytes 4 (leAt l (4 * i) 4 % 2 ^ 32)) := by
    simp [List.range, List.range.loop, hf]
  rw [e]
  match l, h with
  | [a0, a1, a2, a3, a4, a5, a6, a7, a8, a9, a10, a11, a12, a13, a14, a15], _ =>
    have k : ∀ a b c d : Byte, leBytes 4 (leNat [a, b, c, d] % 4294967296) = [a, b, c, d] := by
      intro a b c d
      have ha := a.isLt; have hb := b.isLt; have hc := c.isLt; have hd := d.isLt
      simp only [leNat, leBytes, List.cons.injEq, and_true]
      refine ⟨?_, ?_, ?_, ?_⟩ <;> apply BitVec.eq_of_toNat_eq <;> simp only [BitVec.toNat_ofNat] <;> omega
    simp [List.range, List.range.loop, leAt, slice, k]

/-- A key for clearing in slot 5, and a recorder of 9 records whose token words and number clear the log up to record 8. -/
def testClearKey : List Byte := [1, 4, 3, 16] ++ List.replicate 44 0

def testToken : List Byte := clearToken (kKey testClearKey) 8 77

def testClear : State :=
  { testUp [] with
    regs := (testUp [(OW_STATUS_OWNER, 0), (OW_ACT_SEAT.i 0, 0), (EV_CLR_SEQ_SEQ, 8)]).regs ++
      (List.range 4).map (fun i => (EV_CLR_TOK_TOKEN.addr + 4 * i, BitVec.ofNat 32 (leAt testToken (4 * i) 4)))
    regs0 := (testUp [(OW_STATUS_OWNER, 0), (OW_ACT_SEAT.i 0, 0)]).regs
    ev := { entered := 9, next := 9, nonce := some 77, ring := (List.range 9).map (fun q => (q, q, leBytes 32 (q + 1))) }
    ks := { State.reset.ks with slots := [(5, { bytes := testClearKey, tag := ksTag State.reset.ks.kInt 5 testClearKey })] } }

/-- That recorder as CLEAR finds it. -/
def testClearing : State := { testClear.swPut 0xB00088 (2 ^ 30 + 5) with ev := { testClear.ev with nonce := none } }

/-! ### RecorderRegisterCommands -/

theorem witness_RecorderRegisterCommands_cleared :
    ∃ (req : Requester) (slot : Fin 256) (n : Nat) (b : List Byte) (w u : State) (s : State), s.Writer req ∧ s.isOwner req = true ∧
      s.ev.nonce = some n ∧
      w = { s.swPut 0xB00088 (2 ^ 30 + slot.val) with ev := { s.ev with nonce := none } } ∧ w.ksFetch slot = (b, true, u) ∧
      u.retired = false ∧ kState b = ksValid ∧ bit (kUse b) useClear = true ∧ kAlg b = 3 ∧
      (List.range 4).flatMap (fun i => leBytes 4 (u.word (EV_CLR_TOK_TOKEN.addr + 4 * i))) =
        clearToken (kKey b) (u.rd EV_CLR_SEQ_SEQ) n ∧
      u.ev.entered ≠ 0 ∧ seqOf u (u.rd EV_CLR_SEQ_SEQ) % 2 ^ 32 = u.rd EV_CLR_SEQ_SEQ ∧
      u.ev.firstHeld ≤ seqOf u (u.rd EV_CLR_SEQ_SEQ) ∧ seqOf u (u.rd EV_CLR_SEQ_SEQ) < u.ev.entered ∧
      u.on EV_STATUS_CLEAR_BUSY = false := by
  have hl : testToken.length = 16 := by
    simp only [testToken, clearToken, slice, List.length_append, List.length_replicate, List.length_take, List.length_drop]
    omega
  refine ⟨.core 0, 5, 77, testClearKey, testClearing, testClearing, testClear, core_writer (by decide +kernel), by decide +kernel, rfl,
    rfl, ?_, by decide +kernel, by decide +kernel, by decide +kernel, by decide +kernel, ?_, by decide +kernel⟩
  · have h1 : ({ bytes := testClearKey, tag := ksTag State.reset.ks.kInt 5 testClearKey } : KsSlot) ≠ {} :=
      fun h => absurd (congrArg KsSlot.bytes h) (by decide +kernel)
    show (if false = true then (testClearKey, false, testClearing.ksFind 5 true)
      else if ({ bytes := testClearKey, tag := ksTag State.reset.ks.kInt 5 testClearKey } : KsSlot) = {} then
        (testClearKey, true, testClearing)
      else if ksTag State.reset.ks.kInt 5 testClearKey = ksTag State.reset.ks.kInt 5 testClearKey then
        (testClearKey, true, testClearing) else (testClearKey, false, testClearing.ksFind 5 false)) = _
    rw [if_neg (by decide), if_neg h1, if_pos rfl]
  · have e : clearToken (kKey testClearKey) (testClearing.rd EV_CLR_SEQ_SEQ) 77 = testToken :=
      congrArg (fun q => clearToken (kKey testClearKey) q 77) (by decide +kernel)
    exact (token_words testToken hl _ (fun i hi => by
      match i, hi with
      | 0, _ => rfl
      | 1, _ => rfl
      | 2, _ => rfl
      | 3, _ => rfl)).trans e.symm

/-- A powered module in boot state `st`. -/
def testBoot (st : Nat) (l : List (Fld × Nat)) (b : Boot := {}) : State :=
  { testUp ([(BT_STATUS_STATE, st)] ++ l) with elec := { vin := true }, boot := b, cl := { por := false, runs := true } }

/-! ### StartsAndSupplies -/

theorem witness_StartsAndSupplies_powered :
    ∃ (s : State),
      s.elec.vin = true :=
  ⟨(testBoot 6 []), by decide +kernel⟩

theorem witness_StartsAndSupplies_warm :
    ∃ (tr : Nat) (warm : Bool) (t : State) (s : State),
      tr < 8 ∧ t = s.restart tr warm ∧ warm = true ∧ s.warmOk = true :=
  ⟨7, true, _, ({ testBoot 6 [] with cl := { por := false, runs := true } }.wr CL_STATUS_ROOT_LOST 0), by decide +kernel, rfl,
   rfl, by decide +kernel⟩

theorem witness_StartsAndSupplies_cold :
    ∃ (tr : Nat) (warm : Bool) (t : State) (s : State),
      tr < 8 ∧ t = s.restart tr warm ∧ (warm = false ∨ s.warmOk = false) :=
  ⟨7, false, _, (testBoot 6 []), by decide +kernel, rfl, by decide +kernel⟩

theorem witness_StartsAndSupplies_release :
    ∃ (s : State),
      s.bt = 0 ∧ s.dom 1 ≠ 1 ∧ s.elec.vin = true ∧ s.elec.rst = false ∧ s.elec.vio = false ∧ s.cl.wakeDue = false ∧ s.cl.por = false :=
  ⟨{ State.reset with elec := { vin := true }, cl := { por := false } }, by decide +kernel⟩

theorem witness_StartsAndSupplies_lock :
    ∃ (s : State),
      s.bt = 1 ∧ s.clk.running = false :=
  ⟨(testBoot 1 []), by decide +kernel⟩

theorem witness_StartsAndSupplies_dram :
    ∃ (s : State),
      s.bt = 1 ∧ s.boot.dram = false :=
  ⟨(testBoot 1 []), by decide +kernel⟩

theorem witness_StartsAndSupplies_complete :
    ∃ (s : State),
      s.bt = 1 ∧ s.boot.dram = true ∧ s.clk.running = true :=
  ⟨{ testBoot 1 [] { dram := true } with clk := { running := true } }, by decide +kernel⟩

theorem witness_StartsAndSupplies_rest :
    ∃ (req : Requester) (pd : Fin 16) (s : State),
      s.Writer req ∧ s.mayRest ↑pd = true ∧ s.dom pd = 1 :=
  ⟨(.core 0), 12, (testBoot 6 []), core_writer (by decide +kernel), by decide +kernel⟩

theorem witness_StartsAndSupplies_restDark :
    ∃ (req : Requester) (pd : Fin 16) (s : State),
      s.Writer req ∧ s.mayRest ↑pd = true ∧ s.dom pd ≠ 1 :=
  ⟨(.core 0), 8, ((testBoot 6 []).setDom 8 0), core_writer (by decide +kernel), by decide +kernel⟩

theorem witness_StartsAndSupplies_wake :
    ∃ (req : Requester) (pd : Fin 16) (s : State),
      s.Writer req ∧ s.dom ↑pd = 2 ∧ ∀ (w : Nat), (↑pd, w) ∉ s.arch.wakes :=
  ⟨(.core 0), 12, ((testBoot 6 []).setDom 12 2), core_writer (by decide +kernel), by decide +kernel, by intro w h; cases h⟩

theorem witness_StartsAndSupplies_kick :
    ∃ (req : Requester) (s : State),
      s.Writer req ∧ s.boot.cores.isSome = true :=
  ⟨(.core 0), (testBoot 6 [] { cores := some 5 }), core_writer (by decide +kernel), by decide +kernel⟩

theorem witness_StartsAndSupplies_watchdog :
    ∃ (s : State),
      s.boot.wdRuns = true ∧ s.rd PM_WDOG_MS ≠ 0 ∧ s.boot.wdFrom + s.rd PM_WDOG_MS * uMs < s.clk.lapse :=
  ⟨{ testBoot 6 [(PM_WDOG_MS, 1)] { wdRuns := true } with clk := { lapse := 1000000 * 2 ^ 40 + 1 } }, by decide +kernel⟩

theorem witness_StartsAndSupplies_watchdogRestart :
    ∃ (s : State),
      s.boot.wdRuns = true ∧ s.rd PM_WDOG_MS ≠ 0 ∧ s.boot.wdFrom + s.rd PM_WDOG_MS * uMs < s.clk.lapse ∧
        s.on PM_WDOG_ACTION = true ∧ s.on0 EV_CTRL_EN = true ∧ s.ev.scan = false ∧ s.ev.queue = [] :=
  ⟨{ testBoot 6 [(PM_WDOG_MS, 1), (PM_WDOG_ACTION, 1)] { wdRuns := true } with
      clk := { lapse := 1000000 * 2 ^ 40 + 1 }, regs0 := (testUp [(EV_CTRL_EN, 1)]).regs, ev := { scan := false } }, by decide +kernel⟩

theorem witness_StartsAndSupplies_vana :
    ∃ (s : State),
      (s.dom 12 = 1 ∨ s.dom 12 = 2) ∧ (s.bt = 5 ∨ s.bt = 6) :=
  ⟨(testBoot 6 []), by decide +kernel⟩

theorem witness_StartsAndSupplies_vanaEarly :
    ∃ (s : State),
      (s.dom 12 = 1 ∨ s.dom 12 = 2) ∧ s.bt ≠ 5 ∧ s.bt ≠ 6 :=
  ⟨(testBoot 4 []), by decide +kernel⟩

/-! ### BootCommands -/

theorem witness_BootCommands_source :
    ∃ (s : State),
      s.bt = 2 ∧ s.on PM_ID_BOOT_SRC = true ∧ s.boot.begun = false ∧ s.boot.waitFrom + 2 * uS ≤ s.clk.lapse :=
  ⟨{ testBoot 2 [(PM_ID_BOOT_SRC, 1)] with clk := { lapse := 2000000000 * 2 ^ 40 } }, by decide +kernel⟩

theorem witness_BootCommands_apertureUnmapped :
    ∃ (s : State),
      s.bt = 2 ∧ s.vis.pfMse = false :=
  ⟨(testBoot 2 []), by decide +kernel⟩

theorem witness_BootCommands_aperture :
    ∃ (s : State),
      s.bt = 2 ∧ s.vis.pfMse = true ∧ s.boot.apOpen = true :=
  ⟨{ testBoot 2 [] { apOpen := true } with vis := { pfMse := true } }, by decide +kernel⟩

theorem witness_BootCommands_apertureShut :
    ∃ (s : State),
      s.bt = 2 ∧ s.vis.pfMse = true ∧ s.boot.apOpen = false :=
  ⟨{ testBoot 2 [] with vis := { pfMse := true } }, by decide +kernel⟩

theorem witness_BootCommands_submit :
    ∃ (s : State),
      s.bt = 2 ∧ s.vis.pfMse = true :=
  ⟨{ testBoot 2 [] with vis := { pfMse := true } }, by decide +kernel⟩

theorem witness_BootCommands_abort :
    ∃ (s : State),
      s.bt = 2 ∧ s.vis.pfMse = true :=
  ⟨{ testBoot 2 [] with vis := { pfMse := true } }, by decide +kernel⟩

theorem witness_BootCommands_verifyFails :
    ∃ (s : State),
      s.bt = 3 ∧ bundleCause s ≠ 0 :=
  ⟨(testBoot 3 []), by decide +kernel⟩

theorem witness_BootCommands_checks :
    ∃ (b : Bool) (s : State),
      s.bt = 4 ∧ s.boot.trial = some b :=
  ⟨true, (testBoot 4 [] { trial := some true }), by decide +kernel⟩

theorem witness_BootCommands_powerUp :
    ∃ (d : Nat) (rest : List Nat) (s : State),
      s.bt = 4 ∧ s.boot.todo = d :: rest ∧ d < 16 :=
  ⟨12, [], (testBoot 4 [] { todo := [12] }), by decide +kernel⟩

theorem witness_BootCommands_selfTest :
    ∃ (q : Fin 4) (s : State),
      s.bt = 4 ∧ s.dom (2 + ↑q) = 1 ∧ s.boot.tested.contains ↑q = false :=
  ⟨3, (testBoot 4 []), by decide +kernel⟩

theorem witness_BootCommands_noMinimum :
    ∃ (s : State),
      s.bt = 4 ∧ s.domainsDone = true ∧ s.minimumSet = false :=
  ⟨(testBoot 4 [(BT_STATUS_IMG_SEL, 1), (PM_FENCE_FENCE, 0xFFFFFFFF)] { tested := [0, 1, 2, 3] }), by decide +kernel⟩

theorem witness_BootCommands_degraded :
    ∃ (s : State),
      s.bt = 4 ∧ s.domainsDone = true ∧ (s.rd PM_FENCE_FENCE ≠ 0 ∨ ∃ d, d < 16 ∧ s.dom d = 3) ∧ s.minimumSet = true :=
  ⟨(testBoot 4 [(BT_STATUS_IMG_SEL, 1), (PM_FENCE_FENCE, 1)] { tested := [0, 1, 2, 3] }), by decide +kernel, by decide +kernel,
   .inl (by decide +kernel), by decide +kernel⟩

theorem witness_BootCommands_sections :
    ∃ (s : State),
      s.bt = 4 ∧ s.domainsDone = true ∧ s.minimumSet = true :=
  ⟨(testBoot 4 [(BT_STATUS_IMG_SEL, 1)] { tested := [0, 1, 2, 3] }), by decide +kernel⟩

theorem witness_BootCommands_enter :
    ∃ (s : State) (req : Requester),
      s.bt = 5 ∧ s.Writer req :=
  ⟨(testBoot 5 []), (.core 0), by decide +kernel, core_writer (by decide +kernel)⟩

theorem witness_BootCommands_discover :
    ∃ (s : State),
      s.bt = 5 ∧ s.boot.discFrom + s.rd BT_SVC_DISC_MAX_S * uS ≤ s.clk.lapse :=
  ⟨{ testBoot 5 [(BT_SVC_DISC_MAX_S, 1)] with clk := { lapse := 1000000000 * 2 ^ 40 } }, by decide +kernel⟩

/-- A message of type `kind` about tick 3 of second 0, with payload `body`. -/
def testMsg (kind : Nat) (body : List Byte) : TwinRx :=
  { port := 0, ago := 0, octets := leBytes 1 kind ++ [0] ++ leBytes 2 body.length ++ leBytes 4 5 ++ leBytes 4 0 ++ leBytes 2 3 ++
      leBytes 2 0 ++ body }

/-- A module of a pair in pair state `st`, in SERVICE. -/
def testTwin (st : Nat) (l : List (Fld × Nat)) (p : Pr := {}) : State :=
  { testUp ([(PR_CTRL_EN, 1), (PR_STATUS_STATE, st), (BT_STATUS_STATE, 6)] ++ l) with
    cyc := 30000, pr := p, clk := { lapse := 4000000000000 * 2 ^ 40, lastTick := some (3, 5000, 0), prevTick := some 2, raised := 4 } }

/-- A message is taken where its four conditions hold (R454, R458). -/
theorem takes_of {s : State} {kind : Nat} {m : TwinRx}
    (h : s.dom 10 = 1 ∧ mType m.octets = kind ∧
      (kind < 0x10 → s.on PR_CTRL_EN = true ∧ (kind = 1 ∨ mEpoch m.octets = s.pr.epoch)) ∧
      (kind < 0x11 → s.pr.seen.contains (mSeq m.octets) = false)) : s.Takes kind m := ⟨h.1, h.2.1, h.2.2.1, h.2.2.2⟩

/-! ### PairMessages -/

theorem witness_PairMessages_taken :
    ∃ (kind : Nat) (m : TwinRx) (s : State),
      s.Takes kind m :=
  ⟨7, (testMsg 7 []), (testTwin 2 []), takes_of (by decide +kernel)⟩

theorem witness_PairMessages_hello :
    ∃ (m : TwinRx) (p : List Byte) (g : Nat) (t : State) (s : State),
      s.runs 10 = true ∧ p = mBody m.octets ∧ g = t.mTick m.octets ∧ s.Takes 1 m ∧ t = (twinTake 1 m s).2 :=
  ⟨(testMsg 1 (List.replicate 18 0)), _, 3, (twinTake 1 (testMsg 1 (List.replicate 18 0)) (testTwin 2 [])).2, (testTwin 2 []),
   by decide +kernel, rfl, by decide +kernel, takes_of (by decide +kernel), rfl⟩

theorem witness_PairMessages_record :
    ∃ (m : TwinRx) (p : List Byte) (g : Nat) (t : State) (s : State),
      s.runs 10 = true ∧ p = mBody m.octets ∧ g = t.mTick m.octets ∧ s.Takes 2 m ∧ t = (twinTake 2 m s).2 ∧ s.standby = true :=
  ⟨(testMsg 2 ([0,0,0,0,0,0,1] ++ List.replicate 21 0)),
   _, 3, (twinTake 2 (testMsg 2 ([0,0,0,0,0,0,1] ++ List.replicate 21 0)) (testTwin 2 [])).2, (testTwin 2 []), by decide +kernel,
   rfl, by decide +kernel, takes_of (by decide +kernel), rfl, by decide +kernel⟩

theorem witness_PairMessages_listing :
    ∃ (m : TwinRx) (p : List Byte) (g : Nat) (t : State) (s : State),
      s.runs 10 = true ∧ p = mBody m.octets ∧ g = t.mTick m.octets ∧ s.Takes 2 m ∧ t = (twinTake 2 m s).2 ∧ s.standby = false ∧
        t.owned? g = false :=
  ⟨(testMsg 2 ([0,0,0,0,0,0,1] ++ List.replicate 21 0)),
   _, 3, (twinTake 2 (testMsg 2 ([0,0,0,0,0,0,1] ++ List.replicate 21 0)) (testTwin 4 [] { own := [(3, false)] })).2,
   (testTwin 4 [] { own := [(3, false)] }), by decide +kernel,
   rfl, by decide +kernel, takes_of (by decide +kernel), rfl, by decide +kernel⟩

/-- A standby with a set of group 0 open for tick 3. -/
def testOpen : State :=
  { testTwin 2 [] with al := { sets := [{ tick := 3, group := 0, close := 10 ^ 9 * 2 ^ 40, conc := 0, skip := false }] } }

/-- A set record of one absent stream. -/
def testSet : TwinRx := testMsg 3 [0, 1, 1, 0, 0, 0, 0, 0, 0, 0, 0, 0, 0, 0, 5, 0]

theorem witness_PairMessages_set :
    ∃ (m : TwinRx) (p : List Byte) (g : Nat) (t : State) (s : State) (grp : Nat) (ask : List Nat) (u : State),
      s.runs 10 = true ∧
        p = mBody m.octets ∧
          g = t.mTick m.octets ∧
            s.Takes 3 m ∧
              t = (twinTake 3 m s).2 ∧
                (s.standby = true ∨ t.owned? g = false) ∧
                  grp = leAt p 0 1 % 64 ∧
                    t.cyc + 32 ≤ t.cycleAt (t.closeOf grp g) ∧
                      (t.al.sets.any fun o => o.tick == g && o.group == grp) = true ∧
                        List.foldl (fun a e => (a.1 ++ (adoptEntry g e a.2).1.toList, (adoptEntry g e a.2).2)) ([], t)
                            (setEntries p) =
                          (ask, u) :=
  ⟨testSet, _, 3, (twinTake 3 testSet testOpen).2, testOpen, 0, [], (twinTake 3 testSet testOpen).2, by decide +kernel, rfl,
   by decide +kernel, takes_of (by decide +kernel), rfl, by decide +kernel⟩

theorem witness_PairMessages_copyReq :
    ∃ (m : TwinRx) (p : List Byte) (g : Nat) (t : State) (s : State),
      s.runs 10 = true ∧
        p = mBody m.octets ∧
          g = t.mTick m.octets ∧ s.Takes 4 m ∧ t = (twinTake 4 m s).2 ∧ (s.holdsClaim = true ∨ s.owned? g = true) :=
  ⟨(testMsg 4 [1, 0, 5, 0, 0, 0]), _, 3, (twinTake 4 (testMsg 4 [1, 0, 5, 0, 0, 0]) (testTwin 4 [])).2, (testTwin 4 []),
   by decide +kernel, rfl, by decide +kernel, takes_of (by decide +kernel), rfl, by decide +kernel⟩

theorem witness_PairMessages_copy :
    ∃ (m : TwinRx) (p : List Byte) (g : Nat) (t : State) (s : State) (a : Nat × Nat × List Nat),
      s.runs 10 = true ∧
        p = mBody m.octets ∧
          g = t.mTick m.octets ∧
            s.Takes 5 m ∧ t = (twinTake 5 m s).2 ∧ (s.standby = true ∨ t.owned? g = false) ∧
              s.pr.asked.find? (fun x => x.1 == g && x.2.1 % 16 == mPart m.octets) = some a :=
  ⟨(testMsg 5 (List.replicate 64 0)),
   _, 3, (twinTake 5 (testMsg 5 (List.replicate 64 0)) (testTwin 2 [] { asked := [(3, 0, [5])] })).2, (testTwin 2 [] { asked := [(3, 0, [5])] }), (3, 0, [5]),
   by decide +kernel, rfl, by decide +kernel, takes_of (by decide +kernel), rfl, by decide +kernel⟩

theorem witness_PairMessages_force :
    ∃ (m : TwinRx) (p : List Byte) (g : Nat) (t : State) (s : State),
      s.runs 10 = true ∧ p = mBody m.octets ∧ g = t.mTick m.octets ∧ s.Takes 6 m ∧ t = (twinTake 6 m s).2 ∧ s.standby = true :=
  ⟨(testMsg 6 (List.replicate 40 0 ++ [63, 2])),
   _, 3, (twinTake 6 (testMsg 6 (List.replicate 40 0 ++ [63, 2])) (testTwin 3 [])).2, (testTwin 3 []), by decide +kernel, rfl,
   by decide +kernel, takes_of (by decide +kernel), rfl, by decide +kernel⟩

theorem witness_PairMessages_syncReq :
    ∃ (m : TwinRx) (p : List Byte) (g : Nat) (t : State) (s : State),
      s.runs 10 = true ∧
        p = mBody m.octets ∧
          g = t.mTick m.octets ∧ s.Takes 7 m ∧ t = (twinTake 7 m s).2 ∧ s.holdsClaim = true ∧ t.pairOn = true :=
  ⟨(testMsg 7 []), _, 3, (twinTake 7 (testMsg 7 []) (testTwin 4 [])).2, (testTwin 4 []), by decide +kernel, rfl,
   by decide +kernel, takes_of (by decide +kernel), rfl, by decide +kernel⟩

theorem witness_PairMessages_state :
    ∃ (m : TwinRx) (p : List Byte) (g : Nat) (t : State) (s : State) (grp : Nat) (u : State),
      s.runs 10 = true ∧
        p = mBody m.octets ∧
          g = t.mTick m.octets ∧
            s.Takes 8 m ∧
              t = (twinTake 8 m s).2 ∧
                s.pairState = 2 ∧
                  grp = leAt p 0 2 % 4096 ∧
                    s.pr.installed.contains grp = false ∧
                      u =
                        { t with pr := { t.pr with
                            syncAt := none
                            parts := t.pr.parts.filter (fun x => !(x.1 == grp && x.2.1 != g)) ++
                              [(grp, g, leAt p 2 2, leAt p 4 4, p.drop 8)] } } :=
  ⟨(testMsg 8 [255, 15, 0, 0, 0, 0, 0, 0]),
   _, 3, (twinTake 8 (testMsg 8 [255, 15, 0, 0, 0, 0, 0, 0]) (testTwin 2 [])).2, (testTwin 2 []), 4095, _, by decide +kernel, rfl,
   by decide +kernel, takes_of (by decide +kernel), rfl, by decide +kernel, by decide +kernel,
   by decide +kernel, rfl⟩

theorem witness_PairMessages_serve :
    ∃ (m : TwinRx) (p : List Byte) (g : Nat) (t : State) (s : State),
      s.runs 10 = true ∧
        p = mBody m.octets ∧
          g = t.mTick m.octets ∧
            s.Takes 16 m ∧ t = (twinTake 16 m s).2 ∧ s.inService = true ∧ s.on PR_CTRL_SERVE_EN = true ∧ s.pr.serve = none :=
  ⟨(testMsg 16 []),
   _, 3, (twinTake 16 (testMsg 16 []) (testTwin 4 [(PR_CTRL_SERVE_EN, 1)])).2, (testTwin 4 [(PR_CTRL_SERVE_EN, 1)]),
   by decide +kernel, rfl, by decide +kernel, takes_of (by decide +kernel), rfl, by decide +kernel⟩

theorem witness_PairMessages_serveRefused :
    ∃ (m : TwinRx) (p : List Byte) (g : Nat) (t : State) (s : State),
      s.runs 10 = true ∧
        p = mBody m.octets ∧
          g = t.mTick m.octets ∧
            s.Takes 16 m ∧ t = (twinTake 16 m s).2 ∧ (s.inService = false ∨ s.on PR_CTRL_SERVE_EN = false) :=
  ⟨(testMsg 16 []), _, 3, (twinTake 16 (testMsg 16 []) (testTwin 4 [])).2, (testTwin 4 []), by decide +kernel, rfl,
   by decide +kernel, takes_of (by decide +kernel), rfl, by decide +kernel⟩

/-- A request for a register of the twin. -/
def testTwinReg (op : Byte) : TwinRx := testMsg 11 [0, 0, 0, 0, 0, op, 0, 0, 1, 2, 3, 4]

theorem witness_PairMessages_regRead :
    ∃ (m : TwinRx) (p : List Byte) (t : State) (s : State),
      p = mBody m.octets ∧ s.Takes 11 m ∧ t = (twinTake 11 m s).2 ∧ leAt p 5 1 = 1 :=
  ⟨(testTwinReg 1), _, _, (testTwin 4 []), rfl, takes_of (by decide +kernel), rfl, by decide +kernel⟩

theorem witness_PairMessages_regWrite :
    ∃ (m : TwinRx) (p : List Byte) (t : State) (s : State),
      p = mBody m.octets ∧ s.Takes 11 m ∧ t = (twinTake 11 m s).2 ∧ leAt p 5 1 = 2 :=
  ⟨(testTwinReg 2), _, _, (testTwin 4 []), rfl, takes_of (by decide +kernel), rfl, by decide +kernel⟩

theorem witness_PairMessages_regResponse :
    ∃ (m : TwinRx) (p : List Byte) (t : State) (s : State),
      p = mBody m.octets ∧ s.Takes 12 m ∧ t = (twinTake 12 m s).2 :=
  ⟨(testMsg 12 [0, 0, 0, 0, 0, 0, 0, 0, 1, 2, 3, 4]), _, _, (testTwin 4 []), rfl, takes_of (by decide +kernel), rfl⟩

/-- A module that waits for a bundle of its partner. -/
def testWait (p : Pr := {}) : State := testOn [(BT_STATUS_STATE, 2), (PM_ID_BOOT_SRC, 1)] (testTwin 0 [] p)

theorem witness_PairMessages_bundleData :
    ∃ (m : TwinRx) (p : List Byte) (t : State) (s : State),
      p = mBody m.octets ∧ s.Takes 17 m ∧ t = (twinTake 17 m s).2 ∧ s.bt = 2 ∧ s.on PM_ID_BOOT_SRC = true :=
  ⟨(testMsg 17 [252, 255, 255, 3, 1, 2, 3, 4, 5]), _, _, testWait, rfl, takes_of (by decide +kernel),
   rfl, by decide +kernel⟩

theorem witness_PairMessages_bundleEnd :
    ∃ (m : TwinRx) (p : List Byte) (t : State) (s : State) (x : BundleRx),
      p = mBody m.octets ∧
        s.Takes 18 m ∧ t = (twinTake 18 m s).2 ∧ s.bt = 2 ∧ s.on PM_ID_BOOT_SRC = true ∧ s.pr.rx = some x ∧ leAt p 0 4 ≠ 0 :=
  ⟨(testMsg 18 [8, 0, 0, 0]), _, _, (testWait { rx := some { last := 0, parts := [(0, 8)] } }), { last := 0, parts := [(0, 8)] },
   rfl, takes_of (by decide +kernel), rfl, by decide +kernel⟩

theorem witness_PairMessages_helloSend :
    ∃ (c : Nat) (s : State),
      s.runs 10 = true ∧ c ≤ s.clk.lapse ∧ s.pr.helloAt = some c ∧ s.pairOp = true :=
  ⟨7, (testTwin 2 [] { helloAt := some 7 }), by decide +kernel⟩

theorem witness_PairMessages_syncReqSend :
    ∃ (c : Nat) (s : State),
      s.runs 10 = true ∧ c ≤ s.clk.lapse ∧ s.pr.syncAt = some c ∧ s.pairState = 2 ∧ s.partnerOk = true :=
  ⟨7, (testTwin 2 [(PR_STATUS_PARTNER, 1), (PR_STATUS_COMPAT, 1)] { syncAt := some 7 }), by decide +kernel⟩

theorem witness_PairMessages_bundleReqSend :
    ∃ (s : State),
      s.bt = 2 ∧ s.on PM_ID_BOOT_SRC = true ∧ s.dom 10 = 1 ∧ s.pr.rx = none ∧ s.pr.reqNext ≤ s.clk.lapse :=
  ⟨testWait, by decide +kernel⟩

theorem witness_PairMessages_bundleTimeout :
    ∃ (s : State) (x : BundleRx),
      s.bt = 2 ∧ s.pr.rx = some x ∧ x.last + 100 * uMs < s.clk.lapse :=
  ⟨(testWait { rx := some { last := 0, parts := [] } }), { last := 0, parts := [] }, by decide +kernel⟩

/-! ### ClaimsAndReverts -/

theorem witness_ClaimsAndReverts_absent :
    ∃ (s : State),
      s.runs 10 = true ∧ s.runs 1 = true ∧ s.on PR_STATUS_PARTNER = true ∧ s.pr.lastRx + 10 * uMs < s.clk.lapse :=
  ⟨(testTwin 4 [(PR_STATUS_PARTNER, 1)]), by decide +kernel⟩

theorem witness_ClaimsAndReverts_watchdog :
    ∃ (s : State),
      s.runs 1 = true ∧ s.recordOwed = true ∧ 10000 ≤ s.tickCy ∧ s.on PR_STATUS_NOCLAIM = false :=
  ⟨((testTwin 4 []).setDom 10 2), by decide +kernel⟩

theorem witness_ClaimsAndReverts_fed :
    ∃ (s : State),
      s.runs 1 = true ∧ (s.recordOwed = false ∨ s.tickCy < 10000) :=
  ⟨(testTwin 4 [] { fed := some 2 }), by decide +kernel⟩

theorem witness_ClaimsAndReverts_padsDark :
    ∃ (s u : State),
      s.runs 1 = false ∧ s.on PR_STATUS_ILK_IN = true ∧ u.runs 1 = false ∧ u.on PR_STATUS_ILK_IN = false :=
  ⟨((testTwin 3 [(PR_STATUS_ILK_IN, 1)]).setDom 1 0), ((testTwin 3 []).setDom 1 0), by decide +kernel⟩

theorem witness_ClaimsAndReverts_arrived :
    ∃ (s : State) (n : Nat),
      s.runs 10 = true ∧
        s.runs 1 = true ∧
          s.clk.prevTick = some n ∧
            s.standby = true ∧
              s.pairOp = true ∧ 20000 ≤ s.tickCy ∧ s.pr.checked ≠ some n ∧ s.pr.standbyFrom ≤ n ∧ s.pr.recs.contains n = true :=
  ⟨(testTwin 3 [] { recs := [2] }), 2, by decide +kernel⟩

theorem witness_ClaimsAndReverts_missed :
    ∃ (s : State) (n : Nat),
      s.runs 10 = true ∧
        s.runs 1 = true ∧
          s.clk.prevTick = some n ∧
            s.standby = true ∧
              s.pairOp = true ∧
                20000 ≤ s.tickCy ∧
                  s.pr.checked ≠ some n ∧
                    s.pr.standbyFrom ≤ n ∧
                      s.pr.recs.contains n = false ∧
                        (s.pr.missed = false ∨ s.on PR_STATUS_NOCLAIM = false ∧ s.pr.detected = none) :=
  ⟨(testTwin 3 [] { missed := true }), 2, by decide +kernel⟩

theorem witness_ClaimsAndReverts_fall :
    ∃ (s : State),
      s.runs 10 = true ∧ s.runs 1 = true ∧ s.on PR_STATUS_ILK_IN = true :=
  ⟨(testTwin 3 [(PR_STATUS_ILK_IN, 1)]), by decide +kernel⟩

theorem witness_ClaimsAndReverts_rise :
    ∃ (s : State),
      s.runs 10 = true ∧ s.runs 1 = true ∧ s.on PR_STATUS_ILK_IN = false :=
  ⟨(testTwin 5 [(PM_ID_PAIR_ID, 1)] { wasActive := true }), by decide +kernel⟩

/-- That module at the cycle of a tick-start event. -/
def testStart (s : State) : State := { s with clk := { s.clk with lastTick := some (3, 30000, 0) } }

theorem witness_ClaimsAndReverts_claim :
    ∃ (s : State) (r : Nat) (cause : Nat),
      s.runs 10 = true ∧
        s.runs 1 = true ∧
          s.pr.detected = some (r, cause) ∧
            r < s.clk.raised ∧
              s.tickCy = 0 ∧ s.standby = true ∧ s.on PR_STATUS_NOCLAIM = false ∧ (s.isB && s.on PR_STATUS_ILK_IN) = false :=
  ⟨(testStart (testTwin 3 [] { detected := some (3, 2) })), 3, 2, by decide +kernel⟩

theorem witness_ClaimsAndReverts_blocked :
    ∃ (s : State) (r : Nat) (cause : Nat),
      s.runs 10 = true ∧
        s.runs 1 = true ∧
          s.pr.detected = some (r, cause) ∧
            r < s.clk.raised ∧
              s.tickCy = 0 ∧ s.standby = true ∧ s.on PR_STATUS_NOCLAIM = false ∧ (s.isB && s.on PR_STATUS_ILK_IN) = true :=
  ⟨(testStart (testTwin 3 [(PM_ID_PAIR_ID, 1), (PR_STATUS_ILK_IN, 1)] { detected := some (3, 2) })), 3, 2, by decide +kernel⟩

theorem witness_ClaimsAndReverts_hold :
    ∃ (s : State),
      s.runs 10 = true ∧
        s.runs 1 = true ∧
          s.pairState = 3 ∧
            s.isB = false ∧
              s.on PR_CTRL_REVERT_EN = true ∧
                s.on PR_STATUS_NOCLAIM = false ∧
                  s.pr.revDue = false ∧ s.pr.reqAt = none ∧ s.pr.stepFrom + s.rd PR_REVERT_HOLD_S * uS ≤ s.clk.lapse :=
  ⟨(testTwin 3 [(PR_CTRL_REVERT_EN, 1)]), by decide +kernel⟩

theorem witness_ClaimsAndReverts_request :
    ∃ (s : State) (m : TwinRx) (t : State) (u : State),
      s.runs 10 = true ∧
        s.runs 1 = true ∧
          s.Takes 9 m ∧
            t = (twinTake 9 m s).2 ∧
              s.isB = true ∧ u = t.twinTick 10 (t.mTick m.octets) (leBytes 1 (t.revertCause (t.mTick m.octets))) :=
  ⟨(testTwin 4 [(PM_ID_PAIR_ID, 1)]), (testMsg 9 []), _, _, by decide +kernel, by decide +kernel, takes_of (by decide +kernel), rfl, by decide +kernel, rfl⟩

theorem witness_ClaimsAndReverts_accepted :
    ∃ (s : State) (m : TwinRx) (t : State),
      s.runs 10 = true ∧
        s.runs 1 = true ∧
          s.Takes 10 m ∧
            t = (twinTake 10 m s).2 ∧ s.isB = false ∧ s.pairState = 3 ∧ s.pr.reqAt ≠ none ∧ leAt (mBody m.octets) 0 1 % 16 = 0 :=
  ⟨(testTwin 3 [] { reqAt := some 4 }), (testMsg 10 [0]), _, by decide +kernel, by decide +kernel, takes_of (by decide +kernel), rfl, by decide +kernel⟩

theorem witness_ClaimsAndReverts_refused :
    ∃ (s : State) (m : TwinRx) (t : State),
      s.runs 10 = true ∧
        s.runs 1 = true ∧
          s.Takes 10 m ∧
            t = (twinTake 10 m s).2 ∧ s.isB = false ∧ s.pairState = 3 ∧ s.pr.reqAt ≠ none ∧ leAt (mBody m.octets) 0 1 % 16 ≠ 0 :=
  ⟨(testTwin 3 [] { reqAt := some 4 }), (testMsg 10 [1]), _, by decide +kernel, by decide +kernel, takes_of (by decide +kernel), rfl, by decide +kernel⟩

theorem witness_ClaimsAndReverts_ackTimeout :
    ∃ (s : State) (r : Nat),
      s.runs 10 = true ∧ s.runs 1 = true ∧ s.pr.reqAt = some r ∧ s.pairState = 3 ∧ r + 4 ≤ s.clk.raised :=
  ⟨(testTwin 3 [] { reqAt := some 0 }), 0, by decide +kernel⟩

theorem witness_ClaimsAndReverts_revert :
    ∃ (s : State) (g : Nat),
      s.runs 10 = true ∧
        s.runs 1 = true ∧
          s.pr.gr = some g ∧
            s.pairState = 5 ∧ s.pr.wasActive = false ∧ g = s.tickG ∧ s.tickCy = 0 ∧ s.on PR_STATUS_NOCLAIM = false :=
  ⟨(testStart (testTwin 5 [] { gr := some 3 })), 3, by decide +kernel⟩

theorem witness_ClaimsAndReverts_releaseTimeout :
    ∃ (s : State) (g : Nat),
      s.runs 10 = true ∧
        s.runs 1 = true ∧
          s.pr.gr = some g ∧ s.pairState = 5 ∧ s.pr.wasActive = true ∧ g < s.tickG ∧ s.on PR_STATUS_ILK_IN = false :=
  ⟨(testTwin 5 [] { gr := some 2, wasActive := true }), 2, by decide +kernel⟩

/-! ### EventsAndContainment -/

theorem witness_EventsAndContainment_soft :
    ∃ (req : Requester) (s : State),
      s.Writer req :=
  ⟨(.core 0), (testUp []), core_writer (by decide +kernel)⟩

theorem witness_EventsAndContainment_fence :
    ∃ (req : Requester) (s : State),
      s.Writer req :=
  ⟨(.core 0), (testUp []), core_writer (by decide +kernel)⟩

theorem witness_EventsAndContainment_fenced :
    ∃ (c : Fin 32) (s : State),
      s.fenced ↑c = false ∧ (s.bt = 5 ∨ s.bt = 6) :=
  ⟨31, (testUp [(BT_STATUS_STATE, 6)]), by decide +kernel⟩

theorem witness_EventsAndContainment_send :
    ∃ (vec : Fin 64) (s : State),
      s.ic.due.contains ↑vec = true ∧ s.vecHeld ↑vec = false :=
  ⟨63, { testUp [(IC_MSIX_W.i 255, 0)] with ic := { due := [63] }, vis := { pfBme := true } }, by decide +kernel⟩

theorem witness_EventsAndContainment_stop :
    ∃ (s : State) (cause : Fin 4),
      (↑cause = 1 ∨ ↑cause = 2) ∧ s.dom 1 = 1 :=
  ⟨(testUp []), 2, by decide +kernel⟩

theorem witness_EventsAndContainment_power :
    ∃ (s u : State),
      s.dom 1 = 1 ∧ u.elec.pgLost = true :=
  ⟨(testUp []), { testUp [] with elec := { pgLost := true } }, by decide +kernel⟩

theorem witness_EventsAndContainment_pll :
    ∃ (s : State),
      s.clk.running = true :=
  ⟨{ testUp [] with clk := { running := true } }, by decide +kernel⟩

theorem witness_EventsAndContainment_vin :
    ∃ (s : State),
      s.elec.vin = true :=
  ⟨{ testUp [] with elec := { vin := true } }, by decide +kernel⟩

theorem witness_EventsAndContainment_fatal :
    ∃ (s : State) (c : Nat),
      c < 256 ∧ s.on IC_STATUS_FATAL = false :=
  ⟨(testUp []), 255, by decide +kernel⟩

theorem witness_EventsAndContainment_config :
    ∃ (c : PcieCfg) (s : State),
      2 ≤ s.rd0 BT_STATUS_STATE ∧ s.functionOf c = true :=
  ⟨(.numVfs 512), (testUp [(BT_STATUS_STATE, 2)]), by decide +kernel⟩

end Sys2Proof.Machine
end

section
/-!
Software writes by access code (R10, R11): what the fold of `swValue` over a register's fields does to one bit.
-/
namespace Sys2Proof.Machine

theorem and_mod_two (x y : Nat) : (x &&& y) % 2 = x % 2 &&& y % 2 := by
  simpa using Nat.and_mod_two_pow (a := x) (b := y) (n := 1)

theorem and_div_two (x y : Nat) : (x &&& y) / 2 = x / 2 &&& y / 2 := by
  simpa using Nat.and_div_two_pow (a := x) (b := y) (n := 1)

/-- Clearing the common bits by subtraction: no bit borrows from another. -/
theorem testBit_sub_and (x y i : Nat) : (x - (x &&& y)).testBit i = (x.testBit i && !y.testBit i) := by
  induction i generalizing x y with
  | zero =>
    have hs : (x - (x &&& y)) % 2 = x % 2 - (x % 2 &&& y % 2) := by
      have hm := and_mod_two x y
      have h1 : x &&& y ≤ x := Nat.and_le_left
      have h2 : x % 2 &&& y % 2 ≤ x % 2 := Nat.and_le_left
      omega
    rw [Nat.testBit_zero, Nat.testBit_zero, Nat.testBit_zero, hs]
    rcases Nat.mod_two_eq_zero_or_one x with hx | hx <;> rcases Nat.mod_two_eq_zero_or_one y with hy | hy <;> simp [hx, hy]
  | succ i ih =>
    have hs : (x - (x &&& y)) / 2 = x / 2 - (x / 2 &&& y / 2) := by
      have hd := and_div_two x y
      have hm := and_mod_two x y
      have h1 : x &&& y ≤ x := Nat.and_le_left
      have h2 : x % 2 &&& y % 2 ≤ x % 2 := Nat.and_le_left
      omega
    rw [Nat.testBit_succ, hs, ih, Nat.testBit_succ, Nat.testBit_succ]

/-- What a software write of `v` makes of one field of `x`, as `swValue` folds it over the fields of a register (R10, R11). -/
def swField (ev v x : Nat) (f : FieldDesc) : Nat :=
  match f.acc with
  | .rw => setBits x f.hi f.lo (bits v f.hi f.lo)
  | .w1c =>
    let o := bits x f.hi f.lo
    setBits x f.hi f.lo ((o - (o &&& bits v f.hi f.lo)) ||| (o &&& bits ev f.hi f.lo))
  | .ro | .rc | .wo => x

theorem swValue_eq_foldl (d : RegDesc) (old ev v : Nat) : swValue d old ev v = d.fields.foldl (swField ev v) old := rfl

/-- A bit inside the field, by the field's access code. -/
def swBit (acc : Acc) (old ev v : Bool) : Bool :=
  match acc with
  | .rw => v
  | .w1c => old && (!v || ev)
  | .ro | .rc | .wo => old

theorem testBit_swField_outside (ev v x i : Nat) (f : FieldDesc) (hf : f.lo ≤ f.hi) (hi : i < f.lo ∨ f.hi < i) :
    (swField ev v x f).testBit i = x.testBit i := by
  have hn : ¬ (f.lo ≤ i ∧ i ≤ f.hi) := by omega
  unfold swField
  split
  case h_1 | h_2 => rw [testBit_setBits _ _ _ _ _ hf, if_neg hn]
  all_goals rfl

theorem testBit_swField_inside (ev v x i : Nat) (f : FieldDesc) (h1 : f.lo ≤ i) (h2 : i ≤ f.hi) :
    (swField ev v x f).testBit i = swBit f.acc (x.testBit i) (ev.testBit i) (v.testBit i) := by
  have hw : i - f.lo < f.hi + 1 - f.lo := by omega
  have hb (y : Nat) : (bits y f.hi f.lo).testBit (i - f.lo) = y.testBit i := by
    rw [testBit_bits, Nat.add_sub_cancel' h1, decide_eq_true hw, Bool.true_and]
  have hs (y : Nat) : (setBits x f.hi f.lo y).testBit i = y.testBit (i - f.lo) := by
    rw [testBit_setBits _ _ _ _ _ (h1.trans h2), if_pos ⟨h1, h2⟩]
  cases h : f.acc with
  | rw => simp only [swField, swBit, h, hs, hb]
  | w1c => simp only [swField, swBit, h, hs, Nat.testBit_or, Nat.testBit_and, testBit_sub_and, hb, Bool.and_or_distrib_left]
  | ro | rc | wo => simp only [swField, swBit, h]

/-- A bit that no field covers stays. -/
theorem testBit_foldl_swField_outside (ev v i : Nat) (l : List FieldDesc) (hl : ∀ f ∈ l, f.lo ≤ f.hi)
    (hi : ∀ f ∈ l, i < f.lo ∨ f.hi < i) (x : Nat) : (l.foldl (swField ev v) x).testBit i = x.testBit i := by
  induction l generalizing x with
  | nil => rfl
  | cons f l ih =>
    rw [List.forall_mem_cons] at hl hi
    rw [List.foldl_cons, ih hl.2 hi.2, testBit_swField_outside _ _ _ _ _ hl.1 hi.1]

/-- A bit of one of several fields that do not overlap is written by that field alone. -/
theorem testBit_foldl_swField_inside (ev v i : Nat) (l : List FieldDesc) (hl : ∀ f ∈ l, f.lo ≤ f.hi)
    (hp : l.Pairwise (fun f g => f.hi < g.lo ∨ g.hi < f.lo)) {f : FieldDesc} (hf : f ∈ l) (h1 : f.lo ≤ i) (h2 : i ≤ f.hi)
    (x : Nat) : (l.foldl (swField ev v) x).testBit i = swBit f.acc (x.testBit i) (ev.testBit i) (v.testBit i) := by
  induction l generalizing x with
  | nil => cases hf
  | cons g l ih =>
    rw [List.forall_mem_cons] at hl
    obtain ⟨hg, hp⟩ := List.pairwise_cons.1 hp
    rw [List.foldl_cons]
    rcases List.mem_cons.1 hf with rfl | hf
    · have hout : ∀ k ∈ l, i < k.lo ∨ k.hi < i := fun k hk => by
        have := hg k hk
        omega
      rw [testBit_foldl_swField_outside ev v i l hl.2 hout, testBit_swField_inside ev v x i f h1 h2]
    · have hout : i < g.lo ∨ g.hi < i := by
        have := hg f hf
        omega
      rw [ih hl.2 hp hf, testBit_swField_outside ev v x i g hl.1 hout]

/-- Settles O10: of fields that do not overlap, the one that covers a bit decides it, and a bit outside all fields stays. -/
theorem softwareWriteByAccessCode : Obligations.SoftwareWriteByAccessCode := by
  intro d old ev v i _ hfit hp
  have hle : ∀ f ∈ d.fields, f.lo ≤ f.hi := fun f hf => (hfit f hf).1
  simp only [swValue_eq_foldl]
  refine ⟨fun f hf h1 h2 => ?_, fun hout => testBit_foldl_swField_outside ev v i d.fields hle hout old⟩
  rw [testBit_foldl_swField_inside ev v i d.fields hle hp hf h1 h2 old]
  cases f.acc <;> rfl

end Sys2Proof.Machine
end

section
/-!
Accesses of the address map: where an access of register space or of a memory lands, and what a reported access that finds
nothing leaves (R9, R28, R33, R34, R485).
-/
namespace Sys2Proof.Machine

/-! ### The rows -/

theorem exec_registerWrite (req : Requester) (addr : BitVec 40) (v : Word) (s : State) :
    exec (.registerWrite req addr v) s = .next (access { req := req, addr := addr, write := some v } s) := rfl

theorem exec_readClearAccess (req : Requester) (addr : BitVec 40) (s : State) :
    exec (.readClearAccess req addr) s = .next (access { req := req, addr := addr, write := none } s) := rfl

/-! ### Register space -/

/-- An access of register space by one whom it serves reaches the map. -/
theorem access_register {s : State} {a : Access} {o : Nat} (hr : s.Reaches a.req) (ha : a.addr.toNat = addrRegs + o) :
    access a s = mapAccess a s := by
  rw [access, ha, hr.reach]

/-- An access of a page of a powered domain reaches the page's registers. -/
theorem access_page {s : State} {a : Access} {o i : Nat} {b : Block} (hr : s.Reaches a.req)
    (ha : a.addr.toNat = addrRegs + o) (ho : o < 0x3000000) (hb : pageBlock (o / 0x10000) = some (b, i))
    (hp : s.Powered (pageDomain b i)) (hn : b ≠ .aq ∨ s.is5120 = false) :
    access a s = regAccess b i (o % 0x10000) a s := by
  have hq : ¬ (b = .aq ∧ s.is5120 = true) := by
    rintro ⟨h1, h2⟩
    rcases hn with h | h
    · exact h h1
    · simp [h] at h2
  have hpw : pageDomain b i < 2 ∨ s.dom (pageDomain b i) = 1 := hp
  simp only [access_register hr ha, mapAccess, ha, target_register ho, hb, if_neg hq, needDomain, if_pos hpw]

/-- The AQ_ page of a BXM-5120 answers every access with 0 (R3). -/
theorem access_aq_5120 {s : State} {a : Access} {o : Nat} (hr : s.Reaches a.req) (ha : a.addr.toNat = addrRegs + o)
    (ho : o / 0x10000 = 0x90) (h : s.is5120 = true) : access a s = s.answer a 0 false := by
  have hlt : o < 0x3000000 := by omega
  have hb : pageBlock (o / 0x10000) = some (.aq, 0) := by rw [ho]; rfl
  simp only [access_register hr ha, mapAccess, ha, target_register hlt, hb, h, and_self, if_true]

/-- An access of an unassigned offset finds nothing; it is reported with KIND 1 (R9). -/
theorem regAccess_unassigned {s : State} {a : Access} {b : Block} {i o : Nat} (hv : ∀ v, a.req ≠ .vf v)
    (hd : descIn b i o = none) : regAccess b i o a s = s.answerError a 1 false := by
  simp only [regAccess, hd, Option.isNone_none, if_true]
  split
  · exact absurd ‹_› (hv _)
  · rfl

/-! ### Memory -/

theorem target_memory_lt {a d : Nat} {c : Option Nat} (h : target a = .memory d c) : a < 0x0800000000 := by
  unfold target at h
  split at h
  · omega
  · split at h
    · cases h
    · split at h
      · omega
      · split at h
        · simp only [addrPantry] at *
          omega
        · split at h <;> cases h

theorem target_memory_toNat {a d : Nat} {c : Option Nat} (h : target a = .memory d c) : (BitVec.ofNat 40 a).toNat = a := by
  have := target_memory_lt h
  simp only [BitVec.toNat_ofNat]
  omega

theorem State.ReachesMemory.reach {s : State} {r : Requester} (h : s.ReachesMemory r) {a : Nat} (ha : a < 0x0800000000)
    (read : Bool) : s.reach r a read = .through := by
  obtain ⟨⟨hv, hp, hd⟩, hb⟩ := h
  have hn : ¬ addrRegs ≤ a := by
    simp only [addrRegs]
    omega
  unfold State.reach
  cases r with
  | core => rfl
  | loader => rfl
  | twin => rfl
  | vf v => exact absurd rfl (hv v)
  | pf0 => simp only [State.pfReach, hp rfl, if_neg hn, if_pos ha, hb rfl, Bool.not_true, Bool.false_eq_true, if_false,
      and_self, true_or, if_true]
  | debug => simp only [hd rfl, if_true]

/-- An access of a powered memory by one whom it serves. -/
theorem access_memory {s : State} {req : Requester} {x d : Nat} {c : Option Nat} (w : Option Word) (hr : s.ReachesMemory req)
    (ht : target x = .memory d c) (hp : s.Powered d) :
    access { req := req, addr := BitVec.ofNat 40 x, write := w } s =
      memAccess c { req := req, addr := BitVec.ofNat 40 x, write := w } s := by
  have hpw : d < 2 ∨ s.dom d = 1 := hp
  simp only [access, target_memory_toNat ht, hr.reach (target_memory_lt ht), mapAccess, ht, needDomain, if_pos hpw]

/-- The SRAM of a fenced cluster discards writes and reads 0 (R30). -/
theorem memAccess_fenced {s : State} {n : Nat} (a : Access) (h : s.fenced n = true) :
    memAccess (some n) a s = s.answer a 0 false := by
  simp only [memAccess, Option.map_some, h, Option.getD_some, if_true]

theorem not_fenced_getD {s : State} {c : Option Nat} (h : ∀ n, c = some n → s.fenced n = false) :
    (c.map s.fenced).getD false = false := by
  cases c with
  | none => rfl
  | some n => exact h n rfl

/-- A word written to, and read from, a powered memory that is not fenced, as the rows make the accesses. -/
theorem exec_memory_word {s : State} {req : Requester} {x d : Nat} {c : Option Nat} (hr : s.ReachesMemory req)
    (ht : target x = .memory d c) (hp : s.Powered d) (hf : ∀ n, c = some n → s.fenced n = false) (v : Word) :
    exec (.registerWrite req (BitVec.ofNat 40 x) v) s =
      .next ((mapStoreWord x v s).answer { req := req, addr := BitVec.ofNat 40 x, write := some v } 0 false) ∧
    exec (.readClearAccess req (BitVec.ofNat 40 x)) s =
      .next (s.answer { req := req, addr := BitVec.ofNat 40 x, write := none } (s.mapWord x) false (s.badSpan x 4)) := by
  simp only [exec_registerWrite, exec_readClearAccess, access_memory _ hr ht hp, memAccess, not_fenced_getD hf,
    target_memory_toNat ht, Bool.false_eq_true, if_false, Option.elim_none, and_self]

/-- Outside the reserved parts of a lane's SRAM the map shows the bytes of memory. -/
theorem State.mapWord_plain (s : State) {x : Nat} (h : ∀ i, i < 4 → laneReserved (x + i) = false) :
    s.mapWord x = s.loadN x 4 := by
  unfold State.mapWord State.loadN State.load
  congr 1
  refine List.map_congr_left fun i hi => ?_
  rw [h i (List.mem_range.1 hi)]
  rfl

/-- The reserved parts of a lane's SRAM read 0 (R240). -/
theorem State.mapWord_reserved (s : State) {x : Nat} (h : ∀ i, i < 4 → laneReserved (x + i) = true) : s.mapWord x = 0 := by
  have he : (List.range 4).map (fun i => if laneReserved (x + i) then 0 else s.memByte (x + i)) =
      (List.range 4).map (fun _ => (0 : Byte)) := by
    refine List.map_congr_left fun i hi => ?_
    rw [h i (List.mem_range.1 hi)]
    rfl
  rw [State.mapWord, he]
  rfl

/-! ### Reading and clearing a register (R10, R11) -/

theorem regDesc_eq {o i : Nat} {b : Block} (hb : pageBlock (o / 0x10000) = some (b, i)) :
    regDesc o = descIn b i (o % 0x10000) := by
  rw [regDesc, hb]

/-- A read clears nothing but registers. -/
theorem State.readClear_frame (s : State) (o : Nat) :
    s.readClear o = { s with regs := (s.readClear o).regs, regs0 := (s.readClear o).regs0 } := by
  unfold State.readClear
  split
  · rfl
  · dsimp only
    split <;> rfl

/-- A read clears no other register. -/
theorem State.readClear_word_ne (s : State) {o a : Nat} (h : a ≠ o) : (s.readClear o).word a = s.word a := by
  unfold State.readClear
  split
  · rfl
  · dsimp only
    split
    · rfl
    · exact State.word_put_ne s _ h

/-- Setting fields that share no bit with a field leaves it and stays within 32 bits. -/
theorem foldl_setBits_disjoint (l : List FieldDesc) (w : FieldDesc → Nat) {f : FieldDesc}
    (hl : ∀ g ∈ l, g.lo ≤ g.hi ∧ g.hi < 32 ∧ (g.hi < f.lo ∨ f.hi < g.lo)) (x : Nat) (hx : x < 2 ^ 32) :
    bits (l.foldl (fun y g => setBits y g.hi g.lo (w g)) x) f.hi f.lo = bits x f.hi f.lo ∧
      l.foldl (fun y g => setBits y g.hi g.lo (w g)) x < 2 ^ 32 := by
  induction l generalizing x with
  | nil => exact ⟨rfl, hx⟩
  | cons g l ih =>
    rw [List.forall_mem_cons] at hl
    obtain ⟨⟨hle, hlt, hd⟩, hl⟩ := hl
    obtain ⟨h1, h2⟩ := ih hl _ (setBits_lt x g.hi g.lo (w g) 32 hle hlt hx)
    exact ⟨h1.trans (bits_setBits_disjoint x g.hi g.lo (w g) f.hi f.lo hle hd), h2⟩

/-- A read leaves every field of its register but the RC fields. -/
theorem State.readClear_field (s : State) {o : Nat} {d : RegDesc} {f : FieldDesc} (hd : regDesc o = some d) (hrc : f.acc ≠ .rc)
    (hg : ∀ g ∈ d.fields, g ≠ f → g.lo ≤ g.hi ∧ g.hi < 32 ∧ (g.hi < f.lo ∨ f.hi < g.lo)) :
    bits ((s.readClear o).word o) f.hi f.lo = bits (s.word o) f.hi f.lo := by
  have hl : ∀ g ∈ d.fields.filter (fun g => g.acc == .rc), g.lo ≤ g.hi ∧ g.hi < 32 ∧ (g.hi < f.lo ∨ f.hi < g.lo) := by
    intro g hm
    obtain ⟨hm, hacc⟩ := List.mem_filter.1 hm
    refine hg g hm ?_
    rintro rfl
    exact hrc (eq_of_beq hacc)
  obtain ⟨hb, hlt⟩ := foldl_setBits_disjoint _ (fun g => bits (s.evWord o) g.hi g.lo) hl (s.word o) (s.word_lt o)
  unfold State.readClear
  rw [hd]
  dsimp only
  split
  · rfl
  · rw [← hb]
    congr 1
    exact (State.word_put_self s o _).trans (Nat.mod_eq_of_lt hlt)

theorem bit_eq_testBit (x n : Nat) : bit x n = x.testBit n := by
  rw [bit, Nat.testBit_eq_decide_div_mod_eq, Nat.shiftRight_eq_div_pow]
  rfl

/-! ### Updates that touch registers and events only -/

/-- Nothing but the register file and the event delivery has changed. -/
def EventsOnly (s t : State) : Prop := t = s.withEvents t

theorem EventsOnly.refl (s : State) : EventsOnly s s := rfl

theorem EventsOnly.trans {s t u : State} (h : EventsOnly s t) (h' : EventsOnly t u) : EventsOnly s u := by
  unfold EventsOnly at h h'
  rw [h', h]
  rfl

theorem EventsOnly.wr {s t : State} (h : EventsOnly s t) (f : Fld) (v : Nat) : EventsOnly s (t.wr f v) := h.trans rfl
theorem EventsOnly.flag {s t : State} (h : EventsOnly s t) (f : Fld) : EventsOnly s (t.flag f) := h.trans rfl
theorem EventsOnly.inc {s t : State} (h : EventsOnly s t) (f : Fld) : EventsOnly s (t.inc f) := h.trans rfl

theorem EventsOnly.raise {s t : State} (h : EventsOnly s t) (es : Nat) : EventsOnly s (t.raise es) := by
  refine h.trans ?_
  unfold State.raise State.makeDue EventsOnly
  split <;> rfl

theorem State.rd_flag_apart (s : State) (f g : Fld) (hf : f.fits) (h : f.apart g) : (s.flag f).rd g = s.rd g :=
  State.rd_wr_apart s f g _ hf h

/-! ### The access-error log (R485) -/

/-- The access-error log takes the access, as `accessError` fills it while it is free. -/
def State.logAccess (s : State) (r : Requester) (addr : Nat) (write : Bool) (kind : Nat) : State :=
  ((((((s.wr IC_ACC_ADDR_LO_ADDR_LO addr).wr IC_ACC_ADDR_HI_ADDR_HI (addr / 2 ^ 32)).wr IC_ACC_INFO_WRITE
    (b2n write)).wr IC_ACC_INFO_SEAT (s.seat r)).wr IC_ACC_INFO_REQ (reqCode r)).wr IC_ACC_INFO_KIND kind).flag
    IC_ACC_INFO_VALID

theorem State.accessError_eq (s : State) (r : Requester) (addr : Nat) (write : Bool) (kind : Nat) :
    s.accessError r addr write kind =
      ((if s.on IC_ACC_INFO_VALID then s else s.logAccess r addr write kind).inc IC_G_ACC_ERR).raise ES_IC := rfl

theorem State.logAccess_events (s : State) (r : Requester) (addr : Nat) (write : Bool) (kind : Nat) :
    EventsOnly s (s.logAccess r addr write kind) :=
  ((((((EventsOnly.refl s).wr _ _).wr _ _).wr _ _).wr _ _).wr _ _).wr _ _ |>.flag _

theorem State.accessError_events (s : State) (r : Requester) (addr : Nat) (write : Bool) (kind : Nat) :
    EventsOnly s (s.accessError r addr write kind) := by
  rw [State.accessError_eq]
  refine (EventsOnly.inc ?_ _).raise _
  split
  · exact .refl s
  · exact s.logAccess_events r addr write kind

/-- Registers outside the log read as before. -/
theorem State.logAccess_word_ne (s : State) (r : Requester) (addr : Nat) (write : Bool) (kind : Nat) {a : Nat}
    (h1 : a ≠ IC_ACC_ADDR_LO_ADDR_LO.addr) (h2 : a ≠ IC_ACC_ADDR_HI_ADDR_HI.addr) (h3 : a ≠ IC_ACC_INFO_KIND.addr) :
    (s.logAccess r addr write kind).word a = s.word a := by
  have hwrite : a ≠ IC_ACC_INFO_WRITE.addr := h3
  have hseat : a ≠ IC_ACC_INFO_SEAT.addr := h3
  have hreq : a ≠ IC_ACC_INFO_REQ.addr := h3
  have hvalid : a ≠ IC_ACC_INFO_VALID.addr := h3
  rw [State.logAccess, State.word_flag_ne _ _ hvalid, State.word_wr_ne _ _ _ h3, State.word_wr_ne _ _ _ hreq,
    State.word_wr_ne _ _ _ hseat, State.word_wr_ne _ _ _ hwrite, State.word_wr_ne _ _ _ h2, State.word_wr_ne _ _ _ h1]

/-- The log shows the access: its address, kind, direction and requester. -/
theorem State.logAccess_rd (s : State) (r : Requester) (addr : Nat) (write : Bool) (kind : Nat) :
    (s.logAccess r addr write kind).rd IC_ACC_INFO_VALID = 1 ∧
    (s.logAccess r addr write kind).rd IC_ACC_INFO_KIND = kind % 2 ^ 16 ∧
    (s.logAccess r addr write kind).rd IC_ACC_INFO_WRITE = b2n write ∧
    (s.logAccess r addr write kind).rd IC_ACC_INFO_REQ = reqCode r % 2 ^ 4 ∧
    (s.logAccess r addr write kind).rd IC_ACC_ADDR_LO_ADDR_LO = addr % 2 ^ 32 ∧
    (s.logAccess r addr write kind).rd IC_ACC_ADDR_HI_ADDR_HI = addr / 2 ^ 32 % 2 ^ 8 := by
  have hw : b2n write % 2 = b2n write := by cases write <;> rfl
  refine ⟨?_, ?_, ?_, ?_, ?_, ?_⟩ <;> unfold State.logAccess
  · exact State.rd_flag_self _ _ ⟨by decide, by decide⟩
  all_goals
    simp (disch := (simp only [Fld.fits, Fld.apart]; decide)) only [State.rd_flag_apart, State.rd_wr_apart, State.rd_wr_self]
  · rfl
  · exact hw
  · rfl
  · rfl
  · rfl

/-- Beside the log an access error touches its counter and the pending word. -/
theorem State.accessError_regsKept (s : State) (r : Requester) (addr : Nat) (write : Bool) (kind : Nat) :
    RegsKept [IC_ACC_ADDR_LO_ADDR_LO.addr, IC_ACC_ADDR_HI_ADDR_HI.addr, IC_ACC_INFO_KIND.addr, IC_G_ACC_ERR.addr, 0x30010] s
      (s.accessError r addr write kind) := by
  intro a ha
  simp only [List.mem_cons, List.not_mem_nil, or_false, not_or] at ha
  obtain ⟨h1, h2, h3, h4, h5⟩ := ha
  rw [State.accessError_eq, State.word_raise_ne _ _ h5, State.word_inc_ne _ _ h4]
  split
  · rfl
  · exact s.logAccess_word_ne r addr write kind h1 h2 h3

/-- An access error is counted. -/
theorem State.accessError_count (s : State) (r : Requester) (addr : Nat) (write : Bool) (kind : Nat) :
    (s.accessError r addr write kind).rd IC_G_ACC_ERR = min (s.rd IC_G_ACC_ERR + 1) (2 ^ IC_G_ACC_ERR.width - 1) := by
  have hr : (if s.on IC_ACC_INFO_VALID then s else s.logAccess r addr write kind).rd IC_G_ACC_ERR = s.rd IC_G_ACC_ERR := by
    split
    · rfl
    · exact State.rd_of_word (s.logAccess_word_ne r addr write kind (by decide) (by decide) (by decide))
  rw [State.accessError_eq, State.rd_of_word (State.word_raise_ne _ _ (by decide)),
    State.rd_inc_self _ _ ⟨by decide, by decide⟩, hr]
  rfl

/-- A raised source of the first pending word shows in it (R484, R486). -/
theorem State.raise_pending_bit (s : State) {es : Nat} (h : es < 32) : bit ((s.raise es).word 0x30010) es = true := by
  have ha : 0x30010 + es / 32 * 4 = 0x30010 := by omega
  rw [State.word_raise, ha, State.word_put_self, bit_eq_testBit, Nat.testBit_mod_two_pow, Nat.testBit_or,
    Nat.mod_eq_of_lt h, Nat.testBit_two_pow_self]
  simp [h]

/-- An access error raises ES2 (R485). -/
theorem State.accessError_raised (s : State) (r : Requester) (addr : Nat) (write : Bool) (kind : Nat) :
    bit ((s.accessError r addr write kind).word 0x30010) ES_IC = true :=
  State.raise_pending_bit _ (by decide)

/-- With no access error in the log, the log shows this one. -/
theorem State.accessError_logged (s : State) (r : Requester) (addr : Nat) (write : Bool) (kind : Nat)
    (h : s.on IC_ACC_INFO_VALID = false) :
    (s.accessError r addr write kind).on IC_ACC_INFO_VALID = true ∧
    (s.accessError r addr write kind).rd IC_ACC_INFO_KIND = kind % 2 ^ 16 ∧
    (s.accessError r addr write kind).rd IC_ACC_INFO_WRITE = b2n write ∧
    (s.accessError r addr write kind).rd IC_ACC_INFO_REQ = reqCode r % 2 ^ 4 ∧
    (s.accessError r addr write kind).rd IC_ACC_ADDR_LO_ADDR_LO = addr % 2 ^ 32 ∧
    (s.accessError r addr write kind).rd IC_ACC_ADDR_HI_ADDR_HI = addr / 2 ^ 32 % 2 ^ 8 := by
  have hw : ∀ f : Fld, f.addr ≠ 0x30010 → f.addr ≠ IC_G_ACC_ERR.addr →
      (s.accessError r addr write kind).rd f = (s.logAccess r addr write kind).rd f := by
    intro f h1 h2
    rw [State.accessError_eq, h, State.rd_of_word (State.word_raise_ne _ _ h1), State.rd_of_word (State.word_inc_ne _ _ h2)]
    rfl
  obtain ⟨hv, hrest⟩ := s.logAccess_rd r addr write kind
  rw [State.on, hw _ (by decide) (by decide), hv, hw _ (by decide) (by decide), hw _ (by decide) (by decide),
    hw _ (by decide) (by decide), hw _ (by decide) (by decide), hw _ (by decide) (by decide)]
  exact ⟨rfl, hrest⟩

/-! ### Completions -/

/-- A completion touches the bus, the free values and the pair controller's queue. -/
theorem State.answer_frame (s : State) (a : Access) (d : Nat) (u b : Bool) :
    s.answer a d u b =
      { s with bus := (s.answer a d u b).bus, free := (s.answer a d u b).free, pr := (s.answer a d u b).pr } := by
  unfold State.answer State.complete
  split <;> rfl

/-- A reported access that finds nothing changes the registers, the event delivery and the completion. -/
theorem State.answerError_withAccess (s : State) (a : Access) (kind : Nat) (ur : Bool) :
    s.answerError a kind ur = s.withAccess (s.answerError a kind ur) := by
  have he : EventsOnly s _ := s.accessError_events a.req a.addr.toNat a.write.isSome kind
  unfold State.answerError
  generalize s.accessError a.req a.addr.toNat a.write.isSome kind = t at he ⊢
  unfold EventsOnly at he
  rw [State.answer_frame, he]
  rfl

/-- What a reported access that finds nothing always leaves: its completion, the count, ES2, every other register, the memories
and all else (R485). -/
theorem State.answerError_leaves (s : State) (a : Access) (kind : Nat) (ur : Bool) :
    (s.answerError a kind ur).bus = some { req := a.req, addr := a.addr.toNat, data := 0, unsupported := ur } ∧
    (s.answerError a kind ur).rd IC_G_ACC_ERR = min (s.rd IC_G_ACC_ERR + 1) (2 ^ IC_G_ACC_ERR.width - 1) ∧
    bit ((s.answerError a kind ur).word 0x30010) ES_IC = true ∧
    RegsKept [IC_ACC_ADDR_LO_ADDR_LO.addr, IC_ACC_ADDR_HI_ADDR_HI.addr, IC_ACC_INFO_KIND.addr, IC_G_ACC_ERR.addr, 0x30010] s
      (s.answerError a kind ur) ∧
    BytesKept s (s.answerError a kind ur) ∧ s.answerError a kind ur = s.withAccess (s.answerError a kind ur) := by
  have hw := s.answerError_withAccess a kind ur
  refine ⟨?_, ?_, ?_, fun x hm => ?_, ⟨fun x => ?_, fun x => ?_⟩, hw⟩
  · rw [State.answerError, State.answer_bus]
  · rw [State.answerError, State.answer_rd, State.accessError_count]
  · rw [State.answerError, State.answer_word, State.accessError_raised]
  · rw [State.answerError, State.answer_word, State.accessError_regsKept _ _ _ _ _ x hm]
  · rw [hw, State.memByte, State.withAccess_mem, State.memByte]
  · rw [hw, State.nvmByte, State.withAccess_nvm, State.nvmByte]

/-! ### The statements -/

/-- Settles O15: the map answers the page before it asks for the power of PD12. -/
theorem acquisitionPageOfA5120 : Obligations.AcquisitionPageOfA5120 := by
  intro req x v s hr h
  have hx := x.isLt
  have ha : (BitVec.ofNat 40 (addrRegs + (0x900000 + x.val))).toNat = addrRegs + (0x900000 + x.val) := addr_toNat (by omega)
  have ho : (0x900000 + x.val) / 0x10000 = 0x90 := by omega
  have hv : BitVec.ofNat 32 v.toNat = v := by simp
  refine ⟨?_, ?_⟩
  · rw [exec_readClearAccess, access_aq_5120 hr ha ho h]
    rfl
  · rw [exec_registerWrite, access_aq_5120 hr ha ho h, State.wrote, hv]

/-- Settles O16: the access finds nothing and is reported with KIND 1. -/
theorem unassignedOffsetReadsZero : Obligations.UnassignedOffsetReadsZero := by
  intro req o i b v c s hr ho hb hp hd hn hc
  obtain ⟨a, hreq, ha, he⟩ : ∃ a : Access, a.req = req ∧ a.addr = BitVec.ofNat 40 (addrRegs + o) ∧
      exec c s = .next (access a s) := by
    rcases hc with rfl | rfl
    · exact ⟨_, rfl, rfl, exec_registerWrite ..⟩
    · exact ⟨_, rfl, rfl, exec_readClearAccess ..⟩
  subst hreq
  have hx : a.addr.toNat = addrRegs + o := by rw [ha, addr_toNat ho]
  rw [access_page hr hx ho hb hp hn, regAccess_unassigned hr.1 hd] at he
  obtain ⟨hbus, hcount, hbit, hregs, hbytes, hall⟩ := s.answerError_leaves a 1 false
  refine ⟨_, he, hx ▸ hbus, hcount, hbit, fun hf => ?_, hregs, hbytes, hall⟩
  obtain ⟨hvalid, hkind, -, -, hlo, -⟩ := s.accessError_logged a.req a.addr.toNat a.write.isSome 1 hf
  rw [State.answerError, State.answer_on, State.answer_rd, State.answer_rd, ← hx]
  exact ⟨hvalid, hkind, hlo⟩

/-- A served write of an assigned register, as the row REGISTER_WRITE makes it. -/
theorem exec_registerWrite_served {req : Requester} {o i : Nat} {b : Block} {v : Word} {s : State} (hw : s.Writer req)
    (ho : o < 0x3000000) (hb : pageBlock (o / 0x10000) = some (b, i)) (hp : s.Powered (pageDomain b i))
    (hd : (descIn b i (o % 0x10000)).isSome = true) (hn : b ≠ .aq ∨ s.is5120 = false) :
    exec (.registerWrite req (BitVec.ofNat 40 (addrRegs + o)) v) s =
      .next ((pageWrite b i req (o % 0x10000) v.toNat s).wrote req o v.toNat) := by
  have h := writeReg_served hw ho hb hp hd hn v.isLt
  have hv : BitVec.ofNat 32 v.toNat = v := by simp
  rw [writeReg, hv] at h
  rw [exec_registerWrite, h]

/-- A served read of a register without a reading of its own, as the row READ_CLEAR_ACCESS makes it. -/
theorem exec_readClearAccess_served {req : Requester} {o i : Nat} {b : Block} {s : State} (hr : s.Reaches req)
    (hs : s.CalServed) (ho : o < 0x3000000) (hb : pageBlock (o / 0x10000) = some (b, i)) (hp : s.Powered (pageDomain b i))
    (hd : (descIn b i (o % 0x10000)).isSome = true) (hn : b ≠ .aq ∨ s.is5120 = false) (hc : cryptoFields o = [])
    (hown : pageRead b i req (o % 0x10000) s = none) :
    exec (.readClearAccess req (BitVec.ofNat 40 (addrRegs + o))) s = .next ((s.readClear o).gave req o (s.shown o)) := by
  have hm : o / 0x10000 * 0x10000 + o % 0x10000 = o := by omega
  have ht : regRead b i req (o % 0x10000) (o / 0x10000) s = (some (s.shown o), s.readClear o) := by
    simp only [regRead, hown, hm]
  have hcal : (s.readClear o).CalServed := by
    rw [s.readClear_frame o]
    exact hs
  have h := readReg_served hr ho hb hp hd hn hc ht hcal
  rw [readReg] at h
  rw [exec_readClearAccess, h]

/-- Settles O11: clause by clause, the served register write and read, and a word of plain, of reserved and of fenced memory. -/
theorem servedAccesses : Obligations.ServedAccesses := by
  refine ⟨?write, ?read, ?word, ?reserved, ?fenced⟩
  case write =>
    intro req o i b v s hw ho hb hp hd hn
    exact exec_registerWrite_served hw ho hb hp hd hn
  case read =>
    intro req o i b d s hr hs ho hb hp hd hn hc hown
    refine ⟨_, exec_readClearAccess_served hr hs ho hb hp (by rw [hd]; rfl) hn hc hown, rfl, ?_, ?_⟩
    · intro f _ hrc _ _ hg
      rw [State.gave_word]
      exact s.readClear_field ((regDesc_eq hb).trans hd) hrc hg
    · intro x hx
      rw [State.gave_word]
      exact s.readClear_word_ne (by simpa using hx)
  case word =>
    intro req a d c v s hr ht hp hf hl
    obtain ⟨hw, hrd⟩ := exec_memory_word hr ht hp hf v
    have h0 : laneReserved a = false := hl 0 (by decide)
    rw [hw, hrd, mapStoreWord, h0, s.mapWord_plain hl]
    exact ⟨rfl, rfl⟩
  case reserved =>
    intro req a d c v s hr ht hp hf hl
    obtain ⟨hw, hrd⟩ := exec_memory_word hr ht hp hf v
    have h0 : laneReserved a = true := hl 0 (by decide)
    rw [hw, hrd, mapStoreWord, h0, s.mapWord_reserved hl]
    exact ⟨rfl, rfl⟩
  case fenced =>
    intro req a d n v s hr ht hp hf
    rw [exec_registerWrite, exec_readClearAccess, access_memory _ hr ht hp, access_memory _ hr ht hp, memAccess_fenced _ hf,
      memAccess_fenced _ hf]
    exact ⟨rfl, rfl⟩

end Sys2Proof.Machine
end

section
/-!
What one idle cycle of CK_M keeps (log entry 1): one rule for each operation that a block does of itself in a cycle. Each rule
extends `Kept s t` by the operation on `t`, so that the rule of a composite names those of its parts.
-/
namespace Sys2Proof.Machine

variable {s t : State}

/-! ### Registers, events, records and completions -/

theorem Kept.put (h : Kept s t) (a v : Nat) : Kept s (t.put a v) := h.upd rfl
theorem Kept.wr (h : Kept s t) (f : Fld) (v : Nat) : Kept s (t.wr f v) := h.put _ _
theorem Kept.count (h : Kept s t) (f : Fld) (n : Nat) : Kept s (t.count f n) := (h.wr _ _).upd rfl
theorem Kept.inc (h : Kept s t) (f : Fld) : Kept s (t.inc f) := h.count f 1
theorem Kept.incW (h : Kept s t) (f : Fld) (n : Nat) : Kept s (t.incW f n) := (h.wr _ _).upd rfl
theorem Kept.flag (h : Kept s t) (f : Fld) : Kept s (t.flag f) := (h.wr _ _).upd rfl
theorem Kept.setBitsEv (h : Kept s t) (a m : Nat) : Kept s (t.setBitsEv a m) := (h.put _ _).upd rfl
theorem Kept.makeDue (h : Kept s t) (es : Nat) : Kept s (t.makeDue es) := .ite h (h.upd rfl)
theorem Kept.raise (h : Kept s t) (es : Nat) : Kept s (t.raise es) := (h.setBitsEv _ _).makeDue es
theorem Kept.event (h : Kept s t) (f : Fld) (es : Nat) : Kept s (t.event f es) := (h.flag f).raise es
theorem Kept.record (h : Kept s t) (src code data : Nat) : Kept s (t.record src code data) := h.upd rfl
theorem Kept.fresh (h : Kept s t) : Kept s t.fresh.2 := h.upd rfl
theorem Kept.twinQueue (h : Kept s t) (m : TwinOut) : Kept s (t.twinQueue m) := h.upd rfl
theorem Kept.complete (h : Kept s t) (c : Completion) (read : Bool) : Kept s (t.complete c read) :=
  .ite ((((h.upd rfl).fresh).fresh).twinQueue _) (h.upd rfl)

/-! ### Memory -/

theorem Kept.store (h : Kept s t) (a : Nat) (l : List Byte) : Kept s (t.store a l) := h.trans (t.store_kept a l)
theorem Kept.storeN (h : Kept s t) (a n x : Nat) : Kept s (t.storeN a n x) := h.store _ _
theorem Kept.mapStore (h : Kept s t) (a : Nat) (l : List Byte) : Kept s (t.mapStore a l) := .ite h (h.store a l)

/-! ### Instances and virtual functions -/

theorem Kept.setVf (h : Kept s t) (v : Nat) (f : Vf) : Kept s (t.setVf v f) := h.upd rfl
theorem Kept.setVi (h : Kept s t) (v : Nat) (x : Vi) : Kept s (t.setVi v x) := h.upd rfl
theorem Kept.vfVector (h : Kept s t) (v k : Nat) : Kept s (t.vfVector v k) := .ite h (.ite (h.setVf _ _) (.ite h (h.setVf _ _)))
theorem Kept.viEvent (h : Kept s t) (f : Fld) (v : Nat) : Kept s (t.viEvent f v) :=
  (((h.flag _).setBitsEv _ _).raise _).vfVector _ _

/-! ### Settling of acquisition and the grid -/

theorem Kept.setAqCh (h : Kept s t) (c : Nat) (x : AqCh) : Kept s (t.setAqCh c x) := h.upd rfl
theorem Kept.settle (h : Kept s t) (c cause : Nat) : Kept s (t.settle c cause) := (h.setAqCh _ _).wr _ _
theorem Kept.settleAll (h : Kept s t) (cs : List Nat) (cause : Nat) : Kept s (t.settleAll cs cause) :=
  .foldl _ _ h fun u _ => .ite ((Kept.refl u).settle _ _) (.refl u)
theorem Kept.hcEvent (h : Kept s t) : Kept s t.hcEvent := h.raise _
theorem Kept.edgeStep (h : Kept s t) (before from' : Nat) : Kept s (Machine.edgeStep before from' t) := h.upd rfl

theorem Kept.gridStep (h : Kept s t) (before after : Nat) : Kept s (Machine.gridStep before after t) := by
  unfold Machine.gridStep
  refine .ite (.ite ?_ ?_) (.ite ?_ ?_)
  · exact ((((((h.upd rfl).upd rfl).upd rfl).edgeStep _ _).count _ _).hcEvent).settleAll _ _
  · exact ((h.upd rfl).upd rfl).edgeStep _ _
  · exact ((((h.upd rfl).upd rfl).edgeStep _ _).count _ _).hcEvent.settleAll _ _
  · exact ((h.upd rfl).upd rfl).edgeStep _ _

theorem Kept.openSets (h : Kept s t) (g : Nat) (skip : Bool) : Kept s (Machine.openSets g skip t) :=
  .ite (h.upd rfl) (.ite h (h.upd rfl))

theorem Kept.openSkipped (h : Kept s t) (span : Nat × Nat) : Kept s (Machine.openSkipped span t) :=
  .ite (.foldl _ _ h fun u _ => (Kept.refl u).openSets _ _) h

theorem Kept.gridCycle (h : Kept s t) : Kept s t.gridCycle := by
  unfold State.gridCycle
  split
  · exact h
  · next before after _ =>
    have hs := (h.gridStep before after).openSkipped (skipSpan before after)
    exact .ite (hs.settleAll _ _) hs

/-! ### Ports and the Hall -/

theorem Kept.setPort (h : Kept s t) (n : Nat) (p : Port) : Kept s (t.setPort n p) := h.upd rfl
theorem Kept.setFrame (h : Kept s t) (i : Nat) (f : Frame) : Kept s (t.setFrame i f) := h.upd rfl
theorem Kept.newFrame (h : Kept s t) (f : Frame) : Kept s (t.newFrame f).2 := h.upd rfl
theorem Kept.setQueue (h : Kept s t) (n c : Nat) (q : List Nat) : Kept s (t.setQueue n c q) := h.upd rfl
theorem Kept.qAdd (h : Kept s t) (n c k : Nat) : Kept s (t.qAdd n c k) := h.wr _ _
theorem Kept.qSub (h : Kept s t) (n c k : Nat) : Kept s (t.qSub n c k) := h.wr _ _
theorem Kept.dropGrant (h : Kept s t) (i n : Nat) : Kept s (t.dropGrant i n) := .ite (h.setPort _ _) h

theorem Kept.retire (h : Kept s t) (i : Nat) : Kept s (t.retire i) := by
  unfold State.retire
  split
  · exact h
  · refine .ite ?_ h
    split
    · exact .ite (((h.wr _ _).wr _ _).upd rfl) (((h.wr _ _).wr _ _).setFrame _ _)
    · exact .ite ((h.wr _ _).upd rfl) ((h.wr _ _).setFrame _ _)

theorem Kept.endCopy (h : Kept s t) (i n c : Nat) : Kept s (t.endCopy i n c) := by
  unfold State.endCopy
  split
  · exact h
  · exact ((((h.setQueue _ _ _).qSub _ _ _).dropGrant _ _).setFrame _ _).retire _

theorem Kept.flushPort (h : Kept s t) (n : Nat) : Kept s (t.flushPort n) := by
  unfold State.flushPort
  have hf := Kept.foldl (fun (t : State) (p : Nat × Nat) => (t.endCopy p.1 n p.2).inc (HL_P_FLUSH.i n))
    ((List.range 8).flatMap (fun c => (t.queue n c).map (fun i => (i, c)))) h
    fun u p => ((Kept.refl u).endCopy p.1 n p.2).inc _
  exact .ite (hf.setPort _ _) ((hf.setPort _ _).event _ _)

theorem Kept.finishTx (h : Kept s t) (n : Nat) : Kept s (t.finishTx n) := by
  have he : Kept s (match (t.port n).expFrame with
      | some i => if (t.port n).expBusy ≤ t.cyc then
          (t.endCopy i n (t.port n).txCopy.2).setPort n { t.port n with expFrame := none } else t
      | none => t) := by
    split
    · exact .ite ((h.endCopy _ _ _).setPort _ _) h
    · exact h
  unfold State.finishTx
  dsimp only
  split
  · exact .ite ((Kept.endCopy he _ _ _).setPort _ _) he
  · exact he

theorem Kept.admitFrame (h : Kept s t) (i : Nat) (ps : List Nat) (c resv : Nat) :
    Kept s (t.admitFrame i ps c resv).2 := by
  unfold State.admitFrame
  split
  · exact h
  · refine PairKept.ite ?_ (.setFrame (.wr (.foldl _ _ ?_ fun u n => ((Kept.refl u).setQueue _ _ _).qAdd _ _ _) _ _) _ _) <;>
      refine Kept.foldl _ _ h fun u n => .ite ?_ (.inc ?_ _) <;>
      exact .ite ((Kept.refl u).inc _) (((Kept.refl u).inc _).event _ _)

theorem Kept.settleAdmit (h : Kept s t) (a : Admit) : Kept s (Machine.settleAdmit a t) := by
  unfold Machine.settleAdmit
  exact .foldl _ _ (h.admitFrame _ _ _ _) fun u p => (Kept.refl u).setPort _ _

theorem Kept.settleAdmits (h : Kept s t) : Kept s t.settleAdmits :=
  .ite h (.foldl _ _ (h.upd rfl) fun u a => (Kept.refl u).settleAdmit a)

theorem Kept.hallEnter (h : Kept s t) (f : Frame) (ports : List Nat) (c : Nat) :
    Kept s (Machine.hallEnter f ports c t).2 := by
  have ha := (h.settleAdmits.newFrame { f with looked := true, complete := true, c0 := t.cyc, l := t.cyc, e := t.cyc }).admitFrame
    t.settleAdmits.hall.nextId ports c (cellsOf f.len)
  unfold Machine.hallEnter
  dsimp only [State.newFrame] at ha ⊢
  split
  · split
    · exact ha.wr _ _
    · exact ha
  · exact ha.upd rfl

theorem Kept.respCycle (h : Kept s t) (n : Nat) : Kept s (t.respCycle n) := by
  unfold State.respCycle
  split
  · exact h
  · exact .ite h (.ite (((h.setPort _ _).wr _ _).wr _ _) (h.setPort _ _))

theorem Kept.graceCycle (h : Kept s t) (n : Nat) : Kept s (t.graceCycle n) :=
  .ite (.ite ((h.setPort _ _).flushPort _) (h.setPort _ _)) h

theorem Kept.holdCycle (h : Kept s t) (n : Nat) : Kept s (t.holdCycle n) := .ite (h.setPort _ _) h

/-! ### Operand slots, marks and readiness (chapter 8) -/

theorem Kept.binAt (h : Kept s t) (cyc kind index : Nat) (level pulse : Bool) (stamp tk : Nat) :
    Kept s (t.binAt cyc kind index level pulse stamp tk) := h.upd rfl
theorem Kept.binChange (h : Kept s t) (kind index : Nat) (level pulse : Bool) (stamp tk : Nat) :
    Kept s (t.binChange kind index level pulse stamp tk) := h.binAt _ _ _ _ _ _ _
theorem Kept.binOpenAt (h : Kept s t) (cyc kind index : Nat) (level pulse : Bool) (stamp : Nat) :
    Kept s (t.binOpenAt cyc kind index level pulse stamp) := h.fresh.binAt _ _ _ _ _ _ _
theorem Kept.binOpen (h : Kept s t) (kind index : Nat) (level pulse : Bool) (stamp : Nat) :
    Kept s (t.binOpen kind index level pulse stamp) := h.binOpenAt _ _ _ _ _ _
theorem Kept.setSlot (h : Kept s t) (i : Nat) (o : OpSlot) : Kept s (t.setSlot i o) := h.upd rfl
theorem Kept.beginPend (h : Kept s t) (k release : Nat) : Kept s (t.beginPend k release) := .ite (h.upd rfl) h
theorem Kept.noteWatch (h : Kept s t) (i : Nat) : Kept s (t.noteWatch i) := h.upd rfl

theorem Kept.mark (h : Kept s t) (i : Nat) (value : List Byte) (qual : Nat) (group : Option Nat) :
    Kept s (t.mark i value qual group) := by
  unfold State.mark
  refine .ite h (.ite ?_ (.beginPend ?_ _ _)) <;>
    exact (((Kept.ite (h.inc _) h).setSlot _ _).noteWatch _).binChange _ _ _ _ _ _

theorem Kept.request (h : Kept s t) (r : MarkReq) : Kept s (t.request r) := h.upd rfl

theorem Kept.setPortCycle (h : Kept s t) : Kept s t.setPortCycle := by
  unfold State.setPortCycle
  split
  · exact h
  · exact .ite h (.ite ((h.upd rfl).mark _ _ _ _) (h.upd rfl))

theorem Kept.dsEvent (h : Kept s t) (f : Fld) : Kept s (t.dsEvent f) := h.event _ _
theorem Kept.viCount (h : Kept s t) (f g : Fld) (v : Nat) : Kept s (t.viCount f g v) := (h.inc _).inc _
theorem Kept.setPend (h : Kept s t) (k : Nat) (p : Pend) : Kept s (t.setPend k p) := h.upd rfl
theorem Kept.dropPend (h : Kept s t) (k : Nat) : Kept s (t.dropPend k) := h.upd rfl

theorem Kept.settlePassed (h : Kept s t) (k : Nat) (p : Pend) : Kept s (Machine.settlePassed k p t) :=
  .ite ((h.setPend _ _).inc _) (h.setPend _ _)

theorem Kept.decideReady (h : Kept s t) : Kept s t.decideReady :=
  .foldl _ _ h fun u _ => .ite (((Kept.refl u).dropPend _).inc _)
    (.ite ((Kept.refl u).setPend _ _) (.ite ((Kept.refl u).settlePassed _ _) (.refl u)))

theorem Kept.countHeld (h : Kept s t) : Kept s t.countHeld :=
  .foldl _ _ h fun u _ => .ite ((((Kept.refl u).setPend _ _).viCount _ _ _).dsEvent _) (.refl u)

theorem Kept.dispatchCycle (h : Kept s t) : Kept s t.dispatchCycle := .ite h h.decideReady.countHeld

/-! ### The key store (chapter 17) -/

theorem Kept.ksRefresh (h : Kept s t) : Kept s t.ksRefresh := (((((h.wr _ _).wr _ _).wr _ _).wr _ _).wr _ _).wr _ _
theorem Kept.ksEvent (h : Kept s t) (f : Fld) : Kept s (t.ksEvent f) := h.event _ _
theorem Kept.ksPut (h : Kept s t) (i : Nat) (b : List Byte) : Kept s (t.ksPut i b) := h.upd rfl
theorem Kept.ksFail (h : Kept s t) (i : Nat) (ecc : Bool) : Kept s (t.ksFail i ecc) :=
  ((((h.ksPut _ _).inc _).ksEvent _).record _ _ _).ksRefresh

theorem Kept.ksOrphans (h : Kept s t) (root : Nat) (l : List Nat) : Kept s (t.ksOrphans root l) :=
  .ite h ((((Kept.foldl _ _ h fun u _ => (Kept.refl u).ksPut _ _).count _ _).ksEvent _).record _ _ _)

theorem Kept.ksRootLost (h : Kept s t) : Kept s t.ksRootLost := by
  unfold State.ksRootLost
  refine (Kept.ksOrphans ?_ _ _).ksRefresh
  exact h.upd rfl

theorem Kept.ksCycle (h : Kept s t) : Kept s t.ksCycle := by
  have hf : Kept s (t.ks.found.foldl (fun (u : State) p => u.ksFail p.1 p.2) { t with ks := { t.ks with found := [] } }) :=
    .foldl _ _ (h.upd rfl) fun u p => (Kept.refl u).ksFail p.1 p.2
  unfold State.ksCycle
  refine .ite (Kept.ksRootLost ?_) hf
  exact hf.upd rfl

/-! ### Alignment and publication (chapters 6 and 10) -/

theorem Kept.pantryCycle (h : Kept s t) : Kept s t.pantryCycle :=
  .foldl _ _ (h.upd rfl) fun u _ => (Kept.refl u).mapStore _ _

theorem Kept.notePub (h : Kept s t) (n : Nat) : Kept s (t.notePub n) := .ite (h.upd rfl) h
theorem Kept.setCb (h : Kept s t) (n : Nat) (c : Cb) : Kept s (t.setCb n c) := h.upd rfl
theorem Kept.pbEvent (h : Kept s t) (f : Fld) : Kept s (t.pbEvent f) := h.event _ _

theorem Kept.handOver (h : Kept s t) (j : Build) : Kept s (t.handOver j) := by
  unfold State.handOver
  exact .ite (.ite (((h.upd rfl).inc _).pbEvent _) (h.upd rfl))
    (.ite ((h.inc _).pbEvent _) (.ite ((h.upd rfl).inc _) (h.upd rfl)))

theorem Kept.gooseRequest (h : Kept s t) (n : Nat) (items : List PubItem) (gen : Nat) (fg : Bool) :
    Kept s (Machine.gooseRequest n items gen fg t) := by
  unfold Machine.gooseRequest
  exact .ite (h.inc _) (((h.notePub _).setCb _ _).handOver _)

theorem Kept.addAsdu (h : Kept s t) (n : Nat) (a : SvAsdu) (gen hand : Nat) :
    Kept s (Machine.addAsdu n a gen hand t) := by
  unfold Machine.addAsdu
  refine .ite (.handOver (.setCb ?_ _ _) _) (.setCb ?_ _ _) <;> exact .ite ((h.inc _).handOver _) h

theorem Kept.svSample (h : Kept s t) (bank : Nat) (a : SvAsdu) (hand : Nat) : Kept s (Machine.svSample bank a hand t) := by
  unfold Machine.svSample
  exact .ite (.foldl _ _ h fun u _ => .ite ((Kept.refl u).addAsdu _ _ _ _) (.refl u)) h

theorem Kept.pubRefuse (h : Kept s t) (n : Nat) : Kept s (t.pubRefuse n) := (h.inc _).pbEvent _

theorem Kept.pubRequest (h : Kept s t) (n : Nat) (items : List PubItem) (vi gen : Nat) (ready : Bool) (tick : Nat) :
    Kept s (Machine.pubRequest n items vi gen ready tick t).2 := by
  have hr : PairKept s (false, t.pubRefuse n) := h.pubRefuse n
  unfold Machine.pubRequest
  exact PairKept.ite h (.ite hr (.ite (.ite hr (h.addAsdu _ _ _ _)) (.ite hr (h.gooseRequest _ _ _ _))))

theorem Kept.retransmit (h : Kept s t) (n : Nat) : Kept s (Machine.retransmit n t) := by
  unfold Machine.retransmit
  split
  · exact h
  · exact .ite (h.setCb _ _) (((h.notePub _).setCb _ _).handOver _)

theorem Kept.publishCycle (h : Kept s t) : Kept s t.publishCycle := by
  unfold State.publishCycle
  refine .foldl _ _ (.foldl _ _ (h.upd rfl) ?_) ?_
  · exact fun u _ => (Kept.refl u).svSample _ _ _
  · exact fun u _ => (Kept.refl u).pubRequest _ _ _ _ _ _

theorem Kept.retxCycle (h : Kept s t) : Kept s t.retxCycle := .foldl _ _ (h.upd rfl) fun u _ => (Kept.refl u).retransmit _
theorem Kept.noteZeroed (h : Kept s t) (sel : Cb → Bool) : Kept s (t.noteZeroed sel) :=
  .foldl _ _ h fun u _ => (Kept.refl u).notePub _
theorem Kept.pubReset (h : Kept s t) (v : Nat) : Kept s (Machine.pubReset v t) := (h.noteZeroed _).upd rfl

/-! ### Acquisition (chapter 7) -/

theorem Kept.aqEvent (h : Kept s t) (f : Fld) : Kept s (t.aqEvent f) := h.event _ _

theorem Kept.bankEdge (h : Kept s t) (b g j n : Nat) : Kept s (Machine.bankEdge b g j n t) := by
  induction n generalizing t with
  | zero => exact h
  | succ n ih =>
    unfold Machine.bankEdge
    exact .ite (ih (h.upd rfl)) h

theorem Kept.acqEdge (h : Kept s t) (g j : Nat) : Kept s (Machine.acqEdge g j t) := by
  unfold Machine.acqEdge
  exact (Kept.foldl _ _ h fun u _ => .ite ((Kept.refl u).bankEdge _ _ _ _) (.refl u)).upd rfl

theorem Kept.bufferStore (h : Kept s t) (a : Nat) (l : List Byte) : Kept s (Machine.bufferStore a l t) := .ite (h.store _ _) h

theorem Kept.entryWrite (h : Kept s t) (e : AqEntry) : Kept s (Machine.entryWrite e t) := by
  unfold Machine.entryWrite
  refine .ite h (.ite (h.bufferStore _ _) (.ite (.aqEvent ?_ _) ?_)) <;> exact (h.bufferStore _ _).incW _ _

theorem Kept.acqCycle (h : Kept s t) : Kept s t.acqCycle := by
  unfold State.acqCycle
  refine (Kept.foldl _ _ ?_ fun u e => (Kept.refl u).entryWrite e).upd rfl
  split
  · exact h.acqEdge _ _
  · exact h

theorem Kept.cmpStamp (h : Kept s t) (due c edge tb x : Nat) : Kept s (Machine.cmpStamp due c edge tb x t) := by
  unfold Machine.cmpStamp
  exact (Kept.ite ((h.inc _).aqEvent _) (h.setAqCh _ _)).binAt _ _ _ _ _ _ _

theorem Kept.cmpCycle (h : Kept s t) : Kept s t.cmpCycle := .foldl _ _ (h.upd rfl) fun u _ => (Kept.refl u).cmpStamp _ _ _ _ _

/-! ### The drive unit and the sense inputs (chapter 13) -/

theorem Kept.setDuPair (h : Kept s t) (k : Nat) (p : DuPair) : Kept s (t.setDuPair k p) := ((h.upd rfl).wr _ _).wr _ _
theorem Kept.duEvent (h : Kept s t) (f : Fld) : Kept s (t.duEvent f) := h.event _ _
theorem Kept.turnOn (h : Kept s t) (k : Nat) (high : Bool) (dt : Nat) : Kept s (Machine.turnOn k high dt t) :=
  (h.setDuPair _ _).wr _ _

theorem Kept.coilChange (h : Kept s t) (k : Nat) (v : Bool) : Kept s (Machine.coilChange k v t) := by
  unfold Machine.coilChange
  exact .ite (h.setDuPair _ _) (h.setDuPair _ _)

theorem Kept.peakEnd (h : Kept s t) (k : Nat) : Kept s (Machine.peakEnd k t) := h.setDuPair _ _

theorem Kept.faultHolds (h : Kept s t) (due f : Nat) : Kept s (Machine.faultHolds due f t) := by
  unfold Machine.faultHolds
  refine .foldl _ _ h fun u k => .ite (.ite (.peakEnd ?_ _) ?_) (.refl u) <;> exact (Kept.refl u).setDuPair _ _

theorem Kept.padCycle (h : Kept s t) : Kept s t.padCycle := by
  unfold State.padCycle
  refine .foldl _ _ (.foldl _ _ (h.upd rfl) ?_) ?_
  · exact fun u _ => (Kept.refl u).coilChange _ _
  · exact fun u _ => (Kept.refl u).faultHolds _ _

theorem Kept.turnCycle (h : Kept s t) : Kept s t.turnCycle := by
  unfold State.turnCycle
  refine .foldl _ _ h fun u k => ?_
  split
  · exact .ite ((Kept.refl u).turnOn _ _ _) (.refl u)
  · exact .refl u

theorem Kept.senseTake (h : Kept s t) (c i : Nat) (level : Bool) : Kept s (Machine.senseTake c i level t) := by
  unfold Machine.senseTake
  refine .ite (.request ?_ _) ?_ <;> exact (((h.wr _ _).inc _).binOpenAt _ _ _ _ _ _).upd rfl

theorem Kept.senseDeliver (h : Kept s t) (due i : Nat) (level : Bool) (tb ns : Nat) :
    Kept s (Machine.senseDeliver due i level tb ns t) := by
  unfold Machine.senseDeliver
  refine .ite (.senseTake ?_ _ _ _) ?_ <;>
    exact .ite ((((h.binAt _ _ _ _ _ _ _).wr _ _).inc _).duEvent _) (((h.binAt _ _ _ _ _ _ _).wr _ _).upd rfl)

theorem Kept.senseCycle (h : Kept s t) : Kept s t.senseCycle :=
  .foldl _ _ (h.upd rfl) fun u _ => (Kept.refl u).senseDeliver _ _ _ _ _
theorem Kept.gridPairs (h : Kept s t) : Kept s t.gridPairs :=
  .foldl _ _ h fun u _ => .ite ((Kept.refl u).setDuPair _ _) (.refl u)
theorem Kept.duCycle (h : Kept s t) : Kept s t.duCycle := h.turnCycle.gridPairs.padCycle.senseCycle

/-! ### The event recorder and the Cellar (chapters 14 and 15) -/

theorem Kept.evTake (h : Kept s t) (sec ns tkind src code data : Nat) : Kept s (t.evTake sec ns tkind src code data) := h.upd rfl

theorem Kept.evLostRecord (h : Kept s t) : Kept s t.evLostRecord := by
  unfold State.evLostRecord
  exact .ite ((h.upd rfl).evTake _ _ _ _ _ _) h

theorem Kept.takeEdge (h : Kept s t) : Kept s (Machine.takeEdge t) := h.upd rfl
theorem Kept.subsecAdd (h : Kept s t) (n : Nat) : Kept s (Machine.subsecAdd n t) := (h.wr _ _).upd rfl

theorem Kept.plainEdges (h : Kept s t) (n : Nat) : Kept s (Machine.plainEdges n t) := by
  induction n generalizing t with
  | zero => exact h
  | succ n ih =>
    unfold Machine.plainEdges
    exact .ite (ih (h.takeEdge.subsecAdd 1)) h

theorem Kept.moreEdges (h : Kept s t) : Kept s t.moreEdges := h.plainEdges _

theorem Kept.cellarCycle (h : Kept s t) : Kept s t.cellarCycle := by
  unfold State.cellarCycle
  exact .ite h (.ite (h.upd rfl) (h.upd rfl).moreEdges)

theorem Kept.retStore (h : Kept s t) (a : Nat) (b : List Byte) : Kept s (t.retStore a b) := (h.upd rfl).wr _ _

theorem Kept.retServe (h : Kept s t) (p : Access × Nat) : Kept s (Machine.retServe p t) := by
  unfold Machine.retServe
  split
  · exact h.retStore _ _
  · exact h.complete _ _

theorem Kept.retCycle (h : Kept s t) : Kept s t.retCycle := by
  unfold State.retCycle
  exact .ite h (.foldl _ _ (h.upd rfl) fun u p => (Kept.refl u).retServe p)

/-! ### The logic engine (chapter 12) -/

theorem Kept.lgEvent (h : Kept s t) (f : Fld) : Kept s (t.lgEvent f) := h.event _ _
theorem Kept.showActive (h : Kept s t) : Kept s t.showActive := h.wr _ _
theorem Kept.setPrg (h : Kept s t) (p : Nat) (x : Prg) : Kept s (t.setPrg p x) := (h.upd rfl).showActive

theorem Kept.abandonSave (h : Kept s t) (p : Nat) : Kept s (t.abandonSave p) := by
  unfold State.abandonSave
  exact .ite h (((h.upd rfl).count _ _).lgEvent _)

theorem Kept.saveMiddle (h : Kept s t) (x : SaveRun) : Kept s (Machine.saveMiddle x t) := by
  unfold Machine.saveMiddle
  exact ((Kept.ite h (h.retStore _ _)).store _ _).store _ _

theorem Kept.saveEnd (h : Kept s t) (x : SaveRun) : Kept s (Machine.saveEnd x t) := by
  unfold Machine.saveEnd
  exact (h.store _ _).upd rfl

theorem Kept.noteRest (h : Kept s t) : Kept s t.noteRest := by
  unfold State.noteRest
  split
  · exact h
  · exact h.upd rfl

theorem Kept.saveCycle (h : Kept s t) : Kept s t.saveCycle := by
  have hn := h.noteRest
  unfold State.saveCycle
  dsimp only
  split
  · exact hn
  · refine .ite (.saveEnd ?_ _) ?_ <;> exact .ite ((hn.upd rfl).saveMiddle _) hn

theorem Kept.dropTaskWrites (h : Kept s t) (ts : List Nat) : Kept s (t.dropTaskWrites ts) := h.upd rfl

theorem Kept.xchCancel (h : Kept s t) : Kept s (Machine.xchCancel t) := by
  unfold Machine.xchCancel
  split
  · exact h
  · exact ((((Kept.ite (h.dropTaskWrites _) h).setPrg _ _).wr _ _).wr _ _).upd rfl

theorem Kept.logicReset (h : Kept s t) (v : Nat) : Kept s (Machine.logicReset v t) := by
  unfold Machine.logicReset
  have hp : Kept s (t.lg.prgs.foldl (fun (t : State) (x : Nat × Prg) =>
      if pgVi x.2.bytes = v then
        let u := t.abandonSave x.1
        u.setPrg x.1 { u.prg x.1 with opened := none, due := none, cur := none }
      else t) t) :=
    .foldl _ _ h fun u _ => .ite (((Kept.refl u).abandonSave _).setPrg _ _) (.refl u)
  dsimp only
  split
  · exact .ite hp.xchCancel hp
  · exact hp

/-! ### Lanes (chapter 9) -/

theorem Kept.degrade (h : Kept s t) : Kept s t.degrade := .ite (h.wr _ _) h

theorem Kept.fence (h : Kept s t) (c : Nat) : Kept s (t.fence c) := by
  unfold State.fence
  exact .ite h ((((h.wr _ _).degrade.event _ _).raise _).record _ _ _)

theorem Kept.setRun (h : Kept s t) (l : Nat) (r : Run) : Kept s (t.setRun l r) := h.upd rfl

theorem Kept.countEcc (h : Kept s t) (c : Nat) : Kept s (t.countEcc c) := by
  unfold State.countEcc
  exact .ite ((h.upd rfl).fence _) (h.upd rfl)

theorem Kept.laneFault (h : Kept s t) (l cause : Nat) : Kept s (Machine.laneFault l cause t) := by
  unfold Machine.laneFault
  split
  · exact h
  · refine .ite (.countEcc ?_ _) ?_ <;> exact (((h.mapStore _ _).mapStore _ _).setRun _ _).raise _

theorem Kept.faultFetch (h : Kept s t) (l : Nat) (r : Run) : Kept s (Machine.faultFetch l r t) := by
  unfold Machine.faultFetch
  split
  · exact h.laneFault _ _
  · exact h

theorem Kept.stopStale (h : Kept s t) (l : Nat) (r : Run) : Kept s (Machine.stopStale l r t) :=
  .ite ((h.setRun _ _).inc _) (h.setRun _ _)

theorem Kept.laneCycle (h : Kept s t) : Kept s t.laneCycle :=
  .foldl _ _ h fun u _ => .ite ((Kept.refl u).stopStale _ _) (.ite ((Kept.refl u).faultFetch _ _) (.refl u))

/-! ### Instances and tenants (chapter 16) -/

theorem Kept.mirrorCycle (h : Kept s t) : Kept s t.mirrorCycle := by
  unfold State.mirrorCycle
  split
  · exact h
  · exact .ite h (h.store _ _)

theorem Kept.mirrorEnd (h : Kept s t) : Kept s (Machine.mirrorEnd t) := by
  unfold Machine.mirrorEnd
  split
  · exact h
  · exact .ite h ((h.storeN _ _ _).upd rfl)

theorem Kept.tenantPublish (h : Kept s t) (v n : Nat) : Kept s (Machine.tenantPublish v n t) := by
  unfold Machine.tenantPublish
  refine .ite ?_ (.viEvent ?_ _ _) <;> exact (Kept.ite h (h.pubRequest _ _ _ _ _ _)).wr _ _

theorem Kept.tenantHandOver (h : Kept s t) : Kept s t.tenantHandOver := by
  unfold State.tenantHandOver
  exact .foldl _ _ h fun u x => .ite (.refl u)
    (.foldl _ _ ((Kept.refl u).setVi _ _) fun w _ => (Kept.refl w).tenantPublish _ _)

theorem Kept.resetAbandon (h : Kept s t) (v : Nat) : Kept s (Machine.resetAbandon v t) := by
  unfold Machine.resetAbandon
  refine (Kept.logicReset ?_ _).pubReset _
  split
  · exact .ite (h.upd rfl) h
  · exact h

theorem Kept.dropBackground (h : Kept s t) (v : Nat) : Kept s (Machine.dropBackground v t) := by
  unfold Machine.dropBackground
  dsimp only
  split
  · exact h.upd rfl
  · exact h

theorem Kept.resetCycle (h : Kept s t) (v : Nat) (x : Vi) : Kept s (Machine.resetCycle v x t) := by
  have hw : Kept s (if t.on (VI_STATUS_GEN_WAIT.p v) ∧ t.linger v = 0 then t.wr (VI_STATUS_GEN_WAIT.p v) 0 else t) :=
    .ite (h.wr _ _) h
  unfold Machine.resetCycle
  dsimp only
  split
  · exact hw
  · exact .ite ((hw.resetAbandon _).wr _ _) ((Kept.ite (hw.dropBackground _) hw).wr _ _)

theorem Kept.viCycle (h : Kept s t) : Kept s t.viCycle :=
  .foldl _ _ h.mirrorEnd fun u _ => (Kept.refl u).resetCycle _ _

/-! ### The redundant pair and containment (chapters 19 and 20) -/

theorem Kept.prRecord (h : Kept s t) (code data : Nat) : Kept s (t.prRecord code data) := h.record _ _ _

theorem Kept.pairPins (h : Kept s t) : Kept s t.pairPins := by
  unfold State.pairPins
  refine .ite ?_ (.binOpen (.wr (.wr ?_ _ _) _ _) _ _ _ _ _) <;> exact (h.wr _ _).wr _ _

theorem Kept.twinFrame (h : Kept s t) (b : List Byte) (k : Nat) : Kept s (Machine.twinFrame b k t) := by
  unfold Machine.twinFrame
  exact h.hallEnter _ _ _

theorem Kept.sendTwin (h : Kept s t) (m : TwinOut) : Kept s (Machine.sendTwin m t) := by
  unfold Machine.sendTwin
  exact .ite ((h.upd rfl).twinFrame _ _) (((h.upd rfl).twinFrame _ _).twinFrame _ _)

theorem Kept.twinCycle (h : Kept s t) : Kept s t.twinCycle := by
  unfold State.twinCycle
  exact .ite h (.ite (.foldl _ _ (h.upd rfl) fun u m => (Kept.refl u).sendTwin m) (h.upd rfl))

theorem Kept.serveCycle (h : Kept s t) : Kept s t.serveCycle := by
  unfold State.serveCycle
  split
  · exact .ite h (.ite ((h.upd rfl).twinQueue _) (((h.upd rfl).twinQueue _).prRecord _ _))
  · exact h

theorem Kept.pairCycle (h : Kept s t) : Kept s t.pairCycle := h.serveCycle.twinCycle

theorem Kept.fatal (h : Kept s t) (cause : Nat) : Kept s (t.fatal cause) := by
  unfold State.fatal
  exact .ite h ((((h.wr _ _).wr _ _).raise _).record _ _ _).pairPins

theorem Kept.stopCycle (h : Kept s t) : Kept s t.stopCycle := by
  unfold State.stopCycle
  split
  · exact h
  · exact (h.upd rfl).fatal _

theorem Kept.msixCycle (h : Kept s t) : Kept s t.msixCycle := h.upd rfl

/-! ### The cycle -/

theorem Kept.ifRuns (h : Kept s t) (d : Nat) {f : State → State} (hf : ∀ u, Kept u (f u)) : Kept s (t.ifRuns d f) :=
  .ite (h.trans (hf t)) h

theorem Kept.streamCycle (h : Kept s t) : Kept s t.streamCycle :=
  h.pantryCycle.saveCycle.publishCycle.tenantHandOver.retxCycle.setPortCycle.dispatchCycle

/-- In a cycle the blocks do what they do of themselves, which leaves the queue, the cycle count, the programmed fuses and the form
of the memories; then the cycle ends. -/
theorem State.idle_eq_nextCycle (s : State) : ∃ t, Kept s t ∧ s.idle = t.nextCycle := by
  unfold State.idle
  refine ⟨_, ?_, rfl⟩
  refine Kept.msixCycle (.stopCycle (.gridCycle (.cellarCycle (.evLostRecord (.viCycle (.retCycle ?_))))))
  refine Kept.ifRuns (.ifRuns (.ifRuns (.ifRuns ?_ _ ?_) _ ?_) _ ?_) _ ?_
  · have hports : Kept s ((List.range 19).foldl (fun (u : State) n =>
        u.ifRuns (portDomain n) (fun w => ((w.respCycle n).graceCycle n).holdCycle n)) s) :=
      .foldl _ _ (.refl s) fun u n => (Kept.refl u).ifRuns _ fun w => (((Kept.refl w).respCycle n).graceCycle n).holdCycle n
    have hhall (u : State) : Kept u ((List.range 19).foldl (fun (w : State) n => w.finishTx n) u).settleAdmits :=
      (Kept.foldl _ _ (.refl u) fun w n => (Kept.refl w).finishTx n).settleAdmits
    have hstreams := ((hports.ifRuns 7 hhall).ifRuns 6 fun u => (Kept.refl u).streamCycle).ifRuns 1
      fun u => (Kept.refl u).mirrorCycle
    exact .ite hstreams hstreams.laneCycle
  · exact fun u => (Kept.refl u).cmpCycle.acqCycle
  · exact fun u => (Kept.refl u).duCycle
  · exact fun u => (Kept.refl u).pairCycle
  · exact fun u => (Kept.refl u).ksCycle

/-- The clock's own cycle touches the clock alone. -/
theorem State.clkCycle_frame (s : State) : s.clkCycle = { s with clk := s.clkCycle.clk } := by
  unfold State.clkCycle
  split <;> rfl

theorem State.nextCycle_cyc (s : State) : s.nextCycle.cyc = (s.cyc + 1) % 2 ^ 64 := rfl
theorem State.nextCycle_evc (s : State) : s.nextCycle.evc = [] := rfl

theorem State.nextCycle_pending (s : State) : s.nextCycle.pending = s.pending := by
  change s.clkCycle.pending = s.pending
  rw [State.clkCycle_frame]

/-- Reads of the next cycle see the registers as the cycle left them (R11). -/
theorem State.nextCycle_rd0 (s : State) (f : Fld) : s.nextCycle.rd0 f = s.nextCycle.rd f := rfl

/-- Settles O2: the blocks' own work leaves the queue and the cycle count, and the end of the cycle steps the count and shows the
registers. -/
theorem emptyQueueStepIsOneCycle : Obligations.EmptyQueueStepIsOneCycle := by
  intro s hq
  obtain ⟨t, hk, he⟩ := s.idle_eq_nextCycle
  have hstep : step s = .next t.nextCycle := by rw [step, hq, ← he]
  refine ⟨_, hstep, ?_, ?_, t.nextCycle_rd0, t.nextCycle_evc⟩
  · rw [State.nextCycle_cyc, hk.cyc]
  · rw [State.nextCycle_pending, hk.pending, hq]

end Sys2Proof.Machine
end

section
/-!
Memory as bytes (R31, R33), and the accesses that a dark domain, a dormant domain and an unassigned address answer (R28, R29, R34,
R485).
-/
namespace Sys2Proof.Machine

/-! ### Stored bytes -/

/-- A list of one byte and those behind it, as a span of addresses shows it. -/
theorem ite_span_cons (v : Byte) (l : List Byte) (a x : Nat) (d : Byte) :
    (if a ≤ x ∧ x < a + (v :: l).length then (v :: l).getD (x - a) 0 else d) =
      if a + 1 ≤ x ∧ x < a + 1 + l.length then l.getD (x - (a + 1)) 0 else if x = a then v else d := by
  rcases Nat.lt_trichotomy x a with h | rfl | h
  · rw [if_neg (by omega), if_neg (by omega), if_neg (by omega)]
  · simp
  · obtain ⟨k, rfl⟩ := Nat.exists_eq_add_of_le' h
    have hs : k + (a + 1) - a = k + 1 := by omega
    have hk : k + (a + 1) - (a + 1) = k := by omega
    rw [hs, hk, List.getD_cons_succ, List.length_cons]
    by_cases hl : k < l.length
    · rw [if_pos (by omega), if_pos (by omega)]
    · rw [if_neg (by omega), if_neg (by omega), if_neg (by omega)]

/-- One entry of a table after a canonical write. -/
theorem agetD_cput {α : Type} [DecidableEq α] (d : α) (m : List (Nat × α)) (k x : Nat) (v : α) :
    agetD (cput d m k v) x d = if x = k then v else agetD m x d := by
  split
  · rename_i h
    rw [h, agetD_cput_self]
  · rename_i h
    exact agetD_cput_ne d d m v h

/-- What the map shows after bytes have been stored. -/
theorem State.memByte_store (s : State) (a x : Nat) (l : List Byte) :
    (s.store a l).memByte x = if a ≤ x ∧ x < a + l.length then l.getD (x - a) 0 else s.memByte x := by
  induction l generalizing s a with
  | nil => exact (if_neg (by simp)).symm
  | cons v l ih =>
    rw [State.store, ih, ite_span_cons]
    congr 1
    exact agetD_cput memBlank s.mem a x v

/-- A store touches the map and the list of words lost to uncorrectable errors. -/
theorem State.store_frame (s : State) (a : Nat) (l : List Byte) :
    s.store a l = { s with mem := (s.store a l).mem, ic := { s.ic with badWords := (s.store a l).ic.badWords } } := by
  induction l generalizing s a with
  | nil => rfl
  | cons v l ih =>
    rw [State.store, ih]
    rfl

/-- What the NOR shows after bytes have been programmed. -/
theorem State.nvmByte_nvmStore (s : State) (a x : Nat) (l : List Byte) :
    (s.nvmStore a l).nvmByte x = if a ≤ x ∧ x < a + l.length then l.getD (x - a) 0 else s.nvmByte x := by
  induction l generalizing s a with
  | nil => exact (if_neg (by simp)).symm
  | cons v l ih =>
    rw [State.nvmStore, ih, ite_span_cons]
    congr 1
    exact agetD_cput 0xFF s.nvm a x v

/-- Programming the NOR touches it alone. -/
theorem State.nvmStore_frame (s : State) (a : Nat) (l : List Byte) : s.nvmStore a l = { s with nvm := (s.nvmStore a l).nvm } := by
  induction l generalizing s a with
  | nil => rfl
  | cons v l ih =>
    rw [State.nvmStore, ih]

/-- Settles O9: byte by byte along the list that is stored. -/
theorem storedBytesReadBack : Obligations.StoredBytesReadBack := by
  refine ⟨fun s a x l => ⟨s.memByte_store a x l, ?_, ?_⟩, fun s a x l => ⟨s.nvmByte_nvmStore a x l, s.nvmStore_frame a l⟩⟩
  · rw [s.store_frame a l]
  · rw [s.store_frame a l]

/-! ### Pages of dark and of dormant domains -/

theorem exec_darkPageAccess (a : Access) (s : State) : exec (.darkPageAccess a) s = .next (access a s) := rfl
theorem exec_dormantPageAccess (a : Access) (s : State) : exec (.dormantPageAccess a) s = .next (access a s) := rfl
theorem exec_unassignedAddressAccess (a : Access) (s : State) : exec (.unassignedAddressAccess a) s = .next (access a s) := rfl

/-- An access of an assigned page asks for the power of the page's domain. -/
theorem access_needDomain {s : State} {a : Access} {o i : Nat} {b : Block} (hr : s.Reaches a.req)
    (ha : a.addr.toNat = addrRegs + o) (ho : o < 0x3000000) (hb : pageBlock (o / 0x10000) = some (b, i))
    (hn : b ≠ .aq ∨ s.is5120 = false) :
    access a s = needDomain (pageDomain b i) a (regAccess b i (o % 0x10000) a) s := by
  have hq : ¬ (b = .aq ∧ s.is5120 = true) := by
    rintro ⟨h1, h2⟩
    rcases hn with h | h
    · exact h h1
    · simp [h] at h2
  simp only [access_register hr ha, mapAccess, ha, target_register ho, hb, if_neg hq]

/-- A dark domain answers nothing, and the access is reported with KIND 2 (R28). -/
theorem needDomain_dark {s : State} {d : Nat} (a : Access) (run : State → State) (hd : 2 ≤ d) (h : s.dom d = 0) :
    needDomain d a run s = s.answerError a 2 false := by
  rw [needDomain, if_neg (by omega), if_neg (by omega)]

/-- A dormant domain holds the access and wakes (R29). -/
theorem needDomain_dormant {s : State} {d : Nat} (a : Access) (run : State → State) (hd : 2 ≤ d) (h : s.dom d = 2) :
    needDomain d a run s = { s with arch := { s.arch with held := s.arch.held ++ [a] } }.wakeDomain d := by
  rw [needDomain, if_neg (by omega), if_pos h]

/-- Waking a domain touches the list of wakes in progress alone. -/
theorem State.wakeDomain_frame (s : State) (d : Nat) :
    s.wakeDomain d = { s with arch := { s.arch with wakes := (s.wakeDomain d).arch.wakes } } := by
  unfold State.wakeDomain
  split <;> rfl

/-- A dormant domain that is told to wake is waking. -/
theorem State.wakeDomain_waking {s : State} {d : Nat} (h : s.dom d = 2) : ∃ w, (d, w) ∈ (s.wakeDomain d).arch.wakes := by
  by_cases hw : s.arch.wakes.any (fun w => w.1 == d) = true
  · rw [State.wakeDomain, if_neg (by simp [hw])]
    obtain ⟨⟨k, w⟩, hm, hk⟩ := List.any_eq_true.1 hw
    exact ⟨w, eq_of_beq hk ▸ hm⟩
  · rw [State.wakeDomain, if_pos ⟨h, hw⟩]
    exact ⟨_, List.mem_append_right _ (List.mem_singleton_self _)⟩

/-- Settles O12: the access asks for the power of a dark domain, finds nothing and is reported with KIND 2. -/
theorem darkPageAccessReadsZero : Obligations.DarkPageAccessReadsZero := by
  intro a o i b s hr ha ho hb hd h0 hn
  have hx : a.addr.toNat = addrRegs + o := by rw [ha, addr_toNat ho]
  have he : exec (.darkPageAccess a) s = .next (s.answerError a 2 false) := by
    rw [exec_darkPageAccess, access_needDomain hr hx ho hb hn, needDomain_dark a _ hd h0]
  obtain ⟨hbus, hcount, hbit, hregs, hbytes, hall⟩ := s.answerError_leaves a 2 false
  refine ⟨_, he, hx ▸ hbus, hcount, hbit, fun hf => ?_, hregs, hbytes, hall⟩
  obtain ⟨hvalid, hkind, -, -, hlo, -⟩ := s.accessError_logged a.req a.addr.toNat a.write.isSome 2 hf
  rw [State.answerError, State.answer_on, State.answer_rd, State.answer_rd, ← hx]
  exact ⟨hvalid, hkind, hlo⟩

/-- DOMAIN_WAKE_DONE of a domain that is waking (R29): the domain is ON, and what was held is served. -/
theorem exec_domainWakeDone {s : State} {pd : Fin 16} {w : Nat} (hw : (pd.val, w) ∈ s.arch.wakes) (h : s.dom pd = 2) :
    exec (.domainWakeDone pd) s =
      .next (serveHeld s.arch.held
        ((({ s with arch := { s.arch with
          wakes := s.arch.wakes.filter (fun x => x.1 != pd.val), held := [] } }).setDom pd 1).portsOn pd)) := by
  have hany : s.arch.wakes.any (fun w => w.1 == pd.val) = true := List.any_eq_true.2 ⟨_, hw, beq_self_eq_true _⟩
  change execDomainWakeDone pd s = _
  rw [execDomainWakeDone, if_pos ⟨hany, h⟩]

/-! ### Unassigned addresses -/

/-- An address of register space lies there. -/
theorem target_register_le {x o : Nat} (h : target x = .register o) : addrRegs ≤ x := by
  unfold target at h
  split at h
  · cases h
  · split at h
    · cases h
    · split at h
      · cases h
      · split at h
        · cases h
        · split at h
          · omega
          · cases h

/-- A requester whom register space serves has the access of an unassigned address either answered by the map or, where no BAR
covers it, turned away with a report. -/
theorem State.Reaches.reach_unassigned {s : State} {r : Requester} {x : Nat} (hr : s.Reaches r) (read : Bool)
    (hx : target x = .unassigned ∨ addrRegs ≤ x) :
    s.reach r x read = .through ∨ (s.reach r x read = .unsupported true ∧ viaHost r = true) := by
  rcases Nat.lt_or_ge x addrRegs with hlt | hge
  · have ht : target x = .unassigned := hx.resolve_right (by omega)
    obtain ⟨hv, hp, hd⟩ := hr
    unfold State.reach
    cases r with
    | core => exact .inl rfl
    | loader => exact .inl rfl
    | twin => exact .inl rfl
    | vf v => exact absurd rfl (hv v)
    | debug => exact .inl (by simp only [hd rfl, if_true])
    | pf0 =>
      simp only [State.pfReach, hp rfl, if_neg (Nat.not_le.2 hlt), ht, beq_self_eq_true, Bool.not_true, Bool.false_eq_true, if_false]
      split
      · split
        · exact .inl rfl
        · exact .inr ⟨rfl, rfl⟩
      · exact .inr ⟨rfl, rfl⟩
  · obtain ⟨o, rfl⟩ := Nat.exists_eq_add_of_le hge
    exact .inl (hr.reach o read)

/-- The map has nothing at an unassigned address, nor at a page that no block owns (R9, R33, R34). -/
theorem mapAccess_unassigned {s : State} {a : Access}
    (h : target a.addr.toNat = .unassigned ∨ ∃ o, target a.addr.toNat = .register o ∧ pageBlock (o / 0x10000) = none) :
    mapAccess a s = s.answerError a 3 (viaHost a.req) := by
  rcases h with h | ⟨o, h, hb⟩
  · simp only [mapAccess, h]
  · simp only [mapAccess, h, hb]

/-- An access of an unassigned address finds nothing, with Unsupported Request for the host port (R34). -/
theorem access_unassigned {s : State} {a : Access} (hr : s.Reaches a.req)
    (h : target a.addr.toNat = .unassigned ∨ ∃ o, target a.addr.toNat = .register o ∧ pageBlock (o / 0x10000) = none) :
    access a s = s.answerError a 3 (viaHost a.req) := by
  have hx : target a.addr.toNat = .unassigned ∨ addrRegs ≤ a.addr.toNat := by
    rcases h with h | ⟨o, h, -⟩
    · exact .inl h
    · exact .inr (target_register_le h)
  rcases hr.reach_unassigned a.write.isNone hx with he | ⟨he, hu⟩
  · simp only [access, he, mapAccess_unassigned h]
  · simp only [access, he, hu]

theorem reqCode_lt (r : Requester) : reqCode r < 2 ^ 4 := by
  cases r with
  | core c => exact c.isLt.trans (by decide)
  | pf0 | twin | vf | debug | loader => simp only [reqCode]; decide

/-- Settles O13: clause by clause, the held access, the end of the wake, and the access that finds nothing. -/
theorem dormantAndUnassignedAccesses : Obligations.DormantAndUnassignedAccesses := by
  refine ⟨?dormant, ?wake, ?unassigned⟩
  case dormant =>
    intro a o i b s hr ha ho hb hd h2 hn
    have hx : a.addr.toNat = addrRegs + o := by rw [ha, addr_toNat ho]
    refine ⟨_, by rw [exec_dormantPageAccess, access_needDomain hr hx ho hb hn, needDomain_dormant a _ hd h2], ?_, ?_, ?_⟩
    · rw [State.wakeDomain_frame]
    · exact State.wakeDomain_waking h2
    · exact State.wakeDomain_frame _ _
  case wake =>
    intro pd w s hw h
    exact exec_domainWakeDone hw h
  case unassigned =>
    intro req x v s hr hx h
    have ha : (BitVec.ofNat 40 x).toNat = x := Nat.mod_eq_of_lt hx
    have he := exec_unassignedAddressAccess { req := req, addr := BitVec.ofNat 40 x, write := v } s
    rw [access_unassigned hr (by rw [ha]; exact h)] at he
    obtain ⟨hbus, hcount, hbit, hregs, hbytes, hall⟩ :=
      s.answerError_leaves { req := req, addr := BitVec.ofNat 40 x, write := v } 3 (viaHost req)
    simp only [ha] at hbus
    refine ⟨_, he, hbus, hcount, hbit, fun hf => ?_, hregs, hbytes, hall⟩
    have hlog := s.accessError_logged req x v.isSome 3 hf
    have hhi : x / 2 ^ 32 % 2 ^ 8 = x / 2 ^ 32 := Nat.mod_eq_of_lt (by omega)
    rw [Nat.mod_eq_of_lt (reqCode_lt req), hhi] at hlog
    simp only [State.answerError, State.answer_on, State.answer_rd, ha]
    exact hlog

/-! ### The tick-start event -/

theorem exec_tickStart_due {s : State} (hrun : s.clk.running = true) (hdue : tickRep s.dueTick ≤ s.now) :
    exec .tickStart s =
      .next (((((raiseTick s.dueTick s).ifRuns 12 (acqEdge s.dueTick 0)).ifRuns 6 (tickStreams s.dueTick)).ifRuns 13
        (duTick s.dueTick)).ifRuns 10 (pairTick s.dueTick)) := by
  change execTickStart s = _
  rw [execTickStart, if_pos (by rw [State.tickDue, hrun, decide_eq_true hdue]; rfl)]

theorem raiseTick_word_ne (g : Nat) (s : State) {a : Nat} (h : a ≠ HC_GRID_TICK.addr) : (raiseTick g s).word a = s.word a :=
  s.word_wr_ne _ _ h

/-- Raising a tick leaves every domain as it is, at work or not. -/
theorem raiseTick_runs (g : Nat) (s : State) (d : Nat) : (raiseTick g s).runs d = s.runs d := by
  rw [State.runs, State.dom, State.on, State.rd, raiseTick_word_ne g s (by decide), raiseTick_word_ne g s (by decide)]
  rfl

theorem State.ifRuns_of_not_runs {s : State} {d : Nat} (h : s.runs d = false) (f : State → State) : s.ifRuns d f = s := by
  rw [State.ifRuns, h]
  rfl

theorem raiseTick_rd_tick (g : Nat) (s : State) : (raiseTick g s).rd HC_GRID_TICK = g % 4800 := by
  have h : (raiseTick g s).rd HC_GRID_TICK = g % 4800 % 2 ^ 13 := s.rd_wr_self HC_GRID_TICK (g % 4800) ⟨by decide, by decide⟩
  omega

/-- Settles O14: the due tick is raised; a block that does not run leaves it at that. -/
theorem tickStartRaisesTheDueTick : Obligations.TickStartRaisesTheDueTick := by
  intro s hrun hdue
  refine ⟨exec_tickStart_due hrun hdue, fun h12 h6 h13 h10 => ⟨raiseTick s.dueTick s, ?_, rfl, rfl, Nat.sub_self _, ?_, ?_, rfl⟩⟩
  · rw [← raiseTick_runs s.dueTick] at h12 h6 h13 h10
    rw [exec_tickStart_due hrun hdue, State.ifRuns_of_not_runs h12, State.ifRuns_of_not_runs h6, State.ifRuns_of_not_runs h13,
      State.ifRuns_of_not_runs h10]
  · exact raiseTick_rd_tick _ _
  · exact fun a ha => raiseTick_word_ne _ _ (by simpa using ha)

end Sys2Proof.Machine
end

section
/-!
Boot states, domains and ports: what entering a boot state, moving a domain and powering a domain's ports leave (R92, R424, R440, R446).
-/
namespace Sys2Proof.Machine

/-! ### Registers kept -/

theorem RegsKept.refl (l : List Nat) (s : State) : RegsKept l s s := fun _ _ => rfl

theorem RegsKept.trans {l l' : List Nat} {s t u : State} (h : RegsKept l s t) (h' : RegsKept l' t u) (hl : ∀ a ∈ l', a ∈ l) :
    RegsKept l s u :=
  fun a ha => (h' a fun hm => ha (hl a hm)).trans (h a ha)

theorem RegsKept.rd {l : List Nat} {s t : State} (h : RegsKept l s t) (f : Fld) (hf : f.addr ∉ l) : t.rd f = s.rd f :=
  State.rd_of_word (h _ hf)

theorem RegsKept.on {l : List Nat} {s t : State} (h : RegsKept l s t) (f : Fld) (hf : f.addr ∉ l) : t.on f = s.on f := by
  rw [State.on, h.rd f hf, State.on]

theorem RegsKept.wr {l : List Nat} {s t : State} (h : RegsKept l s t) {f : Fld} (v : Nat) (hf : f.addr ∈ l) :
    RegsKept l s (t.wr f v) := by
  intro a ha
  rw [State.word_wr_ne _ _ _ (ne_of_mem_of_not_mem hf ha).symm, h a ha]

theorem RegsKept.event {l : List Nat} {s t : State} (h : RegsKept l s t) {f : Fld} {es : Nat} (hf : f.addr ∈ l)
    (he : 0x30010 + es / 32 * 4 ∈ l) : RegsKept l s (t.event f es) := by
  intro a ha
  rw [State.word_event_ne _ _ _ (ne_of_mem_of_not_mem hf ha).symm (ne_of_mem_of_not_mem he ha).symm, h a ha]

theorem RegsKept.ite {l : List Nat} {s t u : State} {c : Prop} [Decidable c] (h : RegsKept l s t) (h' : RegsKept l s u) :
    RegsKept l s (if c then t else u) := by
  split
  · exact h
  · exact h'

/-- A one-bit field reads as the module has set it. -/
theorem State.on_wr_self (s : State) (f : Fld) (v : Bool) (hf : f.lo = f.hi ∧ f.hi < 32) : (s.wr f (b2n v)).on f = v := by
  have hw : f.hi + 1 - f.lo = 1 := by omega
  rw [State.on, State.rd_wr_self s f _ ⟨hf.1.le, hf.2⟩, hw]
  cases v <;> rfl

/-- A field of another register, or beside the one set, reads as before. -/
theorem State.on_wr_apart (s : State) (f g : Fld) (v : Nat) (hf : f.lo ≤ f.hi ∧ f.hi < 32)
    (h : f.addr ≠ g.addr ∨ f.hi < g.lo ∨ g.hi < f.lo) : (s.wr f v).on g = s.on g := by
  rw [State.on, State.rd_wr_apart s f g v hf h, State.on]

/-! ### What starts, entries and domains leave -/

/-- The queue, the memories, the clock, the Cellar, the recorder, the key store with its fuses, and the loader are as before. -/
structure CoreKept (s t : State) : Prop where
  pending : t.pending = s.pending
  mem : t.mem = s.mem
  nvm : t.nvm = s.nvm
  clk : t.clk = s.clk
  cl : t.cl = s.cl
  ev : t.ev = s.ev
  ks : t.ks = s.ks
  boot : t.boot = s.boot

section
variable {s t u : State}

theorem CoreKept.refl (s : State) : CoreKept s s := ⟨rfl, rfl, rfl, rfl, rfl, rfl, rfl, rfl⟩

theorem CoreKept.trans (h : CoreKept s t) (h' : CoreKept t u) : CoreKept s u :=
  ⟨h'.pending.trans h.pending, h'.mem.trans h.mem, h'.nvm.trans h.nvm, h'.clk.trans h.clk, h'.cl.trans h.cl, h'.ev.trans h.ev,
    h'.ks.trans h.ks, h'.boot.trans h.boot⟩

theorem CoreKept.ite {c : Prop} [Decidable c] (h : CoreKept s t) (h' : CoreKept s u) : CoreKept s (if c then t else u) := by
  split
  · exact h
  · exact h'

theorem CoreKept.put (h : CoreKept s t) (a v : Nat) : CoreKept s (t.put a v) := h.trans ⟨rfl, rfl, rfl, rfl, rfl, rfl, rfl, rfl⟩
theorem CoreKept.wr (h : CoreKept s t) (f : Fld) (v : Nat) : CoreKept s (t.wr f v) := h.put _ _
theorem CoreKept.setDom (h : CoreKept s t) (d v : Nat) : CoreKept s (t.setDom d v) := h.put _ _
theorem CoreKept.event (h : CoreKept s t) (f : Fld) (es : Nat) : CoreKept s (t.event f es) :=
  h.trans ⟨t.event_pending f es, t.event_mem f es, t.event_nvm f es, t.event_clk f es, t.event_cl f es, t.event_ev f es,
    t.event_ks f es, t.event_boot f es⟩
theorem CoreKept.record (h : CoreKept s t) (src code data : Nat) : CoreKept s (t.record src code data) :=
  h.trans ⟨rfl, rfl, rfl, rfl, rfl, rfl, rfl, rfl⟩
theorem CoreKept.binOpen (h : CoreKept s t) (kind index : Nat) (level pulse : Bool) (stamp : Nat) :
    CoreKept s (t.binOpen kind index level pulse stamp) := h.trans ⟨rfl, rfl, rfl, rfl, rfl, rfl, rfl, rfl⟩
theorem CoreKept.setPort (h : CoreKept s t) (n : Nat) (p : Port) : CoreKept s (t.setPort n p) :=
  h.trans ⟨rfl, rfl, rfl, rfl, rfl, rfl, rfl, rfl⟩

theorem CoreKept.pairPins (h : CoreKept s t) : CoreKept s t.pairPins := by
  unfold State.pairPins
  refine .ite ?_ (.binOpen (.wr (.wr ?_ _ _) _ _) _ _ _ _ _) <;> exact (h.wr _ _).wr _ _

theorem CoreKept.btEnter (h : CoreKept s t) (n : Nat) : CoreKept s (t.btEnter n) :=
  (((h.wr BT_STATUS_STATE n).event BT_EVENT_STATE ES_PM).record _ _ _).pairPins

end

/-! ### Power states of domains (R446) -/

theorem State.dom_of_word {s t : State} (h : t.word PM_DOMAIN_PD0.addr = s.word PM_DOMAIN_PD0.addr) (d : Nat) :
    t.dom d = s.dom d := by
  rw [State.dom, h, State.dom]

theorem RegsKept.dom {l : List Nat} {s t : State} (h : RegsKept l s t) (hl : PM_DOMAIN_PD0.addr ∉ l) (d : Nat) :
    t.dom d = s.dom d :=
  State.dom_of_word (h _ hl) d

theorem State.setDom_regsKept (s : State) (d v : Nat) : RegsKept [PM_DOMAIN_PD0.addr] s (s.setDom d v) :=
  fun _ ha => State.word_put_ne _ _ (by simpa using ha)

theorem State.word_setDom_self (s : State) {d : Nat} (v : Nat) (hd : d < 16) :
    (s.setDom d v).word PM_DOMAIN_PD0.addr = setBits (s.word PM_DOMAIN_PD0.addr) (2 * d + 1) (2 * d) v := by
  rw [State.setDom, State.word_put_self]
  exact Nat.mod_eq_of_lt (setBits_lt _ _ _ _ _ (by omega) (by omega) (s.word_lt _))

theorem State.dom_setDom_self (s : State) {d v : Nat} (hd : d < 16) (hv : v < 4) : (s.setDom d v).dom d = v := by
  have hw : 2 * d + 1 + 1 - 2 * d = 2 := by omega
  rw [State.dom, State.word_setDom_self s v hd, bits_setBits_self _ _ _ _ (by omega), hw]
  exact Nat.mod_eq_of_lt hv

theorem State.dom_setDom_ne (s : State) {d e : Nat} (v : Nat) (hd : d < 16) (h : e ≠ d) : (s.setDom d v).dom e = s.dom e := by
  rw [State.dom, State.word_setDom_self s v hd, bits_setBits_disjoint _ _ _ _ _ _ (by omega) (by omega), State.dom]

/-! ### The pair's pads follow the boot state (R449) -/

/-- Registers that the pads of the pair show in. -/
abbrev padRegs : List Nat := [PR_STATUS_STATE.addr, PB_STATUS_GATE_OPEN.addr]

theorem RegsKept.binOpen {l : List Nat} {s t : State} (h : RegsKept l s t) (kind index : Nat) (level pulse : Bool) (stamp : Nat) :
    RegsKept l s (t.binOpen kind index level pulse stamp) := h

theorem State.pairPins_regsKept (s : State) : RegsKept padRegs s s.pairPins := by
  unfold State.pairPins
  refine .ite ?_ (.binOpen (.wr (.wr ?_ _ ?_) _ ?_) _ _ _ _ _)
  case refine_1 | refine_2 => exact ((RegsKept.refl _ s).wr _ (by decide)).wr _ (by decide)
  all_goals decide

theorem State.ite_on {c : Prop} [Decidable c] {f : Fld} {b : Bool} {t u : State} (h : t.on f = b) (h' : u.on f = b) :
    (if c then t else u).on f = b := by
  split
  · exact h
  · exact h'

theorem State.binOpen_on (s : State) (kind index : Nat) (level pulse : Bool) (stamp : Nat) (f : Fld) :
    (s.binOpen kind index level pulse stamp).on f = s.on f := rfl

/-- The level of ILK_IN is the partner's. -/
theorem State.pairPins_on_ilkIn (s : State) : s.pairPins.on PR_STATUS_ILK_IN = s.on PR_STATUS_ILK_IN := by
  have hpads (x y : Nat) : ((s.wr PR_STATUS_ILK_OUT x).wr PR_STATUS_BLOCKED y).on PR_STATUS_ILK_IN = s.on PR_STATUS_ILK_IN := by
    rw [State.on_wr_apart _ _ _ _ (by decide) (by decide), State.on_wr_apart _ _ _ _ (by decide) (by decide)]
  unfold State.pairPins
  refine State.ite_on (hpads _ _) ?_
  rw [State.binOpen_on, State.on_wr_apart _ _ _ _ (by decide) (by decide), State.on_wr_apart _ _ _ _ (by decide) (by decide), hpads]

/-! ### Entering a boot state (R424, R448) -/

/-- Registers that a boot state's entry sets. -/
abbrev enterRegs : List Nat := [BT_STATUS_STATE.addr, BT_EVENT_STATE.addr, 0x30010, PR_STATUS_STATE.addr, PB_STATUS_GATE_OPEN.addr]

theorem State.btEnter_regsKept (s : State) (n : Nat) : RegsKept enterRegs s (s.btEnter n) :=
  (((RegsKept.refl enterRegs s).wr (f := BT_STATUS_STATE) n (by decide)).event (f := BT_EVENT_STATE) (es := ES_PM) (by decide)
    (by decide)).trans (State.pairPins_regsKept _) (by decide)

/-- A field of BT_STATUS, or of a register that an entry leaves, reads as it is set on entry. -/
theorem State.btEnter_rd (s : State) (n : Nat) {f : Fld}
    (h : f.addr ∉ [BT_EVENT_STATE.addr, 0x30010, PR_STATUS_STATE.addr, PB_STATUS_GATE_OPEN.addr]) :
    (s.btEnter n).rd f = (s.wr BT_STATUS_STATE n).rd f := by
  simp only [List.mem_cons, List.not_mem_nil, or_false, not_or] at h
  obtain ⟨hev, hes, hpr, hpb⟩ := h
  have hpins := State.pairPins_regsKept (((s.wr BT_STATUS_STATE n).pmEvent BT_EVENT_STATE).pmRecord 0x01 (n + s.rd PM_ENTRY_TRIGGER * 256))
  exact (hpins.rd f (by simp [hpr, hpb])).trans (State.rd_of_word (State.word_event_ne _ _ _ hev hes))

theorem State.btEnter_bt (s : State) {n : Nat} (hn : n < 16) : (s.btEnter n).bt = n := by
  rw [State.bt, State.btEnter_rd _ _ (by decide), State.rd_wr_self _ _ _ ⟨by decide, by decide⟩]
  exact Nat.mod_eq_of_lt hn

theorem State.btEnter_on_ilkIn (s : State) (n : Nat) : (s.btEnter n).on PR_STATUS_ILK_IN = s.on PR_STATUS_ILK_IN :=
  (State.pairPins_on_ilkIn _).trans
    ((((RegsKept.refl [BT_STATUS_STATE.addr, BT_EVENT_STATE.addr, 0x30010] s).wr (f := BT_STATUS_STATE) n (by decide)).event
      (f := BT_EVENT_STATE) (es := ES_PM) (by decide) (by decide)).on _ (by decide))

theorem State.btEnter_dom (s : State) (n d : Nat) : (s.btEnter n).dom d = s.dom d := (s.btEnter_regsKept n).dom (by decide) d

/-! ### BOOT_FAIL (R436) -/

theorem State.bootFail_bt (s : State) (c : Nat) : (s.bootFail c).bt = 0xF := State.btEnter_bt _ (by decide)

theorem State.bootFail_cause (s : State) {c : Nat} (hc : c < 256) : (s.bootFail c).rd BT_STATUS_CAUSE = c := by
  rw [State.bootFail, State.btEnter_rd _ _ (by decide), State.rd_wr_apart _ _ _ _ ⟨by decide, by decide⟩ (.inr (by decide)),
    State.rd_wr_self s _ _ ⟨by decide, by decide⟩]
  exact Nat.mod_eq_of_lt hc

theorem State.bootFail_dom (s : State) (c d : Nat) : (s.bootFail c).dom d = s.dom d := by
  rw [State.bootFail, State.btEnter_dom]
  exact State.dom_of_word (s.word_wr_ne _ _ (by decide)) d

/-! ### Ports of a domain that has powered (R92) -/

/-- A port in OFF that enters DOWN loses nothing: its state, its timers and its verification change. -/
theorem State.enterDown_off {s : State} {n : Nat} (h : s.link n = 0) :
    ∃ p : Port, s.enterDown n = ((s.wr (PT_STATUS_STATE.p n) 1).setPort n p).idleVerify n := by
  have hl : (s.link n == 2 || s.link n == 3) = false := by rw [h]; rfl
  unfold State.enterDown
  rw [hl]
  exact ⟨_, rfl⟩

theorem State.idleVerify_core {s t : State} (h : CoreKept s t) (n : Nat) : CoreKept s (t.idleVerify n) := (h.wr _ _).wr _ _

theorem State.portsOn_core (s : State) (d : Nat) : CoreKept s (s.portsOn d) := by
  refine List.foldlRecOn _ _ (motive := fun t : State => CoreKept s t) (.refl s) fun t ht n _ => ?_
  split
  · rename_i h
    obtain ⟨p, hp⟩ := State.enterDown_off h.2
    rw [hp]
    exact State.idleVerify_core ((ht.wr _ _).setPort _ _) n
  · exact ht

/-- Powering a domain's ports touches the ports' own pages. -/
theorem State.portsOn_word (s : State) (d : Nat) {a : Nat} (ha : a < PT_STATUS_STATE.addr) :
    (s.portsOn d).word a = s.word a := by
  refine List.foldlRecOn _ _ (motive := fun t : State => t.word a = s.word a) rfl fun t ht n _ => ?_
  split
  · rename_i h
    obtain ⟨p, hp⟩ := State.enterDown_off h.2
    have hn : a ≠ PT_STATUS_STATE.addr + n * 0x10000 := by omega
    rw [hp, State.idleVerify, State.word_wr_ne _ _ _ hn, State.word_wr_ne _ _ _ hn, ← ht]
    exact t.word_wr_ne _ _ hn
  · exact ht

end Sys2Proof.Machine
end

section
/-!
The key store and the recorder over a start (R406, R409, R412, R414, R444), and what a restart keeps (R443, R449).
-/
namespace Sys2Proof.Machine

/-! ### The key store's registers -/

/-- Showing the hashes of the fuses touches their own registers. -/
theorem State.ksShowPkh_spec (s : State) :
    CoreKept s s.ksShowPkh ∧ ∀ a, a < KS_PKH0_PKH.addr ∨ KS_PKH1_PKH.addr + 0x30 ≤ a → s.ksShowPkh.word a = s.word a := by
  refine List.foldlRecOn _ _ (motive := fun t : State => CoreKept s t ∧
    ∀ a, a < KS_PKH0_PKH.addr ∨ KS_PKH1_PKH.addr + 0x30 ≤ a → t.word a = s.word a) ⟨.refl s, fun _ _ => rfl⟩ ?_
  rintro t ⟨hcore, hword⟩ i hi
  refine ⟨(hcore.put _ _).put _ _, fun a ha => ?_⟩
  have hlt : i < 12 := List.mem_range.1 hi
  simp only [KS_PKH0_PKH, KS_PKH1_PKH] at ha ⊢
  rw [State.word_put_ne _ _ (by omega), State.word_put_ne _ _ (by omega), hword a ha]

theorem State.ksShowPkh_word (s : State) {a : Nat} (ha : a < KS_PKH0_PKH.addr ∨ KS_PKH1_PKH.addr + 0x30 ≤ a) :
    s.ksShowPkh.word a = s.word a := s.ksShowPkh_spec.2 a ha

theorem CoreKept.ksRefresh {s t : State} (h : CoreKept s t) : CoreKept s t.ksRefresh :=
  (((((h.wr _ _).wr _ _).wr _ _).wr _ _).wr _ _).wr _ _

theorem State.ksRefresh_regsKept (s : State) : RegsKept [KS_STATUS_LC.addr] s s.ksRefresh := by
  unfold State.ksRefresh
  refine (((((RegsKept.wr (.refl _ s) _ ?_).wr _ ?_).wr _ ?_).wr _ ?_).wr _ ?_).wr _ ?_ <;> decide

/-- Refreshing the status leaves the effective life-cycle state. -/
theorem State.ksRefresh_rd_lc (s : State) : s.ksRefresh.rd KS_STATUS_LC = s.rd KS_STATUS_LC := by
  unfold State.ksRefresh
  refine (State.rd_wr_apart _ _ _ _ ?_ ?_).trans <| (State.rd_wr_apart _ _ _ _ ?_ ?_).trans <|
    (State.rd_wr_apart _ _ _ _ ?_ ?_).trans <| (State.rd_wr_apart _ _ _ _ ?_ ?_).trans <|
    (State.rd_wr_apart _ _ _ _ ?_ ?_).trans <| State.rd_wr_apart _ _ _ _ ?_ ?_ <;> simp only [Fld.fits, Fld.apart] <;> decide

theorem lcOf_lt (f : Fuses) (b : Bool) : lcOf f b < 16 := by
  unfold lcOf
  split
  · decide
  · split
    · split <;> decide
    · split <;> decide

/-! ### The key store in COLD (R406, R409, R412, R414) -/

/-- `t` has the key store as COLD sets it up in `s`: the slots are EMPTY, the effective state is that of the fuses and the root; the
fuses, the NOR and the registers below the Cellar's status are as before. -/
structure ColdStore (s t : State) : Prop where
  slots : t.ks.slots = []
  fuses : t.ks.fuses = s.ks.fuses
  nvm : t.nvm = s.nvm
  lc : t.rd KS_STATUS_LC = lcOf s.ks.fuses (s.on CL_STATUS_ROOT_LOST)
  word : ∀ a, a < CL_STATUS_ROOT_LOST.addr → t.word a = s.word a

section
variable {s t u : State}

theorem ColdStore.ite {c : Prop} [Decidable c] (h : ColdStore s t) (h' : ColdStore s u) : ColdStore s (if c then t else u) := by
  split
  · exact h
  · exact h'

theorem ColdStore.record (h : ColdStore s t) (src code data : Nat) : ColdStore s (t.record src code data) :=
  ⟨h.slots, h.fuses, h.nvm, h.lc, h.word⟩

theorem ColdStore.ksTakeRoot (h : ColdStore s t) (lc : Nat) : ColdStore s (t.ksTakeRoot lc) :=
  ⟨h.slots, h.fuses, h.nvm, h.lc, h.word⟩

theorem State.newRoot_eq (t : State) :
    t.newRoot = ({ t with free := t.free + 1, cl := { t.cl with root := leBytes 64 t.fresh.1 } }).wr CL_STATUS_ROOT_LOST 0 := rfl

theorem State.newRoot_word (t : State) {a : Nat} (ha : a ≠ CL_STATUS_ROOT_LOST.addr) : t.newRoot.word a = t.word a := by
  rw [State.newRoot_eq, State.word_wr_ne _ _ _ ha, State.word, State.word]

theorem ColdStore.newRoot (h : ColdStore s t) : ColdStore s t.newRoot := by
  refine ⟨?_, ?_, ?_, ?_, fun a ha => (t.newRoot_word ha.ne).trans (h.word a ha)⟩
  · rw [State.newRoot_eq, State.wr_ks, h.slots]
  · rw [State.newRoot_eq, State.wr_ks, h.fuses]
  · rw [State.newRoot_eq, State.wr_nvm, h.nvm]
  · rw [State.rd_of_word (t.newRoot_word (by decide)), h.lc]

theorem ColdStore.ksRefresh (h : ColdStore s t) : ColdStore s t.ksRefresh where
  slots := by rw [((CoreKept.refl t).ksRefresh).ks, h.slots]
  fuses := by rw [((CoreKept.refl t).ksRefresh).ks, h.fuses]
  nvm := by rw [((CoreKept.refl t).ksRefresh).nvm, h.nvm]
  lc := by rw [State.ksRefresh_rd_lc, h.lc]
  word := fun a ha => by
    have hne : a ∉ [KS_STATUS_LC.addr] := by
      simp only [CL_STATUS_ROOT_LOST, KS_STATUS_LC, List.mem_singleton] at ha ⊢
      omega
    rw [State.ksRefresh_regsKept t a hne, h.word a ha]

/-- The hash registers and the effective state are shown. -/
theorem ColdStore.shown (hslots : t.ks.slots = []) (hfuses : t.ks.fuses = s.ks.fuses) (hnvm : t.nvm = s.nvm)
    (hword : ∀ a, t.word a = s.word a) :
    ColdStore s (t.ksShowPkh.wr KS_STATUS_LC (lcOf s.ks.fuses (s.on CL_STATUS_ROOT_LOST))) := by
  obtain ⟨hcore, hshow⟩ := t.ksShowPkh_spec
  have hc := hcore.wr KS_STATUS_LC (lcOf s.ks.fuses (s.on CL_STATUS_ROOT_LOST))
  refine ⟨by rw [hc.ks, hslots], by rw [hc.ks, hfuses], by rw [hc.nvm, hnvm], ?_, fun a ha => ?_⟩
  · rw [State.rd_wr_self _ _ _ ⟨by decide, by decide⟩]
    exact Nat.mod_eq_of_lt (lcOf_lt _ _)
  · simp only [CL_STATUS_ROOT_LOST] at ha
    rw [State.word_wr_ne _ _ _ (by simp only [KS_STATUS_LC]; omega), hshow a (by simp only [KS_PKH0_PKH]; omega), hword a]

end

theorem State.ksCold_coldStore (s : State) : ColdStore s s.ksCold := by
  have hbase := ColdStore.shown (s := s) (t := { s with
    free := s.free + 1, ks := { fuses := s.ks.fuses, kInt := Config.freeValue s.free } }) rfl rfl rfl fun _ => rfl
  unfold State.ksCold
  refine .ksRefresh (.record (.ite ?_ (.ksTakeRoot ?_ _)) _ _ _)
  all_goals exact .ite (.record (.newRoot hbase) _ _ _) hbase

/-! ### The recorder (R354, R444) -/

/-- The registers that follow the recorder's state. -/
abbrev recorderRegs : List Nat :=
  [EV_FIRST_FIRST.addr, EV_RING_FIRST_RING_FIRST.addr, EV_LAST_LAST.addr, EV_DRAINED_DRAINED.addr, EV_STATUS_UNDRAINED.addr]

theorem CoreKept.evRefresh {s t : State} (h : CoreKept s t) : CoreKept s t.evRefresh :=
  ((((h.wr _ _).wr _ _).wr _ _).wr _ _).wr _ _

theorem State.evRefresh_regsKept (s : State) : RegsKept recorderRegs s s.evRefresh := by
  unfold State.evRefresh
  refine ((((RegsKept.wr (.refl _ s) _ ?_).wr _ ?_).wr _ ?_).wr _ ?_).wr _ ?_ <;> decide

/-- A record that enters the ring stands in it under its number. -/
theorem ringTake_ring (q : EvReq) (s : State) :
    (ringTake q s).ev.ring = aput s.ev.ring (q.seq % 4096) (q.seq, recBytes s q) := by
  unfold ringTake
  dsimp only
  rw [State.evEvent, State.event_ev]
  split
  · rw [State.evEvent, State.event_ev, State.inc_ev]
  · rfl

/-- The source, the code and the first octet of the data of a record (R350). -/
theorem recBytes_source (s : State) (q : EvReq) :
    slice (recBytes s q) 22 3 = [BitVec.ofNat 8 q.src, BitVec.ofNat 8 q.code, BitVec.ofNat 8 q.data] := rfl

/-- A record written before a restart, with the queue empty, stands in the ring. -/
theorem State.recordThrough_ring {s : State} (src code data : Nat) (hen : s.on0 EV_CTRL_EN = true) (hscan : s.ev.scan = false)
    (hq : s.ev.queue = []) :
    ∃ b, aget (s.recordThrough src code data).ev.ring (s.ev.next % 4096) = some (s.ev.next, b) ∧
      slice b 22 3 = [BitVec.ofNat 8 src, BitVec.ofNat 8 code, BitVec.ofNat 8 data] := by
  have hc : ¬ ((!s.on0 EV_CTRL_EN) = true ∨ s.ev.scan = true) := by simp [hen, hscan]
  unfold State.recordThrough
  rw [if_neg hc]
  simp only [State.evTake, hq, List.nil_append, List.foldl_cons, List.foldl_nil, (CoreKept.refl _).evRefresh.ev, ringTake_ring,
    aget_aput_self]
  exact ⟨_, rfl, recBytes_source _ _⟩

/-! ### What lasts over a start (R343, R409, R425, R443) -/

/-- A table without the entries at keys that a test turns away. -/
theorem aget_filter_key {α : Type} (p : Nat → Bool) (m : List (Nat × α)) (k : Nat) :
    aget (m.filter fun e => p e.1) k = if p k then aget m k else none := by
  induction m with
  | nil => simp [aget]
  | cons e m ih =>
    obtain ⟨j, v⟩ := e
    by_cases hj : p j = true
    · rw [List.filter_cons_of_pos (by simpa using hj)]
      by_cases hk : j = k
      · subst hk
        simp [aget, hj]
      · simp only [aget, if_neg hk, ih]
    · rw [List.filter_cons_of_neg (by simpa using hj), ih]
      by_cases hk : j = k
      · subst hk
        simp [hj]
      · simp only [aget, if_neg hk]

/-- Outside the Cellar's page and PM_ID, every register but the level of ILK_IN has its reset value. -/
theorem State.startReset_regs (s : State) (warm : Bool) :
    ∃ t : State, s.startReset warm = t.wr PR_STATUS_ILK_IN (b2n (s.on PR_STATUS_ILK_IN)) ∧
      ∀ a, a / 0x10000 ≠ 5 → a ≠ PM_ID_DEVICE.addr → t.word a = (regReset a).toNat := by
  refine ⟨_, rfl, fun a hp hid => ?_⟩
  unfold State.word
  dsimp only
  rw [agetD_cput_ne _ _ _ _ hid, agetD, aget_filter_key fun k => k / 0x10000 == 5, if_neg (by simpa using hp)]
  rfl

theorem State.startReset_word (s : State) (warm : Bool) {a : Nat}
    (h : a / 0x10000 ≠ 5 ∧ a ≠ PM_ID_DEVICE.addr ∧ a ≠ PR_STATUS_ILK_IN.addr) :
    (s.startReset warm).word a = (regReset a).toNat := by
  obtain ⟨hp, hid, hilk⟩ := h
  obtain ⟨t, ht, hw⟩ := s.startReset_regs warm
  rw [ht, State.word_wr_ne _ _ _ hilk, hw a hp hid]

theorem State.startReset_on_ilkIn (s : State) (warm : Bool) :
    (s.startReset warm).on PR_STATUS_ILK_IN = s.on PR_STATUS_ILK_IN := by
  obtain ⟨t, ht, -⟩ := s.startReset_regs warm
  rw [ht, State.on_wr_self _ _ _ (by decide)]

/-- OEN_EXT is off. -/
theorem State.startReset_on_oenExt (s : State) (warm : Bool) : (s.startReset warm).on PR_STATUS_OEN_EXT = false := by
  obtain ⟨t, ht, hw⟩ := s.startReset_regs warm
  rw [ht, State.on_wr_apart _ _ _ _ (by decide) (by decide), State.on, State.rd, hw _ (by decide) (by decide)]
  decide

end Sys2Proof.Machine
end

section
/-!
From power to service: the supplies, the restarts, the clock and the DRAM, dormancy and the watchdog (R27, R426–R428, R433, R443, R444,
R493).
-/
namespace Sys2Proof.Machine

/-! ### What every restart keeps (R443, R449) -/

/-- The queue, the NOR, the fuses, the root secret and the recorder's ring are as before. -/
structure StartKept (s t : State) : Prop where
  pending : t.pending = s.pending
  nvm : t.nvm = s.nvm
  fuses : t.ks.fuses = s.ks.fuses
  root : t.cl.root = s.cl.root
  ring : t.ev.ring = s.ev.ring

theorem StartKept.core {s t u : State} (h : StartKept s t) (h' : CoreKept t u) : StartKept s u :=
  ⟨h'.pending.trans h.pending, h'.nvm.trans h.nvm, h'.ks ▸ h.fuses, h'.cl ▸ h.root, h'.ev ▸ h.ring⟩

theorem State.startReset_startKept (s : State) (warm : Bool) : StartKept s (s.startReset warm) := by
  unfold State.startReset
  constructor
  · rw [State.wr_pending]
  · rw [State.wr_nvm]
  · rw [State.wr_ks]
  · rw [State.wr_cl]
  · rw [State.wr_ev]

/-- `t` is a start of `s` under a trigger, warm or cold: PM_ENTRY tells it, and ILK_IN stays as the pad is. -/
structure Restarted (s : State) (trigger : Nat) (warm : Bool) (t : State) : Prop extends StartKept s t where
  trigger : t.rd PM_ENTRY_TRIGGER = trigger
  kind : t.rd PM_ENTRY_KIND = b2n warm
  ilkIn : t.on PR_STATUS_ILK_IN = s.on PR_STATUS_ILK_IN

section
variable {s t u : State} {trigger : Nat} {warm : Bool}

theorem Restarted.of_kept (h : Restarted s trigger warm t) (hk : StartKept s u) (he : u.word PM_ENTRY_KIND.addr = t.word PM_ENTRY_KIND.addr)
    (hi : u.on PR_STATUS_ILK_IN = t.on PR_STATUS_ILK_IN) : Restarted s trigger warm u :=
  ⟨hk, (State.rd_of_word (f := PM_ENTRY_TRIGGER) he).trans h.trigger, (State.rd_of_word (f := PM_ENTRY_KIND) he).trans h.kind,
    hi.trans h.ilkIn⟩

/-- A start as both kinds begin it. -/
def State.started (s : State) (warm : Bool) (trigger : Nat) : State :=
  (((s.startReset warm).wr PM_ENTRY_KIND (b2n warm)).wr PM_ENTRY_TRIGGER trigger).evRefresh.setDom 0 1

/-- A warm start powers PD1 and PD14 and shows the fuses and the effective life-cycle state `lc`. -/
def State.warmShown (t : State) (lc : Nat) : State := ((t.setDom 1 1).setDom 14 1).ksShowPkh.wr KS_STATUS_LC lc

/-- It then takes up the key store where it was. -/
def State.warmStore (t : State) (lc : Nat) : State :=
  (if lc = 0 ∨ lc = 3 then t.warmShown lc else (t.warmShown lc).ksTakeRoot lc).ksRefresh

theorem State.restart_cold (h : (warm && s.warmOk) = false) :
    s.restart trigger warm = { s.started false trigger with regs0 := (s.started false trigger).regs } := by
  unfold State.restart State.started
  simp only [h, Bool.false_eq_true, if_false]

theorem State.restart_warm (h : (warm && s.warmOk) = true) :
    ∃ t, t = ((s.started true trigger).warmStore (s.rd KS_STATUS_LC)).btEnter btCellarUp ∧
      s.restart trigger warm = { t with regs0 := t.regs } := by
  refine ⟨_, rfl, ?_⟩
  unfold State.restart State.started State.warmStore State.warmShown
  simp only [h, if_true]

theorem State.started_core (s : State) (warm : Bool) (trigger : Nat) : CoreKept (s.startReset warm) (s.started warm trigger) :=
  (((CoreKept.refl _).wr _ _).wr _ _).evRefresh.setDom _ _

/-- Registers beside the domains and those of the recorder. -/
theorem State.started_word (s : State) (warm : Bool) (trigger : Nat) {a : Nat} (h : a ≠ PM_DOMAIN_PD0.addr) (h' : a ∉ recorderRegs) :
    (s.started warm trigger).word a =
      (((s.startReset warm).wr PM_ENTRY_KIND (b2n warm)).wr PM_ENTRY_TRIGGER trigger).word a :=
  (State.setDom_regsKept _ _ _ a (by simpa using h)).trans (State.evRefresh_regsKept _ a h')

theorem State.started_restarted (s : State) (warm : Bool) (ht : trigger < 8) : Restarted s trigger warm (s.started warm trigger) := by
  refine ⟨(s.startReset_startKept warm).core (s.started_core warm trigger), ?_, ?_, ?_⟩
  · rw [State.rd_of_word (s.started_word warm trigger (by decide) (by decide)), State.rd_wr_self _ _ _ ⟨by decide, by decide⟩]
    exact Nat.mod_eq_of_lt ht
  · rw [State.rd_of_word (s.started_word warm trigger (by decide) (by decide)),
      State.rd_wr_apart _ _ _ _ ⟨by decide, by decide⟩ (.inr (by decide)), State.rd_wr_self _ _ _ ⟨by decide, by decide⟩]
    cases warm <;> rfl
  · rw [State.on, State.rd_of_word (s.started_word warm trigger (by decide) (by decide)), ← State.on,
      State.on_wr_apart _ _ _ _ (by decide) (by decide), State.on_wr_apart _ _ _ _ (by decide) (by decide), State.startReset_on_ilkIn]

/-! ### A cold start -/

/-- No domain but PD0 has power. -/
theorem State.started_dom (s : State) (warm : Bool) (trigger : Nat) {d : Nat} (h1 : 1 ≤ d) (h : d < 16) :
    (s.started warm trigger).dom d = 0 := by
  have hreset : (regReset PM_DOMAIN_PD0.addr).toNat = 0 := by decide
  rw [State.started, State.dom_setDom_ne _ _ (by decide) (by omega), (State.evRefresh_regsKept _).dom (by decide), State.dom,
    State.word_wr_ne _ _ _ (by decide), State.word_wr_ne _ _ _ (by decide), State.startReset_word _ _ (by decide), hreset, bits]
  simp

/-- The module is in COLD. -/
theorem State.started_bt (s : State) (warm : Bool) (trigger : Nat) : (s.started warm trigger).bt = 0 := by
  have hreset : (regReset BT_STATUS_STATE.addr).toNat = 0 := by decide
  rw [State.bt, State.rd, s.started_word warm trigger (by decide) (by decide), State.word_wr_ne _ _ _ (by decide),
    State.word_wr_ne _ _ _ (by decide), State.startReset_word _ _ (by decide), hreset]
  rfl

theorem State.started_on_oenExt (s : State) (warm : Bool) (trigger : Nat) : (s.started warm trigger).on PR_STATUS_OEN_EXT = false := by
  rw [State.on, State.rd_of_word (s.started_word warm trigger (by decide) (by decide)), ← State.on,
    State.on_wr_apart _ _ _ _ (by decide) (by decide), State.on_wr_apart _ _ _ _ (by decide) (by decide), State.startReset_on_oenExt]

/-- Without PD13 the trip pads are off (R314). -/
theorem State.duPads_off {s : State} (h : s.dom 13 = 0) (k : Nat) : s.duPads k = (false, false) := by
  have hoff : s.duOn = false := by rw [State.duOn, h]; exact Bool.and_false _
  simp only [State.duPads, hoff, Bool.false_and]

theorem outputsOff_of_dark (hd : t.dom 13 = 0) (ho : t.on PR_STATUS_OEN_EXT = false) : OutputsOff t :=
  ⟨fun k _ => State.duPads_off hd k, ho⟩

/-! ### A warm start -/

theorem State.warmShown_core (t : State) (lc : Nat) : CoreKept t (t.warmShown lc) :=
  ((((CoreKept.refl t).setDom _ _).setDom _ _).trans (State.ksShowPkh_spec _).1).wr _ _

/-- Beside the domains and the key store's registers nothing of the register file moves. -/
theorem State.warmShown_word (t : State) (lc : Nat) {a : Nat}
    (h : a ≠ PM_DOMAIN_PD0.addr ∧ a ≠ KS_STATUS_LC.addr ∧ (a < KS_PKH0_PKH.addr ∨ KS_PKH1_PKH.addr + 0x30 ≤ a)) :
    (t.warmShown lc).word a = t.word a := by
  obtain ⟨hdom, hlc, hpkh⟩ := h
  rw [State.warmShown, State.word_wr_ne _ _ _ hlc, State.ksShowPkh_word _ hpkh,
    State.setDom_regsKept _ _ _ a (by simpa using hdom), State.setDom_regsKept _ _ _ a (by simpa using hdom)]

theorem State.warmShown_dom (t : State) (lc : Nat) : (t.warmShown lc).dom 1 = 1 ∧ (t.warmShown lc).dom 14 = 1 := by
  have hword : (t.warmShown lc).word PM_DOMAIN_PD0.addr = ((t.setDom 1 1).setDom 14 1).word PM_DOMAIN_PD0.addr := by
    rw [State.warmShown, State.word_wr_ne _ _ _ (by decide), State.ksShowPkh_word _ (by decide)]
  rw [State.dom_of_word hword, State.dom_of_word hword, State.dom_setDom_self _ (by decide) (by decide),
    State.dom_setDom_ne _ _ (by decide) (by decide), State.dom_setDom_self _ (by decide) (by decide)]
  exact ⟨rfl, rfl⟩

theorem State.ksTakeRoot_startKept (h : StartKept s t) (lc : Nat) : StartKept s (t.ksTakeRoot lc) :=
  ⟨h.pending, h.nvm, h.fuses, h.root, h.ring⟩

theorem State.ksTakeRoot_mem (t : State) (lc : Nat) : (t.ksTakeRoot lc).mem = t.mem := rfl
theorem State.ksTakeRoot_word (t : State) (lc a : Nat) : (t.ksTakeRoot lc).word a = t.word a := rfl

theorem State.warmStore_startKept (h : StartKept s t) (lc : Nat) : StartKept s (t.warmStore lc) := by
  have hshown := h.core (t.warmShown_core lc)
  unfold State.warmStore
  split
  · exact hshown.core (CoreKept.refl _).ksRefresh
  · exact (State.ksTakeRoot_startKept hshown lc).core (CoreKept.refl _).ksRefresh

theorem State.warmStore_mem (t : State) (lc : Nat) : (t.warmStore lc).mem = t.mem := by
  unfold State.warmStore
  rw [((CoreKept.refl _).ksRefresh).mem]
  split
  · exact (t.warmShown_core lc).mem
  · rw [State.ksTakeRoot_mem, (t.warmShown_core lc).mem]

theorem State.warmStore_word (t : State) (lc : Nat) {a : Nat} (h : a ≠ KS_STATUS_LC.addr) :
    (t.warmStore lc).word a = (t.warmShown lc).word a := by
  unfold State.warmStore
  rw [State.ksRefresh_regsKept _ a (by simpa using h)]
  split
  · rfl
  · rw [State.ksTakeRoot_word]

theorem Restarted.warmStore (h : Restarted s trigger warm t) (lc : Nat) : Restarted s trigger warm (t.warmStore lc) := by
  refine h.of_kept (State.warmStore_startKept h.toStartKept lc) ?_ ?_
  · rw [State.warmStore_word _ _ (by decide), State.warmShown_word _ _ (by decide)]
  · rw [State.on, State.rd, State.warmStore_word _ _ (by decide), State.warmShown_word _ _ (by decide)]
    rfl

theorem State.warmStore_dom (t : State) (lc : Nat) : (t.warmStore lc).dom 1 = 1 ∧ (t.warmStore lc).dom 14 = 1 := by
  have hword := t.warmStore_word lc (a := PM_DOMAIN_PD0.addr) (by decide)
  rw [State.dom_of_word hword, State.dom_of_word hword]
  exact t.warmShown_dom lc

theorem Restarted.btEnter (h : Restarted s trigger warm t) (n : Nat) : Restarted s trigger warm (t.btEnter n) :=
  h.of_kept (h.toStartKept.core ((CoreKept.refl t).btEnter n)) (State.btEnter_regsKept t n _ (by decide)) (t.btEnter_on_ilkIn n)

/-- What a register reads does not rest on the start of the cycle. -/
theorem Restarted.latch (h : Restarted s trigger warm t) : Restarted s trigger warm { t with regs0 := t.regs } :=
  h.of_kept ⟨h.pending, h.nvm, h.fuses, h.root, h.ring⟩ rfl rfl

/-! ### Restarts -/

theorem State.restart_restarted (s : State) (warm : Bool) (ht : trigger < 8) :
    Restarted s trigger (warm && s.warmOk) (s.restart trigger warm) := by
  cases h : warm && s.warmOk with
  | false =>
    rw [State.restart_cold h]
    exact (s.started_restarted false ht).latch
  | true =>
    obtain ⟨t, rfl, he⟩ := s.restart_warm (trigger := trigger) h
    rw [he]
    exact (((s.started_restarted true ht).warmStore _).btEnter _).latch

/-- What a cold start leaves is not about the start of the cycle. -/
theorem coldLeft_latch (ht : t = { u with regs0 := u.regs }) (hbt : u.bt = 0) (hmem : u.mem = [])
    (hoen : u.on PR_STATUS_OEN_EXT = false) (hdom : ∀ d, 1 ≤ d → d < 16 → u.dom d = 0) :
    t.bt = 0 ∧ t.mem = [] ∧ OutputsOff t ∧ ∀ d, 1 ≤ d → d < 16 → t.dom d = 0 := by
  subst ht
  exact ⟨hbt, hmem, outputsOff_of_dark (hdom 13 (by decide) (by decide)) hoen, hdom⟩

/-- A cold start leaves COLD, the DRAM lost, the outputs off and no domain but PD0 with power. -/
theorem State.restart_cold_leaves (h : (warm && s.warmOk) = false) (ht : t = s.restart trigger warm) :
    t.bt = 0 ∧ t.mem = [] ∧ OutputsOff t ∧ ∀ d, 1 ≤ d → d < 16 → t.dom d = 0 := by
  have hmem : (s.started false trigger).mem = [] := by
    rw [(s.started_core false trigger).mem, State.startReset, State.wr_mem]
    rfl
  exact coldLeft_latch (ht.trans (State.restart_cold h)) (s.started_bt false trigger) hmem (s.started_on_oenExt false trigger)
    fun d => s.started_dom false trigger

/-- A warm start leaves CELLAR_UP with PD1, PD14 and the DRAM. -/
theorem State.restart_warm_leaves (h : (warm && s.warmOk) = true) (ht : t = s.restart trigger warm) :
    t.bt = 1 ∧ t.dom 1 = 1 ∧ t.dom 14 = 1 ∧ ∀ a, a < 0x0200000000 → t.memByte a = s.memByte a := by
  have hmem : (s.startReset true).mem = s.mem.filter (fun c : Host.Cell => inDram c.1) := by
    rw [State.startReset, State.wr_mem]
    rfl
  obtain ⟨u, hu, he⟩ := s.restart_warm (trigger := trigger) h
  obtain ⟨h1, h14⟩ := State.warmStore_dom (s.started true trigger) (s.rd KS_STATUS_LC)
  have humem : u.mem = s.mem.filter (fun c : Host.Cell => inDram c.1) := by
    rw [hu, ((CoreKept.refl _).btEnter _).mem, State.warmStore_mem, (s.started_core true trigger).mem, hmem]
  have hubt : u.bt = 1 := by rw [hu]; exact State.btEnter_bt _ (by decide)
  rw [← State.btEnter_dom _ btCellarUp, ← hu] at h1 h14
  rw [ht, he]
  refine ⟨hubt, h1, h14, fun a ha => ?_⟩
  have hin : inDram a = true := decide_eq_true ha
  change agetD u.mem a memBlank = agetD s.mem a memBlank
  rw [humem, agetD, aget_filter_key inDram, if_pos hin, agetD]

end

end Sys2Proof.Machine
end

section
/-!
The rows of chapter 18 on starts and supplies, and the statement on them (R27, R426–R428, R433, R443, R444, R493).
-/
namespace Sys2Proof.Machine

/-! ### RST_N, VIO and the host port (R433, R443, R493) -/

theorem exec_rstNLow {s : State} (h : s.elec.vin = true) :
    exec .rstNLow s = .next ({ s with elec := { s.elec with rst := true } }.restart 1 false) :=
  congrArg Host.Outcome.next (if_pos h)

theorem exec_vioLoss {s : State} (h : s.elec.vin = true) :
    exec .vioLoss s = .next ({ s with elec := { s.elec with vio := true } }.restart 1 false) :=
  congrArg Host.Outcome.next (if_pos h)

/-! ### PD1_RESET_RELEASE (R426) -/

/-- The Cellar event that waited touches the event's own registers. -/
theorem State.clOwed_word (s : State) {a : Nat} (h : a ≠ 0x30010) : s.clOwed.word a = s.word a := by
  unfold State.clOwed
  split
  · exact s.word_raise_ne ES_CL h
  · rfl

theorem State.clOwed_store (s : State) : s.clOwed.ks = s.ks ∧ s.clOwed.nvm = s.nvm := by
  unfold State.clOwed
  split
  · exact ⟨s.raise_ks ES_CL, s.raise_nvm ES_CL⟩
  · exact ⟨rfl, rfl⟩

/-- The straps as COLD samples them. -/
def State.strapped (s : State) (pair src wide : Bool) : State :=
  ((s.wr PM_ID_PAIR_ID (b2n pair)).wr PM_ID_BOOT_SRC (b2n src)).wr PM_ID_NVM_WIDTH (b2n wide)

theorem State.strapped_straps (s : State) (pair src wide : Bool) :
    (s.strapped pair src wide).on PM_ID_PAIR_ID = pair ∧ (s.strapped pair src wide).on PM_ID_BOOT_SRC = src ∧
      (s.strapped pair src wide).on PM_ID_NVM_WIDTH = wide := by
  unfold State.strapped
  refine ⟨?_, ?_, ?_⟩
  · rw [State.on_wr_apart _ _ _ _ (by decide) (by decide), State.on_wr_apart _ _ _ _ (by decide) (by decide),
      State.on_wr_self _ _ _ (by decide)]
  · rw [State.on_wr_apart _ _ _ _ (by decide) (by decide), State.on_wr_self _ _ _ (by decide)]
  · rw [State.on_wr_self _ _ _ (by decide)]

theorem State.strapped_regsKept (s : State) (pair src wide : Bool) :
    RegsKept [PM_ID_PAIR_ID.addr] s (s.strapped pair src wide) :=
  (((RegsKept.refl _ s).wr (f := PM_ID_PAIR_ID) _ (by decide)).wr (f := PM_ID_BOOT_SRC) _ (by decide)).wr (f := PM_ID_NVM_WIDTH) _
    (by decide)

/-- The state in which PD1 runs in COLD, before the key store and the boot state follow. -/
def State.pd1On (s : State) (pair src wide : Bool) : State := (((s.strapped pair src wide).setDom 0 1).setDom 1 1).clOwed

theorem exec_pd1ResetRelease {s : State} (pair src wide : Bool) (hbt : s.bt = 0) (hd : s.dom 1 ≠ 1) (hv : s.elec.vin = true)
    (hr : s.elec.rst = false) (hio : s.elec.vio = false) (hw : s.cl.wakeDue = false) (hp : s.cl.por = false) :
    exec (.pd1ResetRelease pair src wide) s = .next ((s.pd1On pair src wide).ksCold.btEnter btCellarUp) := by
  change execPd1ResetRelease pair src wide s = _
  unfold execPd1ResetRelease State.pd1On State.strapped
  exact if_neg (by simp [hbt, hd, hv, hr, hio, hw, hp, btCold])

theorem State.pd1On_word (s : State) (pair src wide : Bool) {a : Nat} (h : a ∉ [0x30010, PM_DOMAIN_PD0.addr]) :
    (s.pd1On pair src wide).word a = (s.strapped pair src wide).word a := by
  simp only [List.mem_cons, List.not_mem_nil, or_false, not_or] at h
  rw [State.pd1On, State.clOwed_word _ h.1, State.setDom_regsKept _ _ _ a (by simpa using h.2),
    State.setDom_regsKept _ _ _ a (by simpa using h.2)]

theorem State.pd1On_dom (s : State) (pair src wide : Bool) : (s.pd1On pair src wide).dom 1 = 1 := by
  rw [State.pd1On, State.dom_of_word (State.clOwed_word _ (by decide)), State.dom_setDom_self _ (by decide) (by decide)]

theorem pd1ResetRelease_leaves {s t : State} {pair src wide : Bool} (ht : t = (s.pd1On pair src wide).ksCold.btEnter btCellarUp) :
    t.bt = 1 ∧ t.dom 1 = 1 ∧ t.on PM_ID_PAIR_ID = pair ∧ t.on PM_ID_BOOT_SRC = src ∧ t.on PM_ID_NVM_WIDTH = wide ∧
      t.rd KS_STATUS_LC = lcOf s.ks.fuses (s.on CL_STATUS_ROOT_LOST) ∧ t.ks.slots = [] ∧ t.ks.fuses = s.ks.fuses ∧ t.nvm = s.nvm := by
  have hks : (s.pd1On pair src wide).ks = s.ks := (State.clOwed_store _).1
  have hnvm : (s.pd1On pair src wide).nvm = s.nvm := (State.clOwed_store _).2
  have hlost : (s.pd1On pair src wide).on CL_STATUS_ROOT_LOST = s.on CL_STATUS_ROOT_LOST := by
    rw [State.on, State.rd_of_word (s.pd1On_word pair src wide (by decide)), ← State.on]
    exact (s.strapped_regsKept pair src wide).on _ (by decide)
  have hcold := State.ksCold_coldStore (s.pd1On pair src wide)
  have hcore := (CoreKept.refl (s.pd1On pair src wide).ksCold).btEnter btCellarUp
  have hregs := State.btEnter_regsKept (s.pd1On pair src wide).ksCold btCellarUp
  rw [← ht] at hcore hregs
  obtain ⟨hpair, hsrc, hwide⟩ := s.strapped_straps pair src wide
  have hid : ∀ f : Fld, f.addr = PM_ID_DEVICE.addr → t.on f = (s.strapped pair src wide).on f := by
    intro f hf
    have hword : t.word f.addr = (s.strapped pair src wide).word f.addr := by
      rw [hf, hregs _ (by decide), hcold.word _ (by decide), State.pd1On_word _ _ _ _ (by decide)]
    rw [State.on, State.rd_of_word hword, State.on]
  refine ⟨?_, ?_, (hid PM_ID_PAIR_ID rfl).trans hpair, (hid PM_ID_BOOT_SRC rfl).trans hsrc,
    (hid PM_ID_NVM_WIDTH rfl).trans hwide, ?_, ?_, ?_, ?_⟩
  · rw [ht]
    exact State.btEnter_bt _ (by decide)
  · rw [hregs.dom (by decide), State.dom_of_word (hcold.word _ (by decide)), State.pd1On_dom]
  · rw [hregs.rd _ (by decide), hcold.lc, hks, hlost]
  · rw [hcore.ks, hcold.slots]
  · rw [hcore.ks, hcold.fuses, hks]
  · rw [hcore.nvm, hcold.nvm, hnvm]

/-! ### CELLAR_UP (R427, R428) -/

theorem exec_pllMLock {s : State} (hbt : s.bt = 1) (h : s.clk.running = false) :
    exec .pllMLock s = .next ({ s with clk := { s.clk with running := true } }.wr HC_CTRL_GOV 1) := by
  change execPllMLock s = _
  rw [execPllMLock, if_pos ⟨hbt, by rw [h]; rfl⟩]

/-- What DRAM_INIT_DONE does in CELLAR_UP while the DRAM is not up. -/
theorem exec_dramInitDone {s : State} (hbt : s.bt = 1) (h : s.boot.dram = false) :
    exec (.dramInitDone 0) s = .next (({ s with boot := { s.boot with dram := true } }.setDom 14 1).setDom 15 1) ∧
    exec (.dramInitDone 1) s = .next (((s.setDom 14 1).setDom 15 1).bootFail 0x10) ∧
    exec (.dramInitDone 2) s = .next ((((s.setDom 14 3).pmEvent PM_EVENT_DOMAIN).pmRecord 0x04 14).bootFail 0x11) ∧
    exec (.dramInitDone 3) s =
      .next (((((s.setDom 14 1).setDom 15 3).pmEvent PM_EVENT_DOMAIN).pmRecord 0x04 15).bootFail 0x11) := by
  have hc : ¬ (s.bt ≠ btCellarUp ∨ s.boot.dram = true) := by simp [hbt, h, btCellarUp]
  refine ⟨?_, ?_, ?_, ?_⟩
  · exact if_neg hc
  · exact if_neg hc
  · exact if_neg hc
  · exact if_neg hc

/-- An event of a failed domain and its record leave the domains. -/
theorem State.domainEvent_dom (s : State) (c x d : Nat) : ((s.pmEvent PM_EVENT_DOMAIN).pmRecord c x).dom d = s.dom d :=
  State.dom_of_word (s.word_event_ne _ _ (by decide) (by decide)) d

theorem imageCause_lt (s : State) (d : List Byte) (b : Bool) : imageCause s d b < 256 := by
  unfold imageCause
  dsimp only
  repeat' split
  all_goals decide

/-- The loader with the directory and the images' causes, and the twin ports on a module that is served by its partner. -/
theorem cellarUpComplete_leaves {s x y t : State} {a b : Nat} (ha : a < 256) (hb : b < 256)
    (hregs : ∀ f, x.rd f = ((s.wr BT_IMG_A_CAUSE a).wr BT_IMG_B_CAUSE b).rd f) (hy : y = x ∨ y = (x.setDom 10 1).portsOn 10)
    (ht : t = y.btEnter btWait) :
    CoreKept x t ∧ t.bt = 2 ∧ t.rd BT_IMG_A_CAUSE = a ∧ t.rd BT_IMG_B_CAUSE = b := by
  have hcore : CoreKept x y := by
    rcases hy with rfl | rfl
    · exact .refl _
    · exact ((CoreKept.refl x).setDom 10 1).trans (State.portsOn_core _ _)
  have hword : y.word BT_IMG_A_CAUSE.addr = x.word BT_IMG_A_CAUSE.addr := by
    rcases hy with rfl | rfl
    · rfl
    · rw [State.portsOn_word _ _ (by decide), State.setDom_regsKept _ _ _ _ (by decide)]
  have henter := y.btEnter_regsKept btWait
  rw [← ht] at henter
  refine ⟨ht ▸ hcore.btEnter btWait, ht ▸ State.btEnter_bt y (by decide), ?_, ?_⟩
  · rw [henter.rd _ (by decide), State.rd_of_word hword, hregs, State.rd_wr_apart _ _ _ _ ⟨by decide, by decide⟩ (.inr (by decide)),
      State.rd_wr_self _ _ _ ⟨by decide, by decide⟩]
    exact Nat.mod_eq_of_lt ha
  · rw [henter.rd _ (by decide), State.rd_of_word (f := BT_IMG_B_CAUSE) hword, hregs, State.rd_wr_self _ _ _ ⟨by decide, by decide⟩]
    exact Nat.mod_eq_of_lt hb

/-- CELLAR_UP_COMPLETE with the DRAM up and the house clock running (R428–R431). -/
theorem exec_cellarUpComplete {s : State} (hbt : s.bt = 1) (hd : s.boot.dram = true) (hc : s.clk.running = true) (answers : Bool)
    (size : Nat) :
    Answers (exec (.cellarUpComplete answers size) s) (fun t =>
      t.bt = 2 ∧ (∃ d, d = (if answers then s.directory size else []) ∧ t.boot.dir = d ∧
        t.rd BT_IMG_A_CAUSE = imageCause s d false ∧ t.rd BT_IMG_B_CAUSE = imageCause s d true) ∧
      t.boot.waitFrom = s.clk.lapse ∧ t.boot.apOpen = !s.on PM_ID_BOOT_SRC ∧ t.nvm = s.nvm ∧ t.mem = s.mem) := by
  have hcond : ¬ (s.bt ≠ btCellarUp ∨ (!s.boot.dram) = true ∨ (!s.clk.running) = true) := by simp [hbt, hd, hc, btCellarUp]
  generalize hdir : (if answers then s.directory size else []) = d
  obtain ⟨w, hw⟩ : ∃ w, w = (s.wr BT_IMG_A_CAUSE (imageCause s d false)).wr BT_IMG_B_CAUSE (imageCause s d true) := ⟨_, rfl⟩
  have hsrc : w.on PM_ID_BOOT_SRC = s.on PM_ID_BOOT_SRC := by
    rw [hw, State.on_wr_apart _ _ _ _ (by decide) (by decide), State.on_wr_apart _ _ _ _ (by decide) (by decide)]
  have hcore : CoreKept s w := hw ▸ ((CoreKept.refl s).wr _ _).wr _ _
  obtain ⟨x, hx⟩ : ∃ x : State, x = { w with
      boot := { w.boot with dir := d, waitFrom := w.clk.lapse, begun := false, apOpen := !w.on PM_ID_BOOT_SRC }
      ev := { w.ev with ofs := if d.isEmpty ∨ leAt d 28 4 = 0 then none else some (leAt d 24 4), params := true }
      pr := { w.pr with reqNext := w.clk.lapse } } := ⟨_, rfl⟩
  obtain ⟨y, hy⟩ : ∃ y, y = if w.on PM_ID_BOOT_SRC then (x.setDom 10 1).portsOn 10 else x := ⟨_, rfl⟩
  have he : exec (.cellarUpComplete answers size) s = .next (y.btEnter btWait) := by
    change execCellarUpComplete answers size s = _
    unfold execCellarUpComplete
    rw [if_neg hcond, hy, hx, hw, ← hdir]
  have hor : y = x ∨ y = (x.setDom 10 1).portsOn 10 := by
    rw [hy]
    split
    · exact .inr rfl
    · exact .inl rfl
  obtain ⟨hk, hbt2, hA, hB⟩ := cellarUpComplete_leaves (s := s) (x := x) (imageCause_lt s d false) (imageCause_lt s d true)
    (fun f => by rw [hx, ← hw]; rfl) hor rfl
  refine ⟨_, he, hbt2, ⟨d, rfl, ?_, hA, hB⟩, ?_, ?_, ?_, ?_⟩
  · rw [hk.boot, hx]
  · rw [hk.boot, hx, ← hcore.clk]
  · rw [hk.boot, hx, ← hsrc]
  · rw [hk.nvm, hx, ← hcore.nvm]
  · rw [hk.mem, hx, ← hcore.mem]

end Sys2Proof.Machine
end

section
/-!
PM_CMD, dormancy, the watchdog and a domain's failure (R27, R443, R444, R446, R493), and the statement on starts and supplies.
-/
namespace Sys2Proof.Machine

/-! ### PM_CMD (R443, R446) -/

/-- A register of the PM_ page answers one who may write. -/
theorem writeReg_pm {s : State} {req : Requester} {o v : Nat} (hw : s.Writer req) (ho : o < 0x10000)
    (hd : (descIn .pm 0 o).isSome = true) (hv : v < 2 ^ 32) : writeReg req o v s = (pmWrite req o v s).wrote req o v := by
  have hpage : o / 0x10000 = 0 := Nat.div_eq_of_lt ho
  have hoff : o % 0x10000 = o := Nat.mod_eq_of_lt ho
  have h := writeReg_served (b := .pm) (i := 0) hw (o := o) (by omega) (by rw [hpage]; rfl) (.inl (by decide)) (by rw [hoff]; exact hd)
    (.inl (by decide)) hv
  rw [hoff] at h
  exact h

theorem writeReg_pmCmd {s : State} {req : Requester} {v : Nat} (hw : s.Writer req) (hv : v < 2 ^ 32) :
    writeReg req 0x10 v s = (pmCmd v s).wrote req 0x10 v := by
  rw [writeReg_pm hw (by decide) (by decide) hv, pmWrite, if_pos rfl, if_pos hw.2]

theorem exec_restartCold {s : State} {req : Requester} (hw : s.Writer req) :
    exec (.restartCold req) s = .next ((s.restart 2 false).wrote req 0x10 (2 ^ 28)) :=
  congrArg Host.Outcome.next (writeReg_pmCmd hw (by decide))

theorem exec_restartWarm {s : State} {req : Requester} (hw : s.Writer req) :
    exec (.restartWarm req) s = .next ((s.restart 3 true).wrote req 0x10 (2 * 2 ^ 28)) :=
  congrArg Host.Outcome.next (writeReg_pmCmd hw (by decide))

/-! ### Dormancy (R27, R446) -/

theorem pmCmd_dormant {s : State} {pd : Fin 16} (h : s.mayRest pd = true) : pmCmd (3 * 2 ^ 28 + pd.val) s = s.rest pd := by
  have hcmd : (3 * 2 ^ 28 + pd.val) / 2 ^ 28 = 3 := by omega
  have hpd : (3 * 2 ^ 28 + pd.val) % 16 = pd.val := by omega
  simp only [pmCmd, hcmd, hpd, h, if_true]

theorem exec_pmDormant {s : State} {req : Requester} {pd : Fin 16} (hw : s.Writer req) (h : s.mayRest pd = true) :
    exec (.pmDormant req pd) s = .next ((s.rest pd).wrote req 0x10 (3 * 2 ^ 28 + pd.val)) := by
  have hx := writeReg_pmCmd (v := 3 * 2 ^ 28 + pd.val) hw (by omega)
  rw [pmCmd_dormant h] at hx
  exact congrArg Host.Outcome.next hx

theorem State.rest_on {s : State} {d : Nat} (hd : d < 16) (h : s.dom d = 1) :
    s.rest d = s.unpower d 2 ∧ (s.rest d).dom d = 2 := by
  have hrest : s.rest d = s.unpower d 2 := if_pos h
  have hoff : s.unpower d 2 = (s.portsOff d).setDom d 2 := if_neg (by simp)
  rw [hrest, hoff]
  exact ⟨rfl, State.dom_setDom_self _ hd (by decide)⟩

theorem pmCmd_wake {s : State} {pd : Fin 16} (h : s.dom pd = 2) (hw : ∀ w, (pd.val, w) ∉ s.arch.wakes) :
    pmCmd (4 * 2 ^ 28 + pd.val) s =
      { s with arch := { s.arch with wakes := s.arch.wakes ++ [(pd.val, s.clk.lapse + 50 * uUs)] } } := by
  have hcmd : (4 * 2 ^ 28 + pd.val) / 2 ^ 28 = 4 := by omega
  have hpd : (4 * 2 ^ 28 + pd.val) % 16 = pd.val := by omega
  have hany : ¬ (s.arch.wakes.any (fun w => w.1 == pd.val) = true) := by
    intro ha
    obtain ⟨⟨k, w⟩, hm, hk⟩ := List.any_eq_true.1 ha
    exact hw w (eq_of_beq hk ▸ hm)
  simp only [pmCmd, hcmd, hpd, State.wakeDomain]
  exact if_pos ⟨h, hany⟩

theorem exec_pmWake {s : State} {req : Requester} {pd : Fin 16} (hwr : s.Writer req) (h : s.dom pd = 2)
    (hw : ∀ w, (pd.val, w) ∉ s.arch.wakes) :
    exec (.pmWake req pd) s =
      .next (({ s with arch := { s.arch with wakes := s.arch.wakes ++ [(pd.val, s.clk.lapse + 50 * uUs)] } } : State).wrote req 0x10
        (4 * 2 ^ 28 + pd.val)) := by
  have hx := writeReg_pmCmd (v := 4 * 2 ^ 28 + pd.val) hwr (by omega)
  rw [pmCmd_wake h hw] at hx
  exact congrArg Host.Outcome.next hx

/-- A completion is all that a completed write of a register adds. -/
theorem State.wrote_frame (u : State) (req : Requester) (o v : Nat) :
    u.wrote req o v = { u with bus := (u.wrote req o v).bus, free := (u.wrote req o v).free, pr := (u.wrote req o v).pr } :=
  State.answer_frame ..

/-- PM_WAKE of a dormant domain that is not waking. -/
theorem pmWake_leaves {s : State} {req : Requester} {pd : Fin 16} (hwr : s.Writer req) (h : s.dom pd = 2)
    (hw : ∀ w, (pd.val, w) ∉ s.arch.wakes) :
    Answers (exec (.pmWake req pd) s) (fun t =>
      t.arch = { s.arch with wakes := s.arch.wakes ++ [(pd.val, s.clk.lapse + 50 * uUs)] } ∧ t.dom pd = 2 ∧
      RegsKept [] s t ∧ t = { s.withAccess t with arch := t.arch }) := by
  refine ⟨_, exec_pmWake hwr h hw, State.wrote_arch .., ?_, fun a _ => State.wrote_word .., ?_⟩
  · rw [← h]
    exact State.dom_of_word (State.wrote_word ..) pd
  · rw [State.wrote_frame]
    rfl

/-! ### The watchdog (R444) -/

/-- A software write of PM_WDOG sets ACTION and MS. -/
theorem State.swPut_wdog (s : State) (v : Nat) :
    s.swPut 0x14 v = s.put 0x14 (setBits (setBits (s.word 0x14) 30 30 (bits v 30 30)) 15 0 (bits v 15 0)) := by
  have hd : regDesc 0x14 = some ⟨0x14, 0x0, 1, [⟨31, 31, .wo, 0x0⟩, ⟨30, 30, .rw, 0x0⟩, ⟨15, 0, .rw, 0x0⟩]⟩ := by decide
  simp only [State.swPut, hd]
  rfl

theorem State.swPut_wdog_word (s : State) (v : Nat) :
    (s.swPut 0x14 v).word 0x14 = setBits (setBits (s.word 0x14) 30 30 (bits v 30 30)) 15 0 (bits v 15 0) := by
  rw [State.swPut_wdog, State.word_put_self]
  refine Nat.mod_eq_of_lt (setBits_lt _ _ _ _ _ (by decide) (by decide) (setBits_lt _ _ _ _ _ (by decide) (by decide) (s.word_lt _)))

/-- A one-bit field is a bit. -/
theorem bits_self (x n : Nat) : bits x n n = b2n (bit x n) := by
  have hw : n + 1 - n = 1 := Nat.add_sub_cancel_left ..
  rw [bits, bit, hw, Nat.pow_one]
  rcases Nat.mod_two_eq_zero_or_one (x >>> n) with h | h <;> rw [h] <;> rfl

theorem State.swPut_wdog_ms (s : State) (v : Nat) : (s.swPut 0x14 v).rd PM_WDOG_MS = v % 65536 := by
  change bits ((s.swPut 0x14 v).word 0x14) 15 0 = _
  rw [State.swPut_wdog_word, bits_setBits_self _ _ _ _ (by decide)]
  simp [bits]

theorem State.swPut_wdog_action (s : State) (v : Nat) : (s.swPut 0x14 v).on PM_WDOG_ACTION = bit v 30 := by
  change (bits ((s.swPut 0x14 v).word 0x14) 30 30 == 1) = _
  rw [State.swPut_wdog_word, bits_setBits_disjoint _ _ _ _ _ _ (by decide) (by decide), bits_setBits_self _ _ _ _ (by decide), bits_self]
  cases bit v 30 <;> rfl

/-- A software write by the access codes touches registers alone. -/
theorem State.swPut_frame (s : State) (a v : Nat) : s.swPut a v = { s with regs := (s.swPut a v).regs } := by
  unfold State.swPut
  split <;> rfl

theorem State.word_withBoot (u : State) (b : Boot) (a : Nat) : ({ u with boot := b } : State).word a = u.word a := rfl

/-- A completed write that touches registers and the loader. -/
theorem State.wrote_boot_frame {s u t : State} {b : Boot} {req : Requester} {o v : Nat} (hu : u = { s with regs := u.regs })
    (ht : t = ({ u with boot := b } : State).wrote req o v) : t = { s.withAccess t with boot := t.boot } := by
  rw [ht, State.wrote_frame, hu]
  rfl

/-- A write of PM_WDOG with KICK after VERIFY begins a period. -/
theorem pmWdog_kick {s : State} {v : Nat} (hk : bit v 31 = true) (hc : s.boot.cores.isSome = true) :
    pmWdog v s = { s.swPut 0x14 v with boot := { s.boot with wdRuns := true, wdFrom := s.clk.lapse } } := by
  have hboot : (s.swPut 0x14 v).boot = s.boot := by rw [State.swPut_frame]
  have hclk : (s.swPut 0x14 v).clk = s.clk := by rw [State.swPut_frame]
  simp only [pmWdog, hboot, hclk, hc, hk, Bool.true_and, Bool.or_true, Bool.true_or, if_true]

/-- What a write of PM_WDOG with KICK after VERIFY leaves. -/
theorem wdogKick_leaves {s t : State} {req : Requester} {k : Nat} (hk : bit k 31 = true) (hc : s.boot.cores.isSome = true)
    (ht : t = (pmWdog k s).wrote req 0x14 k) :
    t.boot = { s.boot with wdRuns := true, wdFrom := s.clk.lapse } ∧ t.rd PM_WDOG_MS = k % 65536 ∧ t.on PM_WDOG_ACTION = bit k 30 ∧
      RegsKept [PM_WDOG_MS.addr] s t ∧ t = { s.withAccess t with boot := t.boot } := by
  rw [pmWdog_kick hk hc] at ht
  have hword : ∀ a, t.word a = (s.swPut 0x14 k).word a := by
    intro a
    rw [ht, State.wrote_word, State.word_withBoot]
  refine ⟨?_, ?_, ?_, fun a ha => ?_, State.wrote_boot_frame (s.swPut_frame 0x14 k) ht⟩
  · rw [ht, State.wrote_boot]
  · rw [State.rd_of_word (hword _), State.swPut_wdog_ms]
  · rw [State.on, State.rd_of_word (hword _), ← State.on, State.swPut_wdog_action]
  · rw [hword, State.swPut_wdog]
    exact State.word_put_ne _ _ (List.ne_of_not_mem_cons ha)

/-- A KICK is a write of PM_WDOG with bit 31 set. -/
theorem exec_kick {s : State} {req : Requester} (hw : s.Writer req) (v : Word) :
    exec (.kick req v) s = .next ((pmWdog (setBits v.toNat 31 31 1) s).wrote req 0x14 (setBits v.toNat 31 31 1)) := by
  have hx := writeReg_pm (s := s) (o := 0x14) hw (by decide) (by decide)
    (setBits_lt v.toNat 31 31 1 32 (by decide) (by decide) v.isLt)
  rw [pmWrite, if_neg (by decide), if_pos rfl] at hx
  exact congrArg Host.Outcome.next hx

/-- KICK of one who may write, once the cores' image is known. -/
theorem kick_leaves {s : State} {req : Requester} {v : Word} (hw : s.Writer req) (hc : s.boot.cores.isSome = true) :
    Answers (exec (.kick req v) s) (fun t =>
      t.boot = { s.boot with wdRuns := true, wdFrom := s.clk.lapse } ∧ t.rd PM_WDOG_MS = v.toNat % 65536 ∧
      t.on PM_WDOG_ACTION = bit v.toNat 30 ∧ RegsKept [PM_WDOG_MS.addr] s t ∧ t = { s.withAccess t with boot := t.boot }) := by
  have he := exec_kick hw v
  have h31 : bit (setBits v.toNat 31 31 1) 31 = true := by
    rw [bit_eq_testBit, testBit_setBits _ _ _ _ _ (by decide)]
    rfl
  have h30 : bit (setBits v.toNat 31 31 1) 30 = bit v.toNat 30 := by
    rw [bit_eq_testBit, testBit_setBits _ _ _ _ _ (by decide), if_neg (by decide), bit_eq_testBit]
  have hms : setBits v.toNat 31 31 1 % 65536 = v.toNat % 65536 := by
    have h := bits_setBits_disjoint v.toNat 31 31 1 15 0 (by decide) (by decide)
    simpa [bits] using h
  rw [← hms, ← h30]
  exact ⟨_, he, wdogKick_leaves h31 hc rfl⟩

/-- WDOG_EXPIRY of a period that has passed (R444). -/
theorem exec_wdogExpiry {s u : State} (hr : s.boot.wdRuns = true) (hms : s.rd PM_WDOG_MS ≠ 0)
    (hp : s.boot.wdFrom + s.rd PM_WDOG_MS * uMs < s.clk.lapse)
    (hu : u = ({ s with boot := { s.boot with wdFrom := s.clk.lapse } } : State).pmEvent PM_EVENT_WDOG) :
    exec .wdogExpiry s =
      .next (if s.on PM_WDOG_ACTION then (u.recordThrough 0x01 0x07 1).restart 4 true else u.pmRecord 0x07 0) := by
  rw [hu]
  exact if_pos ⟨hr, hms, hp⟩

/-- The record that a watchdog's restart leaves in the ring. -/
theorem wdogRecord_in_ring {s u : State} (hu : u = ({ s with boot := { s.boot with wdFrom := s.clk.lapse } } : State).pmEvent PM_EVENT_WDOG)
    (hen : s.on0 EV_CTRL_EN = true) (hscan : s.ev.scan = false) (hq : s.ev.queue = []) :
    ∃ b, aget ((u.recordThrough 0x01 0x07 1).restart 4 true).ev.ring (s.ev.next % 4096) = some (s.ev.next, b) ∧
      slice b 22 3 = [0x01, 0x07, 1] := by
  have hev : u.ev = s.ev := by rw [hu, State.pmEvent, State.event_ev]
  have hen' : u.on0 EV_CTRL_EN = true := by
    rw [← hen, hu, State.on0, State.rd0, State.word0, State.pmEvent, State.event_regs0]
    rfl
  obtain ⟨b, hb, hsrc⟩ := State.recordThrough_ring (s := u) 0x01 0x07 1 hen' (hev ▸ hscan) (hev ▸ hq)
  have hring := (State.restart_restarted (u.recordThrough 0x01 0x07 1) (trigger := 4) true (by decide)).ring
  rw [hring, ← hev]
  exact ⟨b, hb, hsrc⟩

/-! ### VANA_LOSS (R493) -/

/-- PD12 has no ports, and its loss concerns the pair no more than any domain's but PD10. -/
theorem State.unpower_pd12 (s : State) : s.unpower 12 3 = s.setDom 12 3 := by
  have hports : s.portsOff 12 = s := by
    have hnone : (List.range 19).filter (fun n => portDomain n == 12) = [] := by decide
    rw [State.portsOff, hnone]
    rfl
  unfold State.unpower
  rw [hports]
  exact if_neg (by simp)

theorem domainFail_pd12_leaves {s t : State} (ht : t = s.domainFail 12) :
    t.dom 12 = 3 ∧ t.on PM_EVENT_DOMAIN = true ∧ (s.bt = 5 ∨ s.bt = 6 → t.on PM_STATUS_DEGRADED = true) ∧
      (s.bt ≠ 5 → s.bt ≠ 6 → t.rd PM_STATUS_DEGRADED = s.rd PM_STATUS_DEGRADED) := by
  obtain ⟨u, hu⟩ : ∃ u, u = s.setDom 12 3 := ⟨_, rfl⟩
  have hfail : t = (u.degrade.pmEvent PM_EVENT_DOMAIN).pmRecord 0x04 12 := by rw [ht, hu, State.domainFail, State.unpower_pd12]
  have hset := s.setDom_regsKept 12 3
  rw [← hu] at hset
  have hbt : u.rd BT_STATUS_STATE = s.bt := hset.rd _ (by decide)
  have hrd : ∀ f : Fld, f.addr ∉ [PM_EVENT_DOMAIN.addr, 0x30010] → t.rd f = u.degrade.rd f := by
    intro f hf
    simp only [List.mem_cons, List.not_mem_nil, or_false, not_or] at hf
    rw [hfail]
    exact State.rd_of_word (State.word_event_ne _ _ _ hf.1 hf.2)
  have hdom : u.degrade.dom 12 = 3 := by
    have h12 : u.dom 12 = 3 := hu ▸ State.dom_setDom_self s (by decide) (by decide)
    unfold State.degrade
    split
    · rw [State.dom_of_word (State.word_wr_ne _ _ _ (by decide)), h12]
    · exact h12
  refine ⟨?_, ?_, fun h => ?_, fun h5 h6 => ?_⟩
  · rw [hfail, State.domainEvent_dom, hdom]
  · rw [hfail, State.on]
    exact congrArg (· == 1) (State.rd_event_self _ PM_EVENT_DOMAIN _ ⟨by decide, by decide⟩ (by decide))
  · rw [State.on, hrd _ (by decide), State.degrade, if_pos (by rwa [hbt]), ← State.on]
    exact State.on_wr_self _ _ true (by decide)
  · rw [hrd _ (by decide), State.degrade, if_neg (by rw [hbt]; exact not_or.2 ⟨h5, h6⟩), hset.rd _ (by decide)]

theorem exec_vanaLoss {s : State} (h : s.dom 12 = 1 ∨ s.dom 12 = 2) : exec .vanaLoss s = .next (s.domainFail 12) := if_pos h

/-- Settles O56: clause by clause, in the order of the statement. -/
theorem startsAndSupplies : Obligations.StartsAndSupplies := by
  refine ⟨?low, ?release, ?commands, ?restarts, ?cold, ?cellarUp, ?domains, ?watchdog, ?vana⟩
  case low => exact fun s h => ⟨exec_rstNLow h, exec_vioLoss h⟩
  case release => exact fun s => ⟨rfl, rfl, rfl⟩
  case commands => exact fun req s hw => ⟨exec_restartCold hw, exec_restartWarm hw⟩
  case restarts =>
    intro tr warm t s htr ht
    have hr := s.restart_restarted warm htr
    rw [← ht] at hr
    refine ⟨hr.trigger, hr.kind, hr.nvm, hr.fuses, hr.root, hr.pending, hr.ilkIn, fun hwarm hok => ?_, fun hcold => ?_⟩
    · exact State.restart_warm_leaves (by rw [hwarm, hok]; rfl) ht
    · refine State.restart_cold_leaves ?_ ht
      rcases hcold with h | h
      · rw [h, Bool.false_and]
      · rw [h, Bool.and_false]
  case cold =>
    intro pair src wide s hbt hd hv hr hio hw hp
    exact ⟨_, exec_pd1ResetRelease pair src wide hbt hd hv hr hio hw hp, pd1ResetRelease_leaves rfl⟩
  case cellarUp =>
    intro s hbt
    refine ⟨exec_pllMLock hbt, fun hd => (exec_dramInitDone hbt hd).1, fun hd => ?_, fun hd => ?_, fun hd => ?_,
      fun hd hc answers size => exec_cellarUpComplete hbt hd hc answers size⟩
    · exact ⟨_, (exec_dramInitDone hbt hd).2.1, State.bootFail_bt _ _, State.bootFail_cause _ (by decide)⟩
    · refine ⟨_, (exec_dramInitDone hbt hd).2.2.1, State.bootFail_bt _ _, State.bootFail_cause _ (by decide), ?_⟩
      rw [State.bootFail_dom, State.domainEvent_dom, State.dom_setDom_self _ (by decide) (by decide)]
    · refine ⟨_, (exec_dramInitDone hbt hd).2.2.2, State.bootFail_bt _ _, State.bootFail_cause _ (by decide), ?_⟩
      rw [State.bootFail_dom, State.domainEvent_dom, State.dom_setDom_self _ (by decide) (by decide)]
  case domains =>
    intro req pd s hw
    refine ⟨fun h => ⟨exec_pmDormant hw h, State.rest_on pd.isLt, fun hn => if_neg hn⟩, fun h hn => pmWake_leaves hw h hn,
      fun v hc => kick_leaves hw hc⟩
  case watchdog =>
    intro s hr hms hp
    have he := exec_wdogExpiry hr hms hp rfl
    refine ⟨_, rfl, ?_, fun ha => ?_, fun ha => ⟨?_, fun hen hscan hq => wdogRecord_in_ring rfl hen hscan hq⟩⟩
    · exact congrArg (· == 1) (State.rd_event_self _ PM_EVENT_WDOG _ ⟨by decide, by decide⟩ (by decide))
    · rw [he, ha]
      rfl
    · rw [he, ha]
      rfl
  case vana =>
    intro s h
    exact ⟨_, exec_vanaLoss h, rfl, domainFail_pd12_leaves rfl⟩

end Sys2Proof.Machine
end

section
/-!
The HC_ page's layer: fields of the time bases, flags that events set, what touches the registers, the events and the clock alone,
and how an access of the page reaches its operation (R67, R398).
-/
namespace Sys2Proof.Machine

/-! ### Fields of an array -/

theorem Fld.fits.i {f : Fld} (h : f.fits) (b : Nat) : (f.i b).fits := h

/-- Registers of one element of an array lie apart. -/
theorem Fld.addr_i_ne {f g : Fld} (b : Nat) (ha : f.addr ≠ g.addr) (hs : f.stride = g.stride) : (f.i b).addr ≠ (g.i b).addr := by
  simp only [Fld.i, hs]
  omega

/-- A register before an array is none of its elements. -/
theorem Fld.addr_i_ne_of_lt {f : Fld} {a : Nat} (b : Nat) (h : a < f.addr) : (f.i b).addr ≠ a := by
  simp only [Fld.i]
  omega

/-- Fields of one element share no bit, by their registers or within one. -/
theorem Fld.apart_i {f g : Fld} (b : Nat) (h : f.addr ≠ g.addr ∧ f.stride = g.stride ∨ f.hi < g.lo ∨ g.hi < f.lo) :
    (f.i b).apart (g.i b) := by
  rcases h with ⟨ha, hs⟩ | h
  · exact .inl (Fld.addr_i_ne b ha hs)
  · exact .inr h

theorem bits_eq_zero_of_lt {v hi lo : Nat} (h : v < 2 ^ lo) : bits v hi lo = 0 := by
  rw [bits, Nat.shiftRight_eq_div_pow, Nat.div_eq_of_lt h, Nat.zero_mod]

theorem bits_zero (v hi : Nat) : bits v hi 0 = v % 2 ^ (hi + 1) := by
  rw [bits, Nat.shiftRight_zero, Nat.sub_zero]

/-- A field set to what it holds. -/
theorem setBits_bits_self (x hi lo : Nat) (h : lo ≤ hi) : setBits x hi lo (bits x hi lo) = x := by
  apply Nat.eq_of_testBit_eq
  intro i
  rw [testBit_setBits _ _ _ _ _ h]
  split
  · have hlt : i - lo < hi + 1 - lo := by omega
    rw [testBit_bits, decide_eq_true hlt, Bool.true_and, Nat.add_sub_cancel' (by omega)]
  · rfl

/-- A signed value that a register can hold reads back. -/
theorem sext_toBits_word {c : Int} (hlo : -2147483648 ≤ c) (hhi : c < 2147483648) : sext 32 (toBits 32 c) = c := by
  unfold sext toBits
  dsimp only
  split <;> omega

/-! ### Events and the registers beside them -/

theorem State.on_of_word {s t : State} {f : Fld} (h : s.word f.addr = t.word f.addr) : s.on f = t.on f := by
  rw [State.on, State.rd_of_word h, State.on]

/-- A flag is set once its event has come. -/
theorem State.on_event_self (s : State) (f : Fld) (es : Nat) (h : f.lo = f.hi ∧ f.hi < 32) (h' : f.addr ≠ 0x30010 + es / 32 * 4) :
    (s.event f es).on f = true := by
  have hw : f.hi + 1 - f.lo = 1 := by omega
  rw [State.on, State.rd_event_self s f es ⟨h.1.le, h.2⟩ h', hw]
  rfl

/-- A field beside the flag reads as before. -/
theorem State.rd_event_apart (s : State) (f g : Fld) (es : Nat) (hf : f.fits) (h : f.apart g) (h' : g.addr ≠ 0x30010 + es / 32 * 4) :
    (s.event f es).rd g = s.rd g := by
  rw [State.event, State.rd_of_word (State.word_raise_ne _ _ h'), State.rd_flag_apart s f g hf h]

/-! The same within one element of an array, where each condition is on the array's own numbers. -/

theorem State.rd_wr_i_self (s : State) (f : Fld) (b v : Nat) (hf : f.lo ≤ f.hi ∧ f.hi < 32) :
    (s.wr (f.i b) v).rd (f.i b) = v % 2 ^ (f.hi + 1 - f.lo) := s.rd_wr_self _ _ (Fld.fits.i hf b)

theorem State.rd_wr_i (s : State) (f g : Fld) (b v : Nat) (hf : f.lo ≤ f.hi ∧ f.hi < 32)
    (h : f.addr ≠ g.addr ∧ f.stride = g.stride ∨ f.hi < g.lo ∨ g.hi < f.lo) : (s.wr (f.i b) v).rd (g.i b) = s.rd (g.i b) :=
  s.rd_wr_apart _ _ _ (Fld.fits.i hf b) (Fld.apart_i b h)

theorem State.on_wr_i (s : State) (f g : Fld) (b v : Nat) (hf : f.lo ≤ f.hi ∧ f.hi < 32)
    (h : f.addr ≠ g.addr ∧ f.stride = g.stride ∨ f.hi < g.lo ∨ g.hi < f.lo) : (s.wr (f.i b) v).on (g.i b) = s.on (g.i b) := by
  rw [State.on, State.rd_wr_i s f g b v hf h, State.on]

/-- A one-bit field reads as the module has set it. -/
theorem State.on_wr_i_self (s : State) (f : Fld) (b : Nat) (v : Bool) (hf : f.lo = f.hi ∧ f.hi < 32) :
    (s.wr (f.i b) (b2n v)).on (f.i b) = v := s.on_wr_self _ v hf

theorem State.rd_event_i (s : State) (f g : Fld) (b es : Nat) (hf : f.lo ≤ f.hi ∧ f.hi < 32)
    (h : f.addr ≠ g.addr ∧ f.stride = g.stride ∨ f.hi < g.lo ∨ g.hi < f.lo) (hg : 0x30010 + es / 32 * 4 < g.addr) :
    (s.event (f.i b) es).rd (g.i b) = s.rd (g.i b) :=
  s.rd_event_apart _ _ _ (Fld.fits.i hf b) (Fld.apart_i b h) (Fld.addr_i_ne_of_lt b hg)

theorem State.on_event_i (s : State) (f g : Fld) (b es : Nat) (hf : f.lo ≤ f.hi ∧ f.hi < 32)
    (h : f.addr ≠ g.addr ∧ f.stride = g.stride ∨ f.hi < g.lo ∨ g.hi < f.lo) (hg : 0x30010 + es / 32 * 4 < g.addr) :
    (s.event (f.i b) es).on (g.i b) = s.on (g.i b) := by
  rw [State.on, State.rd_event_i s f g b es hf h hg, State.on]

theorem State.on_event_i_self (s : State) (f : Fld) (b es : Nat) (hf : f.lo = f.hi ∧ f.hi < 32) (h : 0x30010 + es / 32 * 4 < f.addr) :
    (s.event (f.i b) es).on (f.i b) = true := s.on_event_self _ _ hf (Fld.addr_i_ne_of_lt b h)

/-- An event of the first pending word shows in it (R484, R486). -/
theorem State.event_pending_bit (s : State) (f : Fld) {es : Nat} (h : es < 32) : bit ((s.event f es).word 0x30010) es = true :=
  State.raise_pending_bit _ h

/-- A counter that wraps. -/
theorem State.rd_incW_self (s : State) (f : Fld) (n : Nat) (h : f.fits) : (s.incW f n).rd f = (s.rd f + n) % 2 ^ (f.hi + 1 - f.lo) :=
  s.rd_wr_self f _ h

theorem State.rd_incW_apart (s : State) (f g : Fld) (n : Nat) (hf : f.fits) (h : f.apart g) : (s.incW f n).rd g = s.rd g :=
  s.rd_wr_apart f g _ hf h

theorem State.rd_inc_apart (s : State) (f g : Fld) (hf : f.fits) (h : f.apart g) : (s.inc f).rd g = s.rd g :=
  s.rd_wr_apart f g _ hf h

theorem RegsKept.put {l : List Nat} {s t : State} (h : RegsKept l s t) {b : Nat} (v : Nat) (hb : b ∈ l) : RegsKept l s (t.put b v) := by
  intro a ha
  rw [State.word_put_ne _ _ (ne_of_mem_of_not_mem hb ha).symm, h a ha]

theorem RegsKept.raise {l : List Nat} {s t : State} (h : RegsKept l s t) {es : Nat} (he : 0x30010 + es / 32 * 4 ∈ l) :
    RegsKept l s (t.raise es) := by
  intro a ha
  rw [State.word_raise_ne _ _ (ne_of_mem_of_not_mem he ha).symm, h a ha]

theorem RegsKept.inc {l : List Nat} {s t : State} (h : RegsKept l s t) {f : Fld} (hf : f.addr ∈ l) : RegsKept l s (t.inc f) := h.wr _ hf
theorem RegsKept.incW {l : List Nat} {s t : State} (h : RegsKept l s t) {f : Fld} (n : Nat) (hf : f.addr ∈ l) :
    RegsKept l s (t.incW f n) := h.wr _ hf

/-- Updates of the clock alone leave every register. -/
theorem RegsKept.setTb {l : List Nat} {s t : State} (h : RegsKept l s t) (b : Nat) (x : TimeBase) : RegsKept l s (t.setTb b x) := h

theorem RegsKept.mono {l l' : List Nat} {s t : State} (h : RegsKept l s t) (hl : ∀ a ∈ l, a ∈ l') : RegsKept l' s t :=
  fun a ha => h a fun hm => ha (hl a hm)

theorem RegsKept.wrote {l : List Nat} {s t : State} (h : RegsKept l s t) (r : Requester) (o v : Nat) :
    RegsKept l s (t.wrote r o v) := by
  intro a ha
  rw [State.wrote_word, h a ha]

theorem RegsKept.gave {l : List Nat} {s t : State} (h : RegsKept l s t) (r : Requester) (o v : Nat) :
    RegsKept l s (t.gave r o v) := by
  intro a ha
  rw [State.gave_word, h a ha]

/-! ### Software writes of one register (R10, R11) -/

/-- An RW field of a register takes the value written. -/
theorem State.swPut_field (s : State) {a v : Nat} {d : RegDesc} {f : FieldDesc} (hd : regDesc a = some d) (hf : f ∈ d.fields)
    (hrw : f.acc = .rw) (hfit : ∀ g ∈ d.fields, g.lo ≤ g.hi ∧ g.hi < 32)
    (hp : d.fields.Pairwise (fun g k => g.hi < k.lo ∨ k.hi < g.lo)) : bits ((s.swPut a v).word a) f.hi f.lo = bits v f.hi f.lo := by
  obtain ⟨hle, hlt⟩ := hfit f hf
  apply Nat.eq_of_testBit_eq
  intro i
  rw [testBit_bits, testBit_bits]
  by_cases hi : i < f.hi + 1 - f.lo
  · have hin : f.lo + i ≤ f.hi := by omega
    have h32 : f.lo + i < 32 := by omega
    have hbit := testBit_foldl_swField_inside (s.evWord a) v (f.lo + i) d.fields (fun g hg => (hfit g hg).1) hp hf
      (Nat.le_add_right ..) hin (s.word a)
    rw [← swValue_eq_foldl, hrw] at hbit
    simp only [State.swPut, hd, State.word_put_self, Nat.testBit_mod_two_pow, h32, decide_true, Bool.true_and, hbit, swBit]
  · simp [hi]

/-- A write that asks nothing of a register: it has no RW field, and every W1C bit is written 0. -/
theorem State.swPut_word_idle (s : State) {a v : Nat} {d : RegDesc} (hd : regDesc a = some d)
    (hidle : ∀ f ∈ d.fields, f.acc ≠ .rw ∧ (f.acc = .w1c → f.lo ≤ f.hi ∧ bits v f.hi f.lo = 0)) (x : Nat) :
    (s.swPut a v).word x = s.word x := by
  have hval : swValue d (s.word a) (s.evWord a) v = s.word a := by
    rw [swValue_eq_foldl]
    refine List.foldlRecOn _ _ (motive := fun y => y = s.word a) rfl fun y hy f hf => ?_
    obtain ⟨hrw, hw1c⟩ := hidle f hf
    rw [← hy]
    unfold swField
    split
    · next h => exact absurd h hrw
    · next h =>
      obtain ⟨hle, hz⟩ := hw1c h
      have hkeep (o e : Nat) : (o - (o &&& 0)) ||| (o &&& e) = o := by
        refine Nat.eq_of_testBit_eq fun i => ?_
        rw [Nat.and_zero, Nat.sub_zero, Nat.testBit_or, Nat.testBit_and, Bool.or_eq_left_iff_imp.2 (by simp +contextual)]
      dsimp only
      rw [hz, hkeep, setBits_bits_self _ _ _ hle]
    all_goals rfl
  simp only [State.swPut, hd, hval]
  by_cases hx : x = a
  · rw [hx, State.word_put_self, Nat.mod_eq_of_lt (s.word_lt a)]
  · exact State.word_put_ne _ _ hx

theorem State.swPut_regsKept (s : State) (a v : Nat) : RegsKept [a] s (s.swPut a v) := by
  intro x hx
  unfold State.swPut
  split
  · rfl
  · exact State.word_put_ne _ _ (List.ne_of_not_mem_cons hx)

theorem State.swPut_clk (s : State) (a v : Nat) : (s.swPut a v).clk = s.clk := by rw [State.swPut_frame]

/-! ### Time bases -/

theorem State.setTb_tb_self (s : State) (b : Nat) (x : TimeBase) : (s.setTb b x).tb b = x := agetD_aput_self ..

theorem State.setTb_tb_ne (s : State) {b b' : Nat} (x : TimeBase) (h : b' ≠ b) : (s.setTb b x).tb b' = s.tb b' :=
  agetD_aput_ne _ _ _ h

theorem State.tb_of_clk {s t : State} (h : t.clk = s.clk) (b : Nat) : t.tb b = s.tb b := by
  rw [State.tb, h, State.tb]

theorem State.wr_tb (s : State) (f : Fld) (v k : Nat) : (s.wr f v).tb k = s.tb k := State.tb_of_clk (s.wr_clk f v) k
theorem State.event_tb (s : State) (f : Fld) (es k : Nat) : (s.event f es).tb k = s.tb k := State.tb_of_clk (s.event_clk f es) k

theorem State.setTb_clk (s : State) (b : Nat) (x : TimeBase) : (s.setTb b x).clk = { s.clk with tb := aput s.clk.tb b x } := rfl

/-- What the register file shows at the start of a cycle decides the governing base (R46). -/
theorem State.gov_of_regs0 {s t : State} (h : t.regs0 = s.regs0) : t.gov = s.gov := by
  rw [State.gov, State.rd0, State.word0, h, State.gov, State.rd0, State.word0]

/-! ### Updates of registers, events and the clock -/

/-- A completion is all that a completed read of a register adds. -/
theorem State.gave_frame (u : State) (req : Requester) (o d : Nat) :
    u.gave req o d = { u with bus := (u.gave req o d).bus, free := (u.gave req o d).free, pr := (u.gave req o d).pr } :=
  State.answer_frame ..

/-- Nothing but the register file, the event delivery and the house clock has changed; reads show the registers as before. -/
def ClockOnly (s t : State) : Prop := t = { s with regs := t.regs, evc := t.evc, ic := t.ic, clk := t.clk }

section
variable {s t u : State}

theorem ClockOnly.refl (s : State) : ClockOnly s s := rfl

theorem ClockOnly.trans (h : ClockOnly s t) (h' : ClockOnly t u) : ClockOnly s u := by
  unfold ClockOnly at h h'
  rw [h', h]
  rfl

theorem ClockOnly.wr (h : ClockOnly s t) (f : Fld) (v : Nat) : ClockOnly s (t.wr f v) := h.trans rfl
theorem ClockOnly.wrS (h : ClockOnly s t) (f : Fld) (v : Int) : ClockOnly s (t.wrS f v) := h.wr f _
theorem ClockOnly.setTb (h : ClockOnly s t) (b : Nat) (x : TimeBase) : ClockOnly s (t.setTb b x) := h.trans rfl

theorem ClockOnly.raise (h : ClockOnly s t) (es : Nat) : ClockOnly s (t.raise es) := by
  refine h.trans ?_
  unfold State.raise State.makeDue ClockOnly
  split <;> rfl

theorem ClockOnly.event (h : ClockOnly s t) (f : Fld) (es : Nat) : ClockOnly s (t.event f es) :=
  (h.trans (u := t.flag f) rfl).raise es

theorem ClockOnly.swPut (h : ClockOnly s t) (a v : Nat) : ClockOnly s (t.swPut a v) := by
  refine h.trans ?_
  rw [ClockOnly, State.swPut_frame]

theorem ClockOnly.ite {c : Prop} [Decidable c] (h : ClockOnly s t) (h' : ClockOnly s u) : ClockOnly s (if c then t else u) := by
  split
  · exact h
  · exact h'

theorem ClockOnly.regs0 (h : ClockOnly s t) : t.regs0 = s.regs0 := by
  rw [ClockOnly] at h
  rw [h]

/-- A completion of such an update. -/
theorem ClockOnly.wrote (h : ClockOnly s t) (r : Requester) (o v : Nat) :
    t.wrote r o v = { s.withAccess (t.wrote r o v) with clk := (t.wrote r o v).clk } := by
  rw [State.wrote_frame, h]
  rfl

theorem ClockOnly.gave (h : ClockOnly s t) (r : Requester) (o d : Nat) :
    t.gave r o d = { s.withAccess (t.gave r o d) with clk := (t.gave r o d).clk } := by
  rw [State.gave_frame, h]
  rfl

/-- A completion of such an update that leaves the clock. -/
theorem ClockOnly.wrote_of_clk (h : ClockOnly s t) (hc : t.clk = s.clk) (r : Requester) (o v : Nat) :
    t.wrote r o v = s.withAccess (t.wrote r o v) := by
  rw [State.wrote_frame, h, hc]
  rfl

/-- The clock's own events, without a completion. -/
theorem ClockOnly.events (h : ClockOnly s t) : t = { s.withEvents t with clk := t.clk } := by
  rw [h]
  rfl

end

/-! ### Updates without an event -/

/-- Nothing but registers, by no event, and the house clock has changed. -/
def ClockRegs (s t : State) : Prop := t = { s with regs := t.regs, clk := t.clk }

section
variable {s t u : State}

theorem ClockRegs.refl (s : State) : ClockRegs s s := rfl

theorem ClockRegs.trans (h : ClockRegs s t) (h' : ClockRegs t u) : ClockRegs s u := by
  unfold ClockRegs at h h'
  rw [h', h]
  rfl

theorem ClockRegs.wr (h : ClockRegs s t) (f : Fld) (v : Nat) : ClockRegs s (t.wr f v) := h.trans rfl
theorem ClockRegs.clock (h : ClockRegs s t) {c : Clk} (hu : u = { t with clk := c }) : ClockRegs s u := by
  subst hu
  exact h.trans rfl

theorem ClockRegs.frame (h : ClockRegs s t) : t = { s.withRegs t with clk := t.clk } := by
  rw [ClockRegs] at h
  rw [h]
  rfl

end

/-- Nothing but the register file has changed. -/
def RegsOnly (s t : State) : Prop := t = s.withRegs t

section
variable {s t u : State}

theorem RegsOnly.refl (s : State) : RegsOnly s s := rfl

theorem RegsOnly.trans (h : RegsOnly s t) (h' : RegsOnly t u) : RegsOnly s u := by
  unfold RegsOnly at h h'
  rw [h', h]
  rfl

theorem RegsOnly.put (h : RegsOnly s t) (a v : Nat) : RegsOnly s (t.put a v) := h.trans rfl
theorem RegsOnly.wr (h : RegsOnly s t) (f : Fld) (v : Nat) : RegsOnly s (t.wr f v) := h.trans rfl
theorem RegsOnly.incW (h : RegsOnly s t) (f : Fld) (n : Nat) : RegsOnly s (t.incW f n) := h.trans rfl

end

/-! ### Accesses of the page -/

/-- A register of the HC_ page answers one who may write. -/
theorem writeReg_hc {s : State} {req : Requester} {o k v : Nat} (hw : s.Writer req) (ho : o = 0x40000 + k) (hk : k < 0x10000)
    (hd : (descIn .hc 0 k).isSome = true) (hv : v < 2 ^ 32) : writeReg req o v s = (hcWrite k v s).wrote req o v := by
  have hpage : o / 0x10000 = 4 := by omega
  have hoff : o % 0x10000 = k := by omega
  have h := writeReg_served (b := .hc) (i := 0) hw (o := o) (by omega) (by rw [hpage]; rfl) (.inl (by decide)) (by rw [hoff]; exact hd)
    (.inl (by decide)) hv
  rw [hoff] at h
  exact h

/-- A register of the HC_ page with a reading of its own. -/
theorem readReg_hc {s t : State} {req : Requester} {o k d : Nat} (hr : s.Reaches req) (hs : s.CalServed) (ho : o = 0x40000 + k)
    (hk : k < 0x10000) (hd : (descIn .hc 0 k).isSome = true) (ht : hcRead (rqIndex req) k s = some (d, t)) (hcl : t.cl = s.cl) :
    readReg req o s = t.gave req o d := by
  have hpage : o / 0x10000 = 4 := by omega
  have hoff : o % 0x10000 = k := by omega
  have hcrypto : cryptoFields o = [] := by
    have hne : ∀ f ∈ [SB_EVENT_VERIFY_BUSY, SB_G_VERIFY_BUSY, PB_EVENT_KEY, PB_ST3_KEY_ERR], f.addr ≠ o := by
      simp only [List.forall_mem_cons, SB_EVENT_VERIFY_BUSY, SB_G_VERIFY_BUSY, PB_EVENT_KEY, PB_ST3_KEY_ERR, List.not_mem_nil,
        false_implies, implies_true, and_true]
      omega
    exact List.filter_eq_nil_iff.2 fun f hf => by simpa using hne f hf
  have hread : regRead .hc 0 req k 4 s = (some d, t) := by simp only [regRead, pageRead, ht, Option.map_some]
  have hcal : t.CalServed := by
    unfold State.CalServed at hs ⊢
    rwa [hcl]
  exact readReg_served (b := .hc) (i := 0) hr (by omega) (by rw [hpage]; rfl) (.inl (by decide)) (by rw [hoff]; exact hd)
    (.inl (by decide)) hcrypto (by rw [hoff, hpage]; exact hread) hcal

/-- Every word of a time base's block is assigned (R67). -/
theorem descIn_timeBase (b : Fin 4) {j : Nat} (hj : j < 16) : (descIn .hc 0 (0x100 + b * 0x40 + 4 * j)).isSome = true := by
  have h : ∀ (b : Fin 4) (j : Fin 16), (descIn .hc 0 (0x100 + b * 0x40 + 4 * j)).isSome = true := by decide
  exact h b ⟨j, hj⟩

/-- A write of word `j` of time base `b`. -/
theorem writeReg_timeBase {s : State} {req : Requester} {o v j : Nat} (hw : s.Writer req) (b : Fin 4) (hj : j < 16)
    (ho : o = 0x40100 + b * 0x40 + 4 * j) (hv : v < 2 ^ 32) :
    writeReg req o v s = (hcWrite (0x100 + b * 0x40 + 4 * j) v s).wrote req o v :=
  writeReg_hc hw (by omega) (by omega) (descIn_timeBase b hj) hv

/-- What the page does with a write of word `j` of a time base (R41, R42, R49, R51). -/
theorem hcWrite_timeBase (b : Fin 4) {j : Nat} (hj : j < 16) (v : Nat) (s : State) :
    hcWrite (0x100 + b * 0x40 + 4 * j) v s =
      if j = 6 then hcRateWrite b v s
      else if j = 8 then hcSlewWrite b v s
      else if j = 9 then hcPpmWrite b v s
      else if 10 ≤ j ∧ j ≤ 14 then hcStagingWrite b (4 * j) v s
      else if j = 15 then hcCmdWrite b v s
      else s.swPut (0x40000 + (0x100 + b * 0x40 + 4 * j)) v := by
  have hblock : (0x100 + b.val * 0x40 + 4 * j - 0x100) / 0x40 = b := by omega
  have hword : (0x100 + b.val * 0x40 + 4 * j) % 0x40 = 4 * j := by omega
  have hin : 0x100 ≤ 0x100 + b.val * 0x40 + 4 * j ∧ 0x100 + b.val * 0x40 + 4 * j < 0x200 := by omega
  have h6 : 4 * j = 0x18 ↔ j = 6 := by omega
  have h8 : 4 * j = 0x20 ↔ j = 8 := by omega
  have h9 : 4 * j = 0x24 ↔ j = 9 := by omega
  have hstaging : (0x28 ≤ 4 * j ∧ 4 * j ≤ 0x38) ↔ (10 ≤ j ∧ j ≤ 14) := by omega
  have h15 : 4 * j = 0x3C ↔ j = 15 := by omega
  unfold hcWrite
  rw [if_neg (by omega), if_neg (by omega), if_neg (by omega), if_neg (by omega), if_pos hin]
  simp only [hblock, hword, h6, h8, h9, hstaging, h15]

end Sys2Proof.Machine
end

section
/-!
Steering a time base (R41, R42, R47, R51): what the limit on the total correction, the watchdog and the staging registers leave, and
the statement on the steering writes.
-/
namespace Sys2Proof.Machine

/-! ### The holdover watchdog (R47) -/

/-- The clock with the watchdog of TB_0 restarted by a write to base `b`. -/
theorem State.hcKick_clk (s : State) (b : Fin 4) :
    (s.hcKick b).clk = { s.clk with wdFrom := if b = 0 then s.clk.lapse else s.clk.wdFrom } := by
  by_cases h : b = 0
  · rw [if_pos h, h]
    rfl
  · have hb : b.val ≠ 0 := fun hv => h (Fin.ext hv)
    rw [if_neg h, State.hcKick, if_neg hb]

theorem State.hcKick_tb (s : State) (b k : Nat) : (s.hcKick b).tb k = s.tb k := by
  unfold State.hcKick
  split <;> rfl

theorem State.hcKick_word (s : State) (b a : Nat) : (s.hcKick b).word a = s.word a := by
  unfold State.hcKick
  split <;> rfl

theorem ClockOnly.hcKick {s t : State} (h : ClockOnly s t) (b : Nat) : ClockOnly s (t.hcKick b) := .ite (h.trans rfl) h

theorem RegsKept.hcKick {l : List Nat} {s t : State} (h : RegsKept l s t) (b : Nat) : RegsKept l s (t.hcKick b) :=
  fun a ha => (t.hcKick_word b a).trans (h a ha)

/-! ### The limit on the total correction (R41) -/

/-- The slew that is in force from the next cycle depends on its base and on the registers as the cycle found them. -/
theorem State.slewAhead_congr {s t : State} {b : Nat} (htb : t.tb b = s.tb b) (h0 : t.regs0 = s.regs0) :
    t.slewAhead b = s.slewAhead b := by
  have hrd : ∀ f : Fld, t.rd0 f = s.rd0 f := fun f => by rw [State.rd0, State.word0, h0, State.rd0, State.word0]
  have hnow : t.slewNow b = s.slewNow b := by simp only [State.slewNow, State.rateNow, htb, hrd]
  simp only [State.slewAhead, State.slewRest, htb, hrd, hnow]

/-- The limit depends on these, and on the base's RATE and SLEW_PPM as they now stand. -/
theorem State.totalLimited_congr {s t : State} {b : Nat} (htb : t.tb b = s.tb b) (h0 : t.regs0 = s.regs0)
    (hr : t.word (HC_TB_RATE.i b).addr = s.word (HC_TB_RATE.i b).addr)
    (hp : t.word (HC_TB_SLEW_PPM.i b).addr = s.word (HC_TB_SLEW_PPM.i b).addr) : t.TotalLimited b ↔ s.TotalLimited b := by
  have hrate : t.rdS (HC_TB_RATE.i b) = s.rdS (HC_TB_RATE.i b) := by rw [State.rdS, State.rd_of_word hr, State.rdS]
  rw [State.TotalLimited, State.slewAhead_congr htb h0, hrate, State.rd_of_word hp, State.TotalLimited]

/-- The limit is flagged exactly where it acts. -/
theorem State.slewLimit_cases (s : State) (b : Nat) :
    (s.TotalLimited b ∧ s.slewLimit b = s.event (HC_TB_RATE_CLAMP.i b) ES_HC) ∨ (¬ s.TotalLimited b ∧ s.slewLimit b = s) := by
  unfold State.slewLimit State.TotalLimited
  cases h : s.slewAhead b with
  | none => exact .inr ⟨by simp, rfl⟩
  | some m =>
    dsimp only
    split
    · next hlim => exact .inl ⟨⟨m, rfl, hlim⟩, rfl⟩
    · next hlim =>
      refine .inr ⟨?_, rfl⟩
      rintro ⟨_, ⟨⟩, hlim'⟩
      exact hlim hlim'

theorem State.slewLimit_clk (s : State) (b : Nat) : (s.slewLimit b).clk = s.clk := by
  rcases s.slewLimit_cases b with ⟨-, h⟩ | ⟨-, h⟩ <;> rw [h]
  exact s.event_clk _ _

theorem State.slewLimit_word_ne (s : State) (b : Nat) {a : Nat} (h : a ≠ (HC_TB_RATE_CLAMP.i b).addr) (h' : a ≠ 0x30010) :
    (s.slewLimit b).word a = s.word a := by
  rcases s.slewLimit_cases b with ⟨-, he⟩ | ⟨-, he⟩ <;> rw [he]
  exact s.word_event_ne _ _ h h'

/-- A register of the base beside the one with RATE_CLAMP reads as before. -/
theorem State.slewLimit_rd_i (s : State) (f : Fld) (b : Nat)
    (h : f.addr ≠ HC_TB_RATE_CLAMP.addr ∧ f.stride = HC_TB_RATE_CLAMP.stride ∧ 0x30010 < f.addr) :
    (s.slewLimit b).rd (f.i b) = s.rd (f.i b) :=
  let ⟨haddr, hstride, hpending⟩ := h
  State.rd_of_word (s.slewLimit_word_ne b (Fld.addr_i_ne b haddr hstride) (Fld.addr_i_ne_of_lt b hpending))

theorem ClockOnly.slewLimit {s t : State} (h : ClockOnly s t) (b : Nat) : ClockOnly s (t.slewLimit b) := by
  rcases t.slewLimit_cases b with ⟨-, he⟩ | ⟨-, he⟩ <;> rw [he]
  · exact h.event _ _
  · exact h

theorem RegsKept.slewLimit {l : List Nat} {s t : State} (h : RegsKept l s t) {b : Nat} (hc : (HC_TB_RATE_CLAMP.i b).addr ∈ l)
    (hp : 0x30010 ∈ l) : RegsKept l s (t.slewLimit b) := by
  rcases t.slewLimit_cases b with ⟨-, he⟩ | ⟨-, he⟩ <;> rw [he]
  · exact h.event hc hp
  · exact h

/-- Flagging the limit does not change whether it acts. -/
theorem State.slewLimit_totalLimited (s : State) (b : Nat) : (s.slewLimit b).TotalLimited b ↔ s.TotalLimited b :=
  State.totalLimited_congr (State.tb_of_clk (s.slewLimit_clk b) b) ((ClockOnly.refl s).slewLimit b).regs0
    (s.slewLimit_word_ne b (Fld.addr_i_ne b (by decide) rfl) (Fld.addr_i_ne_of_lt b (by decide)))
    (s.slewLimit_word_ne b (Fld.addr_i_ne b (by decide) rfl) (Fld.addr_i_ne_of_lt b (by decide)))

/-- RATE_CLAMP shows that the total is limited, and what it showed before. -/
theorem State.slewLimit_on_clamp (s : State) (b : Nat) :
    (s.slewLimit b).on (HC_TB_RATE_CLAMP.i b) = true ↔ s.on (HC_TB_RATE_CLAMP.i b) = true ∨ (s.slewLimit b).TotalLimited b := by
  rw [s.slewLimit_totalLimited b]
  rcases s.slewLimit_cases b with ⟨hl, he⟩ | ⟨hl, he⟩ <;> rw [he]
  · exact iff_of_true (s.on_event_i_self HC_TB_RATE_CLAMP b ES_HC (by decide) (by decide)) (.inr hl)
  · exact (or_iff_left hl).symm

/-! ### RATE (R41) -/

/-- A RATE held within ±200 ppm. -/
def rateHeld (v : Nat) : Int := clampI (-219902325) 219902325 (sext 32 v)

theorem rateHeld_bounds (v : Nat) : -219902325 ≤ rateHeld v ∧ rateHeld v ≤ 219902325 := by
  unfold rateHeld clampI
  split
  · omega
  · split <;> omega

/-- A write of RATE before the total is judged: the rate is held, and flagged where it is. -/
def rateSet (b v : Nat) (s : State) : State :=
  if rateHeld v = sext 32 v then (s.wrS (HC_TB_RATE.i b) (rateHeld v)).hcKick b
  else ((s.wrS (HC_TB_RATE.i b) (rateHeld v)).hcKick b).event (HC_TB_RATE_CLAMP.i b) ES_HC

theorem hcRateWrite_eq (b v : Nat) (s : State) :
    hcRateWrite b v s =
      if b = 0 then ((rateSet b v s).slewLimit b).wr HC_STATUS_HOLDOVER 0 else (rateSet b v s).slewLimit b := rfl

theorem rateSet_clk (b : Fin 4) (v : Nat) (s : State) :
    (rateSet b v s).clk = { s.clk with wdFrom := if b = 0 then s.clk.lapse else s.clk.wdFrom } := by
  have hk := (s.wrS (HC_TB_RATE.i b) (rateHeld v)).hcKick_clk b
  rw [State.wrS_clk] at hk
  unfold rateSet
  split
  · exact hk
  · rw [State.event_clk, hk]

theorem rateSet_rate (b v : Nat) (s : State) : (rateSet b v s).rdS (HC_TB_RATE.i b) = rateHeld v := by
  obtain ⟨hlo, hhi⟩ := rateHeld_bounds v
  have hset : ((s.wrS (HC_TB_RATE.i b) (rateHeld v)).hcKick b).rdS (HC_TB_RATE.i b) = rateHeld v := by
    have hw : toBits 32 (rateHeld v) % 2 ^ 32 = toBits 32 (rateHeld v) := by
      unfold toBits
      omega
    rw [State.rdS, State.rd_of_word (State.hcKick_word _ _ _), State.wrS, State.rd_wr_i_self _ HC_TB_RATE _ _ (by decide)]
    exact (congrArg (sext 32) hw).trans (sext_toBits_word (by omega) (by omega))
  unfold rateSet
  split
  · exact hset
  · rw [State.rdS, State.rd_event_i _ HC_TB_RATE_CLAMP HC_TB_RATE _ _ (by decide) (by decide) (by decide), ← State.rdS, hset]

theorem rateSet_clamp (b v : Nat) (s : State) :
    (rateSet b v s).on (HC_TB_RATE_CLAMP.i b) = true ↔ s.on (HC_TB_RATE_CLAMP.i b) = true ∨ rateHeld v ≠ sext 32 v := by
  unfold rateSet
  split
  · next h =>
    rw [State.on_of_word (State.hcKick_word _ _ _), State.wrS,
      State.on_wr_i _ HC_TB_RATE HC_TB_RATE_CLAMP _ _ (by decide) (by decide)]
    exact (or_iff_left (not_not.2 h)).symm
  · next h => exact iff_of_true (State.on_event_i_self _ HC_TB_RATE_CLAMP _ _ (by decide) (by decide)) (.inr h)

theorem rateSet_clockOnly (b v : Nat) (s : State) : ClockOnly s (rateSet b v s) :=
  .ite (((ClockOnly.refl s).wrS _ _).hcKick b) ((((ClockOnly.refl s).wrS _ _).hcKick b).event _ _)

theorem rateSet_regsKept (b v : Nat) (s : State) :
    RegsKept [(HC_TB_RATE.i b).addr, (HC_TB_RATE_CLAMP.i b).addr, 0x30010] s (rateSet b v s) := by
  have hr : RegsKept [(HC_TB_RATE.i b).addr, (HC_TB_RATE_CLAMP.i b).addr, 0x30010] s
      ((s.wrS (HC_TB_RATE.i b) (rateHeld v)).hcKick b) :=
    ((RegsKept.refl _ s).wr _ (List.mem_cons_self ..)).hcKick b
  exact .ite hr (hr.event (by simp) (by simp [ES_HC]))

/-- HOLDOVER aside, the registers stand as the limit on the total left them. -/
theorem hcRateWrite_word_ne (b v : Nat) (s : State) {a : Nat} (h : a ≠ HC_STATUS_HOLDOVER.addr) :
    (hcRateWrite b v s).word a = ((rateSet b v s).slewLimit b).word a := by
  rw [hcRateWrite_eq]
  split
  · exact State.word_wr_ne _ _ _ h
  · rfl

theorem hcRateWrite_clk (b : Fin 4) (v : Nat) (s : State) :
    (hcRateWrite b v s).clk = { s.clk with wdFrom := if b = 0 then s.clk.lapse else s.clk.wdFrom } := by
  have hset := ((rateSet b v s).slewLimit_clk b).trans (rateSet_clk b v s)
  rw [hcRateWrite_eq]
  split
  · rwa [State.wr_clk]
  · exact hset

theorem hcRateWrite_clockOnly (b v : Nat) (s : State) : ClockOnly s (hcRateWrite b v s) := by
  rw [hcRateWrite_eq]
  exact .ite (((rateSet_clockOnly b v s).slewLimit b).wr _ _) ((rateSet_clockOnly b v s).slewLimit b)

theorem hcRateWrite_rate (b v : Nat) (s : State) : (hcRateWrite b v s).rdS (HC_TB_RATE.i b) = rateHeld v := by
  rw [State.rdS, State.rd_of_word (hcRateWrite_word_ne b v s (Fld.addr_i_ne_of_lt b (by decide))),
    State.slewLimit_rd_i _ HC_TB_RATE _ (by decide), ← State.rdS, rateSet_rate]

theorem hcRateWrite_clamp (b : Fin 4) (v : Nat) (s : State) :
    (hcRateWrite b v s).on (HC_TB_RATE_CLAMP.i b) = true ↔
      s.on (HC_TB_RATE_CLAMP.i b) = true ∨ rateHeld v ≠ sext 32 v ∨ (hcRateWrite b v s).TotalLimited b := by
  have hclk : (hcRateWrite b v s).clk = ((rateSet b v s).slewLimit b).clk := by
    rw [hcRateWrite_clk, State.slewLimit_clk, rateSet_clk]
  have hregs0 : (hcRateWrite b v s).regs0 = ((rateSet b v s).slewLimit b).regs0 :=
    (hcRateWrite_clockOnly b v s).regs0.trans ((rateSet_clockOnly b v s).slewLimit b).regs0.symm
  have hlim : (hcRateWrite b v s).TotalLimited b ↔ ((rateSet b v s).slewLimit b).TotalLimited b :=
    State.totalLimited_congr (State.tb_of_clk hclk b) hregs0 (hcRateWrite_word_ne b v s (Fld.addr_i_ne_of_lt _ (by decide)))
      (hcRateWrite_word_ne b v s (Fld.addr_i_ne_of_lt _ (by decide)))
  rw [State.on_of_word (hcRateWrite_word_ne b v s (Fld.addr_i_ne_of_lt _ (by decide))), State.slewLimit_on_clamp, rateSet_clamp, hlim,
    or_assoc]

theorem hcRateWrite_holdover (v : Nat) (s : State) : (hcRateWrite 0 v s).rd HC_STATUS_HOLDOVER = 0 :=
  State.rd_wr_self _ HC_STATUS_HOLDOVER 0 ⟨by decide, by decide⟩

theorem hcRateWrite_regsKept (b v : Nat) (s : State) :
    RegsKept [(HC_TB_RATE.i b).addr, (HC_TB_RATE_CLAMP.i b).addr, HC_STATUS_HOLDOVER.addr, 0x30010] s (hcRateWrite b v s) := by
  have hset : RegsKept [(HC_TB_RATE.i b).addr, (HC_TB_RATE_CLAMP.i b).addr, HC_STATUS_HOLDOVER.addr, 0x30010] s
      ((rateSet b v s).slewLimit b) :=
    ((rateSet_regsKept b v s).mono (by simp)).slewLimit (by simp) (by simp)
  rw [hcRateWrite_eq]
  exact .ite (hset.wr _ (by simp)) hset

/-! ### The slew and SLEW_PPM (R42) -/

/-- A write of the slew register before the total is judged. -/
def slewSet (b v : Nat) (s : State) : State :=
  (s.setTb b { s.tb b with slewNew := some (sext 32 v * 2 ^ 40) }).hcKick b

theorem hcSlewWrite_eq (b v : Nat) (s : State) : hcSlewWrite b v s = (slewSet b v s).slewLimit b := rfl

theorem slewSet_clk (b : Fin 4) (v : Nat) (s : State) :
    (slewSet b v s).clk =
      { s.clk with tb := (slewSet b v s).clk.tb, wdFrom := if b = 0 then s.clk.lapse else s.clk.wdFrom } := by
  rw [slewSet, State.hcKick_clk]
  rfl

theorem slewSet_tb_self (b v : Nat) (s : State) : (slewSet b v s).tb b = { s.tb b with slewNew := some (sext 32 v * 2 ^ 40) } := by
  rw [slewSet, State.hcKick_tb, State.setTb_tb_self]

theorem slewSet_tb_ne (v : Nat) (s : State) {b b' : Nat} (h : b' ≠ b) : (slewSet b v s).tb b' = s.tb b' := by
  rw [slewSet, State.hcKick_tb, State.setTb_tb_ne _ _ h]

theorem slewSet_regsKept (b v : Nat) (s : State) : RegsKept [] s (slewSet b v s) :=
  ((RegsKept.refl _ s).setTb _ _).hcKick b

theorem slewSet_clockOnly (b v : Nat) (s : State) : ClockOnly s (slewSet b v s) := ((ClockOnly.refl s).setTb _ _).hcKick b

/-- A write of SLEW_PPM before the total is judged. -/
def ppmSet (b v : Nat) (s : State) : State := s.wr (HC_TB_SLEW_PPM.i b) (max 1 (v % 256))

theorem hcPpmWrite_eq (b v : Nat) (s : State) : hcPpmWrite b v s = (ppmSet b v s).slewLimit b := rfl

theorem hcPpmWrite_ppm (b v : Nat) (s : State) : (hcPpmWrite b v s).rd (HC_TB_SLEW_PPM.i b) = max 1 (v % 256) := by
  have h : (ppmSet b v s).rd (HC_TB_SLEW_PPM.i b) = max 1 (v % 256) % 2 ^ 8 :=
    s.rd_wr_i_self HC_TB_SLEW_PPM b _ (by decide)
  rw [hcPpmWrite_eq, State.slewLimit_rd_i _ HC_TB_SLEW_PPM _ (by decide), h]
  omega

theorem hcPpmWrite_clamp (b v : Nat) (s : State) :
    (hcPpmWrite b v s).on (HC_TB_RATE_CLAMP.i b) = true ↔
      s.on (HC_TB_RATE_CLAMP.i b) = true ∨ (hcPpmWrite b v s).TotalLimited b := by
  have h : (ppmSet b v s).on (HC_TB_RATE_CLAMP.i b) = s.on (HC_TB_RATE_CLAMP.i b) :=
    State.on_of_word (State.word_wr_ne _ _ _ (Fld.addr_i_ne b (by decide) rfl))
  rw [hcPpmWrite_eq, State.slewLimit_on_clamp, h]

/-! ### The staging registers (R51) -/

/-- The highest bit of staging register `k`: SEC_LO, SEC_HI, NS, FRAC and AT. -/
def stagingHi (k : Fin 5) : Nat := ![31, 15, 29, 15, 29] k

theorem regDesc_staging (b : Fin 4) (k : Fin 5) :
    regDesc (0x40100 + b * 0x40 + (0x28 + 4 * k)) = some ⟨0x128 + 4 * k, 0x40, 4, [⟨stagingHi k, 0, .rw, 0⟩]⟩ := by
  revert b k
  decide

theorem hcStagingWrite_free {s : State} {b : Nat} (o v : Nat) (h : (s.tb b).commit = none) :
    hcStagingWrite b o v s = s.swPut (0x40100 + b * 0x40 + o) v := by
  rw [hcStagingWrite, h]
  rfl

theorem hcStagingWrite_pending {s : State} {b : Nat} (o v : Nat) (h : (s.tb b).commit ≠ none) :
    hcStagingWrite b o v s = hcRefuse b 3 s := by
  rw [hcStagingWrite, if_pos (Option.isSome_iff_ne_none.2 h)]

/-- A staging register reads as it was written. -/
theorem hcStagingWrite_value {s : State} (b : Fin 4) (k : Fin 5) (v : Nat) (h : (s.tb b).commit = none) :
    bits ((hcStagingWrite b (0x28 + 4 * k) v s).word (0x40100 + b * 0x40 + (0x28 + 4 * k))) (stagingHi k) 0 =
      v % 2 ^ (stagingHi k + 1) := by
  have hhi : stagingHi k < 32 := by
    revert k
    decide
  have hbits := s.swPut_field (v := v) (regDesc_staging b k) (List.mem_singleton_self _) rfl
    (fun g hg => by rw [List.mem_singleton.1 hg]; exact ⟨Nat.zero_le _, hhi⟩) (List.pairwise_singleton ..)
  rw [hcStagingWrite_free _ _ h, ← bits_zero]
  exact hbits

/-! ### Refusals (R51) -/

theorem hcRefuse_cause (b : Nat) {cause : Nat} (hc : cause < 16) (s : State) : (hcRefuse b cause s).rd (HC_TB_CAUSE.i b) = cause := by
  rw [hcRefuse, State.rd_event_i _ HC_TB_REFUSED HC_TB_CAUSE _ _ (by decide) (by decide) (by decide),
    State.rd_wr_i_self _ HC_TB_CAUSE _ _ (by decide)]
  exact Nat.mod_eq_of_lt hc

theorem hcRefuse_refused (b cause : Nat) (s : State) : (hcRefuse b cause s).on (HC_TB_REFUSED.i b) = true :=
  State.on_event_i_self _ HC_TB_REFUSED _ _ (by decide) (by decide)

theorem hcRefuse_clk (b cause : Nat) (s : State) : (hcRefuse b cause s).clk = s.clk := by rw [hcRefuse, State.event_clk, State.wr_clk]

theorem hcRefuse_clockOnly (b cause : Nat) (s : State) : ClockOnly s (hcRefuse b cause s) := ((ClockOnly.refl s).wr _ _).event _ _

theorem hcRefuse_regsKept (b cause : Nat) (s : State) : RegsKept [(HC_TB_CAUSE.i b).addr, 0x30010] s (hcRefuse b cause s) :=
  ((RegsKept.refl _ s).wr _ (List.mem_cons_self ..)).event (List.mem_cons_self ..) (by simp [ES_HC])

/-! ### The rows -/

theorem exec_rateWrite {s : State} {req : Requester} (hw : s.Writer req) (b : Fin 4) (v : Word) :
    exec (.rateWrite req b v) s = .next ((hcRateWrite b v.toNat s).wrote req (0x40118 + b * 0x40) v.toNat) := by
  have h := writeReg_timeBase hw b (j := 6) (o := 0x40118 + b * 0x40) (by decide) (by omega) v.isLt
  rw [hcWrite_timeBase b (by decide), if_pos rfl] at h
  exact congrArg Host.Outcome.next h

theorem exec_slewWrite {s : State} {req : Requester} (hw : s.Writer req) (b : Fin 4) (v : Word) :
    exec (.slewWrite req b v) s = .next ((hcSlewWrite b v.toNat s).wrote req (0x40120 + b * 0x40) v.toNat) := by
  have h := writeReg_timeBase hw b (j := 8) (o := 0x40120 + b * 0x40) (by decide) (by omega) v.isLt
  rw [hcWrite_timeBase b (by decide), if_neg (by decide), if_pos rfl] at h
  exact congrArg Host.Outcome.next h

theorem exec_slewPpmWrite {s : State} {req : Requester} (hw : s.Writer req) (b : Fin 4) (v : Word) :
    exec (.slewPpmWrite req b v) s = .next ((hcPpmWrite b v.toNat s).wrote req (0x40124 + b * 0x40) v.toNat) := by
  have h := writeReg_timeBase hw b (j := 9) (o := 0x40124 + b * 0x40) (by decide) (by omega) v.isLt
  rw [hcWrite_timeBase b (by decide), if_neg (by decide), if_neg (by decide), if_pos rfl] at h
  exact congrArg Host.Outcome.next h

theorem exec_stagingWrite {s : State} {req : Requester} (hw : s.Writer req) (b : Fin 4) (k : Fin 5) (v : Word) :
    exec (.stagingWrite req b k v) s =
      .next ((hcStagingWrite b (0x28 + 4 * k) v.toNat s).wrote req (0x40128 + b * 0x40 + 4 * k) v.toNat) := by
  have hj : 10 + k.val < 16 := by omega
  have hk : 4 * (10 + k.val) = 0x28 + 4 * k := by omega
  have h := writeReg_timeBase hw b hj (o := 0x40128 + b * 0x40 + 4 * k) (by omega) v.isLt
  rw [hcWrite_timeBase b hj, if_neg (by omega), if_neg (by omega), if_neg (by omega), if_pos (by omega), hk] at h
  exact congrArg Host.Outcome.next h

/-- The limit is judged alike before and after the completion. -/
theorem State.wrote_totalLimited (u : State) (r : Requester) (o v b : Nat) : (u.wrote r o v).TotalLimited b ↔ u.TotalLimited b :=
  State.totalLimited_congr (State.wrote_tb ..) (State.wrote_regs0 ..) (State.wrote_word ..) (State.wrote_word ..)

theorem State.wrote_rdS (u : State) (r : Requester) (o v : Nat) (f : Fld) : (u.wrote r o v).rdS f = u.rdS f := by
  rw [State.rdS, State.wrote_rd, State.rdS]

/-- Settles O17: write by write, what the page's operation leaves and its completion keeps. -/
theorem clockSteeringWrites : Obligations.ClockSteeringWrites := by
  intro req b v s hw
  refine ⟨?rate, ?slew, ?ppm, ?free, ?pending⟩
  case rate =>
    refine ⟨_, exec_rateWrite hw b v, ?_, ?_, fun hb => ⟨?_, ?_⟩, fun hb => ?_, ?_, ?_⟩
    · rw [State.wrote_rdS]
      exact hcRateWrite_rate b v.toNat s
    · rw [State.wrote_on, State.wrote_totalLimited]
      exact hcRateWrite_clamp b v.toNat s
    · rw [State.wrote_rd, hb]
      exact hcRateWrite_holdover v.toNat s
    · rw [State.wrote_clk, hcRateWrite_clk, if_pos hb]
    · rw [State.wrote_clk, hcRateWrite_clk, if_neg hb]
    · exact (hcRateWrite_regsKept b v.toNat s).wrote _ _ _
    · exact (hcRateWrite_clockOnly b v.toNat s).wrote _ _ _
  case slew =>
    have hclk := (slewSet b v.toNat s).slewLimit_clk b
    rw [← hcSlewWrite_eq] at hclk
    refine ⟨_, exec_slewWrite hw b v, ?_, fun b' hb => ?_, ?_, ?_, ?_, ?_⟩
    · rw [State.wrote_tb, State.tb_of_clk hclk, slewSet_tb_self]
    · rw [State.wrote_tb, State.tb_of_clk hclk, slewSet_tb_ne _ _ hb]
    · rw [State.wrote_on, State.wrote_totalLimited, hcSlewWrite_eq, State.slewLimit_on_clamp,
        (slewSet_regsKept b v.toNat s).on _ List.not_mem_nil]
    · rw [State.wrote_clk, hclk]
      exact slewSet_clk b v.toNat s
    · exact (((slewSet_regsKept b v.toNat s).mono (by simp)).slewLimit (by simp) (by simp)).wrote _ _ _
    · exact ((slewSet_clockOnly b v.toNat s).slewLimit b).wrote _ _ _
  case ppm =>
    refine ⟨_, exec_slewPpmWrite hw b v, ?_, ?_, ?_, ?_⟩
    · rw [State.wrote_rd, hcPpmWrite_ppm]
    · rw [State.wrote_on, State.wrote_totalLimited, hcPpmWrite_clamp]
    · exact (((RegsKept.refl _ s).wr _ (by simp)).slewLimit (by simp) (by simp)).wrote _ _ _
    · exact (((ClockOnly.refl s).wr _ _).slewLimit b).wrote_of_clk (State.slewLimit_clk _ _) _ _ _
  case free =>
    intro k hfree
    have heq := hcStagingWrite_free (0x28 + 4 * k.val) v.toNat hfree
    have haddr (f : Fld) (ha : f.addr = 0x40128 + 4 * k) (hs : f.stride = 0x40) :
        (f.i b).addr = 0x40100 + b * 0x40 + (0x28 + 4 * k) := by
      simp only [Fld.i, ha, hs]
      omega
    have hrd (f : Fld) (ha : f.addr = 0x40128 + 4 * k) (hs : f.stride = 0x40) (hlo : f.lo = 0) (hhi : f.hi = stagingHi k) :
        ((hcStagingWrite b (0x28 + 4 * k) v.toNat s).wrote req (0x40128 + b * 0x40 + 4 * k) v.toNat).rd (f.i b) =
          v.toNat % 2 ^ (stagingHi k + 1) := by
      have hbits : (f.i b).lo = 0 ∧ (f.i b).hi = stagingHi k := ⟨hlo, hhi⟩
      rw [State.wrote_rd, State.rd, haddr f ha hs, hbits.1, hbits.2, hcStagingWrite_value b k v.toNat hfree]
    refine ⟨_, exec_stagingWrite hw b k v, ?_, ?_, ?_, ?_, ?_, ?_, ?_⟩
    · rintro rfl
      exact (hrd HC_TB_STG_SEC_LO rfl rfl rfl rfl).trans (Nat.mod_eq_of_lt v.isLt)
    · rintro rfl
      exact hrd HC_TB_STG_SEC_HI rfl rfl rfl rfl
    · rintro rfl
      exact hrd HC_TB_STG_NS rfl rfl rfl rfl
    · rintro rfl
      exact hrd HC_TB_STG_FRAC rfl rfl rfl rfl
    · rintro rfl
      exact hrd HC_TB_STG_AT rfl rfl rfl rfl
    · have ha : (HC_TB_STG_SEC_LO.i b).addr + 4 * k = 0x40100 + b * 0x40 + (0x28 + 4 * k) := by
        simp only [Fld.i, HC_TB_STG_SEC_LO]
        omega
      rw [heq, ha]
      exact (s.swPut_regsKept _ _).wrote _ _ _
    · rw [heq]
      exact ((ClockOnly.refl s).swPut _ _).wrote_of_clk (s.swPut_clk _ _) _ _ _
  case pending =>
    intro k hpend
    have heq := hcStagingWrite_pending (0x28 + 4 * k.val) v.toNat hpend
    refine ⟨_, exec_stagingWrite hw b k v, ?_, ?_, ?_, ?_⟩ <;> rw [heq]
    · rw [State.wrote_rd, hcRefuse_cause _ (by decide)]
    · rw [State.wrote_on, hcRefuse_refused]
    · exact (hcRefuse_regsKept b 3 s).wrote _ _ _
    · exact (hcRefuse_clockOnly b 3 s).wrote_of_clk (hcRefuse_clk b 3 s) _ _ _

end Sys2Proof.Machine
end

section
/-!
HC_CTRL (R45, R46) and the groups that a read latches for its requester (R48, R67), with the statement on both.
-/
namespace Sys2Proof.Machine

/-! ### HC_CTRL -/

theorem regDesc_hcCtrl : regDesc 0x40000 = some ⟨0, 0, 1, [⟨8, 8, .rw, 0⟩, ⟨4, 4, .rw, 0⟩, ⟨1, 0, .rw, 1⟩]⟩ := by decide

/-- The three fields of HC_CTRL take what is written. -/
theorem State.swPut_hcCtrl (s : State) (v : Nat) :
    (s.swPut 0x40000 v).rd HC_CTRL_STEP_LOCK = bits v 8 8 ∧ (s.swPut 0x40000 v).rd HC_CTRL_TB0_LOCKED = bits v 4 4 ∧
      (s.swPut 0x40000 v).rd HC_CTRL_GOV = v % 4 := by
  have hfield (f : FieldDesc) (hf : f ∈ [⟨8, 8, .rw, 0⟩, ⟨4, 4, .rw, 0⟩, ⟨1, 0, .rw, 1⟩]) (hrw : f.acc = .rw) :
      bits ((s.swPut 0x40000 v).word 0x40000) f.hi f.lo = bits v f.hi f.lo :=
    s.swPut_field regDesc_hcCtrl hf hrw (by decide) (by decide)
  exact ⟨hfield ⟨8, 8, .rw, 0⟩ (by decide) rfl, hfield ⟨4, 4, .rw, 0⟩ (by decide) rfl,
    hfield ⟨1, 0, .rw, 1⟩ (by decide) rfl⟩

/-- GOV is taken unless it is locked and differs. -/
theorem hcCtrlWriteOp_taken {s : State} {v : Nat} (h : s.on HC_STATUS_GOV_LOCK = false ∨ v % 4 = s.rd HC_CTRL_GOV) :
    hcCtrlWriteOp v s = s.swPut 0x40000 v := by
  refine if_neg ?_
  rintro ⟨hlock, hne⟩
  rcases h with h | h
  · rw [h] at hlock
    cases hlock
  · exact hne h

theorem hcCtrlWriteOp_locked {s : State} {v : Nat} (h : s.on HC_STATUS_GOV_LOCK = true) (hne : v % 4 ≠ s.rd HC_CTRL_GOV) :
    hcCtrlWriteOp v s = ((s.swPut 0x40000 v).wr HC_CTRL_GOV (s.rd HC_CTRL_GOV)).hcEvent := if_pos ⟨h, hne⟩

theorem hcCtrlWriteOp_locked_rd {s : State} {v : Nat} (h : s.on HC_STATUS_GOV_LOCK = true) (hne : v % 4 ≠ s.rd HC_CTRL_GOV) :
    (hcCtrlWriteOp v s).rd HC_CTRL_GOV = s.rd HC_CTRL_GOV ∧ (hcCtrlWriteOp v s).rd HC_CTRL_STEP_LOCK = bits v 8 8 ∧
      (hcCtrlWriteOp v s).rd HC_CTRL_TB0_LOCKED = bits v 4 4 := by
  obtain ⟨hstep, hlocked, -⟩ := s.swPut_hcCtrl v
  have hev (f : Fld) (hf : f.addr ≠ 0x30010) : (hcCtrlWriteOp v s).rd f =
      ((s.swPut 0x40000 v).wr HC_CTRL_GOV (s.rd HC_CTRL_GOV)).rd f := by
    rw [hcCtrlWriteOp_locked h hne]
    exact State.rd_of_word (State.word_raise_ne _ _ hf)
  have hgov : s.rd HC_CTRL_GOV < 2 ^ 2 := bits_lt ..
  refine ⟨?_, ?_, ?_⟩ <;> rw [hev _ (by decide)]
  · rw [State.rd_wr_self _ _ _ ⟨by decide, by decide⟩]
    exact Nat.mod_eq_of_lt hgov
  · rw [State.rd_wr_apart _ _ _ _ ⟨by decide, by decide⟩ (.inr (by decide)), hstep]
  · rw [State.rd_wr_apart _ _ _ _ ⟨by decide, by decide⟩ (.inr (by decide)), hlocked]

theorem exec_hcCtrlWrite {s : State} {req : Requester} (hw : s.Writer req) (v : Word) :
    exec (.hcCtrlWrite req v) s = .next ((hcCtrlWriteOp v.toNat s).wrote req 0x40000 v.toNat) :=
  congrArg Host.Outcome.next (writeReg_hc hw (k := 0) rfl (by decide) (by decide) v.isLt)

/-! ### Snapshots (R48) -/

theorem hcRead_snapshot (b : Fin 4) (q : Nat) (s : State) :
    hcRead q (0x100 + b * 0x40) s = some ((s.tb b).val / uS % 2 ^ 32, hcSnapshot b q s) := by
  have hblock : (0x100 + b.val * 0x40 - 0x100) / 0x40 = b := by omega
  have hword : (0x100 + b.val * 0x40) % 0x40 = 0 := by omega
  have hsnap : (hcSnapshot b q s).snap b q = { val := (s.tb b).val, cyc := s.cyc } := agetD_aput_self ..
  unfold hcRead
  rw [if_pos (by omega), hblock, hword, if_pos rfl]
  dsimp only
  rw [hsnap]
  rfl

theorem exec_timeSnapshot {s : State} {req : Requester} (hr : s.Reaches req) (hs : s.CalServed) (b : Fin 4) :
    exec (.timeSnapshot req b) s =
      .next ((hcSnapshot b (rqIndex req) s).gave req (0x40100 + b * 0x40) ((s.tb b).val / uS % 2 ^ 32)) :=
  congrArg Host.Outcome.next
    (readReg_hc hr hs (k := 0x100 + b * 0x40) (by omega) (by omega) (descIn_timeBase b (j := 0) (by decide))
      (hcRead_snapshot b _ s) rfl)

/-! ### Groups (R67) -/

theorem hcRead_group (irig : Bool) (q : Nat) (s : State) :
    hcRead q (if irig then 0x44 else 0x24) s = some ((hcGroupLatch irig q s).groupWord irig q 0, hcGroupLatch irig q s) := by
  cases irig <;> rfl

/-- A latched group holds its words as the cycle found them. -/
theorem hcGroupLatch_word (irig : Bool) (q : Nat) (s : State) {i : Nat} (hi : i < if irig then 8 else 4) :
    (hcGroupLatch irig q s).groupWord irig q i = s.word0 ((if irig then 0x40044 else 0x40024) + 4 * i) := by
  have hlist : agetD (hcGroupLatch irig q s).clk.groups (b2n irig * 8 + q) [] =
      (List.range (if irig then 8 else 4)).map (fun i => s.word0 ((if irig then 0x40044 else 0x40024) + 4 * i)) :=
    agetD_aput_self ..
  rw [State.groupWord, hlist]
  simp [List.getD, hi]

theorem exec_ppsGroupLatch {s : State} {req : Requester} (hr : s.Reaches req) (hs : s.CalServed) (irig : Bool) :
    exec (.ppsGroupLatch req irig) s =
      .next ((hcGroupLatch irig (rqIndex req) s).gave req (if irig then 0x40044 else 0x40024)
        (s.word0 (if irig then 0x40044 else 0x40024))) := by
  have hfirst : (hcGroupLatch irig (rqIndex req) s).groupWord irig (rqIndex req) 0 = s.word0 (if irig then 0x40044 else 0x40024) :=
    hcGroupLatch_word irig _ s (by cases irig <;> decide)
  have hread := hcRead_group irig (rqIndex req) s
  rw [hfirst] at hread
  exact congrArg Host.Outcome.next
    (readReg_hc hr hs (by cases irig <;> rfl) (by cases irig <;> decide) (by cases irig <;> decide) hread rfl)

/-! ### The statement -/

/-- The data of a completed read. -/
theorem State.gave_data (u : State) (req : Requester) (o d : Nat) : (u.gave req o d).bus.map (fun c => c.data) = some d := by
  rw [State.gave, State.answer_bus]
  rfl

/-- Settles O18: the two writes of HC_CTRL, and the two reads that latch. -/
theorem clockControlAndLatches : Obligations.ClockControlAndLatches := by
  refine ⟨?taken, ?locked, ?snapshot, ?group⟩
  case taken =>
    intro req v s hw h
    obtain ⟨hstep, hlocked, hgov⟩ := s.swPut_hcCtrl v.toNat
    have he := exec_hcCtrlWrite hw v
    rw [hcCtrlWriteOp_taken h] at he
    have hframe := (ClockOnly.refl s).swPut 0x40000 v.toNat
    refine ⟨_, he, ?_, ?_, ?_, ?_, ?_, ?_⟩
    · rw [State.wrote_rd, hgov]
    · rw [State.wrote_rd, hstep]
    · rw [State.wrote_rd, hlocked]
    · exact State.gov_of_regs0 ((State.wrote_regs0 ..).trans hframe.regs0)
    · exact (s.swPut_regsKept _ _).wrote _ _ _
    · exact hframe.wrote_of_clk (s.swPut_clk _ _) _ _ _
  case locked =>
    intro req v s hw h hne
    obtain ⟨hgov, hstep, hlocked⟩ := hcCtrlWriteOp_locked_rd h hne
    have heq := hcCtrlWriteOp_locked h hne
    refine ⟨_, exec_hcCtrlWrite hw v, ?_, ?_, ?_, ?_, ?_, ?_⟩
    · rw [State.wrote_rd, hgov]
    · rw [State.wrote_rd, hstep]
    · rw [State.wrote_rd, hlocked]
    · rw [State.wrote_word, heq]
      exact State.raise_pending_bit _ (by decide)
    · have hkept : RegsKept [0x40000, 0x30010] s (s.swPut 0x40000 v.toNat) := (s.swPut_regsKept _ _).mono (by simp)
      rw [heq]
      exact ((hkept.wr (f := HC_CTRL_GOV) _ (by decide)).raise (es := ES_HC) (by decide)).wrote _ _ _
    · have hclk : (hcCtrlWriteOp v.toNat s).clk = s.clk := by
        rw [heq, State.hcEvent, State.raise_clk, State.wr_clk, State.swPut_clk]
      have hframe : ClockOnly s (hcCtrlWriteOp v.toNat s) := by
        rw [heq]
        exact (((ClockOnly.refl s).swPut _ _).wr _ _).raise _
      exact hframe.wrote_of_clk hclk _ _ _
  case snapshot =>
    intro req b s hr hs
    refine ⟨_, exec_timeSnapshot hr hs b, ?_, fun c q hne => ?_, State.gave_data .., ?_, ?_⟩
    · rw [State.snap, State.gave_clk]
      exact agetD_aput_self ..
    · rw [State.snap, State.gave_clk]
      exact agetD_aput_ne _ _ _ hne
    · exact RegsKept.gave (fun _ _ => rfl) _ _ _
    · have hframe : ClockOnly s (hcSnapshot b (rqIndex req) s) := rfl
      refine (ClockOnly.gave hframe req _ _).trans ?_
      rw [State.gave_clk]
      rfl
  case group =>
    intro req irig s hr hs
    refine ⟨_, exec_ppsGroupLatch hr hs irig, fun i hi => ?_, fun g q i hne => ?_, State.gave_data .., ?_, ?_⟩
    · rw [State.groupWord, State.gave_clk, ← State.groupWord, hcGroupLatch_word irig _ s hi]
    · rw [State.groupWord, State.gave_clk]
      exact congrArg (List.getD · i 0) (agetD_aput_ne _ _ _ hne)
    · exact RegsKept.gave (fun _ _ => rfl) _ _ _
    · have hframe : ClockOnly s (hcGroupLatch irig (rqIndex req) s) := rfl
      refine (ClockOnly.gave hframe req _ _).trans ?_
      rw [State.gave_clk]
      rfl

end Sys2Proof.Machine
end

section
/-!
Commits of a time base (R49, R50, R51): accepted, refused, withdrawn and applied.
-/
namespace Sys2Proof.Machine

/-! ### The command register -/

/-- The command and status register of a base: read-only and W1C fields beside the command code. -/
def commandDesc : RegDesc :=
  ⟨0x13C, 0x40, 4, [⟨27, 24, .ro, 0⟩, ⟨20, 20, .w1c, 0⟩, ⟨19, 19, .w1c, 0⟩, ⟨18, 18, .w1c, 0⟩, ⟨17, 17, .w1c, 0⟩, ⟨16, 16, .ro, 0⟩,
    ⟨1, 0, .wo, 0⟩]⟩

theorem regDesc_command (b : Fin 4) : regDesc (0x4013C + b * 0x40) = some commandDesc := by
  revert b
  decide

/-- A command code alone writes no W1C bit. -/
theorem commandDesc_idle {c : Nat} (hc : c < 4) :
    ∀ f ∈ commandDesc.fields, f.acc ≠ .rw ∧ (f.acc = .w1c → f.lo ≤ f.hi ∧ bits c f.hi f.lo = 0) := by
  have hlo : ∀ f ∈ commandDesc.fields, f.acc ≠ .rw ∧ (f.acc = .w1c → f.lo ≤ f.hi ∧ 2 ≤ f.lo) := by decide
  intro f hf
  obtain ⟨hrw, hw1c⟩ := hlo f hf
  refine ⟨hrw, fun h => ?_⟩
  obtain ⟨hle, h2⟩ := hw1c h
  exact ⟨hle, bits_eq_zero_of_lt (hc.trans_le (Nat.pow_le_pow_right (n := 2) (by decide) h2))⟩

/-- The state in which a command of base `b` is judged: its code has been written and the watchdog restarted. -/
def commandTaken (b c : Nat) (s : State) : State := (s.swPut (0x4013C + b * 0x40) c).hcKick b

theorem hcCmdWrite_abs (b : Nat) (s : State) : hcCmdWrite b 1 s = hcCommit b false (commandTaken b 1 s) := rfl
theorem hcCmdWrite_rel (b : Nat) (s : State) : hcCmdWrite b 2 s = hcCommit b true (commandTaken b 2 s) := rfl
theorem hcCmdWrite_cancel (b : Nat) (s : State) : hcCmdWrite b 3 s = hcCancelCommit b (commandTaken b 3 s) := rfl

theorem commandTaken_clockOnly (b c : Nat) (s : State) : ClockOnly s (commandTaken b c s) := ((ClockOnly.refl s).swPut _ _).hcKick b

theorem commandTaken_clk (b : Fin 4) (c : Nat) (s : State) :
    (commandTaken b c s).clk = { s.clk with wdFrom := if b = 0 then s.clk.lapse else s.clk.wdFrom } := by
  rw [commandTaken, State.hcKick_clk, State.swPut_clk]

theorem commandTaken_tb (b c k : Nat) (s : State) : (commandTaken b c s).tb k = s.tb k := by
  rw [commandTaken, State.hcKick_tb, State.tb_of_clk (s.swPut_clk _ _)]

/-- Every register reads as before. -/
theorem commandTaken_regsKept (b : Fin 4) {c : Nat} (hc : c < 4) (s : State) : RegsKept [] s (commandTaken b c s) :=
  RegsKept.hcKick (fun x _ => s.swPut_word_idle (regDesc_command b) (commandDesc_idle hc) x) b

theorem commandTaken_kick (b c : Nat) (s : State) : (commandTaken b c s).hcKick b = commandTaken b c s := by
  unfold commandTaken State.hcKick
  split <;> rfl

/-! ### COMMIT (R49, R51) -/

/-- Why a commit of base `b` is refused, 0 where it is not. -/
def commitCause (b : Nat) (s : State) : Nat :=
  if 1000000000 ≤ s.rd (HC_TB_STG_NS.i b) ∨ 1000000000 ≤ s.rd (HC_TB_STG_AT.i b) then 2
  else if (s.tb b).commit.isSome then 3 else if b = s.gov ∧ s.on HC_CTRL_STEP_LOCK = true then 1 else 0

/-- The commit that the staging registers of base `b` spell. -/
def commitStaged (b : Nat) (rel : Bool) (s : State) : Commit :=
  { rel := rel, staged := stagedValue s b rel, instant := commitInstant (s.tb b).val (s.rd (HC_TB_STG_AT.i b)) }

/-- A commit that waits for its instant. -/
def commitPending (b : Nat) (rel : Bool) (s : State) : State :=
  (s.setTb b { s.tb b with commit := some (commitStaged b rel s) }).wr (HC_TB_PEND.i b) 1

/-- A commit is refused with its cause, or waits. -/
theorem hcCommit_eq (b : Nat) (rel : Bool) (s : State) (hk : s.hcKick b = s) :
    hcCommit b rel s = if commitCause b s ≠ 0 then hcRefuse b (commitCause b s) s else commitPending b rel s := by
  simp only [hcCommit, hk]
  by_cases hrange : 1000000000 ≤ s.rd (HC_TB_STG_NS.i b) ∨ 1000000000 ≤ s.rd (HC_TB_STG_AT.i b)
  · have hc : commitCause b s = 2 := if_pos hrange
    rw [if_pos hrange, hc, if_pos (by decide)]
  by_cases hbusy : (s.tb b).commit.isSome = true
  · have hc : commitCause b s = 3 := by rw [commitCause, if_neg hrange, if_pos hbusy]
    rw [if_neg hrange, if_pos hbusy, hc, if_pos (by decide)]
  by_cases hlock : b = s.gov ∧ s.on HC_CTRL_STEP_LOCK = true
  · have hc : commitCause b s = 1 := by rw [commitCause, if_neg hrange, if_neg hbusy, if_pos hlock]
    rw [if_neg hrange, if_neg hbusy, if_pos hlock, hc, if_pos (by decide)]
  · have hc : commitCause b s = 0 := by rw [commitCause, if_neg hrange, if_neg hbusy, if_neg hlock]
    rw [if_neg hrange, if_neg hbusy, if_neg hlock, hc, if_neg (by decide), commitPending, commitStaged]

/-- Taking the command leaves what a commit is judged by. -/
theorem commandTaken_commitCause (b : Fin 4) {c : Nat} (hc : c < 4) (s : State) :
    commitCause b (commandTaken b c s) = commitCause b s := by
  have hregs := commandTaken_regsKept b hc s
  unfold commitCause
  rw [commandTaken_tb, State.gov_of_regs0 (commandTaken_clockOnly b c s).regs0, hregs.rd _ List.not_mem_nil, hregs.rd _ List.not_mem_nil,
    hregs.on _ List.not_mem_nil]

theorem commandTaken_commitStaged (b : Fin 4) (rel : Bool) {c : Nat} (hc : c < 4) (s : State) :
    commitStaged b rel (commandTaken b c s) = commitStaged b rel s := by
  have hrd : ∀ f : Fld, (commandTaken b c s).rd f = s.rd f := fun f => (commandTaken_regsKept b hc s).rd f List.not_mem_nil
  unfold commitStaged stagedValue
  simp only [commandTaken_tb, hrd]

theorem commitPending_tb_self (b : Nat) (rel : Bool) (s : State) :
    (commitPending b rel s).tb b = { s.tb b with commit := some (commitStaged b rel s) } := by
  rw [commitPending, State.wr_tb, State.setTb_tb_self]

theorem commitPending_tb_ne (rel : Bool) (s : State) {b b' : Nat} (h : b' ≠ b) : (commitPending b rel s).tb b' = s.tb b' := by
  rw [commitPending, State.wr_tb, State.setTb_tb_ne _ _ h]

theorem commitPending_pend (b : Nat) (rel : Bool) (s : State) : (commitPending b rel s).on (HC_TB_PEND.i b) = true :=
  State.on_wr_i_self (s.setTb b _) HC_TB_PEND b true (by decide)

/-- What an update of one base after a command leaves of the clock. -/
theorem commandTaken_setTb_clk (b : Fin 4) (c : Nat) (s : State) (x : TimeBase) :
    ((commandTaken b c s).setTb b x).clk =
      { s.clk with
        tb := ((commandTaken b c s).setTb b x).clk.tb, wdFrom := if b = 0 then s.clk.lapse else s.clk.wdFrom } := by
  rw [State.setTb_clk, commandTaken_clk]

theorem commitPending_clk (b : Fin 4) (rel : Bool) (c : Nat) (s : State) :
    (commitPending b rel (commandTaken b c s)).clk =
      { s.clk with
        tb := (commitPending b rel (commandTaken b c s)).clk.tb, wdFrom := if b = 0 then s.clk.lapse else s.clk.wdFrom } := by
  rw [commitPending, State.wr_clk]
  exact commandTaken_setTb_clk b c s _

/-- The register write that sends the command code `c`. -/
theorem writeReg_command {s : State} {req : Requester} (hw : s.Writer req) (b : Fin 4) {c : Nat} (hc : c < 4) :
    writeReg req (0x4013C + b * 0x40) c s = (hcCmdWrite b c s).wrote req (0x4013C + b * 0x40) c := by
  have h := writeReg_timeBase hw b (j := 15) (o := 0x4013C + b * 0x40) (by decide) (by omega) (v := c) (by omega)
  rwa [hcWrite_timeBase b (by decide), if_neg (by decide), if_neg (by decide), if_neg (by decide), if_neg (by decide), if_pos rfl] at h

/-- A commit, absolute or relative, is its command code's write: it is judged once the code is taken. -/
theorem exec_commit {s : State} {req : Requester} (hw : s.Writer req) (b : Fin 4) (rel : Bool) :
    ∃ c, c < 4 ∧ exec (if rel then .commitRel req b else .commitAbs req b) s =
      .next ((if commitCause b s ≠ 0 then hcRefuse b (commitCause b s) (commandTaken b c s)
        else commitPending b rel (commandTaken b c s)).wrote req (0x4013C + b * 0x40) c) := by
  have hcommit (c : Nat) (hc : c < 4) (he : hcCmdWrite b c s = hcCommit b rel (commandTaken b c s)) :
      writeReg req (0x4013C + b * 0x40) c s =
        (if commitCause b s ≠ 0 then hcRefuse b (commitCause b s) (commandTaken b c s)
          else commitPending b rel (commandTaken b c s)).wrote req (0x4013C + b * 0x40) c := by
    rw [writeReg_command hw b hc, he, hcCommit_eq _ _ _ (commandTaken_kick ..), commandTaken_commitCause b hc]
  cases rel with
  | false => exact ⟨1, by decide, congrArg Host.Outcome.next (hcommit 1 (by decide) (hcCmdWrite_abs b s))⟩
  | true => exact ⟨2, by decide, congrArg Host.Outcome.next (hcommit 2 (by decide) (hcCmdWrite_rel b s))⟩

/-! ### CANCEL (R51) -/

/-- A base without a pending commit. -/
def commitGone (b : Nat) (s : State) : State := (s.setTb b { s.tb b with commit := none }).wr (HC_TB_PEND.i b) 0

theorem commitGone_tb_self (b : Nat) (s : State) : (commitGone b s).tb b = { s.tb b with commit := none } := by
  rw [commitGone, State.wr_tb, State.setTb_tb_self]

theorem commitGone_tb_ne (s : State) {b b' : Nat} (h : b' ≠ b) : (commitGone b s).tb b' = s.tb b' := by
  rw [commitGone, State.wr_tb, State.setTb_tb_ne _ _ h]

theorem commitGone_pend (b : Nat) (s : State) : (commitGone b s).on (HC_TB_PEND.i b) = false :=
  State.on_wr_i_self (s.setTb b _) HC_TB_PEND b false (by decide)

/-- A base's status register beside PEND reads as before. -/
theorem commitGone_on (s : State) (b : Nat) (f : Fld) (h : HC_TB_PEND.hi < f.lo ∨ f.hi < HC_TB_PEND.lo) :
    (commitGone b s).on (f.i b) = s.on (f.i b) :=
  State.on_wr_i (s.setTb b _) HC_TB_PEND f b 0 (by decide) (.inr h)

theorem exec_hcCancel {s : State} {req : Requester} (hw : s.Writer req) (b : Fin 4) :
    exec (.hcCancel req b) s = .next ((commitGone b (commandTaken b 3 s)).wrote req (0x4013C + b * 0x40) 3) := by
  have h := writeReg_command hw b (c := 3) (by decide)
  rw [hcCmdWrite_cancel, hcCancelCommit, commandTaken_kick] at h
  exact congrArg Host.Outcome.next h

theorem commitGone_clk (b : Fin 4) (c : Nat) (s : State) :
    (commitGone b (commandTaken b c s)).clk =
      { s.clk with
        tb := (commitGone b (commandTaken b c s)).clk.tb, wdFrom := if b = 0 then s.clk.lapse else s.clk.wdFrom } := by
  rw [commitGone, State.wr_clk]
  exact commandTaken_setTb_clk b c s _

/-! ### The instant (R50) -/

/-- What a commit gives its base; a relative one whose result lies below 0 s leaves it at 0 (log entry 21). -/
def commitValue (b : Nat) (c : Commit) (s : State) : Nat :=
  if c.rel then ((s.nextVal b : Int) + c.staged).toNat else (c.staged + (((s.tb b).val - c.instant : Nat) : Int)).toNat

/-- A base whose commit has been applied, before the status shows it. -/
def commitMoves (b : Nat) (c : Commit) (s : State) : State :=
  s.setTb b { s.tb b with commit := none, stepTo := some (commitValue b c s) }

/-- The status of a base whose commit has been applied. -/
def commitShown (b set : Nat) (t : State) : State :=
  ((t.wr (HC_TB_PEND.i b) 0).wr HC_STATUS_SET set).event (HC_TB_DONE.i b) ES_HC

theorem exec_commitApply {s : State} {b : Fin 4} {c : Commit} (hrun : s.clk.running = true) (hc : (s.tb b).commit = some c)
    (hi : c.instant ≤ (s.tb b).val) :
    exec (.commitApply b) s = .next (commitShown b (s.rd HC_STATUS_SET ||| 2 ^ b.val) (commitMoves b c s)) := by
  have hdue : commitDue s b = true := by
    rw [commitDue, hc]
    exact decide_eq_true hi
  have happly : hcApply b s = commitShown b (s.rd HC_STATUS_SET ||| 2 ^ b.val) (commitMoves b c s) := by
    rw [hcApply, hc]
    rfl
  change execCommitApply b s = _
  rw [execCommitApply, if_pos ⟨hrun, hdue⟩, happly]

theorem commitShown_clk (b set : Nat) (t : State) : (commitShown b set t).clk = t.clk := by
  rw [commitShown, State.event_clk, State.wr_clk, State.wr_clk]

theorem commitShown_pend (b set : Nat) (t : State) : (commitShown b set t).on (HC_TB_PEND.i b) = false := by
  have hset : (HC_TB_PEND.i b).addr ≠ HC_STATUS_SET.addr := Fld.addr_i_ne_of_lt b (by decide)
  rw [commitShown, State.on_event_i _ HC_TB_DONE HC_TB_PEND _ _ (by decide) (by decide) (by decide),
    State.on_of_word (State.word_wr_ne _ _ _ hset), State.on, State.rd_wr_i_self _ HC_TB_PEND _ _ (by decide)]
  rfl

theorem commitShown_done (b set : Nat) (t : State) : (commitShown b set t).on (HC_TB_DONE.i b) = true :=
  State.on_event_i_self _ HC_TB_DONE b ES_HC (by decide) (by decide)

theorem commitShown_set (b set : Nat) (t : State) : (commitShown b set t).rd HC_STATUS_SET = set % 16 := by
  have hdone : HC_STATUS_SET.addr ≠ (HC_TB_DONE.i b).addr := (Fld.addr_i_ne_of_lt b (by decide)).symm
  rw [commitShown, State.rd_of_word (State.word_event_ne _ _ _ hdone (by decide)), State.rd_wr_self _ _ _ ⟨by decide, by decide⟩]
  rfl

theorem commitShown_regsKept {l : List Nat} {s t : State} (h : RegsKept l s t) (b set : Nat) (hp : (HC_TB_PEND.i b).addr ∈ l)
    (hs : HC_STATUS_SET.addr ∈ l) (he : 0x30010 ∈ l) : RegsKept l s (commitShown b set t) :=
  ((h.wr _ hp).wr _ hs).event hp he

/-- A base with a step ahead goes to it. -/
theorem State.nextVal_of_stepTo {s : State} {b v : Nat} (h : (s.tb b).stepTo = some v) : s.nextVal b = v := by
  rw [State.nextVal, h]

/-! ### The statement -/

/-- Settles O19: a commit that waits, one that is refused, one that is withdrawn and one that applies. -/
theorem clockCommits : Obligations.ClockCommits := by
  refine ⟨?accepted, ?refused, ?cancel, ?apply⟩
  case accepted =>
    intro req b s hw hns hat hnone hfree rel
    have hcause : commitCause b s = 0 := by
      rw [commitCause, if_neg (by omega), hnone, if_neg (by decide), if_neg hfree]
    obtain ⟨c, hc, he⟩ := exec_commit hw b rel
    rw [hcause, if_neg (not_not.2 rfl)] at he
    have hself := commitPending_tb_self b rel (commandTaken b c s)
    rw [commandTaken_commitStaged b rel hc, commandTaken_tb] at hself
    refine ⟨_, he, ?_, ?_, ?_, fun b' hb => ?_, ?_, ?_, ?_⟩
    · rw [State.wrote_tb, hself]
      rfl
    · rw [State.wrote_tb, hself]
    · rw [State.wrote_on, commitPending_pend]
    · rw [State.wrote_tb, commitPending_tb_ne _ _ hb, commandTaken_tb]
    · rw [State.wrote_clk]
      exact commitPending_clk b rel c s
    · have hkept := (commandTaken_regsKept b hc s).mono (l' := [(HC_TB_PEND.i b).addr]) (by simp)
      exact ((hkept.setTb _ _).wr _ (List.mem_cons_self ..)).wrote _ _ _
    · exact (((commandTaken_clockOnly b c s).setTb _ _).wr _ _).wrote _ _ _
  case refused =>
    intro req b cause s hw hcause hne rel
    have hcommit : commitCause b s = cause := hcause.symm
    have hlt : cause < 16 := by
      rw [hcause]
      split
      · decide
      · split
        · decide
        · split <;> decide
    obtain ⟨c, hc, he⟩ := exec_commit hw b rel
    rw [hcommit, if_pos hne] at he
    have hclk := (hcRefuse_clk b cause (commandTaken b c s)).trans (commandTaken_clk b c s)
    refine ⟨_, he, ?_, ?_, fun b' => ?_, ?_, ?_⟩
    · rw [State.wrote_rd, hcRefuse_cause b hlt]
    · rw [State.wrote_on, hcRefuse_refused]
    · rw [State.wrote_tb, State.tb_of_clk (hcRefuse_clk ..), commandTaken_tb]
    · exact (((commandTaken_regsKept b hc s).mono (by simp)).trans (hcRefuse_regsKept b cause _) (fun a ha => ha)).wrote _ _ _
    · have hframe := ((commandTaken_clockOnly b c s).trans (hcRefuse_clockOnly b cause _)).wrote req (0x4013C + b * 0x40) c
      rw [State.wrote_clk, hclk] at hframe
      exact hframe
  case cancel =>
    intro req b s hw
    have htaken : RegsKept [] s (commandTaken b 3 s) := commandTaken_regsKept b (by decide) s
    refine ⟨_, exec_hcCancel hw b, ?_, ?_, fun b' hb => ?_, ?_, ?_, ?_, ?_, ?_⟩
    · rw [State.wrote_tb, commitGone_tb_self, commandTaken_tb]
    · rw [State.wrote_on, commitGone_pend]
    · rw [State.wrote_tb, commitGone_tb_ne _ hb, commandTaken_tb]
    · rw [State.wrote_on, commitGone_on _ _ _ (by decide), htaken.on _ List.not_mem_nil]
    · rw [State.wrote_on, commitGone_on _ _ _ (by decide), htaken.on _ List.not_mem_nil]
    · rw [State.wrote_clk]
      exact commitGone_clk b 3 s
    · have hkept := htaken.mono (l' := [(HC_TB_PEND.i b).addr]) (by simp)
      exact ((hkept.setTb _ _).wr _ (List.mem_cons_self ..)).wrote _ _ _
    · exact (((commandTaken_clockOnly b 3 s).setTb _ _).wr _ _).wrote _ _ _
  case apply =>
    intro b c s hrun hc hi
    have htb (k : Nat) : (commitShown b (s.rd HC_STATUS_SET ||| 2 ^ b.val) (commitMoves b c s)).tb k = (commitMoves b c s).tb k :=
      State.tb_of_clk (commitShown_clk ..) k
    have hself : (commitMoves b c s).tb b = { s.tb b with commit := none, stepTo := some (commitValue b c s) } := s.setTb_tb_self ..
    have hnext : (commitShown b (s.rd HC_STATUS_SET ||| 2 ^ b.val) (commitMoves b c s)).nextVal b = commitValue b c s :=
      State.nextVal_of_stepTo (by rw [htb, hself])
    refine ⟨_, exec_commitApply hrun hc hi, ?_, commitShown_pend .., commitShown_done .., commitShown_set .., fun hrel => ?_,
      fun hrel => ?_, ?_, fun b' hb => ?_, State.event_pending_bit _ _ (by decide), ?_, ?_⟩
    · rw [htb, hself]
    · rw [hnext, commitValue, hrel]
      rfl
    · rw [hnext, commitValue, if_pos hrel]
    · rw [htb, hself]
    · rw [htb]
      exact s.setTb_tb_ne _ hb
    · exact commitShown_regsKept ((RegsKept.refl _ s).setTb _ _) _ _ (by simp) (by simp) (by simp)
    · have hframe : ClockOnly s (commitShown b (s.rd HC_STATUS_SET ||| 2 ^ b.val) (commitMoves b c s)) :=
        ((((ClockOnly.refl s).setTb _ _).wr _ _).wr _ _).event _ _
      have hclk := commitShown_clk b (s.rd HC_STATUS_SET ||| 2 ^ b.val) (commitMoves b c s)
      have h := hframe.events
      rw [hclk] at h ⊢
      exact h

end Sys2Proof.Machine
end

section
/-!
What the clock does of itself (R42, R47, R54, R64, R65, R66): the end of a slew, holdover, seconds and leap flags, the PPS input, IRIG
frames and the PPS output.
-/
namespace Sys2Proof.Machine

/-! ### The end of a slew (R42) and holdover (R47) -/

theorem exec_slewDone {s : State} {b : Fin 4} (h : (s.tb b).slewEnded = true) :
    exec (.slewDone b) s = .next ((s.setTb b { s.tb b with slewEnded := false }).event (HC_TB_SLEW_DONE.i b) ES_HC) := if_pos h

/-- TB_0 at its mean rate, its slew about to be cancelled. -/
def holdoverRate (s : State) : State :=
  (s.wr (HC_TB_RATE.i 0) (s.rd (HC_TB_AVG.i 0))).setTb 0 { s.tb 0 with slewNew := some 0 }

theorem exec_holdoverEntry {s : State} (hrun : s.clk.running = true) (hwd : s.rd HC_HOLD_WD_MS ≠ 0)
    (hout : s.on HC_STATUS_HOLDOVER = false) (hdue : s.clk.wdFrom + s.rd HC_HOLD_WD_MS * (1000000 * 2 ^ 40) ≤ s.clk.lapse) :
    exec .holdoverEntry s = .next (((holdoverRate s).wr HC_STATUS_HOLDOVER 1).hcEvent) := by
  have h : holdoverDue s = true := by
    have hne : (s.rd HC_HOLD_WD_MS != 0) = true := bne_iff_ne.2 hwd
    have hle : decide (s.clk.wdFrom + s.rd HC_HOLD_WD_MS * uMs ≤ s.clk.lapse) = true := decide_eq_true hdue
    simp only [holdoverDue, hrun, hne, hout, hle, Bool.not_false, Bool.and_self]
  exact if_pos h

theorem holdoverRate_rate (s : State) : (holdoverRate s).rd (HC_TB_RATE.i 0) = s.rd (HC_TB_AVG.i 0) :=
  (s.rd_wr_i_self HC_TB_RATE 0 _ (by decide)).trans (Nat.mod_eq_of_lt (bits_lt ..))

/-! ### Seconds and leap flags (R47, R54) -/

/-- The means with a completed second taken in. -/
def meansTaken (c : Clk) : List (Int × Nat) :=
  match c.secDone with
  | some m => (m :: c.means).take 64
  | none => c.means

/-- A second's start before the leap flags are looked at: the mean and AVG. -/
def secondTaken (s : State) : State :=
  if (meansTaken s.clk).isEmpty then
    { s with clk := { s.clk with means := meansTaken s.clk, secDone := none, secChange := false } }
  else
    ({ s with clk := { s.clk with means := meansTaken s.clk, secDone := none, secChange := false } } : State).wrS (HC_TB_AVG.i 0)
      (avgOf (meansTaken s.clk))

theorem exec_tb0SecondStart {s : State} (h : s.clk.secChange = true) :
    exec .tb0SecondStart s = .next (leapApply ((s.tb 0).val / uS) (secondTaken s)) := if_pos h

theorem secondTaken_clk (s : State) :
    (secondTaken s).clk = { s.clk with means := meansTaken s.clk, secDone := none, secChange := false } := by
  unfold secondTaken
  split <;> rfl

theorem secondTaken_regsKept (s : State) : RegsKept [(HC_TB_AVG.i 0).addr] s (secondTaken s) :=
  .ite (.refl _ s) ((RegsKept.refl _ s).wr _ (List.mem_cons_self ..))

/-- AVG is the rounded mean, where a second has been completed. -/
theorem secondTaken_avg (s : State) :
    (meansTaken s.clk ≠ [] → (secondTaken s).rd (HC_TB_AVG.i 0) = toBits 32 (avgOf (meansTaken s.clk))) ∧
      (meansTaken s.clk = [] → (secondTaken s).rd (HC_TB_AVG.i 0) = s.rd (HC_TB_AVG.i 0)) := by
  unfold secondTaken
  split
  · next h => exact ⟨fun hne => absurd (List.isEmpty_iff.1 h) hne, fun _ => rfl⟩
  · next h =>
    have hlt : toBits 32 (avgOf (meansTaken s.clk)) < 2 ^ 32 := by
      unfold toBits
      omega
    exact ⟨fun _ => (State.rd_wr_i_self _ HC_TB_AVG 0 _ (by decide)).trans (Nat.mod_eq_of_lt hlt),
      fun he => absurd (List.isEmpty_iff.2 he) h⟩

/-- A leap whose flag is `f` has come: the offset moves and the flag falls. -/
def leapStep (f : Fld) (ofs : Int) (t : State) : State := (t.wr HC_UTC_UTC_OFS (toBits 16 ofs)).wr f 0

theorem leapStep_ofs (f : Fld) (ofs : Int) (t : State) (hf : f.lo ≤ f.hi ∧ f.hi < 32) (h : HC_UTC_UTC_OFS.hi < f.lo) :
    (leapStep f ofs t).rd HC_UTC_UTC_OFS = toBits 16 ofs := by
  have hlt : toBits 16 ofs < 2 ^ 16 := by
    unfold toBits
    omega
  rw [leapStep, State.rd_wr_apart _ _ _ _ hf (.inr (.inr h)), State.rd_wr_self _ _ _ ⟨by decide, by decide⟩]
  exact Nat.mod_eq_of_lt hlt

theorem leapStep_on_self (f : Fld) (ofs : Int) (t : State) (hf : f.lo = f.hi ∧ f.hi < 32) : (leapStep f ofs t).on f = false :=
  State.on_wr_self _ f false hf

/-- The other flag stays. -/
theorem leapStep_on_apart (f g : Fld) (ofs : Int) (t : State) (hf : f.lo ≤ f.hi ∧ f.hi < 32) (h : f.hi < g.lo ∨ g.hi < f.lo)
    (hg : HC_UTC_UTC_OFS.hi < g.lo) : (leapStep f ofs t).on g = t.on g := by
  rw [leapStep, State.on_wr_apart _ _ _ _ hf (.inr h), State.on_wr_apart _ _ _ _ (by decide) (.inr (.inl hg))]

theorem leapStep_regsKept (f : Fld) (ofs : Int) (t : State) (hf : f.addr = HC_UTC_UTC_OFS.addr) :
    RegsKept [HC_UTC_UTC_OFS.addr] t (leapStep f ofs t) :=
  ((RegsKept.refl _ t).wr _ (List.mem_cons_self ..)).wr _ (hf ▸ List.mem_cons_self ..)

theorem leapStep_clk (f : Fld) (ofs : Int) (t : State) : (leapStep f ofs t).clk = t.clk := by
  rw [leapStep, State.wr_clk, State.wr_clk]

theorem leapStep_clockRegs (f : Fld) (ofs : Int) (t : State) : ClockRegs t (leapStep f ofs t) := ((ClockRegs.refl t).wr _ _).wr _ _

/-- The second that a positive leap inserts has passed. -/
def leap61Passed (sec : Nat) (t : State) : Prop := t.clk.leap61 = some (sec - 1) ∧ t.on HC_UTC_LEAP61 = true

/-- TB_0's second of the day in UTC (R54). -/
def utcDay (sec : Nat) (t : State) : Int := ((sec : Int) - sext 16 (t.rd HC_UTC_UTC_OFS)) % 86400

/-- The second that a negative leap leaves out has come. -/
def leap59Comes (sec : Nat) (t : State) : Prop := t.on HC_UTC_LEAP59 = true ∧ utcDay sec t = 86399

/-- The state that notes the second that is 23:59:60 UTC, where a positive leap is due and the day begins (R54). -/
def leapNoted (sec : Nat) (day : Int) (u : State) : State :=
  { u with clk := { u.clk with leap61 := if u.on HC_UTC_LEAP61 ∧ day = 0 then some sec else none } }

theorem leapNoted_clk (sec : Nat) (day : Int) (u : State) :
    (leapNoted sec day u).clk = { u.clk with leap61 := if u.on HC_UTC_LEAP61 = true ∧ day = 0 then some sec else none } := rfl

theorem leapNoted_word (sec : Nat) (day : Int) (u : State) (a : Nat) : (leapNoted sec day u).word a = u.word a := rfl

theorem leapApply_cases (sec : Nat) (t : State) :
    ∃ u, (leap61Passed sec t ∧ u = leapStep HC_UTC_LEAP61 (sext 16 (t.rd HC_UTC_UTC_OFS) + 1) t ∨ ¬ leap61Passed sec t ∧ u = t) ∧
      (leap59Comes sec t ∧ leapApply sec t =
          leapStep HC_UTC_LEAP59 (sext 16 (t.rd HC_UTC_UTC_OFS) - 1) (leapNoted sec (utcDay sec t) u) ∨
        ¬ leap59Comes sec t ∧ leapApply sec t = leapNoted sec (utcDay sec t) u) := by
  obtain ⟨u, hu⟩ : ∃ u, u = if t.clk.leap61 = some (sec - 1) ∧ t.on HC_UTC_LEAP61 then
      leapStep HC_UTC_LEAP61 (sext 16 (t.rd HC_UTC_UTC_OFS) + 1) t else t := ⟨_, rfl⟩
  have happly : leapApply sec t = if (leapNoted sec (utcDay sec t) u).on HC_UTC_LEAP59 ∧ utcDay sec t = 86399 then
      leapStep HC_UTC_LEAP59 (sext 16 (t.rd HC_UTC_UTC_OFS) - 1) (leapNoted sec (utcDay sec t) u)
      else leapNoted sec (utcDay sec t) u := by
    rw [hu]
    rfl
  have h59 : (leapNoted sec (utcDay sec t) u).on HC_UTC_LEAP59 = t.on HC_UTC_LEAP59 := by
    change u.on HC_UTC_LEAP59 = _
    rw [hu]
    exact State.ite_on (leapStep_on_apart _ _ _ _ (by decide) (by decide) (by decide)) rfl
  rw [h59] at happly
  refine ⟨u, ?_, ?_⟩
  · by_cases h : leap61Passed sec t
    · exact .inl ⟨h, hu.trans (if_pos h)⟩
    · exact .inr ⟨h, hu.trans (if_neg h)⟩
  · by_cases h : leap59Comes sec t
    · exact .inl ⟨h, happly.trans (if_pos h)⟩
    · exact .inr ⟨h, happly.trans (if_neg h)⟩

theorem leapApply_regsKept (sec : Nat) (t : State) : RegsKept [HC_UTC_UTC_OFS.addr] t (leapApply sec t) := by
  obtain ⟨u, hu, hv⟩ := leapApply_cases sec t
  have hk : RegsKept [HC_UTC_UTC_OFS.addr] t u := by
    rcases hu with ⟨-, rfl⟩ | ⟨-, rfl⟩
    · exact leapStep_regsKept _ _ _ rfl
    · exact .refl _ _
  rcases hv with ⟨-, hv⟩ | ⟨-, hv⟩ <;> rw [hv]
  · exact RegsKept.trans (t := leapNoted sec (utcDay sec t) u) hk (leapStep_regsKept _ _ _ rfl) fun _ ha => ha
  · exact hk

theorem leapApply_clockRegs (sec : Nat) (t : State) : ClockRegs t (leapApply sec t) := by
  obtain ⟨u, hu, hv⟩ := leapApply_cases sec t
  have hk : ClockRegs t (leapNoted sec (utcDay sec t) u) := by
    rcases hu with ⟨-, rfl⟩ | ⟨-, rfl⟩
    · exact (leapStep_clockRegs _ _ t).clock rfl
    · exact (ClockRegs.refl _).clock rfl
  rcases hv with ⟨-, hv⟩ | ⟨-, hv⟩ <;> rw [hv]
  · exact hk.trans (leapStep_clockRegs ..)
  · exact hk

/-- A negative leap's flag falls with it, and stays otherwise. -/
theorem leapApply_on_leap59 (sec : Nat) (t : State) :
    (leap59Comes sec t → (leapApply sec t).on HC_UTC_LEAP59 = false) ∧
      (¬ leap59Comes sec t → (leapApply sec t).on HC_UTC_LEAP59 = t.on HC_UTC_LEAP59) := by
  obtain ⟨u, hu, hv⟩ := leapApply_cases sec t
  have h59 : u.on HC_UTC_LEAP59 = t.on HC_UTC_LEAP59 := by
    rcases hu with ⟨-, rfl⟩ | ⟨-, rfl⟩
    · exact leapStep_on_apart _ _ _ _ (by decide) (by decide) (by decide)
    · rfl
  rcases hv with ⟨h, hv⟩ | ⟨h, hv⟩ <;> rw [hv]
  · exact ⟨fun _ => leapStep_on_self _ _ _ (by decide), fun hn => absurd h hn⟩
  · exact ⟨fun hc => absurd hc h, fun _ => h59⟩

/-- A positive leap's flag falls with it, and stays otherwise; it decides whether 23:59:60 begins. -/
theorem leapApply_on_leap61 (sec : Nat) (t : State) :
    (leap61Passed sec t → (leapApply sec t).on HC_UTC_LEAP61 = false) ∧
      (¬ leap61Passed sec t → (leapApply sec t).on HC_UTC_LEAP61 = t.on HC_UTC_LEAP61) ∧
      (leapApply sec t).clk = { t.clk with
        leap61 := if (leapApply sec t).on HC_UTC_LEAP61 = true ∧ utcDay sec t = 0 then some sec else none } := by
  obtain ⟨u, hu, hv⟩ := leapApply_cases sec t
  have h61 : (leapApply sec t).on HC_UTC_LEAP61 = u.on HC_UTC_LEAP61 := by
    rcases hv with ⟨-, hv⟩ | ⟨-, hv⟩ <;> rw [hv]
    · exact leapStep_on_apart _ _ _ (leapNoted sec (utcDay sec t) u) (by decide) (by decide) (by decide)
    · rfl
  have hclk : (leapApply sec t).clk = (leapNoted sec (utcDay sec t) u).clk := by
    rcases hv with ⟨-, hv⟩ | ⟨-, hv⟩ <;> rw [hv]
    exact leapStep_clk ..
  have hu61 : (leap61Passed sec t → u.on HC_UTC_LEAP61 = false) ∧
      (¬ leap61Passed sec t → u.on HC_UTC_LEAP61 = t.on HC_UTC_LEAP61) ∧ u.clk = t.clk := by
    rcases hu with ⟨h, rfl⟩ | ⟨h, rfl⟩
    · exact ⟨fun _ => leapStep_on_self _ _ _ (by decide), fun hn => absurd h hn, leapStep_clk ..⟩
    · exact ⟨fun hp => absurd hp h, fun _ => rfl, rfl⟩
  obtain ⟨hfell, hstays, huclk⟩ := hu61
  rw [h61, hclk, leapNoted_clk, huclk]
  exact ⟨hfell, hstays, rfl⟩

/-- The offset after a leap; a negative one that falls together with a positive one decides. -/
theorem leapApply_ofs (sec : Nat) (t : State) :
    (leap61Passed sec t → ¬ leap59Comes sec t →
        (leapApply sec t).rd HC_UTC_UTC_OFS = toBits 16 (sext 16 (t.rd HC_UTC_UTC_OFS) + 1)) ∧
      (leap59Comes sec t → (leapApply sec t).rd HC_UTC_UTC_OFS = toBits 16 (sext 16 (t.rd HC_UTC_UTC_OFS) - 1)) ∧
      (¬ leap61Passed sec t → ¬ leap59Comes sec t →
        (leapApply sec t).word HC_UTC_UTC_OFS.addr = t.word HC_UTC_UTC_OFS.addr) := by
  obtain ⟨u, hu, hv⟩ := leapApply_cases sec t
  rcases hv with ⟨h59, hv⟩ | ⟨h59, hv⟩ <;> rw [hv]
  · exact ⟨fun _ hn => absurd h59 hn, fun _ => leapStep_ofs _ _ _ (by decide) (by decide), fun _ hn => absurd h59 hn⟩
  · rcases hu with ⟨h61, rfl⟩ | ⟨h61, rfl⟩
    · rw [State.rd_of_word (leapNoted_word ..), leapStep_ofs _ _ t (by decide) (by decide)]
      exact ⟨fun _ _ => rfl, fun hc => absurd hc h59, fun hn => absurd h61 hn⟩
    · exact ⟨fun hp => absurd hp h61, fun hc => absurd hc h59, fun _ _ => rfl⟩

/-- AVG aside, a completed second leaves what the leap flags are judged by. -/
theorem secondTaken_leap (sec : Nat) (s : State) :
    (secondTaken s).word HC_UTC_UTC_OFS.addr = s.word HC_UTC_UTC_OFS.addr ∧ utcDay sec (secondTaken s) = utcDay sec s ∧
      (leap61Passed sec (secondTaken s) ↔ leap61Passed sec s) ∧ (leap59Comes sec (secondTaken s) ↔ leap59Comes sec s) := by
  have hk := secondTaken_regsKept s
  have hday : utcDay sec (secondTaken s) = utcDay sec s := by rw [utcDay, hk.rd _ (by decide), utcDay]
  refine ⟨hk _ (by decide), hday, ?_, ?_⟩
  · rw [leap61Passed, hk.on _ (by decide), secondTaken_clk, leap61Passed]
  · rw [leap59Comes, hk.on _ (by decide), hday, leap59Comes]

theorem secondTaken_clockRegs (s : State) : ClockRegs s (secondTaken s) := by
  unfold secondTaken
  split
  · exact (ClockRegs.refl s).clock rfl
  · exact ((ClockRegs.refl s).clock rfl).wr _ _

/-! ### Stamps of a group (R55, R67) -/

theorem loadStamp_regsKept (a x : Nat) (s : State) : RegsKept [a, a + 4, a + 8, a + 12] s (loadStamp a x s) :=
  ((((RegsKept.refl _ s).put _ (by simp)).put _ (by simp)).put _ (by simp)).put _ (by simp)

theorem RegsOnly.loadStamp {s t : State} (h : RegsOnly s t) (a x : Nat) : RegsOnly s (Machine.loadStamp a x t) :=
  (((h.put _ _).put _ _).put _ _).put _ _

theorem loadStamp_stampIs (a x : Nat) (s : State) : StampIs (loadStamp a x s) a x := by
  have hns : stampNs x < 2 ^ 32 := by
    unfold stampNs
    omega
  have hfrac : stampFrac x < 2 ^ 32 := by
    unfold stampFrac
    omega
  refine ⟨?_, ?_, ?_, ?_⟩ <;> unfold loadStamp
  · rw [State.word_put_ne _ _ (by omega), State.word_put_ne _ _ (by omega), State.word_put_ne _ _ (by omega), State.word_put_self,
      Nat.mod_mod]
  · rw [State.word_put_ne _ _ (by omega), State.word_put_ne _ _ (by omega), State.word_put_self]
    omega
  · rw [State.word_put_ne _ _ (by omega), State.word_put_self, Nat.mod_eq_of_lt hns]
  · rw [State.word_put_self, Nat.mod_eq_of_lt hfrac]

/-- A stamp outlives what touches other registers. -/
theorem StampIs.kept {s t : State} {a x : Nat} {l : List Nat} (h : StampIs s a x) (hk : RegsKept l s t)
    (hl : a ∉ l ∧ a + 4 ∉ l ∧ a + 8 ∉ l ∧ a + 12 ∉ l) : StampIs t a x := by
  obtain ⟨hsec, hhi, hns, hfrac⟩ := h
  obtain ⟨l0, l4, l8, l12⟩ := hl
  exact ⟨(hk _ l0).trans hsec, (hk _ l4).trans hhi, (hk _ l8).trans hns, (hk _ l12).trans hfrac⟩

/-! ### PPS_IN (R64) -/

theorem exec_ppsInEdge_held {s : State} {sub : Fin 65536} {heldUs : Nat} (hen : s.on HC_PPS_IN_EN = true)
    (h : s.rd HC_PPS_IN_MINW_US ≤ heldUs) :
    exec (.ppsInEdge (!s.on HC_PPS_IN_EDGE) sub heldUs) s =
      .next ((loadStamp 0x40024 (s.stampIn (s.rd HC_PPS_IN_TB) sub) s).incW HC_PPS_CNT_EDGES 1) := by
  change execPpsInEdge _ sub heldUs s = _
  rw [execPpsInEdge, if_pos ⟨hen, rfl⟩, if_pos h]

theorem exec_ppsInEdge_short {s : State} {sub : Fin 65536} {heldUs : Nat} (hen : s.on HC_PPS_IN_EN = true)
    (h : heldUs < s.rd HC_PPS_IN_MINW_US) :
    exec (.ppsInEdge (!s.on HC_PPS_IN_EDGE) sub heldUs) s = .next ((s.inc HC_PPS_CNT_REJECT).hcEvent) := by
  change execPpsInEdge _ sub heldUs s = _
  rw [execPpsInEdge, if_pos ⟨hen, rfl⟩, if_neg (Nat.not_le.2 h)]

/-- An event counted in a saturating field of the page, with the house-clock event. -/
theorem State.inc_hcEvent_leaves (s : State) (f : Fld) (hf : f.lo ≤ f.hi ∧ f.hi < 32) (h : f.addr ≠ 0x30010) :
    (s.inc f).hcEvent.rd f = min (s.rd f + 1) (2 ^ (f.hi + 1 - f.lo) - 1) ∧ bit ((s.inc f).hcEvent.word 0x30010) ES_HC = true ∧
      (∀ g : Fld, g.addr = f.addr → f.hi < g.lo ∨ g.hi < f.lo → (s.inc f).hcEvent.rd g = s.rd g) ∧
      RegsKept [f.addr, 0x30010] s (s.inc f).hcEvent ∧ (s.inc f).hcEvent = s.withEvents (s.inc f).hcEvent := by
  have hrd (g : Fld) (hg : g.addr = f.addr) : (s.inc f).hcEvent.rd g = (s.inc f).rd g :=
    State.rd_of_word (State.word_raise_ne _ _ (hg ▸ h))
  refine ⟨?_, State.raise_pending_bit _ (by decide), fun g hg hd => ?_, ?_, ((EventsOnly.refl s).inc f).raise ES_HC⟩
  · rw [hrd f rfl, State.rd_inc_self s f hf]
  · rw [hrd g hg, State.rd_inc_apart s f g hf (.inr hd)]
  · exact ((RegsKept.refl _ s).inc (List.mem_cons_self ..)).raise (by simp [ES_HC])

/-! ### IRIG-B frames (R65) -/

/-- The registers of a decoded frame: day and year, time of day, seconds of the day and control functions. -/
def irigDate (f : IrigFrame) (t : State) : State :=
  (((t.wr HC_IRIG_DATE_VALID 1).wr HC_IRIG_DATE_YEAR_PRES (b2n (decide (4 ≤ f.code.val)))).wr HC_IRIG_DATE_YEAR
    (if decide (4 ≤ f.code.val) then f.yrT * 10 + f.yrU else 0)).wr HC_IRIG_DATE_DAY (f.dayH * 100 + f.dayT * 10 + f.dayU)

def irigTod (f : IrigFrame) (t : State) : State :=
  ((t.wr HC_IRIG_TOD_HOUR (f.hrT * 10 + f.hrU)).wr HC_IRIG_TOD_MIN (f.minT * 10 + f.minU)).wr HC_IRIG_TOD_SEC (f.secT * 10 + f.secU)

def irigBits (f : IrigFrame) (t : State) : State :=
  ((t.wr HC_IRIG_SBS_SBS_PRES (b2n (decide (f.code.val ∈ [0, 3, 4, 7])))).wr HC_IRIG_SBS_SBS
    (if decide (f.code.val ∈ [0, 3, 4, 7]) then f.sbs else 0)).wr HC_IRIG_CF_CF f.cf

theorem exec_irigFrame_good {s : State} {f : IrigFrame} (hen : s.on HC_IRIG_CTRL_EN = true) (h : irigGood f = true) :
    exec (.irigFrame f) s =
      .next ((irigBits f (irigTod f (irigDate f (loadStamp 0x40044 (s.stampAgo (s.irigBase f.ago) f.ago) s)))).incW
        HC_IRIG_CNT_FRAMES 1) := by
  change execIrigFrame f s = _
  rw [execIrigFrame, if_pos hen, if_pos h]
  rfl

theorem exec_irigFrame_bad {s : State} {f : IrigFrame} (hen : s.on HC_IRIG_CTRL_EN = true) (h : irigGood f = false) :
    exec (.irigFrame f) s = .next ((s.inc HC_IRIG_CNT_ERR).hcEvent) := by
  change execIrigFrame f s = _
  rw [execIrigFrame, if_pos hen, if_neg (by rw [h]; decide)]

theorem irigDate_regsKept (f : IrigFrame) (t : State) : RegsKept [HC_IRIG_DATE_VALID.addr] t (irigDate f t) :=
  ((((RegsKept.refl _ t).wr _ (by decide)).wr _ (by decide)).wr _ (by decide)).wr _ (by decide)

theorem irigTod_regsKept (f : IrigFrame) (t : State) : RegsKept [HC_IRIG_TOD_SEC.addr] t (irigTod f t) :=
  (((RegsKept.refl _ t).wr _ (by decide)).wr _ (by decide)).wr _ (by decide)

theorem irigBits_regsKept (f : IrigFrame) (t : State) : RegsKept [HC_IRIG_SBS_SBS.addr, HC_IRIG_CF_CF.addr] t (irigBits f t) :=
  (((RegsKept.refl _ t).wr _ (by decide)).wr _ (by decide)).wr _ (by decide)

theorem RegsOnly.irigFields {s t : State} (h : RegsOnly s t) (f : IrigFrame) : RegsOnly s (irigBits f (irigTod f (irigDate f t))) := by
  have hdate : RegsOnly s (irigDate f t) := (((h.wr _ _).wr _ _).wr _ _).wr _ _
  have htod : RegsOnly s (irigTod f (irigDate f t)) := ((hdate.wr _ _).wr _ _).wr _ _
  exact ((htod.wr _ _).wr _ _).wr _ _

theorem irigDate_fields (f : IrigFrame) (t : State) :
    (irigDate f t).rd HC_IRIG_DATE_DAY = (f.dayH * 100 + f.dayT * 10 + f.dayU) % 512 ∧ (irigDate f t).on HC_IRIG_DATE_VALID = true ∧
      ((irigDate f t).on HC_IRIG_DATE_YEAR_PRES = true ↔ 4 ≤ f.code.val) ∧
      (irigDate f t).rd HC_IRIG_DATE_YEAR = (if 4 ≤ f.code.val then (f.yrT * 10 + f.yrU) % 128 else 0) := by
  have hvalid : (t.wr HC_IRIG_DATE_VALID 1).on HC_IRIG_DATE_VALID = true := t.on_wr_self _ true (by decide)
  unfold irigDate
  simp (disch := decide) only [State.on_wr_apart, State.on_wr_self, hvalid, decide_eq_true_eq]
  simp (disch := (simp only [Fld.fits, Fld.apart]; decide)) only [State.rd_wr_apart, State.rd_wr_self]
  refine ⟨rfl, trivial, trivial, ?_⟩
  split <;> rfl

theorem irigTod_fields (f : IrigFrame) (t : State) :
    (irigTod f t).rd HC_IRIG_TOD_SEC = (f.secT * 10 + f.secU) % 64 ∧ (irigTod f t).rd HC_IRIG_TOD_MIN = (f.minT * 10 + f.minU) % 64 ∧
      (irigTod f t).rd HC_IRIG_TOD_HOUR = (f.hrT * 10 + f.hrU) % 32 := by
  unfold irigTod
  simp (disch := (simp only [Fld.fits, Fld.apart]; decide)) only [State.rd_wr_apart, State.rd_wr_self]
  exact ⟨rfl, rfl, rfl⟩

theorem irigBits_fields (f : IrigFrame) (t : State) :
    ((irigBits f t).on HC_IRIG_SBS_SBS_PRES = true ↔ f.code.val ∈ [0, 3, 4, 7]) ∧
      (irigBits f t).rd HC_IRIG_SBS_SBS = (if f.code.val ∈ [0, 3, 4, 7] then f.sbs % 2 ^ 17 else 0) ∧
      (irigBits f t).rd HC_IRIG_CF_CF = f.cf % 2 ^ 27 := by
  unfold irigBits
  simp (disch := decide) only [State.on_wr_apart, State.on_wr_self, decide_eq_true_eq]
  simp (disch := (simp only [Fld.fits, Fld.apart]; decide)) only [State.rd_wr_apart, State.rd_wr_self]
  refine ⟨trivial, ?_, rfl⟩
  split <;> rfl

/-! ### PPS_OUT (R66) -/

theorem exec_ppsOutRise {s : State} {b n : Nat} (hen : s.on HC_PPS_OUT_EN = true) (hb : b = s.rd HC_PPS_OUT_TB)
    (hsec : (s.tb b).secReached = some n) (hmark : (b, n) ∉ s.clk.ppsMarked) (hlo : n * uS ≤ (s.tb b).val)
    (hhi : (s.tb b).val < n * uS + 2 * 2 ^ 40)
    (hgate : s.on HC_PPS_OUT_GATE = false ∨ (s.on HC_STATUS_HOLDOVER = false ∧ s.on HC_CTRL_TB0_LOCKED = true)) :
    exec .ppsOutRise s = .next { s with clk := { s.clk with
      ppsOut := true, ppsMarked := (b, n) :: s.clk.ppsMarked
      ppsFall := s.clk.lapse + s.rd HC_PPS_OUT_WIDTH_MS * (1000000 * 2 ^ 40) } } := by
  subst hb
  have hnew : ¬ (s.clk.ppsMarked.contains (s.rd HC_PPS_OUT_TB, n) = true) := fun h => hmark (List.contains_iff_mem.1 h)
  have hdue : ppsDue s = some n := by
    simp only [ppsDue, hsec]
    exact if_pos ⟨hen, hnew, hlo, hhi⟩
  have hopen : ¬ (s.on HC_PPS_OUT_GATE = true ∧ ¬ (s.on HC_STATUS_HOLDOVER = false ∧ s.on HC_CTRL_TB0_LOCKED = true)) := by
    rintro ⟨hg, hn⟩
    rcases hgate with h | h
    · rw [h] at hg
      cases hg
    · exact hn h
  change execPpsOutRise s = _
  simp only [execPpsOutRise, hdue]
  exact if_neg hopen

/-- A closed gate suppresses the rise, due or not. -/
theorem exec_ppsOutRise_gated {s : State} (hg : s.on HC_PPS_OUT_GATE = true)
    (h : s.on HC_STATUS_HOLDOVER = true ∨ s.on HC_CTRL_TB0_LOCKED = false) : exec .ppsOutRise s = .next s := by
  have hclosed : s.on HC_PPS_OUT_GATE = true ∧ ¬ (s.on HC_STATUS_HOLDOVER = false ∧ s.on HC_CTRL_TB0_LOCKED = true) := by
    refine ⟨hg, ?_⟩
    rintro ⟨hout, hlocked⟩
    rcases h with h | h
    · simp [h] at hout
    · simp [h] at hlocked
  change execPpsOutRise s = _
  unfold execPpsOutRise
  split
  · rfl
  · exact if_pos hclosed

theorem exec_ppsOutFall {s : State} (h : s.clk.ppsOut = true) (hfall : s.clk.ppsFall ≤ s.clk.lapse) :
    exec .ppsOutFall s = .next { s with clk := { s.clk with ppsOut := false } } := if_pos ⟨h, hfall⟩

/-! ### The statement -/

/-- Settles O20: event by event, in the order of the statement. -/
theorem clockEvents : Obligations.ClockEvents := by
  refine ⟨?slewDone, ?holdover, ?second, ?ppsIn, ?ppsShort, ?irig, ?irigBad, ?rise, ?gated, ?fall⟩
  case slewDone =>
    intro b s h
    have htb (k : Nat) := (s.setTb b { s.tb b with slewEnded := false }).event_tb (HC_TB_SLEW_DONE.i b) ES_HC k
    have hclk := (s.setTb b { s.tb b with slewEnded := false }).event_clk (HC_TB_SLEW_DONE.i b) ES_HC
    refine ⟨_, exec_slewDone h, State.on_event_i_self _ HC_TB_SLEW_DONE _ _ (by decide) (by decide), ?_, fun b' hb => ?_,
      State.event_pending_bit _ _ (by decide), ?_, ?_⟩
    · rw [htb, State.setTb_tb_self]
    · rw [htb, State.setTb_tb_ne _ _ hb]
    · exact ((RegsKept.refl _ s).setTb _ _).event (by simp) (by simp [ES_HC])
    · have hframe := (((ClockOnly.refl s).setTb b { s.tb b with slewEnded := false }).event (HC_TB_SLEW_DONE.i b) ES_HC).events
      rw [hclk] at hframe ⊢
      exact hframe
  case holdover =>
    intro s hrun hwd hout hdue
    have hclk : (((holdoverRate s).wr HC_STATUS_HOLDOVER 1).hcEvent).clk = (s.setTb 0 { s.tb 0 with slewNew := some 0 }).clk :=
      (State.raise_clk ..).trans (State.wr_clk ..)
    have hword {a : Nat} (h : a ≠ 0x30010) :
        (((holdoverRate s).wr HC_STATUS_HOLDOVER 1).hcEvent).word a = ((holdoverRate s).wr HC_STATUS_HOLDOVER 1).word a :=
      State.word_raise_ne _ _ h
    refine ⟨_, exec_holdoverEntry hrun hwd hout hdue, ?_, ?_, ?_, fun b' hb => ?_, State.raise_pending_bit _ (by decide), ?_, ?_⟩
    · rw [State.rd_of_word (hword (by decide)), State.rd_of_word (State.word_wr_ne _ _ _ (by decide)), holdoverRate_rate]
    · rw [State.on_of_word (hword (by decide))]
      exact State.on_wr_self _ _ true (by decide)
    · rw [State.tb_of_clk hclk, State.setTb_tb_self]
    · rw [State.tb_of_clk hclk, State.setTb_tb_ne _ _ hb]
    · exact ((((RegsKept.refl _ s).wr _ (by decide)).setTb _ _).wr _ (by decide)).raise (by decide)
    · have hframe : ClockOnly s (((holdoverRate s).wr HC_STATUS_HOLDOVER 1).hcEvent) :=
        ((((ClockOnly.refl s).wr _ _).setTb _ _).wr _ _).raise _
      have h := hframe.events
      rw [hclk] at h ⊢
      exact h
  case second =>
    intro sec ofs l61 l59 s hchange hsec hofs h61 h59
    subst hsec hofs
    obtain ⟨hutc, hday, hpassed, hcomes⟩ := secondTaken_leap ((s.tb 0).val / uS) s
    obtain ⟨havg, hnone⟩ := secondTaken_avg s
    obtain ⟨hfell, hstays, hclk⟩ := leapApply_on_leap61 ((s.tb 0).val / uS) (secondTaken s)
    obtain ⟨hfell59, hstays59⟩ := leapApply_on_leap59 ((s.tb 0).val / uS) (secondTaken s)
    obtain ⟨hofs61, hofs59, hofsKept⟩ := leapApply_ofs ((s.tb 0).val / uS) (secondTaken s)
    have hkept := leapApply_regsKept ((s.tb 0).val / uS) (secondTaken s)
    have hframe := ((secondTaken_clockRegs s).trans (leapApply_clockRegs ((s.tb 0).val / uS) (secondTaken s))).frame
    have hp : l61 ↔ leap61Passed ((s.tb 0).val / uS) (secondTaken s) := h61.trans hpassed.symm
    have hc : l59 ↔ leap59Comes ((s.tb 0).val / uS) (secondTaken s) := h59.trans hcomes.symm
    rw [secondTaken_clk, hday] at hclk
    rw [State.rd_of_word hutc] at hofs61 hofs59
    rw [State.on_of_word (f := HC_UTC_LEAP61) hutc] at hstays
    rw [State.on_of_word (f := HC_UTC_LEAP59) hutc] at hstays59
    have hmeans : (leapApply ((s.tb 0).val / uS) (secondTaken s)).clk.means = meansTaken s.clk := by rw [hclk]
    refine ⟨_, exec_tb0SecondStart hchange, hmeans, ?_, ?_, ?_, ?_, fun l n => ⟨?_, ?_⟩, fun l => ⟨?_, ?_⟩, fun n => ?_, fun n => ?_,
      fun n n' => ?_, ?_, ?_, ?_⟩
    · rw [hmeans, hkept.rd _ (by decide)]
      exact havg
    · rw [hmeans, hkept.rd _ (by decide)]
      exact hnone
    · rw [hclk]
    · rw [hclk]
    · exact hofs61 (hp.1 l) (mt hc.2 n)
    · exact hfell (hp.1 l)
    · exact hofs59 (hc.1 l)
    · exact hfell59 (hc.1 l)
    · exact hstays (mt hp.2 n)
    · exact hstays59 (mt hc.2 n)
    · exact (hofsKept (mt hp.2 n) (mt hc.2 n')).trans hutc
    · rw [hclk]
      rfl
    · exact ((secondTaken_regsKept s).mono (by simp)).trans hkept (by simp)
    · rw [hclk] at hframe ⊢
      exact hframe
  case ppsIn =>
    intro sub heldUs s hen hheld
    have hstamp := loadStamp_regsKept 0x40024 (s.stampIn (s.rd HC_PPS_IN_TB) sub) s
    have hedges := RegsKept.incW (.refl [HC_PPS_CNT_EDGES.addr] (loadStamp 0x40024 (s.stampIn (s.rd HC_PPS_IN_TB) sub) s))
      (f := HC_PPS_CNT_EDGES) 1 (by decide)
    refine ⟨_, exec_ppsInEdge_held hen hheld, (loadStamp_stampIs ..).kept hedges (by decide), ?_, ?_, ?_,
      ((RegsOnly.refl s).loadStamp _ _).incW _ _⟩
    · rw [State.rd_incW_self _ _ _ ⟨by decide, by decide⟩, hstamp.rd _ (by decide)]
      rfl
    · rw [State.rd_incW_apart _ _ _ _ ⟨by decide, by decide⟩ (.inr (by decide)), hstamp.rd _ (by decide)]
    · exact (hstamp.mono (by decide)).trans hedges (by decide)
  case ppsShort =>
    intro sub heldUs s hen hheld
    obtain ⟨hcount, hbit, hbeside, hkept, hframe⟩ := s.inc_hcEvent_leaves HC_PPS_CNT_REJECT (by decide) (by decide)
    exact ⟨_, exec_ppsInEdge_short hen hheld, hcount, hbit, hbeside _ rfl (by decide), hkept, hframe⟩
  case irig =>
    intro f s hen hgood
    obtain ⟨t, ht⟩ : ∃ t, t = loadStamp 0x40044 (s.stampAgo (s.irigBase f.ago) f.ago) s := ⟨_, rfl⟩
    have hstamp := loadStamp_regsKept 0x40044 (s.stampAgo (s.irigBase f.ago) f.ago) s
    have hload := loadStamp_stampIs 0x40044 (s.stampAgo (s.irigBase f.ago) f.ago) s
    have he := exec_irigFrame_good hen hgood
    rw [← ht] at he hstamp hload
    obtain ⟨hday, hvalid, hpres, hyear⟩ := irigDate_fields f t
    obtain ⟨hsec, hmin, hhour⟩ := irigTod_fields f (irigDate f t)
    obtain ⟨hsbsPres, hsbs, hcf⟩ := irigBits_fields f (irigTod f (irigDate f t))
    have hdate := irigDate_regsKept f t
    have htod := irigTod_regsKept f (irigDate f t)
    have hbits := irigBits_regsKept f (irigTod f (irigDate f t))
    have hframes := RegsKept.incW (.refl [HC_IRIG_CNT_FRAMES.addr] (irigBits f (irigTod f (irigDate f t)))) (f := HC_IRIG_CNT_FRAMES) 1
      (by decide)
    have htodOn : RegsKept [0x4005C, 0x40060, 0x40064] (irigTod f (irigDate f t)) _ :=
      (hbits.mono (by decide)).trans hframes (by decide)
    have hdateOn : RegsKept [0x40058, 0x4005C, 0x40060, 0x40064] (irigDate f t) _ := (htod.mono (by decide)).trans htodOn (by decide)
    have hstampOn : RegsKept [0x40054, 0x40058, 0x4005C, 0x40060, 0x40064] t _ := (hdate.mono (by decide)).trans hdateOn (by decide)
    refine ⟨_, he, hload.kept hstampOn (by decide), ?_, ?_, ?_, ?_, ?_, ?_, ?_, ?_, ?_, ?_, ?_, ?_, ?_⟩
    · rw [htodOn.rd _ (by decide), hsec]
    · rw [htodOn.rd _ (by decide), hmin]
    · rw [htodOn.rd _ (by decide), hhour]
    · rw [hdateOn.rd _ (by decide), hday]
    · rw [hdateOn.on _ (by decide), hvalid]
    · rw [hdateOn.on _ (by decide), hpres]
    · rw [hdateOn.rd _ (by decide), hyear]
    · rw [hframes.on _ (by decide), hsbsPres]
    · rw [hframes.rd _ (by decide), hsbs]
    · rw [hframes.rd _ (by decide), hcf]
    · rw [State.rd_incW_self _ _ _ ⟨by decide, by decide⟩, hbits.rd _ (by decide), htod.rd _ (by decide), hdate.rd _ (by decide),
        hstamp.rd _ (by decide)]
      rfl
    · exact (hstamp.mono (by decide)).trans hstampOn (by decide)
    · have hframe : RegsOnly s t := ht ▸ (RegsOnly.refl s).loadStamp _ _
      exact (hframe.irigFields f).incW _ _
  case irigBad =>
    intro f s hen hbad
    obtain ⟨hcount, hbit, hbeside, hkept, hframe⟩ := s.inc_hcEvent_leaves HC_IRIG_CNT_ERR (by decide) (by decide)
    exact ⟨_, exec_irigFrame_bad hen hbad, hcount, hbit, hbeside _ rfl (by decide), hkept, hframe⟩
  case rise =>
    intro b n s hen hb hsec hmark hlo hhi hgate
    exact exec_ppsOutRise hen hb hsec hmark hlo hhi hgate
  case gated => exact fun s hg h => exec_ppsOutRise_gated hg h
  case fall => exact fun s h hfall => exec_ppsOutFall h hfall

end Sys2Proof.Machine
end

section
/-!
The port pages' layer: fields of one page, ports beside their registers, and what touches registers, events and ports alone (R92, R103).
-/
namespace Sys2Proof.Machine

/-! ### Fields of a page -/

theorem Fld.fits.p {f : Fld} (h : f.fits) (n : Nat) : (f.p n).fits := h

/-- Registers of a page lie apart as on every page. -/
theorem Fld.addr_p_ne {f g : Fld} (n : Nat) (h : f.addr ≠ g.addr) : (f.p n).addr ≠ (g.p n).addr :=
  fun he => h (Nat.add_right_cancel he)

theorem Fld.apart_p {f g : Fld} (n : Nat) (h : f.apart g) : (f.p n).apart (g.p n) := h.imp_left (Fld.addr_p_ne n)

/-- A register before a run of pages is on none of them. -/
theorem Fld.addr_p_ne_of_lt {f : Fld} {a : Nat} (n : Nat) (h : a < f.addr) : (f.p n).addr ≠ a := by
  change f.addr + n * 0x10000 ≠ a
  omega

theorem State.rd_wr_p_self (s : State) (f : Fld) (n v : Nat) (hf : f.lo ≤ f.hi ∧ f.hi < 32) :
    (s.wr (f.p n) v).rd (f.p n) = v % 2 ^ (f.hi + 1 - f.lo) := s.rd_wr_self _ _ (Fld.fits.p hf n)

theorem State.rd_wr_p (s : State) (f g : Fld) (n v : Nat) (hf : f.lo ≤ f.hi ∧ f.hi < 32)
    (h : f.addr ≠ g.addr ∨ f.hi < g.lo ∨ g.hi < f.lo) : (s.wr (f.p n) v).rd (g.p n) = s.rd (g.p n) :=
  s.rd_wr_apart _ _ _ (Fld.fits.p hf n) (Fld.apart_p n h)

theorem State.on_wr_p (s : State) (f g : Fld) (n v : Nat) (hf : f.lo ≤ f.hi ∧ f.hi < 32)
    (h : f.addr ≠ g.addr ∨ f.hi < g.lo ∨ g.hi < f.lo) : (s.wr (f.p n) v).on (g.p n) = s.on (g.p n) := by
  rw [State.on, State.rd_wr_p s f g n v hf h, State.on]

theorem State.on_wr_p_one (s : State) (f : Fld) (n : Nat) (hf : f.lo = f.hi ∧ f.hi < 32) : (s.wr (f.p n) 1).on (f.p n) = true :=
  s.on_wr_self _ true hf

theorem State.on_wr_p_zero (s : State) (f : Fld) (n : Nat) (hf : f.lo = f.hi ∧ f.hi < 32) : (s.wr (f.p n) 0).on (f.p n) = false :=
  s.on_wr_self _ false hf

theorem State.on_of_rd {s t : State} {f : Fld} (h : t.rd f = s.rd f) : t.on f = s.on f := by
  rw [State.on, h, State.on]

/-! ### Ports beside their registers -/

theorem State.setPort_port_self (s : State) (n : Nat) (x : Port) : (s.setPort n x).port n = x := agetD_aput_self ..

theorem State.setPort_port_ne (s : State) {n k : Nat} (x : Port) (h : k ≠ n) : (s.setPort n x).port k = s.port k :=
  agetD_aput_ne _ _ _ h

theorem State.port_of_ports {s t : State} (h : t.ports = s.ports) (n : Nat) : t.port n = s.port n := by
  rw [State.port, h, State.port]

/-- Of two writes at one key the later stands. -/
theorem aput_aput {α : Type} (m : List (Nat × α)) (k : Nat) (v w : α) : aput (aput m k v) k w = aput m k w := by
  induction m with
  | nil => simp [aput]
  | cons q m ih =>
    obtain ⟨j, x⟩ := q
    rcases Nat.lt_trichotomy k j with h | rfl | h
    · simp [aput, h, h.ne]
    · simp [aput]
    · simp [aput, h.ne', h.not_gt, ih]

theorem State.setPort_setPort (s : State) (n : Nat) (x y : Port) : (s.setPort n x).setPort n y = s.setPort n y :=
  congrArg (fun m => { s with ports := { s.ports with port := m } }) (aput_aput ..)

theorem State.setPort_rd (s : State) (n : Nat) (x : Port) (f : Fld) : (s.setPort n x).rd f = s.rd f := rfl
theorem State.setPort_on (s : State) (n : Nat) (x : Port) (f : Fld) : (s.setPort n x).on f = s.on f := rfl
theorem State.wr_port (s : State) (f : Fld) (v n : Nat) : (s.wr f v).port n = s.port n := rfl

/-- Updates of ports beside their registers leave every register. -/
theorem RegsKept.setPort {l : List Nat} {s t : State} (h : RegsKept l s t) (n : Nat) (x : Port) : RegsKept l s (t.setPort n x) := h

/-! ### Port events (R102, R484) -/

/-- The port event of an external port shows in the second pending word. -/
theorem State.raise_port_bit (s : State) {n : Nat} (h : n < 32) : bit ((s.raise (ES_PT n)).word 0x30014) n = true := by
  have hd : (32 + n) / 32 = 1 := by omega
  have hm : (32 + n) % 32 = n := by omega
  have ha : 0x30010 + ES_PT n / 32 * 4 = 0x30014 := by rw [ES_PT, hd]
  rw [State.word_raise, ha, State.word_put_self, bit_eq_testBit, Nat.testBit_mod_two_pow, Nat.testBit_or, ES_PT, hm,
    Nat.testBit_two_pow_self]
  simp [h]

theorem State.raise_port_addr {n : Nat} (h : n < 32) : 0x30010 + ES_PT n / 32 * 4 = 0x30014 := by
  have hd : (32 + n) / 32 = 1 := by omega
  rw [ES_PT, hd]

/-- A port event touches its flag's register and the pending word of the ports. -/
theorem RegsKept.ptEvent {l : List Nat} {s t : State} (h : RegsKept l s t) {f : Fld} {n : Nat} (hn : n < 32) (hf : (f.p n).addr ∈ l)
    (he : 0x30014 ∈ l) : RegsKept l s (t.ptEvent f n) :=
  h.event hf (by rwa [State.raise_port_addr hn])

/-- A port event sets its flag. -/
theorem State.on_ptEvent_self (s : State) (f : Fld) {n : Nat} (hn : n < 32) (hf : f.lo = f.hi ∧ f.hi < 32) (h : 0x30014 < f.addr) :
    (s.ptEvent f n).on (f.p n) = true :=
  s.on_event_self _ _ hf (by rw [State.raise_port_addr hn]; exact Fld.addr_p_ne_of_lt n h)

theorem State.rd_ptEvent (s : State) (f g : Fld) {n : Nat} (hn : n < 32) (hf : f.lo ≤ f.hi ∧ f.hi < 32)
    (h : f.addr ≠ g.addr ∨ f.hi < g.lo ∨ g.hi < f.lo) (hg : 0x30014 < g.addr) : (s.ptEvent f n).rd (g.p n) = s.rd (g.p n) :=
  s.rd_event_apart _ _ _ (Fld.fits.p hf n) (Fld.apart_p n h) (by rw [State.raise_port_addr hn]; exact Fld.addr_p_ne_of_lt n hg)

theorem State.on_ptEvent (s : State) (f g : Fld) {n : Nat} (hn : n < 32) (hf : f.lo ≤ f.hi ∧ f.hi < 32)
    (h : f.addr ≠ g.addr ∨ f.hi < g.lo ∨ g.hi < f.lo) (hg : 0x30014 < g.addr) : (s.ptEvent f n).on (g.p n) = s.on (g.p n) :=
  State.on_of_rd (s.rd_ptEvent f g hn hf h hg)

theorem State.ptEvent_port (s : State) (f : Fld) (n k : Nat) : (s.ptEvent f n).port k = s.port k :=
  State.port_of_ports (s.event_ports (f.p n) (ES_PT n)) k

/-- A counter of a page counts up to its all-ones value (R12). -/
theorem State.rd_inc_p_self (s : State) (f : Fld) (n : Nat) (hf : f.lo ≤ f.hi ∧ f.hi < 32) :
    (s.inc (f.p n)).rd (f.p n) = min (s.rd (f.p n) + 1) (2 ^ (f.hi + 1 - f.lo) - 1) := s.rd_inc_self _ (Fld.fits.p hf n)

theorem State.rd_inc_p (s : State) (f g : Fld) (n : Nat) (hf : f.lo ≤ f.hi ∧ f.hi < 32)
    (h : f.addr ≠ g.addr ∨ f.hi < g.lo ∨ g.hi < f.lo) : (s.inc (f.p n)).rd (g.p n) = s.rd (g.p n) :=
  s.rd_inc_apart _ _ (Fld.fits.p hf n) (Fld.apart_p n h)

theorem State.on_inc_p (s : State) (f g : Fld) (n : Nat) (hf : f.lo ≤ f.hi ∧ f.hi < 32)
    (h : f.addr ≠ g.addr ∨ f.hi < g.lo ∨ g.hi < f.lo) : (s.inc (f.p n)).on (g.p n) = s.on (g.p n) :=
  State.on_of_rd (s.rd_inc_p f g n hf h)

/-! ### Updates of registers, events and ports -/

theorem State.wr_frame (s : State) (f : Fld) (v : Nat) : s.wr f v = { s with regs := (s.wr f v).regs } := rfl

/-- Nothing but registers, by no event, and the ports beside their registers has changed. -/
def PortRegs (s t : State) : Prop := t = { s with regs := t.regs, ports := t.ports }

section
variable {s t u : State}

theorem PortRegs.refl (s : State) : PortRegs s s := rfl

theorem PortRegs.trans (h : PortRegs s t) (h' : PortRegs t u) : PortRegs s u := by
  unfold PortRegs at h h'
  rw [h', h]
  rfl

theorem PortRegs.wr (h : PortRegs s t) (f : Fld) (v : Nat) : PortRegs s (t.wr f v) := h.trans rfl
theorem PortRegs.setPort (h : PortRegs s t) (n : Nat) (x : Port) : PortRegs s (t.setPort n x) := h.trans rfl

theorem PortRegs.ite {c : Prop} [Decidable c] (h : PortRegs s t) (h' : PortRegs s u) : PortRegs s (if c then t else u) := by
  split
  · exact h
  · exact h'

end

/-- Nothing but registers, the event delivery and the ports beside their registers has changed. -/
def PortEvents (s t : State) : Prop := t = { s.withEvents t with ports := t.ports }

section
variable {s t u : State}

theorem PortEvents.refl (s : State) : PortEvents s s := rfl

theorem PortEvents.trans (h : PortEvents s t) (h' : PortEvents t u) : PortEvents s u := by
  unfold PortEvents at h h'
  rw [h', h]
  rfl

theorem PortEvents.wr (h : PortEvents s t) (f : Fld) (v : Nat) : PortEvents s (t.wr f v) := h.trans rfl
theorem PortEvents.setPort (h : PortEvents s t) (n : Nat) (x : Port) : PortEvents s (t.setPort n x) := h.trans rfl
theorem PortEvents.inc (h : PortEvents s t) (f : Fld) : PortEvents s (t.inc f) := h.trans rfl

theorem PortEvents.raise (h : PortEvents s t) (es : Nat) : PortEvents s (t.raise es) := by
  refine h.trans ?_
  unfold State.raise State.makeDue PortEvents
  split <;> rfl

theorem PortEvents.event (h : PortEvents s t) (f : Fld) (es : Nat) : PortEvents s (t.event f es) :=
  (h.trans (u := t.flag f) rfl).raise es

theorem EventsOnly.event (h : EventsOnly s t) (f : Fld) (es : Nat) : EventsOnly s (t.event f es) := (h.flag f).raise es

end

/-! ### What works -/

theorem whileOn_runs {d : Nat} {s : State} {o : Host.Outcome State Fault Refusal} (h : s.runs d = true) : whileOn d s o = o := if_pos h

end Sys2Proof.Machine
end


section
/-!
Pause and the verify handshake of a port (R82, R90, R91), and the statement on them.
-/
namespace Sys2Proof.Machine

variable {s : State} {p : Fin 19}

/-! ### PAUSE (R90, R91) -/

/-- A port in pause for `q` quanta of a PAUSE frame that takes effect now, while those of `rest` still wait. -/
def Port.pausedFor (x : Port) (s : State) (n q : Nat) (rest : List (Nat × Nat)) : Port :=
  let going := s.on (PT_STATUS_PAUSED.p n) && decide (s.clk.lapse < x.pauseTo)
  { x with
    pauseReqs := rest, pauseTo := s.clk.lapse + quanta q (s.rate n)
    pauseFrom := if going then x.pauseFrom else s.clk.lapse + s.incNow s.gov, pauseRenewed := going }

theorem exec_pauseFrameRx {c q : Nat} {rest : List (Nat × Nat)} (hrun : s.runs (portDomain p) = true)
    (hreq : (s.port p).pauseReqs = (c, q) :: rest) (hc : c ≤ s.cyc) (hen : s.on (PT_PAUSE_RX_EN.p p) = true)
    (hok : s.on (PT_STATUS_PAUSE_BROKEN.p p) = false) :
    exec (.pauseFrameRx p) s = .next (if q = 0 then
        (s.setPort p { s.port p with pauseReqs := rest }).wr (PT_STATUS_PAUSED.p p) 0
      else (s.setPort p ((s.port p).pausedFor s p q rest)).wr (PT_STATUS_PAUSED.p p) 1) := by
  change execPauseFrameRx p s = _
  unfold execPauseFrameRx
  rw [whileOn_runs hrun]
  simp only [hreq]
  rw [if_neg (Nat.not_lt.2 hc), if_neg (by rw [State.setPort_on, State.setPort_on, hen, hok]; simp)]
  split
  · rfl
  · rw [State.setPort_port_self, State.setPort_setPort]
    rfl

theorem exec_pauseEnd (hrun : s.runs (portDomain p) = true) (hon : s.on (PT_STATUS_PAUSED.p p) = true)
    (hto : (s.port p).pauseTo ≤ s.clk.lapse) : exec (.pauseEnd p) s = .next (s.wr (PT_STATUS_PAUSED.p p) 0) :=
  (whileOn_runs hrun).trans (if_pos ⟨hon, hto⟩)

theorem exec_pauseWatchdog (hrun : s.runs (portDomain p) = true) (hon : s.on (PT_STATUS_PAUSED.p p) = true)
    (hren : (s.port p).pauseRenewed = true) (hto : (s.port p).pauseFrom + s.rd (PT_PAUSE_WD_US.p p) * uUs ≤ (s.port p).pauseTo)
    (hnow : (s.port p).pauseFrom + s.rd (PT_PAUSE_WD_US.p p) * uUs ≤ s.clk.lapse) :
    exec (.pauseWatchdog p) s =
      .next (((((s.setPort p { s.port p with pauseTo := min (s.port p).pauseTo s.clk.lapse }).wr (PT_STATUS_PAUSED.p p) 0).wr
        (PT_STATUS_PAUSE_BROKEN.p p) 1).inc (PT_C_PAUSE_WD.p p)).ptEvent PT_EVENT_PAUSE_WD p) :=
  (whileOn_runs hrun).trans (if_pos ⟨hon, hren, hto, hnow⟩)

/-- What a broken pause leaves (R91). -/
theorem brokenPause_leaves (x : Port) {t : State}
    (ht : t = ((((s.setPort p x).wr (PT_STATUS_PAUSED.p p) 0).wr (PT_STATUS_PAUSE_BROKEN.p p) 1).inc (PT_C_PAUSE_WD.p p)).ptEvent
      PT_EVENT_PAUSE_WD p) :
    t.on (PT_STATUS_PAUSED.p p) = false ∧ t.on (PT_STATUS_PAUSE_BROKEN.p p) = true ∧
      t.rd (PT_C_PAUSE_WD.p p) = min (s.rd (PT_C_PAUSE_WD.p p) + 1) (2 ^ PT_C_PAUSE_WD.width - 1) ∧
      t.on (PT_EVENT_PAUSE_WD.p p) = true ∧
      RegsKept [(PT_STATUS_PAUSED.p p).addr, (PT_C_PAUSE_WD.p p).addr, (PT_EVENT_PAUSE_WD.p p).addr, 0x30014] s t ∧
      PortEvents s t := by
  have hp : p.val < 32 := by omega
  subst ht
  refine ⟨?_, ?_, ?_, ?_, ?_, ?_⟩
  · rw [State.on_ptEvent _ _ _ hp (by decide) (by decide) (by decide), State.on_inc_p _ _ _ _ (by decide) (by decide),
      State.on_wr_p _ _ _ _ _ (by decide) (by decide), State.on_wr_p_zero _ _ _ (by decide)]
  · rw [State.on_ptEvent _ _ _ hp (by decide) (by decide) (by decide), State.on_inc_p _ _ _ _ (by decide) (by decide),
      State.on_wr_p_one _ _ _ (by decide)]
  · rw [State.rd_ptEvent _ _ _ hp (by decide) (by decide) (by decide), State.rd_inc_p_self _ _ _ (by decide),
      State.rd_wr_p _ _ _ _ _ (by decide) (by decide), State.rd_wr_p _ _ _ _ _ (by decide) (by decide), State.setPort_rd]
    rfl
  · exact State.on_ptEvent_self _ _ hp (by decide) (by decide)
  · exact (((((RegsKept.refl _ s).setPort _ _).wr (f := PT_STATUS_PAUSED.p p) _ (.head _)).wr (f := PT_STATUS_PAUSE_BROKEN.p p) _
      (.head _)).inc (f := PT_C_PAUSE_WD.p p) (by simp)).ptEvent (f := PT_EVENT_PAUSE_WD) hp (by simp) (by simp)
  · exact ((((((PortEvents.refl s).setPort _ _).wr _ _).wr _ _).inc _).event _ _)

/-! ### The verify handshake (R82) -/

theorem exec_verifyMpacketSend_first (hrun : s.runs (portDomain p) = true) (hup : s.link p = 2)
    (hv : s.rd (PT_STATUS_VERIFY.p p) = 2) (h0 : (s.port p).verifySent = 0) (hfree : s.macFree p = true)
    (hpause : s.pausedNow p = false) :
    exec (.verifyMpacketSend p) s = .next (s.setPort p { s.port p with verifySent := 1, verifyAt := s.clk.lapse }) := by
  have hdue : (if (s.port p).verifySent = 0 then s.macFree p && !s.pausedNow p
      else decide ((s.port p).verifySent < 3) && decide ((s.port p).verifyAt + s.rd (PT_PREEMPT_VERIFY_MS.p p) * uMs ≤ s.clk.lapse)) =
      true := by
    rw [if_pos h0, hfree, hpause]
    rfl
  change execVerifyMpacketSend p s = _
  unfold execVerifyMpacketSend
  rw [whileOn_runs hrun]
  dsimp only
  rw [if_pos ⟨hup, hv, hdue⟩, h0]

theorem exec_verifyMpacketSend_next (hrun : s.runs (portDomain p) = true) (hup : s.link p = 2)
    (hv : s.rd (PT_STATUS_VERIFY.p p) = 2) (hs : (s.port p).verifySent = 1 ∨ (s.port p).verifySent = 2)
    (hat : (s.port p).verifyAt + s.rd (PT_PREEMPT_VERIFY_MS.p p) * uMs ≤ s.clk.lapse) :
    exec (.verifyMpacketSend p) s =
      .next (s.setPort p { s.port p with verifySent := (s.port p).verifySent + 1, verifyAt := s.clk.lapse }) := by
  have hdue : (if (s.port p).verifySent = 0 then s.macFree p && !s.pausedNow p
      else decide ((s.port p).verifySent < 3) && decide ((s.port p).verifyAt + s.rd (PT_PREEMPT_VERIFY_MS.p p) * uMs ≤ s.clk.lapse)) =
      true := by
    rw [if_neg (by omega), decide_eq_true (by omega), decide_eq_true hat]
    rfl
  exact (whileOn_runs hrun).trans (if_pos ⟨hup, hv, hdue⟩)

/-- The release of a respond mPacket ends the handshake (R82). -/
theorem respCycle_succeeds {c : Nat} (hresp : (s.port p).respAt = some c) (hc : c ≤ s.cyc) (hup : s.link p = 2)
    (hv : s.rd (PT_STATUS_VERIFY.p p) = 2) :
    s.respCycle p =
      ((s.setPort p { s.port p with respAt := none }).wr (PT_STATUS_VERIFY.p p) 3).wr (PT_STATUS_PREEMPT_ACTIVE.p p) 1 := by
  unfold State.respCycle
  rw [hresp]
  exact (if_neg (Nat.not_lt.2 hc)).trans (if_pos ⟨hup, hv⟩)

theorem exec_verifyFail (hrun : s.runs (portDomain p) = true) (hv : s.rd (PT_STATUS_VERIFY.p p) = 2) (hs : (s.port p).verifySent = 3)
    (hat : (s.port p).verifyAt + s.rd (PT_PREEMPT_VERIFY_MS.p p) * uMs ≤ s.clk.lapse) :
    exec (.verifyFail p) s =
      .next (((s.wr (PT_STATUS_VERIFY.p p) 4).inc (PT_C_VERIFY_FAIL.p p)).ptEvent PT_EVENT_VERIFY_FAIL p) :=
  (whileOn_runs hrun).trans (if_pos ⟨hv, hs, hat⟩)

/-- Settles O23: row by row, in the order of the statement. -/
theorem pauseAndVerify : Obligations.PauseAndVerify := by
  intro p s hrun
  have hp : p.val < 32 := by omega
  refine ⟨?pause, ?resume, ?stop, ?watchdog, ?first, ?again, ?respond, ?succeeded, ?answer, ?fail⟩
  case pause =>
    intro c q rest hreq hc hq hen hok
    have he := exec_pauseFrameRx hrun hreq hc hen hok
    rw [if_neg hq] at he
    refine ⟨_, he, ?_, ?_, ?_, ?_, ?_, ?_, ?_⟩
    · exact State.on_wr_p_one _ _ _ (by decide)
    · rw [State.wr_port, State.setPort_port_self]
      rfl
    · rw [State.wr_port, State.setPort_port_self]
      rfl
    · rw [State.wr_port, State.setPort_port_self]
      rfl
    · exact fun k hk => (State.wr_port ..).trans (State.setPort_port_ne s _ hk)
    · exact ((RegsKept.refl _ s).setPort _ _).wr (f := PT_STATUS_PAUSED.p p) _ (.head _)
    · exact ((PortRegs.refl s).setPort _ _).wr _ _
  case resume =>
    intro c rest hreq hc hen hok
    have he := exec_pauseFrameRx hrun hreq hc hen hok
    rw [if_pos rfl] at he
    exact ⟨_, he, State.on_wr_p_zero _ _ _ (by decide),
      (State.wr_port ..).trans (State.setPort_port_self ..), ((RegsKept.refl _ s).setPort _ _).wr (f := PT_STATUS_PAUSED.p p) _ (.head _),
      ((PortRegs.refl s).setPort _ _).wr _ _⟩
  case stop =>
    intro hon hto
    exact ⟨_, exec_pauseEnd hrun hon hto, State.on_wr_p_zero _ _ _ (by decide), (RegsKept.refl _ s).wr _ (.head _),
      State.wr_frame ..⟩
  case watchdog =>
    intro hon hren hto hnow
    exact ⟨_, exec_pauseWatchdog hrun hon hren hto hnow, brokenPause_leaves _ rfl⟩
  case first => exact exec_verifyMpacketSend_first hrun
  case again => exact exec_verifyMpacketSend_next hrun
  case respond => exact fun sub hup hv => (whileOn_runs hrun).trans (if_pos ⟨hup, hv⟩)
  case succeeded =>
    intro c hresp hc hup hv
    rw [respCycle_succeeds hresp hc hup hv]
    refine ⟨?_, State.on_wr_p_one _ _ _ (by decide), ?_,
      (((RegsKept.refl _ s).setPort _ _).wr (f := PT_STATUS_VERIFY.p p) _ (.head _)).wr (f := PT_STATUS_PREEMPT_ACTIVE.p p) _ (.head _)⟩
    · rw [State.rd_wr_p _ _ _ _ _ (by decide) (by decide), State.rd_wr_p_self _ _ _ _ (by decide)]
      rfl
    · rw [State.wr_port, State.wr_port, State.setPort_port_self]
  case answer => exact fun hup hen => (whileOn_runs hrun).trans (if_pos ⟨hup, hen⟩)
  case fail =>
    intro hv hs hat
    refine ⟨_, exec_verifyFail hrun hv hs hat, ?_, State.on_ptEvent_self _ _ hp (by decide) (by decide), ?_, ?_, ?_⟩
    · rw [State.rd_ptEvent _ _ _ hp (by decide) (by decide) (by decide), State.rd_inc_p _ _ _ _ (by decide) (by decide),
        State.rd_wr_p_self _ _ _ _ (by decide)]
      rfl
    · rw [State.rd_ptEvent _ _ _ hp (by decide) (by decide) (by decide), State.rd_inc_p_self _ _ _ (by decide),
        State.rd_wr_p _ _ _ _ _ (by decide) (by decide)]
      rfl
    · exact (((RegsKept.refl _ s).wr (f := PT_STATUS_VERIFY.p p) _ (.head _)).inc (f := PT_C_VERIFY_FAIL.p p) (by simp)).ptEvent
        (f := PT_EVENT_VERIFY_FAIL) hp (by simp) (by simp)
    · exact (((EventsOnly.refl s).wr _ _).inc _).event _ _

end Sys2Proof.Machine
end

section
/-!
What the Hall's work leaves of the ports: a copy that ends, a queue that is examined or flushed, a transmission or a reception that is lost
(R93, R116, R120, R124–R128), and the states of a link (R82, R92).
-/
namespace Sys2Proof.Machine

/-! ### Registers of the port pages and the timers of a link -/

/-- A register of a port page at an offset below `k`. -/
def portReg (k a : Nat) : Prop := 0x100000 ≤ a ∧ a < 0x300000 ∧ a % 0x10000 < k

/-- What a port keeps of its link beside its registers: its times and its frames in reception (R89, R92, R93, R126). -/
def Port.timers (x : Port) : Option Nat × Option Nat × Option Nat × Bool × Bool × Option Nat × List RxOpen :=
  (x.upFrom, x.wakeBy, x.graceTo, x.graceEnd, x.graceOver, x.retAt, x.rxOpen)

section
variable {x y : Port} (h : x.timers = y.timers)
include h

theorem Port.upFrom_eq : x.upFrom = y.upFrom := congrArg (fun t => t.1) h
theorem Port.wakeBy_eq : x.wakeBy = y.wakeBy := congrArg (fun t => t.2.1) h
theorem Port.graceTo_eq : x.graceTo = y.graceTo := congrArg (fun t => t.2.2.1) h
theorem Port.graceOver_eq : x.graceOver = y.graceOver := congrArg (fun t => t.2.2.2.2.1) h
theorem Port.rxOpen_eq : x.rxOpen = y.rxOpen := congrArg (fun t => t.2.2.2.2.2.2) h

end

/-- The port pages below offset `k` read as before, and the links' timers are as before. -/
structure LinkKept (k : Nat) (s t : State) : Prop where
  word : ∀ a, portReg k a → t.word a = s.word a
  timers : ∀ n, (t.port n).timers = (s.port n).timers

theorem Fld.le_addr_i {f : Fld} {a : Nat} (h : a ≤ f.addr) (n : Nat) : a ≤ (f.i n).addr := h.trans (Nat.le_add_right ..)
theorem Fld.le_addr_p {f : Fld} {a : Nat} (h : a ≤ f.addr) (n : Nat) : a ≤ (f.p n).addr := h.trans (Nat.le_add_right ..)

section
variable {k : Nat} {s t u : State}

theorem LinkKept.refl (k : Nat) (s : State) : LinkKept k s s := ⟨fun _ _ => rfl, fun _ => rfl⟩

theorem LinkKept.trans (h : LinkKept k s t) (h' : LinkKept k t u) : LinkKept k s u :=
  ⟨fun a ha => (h'.word a ha).trans (h.word a ha), fun n => (h'.timers n).trans (h.timers n)⟩

theorem LinkKept.ite {c : Prop} [Decidable c] (h : LinkKept k s t) (h' : LinkKept k s u) : LinkKept k s (if c then t else u) := by
  split
  · exact h
  · exact h'

theorem LinkKept.foldl {α : Type} (g : State → α → State) (l : List α) (h : LinkKept k s t) (hg : ∀ u x, LinkKept k u (g u x)) :
    LinkKept k s (l.foldl g t) :=
  List.foldlRecOn l g (motive := LinkKept k s) h fun u hu x _ => hu.trans (hg u x)

/-- An update of other parts of the state. -/
theorem LinkKept.other (h : LinkKept k s t) (hr : u.regs = t.regs) (hp : u.ports = t.ports) : LinkKept k s u :=
  h.trans ⟨fun a _ => by rw [State.word, hr, State.word], fun n => by rw [State.port_of_ports hp]⟩

theorem LinkKept.setFrame (h : LinkKept k s t) (i : Nat) (f : Frame) : LinkKept k s (t.setFrame i f) := h.other rfl rfl
theorem LinkKept.setQueue (h : LinkKept k s t) (n c : Nat) (l : List Nat) : LinkKept k s (t.setQueue n c l) := h.other rfl rfl
theorem LinkKept.setArch (h : LinkKept k s t) (a : Arch) : LinkKept k s { t with arch := a } := h.other rfl rfl

theorem LinkKept.put (h : LinkKept k s t) {a : Nat} (v : Nat) (ha : ¬ portReg k a) : LinkKept k s (t.put a v) :=
  h.trans ⟨fun _ hb => State.word_put_ne _ _ fun e => ha (e ▸ hb), fun _ => rfl⟩

theorem LinkKept.wr (h : LinkKept k s t) {f : Fld} (v : Nat) (hf : ¬ portReg k f.addr) : LinkKept k s (t.wr f v) := h.put _ hf

theorem LinkKept.inc (h : LinkKept k s t) {f : Fld} (hf : ¬ portReg k f.addr) : LinkKept k s (t.inc f) :=
  (h.wr (satAdd f.width (t.rd f) 1) hf).other rfl rfl

theorem LinkKept.flag (h : LinkKept k s t) {f : Fld} (hf : ¬ portReg k f.addr) : LinkKept k s (t.flag f) :=
  (h.wr (2 ^ f.width - 1) hf).other rfl rfl

theorem not_portReg_of_le {a : Nat} (h : 0x300000 ≤ a) : ¬ portReg k a := fun ⟨_, h2, _⟩ => absurd h (Nat.not_le.2 h2)

theorem LinkKept.raise (h : LinkKept k s t) {es : Nat} (he : es < 256) : LinkKept k s (t.raise es) := by
  refine h.trans ⟨fun a ⟨h1, _, _⟩ => State.word_raise_ne _ _ (by omega), fun n => ?_⟩
  rw [State.port_of_ports (State.raise_ports ..)]

theorem LinkKept.event (h : LinkKept k s t) {f : Fld} {es : Nat} (hf : ¬ portReg k f.addr) (he : es < 256) :
    LinkKept k s (t.event f es) := (h.flag hf).raise he

theorem LinkKept.setPort (h : LinkKept k s t) {n : Nat} {x : Port} (hx : x.timers = (t.port n).timers) :
    LinkKept k s (t.setPort n x) := by
  refine h.trans ⟨fun _ _ => rfl, fun m => ?_⟩
  by_cases hm : m = n
  · rw [hm, State.setPort_port_self, hx]
  · rw [State.setPort_port_ne _ _ hm]

/-! ### The Hall's work (R93, R116, R120, R124–R128) -/

theorem LinkKept.dropGrant (h : LinkKept k s t) (i n : Nat) : LinkKept k s (t.dropGrant i n) := .ite (h.setPort rfl) h

theorem LinkKept.qSub (h : LinkKept k s t) (n c x : Nat) : LinkKept k s (t.qSub n c x) :=
  h.wr _ (not_portReg_of_le (Fld.le_addr_i (by decide) _))

theorem LinkKept.retire (h : LinkKept k s t) (i : Nat) : LinkKept k s (t.retire i) := by
  unfold State.retire
  split
  · exact h
  · next f _ =>
    have hfree := h.wr (f := HL_STATUS_FREE) (t.freeCells + f.cells) (not_portReg_of_le (by decide))
    refine .ite ?_ h
    split
    · next v _ =>
      have hheld := hfree.wr (f := VI_HELD_HELD.p v)
        ((t.wr HL_STATUS_FREE (t.freeCells + f.cells)).rd (VI_HELD_HELD.p v) - f.cells) (not_portReg_of_le (Fld.le_addr_p (by decide) v))
      exact .ite (hheld.other rfl rfl) (hheld.other rfl rfl)
    · exact .ite (hfree.other rfl rfl) (hfree.other rfl rfl)

theorem LinkKept.endCopy (h : LinkKept k s t) (i n c : Nat) : LinkKept k s (t.endCopy i n c) := by
  unfold State.endCopy
  split
  · exact h
  · next f _ =>
    exact ((((h.setQueue n c _).qSub n c f.cells).dropGrant i n).setFrame i _).retire i

theorem LinkKept.flushPort (h : LinkKept k s t) (n : Nat) : LinkKept k s (t.flushPort n) := by
  have hstep (u : State) (p : Nat × Nat) : LinkKept k u ((u.endCopy p.1 n p.2).inc (HL_P_FLUSH.i n)) :=
    ((LinkKept.refl k u).endCopy p.1 n p.2).inc (not_portReg_of_le (Fld.le_addr_i (by decide) n))
  have hgrants {u : State} (hu : LinkKept k s u) : LinkKept k s (u.setPort n { u.port n with grants := [] }) := hu.setPort rfl
  exact .ite (hgrants (.foldl _ _ h hstep)) ((hgrants (.foldl _ _ h hstep)).event (not_portReg_of_le (by decide)) (by decide))

theorem LinkKept.dropStale (h : LinkKept k s t) (i n c : Nat) : LinkKept k s (t.dropStale i n c) :=
  (h.endCopy i n c).inc (not_portReg_of_le (by decide))

theorem LinkKept.dropAged (h : LinkKept k s t) (i n c : Nat) : LinkKept k s (t.dropAged i n c) :=
  ((h.endCopy i n c).inc (not_portReg_of_le (Fld.le_addr_i (by decide) n))).event (not_portReg_of_le (by decide)) (by decide)

theorem LinkKept.examineQueue (h : LinkKept k s t) (n c fuel : Nat) : LinkKept k s (Machine.examineQueue n c fuel t) := by
  induction fuel generalizing t with
  | zero => exact h
  | succ fuel ih =>
    unfold Machine.examineQueue
    split
    · exact h
    · next i _ =>
      split
      · exact ih (h.other rfl rfl)
      · exact .ite (ih (h.dropStale i n c)) (.ite (ih (h.dropAged i n c)) h)

theorem LinkKept.examinePort (h : LinkKept k s t) (n : Nat) : LinkKept k s (t.examinePort n) :=
  .foldl _ _ h fun u c => (LinkKept.refl k u).examineQueue n c _

/-- The loss of a frame in transmission, as `abortTx` counts it. -/
def State.loseCopy (t : State) (n cyc : Nat) (i : Option Nat) (busy c : Nat) : State :=
  match i with
  | none => t
  | some i => if cyc < busy then (t.endCopy i n c).inc (HL_P_TX_ABORT.i n) else t.endCopy i n c

theorem State.abortTx_eq (s : State) (n : Nat) :
    s.abortTx n =
      let t := (s.loseCopy n s.cyc (s.port n).txFrame (s.port n).macBusy (s.port n).txCopy.1).loseCopy n s.cyc (s.port n).expFrame
        (s.port n).expBusy (s.port n).txCopy.2
      t.setPort n { t.port n with txFrame := none, expFrame := none, macBusy := s.cyc, expBusy := s.cyc } := rfl

theorem LinkKept.loseCopy (h : LinkKept k s t) (n cyc : Nat) (i : Option Nat) (busy c : Nat) :
    LinkKept k s (t.loseCopy n cyc i busy c) := by
  unfold State.loseCopy
  split
  · exact h
  · exact .ite ((h.endCopy _ n c).inc (not_portReg_of_le (Fld.le_addr_i (by decide) n))) (h.endCopy _ n c)

theorem LinkKept.abortTx (h : LinkKept k s t) (n : Nat) : LinkKept k s (t.abortTx n) := by
  rw [State.abortTx_eq]
  exact ((h.loseCopy ..).loseCopy ..).setPort rfl

end

/-! ### Receptions that are lost (R93) -/

section
variable {s t : State}

/-- Registers of a page at offset 0x14 and behind it. -/
theorem not_portReg_p {f : Fld} (n : Nat) (h : f.addr % 0x10000 ≥ 0x14) : ¬ portReg 0x14 (f.p n).addr := by
  rintro ⟨-, -, h3⟩
  have hm : (f.addr + n * 0x10000) % 0x10000 = f.addr % 0x10000 := Nat.add_mul_mod_self_right ..
  exact absurd (hm ▸ h3 : f.addr % 0x10000 < 0x14) (Nat.not_lt.2 h)

theorem LinkKept.loseReception (h : LinkKept 0x14 s t) (i got : Nat) : LinkKept 0x14 s (t.loseReception i got) := by
  unfold State.loseReception
  split
  · exact h
  · next f _ =>
    have hb : LinkKept 0x14 s (t.setFrame i { f with bad := 3, looked := true, complete := true }) := h.other rfl rfl
    refine .ite h (.ite (.ite (hb.retire i) ?_) (h.other rfl rfl))
    exact .foldl _ _ hb fun u p => (LinkKept.refl _ u).endCopy i p.1 p.2

theorem rxCounters_addr {n j : Nat} {f : Fld} (h : (rxCounters n)[j]? = some f) : ¬ portReg 0x14 f.addr := by
  obtain ⟨g, hg, rfl⟩ := List.mem_map.1 (List.mem_of_getElem? h)
  have hl : ∀ g ∈ [PT_C_OVERSIZE, PT_C_RUNT, PT_C_FCS_ERR, PT_C_REASM_ERR, PT_C_MACCTL, PT_C_PAUSE_RX, PT_C_DORMANT_DROP,
    PT_C_WAKE_HIT], g.addr % 0x10000 ≥ 0x14 := by decide
  exact not_portReg_p n (hl g hg)

theorem LinkKept.unmatch (h : LinkKept 0x14 s t) (n : Nat) (o : RxOpen) : LinkKept 0x14 s (Machine.unmatch n o t) := by
  have hw : LinkKept 0x14 s (if o.wakeFlag then t.wr (PT_EVENT_WAKE.p n) 0 else t) :=
    .ite (h.wr _ (not_portReg_p n (by decide))) h
  unfold Machine.unmatch
  dsimp only
  split
  · exact (hw.setArch _).endCopy _ _ _
  · exact hw.setArch _

theorem LinkKept.uncountRx (h : LinkKept 0x14 s t) (n : Nat) (o : RxOpen) : LinkKept 0x14 s (Machine.uncountRx n o t) :=
  ((h.wr (f := PT_C_RX_OCT_LO.p n) _ (not_portReg_p n (by decide))).wr (f := PT_C_RX_OCT_HI.p n) _ (not_portReg_p n (by decide))).wr
    (f := PT_C_RX_FRAMES.p n) _ (not_portReg_p n (by decide))

theorem LinkKept.dropOpen (h : LinkKept 0x14 s t) (n : Nat) (o : RxOpen) : LinkKept 0x14 s (Machine.dropOpen n o t) := by
  have h1 : LinkKept 0x14 s (if o.good then Machine.uncountRx n o t else t) := .ite (h.uncountRx n o) h
  have h2 := LinkKept.foldl (fun (t : State) k => ((rxCounters n)[k]?.map (fun f => t.dec f 1)).getD t) o.took h1 fun u k => by
    cases hk : (rxCounters n)[k]? with
    | none => exact .refl _ u
    | some f => exact (LinkKept.refl _ u).wr _ (rxCounters_addr hk)
  unfold Machine.dropOpen
  dsimp only
  refine LinkKept.inc ?_ (not_portReg_p n (by decide))
  have h4 {u : State} (hu : LinkKept 0x14 s u) : LinkKept 0x14 s (match o.pause with
      | some c => u.setPort n { u.port n with pauseReqs := (u.port n).pauseReqs.filter (fun q => q.1 != c) }
      | none => u) := by
    split
    · exact hu.setPort rfl
    · exact hu
  split
  · exact LinkKept.loseReception (LinkKept.unmatch (h4 (LinkKept.wr h2 _ (not_portReg_p n (by decide)))) n o) _ _
  · exact LinkKept.unmatch (h4 (LinkKept.wr h2 _ (not_portReg_p n (by decide)))) n o

theorem LinkKept.dropAll (s : State) (n : Nat) (l : List RxOpen) :
    LinkKept 0x14 s (l.foldl (fun (t : State) o => Machine.dropOpen n o t) s) :=
  .foldl _ _ (.refl _ s) fun u o => (LinkKept.refl _ u).dropOpen n o

/-- The loss of a port's reception leaves the registers of the link. -/
theorem State.cutReception_word (s : State) (n : Nat) {a : Nat} (ha : portReg 0x14 a) : (s.cutReception n).word a = s.word a :=
  (LinkKept.dropAll s n _).word a ha

theorem State.cutReception_timers (s : State) (n : Nat) :
    ((s.cutReception n).port n).timers = { (s.port n) with rxOpen := [] }.timers := by
  have h := (LinkKept.dropAll s n ((s.port n).rxOpen.filter (fun o => decide (s.cyc < o.till)))).timers n
  unfold State.cutReception
  dsimp only
  rw [State.setPort_port_self]
  simp only [Port.timers, Prod.mk.injEq] at h ⊢
  simp only [h, and_self]

end

/-! ### Reading a port page through what keeps it -/

section
variable {k n : Nat} {s t : State}

theorem portReg_p {f : Fld} (hn : n < 32) (hf : 0x100000 ≤ f.addr ∧ f.addr < 0x100000 + k ∧ k ≤ 0x10000) :
    portReg k (f.p n).addr := by
  obtain ⟨h1, h2, h3⟩ := hf
  change 0x100000 ≤ f.addr + n * 0x10000 ∧ f.addr + n * 0x10000 < 0x300000 ∧ (f.addr + n * 0x10000) % 0x10000 < k
  omega

theorem LinkKept.rd (h : LinkKept k s t) (hn : n < 32) {f : Fld} (hf : 0x100000 ≤ f.addr ∧ f.addr < 0x100000 + k ∧ k ≤ 0x10000) :
    t.rd (f.p n) = s.rd (f.p n) := by
  rw [State.rd, h.word _ (portReg_p hn hf), State.rd]

theorem LinkKept.on (h : LinkKept k s t) (hn : n < 32) {f : Fld} (hf : 0x100000 ≤ f.addr ∧ f.addr < 0x100000 + k ∧ k ≤ 0x10000) :
    t.on (f.p n) = s.on (f.p n) := State.on_of_rd (h.rd hn hf)

theorem State.rd_cutReception (s : State) (hn : n < 32) {f : Fld} (hf : 0x100000 ≤ f.addr ∧ f.addr < 0x100014) :
    (s.cutReception n).rd (f.p n) = s.rd (f.p n) := by
  rw [State.rd, State.cutReception_word _ _ (portReg_p hn ⟨hf.1, hf.2, by decide⟩), State.rd]

/-! ### Verification beside the link (R82) -/

/-- A field of a port page beside the state of verification. -/
abbrev Fld.besideVerify (g : Fld) : Prop :=
  (PT_STATUS_VERIFY.addr ≠ g.addr ∨ PT_STATUS_VERIFY.hi < g.lo ∨ g.hi < PT_STATUS_VERIFY.lo) ∧
    (PT_STATUS_PREEMPT_ACTIVE.addr ≠ g.addr ∨ PT_STATUS_PREEMPT_ACTIVE.hi < g.lo ∨ g.hi < PT_STATUS_PREEMPT_ACTIVE.lo)

/-- The status of verification of port `n`, as it is set. -/
def State.setVerify (s : State) (n v a : Nat) : State := (s.wr (PT_STATUS_VERIFY.p n) v).wr (PT_STATUS_PREEMPT_ACTIVE.p n) a

theorem State.setVerify_port (s : State) (n v a k : Nat) : (s.setVerify n v a).port k = s.port k :=
  (State.wr_port ..).trans (State.wr_port ..)

theorem State.idleVerify_eq (s : State) (n : Nat) : s.idleVerify n = s.setVerify n (b2n (s.on (PT_PREEMPT_EN.p n))) 0 := rfl

theorem State.startVerify_off {s : State} (h : s.on (PT_PREEMPT_EN.p n) = false) : s.startVerify n = s.setVerify n 0 0 := by
  unfold State.startVerify State.setVerify
  exact if_neg (by rw [h]; decide)

theorem State.startVerify_skip {s : State} (h : s.on (PT_PREEMPT_EN.p n) = true) (hd : s.on (PT_PREEMPT_VERIFY_DIS.p n) = true) :
    s.startVerify n = s.setVerify n 5 1 := by
  rw [State.startVerify, h, hd]
  rfl

theorem State.startVerify_go {s : State} (h : s.on (PT_PREEMPT_EN.p n) = true) (hd : s.on (PT_PREEMPT_VERIFY_DIS.p n) = false) :
    s.startVerify n = (s.setVerify n 2 0).setPort n { s.port n with verifySent := 0, verifyAt := 0 } := by
  rw [← s.setVerify_port n 2 0 n, State.startVerify, h, hd]
  rfl

theorem State.rd_setVerify_status (s : State) (n v a : Nat) : (s.setVerify n v a).rd (PT_STATUS_VERIFY.p n) = v % 8 :=
  ((s.wr _ _).rd_wr_p _ _ _ _ (by decide) (by decide)).trans (s.rd_wr_p_self _ _ _ (by decide))

theorem State.rd_setVerify_active (s : State) (n v a : Nat) : (s.setVerify n v a).rd (PT_STATUS_PREEMPT_ACTIVE.p n) = a % 2 :=
  (s.wr _ _).rd_wr_p_self _ _ _ (by decide)

theorem State.rd_setVerify (s : State) (v a : Nat) {g : Fld} (hg : g.besideVerify) :
    (s.setVerify n v a).rd (g.p n) = s.rd (g.p n) :=
  ((s.wr _ _).rd_wr_p _ _ _ _ (by decide) hg.2).trans (s.rd_wr_p _ _ _ _ (by decide) hg.1)

theorem RegsKept.setVerify {l : List Nat} (h : RegsKept l s t) (v a : Nat) (hl : (PT_STATUS_VERIFY.p n).addr ∈ l) :
    RegsKept l s (t.setVerify n v a) := (h.wr (f := PT_STATUS_VERIFY.p n) _ hl).wr (f := PT_STATUS_PREEMPT_ACTIVE.p n) _ hl

theorem PortRegs.setVerify (h : PortRegs s t) (v a : Nat) : PortRegs s (t.setVerify n v a) := (h.wr _ _).wr _ _

/-- Verification begun anew sets its status, and where it asks the link partner the count of its mPackets. -/
theorem State.startVerify_cases (s : State) (n : Nat) : (∃ v a, s.startVerify n = s.setVerify n v a) ∨
    s.startVerify n = (s.setVerify n 2 0).setPort n { s.port n with verifySent := 0, verifyAt := 0 } := by
  cases h : s.on (PT_PREEMPT_EN.p n) with
  | false => exact .inl ⟨_, _, s.startVerify_off h⟩
  | true =>
    cases hd : s.on (PT_PREEMPT_VERIFY_DIS.p n) with
    | false => exact .inr (s.startVerify_go h hd)
    | true => exact .inl ⟨_, _, s.startVerify_skip h hd⟩

theorem State.rd_startVerify (s : State) {g : Fld} (hg : g.besideVerify) : (s.startVerify n).rd (g.p n) = s.rd (g.p n) := by
  rcases s.startVerify_cases n with ⟨v, a, h⟩ | h <;> rw [h]
  · exact s.rd_setVerify v a hg
  · exact (State.setPort_rd ..).trans (s.rd_setVerify 2 0 hg)

theorem State.startVerify_timers (s : State) (n m : Nat) : ((s.startVerify n).port m).timers = (s.port m).timers := by
  rcases s.startVerify_cases n with ⟨v, a, h⟩ | h <;> rw [h]
  · rw [State.setVerify_port]
  · by_cases hm : m = n
    · rw [hm, State.setPort_port_self]
      rfl
    · rw [State.setPort_port_ne _ _ hm, State.setVerify_port]

theorem RegsKept.startVerify {l : List Nat} (h : RegsKept l s t) (hl : (PT_STATUS_VERIFY.p n).addr ∈ l) :
    RegsKept l s (t.startVerify n) := by
  rcases t.startVerify_cases n with ⟨v, a, he⟩ | he <;> rw [he]
  · exact h.setVerify v a hl
  · exact (h.setVerify 2 0 hl).setPort _ _

theorem PortRegs.startVerify (h : PortRegs s t) : PortRegs s (t.startVerify n) := by
  rcases t.startVerify_cases n with ⟨v, a, he⟩ | he <;> rw [he]
  · exact h.setVerify v a
  · exact (h.setVerify 2 0).setPort _ _

/-! ### Entry into DOWN (R92, R93, R126) -/

/-- A port beside its registers as it enters DOWN, its grace time to end at `g`. -/
def Port.down (x : Port) (g : Nat) : Port :=
  { x with
    graceTo := some g, graceEnd := false, graceOver := false, wakeBy := none, retAt := none
    upFrom := none, slow := false, respAt := none }

/-- When the grace time of a port that enters DOWN ends. -/
def State.graceFrom (s : State) (n : Nat) : Nat := s.clk.lapse + max 1 (s.rd (HL_P_GRACE_MS.i n) * uMs)

/-- A port in DOWN, before what it loses of its frames. -/
def State.toDown (s : State) (n : Nat) : State :=
  let t := s.wr (PT_STATUS_STATE.p n) 1
  (t.setPort n ((t.port n).down (t.graceFrom n))).idleVerify n

theorem State.rd_wr_state_grace (s : State) (v : Nat) (hn : n < 32) :
    (s.wr (PT_STATUS_STATE.p n) v).rd (HL_P_GRACE_MS.i n) = s.rd (HL_P_GRACE_MS.i n) := by
  refine s.rd_wr_apart _ _ _ (Fld.fits.p (f := PT_STATUS_STATE) ⟨by decide, by decide⟩ n) (.inl ?_)
  change 0x100004 + n * 0x10000 ≠ 0x300404 + n * 0x40
  omega

theorem State.enterDown_eq (s : State) (n : Nat) :
    s.enterDown n = if s.link n == 2 || s.link n == 3 then
      ((((s.toDown n).cutReception n).abortTx n).inc (PT_C_LINK_DOWN.p n)).ptEvent PT_EVENT_LINK_DOWN n
    else s.toDown n := rfl

theorem State.toDown_port_self (s : State) (hn : n < 32) : (s.toDown n).port n = (s.port n).down (s.graceFrom n) := by
  have hg : (s.wr (PT_STATUS_STATE.p n) 1).graceFrom n = s.graceFrom n := by
    rw [State.graceFrom, s.rd_wr_state_grace 1 hn]
    rfl
  rw [State.toDown, State.idleVerify_eq, State.setVerify_port, State.setPort_port_self, State.wr_port, hg]

theorem State.toDown_port_ne (s : State) {n k : Nat} (h : k ≠ n) : (s.toDown n).port k = s.port k :=
  (State.wr_port ..).trans ((State.wr_port ..).trans (State.setPort_port_ne _ _ h))

theorem State.toDown_link (s : State) (n : Nat) : (s.toDown n).link n = 1 :=
  (State.rd_setVerify _ _ _ (by decide)).trans (s.rd_wr_p_self _ _ _ (by decide))

theorem State.rd_toDown (s : State) {g : Fld} (hg : g.besideVerify)
    (hs : PT_STATUS_STATE.addr ≠ g.addr ∨ PT_STATUS_STATE.hi < g.lo ∨ g.hi < PT_STATUS_STATE.lo) :
    (s.toDown n).rd (g.p n) = s.rd (g.p n) :=
  (State.rd_setVerify _ _ _ hg).trans (s.rd_wr_p _ _ _ _ (by decide) hs)

theorem RegsKept.toDown {l : List Nat} (h : RegsKept l s t) (hl : (PT_STATUS_STATE.p n).addr ∈ l) : RegsKept l s (t.toDown n) :=
  ((h.wr (f := PT_STATUS_STATE.p n) _ hl).setPort _ _).setVerify _ _ hl

theorem PortRegs.toDown (h : PortRegs s t) : PortRegs s (t.toDown n) := ((h.wr _ _).setPort _ _).setVerify _ _

end

end Sys2Proof.Machine
end

section
/-!
The events of a link (R70, R89, R92, R93, R127), and the statement on them.
-/
namespace Sys2Proof.Machine

section
variable {n : Nat} {s : State}

theorem State.setPort_link (s : State) (n k : Nat) (x : Port) : (s.setPort n x).link k = s.link k := rfl

theorem State.link_lt (s : State) (n : Nat) : s.link n < 4 := bits_lt ..

/-! ### Loss of the link (R93) -/

/-- What a port that was UP or DORMANT loses as it enters DOWN. -/
def State.loseLink (s : State) (n : Nat) : State :=
  ((((s.toDown n).cutReception n).abortTx n).inc (PT_C_LINK_DOWN.p n)).ptEvent PT_EVENT_LINK_DOWN n

theorem State.enterDown_lost (h : 2 ≤ s.link n) : s.enterDown n = s.loseLink n := by
  have hlt := s.link_lt n
  have hl : s.link n = 2 ∨ s.link n = 3 := by omega
  rw [s.enterDown_eq n]
  exact if_pos (by simpa using hl)

theorem State.rd_loseLink (s : State) (hn : n < 32) {g : Fld} (hg : 0x100000 ≤ g.addr ∧ g.addr < 0x100014) :
    (s.loseLink n).rd (g.p n) = (s.toDown n).rd (g.p n) := by
  have hcut := (s.toDown n).rd_cutReception hn hg
  have habort := ((LinkKept.refl 0x14 ((s.toDown n).cutReception n)).abortTx n).rd hn ⟨hg.1, hg.2, by decide⟩
  rw [State.loseLink, State.rd_ptEvent _ _ _ hn (by decide) (.inl (by change 0x100014 ≠ _; omega)) (by omega),
    State.rd_inc_p _ _ _ _ (by decide) (.inl (by change 0x10012C ≠ _; omega)), habort, hcut]

theorem State.loseLink_port (s : State) (n : Nat) :
    (s.loseLink n).port n = (((s.toDown n).cutReception n).abortTx n).port n :=
  (State.ptEvent_port ..).trans (State.port_of_ports (State.inc_ports ..) n)

theorem State.abortTx_txFrame (s : State) (n : Nat) : ((s.abortTx n).port n).txFrame = none := by
  rw [State.abortTx_eq, State.setPort_port_self]

theorem State.loseLink_timers (s : State) (hn : n < 32) :
    ((s.loseLink n).port n).timers = { (s.port n).down (s.graceFrom n) with rxOpen := [] }.timers := by
  rw [State.loseLink_port, ((LinkKept.refl 0x14 _).abortTx n).timers n, State.cutReception_timers, State.toDown_port_self _ hn]

theorem State.loseLink_link (s : State) (hn : n < 32) : (s.loseLink n).link n = 1 :=
  (s.rd_loseLink hn (by decide)).trans (s.toDown_link n)

theorem State.on_loseLink_down (s : State) (hn : n < 32) : (s.loseLink n).on (PT_EVENT_LINK_DOWN.p n) = true :=
  State.on_ptEvent_self _ _ hn (by decide) (by decide)

/-! ### Entry into UP (R82, R89, R92, R126) -/

/-- A port beside its registers as it enters UP. -/
def Port.up (x : Port) : Port := { x with graceTo := none, graceEnd := false, graceOver := false, wakeBy := none }

/-- A port in UP, before its verification and its queues. -/
def State.toUp (s : State) (n : Nat) : State :=
  let t := s.wr (PT_STATUS_STATE.p n) 2
  t.setPort n (t.port n).up

theorem State.enterUp_of_down (h : s.link n = 1) :
    s.enterUp n =
      ((((s.toUp n).wr (PT_STATUS_PAUSE_BROKEN.p n) 0).ptEvent PT_EVENT_LINK_UP n).startVerify n).examinePort n := by
  unfold State.enterUp
  simp only [h]
  rfl

theorem State.enterUp_of_dormant (h : s.link n = 3) :
    s.enterUp n = (if s.rd (PT_STATUS_VERIFY.p n) != 1 then s.toUp n else (s.toUp n).startVerify n).examinePort n := by
  unfold State.enterUp
  simp only [h]
  rfl

theorem State.rd_toUp (s : State) {g : Fld}
    (hg : PT_STATUS_STATE.addr ≠ g.addr ∨ PT_STATUS_STATE.hi < g.lo ∨ g.hi < PT_STATUS_STATE.lo) :
    (s.toUp n).rd (g.p n) = s.rd (g.p n) :=
  (State.setPort_rd ..).trans (s.rd_wr_p _ _ _ _ (by decide) hg)

theorem State.toUp_link (s : State) (n : Nat) : (s.toUp n).link n = 2 :=
  (State.setPort_rd ..).trans (s.rd_wr_p_self _ _ _ (by decide))

theorem State.toUp_port (s : State) (n : Nat) : (s.toUp n).port n = (s.port n).up := by
  rw [State.toUp, State.setPort_port_self, State.wr_port]

/-- The examination of the queues leaves the port's page and times. -/
theorem State.examinePort_kept (s : State) (n : Nat) : LinkKept 0x10000 s (s.examinePort n) := (LinkKept.refl _ s).examinePort n

theorem State.rd_enterUp_of_down (hn : n < 32) (h : s.link n = 1) {g : Fld} (hv : g.besideVerify)
    (hb : PT_STATUS_PAUSE_BROKEN.addr ≠ g.addr ∨ PT_STATUS_PAUSE_BROKEN.hi < g.lo ∨ g.hi < PT_STATUS_PAUSE_BROKEN.lo)
    (hg : 0x100000 ≤ g.addr ∧ g.addr < 0x100014) : (s.enterUp n).rd (g.p n) = (s.toUp n).rd (g.p n) := by
  rw [State.enterUp_of_down h, (State.examinePort_kept _ n).rd hn (f := g) ⟨hg.1, by omega, by decide⟩, State.rd_startVerify _ hv,
    State.rd_ptEvent _ _ _ hn (by decide) (.inl (by change 0x100014 ≠ _; omega)) (by omega), State.rd_wr_p _ _ _ _ _ (by decide) hb]

/-- A port that enters UP from DOWN: the link shows, its events and its times (R91, R92, R126). -/
theorem State.enterUp_of_down_leaves (hn : n < 32) (h : s.link n = 1) :
    (s.enterUp n).link n = 2 ∧ (s.enterUp n).on (PT_STATUS_PAUSE_BROKEN.p n) = false ∧
      (s.enterUp n).on (PT_EVENT_LINK_UP.p n) = true ∧ ((s.enterUp n).port n).graceTo = none := by
  refine ⟨?_, ?_, ?_, ?_⟩
  · exact (State.rd_enterUp_of_down hn h (by decide) (by decide) (by decide)).trans (s.toUp_link n)
  · rw [State.enterUp_of_down h, (State.examinePort_kept _ n).on hn (by decide), State.on_of_rd (State.rd_startVerify _ (by decide)),
      State.on_ptEvent _ _ _ hn (by decide) (by decide) (by decide), State.on_wr_p_zero _ _ _ (by decide)]
  · rw [State.enterUp_of_down h, (State.examinePort_kept _ n).on hn (by decide), State.on_of_rd (State.rd_startVerify _ (by decide)),
      State.on_ptEvent_self _ _ hn (by decide) (by decide)]
  · have ht : ((s.enterUp n).port n).timers = (s.port n).up.timers := by
      rw [State.enterUp_of_down h, (State.examinePort_kept _ n).timers, State.startVerify_timers, State.ptEvent_port, State.wr_port,
        State.toUp_port]
    exact Port.graceTo_eq ht

/-- A DORMANT port that returns is UP, and waits for no wake (R89). -/
theorem State.enterUp_of_dormant_leaves (hn : n < 32) (h : s.link n = 3) :
    (s.enterUp n).link n = 2 ∧ ((s.enterUp n).port n).wakeBy = none := by
  have hup : ∀ t : State, t = s.toUp n ∨ t = (s.toUp n).startVerify n →
      t.link n = 2 ∧ (t.port n).timers = (s.port n).up.timers := by
    rintro t (rfl | rfl)
    · exact ⟨s.toUp_link n, by rw [State.toUp_port]⟩
    · exact ⟨(State.rd_startVerify _ (by decide)).trans (s.toUp_link n), by rw [State.startVerify_timers, State.toUp_port]⟩
  rw [State.enterUp_of_dormant h]
  obtain ⟨hlink, ht⟩ := hup (if s.rd (PT_STATUS_VERIFY.p n) != 1 then s.toUp n else (s.toUp n).startVerify n) (by split <;> simp)
  exact ⟨((State.examinePort_kept _ n).rd hn (by decide)).trans hlink,
    Port.wakeBy_eq (((State.examinePort_kept _ n).timers n).trans ht)⟩

/-- A port whose queues are flushed has no grant (R127). -/
theorem State.flushPort_grants (s : State) (n : Nat) : ((s.flushPort n).port n).grants = [] := by
  unfold State.flushPort
  dsimp only
  split
  · rw [State.setPort_port_self]
  · rw [State.port_of_ports (State.event_ports ..), State.setPort_port_self]

theorem State.flushPort_graceOver (s : State) (n : Nat) {x : Port} (h : x.graceOver = true) :
    (((s.setPort n x).flushPort n).port n).graceOver = true := by
  rw [Port.graceOver_eq (((LinkKept.refl 0 (s.setPort n x)).flushPort n).timers n), State.setPort_port_self, h]

/-- A port that has returned to UP, and keeps when (R89). -/
def State.returned (t : State) (n l : Nat) : State := t.setPort n { t.port n with retAt := some l }

theorem State.returned_port (t : State) (n l : Nat) :
    ((t.returned n l).port n).wakeBy = (t.port n).wakeBy ∧ ((t.returned n l).port n).retAt = some l := by
  rw [State.returned, State.setPort_port_self]
  exact ⟨rfl, rfl⟩

end

/-! ### The rows -/

section
variable {p : Fin 19} {s : State}

/-- The lock and the negotiation complete, before the hold (R70). -/
def State.linkShown (s : State) (n : Nat) : State := (s.wr (PT_STATUS_PCS_LOCK.p n) 1).wr (PT_STATUS_AN_DONE.p n) 1

/-- A port whose PHY has reported its speed. -/
def Port.paced (x : Port) (b : Bool) : Port := { x with slow := b }

theorem exec_anDone (speed : Fin 3) (hrun : s.runs (portDomain p) = true) (hd : s.link p = 1) (hn : s.negotiates p = true) :
    exec (.anDone p speed) s = .next (((s.linkShown p).setPort p
      (((s.linkShown p).port p).paced (decide (s.rd (PT_CTRL_MODE.p p) = 3 ∧ speed.val ≠ 2)))).startHold p) :=
  (whileOn_runs hrun).trans (if_pos ⟨hd, hn⟩)

theorem State.linkShown_port (s : State) (n k : Nat) : (s.linkShown n).port k = s.port k :=
  (State.wr_port ..).trans (State.wr_port ..)

theorem State.startHold_none {t : State} {n : Nat} (hu : (t.port n).upFrom = none) (hl : t.on (PT_STATUS_PCS_LOCK.p n) = true)
    (ha : t.negotiates n = true → t.on (PT_STATUS_AN_DONE.p n) = true) :
    t.startHold n = t.setPort n { t.port n with upFrom := some t.clk.lapse } := if_pos ⟨by rw [hu]; rfl, hl, ha⟩

theorem State.startHold_some {t : State} {n u : Nat} (hu : (t.port n).upFrom = some u) : t.startHold n = t :=
  if_neg fun h => by simp [hu] at h

theorem State.startHold_negotiating {t : State} {n : Nat} (hn : t.negotiates n = true) (ha : t.on (PT_STATUS_AN_DONE.p n) = false) :
    t.startHold n = t := if_neg fun ⟨_, _, h⟩ => by rw [h hn] at ha; exact absurd ha (by decide)

theorem exec_linkUp (hrun : s.runs (portDomain p) = true) (hd : s.link p = 1) {t : State}
    (ht : (s.wr (PT_STATUS_PCS_LOCK.p p) 1).startHold p = t) :
    exec (.linkUp p) s = .next (if t.linkHeld p then t.enterUp p else t) := by
  subst ht
  exact (whileOn_runs hrun).trans (if_neg (not_not.2 hd))

theorem exec_linkUp_enters (hrun : s.runs (portDomain p) = true) (hd : s.link p = 1) {t : State}
    (ht : (s.wr (PT_STATUS_PCS_LOCK.p p) 1).startHold p = t) (hh : t.linkHeld p = true) :
    exec (.linkUp p) s = .next (t.enterUp p) := by
  rw [exec_linkUp hrun hd ht, if_pos hh]

theorem exec_linkUp_waits (hrun : s.runs (portDomain p) = true) (hd : s.link p = 1) {t : State}
    (ht : (s.wr (PT_STATUS_PCS_LOCK.p p) 1).startHold p = t) (hh : t.linkHeld p = false) :
    exec (.linkUp p) s = .next t := by
  rw [exec_linkUp hrun hd ht, hh]
  exact congrArg _ (if_neg Bool.false_ne_true)

theorem exec_pcsLockLoss {neg : Bool} (hrun : s.runs (portDomain p) = true) (hd : s.link p ≠ 0)
    (hn : neg = true → s.negotiates p = true ∧ s.on (PT_STATUS_AN_DONE.p p) = true) :
    exec (.pcsLockLoss p neg) s = .next (
      let t := (if neg then s else s.wr (PT_STATUS_PCS_LOCK.p p) 0).wr (PT_STATUS_AN_DONE.p p) 0
      if s.link p = 1 then t.setPort p { t.port p with upFrom := none, slow := false } else t.enterDown p) :=
  (whileOn_runs hrun).trans (if_neg fun h => h.elim hd fun ⟨hneg, h⟩ => h (hn hneg))

theorem State.negotiates_wr_lock (s : State) (n v : Nat) : (s.wr (PT_STATUS_PCS_LOCK.p n) v).negotiates n = s.negotiates n := by
  unfold State.negotiates
  rw [State.rd_wr_p _ _ _ _ _ (by decide) (by decide), State.on_wr_p _ _ _ _ _ (by decide) (by decide)]

theorem State.linkHeld_some {t : State} {n u : Nat} (hu : (t.port n).upFrom = some u) :
    t.linkHeld n = (!(t.port n).slow && decide (u + t.rd (PT_CTRL_UP_HOLD_MS.p n) * uMs ≤ t.clk.lapse)) := by
  rw [State.linkHeld, hu]

/-- The lock shown leaves what decides whether the link has held. -/
theorem State.linkHeld_wr_lock (s : State) (n v : Nat) : (s.wr (PT_STATUS_PCS_LOCK.p n) v).linkHeld n = s.linkHeld n := by
  unfold State.linkHeld
  rw [State.wr_port, State.rd_wr_p _ _ _ _ _ (by decide) (by decide)]
  rfl

/-- A port whose hold begins now has held only where UP_HOLD_MS is 0 and its PHY is fast enough (R70, R92). -/
theorem State.linkHeld_begun (t : State) (n : Nat) (x : Port) (h : x.slow = true ∨ t.rd (PT_CTRL_UP_HOLD_MS.p n) ≠ 0) :
    (t.setPort n { x with upFrom := some t.clk.lapse }).linkHeld n = false := by
  have hu : ((t.setPort n { x with upFrom := some t.clk.lapse }).port n).upFrom = some t.clk.lapse := by rw [State.setPort_port_self]
  rw [State.linkHeld_some hu, State.setPort_port_self, State.setPort_rd]
  rcases h with h | h
  · simp [h]
  · have hpos : 0 < t.rd (PT_CTRL_UP_HOLD_MS.p n) * uMs := Nat.mul_pos (Nat.pos_of_ne_zero h) (by decide)
    have hlt : ¬ t.clk.lapse + t.rd (PT_CTRL_UP_HOLD_MS.p n) * uMs ≤ t.clk.lapse := by omega
    exact Bool.and_eq_false_imp.2 fun _ => decide_eq_false hlt

/-- A hold that runs goes on. -/
theorem Port.hold_runs {x : Port} {u : Nat} (h : x.upFrom = some u) (l : Nat) : { x with upFrom := some (x.upFrom.getD l) } = x := by
  cases x
  cases h
  rfl

/-- The hold of a port whose lock and negotiation show begins, or goes on (R92). -/
theorem State.startHold_shown {t : State} {n : Nat} (hl : t.on (PT_STATUS_PCS_LOCK.p n) = true)
    (ha : t.on (PT_STATUS_AN_DONE.p n) = true) (x : Port) :
    (t.setPort n x).startHold n = t.setPort n { x with upFrom := some (x.upFrom.getD t.clk.lapse) } := by
  have hx : (t.setPort n x).port n = x := State.setPort_port_self ..
  cases hu : x.upFrom with
  | none => rw [State.startHold_none (t := t.setPort n x) (by rw [hx, hu]) hl fun _ => ha, hx, State.setPort_setPort]; rfl
  | some u => rw [State.startHold_some (u := u) (by rw [hx, hu]), ← hu, Port.hold_runs hu]

theorem State.on_linkShown_lock (s : State) (n : Nat) : (s.linkShown n).on (PT_STATUS_PCS_LOCK.p n) = true :=
  (State.on_wr_p _ _ _ _ _ (by decide) (by decide)).trans (s.on_wr_p_one _ _ (by decide))

theorem State.on_linkShown_negotiated (s : State) (n : Nat) : (s.linkShown n).on (PT_STATUS_AN_DONE.p n) = true :=
  State.on_wr_p_one _ _ _ (by decide)

theorem State.linkShown_link (s : State) (n : Nat) : (s.linkShown n).link n = s.link n :=
  (State.rd_wr_p _ _ _ _ _ (by decide) (by decide)).trans (s.rd_wr_p _ _ _ _ (by decide) (by decide))

theorem RegsKept.linkShown (s : State) (n : Nat) : RegsKept [(PT_STATUS_AN_DONE.p n).addr] s (s.linkShown n) :=
  ((RegsKept.refl _ s).wr (f := PT_STATUS_PCS_LOCK.p n) _ (.head _)).wr (f := PT_STATUS_AN_DONE.p n) _ (.head _)

theorem PortRegs.linkShown (s : State) (n : Nat) : PortRegs s (s.linkShown n) := ((PortRegs.refl s).wr _ _).wr _ _

/-- The registers a loss of lock, or of the negotiation alone, begins with (R92). -/
def State.loseLock (s : State) (n : Nat) (neg : Bool) : State :=
  (if neg then s else s.wr (PT_STATUS_PCS_LOCK.p n) 0).wr (PT_STATUS_AN_DONE.p n) 0

theorem State.loseLock_shows (s : State) (n : Nat) (neg : Bool) :
    (s.loseLock n neg).on (PT_STATUS_AN_DONE.p n) = false ∧
      (neg = false → (s.loseLock n neg).on (PT_STATUS_PCS_LOCK.p n) = false) ∧ (s.loseLock n neg).link n = s.link n ∧
      (s.loseLock n neg).ports = s.ports ∧ RegsKept [(PT_STATUS_AN_DONE.p n).addr] s (s.loseLock n neg) ∧
      PortRegs s (s.loseLock n neg) := by
  have hlock : RegsKept [(PT_STATUS_AN_DONE.p n).addr] s (if neg then s else s.wr (PT_STATUS_PCS_LOCK.p n) 0) :=
    .ite (.refl _ s) ((RegsKept.refl _ s).wr (f := PT_STATUS_PCS_LOCK.p n) _ (.head _))
  have hports : PortRegs s (if neg then s else s.wr (PT_STATUS_PCS_LOCK.p n) 0) := .ite (.refl s) ((PortRegs.refl s).wr _ _)
  refine ⟨State.on_wr_p_zero _ _ _ (by decide), ?_, ?_, ?_, hlock.wr (f := PT_STATUS_AN_DONE.p n) _ (.head _), hports.wr _ _⟩
  · rintro rfl
    exact (State.on_wr_p _ _ _ _ _ (by decide) (by decide)).trans (s.on_wr_p_zero _ _ (by decide))
  · refine (State.rd_wr_p _ PT_STATUS_AN_DONE PT_STATUS_STATE _ _ (by decide) (by decide)).trans ?_
    cases neg with
    | true => rfl
    | false => exact s.rd_wr_p _ _ _ _ (by decide) (by decide)
  · cases neg <;> rfl

/-- What an UP or DORMANT port keeps and loses as it loses its lock or its negotiation (R93). -/
theorem lossOfLock_leaves {neg : Bool} (h2 : 2 ≤ s.link p) {t : State} (ht : t = (s.loseLock p neg).enterDown p) :
    t.link p = 1 ∧ t.on (PT_STATUS_AN_DONE.p p) = false ∧ (neg = false → t.on (PT_STATUS_PCS_LOCK.p p) = false) ∧
      t.on (PT_EVENT_LINK_DOWN.p p) = true ∧ (t.port p).graceTo = some (s.graceFrom p) ∧ (t.port p).rxOpen = [] ∧
      (t.port p).txFrame = none ∧ (t.port p).upFrom = none := by
  have hp : p.val < 32 := by omega
  obtain ⟨han, hlock, hlink, -, hregs, hframe⟩ := s.loseLock_shows p neg
  rw [State.enterDown_lost (hlink ▸ h2)] at ht
  have htimers := (s.loseLock p neg).loseLink_timers hp
  have hgrace : (s.loseLock p neg).graceFrom p = s.graceFrom p := by
    have haddr : (HL_P_GRACE_MS.i p.val).addr ∉ [(PT_STATUS_AN_DONE.p p).addr] := by
      rw [List.mem_singleton]
      change 0x300404 + p.val * 0x40 ≠ 0x100004 + p.val * 0x10000
      omega
    rw [State.graceFrom, hregs.rd _ haddr, hframe]
    rfl
  subst ht
  refine ⟨State.loseLink_link _ hp, ?_, fun hneg => ?_, State.on_loseLink_down _ hp, ?_, Port.rxOpen_eq htimers, ?_,
    Port.upFrom_eq htimers⟩
  · rw [State.on_of_rd ((State.rd_loseLink _ hp (by decide)).trans (State.rd_toDown _ (by decide) (by decide))), han]
  · rw [State.on_of_rd ((State.rd_loseLink _ hp (by decide)).trans (State.rd_toDown _ (by decide) (by decide))), hlock hneg]
  · rw [← hgrace]
    exact Port.graceTo_eq htimers
  · rw [State.loseLink_port, State.abortTx_txFrame]

/-- Settles O22: row by row, in the order of the statement. -/
theorem portLinkEvents : Obligations.PortLinkEvents := by
  intro p s hrun
  have hp : p.val < 32 := by omega
  refine ⟨?an, ?up, ?held, ?hold, ?waits, ?lost, ?down, ?grace, ?flush, ?spared, ?wake⟩
  case an =>
    intro speed hd hn
    have he := exec_anDone speed hrun hd hn
    rw [State.startHold_shown (s.on_linkShown_lock p) (s.on_linkShown_negotiated p), State.linkShown_port] at he
    exact ⟨_, he, (State.setPort_on ..).trans (s.on_linkShown_lock p), (State.setPort_on ..).trans (s.on_linkShown_negotiated p),
      (State.setPort_link ..).trans ((s.linkShown_link p).trans hd), State.setPort_port_self ..,
      fun q hq => (State.setPort_port_ne _ _ hq).trans (s.linkShown_port p q), (RegsKept.linkShown s p).setPort _ _,
      (PortRegs.linkShown s p).setPort _ _⟩
  case up =>
    intro u hd hslow hu hheld
    have hlink : (s.wr (PT_STATUS_PCS_LOCK.p p) 1).link p = 1 := (s.rd_wr_p _ _ _ _ (by decide) (by decide)).trans hd
    have hh : s.linkHeld p = true := by
      have hdue : u + s.rd (PT_CTRL_UP_HOLD_MS.p p) * uMs ≤ s.clk.lapse := hheld
      rw [State.linkHeld_some hu, hslow, decide_eq_true hdue]
      rfl
    have he := exec_linkUp_enters hrun hd (State.startHold_some (t := s.wr (PT_STATUS_PCS_LOCK.p p) 1) hu)
      ((s.linkHeld_wr_lock p 1).trans hh)
    obtain ⟨h2, hb, hev, hg⟩ := State.enterUp_of_down_leaves hp hlink
    have hlock := (State.rd_enterUp_of_down hp hlink (g := PT_STATUS_PCS_LOCK) (by decide) (by decide) (by decide)).trans
      (State.rd_toUp _ (by decide))
    exact ⟨_, he, rfl, h2, (State.on_of_rd hlock).trans (s.on_wr_p_one _ _ (by decide)), hb, hev, hg⟩
  case held =>
    intro u hd hu hnot
    have hh : s.linkHeld p = false := by
      rw [State.linkHeld_some hu]
      rcases hnot with hslow | hlt
      · simp [hslow]
      · exact Bool.and_eq_false_imp.2 fun _ => decide_eq_false (Nat.not_le.2 hlt)
    exact exec_linkUp_waits hrun hd (State.startHold_some hu) ((s.linkHeld_wr_lock p 1).trans hh)
  case hold =>
    intro hd hu han hslow
    refine exec_linkUp_waits hrun hd (State.startHold_none hu (s.on_wr_p_one _ _ (by decide)) fun hn => ?_)
      (State.linkHeld_begun _ p _ ?_)
    · rw [State.on_wr_p _ _ _ _ _ (by decide) (by decide)]
      exact han ((s.negotiates_wr_lock p 1).symm.trans hn)
    · rwa [State.rd_wr_p _ _ _ _ _ (by decide) (by decide)]
  case waits =>
    intro hd hu hn han
    have hh : s.linkHeld p = false := by
      rw [State.linkHeld, hu]
      exact Bool.and_false _
    exact exec_linkUp_waits hrun hd (State.startHold_negotiating ((s.negotiates_wr_lock p 1).trans hn)
      ((s.on_wr_p _ _ _ _ (by decide) (by decide)).trans han)) ((State.linkHeld_wr_lock ..).trans hh)
  case lost =>
    intro neg h2 hn
    have he := exec_pcsLockLoss hrun (Nat.ne_of_gt (Nat.lt_of_lt_of_le (by decide) h2)) hn
    dsimp only at he
    rw [if_neg (by omega)] at he
    exact ⟨_, he, rfl, lossOfLock_leaves h2 rfl⟩
  case down =>
    intro neg hd hn
    have he := exec_pcsLockLoss hrun (by omega) hn
    dsimp only at he
    rw [if_pos hd] at he
    obtain ⟨han, hlock, hlink, hports, hregs, hframe⟩ := s.loseLock_shows p neg
    change _ = Host.Outcome.next ((s.loseLock p neg).setPort p { (s.loseLock p neg).port p with upFrom := none, slow := false }) at he
    refine ⟨_, he, fun h => (State.setPort_on ..).trans (hlock h), (State.setPort_on ..).trans han,
      (State.setPort_link ..).trans (hlink.trans hd), ?_, ?_, hregs.setPort _ _, hframe.setPort _ _⟩
    · rw [State.setPort_port_self, State.port_of_ports hports]
    · exact fun q hq => (State.setPort_port_ne _ _ hq).trans (State.port_of_ports hports q)
  case grace =>
    intro g hd hg hle hheld
    change execGraceExpiry p s = _
    unfold execGraceExpiry
    rw [whileOn_runs hrun]
    simp only [hg]
    exact if_pos ⟨hd, hle, by rw [hheld]; decide⟩
  case flush =>
    intro hg hd
    have he : s.graceCycle p = (s.setPort p { s.port p with graceEnd := false, graceOver := true }).flushPort p := by
      rw [State.graceCycle, hg]
      exact if_pos hd
    rw [he]
    exact ⟨rfl, State.flushPort_graceOver _ p rfl, State.flushPort_grants _ p⟩
  case spared =>
    intro hg hd
    rw [State.graceCycle, hg]
    exact if_neg hd
  case wake =>
    intro hd hw
    have he : exec (.portWakeDone p) s = .next ((s.enterUp p).returned p s.clk.lapse) := (whileOn_runs hrun).trans (if_pos ⟨hd, hw⟩)
    obtain ⟨h2, hn⟩ := State.enterUp_of_dormant_leaves hp hd
    refine ⟨_, he, rfl, ?_, ?_, ?_⟩
    · exact (State.setPort_link ..).trans h2
    · exact (State.returned_port ..).1.trans hn
    · exact (State.returned_port ..).2

end
end Sys2Proof.Machine
end

section
/-!
Writes of a port's registers (R71, R82, R89, R91, R92, R103, R128).
-/
namespace Sys2Proof.Machine

/-! ### Accesses to the port pages (R36, R103) -/

theorem pageBlock_pt {n : Nat} (hn : n < 22) : pageBlock (0x10 + n) = some (.pt, n) := by
  interval_cases n <;> rfl

section
variable {s : State} {req : Requester} {n k v : Nat}

theorem pt_page (hk : k < 0x10000) : (0x100000 + n * 0x10000 + k) / 0x10000 = 0x10 + n := by omega

theorem pt_offset (hk : k < 0x10000) : (0x100000 + n * 0x10000 + k) % 0x10000 = k := by omega

theorem writeReg_pt (hw : s.Writer req) (hn : n < 22) (hdom : s.dom (pageDomain .pt n) = 1) (hk : k < 0x10000)
    (hd : (descIn .pt n k).isSome) (hv : v < 2 ^ 32) :
    writeReg req (0x100000 + n * 0x10000 + k) v s = (ptWrite n k v s).wrote req (0x100000 + n * 0x10000 + k) v := by
  have hb : pageBlock ((0x100000 + n * 0x10000 + k) / 0x10000) = some (.pt, n) := by rw [pt_page hk, pageBlock_pt hn]
  have h := writeReg_served (o := 0x100000 + n * 0x10000 + k) hw (by omega) hb (.inr hdom) (by rwa [pt_offset hk])
    (.inl (by decide)) hv
  rwa [pt_offset hk] at h

theorem regDesc_pt (hn : n < 22) (hk : k < 0x400) : regDesc (0x100000 + n * 0x10000 + k) = descAt .pt k := by
  have hk' : k < 0x10000 := by omega
  rw [regDesc_eq (b := .pt) (i := n) (by rw [pt_page hk', pageBlock_pt hn]), pt_offset hk']
  exact if_neg fun h => absurd h.2.2 (by omega)

theorem descIn_pt (hk : k < 0x400) : descIn .pt n k = descAt .pt k := if_neg fun h => absurd h.2.2 (by omega)

end

/-- A completed write that touches registers, events and ports alone. -/
theorem PortEvents.wrote {s t : State} (h : PortEvents s t) (r : Requester) (o v : Nat) :
    t.wrote r o v = { s.withAccess (t.wrote r o v) with ports := (t.wrote r o v).ports } := by
  generalize hu : t.wrote r o v = u
  have hf := t.wrote_frame r o v
  rw [hu] at hf
  rw [hf, h]
  rfl

/-- A completed write that touches registers and events alone. -/
theorem EventsOnly.wrote {s t : State} (h : EventsOnly s t) (r : Requester) (o v : Nat) :
    t.wrote r o v = s.withAccess (t.wrote r o v) := by
  generalize hu : t.wrote r o v = u
  have hf := t.wrote_frame r o v
  rw [hu] at hf
  rw [hf, h]
  rfl

theorem PortRegs.events {s t : State} (h : PortRegs s t) : PortEvents s t := by
  rw [PortEvents, h]
  rfl

theorem EventsOnly.ports {s t : State} (h : EventsOnly s t) : PortEvents s t := by
  rw [PortEvents, h]
  rfl

theorem EventsOnly.ports_eq {s t : State} (h : EventsOnly s t) : t.ports = s.ports := by
  rw [h]
  rfl

theorem EventsOnly.clk_eq {s t : State} (h : EventsOnly s t) : t.clk = s.clk := by
  rw [h]
  rfl

theorem EventsOnly.swPut {s t : State} (h : EventsOnly s t) (a v : Nat) : EventsOnly s (t.swPut a v) := by
  refine h.trans ?_
  rw [EventsOnly, State.swPut_frame]
  rfl

/-! ### Software writes of a port's registers (R8, R71, R80) -/

def ptCtrlDesc : RegDesc :=
  ⟨0x0, 0x0, 1, [⟨31, 31, .rw, 0x0⟩, ⟨30, 28, .rw, 0x0⟩, ⟨27, 26, .rw, 0x1⟩, ⟨25, 24, .rw, 0x0⟩, ⟨23, 23, .rw, 0x1⟩,
    ⟨15, 8, .rw, 0xA⟩]⟩

def ptPreemptDesc : RegDesc :=
  ⟨0x10, 0x0, 1, [⟨31, 31, .rw, 0x0⟩, ⟨30, 30, .rw, 0x0⟩, ⟨23, 16, .rw, 0xC0⟩, ⟨7, 0, .rw, 0xA⟩]⟩

theorem descAt_ptCtrl : descAt .pt 0 = some ptCtrlDesc := by decide
theorem descAt_ptPreempt : descAt .pt 0x10 = some ptPreemptDesc := by decide

section
variable {n : Nat} {s : State}

theorem State.rd_swPut_ptCtrl (s : State) (v : Nat) (hn : n < 22) {f : FieldDesc} (hf : f ∈ ptCtrlDesc.fields) :
    bits ((s.swPut (PT_CTRL_EN.p n).addr v).word (PT_CTRL_EN.p n).addr) f.hi f.lo = bits v f.hi f.lo := by
  have hrw : ∀ f ∈ ptCtrlDesc.fields, f.acc = .rw := by decide
  exact s.swPut_field ((regDesc_pt hn (by decide)).trans descAt_ptCtrl) hf (hrw f hf) (by decide) (by decide)

theorem State.rd_swPut_ptPreempt (s : State) (v : Nat) (hn : n < 22) {f : FieldDesc} (hf : f ∈ ptPreemptDesc.fields) :
    bits ((s.swPut (PT_PREEMPT_EN.p n).addr v).word (PT_PREEMPT_EN.p n).addr) f.hi f.lo = bits v f.hi f.lo := by
  have hrw : ∀ f ∈ ptPreemptDesc.fields, f.acc = .rw := by decide
  have ha : (PT_PREEMPT_EN.p n).addr = 0x100000 + n * 0x10000 + 0x10 := by
    change 0x100010 + n * 0x10000 = _
    omega
  rw [ha]
  exact s.swPut_field ((regDesc_pt hn (by decide)).trans descAt_ptPreempt) hf (hrw f hf) (by decide) (by decide)

/-! ### PT_CTRL (R71, R92, R128) -/

theorem ptWrite_ctrl (hn : n < 19) (v : Nat) : ptWrite n 0 v s = ptCtrlWriteOp n v s := by
  unfold ptWrite
  rw [if_neg (by omega), if_neg (by omega), if_pos rfl]

/-- PT_CTRL of a disabled port as a write stores it (R71). -/
def State.storeCtrl (s : State) (n v : Nat) : State :=
  let m := modeStored n (bits v 30 28)
  let l := if bits v 27 26 = 3 ∧ ¬ (n = 16 ∨ n = 17) then 2 else bits v 27 26
  let f := if bits v 25 24 = 1 ∧ m = 0 then 1 else 0
  (((s.swPut (PT_CTRL_EN.p n).addr v).wr (PT_CTRL_MODE.p n) m).wr (PT_CTRL_MAXLEN.p n) l).wr (PT_CTRL_FEC.p n) f

/-- The fields of PT_CTRL that an enabled port keeps (R71). -/
def heldFields (w : Nat) : Nat × Nat × Nat × Nat := (bits w 30 28, bits w 27 26, bits w 25 24, bits w 23 23)

/-- PT_CTRL of an enabled port as a write stores it (R71). -/
def State.keepCtrl (s : State) (n v : Nat) : State :=
  let t := (s.wr (PT_CTRL_EN.p n) (bits v 31 31)).wr (PT_CTRL_UP_HOLD_MS.p n) (bits v 15 8)
  if heldFields v = heldFields (s.word (PT_CTRL_EN.p n).addr) then t else t.raise (ES_PT n)

theorem ptCtrlWriteOp_disabled {v : Nat} (h : s.on (PT_CTRL_EN.p n) = false) (hv : bit v 31 = false) :
    ptCtrlWriteOp n v s = s.storeCtrl n v := by
  unfold ptCtrlWriteOp
  simp only [h, hv, Bool.false_eq_true, if_false]
  rfl

theorem ptCtrlWriteOp_enables {v : Nat} (h : s.on (PT_CTRL_EN.p n) = false) (hv : bit v 31 = true)
    (hd : (s.storeCtrl n v).dom (portDomain n) = 1) : ptCtrlWriteOp n v s = (s.storeCtrl n v).enterDown n := by
  unfold ptCtrlWriteOp
  simp only [h, hv, Bool.false_eq_true, if_false, if_true, Bool.not_false, Bool.true_and]
  exact if_pos (beq_iff_eq.2 hd)

theorem ptCtrlWriteOp_enabled {v : Nat} (h : s.on (PT_CTRL_EN.p n) = true) (hv : bit v 31 = true) :
    ptCtrlWriteOp n v s = s.keepCtrl n v := by
  unfold ptCtrlWriteOp
  simp only [h, hv, if_true, Bool.not_true, Bool.false_and, Bool.false_eq_true, if_false]
  rfl

theorem ptCtrlWriteOp_disables {v : Nat} (h : s.on (PT_CTRL_EN.p n) = true) (hv : bit v 31 = false) :
    ptCtrlWriteOp n v s = (s.keepCtrl n v).enterOff n := by
  unfold ptCtrlWriteOp
  simp only [h, hv, if_true, Bool.false_eq_true, if_false]
  rfl

theorem modeStored_lt (hn : n < 19) (w : Nat) : modeStored n w < 8 := by
  have hm : ∀ n : Fin 19, portResetMode n < 8 ∧ ∀ m ∈ portModes n, m < 8 := by decide
  unfold modeStored
  split
  · next h => exact (hm ⟨n, hn⟩).2 w (by simpa using h)
  · exact (hm ⟨n, hn⟩).1

theorem storeCtrl_shows (s : State) (hn : n < 19) (v : Nat) :
    (s.storeCtrl n v).rd (PT_CTRL_EN.p n) = bits v 31 31 ∧ (s.storeCtrl n v).rd (PT_CTRL_UP_HOLD_MS.p n) = bits v 15 8 ∧
      (s.storeCtrl n v).rd (PT_CTRL_MODE.p n) = modeStored n (bits v 30 28) ∧
      (s.storeCtrl n v).rd (PT_CTRL_AN_EN.p n) = bits v 23 23 := by
  have hsw (f : FieldDesc) (hf : f ∈ ptCtrlDesc.fields) := s.rd_swPut_ptCtrl v (by omega : n < 22) hf
  refine ⟨?_, ?_, ?_, ?_⟩
  · rw [State.storeCtrl, State.rd_wr_p _ _ _ _ _ (by decide) (by decide), State.rd_wr_p _ _ _ _ _ (by decide) (by decide),
      State.rd_wr_p _ _ _ _ _ (by decide) (by decide)]
    exact hsw ⟨31, 31, .rw, 0x0⟩ (by decide)
  · rw [State.storeCtrl, State.rd_wr_p _ _ _ _ _ (by decide) (by decide), State.rd_wr_p _ _ _ _ _ (by decide) (by decide),
      State.rd_wr_p _ _ _ _ _ (by decide) (by decide)]
    exact hsw ⟨15, 8, .rw, 0xA⟩ (by decide)
  · rw [State.storeCtrl, State.rd_wr_p _ _ _ _ _ (by decide) (by decide), State.rd_wr_p _ _ _ _ _ (by decide) (by decide),
      State.rd_wr_p_self _ _ _ _ (by decide)]
    exact Nat.mod_eq_of_lt (modeStored_lt hn _)
  · rw [State.storeCtrl, State.rd_wr_p _ _ _ _ _ (by decide) (by decide), State.rd_wr_p _ _ _ _ _ (by decide) (by decide),
      State.rd_wr_p _ _ _ _ _ (by decide) (by decide)]
    exact hsw ⟨23, 23, .rw, 0x1⟩ (by decide)

theorem storeCtrl_regsKept (s : State) (n v : Nat) : RegsKept [(PT_CTRL_EN.p n).addr] s (s.storeCtrl n v) :=
  (((s.swPut_regsKept _ v).wr (f := PT_CTRL_MODE.p n) _ (.head _)).wr (f := PT_CTRL_MAXLEN.p n) _ (.head _)).wr
    (f := PT_CTRL_FEC.p n) _ (.head _)

theorem storeCtrl_events (s : State) (n v : Nat) : EventsOnly s (s.storeCtrl n v) :=
  ((((EventsOnly.refl s).swPut _ _).wr _ _).wr _ _).wr _ _

/-- The held fields together are bits 30 to 23. -/
theorem heldFields_ne {x y : Nat} (h : bits x 30 23 ≠ bits y 30 23) : heldFields x ≠ heldFields y := by
  have hjoin (w : Nat) : bits w 30 23 = bits w 30 28 * 32 + bits w 27 26 * 8 + bits w 25 24 * 2 + bits w 23 23 := by
    simp only [bits, Nat.shiftRight_eq_div_pow]
    omega
  intro he
  simp only [heldFields, Prod.mk.injEq] at he
  obtain ⟨h1, h2, h3, h4⟩ := he
  exact h (by rw [hjoin, hjoin, h1, h2, h3, h4])

/-! ### Entry into OFF (R92, R128) -/

/-- A port in OFF, its frames already lost. -/
def State.toOff (s : State) (n : Nat) : State :=
  let t := ((s.wr (PT_STATUS_STATE.p n) 0).wr (PT_STATUS_PCS_LOCK.p n) 0).wr (PT_STATUS_AN_DONE.p n) 0
  let t := t.setPort n { t.port n with
    graceTo := none, graceEnd := false, graceOver := false, wakeBy := none, pauseReqs := [], retAt := none, upFrom := none
    slow := false, respAt := none }
  (t.wr (PT_STATUS_PAUSED.p n) 0).idleVerify n

theorem State.enterOff_eq (s : State) (n : Nat) :
    s.enterOff n = if s.link n = 0 then s else (((s.cutReception n).abortTx n).flushPort n).toOff n := rfl

theorem State.toOff_link (s : State) (n : Nat) : (s.toOff n).link n = 0 := by
  rw [State.link, State.toOff, State.idleVerify_eq, State.rd_setVerify _ _ _ (by decide),
    State.rd_wr_p _ _ _ _ _ (by decide) (by decide), State.setPort_rd, State.rd_wr_p _ _ _ _ _ (by decide) (by decide),
    State.rd_wr_p _ _ _ _ _ (by decide) (by decide), State.rd_wr_p_self _ _ _ _ (by decide)]
  rfl

theorem State.rd_toOff_ctrl (s : State) (n : Nat) : (s.toOff n).rd (PT_CTRL_EN.p n) = s.rd (PT_CTRL_EN.p n) := by
  rw [State.toOff, State.idleVerify_eq, State.rd_setVerify _ _ _ (by decide), State.rd_wr_p _ _ _ _ _ (by decide) (by decide),
    State.setPort_rd, State.rd_wr_p _ _ _ _ _ (by decide) (by decide), State.rd_wr_p _ _ _ _ _ (by decide) (by decide),
    State.rd_wr_p _ _ _ _ _ (by decide) (by decide)]

theorem State.enterOff_link (s : State) (n : Nat) : (s.enterOff n).link n = 0 := by
  rw [State.enterOff_eq]
  split
  · assumption
  · exact State.toOff_link _ n

theorem State.enterOff_ctrl (s : State) (hn : n < 32) : (s.enterOff n).rd (PT_CTRL_EN.p n) = s.rd (PT_CTRL_EN.p n) := by
  rw [State.enterOff_eq]
  split
  · rfl
  · rw [State.rd_toOff_ctrl, (((LinkKept.refl 0x14 _).abortTx n).flushPort n).rd hn (by decide), State.rd_cutReception _ hn (by decide)]

/-! ### PT_CMD (R89, R91) -/

theorem ptWrite_cmd (hn : n < 19) (v : Nat) : ptWrite n 8 v s = ptCmdWrite n v s := by
  unfold ptWrite
  rw [if_neg (by omega), if_neg (by omega), if_neg (by decide), if_pos rfl]

theorem ptCmdWrite_dormant (hn : n < 16) (hl : s.link n = 2) :
    ptCmdWrite n 1 s =
      let t := s.wr (PT_STATUS_STATE.p n) 3
      if t.rd (PT_STATUS_VERIFY.p n) = 2 then t.wr (PT_STATUS_VERIFY.p n) 1 else t := by
  unfold ptCmdWrite
  simp only [show bit 1 0 = true by decide, show bit 1 1 = false by decide, show bit 1 2 = false by decide, if_true,
    Bool.false_eq_true, if_false]
  exact if_pos ⟨hn, hl⟩

theorem ptCmdWrite_dormant_refused (h : ¬ (n < 16 ∧ s.link n = 2)) : ptCmdWrite n 1 s = s.raise (ES_PT n) := by
  unfold ptCmdWrite
  simp only [show bit 1 0 = true by decide, show bit 1 1 = false by decide, show bit 1 2 = false by decide, if_true,
    Bool.false_eq_true, if_false]
  exact if_neg h

theorem ptCmdWrite_wake : ptCmdWrite n 2 s = if s.link n = 3 then s.portWake n else s.raise (ES_PT n) := by
  unfold ptCmdWrite
  simp only [show bit 2 0 = false by decide, show bit 2 1 = true by decide, show bit 2 2 = false by decide, if_true,
    Bool.false_eq_true, if_false]

theorem State.portWake_wakeBy (s : State) (n : Nat) :
    ((s.portWake n).port n).wakeBy = some ((s.port n).wakeBy.getD (s.clk.lapse + 50 * uUs)) := by
  unfold State.portWake
  dsimp only
  split
  · next h =>
    obtain ⟨w, hw⟩ := Option.isSome_iff_exists.1 h
    rw [hw]
    rfl
  · next h =>
    rw [State.setPort_port_self, Option.not_isSome_iff_eq_none.1 h]
    rfl

theorem RegsKept.portWake (s : State) (n : Nat) : RegsKept [] s (s.portWake n) :=
  .ite (.refl _ s) ((RegsKept.refl _ s).setPort _ _)

theorem PortRegs.portWake (s : State) (n : Nat) : PortRegs s (s.portWake n) := .ite (.refl s) ((PortRegs.refl s).setPort _ _)

/-! ### PT_PREEMPT (R80, R82) -/

theorem ptWrite_preempt (hn : n < 19) (v : Nat) : ptWrite n 0x10 v s = ptPreemptWrite n v s := by
  unfold ptWrite
  rw [if_neg (by omega), if_neg (by omega), if_neg (by decide), if_neg (by decide), if_neg (by decide), if_pos rfl]

/-- PT_PREEMPT as a write stores it: M0 has no preemption (R80). -/
def State.storePreempt (s : State) (n v : Nat) : State :=
  let t := (s.swPut (PT_PREEMPT_EN.p n).addr v).wr (PT_PREEMPT_VERIFY_MS.p n) (clampN 1 128 (v % 256))
  if n = 18 then t.wr (PT_PREEMPT_EN.p n) 0 else t

theorem ptPreemptWrite_eq (s : State) (n v : Nat) : ptPreemptWrite n v s =
    let t := s.storePreempt n v
    if t.on (PT_PREEMPT_EN.p n) ∧ ¬ s.on (PT_PREEMPT_EN.p n) then (if t.link n = 2 then t.startVerify n else t.idleVerify n)
    else if s.on (PT_PREEMPT_EN.p n) ∧ ¬ t.on (PT_PREEMPT_EN.p n) then t.setVerify n 0 0 else t := rfl

theorem ptPreemptWrite_stops {v : Nat} (hw : s.on (PT_PREEMPT_EN.p n) = true)
    (hi : (s.storePreempt n v).on (PT_PREEMPT_EN.p n) = false) : ptPreemptWrite n v s = (s.storePreempt n v).setVerify n 0 0 := by
  rw [ptPreemptWrite_eq]
  simp [hw, hi]

theorem ptPreemptWrite_begins {v : Nat} (hw : s.on (PT_PREEMPT_EN.p n) = false)
    (hi : (s.storePreempt n v).on (PT_PREEMPT_EN.p n) = true) :
    ptPreemptWrite n v s = if (s.storePreempt n v).link n = 2 then (s.storePreempt n v).startVerify n
      else (s.storePreempt n v).idleVerify n := by
  rw [ptPreemptWrite_eq]
  simp [hw, hi]

theorem storePreempt_regsKept (s : State) (n v : Nat) : RegsKept [(PT_PREEMPT_EN.p n).addr] s (s.storePreempt n v) := by
  have h := (s.swPut_regsKept (PT_PREEMPT_EN.p n).addr v).wr (f := PT_PREEMPT_VERIFY_MS.p n) (clampN 1 128 (v % 256)) (.head _)
  exact .ite (h.wr (f := PT_PREEMPT_EN.p n) _ (.head _)) h

theorem storePreempt_events (s : State) (n v : Nat) : EventsOnly s (s.storePreempt n v) := by
  have h := ((EventsOnly.refl s).swPut (PT_PREEMPT_EN.p n).addr v).wr (PT_PREEMPT_VERIFY_MS.p n) (clampN 1 128 (v % 256))
  unfold State.storePreempt
  dsimp only
  split
  · exact h.wr _ _
  · exact h

theorem storePreempt_rd (s : State) (n v : Nat) {g : Fld}
    (hg : PT_PREEMPT_EN.addr ≠ g.addr ∨ PT_PREEMPT_EN.hi < g.lo ∨ g.hi < PT_PREEMPT_EN.lo) :
    (s.storePreempt n v).rd (g.p n) =
      ((s.swPut (PT_PREEMPT_EN.p n).addr v).wr (PT_PREEMPT_VERIFY_MS.p n) (clampN 1 128 (v % 256))).rd (g.p n) := by
  unfold State.storePreempt
  dsimp only
  split
  · exact State.rd_wr_p _ _ _ _ _ (by decide) hg
  · rfl

theorem clampN_le {lo hi : Nat} (h : lo ≤ hi) (x : Nat) : clampN lo hi x ≤ hi := by
  unfold clampN
  split
  · exact h
  · split <;> omega

/-- The fields of PT_PREEMPT beside EN, as they are stored. -/
theorem storePreempt_shows (s : State) (hn : n < 19) (v : Nat) :
    (s.storePreempt n v).rd (PT_PREEMPT_VERIFY_MS.p n) = clampN 1 128 (v % 256) ∧
      (s.storePreempt n v).rd (PT_PREEMPT_EXPRESS_MASK.p n) = bits v 23 16 ∧
      (s.storePreempt n v).on (PT_PREEMPT_VERIFY_DIS.p n) = bit v 30 := by
  have hsw (f : FieldDesc) (hf : f ∈ ptPreemptDesc.fields) := s.rd_swPut_ptPreempt v (by omega : n < 22) hf
  have hc := clampN_le (lo := 1) (hi := 128) (by decide) (v % 256)
  refine ⟨?_, ?_, ?_⟩
  · rw [storePreempt_rd _ _ _ (by decide), State.rd_wr_p_self _ _ _ _ (by decide)]
    exact Nat.mod_eq_of_lt (by change _ < 256; omega)
  · rw [storePreempt_rd _ _ _ (by decide), State.rd_wr_p _ _ _ _ _ (by decide) (by decide)]
    exact hsw ⟨23, 16, .rw, 0xC0⟩ (by decide)
  · have h : (s.storePreempt n v).rd (PT_PREEMPT_VERIFY_DIS.p n) = bits v 30 30 := by
      rw [storePreempt_rd _ _ _ (by decide), State.rd_wr_p _ _ _ _ _ (by decide) (by decide)]
      exact hsw ⟨30, 30, .rw, 0x0⟩ (by decide)
    rw [State.on, h, bits_self]
    cases bit v 30 <;> rfl

/-- EN of PT_PREEMPT, as it is stored: it stays 0 on M0 (R80). -/
theorem storePreempt_en (s : State) (hn : n < 19) (v : Nat) :
    (s.storePreempt n v).on (PT_PREEMPT_EN.p n) = (bit v 31 && n != 18) := by
  have hsw : (s.swPut (PT_PREEMPT_EN.p n).addr v).rd (PT_PREEMPT_EN.p n) = bits v 31 31 :=
    s.rd_swPut_ptPreempt v (by omega : n < 22) (f := ⟨31, 31, .rw, 0x0⟩) (by decide)
  unfold State.storePreempt
  dsimp only
  split
  · next h =>
    rw [State.on_wr_p_zero _ _ _ (by decide), h]
    simp
  · next h =>
    rw [State.on_wr_p _ _ _ _ _ (by decide) (by decide), State.on, hsw, bits_self]
    cases bit v 31 <;> simp [b2n, h]

end

/-! ### The rows of the ports M0, E and W -/

section
variable {s : State} {req : Requester} {p : Fin 19}

theorem writeReg_ptCtrl (hw : s.Writer req) (hdom : s.dom (portDomain p) = 1) {v : Nat} (hv : v < 2 ^ 32) :
    writeReg req (0x100000 + p.val * 0x10000) v s = (ptCtrlWriteOp p v s).wrote req (0x100000 + p.val * 0x10000) v := by
  rw [← ptWrite_ctrl p.isLt]
  exact writeReg_pt (k := 0) hw (by omega) hdom (by decide) (by rw [descIn_pt (by decide)]; decide) hv

theorem writeReg_ptCmd (hw : s.Writer req) (hdom : s.dom (portDomain p) = 1) {v : Nat} (hv : v < 2 ^ 32) :
    writeReg req (0x100000 + p.val * 0x10000 + 8) v s = (ptCmdWrite p v s).wrote req (0x100000 + p.val * 0x10000 + 8) v := by
  rw [← ptWrite_cmd p.isLt]
  exact writeReg_pt hw (by omega) hdom (by decide) (by rw [descIn_pt (by decide)]; decide) hv

theorem writeReg_ptPreempt (hw : s.Writer req) (hdom : s.dom (portDomain p) = 1) {v : Nat} (hv : v < 2 ^ 32) :
    writeReg req (0x100000 + p.val * 0x10000 + 0x10) v s =
      (ptPreemptWrite p v s).wrote req (0x100000 + p.val * 0x10000 + 0x10) v := by
  rw [← ptWrite_preempt p.isLt]
  exact writeReg_pt hw (by omega) hdom (by decide) (by rw [descIn_pt (by decide)]; decide) hv

/-- A field that reads as a bit of the word written. -/
theorem State.on_of_bits {t : State} {f : Fld} {v k : Nat} (h : t.rd f = bits v k k) : t.on f = bit v k := by
  rw [State.on, h, bits_self]
  cases bit v k <;> rfl

theorem State.wrote_link (s : State) (r : Requester) (o v n : Nat) : (s.wrote r o v).link n = s.link n := State.wrote_rd ..
theorem State.wrote_port (s : State) (r : Requester) (o v n : Nat) : (s.wrote r o v).port n = s.port n :=
  State.port_of_ports (State.wrote_ports ..) n

/-- What a write of PT_CTRL of a disabled port that leaves it disabled stores (R71). -/
theorem ptCtrl_stored (hw : s.Writer req) (hdom : s.dom (portDomain p) = 1) (v : Word) (hoff : s.on (PT_CTRL_EN.p p) = false)
    (hv : bit v.toNat 31 = false) : Answers (exec (.ptCtrlWrite req (p.castLE (by decide)) v) s) (fun t =>
      t.on (PT_CTRL_EN.p p) = false ∧ t.rd (PT_CTRL_UP_HOLD_MS.p p) = bits v.toNat 15 8 ∧
      t.rd (PT_CTRL_MODE.p p) = modeStored p (bits v.toNat 30 28) ∧ t.rd (PT_CTRL_AN_EN.p p) = bits v.toNat 23 23 ∧
      RegsKept [(PT_CTRL_EN.p p).addr] s t ∧ t = s.withAccess t) := by
  obtain ⟨hen, hhold, hmode, han⟩ := storeCtrl_shows s p.isLt v.toNat
  have he : exec (.ptCtrlWrite req (p.castLE (by decide)) v) s =
      .next ((s.storeCtrl p v.toNat).wrote req (0x100000 + p.val * 0x10000) v.toNat) := by
    rw [← ptCtrlWriteOp_disabled hoff hv]
    exact congrArg Host.Outcome.next (writeReg_ptCtrl hw hdom v.isLt)
  refine ⟨_, he, ?_, ?_, ?_, ?_, ?_, ?_⟩
  · rw [State.wrote_on, State.on_of_bits hen, hv]
  · rw [State.wrote_rd, hhold]
  · rw [State.wrote_rd, hmode]
  · rw [State.wrote_rd, han]
  · exact (storeCtrl_regsKept s p v.toNat).wrote _ _ _
  · exact (storeCtrl_events s p v.toNat).wrote _ _ _

theorem State.raise_port_rd (s : State) {n : Nat} (hn : n < 32) {g : Fld} (hg : 0x30014 < g.addr) :
    (s.raise (ES_PT n)).rd (g.p n) = s.rd (g.p n) := by
  refine State.rd_of_word (State.word_raise_ne _ _ ?_)
  rw [State.raise_port_addr hn]
  exact Fld.addr_p_ne_of_lt n hg

/-- PT_CTRL of an enabled port: EN and UP_HOLD_MS take the word written (R71). -/
theorem rd_keepCtrl (s : State) (hn : n < 32) (v : Nat) {g : Fld} (hg : 0x30014 < g.addr) :
    (s.keepCtrl n v).rd (g.p n) =
      ((s.wr (PT_CTRL_EN.p n) (bits v 31 31)).wr (PT_CTRL_UP_HOLD_MS.p n) (bits v 15 8)).rd (g.p n) := by
  unfold State.keepCtrl
  dsimp only
  split
  · rfl
  · exact State.raise_port_rd _ hn hg

theorem keepCtrl_en (s : State) (hn : n < 32) (v : Nat) : (s.keepCtrl n v).on (PT_CTRL_EN.p n) = bit v 31 := by
  have h : (s.keepCtrl n v).rd (PT_CTRL_EN.p n) = bits v 31 31 := by
    rw [rd_keepCtrl s hn v (by decide), State.rd_wr_p _ _ _ _ _ (by decide) (by decide), State.rd_wr_p_self _ _ _ _ (by decide)]
    exact Nat.mod_eq_of_lt (bits_lt ..)
  exact State.on_of_bits h

theorem keepCtrl_hold (s : State) (hn : n < 32) (v : Nat) : (s.keepCtrl n v).rd (PT_CTRL_UP_HOLD_MS.p n) = bits v 15 8 := by
  rw [rd_keepCtrl s hn v (by decide), State.rd_wr_p_self _ _ _ _ (by decide)]
  exact Nat.mod_eq_of_lt (bits_lt ..)

theorem keepCtrl_rd (s : State) (hn : n < 32) (v : Nat) {g : Fld} (hg : 0x30014 < g.addr)
    (he : PT_CTRL_EN.addr ≠ g.addr ∨ PT_CTRL_EN.hi < g.lo ∨ g.hi < PT_CTRL_EN.lo)
    (hh : PT_CTRL_UP_HOLD_MS.addr ≠ g.addr ∨ PT_CTRL_UP_HOLD_MS.hi < g.lo ∨ g.hi < PT_CTRL_UP_HOLD_MS.lo) :
    (s.keepCtrl n v).rd (g.p n) = s.rd (g.p n) := by
  rw [rd_keepCtrl s hn v hg, State.rd_wr_p _ _ _ _ _ (by decide) hh, State.rd_wr_p _ _ _ _ _ (by decide) he]

theorem keepCtrl_regsKept (s : State) (hn : n < 32) (v : Nat) :
    RegsKept [(PT_CTRL_EN.p n).addr, 0x30014] s (s.keepCtrl n v) := by
  have h : RegsKept [(PT_CTRL_EN.p n).addr, 0x30014] s
      ((s.wr (PT_CTRL_EN.p n) (bits v 31 31)).wr (PT_CTRL_UP_HOLD_MS.p n) (bits v 15 8)) :=
    ((RegsKept.refl _ s).wr (f := PT_CTRL_EN.p n) _ (.head _)).wr (f := PT_CTRL_UP_HOLD_MS.p n) _ (.head _)
  exact .ite h (h.raise (by rw [State.raise_port_addr hn]; simp))

theorem keepCtrl_events (s : State) (n v : Nat) : EventsOnly s (s.keepCtrl n v) := by
  have h := ((EventsOnly.refl s).wr (PT_CTRL_EN.p n) (bits v 31 31)).wr (PT_CTRL_UP_HOLD_MS.p n) (bits v 15 8)
  unfold State.keepCtrl
  dsimp only
  split
  · exact h
  · exact h.raise _

/-- What a write of PT_CTRL of an enabled port that leaves it enabled stores (R71). -/
theorem ptCtrl_kept (hw : s.Writer req) (hdom : s.dom (portDomain p) = 1) (v : Word) (hon : s.on (PT_CTRL_EN.p p) = true)
    (hv : bit v.toNat 31 = true) : Answers (exec (.ptCtrlWrite req (p.castLE (by decide)) v) s) (fun t =>
      t.on (PT_CTRL_EN.p p) = true ∧ t.rd (PT_CTRL_UP_HOLD_MS.p p) = bits v.toNat 15 8 ∧
      t.rd (PT_CTRL_MODE.p p) = s.rd (PT_CTRL_MODE.p p) ∧ t.rd (PT_CTRL_MAXLEN.p p) = s.rd (PT_CTRL_MAXLEN.p p) ∧
      t.rd (PT_CTRL_FEC.p p) = s.rd (PT_CTRL_FEC.p p) ∧ t.rd (PT_CTRL_AN_EN.p p) = s.rd (PT_CTRL_AN_EN.p p) ∧
      (bits v.toNat 30 23 ≠ bits (s.word (PT_CTRL_EN.p p).addr) 30 23 → bit (t.word 0x30014) p = true) ∧
      RegsKept [(PT_CTRL_EN.p p).addr, 0x30014] s t ∧ t = s.withAccess t) := by
  have hp : p.val < 32 := by omega
  have he : exec (.ptCtrlWrite req (p.castLE (by decide)) v) s =
      .next ((s.keepCtrl p v.toNat).wrote req (0x100000 + p.val * 0x10000) v.toNat) := by
    rw [← ptCtrlWriteOp_enabled hon hv]
    exact congrArg Host.Outcome.next (writeReg_ptCtrl hw hdom v.isLt)
  refine ⟨_, he, ?_, ?_, ?_, ?_, ?_, ?_, fun hne => ?_, ?_, ?_⟩
  · rw [State.wrote_on, keepCtrl_en s hp, hv]
  · rw [State.wrote_rd, keepCtrl_hold s hp]
  · rw [State.wrote_rd, keepCtrl_rd s hp _ (by decide) (by decide) (by decide)]
  · rw [State.wrote_rd, keepCtrl_rd s hp _ (by decide) (by decide) (by decide)]
  · rw [State.wrote_rd, keepCtrl_rd s hp _ (by decide) (by decide) (by decide)]
  · rw [State.wrote_rd, keepCtrl_rd s hp _ (by decide) (by decide) (by decide)]
  · have hraise : s.keepCtrl p v.toNat = _ := if_neg (heldFields_ne hne)
    rw [State.wrote_word, hraise]
    exact State.raise_port_bit _ hp
  · exact (keepCtrl_regsKept s hp v.toNat).wrote _ _ _
  · exact (keepCtrl_events s p v.toNat).wrote _ _ _

/-! ### PORT_ENABLE and PORT_DISABLE -/

theorem bit_setBits_self (x n b : Nat) : bit (setBits x n n b) n = decide (b % 2 = 1) := by
  have h := bits_setBits_self x n n b (Nat.le_refl n)
  rw [bits_self, Nat.add_sub_cancel_left] at h
  cases hb : bit (setBits x n n b) n <;> rw [hb] at h <;> simp [b2n] at h <;> simp <;> omega

/-- A disabled port in OFF that is enabled enters DOWN, its grace time running (R92, R126). -/
theorem portEnable_leaves (hw : s.Writer req) (hdom : s.dom (portDomain p) = 1) (hoff : s.on (PT_CTRL_EN.p p) = false)
    (hl : s.link p = 0) : Answers (exec (.portEnable req p) s) (fun t =>
      t.on (PT_CTRL_EN.p p) = true ∧ t.link p = 1 ∧ (t.port p).graceTo = some (s.graceFrom p) ∧
      (∀ q, q ≠ p.val → t.port q = s.port q) ∧
      RegsKept [(PT_CTRL_EN.p p).addr, (PT_STATUS_STATE.p p).addr] s t ∧ t = { s.withAccess t with ports := t.ports }) := by
  have hp : p.val < 32 := by omega
  have hv := bit_setBits_self (s.word (PT_CTRL_EN.p p).addr) 31 1
  have hlt := setBits_lt _ 31 31 1 32 (by decide) (by decide) (s.word_lt (PT_CTRL_EN.p p).addr)
  generalize hw' : setBits (s.word (PT_CTRL_EN.p p).addr) 31 31 1 = v at hv hlt
  have hkept := storeCtrl_regsKept s p v
  have hev := storeCtrl_events s p v
  obtain ⟨hen, -⟩ := storeCtrl_shows s p.isLt v
  have he : exec (.portEnable req p) s = .next (((s.storeCtrl p v).toDown p).wrote req (0x100000 + p.val * 0x10000) v) := by
    have hdown : (s.storeCtrl p v).enterDown p = (s.storeCtrl p v).toDown p := by
      have hlink : (s.storeCtrl p v).link p = 0 := (hkept.rd _ (by simp [PT_STATUS_STATE, PT_CTRL_EN, Fld.p])).trans hl
      rw [State.enterDown_eq, hlink]
      exact if_neg (by decide)
    have hd : (s.storeCtrl p v).dom (portDomain p) = 1 := (hkept.dom (by simp [PM_DOMAIN_PD0, PT_CTRL_EN, Fld.p]; omega) _).trans hdom
    rw [← hdown, ← ptCtrlWriteOp_enables hoff hv hd, ← hw']
    exact congrArg Host.Outcome.next (writeReg_ptCtrl hw hdom (hw' ▸ hlt))
  refine ⟨_, he, ?_, ?_, ?_, fun q hq => ?_, ?_, ?_⟩
  · rw [State.wrote_on, State.on_of_bits ((State.rd_toDown _ (by decide) (by decide)).trans hen), hv]
    rfl
  · rw [State.wrote_link, State.toDown_link]
  · have hgrace : (s.storeCtrl p v).graceFrom p = s.graceFrom p := by
      rw [State.graceFrom, hev.clk_eq, hkept.rd _ (by simp [HL_P_GRACE_MS, PT_CTRL_EN, Fld.p, Fld.i]; omega), State.graceFrom]
    rw [State.wrote_port, State.toDown_port_self _ hp, hgrace]
    rfl
  · rw [State.wrote_port, State.toDown_port_ne _ hq, State.port_of_ports hev.ports_eq]
  · exact ((hkept.mono (by simp)).toDown (by simp)).wrote _ _ _
  · exact ((hev.ports).trans ((PortRegs.refl _).toDown).events).wrote _ _ _

/-- An enabled port that is disabled enters OFF (R128). -/
theorem portDisable_leaves (hw : s.Writer req) (hdom : s.dom (portDomain p) = 1) (hon : s.on (PT_CTRL_EN.p p) = true) :
    Answers (exec (.portDisable req p) s) (fun t =>
      t.on (PT_CTRL_EN.p p) = false ∧ t.link p = 0 ∧
      t = (((s.wr (PT_CTRL_EN.p p) 0).wr (PT_CTRL_UP_HOLD_MS.p p) (s.rd (PT_CTRL_UP_HOLD_MS.p p))).enterOff p).wrote req
        (0x100000 + p.val * 0x10000) (setBits (s.word (PT_CTRL_EN.p p).addr) 31 31 0)) := by
  have hp : p.val < 32 := by omega
  have hv := bit_setBits_self (s.word (PT_CTRL_EN.p p).addr) 31 0
  have hlt := setBits_lt _ 31 31 0 32 (by decide) (by decide) (s.word_lt (PT_CTRL_EN.p p).addr)
  have hkeep (hi lo : Nat) (hhi : hi < 31) : bits (setBits (s.word (PT_CTRL_EN.p p).addr) 31 31 0) hi lo =
      bits (s.word (PT_CTRL_EN.p p).addr) hi lo := bits_setBits_disjoint _ _ _ _ _ _ (by decide) (.inr hhi)
  generalize hw' : setBits (s.word (PT_CTRL_EN.p p).addr) 31 31 0 = v at hv hlt hkeep
  have hstored : s.keepCtrl p v = (s.wr (PT_CTRL_EN.p p) 0).wr (PT_CTRL_UP_HOLD_MS.p p) (s.rd (PT_CTRL_UP_HOLD_MS.p p)) := by
    have hfields : heldFields v = heldFields (s.word (PT_CTRL_EN.p p).addr) := by
      unfold heldFields
      rw [hkeep _ _ (by decide), hkeep _ _ (by decide), hkeep _ _ (by decide), hkeep _ _ (by decide)]
    have hen : bits v 31 31 = 0 := by rw [bits_self, hv]; rfl
    have hstore : s.keepCtrl p v = _ := if_pos hfields
    rw [hstore, hen, hkeep _ _ (by decide)]
    rfl
  have he : exec (.portDisable req p) s = .next (((s.keepCtrl p v).enterOff p).wrote req (0x100000 + p.val * 0x10000) v) := by
    rw [← ptCtrlWriteOp_disables hon hv, ← hw']
    exact congrArg Host.Outcome.next (writeReg_ptCtrl hw hdom (hw' ▸ hlt))
  refine ⟨_, he, ?_, ?_, by rw [hstored]⟩
  · rw [State.wrote_on, State.on_of_rd (State.enterOff_ctrl _ hp), keepCtrl_en s hp, hv]
    rfl
  · rw [State.wrote_link, State.enterOff_link]

/-! ### PT_CMD and PT_PREEMPT -/

/-- A broken pause is forgiven (R91). -/
theorem pauseRearm_leaves (hw : s.Writer req) (hdom : s.dom (portDomain p) = 1) :
    Answers (exec (.pauseRearm req p) s) (fun t =>
      t.on (PT_STATUS_PAUSE_BROKEN.p p) = false ∧ RegsKept [(PT_STATUS_PAUSE_BROKEN.p p).addr] s t ∧ t = s.withAccess t) := by
  have he : exec (.pauseRearm req p) s =
      .next ((s.wr (PT_STATUS_PAUSE_BROKEN.p p) 0).wrote req (0x100000 + p.val * 0x10000 + 8) 4) :=
    congrArg Host.Outcome.next (writeReg_ptCmd hw hdom (by decide))
  refine ⟨_, he, ?_, ((RegsKept.refl _ s).wr (f := PT_STATUS_PAUSE_BROKEN.p p) _ (.head _)).wrote _ _ _,
    ((EventsOnly.refl s).wr _ _).wrote _ _ _⟩
  rw [State.wrote_on, State.on_wr_p_zero _ _ _ (by decide)]

/-- A port in DORMANT, as it leaves UP: verification in progress waits for the link (R82, R89). -/
def State.goDormant (s : State) (n : Nat) : State :=
  let t := s.wr (PT_STATUS_STATE.p n) 3
  if t.rd (PT_STATUS_VERIFY.p n) = 2 then t.wr (PT_STATUS_VERIFY.p n) 1 else t

theorem goDormant_shows (s : State) (n : Nat) :
    (s.goDormant n).link n = 3 ∧
      (s.goDormant n).rd (PT_STATUS_VERIFY.p n) = if s.rd (PT_STATUS_VERIFY.p n) = 2 then 1 else s.rd (PT_STATUS_VERIFY.p n) := by
  have hv := s.rd_wr_p PT_STATUS_STATE PT_STATUS_VERIFY n 3 (by decide) (by decide)
  have hl := s.rd_wr_p_self PT_STATUS_STATE n 3 (by decide)
  unfold State.goDormant
  dsimp only
  rw [hv]
  split
  · exact ⟨(State.rd_wr_p _ _ _ _ _ (by decide) (by decide)).trans hl, State.rd_wr_p_self _ _ _ _ (by decide)⟩
  · exact ⟨hl, hv⟩

/-- A port that is told to go dormant (R89). -/
theorem ptDormant_leaves (hw : s.Writer req) (hdom : s.dom (portDomain p) = 1) (hp : p.val < 16) (hl : s.link p = 2) :
    Answers (exec (.ptDormant req p) s) (fun t =>
      t.link p = 3 ∧ t.rd (PT_STATUS_VERIFY.p p) = (if s.rd (PT_STATUS_VERIFY.p p) = 2 then 1 else s.rd (PT_STATUS_VERIFY.p p)) ∧
      RegsKept [(PT_STATUS_STATE.p p).addr] s t ∧ t = s.withAccess t) := by
  have he : exec (.ptDormant req p) s = .next ((s.goDormant p).wrote req (0x100000 + p.val * 0x10000 + 8) 1) := by
    rw [State.goDormant, ← ptCmdWrite_dormant hp hl]
    exact congrArg Host.Outcome.next (writeReg_ptCmd hw hdom (by decide))
  obtain ⟨hlink, hverify⟩ := goDormant_shows s p
  have hregs := (RegsKept.refl [(PT_STATUS_STATE.p p).addr] s).wr (f := PT_STATUS_STATE.p p) 3 (.head _)
  have hkept : RegsKept [(PT_STATUS_STATE.p p).addr] s (s.goDormant p) :=
    .ite (hregs.wr (f := PT_STATUS_VERIFY.p p) _ (.head _)) hregs
  have hevents : EventsOnly s (s.goDormant p) := by
    have h := (EventsOnly.refl s).wr (PT_STATUS_STATE.p p) 3
    unfold State.goDormant
    dsimp only
    split
    · exact h.wr _ _
    · exact h
  refine ⟨_, he, ?_, ?_, hkept.wrote _ _ _, hevents.wrote _ _ _⟩
  · rw [State.wrote_link, hlink]
  · rw [State.wrote_rd, hverify]

/-- A command that is discarded sets the port event alone. -/
theorem portEvent_leaves {o v : Nat} {i : Instr}
    (he : exec i s = .next ((s.raise (ES_PT p)).wrote req o v)) :
    Answers (exec i s) (fun t => bit (t.word 0x30014) p = true ∧ RegsKept [0x30014] s t ∧ t = s.withAccess t) := by
  have hp : p.val < 32 := by omega
  refine ⟨_, he, ?_, ((RegsKept.refl _ s).raise (by rw [State.raise_port_addr hp]; simp)).wrote _ _ _,
    ((EventsOnly.refl s).raise _).wrote _ _ _⟩
  rw [State.wrote_word, State.raise_port_bit _ hp]

theorem ptDormant_refused (hw : s.Writer req) (hdom : s.dom (portDomain p) = 1) (h : 16 ≤ p.val ∨ s.link p ≠ 2) :
    Answers (exec (.ptDormant req p) s) (fun t =>
      bit (t.word 0x30014) p = true ∧ RegsKept [0x30014] s t ∧ t = s.withAccess t) := by
  refine portEvent_leaves (o := 0x100000 + p.val * 0x10000 + 8) (v := 1) (req := req) ?_
  rw [← ptCmdWrite_dormant_refused (by omega)]
  exact congrArg Host.Outcome.next (writeReg_ptCmd hw hdom (by decide))

theorem ptWake_leaves (hw : s.Writer req) (hdom : s.dom (portDomain p) = 1) (hl : s.link p = 3) :
    Answers (exec (.ptWake req p) s) (fun t =>
      (t.port p).wakeBy = some ((s.port p).wakeBy.getD (s.clk.lapse + 50 * uUs)) ∧
      RegsKept [] s t ∧ t = { s.withAccess t with ports := t.ports }) := by
  have he : exec (.ptWake req p) s = .next ((s.portWake p).wrote req (0x100000 + p.val * 0x10000 + 8) 2) := by
    have hcmd : ptCmdWrite p 2 s = s.portWake p := ptCmdWrite_wake.trans (if_pos hl)
    rw [← hcmd]
    exact congrArg Host.Outcome.next (writeReg_ptCmd hw hdom (by decide))
  refine ⟨_, he, ?_, (RegsKept.portWake s p).wrote _ _ _, (PortRegs.portWake s p).events.wrote _ _ _⟩
  rw [State.wrote_port, State.portWake_wakeBy]

theorem ptWake_refused (hw : s.Writer req) (hdom : s.dom (portDomain p) = 1) (hl : s.link p ≠ 3) :
    Answers (exec (.ptWake req p) s) (fun t =>
      bit (t.word 0x30014) p = true ∧ RegsKept [0x30014] s t ∧ t = s.withAccess t) := by
  have hcmd : ptCmdWrite p 2 s = s.raise (ES_PT p) := ptCmdWrite_wake.trans (if_neg hl)
  refine portEvent_leaves (o := 0x100000 + p.val * 0x10000 + 8) (v := 2) (req := req) ?_
  rw [← hcmd]
  exact congrArg Host.Outcome.next (writeReg_ptCmd hw hdom (by decide))

/-- Preemption that is switched off stops (R82). -/
theorem preempt_stops (hw : s.Writer req) (hdom : s.dom (portDomain p) = 1) (v : Word) (hon : s.on (PT_PREEMPT_EN.p p) = true)
    (hv : bit v.toNat 31 = false) : Answers (exec (.preemptEnWrite req p v) s) (fun t =>
        t.on (PT_PREEMPT_EN.p p) = false ∧ t.rd (PT_STATUS_VERIFY.p p) = 0 ∧ t.on (PT_STATUS_PREEMPT_ACTIVE.p p) = false ∧
        t.rd (PT_PREEMPT_VERIFY_MS.p p) = clampN 1 128 (v.toNat % 256) ∧
        RegsKept [(PT_PREEMPT_EN.p p).addr, (PT_STATUS_VERIFY.p p).addr] s t ∧ t = s.withAccess t) := by
  have hen := storePreempt_en s p.isLt v.toNat
  rw [hv, Bool.false_and] at hen
  have he : exec (.preemptEnWrite req p v) s =
      .next (((s.storePreempt p v.toNat).setVerify p 0 0).wrote req (0x100000 + p.val * 0x10000 + 0x10) v.toNat) := by
    rw [← ptPreemptWrite_stops hon hen]
    exact congrArg Host.Outcome.next (writeReg_ptPreempt hw hdom v.isLt)
  obtain ⟨hms, -, -⟩ := storePreempt_shows s p.isLt v.toNat
  refine ⟨_, he, ?_, ?_, ?_, ?_, ?_, ?_⟩
  · rw [State.wrote_on, State.on_of_rd (State.rd_setVerify _ _ _ (by decide)), hen]
  · rw [State.wrote_rd, State.rd_setVerify_status]
  · rw [State.wrote_on, State.on, State.rd_setVerify_active]
    rfl
  · rw [State.wrote_rd, State.rd_setVerify _ _ _ (by decide), hms]
  · exact (((storePreempt_regsKept s p v.toNat).mono (by simp)).setVerify _ _ (by simp)).wrote _ _ _
  · exact (((storePreempt_events s p v.toNat).wr _ _).wr _ _).wrote _ _ _

/-- What becomes of verification as preemption is switched on: it is skipped, begins, or waits for the link (R82). -/
theorem verify_begun {t u : State} {n : Nat} {skip : Bool} (hen : t.on (PT_PREEMPT_EN.p n) = true)
    (hdis : t.on (PT_PREEMPT_VERIFY_DIS.p n) = skip)
    (hu : u = if t.link n = 2 then t.startVerify n else t.idleVerify n) :
    u.rd (PT_STATUS_VERIFY.p n) = (if t.link n ≠ 2 then 1 else if skip then 5 else 2) ∧
      u.on (PT_STATUS_PREEMPT_ACTIVE.p n) = (t.link n == 2 && skip) ∧ (t.link n = 2 → skip = false → (u.port n).verifySent = 0) := by
  subst hu
  have hactive (x : State) (v a : Nat) : (x.setVerify n v a).on (PT_STATUS_PREEMPT_ACTIVE.p n) = (a % 2 == 1) := by
    rw [State.on, State.rd_setVerify_active]
  by_cases hl : t.link n = 2
  · rw [if_pos hl, if_neg (not_not.2 hl), hl]
    cases skip with
    | true =>
      rw [State.startVerify_skip hen hdis]
      exact ⟨State.rd_setVerify_status .., hactive .., fun _ h => absurd h (by decide)⟩
    | false =>
      rw [State.startVerify_go hen hdis]
      refine ⟨(State.setPort_rd ..).trans (State.rd_setVerify_status ..), (State.setPort_on ..).trans (hactive ..), fun _ _ => ?_⟩
      rw [State.setPort_port_self]
  · rw [if_neg hl, if_pos hl, State.idleVerify_eq, hen]
    exact ⟨State.rd_setVerify_status .., (hactive ..).trans (by simp [hl]), fun h => absurd h hl⟩

/-- Preemption that is switched on begins (R82). -/
theorem preempt_begins (hw : s.Writer req) (hdom : s.dom (portDomain p) = 1) (v : Word) (hp : p.val ≠ 18)
    (hoff : s.on (PT_PREEMPT_EN.p p) = false) (hv : bit v.toNat 31 = true) :
    Answers (exec (.preemptEnWrite req p v) s) (fun t =>
        t.on (PT_PREEMPT_EN.p p) = true ∧ t.rd (PT_PREEMPT_EXPRESS_MASK.p p) = bits v.toNat 23 16 ∧
        t.rd (PT_STATUS_VERIFY.p p) = (if s.link p ≠ 2 then 1 else if bit v.toNat 30 then 5 else 2) ∧
        t.on (PT_STATUS_PREEMPT_ACTIVE.p p) = (s.link p == 2 && bit v.toNat 30) ∧
        (s.link p = 2 → bit v.toNat 30 = false → (t.port p).verifySent = 0) ∧
        RegsKept [(PT_PREEMPT_EN.p p).addr, (PT_STATUS_VERIFY.p p).addr] s t ∧ t = { s.withAccess t with ports := t.ports }) := by
  have hen : (s.storePreempt p v.toNat).on (PT_PREEMPT_EN.p p) = true := by
    rw [storePreempt_en s p.isLt, hv]
    simpa using hp
  have hkept := storePreempt_regsKept s p v.toNat
  have hlink : (s.storePreempt p v.toNat).link p = s.link p := hkept.rd _ (by simp [PT_STATUS_STATE, PT_PREEMPT_EN, Fld.p])
  obtain ⟨-, hmask, hdis⟩ := storePreempt_shows s p.isLt v.toNat
  have hbegins := ptPreemptWrite_begins hoff hen
  obtain ⟨hstatus, hactive, hsent⟩ := verify_begun hen hdis hbegins
  have he : exec (.preemptEnWrite req p v) s =
      .next ((ptPreemptWrite p v.toNat s).wrote req (0x100000 + p.val * 0x10000 + 0x10) v.toNat) :=
    congrArg Host.Outcome.next (writeReg_ptPreempt hw hdom v.isLt)
  have hrd {g : Fld} (hg : g.besideVerify) :
      (ptPreemptWrite p v.toNat s).rd (g.p p) = (s.storePreempt p v.toNat).rd (g.p p) := by
    rw [hbegins]
    split
    · exact State.rd_startVerify _ hg
    · exact State.rd_setVerify _ _ _ hg
  rw [hlink] at hstatus hactive hsent
  refine ⟨_, he, ?_, ?_, ?_, ?_, fun h1 h2 => ?_, ?_, ?_⟩
  · rw [State.wrote_on, State.on_of_rd (hrd (by decide)), hen]
  · rw [State.wrote_rd, hrd (by decide), hmask]
  · rw [State.wrote_rd, hstatus]
  · rw [State.wrote_on, hactive]
  · rw [State.wrote_port, hsent h1 h2]
  · have h := hkept.mono (l' := [(PT_PREEMPT_EN.p p).addr, (PT_STATUS_VERIFY.p p).addr]) (by simp)
    rw [hbegins]
    exact (RegsKept.ite (h.startVerify (by simp)) (h.setVerify _ _ (by simp))).wrote _ _ _
  · have h : PortEvents s (ptPreemptWrite p v.toNat s) := by
      rw [hbegins]
      have hev := (storePreempt_events s p v.toNat).ports
      split
      · exact hev.trans (PortRegs.refl _).startVerify.events
      · exact hev.trans ((PortRegs.refl _).setVerify _ _).events
    exact h.wrote _ _ _

end

end Sys2Proof.Machine
end

section
/-!
The octet counters' latch (R101) and the registers of the descriptor rings (R103, R104), and the statement on a port's registers.
-/
namespace Sys2Proof.Machine

/-! ### The octet counters (R101) -/

section
variable {s : State} {n : Nat}

/-- Where a requester's latched high word of a port's octet counter stands. -/
def octKey (q n : Nat) (tx : Bool) : Nat := q * 64 + n * 2 + b2n tx

/-- The page offset of the low word of an octet counter. -/
def octLow (tx : Bool) : Nat := if tx then 0x110 else 0x104

/-- The state in which requester `q` has latched a high word. -/
def State.latchOct (s : State) (q n : Nat) (tx : Bool) : State :=
  { s with ports := { s.ports with octLatch := aput s.ports.octLatch (octKey q n tx) (s.word0 (0x100000 + n * 0x10000 + octLow tx + 4)) } }

theorem ptRead_octLow (q n : Nat) (tx : Bool) :
    ptRead q n (octLow tx) s = some (s.word0 (0x100000 + n * 0x10000 + octLow tx), s.latchOct q n tx) := by
  have hlow : octLow tx = 0x104 ∨ octLow tx = 0x110 := by cases tx <;> simp [octLow]
  have hkey : q * 64 + n * 2 + b2n (decide (0x10C ≤ octLow tx)) = octKey q n tx := by cases tx <;> rfl
  unfold ptRead
  rw [if_neg (by omega), if_neg (by omega), if_neg (by omega)]
  dsimp only
  rw [if_pos hlow, hkey]
  rfl

theorem regRead_octLow (req : Requester) (n page : Nat) (tx : Bool) :
    regRead .pt n req (octLow tx) page s =
      (some (s.word0 (0x100000 + n * 0x10000 + octLow tx)), s.latchOct (rqIndex req) n tx) := by
  have h : pageRead .pt n req (octLow tx) s =
      (ptRead (rqIndex req) n (octLow tx) s).map (fun x => (some x.1, x.2)) := rfl
  rw [regRead, h, ptRead_octLow]
  rfl

theorem octLow_desc (tx : Bool) : (descIn .pt n (octLow tx)).isSome = true := by
  cases tx <;> (rw [descIn_pt (by decide)]; decide)

theorem octetLatch_leaves {req : Requester} {q : Fin 22} {tx : Bool} (hr : s.Reaches req) (hc : s.CalServed)
    (hdom : s.dom (pageDomain .pt q) = 1) :
    Answers (exec (.octetCounterLatch req q tx) s) (fun t =>
      agetD t.ports.octLatch (rqIndex req * 64 + q.val * 2 + b2n tx) 0 =
        s.word0 (0x100000 + q.val * 0x10000 + (if tx then 0x114 else 0x108)) ∧
      (∀ k, k ≠ rqIndex req * 64 + q.val * 2 + b2n tx → agetD t.ports.octLatch k 0 = agetD s.ports.octLatch k 0) ∧
      t.bus.map (fun c => c.data) = some (s.word0 (0x100000 + q.val * 0x10000 + (if tx then 0x110 else 0x104))) ∧
      RegsKept [] s t ∧ t = { s.withAccess t with ports := { s.ports with octLatch := t.ports.octLatch } }) := by
  have hlow : octLow tx < 0x10000 := by cases tx <;> decide
  have hcrypto : cryptoFields (0x100000 + q.val * 0x10000 + octLow tx) = [] := by
    have hfar : ∀ f ∈ [SB_EVENT_VERIFY_BUSY, SB_G_VERIFY_BUSY, PB_EVENT_KEY, PB_ST3_KEY_ERR], 0x300000 ≤ f.addr := by decide
    refine List.filter_eq_nil_iff.2 fun f hf hbeq => ?_
    have hle := hfar f hf
    rw [beq_iff_eq.1 hbeq] at hle
    omega
  have he : exec (.octetCounterLatch req q tx) s = .next ((s.latchOct (rqIndex req) q tx).gave req
      (0x100000 + q.val * 0x10000 + octLow tx) (s.word0 (0x100000 + q.val * 0x10000 + octLow tx))) := by
    have hread := readReg_served (o := 0x100000 + q.val * 0x10000 + octLow tx) (i := q) (b := .pt)
      (d := s.word0 (0x100000 + q.val * 0x10000 + octLow tx)) (t := s.latchOct (rqIndex req) q tx) hr (by omega)
      (by rw [pt_page hlow, pageBlock_pt q.isLt]) (.inr hdom) (by rw [pt_offset hlow, octLow_desc]) (.inl (by decide)) hcrypto
      (by rw [pt_offset hlow, regRead_octLow]) hc
    exact congrArg Host.Outcome.next hread
  have hhigh : 0x100000 + q.val * 0x10000 + octLow tx + 4 = 0x100000 + q.val * 0x10000 + (if tx then 0x114 else 0x108) := by
    cases tx <;> rfl
  refine ⟨_, he, ?_, fun k hk => ?_, ?_, ?_, ?_⟩
  · rw [State.gave_ports, ← hhigh]
    exact agetD_aput_self ..
  · rw [State.gave_ports]
    exact agetD_aput_ne _ _ _ hk
  · rw [State.gave_data]
    rfl
  · exact RegsKept.gave (t := s.latchOct (rqIndex req) q tx) (RegsKept.refl [] s) _ _ _
  · rw [State.gave_frame]
    rfl

end

/-! ### Ring registers (R103, R104) -/

theorem EventsOnly.put {s t : State} (h : EventsOnly s t) (a v : Nat) : EventsOnly s (t.put a v) := h.trans rfl

theorem State.vfVector_regs (s : State) (v k : Nat) : (s.vfVector v k).regs = s.regs ∧ (s.vfVector v k).ports = s.ports := by
  unfold State.vfVector
  dsimp only
  split
  · exact ⟨rfl, rfl⟩
  · split
    · exact ⟨State.setVf_regs .., State.setVf_ports ..⟩
    · split
      · exact ⟨rfl, rfl⟩
      · exact ⟨State.setVf_regs .., State.setVf_ports ..⟩

/-- The events of a tenant before its vector (R405, R484). -/
def State.viFlags (s : State) (f : Fld) (v : Nat) : State :=
  ((s.flag (f.p v)).setBitsEv (0x30800 + v / 32 * 4) (2 ^ (v % 32))).raise (96 + v / 8)

theorem State.viEvent_word (s : State) (f : Fld) (v a : Nat) : (s.viEvent f v).word a = (s.viFlags f v).word a := by
  have h : (s.viEvent f v).regs = (s.viFlags f v).regs := ((s.viFlags f v).vfVector_regs v 3).1
  rw [State.word, h, State.word]

theorem State.viEvent_ports (s : State) (f : Fld) (v : Nat) : (s.viEvent f v).ports = s.ports := by
  have h : (s.viEvent f v).ports = (s.viFlags f v).ports := ((s.viFlags f v).vfVector_regs v 3).2
  rw [h, State.viFlags, State.raise_ports, State.setBitsEv_ports]
  rfl

/-- A tenant's event touches its flag's register and registers of the interrupt controller. -/
theorem State.viEvent_word_page (s : State) (f : Fld) {v a : Nat} (hv : v < 512) (ha : 0x40000 ≤ a) (hf : a ≠ (f.p v).addr) :
    (s.viEvent f v).word a = s.word a := by
  rw [State.viEvent_word, State.viFlags, State.word_raise_ne _ _ (by omega), State.word_setBitsEv, State.word_put_ne _ _ (by omega),
    State.word_flag_ne _ _ hf]

theorem State.on_viEvent_self (s : State) (f : Fld) {v : Nat} (hv : v < 512) (hf : f.lo = f.hi ∧ f.hi < 32) (ha : 0x40000 ≤ f.addr) :
    (s.viEvent f v).on (f.p v) = true := by
  have haddr : (f.p v).addr = f.addr + v * 0x10000 := rfl
  have hword : (s.viEvent f v).word (f.p v).addr = (s.wr (f.p v) (2 ^ (f.p v).width - 1)).word (f.p v).addr := by
    rw [State.viEvent_word, State.viFlags, State.word_raise_ne _ _ (by omega), State.word_setBitsEv, State.word_put_ne _ _ (by omega),
      State.word_flag]
  have hwidth : (f.p v).width = 1 := by
    change f.hi + 1 - f.lo = 1
    omega
  rw [State.on_of_rd (State.rd_of_word hword), hwidth]
  exact s.on_wr_self (f.p v) true hf

/-- What a ring's bad SIZE raises (R104, R390). -/
def ringEvent (r : Ring) (s : State) : State :=
  match r with
  | .steward _ => s.raise (ES_PT 21)
  | .tenant v => s.viEvent VI_EVENT_REFUSED v

theorem ringEvent_ports (r : Ring) (s : State) : (ringEvent r s).ports = s.ports := by
  cases r with
  | steward i => exact State.raise_ports ..
  | tenant v => exact State.viEvent_ports ..

theorem ringEvent_size (r : Ring) (s : State) : (ringEvent r s).word (ringReg r 2) = s.word (ringReg r 2) := by
  cases r with
  | steward i =>
    have hev : 0x30010 + ES_PT 21 / 32 * 4 = 0x30014 := State.raise_port_addr (by decide)
    refine State.word_raise_ne s (ES_PT 21) ?_
    change 0x250400 + 0x40 * i.val + 4 * 2 ≠ _
    omega
  | tenant v =>
    have hval : ringReg (.tenant v) 2 = 0x1000800 + v.val * 0x10000 + 4 * 2 := rfl
    refine State.viEvent_word_page s _ v.isLt (by omega) ?_
    change 0x1000800 + v.val * 0x10000 + 4 * 2 ≠ 0x1000008 + v.val * 0x10000
    omega

/-- Who writes ring `r`: the steward's rings one who may write the page of I2, a tenant's ring its own VF. -/
def State.RingWriter (s : State) (req : Requester) (r : Ring) : Prop :=
  ((∃ i, r = .steward i) ∧ s.Writer req ∧ s.dom 7 = 1) ∨ (∃ i, r = .tenant i ∧ req = .vf i ∧ s.vfMapped i = true)

section
variable {s : State} {req : Requester}

theorem ptWrite_ring (i : Fin 4) {k : Nat} (hk : k < 16) (v : Nat) :
    ptWrite 21 (0x400 + 0x40 * i.val + 4 * k) v s =
      cutRing (.steward i) (ringWrite (ringReg (.steward i) 0) k v (ringEvent (.steward i)) s) := by
  have hi : (0x400 + 0x40 * i.val + 4 * k - 0x400) / 0x40 = i.val := by omega
  have hidx : Fin.ofNat 4 i.val = i := Fin.ext (Nat.mod_eq_of_lt i.isLt)
  have hreg : (0x400 + 0x40 * i.val + 4 * k) % 0x40 / 4 = k := by omega
  have hbase : 0x100000 + 21 * 0x10000 + 0x400 + i.val * 0x40 = ringReg (.steward i) 0 := by
    change _ = 0x250400 + 0x40 * i.val + 4 * 0
    omega
  unfold ptWrite
  rw [if_pos rfl, if_pos (by omega), hi, hreg, hidx, hbase]
  rfl

theorem writeReg_steward (hw : s.Writer req) (hdom : s.dom 7 = 1) (i : Fin 4) {k : Nat} (hk : k < 9) {v : Nat} (hv : v < 2 ^ 32) :
    writeReg req (ringReg (.steward i) k) v s =
      (cutRing (.steward i) (ringWrite (ringReg (.steward i) 0) k v (ringEvent (.steward i)) s)).wrote req
        (ringReg (.steward i) k) v := by
  have hreg : ringReg (.steward i) k = 0x100000 + 21 * 0x10000 + (0x400 + 0x40 * i.val + 4 * k) := by
    change 0x250400 + 0x40 * i.val + 4 * k = _
    omega
  have hdesc : ∀ (i : Fin 4) (k : Fin 9), (descIn .pt 21 (0x400 + 0x40 * i.val + 4 * k.val)).isSome = true := by decide
  rw [← ptWrite_ring i (by omega) v, hreg]
  exact writeReg_pt hw (by decide) hdom (by omega) (hdesc i ⟨k, hk⟩) hv

theorem pageBlock_vi {n : Nat} (hn : n < 512) : pageBlock (0x100 + n) = some (.vi, n) := by
  have hrange : ∀ p : Nat, p = 0x100 + n →
      (if 0x10 ≤ p ∧ p ≤ 0x25 then some (Block.pt, p - 0x10)
        else if 0x100 ≤ p ∧ p ≤ 0x2FF then some (.vi, p - 0x100) else none) = some (.vi, n) := by
    rintro p rfl
    rw [if_neg (by omega), if_pos (by omega), Nat.add_sub_cancel_left]
  unfold pageBlock
  split
  case h_19 => exact hrange _ rfl
  all_goals omega

/-- A tenant's write of the SIZE of its own receive ring (R378). -/
theorem writeReg_tenantSize {i : Fin 512} (hm : s.vfMapped i = true) {v : Nat} (hv : v < 2 ^ 32) :
    writeReg (.vf i) (ringReg (.tenant i) 2) v s =
      (cutRing (.tenant i) (ringWrite (ringReg (.tenant i) 0) 2 v (ringEvent (.tenant i)) s)).wrote (.vf i)
        (ringReg (.tenant i) 2) v := by
  obtain ⟨o, ho⟩ : ∃ o, ringReg (.tenant i) 2 = o := ⟨_, rfl⟩
  have hval : o = 0x1000808 + i.val * 0x10000 := by
    rw [← ho]
    change 0x1000800 + i.val * 0x10000 + 4 * 2 = _
    omega
  have hlt : o < 0x3000000 := by omega
  have hpage : o / 0x10000 = 0x100 + i.val := by omega
  have hoff : o % 0x10000 = 0x808 := by omega
  have hreach : s.reach (.vf i) (addrRegs + o) false = .through := by
    have hin : addrRegs + 0x1000000 + i.val * 0x10000 ≤ addrRegs + o ∧
        addrRegs + o < addrRegs + 0x1000000 + i.val * 0x10000 + 0x10000 := ⟨by omega, by omega⟩
    unfold State.reach
    dsimp only
    rw [hm, if_pos hin]
    rfl
  have hword : (BitVec.ofNat 32 v).toNat = v := by
    rw [BitVec.toNat_ofNat]
    exact Nat.mod_eq_of_lt hv
  have hwrite : viWrite (.vf i) i.val 0x808 v s =
      cutRing (.tenant i) (ringWrite (ringReg (.tenant i) 0) 2 v (ringEvent (.tenant i)) s) := by
    have hbase : viPage i.val + 0x800 = ringReg (.tenant i) 0 := by
      change 0x1000000 + i.val * 0x10000 + 0x800 = 0x1000800 + i.val * 0x10000 + 4 * 0
      omega
    have hidx : Fin.ofNat 512 i.val = i := Fin.ext (Nat.mod_eq_of_lt i.isLt)
    have hput : viWrite (.vf i) i.val 0x808 v s = tenantRingWrite i.val 2 v s := rfl
    rw [hput, tenantRingWrite, if_neg fun h => absurd h.2.1 (by decide), hidx, hbase]
    rfl
  have hdesc : (descIn .vi i.val 0x808).isNone = false := by
    rw [descIn, if_neg fun h => absurd h.1 (by decide)]
    decide
  rw [ho]
  simp only [writeReg, access, addr_toNat hlt, Option.isNone_some, hreach, mapAccess, target_register hlt, hpage, pageBlock_vi i.isLt,
    hoff, needDomain, regAccess, hdesc, regWrite, hword]
  have hdoor : (s.mayWrite (.vf i) || ownDoor .vi (.vf i) 0x808 s) = true := Bool.or_true _
  have hpower : pageDomain .vi i.val < 2 := by
    change 1 < 2
    decide
  rw [if_neg fun h => absurd h.1 (by decide), if_pos (Or.inl hpower), if_neg Bool.false_ne_true, if_pos hdoor, ← hwrite]
  rfl

theorem writeReg_size {r : Ring} (h : s.RingWriter req r) {v : Nat} (hv : v < 2 ^ 32) :
    writeReg req (ringReg r 2) v s =
      (cutRing r (ringWrite (ringReg r 0) 2 v (ringEvent r) s)).wrote req (ringReg r 2) v := by
  rcases h with ⟨⟨i, rfl⟩, hw, hdom⟩ | ⟨i, rfl, rfl, hm⟩
  · exact writeReg_steward hw hdom i (by decide) hv
  · exact writeReg_tenantSize hm hv

/-- A ring that takes no frame, or that is enabled, has none to truncate. -/
theorem cutRing_self {r : Ring} (h : s.ports.rxPart = none ∨ s.rd (rxSize r) ≠ 0) : cutRing r s = s := by
  unfold cutRing
  cases hp : s.ports.rxPart with
  | none => rfl
  | some p =>
    have hsize := h.resolve_left (by rw [hp]; exact fun he => nomatch he)
    exact if_neg fun hc => hsize hc.2

theorem ringReg_add (r : Ring) (k : Nat) : ringReg r k = ringReg r 0 + 4 * k := by
  cases r <;> rfl

theorem rd_rxSize (s : State) (r : Ring) : s.rd (rxSize r) = s.word (ringReg r 2) % 8192 := by
  have haddr : (rxSize r).addr = ringReg r 2 := by
    cases r with
    | steward i =>
      change 0x100408 + 21 * 0x10000 + i.val * 0x40 = 0x250400 + 0x40 * i.val + 4 * 2
      omega
    | tenant v =>
      change 0x1000808 + v.val * 0x10000 = 0x1000800 + v.val * 0x10000 + 4 * 2
      omega
  have hbits : s.rd (rxSize r) = bits (s.word (rxSize r).addr) 12 0 := by cases r <;> rfl
  rw [hbits, haddr]
  rfl

theorem ringWrite_enables {b v : Nat} {ev : State → State} (hok : ringSizeOk (v % 8192) = true) (hne : v % 8192 ≠ 0)
    (hz : s.word (b + 4 * 2) = 0) : ringWrite b 2 v ev s = (s.put (b + 4 * 2) (v % 8192)).put (b + 4 * 3) 0 := by
  unfold ringWrite
  simp only [show (2 : Nat) < 4 by decide, if_true, show ¬ 8 ≤ 2 by decide, if_false,
    show ¬ ((2 : Nat) = 0 ∨ (2 : Nat) = 1) by decide, hok, not_true_eq_false, hne]
  exact if_pos hz

theorem ringWrite_refuses {b v : Nat} {ev : State → State} (hok : ringSizeOk (v % 8192) = false) :
    ringWrite b 2 v ev s = ev (s.put (b + 4 * 2) 0) := by
  unfold ringWrite
  simp only [show (2 : Nat) < 4 by decide, if_true, show ¬ 8 ≤ 2 by decide, if_false,
    show ¬ ((2 : Nat) = 0 ∨ (2 : Nat) = 1) by decide, hok, Bool.false_eq_true, not_false_eq_true]

/-- A valid SIZE enables a ring that is disabled, at NEXT 0 (R104; log entry 95). -/
theorem ringSize_enables {r : Ring} {v : Word} (h : s.RingWriter req r) (hok : ringSizeOk (v.toNat % 8192) = true)
    (hne : v.toNat % 8192 ≠ 0) (hz : s.word (ringReg r 2) = 0) :
    Answers (exec (.ringRegWrite req r 2 v) s) (fun t =>
      t.word (ringReg r 2) = v.toNat % 8192 ∧ t.word (ringReg r 3) = 0 ∧
      RegsKept [ringReg r 2, ringReg r 3] s t ∧ t = s.withAccess t) := by
  have hlt : v.toNat % 8192 < 2 ^ 32 := (Nat.mod_lt _ (by decide)).trans (by decide)
  have hapart : ringReg r 2 ≠ ringReg r 3 := by
    rw [ringReg_add r 2, ringReg_add r 3]
    omega
  have hsize : ((s.put (ringReg r 2) (v.toNat % 8192)).put (ringReg r 3) 0).word (ringReg r 2) = v.toNat % 8192 := by
    rw [State.word_put_ne _ _ hapart, State.word_put_self, Nat.mod_eq_of_lt hlt]
  have hwrite : ringWrite (ringReg r 0) 2 v.toNat (ringEvent r) s = (s.put (ringReg r 2) (v.toNat % 8192)).put (ringReg r 3) 0 := by
    rw [ringReg_add r 2] at hz
    rw [ringWrite_enables hok hne hz, ringReg_add r 2, ringReg_add r 3]
  have he : exec (.ringRegWrite req r 2 v) s =
      .next (((s.put (ringReg r 2) (v.toNat % 8192)).put (ringReg r 3) 0).wrote req (ringReg r 2) v.toNat) := by
    have hcut := cutRing_self (s := (s.put (ringReg r 2) (v.toNat % 8192)).put (ringReg r 3) 0) (r := r)
      (.inr (by rw [rd_rxSize, hsize, Nat.mod_mod]; exact hne))
    rw [← hcut, ← hwrite]
    exact congrArg Host.Outcome.next (writeReg_size h v.isLt)
  refine ⟨_, he, ?_, ?_, ?_, ?_⟩
  · rw [State.wrote_word, hsize]
  · rw [State.wrote_word, State.word_put_self]
    rfl
  · exact (((RegsKept.refl _ s).put _ (.head _)).put _ (.tail _ (.head _))).wrote _ _ _
  · exact (((EventsOnly.refl s).put _ _).put _ _).wrote _ _ _

/-- A SIZE that is none disables the ring with its event (R104, R390). -/
theorem ringSize_refused {r : Ring} {v : Word} (h : s.RingWriter req r) (hok : ringSizeOk (v.toNat % 8192) = false)
    (hrx : s.ports.rxPart = none) : Answers (exec (.ringRegWrite req r 2 v) s) (fun t =>
      t.word (ringReg r 2) = 0 ∧ (∀ i, r = .steward i → bit (t.word 0x30014) 21 = true) ∧
      (∀ i, r = .tenant i → t.on (VI_EVENT_REFUSED.p i) = true) ∧
      (∀ i, r = .steward i → RegsKept [ringReg r 2, 0x30014] s t)) := by
  have hwrite : ringWrite (ringReg r 0) 2 v.toNat (ringEvent r) s = ringEvent r (s.put (ringReg r 2) 0) := by
    rw [ringWrite_refuses hok, ringReg_add r 2]
  have he : exec (.ringRegWrite req r 2 v) s = .next ((ringEvent r (s.put (ringReg r 2) 0)).wrote req (ringReg r 2) v.toNat) := by
    have hcut := cutRing_self (s := ringEvent r (s.put (ringReg r 2) 0)) (r := r) (.inl (by rw [ringEvent_ports]; exact hrx))
    rw [← hcut, ← hwrite]
    exact congrArg Host.Outcome.next (writeReg_size h v.isLt)
  refine ⟨_, he, ?_, ?_, ?_, ?_⟩
  · rw [State.wrote_word, ringEvent_size, State.word_put_self]
    rfl
  · rintro i rfl
    rw [State.wrote_word]
    exact State.raise_port_bit _ (by decide)
  · rintro i rfl
    rw [State.wrote_on]
    exact State.on_viEvent_self _ _ i.isLt (by decide) (by decide)
  · rintro i rfl
    exact (((RegsKept.refl _ s).put _ (.head _)).raise (by rw [State.raise_port_addr (by decide)]; simp)).wrote _ _ _

/-! ### The base of a steward ring -/

theorem regDesc_ringBase (i : Fin 4) : regDesc (ringReg (.steward i) 0) = some ⟨0x400, 0x40, 4, [⟨31, 12, .rw, 0x0⟩]⟩ := by
  revert i
  decide

theorem ringWrite_base (b v : Nat) (ev : State → State) :
    ringWrite b 0 v ev s = if s.word (b + 4 * 2) = 0 then s.swPut b v else s := rfl

theorem ringBase_leaves {i : Fin 4} {v : Word} (hw : s.Writer req) (hdom : s.dom 7 = 1) (hrx : s.ports.rxPart = none) :
    exec (.ringRegWrite req (.steward i) 0 v) s =
      .next ((if s.word (ringReg (.steward i) 2) = 0 then s.swPut (ringReg (.steward i) 0) v.toNat else s).wrote req
        (ringReg (.steward i) 0) v.toNat) := by
  have hports : (if s.word (ringReg (.steward i) 2) = 0 then s.swPut (ringReg (.steward i) 0) v.toNat else s).ports.rxPart = none := by
    split
    · rw [State.swPut_frame]
      exact hrx
    · exact hrx
  rw [← cutRing_self (r := .steward i) (.inl hports), ringReg_add (.steward i) 2, ← ringWrite_base]
  exact congrArg Host.Outcome.next (writeReg_steward hw hdom i (by decide) v.isLt)

/-- Settles O21: the ports' own rows, the octet counters' latch, and the rings' registers. -/
theorem portRegisterCommands : Obligations.PortRegisterCommands := by
  refine ⟨fun req p s hw hdom => ⟨?_, ?_, ?_, ?_, ?_, ?_, ?_, ?_, ?_, ?_, ?_⟩, ?_, ?_, ?_⟩
  · exact ptCtrl_stored hw hdom
  · exact ptCtrl_kept hw hdom
  · exact portEnable_leaves hw hdom
  · exact portDisable_leaves hw hdom
  · exact pauseRearm_leaves hw hdom
  · exact ptDormant_leaves hw hdom
  · exact ptDormant_refused hw hdom
  · exact ptWake_leaves hw hdom
  · exact ptWake_refused hw hdom
  · exact preempt_stops hw hdom
  · exact preempt_begins hw hdom
  · exact fun req q tx s hr hc hdom => octetLatch_leaves hr hc hdom
  · exact fun req r v s h => ⟨ringSize_enables h, ringSize_refused h⟩
  · intro req i v s hw hdom hrx
    have he := ringBase_leaves (i := i) (v := v) hw hdom hrx
    refine ⟨fun hz => ?_, fun hz => ?_⟩
    · rw [if_pos hz] at he
      refine ⟨_, he, ?_, (s.swPut_regsKept _ _).wrote _ _ _, ((EventsOnly.refl s).swPut _ _).wrote _ _ _⟩
      have haddr : ((PT_RING_RX_BASE_LO.p 21).i i).addr = ringReg (.steward i) 0 := by
        change 0x100400 + 21 * 0x10000 + i.val * 0x40 = 0x250400 + 0x40 * i.val + 4 * 0
        omega
      rw [State.wrote_rd, State.rd, haddr]
      exact s.swPut_field (regDesc_ringBase i) (f := ⟨31, 12, .rw, 0x0⟩) (by decide) rfl (by decide) (by decide)
    · rw [if_neg hz] at he
      exact ⟨_, he, (RegsKept.refl [] s).wrote _ _ _, (EventsOnly.refl s).wrote _ _ _⟩

end

end Sys2Proof.Machine
end

section
/-!
The switch core: lookup, completion, release, the scrub and the redundancy mode (R74, R108, R110, R111, R116, R120, R124, R129, R285).
-/
namespace Sys2Proof.Machine

section
variable {s : State} {fid n : Nat} {f : Frame}

theorem State.setFrame_rd (s : State) (i : Nat) (f : Frame) (g : Fld) : (s.setFrame i f).rd g = s.rd g := rfl
theorem State.setFrame_frame (s : State) (i : Nat) (f : Frame) : (s.setFrame i f).frame i = some f := aget_aput_self ..

/-- Nothing but registers, by no event that is delivered, and the Hall has changed. -/
def HallRegs (s t : State) : Prop := t = { s.withRegs t with hall := t.hall }

theorem HallRegs.setFrame {t : State} (h : RegsOnly s t) (i : Nat) (g : Frame) : HallRegs s (t.setFrame i g) := by
  unfold HallRegs
  rw [h]
  rfl

theorem RegsOnly.inc {t : State} (h : RegsOnly s t) (g : Fld) : RegsOnly s (t.inc g) := h.trans rfl

/-! ### Lookup (R108–R111) -/

/-- A frame that its port's VLAN rules drop (R111). -/
theorem classify_vlanDrop (hn : n = f.ingress) (htwin : ¬ ((n = 16 ∨ n = 17) ∧ (header f.octets).etype = 0x88B5))
    (hred : s.redMode n = 0) (hdrop : s.vlanDrop n (header f.octets) = true) :
    classify f none s =
      ({ f := { f with looked := true }, entry := none, ports := [], cls := 0 }, s.inc (HL_P_VLAN_DROP.i n)) := by
  subst hn
  unfold classify
  dsimp only
  rw [if_neg htwin, if_neg (by rw [hred]; exact fun h => absurd h.1 (by decide)), if_pos hdrop]

/-- A frame as lookup leaves it where no entry and no redundancy takes part (R109). -/
def State.plainFrame (s : State) (f : Frame) : Frame :=
  { f with
    looked := true, entry := none, entryVer := 0, rule := [], vlan := s.vlanOf f.ingress (Machine.header f.octets), prp := false
    unknown := isSvGoose (Machine.header f.octets).etype, ring := 0 }

/-- Its copies (R110). -/
def State.plainPorts (s : State) (f : Frame) : List Nat :=
  s.permitted f.ingress false
    (stopPdelay f.ingress f.octets (s.widen f.ingress (s.copySet f.ingress (Machine.header f.octets) none)))

theorem State.dupSeq_none (hred : s.redMode n = 0) (l : List Byte) : s.dupSeq n l = none := by
  rw [State.dupSeq, hred]
  rfl

theorem State.ringCopies_none (hred : s.redMode n = 0) (h : Header) (ps : List Nat) : s.ringCopies n h ps = ps := by
  rw [State.ringCopies, hred]
  rfl

theorem classify_plain (hn : n = f.ingress) (htwin : ¬ ((n = 16 ∨ n = 17) ∧ (header f.octets).etype = 0x88B5))
    (hred : s.redMode n = 0) (hdrop : s.vlanDrop n (header f.octets) = false)
    (hlook : s.lookup f.octets (s.vlanOf n (header f.octets)) = none)
    (hfar : s.idFar f.octets (s.vlanOf n (header f.octets)) = false)
    (hsrc : s.srcRefused n (s.copySet n (header f.octets) none) = false) :
    classify f none s =
      ({ f := s.plainFrame f, entry := none, ports := s.plainPorts f, cls := s.classOf n (header f.octets) none none }, s) := by
  subst hn
  unfold classify
  dsimp only
  rw [if_neg htwin, if_neg (by rw [hred]; exact fun h => absurd h.1 (by decide)), if_neg (by rw [hdrop]; decide),
    State.dupSeq_none hred]
  dsimp only
  rw [if_neg (by decide), hlook, hfar]
  simp only [Option.map_none, Bool.false_eq_true, if_false, hsrc, State.ringCopies_none hred, Option.isSome_none, Bool.and_false,
    Option.isNone_none, Bool.and_true, Option.getD_none]
  rfl

theorem exec_classification {v : Verdict} {t : State} (hrun : s.runs 7 = true) (hf : s.frame fid = some f) (hl : f.looked = false)
    (hc : f.l ≤ s.cyc) (hv : classify f none s = (v, t)) :
    exec (.classification fid) s = .next (if v.ports.isEmpty then t.setFrame fid v.f else
      { t.setFrame fid v.f with hall := { (t.setFrame fid v.f).hall with admits := (t.setFrame fid v.f).hall.admits ++ [{
        fid := fid, ingress := f.ingress, due := s.cyc + 1, ports := v.ports, cls := v.cls
        cells := cellsOf ((t.setFrame fid v.f).lmax f.ingress)
        cuts := v.ports.filter (fun p => decide (p < 19) && (t.setFrame fid v.f).cuts v.f v.entry v.cls p) }] } }) := by
  change execClassification fid s = _
  unfold execClassification
  rw [whileOn_runs hrun]
  simp only [hf, hv]
  rw [if_neg (by rw [hl]; simp; omega)]
  split <;> rfl

/-! ### The last byte (R116, R117, R120, R285) -/

/-- A frame whose last byte has been written and whose unused cells have returned (R107). -/
def Frame.finished (f : Frame) (n : Nat) : Frame := { f with complete := true, cells := n }

/-- The I0 copy of a good frame is examined for its size and its age, and its acceptance is fixed (R78, R124, R286). -/
def State.handI0 (w : State) (fid : Nat) (f g : Frame) : State :=
  if f.copies.any (fun p => p.1 == pI0) then
    if w.lmax pI0 < w.copyLen f pI0 then (w.endCopy fid pI0 f.cls).inc (HL_P_EGR_SIZE.i pI0)
    else if w.expired f f.cls (w.nextVal w.gov / uSt) then w.dropAged fid pI0 f.cls else fixAccept fid g w
  else w

theorem exec_larderComplete {t : State} (hrun : s.runs 7 = true) (hf : s.frame fid = some f) (hl : f.looked = true)
    (hc : f.complete = false) (he : f.e ≤ s.cyc) (hn : n = min f.cells (cellsOf f.len))
    (ht : t = f.copies.foldl (fun t p => t.qSub p.1 p.2 (f.cells - n)) s) {u : State}
    (hu : u = (t.wr HL_STATUS_FREE (t.freeCells + (f.cells - n))).setFrame fid (f.finished n)) :
    exec (.larderComplete fid) s = .next (if f.bad ≠ 0 then (findBad fid (f.finished n) u).retire fid else
      ((if f.unknown then u.observe f.octets f.vlan f.ingress f.stamp f.base else u).handI0 fid f (f.finished n)).retire fid) := by
  change execLarderComplete fid s = _
  unfold execLarderComplete
  rw [whileOn_runs hrun]
  simp only [hf]
  rw [if_neg (by rw [hc, hl]; simp; omega)]
  subst hn ht hu
  split <;> rfl

theorem State.handI0_none {w : State} {g : Frame} (h : ∀ c, (pI0, c) ∉ f.copies) : w.handI0 fid f g = w := by
  refine if_neg fun ha => ?_
  obtain ⟨⟨p, c⟩, hmem, hp⟩ := List.any_eq_true.1 ha
  exact h c (beq_iff_eq.1 hp ▸ hmem)

theorem State.handI0_some {w : State} {g : Frame} (h : ∃ c, (pI0, c) ∈ f.copies) :
    w.handI0 fid f g =
      if 9216 < w.copyLen f pI0 then (w.endCopy fid pI0 f.cls).inc (HL_P_EGR_SIZE.i pI0)
      else if w.expired f f.cls (w.nextVal w.gov / uSt) then w.dropAged fid pI0 f.cls else fixAccept fid g w := by
  obtain ⟨c, hc⟩ := h
  have ha : f.copies.any (fun p => p.1 == pI0) = true := List.any_eq_true.2 ⟨(pI0, c), hc, beq_self_eq_true pI0⟩
  exact if_pos ha

/-! ### Egress release (R74, R123) -/

/-- A port with nothing in transmission has none to end. -/
theorem State.finishTx_self {p : Nat} (ht : (s.port p).txFrame = none) (he : (s.port p).expFrame = none) : s.finishTx p = s := by
  unfold State.finishTx
  simp only [he, ht]

theorem exec_egressRelease {p : Fin 19} (hrun : s.runs (portDomain p) = true) (hl : (s.finishTx p).link p = 2)
    (hp : (s.finishTx p).pausedNow p = false) (hm : (s.finishTx p).macFree p = true) :
    exec (.egressRelease p) s = .next (serve p false 64 ((s.finishTx p).examinePort p)) := by
  change execEgressRelease p s = _
  unfold execEgressRelease
  rw [whileOn_runs hrun]
  dsimp only
  rw [if_neg (by rw [hl, hp]; simp), if_pos hm]

/-- The head of a queue that the examination leaves as it is (R124, R125). -/
theorem examineQueue_self {c k : Nat} (h : ∀ i, s.head n c = some i →
    ∃ f, s.frame i = some f ∧ s.stale f = false ∧ s.expired f c s.nowStamp = false) : examineQueue n c k s = s := by
  cases k with
  | zero => rfl
  | succ k =>
    unfold examineQueue
    cases hh : s.head n c with
    | none => rfl
    | some i =>
      obtain ⟨f, hf, hs, he⟩ := h i hh
      simp only [hf, hs, he, Bool.false_eq_true, if_false]

theorem State.examinePort_self (h : ∀ c i, c < 8 → s.head n c = some i →
    ∃ f, s.frame i = some f ∧ s.stale f = false ∧ s.expired f c s.nowStamp = false) : s.examinePort n = s := by
  refine List.foldlRecOn _ _ (motive := fun t => t = s) rfl fun t ht c hc => ?_
  rw [ht]
  exact examineQueue_self fun i hi => h c i (List.mem_range.1 hc) hi

/-- Where one port has one copy in its queues, that copy is the head of its queue. -/
theorem State.head_single {c i : Nat} (hq : s.queue n c = [i]) (hw : s.onWire n i = false) : s.head n c = some i := by
  rw [State.head, hq]
  simp [hw]

theorem State.head_empty {c : Nat} (hq : s.queue n c = []) : s.head n c = none := by
  rw [State.head, hq]
  rfl

/-- One copy alone in the queues of port `n`: number `i`, class `c`. -/
structure State.Alone (s : State) (n i c : Nat) (f : Frame) : Prop where
  class_lt : c < 8
  queue : s.queue n c = [i]
  others : ∀ c', c' < 8 → c' ≠ c → s.queue n c' = []
  idle : s.onWire n i = false
  frame : s.frame i = some f
  fresh : s.stale f = false
  young : s.expired f c s.nowStamp = false

theorem State.Alone.head {i c : Nat} (h : s.Alone n i c f) : s.head n c = some i := State.head_single h.queue h.idle

theorem State.Alone.head_other {i c c' : Nat} (h : s.Alone n i c f) (hc : c' < 8) (hne : c' ≠ c) : s.head n c' = none :=
  State.head_empty (h.others c' hc hne)

theorem State.Alone.examinePort {i c : Nat} (h : s.Alone n i c f) : s.examinePort n = s := by
  refine State.examinePort_self fun c' j hc' hj => ?_
  by_cases hne : c' = c
  · subst hne
    obtain rfl : i = j := Option.some.inj (h.head.symm.trans hj)
    exact ⟨f, h.frame, h.fresh, h.young⟩
  · rw [h.head_other hc' hne] at hj
    cases hj

/-- Every class is served, once the express ones and once the others (R83, R123). -/
theorem mem_serviceOrder (s : State) (p c : Nat) : c ∈ s.serviceOrder p false ↔ c < 8 := by
  simp only [State.serviceOrder, Bool.false_eq_true, if_false, List.mem_append, List.mem_filter, List.mem_reverse, List.mem_range]
  cases bit (s.rd (PT_PREEMPT_EXPRESS_MASK.p p)) c <;> simp

/-- The first answer over a list, where all answers agree and there is one. -/
theorem head?_filterMap_of_unique {α β : Type} {g : α → Option β} {l : List α} {a : α} {b : β} (ha : a ∈ l) (hg : g a = some b)
    (hu : ∀ x ∈ l, ∀ y, g x = some y → y = b) : (l.filterMap g).head? = some b := by
  have hb : b ∈ l.filterMap g := List.mem_filterMap.2 ⟨a, ha, hg⟩
  cases hl : l.filterMap g with
  | nil => rw [hl] at hb; cases hb
  | cons y ys =>
    obtain ⟨x, hx, hxy⟩ := List.mem_filterMap.1 (hl ▸ List.mem_cons_self : y ∈ l.filterMap g)
    rw [hu x hx y hxy]
    rfl

/-- A stored copy on a port without grants may go once the frame may (R285). -/
theorem State.ready_stored {i : Nat} (hf : s.frame i = some f) (hg : (s.port n).grants = []) (ha : s.hall.admits = [])
    (hc : f.complete = true) (hr : readyFrom f ≤ s.cyc) : s.ready n i false = some none := by
  have hgs : s.grantsOf n = [] := by
    rw [State.grantsOf, hg, ha]
    rfl
  unfold State.ready
  simp only [hf, hgs, State.breakFor, Bool.false_eq_true, if_false]
  exact if_pos ⟨hc, by simp, hr, rfl⟩

theorem State.Alone.nextCopy {i c : Nat} (h : s.Alone n i c f) (hg : (s.port n).grants = []) (ha : s.hall.admits = [])
    (hc : f.complete = true) (hr : readyFrom f ≤ s.cyc) : s.nextCopy n false = some (i, c, none) := by
  unfold State.nextCopy
  simp only [hg, List.filterMap_nil]
  refine head?_filterMap_of_unique (a := c) ((mem_serviceOrder s n c).2 h.class_lt) ?_ fun c' hc' y hy => ?_
  · rw [h.head, Option.bind_some, State.ready_stored h.frame hg ha hc hr]
    rfl
  · by_cases hne : c' = c
    · rw [hne, h.head, Option.bind_some, State.ready_stored h.frame hg ha hc hr] at hy
      exact (Option.some.inj hy).symm
    · rw [h.head_other ((mem_serviceOrder s n c').1 hc') hne] at hy
      cases hy

/-- A message that is no PTP event message passes as it is. -/
theorem ptpEgress_plain {l : List Byte} (h : ptpType l = none) (p out : Nat) : ptpEgress f p out l s = (l, s) := by
  unfold ptpEgress
  simp only [h]

theorem returnStamp_none (h : f.tsDesc = none) (stamp base : Nat) : returnStamp f stamp base s = s := by
  rw [returnStamp, h]

/-- What port `p` sends and how long its MAC is busy, as it sends the octets `l` of a copy of frame `i` of class `c` (R74). -/
def State.sends (s : State) (p i c : Nat) (l : List Byte) : Port :=
  { s.port p with
    sent := ({
      fid := i, octets := l ++ fcsOf l, cyc := s.cyc, cls := c, tail := false
      stamp := s.now / uSt + dOut (s.rate p) * 65536 + s.rd (HC_PC_TX_LAT.i p) } :: (s.port p).sent).take 8
    txFrame := some i, macBusy := s.cyc + macCycles (l.length + 4) (s.rate p), expBusy := 0
    txPreemptable := s.on0 (PT_STATUS_PREEMPT_ACTIVE.p p) && !bit (s.rd (PT_PREEMPT_EXPRESS_MASK.p p)) c
    txLen := l.length + 4, fragAt := s.cyc, fragDone := 0, txCopy := (c, (s.port p).txCopy.2) }

/-- The release of a plain copy: no redundancy pair, no PTP message, no stamp to return, and short enough for its port. -/
theorem release_plain {i p c : Nat} {l : List Byte} (hf : s.frame i = some f) (hc : f.complete = true)
    (hin : f.ingress ≠ pTwin) (hts : f.tsDesc = none) (hred : s.redMode p = 0) (hl : l = s.copyOctets f p 0) (hptp : ptpType l = none)
    (hlen : l.length + 4 ≤ s.lmax p) (hg : (s.port p).grants = []) :
    release i p c none s = (true, countTx p (l.length + 4) (s.setPort p (s.sends p i c l))) := by
  have henter : s.entersPair f p = false := by
    rw [State.entersPair, hred]
    rfl
  have hstamp : (((s.now / uSt + dOut (s.rate p) * 65536 : Nat) : Int) + (s.rd (HC_PC_TX_LAT.i p) : Int)).toNat =
      s.now / uSt + dOut (s.rate p) * 65536 + s.rd (HC_PC_TX_LAT.i p) := by rw [← Int.natCast_add, Int.toNat_natCast]
  subst hl
  unfold release
  simp only [hf, henter, Bool.false_eq_true, if_false, Option.getD_some]
  rw [if_neg (by omega)]
  simp only [if_neg hin, ptpEgress_plain hptp, hptp, Option.isSome_none, Bool.false_eq_true, if_false, returnStamp_none hts, hc, if_true,
    hstamp, hg, List.filter_nil]
  simp only [State.sends, hg]

/-! ### The redundancy mode (R129) -/

theorem hlWrite_red (k : Fin 8) (v : Nat) : hlWrite (0x50 + 4 * k.val) v s = hlRedWriteOp k v s := by
  have hk : (0x50 + 4 * k.val - 0x50) / 4 = k.val := by omega
  unfold hlWrite
  dsimp only
  rw [if_neg (by omega), if_neg (by omega), if_neg (by omega), if_pos (by omega), hk]

theorem exec_hlRedWrite {req : Requester} (hw : s.Writer req) (hdom : s.dom 7 = 1) (k : Fin 8) (v : Word) :
    exec (.hlRedWrite req k v) s = .next ((hlRedWriteOp k v.toNat s).wrote req (0x300050 + 4 * k.val) v.toNat) := by
  have hpage : (0x300050 + 4 * k.val) / 0x10000 = 0x30 := by omega
  have hoff : (0x300050 + 4 * k.val) % 0x10000 = 0x50 + 4 * k.val := by omega
  have hdesc : ∀ k : Fin 8, (descIn .hl 0 (0x50 + 4 * k.val)).isSome = true := by decide
  have h := writeReg_served (o := 0x300050 + 4 * k.val) (b := .hl) (i := 0) hw (by omega) (by rw [hpage]; rfl) (.inr hdom)
    (by rw [hoff]; exact hdesc k) (.inl (by decide)) v.isLt
  rw [hoff] at h
  rw [← hlWrite_red]
  exact congrArg Host.Outcome.next h

/-- Settles O25: row by row, in the order of the statement. -/
theorem switchCommands : Obligations.SwitchCommands := by
  refine ⟨?lookup, ?last, ?release, ?single, ?scrub, ?red⟩
  case lookup =>
    intro fid n f s hrun hf hlk hc hn htwin hred
    refine ⟨fun hdrop => ?_, fun ps g hdrop hlook hfar hsrc hps hne hg => ?_⟩
    · have he := exec_classification hrun hf hlk hc (classify_vlanDrop hn htwin hred hdrop)
      refine ⟨_, he, ?_, State.setFrame_frame .., rfl, ?_, HallRegs.setFrame ((RegsOnly.refl s).inc _) _ _⟩
      · exact (State.setFrame_rd ..).trans (s.rd_inc_self _ (Fld.fits.i (f := HL_P_VLAN_DROP) ⟨by decide, by decide⟩ n))
      · exact (RegsKept.refl _ s).inc (f := HL_P_VLAN_DROP.i n) (.head _)
    · have he := exec_classification hrun hf hlk hc (classify_plain hn htwin hred hdrop hlook hfar hsrc)
      subst hn hg hps
      have hports : (s.plainPorts f).isEmpty = false := by
        rw [List.isEmpty_eq_false_iff]
        exact hne
      dsimp only at he
      rw [hports] at he
      exact ⟨_, he, State.setFrame_frame .., ⟨_, rfl, rfl, rfl, rfl, rfl, rfl, rfl, rfl⟩, rfl⟩
  case last =>
    intro fid n f s t hrun hf hlk hc he hn ht g u hg hu
    subst hg
    have hexec := exec_larderComplete hrun hf hlk hc he hn ht hu
    refine ⟨fun hbad => ?_, fun w hw hgood => ⟨fun hno => ?_, fun hI hlen hage => ?_, fun hI hlen hage => ?_, fun hI hlen => ?_⟩⟩
    · rw [hexec, if_pos hbad]
      rfl
    · rw [hexec, if_neg (not_not.2 hgood), ← hw, State.handI0_none hno]
    · rw [hexec, if_neg (not_not.2 hgood), ← hw, State.handI0_some hI, if_neg (Nat.not_lt.2 hlen), hage]
      rfl
    · rw [hexec, if_neg (not_not.2 hgood), ← hw, State.handI0_some hI, if_neg (Nat.not_lt.2 hlen), hage]
      rfl
    · rw [hexec, if_neg (not_not.2 hgood), ← hw, State.handI0_some hI, if_pos hlen]
  case release => exact fun p s => exec_egressRelease
  case single =>
    intro p i c f l s hrun hl hp hm htx hex hgr hadm hclt hq hothers hf hc hbad hin hts hr hstale hexp hred hoct hptp hlen
    have hfin : s.finishTx p = s := State.finishTx_self htx hex
    have halone : s.Alone p i c f := ⟨hclt, hq, hothers, by simp [State.onWire, htx, hex], hf, hstale, hexp⟩
    rw [exec_egressRelease hrun (by rwa [hfin]) (by rwa [hfin]) (by rwa [hfin]), hfin, halone.examinePort]
    have hserve : serve p false 64 s = countTx p (l.length + 4) (s.setPort p (s.sends p i c l)) := by
      unfold serve
      simp only [halone.nextCopy hgr hadm hc hr, release_plain hf hc hin hts hred hoct hptp hlen hgr, if_true]
    rw [hserve]
    rfl
  case scrub =>
    intro s hrun hdue
    exact (whileOn_runs hrun).trans (if_pos hdue)
  case red =>
    intro req k v s hw hdom
    have he := exec_hlRedWrite hw hdom k v
    refine ⟨fun h0 h1 => ?_, fun hon => ?_⟩
    · have hop : hlRedWriteOp k v.toNat s =
          s.wr (HL_RED_MODE.i k) (if bits v.toNat 31 30 = 3 then 0 else bits v.toNat 31 30) := if_neg (by rw [h0, h1]; decide)
      rw [hop] at he
      refine ⟨_, he, ?_, ((RegsKept.refl _ s).wr (f := HL_RED_MODE.i k) _ (.head _)).wrote _ _ _,
        ((EventsOnly.refl s).wr _ _).wrote _ _ _⟩
      have hlt : bits v.toNat 31 30 < 4 := bits_lt ..
      rw [State.wrote_rd, s.rd_wr_i_self _ _ _ (by decide)]
      exact Nat.mod_eq_of_lt (by change _ < 4; split <;> omega)
    · have hop : hlRedWriteOp k v.toNat s = s.raise ES_HL := if_pos hon
      rw [hop] at he
      refine ⟨_, he, ?_, ((RegsKept.refl _ s).raise (es := ES_HL) (by decide)).wrote _ _ _, ((EventsOnly.refl s).raise _).wrote _ _ _⟩
      rw [State.wrote_word, State.raise_pending_bit _ (by decide)]

end

end Sys2Proof.Machine
end

section
/-!
Frames at the pads (R72, R77, R79, R86, R89, R90).
-/
namespace Sys2Proof.Machine

/-! ### Reception beside the port's counters (R72, R78, R87) -/

/-- A register with the counters of a port page. -/
def portCounter (a : Nat) : Prop := 0x100000 ≤ a ∧ a < 0x300000 ∧ 0x100 ≤ a % 0x10000 ∧ a % 0x10000 < 0x134

/-- Nothing but counters of the port pages has changed, and the contributions of this cycle. -/
structure Counted (s t : State) : Prop where
  word : ∀ a, ¬ portCounter a → t.word a = s.word a
  frame : t = { s with regs := t.regs, evc := t.evc }

theorem not_portCounter_p {f : Fld} (n : Nat) (h : f.addr % 0x10000 < 0x100 ∨ 0x134 ≤ f.addr % 0x10000) : ¬ portCounter (f.p n).addr := by
  rintro ⟨-, -, h1, h2⟩
  have hm : (f.p n).addr % 0x10000 = f.addr % 0x10000 := Nat.add_mul_mod_self_right ..
  omega

section
variable {s t u : State} {n : Nat}

theorem Counted.refl (s : State) : Counted s s := ⟨fun _ _ => rfl, rfl⟩

theorem Counted.trans (h : Counted s t) (h' : Counted t u) : Counted s u := by
  refine ⟨fun a ha => (h'.word a ha).trans (h.word a ha), ?_⟩
  rw [h'.frame, h.frame]

theorem Counted.wr (h : Counted s t) {f : Fld} (v : Nat) (hf : portCounter f.addr) : Counted s (t.wr f v) :=
  h.trans ⟨fun _ ha => State.word_wr_ne _ _ _ fun e => ha (e ▸ hf), rfl⟩

theorem Counted.count (h : Counted s t) {f : Fld} (k : Nat) (hf : portCounter f.addr) : Counted s (t.count f k) :=
  h.trans ⟨fun _ ha => State.word_count_ne _ _ _ fun e => ha (e ▸ hf), rfl⟩

theorem Counted.incW (h : Counted s t) {f : Fld} (k : Nat) (hf : portCounter f.addr) : Counted s (t.incW f k) :=
  h.trans ⟨fun a ha => RegsKept.incW (f := f) (.refl [f.addr] t) k (.head _) a fun hm => ha (List.mem_singleton.1 hm ▸ hf), rfl⟩

theorem portCounter_p {f : Fld} (hn : n < 32) (hf : 0x100100 ≤ f.addr ∧ f.addr < 0x100134) : portCounter (f.p n).addr := by
  have ha : (f.p n).addr = f.addr + n * 0x10000 := rfl
  unfold portCounter
  omega

theorem Counted.countRx (h : Counted s t) (hn : n < 32) (len : Nat) : Counted s (Machine.countRx n len t) :=
  ((h.incW 1 (portCounter_p (f := PT_C_RX_FRAMES) hn (by decide))).wr _ (portCounter_p (f := PT_C_RX_OCT_LO) hn (by decide))).wr _
    (portCounter_p (f := PT_C_RX_OCT_HI) hn (by decide))

section
variable (h : Counted s t)
include h

theorem Counted.rd {f : Fld} (hf : ¬ portCounter f.addr) : t.rd f = s.rd f := State.rd_of_word (h.word _ hf)

theorem Counted.ports : t.ports = s.ports := by
  rw [h.frame]

theorem Counted.clk : t.clk = s.clk := by
  rw [h.frame]

theorem Counted.gov : t.gov = s.gov := by
  rw [h.frame]
  rfl

theorem Counted.incNow (b : Nat) : t.incNow b = s.incNow b := by
  rw [h.frame]
  rfl

theorem Counted.cycleAt (v : Nat) : t.cycleAt v = s.cycleAt v := by
  rw [h.frame]
  rfl

theorem Counted.stampIn (b sub : Nat) : t.stampIn b sub = s.stampIn b sub := by
  rw [h.frame]
  rfl

theorem Counted.rate (n : Nat) : t.rate n = s.rate n := by
  rw [State.rate, State.rate, h.rd (not_portCounter_p n (.inl (by decide)))]

theorem Counted.lmax (n : Nat) : t.lmax n = s.lmax n := by
  rw [State.lmax, State.lmax, h.rd (not_portCounter_p n (.inl (by decide)))]

theorem Counted.link (n : Nat) : t.link n = s.link n := h.rd (not_portCounter_p n (.inl (by decide)))

theorem Counted.rxLat (hn : n < 32) : t.rd (HC_PC_RX_LAT.i n) = s.rd (HC_PC_RX_LAT.i n) := by
  refine h.rd fun hp => ?_
  have ha : (HC_PC_RX_LAT.i n).addr < 0x100000 := by
    have hv : (HC_PC_RX_LAT.i n).addr = HC_PC_RX_LAT.addr + n * HC_PC_RX_LAT.stride := rfl
    have hc : HC_PC_RX_LAT.addr + 32 * HC_PC_RX_LAT.stride < 0x100000 := by decide
    have hmul := Nat.mul_le_mul_right HC_PC_RX_LAT.stride (Nat.le_of_lt hn)
    omega
  exact absurd hp.1 (Nat.not_le.2 ha)

theorem Counted.rxStampIn (hn : n < 32) (b sub : Nat) : t.rxStampIn n b sub = s.rxStampIn n b sub := by
  rw [State.rxStampIn, h.stampIn, h.rxLat hn, State.rxStampIn]

theorem Counted.releaseCyc (st after : Nat) : t.releaseCyc n st after = s.releaseCyc n st after := by
  rw [State.releaseCyc, h.cycleAt, h.rate, State.releaseCyc]

theorem Counted.rxRelease (hn : n < 32) (rx : RxFrame) : rxRelease n rx t = rxRelease n rx s := by
  have hat : t.releaseCyc n (t.rxStampIn n t.gov rx.sub) = s.releaseCyc n (s.rxStampIn n s.gov rx.sub) := by
    funext x
    rw [h.gov, h.rxStampIn hn, h.releaseCyc]
  unfold Machine.rxRelease
  rw [hat, h.rate]

theorem Counted.rxFrameOf (hn : n < 32) (rx : RxFrame) (l : List Byte) (v : Nat) : rxFrameOf n rx l v t = rxFrameOf n rx l v s := by
  unfold Machine.rxFrameOf
  rw [h.rxRelease hn, h.lmax, h.gov, h.rxStampIn hn, h.rxStampIn hn]

theorem Counted.screen (l : List Byte) : t.screen n l = s.screen n l := by
  rw [State.screen, h.lmax, State.screen]

theorem Counted.asDormant (hn : n < 32) (sub : Nat) : t.asDormant n sub = s.asDormant n sub := by
  unfold State.asDormant
  rw [h.link, State.port_of_ports h.ports, h.clk, h.gov, h.incNow, h.rxLat hn]

/-- The registers of the wake patterns (R87). -/
theorem Counted.wakeReg {f : Fld} {k : Nat} (hk : k < 16) (hf : f.addr / 0x10000 = 0x10 ∧ f.stride = 0x20)
    (ho : 0x200 ≤ f.addr % 0x10000 ∧ f.addr % 0x10000 < 0x220) : t.rd ((f.p n).i k) = s.rd ((f.p n).i k) := by
  refine h.rd fun hp => ?_
  have ha : ((f.p n).i k).addr = f.addr + n * 0x10000 + k * f.stride := rfl
  obtain ⟨-, -, h1, h2⟩ := hp
  rw [ha, hf.2] at h1 h2
  omega

theorem Counted.wakeMatch {k : Nat} (hk : k < 16) (l : List Byte) : t.wakeMatch n k l = s.wakeMatch n k l := by
  have hmask : t.wakeMask n k = s.wakeMask n k := by
    unfold State.wakeMask
    dsimp only
    rw [h.wakeReg hk (by decide) (by decide), h.wakeReg hk (by decide) (by decide), h.wakeReg hk (by decide) (by decide),
      h.wakeReg hk (by decide) (by decide)]
  unfold State.wakeMatch
  dsimp only
  rw [hmask, State.on_of_rd (h.wakeReg hk (by decide) (by decide)), h.wakeReg hk (by decide) (by decide)]

end

end

/-! ### What reception changes -/

/-- Nothing but registers, by no event that is delivered, the Hall and the ports beside their registers has changed. -/
def RxOnly (s t : State) : Prop := t = { s.withRegs t with hall := t.hall, ports := t.ports }

section
variable {s t u : State}

theorem RxOnly.refl (s : State) : RxOnly s s := rfl

theorem RxOnly.trans (h : RxOnly s t) (h' : RxOnly t u) : RxOnly s u := by
  unfold RxOnly at h h'
  rw [h', h]
  rfl

theorem RxOnly.wr (h : RxOnly s t) (f : Fld) (v : Nat) : RxOnly s (t.wr f v) := h.trans rfl
theorem RxOnly.count (h : RxOnly s t) (f : Fld) (k : Nat) : RxOnly s (t.count f k) := h.trans rfl
theorem RxOnly.inc (h : RxOnly s t) (f : Fld) : RxOnly s (t.inc f) := h.trans rfl
theorem RxOnly.incW (h : RxOnly s t) (f : Fld) (k : Nat) : RxOnly s (t.incW f k) := h.trans rfl
theorem RxOnly.setPort (h : RxOnly s t) (n : Nat) (x : Port) : RxOnly s (t.setPort n x) := h.trans rfl
theorem RxOnly.openRx (h : RxOnly s t) (n : Nat) (o : RxOpen) (s0 : State) : RxOnly s (t.openRx n o s0) := h.setPort _ _
theorem RxOnly.acceptRx (h : RxOnly s t) (n : Nat) (f : Frame) (o : RxOpen) (s0 : State) : RxOnly s (Machine.acceptRx n f o s0 t) :=
  h.trans rfl
theorem RxOnly.countRx (h : RxOnly s t) (n len : Nat) : RxOnly s (Machine.countRx n len t) := ((h.incW _ _).wr _ _).wr _ _

theorem RxOnly.notePdelay (h : RxOnly s t) (n : Nat) (f : Frame) : RxOnly s (Machine.notePdelay n f t) := by
  unfold Machine.notePdelay
  split
  · exact h.setPort _ _
  · exact h

theorem State.openRx_word (s : State) (n : Nat) (o : RxOpen) (s0 : State) (a : Nat) : (s.openRx n o s0).word a = s.word a := rfl
theorem State.openRx_hall (s : State) (n : Nat) (o : RxOpen) (s0 : State) : (s.openRx n o s0).hall = s.hall := rfl
theorem acceptRx_word (n : Nat) (f : Frame) (o : RxOpen) (s0 s : State) (a : Nat) : (acceptRx n f o s0 s).word a = s.word a := rfl
theorem acceptRx_frame (n : Nat) (f : Frame) (o : RxOpen) (s0 s : State) : (acceptRx n f o s0 s).frame s.hall.nextId = some f :=
  aget_aput_self ..

theorem acceptRx_frame_ne (n : Nat) (f : Frame) (o : RxOpen) (s0 s : State) {i : Nat} (h : i ≠ s.hall.nextId) :
    (acceptRx n f o s0 s).frame i = s.frame i := aget_aput_ne _ _ h

theorem notePdelay_word (n : Nat) (f : Frame) (s : State) (a : Nat) : (notePdelay n f s).word a = s.word a := by
  unfold notePdelay
  split <;> rfl

theorem notePdelay_hall (n : Nat) (f : Frame) (s : State) : (notePdelay n f s).hall = s.hall := by
  unfold notePdelay
  split <;> rfl

theorem countRx_hall (n len : Nat) (s : State) : (countRx n len s).hall = s.hall := by
  have h (u : State) (f g : Fld) (x y : Nat) : ((u.wr f x).wr g y).hall = u.hall := rfl
  exact (h ..).trans rfl

/-! ### Counting (R77, R79, R90) -/

theorem State.rd_count_self (s : State) (f : Fld) (k : Nat) (h : f.fits) :
    (s.count f k).rd f = min (s.rd f + k) (2 ^ (f.hi + 1 - f.lo) - 1) := by
  have e : (s.count f k).rd f = (s.wr f (satAdd f.width (s.rd f) k)).rd f := rfl
  have hpos : 0 < 2 ^ (f.hi + 1 - f.lo) := Nat.two_pow_pos _
  rw [e, State.rd_wr_self s f _ h, satAdd, Fld.width]
  split
  · rw [Nat.mod_eq_of_lt ‹_›]
    omega
  · rw [Nat.mod_eq_of_lt (by omega)]
    omega

theorem State.rd_count_p (s : State) (f g : Fld) (n k : Nat) (hf : f.lo ≤ f.hi ∧ f.hi < 32)
    (h : f.addr ≠ g.addr ∨ f.hi < g.lo ∨ g.hi < f.lo) : (s.count (f.p n) k).rd (g.p n) = s.rd (g.p n) :=
  (s.rd_wr_apart _ _ (satAdd (f.p n).width (s.rd (f.p n)) k) (Fld.fits.p hf n) (Fld.apart_p n h) :)

theorem RegsKept.count {l : List Nat} (h : RegsKept l s t) {f : Fld} (k : Nat) (hf : f.addr ∈ l) : RegsKept l s (t.count f k) :=
  h.wr (f := f) (satAdd f.width (t.rd f) k) hf

theorem RegsKept.countRx {l : List Nat} (h : RegsKept l s t) {n : Nat} (len : Nat) (h1 : (PT_C_RX_FRAMES.p n).addr ∈ l)
    (h2 : (PT_C_RX_OCT_LO.p n).addr ∈ l) (h3 : (PT_C_RX_OCT_HI.p n).addr ∈ l) : RegsKept l s (Machine.countRx n len t) :=
  ((h.incW (f := PT_C_RX_FRAMES.p n) 1 h1).wr (f := PT_C_RX_OCT_LO.p n) _ h2).wr (f := PT_C_RX_OCT_HI.p n) _ h3

theorem rd_countRx_frames (n len : Nat) (s : State) :
    (countRx n len s).rd (PT_C_RX_FRAMES.p n) = (s.rd (PT_C_RX_FRAMES.p n) + 1) % 2 ^ 32 := by
  unfold countRx
  dsimp only
  rw [State.rd_wr_p _ _ _ _ _ (by decide) (by decide), State.rd_wr_p _ _ _ _ _ (by decide) (by decide),
    State.rd_incW_self _ _ _ (Fld.fits.p (f := PT_C_RX_FRAMES) ⟨by decide, by decide⟩ n)]
  rfl

/-- The counters of accepted frames are three registers of the page (R77, R101). -/
theorem rd_countRx (n len : Nat) (s : State) {g : Fld} (hg : 0x100108 < g.addr) : (countRx n len s).rd (g.p n) = s.rd (g.p n) := by
  unfold countRx
  dsimp only
  rw [State.rd_wr_p _ _ _ _ _ (by decide) (.inl (by change 0x100108 ≠ _; omega)),
    State.rd_wr_p _ _ _ _ _ (by decide) (.inl (by change 0x100104 ≠ _; omega)),
    State.rd_incW_apart _ _ _ _ (Fld.fits.p (f := PT_C_RX_FRAMES) ⟨by decide, by decide⟩ n)
      (Fld.apart_p n (.inl (by change 0x100100 ≠ _; omega)))]

/-! ### MAC control (R90) -/

theorem rd_macControl (n : Nat) (f : Frame) (last : Nat) (s : State) {g : Fld}
    (h1 : PT_C_MACCTL.addr ≠ g.addr ∨ PT_C_MACCTL.hi < g.lo ∨ g.hi < PT_C_MACCTL.lo)
    (h2 : PT_C_PAUSE_RX.addr ≠ g.addr ∨ PT_C_PAUSE_RX.hi < g.lo ∨ g.hi < PT_C_PAUSE_RX.lo) :
    (macControl n f last s).rd (g.p n) = s.rd (g.p n) := by
  unfold macControl
  dsimp only
  split
  · rw [State.setPort_rd, State.rd_inc_p _ _ _ _ (by decide) h2, State.rd_inc_p _ _ _ _ (by decide) h1]
  · exact State.rd_inc_p _ _ _ _ (by decide) h1

theorem rd_macControl_count (n : Nat) (f : Frame) (last : Nat) (s : State) :
    (macControl n f last s).rd (PT_C_MACCTL.p n) = min (s.rd (PT_C_MACCTL.p n) + 1) (2 ^ PT_C_MACCTL.width - 1) := by
  have hself := s.rd_inc_p_self PT_C_MACCTL n (by decide)
  unfold macControl
  dsimp only
  split
  · rw [State.setPort_rd, State.rd_inc_p _ _ _ _ (by decide) (by decide), hself]
    rfl
  · rw [hself]
    rfl

theorem macControl_hall (n : Nat) (f : Frame) (last : Nat) (s : State) : (macControl n f last s).hall = s.hall := by
  have hset (u : State) (x : Port) : (u.setPort n x).hall = u.hall := rfl
  unfold macControl
  dsimp only
  split
  · rw [hset, State.inc_hall, State.inc_hall]
  · rw [State.inc_hall]

/-! ### FRAME_RECEIVE (R72) -/

variable {n : Nat}

theorem wakeActions_none {f : Frame} {ctl : Bool} (h : ∀ k, k < 16 → s.wakeMatch n k f.octets = false) :
    s.wakeActions n f ctl = s := by
  have hks : (List.range 16).filter (fun k => s.wakeMatch n k f.octets) = [] :=
    List.filter_eq_nil_iff.2 fun k hk => by rw [h k (List.mem_range.1 hk)]; decide
  unfold State.wakeActions
  simp only [hks]

/-- A good frame that matches no pattern, as it is counted, and consumed, dropped or handed on (R77, R89, R90). -/
theorem goodRx_plain {rx : RxFrame} {f : Frame} (o : RxOpen) {ctl : Bool} (hn : n < 32) (hctl : ctl = (beAt f.octets 12 2 == 0x8808))
    (hw : ∀ k, k < 16 → s.wakeMatch n k f.octets = false) : ∃ o' last u,
      u = (if ctl then macControl n f last (countRx n f.len s) else countRx n f.len s) ∧
      goodRx n rx f o t s = if s.asDormant n rx.sub then (u.inc (PT_C_DORMANT_DROP.p n)).openRx n o' t
        else if ctl then u.openRx n o' t else acceptRx n f o' t (notePdelay n f u) := by
  have hcount : Counted s (countRx n f.len s) := (Counted.refl s).countRx hn _
  have hwake : (countRx n f.len s).wakeActions n f ctl = countRx n f.len s :=
    wakeActions_none fun k hk => (hcount.wakeMatch hk _).trans (hw k hk)
  subst hctl
  unfold goodRx
  dsimp only
  rw [hwake]
  exact ⟨_, _, _, rfl, rfl⟩

end

end Sys2Proof.Machine
end

section
/-!
FRAME_RECEIVE (R72).
-/
namespace Sys2Proof.Machine

/-- The state with a frame's continuation fragments counted (R103). -/
def State.fragged (s : State) (n : Nat) (rx : RxFrame) : State := s.count (PT_C_FRAG_RX.p n) (conts rx).length

section
variable {s : State} {p : Fin 19} {rx : RxFrame} {l : List Byte}

theorem State.fragged_counted (s : State) (p : Fin 19) (rx : RxFrame) : Counted s (s.fragged p rx) :=
  (Counted.refl s).count _ (portCounter_p (f := PT_C_FRAG_RX) (by omega) (by decide))

theorem State.rd_fragged (s : State) (n : Nat) (rx : RxFrame) {g : Fld}
    (h : PT_C_FRAG_RX.addr ≠ g.addr ∨ PT_C_FRAG_RX.hi < g.lo ∨ g.hi < PT_C_FRAG_RX.lo) : (s.fragged n rx).rd (g.p n) = s.rd (g.p n) :=
  State.rd_count_p _ _ _ _ _ (by decide) h

theorem State.rd_fragged_self (s : State) (n : Nat) (rx : RxFrame) :
    (s.fragged n rx).rd (PT_C_FRAG_RX.p n) = min (s.rd (PT_C_FRAG_RX.p n) + (conts rx).length) (2 ^ PT_C_FRAG_RX.width - 1) :=
  State.rd_count_self _ _ _ (Fld.fits.p (f := PT_C_FRAG_RX) ⟨by decide, by decide⟩ n)

theorem execFrameReceive_linked (hruns : s.runs (portDomain p) = true) (hlink : s.link p = 2 ∨ s.link p = 3) :
    ∃ o : RxOpen, execFrameReceive p rx s = match assemble rx with
      | none => .next (((s.fragged p rx).inc (PT_C_REASM_ERR.p p)).openRx p o s)
      | some l =>
        let t := s.fragged p rx
        let v := t.screen p l
        let f := rxFrameOf p rx l v t
        let o := { o with len := l.length, good := v == 0 }
        if v = 0 then .next (goodRx p rx f o s t)
        else
          let u := t.inc (badCounter p v)
          if v = 3 ∨ beAt l 12 2 = 0x8808 ∨ s.asDormant p rx.sub then .next (u.openRx p o s) else .next (acceptRx p f o s u) := by
  unfold execFrameReceive
  rw [whileOn_runs hruns]
  dsimp only
  rw [if_neg (by omega)]
  exact ⟨_, rfl⟩

variable (hruns : s.runs (portDomain p) = true) (hlink : s.link p = 2 ∨ s.link p = 3)
include hruns hlink

theorem frameReceive_lost (ha : assemble rx = none) :
    ∃ o, exec (.frameReceive p rx) s = .next (((s.fragged p rx).inc (PT_C_REASM_ERR.p p)).openRx p o s) := by
  obtain ⟨o, ho⟩ := execFrameReceive_linked (rx := rx) hruns hlink
  rw [ha] at ho
  exact ⟨o, ho⟩

theorem frameReceive_good (ha : assemble rx = some l) (hv : s.screen p l = 0) :
    ∃ o, exec (.frameReceive p rx) s = .next (goodRx p rx (rxFrameOf p rx l 0 s) o s (s.fragged p rx)) := by
  obtain ⟨o, ho⟩ := execFrameReceive_linked (rx := rx) hruns hlink
  have hc := s.fragged_counted p rx
  rw [ha] at ho
  dsimp only at ho
  rw [hc.screen, hv, hc.rxFrameOf (by omega), if_pos rfl] at ho
  exact ⟨_, ho⟩

theorem frameReceive_bad {v : Nat} (ha : assemble rx = some l) (hv : s.screen p l = v) (h0 : v ≠ 0) :
    ∃ o, exec (.frameReceive p rx) s = .next (
      if v = 3 ∨ beAt l 12 2 = 0x8808 ∨ s.asDormant p rx.sub then ((s.fragged p rx).inc (badCounter p v)).openRx p o s
      else acceptRx p (rxFrameOf p rx l v s) o s ((s.fragged p rx).inc (badCounter p v))) := by
  obtain ⟨o, ho⟩ := execFrameReceive_linked (rx := rx) hruns hlink
  have hc := s.fragged_counted p rx
  rw [ha] at ho
  dsimp only at ho
  rw [hc.screen, hv, hc.rxFrameOf (by omega), if_neg h0, ← apply_ite] at ho
  exact ⟨_, ho⟩

end

/-! ### A frame dropped, and a bad frame handed on (R77, R79, R86) -/

section
variable {s : State} {n : Nat}

/-- One more in a counter of the port, its fragments counted. -/
theorem State.rd_fragged_inc (s : State) (n : Nat) (rx : RxFrame) (g : Fld) (hg : g.lo ≤ g.hi ∧ g.hi < 32)
    (hne : PT_C_FRAG_RX.addr ≠ g.addr ∨ PT_C_FRAG_RX.hi < g.lo ∨ g.hi < PT_C_FRAG_RX.lo) :
    ((s.fragged n rx).inc (g.p n)).rd (g.p n) = min (s.rd (g.p n) + 1) (2 ^ (g.hi + 1 - g.lo) - 1) := by
  rw [State.rd_inc_p_self _ _ _ hg, s.rd_fragged _ _ hne]

theorem State.fragged_hall (s : State) (n : Nat) (rx : RxFrame) : (s.fragged n rx).hall = s.hall := State.count_hall ..

theorem RegsKept.fragged (s : State) (n : Nat) (rx : RxFrame) {l : List Nat} (hl : (PT_C_FRAG_RX.p n).addr ∈ l) :
    RegsKept l s (s.fragged n rx) := (RegsKept.refl l s).count _ hl

theorem State.rd_openRx (s : State) (n : Nat) (o : RxOpen) (s0 : State) (g : Fld) : (s.openRx n o s0).rd g = s.rd g :=
  State.rd_of_word (s.openRx_word n o s0 _)

theorem rd_acceptRx (n : Nat) (f : Frame) (o : RxOpen) (s0 s : State) (g : Fld) : (acceptRx n f o s0 s).rd g = s.rd g :=
  State.rd_of_word (acceptRx_word n f o s0 s _)

theorem RegsKept.openRx {l : List Nat} {t : State} (h : RegsKept l s t) (o : RxOpen) (s0 : State) : RegsKept l s (t.openRx n o s0) := h

/-- Reception that leaves the Hall. -/
theorem RxOnly.of_hall {t : State} (h : RxOnly s t) (hh : t.hall = s.hall) : t = { s.withRegs t with ports := t.ports } := by
  unfold RxOnly at h
  rwa [hh] at h

theorem RxOnly.fragged (s : State) (n : Nat) (rx : RxFrame) : RxOnly s (s.fragged n rx) := (RxOnly.refl s).count _ _

/-- The state with a frame counted in a register beside its fragments. -/
def State.fraggedInc (s : State) (n : Nat) (rx : RxFrame) (g : Fld) : State := (s.fragged n rx).inc (g.p n)

theorem RxOnly.fraggedInc (s : State) (n : Nat) (rx : RxFrame) (g : Fld) : RxOnly s (s.fraggedInc n rx g) :=
  (RxOnly.fragged s n rx).inc _

theorem State.fraggedInc_hall (rx : RxFrame) (g : Fld) : (s.fraggedInc n rx g).hall = s.hall := by
  rw [State.fraggedInc, State.inc_hall, State.fragged_hall]

/-- A frame that is counted and goes no further. -/
theorem countedAndDropped (rx : RxFrame) (o : RxOpen) (g : Fld) (hg : g.lo ≤ g.hi ∧ g.hi < 32)
    (hne : PT_C_FRAG_RX.addr ≠ g.addr ∨ PT_C_FRAG_RX.hi < g.lo ∨ g.hi < PT_C_FRAG_RX.lo) :
    let t := (s.fraggedInc n rx g).openRx n o s
    t.rd (g.p n) = min (s.rd (g.p n) + 1) (2 ^ (g.hi + 1 - g.lo) - 1) ∧ t.hall = s.hall ∧
      RegsKept [(g.p n).addr, (PT_C_FRAG_RX.p n).addr] s t ∧ t = { s.withRegs t with ports := t.ports } := by
  have hkept : RegsKept [(g.p n).addr, (PT_C_FRAG_RX.p n).addr] s (s.fraggedInc n rx g) :=
    (RegsKept.fragged s n rx (.tail _ (.head _))).inc (f := g.p n) (.head _)
  have hhall : ((s.fraggedInc n rx g).openRx n o s).hall = s.hall := by rw [State.openRx_hall, State.fraggedInc_hall]
  have hrd := (State.rd_openRx (s.fraggedInc n rx g) n o s (g.p n)).trans (s.rd_fragged_inc n rx g hg hne)
  exact ⟨hrd, hhall, hkept.openRx _ _, ((RxOnly.fraggedInc s n rx g).openRx n o s).of_hall hhall⟩

/-- A bad frame that is counted and handed on. -/
theorem countedAndAccepted (rx : RxFrame) (o : RxOpen) (f : Frame) (g : Fld) (hg : g.lo ≤ g.hi ∧ g.hi < 32)
    (hne : PT_C_FRAG_RX.addr ≠ g.addr ∨ PT_C_FRAG_RX.hi < g.lo ∨ g.hi < PT_C_FRAG_RX.lo) :
    let t := acceptRx n f o s (s.fraggedInc n rx g)
    t.rd (g.p n) = min (s.rd (g.p n) + 1) (2 ^ (g.hi + 1 - g.lo) - 1) ∧ t.frame s.hall.nextId = some f ∧
      t = { s.withRegs t with hall := t.hall, ports := t.ports } := by
  have hframe := acceptRx_frame n f o s (s.fraggedInc n rx g)
  have hrd := (rd_acceptRx n f o s (s.fraggedInc n rx g) (g.p n)).trans (s.rd_fragged_inc n rx g hg hne)
  rw [State.fraggedInc_hall] at hframe
  exact ⟨hrd, hframe, (RxOnly.fraggedInc s n rx g).acceptRx n f o s⟩

end

/-! ### The frame handed on (R72, R77) -/

section
variable {s : State} {p : Fin 19} {rx : RxFrame} {l : List Byte}

theorem rxFrameOf_octets {n v : Nat} (hv : v ≠ 1) : (rxFrameOf n rx l v s).octets = l.take (l.length - 4) := by
  simp only [rxFrameOf, if_neg hv]

theorem rxFrameOf_octets_oversize {n : Nat} : (rxFrameOf n rx l 1 s).octets = l.take (min l.length (s.lmax n + 1)) := rfl

/-- The EtherType of a frame long enough is that of its octets without the FCS. -/
theorem beAt_take {o n k : Nat} (h : o + n ≤ k) : beAt (l.take k) o n = beAt l o n := by
  rw [beAt, slice, List.drop_take, List.take_take, Nat.min_eq_left (by omega), beAt, slice]

theorem State.length_of_screen {n v : Nat} (h : s.screen n l = v) (hv : v ≠ 3) : 64 ≤ l.length := by
  unfold State.screen at h
  split at h
  · exact absurd h.symm hv
  · omega

theorem rxFrameOf_fields (n : Nat) (rx : RxFrame) (l : List Byte) (s : State) (f : Frame) (hf : f = rxFrameOf n rx l 0 s) :
    f.octets = l.take (l.length - 4) ∧ f.len = l.length ∧ f.ingress = n ∧ f.bad = 0 ∧ f.base = s.gov ∧
      f.stamp = s.rxStampIn n s.gov rx.sub ∧ f.stamp0 = s.rxStampIn n 0 rx.sub ∧ f.c0 = rxRelease n rx s 0 ∧
      f.l = rxRelease n rx s (min 127 (l.length - 1)) + 24 ∧ f.e = max (rxRelease n rx s (l.length - 1)) f.l + 4 := by
  subst hf
  exact ⟨rfl, rfl, rfl, rfl, rfl, rfl, rfl, rfl, rfl, rfl⟩

/-! ### A good frame that matches no pattern (R77, R89, R90) -/

/-- The state with a good frame of `len` octets counted. -/
def State.rxCounted (s : State) (n : Nat) (rx : RxFrame) (len : Nat) : State := countRx n len (s.fragged n rx)

/-- The same after a MAC control frame has been consumed. -/
def State.rxTaken (s : State) (n : Nat) (rx : RxFrame) (f : Frame) (last : Nat) (ctl : Bool) : State :=
  if ctl then macControl n f last (s.rxCounted n rx f.len) else s.rxCounted n rx f.len

/-- A good frame's outcome: dropped in DORMANT, consumed, or handed on. -/
def State.rxOutcome (s : State) (n : Nat) (rx : RxFrame) (f : Frame) (last : Nat) (ctl : Bool) (o : RxOpen) : State :=
  if s.asDormant n rx.sub then ((s.rxTaken n rx f last ctl).inc (PT_C_DORMANT_DROP.p n)).openRx n o s
  else if ctl then (s.rxTaken n rx f last ctl).openRx n o s
  else acceptRx n f o s (notePdelay n f (s.rxTaken n rx f last ctl))

theorem frameReceive_plain (hruns : s.runs (portDomain p) = true) (hlink : s.link p = 2 ∨ s.link p = 3) (ha : assemble rx = some l)
    (hv : s.screen p l = 0) (hw : ∀ k, k < 16 → s.wakeMatch p k (l.take (l.length - 4)) = false) :
    ∃ last o, exec (.frameReceive p rx) s =
      .next (s.rxOutcome p rx (rxFrameOf p rx l 0 s) last (beAt l 12 2 == 0x8808) o) := by
  obtain ⟨o, ho⟩ := frameReceive_good hruns hlink ha hv
  have hc := s.fragged_counted p rx
  have hlen := State.length_of_screen hv (by decide)
  have hoct : (rxFrameOf p rx l 0 s).octets = l.take (l.length - 4) := rxFrameOf_octets (by decide)
  have hctl : (beAt l 12 2 == 0x8808) = (beAt (rxFrameOf p rx l 0 s).octets 12 2 == 0x8808) := by
    rw [hoct, beAt_take (by omega)]
  obtain ⟨o', last, u, hu, hgood⟩ := goodRx_plain (t := s) (rx := rx) o (by omega : p.val < 32) hctl
    fun k hk => by rw [hc.wakeMatch hk, hoct, hw k hk]
  rw [hc.asDormant (by omega), hu] at hgood
  exact ⟨last, o', ho.trans (congrArg _ hgood)⟩

section
variable {n : Nat} {f : Frame} (last : Nat) (ctl : Bool) (o : RxOpen)

theorem State.rd_rxCounted (g : Fld) (hg : 0x100108 < g.addr) (hne : PT_C_FRAG_RX.addr ≠ g.addr) (len : Nat) :
    (s.rxCounted n rx len).rd (g.p n) = s.rd (g.p n) := by
  rw [State.rxCounted, rd_countRx _ _ _ hg, s.rd_fragged _ _ (.inl hne)]

/-- A field of the port's page beside the counters of MAC control frames, once a frame has been consumed. -/
theorem State.rd_rxTaken {g : Fld} (h1 : PT_C_MACCTL.addr ≠ g.addr) (h2 : PT_C_PAUSE_RX.addr ≠ g.addr) :
    (s.rxTaken n rx f last ctl).rd (g.p n) = (s.rxCounted n rx f.len).rd (g.p n) := by
  unfold State.rxTaken
  split
  · exact rd_macControl _ _ _ _ (.inl h1) (.inl h2)
  · rfl

theorem State.rxTaken_hall : (s.rxTaken n rx f last ctl).hall = s.hall := by
  have hcount : (s.rxCounted n rx f.len).hall = s.hall := by rw [State.rxCounted, countRx_hall, State.fragged_hall]
  unfold State.rxTaken
  split
  · rw [macControl_hall, hcount]
  · exact hcount

/-- What is done with a frame writes no counter but DORMANT_DROP. -/
theorem State.rd_rxOutcome {g : Fld} (h : PT_C_DORMANT_DROP.addr ≠ g.addr) :
    (s.rxOutcome n rx f last ctl o).rd (g.p n) = (s.rxTaken n rx f last ctl).rd (g.p n) := by
  unfold State.rxOutcome
  split
  · rw [State.rd_openRx, State.rd_inc_p _ _ _ _ (by decide) (.inl h)]
  · split
    · rw [State.rd_openRx]
    · rw [rd_acceptRx]
      exact State.rd_of_word (notePdelay_word ..)

theorem State.rd_rxOutcome_frames :
    (s.rxOutcome n rx f last ctl o).rd (PT_C_RX_FRAMES.p n) = (s.rd (PT_C_RX_FRAMES.p n) + 1) % 2 ^ 32 := by
  rw [State.rd_rxOutcome _ _ _ (by decide), State.rd_rxTaken _ _ (by decide) (by decide), State.rxCounted, rd_countRx_frames,
    s.rd_fragged _ _ (.inl (by decide))]

theorem State.rd_rxOutcome_frags : (s.rxOutcome n rx f last ctl o).rd (PT_C_FRAG_RX.p n) =
    min (s.rd (PT_C_FRAG_RX.p n) + (conts rx).length) (2 ^ PT_C_FRAG_RX.width - 1) := by
  rw [State.rd_rxOutcome _ _ _ (by decide), State.rd_rxTaken _ _ (by decide) (by decide), State.rxCounted,
    rd_countRx _ _ _ (by decide), s.rd_fragged_self]

/-- A good frame received in DORMANT (R89). -/
theorem State.rxOutcome_dormant (hd : s.asDormant n rx.sub = true) :
    (s.rxOutcome n rx f last ctl o).rd (PT_C_DORMANT_DROP.p n) =
        min (s.rd (PT_C_DORMANT_DROP.p n) + 1) (2 ^ PT_C_DORMANT_DROP.width - 1) ∧
      (s.rxOutcome n rx f last ctl o).hall = s.hall := by
  rw [State.rxOutcome, if_pos hd, State.rd_openRx, State.rd_inc_p_self _ _ _ (by decide),
    State.rd_rxTaken _ _ (by decide) (by decide), State.rd_rxCounted _ (by decide) (by decide), State.openRx_hall, State.inc_hall,
    State.rxTaken_hall]
  exact ⟨rfl, rfl⟩

/-- A good MAC control frame (R90). -/
theorem State.rxOutcome_control : (s.rxOutcome n rx f last true o).rd (PT_C_MACCTL.p n) =
        min (s.rd (PT_C_MACCTL.p n) + 1) (2 ^ PT_C_MACCTL.width - 1) ∧
      (s.rxOutcome n rx f last true o).hall = s.hall := by
  constructor
  · rw [State.rd_rxOutcome _ _ _ (by decide), State.rxTaken, if_pos rfl, rd_macControl_count, State.rd_rxCounted _ (by decide) (by decide)]
  · unfold State.rxOutcome
    split
    · rw [State.openRx_hall, State.inc_hall, State.rxTaken_hall]
    · rw [if_pos rfl, State.openRx_hall, State.rxTaken_hall]

/-- A good frame that is handed on (R72). -/
theorem State.rxOutcome_accepted (hd : s.asDormant n rx.sub = false) :
    let t := s.rxOutcome n rx f last false o
    t.frame s.hall.nextId = some f ∧ (∀ i, i ≠ s.hall.nextId → t.frame i = s.frame i) ∧
      RegsKept [(PT_C_RX_FRAMES.p n).addr, (PT_C_RX_OCT_LO.p n).addr, (PT_C_RX_OCT_HI.p n).addr, (PT_C_FRAG_RX.p n).addr] s t ∧
      t = { s.withRegs t with hall := t.hall, ports := t.ports } := by
  have hout : s.rxOutcome n rx f last false o = acceptRx n f o s (notePdelay n f (s.rxTaken n rx f last false)) := by
    rw [State.rxOutcome, if_neg (hd ▸ Bool.false_ne_true), if_neg Bool.false_ne_true]
  have htaken : s.rxTaken n rx f last false = countRx n f.len (s.fragged n rx) := if_neg Bool.false_ne_true
  have hhall : (notePdelay n f (s.rxTaken n rx f last false)).hall = s.hall := by rw [notePdelay_hall, State.rxTaken_hall]
  intro t
  rw [show t = _ from hout]
  refine ⟨?_, fun i hi => ?_, fun a ha => ?_, ?_⟩
  · rw [← hhall]
    exact acceptRx_frame ..
  · rw [acceptRx_frame_ne _ _ _ _ _ (by rwa [hhall])]
    exact congrArg (fun h => aget h.frames i) hhall
  · rw [acceptRx_word, notePdelay_word, htaken]
    exact (RegsKept.fragged s n rx (by simp)).countRx _ (by simp) (by simp) (by simp) a ha
  · rw [htaken]
    exact (((RxOnly.fragged s n rx).countRx n f.len).notePdelay n f).acceptRx n f o s

end

/-! ### FRAME_RECEIVE -/

section
variable (hruns : s.runs (portDomain p) = true) (hlink : s.link p = 2 ∨ s.link p = 3)
include hruns hlink

theorem frameReceive_good_answers (ha : assemble rx = some l) (hv : s.screen p l = 0)
    (hw : ∀ k, k < 16 → s.wakeMatch p k (l.take (l.length - 4)) = false) :
    Answers (exec (.frameReceive p rx) s) (fun t =>
      t.rd (PT_C_RX_FRAMES.p p) = (s.rd (PT_C_RX_FRAMES.p p) + 1) % 2 ^ 32 ∧
      t.rd (PT_C_FRAG_RX.p p) = min (s.rd (PT_C_FRAG_RX.p p) + (conts rx).length) (2 ^ PT_C_FRAG_RX.width - 1) ∧
      (s.asDormant p rx.sub = false → beAt l 12 2 ≠ 0x8808 →
        ∃ f, t.frame s.hall.nextId = some f ∧ f.octets = l.take (l.length - 4) ∧ f.len = l.length ∧ f.ingress = p.val ∧ f.bad = 0 ∧
          f.base = s.gov ∧ f.stamp = s.rxStampIn p s.gov rx.sub ∧ f.stamp0 = s.rxStampIn p 0 rx.sub ∧
          f.c0 = rxRelease p rx s 0 ∧ f.l = rxRelease p rx s (min 127 (l.length - 1)) + 24 ∧
          f.e = max (rxRelease p rx s (l.length - 1)) f.l + 4 ∧
          (∀ i, i ≠ s.hall.nextId → t.frame i = s.frame i) ∧
          RegsKept [(PT_C_RX_FRAMES.p p).addr, (PT_C_RX_OCT_LO.p p).addr, (PT_C_RX_OCT_HI.p p).addr, (PT_C_FRAG_RX.p p).addr] s t ∧
          t = { s.withRegs t with hall := t.hall, ports := t.ports }) ∧
      (s.asDormant p rx.sub = true →
        t.rd (PT_C_DORMANT_DROP.p p) = min (s.rd (PT_C_DORMANT_DROP.p p) + 1) (2 ^ PT_C_DORMANT_DROP.width - 1) ∧
        t.hall = s.hall) ∧
      (beAt l 12 2 = 0x8808 →
        t.rd (PT_C_MACCTL.p p) = min (s.rd (PT_C_MACCTL.p p) + 1) (2 ^ PT_C_MACCTL.width - 1) ∧ t.hall = s.hall)) := by
  obtain ⟨last, o, he⟩ := frameReceive_plain hruns hlink ha hv hw
  refine ⟨_, he, State.rd_rxOutcome_frames .., State.rd_rxOutcome_frags .., fun hd hctl => ?_,
    State.rxOutcome_dormant _ _ _, fun hctl => ?_⟩
  · obtain ⟨hoct, hlen, hing, hbad, hbase, hst, hst0, hc0, hl, hend⟩ := rxFrameOf_fields p rx l s _ rfl
    rw [beq_eq_false_iff_ne.2 hctl]
    obtain ⟨hframe, hothers, hregs, honly⟩ := State.rxOutcome_accepted (f := rxFrameOf p rx l 0 s) last o hd
    exact ⟨_, hframe, hoct, hlen, hing, hbad, hbase, hst, hst0, hc0, hl, hend, hothers, hregs, honly⟩
  · rw [beq_iff_eq.2 hctl]
    exact State.rxOutcome_control ..

theorem frameReceive_runt_answers (ha : assemble rx = some l) (hv : s.screen p l = 3) :
    Answers (exec (.frameReceive p rx) s) (fun t =>
      t.rd (PT_C_RUNT.p p) = min (s.rd (PT_C_RUNT.p p) + 1) (2 ^ PT_C_RUNT.width - 1) ∧ t.hall = s.hall ∧
      RegsKept [(PT_C_RUNT.p p).addr, (PT_C_FRAG_RX.p p).addr] s t ∧ t = { s.withRegs t with ports := t.ports }) := by
  obtain ⟨o, he⟩ := frameReceive_bad hruns hlink ha hv (by decide)
  rw [if_pos (.inl rfl)] at he
  exact ⟨_, he, countedAndDropped rx o PT_C_RUNT (by decide) (by decide)⟩

theorem frameReceive_lost_answers (ha : assemble rx = none) :
    Answers (exec (.frameReceive p rx) s) (fun t =>
      t.rd (PT_C_REASM_ERR.p p) = min (s.rd (PT_C_REASM_ERR.p p) + 1) (2 ^ PT_C_REASM_ERR.width - 1) ∧
      RegsKept [(PT_C_REASM_ERR.p p).addr, (PT_C_FRAG_RX.p p).addr] s t ∧ t = { s.withRegs t with ports := t.ports }) := by
  obtain ⟨o, he⟩ := frameReceive_lost hruns hlink ha
  obtain ⟨hcount, -, hregs, honly⟩ := countedAndDropped (s := s) (n := p) rx o PT_C_REASM_ERR (by decide) (by decide)
  exact ⟨_, he, hcount, hregs, honly⟩

theorem frameReceive_handedOn {v : Nat} (ha : assemble rx = some l) (hv : s.screen p l = v) (h0 : v ≠ 0) (h3 : v ≠ 3)
    (hd : s.asDormant p rx.sub = false) (hctl : beAt l 12 2 ≠ 0x8808) :
    ∃ o, exec (.frameReceive p rx) s = .next (acceptRx p (rxFrameOf p rx l v s) o s ((s.fragged p rx).inc (badCounter p v))) := by
  obtain ⟨o, he⟩ := frameReceive_bad hruns hlink ha hv h0
  rw [if_neg (by simp [h3, hctl, hd])] at he
  exact ⟨o, he⟩

theorem frameReceive_oversize_answers (ha : assemble rx = some l) (hv : s.screen p l = 1) (hd : s.asDormant p rx.sub = false)
    (hctl : beAt l 12 2 ≠ 0x8808) : Answers (exec (.frameReceive p rx) s) (fun t =>
      t.rd (PT_C_OVERSIZE.p p) = min (s.rd (PT_C_OVERSIZE.p p) + 1) (2 ^ PT_C_OVERSIZE.width - 1) ∧
      (∃ f, t.frame s.hall.nextId = some f ∧ f.bad = 1 ∧ f.ingress = p.val ∧ f.octets = l.take (min l.length (s.lmax p + 1))) ∧
      t = { s.withRegs t with hall := t.hall, ports := t.ports }) := by
  obtain ⟨o, he⟩ := frameReceive_handedOn hruns hlink ha hv (by decide) (by decide) hd hctl
  obtain ⟨hcount, hframe, honly⟩ :=
    countedAndAccepted (s := s) (n := p) rx o (rxFrameOf p rx l 1 s) PT_C_OVERSIZE (by decide) (by decide)
  exact ⟨_, he, hcount, ⟨_, hframe, rfl, rfl, rxFrameOf_octets_oversize⟩, honly⟩

theorem frameReceive_badFcs_answers (ha : assemble rx = some l) (hv : s.screen p l = 2) (hd : s.asDormant p rx.sub = false)
    (hctl : beAt l 12 2 ≠ 0x8808) : Answers (exec (.frameReceive p rx) s) (fun t =>
      t.rd (PT_C_FCS_ERR.p p) = min (s.rd (PT_C_FCS_ERR.p p) + 1) (2 ^ PT_C_FCS_ERR.width - 1) ∧
      (∃ f, t.frame s.hall.nextId = some f ∧ f.bad = 2 ∧ f.ingress = p.val ∧ f.octets = l.take (l.length - 4)) ∧
      t = { s.withRegs t with hall := t.hall, ports := t.ports }) := by
  obtain ⟨o, he⟩ := frameReceive_handedOn hruns hlink ha hv (by decide) (by decide) hd hctl
  obtain ⟨hcount, hframe, honly⟩ :=
    countedAndAccepted (s := s) (n := p) rx o (rxFrameOf p rx l 2 s) PT_C_FCS_ERR (by decide) (by decide)
  exact ⟨_, he, hcount, ⟨_, hframe, rfl, rfl, rxFrameOf_octets (by decide)⟩, honly⟩

end

end

end Sys2Proof.Machine
end

section
/-!
Module memory as the rings use it: bytes and little-endian words after a store (R31, R94).
-/
namespace Sys2Proof.Machine

theorem leBytes_length (n x : Nat) : (leBytes n x).length = n := by
  induction n generalizing x with
  | zero => rfl
  | succ n ih => rw [leBytes, List.length_cons, ih]

theorem leNat_leBytes (n x : Nat) : leNat (leBytes n x) = x % 256 ^ n := by
  induction n generalizing x with
  | zero => exact (Nat.mod_one x).symm
  | succ n ih => rw [leBytes, leNat, ih, Nat.pow_succ', Nat.mod_mul, BitVec.toNat_ofNat]

theorem leNat_lt (l : List Byte) : leNat l < 256 ^ l.length := by
  induction l with
  | nil => exact Nat.one_pos
  | cons b l ih =>
    have hb : b.toNat < 256 := b.isLt
    rw [leNat, List.length_cons, Nat.pow_succ']
    omega

section
variable {s t : State}

theorem State.load_length (s : State) (a n : Nat) : (s.load a n).length = n := by
  rw [State.load, List.length_map, List.length_range]

theorem State.loadN_lt (s : State) (a n : Nat) : s.loadN a n < 256 ^ n := by
  have h := leNat_lt (s.load a n)
  rwa [State.load_length] at h

/-- Memory whose bytes from `a` on are those of `s`. -/
theorem State.load_congr {a n : Nat} (h : ∀ x, a ≤ x → x < a + n → t.memByte x = s.memByte x) : t.load a n = s.load a n :=
  List.map_congr_left fun i hi => h (a + i) (Nat.le_add_right ..) (Nat.add_lt_add_left (List.mem_range.1 hi) a)

theorem State.load_store_self (s : State) (a : Nat) (l : List Byte) : (s.store a l).load a l.length = l := by
  refine List.ext_getElem (State.load_length ..) fun i _ hi => ?_
  simp only [State.load, List.getElem_map, List.getElem_range]
  rw [s.memByte_store, if_pos ⟨Nat.le_add_right .., Nat.add_lt_add_left hi a⟩, Nat.add_sub_cancel_left]
  exact (List.getElem_eq_getD 0).symm

theorem State.memByte_store_apart (s : State) {a x : Nat} {l : List Byte} (h : x < a ∨ a + l.length ≤ x) :
    (s.store a l).memByte x = s.memByte x := by
  rw [s.memByte_store, if_neg (by omega)]

theorem State.memByte_storeN_apart (s : State) {a n x : Nat} (v : Nat) (h : x < a ∨ a + n ≤ x) :
    (s.storeN a n v).memByte x = s.memByte x := s.memByte_store_apart (by rwa [leBytes_length])

theorem State.load_store_apart (s : State) {a n b : Nat} {l : List Byte} (h : a + n ≤ b ∨ b + l.length ≤ a) :
    (s.store b l).load a n = s.load a n :=
  State.load_congr fun x _ _ => s.memByte_store_apart (by omega)

theorem State.load_storeN_apart (s : State) {a n b m : Nat} (v : Nat) (h : a + n ≤ b ∨ b + m ≤ a) :
    (s.storeN b m v).load a n = s.load a n := s.load_store_apart (by rwa [leBytes_length])

theorem State.loadN_storeN_self (s : State) (a n x : Nat) : (s.storeN a n x).loadN a n = x % 256 ^ n := by
  have h := s.load_store_self a (leBytes n x)
  rw [leBytes_length] at h
  rw [State.loadN, State.storeN, h, leNat_leBytes]

theorem State.loadN_storeN_apart (s : State) {a n b m : Nat} (v : Nat) (h : a + n ≤ b ∨ b + m ≤ a) :
    (s.storeN b m v).loadN a n = s.loadN a n := congrArg leNat (s.load_storeN_apart v h)

/-- A store of a word of four bytes reads back whole. -/
theorem State.loadN_storeN_word (s : State) (a : Nat) {x : Nat} (h : x < 2 ^ 32) : (s.storeN a 4 x).loadN a 4 = x :=
  (s.loadN_storeN_self a 4 x).trans (Nat.mod_eq_of_lt h)

theorem State.store_word (s : State) (b : Nat) (l : List Byte) (a : Nat) : (s.store b l).word a = s.word a := by
  rw [s.store_frame]
  rfl

theorem State.store_rd (s : State) (b : Nat) (l : List Byte) (f : Fld) : (s.store b l).rd f = s.rd f :=
  State.rd_of_word (s.store_word b l _)

/-! ### The results of a transmit descriptor (R100) -/

/-- The EOP descriptor of a frame of one descriptor: OWN clear, and its results. -/
theorem txResult_single (n : Fin 4) (d res : Nat) (s : State) : (txResult (.steward n) [d] res s).loadN (d + 12) 4 =
    setBits (setBits (s.loadN (d + 12) 4) 31 31 0) 28 24 res := by
  have h0 : setBits (s.loadN (d + 12) 4) 31 31 0 < 2 ^ 32 := setBits_lt _ _ _ _ _ (by decide) (by decide) (s.loadN_lt _ 4)
  have h1 : setBits (setBits (s.loadN (d + 12) 4) 31 31 0) 28 24 res < 2 ^ 32 := setBits_lt _ _ _ _ _ (by decide) (by decide) h0
  have hw (u : State) : (txResult (.steward n) [d] res u) = (u.storeN (d + 12) 4 (setBits (u.loadN (d + 12) 4) 31 31 0)).storeN (d + 12) 4
      (setBits ((u.storeN (d + 12) 4 (setBits (u.loadN (d + 12) 4) 31 31 0)).loadN (d + 12) 4) 28 24 res) := rfl
  rw [hw, State.loadN_storeN_word s _ h0, State.loadN_storeN_word _ _ h1]

end

end Sys2Proof.Machine
end

section
/-!
RING_TX_FETCH and TENANT_FRAME_ENTRY (R100, R387, R390).
-/
namespace Sys2Proof.Machine

/-! ### RING_TX_FETCH -/

/-- A DEST that the ring may not name (R99, R100). -/
def wrongDest (r : Ring) (dest : Nat) : Bool :=
  match r with
  | .tenant _ => dest != 0x1F
  | .steward _ => decide (19 ≤ dest) && dest != 0x1F

/-- The errors of a frame fetched from descriptors `ds`: a buffer, its DEST, its length (R100). -/
def State.txErrors (s : State) (r : Ring) (ds : List Nat) (dest len : Nat) : Nat :=
  b2n (ds.any (fun d => !s.bufferOk r (s.loadN d 5) (s.txLen d) false)) * 2 + b2n (wrongDest r dest) +
    b2n (decide ((if dest < 19 then s.lmax dest else 9216) < len + 4)) * 4

/-- Class and DEST that the first descriptor of a frame names. -/
def State.txClass (s : State) (ds : List Nat) : Nat := bits (s.loadN (ds.headD 0 + 10) 1) 7 5
def State.txDest (s : State) (ds : List Nat) : Nat := bits (s.loadN (ds.headD 0 + 10) 1) 4 0

section
variable {s : State} {r : Ring} {ds : List Nat}

theorem State.txErrors_none {dest len : Nat} (hbuf : ∀ d ∈ ds, s.bufferOk r (s.loadN d 5) (s.txLen d) false = true)
    (hdest : wrongDest r dest = false) (hlen : len + 4 ≤ (if dest < 19 then s.lmax dest else 9216)) :
    s.txErrors r ds dest len = 0 := by
  have hany : ds.any (fun d => !s.bufferOk r (s.loadN d 5) (s.txLen d) false) = false :=
    List.any_eq_false.2 fun d hd => by rw [hbuf d hd]; decide
  rw [State.txErrors, hany, hdest, decide_eq_false (Nat.not_lt.2 hlen)]
  rfl

/-- What is done with a frame without error. -/
def State.txTaken (s : State) (r : Ring) (ds : List Nat) : State :=
  match r with
  | .steward _ =>
    let t := txResult r ds 16 (txAdvance r ds.length s)
    if s.txDest ds = 0x1F then i2Lookup (s.txOctets ds) (s.txClass ds) none t
    else i2Direct (s.txOctets ds) (s.txClass ds) (s.txDest ds)
      (if bit (s.loadN (ds.headD 0 + 11) 1) 0 then ds.getLast? else none) t
  | .tenant v =>
    if (aget s.ports.waiting v).isSome then s
    else (txAdvance r ds.length s).setWaiting v (some {
      octets := s.txOctets ds, cls := s.txClass ds, descs := ds, gen := s.rd0 (VI_STATUS_GEN.p v), tbWaited := false
      shareWaited := false, tick := s.clk.raised })

variable (hruns : s.runs 7 = true) (hpub : s.pubFirst = false) (hchain : s.txChain r (s.rd (txSize r)) (s.rd (txNext r)) = some ds)
  (hwhole : ∀ d ∈ ds, s.badSpan (s.loadN d 5) (s.txLen d) = false)
include hruns hpub hchain hwhole

theorem exec_ringTxFetch : exec (.ringTxFetch r) s = .next (
    if s.txErrors r ds (s.txDest ds) (s.txOctets ds).length ≠ 0 then
      txResult r ds (s.txErrors r ds (s.txDest ds) (s.txOctets ds).length) (txAdvance r ds.length s)
    else s.txTaken r ds) := by
  have hlost : ds.any (fun d => s.badSpan (s.loadN d 5) (s.txLen d)) = false :=
    List.any_eq_false.2 fun d hd => by rw [hwhole d hd]; decide
  have he : exec (.ringTxFetch r) s = execRingTxFetch r s := rfl
  rw [he, execRingTxFetch, whileOn_runs hruns, hchain]
  dsimp only
  rw [hpub, if_neg Bool.false_ne_true, hlost]
  by_cases hE : s.txErrors r ds (s.txDest ds) (s.txOctets ds).length ≠ 0
  · rw [if_pos hE]
    exact if_pos (.inl hE)
  · rw [if_neg hE]
    refine (if_neg fun h => h.elim hE Bool.false_ne_true).trans ?_
    cases r with
    | steward n => exact (apply_ite Host.Outcome.next _ _ _).symm
    | tenant v => exact (apply_ite Host.Outcome.next _ _ _).symm

/-- A frame without error, of a steward ring by lookup or to its DEST, of a tenant's to wait (R100, R387). -/
theorem ringTxFetch_taken (hbuf : ∀ d ∈ ds, s.bufferOk r (s.loadN d 5) (s.txLen d) false = true)
    (hdest : wrongDest r (s.txDest ds) = false)
    (hlen : (s.txOctets ds).length + 4 ≤ (if s.txDest ds < 19 then s.lmax (s.txDest ds) else 9216)) :
    exec (.ringTxFetch r) s = .next (s.txTaken r ds) := by
  rw [exec_ringTxFetch hruns hpub hchain hwhole, if_neg (not_not.2 (State.txErrors_none hbuf hdest hlen))]

theorem ringTxFetch_good (hbuf : ∀ d ∈ ds, s.bufferOk r (s.loadN d 5) (s.txLen d) false = true)
    (hlen : (s.txOctets ds).length + 4 ≤ (if s.txDest ds < 19 then s.lmax (s.txDest ds) else 9216)) :
    (∀ n, r = .steward n → s.txDest ds = 0x1F → exec (.ringTxFetch r) s =
      .next (i2Lookup (s.txOctets ds) (s.txClass ds) none (txResult r ds 16 (txAdvance r ds.length s)))) ∧
    (∀ n, r = .steward n → s.txDest ds < 19 → exec (.ringTxFetch r) s =
      .next (i2Direct (s.txOctets ds) (s.txClass ds) (s.txDest ds) (if bit (s.loadN (ds.headD 0 + 11) 1) 0 then ds.getLast? else none)
        (txResult r ds 16 (txAdvance r ds.length s)))) ∧
    (∀ v : Fin 512, r = .tenant v → s.txDest ds = 0x1F → aget s.ports.waiting v.val = none → exec (.ringTxFetch r) s =
      .next ((txAdvance r ds.length s).setWaiting v (some {
        octets := s.txOctets ds, cls := s.txClass ds, descs := ds, gen := s.rd0 (VI_STATUS_GEN.p v), tbWaited := false
        shareWaited := false, tick := s.clk.raised }))) := by
  have htaken := fun hdest => ringTxFetch_taken hruns hpub hchain hwhole hbuf hdest hlen
  refine ⟨?_, ?_, ?_⟩
  · rintro n rfl hd
    rw [htaken (by simp [wrongDest, hd]), State.txTaken, if_pos hd]
  · rintro n rfl hd
    rw [htaken (by simp [wrongDest, Nat.not_le.2 hd]), State.txTaken, if_neg (by omega)]
  · rintro v rfl hd hnone
    rw [htaken (by simp [wrongDest, hd]), State.txTaken, hnone]
    rfl

/-- A frame in error hands its descriptors back with its errors (R100). -/
theorem ringTxFetch_bad (h : s.txErrors r ds (s.txDest ds) (s.txOctets ds).length ≠ 0) : exec (.ringTxFetch r) s =
    .next (txResult r ds (s.txErrors r ds (s.txDest ds) (s.txOctets ds).length) (txAdvance r ds.length s)) := by
  rw [exec_ringTxFetch hruns hpub hchain hwhole, if_pos h]

end

/-! ### TENANT_FRAME_ENTRY -/

section
variable {s : State} {v : Fin 512} {w : WaitFrame} (hruns : s.runs 7 = true) (hwait : aget s.ports.waiting v.val = some w)
  (hpub : s.pubFirst = false)
include hruns hwait hpub

theorem tenantFrameEntry_gated (hg : s.gate = false) : exec (.tenantFrameEntry v) s =
    .next (((txResult (.tenant v) w.descs 16 s).setWaiting v none).inc PB_G_GATED_ALL) := by
  have he : exec (.tenantFrameEntry v) s = execTenantFrameEntry v s := rfl
  rw [he, execTenantFrameEntry, whileOn_runs hruns, hwait]
  dsimp only
  rw [hpub, if_neg Bool.false_ne_true, hg, Bool.not_false, if_pos rfl]

theorem tenantFrameEntry_enters (hg : s.gate = true) (htok : 0 ≤ s.tokens v) (htick : ¬ (w.tbWaited = true ∧ w.tick = s.clk.raised))
    (hshare : s.inShare v (w.octets.length + 4) = true) :
    ∃ t, t = (txResult (.tenant v) w.descs 16 s).setWaiting v none ∧ exec (.tenantFrameEntry v) s =
      .next (i2Lookup w.octets w.cls (some (v, w.gen)) (t.setTokens v (t.tokens v - (w.octets.length : Int)))) := by
  refine ⟨_, rfl, ?_⟩
  have he : exec (.tenantFrameEntry v) s = execTenantFrameEntry v s := rfl
  rw [he, execTenantFrameEntry, whileOn_runs hruns, hwait]
  dsimp only
  rw [hpub, if_neg Bool.false_ne_true, hg, Bool.not_true, if_neg Bool.false_ne_true, if_neg (Int.not_lt.2 htok), if_neg htick, hshare,
    Bool.not_true, if_neg Bool.false_ne_true]

end

end Sys2Proof.Machine
end

section
/-!
RING_RX_DELIVER (R95, R96).
-/
namespace Sys2Proof.Machine

/-! ### What the end of a copy leaves (R120) -/

section
variable {s t u : State}

theorem RxOnly.setFrame (h : RxOnly s t) (i : Nat) (f : Frame) : RxOnly s (t.setFrame i f) := h.trans rfl
theorem RxOnly.setQueue (h : RxOnly s t) (n c : Nat) (l : List Nat) : RxOnly s (t.setQueue n c l) := h.trans rfl
theorem RxOnly.qSub (h : RxOnly s t) (n c k : Nat) : RxOnly s (t.qSub n c k) := h.wr _ _

theorem RxOnly.ite {c : Prop} [Decidable c] (h : RxOnly s t) (h' : RxOnly s u) : RxOnly s (if c then t else u) := by
  split
  · exact h
  · exact h'

theorem RxOnly.dropGrant (h : RxOnly s t) (i n : Nat) : RxOnly s (t.dropGrant i n) := .ite (h.setPort _ _) h

theorem RxOnly.retire (h : RxOnly s t) (i : Nat) : RxOnly s (t.retire i) := by
  have hforget {u : State} (hu : RxOnly s u) : RxOnly s { u with hall := { u.hall with frames := adel u.hall.frames i } } := hu.trans rfl
  unfold State.retire
  split
  · exact h
  · refine .ite ?_ h
    split
    · exact .ite (hforget ((h.wr _ _).wr _ _)) (((h.wr _ _).wr _ _).setFrame _ _)
    · exact .ite (hforget (h.wr _ _)) ((h.wr _ _).setFrame _ _)

theorem RxOnly.endCopy (h : RxOnly s t) (i n c : Nat) : RxOnly s (t.endCopy i n c) := by
  unfold State.endCopy
  split
  · exact h
  · exact ((((h.setQueue _ _ _).qSub _ _ _).dropGrant _ _).setFrame _ _).retire _

theorem RxOnly.mem (h : RxOnly s t) : t.mem = s.mem := by
  rw [h]
  rfl

theorem State.memByte_of_mem {x : Nat} (h : t.mem = s.mem) : t.memByte x = s.memByte x := by
  rw [State.memByte, h, State.memByte]

theorem State.queue_of_queues {n c : Nat} (h : t.hall.queues = s.hall.queues) : t.queue n c = s.queue n c := by
  rw [State.queue, h, State.queue]

/-- The cells and the share of a frame go back; the queues stand (R120, R390). -/
theorem State.retire_queues (s : State) (i : Nat) : (s.retire i).hall.queues = s.hall.queues := by
  unfold State.retire
  split
  · rfl
  · split
    · split
      · split <;> rfl
      · split <;> rfl
    · rfl

theorem State.dropGrant_hall (s : State) (i n : Nat) : (s.dropGrant i n).hall = s.hall := by
  unfold State.dropGrant
  split <;> rfl

/-- The one copy of a queue leaves it empty. -/
theorem State.endCopy_queue {i n c : Nat} {f : Frame} (hf : s.frame i = some f) (hq : s.queue n c = [i]) :
    (s.endCopy i n c).queue n c = [] := by
  have hfilter : (s.queue n c).filter (· != i) = [] := by rw [hq]; simp
  have hhall (u : State) (g : Frame) : ((u.dropGrant i n).setFrame i g).hall.queues = u.hall.queues := by
    have hset (w : State) : (w.setFrame i g).hall.queues = w.hall.queues := rfl
    rw [hset, State.dropGrant_hall]
  have hset (u : State) : (u.setQueue n c []).queue n c = [] := agetD_adel_self ..
  unfold State.endCopy
  rw [hf]
  dsimp only
  rw [State.queue_of_queues ((State.retire_queues ..).trans (hhall ..)), hfilter]
  exact hset s

/-! ### A frame sent, counted (R77, R101) -/

theorem RxOnly.countTx (h : RxOnly s t) (n len : Nat) : RxOnly s (Machine.countTx n len t) := ((h.incW _ _).wr _ _).wr _ _

theorem countTx_hall (n len : Nat) (s : State) : (countTx n len s).hall = s.hall := by
  have h (u : State) (f g : Fld) (x y : Nat) : ((u.wr f x).wr g y).hall = u.hall := rfl
  exact (h ..).trans rfl

theorem rd_countTx_frames (n len : Nat) (s : State) :
    (countTx n len s).rd (PT_C_TX_FRAMES.p n) = (s.rd (PT_C_TX_FRAMES.p n) + 1) % 2 ^ 32 := by
  unfold countTx
  dsimp only
  rw [State.rd_wr_p _ _ _ _ _ (by decide) (by decide), State.rd_wr_p _ _ _ _ _ (by decide) (by decide),
    State.rd_incW_self _ _ _ (Fld.fits.p (f := PT_C_TX_FRAMES) ⟨by decide, by decide⟩ n)]
  rfl

theorem countTx_word (n len : Nat) (s : State) {a : Nat} (h : ∀ f ∈ [PT_C_TX_FRAMES, PT_C_TX_OCT_LO, PT_C_TX_OCT_HI], a ≠ (f.p n).addr) :
    (countTx n len s).word a = s.word a := by
  have hl : RegsKept ([PT_C_TX_FRAMES, PT_C_TX_OCT_LO, PT_C_TX_OCT_HI].map fun f => (f.p n).addr) s (countTx n len s) :=
    (((RegsKept.refl _ s).incW (f := PT_C_TX_FRAMES.p n) 1 (by simp)).wr (f := PT_C_TX_OCT_LO.p n) _ (by simp)).wr
      (f := PT_C_TX_OCT_HI.p n) _ (by simp)
  exact hl a fun hm => by
    obtain ⟨f, hf, he⟩ := List.mem_map.1 hm
    exact h f hf he.symm

/-! ### The end of a delivery (R59) -/

/-- A frame whose last descriptor stands written in a steward ring: its I2 copy is gone and counted, and I2's port event shows. -/
theorem rxDone_steward {n : Fin 4} {p : RxPart} {f g : Frame} (hring : ringOf p.ring = .steward n) (hg : s.frame p.fid = some g)
    (hq : s.queue pI2 p.cls = [p.fid]) :
    (∀ x, (rxDone p f s).memByte x = s.memByte x) ∧ (rxDone p f s).queue pI2 p.cls = [] ∧
      (rxDone p f s).rd (PT_C_TX_FRAMES.p 21) = (s.rd (PT_C_TX_FRAMES.p 21) + 1) % 2 ^ 32 ∧
      bit ((rxDone p f s).word 0x30014) 21 = true ∧ (rxDone p f s).rd (rxNext (.steward n)) = s.rd (rxNext (.steward n)) := by
  have hdone : rxDone p f s = (countTx pI2 (f.octets.length + 4)
      ({ s with ports := { s.ports with rxPart := none } }.endCopy p.fid pI2 p.cls)).raise (ES_PT pI2) := by
    unfold rxDone
    rw [hring]
  generalize hu : ({ s with ports := { s.ports with rxPart := none } } : State) = u at hdone
  have honly : RxOnly s u := hu ▸ rfl
  have hword : ∀ a, u.word a = s.word a := fun a => hu ▸ rfl
  have hframe : u.frame p.fid = some g := hu ▸ hg
  have hqueue : u.queue pI2 p.cls = [p.fid] := hu ▸ hq
  have hend := (LinkKept.refl 0x10000 u).endCopy p.fid pI2 p.cls
  rw [hdone]
  refine ⟨fun x => ?_, ?_, ?_, State.raise_port_bit _ (by decide), ?_⟩
  · exact State.memByte_of_mem ((State.raise_mem ..).trans ((honly.endCopy p.fid pI2 p.cls).countTx pI2 _).mem)
  · rw [State.queue_of_queues (congrArg Hall.queues ((State.raise_hall ..).trans (countTx_hall ..))), State.endCopy_queue hframe hqueue]
  · refine (State.raise_port_rd _ (n := pI2) (g := PT_C_TX_FRAMES) (by decide) (by decide)).trans ((rd_countTx_frames ..).trans ?_)
    rw [State.rd_of_word ((hend.word _ (by unfold portReg; decide)).trans (hword _))]
    rfl
  · have ha : (rxNext (.steward n)).addr = 0x25040C + n * 0x40 := rfl
    have hcount : ∀ f ∈ [PT_C_TX_FRAMES, PT_C_TX_OCT_LO, PT_C_TX_OCT_HI], (f.p pI2).addr < 0x25040C := by decide
    refine State.rd_of_word ((State.word_raise_ne _ _ ?_).trans ((countTx_word _ _ _ fun f hf => ?_).trans
      ((hend.word _ ?_).trans (hword _))))
    · rw [State.raise_port_addr (by decide), ha]
      omega
    · have := hcount f hf
      omega
    · unfold portReg
      omega

end

/-! ### The copy that is delivered next (R95) -/

section
variable {s : State} {i c : Nat} {f : Frame}

/-- A copy alone in I2's queues is the one delivered. -/
theorem State.Alone.rxPick (h : s.Alone pI2 i c f) (hr : s.rxReady f = true) : s.rxPick = some (i, c, f) := by
  refine head?_filterMap_of_unique (a := c) (List.mem_reverse.2 (List.mem_range.2 h.class_lt)) ?_ fun c' hc' y hy => ?_
  · rw [h.queue, List.head?_cons, Option.bind_some, h.frame, Option.bind_some, if_pos hr]
  · by_cases hne : c' = c
    · rw [hne, h.queue, List.head?_cons, Option.bind_some, h.frame, Option.bind_some, if_pos hr] at hy
      exact (Option.some.inj hy).symm
    · rw [h.others c' (List.mem_range.1 (List.mem_reverse.1 hc')) hne] at hy
      cases hy

theorem exec_ringRxDeliver (hruns : s.runs 7 = true) (hpart : s.ports.rxPart = none) (h : s.Alone pI2 i c f) (hc : f.complete = true)
    (hcyc : (if f.ingress = 18 then f.e + 3 else f.e) < s.cyc) :
    exec (.ringRxDeliver none) s = .next (deliverRx i c (s.inward f pI2) 4096 s) := by
  have hr : s.rxReady f = true := by rw [State.rxReady, hc, decide_eq_true hcyc, Bool.and_self]
  have he : exec (.ringRxDeliver none) s = execRingRxDeliver none s := rfl
  rw [he]
  unfold execRingRxDeliver
  rw [whileOn_runs hruns, hpart, h.examinePort]
  dsimp only
  rw [h.rxPick hr]

/-! ### One descriptor of a steward ring (R95, R96) -/

/-- The descriptor at a steward ring's NEXT. -/
def State.nextDesc (s : State) (r : Ring) : Nat := s.rxDesc r (s.rd (rxNext r))

theorem State.claim_single {r : Ring} {j k n : Nat} (hk : k ≠ 0) (ho : s.owned (s.rxDesc r j) = true)
    (hn : n ≤ s.bufBytes (s.rxDesc r j)) : s.claim r k j n = ([s.rxDesc r j], true) := by
  obtain ⟨m, rfl⟩ := Nat.exists_eq_succ_of_ne_zero hk
  rw [State.claim]
  dsimp only
  rw [if_neg (not_not.2 ho), if_pos hn]

/-- The state with buffer, stamp, tag and SEQ of the descriptor at `d` written, and NEXT moved on. -/
def State.rxFilled (s : State) (r : Ring) (f : Frame) (d tag seq : Nat) : State :=
  ((((s.store (s.loadN d 5) f.octets).store (d + 16) (s.rxStamp f)).storeN (d + 28) 2 tag).storeN (d + 30) 2 seq).wr (rxNext r)
    ((s.rd (rxNext r) + 1) % max 1 (s.rd (rxSize r)))

/-- A frame that the descriptor at `d` holds whole. -/
theorem fillRx_whole {d : Nat} {p : RxPart} (hsop : p.sop = true) (hrest : p.rest = f.octets) (hfit : f.octets.length ≤ s.bufBytes d) :
    ∃ tag, fillRx f d p s = ({ p with desc := d, len := f.octets.length, rest := [] }, s.rxFilled (ringOf p.ring) f d tag p.seq) := by
  unfold fillRx
  dsimp only
  rw [hrest, Nat.min_eq_left hfit, List.take_length, List.drop_length, if_pos hsop]
  exact ⟨_, rfl⟩

/-- The state with SEQ of a ring counted on. -/
def State.seqOn (s : State) (r : Ring) : State :=
  { s with ports := { s.ports with
    rxSeq := aput s.ports.rxSeq (ringIndex r) ((agetD s.ports.rxSeq (ringIndex r) 0 + 1) % 65536) } }

/-- The state with a frame in the one descriptor at `d`. -/
def State.rxWritten (s : State) (r : Ring) (f : Frame) (d tag : Nat) : State :=
  ((s.seqOn r).rxFilled r f d tag (agetD s.ports.rxSeq (ringIndex r) 0)).storeN (d + 12) 4 (rxWord f true true false f.octets.length)

theorem deliverRx_single {n : Fin 4} {d : Nat} (hring : f.ring = n.val) (hd : d = s.nextDesc (.steward n))
    (hsize : s.rd (rxSize (.steward n)) ≠ 0) (howned : s.owned d = true) (hfit : f.octets.length ≤ s.bufBytes d)
    (hlen : (s.retag f pI2 f.octets).length + 4 ≤ s.lmax pI2) :
    ∃ (p : RxPart) (tag : Nat), p.fid = i ∧ p.cls = c ∧ ringOf p.ring = .steward n ∧
      deliverRx i c f 4096 s = rxDone p f (s.rxWritten (.steward n) f d tag) := by
  have hof : ringOf f.ring = .steward n := by
    rw [ringOf, hring, if_pos n.isLt]
    exact congrArg Ring.steward (Fin.ofNat_val_eq_self n)
  have hclaim : s.claim (.steward n) (s.rd (rxSize (.steward n))) (s.rd (rxNext (.steward n))) f.octets.length = ([d], true) := by
    subst hd
    exact State.claim_single hsize howned hfit
  obtain ⟨tag, hfill⟩ := fillRx_whole (s := s.seqOn (.steward n)) (f := f) (d := d) (p := {
    fid := i, cls := c, ring := f.ring, desc := d, len := 0, sop := true, rest := f.octets
    seq := agetD s.ports.rxSeq (ringIndex (.steward n)) 0 }) rfl rfl hfit
  unfold deliverRx
  dsimp only
  rw [hof, hclaim, if_neg (by omega)]
  dsimp only
  rw [State.seqOn] at hfill
  rw [hfill]
  dsimp only
  rw [hof, runRx]
  exact ⟨_, tag, rfl, rfl, hof, if_pos rfl⟩

/-! ### The descriptor and its buffer as they stand (R95) -/

theorem State.rxStamp_length (s : State) (f : Frame) : (s.rxStamp f).length = 12 := by
  have hstamp (b t : Nat) : (stampBytes b t).length = 12 := by simp [stampBytes, leBytes_length]
  unfold State.rxStamp
  split
  · exact hstamp ..
  · exact hstamp ..

theorem State.wr_load (s : State) (g : Fld) (v a n : Nat) : (s.wr g v).load a n = s.load a n := rfl
theorem State.wr_memByte (s : State) (g : Fld) (v x : Nat) : (s.wr g v).memByte x = s.memByte x := rfl

section
variable {r : Ring} {d tag seq : Nat}

theorem State.rxFilled_load_buffer (hap : s.loadN d 5 + f.octets.length ≤ d ∨ d + 32 ≤ s.loadN d 5) :
    (s.rxFilled r f d tag seq).load (s.loadN d 5) f.octets.length = f.octets := by
  have hst := s.rxStamp_length f
  rw [State.rxFilled, State.wr_load, State.load_storeN_apart _ _ (by omega), State.load_storeN_apart _ _ (by omega),
    State.load_store_apart _ (by omega), State.load_store_self]

theorem State.rxFilled_load_stamp : (s.rxFilled r f d tag seq).load (d + 16) 12 = s.rxStamp f := by
  have hself := (s.store (s.loadN d 5) f.octets).load_store_self (d + 16) (s.rxStamp f)
  rw [s.rxStamp_length] at hself
  rw [State.rxFilled, State.wr_load, State.load_storeN_apart _ _ (by omega), State.load_storeN_apart _ _ (by omega), hself]

theorem State.rxFilled_load_seq : (s.rxFilled r f d tag seq).load (d + 30) 2 = leBytes 2 seq := by
  have hself (u : State) := u.load_store_self (d + 30) (leBytes 2 seq)
  simp only [leBytes_length] at hself
  exact hself _

theorem State.rxFilled_memByte {x : Nat} (hb : x < s.loadN d 5 ∨ s.loadN d 5 + f.octets.length ≤ x) (hd : x < d + 12 ∨ d + 32 ≤ x) :
    (s.rxFilled r f d tag seq).memByte x = s.memByte x := by
  have hst := s.rxStamp_length f
  rw [State.rxFilled, State.wr_memByte, State.memByte_storeN_apart _ _ (by omega), State.memByte_storeN_apart _ _ (by omega),
    State.memByte_store_apart _ (by omega), State.memByte_store_apart _ hb]

/-- Memory, registers and Hall beside the ring's NEXT, as memory is written. -/
theorem State.rxFilled_frame : s.rxFilled r f d tag seq = { s with
    regs := (s.rxFilled r f d tag seq).regs, mem := (s.rxFilled r f d tag seq).mem, ic := (s.rxFilled r f d tag seq).ic } := by
  have hstep {u : State} (a : Nat) (l : List Byte) (h : u = { s with regs := u.regs, mem := u.mem, ic := u.ic }) :
      u.store a l = { s with regs := (u.store a l).regs, mem := (u.store a l).mem, ic := (u.store a l).ic } := by
    rw [u.store_frame a l, h]
  have hw {u : State} (g : Fld) (v : Nat) (h : u = { s with regs := u.regs, mem := u.mem, ic := u.ic }) :
      u.wr g v = { s with regs := (u.wr g v).regs, mem := (u.wr g v).mem, ic := (u.wr g v).ic } := by
    have hwr : u.wr g v = { u with regs := (u.wr g v).regs } := rfl
    rw [hwr, h]
  exact hw _ _ (hstep _ _ (hstep _ _ (hstep _ _ (hstep _ _ rfl))))

theorem State.rxFilled_word {a : Nat} (h : a ≠ (rxNext r).addr) : (s.rxFilled r f d tag seq).word a = s.word a := by
  rw [State.rxFilled, State.word_wr_ne _ _ _ h, State.storeN, State.storeN, State.store_word, State.store_word, State.store_word,
    State.store_word]

theorem State.rxFilled_next (n : Fin 4) : (s.rxFilled (.steward n) f d tag seq).rd (rxNext (.steward n)) =
    (s.rd (rxNext (.steward n)) + 1) % max 1 (s.rd (rxSize (.steward n))) % 4096 :=
  have hfits : ∀ n : Fin 4, (rxNext (.steward n)).lo ≤ (rxNext (.steward n)).hi ∧ (rxNext (.steward n)).hi < 32 := by decide
  State.rd_wr_self _ (rxNext (.steward n)) _ (hfits n)

/-- The descriptor's word is written last. -/
theorem State.rxWritten_eq : s.rxWritten r f d tag =
    ((s.seqOn r).rxFilled r f d tag (agetD s.ports.rxSeq (ringIndex r) 0)).storeN (d + 12) 4
      (rxWord f true true false f.octets.length) := rfl

theorem State.rxWritten_load_buffer (hap : s.loadN d 5 + f.octets.length ≤ d ∨ d + 32 ≤ s.loadN d 5) :
    (s.rxWritten r f d tag).load (s.loadN d 5) f.octets.length = f.octets := by
  rw [State.rxWritten_eq, State.load_storeN_apart _ _ (by omega)]
  exact State.rxFilled_load_buffer (s := s.seqOn r) hap

theorem State.rxWritten_word12 :
    (s.rxWritten r f d tag).loadN (d + 12) 4 = rxWord f true true false f.octets.length % 2 ^ 32 := State.loadN_storeN_self ..

theorem State.rxWritten_load_stamp : (s.rxWritten r f d tag).load (d + 16) 12 = s.rxStamp f := by
  rw [State.rxWritten_eq, State.load_storeN_apart _ _ (by omega)]
  exact State.rxFilled_load_stamp (s := s.seqOn r)

theorem State.rxWritten_seq : (s.rxWritten r f d tag).loadN (d + 30) 2 = agetD s.ports.rxSeq (ringIndex r) 0 % 65536 := by
  rw [State.rxWritten_eq, State.loadN_storeN_apart _ _ (by omega), State.loadN, State.rxFilled_load_seq, leNat_leBytes]
  rfl

theorem State.rxWritten_memByte {x : Nat} (hb : x < s.loadN d 5 ∨ s.loadN d 5 + f.octets.length ≤ x) (hd : x < d + 12 ∨ d + 32 ≤ x) :
    (s.rxWritten r f d tag).memByte x = s.memByte x := by
  rw [State.rxWritten_eq, State.memByte_storeN_apart _ _ (by omega)]
  exact State.rxFilled_memByte (s := s.seqOn r) hb hd

theorem State.rxWritten_hall : (s.rxWritten r f d tag).hall = s.hall := by
  rw [State.rxWritten_eq, State.storeN, State.store_frame, State.rxFilled_frame]
  rfl

theorem State.rxWritten_word {a : Nat} (h : a ≠ (rxNext r).addr) : (s.rxWritten r f d tag).word a = s.word a := by
  rw [State.rxWritten_eq, State.storeN, State.store_word, State.rxFilled_word h]
  rfl

theorem State.rxWritten_next (n : Fin 4) : (s.rxWritten (.steward n) f d tag).rd (rxNext (.steward n)) =
    (s.rd (rxNext (.steward n)) + 1) % max 1 (s.rd (rxSize (.steward n))) % 4096 := by
  rw [State.rxWritten_eq, State.storeN, State.store_rd, State.rxFilled_next]
  rfl

end

/-- What one descriptor of a steward ring shows of a frame that it holds (R95). -/
theorem ringRxDeliver_single {n : Fin 4} {d b : Nat} {l : List Byte} (hruns : s.runs 7 = true) (hpart : s.ports.rxPart = none)
    (h : s.Alone pI2 i c f) (hc : f.complete = true) (hcyc : (if f.ingress = 18 then f.e + 3 else f.e) < s.cyc)
    (hring : f.ring = n.val) (hl : l = s.unwrap f pI2) (hlen : (s.retag f pI2 l).length + 4 ≤ 9216)
    (hd : d = s.nextDesc (.steward n)) (hsize : s.rd (rxSize (.steward n)) ≠ 0) (howned : s.owned d = true)
    (hfit : l.length ≤ s.bufBytes d) (hb : b = s.loadN d 5) (hap : b + l.length ≤ d ∨ d + 32 ≤ b) :
    Answers (exec (.ringRxDeliver none) s) (fun t =>
      t.load b l.length = l ∧ t.loadN (d + 12) 4 = rxWord (s.inward f pI2) true true false l.length % 2 ^ 32 ∧
      t.load (d + 16) 12 = s.rxStamp (s.inward f pI2) ∧
      t.loadN (d + 30) 2 = agetD s.ports.rxSeq (ringIndex (.steward n)) 0 % 65536 ∧
      t.rd (rxNext (.steward n)) = (s.rd (rxNext (.steward n)) + 1) % s.rd (rxSize (.steward n)) % 4096 ∧
      (∀ x, (x < b ∨ b + l.length ≤ x) → (x < d + 12 ∨ d + 32 ≤ x) → t.memByte x = s.memByte x) ∧
      t.queue pI2 c = [] ∧ t.rd (PT_C_TX_FRAMES.p 21) = (s.rd (PT_C_TX_FRAMES.p 21) + 1) % 2 ^ 32 ∧
      bit (t.word 0x30014) 21 = true) := by
  have he := exec_ringRxDeliver hruns hpart h hc hcyc
  have hring' : (s.inward f pI2).ring = n.val := hring
  have hmax : max 1 (s.rd (rxSize (.steward n))) = s.rd (rxSize (.steward n)) := by omega
  subst hl hb
  obtain ⟨p, tag, hfid, hcls, hof, hdel⟩ := deliverRx_single (i := i) (c := c) (f := s.inward f pI2) hring' hd hsize howned hfit hlen
  rw [hdel] at he
  have hhall : (s.rxWritten (.steward n) (s.inward f pI2) d tag).hall = s.hall := State.rxWritten_hall
  have hframe : (s.rxWritten (.steward n) (s.inward f pI2) d tag).frame p.fid = some f := by
    rw [State.frame, hhall, hfid]
    exact h.frame
  have hqueue : (s.rxWritten (.steward n) (s.inward f pI2) d tag).queue pI2 p.cls = [p.fid] := by
    rw [State.queue_of_queues (congrArg Hall.queues hhall), hcls, hfid]
    exact h.queue
  obtain ⟨hmem, hempty, hcount, hbit, hnext⟩ := rxDone_steward (f := s.inward f pI2) hof hframe hqueue
  have hload (a k : Nat) := State.load_congr (a := a) (n := k) fun x _ _ => hmem x
  have hloadN (a k : Nat) := congrArg leNat (hload a k)
  refine ⟨_, he, (hload _ _).trans (State.rxWritten_load_buffer hap), (hloadN _ _).trans State.rxWritten_word12,
    (hload _ _).trans State.rxWritten_load_stamp, (hloadN _ _).trans State.rxWritten_seq, ?_,
    fun x hx hxd => (hmem x).trans (State.rxWritten_memByte hx hxd), hcls ▸ hempty, ?_, hbit⟩
  · rw [hnext, State.rxWritten_next, hmax]
  · have haddr : (rxNext (.steward n)).addr = 0x25040C + n * 0x40 := rfl
    have hlt : (PT_C_TX_FRAMES.p 21).addr < 0x25040C := by decide
    rw [hcount, State.rd_of_word (State.rxWritten_word (by omega))]

end

/-- Settles O24: row by row, in the order of the statement. -/
theorem framesAndRings : Obligations.FramesAndRings := by
  refine ⟨?good, ?bad, ?lost, ?deliver, ?fetch, ?result, ?entry⟩
  case good => exact fun p rx l s hruns hlink ha hv hw => frameReceive_good_answers hruns hlink ha hv hw
  case bad =>
    exact fun p rx l s hruns hlink ha => ⟨frameReceive_runt_answers hruns hlink ha, frameReceive_oversize_answers hruns hlink ha,
      frameReceive_badFcs_answers hruns hlink ha⟩
  case lost => exact fun p rx s hruns hlink ha => frameReceive_lost_answers hruns hlink ha
  case deliver =>
    intro i c f s hruns hpart hclt hq hothers hidle hf hc hcyc hfresh hyoung
    have halone : s.Alone pI2 i c f := ⟨hclt, hq, hothers, hidle, hf, hfresh, hyoung⟩
    refine ⟨exec_ringRxDeliver hruns hpart halone hc hcyc, ?_⟩
    intro n d b l hring hl _ hlen hd hsize howned hfit hb hap
    exact ringRxDeliver_single hruns hpart halone hc hcyc hring hl hlen hd hsize howned hfit hb hap
  case fetch =>
    intro r ds cls dest l s hruns hpub hchain hcls hdest hl hwhole
    subst hcls hdest hl
    refine ⟨fun hbuf hlen => ringTxFetch_good hruns hpub hchain hwhole hbuf hlen, fun res hres hne => ?_⟩
    subst hres
    exact ringTxFetch_bad hruns hpub hchain hwhole hne
  case result => exact txResult_single
  case entry =>
    exact fun v w s hruns hwait hpub => ⟨tenantFrameEntry_gated hruns hwait hpub, tenantFrameEntry_enters hruns hwait hpub⟩

end Sys2Proof.Machine
end

section
/-!
The SB_ page's layer (R140, R152, R156–R158): how an access of the page reaches its operation, what touches registers, events and the
subscription tables alone, and runs of registers loaded one after another.
-/
namespace Sys2Proof.Machine

/-! ### Accesses of the page -/

section
variable {s t : State} {req : Requester} {k v : Nat}

/-- A register of the SB_ page answers one who may write. -/
theorem writeReg_sb (hw : s.Writer req) (hdom : s.dom 6 = 1) (hk : k < 0x10000) (hd : (descIn .sb 0 k).isSome = true) (hv : v < 2 ^ 32) :
    writeReg req (0x400000 + k) v s = (sbWrite req k v s).wrote req (0x400000 + k) v := by
  have hpage : (0x400000 + k) / 0x10000 = 0x40 := by omega
  have hoff : (0x400000 + k) % 0x10000 = k := by omega
  have h := writeReg_served (o := 0x400000 + k) (b := .sb) (i := 0) hw (by omega) (by rw [hpage]; rfl) (.inr hdom)
    (by rw [hoff]; exact hd) (.inl (by decide)) hv
  rwa [hoff] at h

theorem sbWrite_tblCmd (h : s.mayWrite req = true) : sbWrite req 0x14 v s = sbTblCmd req (v % 4) s := by
  simp [sbWrite, h]

theorem sbWrite_mapCmd (h : s.mayWrite req = true) : sbWrite req 0x24 v s = sbMapCmd req (v % 4) s := by
  simp [sbWrite, h]

/-- A command of SB_TBL_CMD, of SB_MAP_CMD and of SB_VEST_CMD. -/
theorem writeReg_tblCmd (hw : s.Writer req) (hdom : s.dom 6 = 1) (hv : v < 4) :
    writeReg req 0x400014 v s = (sbTblCmd req v s).wrote req 0x400014 v := by
  have h := writeReg_sb (k := 0x14) (v := v) hw hdom (by decide) (by decide) (by omega)
  rwa [sbWrite_tblCmd hw.2, Nat.mod_eq_of_lt hv] at h

theorem writeReg_mapCmd (hw : s.Writer req) (hdom : s.dom 6 = 1) (hv : v < 4) :
    writeReg req 0x400024 v s = (sbMapCmd req v s).wrote req 0x400024 v := by
  have h := writeReg_sb (k := 0x24) (v := v) hw hdom (by decide) (by decide) (by omega)
  rwa [sbWrite_mapCmd hw.2, Nat.mod_eq_of_lt hv] at h

theorem writeReg_vestCmd (hw : s.Writer req) (hdom : s.dom 6 = 1) (hv : v < 4) :
    writeReg req 0x400144 v s = (sbVestCmd v s).wrote req 0x400144 v := by
  have hop : sbWrite req 0x144 v s = sbVestCmd (v % 4) s := by simp [sbWrite]
  have h := writeReg_sb (k := 0x144) (v := v) hw hdom (by decide) (by decide) (by omega)
  rwa [hop, Nat.mod_eq_of_lt hv] at h

/-- SB_DISC_W3 is the one register of the page with a reading of its own. -/
theorem readReg_discW3 (hr : s.Reaches req) (hdom : s.dom 6 = 1) (hcal : (discPop s).CalServed) :
    readReg req 0x40010C s = (discPop s).gave req 0x40010C (s.shown 0x40010C) :=
  readReg_served (b := .sb) (i := 0) hr (by decide) rfl (.inr hdom) (by decide) (.inl (by decide)) (by decide) rfl hcal

end

/-! ### Updates of registers, events and the subscription tables -/

/-- Nothing but registers, the event delivery and the subscription tables has changed. -/
def SubEvents (s t : State) : Prop := t = { s.withEvents t with sub := t.sub }

section
variable {s t u : State}

theorem SubEvents.setSub (s : State) (x : Sub) : SubEvents s { s with sub := x } := rfl

theorem SubEvents.trans (h : SubEvents s t) (h' : SubEvents t u) : SubEvents s u := by
  unfold SubEvents at h h'
  rw [h', h]
  rfl

theorem EventsOnly.sub_eq (h : EventsOnly s t) : t.sub = s.sub := by
  rw [h]
  rfl

theorem EventsOnly.subEvents (h : EventsOnly s t) : SubEvents s t := by
  rw [SubEvents, h]
  rfl

theorem SubEvents.events (h : SubEvents s t) (h' : EventsOnly t u) : SubEvents s u := h.trans h'.subEvents

theorem EventsOnly.ite {c : Prop} [Decidable c] (h : EventsOnly s t) (h' : EventsOnly s u) : EventsOnly s (if c then t else u) := by
  split
  · exact h
  · exact h'

theorem EventsOnly.gave (h : EventsOnly s t) (r : Requester) (o d : Nat) : t.gave r o d = s.withAccess (t.gave r o d) := by
  rw [State.gave_frame, h]
  rfl

/-- What a completed write, or read, of such an update leaves. -/
theorem SubEvents.wrote (h : SubEvents s t) (r : Requester) (o v : Nat) :
    t.wrote r o v = { s.withAccess (t.wrote r o v) with sub := (t.wrote r o v).sub } := by
  rw [State.wrote_frame, h]
  rfl

theorem SubEvents.gave (h : SubEvents s t) (r : Requester) (o d : Nat) :
    t.gave r o d = { s.withAccess (t.gave r o d) with sub := (t.gave r o d).sub } := by
  rw [State.gave_frame, h]
  rfl

end

/-! ### Runs of registers -/

/-- Nothing but the `n` registers from `base` on has been written, and by no event. -/
structure Loaded (base n : Nat) (s t : State) : Prop where
  frame : t = { s with regs := t.regs }
  kept : ∀ a, (∀ i, i < n → a ≠ base + 4 * i) → t.word a = s.word a

section
variable {base n : Nat} {s t : State}

theorem Loaded.refl (base : Nat) (s : State) : Loaded base 0 s s := ⟨rfl, fun _ _ => rfl⟩

theorem Loaded.put (h : Loaded base n s t) (v : Nat) : Loaded base (n + 1) s (t.put (base + 4 * n) v) := by
  refine ⟨?_, fun a ha => ?_⟩
  · rw [h.frame]
    rfl
  · rw [State.word_put_ne _ _ (ha n (Nat.lt_succ_self n)), h.kept a fun i hi => ha i (Nat.lt_succ_of_lt hi)]

theorem Loaded.succ (h : Loaded base n s t) : Loaded base (n + 1) s t :=
  ⟨h.frame, fun a ha => h.kept a fun i hi => ha i (Nat.lt_succ_of_lt hi)⟩

theorem Loaded.events (h : Loaded base n s t) : EventsOnly s t := by
  rw [EventsOnly, h.frame]
  rfl

theorem Loaded.word0 (h : Loaded base n s t) (a : Nat) : t.word0 a = s.word0 a := by
  rw [h.frame]
  rfl

theorem Loaded.evWord (h : Loaded base n s t) (a : Nat) : t.evWord a = s.evWord a := by
  rw [h.frame]
  rfl

/-- Registers written one after another, each with a value that the writes before it leave as it is, hold those values. -/
theorem loaded_foldl_put {w : State → Nat → Nat} (hw : ∀ t i, Loaded base n s t → i < n → w t i = w s i) :
    Loaded base n s ((List.range n).foldl (fun t i => t.put (base + 4 * i) (w t i)) s) ∧
      ∀ i, i < n → ((List.range n).foldl (fun t i => t.put (base + 4 * i) (w t i)) s).word (base + 4 * i) = w s i % 2 ^ 32 := by
  induction n with
  | zero => exact ⟨.refl base s, fun i hi => absurd hi (Nat.not_lt_zero i)⟩
  | succ n ih =>
    obtain ⟨hl, hv⟩ := ih fun t i ht hi => hw t i ht.succ (Nat.lt_succ_of_lt hi)
    rw [List.range_succ, List.foldl_append, List.foldl_cons, List.foldl_nil]
    refine ⟨hl.put _, fun i hi => ?_⟩
    rcases Nat.lt_succ_iff_lt_or_eq.1 hi with hlt | rfl
    · rw [State.word_put_ne _ _ (by omega), hv i hlt]
    · rw [State.word_put_self, hw _ i hl.succ (Nat.lt_succ_self i)]

end

end Sys2Proof.Machine
end

section
/-!
Commands of the subscription tables, the Vestibule and the discovery queue (R140, R145, R152, R155–R158).
-/
namespace Sys2Proof.Machine

section
variable {s : State}

/-! ### The classification table (R140) -/

theorem clearSt_loaded (s : State) (e : Nat) : Loaded (0x3000000 + e * 0x20) 8 s (s.clearSt e) ∧
    ∀ i, i < 8 → (s.clearSt e).word (0x3000000 + e * 0x20 + 4 * i) = 0 :=
  loaded_foldl_put fun _ _ _ _ => rfl

/-- Contents installed in entry `e`: the entry alone has them, its state and counters read 0, and the Vestibule stands. -/
structure State.Installed (s : State) (e : Nat) (b : List Byte) (t : State) : Prop where
  bytes : (t.sub? e).map (fun x => x.bytes) = some b
  others : ∀ k, k ≠ e → t.sub? k = s.sub? k
  cleared : ∀ i, i < 8 → t.word (0x3000000 + e * 0x20 + 4 * i) = 0
  vest : t.sub.vest = s.sub.vest
  frame : SubEvents s t

theorem sbInstall_eq (e : Nat) (b : List Byte) (s : State) : ∃ x vers, x.bytes = b ∧ sbInstall e b s =
    ({ s with sub := { s.sub with entries := aput s.sub.entries e x, vers := vers } } : State).clearSt e := ⟨_, _, rfl, rfl⟩

theorem sbInstall_installed (e : Nat) (b : List Byte) (s : State) : s.Installed e b (sbInstall e b s) := by
  obtain ⟨x, vers, hx, he⟩ := sbInstall_eq e b s
  rw [he]
  generalize hu : ({ s with sub := { s.sub with entries := aput s.sub.entries e x, vers := vers } } : State) = u
  obtain ⟨hl, hzero⟩ := clearSt_loaded u e
  have hsub : (u.clearSt e).sub = { s.sub with entries := aput s.sub.entries e x, vers := vers } := by
    rw [hl.events.sub_eq, ← hu]
  refine ⟨?_, fun k hk => ?_, hzero, by rw [hsub], SubEvents.events (hu ▸ .setSub s _) hl.events⟩
  · rw [State.sub?, hsub, aget_aput_self, Option.map_some, hx]
  · rw [State.sub?, hsub, aget_aput_ne _ _ hk, State.sub?]

/-! ### The Vestibule (R156, R157) -/

theorem State.setVest_sub (s : State) (v : List (Nat × List Byte × Nat)) : (s.setVest v).sub = { s.sub with vest := v } := rfl

theorem State.setVest_frame (s : State) (v : List (Nat × List Byte × Nat)) : SubEvents s (s.setVest v) :=
  (SubEvents.setSub s _).events ((EventsOnly.refl _).wr _ _)

theorem State.setVest_used (s : State) (v : List (Nat × List Byte × Nat)) :
    (s.setVest v).rd SB_STATUS_VEST_USED = v.length % 2 ^ SB_STATUS_VEST_USED.width :=
  State.rd_wr_self _ _ _ ⟨by decide, by decide⟩

theorem State.setVest_regsKept (s : State) (v : List (Nat × List Byte × Nat)) : RegsKept [SB_STATUS_VEST_USED.addr] s (s.setVest v) :=
  RegsKept.wr (t := { s with sub := { s.sub with vest := v } }) (fun _ _ => rfl) _ (.head _)

/-- Observation `i` removed: what the Vestibule and its level show. -/
theorem State.setVest_adel (s : State) (i : Nat) :
    aget (s.setVest (adel s.sub.vest i)).sub.vest i = none ∧
      (∀ j, j ≠ i → aget (s.setVest (adel s.sub.vest i)).sub.vest j = aget s.sub.vest j) ∧
      (s.setVest (adel s.sub.vest i)).rd SB_STATUS_VEST_USED =
        (s.setVest (adel s.sub.vest i)).sub.vest.length % 2 ^ SB_STATUS_VEST_USED.width :=
  ⟨aget_adel_self _ _, fun _ hj => aget_adel_ne _ hj, s.setVest_used _⟩

/-- Contents `b` written to entry `e`, and the observations that they cover removed (R140). -/
def sbWriteEntry (e : Nat) (b : List Byte) (s : State) : State :=
  (sbInstall e b s).setVest ((sbInstall e b s).sub.vest.filter (fun p => !entryCovers b p.2.1))

/-- An entry written: its contents and registers, the other entries, and the observations left (R140). -/
theorem sbWriteEntry_installed (e : Nat) (b : List Byte) (s : State) :
    ((sbWriteEntry e b s).sub? e).map (fun x => x.bytes) = some b ∧ (∀ k, k ≠ e → (sbWriteEntry e b s).sub? k = s.sub? k) ∧
      (∀ i, i < 8 → (sbWriteEntry e b s).word (0x3000000 + e * 0x20 + 4 * i) = 0) ∧
      (∀ p, p ∈ (sbWriteEntry e b s).sub.vest ↔ p ∈ s.sub.vest ∧ entryCovers b p.2.1 = false) ∧
      SubEvents s (sbWriteEntry e b s) := by
  have hi := sbInstall_installed e b s
  rw [sbWriteEntry, hi.vest]
  refine ⟨hi.bytes, hi.others, fun i hlt => ?_, fun p => ?_, hi.frame.trans (State.setVest_frame ..)⟩
  · have hne : 0x3000000 + e * 0x20 + 4 * i ∉ [SB_STATUS_VEST_USED.addr] := by
      rw [List.mem_singleton]
      change ¬ _ = 0x400004
      omega
    rw [State.setVest_regsKept _ _ _ hne, hi.cleared i hlt]
  · simp only [State.setVest_sub, List.mem_filter, Bool.not_eq_true']

theorem sbTblCmd_write {r : Requester} {b : List Byte} (h : s.mayWrite r = true) (hb : b = entryStored (s.dataBytes 0x400040 16))
    (hr : eRate b < 5) : sbTblCmd r 2 s = sbWriteEntry (s.rd SB_TBL_IDX_IDX % 16384) b s := by
  unfold sbTblCmd
  dsimp only
  rw [← hb, if_neg (by rw [h]; decide), if_neg fun hn => absurd hr (Nat.not_lt.2 hn.1)]
  rfl

theorem sbTblCmd_invalidate {r : Requester} (h : s.mayWrite r = true) :
    sbTblCmd r 3 s = sbInstall (s.rd SB_TBL_IDX_IDX % 16384) (List.replicate 64 0) s := if_pos h

theorem sbMapCmd_write {r : Requester} (h : s.mayWrite r = true) : sbMapCmd r 2 s = { s with sub := { s.sub with
    map := aput s.sub.map (s.rd SB_MAP_IDX_IDX) (mapStored (s.dataBytes 0x400028 2)) } } := if_pos h

/-! ### State and counters of an entry (R11, R158) -/

/-- What the latch shows in the data register `i` of entry `e` of `t`, under the contents that `u` gives the entry: counters as the
cycle found them, the rest as it stands, and for an SV entry the samples missing. -/
def latchWord (u : State) (e : Nat) (t : State) (i : Nat) : Nat :=
  if i = 2 ∧ ((u.sub? e).map (fun x => eKind x.bytes == 1)).getD false then ((u.sub? e).map (fun x => x.missing)).getD 0 % 256
  else if 3 ≤ i then t.word0 (0x3000000 + e * 0x20 + 4 * i) else t.word (0x3000000 + e * 0x20 + 4 * i)

theorem latchWord_lt (u : State) (e : Nat) (t : State) (i : Nat) : latchWord u e t i < 2 ^ 32 := by
  unfold latchWord
  split
  · omega
  · split
    · exact BitVec.isLt _
    · exact t.word_lt _

theorem latchWord_of_sub {u t : State} (h : u.sub = s.sub) (e i : Nat) : latchWord u e t i = latchWord s e t i := by
  rw [latchWord, State.sub?, h]
  rfl

/-- Registers before the entries' own leave what the latch shows. -/
theorem Loaded.latchWord {a n : Nat} {t : State} (h : Loaded a n s t) (ha : a + 4 * n ≤ 0x3000000) (u : State) (e i : Nat) :
    latchWord u e t i = Machine.latchWord u e s i := by
  rw [Machine.latchWord, h.word0, h.kept _ (by omega)]
  rfl

theorem State.swPut_loaded (s : State) (a v : Nat) : Loaded a 1 s (s.swPut a v) :=
  ⟨s.swPut_frame a v, fun x hx => s.swPut_regsKept a v x (by simpa using hx 0 Nat.one_pos)⟩

theorem sbStIdx_eq (v : Nat) (s : State) : sbStIdx v s =
    (List.range 5).foldl
      (fun t i => t.put (0x3000000 + v % 16384 * 0x20 + 12 + 4 * i) (t.evWord (0x3000000 + v % 16384 * 0x20 + 12 + 4 * i)))
      ((List.range 8).foldl (fun t i => t.put (0x4000A0 + 4 * i) (latchWord (s.swPut 0x400080 v) (v % 16384) t i))
        (s.swPut 0x400080 v)) := rfl

/-- A latch loads the eight data registers, and leaves of the five counters what the cycle's events have counted. -/
theorem sbStIdx_latches (v : Nat) (s : State) : EventsOnly s (sbStIdx v s) ∧
    (∀ i, i < 8 → (sbStIdx v s).word (0x4000A0 + 4 * i) = latchWord s (v % 16384) s i) ∧
    ∀ i, i < 5 → (sbStIdx v s).word (0x3000000 + v % 16384 * 0x20 + 12 + 4 * i) =
      s.evWord (0x3000000 + v % 16384 * 0x20 + 12 + 4 * i) := by
  have hidx := s.swPut_loaded 0x400080 v
  rw [sbStIdx_eq]
  generalize s.swPut 0x400080 v = u at hidx
  obtain ⟨hdata, hlatched⟩ := loaded_foldl_put (base := 0x4000A0) (n := 8) (s := u) (w := latchWord u (v % 16384))
    fun t i ht _ => ht.latchWord (by decide) u _ i
  generalize (List.range 8).foldl (fun t i => t.put (0x4000A0 + 4 * i) (latchWord u (v % 16384) t i)) u = w at hdata hlatched
  obtain ⟨hcount, hleft⟩ := loaded_foldl_put (base := 0x3000000 + v % 16384 * 0x20 + 12) (n := 5) (s := w)
    (w := fun t i => t.evWord (0x3000000 + v % 16384 * 0x20 + 12 + 4 * i)) fun t i ht _ => ht.evWord _
  refine ⟨(hidx.events.trans hdata.events).trans hcount.events, fun i hi => ?_, fun i hi => ?_⟩
  · rw [hcount.kept _ (by omega), hlatched i hi, Nat.mod_eq_of_lt (latchWord_lt ..), latchWord_of_sub hidx.events.sub_eq,
      hidx.latchWord (by decide)]
  · rw [hleft i hi, hdata.evWord, hidx.evWord]
    exact Nat.mod_eq_of_lt (BitVec.isLt _)

/-! ### Discovery records (R155, R158) -/

theorem State.discShow_events (s : State) : EventsOnly s s.discShow :=
  (((((EventsOnly.refl s).wr _ _).wr _ _).wr _ _).wr _ _).wr _ _

theorem State.discShow_level (s : State) : s.discShow.rd SB_STATUS_DISC_LEVEL = s.sub.disc.length % 2 ^ SB_STATUS_DISC_LEVEL.width :=
  State.rd_wr_self _ _ _ ⟨by decide, by decide⟩

/-- The record shown goes, and the next one with the level stands in its place. -/
theorem discPop_waiting (h : s.rd0 SB_STATUS_DISC_LEVEL ≠ 0) (hc : s.sub.popped ≠ some s.cyc) : SubEvents s (discPop s) ∧
    (discPop s).sub.disc = s.sub.disc.drop 1 ∧
    (discPop s).rd SB_STATUS_DISC_LEVEL = (s.sub.disc.drop 1).length % 2 ^ SB_STATUS_DISC_LEVEL.width := by
  have he : discPop s = ({ s with sub := { s.sub with disc := s.sub.disc.drop 1, popped := some s.cyc } } : State).discShow :=
    if_neg (not_or.2 ⟨h, hc⟩)
  rw [he]
  exact ⟨(SubEvents.setSub s _).events (State.discShow_events _), congrArg Sub.disc (State.discShow_events _).sub_eq,
    State.discShow_level _⟩

/-- A flag beside that of an event that may come. -/
theorem State.on_ite_event {c : Prop} [Decidable c] (s : State) (f g : Fld) (es : Nat) (hf : f.fits) (h : f.apart g)
    (h' : g.addr ≠ 0x30010 + es / 32 * 4) : (if c then s.event f es else s).on g = s.on g := by
  split
  · exact State.on_of_rd (s.rd_event_apart f g es hf h h')
  · rfl

/-- A record that finds room joins the queue, with its events. -/
theorem State.discPush_room (s : State) (r : DiscRec) (h : s.sub.disc.length < 512) : SubEvents s (s.discPush r) ∧
    (s.discPush r).sub.disc = s.sub.disc ++ [r] ∧ (s.discPush r).on SB_EVENT_DISC = true := by
  unfold State.discPush
  rw [if_pos h]
  generalize hq : ({ s with sub := { s.sub with disc := s.sub.disc ++ [r] } } : State) = q
  have hsub : SubEvents s q ∧ q.sub.disc = s.sub.disc ++ [r] := hq ▸ ⟨.setSub s _, rfl⟩
  have hdisc := (State.discShow_events q).event SB_EVENT_DISC ES_SB
  have hauth := EventsOnly.ite (c := r.w0 / 2 ^ 24 = 7) (hdisc.event SB_EVENT_AUTH_FAIL ES_SB) hdisc
  have hall := EventsOnly.ite (c := r.w0 / 2 ^ 24 = 8) (hauth.event SB_EVENT_VEST_NEW ES_SB) hauth
  refine ⟨hsub.1.events hall, (congrArg Sub.disc hall.sub_eq).trans hsub.2, ?_⟩
  dsimp only
  rw [State.on_ite_event _ _ _ _ ⟨by decide, by decide⟩ (.inr (by decide)) (by decide),
    State.on_ite_event _ _ _ _ ⟨by decide, by decide⟩ (.inr (by decide)) (by decide)]
  exact State.on_event_self _ _ _ (by decide) (by decide)

/-- A record that finds the queue full is counted as lost. -/
theorem State.discPush_full (s : State) (r : DiscRec) (h : 512 ≤ s.sub.disc.length) : EventsOnly s (s.discPush r) ∧
    (s.discPush r).on SB_EVENT_DISC_LOST = true ∧
    (s.discPush r).rd SB_G_DISC_LOST = min (s.rd SB_G_DISC_LOST + 1) (2 ^ SB_G_DISC_LOST.width - 1) := by
  have he : s.discPush r = (s.inc SB_G_DISC_LOST).event SB_EVENT_DISC_LOST ES_SB := if_neg (Nat.not_lt.2 h)
  rw [he]
  refine ⟨((EventsOnly.refl s).inc _).event _ _, State.on_event_self _ _ _ (by decide) (by decide), ?_⟩
  rw [State.rd_of_word (State.word_event_ne _ _ _ (by decide) (by decide)), s.rd_inc_self _ ⟨by decide, by decide⟩]
  rfl

/-- The record that a write of SB_DISC_POST3 queues (R155, R158). -/
def State.posted (s : State) (v : Nat) : DiscRec :=
  { w0 := setBits (s.word 0x400110) 21 14 0xF8, w1 := s.word 0x400114, w2 := s.word 0x400118, w3 := v }

theorem sbWrite_post3 (req : Requester) (v : Nat) (s : State) :
    sbWrite req 0x11C v s = (s.put 0x40011C v).discPush (s.posted v) := by
  have hp {a : Nat} (h : a ≠ 0x40011C) : (s.put 0x40011C v).word a = s.word a := State.word_put_ne _ _ h
  simp [sbWrite, postW0, State.posted, hp]

/-! ### SB_CTRL (R136, R152, R156) -/

theorem regDesc_sbCtrl : regDesc 0x400000 =
    some ⟨0x0, 0x0, 1, [⟨31, 31, .rw, 0x0⟩, ⟨30, 30, .rw, 0x0⟩, ⟨29, 29, .rw, 0x1⟩, ⟨15, 0, .rw, 0x3C⟩]⟩ := by decide

/-- The four fields of SB_CTRL take what is written. -/
theorem State.swPut_sbCtrl (s : State) (v : Nat) :
    (s.swPut 0x400000 v).on SB_CTRL_EN = bit v 31 ∧ (s.swPut 0x400000 v).on SB_CTRL_SIM = bit v 30 ∧
      (s.swPut 0x400000 v).on SB_CTRL_VEST_EN = bit v 29 ∧ (s.swPut 0x400000 v).rd SB_CTRL_VEST_AGE_S = v % 2 ^ 16 := by
  have hfield (f : FieldDesc) (hf : f ∈ [⟨31, 31, .rw, 0x0⟩, ⟨30, 30, .rw, 0x0⟩, ⟨29, 29, .rw, 0x1⟩, ⟨15, 0, .rw, 0x3C⟩])
      (hrw : f.acc = .rw) : bits ((s.swPut 0x400000 v).word 0x400000) f.hi f.lo = bits v f.hi f.lo :=
    s.swPut_field regDesc_sbCtrl hf hrw (by decide) (by decide)
  exact ⟨State.on_of_bits (hfield ⟨31, 31, .rw, 0x0⟩ (by decide) rfl),
    State.on_of_bits (hfield ⟨30, 30, .rw, 0x0⟩ (by decide) rfl),
    State.on_of_bits (hfield ⟨29, 29, .rw, 0x1⟩ (by decide) rfl),
    (hfield ⟨15, 0, .rw, 0x3C⟩ (by decide) rfl).trans (bits_zero v 15)⟩

/-- SIM_SRC of the listed entries cleared. -/
def clearSimSrc (l : List (Nat × SubEntry)) (s : State) : State :=
  l.foldl (fun (t : State) (p : Nat × SubEntry) => t.wr (sbSt SB_ST0_SIM_SRC p.1) 0) s

theorem clearSimSrc_events (l : List (Nat × SubEntry)) (s : State) : EventsOnly s (clearSimSrc l s) :=
  List.foldlRecOn l _ (motive := EventsOnly s) (.refl s) fun _ h _ _ => h.wr _ _

theorem clearSimSrc_word (l : List (Nat × SubEntry)) (s : State) {a : Nat} (ha : a < 0x3000000) :
    (clearSimSrc l s).word a = s.word a := by
  refine List.foldlRecOn l _ (motive := fun t : State => t.word a = s.word a) rfl fun t h p _ => ?_
  have hne : a ≠ (sbSt SB_ST0_SIM_SRC p.1).addr := by
    change a ≠ 0x3000000 + p.1 * 0x20
    omega
  rw [State.word_wr_ne _ _ _ hne, h]

theorem Fld.fits.sbSt {f : Fld} (h : f.fits) (e : Nat) : (sbSt f e).fits := h

/-- SIM_SRC of an entry stays clear while those of others are cleared. -/
theorem on_simSrc_wr (s : State) (e k : Nat) (h : k = e ∨ s.on (sbSt SB_ST0_SIM_SRC e) = false) :
    (s.wr (sbSt SB_ST0_SIM_SRC k) 0).on (sbSt SB_ST0_SIM_SRC e) = false := by
  by_cases hk : k = e
  · subst hk
    exact s.on_wr_self (sbSt SB_ST0_SIM_SRC k) false ⟨rfl, (by decide : SB_ST0_SIM_SRC.hi < 32)⟩
  · have hne : (sbSt SB_ST0_SIM_SRC k).addr ≠ (sbSt SB_ST0_SIM_SRC e).addr := by
      change 0x3000000 + k * 0x20 ≠ 0x3000000 + e * 0x20
      omega
    rw [State.on_wr_apart _ _ _ _ (Fld.fits.sbSt (f := SB_ST0_SIM_SRC) ⟨by decide, by decide⟩ k) (.inl hne)]
    exact h.resolve_left hk

theorem clearSimSrc_on (l : List (Nat × SubEntry)) (e : Nat) (s : State)
    (h : (∃ x, (e, x) ∈ l) ∨ s.on (sbSt SB_ST0_SIM_SRC e) = false) : (clearSimSrc l s).on (sbSt SB_ST0_SIM_SRC e) = false := by
  induction l generalizing s with
  | nil => exact h.resolve_left fun ⟨_, hx⟩ => List.not_mem_nil hx
  | cons p l ih =>
    rw [clearSimSrc, List.foldl_cons]
    refine ih _ ?_
    by_cases hl : ∃ x, (e, x) ∈ l
    · exact .inl hl
    · refine .inr (on_simSrc_wr s e p.1 (h.imp_left ?_))
      rintro ⟨x, hx⟩
      rcases List.mem_cons.1 hx with hp | hx
      · exact congrArg Prod.fst hp.symm
      · exact absurd ⟨x, hx⟩ hl

theorem sbCtrlWrite_eq (v : Nat) (s : State) : sbCtrlWrite v s =
    if s.on SB_CTRL_SIM = true ∧ bit v 30 = false then clearSimSrc s.sub.entries (s.swPut 0x400000 v) else s.swPut 0x400000 v := by
  obtain ⟨-, hsim, -⟩ := s.swPut_sbCtrl v
  have hsub : (s.swPut 0x400000 v).sub = s.sub := (s.swPut_loaded 0x400000 v).events.sub_eq
  unfold sbCtrlWrite clearSimSrc
  simp only [hsim, hsub, Bool.not_eq_true']

/-- SB_CTRL takes what is written, and where SIM is cleared every SIM_SRC is. -/
theorem sbCtrlWrite_stores (v : Nat) (s : State) : EventsOnly s (sbCtrlWrite v s) ∧
    (sbCtrlWrite v s).word 0x400000 = (s.swPut 0x400000 v).word 0x400000 ∧
    (s.on SB_CTRL_SIM = true → bit v 30 = false →
      ∀ e x, (e, x) ∈ s.sub.entries → (sbCtrlWrite v s).on (sbSt SB_ST0_SIM_SRC e) = false) ∧
    (s.on SB_CTRL_SIM = false ∨ bit v 30 = true → RegsKept [0x400000] s (sbCtrlWrite v s)) := by
  have hput := (EventsOnly.refl s).swPut 0x400000 v
  rw [sbCtrlWrite_eq]
  by_cases hc : s.on SB_CTRL_SIM = true ∧ bit v 30 = false
  · rw [if_pos hc]
    refine ⟨hput.trans (clearSimSrc_events _ _), clearSimSrc_word _ _ (by decide),
      fun _ _ e x hx => clearSimSrc_on _ e _ (.inl ⟨x, hx⟩), fun h => ?_⟩
    rw [hc.1, hc.2] at h
    simp at h
  · rw [if_neg hc]
    exact ⟨hput, rfl, fun h1 h2 => absurd ⟨h1, h2⟩ hc, fun _ => s.swPut_regsKept _ _⟩

end

end Sys2Proof.Machine
end

section
/-!
The rows of the SB_ page: what each command leaves for one who may write (R140, R145, R152, R156–R158).
-/
namespace Sys2Proof.Machine

/-! ### The rows -/

section
variable {s : State} {req : Requester} (hw : s.Writer req) (hdom : s.dom 6 = 1)
include hw hdom

theorem exec_sbTblRead : exec (.sbTblRead req) s = .next ((loadData 0x400040 16
    (((s.sub? (s.rd SB_TBL_IDX_IDX % 16384)).map (fun x => x.bytes)).getD []) s).wrote req 0x400014 1) :=
  congrArg Host.Outcome.next (writeReg_tblCmd hw hdom (by decide))

/-- A WRITE installs the entry and removes the observations that it covers (R140). -/
theorem exec_sbTblWrite {b : List Byte} (hb : b = entryStored (s.dataBytes 0x400040 16)) (hr : eRate b < 5) :
    exec (.sbTblWrite req) s = .next ((sbWriteEntry (s.rd SB_TBL_IDX_IDX % 16384) b s).wrote req 0x400014 2) :=
  sbTblCmd_write hw.2 hb hr ▸ congrArg Host.Outcome.next (writeReg_tblCmd hw hdom (by decide))

theorem exec_sbTblInvalidate : exec (.sbTblInvalidate req) s =
    .next ((sbInstall (s.rd SB_TBL_IDX_IDX % 16384) (List.replicate 64 0) s).wrote req 0x400014 3) :=
  sbTblCmd_invalidate hw.2 ▸ congrArg Host.Outcome.next (writeReg_tblCmd hw hdom (by decide))

theorem exec_sbMapRead : exec (.sbMapRead req) s =
    .next ((loadData 0x400028 2 (s.mapEntry (s.rd SB_MAP_IDX_IDX)) s).wrote req 0x400024 1) :=
  congrArg Host.Outcome.next (writeReg_mapCmd hw hdom (by decide))

theorem exec_sbMapWrite : exec (.sbMapWrite req) s = .next (({ s with sub := { s.sub with
    map := aput s.sub.map (s.rd SB_MAP_IDX_IDX) (mapStored (s.dataBytes 0x400028 2)) } } : State).wrote req 0x400024 2) :=
  sbMapCmd_write hw.2 ▸ congrArg Host.Outcome.next (writeReg_mapCmd hw hdom (by decide))

theorem exec_sbVestRead : exec (.sbVestRead req) s = .next ((loadData 0x400180 16
    (((aget s.sub.vest (s.rd SB_VEST_IDX_IDX % 256)).map (fun p => p.1)).getD []) s).wrote req 0x400144 1) :=
  congrArg Host.Outcome.next (writeReg_vestCmd hw hdom (by decide))

theorem exec_sbVestRemove : exec (.sbVestRemove req) s =
    .next ((s.setVest (adel s.sub.vest (s.rd SB_VEST_IDX_IDX % 256))).wrote req 0x400144 2) :=
  congrArg Host.Outcome.next (writeReg_vestCmd hw hdom (by decide))

theorem exec_sbStLatch (v : Word) : exec (.sbStLatch req v) s = .next ((sbStIdx v.toNat s).wrote req 0x400080 v.toNat) :=
  congrArg Host.Outcome.next (writeReg_sb (k := 0x80) hw hdom (by decide) (by decide) v.isLt)

theorem exec_discPost (v : Word) : exec (.discPost req v) s =
    .next (((s.put 0x40011C v.toNat).discPush (s.posted v.toNat)).wrote req 0x40011C v.toNat) :=
  sbWrite_post3 req v.toNat s ▸ congrArg Host.Outcome.next (writeReg_sb (k := 0x11C) hw hdom (by decide) (by decide) v.isLt)

theorem exec_sbSimWrite (v : Word) : exec (.sbSimWrite req v) s = .next ((sbCtrlWrite v.toNat s).wrote req 0x400000 v.toNat) :=
  congrArg Host.Outcome.next (writeReg_sb (k := 0) hw hdom (by decide) (by decide) v.isLt)

theorem exec_discRecordPop (hcal : (discPop s).CalServed) :
    exec (.discRecordPop req) s = .next ((discPop s).gave req 0x40010C (s.shown 0x40010C)) :=
  congrArg Host.Outcome.next (readReg_discW3 hw.1 hdom hcal)

end

/-! ### The statement -/

theorem State.wrote_sub? (t : State) (r : Requester) (o v e : Nat) : (t.wrote r o v).sub? e = t.sub? e := by
  rw [State.sub?, State.wrote_sub, State.sub?]

/-- Settles O26: row by row, in the order of the statement. -/
theorem subscriptionRegisterCommands : Obligations.SubscriptionRegisterCommands := by
  intro req s hw hdom
  refine ⟨exec_sbTblRead hw hdom, ?tblWrite, ?tblInvalidate, exec_sbMapRead hw hdom, ?mapWrite, exec_sbVestRead hw hdom, ?vestRemove,
    ?latch, ?popNone, ?pop, ?post, ?lost, ?sim⟩
  case tblWrite =>
    intro b hb hr
    obtain ⟨hbytes, hothers, hzero, hmem, hframe⟩ := sbWriteEntry_installed (s.rd SB_TBL_IDX_IDX % 16384) b s
    refine ⟨_, exec_sbTblWrite hw hdom hb hr, ?_, fun e he => ?_, fun i hi => ?_, fun p hp => ?_, fun p hp hc => ?_, hframe.wrote ..⟩
    · rw [State.wrote_sub?, hbytes]
    · rw [State.wrote_sub?, hothers e he]
    · rw [State.wrote_word, hzero i hi]
    · rw [State.wrote_sub] at hp
      exact (hmem p).1 hp
    · rw [State.wrote_sub]
      exact (hmem p).2 ⟨hp, hc⟩
  case tblInvalidate =>
    have hi := sbInstall_installed (s.rd SB_TBL_IDX_IDX % 16384) (List.replicate 64 0) s
    refine ⟨_, exec_sbTblInvalidate hw hdom, ?_, fun e he => ?_, fun i hlt => ?_, ?_, hi.frame.wrote ..⟩
    · rw [State.wrote_sub?, hi.bytes]
    · rw [State.wrote_sub?, hi.others e he]
    · rw [State.wrote_word, hi.cleared i hlt]
    · rw [State.wrote_sub, hi.vest]
  case mapWrite =>
    refine ⟨_, exec_sbMapWrite hw hdom, ?_, fun i hi => ?_, fun a _ => State.wrote_word .., (SubEvents.setSub s _).wrote ..⟩
    · rw [State.wrote_sub]
      exact aget_aput_self ..
    · rw [State.wrote_sub]
      exact aget_aput_ne _ _ hi
  case vestRemove =>
    obtain ⟨hgone, hothers, hused⟩ := s.setVest_adel (s.rd SB_VEST_IDX_IDX % 256)
    refine ⟨_, exec_sbVestRemove hw hdom, ?_, ?_, ?_, (s.setVest_regsKept _).wrote _ _ _, (s.setVest_frame _).wrote ..⟩
    · rw [State.wrote_sub, hgone]
    · rw [State.wrote_rd, State.wrote_sub, hused]
    · rwa [State.wrote_sub]
  case latch =>
    rintro v e a rfl rfl
    obtain ⟨hev, hdata, hleft⟩ := sbStIdx_latches v.toNat s
    refine ⟨_, exec_sbStLatch hw hdom v, fun i h3 h8 => ⟨?_, ?_⟩, ?_, ?_, ?_, hev.wrote ..⟩
    · rw [State.wrote_word, hdata i h8, latchWord, if_neg (by omega), if_pos h3]
    · obtain ⟨j, rfl⟩ := Nat.exists_eq_add_of_le h3
      have ha : 0x3000000 + v.toNat % 16384 * 0x20 + 4 * (3 + j) = 0x3000000 + v.toNat % 16384 * 0x20 + 12 + 4 * j := by omega
      rw [State.wrote_word, ha, hleft j (by omega)]
    · exact (State.wrote_word ..).trans (hdata 0 (by decide))
    · exact (State.wrote_word ..).trans (hdata 1 (by decide))
    · refine (State.wrote_word ..).trans ((hdata 2 (by decide)).trans ?_)
      rw [latchWord]
      simp
  case popNone =>
    intro hcal hnone
    have hpop : discPop s = s := if_pos hnone
    have he := exec_discRecordPop hw hdom (by rwa [hpop])
    rw [hpop] at he
    refine ⟨_, he, State.gave_sub .., ?_, fun a _ => State.gave_word .., (EventsOnly.refl s).gave ..⟩
    rw [State.gave, State.answer_bus]
    rfl
  case pop =>
    intro hcal hlevel hpopped
    obtain ⟨hframe, hdisc, hshown⟩ := discPop_waiting hlevel hpopped
    have hcal' : (discPop s).CalServed := by
      rw [hframe]
      exact hcal
    refine ⟨_, exec_discRecordPop hw hdom hcal', ?_, ?_, ?_, hframe.gave ..⟩
    · rw [State.gave_sub, hdisc]
    · rw [State.gave_rd, hshown]
    · rw [State.gave, State.answer_bus]
      rfl
  case post =>
    intro v hroom
    obtain ⟨hframe, hdisc, hevent⟩ := (s.put 0x40011C v.toNat).discPush_room (s.posted v.toNat) hroom
    refine ⟨_, exec_discPost hw hdom v, ?_, ?_, (((EventsOnly.refl s).put _ _).subEvents.trans hframe).wrote ..⟩
    · rw [State.wrote_sub, hdisc]
      rfl
    · rw [State.wrote_on, hevent]
  case lost =>
    intro v hfull
    obtain ⟨hframe, hevent, hcount⟩ := (s.put 0x40011C v.toNat).discPush_full (s.posted v.toNat) hfull
    have hall := ((EventsOnly.refl s).put 0x40011C v.toNat).trans hframe
    refine ⟨_, exec_discPost hw hdom v, ?_, ?_, ?_, hall.wrote ..⟩
    · rw [State.wrote_sub, hall.sub_eq]
    · rw [State.wrote_on, hevent]
    · rw [State.wrote_rd, hcount, State.rd_of_word (State.word_put_ne _ _ (by decide))]
  case sim =>
    intro v
    obtain ⟨hen, hsim, hvest, hage⟩ := s.swPut_sbCtrl v.toNat
    obtain ⟨hev, hword, hclear, hkept⟩ := sbCtrlWrite_stores v.toNat s
    refine ⟨_, exec_sbSimWrite hw hdom v, ?_, ?_, ?_, ?_, fun h1 h2 e x hx => ?_, fun h => (hkept h).wrote _ _ _, hev.wrote ..⟩
    · rw [State.wrote_on, State.on_of_word hword, hen]
    · rw [State.wrote_on, State.on_of_word hword, hsim]
    · rw [State.wrote_on, State.on_of_word hword, hvest]
    · rw [State.wrote_rd, State.rd_of_word hword, hage]
    · rw [State.wrote_on, hclear h1 h2 e x hx]

end Sys2Proof.Machine
end

section
/-!
FRAME_ACCEPTANCE of a frame whose class is none of the eight of R112. The statement leaves a frame's class open, and the end of its I0
copy takes the cells from the register of the queue that port and class name (R118, R120): with a class beyond the eight that is a
register of something else, here the word that keeps RX_OK of the frame's own entry.
-/
namespace Sys2Proof.Machine

/-- A GOOSE entry without mapped members. -/
def bareGooseRule : List Byte := splice (List.replicate 64 0) 16 [0x10]

/-- The class whose queue at I0 would count its cells in the word that keeps RX_OK and AUTH_FAIL of entry 0. -/
def strayClass : Nat := ((sbSt SB_ST3_RX_OK 0).addr - (HL_QUEUE_CELLS.i (pI0 * 8)).addr) / 4

/-- A GOOSE frame of one cell in that class, with an empty PDU, matched by entry 0 and at its acceptance cycle. -/
def strayFrame : Frame :=
  { octets := List.replicate 12 0 ++ [0x88, 0xB8] ++ List.replicate 8 0 ++ [0x61, 0], len := 26, stamp := 0, stamp0 := 0, ingress := 0
    accept := some 0, entry := some 0, rule := bareGooseRule, cls := strayClass, cells := 1, copies := [(pI0, strayClass)] }

/-- A module with every domain ON and subscription enabled, the frame in its Hall, and one frame accepted for entry 0 so far. -/
def strayState : State :=
  { ((State.reset.put PM_DOMAIN_PD0.addr 0x55555555).wr SB_CTRL_EN 1).wr (sbSt SB_ST3_RX_OK 0) 1 with
    hall := { frames := [(0, strayFrame)] }, sub := { entries := [(0, { bytes := bareGooseRule })] } }

/-- The PDU of the frame: no element, so that each number reads 0 and there are no leaves. -/
def barePdu : GoosePdu := ⟨[], 0, [], 0, 0, false, 0, some []⟩

/-- RX_OK of entry 0 in the state that an outcome answers. -/
def rxOkAfter (o : Host.Outcome State Fault Refusal) : Option Nat :=
  match o with
  | .next u => some (u.rd (sbSt SB_ST3_RX_OK 0))
  | _ => none

theorem strayState_rxOk : strayState.rd (sbSt SB_ST3_RX_OK 0) = 1 := by decide +kernel

/-- The end of the copy takes one cell from the counters' word, and RX_OK falls from 1 to 0 before the frame is counted. -/
theorem strayState_accepts : rxOkAfter (exec (.frameAcceptance 0) strayState) = some 1 := by decide +kernel

/-- Refutes O27: the count of accepted frames does not rise where the frame's class, which the statement leaves open, is none of the
eight of R112 and the end of the I0 copy writes the entry's counters. -/
theorem not_subscriptionEvents : ¬ Obligations.SubscriptionEvents := by
  rintro ⟨haccept, -, -⟩
  have hruns : strayState.runs 6 = true := by decide +kernel
  have hstale : strayState.staleEntry strayFrame = false := by decide +kernel
  have hon : strayState.on SB_CTRL_EN = true := by decide +kernel
  have hkind : eKind strayFrame.rule = 2 := by decide +kernel
  have hsim : simRefuses strayState 0 (simBit strayFrame.octets) = false := by decide +kernel
  have hoctets : (i0Handed 0 strayFrame strayState).unwrap strayFrame pI0 = strayFrame.octets := by decide +kernel
  have hpdu : goosePdu strayFrame.octets = some barePdu := by decide +kernel
  have hmembers : strayState.members strayFrame.rule barePdu = some [] := by decide +kernel
  have hrev : barePdu.confRev = eConfRev strayFrame.rule := by decide +kernel
  have hnew : strayState.rd (sbSt SB_ST0_STATE 0) = 0 := by decide +kernel
  obtain ⟨-, -, hchecks⟩ := haccept 0 0 0 strayFrame _ { bytes := bareGooseRule } strayState _ hruns rfl rfl rfl (by decide)
    (Nat.zero_le _) (by decide) rfl rfl
  obtain ⟨-, -, -, hgoose⟩ := hchecks hstale hon rfl
  obtain ⟨u, hu, hcount, -⟩ := hgoose barePdu [] hkind rfl (hoctets ▸ hsim) (hoctets ▸ hpdu) hmembers hrev (by rw [hnew]; rfl)
  have hone := strayState_accepts
  rw [hu, rxOkAfter, hcount, strayState_rxOk] at hone
  exact absurd hone (by decide)

end Sys2Proof.Machine
end

section
/-!
The AL_ page's layer (R166, R168, R185): how an access of the page reaches its operation, and what each operation leaves.
-/
namespace Sys2Proof.Machine

/-! ### Accesses of the page -/

section
variable {s : State} {req : Requester} {k v : Nat}

/-- A register of the AL_ page answers one who may write. -/
theorem writeReg_al (hw : s.Writer req) (hdom : s.dom 6 = 1) (hk : k < 0x10000) (hd : (descIn .al 0 k).isSome = true) (hv : v < 2 ^ 32) :
    writeReg req (0x500000 + k) v s = (alWrite req k v s).wrote req (0x500000 + k) v := by
  have hpage : (0x500000 + k) / 0x10000 = 0x50 := by omega
  have hoff : (0x500000 + k) % 0x10000 = k := by omega
  have h := writeReg_served (o := 0x500000 + k) (b := .al) (i := 0) hw (by omega) (by rw [hpage]; rfl) (.inr hdom)
    (by rw [hoff]; exact hd) (.inl (by decide)) hv
  rwa [hoff] at h

theorem alWrite_strCmd (h : s.mayWrite req = true) : alWrite req 0x14 v s = alStrCmd req (v % 4) s := by
  simp [alWrite, h]

/-- A command of AL_STR_CMD. -/
theorem writeReg_strCmd (hw : s.Writer req) (hdom : s.dom 6 = 1) (hv : v < 4) :
    writeReg req 0x500014 v s = (alStrCmd req v s).wrote req 0x500014 v := by
  have h := writeReg_al (k := 0x14) (v := v) hw hdom (by decide) (by decide) (by omega)
  rwa [alWrite_strCmd hw.2, Nat.mod_eq_of_lt hv] at h

end

section
variable {s : State}

/-! ### Stream descriptors (R166) -/

/-- The descriptor that AL_STR_IDX names. -/
def State.strSel (s : State) : List Byte := s.stream (s.rd AL_STR_IDX_IDX)

/-- Stream `k` replaced. -/
def State.setStream (s : State) (k : Nat) (x : Stream) : State := { s with al := { s.al with str := aput s.al.str k x } }

/-- A completed replacement of stream `k` leaves the other streams, the registers and the rest of the state. -/
theorem State.setStream_wrote (s : State) (k : Nat) (x : Stream) (r : Requester) (o v : Nat) :
    aget ((s.setStream k x).wrote r o v).al.str k = some x ∧
      (∀ j, j ≠ k → aget ((s.setStream k x).wrote r o v).al.str j = aget s.al.str j) ∧
      RegsKept [] s ((s.setStream k x).wrote r o v) ∧
      (s.setStream k x).wrote r o v = { s.withAccess ((s.setStream k x).wrote r o v) with
        al := { s.al with str := ((s.setStream k x).wrote r o v).al.str } } := by
  have hal : ((s.setStream k x).wrote r o v).al = { s.al with str := aput s.al.str k x } := State.wrote_al ..
  rw [hal]
  refine ⟨aget_aput_self .., fun j hj => aget_aput_ne _ _ hj, fun a _ => State.wrote_word .., ?_⟩
  rw [State.wrote_frame]
  rfl

theorem State.stream_of_aget {t : State} {k : Nat} {x : Stream} (h : aget t.al.str k = some x) : t.stream k = x.bytes := by
  rw [State.stream, h]
  rfl

theorem alStrCmd_write_new {r : Requester} {b : List Byte} (h : s.mayWrite r = true) (hb : b = dStored (s.dataBytes 0x500040 16))
    (hnew : dValid s.strSel = false) :
    alStrCmd r 2 s = s.setStream (s.rd AL_STR_IDX_IDX) { bytes := s.strSel, next := some b } := by
  subst hb
  exact (if_neg (by rw [h]; decide)).trans (if_pos (congrArg not hnew))

theorem alStrCmd_write_same {r : Requester} {b : List Byte} (h : s.mayWrite r = true) (hb : b = dStored (s.dataBytes 0x500040 16))
    (hvalid : dValid s.strSel = true) (hsame : sameFixed s.strSel b = true) :
    ∃ next, alStrCmd r 2 s = s.setStream (s.rd AL_STR_IDX_IDX) { bytes := b, next := next } := by
  subst hb
  exact ⟨_, (if_neg (by rw [h]; decide)).trans ((if_neg (by rw [← State.strSel, hvalid]; decide)).trans (if_pos hsame))⟩

theorem alStrCmd_write_refused {r : Requester} {b : List Byte} (h : s.mayWrite r = true) (hb : b = dStored (s.dataBytes 0x500040 16))
    (hvalid : dValid s.strSel = true) (hother : sameFixed s.strSel b = false) :
    alStrCmd r 2 s = s.alEvent AL_EVENT_REFUSED := by
  subst hb
  exact (if_neg (by rw [h]; decide)).trans ((if_neg (by rw [← State.strSel, hvalid]; decide)).trans
    (if_neg (by rw [← State.strSel, hother]; decide)))

/-- The selected stream with its descriptor not valid from the next tick start on. -/
def State.strEnded (s : State) : Stream :=
  { bytes := s.strSel, next := some (splice s.strSel 0 (leBytes 1 (setBits (leAt s.strSel 0 1) 7 7 0))) }

theorem alStrCmd_invalidate {r : Requester} (h : s.mayWrite r = true) :
    alStrCmd r 3 s = s.setStream (s.rd AL_STR_IDX_IDX) s.strEnded := if_neg (by rw [h]; decide)

/-! ### Counters of a stream (R11, R185) -/

theorem alCntIdx_eq (v : Nat) (s : State) : alCntIdx v s =
    (List.range 3).foldl (fun t i => t.put (0x3100000 + v % 1024 * 0x10 + 4 * i) (t.evWord (0x3100000 + v % 1024 * 0x10 + 4 * i)))
      ((List.range 3).foldl (fun t i => t.put (0x500024 + 4 * i) (t.word0 (0x3100000 + v % 1024 * 0x10 + 4 * i)))
        (s.swPut 0x500020 v)) := rfl

/-- A latch loads the three counters as the cycle found them, and leaves of them what the cycle's events have counted. -/
theorem alCntIdx_latches (v : Nat) (s : State) : EventsOnly s (alCntIdx v s) ∧ ∀ i, i < 3 →
    (alCntIdx v s).word (0x500024 + 4 * i) = s.word0 (0x3100000 + v % 1024 * 0x10 + 4 * i) ∧
    (alCntIdx v s).word (0x3100000 + v % 1024 * 0x10 + 4 * i) = s.evWord (0x3100000 + v % 1024 * 0x10 + 4 * i) := by
  have hidx := s.swPut_loaded 0x500020 v
  rw [alCntIdx_eq]
  generalize s.swPut 0x500020 v = u at hidx
  obtain ⟨hdata, hlatched⟩ := loaded_foldl_put (base := 0x500024) (n := 3) (s := u)
    (w := fun t i => t.word0 (0x3100000 + v % 1024 * 0x10 + 4 * i)) fun t i ht _ => ht.word0 _
  generalize (List.range 3).foldl (fun t i => t.put (0x500024 + 4 * i) (t.word0 (0x3100000 + v % 1024 * 0x10 + 4 * i))) u = w
    at hdata hlatched
  obtain ⟨hcount, hleft⟩ := loaded_foldl_put (base := 0x3100000 + v % 1024 * 0x10) (n := 3) (s := w)
    (w := fun t i => t.evWord (0x3100000 + v % 1024 * 0x10 + 4 * i)) fun t i ht _ => ht.evWord _
  refine ⟨(hidx.events.trans hdata.events).trans hcount.events, fun i hi => ⟨?_, ?_⟩⟩
  · rw [hcount.kept _ (by omega), hlatched i hi, hidx.word0]
    exact Nat.mod_eq_of_lt (BitVec.isLt _)
  · rw [hleft i hi, hdata.evWord, hidx.evWord]
    exact Nat.mod_eq_of_lt (BitVec.isLt _)

/-! ### AL_CTRL (R185) -/

theorem regDesc_alCtrl : regDesc 0x500000 = some ⟨0x0, 0x0, 1, [⟨31, 31, .rw, 0x0⟩, ⟨30, 30, .rw, 0x1⟩]⟩ := by decide

/-- The two fields of AL_CTRL take what is written. -/
theorem State.swPut_alCtrl (s : State) (v : Nat) :
    (s.swPut 0x500000 v).on AL_CTRL_EN = bit v 31 ∧ (s.swPut 0x500000 v).on AL_CTRL_CONCEAL_EN = bit v 30 := by
  have hfield (f : FieldDesc) (hf : f ∈ [⟨31, 31, .rw, 0x0⟩, ⟨30, 30, .rw, 0x1⟩]) (hrw : f.acc = .rw) :
      bits ((s.swPut 0x500000 v).word 0x500000) f.hi f.lo = bits v f.hi f.lo :=
    s.swPut_field regDesc_alCtrl hf hrw (by decide) (by decide)
  exact ⟨State.on_of_bits (hfield ⟨31, 31, .rw, 0x0⟩ (by decide) rfl),
    State.on_of_bits (hfield ⟨30, 30, .rw, 0x1⟩ (by decide) rfl)⟩

/-- The state with alignment's tables replaced. -/
def State.withAl (s : State) (a : Al) : State := { s with al := a }

theorem State.withAl_on (s : State) (a : Al) (f : Fld) : (s.withAl a).on f = s.on f := rfl

theorem RegsKept.withAl {l : List Nat} {t : State} (h : RegsKept l s t) (a : Al) : RegsKept l s (t.withAl a) := h

theorem EventsOnly.withAl_wrote {t : State} (h : EventsOnly s t) (a : Al) (r : Requester) (o v : Nat) :
    (t.withAl a).wrote r o v = { s.withAccess ((t.withAl a).wrote r o v) with al := ((t.withAl a).wrote r o v).al } := by
  rw [State.wrote_frame, h]
  rfl

/-- Alignment's tables after EN has been written: abandoned where it is cleared, to open from the next tick where it is set. -/
def State.alSwitched (s : State) (en : Bool) : Al :=
  if s.on AL_CTRL_EN = true ∧ en = false then
    { s.al with sets := [], netQ := [], locQ := [], late := [], tails := [], wroteTo := [] }
  else if s.on AL_CTRL_EN = false ∧ en = true then { s.al with openFrom := s.clk.raised + 1 }
  else s.al

theorem alCtrlWriteOp_eq (v : Nat) (s : State) :
    alCtrlWriteOp v s = (s.swPut 0x500000 v).withAl (s.alSwitched (bit v 31)) := by
  obtain ⟨hen, -⟩ := s.swPut_alCtrl v
  have hframe := s.swPut_frame 0x500000 v
  unfold alCtrlWriteOp State.alSwitched
  simp only [hen]
  generalize s.swPut 0x500000 v = u at hframe
  cases s.on AL_CTRL_EN <;> cases bit v 31 <;> rw [hframe] <;> rfl

/-! ### AL_GROUP (R168) -/

theorem regDesc_alGroup (g : Fin 64) : regDesc (0x500100 + 4 * g) =
    some ⟨0x100, 0x4, 64, [⟨31, 31, .rw, 0x0⟩, ⟨30, 30, .rw, 0x0⟩, ⟨10, 0, .rw, 0x190⟩]⟩ := by
  revert g
  decide

/-- A group's settings stored, with W held within its limits. -/
def State.storeGroup (s : State) (g v : Nat) : State :=
  (s.swPut (0x500100 + 4 * g) v).wr (AL_GROUP_W_US.i g) (clampN 50 1500 (v % 2048))

theorem alWrite_group {req : Requester} (h : s.mayWrite req = true) (g : Fin 64) (v : Nat) :
    alWrite req (0x100 + 4 * g) v s = s.storeGroup g v := by
  have hg : (0x100 + 4 * g.val - 0x100) / 4 = g.val := by omega
  have ha : 0x500000 + (0x100 + 4 * g.val) = 0x500100 + 4 * g.val := by omega
  unfold alWrite
  rw [if_neg (by omega), if_neg (by omega), if_neg (by omega), if_neg (by omega), if_neg (by simp [h]), if_pos (by omega), hg, ha]
  rfl

theorem clampN_lt {lo hi x n : Nat} (hlo : lo < n) (hhi : hi < n) : clampN lo hi x < n := by
  unfold clampN
  split
  · exact hlo
  · split <;> omega

theorem State.storeGroup_shows (s : State) (g : Fin 64) (v : Nat) :
    (s.storeGroup g v).rd (AL_GROUP_W_US.i g) = clampN 50 1500 (v % 2048) ∧
      (s.storeGroup g v).on (AL_GROUP_EN.i g) = bit v 31 ∧ (s.storeGroup g v).on (AL_GROUP_FNOM.i g) = bit v 30 := by
  have hfield (f : FieldDesc) (hf : f ∈ [⟨31, 31, .rw, 0x0⟩, ⟨30, 30, .rw, 0x0⟩, ⟨10, 0, .rw, 0x190⟩]) (hrw : f.acc = .rw) :
      bits ((s.swPut (0x500100 + 4 * g) v).word (0x500100 + 4 * g)) f.hi f.lo = bits v f.hi f.lo :=
    s.swPut_field (regDesc_alGroup g) hf hrw (by decide) (by decide)
  have haddr : (AL_GROUP_W_US.i g).addr = 0x500100 + 4 * g := congrArg (0x500100 + ·) (Nat.mul_comm ..)
  unfold State.storeGroup
  refine ⟨(State.rd_wr_i_self _ AL_GROUP_W_US g _ ⟨by decide, by decide⟩).trans
    (Nat.mod_eq_of_lt (clampN_lt (by decide) (by decide))), ?_, ?_⟩
  · rw [State.on_wr_i _ AL_GROUP_W_US AL_GROUP_EN g _ ⟨by decide, by decide⟩ (.inr (.inl (by decide)))]
    have h := hfield ⟨31, 31, .rw, 0x0⟩ (by decide) rfl
    rw [← haddr] at h ⊢
    exact State.on_of_bits h
  · rw [State.on_wr_i _ AL_GROUP_W_US AL_GROUP_FNOM g _ ⟨by decide, by decide⟩ (.inr (.inl (by decide)))]
    have h := hfield ⟨30, 30, .rw, 0x0⟩ (by decide) rfl
    rw [← haddr] at h ⊢
    exact State.on_of_bits h

theorem State.storeGroup_regsKept (s : State) (g v : Nat) : RegsKept [(AL_GROUP_W_US.i g).addr] s (s.storeGroup g v) := by
  have haddr : (AL_GROUP_W_US.i g).addr = 0x500100 + 4 * g := congrArg (0x500100 + ·) (Nat.mul_comm ..)
  exact RegsKept.wr (haddr ▸ s.swPut_regsKept _ v) _ (.head _)

theorem State.storeGroup_events (s : State) (g v : Nat) : EventsOnly s (s.storeGroup g v) :=
  ((EventsOnly.refl s).swPut _ _).wr _ _

end

/-! ### The rows -/

section
variable {s : State} {req : Requester} (hw : s.Writer req) (hdom : s.dom 6 = 1)
include hw hdom

theorem exec_alStrRead : exec (.alStrRead req) s = .next ((loadData 0x500040 16 s.strSel s).wrote req 0x500014 1) :=
  congrArg Host.Outcome.next (writeReg_strCmd hw hdom (by decide))

theorem exec_alStrWrite : exec (.alStrWrite req) s = .next ((alStrCmd req 2 s).wrote req 0x500014 2) :=
  congrArg Host.Outcome.next (writeReg_strCmd hw hdom (by decide))

theorem exec_alStrInvalidate : exec (.alStrInvalidate req) s = .next ((alStrCmd req 3 s).wrote req 0x500014 3) :=
  congrArg Host.Outcome.next (writeReg_strCmd hw hdom (by decide))

theorem exec_alCntLatch (v : Word) : exec (.alCntLatch req v) s = .next ((alCntIdx v.toNat s).wrote req 0x500020 v.toNat) :=
  congrArg Host.Outcome.next (writeReg_al (k := 0x20) hw hdom (by decide) (by decide) v.isLt)

theorem exec_alCtrlWrite (v : Word) : exec (.alCtrlWrite req v) s = .next ((alCtrlWriteOp v.toNat s).wrote req 0x500000 v.toNat) :=
  congrArg Host.Outcome.next (writeReg_al (k := 0) hw hdom (by decide) (by decide) v.isLt)

theorem exec_alGroupWrite (g : Fin 64) (v : Word) :
    exec (.alGroupWrite req g v) s = .next ((s.storeGroup g v.toNat).wrote req (0x500100 + 4 * g) v.toNat) := by
  have hdesc : ∀ g : Fin 64, (descIn .al 0 (0x100 + 4 * g)).isSome = true := by decide
  have ha : 0x500000 + (0x100 + 4 * g.val) = 0x500100 + 4 * g.val := by omega
  have h := writeReg_al (k := 0x100 + 4 * g) hw hdom (by omega) (hdesc g) v.isLt
  rw [alWrite_group hw.2, ha] at h
  exact congrArg Host.Outcome.next h

end

end Sys2Proof.Machine
end

section
/-!
Pantry writes (R164, R166, R167, R287): the turn of a port, and the sample that is written whole.
-/
namespace Sys2Proof.Machine

/-! ### The turn (R287) -/

section
variable {s u : State} {x : Sample} {rest : List Sample}

theorem exec_pantryWrite_net (hruns : s.runs 6 = true) (hon : s.on AL_CTRL_EN = true) (hq : s.al.netQ = x :: rest)
    (hx : x.cyc ≤ s.cyc) (hfree : s.al.netFree ≤ s.cyc) (hu : u = { s with al := { s.al with netQ := rest } }) :
    exec (.pantryWrite none) s = (if s.meetsPass (takeSample x u).1 then .next s else
      .next { (takeSample x u).2 with al := { (takeSample x u).2.al with netFree := s.cyc + (takeSample x u).1 } }) := by
  have hturn : ¬ (s.cyc < x.cyc ∨ s.cyc < s.al.netFree) := by omega
  subst hu
  refine (whileOn_runs hruns).trans ?_
  rw [hon, hq]
  exact if_neg hturn

theorem exec_pantryWrite_local {k : Fin 4} (hruns : s.runs 6 = true) (hon : s.on AL_CTRL_EN = true)
    (hq : agetD s.al.locQ k.val [] = x :: rest) (hx : x.cyc ≤ s.cyc)
    (hu : u = { s with al := { s.al with locQ := aput s.al.locQ k rest } }) :
    exec (.pantryWrite (some k)) s = .next (takeSample x u).2 := by
  subst hu
  refine (whileOn_runs hruns).trans ?_
  rw [hon]
  dsimp only
  rw [hq]
  exact if_neg (Nat.not_lt.2 hx)

end

/-! ### What capture takes of a sample (R361, R362) -/

/-- Nothing but registers, the event delivery and capture has changed. -/
def CapEvents (s t : State) : Prop := t = { s.withEvents t with tg := t.tg }

section
variable {s t u : State}

theorem CapEvents.refl (s : State) : CapEvents s s := rfl

theorem CapEvents.trans (h : CapEvents s t) (h' : CapEvents t u) : CapEvents s u := by
  unfold CapEvents at h h'
  rw [h', h]
  rfl

theorem CapEvents.setCap (h : CapEvents s t) (r : Nat) (c : Cap) : CapEvents s (t.setCap r c) := h.trans rfl

theorem CapEvents.events (h : CapEvents s t) (h' : EventsOnly t u) : CapEvents s u := by
  refine h.trans ?_
  rw [CapEvents, h']
  rfl

theorem CapEvents.al_mem (h : CapEvents s t) : t.al = s.al ∧ t.mem = s.mem := by
  rw [h]
  exact ⟨rfl, rfl⟩

theorem CapEvents.foldl {α : Type} (g : State → α → State) (l : List α) (h : CapEvents s t) (hg : ∀ t x, CapEvents t (g t x)) :
    CapEvents s (l.foldl g t) := List.foldlRecOn l g h fun t ht x _ => ht.trans (hg t x)

theorem CapEvents.capLate (h : CapEvents s t) (r k : Nat) : CapEvents s (Machine.capLate r k t) := by
  unfold Machine.capLate
  split
  · exact h
  · exact (h.setCap _ _).events (((EventsOnly.refl _).inc _).event _ _)

theorem CapEvents.capSample (h : CapEvents s t) (stream k : Nat) (vals : List (Int × Nat)) :
    CapEvents s (t.capSample stream k vals) := by
  refine h.foldl _ _ fun t r => ?_
  split
  · exact .refl t
  · refine (CapEvents.refl t).foldl _ _ fun u c => ?_
    dsimp only
    split
    · exact (CapEvents.refl u).capLate _ _
    · split
      · exact .refl u
      · exact (CapEvents.refl u).setCap _ _

end

theorem noteEarly_events (k : Nat) (e : Bool) (s : State) : EventsOnly s (noteEarly k e s) := by
  unfold noteEarly
  split
  · exact ((EventsOnly.refl s).inc _).event _ _
  · exact .refl s

/-! ### The record (R161, R167) -/

theorem length_flatMap_leBytes (m n : Nat) (f : Nat → Nat) : ((List.range m).flatMap (fun i => leBytes n (f i))).length = m * n := by
  simp [List.length_flatMap, leBytes_length]

theorem mkRecord_length (vals quals : List Nat) (g state flags smp miss synch transit : Nat) :
    (mkRecord vals quals g state flags smp miss synch transit).length = 64 := by
  simp only [mkRecord, List.length_append, length_flatMap_leBytes, leBytes_length]

/-- The Pantry is no cluster's memory, so that no fence discards a record (R30). -/
theorem State.fencedAt_recAddr (s : State) (k g : Nat) : s.fencedAt (recAddr k g) = false := by
  have h : ¬ recAddr k g < 0x0302000000 := by
    unfold recAddr addrPantry
    omega
  rw [State.fencedAt, decide_eq_false h, Bool.and_false, Bool.false_and]

theorem maskList_zero (n : Nat) : maskList n 0 = [] := by
  simp [maskList, bit]

/-- A Pantry write of a stream without inbox copies: bytes 0–47 are stored, and bytes 48–63 wait for the last cycle (R167). -/
theorem pantryWrite_begins (k g : Nat) {b r : List Byte} (hb : dCmask b = 0) (hr : r.length = 64) (s : State) :
    (pantryWrite k g b r s).load (recAddr k g) 48 = r.take 48 ∧
      (s.cyc + 31, recAddr k g + 48, r.drop 48) ∈ (pantryWrite k g b r s).al.tails ∧
      (pantryWrite k g b r s).al.netQ = s.al.netQ := by
  have hlen : (r.take 48).length = 48 := by
    rw [List.length_take, hr]
    rfl
  have hstore := s.load_store_self (recAddr k g) (r.take 48)
  have hframe := s.store_frame (recAddr k g) (r.take 48)
  rw [hlen] at hstore
  unfold pantryWrite
  simp only [hb, maskList_zero, List.map_nil, List.foldl_cons, List.foldl_nil, State.mapStore, s.fencedAt_recAddr, Bool.false_eq_true,
    if_false, List.map_cons]
  refine ⟨hstore, List.mem_append_right _ (.head _), ?_⟩
  rw [hframe]

/-- The state after the turn of a sample whose record `r` is written for grid tick `g`. -/
def pantryTurn (x : Sample) (g : Nat) (b r : List Byte) (s : State) : State :=
  (noteEarly x.stream (x.early 4800) (pantryWrite x.stream g b r s)).capSample x.stream g x.vals

theorem pantryTurn_capEvents (x : Sample) (g : Nat) (b r : List Byte) (s : State) :
    CapEvents (pantryWrite x.stream g b r s) (pantryTurn x g b r s) :=
  ((CapEvents.refl _).events (noteEarly_events ..)).capSample _ _ _

/-- A sample at the grid's own rate that is neither late nor a second one takes the port for a whole write (R167). -/
theorem takeSample_written {x : Sample} {b r : List Byte} {g : Nat} {s : State} (hb : b = s.stream x.stream) (hvalid : dValid b = true)
    (hrate : dRate b = 1) (hraw : x.raw = none) (hg : g = x.abs 4800) (hnew : s.record? x.stream g = none)
    (htime : s.tooLate (dGroup b) g = false)
    (hr : r = mkRecord ((scaled b x).map (fun p => p.1)) ((scaled b x).map (fun p => p.2)) g recPresent
      (b2n x.sim * 16 + b2n (s.tickSkipped g) * 8 + b2n (x.early 4800) * 4) x.smpCnt 0 x.synch (x.transit 4800))
    (hauth : s.overruled x.stream g r = none) : takeSample x s = (32, pantryTurn x g b r s) := by
  unfold takeSample
  dsimp only
  rw [← hb, hvalid, hraw, if_neg (by decide), if_neg (by decide), if_pos hrate]
  unfold writeSample
  dsimp only
  rw [← hg, hnew, htime, if_neg (by simp), if_neg (by simp), ← hr, hauth]
  rfl

end Sys2Proof.Machine
end

section
/-!
Closure passes (R171–R173, R178, R182, R461, R463): what closing the streams of a group leaves, and what the pass shows.
-/
namespace Sys2Proof.Machine

/-- What a pass decides before it closes the first stream: the open sets, and when the port and the next pass are free. -/
def Al.pass (a : Al) : List OpenSet × Nat × Nat := (a.sets, a.netFree, a.passFree)

/-- Closing a stream leaves what the pass has decided. -/
def PassKept (s t : State) : Prop := t.al.pass = s.al.pass

section
variable {s t u : State}

theorem PassKept.refl (s : State) : PassKept s s := rfl

theorem PassKept.trans (h : PassKept s t) (h' : PassKept t u) : PassKept s u := Eq.trans h' h

theorem PassKept.of_al (h : PassKept s t) (ha : u.al = t.al) : PassKept s u := h.trans (congrArg Al.pass ha)

theorem PassKept.ite {c : Prop} [Decidable c] (h : PassKept s t) (h' : PassKept s u) : PassKept s (if c then t else u) := by
  split
  · exact h
  · exact h'

/-! ### Registers, events and memory -/

theorem State.store_al (s : State) (a : Nat) (l : List Byte) : (s.store a l).al = s.al := by
  rw [s.store_frame]

theorem State.mapStore_al (s : State) (a : Nat) (l : List Byte) : (s.mapStore a l).al = s.al := by
  unfold State.mapStore
  split
  · rfl
  · exact s.store_al a l

theorem SubEvents.al_eq (h : SubEvents s t) : t.al = s.al := by
  rw [h]
  rfl

theorem PassKept.inc (h : PassKept s t) (f : Fld) : PassKept s (t.inc f) := h.of_al rfl
theorem PassKept.count (h : PassKept s t) (f : Fld) (n : Nat) : PassKept s (t.count f n) := h.of_al rfl
theorem PassKept.alEvent (h : PassKept s t) (f : Fld) : PassKept s (t.alEvent f) := h.of_al (State.event_al ..)
theorem PassKept.setMiss (h : PassKept s t) (k n : Nat) : PassKept s (t.setMiss k n) := h.trans rfl
theorem PassKept.setRs (h : PassKept s t) (i : Nat) (l : List RsIn) : PassKept s (t.setRs i l) := h.trans rfl
theorem PassKept.store (h : PassKept s t) (a : Nat) (l : List Byte) : PassKept s (t.store a l) := h.of_al (State.store_al ..)

theorem PassKept.mapStore (h : PassKept s t) (a : Nat) (l : List Byte) : PassKept s (t.mapStore a l) := h.of_al (State.mapStore_al ..)
theorem PassKept.subEvents (h : PassKept s t) (h' : SubEvents t u) : PassKept s u := h.of_al h'.al_eq

theorem PassKept.foldl {α : Type} (g : State → α → State) (l : List α) (h : PassKept s t) (hg : ∀ t x, PassKept t (g t x)) :
    PassKept s (l.foldl g t) := List.foldlRecOn l g h fun t ht x _ => ht.trans (hg t x)

theorem PassKept.inboxWrite (h : PassKept s t) (b : List Byte) (g : Nat) (r : List Byte) : PassKept s (Machine.inboxWrite b g r t) :=
  h.foldl _ _ fun u _ => (PassKept.refl u).mapStore _ _

theorem PassKept.inboxClose (h : PassKept s t) (mask : Nat) (b : List Byte) (g flags miss : Nat) :
    PassKept s (Machine.inboxClose mask b g flags miss t) :=
  h.foldl _ _ fun u _ => ((PassKept.refl u).mapStore _ _).mapStore _ _

/-! ### Subscription's part (R153) -/

theorem State.discPush_subEvents (s : State) (r : DiscRec) : SubEvents s (s.discPush r) := by
  rcases Nat.lt_or_ge s.sub.disc.length 512 with h | h
  · exact (s.discPush_room r h).1
  · exact (s.discPush_full r h).1.subEvents

theorem entryMissing_subEvents (e : Nat) (x : SubEntry) (close : Nat) (missing : Bool) (s : State) :
    SubEvents s (entryMissing e x close missing s) := by
  unfold entryMissing
  dsimp only
  generalize (if missing then min 255 (x.missing + 1) else 0) = n
  generalize hu : s.setSub e { x with missing := n } = u
  have hset : SubEvents s u := hu ▸ .setSub s _
  split
  · exact (hset.events ((EventsOnly.refl u).wr _ _)).trans (State.discPush_subEvents ..)
  · exact hset

theorem PassKept.subMissing (h : PassKept s t) (k close : Nat) (missing : Bool) : PassKept s (Machine.subMissing k close missing t) :=
  .ite (h.foldl _ _ fun u p => (PassKept.refl u).subEvents (entryMissing_subEvents p.1 p.2 close missing u)) h

/-! ### One stream -/

theorem PassKept.sampleLate (h : PassKept s t) (k g : Nat) : PassKept s (Machine.sampleLate k g t) := by
  have hcount := ((h.inc (alCnt AL_CNT0_LATE k)).inc AL_G_LATE_ALL).alEvent AL_EVENT_LATE
  unfold Machine.sampleLate
  dsimp only
  split
  · exact hcount.store _ _
  · exact .ite hcount (hcount.trans rfl)

theorem PassKept.dropWrite (h : PassKept s t) (k g : Nat) (b : List Byte) : PassKept s (Machine.dropWrite k g b t) := h.trans rfl

theorem PassKept.closeWrite (h : PassKept s t) (k g : Nat) (b r : List Byte) : PassKept s (Machine.closeWrite k g b r t) := by
  unfold Machine.closeWrite
  refine PassKept.inboxWrite ?_ _ _ _
  exact (h.store _ _).trans rfl

/-- An ABSENT record counts and raises its event (R173). -/
theorem PassKept.absent (h : PassKept s t) (k : Nat) :
    PassKept s (((t.inc (alCnt AL_CNT1_ABSENT k)).inc AL_G_ABSENT_ALL).alEvent AL_EVENT_ABSENT) := ((h.inc _).inc _).alEvent _

theorem PassKept.closeStream (h : PassKept s t) (o : OpenSet) (k : Nat) (b : List Byte) :
    PassKept s (Machine.closeStream o k b t) := by
  have hcut : PassKept s (if t.writing k o.tick then Machine.sampleLate k o.tick (Machine.dropWrite k o.tick b t) else t) :=
    .ite ((h.dropWrite _ _ _).sampleLate _ _) h
  unfold Machine.closeStream
  dsimp only
  split
  · exact (((((hcut.store _ _).setMiss _ _).inboxClose _ _ _ _ _).inc _).subMissing _ _ _)
  · have hmiss := hcut.setMiss k
    split
    · exact (((hmiss _).closeWrite _ _ _ _).inc _).subMissing _ _ _
    · exact (((hmiss _).closeWrite _ _ _ _).absent _).subMissing _ _ _

theorem PassKept.closeResampled (h : PassKept s t) (o : OpenSet) (k : Nat) (b : List Byte) :
    PassKept s (Machine.closeResampled o k b t) := by
  unfold Machine.closeResampled
  dsimp only
  have hfill := fun l n => (h.setRs (dSlot b) l).count (alCnt AL_CNT1_CONCEAL k) n
  split
  · exact ((((hfill _ _).setMiss _ _).closeWrite _ _ _ _).absent _).subMissing _ _ _
  · exact ((((hfill _ _).setMiss _ _).closeWrite _ _ _ _).inc _).subMissing _ _ _

theorem PassKept.closeCarried (h : PassKept s t) (o : OpenSet) (k : Nat) (b r : List Byte) :
    PassKept s (Machine.closeCarried o k b r t) := by
  have hwrite := (h.setMiss k (rMiss r)).closeWrite k o.tick b r
  exact (PassKept.ite (hwrite.inc _) (.ite (hwrite.inc _) (hwrite.absent _))).subMissing _ _ _

/-! ### The pass -/

/-- Cycles of a pass over the streams of a group (R171). -/
def State.passCycles (s : State) (grp : Nat) : Nat := 8 + ceilDiv (s.groupStreams grp).length 4

/-- The pass begins: its set is open no more, and the port is held. -/
def passBegun (o : OpenSet) (s : State) : State := { s with al := { s.al with
  sets := s.al.sets.filter (fun x => !(x.tick == o.tick && x.group == o.group))
  netFree := max s.al.netFree (s.cyc + s.passCycles o.group), passFree := s.cyc + s.passCycles o.group } }

/-- The tick noted as closed for the group, once the streams `ks` are closed. -/
def passClosed (o : OpenSet) (ks : List Nat) (u : State) : State := { u with al := { u.al with
  closed := aput u.al.closed o.group (max (agetD u.al.closed o.group 0) (o.tick + 1))
  wroteTo := u.al.wroteTo.filter (fun x => !(ks.contains x.1 && x.2.1 == o.tick) && decide (o.tick < x.2.1 + 256)) } }

/-- The closed set recorded for the partner, and shown in AL_STATUS. -/
def passShown (o : OpenSet) (ks : List Nat) (p : Nat) (u : State) : State :=
  ((recordSet o ks ((passClosed o ks u).cyc + p) (passClosed o ks u)).wr AL_STATUS_LAST_TICK (o.tick % 4800)).wr
    AL_STATUS_LAST_GROUP o.group

/-- The end of a pass: the set is marked, unless the grid skipped its tick (R182, R184). -/
def passEnd (o : OpenSet) (ks : List Nat) (p : Nat) (u : State) : State :=
  if o.skip then passShown o ks p u
  else (passShown o ks p u).setMark o.group o.tick (setFlags (passShown o ks p u) o.tick ks) ((passShown o ks p u).cyc + p)

/-- A pass begins, closes its streams one after another, at the grid's own rate or resampled or with the active module's record, and
ends. -/
theorem closePass_stages (o : OpenSet) (s : State) : ∃ u, PassKept (passBegun o s) u ∧
    closePass o s = passEnd o (s.groupStreams o.group) (s.passCycles o.group) u := by
  refine ⟨_, ?_, rfl⟩
  refine (PassKept.refl _).foldl _ _ fun t k => ?_
  have ht := PassKept.refl t
  have hown := PassKept.ite (c := dRate (t.stream k) = 1) (ht.closeStream o k (t.stream k)) (ht.closeResampled o k (t.stream k))
  dsimp only
  split
  · exact .ite (ht.closeCarried _ _ _ _) hown
  · exact hown

theorem sendSet_al (g grp due n part : Nat) (ks : List Nat) (s : State) : (sendSet g grp due n part ks s).al = s.al := by
  induction n generalizing part ks s with
  | zero => rfl
  | succ n ih =>
    unfold sendSet
    dsimp only
    split
    · exact State.twinQueue_al ..
    · exact (ih ..).trans (State.twinQueue_al ..)

theorem recordSet_al (o : OpenSet) (ks : List Nat) (due : Nat) (s : State) : (recordSet o ks due s).al = s.al := by
  unfold recordSet
  split
  · rfl
  · split
    · split
      · rfl
      · exact sendSet_al ..
    · split
      · rfl
      · dsimp only
        split <;> rfl

/-- The end of a pass leaves the tables that the streams' closure left, and AL_STATUS as shown: a set's marks go to the operand slots'
queue alone (R182). -/
theorem passEnd_shown (o : OpenSet) (ks : List Nat) (p : Nat) (u : State) :
    (passEnd o ks p u).al = (passClosed o ks u).al ∧ (passEnd o ks p u).regs = (passShown o ks p u).regs := by
  have hal : (passShown o ks p u).al = (passClosed o ks u).al := recordSet_al ..
  unfold passEnd
  split
  · exact ⟨hal, rfl⟩
  · exact ⟨hal, rfl⟩

theorem passShown_status (o : OpenSet) (ks : List Nat) (p : Nat) (u : State) :
    (passShown o ks p u).rd AL_STATUS_LAST_TICK = o.tick % 4800 ∧ (passShown o ks p u).rd AL_STATUS_LAST_GROUP = o.group % 64 := by
  unfold passShown
  refine ⟨?_, State.rd_wr_self _ AL_STATUS_LAST_GROUP _ ⟨by decide, by decide⟩⟩
  rw [State.rd_wr_apart _ _ _ _ ⟨by decide, by decide⟩ (.inr (.inl (by decide))), State.rd_wr_self _ _ _ ⟨by decide, by decide⟩]
  exact Nat.mod_eq_of_lt (Nat.lt_trans (Nat.mod_lt _ (by decide)) (by decide))

/-- A set whose tick the group has passed, and that is not among the open ones, is closed. -/
theorem State.closedSet_of {grp g : Nat} (hg : g < agetD s.al.closed grp 0)
    (hs : ∀ x ∈ s.al.sets, (x.tick == g && x.group == grp) = false) :
    s.closedSet grp g = true := by
  rw [State.closedSet, decide_eq_true hg, Bool.true_and, List.any_eq_false.2 fun x hx => by rw [hs x hx]; decide]
  rfl

theorem exec_closurePass {o : OpenSet} (hruns : s.runs 6 = true) (hdue : s.dueSet = some o) (hon : s.on AL_CTRL_EN = true)
    (hfree : s.al.passFree ≤ s.cyc) : exec .closurePass s = .next (closePass o s) := by
  refine (whileOn_runs hruns).trans ?_
  rw [hdue]
  exact if_pos ⟨hon, hfree⟩

/-- What a pass leaves: its set closed and gone, the port held for its cycles, and AL_STATUS (R171). -/
theorem closePass_leaves (o : OpenSet) (s : State) :
    (closePass o s).al.sets = s.al.sets.filter (fun x => !(x.tick == o.tick && x.group == o.group)) ∧
      (closePass o s).al.passFree = s.cyc + (8 + ceilDiv (s.groupStreams o.group).length 4) ∧
      (closePass o s).al.netFree = max s.al.netFree (closePass o s).al.passFree ∧ (closePass o s).closedSet o.group o.tick = true ∧
      (closePass o s).rd AL_STATUS_LAST_TICK = o.tick % 4800 ∧ (closePass o s).rd AL_STATUS_LAST_GROUP = o.group % 64 := by
  obtain ⟨u, hkept, hend⟩ := closePass_stages o s
  obtain ⟨hsets, hrest⟩ := Prod.mk.inj hkept
  obtain ⟨hnet, hpass⟩ := Prod.mk.inj hrest
  obtain ⟨hal, hregs⟩ := passEnd_shown o (s.groupStreams o.group) (s.passCycles o.group) u
  obtain ⟨htick, hgroup⟩ := passShown_status o (s.groupStreams o.group) (s.passCycles o.group) u
  rw [← hend] at hal hregs
  generalize closePass o s = t at hal hregs
  have hrd (f : Fld) : t.rd f = (passShown o (s.groupStreams o.group) (s.passCycles o.group) u).rd f := by
    rw [State.rd, State.word, hregs, State.rd, State.word]
  have hclosed : o.tick < agetD t.al.closed o.group 0 := by
    rw [hal, passClosed, agetD_aput_self]
    exact Nat.le_max_right ..
  have hset : t.al.sets = s.al.sets.filter (fun x => !(x.tick == o.tick && x.group == o.group)) := by rw [hal]; exact hsets
  have hfree : t.al.passFree = s.cyc + s.passCycles o.group := by rw [hal]; exact hpass
  refine ⟨hset, hfree, ?_, State.closedSet_of hclosed fun x hx => ?_, by rw [hrd, htick], by rw [hrd, hgroup]⟩
  · rw [hfree, hal]
    exact hnet
  · rw [hset] at hx
    exact (Bool.not_eq_true' _).mp (List.mem_filter.1 hx).2

end

end Sys2Proof.Machine
end

section
/-!
Alignment's commands and the registers of its page, row by row (R164–R168, R171, R185, R287).
-/
namespace Sys2Proof.Machine

/-! ### A sample written whole (R167) -/

section
variable {x : Sample} {rest : List Sample} {b r : List Byte} {g : Nat} {s : State}

/-- The network port's queue after its head has been taken. -/
def State.popNet (s : State) (rest : List Sample) : State := { s with al := { s.al with netQ := rest } }

theorem State.popNet_stream (k : Nat) : (s.popNet rest).stream k = s.stream k := rfl
theorem State.popNet_record? (k g : Nat) : (s.popNet rest).record? k g = s.record? k g := rfl
theorem State.popNet_tooLate (grp g : Nat) : (s.popNet rest).tooLate grp g = s.tooLate grp g := rfl
theorem State.popNet_tickSkipped (g : Nat) : (s.popNet rest).tickSkipped g = s.tickSkipped g := rfl
theorem State.popNet_overruled (k g : Nat) (r : List Byte) : (s.popNet rest).overruled k g r = s.overruled k g r := rfl

/-- The turn of such a sample as it stands at the head of the queue. -/
theorem takeSample_popNet (hb : b = s.stream x.stream) (hvalid : dValid b = true) (hrate : dRate b = 1) (hraw : x.raw = none)
    (hg : g = x.abs 4800) (hnew : s.record? x.stream g = none) (htime : s.tooLate (dGroup b) g = false)
    (hr : r = mkRecord ((scaled b x).map (fun p => p.1)) ((scaled b x).map (fun p => p.2)) g recPresent
      (b2n x.sim * 16 + b2n (s.tickSkipped g) * 8 + b2n (x.early 4800) * 4) x.smpCnt 0 x.synch (x.transit 4800))
    (hauth : s.overruled x.stream g r = none) : takeSample x (s.popNet rest) = (32, pantryTurn x g b r (s.popNet rest)) := by
  rw [← s.popNet_stream (rest := rest)] at hb
  rw [← s.popNet_record? (rest := rest)] at hnew
  rw [← s.popNet_tooLate (rest := rest)] at htime
  rw [← s.popNet_tickSkipped (rest := rest)] at hr
  rw [← s.popNet_overruled (rest := rest)] at hauth
  exact takeSample_written hb hvalid hrate hraw hg hnew htime hr hauth

/-- A sample written whole: bytes 0–47 of its record stand, bytes 48–63 wait, and the port is busy for 32 cycles. -/
theorem pantryWrite_net_written (hruns : s.runs 6 = true) (hon : s.on AL_CTRL_EN = true) (hq : s.al.netQ = x :: rest)
    (hx : x.cyc ≤ s.cyc) (hfree : s.al.netFree ≤ s.cyc) (hmeets : s.meetsPass 32 = false) (hmask : dCmask b = 0) (hr : r.length = 64)
    (hturn : takeSample x (s.popNet rest) = (32, pantryTurn x g b r (s.popNet rest))) :
    Answers (exec (.pantryWrite none) s) (fun t =>
      t.load (recAddr x.stream g) 48 = r.take 48 ∧ (s.cyc + 31, recAddr x.stream g + 48, r.drop 48) ∈ t.al.tails ∧
      t.al.netFree = s.cyc + 32 ∧ t.al.netQ = rest) := by
  have hexec := exec_pantryWrite_net hruns hon hq hx hfree (u := s.popNet rest) rfl
  rw [hturn, hmeets] at hexec
  obtain ⟨hload, htail, hqueue⟩ := pantryWrite_begins x.stream g hmask hr (s.popNet rest)
  obtain ⟨hal, hmem⟩ := (pantryTurn_capEvents x g b r (s.popNet rest)).al_mem
  rw [← hal] at htail hqueue
  exact ⟨_, hexec, (State.load_congr fun _ _ _ => State.memByte_of_mem hmem).trans hload, htail, rfl, hqueue⟩

end

/-! ### The registers of the page -/

section
variable {s : State} {req : Requester} (hw : s.Writer req) (hdom : s.dom 6 = 1)
include hw hdom

/-- A refused WRITE raises its event and stores nothing (R166). -/
theorem alStrWrite_refused {b : List Byte} (hb : b = dStored (s.dataBytes 0x500040 16)) (hvalid : dValid s.strSel = true)
    (hother : sameFixed s.strSel b = false) : Answers (exec (.alStrWrite req) s) (fun t => t.on AL_EVENT_REFUSED = true ∧
      RegsKept [AL_EVENT_REFUSED.addr, 0x30010] s t ∧ t = s.withAccess t) := by
  refine ⟨_, exec_alStrWrite hw hdom, ?_⟩
  rw [alStrCmd_write_refused hw.2 hb hvalid hother]
  have hkept : RegsKept [AL_EVENT_REFUSED.addr, 0x30010] s (s.alEvent AL_EVENT_REFUSED) :=
    (RegsKept.refl _ s).event (by decide) (by decide)
  refine ⟨?_, hkept.wrote _ _ _, ((EventsOnly.refl s).event _ _).wrote ..⟩
  rw [State.wrote_on]
  exact s.on_event_self _ _ (by decide) (by decide)

/-- A write of AL_CTRL stores its fields, and switches alignment where EN changes (R185). -/
theorem alCtrlWrite_answers (v : Word) : Answers (exec (.alCtrlWrite req v) s) (fun t =>
    t.on AL_CTRL_EN = bit v.toNat 31 ∧ t.on AL_CTRL_CONCEAL_EN = bit v.toNat 30 ∧ t.al = s.alSwitched (bit v.toNat 31) ∧
      RegsKept [0x500000] s t ∧ t = { s.withAccess t with al := t.al }) := by
  obtain ⟨hen, hconceal⟩ := s.swPut_alCtrl v.toNat
  refine ⟨_, exec_alCtrlWrite hw hdom v, ?_⟩
  rw [alCtrlWriteOp_eq]
  refine ⟨?_, ?_, State.wrote_al .., ((s.swPut_regsKept _ _).withAl _).wrote _ _ _, ((EventsOnly.refl s).swPut _ _).withAl_wrote ..⟩
  · rw [State.wrote_on, State.withAl_on, hen]
  · rw [State.wrote_on, State.withAl_on, hconceal]

theorem alGroupWrite_answers (g : Fin 64) (v : Word) : Answers (exec (.alGroupWrite req g v) s) (fun t =>
    t.rd (AL_GROUP_W_US.i g) = clampN 50 1500 (v.toNat % 2048) ∧ t.on (AL_GROUP_EN.i g) = bit v.toNat 31 ∧
      t.on (AL_GROUP_FNOM.i g) = bit v.toNat 30 ∧ RegsKept [(AL_GROUP_W_US.i g).addr] s t ∧ t = s.withAccess t) := by
  obtain ⟨hwidth, hen, hfnom⟩ := s.storeGroup_shows g v.toNat
  refine ⟨_, exec_alGroupWrite hw hdom g v, ?_, ?_, ?_, (s.storeGroup_regsKept g v.toNat).wrote _ _ _,
    (s.storeGroup_events g v.toNat).wrote ..⟩
  · rw [State.wrote_rd, hwidth]
  · rw [State.wrote_on, hen]
  · rw [State.wrote_on, hfnom]

end

/-! ### The statement -/

/-- Settles O28: the turns of the ports, the pass, and the page's registers in the order of the statement. -/
theorem alignmentCommands : Obligations.AlignmentCommands := by
  refine ⟨?net, ?bank, ?record, ?pass, ?registers⟩
  case net => exact fun x rest s u hruns hon hq hx hfree hu => exec_pantryWrite_net hruns hon hq hx hfree hu
  case bank => exact fun k x rest s u hruns hon hq hx hu => exec_pantryWrite_local hruns hon hq hx hu
  case record =>
    intro x rest b r g s hruns hon hq hx hfree hmeets hb hvalid hrate hraw hg hnew htime _ hmask hr hauth
    exact pantryWrite_net_written hruns hon hq hx hfree hmeets hmask (hr ▸ mkRecord_length ..)
      (takeSample_popNet hb hvalid hrate hraw hg hnew htime hr hauth)
  case pass =>
    exact fun o s hruns hdue hon hfree => ⟨_, exec_closurePass hruns hdue hon hfree, rfl, closePass_leaves o s⟩
  case registers =>
    intro req s hw hdom
    refine ⟨exec_alStrRead hw hdom, fun b hb => ⟨fun hnew => ?new, fun hvalid hsame => ?same, alStrWrite_refused hw hdom hb⟩,
      ?invalidate, ?latch, fun v => ?ctrl, alGroupWrite_answers hw hdom⟩
    case new =>
      refine ⟨_, exec_alStrWrite hw hdom, ?_⟩
      rw [alStrCmd_write_new hw.2 hb hnew]
      exact State.setStream_wrote ..
    case same =>
      obtain ⟨next, hcmd⟩ := alStrCmd_write_same hw.2 hb hvalid hsame
      obtain ⟨hstr, hrest⟩ := s.setStream_wrote (s.rd AL_STR_IDX_IDX) { bytes := b, next := next } req 0x500014 2
      rw [← hcmd] at hstr hrest
      exact ⟨_, exec_alStrWrite hw hdom, State.stream_of_aget hstr, hrest⟩
    case invalidate =>
      obtain ⟨hstr, hrest⟩ := s.setStream_wrote (s.rd AL_STR_IDX_IDX) s.strEnded req 0x500014 3
      rw [← alStrCmd_invalidate hw.2] at hstr hrest
      exact ⟨_, exec_alStrInvalidate hw hdom, State.stream_of_aget hstr, by rw [hstr]; rfl, hrest⟩
    case latch =>
      rintro v a rfl
      obtain ⟨hev, hwords⟩ := alCntIdx_latches v.toNat s
      refine ⟨_, exec_alCntLatch hw hdom v, fun i hi => ?_, hev.wrote ..⟩
      rw [State.wrote_word, State.wrote_word]
      exact hwords i hi
    case ctrl =>
      obtain ⟨t, hexec, hen, hconceal, hal, hkept, hframe⟩ := alCtrlWrite_answers hw hdom v
      refine ⟨t, hexec, hen, hconceal, fun hwas hnow => ?_, fun hwas hnow => ?_, fun hsame => ?_, hkept, hframe⟩
      · rw [hal, State.alSwitched, if_pos ⟨hwas, hnow⟩]
      · rw [hal, State.alSwitched, if_neg (by simp [hwas]), if_pos ⟨hwas, hnow⟩]
      · rw [hal, State.alSwitched, if_neg (by simp [hsame]), if_neg (by simp [hsame])]

end Sys2Proof.Machine
end

section
/-!
The AQ_ page's layer (R192, R198, R209): how an access of the page reaches its operation, updates of registers, events and
acquisition's tables, and what a settle cause leaves.
-/
namespace Sys2Proof.Machine

/-! ### Accesses of the page -/

section
variable {s t : State} {req : Requester} {k v d : Nat}

/-- A register of the AQ_ page answers one who may write. -/
theorem writeReg_aq (hw : s.Writer req) (hdom : s.dom 12 = 1) (h5120 : s.is5120 = false) (hk : k < 0x10000)
    (hd : (descIn .aq 0 k).isSome = true) (hv : v < 2 ^ 32) :
    writeReg req (0x900000 + k) v s = (aqWrite req k v s).wrote req (0x900000 + k) v := by
  have hpage : (0x900000 + k) / 0x10000 = 0x90 := by omega
  have hoff : (0x900000 + k) % 0x10000 = k := by omega
  have h := writeReg_served (o := 0x900000 + k) (b := .aq) (i := 0) hw (by omega) (by rw [hpage]; rfl) (.inr hdom)
    (by rw [hoff]; exact hd) (.inr h5120) hv
  rwa [hoff] at h

/-- AQ_TDC_W3 has a reading of its own. -/
theorem readReg_tdcW3 (hr : s.Reaches req) (hdom : s.dom 12 = 1) (h5120 : s.is5120 = false) (hread : aqRead 0x9C s = some (d, t))
    (hcal : t.CalServed) : readReg req 0x90009C s = t.gave req 0x90009C d := by
  have hread' : regRead .aq 0 req 0x9C 0x90 s = (some d, t) := by simp only [regRead, pageRead, hread, Option.map_some]
  exact readReg_served (b := .aq) (i := 0) hr (by decide) rfl (.inr hdom) (by decide) (.inr h5120) (by decide) hread' hcal

end

/-! ### Updates of registers, events and acquisition's tables -/

/-- Nothing but registers, the event delivery and acquisition's tables has changed. -/
def AqEvents (s t : State) : Prop := t = { s.withEvents t with aq := t.aq }

section
variable {s t u : State}

theorem AqEvents.refl (s : State) : AqEvents s s := rfl

theorem AqEvents.trans (h : AqEvents s t) (h' : AqEvents t u) : AqEvents s u := by
  unfold AqEvents at h h'
  rw [h', h]
  rfl

theorem EventsOnly.aqEvents (h : EventsOnly s t) : AqEvents s t := by
  rw [AqEvents, h]
  rfl

theorem EventsOnly.aq_eq (h : EventsOnly s t) : t.aq = s.aq := by
  rw [h]
  rfl

theorem EventsOnly.aqCh_eq (h : EventsOnly s t) (c : Nat) : t.aqCh c = s.aqCh c := by
  rw [State.aqCh, h.aq_eq, State.aqCh]

theorem EventsOnly.aqEvent (h : EventsOnly s t) (f : Fld) : EventsOnly s (t.aqEvent f) := h.event f ES_AQ

theorem AqEvents.wr (h : AqEvents s t) (f : Fld) (v : Nat) : AqEvents s (t.wr f v) := h.trans rfl
theorem AqEvents.setAqCh (h : AqEvents s t) (c : Nat) (x : AqCh) : AqEvents s (t.setAqCh c x) := h.trans rfl
theorem AqEvents.settle (h : AqEvents s t) (c cause : Nat) : AqEvents s (t.settle c cause) := (h.setAqCh c _).wr _ _

theorem AqEvents.ite {c : Prop} [Decidable c] (h : AqEvents s t) (h' : AqEvents s u) : AqEvents s (if c then t else u) := by
  split
  · exact h
  · exact h'

/-- What a completed write of such an update leaves. -/
theorem AqEvents.wrote (h : AqEvents s t) (r : Requester) (o v : Nat) :
    t.wrote r o v = { s.withAccess (t.wrote r o v) with aq := (t.wrote r o v).aq } := by
  rw [State.wrote_frame, h]
  rfl

/-- An event of acquisition touches AQ_EVENT and the first pending word (R210, R486). -/
theorem RegsKept.aqEvent {l : List Nat} (h : RegsKept l s t) {f : Fld} (hf : f.addr ∈ l) (he : 0x30010 ∈ l) :
    RegsKept l s (t.aqEvent f) := h.event hf he

theorem State.wrote_aqCh (s : State) (r : Requester) (o v c : Nat) : (s.wrote r o v).aqCh c = s.aqCh c := by
  rw [State.aqCh, State.wrote_aq, State.aqCh]

theorem State.gave_aqCh (s : State) (r : Requester) (o v c : Nat) : (s.gave r o v).aqCh c = s.aqCh c := by
  rw [State.aqCh, State.gave_aq, State.aqCh]

theorem State.wr_aqCh (s : State) (f : Fld) (v c : Nat) : (s.wr f v).aqCh c = s.aqCh c := by
  rw [State.aqCh, State.wr_aq, State.aqCh]

theorem State.setAqCh_aqCh_self (s : State) (c : Nat) (x : AqCh) : (s.setAqCh c x).aqCh c = x := agetD_aput_self ..

theorem State.setAqCh_aqCh_ne (s : State) {c k : Nat} (x : AqCh) (h : k ≠ c) : (s.setAqCh c x).aqCh k = s.aqCh k :=
  agetD_aput_ne _ _ _ h

/-- The state with acquisition's tables replaced. -/
def State.withAq (s : State) (a : Aq) : State := { s with aq := a }

theorem AqEvents.withAq (h : AqEvents s t) (a : Aq) : AqEvents s (t.withAq a) := h.trans rfl
theorem RegsKept.withAq {l : List Nat} (h : RegsKept l s t) (a : Aq) : RegsKept l s (t.withAq a) := h

/-- The state with the banks' next samples replaced. -/
def State.withNext (s : State) (n : List (Nat × Nat)) : State := s.withAq { s.aq with next := n }

theorem State.withNext_on (s : State) (n : List (Nat × Nat)) (f : Fld) : (s.withNext n).on f = s.on f := rfl
theorem State.withNext_ch (s : State) (n : List (Nat × Nat)) : (s.withNext n).aq.ch = s.aq.ch := rfl
theorem AqEvents.withNext (h : AqEvents s t) (n : List (Nat × Nat)) : AqEvents s (t.withNext n) := h.trans rfl
theorem RegsKept.withNext {l : List Nat} (h : RegsKept l s t) (n : List (Nat × Nat)) : RegsKept l s (t.withNext n) := h

end

/-! ### Settle causes (R198) -/

section
variable {s : State}

/-- The register that keeps the last settle cause of channel `c`. -/
def causeReg (c : Nat) : Nat := (AQ_CH_CAUSE.i c).addr

theorem causeReg_eq (c : Nat) : causeReg c = 0x90011C + c * 0x20 := rfl

theorem causeReg_ne {c k : Nat} (h : k ≠ c) : causeReg k ≠ causeReg c := by
  rw [causeReg_eq, causeReg_eq]
  omega

theorem chCfg_ne_causeReg (c k : Nat) : (AQ_CH_EN.i c).addr ≠ causeReg k := by
  change 0x900100 + c * 0x20 ≠ 0x90011C + k * 0x20
  omega

theorem bank_ne_causeReg {b : Nat} (hb : b < 4) (k : Nat) : (AQ_BANK_SETTLE.i b).addr ≠ causeReg k := by
  change 0x900010 + b * 4 ≠ 0x90011C + k * 0x20
  omega

theorem State.settle_regsKept (s : State) (c cause : Nat) : RegsKept [causeReg c] s (s.settle c cause) :=
  (RegsKept.refl _ _).wr _ (.head _)

theorem State.settle_aqCh_ne (s : State) {c k : Nat} (cause : Nat) (h : k ≠ c) : (s.settle c cause).aqCh k = s.aqCh k :=
  (State.wr_aqCh ..).trans (s.setAqCh_aqCh_ne _ h)

/-- Causes 1 to 4 share the channel's first settling count. -/
theorem State.settle_left (s : State) (c : Nat) {cause : Nat} (h : cause < 5) :
    ((s.settle c cause).aqCh c).left = s.rd (AQ_BANK_SETTLE.i (c / 8)) := by
  have hx : (s.settle c cause).aqCh c = (s.aqCh c).mark cause (s.rd (AQ_BANK_SETTLE.i (c / 8))) :=
    (State.wr_aqCh ..).trans (s.setAqCh_aqCh_self ..)
  rw [hx, AqCh.mark, if_neg (by omega), if_neg (by omega)]

theorem State.settle_cause (s : State) (c : Nat) {cause : Nat} (h : cause < 8) : (s.settle c cause).rd (AQ_CH_CAUSE.i c) = cause :=
  (State.rd_wr_i_self _ AQ_CH_CAUSE c cause ⟨by decide, by decide⟩).trans (Nat.mod_eq_of_lt h)

/-- In `t` channel `c` has been marked with settle cause `cause`, with the settling count that its bank has in `s`. -/
def Marked (c cause : Nat) (s t : State) : Prop :=
  (t.aqCh c).left = s.rd (AQ_BANK_SETTLE.i (c / 8)) ∧ t.rd (AQ_CH_CAUSE.i c) = cause

theorem State.settleAll_cons (s : State) (c : Nat) (cs : List Nat) (cause : Nat) :
    s.settleAll (c :: cs) cause = (if s.on (AQ_CH_EN.i c) then s.settle c cause else s).settleAll cs cause := rfl

theorem State.settleAll_regsKept (s : State) (cs : List Nat) (cause : Nat) :
    RegsKept (cs.map causeReg) s (s.settleAll cs cause) := by
  induction cs generalizing s with
  | nil => exact .refl _ s
  | cons c cs ih =>
    rw [State.settleAll_cons]
    refine RegsKept.trans (.ite ((s.settle_regsKept c cause).mono ?_) (.refl _ s)) (ih _) fun a ha => .tail _ ha
    exact fun a ha => List.mem_singleton.1 ha ▸ .head _

theorem State.settleAll_aqEvents (s : State) (cs : List Nat) (cause : Nat) : AqEvents s (s.settleAll cs cause) :=
  List.foldlRecOn cs _ (motive := AqEvents s) (.refl s) fun _ h c _ => .ite (h.settle c cause) h

theorem State.settleAll_aqCh_ne (s : State) {c : Nat} {cs : List Nat} (cause : Nat) (h : c ∉ cs) :
    (s.settleAll cs cause).aqCh c = s.aqCh c := by
  refine List.foldlRecOn cs _ (motive := fun t : State => t.aqCh c = s.aqCh c) rfl fun t ht k hk => ?_
  rw [← ht]
  split
  · exact t.settle_aqCh_ne cause (ne_of_mem_of_not_mem hk h).symm
  · rfl

/-- Every enabled channel among those named is marked. -/
theorem State.settleAll_marks {c cause : Nat} {cs : List Nat} (hcause : cause < 5) (hbank : c / 8 < 4) (s : State) (hc : c ∈ cs)
    (hon : s.on (AQ_CH_EN.i c) = true) : Marked c cause s (s.settleAll cs cause) := by
  induction cs generalizing s with
  | nil => exact absurd hc List.not_mem_nil
  | cons d cs ih =>
    rw [State.settleAll_cons]
    by_cases hm : c ∈ cs
    · have hkept : RegsKept [causeReg d] s (if s.on (AQ_CH_EN.i d) then s.settle d cause else s) :=
        .ite (s.settle_regsKept d cause) (.refl _ s)
      have hset := hkept.rd (AQ_BANK_SETTLE.i (c / 8)) (by simpa using bank_ne_causeReg hbank d)
      have hen := hkept.on (AQ_CH_EN.i c) (by simpa using chCfg_ne_causeReg c d)
      obtain ⟨hleft, hlast⟩ := ih _ hm (hen.trans hon)
      exact ⟨hleft.trans hset, hlast⟩
    · obtain rfl : c = d := (List.mem_cons.1 hc).resolve_right hm
      have hlast : causeReg c ∉ cs.map causeReg := by
        rintro hin
        obtain ⟨k, hk, he⟩ := List.mem_map.1 hin
        exact causeReg_ne (ne_of_mem_of_not_mem hk hm) he
      rw [if_pos hon]
      refine ⟨?_, ?_⟩
      · rw [State.settleAll_aqCh_ne _ _ hm, s.settle_left c hcause]
      · rw [(State.settleAll_regsKept _ cs cause).rd (AQ_CH_CAUSE.i c) hlast, s.settle_cause c (by omega)]

end

end Sys2Proof.Machine
end

section
/-!
The registers of the AQ_ page (R192, R198, R209): banks, buffers, channels, AQ_CTRL and the stamp queue, row by row.
-/
namespace Sys2Proof.Machine

/-! ### What the page does with a write -/

section
variable {s : State} {req : Requester} {v : Nat}

theorem aqWrite_ctrl (h : s.mayWrite req = true) : aqWrite req 0 v s = aqCtrl v s := by
  simp [aqWrite, h]

theorem aqWrite_bank (h : s.mayWrite req = true) (b : Fin 4) : aqWrite req (0x10 + 4 * b) v s = aqBank b v s := by
  have hb : (0x10 + 4 * b.val - 0x10) / 4 = b := by omega
  unfold aqWrite
  rw [if_neg (by simp [h]), if_neg (by omega), if_pos (by omega), hb]

/-- The buffer block of an enabled bank takes no write (R192). -/
theorem aqWrite_buffer_refused (h : s.mayWrite req = true) (b : Fin 4) {o : Nat} (ho : o < 0x10)
    (hon : s.on (AQ_BANK_EN.i b) = true) : aqWrite req (0x40 + 0x10 * b + o) v s = s.aqEvent AQ_EVENT_REFUSED := by
  have hb : (0x40 + 0x10 * b.val + o - 0x40) / 0x10 = b := by omega
  unfold aqWrite
  rw [if_neg (by simp [h]), if_neg (by omega), if_neg (by omega), if_pos (by omega), hb]
  exact if_pos hon

theorem aqWrite_bufferBase (h : s.mayWrite req = true) (b : Fin 4) (hoff : s.on (AQ_BANK_EN.i b) = false) :
    aqWrite req (0x40 + 0x10 * b) v s = s.swPut (0x900040 + 0x10 * b) v := by
  have hb : (0x40 + 0x10 * b.val - 0x40) / 0x10 = b := by omega
  have ha : 0x900000 + (0x40 + 0x10 * b.val) = 0x900040 + 0x10 * b := by omega
  unfold aqWrite
  rw [if_neg (by simp [h]), if_neg (by omega), if_neg (by omega), if_pos (by omega), hb, ha]
  dsimp only
  rw [if_neg (by rw [hoff]; decide), if_neg (by omega)]

theorem aqWrite_chCfg (h : s.mayWrite req = true) (c : Fin 32) : aqWrite req (0x100 + 0x20 * c) v s = aqChCfg c v s := by
  have hc : (0x100 + 0x20 * c.val - 0x100) / 0x20 = c := by omega
  unfold aqWrite
  rw [if_neg (by simp [h]), if_neg (by omega), if_neg (by omega), if_neg (by omega), if_pos (by omega), hc]

end

/-! ### AQ_BANK (R189, R192, R198) -/

section
variable {s : State}

theorem regDesc_aqBank (b : Fin 4) : regDesc (0x900010 + 4 * b) =
    some ⟨0x10, 0x4, 4, [⟨31, 31, .rw, 0x0⟩, ⟨27, 26, .rw, 0x1⟩, ⟨25, 24, .rw, 0x0⟩, ⟨14, 8, .ro, 0x5⟩]⟩ := by
  revert b
  decide

theorem settleCount_lt (preset notch : Nat) : settleCount preset notch < 128 := by
  unfold settleCount
  split <;> decide

/-- AQ_BANK of a disabled bank as a write stores it, with the settling count of the preset and notch written. -/
def State.storeBank (s : State) (b v : Nat) : State :=
  (s.swPut (0x900010 + 4 * b) v).wr (AQ_BANK_SETTLE.i b) (settleCount (bits v 27 26) (bits v 25 24))

theorem bankReg_eq (b : Nat) : (AQ_BANK_EN.i b).addr = 0x900010 + 4 * b := congrArg (0x900010 + ·) (Nat.mul_comm ..)

/-- What the registers of bank `b` show after a write of `v`. -/
structure BankStored (b v : Nat) (t : State) : Prop where
  enabled : t.on (AQ_BANK_EN.i b) = bit v 31
  preset : t.preset b = bits v 27 26
  notch : t.rd (AQ_BANK_NOTCH.i b) = bits v 25 24
  settle : t.rd (AQ_BANK_SETTLE.i b) = settleCount (bits v 27 26) (bits v 25 24)

/-- Whatever leaves the bank's register leaves what it shows. -/
theorem BankStored.of_word {b v : Nat} {t u : State} (h : BankStored b v t)
    (hw : u.word (AQ_BANK_EN.i b).addr = t.word (AQ_BANK_EN.i b).addr) :
    BankStored b v u where
  enabled := (State.on_of_word hw).trans h.enabled
  preset := (State.rd_of_word (f := AQ_BANK_PRESET.i b) hw).trans h.preset
  notch := (State.rd_of_word (f := AQ_BANK_NOTCH.i b) hw).trans h.notch
  settle := (State.rd_of_word (f := AQ_BANK_SETTLE.i b) hw).trans h.settle

theorem State.storeBank_stored (s : State) (b : Fin 4) (v : Nat) : BankStored b v (s.storeBank b v) := by
  have hfield (f : FieldDesc) (hf : f ∈ [⟨31, 31, .rw, 0x0⟩, ⟨27, 26, .rw, 0x1⟩, ⟨25, 24, .rw, 0x0⟩, ⟨14, 8, .ro, 0x5⟩])
      (hrw : f.acc = .rw) :
      bits ((s.swPut (0x900010 + 4 * b) v).word (AQ_BANK_EN.i b).addr) f.hi f.lo = bits v f.hi f.lo := by
    rw [bankReg_eq]
    exact s.swPut_field (regDesc_aqBank b) hf hrw (by decide) (by decide)
  unfold State.storeBank
  refine ⟨?_, ?_, ?_, ?_⟩
  · rw [State.on_wr_i _ AQ_BANK_SETTLE AQ_BANK_EN b _ ⟨by decide, by decide⟩ (.inr (.inl (by decide)))]
    exact State.on_of_bits (hfield ⟨31, 31, .rw, 0x0⟩ (by decide) rfl)
  · rw [State.preset, State.rd_wr_i _ AQ_BANK_SETTLE AQ_BANK_PRESET b _ ⟨by decide, by decide⟩ (.inr (.inl (by decide)))]
    exact hfield ⟨27, 26, .rw, 0x1⟩ (by decide) rfl
  · rw [State.rd_wr_i _ AQ_BANK_SETTLE AQ_BANK_NOTCH b _ ⟨by decide, by decide⟩ (.inr (.inl (by decide)))]
    exact hfield ⟨25, 24, .rw, 0x0⟩ (by decide) rfl
  · rw [State.rd_wr_i_self _ AQ_BANK_SETTLE b _ ⟨by decide, by decide⟩]
    exact Nat.mod_eq_of_lt (settleCount_lt ..)

theorem State.storeBank_regsKept (s : State) (b v : Nat) : RegsKept [(AQ_BANK_EN.i b).addr] s (s.storeBank b v) :=
  RegsKept.wr (bankReg_eq b ▸ s.swPut_regsKept _ v) _ (.head _)

theorem State.storeBank_events (s : State) (b v : Nat) : EventsOnly s (s.storeBank b v) := ((EventsOnly.refl s).swPut _ _).wr _ _

/-- A disabled bank with its register stored; a change of the preset drops the bank's next sample. -/
def State.setUpBank (s : State) (b v : Nat) : State :=
  if bits v 27 26 != s.preset b then (s.storeBank b v).withNext (adel (s.storeBank b v).aq.next b) else s.storeBank b v

theorem State.setUpBank_eq (s : State) (b v : Nat) : ∃ n, s.setUpBank b v = (s.storeBank b v).withNext n := by
  unfold State.setUpBank
  split
  · exact ⟨_, rfl⟩
  · exact ⟨(s.storeBank b v).aq.next, rfl⟩

theorem bankStart_eq (b : Nat) (s : State) : ∃ n, bankStart b s = s.withNext n := ⟨_, rfl⟩

theorem aqBank_disabled {b v : Nat} (hoff : s.on (AQ_BANK_EN.i b) = false) : aqBank b v s =
    if (s.setUpBank b v).on (AQ_BANK_EN.i b) then
      (if (s.setUpBank b v).on AQ_CTRL_EN then bankStart b (s.setUpBank b v) else s.setUpBank b v).settleAll
        ((List.range 8).map (fun i => 8 * b + i)) 1
    else s.setUpBank b v := by
  unfold aqBank
  simp only [hoff, Bool.false_eq_true, false_and, if_false, Bool.not_false, true_and]
  rfl

/-- A write of a disabled bank stores its register; where it enables the bank, the bank's channels are marked. -/
theorem aqBank_stores {b v : Nat} (hoff : s.on (AQ_BANK_EN.i b) = false) (hen : (s.storeBank b v).on (AQ_BANK_EN.i b) = bit v 31) :
    ∃ n, aqBank b v s = if bit v 31 then ((s.storeBank b v).withNext n).settleAll ((List.range 8).map (fun i => 8 * b + i)) 1
      else (s.storeBank b v).withNext n := by
  obtain ⟨n, hn⟩ := s.setUpBank_eq b v
  obtain ⟨m, hm⟩ := bankStart_eq b ((s.storeBank b v).withNext n)
  rw [aqBank_disabled hoff, hn, State.withNext_on, hen, hm]
  split
  · split
    · exact ⟨m, rfl⟩
    · exact ⟨n, rfl⟩
  · exact ⟨n, rfl⟩

/-- What a write of a disabled bank leaves (R192, R198). -/
theorem aqBank_leaves (b : Fin 4) {v : Nat} (hoff : s.on (AQ_BANK_EN.i b) = false) :
    BankStored b v (aqBank b v s) ∧ AqEvents s (aqBank b v s) ∧
      (bit v 31 = false → RegsKept [(AQ_BANK_EN.i b).addr] s (aqBank b v s) ∧ (aqBank b v s).aq.ch = s.aq.ch) ∧
      (bit v 31 = true → ∀ i, i < 8 → s.on (AQ_CH_EN.i (8 * b + i)) = true →
        ((aqBank b v s).aqCh (8 * b + i)).left = settleCount (bits v 27 26) (bits v 25 24) ∧
          (aqBank b v s).rd (AQ_CH_CAUSE.i (8 * b + i)) = 1) := by
  obtain ⟨n, hn⟩ := aqBank_stores hoff (s.storeBank_stored b v).enabled
  have hst : BankStored b v ((s.storeBank b v).withNext n) := (s.storeBank_stored b v).of_word rfl
  have hregs := (s.storeBank_regsKept b v).withNext n
  have hev := (s.storeBank_events b v).aqEvents.withNext n
  have hch : ((s.storeBank b v).withNext n).aq.ch = s.aq.ch := by
    rw [State.withNext_ch, (s.storeBank_events b v).aq_eq]
  generalize (s.storeBank b v).withNext n = u at *
  cases hbit : bit v 31 with
  | false =>
    rw [hbit, if_neg Bool.false_ne_true] at hn
    rw [hn]
    exact ⟨hst, hev, fun _ => ⟨hregs, hch⟩, fun h => absurd h Bool.false_ne_true⟩
  | true =>
    rw [hbit, if_pos rfl] at hn
    rw [hn]
    have hkept := u.settleAll_regsKept ((List.range 8).map (fun i => 8 * b.val + i)) 1
    refine ⟨hst.of_word (hkept _ ?_), hev.trans (u.settleAll_aqEvents _ _), fun h => absurd h.symm Bool.false_ne_true,
      fun _ i hi hon => ?_⟩
    · intro hin
      obtain ⟨k, -, hk⟩ := List.mem_map.1 hin
      exact bank_ne_causeReg b.isLt k hk.symm
    · have hbank : (8 * b.val + i) / 8 = b := by omega
      have hen : (AQ_CH_EN.i (8 * b.val + i)).addr ∉ [(AQ_BANK_EN.i b).addr] := by
        have hne : 0x900100 + (8 * b.val + i) * 0x20 ≠ 0x900010 + b.val * 4 := by omega
        exact fun hin => hne (List.mem_singleton.1 hin)
      obtain ⟨hleft, hcause⟩ := u.settleAll_marks (c := 8 * b.val + i) (cause := 1) (by decide) (by omega)
        (List.mem_map.2 ⟨i, List.mem_range.2 hi, rfl⟩) ((hregs.on _ hen).trans hon)
      rw [hbank, hst.settle] at hleft
      exact ⟨hleft, hcause⟩

/-- An enabled bank keeps its preset and notch (R192). -/
theorem aqBank_refused {b v : Nat} (hon : s.on (AQ_BANK_EN.i b) = true)
    (hne : bits v 27 26 ≠ s.preset b ∨ bits v 25 24 ≠ s.rd (AQ_BANK_NOTCH.i b)) : aqBank b v s = s.aqEvent AQ_EVENT_REFUSED :=
  if_pos ⟨hon, hne⟩

theorem regDesc_bufferBase (b : Fin 4) : regDesc (0x900040 + 0x10 * b) = some ⟨0x40, 0x10, 4, [⟨31, 12, .rw, 0x0⟩]⟩ := by
  revert b
  decide

/-! ### CH_CFG (R194, R198) -/

theorem regDesc_chCfg (c : Fin 32) : regDesc (0x900100 + c * 0x20) =
    some ⟨0x100, 0x20, 32, [⟨31, 31, .rw, 0x0⟩, ⟨30, 30, .rw, 0x0⟩, ⟨29, 29, .rw, 0x0⟩, ⟨28, 28, .rw, 0x0⟩, ⟨11, 0, .rw, 0x0⟩]⟩ := by
  revert c
  decide

/-- CH_CFG of a channel as a write stores it, with PHASE held within its limit. -/
def State.storeChCfg (s : State) (c v : Nat) : State :=
  (s.swPut (0x900100 + c * 0x20) v).wr (AQ_CH_PHASE.i c) (min 2559 (v % 4096))

theorem State.storeChCfg_shows (s : State) (c : Fin 32) (v : Nat) :
    (s.storeChCfg c v).on (AQ_CH_EN.i c) = bit v 31 ∧ (s.storeChCfg c v).rd (AQ_CH_PHASE.i c) = min 2559 (v % 4096) := by
  have hen : bits ((s.swPut (0x900100 + c * 0x20) v).word (0x900100 + c * 0x20)) 31 31 = bits v 31 31 :=
    s.swPut_field (f := ⟨31, 31, .rw, 0x0⟩) (regDesc_chCfg c) (by decide) rfl (by decide) (by decide)
  unfold State.storeChCfg
  refine ⟨?_, ?_⟩
  · rw [State.on_wr_i _ AQ_CH_PHASE AQ_CH_EN c _ ⟨by decide, by decide⟩ (.inr (.inl (by decide)))]
    exact State.on_of_bits (f := AQ_CH_EN.i c) hen
  · rw [State.rd_wr_i_self _ AQ_CH_PHASE c _ ⟨by decide, by decide⟩]
    exact Nat.mod_eq_of_lt ((Nat.min_le_left ..).trans_lt (by decide))

theorem State.storeChCfg_regsKept (s : State) (c v : Nat) : RegsKept [(AQ_CH_EN.i c).addr] s (s.storeChCfg c v) :=
  RegsKept.wr (s.swPut_regsKept _ v) _ (.head _)

theorem State.storeChCfg_events (s : State) (c v : Nat) : EventsOnly s (s.storeChCfg c v) := ((EventsOnly.refl s).swPut _ _).wr _ _

/-- From `s` to `t` settle causes have marked channel `c` alone. -/
structure MarksChannel (c : Nat) (s t : State) : Prop where
  events : AqEvents s t
  kept : RegsKept [causeReg c] s t
  others : ∀ k, k ≠ c → t.aqCh k = s.aqCh k

section
variable {c : Nat} {t u : State}

theorem MarksChannel.refl (c : Nat) (s : State) : MarksChannel c s s := ⟨.refl s, .refl _ s, fun _ _ => rfl⟩

theorem MarksChannel.settle (h : MarksChannel c s t) (cause : Nat) : MarksChannel c s (t.settle c cause) where
  events := h.events.settle c cause
  kept := h.kept.wr _ (.head _)
  others k hk := (t.settle_aqCh_ne cause hk).trans (h.others k hk)

theorem MarksChannel.ite {p : Prop} [Decidable p] (h : MarksChannel c s t) (h' : MarksChannel c s u) :
    MarksChannel c s (if p then t else u) := by
  split
  · exact h
  · exact h'

/-- A settling count at the bank's value stays there under a further cause. -/
theorem left_ite_settle {p : Prop} [Decidable p] {cause n : Nat} (hcause : cause < 5) (hset : t.rd (AQ_BANK_SETTLE.i (c / 8)) = n)
    (hleft : (t.aqCh c).left = n) : ((if p then t.settle c cause else t).aqCh c).left = n := by
  split
  · exact (t.settle_left c hcause).trans hset
  · exact hleft

end

/-- The causes ENABLE, SOURCE and PHASE that a write of CH_CFG brings after its store. -/
theorem aqChCfg_eq (c v : Nat) (s : State) : aqChCfg c v s =
    (let w := s.word (AQ_CH_EN.i c).addr
     let t := if !bit w 31 ∧ bit v 31 then (s.storeChCfg c v).settle c 1 else s.storeChCfg c v
     let u := if bit w 30 != bit v 30 ∧ c < 25 then t.settle c 2 else t
     if w % 4096 ≠ min 2559 (v % 4096) then u.settle c 3 else u) := rfl

theorem State.on_chEn_eq (s : State) (c : Nat) : s.on (AQ_CH_EN.i c) = bit (s.word (AQ_CH_EN.i c).addr) 31 :=
  State.on_of_bits rfl

/-- What a write of a channel's configuration leaves (R194, R198). -/
theorem aqChCfg_marks (c : Fin 32) (v : Nat) (s : State) : MarksChannel c (s.storeChCfg c v) (aqChCfg c v s) ∧
    (s.on (AQ_CH_EN.i c) = false → bit v 31 = true →
      ((aqChCfg c v s).aqCh c).left = (s.storeChCfg c v).rd (AQ_BANK_SETTLE.i (c / 8))) := by
  rw [aqChCfg_eq, s.on_chEn_eq]
  generalize s.storeChCfg c v = x
  generalize s.word (AQ_CH_EN.i c).addr = w
  dsimp only
  generalize ht : (if !bit w 31 ∧ bit v 31 then x.settle c 1 else x) = t
  have hmt : MarksChannel c x t := ht ▸ .ite ((MarksChannel.refl _ x).settle 1) (.refl _ x)
  generalize hu : (if bit w 30 != bit v 30 ∧ c.val < 25 then t.settle c 2 else t) = u
  have hmu : MarksChannel c x u := hu ▸ .ite (hmt.settle 2) hmt
  have hset {y : State} (hy : MarksChannel c x y) : y.rd (AQ_BANK_SETTLE.i (c / 8)) = x.rd (AQ_BANK_SETTLE.i (c / 8)) :=
    hy.kept.rd _ (by simpa using bank_ne_causeReg (by omega) c)
  refine ⟨.ite (hmu.settle 3) hmu, fun hwas hnow => ?_⟩
  have hleft : (t.aqCh c).left = x.rd (AQ_BANK_SETTLE.i (c / 8)) := by
    rw [← ht, if_pos ⟨by simp [hwas], hnow⟩]
    exact x.settle_left c (by decide)
  exact left_ite_settle (by decide) (hset hmu) (hu ▸ left_ite_settle (by decide) (hset hmt) hleft)

/-! ### AQ_CTRL (R198, R209) -/

theorem regDesc_aqCtrl : regDesc 0x900000 = some ⟨0x0, 0x0, 1, [⟨31, 31, .rw, 0x0⟩]⟩ := by decide

theorem State.swPut_aqCtrl (s : State) (v : Nat) : (s.swPut 0x900000 v).on AQ_CTRL_EN = bit v 31 :=
  State.on_of_bits (f := AQ_CTRL_EN)
    (s.swPut_field (f := ⟨31, 31, .rw, 0x0⟩) regDesc_aqCtrl (by decide) rfl (by decide) (by decide))

/-- Every bank that is enabled starts. -/
def State.banksStarted (s : State) : State :=
  (List.range 4).foldl (fun (t : State) b => if t.on (AQ_BANK_EN.i b) then bankStart b t else t) s

/-- Every bank stops. -/
def State.banksStopped (s : State) : State := (List.range 4).foldl (fun (t : State) b => bankStop b t) s

theorem State.banksStarted_eq (s : State) : ∃ n, s.banksStarted = s.withNext n := by
  refine List.foldlRecOn (List.range 4) _ (motive := fun t : State => ∃ n, t = s.withNext n) ⟨s.aq.next, rfl⟩ ?_
  rintro _ ⟨n, rfl⟩ b -
  split
  · exact ⟨_, rfl⟩
  · exact ⟨n, rfl⟩

/-- Stopping the banks leaves registers and channels, and no sample of theirs is due. -/
theorem State.banksStopped_leaves (s : State) : AqEvents s s.banksStopped ∧ RegsKept [] s s.banksStopped ∧
    s.banksStopped.aq.ch = s.aq.ch ∧ ∀ p ∈ s.banksStopped.aq.due, 4 ≤ p.1 := by
  have hkept : AqEvents s s.banksStopped ∧ RegsKept [] s s.banksStopped ∧ s.banksStopped.aq.ch = s.aq.ch :=
    List.foldlRecOn (List.range 4) _ (motive := fun t : State => AqEvents s t ∧ RegsKept [] s t ∧ t.aq.ch = s.aq.ch)
      ⟨.refl s, .refl _ s, rfl⟩ fun _ ⟨hev, hregs, hch⟩ _ _ => ⟨hev.trans rfl, hregs, hch⟩
  obtain ⟨hev, hregs, hch⟩ := hkept
  refine ⟨hev, hregs, hch, fun p hp => ?_⟩
  have hdue : s.banksStopped.aq.due = (((s.aq.due.filter (fun p => p.1 != 0)).filter (fun p => p.1 != 1)).filter
    (fun p => p.1 != 2)).filter (fun p => p.1 != 3) := rfl
  simp only [hdue, List.mem_filter, bne_iff_ne] at hp
  omega

theorem aqCtrl_eq (v : Nat) (s : State) : aqCtrl v s =
    if s.on AQ_CTRL_EN = false ∧ bit v 31 = true then (s.swPut 0x900000 v).banksStarted.settleAll (List.range 32) 1
    else if s.on AQ_CTRL_EN = true ∧ bit v 31 = false then (s.swPut 0x900000 v).banksStopped
    else s.swPut 0x900000 v := by
  unfold aqCtrl
  simp only [s.swPut_aqCtrl, Bool.not_eq_true']
  rfl

end

end Sys2Proof.Machine
end

section
/-!
Acquisition's own commands (R188, R195, R197, R200, R204): a completed sample, the clamp detectors, the comparators and their stamps.
-/
namespace Sys2Proof.Machine

/-! ### Samples (R188, R195, R197) -/

section
variable {s : State}

theorem exec_acqSampleComplete {b : Fin 4} {k c : Nat} (bits : List (List Bool)) (ovr : BitVec 8) (hruns : s.runs 12 = true)
    (hon : s.bankOn b = true) (hdue : s.acqDue b = some (k, c)) (htime : c + 96 ≤ s.cyc) :
    exec (.acqSampleComplete b bits ovr) s = .next (sampleOut b k c (s.bankOut b k bits) ovr.toNat
      { s with aq := { s.aq with due := s.aq.due.filter (fun p => !(p.1 == b.val && p.2.1 == k)) } }) := by
  refine (whileOn_runs hruns).trans ?_
  rw [hdue]
  exact if_neg (by simp [hon, htime])

/-- A channel under no settling condition has no count left. -/
theorem AqCh.counts_of_settled {x : AqCh} (h : x.settling = false) : x.left = 0 ∧ x.leftOvl = 0 ∧ x.leftClamp = 0 := by
  simp only [AqCh.settling, Bool.or_eq_false_iff, decide_eq_false_iff_not] at h
  omega

/-- The quality of no condition but the source ZERO (R197). -/
theorem qualOf_zero (zero : Bool) : qualOf false false false false zero = b2n zero * 0x800 := by
  simp [qualOf]

/-- A channel under no condition gives its corrected code as good, with TEST for the source ZERO. -/
theorem chanSample_good {c : Nat} {raw : Int} {t lp : Nat} (hen : s.on (AQ_CH_EN.i c) = true) (hraw : atLimit (satCode raw) = false)
    (hcode : atLimit (corrected (satCode raw) (s.rdS (AQ_CH_CAL_OFS.i c)) (s.rd (AQ_CH_CAL_GAIN.i c))) = false)
    (hovr : (s.aqCh c).wasOvr = false) (hwas : (s.aqCh c).wasPartner = false) (hset : (s.aqCh c).settling = false)
    (hcond : s.conducted (if c % 2 = 0 then c + 1 else c - 1) (t - lp) (t + lp) = false) :
    (chanSample c raw false t lp s).1 =
      (corrected (satCode raw) (s.rdS (AQ_CH_CAL_OFS.i c)) (s.rd (AQ_CH_CAL_GAIN.i c)),
        b2n (decide (c < 24) && s.on (AQ_CH_SRC.i c)) * 0x800, false, false) := by
  obtain ⟨hleft, hovl, hclamp⟩ := AqCh.counts_of_settled hset
  unfold chanSample
  simp only [hen, hraw, hcode, hovr, hwas, hset, hcond, hleft, hovl, hclamp, if_true, Bool.or_self, Bool.and_false, Bool.false_eq_true,
    false_and, if_false, Nat.lt_irrefl, decide_false, Bool.not_true, qualOf_zero]

end

/-! ### The clamp (R200) -/

section
variable {s : State} {ch : Nat}

/-- The detector of channel `ch` reports conduction, and AQ_STATUS shows it. -/
def State.beginClamp (s : State) (ch : Nat) : State :=
  (s.withAq { s.aq with cond := s.aq.cond ++ [(ch, max s.now s.aq.edgeFrom, none)] }).wr AQ_STATUS_CLAMP
    (s.rd AQ_STATUS_CLAMP ||| 2 ^ (ch / 2))

theorem exec_clampConduction {ch : Fin 24} (hruns : s.runs 12 = true) (hidle : s.conducting ch = false) :
    exec (.clampConduction ch) s = .next (if bit (s.rd AQ_STATUS_CLAMP) (ch / 2) then s.beginClamp ch
      else (s.beginClamp ch).aqEvent AQ_EVENT_CLAMP) :=
  (whileOn_runs hruns).trans (if_neg (by rw [hidle]; decide))

theorem State.beginClamp_aq (s : State) (ch : Nat) :
    (s.beginClamp ch).aq = { s.aq with cond := s.aq.cond ++ [(ch, max s.now s.aq.edgeFrom, none)] } := State.wr_aq ..

theorem State.beginClamp_bit (s : State) {ch : Nat} (h : ch < 24) : bit ((s.beginClamp ch).rd AQ_STATUS_CLAMP) (ch / 2) = true := by
  have hk : ch / 2 < AQ_STATUS_CLAMP.hi + 1 - AQ_STATUS_CLAMP.lo := by
    change ch / 2 < 12
    omega
  rw [State.beginClamp, State.rd_wr_self _ _ _ ⟨by decide, by decide⟩, bit_eq_testBit, Nat.testBit_mod_two_pow, Nat.testBit_or,
    Nat.testBit_two_pow_self, Bool.or_true, decide_eq_true hk, Bool.and_self]

theorem State.beginClamp_regsKept (s : State) (ch : Nat) : RegsKept [AQ_STATUS_CLAMP.addr] s (s.beginClamp ch) :=
  ((RegsKept.refl _ s).withAq _).wr _ (.head _)

theorem State.beginClamp_aqEvents (s : State) (ch : Nat) : AqEvents s (s.beginClamp ch) :=
  ((AqEvents.refl s).withAq _).wr _ _

theorem State.conducting_of_aq {t u : State} (h : u.aq = t.aq) (c : Nat) : u.conducting c = t.conducting c := by
  rw [State.conducting, h, State.conducting]

theorem State.beginClamp_conducting (s : State) (ch : Nat) : (s.beginClamp ch).conducting ch = true := by
  rw [State.conducting, State.beginClamp_aq]
  simp

/-- What the beginning of conduction leaves, with its event at the first of an episode. -/
theorem clampConduction_leaves {ch : Fin 24} (hruns : s.runs 12 = true) (hidle : s.conducting ch = false) :
    Answers (exec (.clampConduction ch) s) (fun t =>
      t.aq = { s.aq with cond := s.aq.cond ++ [(ch.val, max s.now s.aq.edgeFrom, none)] } ∧ t.conducting ch = true ∧
      bit (t.rd AQ_STATUS_CLAMP) (ch.val / 2) = true ∧
      (bit (s.rd AQ_STATUS_CLAMP) (ch.val / 2) = false → t.on AQ_EVENT_CLAMP = true) ∧
      (bit (s.rd AQ_STATUS_CLAMP) (ch.val / 2) = true → RegsKept [AQ_STATUS_CLAMP.addr] s t) ∧
      RegsKept [AQ_STATUS_CLAMP.addr, AQ_EVENT_CLAMP.addr, 0x30010] s t ∧ t = { s.withEvents t with aq := t.aq }) := by
  refine ⟨_, exec_clampConduction hruns hidle, ?_⟩
  have haq := s.beginClamp_aq ch
  have hcond := s.beginClamp_conducting ch
  have hbit := s.beginClamp_bit ch.isLt
  have hregs := s.beginClamp_regsKept ch
  have hframe := s.beginClamp_aqEvents ch
  have hregs' : RegsKept [AQ_STATUS_CLAMP.addr, AQ_EVENT_CLAMP.addr, 0x30010] s (s.beginClamp ch) :=
    hregs.mono fun a ha => List.mem_singleton.1 ha ▸ .head _
  generalize s.beginClamp ch = u at *
  cases hwas : bit (s.rd AQ_STATUS_CLAMP) (ch.val / 2) with
  | true =>
    rw [if_pos rfl]
    exact ⟨haq, hcond, hbit, fun h => absurd h.symm Bool.false_ne_true, fun _ => hregs, hregs', hframe⟩
  | false =>
    rw [if_neg Bool.false_ne_true]
    have hev : EventsOnly u (u.aqEvent AQ_EVENT_CLAMP) := (EventsOnly.refl u).aqEvent _
    refine ⟨hev.aq_eq.trans haq, (State.conducting_of_aq hev.aq_eq ch).trans hcond, ?_, fun _ => ?_,
      fun h => absurd h Bool.false_ne_true, hregs'.aqEvent (.tail _ (.head _)) (.tail _ (.tail _ (.head _))), hframe.trans hev.aqEvents⟩
    · rw [State.aqEvent, State.rd_event_apart _ _ _ _ ⟨by decide, by decide⟩ (.inl (by decide)) (by decide)]
      exact hbit
    · exact u.on_event_self _ _ (by decide) (by decide)

/-- Conduction of channel `ch` ends at `now`. -/
def endConduction (ch now : Nat) (l : List (Nat × Nat × Option Nat)) : List (Nat × Nat × Option Nat) :=
  l.map (fun p => if p.1 = ch ∧ p.2.2.isNone then (p.1, p.2.1, some now) else p)

/-- The detector of channel `ch` reports no more conduction. -/
def State.endClamp (s : State) (ch : Nat) : State := s.withAq { s.aq with cond := endConduction ch s.now s.aq.cond }

theorem State.endClamp_conducting_self (s : State) (ch : Nat) : (s.endClamp ch).conducting ch = false := by
  refine List.any_eq_false.2 fun q hq => ?_
  obtain ⟨p, -, rfl⟩ := List.mem_map.1 hq
  split
  · simp
  · next h => simpa using h

theorem State.endClamp_conducting_ne (s : State) {c : Nat} (h : c ≠ ch) : (s.endClamp ch).conducting c = s.conducting c := by
  unfold State.conducting State.endClamp State.withAq endConduction
  rw [List.any_map]
  congr 1
  funext p
  dsimp only [Function.comp]
  split
  · next hp =>
    have hc : (p.1 == c) = false := by simpa [hp.1] using h.symm
    rw [hc, Bool.false_and, Bool.false_and]
  · rfl

/-- The other channel of a pair (R200). -/
def partnerOf (ch : Nat) : Nat := if ch % 2 = 0 then ch + 1 else ch - 1

/-- Whether a pair still conducts once one of its channels has ended. -/
theorem State.endClamp_pair (s : State) (ch : Nat) :
    ((s.endClamp ch).conducting (2 * (ch / 2)) || (s.endClamp ch).conducting (2 * (ch / 2) + 1)) = s.conducting (partnerOf ch) := by
  have hself := s.endClamp_conducting_self ch
  unfold partnerOf
  split
  · have h0 : 2 * (ch / 2) = ch := by omega
    rw [h0, hself, s.endClamp_conducting_ne (by omega), Bool.false_or]
  · have h1 : 2 * (ch / 2) + 1 = ch := by omega
    have h0 : 2 * (ch / 2) = ch - 1 := by omega
    rw [h1, hself, h0, s.endClamp_conducting_ne (by omega), Bool.or_false]

theorem exec_clampEnd {ch : Fin 24} (hruns : s.runs 12 = true) (hon : s.conducting ch = true) :
    exec (.clampEnd ch) s = .next (if s.conducting (partnerOf ch) then s.endClamp ch
      else (s.endClamp ch).wr AQ_STATUS_CLAMP (setBits (s.rd AQ_STATUS_CLAMP) (ch / 2) (ch / 2) 0)) := by
  rw [← s.endClamp_pair ch]
  exact (whileOn_runs hruns).trans (if_neg (by rw [hon]; decide))

/-- A bit of AQ_STATUS.CLAMP cleared. -/
theorem bit_clampStatus_cleared (u : State) (x : Nat) {k : Nat} :
    bit ((u.wr AQ_STATUS_CLAMP (setBits x k k 0)).rd AQ_STATUS_CLAMP) k = false := by
  rw [State.rd_wr_self _ _ _ ⟨by decide, by decide⟩, bit_eq_testBit, Nat.testBit_mod_two_pow, testBit_setBits _ _ _ _ _ le_rfl,
    if_pos ⟨le_rfl, le_rfl⟩, Nat.zero_testBit, Bool.and_false]

/-- What the end of conduction leaves. -/
theorem clampEnd_leaves {ch : Fin 24} (hruns : s.runs 12 = true) (hon : s.conducting ch = true) :
    Answers (exec (.clampEnd ch) s) (fun t =>
      t.conducting ch = false ∧ (ch.val, s.now) ∈ t.aq.cond.filterMap (fun p => p.2.2.map (fun e => (p.1, e))) ∧
      bit (t.rd AQ_STATUS_CLAMP) (ch.val / 2) =
        (bit (s.rd AQ_STATUS_CLAMP) (ch.val / 2) && s.conducting (if ch.val % 2 = 0 then ch.val + 1 else ch.val - 1)) ∧
      RegsKept [AQ_STATUS_CLAMP.addr] s t ∧ t = { s with regs := t.regs, aq := { s.aq with cond := t.aq.cond } }) := by
  have hself := s.endClamp_conducting_self ch
  have hended : (ch.val, s.now) ∈ (s.endClamp ch).aq.cond.filterMap (fun p => p.2.2.map (fun e => (p.1, e))) := by
    obtain ⟨p, hp, hc⟩ := List.any_eq_true.1 hon
    obtain ⟨hch, hnone⟩ := Bool.and_eq_true_iff.1 hc
    have hch' : p.1 = ch.val := beq_iff_eq.1 hch
    refine List.mem_filterMap.2 ⟨(p.1, p.2.1, some s.now), List.mem_map.2 ⟨p, hp, if_pos ⟨hch', hnone⟩⟩, ?_⟩
    rw [hch']
    rfl
  refine ⟨_, exec_clampEnd hruns hon, ?_⟩
  rw [show s.conducting (if ch.val % 2 = 0 then ch.val + 1 else ch.val - 1) = s.conducting (partnerOf ch) from rfl]
  cases hstill : s.conducting (partnerOf ch) with
  | true =>
    rw [if_pos rfl, Bool.and_true]
    exact ⟨hself, hended, rfl, fun _ _ => rfl, rfl⟩
  | false =>
    rw [if_neg Bool.false_ne_true, Bool.and_false]
    have haq := (s.endClamp ch).wr_aq AQ_STATUS_CLAMP (setBits (s.rd AQ_STATUS_CLAMP) (ch / 2) (ch / 2) 0)
    refine ⟨(State.conducting_of_aq haq ch).trans hself, by rw [haq]; exact hended, bit_clampStatus_cleared .., ?_, rfl⟩
    exact ((RegsKept.refl _ s).withAq _).wr _ (.head _)

end

/-! ### Comparators (R203, R204, R288) -/

section
variable {s t u : State}

/-- Nothing but the channels beside their registers and the edges on their way has changed. -/
def EdgesOnly (s t : State) : Prop := t = { s with aq := { s.aq with ch := t.aq.ch, edges := t.aq.edges } }

theorem EdgesOnly.trans (h : EdgesOnly s t) (h' : EdgesOnly t u) : EdgesOnly s u := by
  unfold EdgesOnly at h h'
  rw [h', h]
  rfl

/-- An edge that the comparator of channel `ch` reports, with what it puts on its way: `f` of the edge where `report` says so. -/
def edgeSeen (ch : Nat) (report : Bool) (f : Nat → Nat × Nat × Nat × Nat × Nat) (u : State) (e : Nat) : State :=
  let v := u.setAqCh ch ((u.aqCh ch).cmpStep e)
  if report then { v with aq := { v.aq with edges := v.aq.edges ++ [f e] } } else v

theorem exec_comparatorEdge (ch : Fin 24) (sub : Fin 65536) (uv : Int) (hruns : s.runs 12 = true) :
    exec (.comparatorEdge ch sub uv) s = .next ((s.cmpEdges ch uv).foldl (edgeSeen ch (s.on (AQ_CH_CMP_EN.i ch))
      (fun e => (s.cyc + 32, ch.val, e, s.gov, s.stampIn s.gov sub / 65536 - 85))) s) :=
  whileOn_runs hruns

theorem edgeSeen_leaves (ch : Nat) (report : Bool) (f : Nat → Nat × Nat × Nat × Nat × Nat) (u : State) (e : Nat) :
    (edgeSeen ch report f u e).aqCh ch = (u.aqCh ch).cmpStep e ∧ (∀ c, c ≠ ch → (edgeSeen ch report f u e).aqCh c = u.aqCh c) ∧
      (edgeSeen ch report f u e).aq.edges = u.aq.edges ++ (if report then [f e] else []) ∧ EdgesOnly u (edgeSeen ch report f u e) := by
  cases report with
  | true => exact ⟨State.setAqCh_aqCh_self .., fun c hc => State.setAqCh_aqCh_ne _ _ hc, rfl, rfl⟩
  | false => exact ⟨State.setAqCh_aqCh_self .., fun c hc => State.setAqCh_aqCh_ne _ _ hc, (List.append_nil _).symm, rfl⟩

/-- Edges seen one after another: the levels follow each, and each that is reported is put on its way. -/
theorem foldl_edgeSeen_leaves (ch : Nat) (report : Bool) (f : Nat → Nat × Nat × Nat × Nat × Nat) (l : List Nat) (u : State) :
    (l.foldl (edgeSeen ch report f) u).aqCh ch = l.foldl AqCh.cmpStep (u.aqCh ch) ∧
      (∀ c, c ≠ ch → (l.foldl (edgeSeen ch report f) u).aqCh c = u.aqCh c) ∧
      (l.foldl (edgeSeen ch report f) u).aq.edges = u.aq.edges ++ (if report then l.map f else []) ∧
      EdgesOnly u (l.foldl (edgeSeen ch report f) u) := by
  induction l generalizing u with
  | nil => exact ⟨rfl, fun _ _ => rfl, by cases report <;> exact (List.append_nil _).symm, rfl⟩
  | cons e l ih =>
    obtain ⟨hself, hothers, hedges, hframe⟩ := edgeSeen_leaves ch report f u e
    obtain ⟨hself', hothers', hedges', hframe'⟩ := ih (edgeSeen ch report f u e)
    rw [List.foldl_cons, List.foldl_cons, ← hself]
    refine ⟨hself', fun c hc => (hothers' c hc).trans (hothers c hc), ?_, hframe.trans hframe'⟩
    rw [hedges', hedges, List.append_assoc]
    cases report <;> rfl

/-- A stamp that finds room in its queue joins it. -/
theorem cmpStamp_room {due c e tb x : Nat} (h : (u.aqCh c).tdc.length < 16) :
    (cmpStamp due c e tb x u).aq = (u.setAqCh c { u.aqCh c with tdc := (u.aqCh c).tdc ++ [(e, tb, x)] }).aq := by
  unfold cmpStamp
  dsimp only
  rw [if_neg (Nat.not_le.2 h)]
  rfl

/-- A stamp due leaves the edges on their way for the channel's queue. -/
theorem cmpCycle_delivers {d c e tb ns : Nat} (hedges : s.aq.edges = [(d, c, e, tb, ns)]) (hdue : d ≤ s.cyc + 1)
    (hroom : (s.aqCh c).tdc.length < 16) : (s.cmpCycle.aqCh c).tdc = (s.aqCh c).tdc ++ [(e, tb, ns)] ∧ s.cmpCycle.aq.edges = [] := by
  have hcycle : s.cmpCycle = cmpStamp d c e tb ns { s with aq := { s.aq with edges := [] } } := by
    unfold State.cmpCycle
    simp only [hedges, List.filter_cons, List.filter_nil, decide_eq_true hdue, decide_eq_false (Nat.not_lt.2 hdue), if_true,
      Bool.false_eq_true, if_false, List.foldl_cons, List.foldl_nil]
  have haq := cmpStamp_room (u := { s with aq := { s.aq with edges := [] } }) (due := d) (e := e) (tb := tb) (x := ns) hroom
  rw [← hcycle] at haq
  refine ⟨?_, by rw [haq]; rfl⟩
  rw [State.aqCh, haq]
  exact congrArg AqCh.tdc (State.setAqCh_aqCh_self ..)

end

/-! ### The stamp queue (R209) -/

section
variable {s : State} {c : Nat} {q : Nat × Nat × Nat} {rest : List (Nat × Nat × Nat)}

/-- A channel without its oldest stamp. -/
def AqCh.dropStamp (x : AqCh) : AqCh := { x with tdc := x.tdc.drop 1 }

/-- A stamp is shown only of a channel with a comparator, the one that AQ_TDC_IDX names. -/
theorem tdcQueue_shown (h : s.tdcQueue = q :: rest) : s.rd AQ_TDC_IDX_CH < 24 ∧ (s.aqCh (s.rd AQ_TDC_IDX_CH)).tdc = q :: rest := by
  unfold State.tdcQueue at h
  dsimp only at h
  split at h
  · exact ⟨‹_›, h⟩
  · nomatch h

theorem State.start_rd (s : State) (f : Fld) : s.start.rd f = s.rd0 f := rfl

theorem tdcPop_shows (hq : s.start.tdcQueue = q :: rest) (hc : c = s.rd0 AQ_TDC_IDX_CH) : (tdcPop c s).start.tdcQueue = rest := by
  obtain ⟨hlt, htdc⟩ := tdcQueue_shown hq
  have hself : (tdcPop c s).start.aqCh c = (s.start.aqCh c).dropStamp := State.setAqCh_aqCh_self s.start ..
  rw [State.start_rd, ← hc] at hlt htdc
  have hidx : (tdcPop c s).start.rd AQ_TDC_IDX_CH = c := hc.symm
  unfold State.tdcQueue
  dsimp only
  rw [hidx, if_pos hlt, hself, AqCh.dropStamp, htdc]
  rfl

theorem aqRead_w3 {e tb n : Nat} (hq : s.start.tdcQueue = (e, tb, n) :: rest) :
    aqRead 0x9C s = some (n / 1000000000 / 2 ^ 32 % 2 ^ 16, tdcPop (s.rd0 AQ_TDC_IDX_CH) s) := by
  unfold aqRead
  rw [if_neg (by decide), if_pos (by decide)]
  dsimp only
  rw [hq]
  rfl

end

end Sys2Proof.Machine
end

section
/-!
The rows of the AQ_ page (R192, R198, R209) and the statement on local acquisition.
-/
namespace Sys2Proof.Machine

section
variable {s : State} {req : Requester} (hw : s.Writer req) (hdom : s.dom 12 = 1) (h5120 : s.is5120 = false)
include hw hdom h5120

/-! ### AQ_TDC_W3 -/

/-- A read of AQ_TDC_W3 shows the seconds' high part of the oldest stamp and removes it. -/
theorem tdcPop_leaves {c e tb n : Nat} {rest : List (Nat × Nat × Nat)} (hcal : s.CalServed) (hc : c = s.rd0 AQ_TDC_IDX_CH)
    (hq : s.start.tdcQueue = (e, tb, n) :: rest) : Answers (exec (.tdcPop req) s) (fun t =>
      t.start.tdcQueue = rest ∧ (t.aqCh c).tdc = (s.aqCh c).tdc.drop 1 ∧ (∀ k, k ≠ c → t.aqCh k = s.aqCh k) ∧
      t.bus.map (fun x => x.data) = some (n / 1000000000 / 2 ^ 32 % 2 ^ 16) ∧
      RegsKept [] s t ∧ t = { s.withAccess t with aq := t.aq, arch := { s.arch with at0 := t.arch.at0 } }) := by
  have hread : readReg req 0x90009C s = (tdcPop c s).gave req 0x90009C (n / 1000000000 / 2 ^ 32 % 2 ^ 16) :=
    readReg_tdcW3 hw.1 hdom h5120 (hc ▸ aqRead_w3 hq) hcal
  have hself : (tdcPop c s).aqCh c = (s.aqCh c).dropStamp := State.setAqCh_aqCh_self ..
  refine ⟨_, congrArg Host.Outcome.next hread, ?_, ?_, fun k hk => ?_, State.gave_data .., RegsKept.gave (fun _ _ => rfl) _ _ _, ?_⟩
  · rw [State.gave_frame]
    exact tdcPop_shows hq hc
  · rw [State.gave_aqCh, hself]
    rfl
  · rw [State.gave_aqCh]
    exact s.setAqCh_aqCh_ne _ hk
  · rw [State.gave_frame]
    rfl

/-! ### AQ_BANK and its buffer block -/

theorem exec_aqBankWrite (b : Fin 4) (v : Word) :
    exec (.aqBankWrite req b 0 v) s = .next ((aqBank b v.toNat s).wrote req (0x900010 + 4 * b) v.toNat) := by
  have hdesc : ∀ b : Fin 4, (descIn .aq 0 (0x10 + 4 * b)).isSome = true := by decide
  have ha : 0x900000 + (0x10 + 4 * b.val) = 0x900010 + 4 * b.val := by omega
  have h := writeReg_aq (k := 0x10 + 4 * b) hw hdom h5120 (by omega) (hdesc b) v.isLt
  rw [aqWrite_bank hw.2, ha] at h
  exact congrArg Host.Outcome.next h

/-- A write of a word of the buffer block: 1 is BASE_LO, 2 BASE_HI and 3 the sizes. -/
theorem exec_aqBufferWrite (b k : Fin 4) (hk : k ≠ 0) (v : Word) : exec (.aqBankWrite req b k v) s =
    .next ((aqWrite req (0x40 + 0x10 * b + 4 * (k - 1)) v.toNat s).wrote req (0x900040 + 0x10 * b + 4 * (k - 1)) v.toNat) := by
  have hk0 : k.val ≠ 0 := fun h => hk (Fin.ext h)
  have hdesc : ∀ b k : Fin 4, (descIn .aq 0 (0x40 + 0x10 * b + 4 * (k.val - 1))).isSome = true := by decide
  have ha : 0x900000 + (0x40 + 0x10 * b.val + 4 * (k.val - 1)) = 0x900040 + 0x10 * b.val + 4 * (k.val - 1) := by omega
  have ho : (if k.val = 0 then 0x900010 + 4 * b.val else 0x90003C + 0x10 * b.val + 4 * k.val) =
      0x900040 + 0x10 * b.val + 4 * (k.val - 1) := by
    rw [if_neg hk0]
    omega
  have h := writeReg_aq (k := 0x40 + 0x10 * b + 4 * (k.val - 1)) hw hdom h5120 (by omega) (hdesc b k) v.isLt
  rw [ha] at h
  have hexec : exec (.aqBankWrite req b k v) s = .next (writeReg req
    (if k.val = 0 then 0x900010 + 4 * b.val else 0x90003C + 0x10 * b.val + 4 * k.val) v.toNat s) := rfl
  rw [hexec, ho, h]

theorem aqBankWrite_stores (b : Fin 4) (v : Word) (hoff : s.on (AQ_BANK_EN.i b) = false) :
    Answers (exec (.aqBankWrite req b 0 v) s) (fun t =>
      t.on (AQ_BANK_EN.i b) = bit v.toNat 31 ∧ t.preset b = bits v.toNat 27 26 ∧ t.rd (AQ_BANK_NOTCH.i b) = bits v.toNat 25 24 ∧
      t.rd (AQ_BANK_SETTLE.i b) = settleCount (bits v.toNat 27 26) (bits v.toNat 25 24) ∧
      (bit v.toNat 31 = false → RegsKept [(AQ_BANK_EN.i b).addr] s t ∧ t.aq.ch = s.aq.ch) ∧
      (bit v.toNat 31 = true → ∀ i, i < 8 → s.on (AQ_CH_EN.i (8 * b + i)) = true →
        (t.aqCh (8 * b + i)).left = settleCount (bits v.toNat 27 26) (bits v.toNat 25 24) ∧ t.rd (AQ_CH_CAUSE.i (8 * b + i)) = 1) ∧
      t = { s.withAccess t with aq := t.aq }) := by
  obtain ⟨hst, hev, hdark, hmarks⟩ := aqBank_leaves (v := v.toNat) b hoff
  obtain ⟨hen, hpreset, hnotch, hsettle⟩ := hst.of_word (State.wrote_word _ req (0x900010 + 4 * b) v.toNat _)
  refine ⟨_, exec_aqBankWrite hw hdom h5120 b v, hen, hpreset, hnotch, hsettle, fun hbit => ?_, fun hbit i hi hon => ?_, hev.wrote ..⟩
  · rw [State.wrote_aq]
    exact (hdark hbit).imp_left fun hkept => hkept.wrote _ _ _
  · rw [State.wrote_aqCh, State.wrote_rd]
    exact hmarks hbit i hi hon

/-- A write that an enabled bank refuses, of its preset or notch or of its buffer block, raises its event and stores nothing. -/
theorem aqBankWrite_refused (b k : Fin 4) (v : Word) (hon : s.on (AQ_BANK_EN.i b) = true)
    (hne : k = 0 → bits v.toNat 27 26 ≠ s.preset b ∨ bits v.toNat 25 24 ≠ s.rd (AQ_BANK_NOTCH.i b)) :
    Answers (exec (.aqBankWrite req b k v) s) (fun t => t.on AQ_EVENT_REFUSED = true ∧
      RegsKept [AQ_EVENT_REFUSED.addr, 0x30010] s t ∧ t = s.withAccess t) := by
  have hexec : ∃ o, exec (.aqBankWrite req b k v) s = .next ((s.aqEvent AQ_EVENT_REFUSED).wrote req o v.toNat) := by
    by_cases hk : k = 0
    · subst hk
      exact ⟨_, (exec_aqBankWrite hw hdom h5120 b v).trans (by rw [aqBank_refused hon (hne rfl)])⟩
    · exact ⟨_, (exec_aqBufferWrite hw hdom h5120 b k hk v).trans (by rw [aqWrite_buffer_refused hw.2 b (by omega) hon])⟩
  obtain ⟨o, ho⟩ := hexec
  refine ⟨_, ho, ?_, ?_, ((EventsOnly.refl s).aqEvent _).wrote ..⟩
  · rw [State.wrote_on]
    exact s.on_event_self _ _ (by decide) (by decide)
  · exact ((RegsKept.refl _ s).aqEvent (.head _) (.tail _ (.head _))).wrote _ _ _

theorem aqBufferBase_stores (b : Fin 4) (v : Word) (hoff : s.on (AQ_BANK_EN.i b) = false) :
    Answers (exec (.aqBankWrite req b 1 v) s) (fun t =>
      t.rd (AQ_BUF_BASE_LO.i b) = bits v.toNat 31 12 ∧ RegsKept [(AQ_BUF_BASE_LO.i b).addr] s t ∧ t = s.withAccess t) := by
  have haddr : (AQ_BUF_BASE_LO.i b).addr = 0x900040 + 0x10 * b := congrArg (0x900040 + ·) (Nat.mul_comm ..)
  have hexec := exec_aqBufferWrite hw hdom h5120 b 1 (by decide) v
  rw [show 4 * ((1 : Fin 4).val - 1) = 0 from rfl, Nat.add_zero, Nat.add_zero, aqWrite_bufferBase hw.2 b hoff] at hexec
  refine ⟨_, hexec, ?_, ?_, ((EventsOnly.refl s).swPut _ _).wrote ..⟩
  · rw [State.wrote_rd, State.rd, haddr]
    exact s.swPut_field (f := ⟨31, 12, .rw, 0x0⟩) (regDesc_bufferBase b) (by decide) rfl (by decide) (by decide)
  · rw [haddr]
    exact (s.swPut_regsKept _ _).wrote _ _ _

/-! ### CH_CFG -/

theorem exec_aqChCfgWrite (c : Fin 32) (v : Word) :
    exec (.aqChCfgWrite req c v) s = .next ((aqChCfg c v.toNat s).wrote req (0x900100 + 0x20 * c) v.toNat) := by
  have hdesc : ∀ c : Fin 32, (descIn .aq 0 (0x100 + 0x20 * c)).isSome = true := by decide
  have ha : 0x900000 + (0x100 + 0x20 * c.val) = 0x900100 + 0x20 * c.val := by omega
  have h := writeReg_aq (k := 0x100 + 0x20 * c) hw hdom h5120 (by omega) (hdesc c) v.isLt
  rw [aqWrite_chCfg hw.2, ha] at h
  exact congrArg Host.Outcome.next h

theorem aqChCfgWrite_leaves (ch : Fin 32) (v : Word) : Answers (exec (.aqChCfgWrite req ch v) s) (fun t =>
    t.on (AQ_CH_EN.i ch) = bit v.toNat 31 ∧ t.rd (AQ_CH_PHASE.i ch) = min 2559 (v.toNat % 4096) ∧
      (s.on (AQ_CH_EN.i ch) = false → bit v.toNat 31 = true → (t.aqCh ch).left = s.rd (AQ_BANK_SETTLE.i (ch.val / 8))) ∧
      (∀ c, c ≠ ch.val → t.aqCh c = s.aqCh c) ∧
      RegsKept [(AQ_CH_EN.i ch).addr, (AQ_CH_CAUSE.i ch).addr] s t ∧ t = { s.withAccess t with aq := t.aq }) := by
  obtain ⟨hmarks, hleft⟩ := aqChCfg_marks ch v.toNat s
  obtain ⟨hen, hphase⟩ := s.storeChCfg_shows ch v.toNat
  have hregs := s.storeChCfg_regsKept ch v.toNat
  have hev := s.storeChCfg_events ch v.toNat
  have hcfg : (AQ_CH_EN.i ch).addr ∉ [causeReg ch] := fun hin => chCfg_ne_causeReg ch ch (List.mem_singleton.1 hin)
  have hbank : (AQ_BANK_SETTLE.i (ch.val / 8)).addr ∉ [(AQ_CH_EN.i ch).addr] := by
    have hne : 0x900010 + ch.val / 8 * 4 ≠ 0x900100 + ch.val * 0x20 := by omega
    exact fun hin => hne (List.mem_singleton.1 hin)
  refine ⟨_, exec_aqChCfgWrite hw hdom h5120 ch v, ?_, ?_, fun hwas hnow => ?_, fun c hc => ?_, RegsKept.wrote ?_ _ _ _,
    (hev.aqEvents.trans hmarks.events).wrote ..⟩
  · rw [State.wrote_on, hmarks.kept.on _ hcfg, hen]
  · rw [State.wrote_rd, hmarks.kept.rd (AQ_CH_PHASE.i ch) hcfg, hphase]
  · rw [State.wrote_aqCh, hleft hwas hnow, hregs.rd _ hbank]
  · rw [State.wrote_aqCh, hmarks.others c hc, hev.aqCh_eq]
  · exact (hregs.mono fun a ha => List.mem_singleton.1 ha ▸ .head _).trans hmarks.kept
      fun a ha => List.mem_singleton.1 ha ▸ .tail _ (.head _)

/-! ### AQ_CTRL -/

theorem exec_aqCtrlWrite (v : Word) : exec (.aqCtrlWrite req v) s = .next ((aqCtrl v.toNat s).wrote req 0x900000 v.toNat) := by
  have h := writeReg_aq (k := 0) hw hdom h5120 (by decide) (by decide) v.isLt
  rw [aqWrite_ctrl hw.2] at h
  exact congrArg Host.Outcome.next h

end

/-- What a write of AQ_CTRL leaves (R198, R209). -/
theorem aqCtrl_leaves (v : Nat) (s : State) : (aqCtrl v s).on AQ_CTRL_EN = bit v 31 ∧ AqEvents s (aqCtrl v s) ∧
    (bit v 31 = false → RegsKept [0x900000] s (aqCtrl v s) ∧ (aqCtrl v s).aq.ch = s.aq.ch) ∧
    (s.on AQ_CTRL_EN = true → bit v 31 = false → ∀ p ∈ (aqCtrl v s).aq.due, 4 ≤ p.1) ∧
    (s.on AQ_CTRL_EN = false → bit v 31 = true → ∀ c, c < 32 → s.on (AQ_CH_EN.i c) = true → Marked c 1 s (aqCtrl v s)) := by
  have hen := s.swPut_aqCtrl v
  have hregs := s.swPut_regsKept 0x900000 v
  have hev := (EventsOnly.refl s).swPut 0x900000 v
  have hch : (s.swPut 0x900000 v).aq.ch = s.aq.ch := by rw [hev.aq_eq]
  rw [aqCtrl_eq]
  generalize s.swPut 0x900000 v = u at *
  split
  · next hstart =>
    obtain ⟨-, hnow⟩ := hstart
    obtain ⟨n, hn⟩ := u.banksStarted_eq
    have hen' : (u.withNext n).on AQ_CTRL_EN = bit v 31 := (u.withNext_on n _).trans hen
    have hregs' := hregs.withNext n
    have hev' := hev.aqEvents.withNext n
    rw [hn]
    generalize u.withNext n = w at *
    have hkept := w.settleAll_regsKept (List.range 32) 1
    have hctrl : AQ_CTRL_EN.addr ∉ (List.range 32).map causeReg := by decide
    refine ⟨(hkept.on _ hctrl).trans hen', hev'.trans (w.settleAll_aqEvents ..),
      fun h => absurd (h.symm.trans hnow) Bool.false_ne_true, fun _ h => absurd (h.symm.trans hnow) Bool.false_ne_true,
      fun _ _ c hc hon => ?_⟩
    have hcfg : (AQ_CH_EN.i c).addr ∉ [0x900000] := by
      have hne : 0x900100 + c * 0x20 ≠ 0x900000 := by omega
      exact fun hin => hne (List.mem_singleton.1 hin)
    have hbank : (AQ_BANK_SETTLE.i (c / 8)).addr ∉ [0x900000] := by
      have hne : 0x900010 + c / 8 * 4 ≠ 0x900000 := by omega
      exact fun hin => hne (List.mem_singleton.1 hin)
    obtain ⟨hleft, hcause⟩ := w.settleAll_marks (c := c) (cause := 1) (by decide) (by omega) (List.mem_range.2 hc)
      ((hregs'.on _ hcfg).trans hon)
    exact ⟨hleft.trans (hregs'.rd _ hbank), hcause⟩
  · next hstart =>
    split
    · obtain ⟨hstop, hregs', hch', hdue⟩ := u.banksStopped_leaves
      refine ⟨(hregs'.on _ List.not_mem_nil).trans hen, hev.aqEvents.trans hstop,
        fun _ => ⟨hregs.trans hregs' fun a ha => absurd ha List.not_mem_nil, hch'.trans hch⟩, fun _ _ => hdue,
        fun hwas hnow => absurd ⟨hwas, hnow⟩ hstart⟩
    · next hstop =>
      exact ⟨hen, hev.aqEvents, fun _ => ⟨hregs, hch⟩, fun hwas hnow => absurd ⟨hwas, hnow⟩ hstop,
        fun hwas hnow => absurd ⟨hwas, hnow⟩ hstart⟩

/-! ### The statement -/

/-- Settles O29: acquisition's own commands, and the rows of the page in the order of the statement. -/
theorem acquisitionCommands : Obligations.AcquisitionCommands := by
  refine ⟨?sample, ?code, ?clamp, ?clampEnd, ?edge, ?queued, ?registers⟩
  case sample => exact fun b bits ovr k c s hruns hon hdue htime => exec_acqSampleComplete bits ovr hruns hon hdue htime
  case code =>
    exact fun c raw t lp s _ hen hraw hcode hovr hwas hset hcond => chanSample_good hen hraw hcode hovr hwas hset hcond
  case clamp => exact fun ch s hruns hidle => clampConduction_leaves hruns hidle
  case clampEnd => exact fun ch s hruns hon => clampEnd_leaves hruns hon
  case edge =>
    intro ch sub uv s hruns
    obtain ⟨hself, hothers, hedges, hframe⟩ := foldl_edgeSeen_leaves ch (s.on (AQ_CH_CMP_EN.i ch))
      (fun e => (s.cyc + 32, ch.val, e, s.gov, s.stampIn s.gov sub / 65536 - 85)) (s.cmpEdges ch uv) s
    refine ⟨_, exec_comparatorEdge ch sub uv hruns, hself, hothers, fun hen => ?_, fun hen => ?_, hframe⟩
    · rw [hedges, hen, if_pos rfl]
    · rw [hedges, hen, if_neg Bool.false_ne_true, List.append_nil]
  case queued => exact fun d c e tb ns s hedges hdue hroom => cmpCycle_delivers hedges hdue hroom
  case registers =>
    intro req s hw hdom h5120
    refine ⟨fun c e tb n rest hcal hc hq => tdcPop_leaves hw hdom h5120 hcal hc hq, aqBankWrite_stores hw hdom h5120,
      aqBankWrite_refused hw hdom h5120, aqBufferBase_stores hw hdom h5120, aqChCfgWrite_leaves hw hdom h5120, fun v => ?_⟩
    obtain ⟨hen, hev, hdark, hdue, hmarks⟩ := aqCtrl_leaves v.toNat s
    refine ⟨_, exec_aqCtrlWrite hw hdom h5120 v, ?_, fun hoff => ?_, ?_, fun hwas hnow c hc hon => ?_, hev.wrote ..⟩
    · rw [State.wrote_on, hen]
    · rw [State.wrote_aq]
      exact (hdark hoff).imp_left fun hkept => hkept.wrote _ _ _
    · rw [State.wrote_aq]
      exact hdue
    · rw [State.wrote_aqCh, State.wrote_rd]
      exact hmarks hwas hnow c hc hon

end Sys2Proof.Machine
end

section
/-!
Lanes (R237, R242, R253, R254): which operations leave the lanes and the cycle count, and what a fault, an end and a start make of a
lane's run.
-/
namespace Sys2Proof.Machine

/-! ### Operations that leave the lanes -/

/-- The lanes and the cycle count are as before. -/
structure LanesKept (s t : State) : Prop where
  ln : t.ln = s.ln
  cyc : t.cyc = s.cyc

section
variable {s t u : State}

theorem LanesKept.refl (s : State) : LanesKept s s := ⟨rfl, rfl⟩

theorem LanesKept.trans (h : LanesKept s t) (h' : LanesKept t u) : LanesKept s u := ⟨h'.ln.trans h.ln, h'.cyc.trans h.cyc⟩

theorem LanesKept.ite {c : Prop} [Decidable c] (h : LanesKept s t) (h' : LanesKept s u) : LanesKept s (if c then t else u) := by
  split
  · exact h
  · exact h'

theorem LanesKept.foldl {α : Type} (g : State → α → State) (l : List α) (h : LanesKept s t) (hg : ∀ t x, LanesKept t (g t x)) :
    LanesKept s (l.foldl g t) := by
  induction l generalizing t with
  | nil => exact h
  | cons x l ih => exact ih (h.trans (hg t x))

theorem LanesKept.laneRun (h : LanesKept s t) (l : Nat) : t.laneRun l = s.laneRun l := by
  rw [State.laneRun, h.ln, State.laneRun]

theorem LanesKept.withLg (h : LanesKept s t) (x : Lg) : LanesKept s { t with lg := x } := h.trans ⟨rfl, rfl⟩
theorem LanesKept.withIc (h : LanesKept s t) (x : Ic) : LanesKept s { t with ic := x } := h.trans ⟨rfl, rfl⟩
theorem LanesKept.withPr (h : LanesKept s t) (x : Pr) : LanesKept s { t with pr := x } := h.trans ⟨rfl, rfl⟩
theorem LanesKept.withDs (h : LanesKept s t) (x : Ds) : LanesKept s { t with ds := x } := h.trans ⟨rfl, rfl⟩

theorem LanesKept.wr (h : LanesKept s t) (f : Fld) (v : Nat) : LanesKept s (t.wr f v) := h.trans ⟨rfl, rfl⟩
theorem LanesKept.inc (h : LanesKept s t) (f : Fld) : LanesKept s (t.inc f) := h.trans ⟨rfl, rfl⟩
theorem LanesKept.count (h : LanesKept s t) (f : Fld) (n : Nat) : LanesKept s (t.count f n) := h.trans ⟨rfl, rfl⟩
theorem LanesKept.raise (h : LanesKept s t) (es : Nat) : LanesKept s (t.raise es) := h.trans ⟨State.raise_ln .., State.raise_cyc ..⟩
theorem LanesKept.event (h : LanesKept s t) (f : Fld) (es : Nat) : LanesKept s (t.event f es) :=
  h.trans ⟨State.event_ln .., State.event_cyc ..⟩
theorem LanesKept.record (h : LanesKept s t) (src code data : Nat) : LanesKept s (t.record src code data) := h.trans ⟨rfl, rfl⟩

/-! ### What the logic engine, the pair and containment note of a run -/

theorem LanesKept.setPrg (h : LanesKept s t) (p : Nat) (x : Prg) : LanesKept s (t.setPrg p x) := h.trans ⟨rfl, rfl⟩

theorem LanesKept.abandonSave (h : LanesKept s t) (p : Nat) : LanesKept s (t.abandonSave p) :=
  .ite h (((h.withLg _).count _ _).event _ _)

theorem LanesKept.lgStart (h : LanesKept s t) (k : Nat) (marked : Bool) : LanesKept s (t.lgStart k marked) := by
  unfold State.lgStart
  split
  · exact h
  · next p _ =>
    dsimp only
    split
    · exact .ite (.withLg (.ite ((h.abandonSave p).setPrg _ _) h) _) (.ite ((h.abandonSave p).setPrg _ _) h)
    · exact .ite ((h.abandonSave p).setPrg _ _) h

theorem LanesKept.xchCycleEnd (h : LanesKept s t) (p : Nat) : LanesKept s (t.xchCycleEnd p) := by
  unfold State.xchCycleEnd
  split
  · exact .ite (h.withLg _) h
  · exact h

theorem LanesKept.cycleTime (h : LanesKept s t) (p us : Nat) : LanesKept s (t.cycleTime p us) := h.trans ⟨rfl, rfl⟩

theorem LanesKept.cycleLate (h : LanesKept s t) (p g : Nat) : LanesKept s (t.cycleLate p g) := .ite ((h.inc _).event _ _) h

theorem LanesKept.cycleEnd (h : LanesKept s t) (p : Nat) : LanesKept s (t.cycleEnd p) := by
  unfold State.cycleEnd
  dsimp only
  split
  · exact h.xchCycleEnd p
  · exact .ite (.withLg ((((h.xchCycleEnd p).setPrg _ _).cycleTime _ _).cycleLate _ _) _)
      ((((h.xchCycleEnd p).setPrg _ _).cycleTime _ _).cycleLate _ _)

theorem LanesKept.twinQueue (h : LanesKept s t) (m : TwinOut) : LanesKept s (t.twinQueue m) := h.trans ⟨rfl, rfl⟩

theorem LanesKept.sendItems (h : LanesKept s t) (due tick grp i n ofs : Nat) (b : List Byte) :
    LanesKept s (Machine.sendItems due tick grp i n ofs b t) := by
  induction n generalizing t ofs b with
  | zero => exact h
  | succ n ih => exact .ite h (ih (h.twinQueue _) _ _)

theorem LanesKept.sendGroup (h : LanesKept s t) (tick grp : Nat) : LanesKept s (Machine.sendGroup tick grp t) := by
  unfold Machine.sendGroup
  split
  · exact h
  · exact .ite (.withPr (.foldl _ _ h fun v _ => (LanesKept.refl v).sendItems ..) _) h

theorem LanesKept.stateGroupSend (h : LanesKept s t) (task tick : Nat) : LanesKept s (Machine.stateGroupSend task tick t) :=
  .ite h (.ite (h.withPr _) (.foldl _ _ h fun v _ => (LanesKept.refl v).sendGroup ..))

theorem LanesKept.fence (h : LanesKept s t) (c : Nat) : LanesKept s (t.fence c) :=
  .ite h ((((LanesKept.ite ((h.wr _ _).wr _ _) (h.wr _ _)).event _ _).raise _).record _ _ _)

theorem LanesKept.countEcc (h : LanesKept s t) (c : Nat) : LanesKept s (t.countEcc c) := .ite ((h.withIc _).fence c) (h.withIc _)

theorem LanesKept.request (h : LanesKept s t) (r : MarkReq) : LanesKept s (t.request r) := h.withDs _

theorem LanesKept.noteHand (h : LanesKept s t) (tick cyc lane task code inv : Nat) (ready : Bool) (b : List Byte) :
    LanesKept s (t.noteHand tick cyc lane task code inv ready b) := .ite h (h.withPr _)

theorem LanesKept.requestStaged (h : LanesKept s t) (l : Nat) (r : Run) : LanesKept s (Machine.requestStaged l r t) :=
  .foldl _ _ h fun v _ => ((LanesKept.refl v).noteHand ..).request _

end

/-! ### The run of a lane -/

@[simp] theorem State.setRun_laneRun_self (s : State) (l : Nat) (r : Run) : (s.setRun l r).laneRun l = some r := aget_aput_self ..

@[simp] theorem State.dropRun_laneRun_self (s : State) (l : Nat) : (s.dropRun l).laneRun l = none := aget_adel_self ..

/-- Of two runs put into a lane the later stands. -/
theorem State.setRun_setRun (s : State) (l : Nat) (r q : Run) : (s.setRun l r).setRun l q = s.setRun l q :=
  congrArg (fun m => { s with ln := { s.ln with runs := m } }) (aput_aput ..)

/-- A lane fault stops the run and stages nothing of it (R253). -/
theorem laneFault_laneRun {s : State} {l : Nat} {r : Run} (h : s.laneRun l = some r) (cause : Nat) :
    (laneFault l cause s).laneRun l = some { r with stopped := true, staged := [] } := by
  unfold laneFault
  rw [h]
  exact ((LanesKept.ite (((LanesKept.refl _).raise _).countEcc _) ((LanesKept.refl _).raise _)).laneRun l).trans
    (State.setRun_laneRun_self ..)

theorem laneFault_cyc (l cause : Nat) (s : State) : (laneFault l cause s).cyc = s.cyc := ((Kept.refl s).laneFault l cause).cyc

/-- What the end of a run issues or drops (R232, R243). -/
def resultsIssued (l : Nat) (r : Run) (s : State) : State :=
  if r.stopped then s else if s.runStale l r then stopStale l r s else requestStaged l r s

/-- The lane is free, and the end of a cycle or of a map group's last task is noted (R242, R295, R472). -/
def laneLeft (l : Nat) (r : Run) (s : State) : State :=
  let t := stateGroupSend r.task r.tick (s.dropRun l)
  match t.programOf r.task with
  | none => t
  | some p => if pgIsTail (t.prg p).bytes r.task then t.cycleEnd p else t

theorem freeLane_eq (l : Nat) (r : Run) (s : State) : freeLane l r s = laneLeft l r (resultsIssued l r s) := rfl

theorem resultsIssued_cyc (l : Nat) (r : Run) (s : State) : (resultsIssued l r s).cyc = s.cyc := by
  unfold resultsIssued
  split
  · rfl
  · split
    · exact ((Kept.refl s).stopStale l r).cyc
    · exact ((LanesKept.refl s).requestStaged l r).cyc

theorem laneLeft_lanesKept (l : Nat) (r : Run) (s : State) : LanesKept (s.dropRun l) (laneLeft l r s) := by
  have hsent := (LanesKept.refl (s.dropRun l)).stateGroupSend r.task r.tick
  unfold laneLeft
  dsimp only
  split
  · exact hsent
  · exact .ite (hsent.cycleEnd _) hsent

/-- A run that leaves its lane leaves it empty (R242). -/
theorem freeLane_laneRun (l : Nat) (r : Run) (s : State) : (freeLane l r s).laneRun l = none := by
  rw [freeLane_eq, (laneLeft_lanesKept l r _).laneRun, State.dropRun_laneRun_self]

theorem freeLane_cyc (l : Nat) (r : Run) (s : State) : (freeLane l r s).cyc = s.cyc := by
  rw [freeLane_eq, (laneLeft_lanesKept l r _).cyc]
  exact resultsIssued_cyc l r s

theorem costOver_cyc (l : Nat) (r : Run) (s : State) : (costOver l r s).cyc = s.cyc := by
  rw [costOver, freeLane_cyc, (((LanesKept.refl _).inc _).event _ _).cyc, laneFault_cyc]

theorem settleLane_cyc (l : Nat) (s : State) : (settleLane l s).cyc = s.cyc := by
  unfold settleLane
  split
  · rfl
  · split
    · rfl
    · split
      · exact freeLane_cyc ..
      · exact costOver_cyc ..

end Sys2Proof.Machine
end

section
/-!
Timers (R227–R230): a timer entry with its STATE replaced, what an expiry, an arm and a cancel leave of a timer, and of the queue of
the delay lists.
-/
namespace Sys2Proof.Machine

/-! ### Slices of lists of bytes -/

theorem slice_eq_take {l : List Byte} {o n : Nat} (h : o + n ≤ l.length) : slice l o n = (l.drop o).take n := by
  have hlen : n - ((l.drop o).take n).length = 0 := by
    rw [List.length_take, List.length_drop]
    omega
  rw [slice, hlen, List.replicate_zero, List.append_nil]

theorem slice_length (l : List Byte) (o n : Nat) : (slice l o n).length = n := by
  rw [slice, List.length_append, List.length_replicate, List.length_take, List.length_drop]
  omega

/-- The front of a list, and what stands behind it. -/
theorem slice_append_front (a b : List Byte) : slice (a ++ b) 0 a.length = a := by
  rw [slice_eq_take (by simp), List.drop_zero, List.take_left]

theorem slice_append_behind (a b : List Byte) (k n : Nat) : slice (a ++ b) (a.length + k) n = slice b k n := by
  rw [slice, List.drop_append, List.drop_eq_nil_of_le (by omega), List.nil_append, Nat.add_sub_cancel_left, slice]

/-! ### STATE of a timer entry -/

section
variable {b : List Byte} (hb : 2 ≤ b.length)
include hb

theorem withState_eq (v : Nat) : withState b v = leBytes 2 (setBits (leAt b 0 2) 15 14 v) ++ b.drop 2 := by
  rw [withState, splice, List.take_zero, List.nil_append, List.take_of_length_le (by rw [leBytes_length]; exact hb), leBytes_length]

theorem mState_withState (v : Nat) : mState (withState b v) = v % 4 := by
  have hlt : setBits (leAt b 0 2) 15 14 v < 2 ^ 16 := by
    refine setBits_lt _ _ _ _ _ (by decide) (by decide) ?_
    rw [leAt]
    simpa [slice_length] using leNat_lt (slice b 0 2)
  have hfield := bits_setBits_self (leAt b 0 2) 15 14 v (by decide)
  have hfront := slice_append_front (leBytes 2 (setBits (leAt b 0 2) 15 14 v)) (b.drop 2)
  rw [leBytes_length] at hfront
  rw [mState, leAt, withState_eq hb, hfront, leNat_leBytes, show 256 ^ 2 = 2 ^ 16 by rfl, Nat.mod_eq_of_lt hlt]
  rw [bits, Nat.shiftRight_eq_div_pow] at hfield
  omega

theorem withState_length (v : Nat) : (withState b v).length = b.length := by
  rw [withState_eq hb, List.length_append, leBytes_length, List.length_drop]
  omega

end

/-! ### Updates of timers -/

section
variable {s t : State} {i : Nat}

@[simp] theorem State.setTimer_timer_self (s : State) (i : Nat) (x : Timer) : (s.setTimer i x).timer i = x := agetD_aput_self ..

theorem State.timer_of_ds (h : t.ds.timers = s.ds.timers) (i : Nat) : t.timer i = s.timer i := by
  rw [State.timer, h, State.timer]

@[simp] theorem State.inc_timer (s : State) (f : Fld) (i : Nat) : (s.inc f).timer i = s.timer i := rfl

/-- The clock, the start-of-cycle registers and the queue of the delay lists are as before. -/
structure ArmsKept (s t : State) : Prop where
  clk : t.clk = s.clk
  regs0 : t.regs0 = s.regs0
  arms : t.ds.arms = s.ds.arms

theorem ArmsKept.refl (s : State) : ArmsKept s s := ⟨rfl, rfl, rfl⟩

theorem ArmsKept.now (h : ArmsKept s t) : t.now = s.now := by
  rw [State.now, State.tb, h.clk, State.gov, State.rd0, State.word0, h.regs0]
  rfl

theorem ArmsKept.inc (h : ArmsKept s t) (f : Fld) : ArmsKept s (t.inc f) := ⟨h.clk, h.regs0, h.arms⟩
theorem ArmsKept.setTimer (h : ArmsKept s t) (i : Nat) (x : Timer) : ArmsKept s (t.setTimer i x) := ⟨h.clk, h.regs0, h.arms⟩

theorem ArmsKept.timerMark (h : ArmsKept s t) (exp : Nat) (r : MarkReq) : ArmsKept s (t.timerMark exp r) := by
  unfold State.timerMark
  split
  · exact ⟨h.clk, h.regs0, h.arms⟩
  · exact ⟨h.clk, h.regs0, h.arms⟩

theorem State.timerMark_timer (s : State) (exp : Nat) (r : MarkReq) (i : Nat) : (s.timerMark exp r).timer i = s.timer i := by
  refine State.timer_of_ds ?_ i
  unfold State.timerMark
  split
  · rfl
  · rfl

/-! ### Expiry (R229, R230, R232, R234) -/

/-- An instant that a step carried the base past counts in STEP_FIRE (R234). -/
def State.noteStep (s : State) (v : Nat) : State := if s.stepped v = true then s.inc DS_G_STEP_FIRE else s

theorem State.noteStep_cyc (s : State) (v : Nat) : (s.noteStep v).cyc = s.cyc := by
  unfold State.noteStep
  split
  · rfl
  · rfl

theorem ArmsKept.noteStep (s : State) (v : Nat) : ArmsKept s (s.noteStep v) := by
  unfold State.noteStep
  split
  · exact (ArmsKept.refl s).inc _
  · exact .refl s

/-- The timer that an expiry leaves with STATE `v`: 2 fired, 3 cancelled. -/
def State.timerEnded (s : State) (i v : Nat) : State :=
  (s.noteStep (s.timer i).exp).setTimer i { s.timer i with bytes := withState (s.timer i).bytes v }

theorem State.timerEnded_state (s : State) (i : Nat) {v : Nat} (hv : v < 4) (hb : 2 ≤ (s.timer i).bytes.length) :
    mState ((s.timerEnded i v).timer i).bytes = v := by
  rw [State.timerEnded, State.setTimer_timer_self, mState_withState hb, Nat.mod_eq_of_lt hv]

theorem State.timerEnded_length (s : State) (i v : Nat) (hb : 2 ≤ (s.timer i).bytes.length) :
    2 ≤ ((s.timerEnded i v).timer i).bytes.length := by
  rw [State.timerEnded, State.setTimer_timer_self, withState_length hb]
  exact hb

theorem ArmsKept.timerEnded (s : State) (i v : Nat) : ArmsKept s (s.timerEnded i v) := (ArmsKept.noteStep ..).setTimer _ _

/-- A watched slot's mark stands against the expiry of timer `i` (R230): noted before, or written in this cycle. -/
def State.watchHit (s : State) (i : Nat) : Prop :=
  (s.timer i).seen = true ∨ (s.noteStep (s.timer i).exp).marking.any
    (fun k => (s.noteStep (s.timer i).exp).arrivesAt k (s.timer i)) = true

/-- The mark that a timer requests as it fires (R229). -/
def State.fireMark (s : State) (i : Nat) : MarkReq :=
  { due := s.cyc + 6, kind := 2, ord := (s.timer i).exp * 16384 + i, seq := 0, slot := mSlot (s.timer i).bytes,
    value := leBytes 4 i ++ leBytes 4 (leAt (s.timer i).bytes 12 4 % 2 ^ 20), qual := 0, vi := mVi (s.timer i).bytes,
    gen := mGen (s.timer i).bytes }

theorem expireTimer_stale (h : mGen (s.timer i).bytes ≠ (s.noteStep (s.timer i).exp).gen (mVi (s.timer i).bytes)) :
    expireTimer i s = (s.timerEnded i 3).inc DS_G_GEN_DROP := if_pos h

theorem expireTimer_watched (h : mGen (s.timer i).bytes = (s.noteStep (s.timer i).exp).gen (mVi (s.timer i).bytes))
    (hw : mWatch (s.timer i).bytes = true) (hit : s.watchHit i) : expireTimer i s = (s.timerEnded i 3).inc DS_G_WATCH_CANCEL :=
  (if_neg (not_not_intro h)).trans (if_pos ⟨hw, hit⟩)

theorem expireTimer_fires (h : mGen (s.timer i).bytes = (s.noteStep (s.timer i).exp).gen (mVi (s.timer i).bytes))
    (hw : ¬ (mWatch (s.timer i).bytes = true ∧ s.watchHit i)) :
    expireTimer i s = (s.timerEnded i 2).timerMark (s.timer i).exp (s.fireMark i) := by
  rw [State.fireMark, ← s.noteStep_cyc (s.timer i).exp]
  exact (if_neg (not_not_intro h)).trans (if_neg hw)

/-- An expiry makes a timer FIRED or CANCELLED, and leaves the clock and the queue of the delay lists. -/
theorem expireTimer_leaves (i : Nat) (s : State) :
    ArmsKept s (expireTimer i s) ∧ ∃ v, (expireTimer i s).timer i = (s.timerEnded i v).timer i := by
  by_cases h : mGen (s.timer i).bytes = (s.noteStep (s.timer i).exp).gen (mVi (s.timer i).bytes)
  · by_cases hw : mWatch (s.timer i).bytes = true ∧ s.watchHit i
    · rw [expireTimer_watched h hw.1 hw.2]
      exact ⟨(ArmsKept.timerEnded ..).inc _, 3, State.inc_timer ..⟩
    · rw [expireTimer_fires h hw]
      exact ⟨(ArmsKept.timerEnded ..).timerMark _ _, 2, State.timerMark_timer ..⟩
  · rw [expireTimer_stale h]
    exact ⟨(ArmsKept.timerEnded ..).inc _, 3, State.inc_timer ..⟩

/-! ### Arms and cancels (R228) -/

/-- A request finds an expiry that is due done (R228). -/
def State.expireDue (s : State) (i : Nat) : State := if s.timerDue i then expireTimer i s else s

theorem State.expireDue_armsKept (s : State) (i : Nat) : ArmsKept s (s.expireDue i) := by
  unfold State.expireDue
  split
  · exact (expireTimer_leaves i s).1
  · exact .refl s

theorem State.expireDue_length (s : State) (i : Nat) (hb : 2 ≤ (s.timer i).bytes.length) :
    2 ≤ ((s.expireDue i).timer i).bytes.length := by
  unfold State.expireDue
  split
  · obtain ⟨-, v, hv⟩ := expireTimer_leaves i s
    rw [hv]
    exact s.timerEnded_length i v hb
  · exact hb

/-- What an arm leaves (R228, R466): the queue, and the timer's expiry and arming instants. -/
theorem applyArm_leaves (r : ArmReq) (s : State) : (applyArm r s).ds.arms = s.ds.arms ∧
    ((applyArm r s).timer r.timer).exp = (ceilDiv (r.inst.getD s.now) uUs + r.delay) * uUs ∧
    ((applyArm r s).timer r.timer).armAt = r.inst.getD s.now ∧ ((applyArm r s).timer r.timer).seen = false := by
  have hkept := s.expireDue_armsKept r.timer
  have hset : ∃ x : Timer, applyArm r s = (s.expireDue r.timer).setTimer r.timer x ∧
      x.exp = (ceilDiv (r.inst.getD (s.expireDue r.timer).now) uUs + r.delay) * uUs ∧
      x.armAt = r.inst.getD (s.expireDue r.timer).now ∧ x.seen = false := ⟨_, rfl, rfl, rfl, rfl⟩
  obtain ⟨x, hx, hexp, harm, hseen⟩ := hset
  rw [hx, State.setTimer_timer_self, ← hkept.now]
  exact ⟨(hkept.setTimer _ _).arms, hexp, harm, hseen⟩

/-- What a cancel leaves: the queue, and the timer CANCELLED. -/
theorem applyCancel_leaves (r : ArmReq) (s : State) : (applyCancel r s).ds.arms = s.ds.arms ∧
    (2 ≤ (s.timer r.timer).bytes.length → mState ((applyCancel r s).timer r.timer).bytes = 3) := by
  have hset : applyCancel r s = (s.expireDue r.timer).setTimer r.timer { (s.expireDue r.timer).timer r.timer with
      bytes := withState ((s.expireDue r.timer).timer r.timer).bytes 3 } := rfl
  rw [hset, State.setTimer_timer_self]
  exact ⟨((s.expireDue_armsKept r.timer).setTimer _ _).arms, fun hb => mState_withState (s.expireDue_length r.timer hb) 3⟩

theorem State.takeArm_front {r : ArmReq} {rest : List ArmReq} {arm : Bool} (h : s.ds.arms = r :: rest) (hdue : r.due ≤ s.cyc)
    (harm : r.arm = arm) : s.takeArm arm = some (r, { s with ds := { s.ds with arms := rest } }) := by
  rw [State.takeArm, h]
  exact if_pos ⟨hdue, harm⟩

end

end Sys2Proof.Machine
end

section
/-!
Ends of runs and timers: the rows RUN_END, COST_OVER_STOP, TIMER_ARM_APPLY, TIMER_CANCEL_APPLY and TIMER_EXPIRY, and their statement
(R212, R228–R230, R232, R242, R243).
-/
namespace Sys2Proof.Machine

section
variable {l : Fin 256} {r : Run} {s : State} (hruns : s.runs (2 + l.val / 64) = true) (hrun : s.laneRun l = some r)
  (hover : r.start + r.cost ≤ s.cyc)
include hruns hrun hover

theorem exec_runEnd (hend : r.ended = true ∨ r.stopped = true) : exec (.runEnd l) s = .next (freeLane l r s) := by
  have hexec : exec (.runEnd l) s = execRunEnd l s := rfl
  rw [hexec, execRunEnd, whileOn_runs hruns, hrun]
  exact if_pos ⟨hend, hover⟩

theorem exec_costOverStop (hend : r.ended = false) (hstop : r.stopped = false) :
    exec (.costOverStop l) s = .next (costOver l r s) := by
  have hexec : exec (.costOverStop l) s = execCostOverStop l s := rfl
  rw [hexec, execCostOverStop, whileOn_runs hruns, hrun]
  exact if_pos ⟨by simp [hend], by simp [hstop], hover⟩

end

theorem costOver_laneRun (l : Nat) (r : Run) (s : State) : (costOver l r s).laneRun l = none := freeLane_laneRun ..

section
variable {r : ArmReq} {rest : List ArmReq} {s : State} (hruns : s.runs 6 = true) (harms : s.ds.arms = r :: rest) (hdue : r.due ≤ s.cyc)
include hruns harms hdue

theorem exec_timerArmApply (harm : r.arm = true) :
    exec .timerArmApply s = .next (applyArm r { s with ds := { s.ds with arms := rest } }) := by
  have hexec : exec .timerArmApply s = execTimerArmApply s := rfl
  rw [hexec, execTimerArmApply, whileOn_runs hruns, State.takeArm_front harms hdue harm]

theorem exec_timerCancelApply (harm : r.arm = false) :
    exec .timerCancelApply s = .next (applyCancel r { s with ds := { s.ds with arms := rest } }) := by
  have hexec : exec .timerCancelApply s = execTimerCancelApply s := rfl
  rw [hexec, execTimerCancelApply, whileOn_runs hruns, State.takeArm_front harms hdue harm]

end

theorem exec_timerExpiry {i : Fin 16384} {s : State} (hruns : s.runs 6 = true) (hdue : s.timerDue i = true) :
    exec (.timerExpiry i) s = .next (expireTimer i s) := by
  have hexec : exec (.timerExpiry i) s = execTimerExpiry i s := rfl
  rw [hexec, execTimerExpiry, whileOn_runs hruns]
  exact if_pos hdue

/-- Settles O31: each row takes its own branch, and the run's lane, the queue and the timer are as its operation leaves them. -/
theorem runEndsAndTimers : Obligations.RunEndsAndTimers := by
  refine ⟨?runs, ?arms, ?expiry⟩
  case runs =>
    intro l r s hruns hrun hover
    exact ⟨fun hend => ⟨_, exec_runEnd hruns hrun hover hend, rfl, freeLane_laneRun ..⟩,
      fun hend hstop => ⟨_, exec_costOverStop hruns hrun hover hend hstop, rfl, costOver_laneRun ..⟩⟩
  case arms =>
    rintro r rest s u hruns harms hdue rfl
    exact ⟨fun harm => ⟨_, exec_timerArmApply hruns harms hdue harm, rfl, applyArm_leaves ..⟩,
      fun harm => ⟨_, exec_timerCancelApply hruns harms hdue harm, rfl, applyCancel_leaves ..⟩⟩
  case expiry =>
    rintro i b s u hruns hdue rfl hlen rfl
    refine ⟨fun hgen => ?stale, fun hgen hwatch hit => ?watched, fun hgen hfree => ?fires⟩
    case stale =>
      refine ⟨_, exec_timerExpiry hruns hdue, expireTimer_stale hgen, ?_⟩
      rw [expireTimer_stale hgen, State.inc_timer, s.timerEnded_state i (by decide) hlen]
    case watched =>
      refine ⟨_, exec_timerExpiry hruns hdue, expireTimer_watched hgen hwatch hit, ?_⟩
      rw [expireTimer_watched hgen hwatch hit, State.inc_timer, s.timerEnded_state i (by decide) hlen]
    case fires =>
      have hno : ¬ (mWatch (s.timer i).bytes = true ∧ s.watchHit i) := by
        rintro ⟨hwatch, hit⟩
        rcases hfree with hoff | ⟨hseen, hmark⟩
        · exact Bool.false_ne_true (hoff.symm.trans hwatch)
        · exact hit.elim (fun h => Bool.false_ne_true (hseen.symm.trans h)) fun h => Bool.false_ne_true (hmark.symm.trans h)
      refine ⟨_, exec_timerExpiry hruns hdue, expireTimer_fires hgen hno, ?_⟩
      rw [expireTimer_fires hgen hno, State.timerMark_timer, s.timerEnded_state i (by decide) hlen]

end Sys2Proof.Machine
end

section
/-!
Starts of runs, marks at the general port and deadlines (R215, R218–R220, R222, R223, R225, R229, R230, R232, R234, R395): the rows
SLOTTED_START, READY_START, GENERAL_PORT_MARK and DEADLINE_PASS, and their statement.
-/
namespace Sys2Proof.Machine

/-! ### The run that a start puts into its lane -/

/-- The run of task `t` as it begins in lane `l` (R218, R237, R238). -/
def runBegun (t l : Nat) (s : State) : Run :=
  let b := s.task t
  let h := s.old.load (addrCluster (l / 8) + tEntry b * 64) 16
  { task := t, vi := tVi b, gen := s.gen (tVi b), flow := if tReady b then tFlow b else 0, ready := tReady b, start := s.cyc,
    startCy := s.tickCy, tick := s.tickG, cost := tCost b, entry := tEntry b, ibase := leAt h 0 4, isize := leAt h 4 4,
    next := s.cyc + 10 }

/-- The run that stands in the lane after a start; one whose graph's header is lost or breaks the bounds has faulted (R238, R253). -/
theorem startRun_laneRun (t l : Nat) (p : Option Pend) (os : List Opnd) (s : State) : ∃ r : Run,
    (startRun t l p os s).laneRun l = some r ∧ r.task = t ∧ r.start = s.cyc ∧ r.cost = tCost (s.task t) ∧ r.ended = false := by
  have hrun (v : State) (m : Bool) : ((v.setRun l (runBegun t l s)).lgStart t m).laneRun l = some (runBegun t l s) := by
    rw [((LanesKept.refl _).lgStart t m).laneRun, State.setRun_laneRun_self]
  unfold startRun
  dsimp only
  split
  · exact ⟨_, laneFault_laneRun (hrun _ _) 6, rfl, rfl, rfl, rfl⟩
  · split
    · exact ⟨_, laneFault_laneRun (hrun _ _) 7, rfl, rfl, rfl, rfl⟩
    · exact ⟨_, hrun _ _, rfl, rfl, rfl, rfl⟩

theorem LanesKept.viCount {s t : State} (h : LanesKept s t) (f g : Fld) (v : Nat) : LanesKept s (t.viCount f g v) := (h.inc _).inc _

theorem LanesKept.countMiss (t : Nat) (os : List Opnd) (s : State) : LanesKept s (Machine.countMiss t os s) :=
  .ite ((((LanesKept.refl s).inc _).viCount _ _ _).event _ _) (.refl s)

/-! ### Slotted starts (R219, R220) -/

theorem State.noteTick_cyc (s : State) (t : Nat) : (s.noteTick t).cyc = s.cyc := by
  unfold State.noteTick
  split
  · rfl
  · rfl

/-- A slotted start: the run, with its missing triggers counted. -/
def startSlotted (t l : Nat) (s : State) : State :=
  countMiss t (s.operands t (presentSlotted s.tickG)) (startRun t l none (s.operands t (presentSlotted s.tickG)) s)

theorem startSlotted_laneRun (t l : Nat) (s : State) : ∃ r : Run, (startSlotted t l s).laneRun l = some r ∧ r.task = t ∧
    r.start = s.cyc ∧ r.cost = tCost (s.task t) ∧ r.ended = false := by
  rw [startSlotted, (LanesKept.countMiss t _ _).laneRun]
  exact startRun_laneRun ..

/-- The row of a task that is due in this cycle and has neither started nor been skipped in the tick. -/
theorem exec_slottedStart {t : Fin 8192} {s : State} (hruns : s.runs 6 = true) (hen : s.on DS_CTRL_EN = true)
    (htick : s.clk.lastTick ≠ none) (hdue : dueInTick (s.task t) s.tickG = true) (hcy : s.tickCy = tOffset (s.task t))
    (hfirst : s.startedInTick t = false) : exec (.slottedStart t) s =
      if (s.noteTick t).clusterOff (tLane (s.task t) / 8) = true then .next ((s.noteTick t).inc DS_G_FENCE_SKIP)
      else if ¬ (s.noteTick t).mayRun (tVi (s.task t)) = true then .next ((s.noteTick t).inc (VI_CNT4_HALT_SKIP.p (tVi (s.task t))))
      else .next (startSlotted t (tLane (s.task t)) (settleLane (tLane (s.task t)) (s.noteTick t))) := by
  have hexec : exec (.slottedStart t) s = execSlottedStart t s := rfl
  rw [hexec, execSlottedStart, whileOn_runs hruns]
  exact if_neg (by simp [hen, htick, hdue, hcy, hfirst])

/-! ### Ready starts (R222–R226) -/

/-- The choice of a cluster started: its lane settled, its pending run gone, its COST taken from REMAIN (R223, R225). -/
def State.readyTaken (s : State) (c t l : Nat) : State :=
  let u := (settleLane l s).dropPend t
  { u with ds := { u.ds with
    startAt := aput u.ds.startAt c s.cyc,
    remain := aput u.ds.remain (tVi (s.task t)) (s.remain (tVi (s.task t)) - tCost (s.task t)) } }

theorem State.readyTaken_cyc (s : State) (c t l : Nat) : (s.readyTaken c t l).cyc = s.cyc := settleLane_cyc l s

/-- A start later than the deadline counts DL_MISS (R224). -/
theorem exec_readyStart {c : Fin 32} {t l : Nat} {p : Pend} {s w : State} (hruns : s.runs 6 = true)
    (hfree : aget s.ds.startAt c.val ≠ some s.cyc) (hchoice : s.readyChoice c = some (t, p, l))
    (hw : w = startRun t l (some p) (s.operands t (presentReady p)) (s.readyTaken c t l)) : exec (.readyStart c) s =
      .next ((if p.deadline < s.now then ((w.inc (tcnt DS_TCNT1_DL_MISS t)).viCount DS_VI_DL_MISS VI_CNT0_DL_MISS
        (tVi (s.task t))).dsEvent DS_EVENT_DL_MISS else w).beginAgain t) := by
  have hexec : exec (.readyStart c) s = execReadyStart c s := rfl
  rw [hexec, execReadyStart, whileOn_runs hruns, if_neg hfree, hchoice, hw]
  rfl

/-! ### Marks at the general port (R217, R218, R232, R235) -/

/-- A request that takes the port: out of the queue, those held back counted. -/
def State.portTaken (s : State) (r : MarkReq) : State :=
  let u := { s with ds := { s.ds with marks := s.ds.marks.filter (fun x => x.seq != r.seq), portAt := some s.cyc } }
  u.count DS_G_PORT_HOLD u.heldMarks

theorem exec_generalPortMark {r : MarkReq} {s : State} (hruns : s.runs 6 = true) (hfree : s.ds.portAt ≠ some s.cyc)
    (hnext : s.nextMark = some r) : exec .generalPortMark s =
      if r.gen ≠ s.gen r.vi then .next (((s.portTaken r).inc DS_G_GEN_DROP).passMark r)
      else if ¬ s.on DS_CTRL_EN = true then .next ((s.portTaken r).passMark r)
      else .next ((writeMark r (s.portTaken r)).passMark r) := by
  have hexec : exec .generalPortMark s = execGeneralPortMark s := rfl
  rw [hexec, execGeneralPortMark, whileOn_runs hruns, if_neg hfree, hnext]
  rfl

/-! ### Deadlines (R222, R229, R230, R232, R234) -/

section
variable {t : Nat} {p : Pend} {s : State}

/-- No trigger is missing: the run is ready once none is still arriving. -/
theorem settlePassed_present (h : s.missing t p.deadline = false) :
    settlePassed t p s = s.setPend t { p with passed := true, ready := if s.arriving t p.deadline then none else some s.cyc } := by
  unfold settlePassed
  simp [h]

/-- A trigger is missing: the run is timed out, which counts once. -/
theorem settlePassed_missing (htime : p.timedOut = false) (h : s.missing t p.deadline = true) :
    settlePassed t p s = (s.setPend t
      { p with passed := true, timedOut := true, ready := if s.arriving t p.deadline then none else some s.cyc }).inc
        (tcnt DS_TCNT1_TIMEOUT t) := by
  unfold settlePassed
  simp [h, htime]

end

section
variable {t : Fin 8192} {p : Pend} {s : State} (hruns : s.runs 6 = true) (hpend : aget s.ds.pend t.val = some p)
  (hnew : p.passed = false) (hpast : p.deadline < s.now)
include hruns hpend hnew hpast

/-- A pending run of the generation in force whose deadline has passed is handled once. -/
theorem exec_deadlinePass : exec (.deadlinePass t) s =
    if p.gen ≠ s.gen (tVi (s.task t)) then .next ((s.dropPend t).inc DS_G_GEN_DROP)
    else if p.ready.isSome = true then .next ((s.noteStep p.deadline).setPend t { p with passed := true })
    else .next (settlePassed t p (s.noteStep p.deadline)) := by
  have hexec : exec (.deadlinePass t) s = execDeadlinePass t s := rfl
  have hstep : (if s.stepped p.deadline = true ∧ ¬ p.passed = true then s.inc DS_G_STEP_FIRE else s) = s.noteStep p.deadline := by
    simp [hnew, State.noteStep]
  rw [hexec, execDeadlinePass, whileOn_runs hruns, hpend]
  dsimp only
  rw [if_neg (by simp [hnew, hpast]), hstep]

end

/-! ### The statement -/

/-- Settles O30: each row takes its branch, and a start puts its run into the lane. -/
theorem dispatcherEvents : Obligations.DispatcherEvents := by
  refine ⟨?slotted, ?ready, ?mark, ?deadline⟩
  case slotted =>
    intro t s hruns hen htick hdue hcy hfirst
    have hexec := exec_slottedStart hruns hen htick hdue hcy hfirst
    refine ⟨fun hon hrun => ?_, fun hoff => ?_, fun hon hhalt => ?_⟩
    · rw [if_neg (by simp [hon]), if_neg (by simp [hrun])] at hexec
      obtain ⟨r, hlane, htask, hstart, hcost⟩ := startSlotted_laneRun t (tLane (s.task t))
        (settleLane (tLane (s.task t)) (s.noteTick t))
      rw [settleLane_cyc, State.noteTick_cyc] at hstart
      exact ⟨_, hexec, _, rfl, rfl, r, hlane, htask, hstart, hcost⟩
    · rw [hexec, if_pos hoff]
    · rw [hexec, if_neg (by simp [hon]), if_pos (by simp [hhalt])]
  case ready =>
    rintro c t l p s u hruns hfree hchoice rfl
    have hexec := exec_readyStart hruns hfree hchoice rfl
    obtain ⟨r, hlane, htask, hstart, -, hended⟩ := startRun_laneRun t l (some p) (s.operands t (presentReady p)) (s.readyTaken c t l)
    rw [State.readyTaken_cyc] at hstart
    refine ⟨_, rfl, fun hintime => ?_, fun hlate => ?_, r, hlane, htask, hstart, hended⟩
    · rw [hexec, if_neg (by omega)]
      rfl
    · rw [hexec, if_pos hlate]
      rfl
  case mark =>
    rintro r s u hruns hfree hnext rfl
    have hexec := exec_generalPortMark hruns hfree hnext
    refine ⟨fun hgen hen => ?_, fun hgen hoff => ?_, fun hgen => ?_⟩
    · rw [hexec, if_neg (not_not_intro hgen), if_neg (by simp [hen])]
      rfl
    · rw [hexec, if_neg (not_not_intro hgen), if_pos (by simp [hoff])]
      rfl
    · rw [hexec, if_pos hgen]
      rfl
  case deadline =>
    rintro t p s u hruns hpend hnew hpast rfl
    have hexec := exec_deadlinePass hruns hpend hnew hpast
    have hcyc := s.noteStep_cyc p.deadline
    refine ⟨fun hgen => ?_, fun hgen hready => ?_, fun hgen hready (hmiss : (s.noteStep p.deadline).missing _ _ = _) => ?_,
      fun hgen hready htime (hmiss : (s.noteStep p.deadline).missing _ _ = _) => ?_⟩
    · rw [hexec, if_pos hgen]
    · rw [hexec, if_neg (not_not_intro hgen), if_pos hready]
      rfl
    · rw [hexec, if_neg (not_not_intro hgen), if_neg (by simp [hready]), settlePassed_present hmiss, hcyc]
      rfl
    · rw [hexec, if_neg (not_not_intro hgen), if_neg (by simp [hready]), settlePassed_missing htime hmiss, hcyc]
      rfl

end Sys2Proof.Machine
end

section
/-!
The DS_ page (R211, R213, R214, R228, R233, R235): how an access of the page reaches its operation, what each operation leaves, and
the statement on the dispatcher's register commands.
-/
namespace Sys2Proof.Machine

/-! ### Accesses of the page -/

section
variable {s : State} {req : Requester} {k v : Nat}

/-- A register of the DS_ page answers one who may write. -/
theorem writeReg_ds (hw : s.Writer req) (hdom : s.dom 6 = 1) (hk : k < 0x10000) (hd : (descIn .ds 0 k).isSome = true) (hv : v < 2 ^ 32) :
    writeReg req (0x700000 + k) v s = (dsWrite req k v s).wrote req (0x700000 + k) v := by
  have hpage : (0x700000 + k) / 0x10000 = 0x70 := by omega
  have hoff : (0x700000 + k) % 0x10000 = k := by omega
  have h := writeReg_served (o := 0x700000 + k) (b := .ds) (i := 0) hw (by omega) (by rw [hpage]; rfl) (.inr hdom)
    (by rw [hoff]; exact hd) (.inl (by decide)) hv
  rwa [hoff] at h

theorem dsWrite_taskCmd (h : s.mayWrite req = true) : dsWrite req 0x14 v s = dsTaskCmd (v % 4) s := by
  simp [dsWrite, h]

theorem dsWrite_slotCmd (h : s.mayWrite req = true) : dsWrite req 0x24 v s = dsSlotCmd (v % 4) s := by
  simp [dsWrite, h]

theorem dsWrite_tmrCmd (h : s.mayWrite req = true) : dsWrite req 0x34 v s = dsTmrCmd req (v % 8) s := by
  simp [dsWrite, h]

/-- A command of DS_TASK_CMD, of DS_SLOT_CMD and of DS_TMR_CMD. -/
theorem writeReg_taskCmd (hw : s.Writer req) (hdom : s.dom 6 = 1) (hv : v < 4) :
    writeReg req 0x700014 v s = (dsTaskCmd v s).wrote req 0x700014 v := by
  have h := writeReg_ds (k := 0x14) (v := v) hw hdom (by decide) (by decide) (by omega)
  rwa [dsWrite_taskCmd hw.2, Nat.mod_eq_of_lt hv] at h

theorem writeReg_slotCmd (hw : s.Writer req) (hdom : s.dom 6 = 1) (hv : v < 4) :
    writeReg req 0x700024 v s = (dsSlotCmd v s).wrote req 0x700024 v := by
  have h := writeReg_ds (k := 0x24) (v := v) hw hdom (by decide) (by decide) (by omega)
  rwa [dsWrite_slotCmd hw.2, Nat.mod_eq_of_lt hv] at h

theorem writeReg_tmrCmd (hw : s.Writer req) (hdom : s.dom 6 = 1) (hv : v < 8) :
    writeReg req 0x700034 v s = (dsTmrCmd req v s).wrote req 0x700034 v := by
  have h := writeReg_ds (k := 0x34) (v := v) hw hdom (by decide) (by decide) (by omega)
  rwa [dsWrite_tmrCmd hw.2, Nat.mod_eq_of_lt hv] at h

theorem writeReg_cntIdx (hw : s.Writer req) (hdom : s.dom 6 = 1) (hv : v < 2 ^ 32) :
    writeReg req 0x700090 v s = (dsCntIdx v s).wrote req 0x700090 v :=
  writeReg_ds (k := 0x90) hw hdom (by decide) (by decide) hv

theorem writeReg_flowIdx (hw : s.Writer req) (hdom : s.dom 6 = 1) (hv : v < 2 ^ 32) :
    writeReg req 0x7000A0 v s = (dsFlowIdx v s).wrote req 0x7000A0 v :=
  writeReg_ds (k := 0xA0) hw hdom (by decide) (by decide) hv

end

/-! ### Updates of the dispatcher's tables alone -/

/-- Nothing but the dispatcher's tables has changed. -/
def DsOnly (s t : State) : Prop := t = { s with ds := t.ds }

section
variable {s t : State}

theorem DsOnly.regsKept (h : DsOnly s t) : RegsKept [] s t := fun a _ => by
  rw [h]
  rfl

/-- What a completed write of such an update leaves. -/
theorem DsOnly.wrote (h : DsOnly s t) (r : Requester) (o v : Nat) :
    t.wrote r o v = { s.withAccess (t.wrote r o v) with ds := (t.wrote r o v).ds } := by
  rw [State.wrote_frame, h]
  rfl

theorem State.wrote_task (s : State) (r : Requester) (o v k : Nat) : (s.wrote r o v).task k = s.task k := by
  rw [State.task, State.wrote_ds, State.task]

theorem State.wrote_slot (s : State) (r : Requester) (o v k : Nat) : (s.wrote r o v).slot k = s.slot k := by
  rw [State.slot, State.wrote_ds, State.slot]

end

/-- An event of the dispatcher touches DS_EVENT and the first pending word (R236, R486). -/
theorem RegsKept.dsEvent {s t : State} {l : List Nat} (h : RegsKept l s t) {f : Fld} (hf : f.addr ∈ l) (he : 0x30010 ∈ l) :
    RegsKept l s (t.dsEvent f) := h.event hf he

/-! ### Task descriptors (R211, R213, R233) -/

theorem putTask_dsOnly (i : Nat) (b : List Byte) (s : State) : DsOnly s (putTask i b s) := rfl

/-- A WRITE or INVALIDATE waits for the next tick start; the descriptor in force stays. -/
theorem putTask_task (i : Nat) (b : List Byte) (s : State) : (putTask i b s).task i =
    if (aget s.ds.tasks i).isSome then s.task i else List.replicate 32 0 := by
  have htasks : (putTask i b s).ds.tasks = aput s.ds.tasks i
      { agetD s.ds.tasks i { bytes := List.replicate 32 0 } with next := some b } := rfl
  rw [State.task, htasks, aget_aput_self, State.task, agetD]
  cases aget s.ds.tasks i with
  | none => rfl
  | some x => rfl

theorem putTask_next (i : Nat) (b : List Byte) (s : State) :
    (aget (putTask i b s).ds.tasks i).bind (fun x => x.next) = some b := by
  have htasks : (putTask i b s).ds.tasks = aput s.ds.tasks i
      { agetD s.ds.tasks i { bytes := List.replicate 32 0 } with next := some b } := rfl
  rw [htasks, aget_aput_self]
  rfl

/-- Its pending run is dropped; every other task and pending run stays. -/
theorem putTask_pend (i : Nat) (b : List Byte) (s : State) : aget (putTask i b s).ds.pend i = none ∧
    ∀ k, k ≠ i → aget (putTask i b s).ds.tasks k = aget s.ds.tasks k ∧ aget (putTask i b s).ds.pend k = aget s.ds.pend k :=
  ⟨aget_adel_self .., fun _ hk => ⟨aget_aput_ne _ _ hk, aget_adel_ne _ hk⟩⟩

/-! ### Operand slots (R214, R233) -/

theorem State.setSlot_slot_self (s : State) (i : Nat) (o : OpSlot) : (s.setSlot i o).slot i = o := agetD_aput_self ..
theorem State.setSlot_slot_ne (s : State) {i k : Nat} (o : OpSlot) (h : k ≠ i) : (s.setSlot i o).slot k = s.slot k :=
  agetD_aput_ne _ _ _ h

/-- The flags of a slot as a WRITE stores it: KIND and LEVEL as given, FRESH, WRITTEN and the reserved bits clear. -/
theorem slotStored_flags (b : List Byte) : leAt (slotStored b) 10 1 = leAt b 10 1 / 16 * 16 % 256 := by
  have hslice (rest : List Byte) (x : Nat) : leAt (slice b 0 10 ++ (leBytes 1 x ++ rest)) 10 1 = x % 256 := by
    have hbehind := slice_append_behind (slice b 0 10) (leBytes 1 x ++ rest) 0 1
    have hfront := slice_append_front (leBytes 1 x) rest
    rw [slice_length] at hbehind
    rw [leBytes_length] at hfront
    rw [leAt, hbehind, hfront, leNat_leBytes]
    rfl
  simp only [slotStored, List.append_assoc, hslice]

theorem slotStored_clear (b : List Byte) : sFresh (slotStored b) = false ∧ sWritten (slotStored b) = false := by
  have hbit (n : Nat) (hn : n < 4) : bit (leAt (slotStored b) 10 1) n = false := by
    rw [slotStored_flags, bit_eq_testBit, show 256 = 2 ^ 8 by rfl, Nat.testBit_mod_two_pow, show 16 = 2 ^ 4 by rfl,
      Nat.testBit_mul_two_pow]
    simp [hn]
  exact ⟨hbit 3 (by decide), hbit 2 (by decide)⟩

/-! ### The queue of the delay lists (R228) -/

/-- A request with none ahead of it applies 8 cycles later. -/
theorem State.queueArm_first {s : State} (h : s.ds.arms = []) (x : ArmReq) :
    (s.queueArm x).ds.arms = [{ x with made := s.cyc, due := s.cyc + 8 }] := by
  unfold State.queueArm
  rw [h]
  simp

/-! ### Counters and flows (R11, R226, R235) -/

/-- A latch shows a task's counters as the cycle found them, and leaves of them what the cycle's events have counted. -/
theorem dsCntIdx_latches {v a : Nat} (s : State) (ha : a = 0x3400000 + v % 8192 * 8) :
    (dsCntIdx v s).word 0x700094 = s.word0 a ∧ (dsCntIdx v s).word 0x700098 = s.word0 (a + 4) ∧
      (dsCntIdx v s).word a = s.evWord a ∧ (dsCntIdx v s).word (a + 4) = s.evWord (a + 4) ∧ EventsOnly s (dsCntIdx v s) := by
  have hidx := s.swPut_loaded 0x700090 v
  have hlatch : dsCntIdx v s = ((((s.swPut 0x700090 v).put 0x700094 ((s.swPut 0x700090 v).word0 a)).put 0x700098
      ((s.swPut 0x700090 v).word0 (a + 4))).put a ((s.swPut 0x700090 v).evWord a)).put (a + 4) ((s.swPut 0x700090 v).evWord (a + 4)) := by
    rw [ha]
    rfl
  have hw0 (x : Nat) : s.word0 x % 2 ^ 32 = s.word0 x := Nat.mod_eq_of_lt (BitVec.isLt _)
  have hev (x : Nat) : s.evWord x % 2 ^ 32 = s.evWord x := Nat.mod_eq_of_lt (BitVec.isLt _)
  rw [hlatch, hidx.word0, hidx.word0, hidx.evWord, hidx.evWord]
  refine ⟨?_, ?_, ?_, ?_, (((hidx.events.put _ _).put _ _).put _ _).put _ _⟩
  · rw [State.word_put_ne _ _ (by omega), State.word_put_ne _ _ (by omega), State.word_put_ne _ _ (by decide), State.word_put_self, hw0]
  · rw [State.word_put_ne _ _ (by omega), State.word_put_ne _ _ (by omega), State.word_put_self, hw0]
  · rw [State.word_put_ne _ _ (by omega), State.word_put_self, hev]
  · rw [State.word_put_self, hev]

theorem EventsOnly.flowState {s t : State} (h : EventsOnly s t) (f : Nat) : t.flowState f = s.flowState f := by
  rw [h]
  rfl

/-- A latch shows whether a run of the flow is in service, and how many wait for it. -/
theorem dsFlowIdx_latches (v : Nat) (s : State) : (dsFlowIdx v s).on DS_FLOW_STAT_BUSY = (s.flowState (v % 4096)).1 ∧
    (dsFlowIdx v s).rd DS_FLOW_STAT_WAITING = (s.flowState (v % 4096)).2 % 2 ^ DS_FLOW_STAT_WAITING.width ∧
    EventsOnly s (dsFlowIdx v s) := by
  have hidx := (EventsOnly.refl s).swPut 0x7000A0 v
  have hlatch : dsFlowIdx v s = ((s.swPut 0x7000A0 v).wr DS_FLOW_STAT_BUSY (b2n ((s.swPut 0x7000A0 v).flowState (v % 4096)).1)).wr
      DS_FLOW_STAT_WAITING ((s.swPut 0x7000A0 v).flowState (v % 4096)).2 := rfl
  rw [hlatch, hidx.flowState]
  refine ⟨?_, State.rd_wr_self _ _ _ ⟨by decide, by decide⟩, (hidx.wr _ _).wr _ _⟩
  rw [State.on_wr_apart _ _ _ _ (by decide) (by decide), State.on_wr_self _ _ _ (by decide)]

/-! ### The rows of the page -/

section
variable {s : State} {req : Requester} (hw : s.Writer req) (hdom : s.dom 6 = 1)
include hw hdom

theorem exec_dsTaskRead : exec (.dsTaskRead req) s =
    .next ((loadData 0x700040 8 (slice (s.task (s.rd DS_TASK_IDX_IDX % 8192)) 0 32) s).wrote req 0x700014 1) :=
  congrArg Host.Outcome.next (writeReg_taskCmd (v := 1) hw hdom (by decide))

theorem exec_dsTaskWrite {b : List Byte} (hb : b = taskStored (s.dataBytes 0x700040 8)) : exec (.dsTaskWrite req) s =
    .next ((if taskWriteOk (s.rd DS_TASK_IDX_IDX % 8192) b s = true then putTask (s.rd DS_TASK_IDX_IDX % 8192) b s
      else s.dsEvent DS_EVENT_REFUSED).wrote req 0x700014 2) := by
  rw [hb]
  exact congrArg Host.Outcome.next (writeReg_taskCmd (v := 2) hw hdom (by decide))

theorem exec_dsTaskInvalidate : exec (.dsTaskInvalidate req) s = .next ((putTask (s.rd DS_TASK_IDX_IDX % 8192)
    (withValid (slice (s.task (s.rd DS_TASK_IDX_IDX % 8192)) 0 32) false) s).wrote req 0x700014 3) :=
  congrArg Host.Outcome.next (writeReg_taskCmd (v := 3) hw hdom (by decide))

theorem exec_dsSlotRead : exec (.dsSlotRead req) s =
    .next ((loadData 0x700060 8 (s.slotNow (s.rd DS_SLOT_IDX_IDX)) s).wrote req 0x700024 1) :=
  congrArg Host.Outcome.next (writeReg_slotCmd (v := 1) hw hdom (by decide))

theorem exec_dsSlotWrite : exec (.dsSlotWrite req) s = .next ((s.setSlot (s.rd DS_SLOT_IDX_IDX)
    { bytes := slotStored (s.dataBytes 0x700060 8), new := none, group := none }).wrote req 0x700024 2) :=
  congrArg Host.Outcome.next (writeReg_slotCmd (v := 2) hw hdom (by decide))

theorem exec_dsTmrRead : exec (.dsTmrRead req) s =
    .next ((loadData 0x700080 4 (s.timer (s.rd DS_TMR_IDX_IDX % 16384)).bytes s).wrote req 0x700034 1) :=
  congrArg Host.Outcome.next (writeReg_tmrCmd (v := 1) hw hdom (by decide))

theorem exec_dsArm {a : ArmReq} (ha : a =
      { made := 0, due := 0, arm := true, timer := s.rd DS_TMR_IDX_IDX % 16384, delay := s.rd DS_TMR_DELAY_DELAY_US, gen := 0,
        who := armPlace req, setup := some (s.dataBytes 0x700080 2) }) :
    exec (.dsArm req) s = .next ((s.queueArm a).wrote req 0x700034 2) := by
  rw [ha]
  exact congrArg Host.Outcome.next (writeReg_tmrCmd (v := 2) hw hdom (by decide))

theorem exec_dsTmrCancel {c : ArmReq} (hc : c =
      { made := 0, due := 0, arm := false, timer := s.rd DS_TMR_IDX_IDX % 16384, delay := 0, gen := 0, who := armPlace req,
        setup := none }) :
    exec (.dsTmrCancel req) s = .next ((s.queueArm c).wrote req 0x700034 3) := by
  rw [hc]
  exact congrArg Host.Outcome.next (writeReg_tmrCmd (v := 3) hw hdom (by decide))

theorem dsTaskWrite_taken {b : List Byte} (hb : b = taskStored (s.dataBytes 0x700040 8))
    (hok : taskWriteOk (s.rd DS_TASK_IDX_IDX % 8192) b s = true) : Answers (exec (.dsTaskWrite req) s) (fun t =>
      (aget t.ds.tasks (s.rd DS_TASK_IDX_IDX % 8192)).bind (fun x => x.next) = some b ∧
      t.task (s.rd DS_TASK_IDX_IDX % 8192) =
        (if (aget s.ds.tasks (s.rd DS_TASK_IDX_IDX % 8192)).isSome then s.task (s.rd DS_TASK_IDX_IDX % 8192)
        else List.replicate 32 0) ∧
      aget t.ds.pend (s.rd DS_TASK_IDX_IDX % 8192) = none ∧
      (∀ k, k ≠ s.rd DS_TASK_IDX_IDX % 8192 → aget t.ds.tasks k = aget s.ds.tasks k ∧ aget t.ds.pend k = aget s.ds.pend k) ∧
      RegsKept [] s t ∧ t = { s.withAccess t with ds := t.ds }) := by
  have hexec := exec_dsTaskWrite hw hdom hb
  rw [if_pos hok] at hexec
  refine ⟨_, hexec, ?_, ?_, ?_, ?_, (putTask_dsOnly ..).regsKept.wrote _ _ _, (putTask_dsOnly ..).wrote ..⟩
  · rw [State.wrote_ds, putTask_next]
  · rw [State.wrote_task, putTask_task]
  · rw [State.wrote_ds, (putTask_pend ..).1]
  · rw [State.wrote_ds]
    exact (putTask_pend ..).2

/-- A WRITE that breaks the slotted rules of R213 raises its event and stores nothing. -/
theorem dsTaskWrite_refused {b : List Byte} (hb : b = taskStored (s.dataBytes 0x700040 8))
    (hbad : taskWriteOk (s.rd DS_TASK_IDX_IDX % 8192) b s = false) : Answers (exec (.dsTaskWrite req) s) (fun t =>
      t.on DS_EVENT_REFUSED = true ∧ RegsKept [DS_EVENT_REFUSED.addr, 0x30010] s t ∧ t = s.withAccess t) := by
  have hexec := exec_dsTaskWrite hw hdom hb
  rw [if_neg (by simp [hbad])] at hexec
  refine ⟨_, hexec, ?_, ?_, ((EventsOnly.refl s).event _ _).wrote ..⟩
  · rw [State.wrote_on]
    exact s.on_event_self _ _ (by decide) (by decide)
  · exact ((RegsKept.refl _ s).dsEvent (.head _) (.tail _ (.head _))).wrote _ _ _

theorem dsTaskInvalidate_leaves : Answers (exec (.dsTaskInvalidate req) s) (fun t =>
    (aget t.ds.tasks (s.rd DS_TASK_IDX_IDX % 8192)).bind (fun x => x.next) =
      some (withValid (slice (s.task (s.rd DS_TASK_IDX_IDX % 8192)) 0 32) false) ∧
    aget t.ds.pend (s.rd DS_TASK_IDX_IDX % 8192) = none ∧
    (∀ k, k ≠ s.rd DS_TASK_IDX_IDX % 8192 → aget t.ds.tasks k = aget s.ds.tasks k ∧ aget t.ds.pend k = aget s.ds.pend k) ∧
    RegsKept [] s t ∧ t = { s.withAccess t with ds := t.ds }) := by
  refine ⟨_, exec_dsTaskInvalidate hw hdom, ?_, ?_, ?_, (putTask_dsOnly ..).regsKept.wrote _ _ _, (putTask_dsOnly ..).wrote ..⟩
  · rw [State.wrote_ds, putTask_next]
  · rw [State.wrote_ds, (putTask_pend ..).1]
  · rw [State.wrote_ds]
    exact (putTask_pend ..).2

theorem dsSlotWrite_leaves : Answers (exec (.dsSlotWrite req) s) (fun t =>
    t.slot (s.rd DS_SLOT_IDX_IDX) = { bytes := slotStored (s.dataBytes 0x700060 8), new := none, group := none } ∧
    sFresh (t.slot (s.rd DS_SLOT_IDX_IDX)).bytes = false ∧ sWritten (t.slot (s.rd DS_SLOT_IDX_IDX)).bytes = false ∧
    (∀ i, i ≠ s.rd DS_SLOT_IDX_IDX → t.slot i = s.slot i) ∧
    RegsKept [] s t ∧ t = { s.withAccess t with ds := t.ds }) := by
  have honly (x : OpSlot) : DsOnly s (s.setSlot (s.rd DS_SLOT_IDX_IDX) x) := rfl
  refine ⟨_, exec_dsSlotWrite hw hdom, ?_, ?_, ?_, fun i hi => ?_, (honly _).regsKept.wrote _ _ _, (honly _).wrote ..⟩
  · rw [State.wrote_slot, State.setSlot_slot_self]
  · rw [State.wrote_slot, State.setSlot_slot_self]
    exact (slotStored_clear _).1
  · rw [State.wrote_slot, State.setSlot_slot_self]
    exact (slotStored_clear _).2
  · rw [State.wrote_slot, State.setSlot_slot_ne _ _ hi]

theorem dsCntLatch_leaves {v : Word} {a : Nat} (ha : a = 0x3400000 + v.toNat % 8192 * 8) :
    Answers (exec (.dsCntLatch req v) s) (fun t =>
      t.word 0x700094 = s.word0 a ∧ t.word 0x700098 = s.word0 (a + 4) ∧ t.word a = s.evWord a ∧
      t.word (a + 4) = s.evWord (a + 4) ∧ t = s.withAccess t) := by
  obtain ⟨hlo, hhi, hclearLo, hclearHi, hev⟩ := dsCntIdx_latches s ha
  refine ⟨_, congrArg Host.Outcome.next (writeReg_cntIdx hw hdom v.isLt), ?_⟩
  simp only [State.wrote_word]
  exact ⟨hlo, hhi, hclearLo, hclearHi, hev.wrote ..⟩

theorem dsFlowLatch_leaves (v : Word) : Answers (exec (.dsFlowLatch req v) s) (fun t =>
    t.on DS_FLOW_STAT_BUSY = (s.flowState (v.toNat % 4096)).1 ∧
    t.rd DS_FLOW_STAT_WAITING = (s.flowState (v.toNat % 4096)).2 % 2 ^ DS_FLOW_STAT_WAITING.width ∧ t = s.withAccess t) := by
  obtain ⟨hbusy, hwaiting, hev⟩ := dsFlowIdx_latches v.toNat s
  exact ⟨_, congrArg Host.Outcome.next (writeReg_flowIdx hw hdom v.isLt), (State.wrote_on ..).trans hbusy,
    (State.wrote_rd ..).trans hwaiting, hev.wrote ..⟩

end

/-- Settles O32: the rows of the page in the order of the statement. -/
theorem dispatcherRegisterCommands : Obligations.DispatcherRegisterCommands := by
  intro req s hw hdom
  exact ⟨exec_dsTaskRead hw hdom, fun b hb => ⟨dsTaskWrite_taken hw hdom hb, dsTaskWrite_refused hw hdom hb⟩,
    dsTaskInvalidate_leaves hw hdom, exec_dsSlotRead hw hdom, dsSlotWrite_leaves hw hdom, exec_dsTmrRead hw hdom,
    fun a c ha hc => ⟨exec_dsArm hw hdom ha, exec_dsTmrCancel hw hdom hc, fun x harms => State.queueArm_first harms x⟩,
    fun v a ha => dsCntLatch_leaves hw hdom ha, dsFlowLatch_leaves hw hdom⟩

end Sys2Proof.Machine
end

section
/-!
The frame that all kernels share (R237–R241, R251, R253): an invocation that is due takes its body's result and is charged; which
results and kept data can be written.
-/
namespace Sys2Proof.Machine

/-! ### Checks and operands -/

theorem need_of {b : Bool} (h : b = true) : need b = .ok () := if_pos h

theorem Inv.nOk_of {k : Inv} (hlo : 1 ≤ k.n) (hhi : k.n ≤ 64) : k.nOk = true := by simp [Inv.nOk, hlo, hhi]

theorem Inv.itemsFrom_length {k : Inv} {ref n i : Nat} {s : State} {xs : List Item} (h : k.itemsFrom ref s n i = .ok xs) :
    xs.length = n := by
  induction n generalizing i xs with
  | zero =>
    cases h
    rfl
  | succ n ih =>
    unfold Inv.itemsFrom at h
    split at h
    · cases h
    · split at h
      · cases h
      · next hrest =>
        cases h
        rw [List.length_cons, ih hrest]

/-- A kernel that asks for `n` items gets `n`. -/
theorem Inv.items_length {k : Inv} {ref n : Nat} {ts : List Nat} {s : State} {xs : List Item} (h : k.items ref n ts s = .ok xs) :
    xs.length = n := by
  unfold Inv.items at h
  split at h
  · cases h
  · next hfrom =>
    split at h
    · cases h
      exact Inv.itemsFrom_length hfrom
    · cases h

/-! ### Results and kept data -/

/-- Units that may all be written are written. -/
theorem Inv.CanWrite.write {k : Inv} {us : List (List Byte)} (h : k.CanWrite us) (s : State) : ∃ t, k.write k.out us s = .ok t := by
  unfold Inv.write
  refine List.foldlRecOn (motive := fun e => ∃ t, e = Except.ok t) _ _ ⟨s, rfl⟩ fun e he p hp => ?_
  obtain ⟨t, rfl⟩ := he
  obtain ⟨a, ha⟩ := h p.2 (List.mem_range.1 (List.of_mem_zip hp).2)
  rw [ha]
  exact ⟨_, rfl⟩

theorem Inv.CanGive.results {k : Inv} {rs : List Item} (h : k.CanGive rs) (s : State) : ∃ t, k.results rs s = .ok t :=
  Inv.CanWrite.write h s

/-- Kept data that could be read can be written, and a shorter piece of it. -/
theorem Inv.setData_ok {k : Inv} {n : Nat} {d x : List Byte} {s : State} (h : k.data n s = .ok d) (hx : x.length ≤ n) (t : State) :
    ∃ u, k.setData x t = .ok u := by
  have hfit : ¬ k.r.isize < k.idata + ceilDiv n 8 := by
    intro hout
    rw [Inv.data, Inv.dataAddr, if_pos hout] at h
    cases h
  have hle : ceilDiv x.length 8 ≤ ceilDiv n 8 := Nat.div_le_div_right (by omega)
  rw [Inv.setData, Inv.dataAddr, if_neg (by omega)]
  exact ⟨_, rfl⟩

theorem Inv.CanGive.finish {k : Inv} {n : Nat} {rs : List Item} {d x : List Byte} {s : State} (h : k.CanGive rs)
    (hd : k.data n s = .ok d) (hx : x.length ≤ n) : ∃ u, k.finish rs x s = .ok u := by
  obtain ⟨t, ht⟩ := h.results s
  rw [Inv.finish, ht]
  exact k.setData_ok hd hx t

/-! ### An invocation that is due -/

section
variable {s u : State} {l code : Nat} {r : Run} {k : Inv} {c : Instr} {body : Inv → State → Except Nat State}
  {o : Except Nat State}

theorem State.AtKernel.lane (h : s.AtKernel l code r k) : k.l = l := by
  rw [h.inv]
  rfl

theorem State.AtKernel.ofRun (h : s.AtKernel l code r k) : k.r = r := by
  rw [h.inv]
  rfl

/-- The body takes effect and the invocation is charged (R241). -/
theorem State.AtKernel.invoke (h : s.AtKernel l code r k) (hbody : body k s = .ok u) :
    invoke l code body s = advance l (kernelCycles code k.n) u := by
  obtain ⟨hfetch, hsound⟩ := h.sound
  obtain ⟨hended, hstopped⟩ := h.open'
  have hdue := h.due
  have hfits := h.fits
  have hopen : ¬ (k.code ≠ code ∨ r.ended = true ∨ r.stopped = true ∨ s.cyc + 1 < r.next + kernelCycles code k.n ∨
      r.start + r.cost < r.next + kernelCycles code k.n) := by
    simp only [h.kernel, hended, hstopped, ne_eq, not_true_eq_false, Bool.false_eq_true, false_or]
    omega
  unfold Machine.invoke
  rw [h.run]
  dsimp only
  rw [← h.inv, hfetch, if_neg (by decide), if_neg hopen, if_neg (by rw [h.skip]; decide), hsound, if_neg Bool.false_ne_true, hbody]

/-- The row of a kernel is its invocation, which works with the domain of the lane's quadrant. -/
theorem State.AtKernel.exec_next (h : s.AtKernel l code r k)
    (hexec : exec c s = whileOn (2 + l / 64) s (.next (Machine.invoke l code body s))) (hbody : body k s = .ok u) :
    exec c s = .next (advance l (kernelCycles code k.n) u) := by
  rw [hexec, whileOn_runs h.works, h.invoke hbody]

theorem State.AtKernel.completes (h : s.AtKernel l code r k)
    (hexec : exec c s = whileOn (2 + l / 64) s (.next (Machine.invoke l code body s))) (hbody : body k s = o) (hok : ∃ u, o = .ok u) :
    k.Completes c s o := by
  obtain ⟨u, hu⟩ := hok
  refine ⟨u, hu, ?_⟩
  rw [h.lane, h.kernel]
  exact h.exec_next hexec (hbody.trans hu)

/-- A change of the run, as the run goes on. -/
theorem State.AtKernel.advance_onRun (h : s.AtKernel l code r k) (f : Run → Run) (n : Nat) :
    advance l n (k.onRun f s) = s.setRun l { f r with inv := (f r).inv + 1, next := (f r).next + n } := by
  have hon : k.onRun f s = s.setRun l (f r) := by
    rw [Inv.onRun, h.lane, h.run]
  rw [hon, advance, State.setRun_laneRun_self]
  exact s.setRun_setRun l _ _

end

end Sys2Proof.Machine
end

section
/-!
The logic, timer and output kernels 0x30–0x3F (R228, R237–R239, R241, R243, R248, R249, R255, R257, R260, R276): what each body gives
for operands that it accepts, and their statement.
-/
namespace Sys2Proof.Machine

section
variable {k : Inv} {s : State} {xs ys : List Item} {d : List Byte}

/-! ### Gates (R249, R255) -/

/-- A gate gives one result, blocked where the policy blocks. -/
theorem gateBody_eq {lo hi t : Nat} {f : List Bool → Nat} (hlo : lo ≤ k.n) (hhi : k.n ≤ hi) (hx : k.items k.a k.n [tBOOL] s = .ok xs) :
    gateBody lo hi t f k s = k.results
      [if policyOf k.qpol false xs = .block then blocked t else resultOf xs t (f (xs.map (fun q => q.v != 0))) 0] s := by
  rw [gateBody, need_of (by simp [hlo, hhi]), hx]
  cases h : policyOf k.qpol false xs <;> simp [h]

theorem notBody_eq (hlo : 1 ≤ k.n) (hhi : k.n ≤ 64) (hx : k.items k.a k.n [tBOOL] s = .ok xs) : notBody k s = k.results
    (xs.map (fun q => if policyOf k.qpol false xs = .block then blocked tBOOL else boolOf [q] (q.v == 0))) s := by
  rw [notBody, need_of (Inv.nOk_of hlo hhi), hx]
  cases h : policyOf k.qpol false xs <;> simp [h]

theorem voteBody_eq (hm : 1 ≤ k.m) (hmn : k.m ≤ k.n) (hlo : 1 ≤ k.n) (hhi : k.n ≤ 64) (hx : k.items k.a k.n [tBOOL] s = .ok xs) :
    voteBody k s = k.results [if policyOf k.qpol false xs = .block then blocked tBOOL
      else resultOf xs tBOOL (b2n (decide (k.m ≤ ((xs.map (fun q => q.v != 0)).filter id).length))) 0] s := by
  rw [voteBody, need_of (by simp [hm, hmn])]
  exact gateBody_eq hlo hhi hx

/-! ### Edges and latches (R255) -/

/-- The memory bits of `es` elements in the 8 bytes `d`. -/
def bitsKept (d : List Byte) (es : List (Item × Bool)) : List Byte :=
  leBytes 8 (leAt d 0 8 / 2 ^ es.length * 2 ^ es.length + packBits (es.map (fun q => q.2)))

theorem bitsKept_length (d : List Byte) (es : List (Item × Bool)) : (bitsKept d es).length = 8 := leBytes_length ..

theorem edgeBody_eq {es : List (Item × Bool)} (hlo : 1 ≤ k.n) (hhi : k.n ≤ 64) (hm : k.m ≤ 2)
    (hx : k.items k.a k.n [tBOOL] s = .ok xs) (hd : k.data 8 s = .ok d) (hes : es = (xs.zip (List.range xs.length)).map
      (fun q => edgeElement (policyOf k.qpol true xs) k.m (bit (leAt d 0 8) q.2) q.1)) :
    edgeBody k s = k.finish (es.map (fun q => q.1)) (bitsKept d es) s := by
  rw [edgeBody, need_of (by simp [Inv.nOk_of hlo hhi, hm]), hx, hd, hes]
  rfl

theorem latchBody_eq {es : List (Item × Bool)} (hlo : 1 ≤ k.n) (hhi : k.n ≤ 64) (hm : k.m ≤ 1)
    (hx : k.items k.a k.n [tBOOL] s = .ok xs) (hy : k.items k.b k.n [tBOOL] s = .ok ys) (hd : k.data 8 s = .ok d)
    (hes : es = ((xs.zip ys).zip (List.range k.n)).map (fun q => latchElement (policyOf k.qpol true (xs ++ ys)) k.m
      (bit (leAt d 0 8) q.2) q.1.1 q.1.2)) : latchBody k s = k.finish (es.map (fun q => q.1)) (bitsKept d es) s := by
  rw [latchBody, need_of (by simp [Inv.nOk_of hlo hhi, hm]), hx, hy, hd, hes]
  rfl

/-! ### Timers in grid ticks (R257) -/

theorem timerBody_eq {code : Nat} (hcode : k.code = code) (hlo : 1 ≤ k.n) (hhi : k.n ≤ 64) (hx : k.items k.a k.n [tBOOL] s = .ok xs)
    (hd : k.data (16 * k.n) s = .ok d) {z : List Item × List Byte}
    (hz : z = eachElement 16 (timerElement (policyOf k.qpol true xs) code k.param (k.tick s)) xs d) :
    timerBody k s = k.finish z.1 z.2 s := by
  rw [timerBody, need_of (Inv.nOk_of hlo hhi), hx, hd, hz, hcode]

/-- The state of a timer element keeps its 16 bytes. -/
theorem timerElement_length (p : Policy) (code us g : Nat) (x : Item) {st : List Byte} (h : st.length = 16) :
    (timerElement p code us g x st).2.length = 16 := by
  cases p with
  | hold => exact h
  | block => exact leBytes_length ..
  | run =>
    unfold timerElement
    dsimp only
    split
    · exact h
    · simp [leBytes_length]

theorem eachElement_length {size : Nat} {f : Item → List Byte → Item × List Byte}
    (hf : ∀ x st, st.length = size → (f x st).2.length = size) (xs : List Item) (d : List Byte) :
    (eachElement size f xs d).2.length = size * xs.length := by
  have hsum (l : List (Item × Nat)) : ((l.map (fun q => f q.1 (slice d (size * q.2) size))).flatMap (fun r => r.2)).length =
      size * l.length := by
    induction l with
    | nil => simp
    | cons q l ih =>
      rw [List.map_cons, List.flatMap_cons, List.length_append, ih, hf _ _ (slice_length ..), List.length_cons, Nat.mul_succ,
        Nat.add_comm]
  have h := hsum (xs.zip (List.range xs.length))
  rwa [List.length_zip, List.length_range, Nat.min_self] at h

/-! ### Requests to the delay lists (R228, R249) -/

theorem tarmBody_eq {x : Item} (hp : k.param < 16384) (hx : k.items k.a 1 [tUINT] s = .ok [x])
    (hown : mVi (s.timer k.param).bytes = k.r.vi) : tarmBody k s = .ok (if policyOf k.qpol false [x] = .block then s
      else (k.note x.units.flatten s).queueArm { made := 0, due := 0, arm := true, timer := k.param, delay := x.v, gen := k.r.gen,
                                                 who := k.l, setup := none, inst := k.armInst s }) := by
  have hvi : k.ownTimer s = true := by simp [Inv.ownTimer, Nat.mod_eq_of_lt hp, hown]
  rw [tarmBody, need_of (by simp [hp]), hx]
  dsimp only
  rw [hvi, if_neg (by decide)]
  cases h : policyOf k.qpol false [x] <;> simp

theorem tcanBody_eq (hp : k.param < 16384) (hown : mVi (s.timer k.param).bytes = k.r.vi) : tcanBody k s =
    .ok ((k.note [] s).queueArm { made := 0, due := 0, arm := false, timer := k.param, delay := 0, gen := k.r.gen, who := k.l,
                                  setup := none }) := by
  have hvi : k.ownTimer s = true := by simp [Inv.ownTimer, Nat.mod_eq_of_lt hp, hown]
  rw [tcanBody, need_of (by simp [hp])]
  dsimp only
  rw [hvi, if_neg (by decide)]

/-! ### Outputs (R243, R260, R276, R305) -/

theorem postBody_eq (hp : k.param < 32768) (hd : k.unit k.a 0 s = .ok d) : postBody k s =
    .ok (k.onRun (fun r => { r with staged := r.staged ++
      [(k.r.inv, k.param, ((k.force 4 k.param 0 s).map forcedUnit).getD ((canonUnits 0 [d]).headD d))] }) s) := by
  rw [postBody, need_of (by simp [hp]), hd]
  cases k.force 4 k.param 0 s <;> rfl

theorem pubBody_eq (hlo : 1 ≤ k.n) (hhi : k.n ≤ 64) (hp : k.param ≤ 2111) (hx : k.itemsFrom k.a s k.n 0 = .ok xs) : pubBody k s =
    .ok ((k.note ((xs.zip (List.range xs.length)).flatMap
      (fun q => ((k.force 2 k.param q.2 s).map forcedUnit).getD q.1.canon.units.flatten)) s).askPub
        { lane := k.l, cb := k.param, vi := k.r.vi, gen := k.r.gen, ready := k.r.ready, tick := k.r.tick,
          items := (xs.zip (List.range xs.length)).map (fun q => ((k.force 2 k.param q.2 s).map forcedPub).getD q.1.canon.pub) }) := by
  rw [pubBody, need_of (by simp [Inv.nOk_of hlo hhi, hp]), hx]
  dsimp only
  congr 4
  · funext q
    cases k.force 2 k.param q.2 s <;> rfl
  · funext q
    cases k.force 2 k.param q.2 s <;> rfl

theorem tripBody_eq {x : Item} (hp : k.param % 16 ≤ 11) (hx : k.items k.a 1 [tBOOL] s = .ok [x]) : tripBody k s =
    .ok (tripRequest (k.param % 16) (((k.force 3 0 (k.param % 16) s).map (fun f => bit (leAt (frValue f) 0 1) 0)).getD
      (x.v != 0 && !x.ab && vRank x.q != 2)) (k.note x.units.flatten s)) := by
  rw [tripBody, need_of (by simp [hp]), hx]
  cases k.force 3 0 (k.param % 16) s <;> simp

end

/-! ### Cycles (R255) -/

theorem kernelCycles_tarm (n : Nat) : kernelCycles 0x3B n = 8 := Nat.add_eq_left.2 (Nat.zero_mul n)
theorem kernelCycles_tcan (n : Nat) : kernelCycles 0x3C n = 6 := Nat.add_eq_left.2 (Nat.zero_mul n)
theorem kernelCycles_post (n : Nat) : kernelCycles 0x3D n = 6 := Nat.add_eq_left.2 (Nat.zero_mul n)
theorem kernelCycles_pub (n : Nat) : kernelCycles 0x3E n = 12 + 2 * n := rfl
theorem kernelCycles_trip (n : Nat) : kernelCycles 0x3F n = 8 := Nat.add_eq_left.2 (Nat.zero_mul n)

/-! ### The rows -/

section
variable {l : Fin 256} {r : Run} {k : Inv} {s : State} {xs : List Item} {d : List Byte} {z : List Item × List Byte}

/-- A timer kernel completes: the data it keeps holds 16 bytes for each of its N elements. -/
theorem timerKernel_completes {code : Nat} {c : Instr} (h : s.AtKernel l code r k)
    (hexec : exec c s = whileOn (2 + l.val / 64) s (.next (invoke l code timerBody s))) (hlo : 1 ≤ k.n) (hhi : k.n ≤ 64)
    (hx : k.items k.a k.n [tBOOL] s = .ok xs) (hd : k.data (16 * k.n) s = .ok d)
    (hz : z = eachElement 16 (timerElement (policyOf k.qpol true xs) code k.param (k.tick s)) xs d) (hgive : k.CanGive z.1) :
    k.Completes c s (k.finish z.1 z.2 s) := by
  have hlen : z.2.length = 16 * k.n := by
    rw [hz, eachElement_length (fun x st => timerElement_length _ _ _ _ x), Inv.items_length hx]
  exact h.completes hexec (timerBody_eq h.kernel hlo hhi hx hd hz) (hgive.finish hd hlen.le)

theorem exec_kTarm {x : Item} {a : ArmReq} (h : s.AtKernel l 0x3B r k) (hp : k.param < 16384)
    (hx : k.items k.a 1 [tUINT] s = .ok [x]) (hown : mVi (s.timer k.param).bytes = r.vi)
    (ha : a = { made := 0, due := 0, arm := true, timer := k.param, delay := x.v, gen := r.gen, who := l, inst := k.armInst s }) :
    exec (.kTarm l) s =
      .next (advance l 8 (if policyOf k.qpol false [x] = .block then s else (k.note x.units.flatten s).queueArm a)) := by
  have hbody := tarmBody_eq hp hx (by rw [h.ofRun]; exact hown)
  rw [h.exec_next rfl hbody, kernelCycles_tarm, h.ofRun, h.lane, ha]

theorem exec_kTcan (h : s.AtKernel l 0x3C r k) (hp : k.param < 16384) (hown : mVi (s.timer k.param).bytes = r.vi) :
    exec (.kTcan l) s = .next (advance l 6 ((k.note [] s).queueArm
      { made := 0, due := 0, arm := false, timer := k.param, delay := 0, gen := r.gen, who := l, setup := none })) := by
  have hbody := tcanBody_eq hp (by rw [h.ofRun]; exact hown)
  rw [h.exec_next rfl hbody, kernelCycles_tcan, h.ofRun, h.lane]

theorem exec_kPost {u : List Byte} (h : s.AtKernel l 0x3D r k) (hp : k.param < 32768) (hd : k.unit k.a 0 s = .ok d)
    (hu : u = ((k.force 4 k.param 0 s).map forcedUnit).getD ((canonUnits 0 [d]).headD d)) :
    exec (.kPost l) s = .next (s.setRun l
      { r with staged := r.staged ++ [(r.inv, k.param, u)], inv := r.inv + 1, next := r.next + 6 }) := by
  rw [h.exec_next rfl (postBody_eq hp hd), kernelCycles_post, h.advance_onRun, h.ofRun, hu]

theorem exec_kPub {u : List Byte} {items : List PubItem} (h : s.AtKernel l 0x3E r k) (hlo : 1 ≤ k.n) (hhi : k.n ≤ 64)
    (hp : k.param ≤ 2111) (hx : k.itemsFrom k.a s k.n 0 = .ok xs)
    (hitems : items = (xs.zip (List.range xs.length)).map (fun q => ((k.force 2 k.param q.2 s).map forcedPub).getD q.1.canon.pub))
    (hu : u = (xs.zip (List.range xs.length)).flatMap
      (fun q => ((k.force 2 k.param q.2 s).map forcedUnit).getD q.1.canon.units.flatten)) :
    exec (.kPub l) s = .next (advance l (12 + 2 * k.n) ((k.note u s).askPub
      { lane := l, cb := k.param, items := items, vi := r.vi, gen := r.gen, ready := r.ready, tick := r.tick })) := by
  rw [h.exec_next rfl (pubBody_eq hlo hhi hp hx), kernelCycles_pub, h.ofRun, h.lane, hu, hitems]

theorem exec_kTrip {x : Item} (h : s.AtKernel l 0x3F r k) (hp : k.param % 16 ≤ 11) (hx : k.items k.a 1 [tBOOL] s = .ok [x]) :
    exec (.kTrip l) s = .next (advance l 8 (tripRequest (k.param % 16) (((k.force 3 0 (k.param % 16) s).map
      (fun f => bit (leAt (frValue f) 0 1) 0)).getD (x.v != 0 && !x.ab && vRank x.q != 2)) (k.note x.units.flatten s))) := by
  rw [h.exec_next rfl (tripBody_eq hp hx), kernelCycles_trip]

end

/-- Settles O36: each body gives its result for operands that it accepts, and the frame of the kernels charges it. -/
theorem logicKernelsComplete : Obligations.LogicKernelsComplete := by
  intro l r k s x xs ys rs d u z es items a
  refine ⟨?and, ?or, ?xor, ?not, ?edge, ?latch, ?vote, ?pack, ?ton, ?tof, ?tpls, ?tarm, ?tcan, ?post, ?pub, ?trip⟩
  case and | or | xor | pack =>
    rintro h hlo hhi hx rfl hgive
    exact h.completes rfl (gateBody_eq hlo hhi hx) (hgive.results s)
  case not =>
    rintro h hlo hhi hx rfl hgive
    exact h.completes rfl (notBody_eq hlo hhi hx) (hgive.results s)
  case vote =>
    rintro h hm hmn hlo hhi hx rfl hgive
    exact h.completes rfl (voteBody_eq hm hmn hlo hhi hx) (hgive.results s)
  case edge =>
    rintro h hlo hhi hm hx hd hes rfl hgive
    exact h.completes rfl (edgeBody_eq hlo hhi hm hx hd hes) (hgive.finish hd (bitsKept_length d es).le)
  case latch =>
    rintro h hlo hhi hm hx hy hd hes rfl hgive
    exact h.completes rfl (latchBody_eq hlo hhi hm hx hy hd hes) (hgive.finish hd (bitsKept_length d es).le)
  case ton | tof | tpls => exact fun h hlo hhi hx hd hz hgive => timerKernel_completes h rfl hlo hhi hx hd hz hgive
  case tarm => exact fun h hp hx hown ha => exec_kTarm h hp hx hown ha
  case tcan => exact fun h hp hown => exec_kTcan h hp hown
  case post => exact fun h hp hd hu => exec_kPost h hp hd hu
  case pub => exact fun h hlo hhi hp hx hitems hu => exec_kPub h hlo hhi hp hx hitems hu
  case trip => exact fun h hp hx => exec_kTrip h hp hx

end Sys2Proof.Machine
end

section
/-!
Faults, skips and written units of all kernels (R237–R241, R251, R253): what a lane fault, a skipped invocation and the units that
an invocation fills change and leave.
-/
namespace Sys2Proof.Machine

/-! ### Lane faults (R253) -/

section
variable (s : State)

theorem State.memByte_mapStore_apart {a x : Nat} {l : List Byte} (h : x < a ∨ a + l.length ≤ x) :
    (s.mapStore a l).memByte x = s.memByte x := by
  unfold State.mapStore
  split
  · rfl
  · exact s.memByte_store_apart h

@[simp] theorem State.setRun_mem (l : Nat) (r : Run) : (s.setRun l r).mem = s.mem := rfl

theorem State.fence_mem (c : Nat) : (s.fence c).mem = s.mem := by
  unfold State.fence State.degrade
  split
  · rfl
  · simp only [State.record_mem, State.raise_mem, State.event_mem]
    split <;> simp only [State.wr_mem]

theorem State.countEcc_mem (c : Nat) : (s.countEcc c).mem = s.mem := by
  unfold State.countEcc
  dsimp only
  split
  · exact State.fence_mem _ c
  · rfl

end

theorem stampBytes_length (b t : Nat) : (stampBytes b t).length = 12 := by simp [stampBytes, leBytes_length]

/-- A lane fault writes the lane's fault record and no other byte of the map. -/
theorem laneFault_memByte (s : State) (l cause : Nat) {a : Nat} (h : a < addrLane l + 0xFF00 ∨ addrLane l + 0xFF1C ≤ a) :
    (laneFault l cause s).memByte a = s.memByte a := by
  unfold laneFault
  split
  · rfl
  · next r _ =>
    have hrecord : ((s.mapStore (addrLane l + 0xFF00 + 4) (leBytes 1 cause ++ leBytes 1 (s.recordCode l r) ++ leBytes 2 r.inv ++
        leBytes 2 r.task ++ leBytes 2 (r.gen * 4096 + r.vi) ++ leBytes 4 r.startCy ++ stampBytes s.gov s.nowStamp)).mapStore
        (addrLane l + 0xFF00) (leBytes 4 (s.loadN (addrLane l + 0xFF00) 4 + 1))).memByte a = s.memByte a := by
      rw [State.memByte_mapStore_apart _ (by rw [leBytes_length]; omega),
        State.memByte_mapStore_apart _ (by simp only [List.length_append, leBytes_length, stampBytes_length]; omega)]
    dsimp only
    split
    · exact (State.memByte_of_mem (by rw [State.countEcc_mem, State.raise_mem, State.setRun_mem])).trans hrecord
    · exact (State.memByte_of_mem (by rw [State.raise_mem, State.setRun_mem])).trans hrecord

/-! ### Invocations that fault and invocations that are skipped -/

section
variable {s : State} {l code c : Nat} {r : Run} {k : Inv} {i : Instr} {body : Inv → State → Except Nat State}

/-- An invocation that is due within its run's COST is not passed by (R241, R242). -/
theorem invocation_open (hcode : k.code = code) (hended : r.ended = false) (hstopped : r.stopped = false)
    (hdue : r.next + kernelCycles code k.n ≤ s.cyc + 1) (hfits : r.next + kernelCycles code k.n ≤ r.start + r.cost) :
    ¬ (k.code ≠ code ∨ r.ended = true ∨ r.stopped = true ∨ s.cyc + 1 < r.next + kernelCycles code k.n ∨
      r.start + r.cost < r.next + kernelCycles code k.n) := by
  simp only [hcode, hended, hstopped, ne_eq, not_true_eq_false, Bool.false_eq_true, false_or]
  omega

/-- An error of the body is a lane fault of that cause. -/
theorem State.AtKernel.invoke_error (h : s.AtKernel l code r k) (hbody : body k s = .error c) :
    Machine.invoke l code body s = laneFault l c s := by
  obtain ⟨hfetch, hsound⟩ := h.sound
  obtain ⟨hended, hstopped⟩ := h.open'
  unfold Machine.invoke
  rw [h.run]
  dsimp only
  rw [← h.inv, hfetch, if_neg (by decide), if_neg (invocation_open h.kernel hended hstopped h.due h.fits),
    if_neg (by rw [h.skip]; decide), hsound, if_neg Bool.false_ne_true, hbody]

/-- The row of a kernel whose body finds a fault. -/
theorem State.AtKernel.exec_error (h : s.AtKernel l code r k)
    (hexec : exec i s = whileOn (2 + l / 64) s (.next (Machine.invoke l code body s))) (hbody : body k s = .error c) :
    exec i s = .next (laneFault l c s) := by
  rw [hexec, whileOn_runs h.works, h.invoke_error hbody]

/-- A skipped invocation costs its cycles and nothing else. -/
theorem invoke_skipped (hrun : s.laneRun l = some r) (hk : k = s.old.invocation l r) (hfetch : s.fetchFault l r = none)
    (hcode : k.code = code) (hended : r.ended = false) (hstopped : r.stopped = false) (hskip : 0 < r.skip)
    (hdue : r.next + kernelCycles code k.n ≤ s.cyc + 1) (hfits : r.next + kernelCycles code k.n ≤ r.start + r.cost) :
    invoke l code body s =
      s.setRun l { r with skip := r.skip - 1, inv := r.inv + 1, next := r.next + kernelCycles code k.n } := by
  unfold Machine.invoke
  rw [hrun]
  dsimp only
  rw [← hk, hfetch, if_neg (by decide), if_neg (invocation_open hcode hended hstopped hdue hfits), if_pos hskip, advance,
    State.setRun_laneRun_self]
  exact s.setRun_setRun l _ _

end

/-- Settles O37: the frame of the kernels turns an error of any body into its lane fault. -/
theorem kernelFaultsAndSkips : Obligations.KernelFaultsAndSkips := by
  intro l r k c code body s
  refine ⟨fun h hbody => h.invoke_error hbody, ?add, ?dft, ?diff, ?and, ?fault, ?skip⟩
  case add | dft | diff | and => exact fun h hbody => h.exec_error rfl hbody
  case fault => exact fun hrun => ⟨laneFault_laneRun hrun c, fun a ha => laneFault_memByte s l c ha⟩
  case skip =>
    exact fun hrun hk hfetch hcode hended hstopped hskip hdue hfits =>
      invoke_skipped hrun hk hfetch hcode hended hstopped hskip hdue hfits

/-! ### The units that an invocation fills (R239, R240, R251) -/

/-- Only memory, the marks of lost words and the note of who wrote what in this cycle differ. -/
def UnitsOnly (s t : State) : Prop :=
  t = { s with mem := t.mem, ic := { s.ic with badWords := t.ic.badWords },
               ln := { s.ln with wrote := t.ln.wrote, wroteAt := t.ln.wroteAt } }

/-- No lane above `l` has written the unit at `a` in this cycle. -/
def State.UnitFree (s : State) (l a : Nat) : Prop := s.ln.wroteAt = s.cyc → ∀ x ∈ s.ln.wrote, x.1 = a → x.2 ≤ l

/-- The units that lanes have written in this cycle, each with its lane (R251). -/
def State.wroteNow (s : State) : List (Nat × Nat) := if s.ln.wroteAt = s.cyc then s.ln.wrote else []

/-- One unit that an invocation writes, which in the reserved part of a lane's SRAM has no effect (R240). -/
def Inv.putUnit (k : Inv) (a : Nat) (u : List Byte) (s : State) : State :=
  if k.reserved a then s else s.laneStore k.l a (slice u 0 8)

/-- Address of the unit that a reference names. -/
def Inv.refBase (k : Inv) (ref : Nat) : Nat :=
  if ref < 32768 then addrLane k.l + 8 * (ref % 8192) else addrCluster (k.l / 8) + 8 * (k.r.ibase + ref % 32768)

section
variable {k : Inv} {ref i l a b x : Nat} {u : List Byte} {us : List (List Byte)} {s t v : State}

theorem UnitsOnly.refl (s : State) : UnitsOnly s s := rfl

theorem UnitsOnly.trans (h : UnitsOnly s t) (h' : UnitsOnly t v) : UnitsOnly s v :=
  Eq.trans h' (congrArg (fun z : State => { z with
    mem := v.mem, ic := { z.ic with badWords := v.ic.badWords },
    ln := { z.ln with wrote := v.ln.wrote, wroteAt := v.ln.wroteAt } }) h)

/-- The units of a reference lie one after another. -/
theorem Inv.unitAddr_eq {w : Bool} (h : k.unitAddr ref i w = .ok a) : a = k.refBase ref + 8 * i := by
  unfold Inv.unitAddr at h
  unfold Inv.refBase
  split
  · next hlane =>
    rw [if_pos hlane] at h
    dsimp only at h
    split_ifs at h
    cases h
    omega
  · next hlane =>
    rw [if_neg hlane] at h
    dsimp only at h
    split_ifs at h
    cases h
    omega

/-- Units are written one after another. -/
theorem Inv.write_concat (h : k.write ref (us ++ [u]) s = .ok t) :
    ∃ v a, k.write ref us s = .ok v ∧ k.unitAddr ref us.length true = .ok a ∧ t = k.putUnit a u v := by
  unfold Inv.write at h ⊢
  rw [List.length_append, List.length_singleton, List.range_succ, List.zip_append List.length_range.symm, List.foldl_append] at h
  simp only [List.zip_cons_cons, List.zip_nil_right, List.foldl_cons, List.foldl_nil] at h
  split at h
  · next v a hv ha =>
    cases h
    exact ⟨v, a, hv, ha, rfl⟩
  · cases h
  · cases h

/-! #### One unit -/

theorem State.laneStore_eq (s : State) (l a : Nat) (u : List Byte) :
    s.laneStore l a u = if s.wroteNow.any (fun x => x.1 == a && decide (l < x.2)) then s
      else { s.store a u with ln := { s.ln with wrote := (a, l) :: s.wroteNow, wroteAt := s.cyc } } := by
  rw [State.laneStore, s.store_frame a u]
  rfl

theorem State.UnitFree.wroteNow (h : s.UnitFree l a) : ∀ x ∈ s.wroteNow, x.1 = a → x.2 ≤ l := by
  intro x hx
  unfold State.wroteNow at hx
  split at hx
  · next hat => exact h hat x hx
  · cases hx

theorem State.laneStore_unitsOnly (s : State) (l a : Nat) (u : List Byte) : UnitsOnly s (s.laneStore l a u) := by
  rw [s.laneStore_eq]
  split
  · rfl
  · rw [s.store_frame a u]
    rfl

theorem State.laneStore_memByte_apart (h : x < a ∨ a + u.length ≤ x) : (s.laneStore l a u).memByte x = s.memByte x := by
  rw [s.laneStore_eq]
  split
  · rfl
  · exact s.memByte_store_apart h

theorem State.laneStore_load (h : s.UnitFree l a) : (s.laneStore l a u).load a u.length = u := by
  have hnone : ¬ s.wroteNow.any (fun x => x.1 == a && decide (l < x.2)) = true := by
    simp only [List.any_eq_true, Bool.and_eq_true, beq_iff_eq, decide_eq_true_eq, not_exists, not_and, not_lt]
    exact h.wroteNow
  rw [s.laneStore_eq, if_neg hnone]
  exact s.load_store_self a u

theorem State.UnitFree.laneStore (h : s.UnitFree l a) : (s.laneStore l b u).UnitFree l a := by
  rw [s.laneStore_eq]
  split
  · exact h
  · intro _ x hx hxa
    rcases List.mem_cons.1 hx with rfl | hx
    · exact le_rfl
    · exact h.wroteNow x hx hxa

theorem Inv.putUnit_unitsOnly (k : Inv) (a : Nat) (u : List Byte) (s : State) : UnitsOnly s (k.putUnit a u s) := by
  unfold Inv.putUnit
  split
  · rfl
  · exact s.laneStore_unitsOnly ..

theorem Inv.putUnit_memByte_apart (h : x < a ∨ a + 8 ≤ x) : (k.putUnit a u s).memByte x = s.memByte x := by
  unfold Inv.putUnit
  split
  · rfl
  · exact State.laneStore_memByte_apart (by rwa [slice_length])

theorem Inv.putUnit_load (hfree : s.UnitFree k.l a) (hres : k.reserved a = false) : (k.putUnit a u s).load a 8 = slice u 0 8 := by
  have h := State.laneStore_load (u := slice u 0 8) hfree
  rw [slice_length] at h
  rwa [Inv.putUnit, if_neg (by rw [hres]; exact Bool.false_ne_true)]

theorem State.UnitFree.putUnit (h : s.UnitFree k.l a) : (k.putUnit b u s).UnitFree k.l a := by
  unfold Inv.putUnit
  split
  · exact h
  · exact h.laneStore

/-! #### All units -/

theorem Inv.write_unitsOnly (h : k.write ref us s = .ok t) : UnitsOnly s t := by
  induction us using List.reverseRecOn generalizing t with
  | nil =>
    cases h
    rfl
  | append_singleton us u ih =>
    obtain ⟨v, a, hv, -, rfl⟩ := Inv.write_concat h
    exact (ih hv).trans (k.putUnit_unitsOnly ..)

theorem Inv.write_unitFree (h : k.write ref us s = .ok t) (hfree : s.UnitFree k.l a) : t.UnitFree k.l a := by
  induction us using List.reverseRecOn generalizing t with
  | nil =>
    cases h
    exact hfree
  | append_singleton us u ih =>
    obtain ⟨v, b, hv, -, rfl⟩ := Inv.write_concat h
    exact (ih hv).putUnit

/-- A byte outside the units is as it was. -/
theorem Inv.write_memByte (h : k.write ref us s = .ok t)
    (hout : ∀ i a, i < us.length → k.unitAddr ref i true = .ok a → x < a ∨ a + 8 ≤ x) : t.memByte x = s.memByte x := by
  induction us using List.reverseRecOn generalizing t with
  | nil =>
    cases h
    rfl
  | append_singleton us u ih =>
    obtain ⟨v, a, hv, ha, rfl⟩ := Inv.write_concat h
    rw [List.length_append, List.length_singleton] at hout
    rw [Inv.putUnit_memByte_apart (hout _ a (Nat.lt_succ_self _) ha)]
    exact ih hv fun i b hi => hout i b (Nat.lt_succ_of_lt hi)

/-- A unit that may be written and that no higher lane wrote holds what is written; the units behind it leave it. -/
theorem Inv.write_load (h : k.write ref us s = .ok t) (hi : i < us.length) (ha : k.unitAddr ref i true = .ok a)
    (hres : k.reserved a = false) (hfree : s.UnitFree k.l a) : t.load a 8 = slice (us.getD i []) 0 8 := by
  induction us using List.reverseRecOn generalizing t with
  | nil => exact absurd hi (Nat.not_lt_zero i)
  | append_singleton us u ih =>
    obtain ⟨v, b, hv, hb, rfl⟩ := Inv.write_concat h
    rw [List.length_append, List.length_singleton] at hi
    rcases Nat.lt_succ_iff_lt_or_eq.1 hi with hlt | rfl
    · rw [List.getD_append _ _ _ _ hlt, ← ih hv hlt]
      have hab := Inv.unitAddr_eq ha
      have hbb := Inv.unitAddr_eq hb
      exact State.load_congr fun y _ _ => Inv.putUnit_memByte_apart (by omega)
    · rw [List.getD_append_right _ _ _ _ le_rfl, Nat.sub_self, List.getD_cons_zero]
      obtain rfl : a = b := Except.ok.inj (ha.symm.trans hb)
      exact Inv.putUnit_load (Inv.write_unitFree hv hfree) hres

end

/-- Settles O38: unit by unit along the list that is written. -/
theorem kernelResultsFrame : Obligations.KernelResultsFrame := fun _ _ _ _ _ h =>
  ⟨fun _ _ hi ha hres hfree => Inv.write_load h hi ha hres hfree, fun _ hout => Inv.write_memByte h hout, Inv.write_unitsOnly h⟩

end Sys2Proof.Machine
end

section
/-!
The basic kernels 0x00–0x0F (R237–R239, R241, R242, R244, R246, R247, R249, R250, R255): what each body gives for operands that it
accepts, and their statement.
-/
namespace Sys2Proof.Machine

section
variable {k : Inv} {s : State} {xs ys : List Item} {d : List Byte}

/-! ### Checks of operands -/

theorem any_range_eq_false {n : Nat} {p : Nat → Bool} (h : ∀ i, i < n → p i = false) : (List.range n).any p = false :=
  List.any_eq_false.2 fun i hi => by simp [h i (List.mem_range.1 hi)]

/-- Pairs of operands of one type each pass the kernel's check of types. -/
theorem sameTypes_pass {α : Type} {ps : List (Item × Item)} (h : ∀ p ∈ ps, p.1.t = p.2.t) (a b : α) :
    (if ps.any (fun p => p.1.t != p.2.t) = true then a else b) = b :=
  if_neg (by simpa using fun x y hxy => h (x, y) hxy)

/-! ### Gathering, operands, moves and constants (R244, R245, R250, R255) -/

theorem gathBody_eq {op : List Byte} {ofs : Nat → Nat} (hlo : 1 ≤ k.n) (hhi : k.n ≤ 64)
    (hentry : k.param % 16 < tOpN (s.task k.r.task)) (hop : op = k.operand (k.param % 16) s) (hkind : sKind op = 1)
    (hd : k.data ((8 + 4 * k.n + 7) / 8 * 8) s = .ok d) (hdepth : leAt d 4 1 = 4 ∨ leAt d 4 1 = 8 ∨ leAt d 4 1 = 16)
    (hofs : ofs = fun i => leAt d 0 4 * 64 + (leAt d (8 + 4 * i) 2 * leAt d 4 1 + sValue op % 65536 % leAt d 4 1) * 64)
    (hfit : ∀ i, i < k.n → leAt d (8 + 4 * i + 2) 1 < 8 ∧ ofs i + 64 ≤ 0x80000 ∧
      ∀ j, j < 8 → s.ic.badWords.contains (addrCluster (k.l / 8) + ofs i + 8 * j) = false) :
    gathBody k s = k.results ((List.range k.n).map (fun i => gatherItem (s.old.load (addrCluster (k.l / 8) + ofs i) 64)
      (sValue op % 65536) (leAt d (8 + 4 * i + 2) 1) (entryAbsent op))) s := by
  subst hop hofs
  have hquant : (List.range k.n).any (fun i => decide (8 ≤ leAt d (8 + 4 * i + 2) 1)) = false :=
    any_range_eq_false fun i hi => decide_eq_false (Nat.not_le.2 (hfit i hi).1)
  rw [gathBody, need_of (by simp [Inv.nOk_of hlo hhi, hentry]), hd]
  dsimp only
  rw [if_neg (not_not.2 hkind), if_neg (not_or.2 ⟨not_not.2 hdepth, Bool.eq_false_iff.1 hquant⟩)]
  rw [any_range_eq_false fun i hi => decide_eq_false (Nat.not_lt.2 (hfit i hi).2.1), if_neg Bool.false_ne_true]
  rw [any_range_eq_false fun i hi => any_range_eq_false (hfit i hi).2.2, if_neg Bool.false_ne_true]

theorem opndBody_eq {op : List Byte} {x : Item} (hentry : k.param % 16 < tOpN (s.task k.r.task))
    (hop : op = k.operand (k.param % 16) s) (hvalue : sKind op = 2 → 1 ≤ bits k.param 7 4 ∧ bits k.param 7 4 ≤ 8)
    (hx : x = opndItem op (bits k.param 7 4)) :
    opndBody k s = k.results [if x.ab then absentItem (absentType x.t (bits k.param 7 4)) x.q else x] s := by
  subst hop hx
  have hok : (decide (k.param % 16 < tOpN (s.task k.r.task)) && (sKind (k.operand (k.param % 16) s) != 2 ||
      (decide (1 ≤ bits k.param 7 4) && decide (bits k.param 7 4 ≤ 8)))) = true := by
    by_cases h2 : sKind (k.operand (k.param % 16) s) = 2
    · simp [hentry, h2, hvalue h2]
    · simp [hentry, h2]
  rw [opndBody]
  dsimp only
  rw [need_of hok]

theorem moveBody_eq {us : List (List Byte)} (hlo : 1 ≤ k.n) (hhi : k.n ≤ 64) (hu : readUnits k k.a s k.n 0 = .ok us) :
    moveBody k s = k.write k.out (canonUnits 0 us) s := by
  rw [moveBody, need_of (Inv.nOk_of hlo hhi), hu]

theorem constBody_eq {x : Item} (h : (k.m = 0 ∧ x = { t := tFLOAT, v := k.param, q := 0 }) ∨
    (k.m = 1 ∧ x = { t := tINT, v := k.param, q := 0 }) ∨ (k.m = 2 ∧ x = { t := tBOOL, v := b2n (k.param != 0), q := 0 })) :
    constBody k s = k.results [x] s := by
  unfold constBody
  rcases h with ⟨hm, rfl⟩ | ⟨hm, rfl⟩ | ⟨hm, rfl⟩ <;> simp [hm]

/-! ### Choice, conversion and arithmetic (R246, R247, R249, R255) -/

theorem qselBody_eq (hlo : 1 ≤ k.n) (hhi : k.n ≤ 64) (hm : k.m ≤ 1) (hx : k.itemsFrom k.a s k.n 0 = .ok xs)
    (hy : k.itemsFrom k.b s k.n 0 = .ok ys) (ht : ∀ p ∈ xs.zip ys, p.1.t = p.2.t) : qselBody k s = k.results
      ((xs.zip ys).map (fun p => if unusable (if k.m = 1 then 3 else 1) p.1 then p.2 else p.1)) s := by
  rw [qselBody, need_of (by simp [Inv.nOk_of hlo hhi, hm]), hx, hy]
  exact sameTypes_pass ht ..

theorem convBody_eq (hlo : 1 ≤ k.n) (hhi : k.n ≤ 64) (hto : convTypes.contains (k.param % 16) = true)
    (hx : k.items k.a k.n (tQUAL :: convTypes) s = .ok xs) :
    convBody k s = k.results (xs.map (convItem (k.param % 16))) s := by
  rw [convBody, need_of (by rw [Inv.nOk_of hlo hhi, hto]; rfl), hx]

/-- K_ADD, K_SUB and K_MUL give the results of their operation on items of one type. -/
theorem arithBody_eq {fl : Nat → Nat → Nat} {op : Int → Int → Int} (hlo : 1 ≤ k.n) (hhi : k.n ≤ 64) (hm : k.m ≤ 1)
    (hx : k.items k.a k.n numTypes s = .ok xs) (hy : k.second s = .ok ys) (ht : ∀ p ∈ xs.zip ys, p.1.t = p.2.t) :
    arithBody fl op k s = k.results ((xs.zip ys).map (fun p => arith fl op p.1 p.2)) s := by
  rw [arithBody, need_of (by simp [Inv.nOk_of hlo hhi, hm]), hx, hy]
  exact sameTypes_pass ht ..

theorem macBody_eq (hlo : 1 ≤ k.n) (hhi : k.n ≤ 64) (hx : k.items k.a k.n [tFLOAT] s = .ok xs)
    (hy : k.items k.b k.n [tFLOAT] s = .ok ys) : macBody k s = k.results ((xs.zip ys).map (fun p =>
      floatOf [p.1, p.2] [p.1.v, k.param, p.2.v] (f32.sum 0x0C [.prod p.1.v k.param, .num p.2.v]))) s := by
  rw [macBody, need_of (Inv.nOk_of hlo hhi), hx, hy]

theorem absBody_eq (hlo : 1 ≤ k.n) (hhi : k.n ≤ 64) (hx : k.items k.a k.n numTypes s = .ok xs) :
    absBody k s = k.results (xs.map absItem) s := by
  rw [absBody, need_of (Inv.nOk_of hlo hhi), hx]

theorem minmaxBody_eq {x : Item} (hlo : 2 ≤ k.n) (hhi : k.n ≤ 64) (hm : k.m ≤ 1)
    (hx : k.items k.a k.n numTypes s = .ok (x :: xs)) (ht : ∀ y ∈ xs, y.t = x.t) : minmaxBody k s = k.results
      [xs.foldl (fun a y => if (if k.m = 0 then itemLt y a else itemLt a y) then y else a) x] s := by
  rw [minmaxBody, need_of (by simp [hlo, hhi, hm]), hx]
  exact if_neg (by simpa using ht)

theorem divBody_eq (hlo : 1 ≤ k.n) (hhi : k.n ≤ 64) (hx : k.items k.a k.n numTypes s = .ok xs)
    (hy : k.items k.b k.n numTypes s = .ok ys) (ht : ∀ p ∈ xs.zip ys, p.1.t = p.2.t) :
    divBody k s = k.results ((xs.zip ys).map (fun p => divItem k.param p.1 p.2)) s := by
  rw [divBody, need_of (Inv.nOk_of hlo hhi), hx, hy]
  exact sameTypes_pass ht ..

theorem skipBody_eq {x : Item} (hlo : 1 ≤ k.n) (hhi : k.n ≤ 16) (hx : k.items k.a 1 [tBOOL] s = .ok [x]) :
    skipBody k s = .ok (if (x.v != 0) = bit k.m 0 then k.onRun (fun r => { r with skip := k.n }) s else s) := by
  rw [skipBody, need_of (by simp [hlo, hhi]), hx]
  simp

end

/-! ### Cycles (R255) -/

theorem kernelCycles_nop (n : Nat) : kernelCycles 0x00 n = 1 := Nat.add_eq_left.2 (Nat.zero_mul n)
theorem kernelCycles_end (n : Nat) : kernelCycles 0x01 n = 2 := Nat.add_eq_left.2 (Nat.zero_mul n)
theorem kernelCycles_skip (n : Nat) : kernelCycles 0x06 n = 3 := Nat.add_eq_left.2 (Nat.zero_mul n)

/-! ### The rows -/

section
variable {l : Fin 256} {code : Nat} {r : Run} {k : Inv} {s : State} {c : Instr} {body : Inv → State → Except Nat State}
  {rs : List Item}

/-- A kernel completes that gives results which can be written. -/
theorem State.AtKernel.gives (h : s.AtKernel l code r k)
    (hexec : exec c s = whileOn (2 + l.val / 64) s (.next (Machine.invoke l code body s))) (hgive : k.CanGive rs)
    (hbody : body k s = k.results rs s) : k.Completes c s (k.results rs s) := h.completes hexec hbody (hgive.results s)

theorem satAdd_lt (w x n : Nat) : satAdd w x n < 2 ^ w := by
  unfold satAdd
  have := Nat.two_pow_pos w
  split <;> omega

theorem exec_kNop (h : s.AtKernel l 0x00 r k) :
    exec (.kNop l) s = .next (s.setRun l { r with inv := r.inv + 1, next := r.next + 1 }) := by
  rw [h.exec_next (body := fun _ s => .ok s) rfl rfl, kernelCycles_nop, advance, h.run]

theorem State.AtKernel.onRun (h : s.AtKernel l code r k) (f : Run → Run) : k.onRun f s = s.setRun l (f r) := by
  rw [Inv.onRun, h.lane, h.run]

theorem State.store_laneRun (s : State) (a : Nat) (b : List Byte) (l : Nat) : (s.store a b).laneRun l = s.laneRun l := by
  rw [s.store_frame a b]
  rfl

theorem endBody_eq (h : s.AtKernel l code r k) : endBody k s = .ok (if r.next + 2 < r.start + r.cost then
    (s.setRun l { r with ended := true }).storeN (addrLane l + 0xFF24) 2 (satAdd 16 (s.loadN (addrLane l + 0xFF24) 2) 1)
      else s.setRun l { r with ended := true }) := by
  rw [endBody, h.onRun, h.ofRun, h.lane]
  rfl

/-- K_END ends the run, and counts SHORT where cycles of its COST are left. -/
theorem exec_kEnd (h : s.AtKernel l 0x01 r k) : Answers (exec (.kEnd l) s) (fun t =>
    t.laneRun l = some { r with ended := true, inv := r.inv + 1, next := r.next + 2 } ∧
    t.loadN (addrLane l + 0xFF24) 2 = (if r.next + 2 < r.start + r.cost then satAdd 16 (s.loadN (addrLane l + 0xFF24) 2) 1
      else s.loadN (addrLane l + 0xFF24) 2)) := by
  have hrow := h.exec_next (c := .kEnd l) rfl (endBody_eq h)
  rw [kernelCycles_end] at hrow
  refine ⟨_, hrow, ?_⟩
  split
  · rw [advance, State.storeN, State.store_laneRun, State.setRun_laneRun_self]
    refine ⟨State.setRun_laneRun_self .., ?_⟩
    exact (State.loadN_storeN_self ..).trans (Nat.mod_eq_of_lt (satAdd_lt 16 _ 1))
  · rw [advance, State.setRun_laneRun_self]
    exact ⟨State.setRun_laneRun_self .., rfl⟩

theorem exec_kSkip {x : Item} (h : s.AtKernel l 0x06 r k) (hlo : 1 ≤ k.n) (hhi : k.n ≤ 16)
    (hx : k.items k.a 1 [tBOOL] s = .ok [x]) : exec (.kSkip l) s = .next (s.setRun l
      { r with skip := if (x.v != 0) = bit k.m 0 then k.n else 0, inv := r.inv + 1, next := r.next + 3 }) := by
  rw [h.exec_next rfl (skipBody_eq hlo hhi hx), kernelCycles_skip]
  split
  · rw [h.advance_onRun]
  · rw [advance, h.run, ← h.skip]

end

/-- Settles O33: each body gives its result for operands that it accepts, and the frame of the kernels charges it. -/
theorem basicKernelsComplete : Obligations.BasicKernelsComplete := by
  intro l r k s x xs ys rs d op ofs us
  refine ⟨exec_kNop, exec_kEnd, ?gath, ?opnd, ?move, ?const, exec_kSkip, ?qsel, ?conv, ?add, ?sub, ?mul, ?mac, ?abs, ?minmax, ?div⟩
  case gath =>
    rintro h hlo hhi hentry hop hkind hd hdepth hofs hfit rfl hgive
    rw [← h.lane] at hfit hgive ⊢
    exact h.gives rfl hgive (gathBody_eq hlo hhi (by rwa [h.ofRun]) hop hkind hd hdepth hofs hfit)
  case opnd =>
    rintro h hentry hop hvalue hx rfl hgive
    exact h.gives rfl hgive (opndBody_eq (by rwa [h.ofRun]) hop hvalue hx)
  case move => exact fun h hlo hhi hu hwrite => h.completes rfl (moveBody_eq hlo hhi hu) (hwrite.write s)
  case const => exact fun h hx hgive => h.gives rfl hgive (constBody_eq hx)
  case qsel =>
    rintro h hlo hhi hm hx hy ht rfl hgive
    exact h.gives rfl hgive (qselBody_eq hlo hhi hm hx hy ht)
  case conv =>
    rintro h hlo hhi hto hx rfl hgive
    exact h.gives rfl hgive (convBody_eq hlo hhi hto hx)
  case add | sub | mul =>
    rintro h hlo hhi hm hx hy ht rfl hgive
    exact h.gives rfl hgive (arithBody_eq hlo hhi hm hx hy ht)
  case mac =>
    rintro h hlo hhi hx hy rfl hgive
    exact h.gives rfl hgive (macBody_eq hlo hhi hx hy)
  case abs =>
    rintro h hlo hhi hx rfl hgive
    exact h.gives rfl hgive (absBody_eq hlo hhi hx)
  case minmax =>
    rintro h hlo hhi hm hx ht rfl hgive
    exact h.gives rfl hgive (minmaxBody_eq hlo hhi hm hx ht)
  case div =>
    rintro h hlo hhi hx hy ht rfl hgive
    exact h.gives rfl hgive (divBody_eq hlo hhi hx hy ht)

end Sys2Proof.Machine
end

section
/-!
The signal kernels 0x10–0x1F (R237–R239, R241, R246, R248, R255, R257): how long the data is that each keeps, what each
body gives for operands that it accepts, and their statement.
-/
namespace Sys2Proof.Machine

/-! ### Lengths of kept data (R239, R255) -/

theorem splice_length (l : List Byte) (o : Nat) (v : List Byte) : (splice l o v).length = l.length := by
  simp only [splice, List.length_append, List.length_take, List.length_drop]
  omega

theorem Inv.data_length {k : Inv} {n : Nat} {s : State} {d : List Byte} (h : k.data n s = .ok d) : d.length = n := by
  unfold Inv.data at h
  split at h
  · cases h
  · split at h
    · cases h
    · cases h
      exact State.load_length ..

/-- Pieces of one length. -/
theorem flatMap_length_const {α β : Type} {f : α → List β} {n : Nat} (h : ∀ x, (f x).length = n) (l : List α) :
    (l.flatMap f).length = n * l.length := by
  simp only [List.length_flatMap, h, List.map_const', List.sum_replicate, smul_eq_mul, Nat.mul_comm]

section
variable {size n : Nat} {xs : List Item}

/-- Channels that keep the length of their data keep that of the whole, its header included. -/
theorem eachChannel_length {f : Item → List Byte → Item × List Byte} (hf : ∀ x st, st.length = size → (f x st).2.length = size)
    (hxs : xs.length = n) (d : List Byte) : (eachChannel size f xs d).2.length = 8 + size * n := by
  rw [eachChannel, List.length_append, slice_length, List.flatMap_map, flatMap_length_const fun p => hf _ _ (slice_length ..),
    List.length_zip, List.length_range, Nat.min_self, hxs]

theorem eachWindow_length {f : Nat → Item → List Byte → Item × List Byte} (hf : ∀ g x st, (f g x st).2.length = size)
    {ts : List Nat} (hts : ts.length = n) (hxs : xs.length = n) (d : List Byte) :
    (eachWindow size f ts xs d).2.length = 8 + size * n := by
  rw [eachWindow, List.length_append, slice_length, List.flatMap_map, flatMap_length_const fun p => hf _ _ _, List.length_zip,
    List.length_zip, List.length_range, hts, hxs, Nat.min_self, Nat.min_self]

end

theorem Inv.sampleTicks_length (k : Inv) (s : State) : (k.sampleTicks s).length = k.n := by
  rw [Inv.sampleTicks, List.length_map, List.length_range]

theorem ageStep_length (len : Nat) (x : Item) (ages : List Byte) : (ageStep len x ages).length = 16 := by
  rw [ageStep, List.length_map, List.length_range]

theorem windowSums_length (code w len g h new old : Nat) (sums : List Nat) :
    (windowSums code w len g h new old sums).length = 4 := rfl

theorem flatMap_leBytes_length (n : Nat) (l : List Nat) : (l.flatMap (leBytes n)).length = n * l.length :=
  flatMap_length_const (leBytes_length n) l

theorem dftChannel_length (code w len g : Nat) (x : Item) (st : List Byte) :
    (dftChannel code w len g x st).2.length = 4 * len + 48 := by
  simp only [dftChannel, List.length_append, slice_length, flatMap_leBytes_length, windowSums_length, ageStep_length]

theorem harmChannel_length (w m g : Nat) (x : Item) (st : List Byte) : (harmChannel w m g x st).2.length = 4 * w + 80 := by
  simp only [harmChannel, List.length_append, slice_length, flatMap_leBytes_length, windowSums_length, ageStep_length]

theorem rmsChannel_length (w pos : Nat) (x : Item) (st : List Byte) : (rmsChannel w pos x st).2.length = st.length := by
  unfold rmsChannel
  split
  · rfl
  · exact splice_length ..

theorem meanChannel_length (m pos : Nat) (x : Item) (st : List Byte) : (meanChannel m pos x st).2.length = st.length := by
  unfold meanChannel
  split
  · rfl
  · exact splice_length ..

theorem delayChannel_length (m pos : Nat) (x : Item) (st : List Byte) : (delayChannel m pos x st).2.length = st.length :=
  splice_length ..

theorem biqElement_length (h : List Byte) (x : Item) {st : List Byte} (hst : st.length = 8) :
    (biqElement h x st).2.length = 8 := by
  unfold biqElement
  dsimp only
  split
  · exact hst
  · simp [leBytes_length]

theorem derivElement_length (c : Nat) (x : Item) (st : List Byte) : (derivElement c x st).2.length = st.length := by
  unfold derivElement
  dsimp only
  split
  · rfl
  · exact splice_length ..

theorem integElement_length (c : Nat) (rst x : Item) {st : List Byte} (hst : st.length = 8) :
    (integElement c rst x st).2.length = 8 := by
  unfold integElement
  dsimp only
  split_ifs
  · exact leBytes_length ..
  · exact hst
  · exact leBytes_length ..

theorem ringPut_length (m g x : Nat) (d : List Byte) : (ringPut m g x d).length = 8 + 4 * m := by
  simp only [ringPut, splice_length, List.length_append, slice_length, leBytes_length]

section
variable {k : Inv} {s : State} {xs ys : List Item} {d : List Byte} {z : List Item × List Byte}

/-! ### Windows (R257) -/

theorem windowOk_of {w : Nat} (hlo : 16 ≤ w) (hhi : w ≤ 192) : windowOk w = true := by simp [windowOk, hlo, hhi]

/-- K_DFT and K_HDFT over windows of `len` samples, all of W or half of them. -/
theorem dftBody_eq {half : Bool} {code len : Nat} (hcode : k.code = code)
    (hlen : len = if half then k.param % 256 / 2 else k.param % 256) (hlo : 1 ≤ k.n) (hhi : k.n ≤ 64) (hwlo : 16 ≤ k.param % 256)
    (hwhi : k.param % 256 ≤ 192) (heven : half = true → k.param % 256 % 2 = 0) (hx : k.items k.a k.n [tFLOAT] s = .ok xs)
    (hd : k.data (8 + (4 * len + 48) * k.n) s = .ok d)
    (hz : z = eachWindow (4 * len + 48) (dftChannel code (k.param % 256) len) (k.sampleTicks s) xs d) :
    dftBody half k s = k.finish z.1 z.2 s := by
  have hok : (k.nOk && windowOk (k.param % 256) && (!half || k.param % 256 % 2 == 0)) = true := by
    rw [Inv.nOk_of hlo hhi, windowOk_of hwlo hwhi]
    cases half
    · rfl
    · simp [heven rfl]
  subst hlen hcode
  rw [dftBody]
  dsimp only
  rw [need_of hok, hx, hd, hz]

theorem harmBody_eq (hlo : 1 ≤ k.n) (hhi : k.n ≤ 64) (hwlo : 16 ≤ k.param % 256) (hwhi : k.param % 256 ≤ 192) (hmlo : 2 ≤ k.m)
    (hmhi : k.m ≤ 15) (hx : k.items k.a k.n [tFLOAT] s = .ok xs) (hd : k.data (8 + (4 * (k.param % 256) + 80) * k.n) s = .ok d)
    (hz : z = eachWindow (4 * (k.param % 256) + 80) (harmChannel (k.param % 256) k.m) (k.sampleTicks s) xs d) :
    harmBody k s = k.finish z.1 z.2 s := by
  rw [harmBody]
  dsimp only
  rw [need_of (by simp [Inv.nOk_of hlo hhi, windowOk_of hwlo hwhi, hmlo, hmhi]), hx, hd, hz]

theorem rmsBody_eq (hlo : 1 ≤ k.n) (hhi : k.n ≤ 64) (hwlo : 16 ≤ k.param % 256) (hwhi : k.param % 256 ≤ 192)
    (hx : k.items k.a k.n [tFLOAT] s = .ok xs) (hd : k.data (8 + (4 * (k.param % 256) + 16) * k.n) s = .ok d)
    (hz : z = eachChannel (4 * (k.param % 256) + 16) (rmsChannel (k.param % 256) (leAt d 0 4)) xs d) :
    rmsBody k s = k.finish z.1 (splice z.2 0 (leBytes 4 ((leAt d 0 4 + 1) % (k.param % 256)))) s := by
  rw [rmsBody]
  dsimp only
  rw [need_of (by simp [Inv.nOk_of hlo hhi, windowOk_of hwlo hwhi]), hx, hd, hz]

/-! ### Phasors (R255) -/

theorem seqBody_eq {x y w : Item} {seq : List Term × List Term → List Term × List Term → Item}
    {pos neg : Item → List Term × List Term} (hx : k.items k.a 3 [tPHASOR] s = .ok [x, y, w])
    (hseq : seq = fun b c => phasorItem [x, y, w] (f32.divBy 0x14 (phasorSum 0x14 [plainTerms x, b, c]).1 (f32.ofInt 3),
      f32.divBy 0x14 (phasorSum 0x14 [plainTerms x, b, c]).2 (f32.ofInt 3)))
    (hpos : pos = fun i => timesTerms i minusHalf halfRoot3) (hneg : neg = fun i => timesTerms i minusHalf (f32.neg halfRoot3)) :
    seqBody k s = k.results [seq (plainTerms y) (plainTerms w), seq (pos y) (neg w), seq (neg y) (pos w)] s := by
  rw [seqBody, hx, hseq, hpos, hneg]
  rfl

theorem pwrBody_eq {v : Nat × Nat} (hx : k.items k.a 3 [tPHASOR] s = .ok xs) (hy : k.items k.b 3 [tPHASOR] s = .ok ys)
    (hv : v = phasorSum 0x15 ((xs.zip ys).map (fun p => timesTerms p.1 p.2.v (f32.neg p.2.w)))) : pwrBody k s = k.results
      [floatOf (xs ++ ys) (numsOf (xs ++ ys)) v.1, floatOf (xs ++ ys) (numsOf (xs ++ ys)) v.2,
       floatOf (xs ++ ys) (numsOf (xs ++ ys)) (Config.numeric 0x15 (numsOf (xs ++ ys)) % 2 ^ 32)] s := by
  rw [pwrBody, hx, hy, hv]

theorem cplxBody_eq (hlo : 1 ≤ k.n) (hhi : k.n ≤ 64) (hop : k.param ≤ 3) (hx : k.items k.a k.n [tPHASOR] s = .ok xs)
    (hy : k.items k.b k.n [tPHASOR] s = .ok ys) :
    cplxBody k s = k.results ((xs.zip ys).map (fun p => cplxItem k.param p.1 p.2)) s := by
  rw [cplxBody, need_of (by simp [Inv.nOk_of hlo hhi, hop]), hx, hy]

theorem polarBody_eq (hlo : 1 ≤ k.n) (hhi : k.n ≤ 64) (hm : k.m ≤ 1) (hx : k.items k.a k.n [tPHASOR] s = .ok xs) :
    polarBody k s = k.results (xs.flatMap (fun x => floatOf [x] [x.v, x.w] (f32.magnitude 0x19 x.v x.w) ::
      (if k.m = 1 then [floatOf [x] [x.v, x.w] (atan2 x.w x.v)] else []))) s := by
  rw [polarBody, need_of (by simp [Inv.nOk_of hlo hhi, hm]), hx]

theorem psumBody_eq (hlo : 1 ≤ k.n) (hhi : k.n ≤ 64) (hx : k.items k.a k.n [tPHASOR] s = .ok xs) :
    psumBody k s = k.results [phasorItem xs (phasorSum 0x1C (xs.map plainTerms))] s := by
  rw [psumBody, need_of (Inv.nOk_of hlo hhi), hx]

/-! ### Memory of earlier runs (R255) -/

/-- K_FREQ and K_ROCOF over a ring of M numbers. -/
theorem freqBody_eq {ty lo : Nat} {f : Nat → Nat → Item → List Byte → Nat × List Byte} {x : Item} (hlo : lo ≤ k.m)
    (hhi : k.m ≤ 96)
    (hx : k.items k.a 1 [ty] s = .ok [x]) (hd : k.data (8 + 4 * k.m) s = .ok d)
    (hz : z = ([floatOf [x] (numsOf [x]) (f k.m k.r.tick x d).1], if x.ab then d else (f k.m k.r.tick x d).2)) :
    freqBody ty lo f k s = k.finish z.1 z.2 s := by
  rw [freqBody, need_of (by simp [hlo, hhi]), hx, hd, hz]
  rfl

theorem biqBody_eq (hlo : 1 ≤ k.n) (hhi : k.n ≤ 64) (hx : k.items k.a k.n [tFLOAT] s = .ok xs)
    (hd : k.data (24 + 8 * k.n) s = .ok d) (hz : z = eachElement 8 (biqElement (slice d 0 24)) xs (d.drop 24)) :
    biqBody k s = k.finish z.1 (slice d 0 24 ++ z.2) s := by
  rw [biqBody, need_of (Inv.nOk_of hlo hhi), hx, hd, hz]

theorem derivBody_eq (hlo : 1 ≤ k.n) (hhi : k.n ≤ 64) (hx : k.items k.a k.n [tFLOAT] s = .ok xs)
    (hd : k.data (8 * k.n) s = .ok d) (hz : z = eachElement 8 (derivElement k.param) xs d) :
    derivBody k s = k.finish z.1 z.2 s := by
  rw [derivBody, need_of (Inv.nOk_of hlo hhi), hx, hd, hz]

theorem delayBody_eq (hlo : 1 ≤ k.n) (hhi : k.n ≤ 64) (hmlo : 1 ≤ k.m) (hmhi : k.m ≤ 255)
    (hx : k.items k.a k.n [tBOOL, tDBPOS, tINT, tUINT, tFLOAT, tQUAL, tBITS] s = .ok xs)
    (hd : k.data (8 + 8 * k.m * k.n) s = .ok d) (hz : z = eachChannel (8 * k.m) (delayChannel k.m (leAt d 0 4)) xs d) :
    delayBody k s = k.finish z.1 (splice z.2 0 (leBytes 4 ((leAt d 0 4 + 1) % k.m))) s := by
  rw [delayBody, need_of (by simp [Inv.nOk_of hlo hhi, hmlo, hmhi]), hx, hd, hz]

theorem integBody_eq {x : Item} (hlo : 1 ≤ k.n) (hhi : k.n ≤ 64) (hx : k.items k.a k.n [tFLOAT] s = .ok xs)
    (hy : k.items k.b 1 [tBOOL] s = .ok [x]) (hd : k.data (8 * k.n) s = .ok d)
    (hz : z = eachElement 8 (integElement k.param x) xs d) : integBody k s = k.finish z.1 z.2 s := by
  rw [integBody, need_of (Inv.nOk_of hlo hhi), hx, hy, hd, hz]
  rfl

theorem meanBody_eq (hlo : 1 ≤ k.n) (hhi : k.n ≤ 64) (hmlo : 2 ≤ k.m) (hmhi : k.m ≤ 255)
    (hx : k.items k.a k.n [tFLOAT] s = .ok xs) (hd : k.data (8 + (4 * k.m + 8) * k.n) s = .ok d)
    (hz : z = eachChannel (4 * k.m + 8) (meanChannel k.m (leAt d 0 4)) xs d) :
    meanBody k s = k.finish z.1 (splice z.2 0 (leBytes 4 ((leAt d 0 4 + 1) % k.m))) s := by
  rw [meanBody, need_of (by simp [Inv.nOk_of hlo hhi, hmlo, hmhi]), hx, hd, hz]

end

/-! ### The rows -/

section
variable {l : Fin 256} {code : Nat} {r : Run} {k : Inv} {s : State} {c : Instr} {body : Inv → State → Except Nat State}
  {rs : List Item} {d e : List Byte} {n : Nat}

/-- A kernel completes that gives results which can be written and keeps the length of its data. -/
theorem State.AtKernel.givesAndKeeps (h : s.AtKernel l code r k)
    (hexec : exec c s = whileOn (2 + l.val / 64) s (.next (Machine.invoke l code body s))) (hgive : k.CanGive rs)
    (hd : k.data n s = .ok d) (he : e.length = n) (hbody : body k s = k.finish rs e s) :
    k.Completes c s (k.finish rs e s) := h.completes hexec hbody (hgive.finish hd he.le)

/-- K_FREQ and K_ROCOF complete: they leave their ring of M numbers, or put one into it. -/
theorem freqKernel_completes {ty lo : Nat} {f : Nat → Nat → Item → List Byte → Nat × List Byte} {x : Item}
    {z : List Item × List Byte} (h : s.AtKernel l code r k)
    (hexec : exec c s = whileOn (2 + l.val / 64) s (.next (Machine.invoke l code (freqBody ty lo f) s)))
    (hput : ∀ m g x d, (f m g x d).2.length = 8 + 4 * m) (hlo : lo ≤ k.m) (hhi : k.m ≤ 96) (hx : k.items k.a 1 [ty] s = .ok [x])
    (hd : k.data (8 + 4 * k.m) s = .ok d)
    (hz : z = ([floatOf [x] (numsOf [x]) (f k.m r.tick x d).1], if x.ab then d else (f k.m r.tick x d).2))
    (hgive : k.CanGive z.1) : k.Completes c s (k.finish z.1 z.2 s) := by
  have hlen : z.2.length = 8 + 4 * k.m := by
    rw [hz]
    dsimp only
    split
    · exact Inv.data_length hd
    · exact hput ..
  exact h.givesAndKeeps hexec hgive hd hlen (freqBody_eq hlo hhi hx hd (by rw [hz, h.ofRun]))

end

/-- Settles O34: each body gives its result for operands that it accepts and keeps the length of its data, and the frame of
the kernels charges it. -/
theorem signalKernelsComplete : Obligations.SignalKernelsComplete := by
  intro l r k s x y w xs ys rs d z v seq pos neg
  refine ⟨?dft, ?hdft, ?harm, ?rms, ?seq, ?pwr, ?freq, ?rocof, ?cplx, ?polar, ?biq, ?deriv, ?psum, ?delay, ?integ, ?mean⟩
  case dft =>
    rintro h hlo hhi hwlo hwhi hx hd rfl hgive
    exact h.givesAndKeeps rfl hgive hd
      (eachWindow_length (fun _ _ _ => dftChannel_length ..) (k.sampleTicks_length s) (Inv.items_length hx) d)
      (dftBody_eq h.kernel rfl hlo hhi hwlo hwhi nofun hx hd rfl)
  case hdft =>
    rintro h hlo hhi hwlo hwhi heven hx hd rfl hgive
    have hw : k.param % 256 % 2 = 0 := by omega
    exact h.givesAndKeeps rfl hgive hd
      (eachWindow_length (fun _ _ _ => dftChannel_length ..) (k.sampleTicks_length s) (Inv.items_length hx) d)
      (dftBody_eq h.kernel rfl hlo hhi hwlo hwhi (fun _ => hw) hx hd rfl)
  case harm =>
    rintro h hlo hhi hwlo hwhi hmlo hmhi hx hd rfl hgive
    exact h.givesAndKeeps rfl hgive hd
      (eachWindow_length (fun _ _ _ => harmChannel_length ..) (k.sampleTicks_length s) (Inv.items_length hx) d)
      (harmBody_eq hlo hhi hwlo hwhi hmlo hmhi hx hd rfl)
  case rms =>
    rintro h hlo hhi hwlo hwhi hx hd rfl hgive
    exact h.givesAndKeeps rfl hgive hd ((splice_length ..).trans
      (eachChannel_length (fun _ _ hst => (rmsChannel_length ..).trans hst) (Inv.items_length hx) d))
      (rmsBody_eq hlo hhi hwlo hwhi hx hd rfl)
  case seq =>
    rintro h hx hseq hpos hneg rfl hgive
    exact h.gives rfl hgive (seqBody_eq hx hseq hpos hneg)
  case pwr =>
    rintro h hx hy hv rfl hgive
    exact h.gives rfl hgive (pwrBody_eq hx hy hv)
  case freq | rocof =>
    exact fun h hlo hhi hx hd hz hgive =>
      freqKernel_completes h rfl (fun m g _ d => ringPut_length m g _ d) hlo hhi hx hd hz hgive
  case cplx =>
    rintro h hlo hhi hop hx hy rfl hgive
    exact h.gives rfl hgive (cplxBody_eq hlo hhi hop hx hy)
  case polar =>
    rintro h hlo hhi hm hx rfl hgive
    exact h.gives rfl hgive (polarBody_eq hlo hhi hm hx)
  case biq =>
    rintro h hlo hhi hx hd rfl hgive
    refine h.givesAndKeeps rfl hgive hd ?_ (biqBody_eq hlo hhi hx hd rfl)
    rw [List.length_append, slice_length, eachElement_length (fun x st => biqElement_length _ x), Inv.items_length hx]
  case deriv =>
    rintro h hlo hhi hx hd rfl hgive
    refine h.givesAndKeeps rfl hgive hd ?_ (derivBody_eq hlo hhi hx hd rfl)
    rw [eachElement_length (fun x st => (derivElement_length _ x st).trans), Inv.items_length hx]
  case psum =>
    rintro h hlo hhi hx rfl hgive
    exact h.gives rfl hgive (psumBody_eq hlo hhi hx)
  case delay =>
    rintro h hlo hhi hmlo hmhi hx hd rfl hgive
    exact h.givesAndKeeps rfl hgive hd ((splice_length ..).trans
      (eachChannel_length (fun _ _ hst => (delayChannel_length ..).trans hst) (Inv.items_length hx) d))
      (delayBody_eq hlo hhi hmlo hmhi hx hd rfl)
  case integ =>
    rintro h hlo hhi hx hy hd rfl hgive
    refine h.givesAndKeeps rfl hgive hd ?_ (integBody_eq hlo hhi hx hy hd rfl)
    rw [eachElement_length (fun x st => integElement_length _ _ x), Inv.items_length hx]
  case mean =>
    rintro h hlo hhi hmlo hmhi hx hd rfl hgive
    exact h.givesAndKeeps rfl hgive hd ((splice_length ..).trans
      (eachChannel_length (fun _ _ hst => (meanChannel_length ..).trans hst) (Inv.items_length hx) d))
      (meanBody_eq hlo hhi hmlo hmhi hx hd rfl)

end Sys2Proof.Machine
end

section
/-!
The protection kernels 0x20–0x2F (R237–R239, R241, R248, R249, R255, R256): how long the data is that each keeps, what each
body gives for operands that it accepts, and their statement.
-/
namespace Sys2Proof.Machine

/-! ### Lengths of kept data (R239, R249, R255) -/

section
variable {st d : List Byte}

theorem Inv.openWhole_length (k : Inv) (ins : List Item) (outs : List Nat) (d : List Byte) :
    (k.openWhole ins outs d).2.length = d.length := by
  unfold Inv.openWhole
  dsimp only
  cases policyOf k.qpol (d.length != 0) ins with
  | run =>
    dsimp only
    split
    · rfl
    · exact slice_length ..
  | hold => rfl
  | block => exact slice_length ..

theorem Inv.openElement_length (k : Inv) (p : Policy) (i : Nat) (outs : List Nat) (ins : List Item) (d : List Byte) :
    (k.openElement p i outs ins d).2.length = d.length := by
  cases p with
  | run =>
    unfold Inv.openElement
    dsimp only
    split
    · rfl
    · exact slice_length ..
  | hold => rfl
  | block => exact slice_length ..

theorem Inv.syncStep_length (k : Inv) (x y : Item) (s : State) (hd : d.length = 40) : (k.syncStep x y d s).2.length = 40 := by
  unfold Inv.syncStep
  dsimp only
  split
  · dsimp only
    split
    · exact hd
    · simp only [List.length_append, slice_length, leBytes_length]
  · exact (k.openWhole_length ..).trans hd

theorem Inv.refStep_length (k : Inv) (ins : List Item) (d : List Byte) : (k.refStep ins d).2.length = d.length := by
  unfold Inv.refStep
  dsimp only
  split <;> exact k.openWhole_length ins [tBOOL, tFLOAT] d

theorem cmpElement_length (p : Policy) (m : Nat) (x : Item) (st : List Byte) : (cmpElement p m x st).2.length = st.length := by
  cases p with
  | run =>
    unfold cmpElement
    dsimp only
    split
    · rfl
    · exact splice_length ..
  | hold => rfl
  | block => exact splice_length ..

theorem idmtElement_length (p : Policy) (g : Nat) (x : Item) (hst : st.length = 24) : (idmtElement p g x st).2.length = 24 := by
  cases p with
  | run =>
    unfold idmtElement
    dsimp only
    split
    · exact hst
    · simp only [List.length_append, slice_length, leBytes_length]
  | hold => exact hst
  | block => simp only [idmtElement, List.length_append, slice_length, leBytes_length]

theorem posnElement_length (p : Policy) (ms g : Nat) (x : Item) (hst : st.length = 8) :
    (posnElement p ms g x st).2.2.length = 8 := by
  cases p with
  | run =>
    unfold posnElement
    dsimp only
    split
    · exact hst
    · simp only [List.length_append, leBytes_length]
  | hold => exact hst
  | block => exact leBytes_length ..

theorem cntElement_length (p : Policy) (limit : Nat) (up down : Item) (hst : st.length = 8) :
    (cntElement p limit up down st).2.length = 8 := by
  cases p with
  | run =>
    unfold cntElement
    dsimp only
    split
    · exact hst
    · simp only [List.length_append, leBytes_length]
  | hold => exact hst
  | block => exact hst

theorem eachPair_length {size n : Nat} {f : Item → Item → List Byte → Item × List Byte} {xs ys : List Item}
    (hf : ∀ x y st, st.length = size → (f x y st).2.length = size) (hxs : xs.length = n) (hys : ys.length = n) (d : List Byte) :
    (eachPair size f xs ys d).2.length = size * n := by
  rw [eachPair, List.flatMap_map, flatMap_length_const fun p => hf _ _ _ (slice_length ..), List.length_zip, List.length_zip,
    List.length_range, hxs, hys, Nat.min_self, Nat.min_self]

end

section
variable {k : Inv} {s : State} {x y : Item} {xs ys rs : List Item} {d : List Byte} {z : List Item × List Byte} {p : Policy}

/-! ### Kernels of one judgement (R249, R255) -/

theorem diffBody_eq {ph : List (List Item)} (hlo : 2 ≤ k.n) (hhi : k.n ≤ 32) (hx : k.items k.a (3 * k.n) [tPHASOR] s = .ok xs)
    (hd : k.data 24 s = .ok d) (hp : p = policyOf k.qpol true xs) (hph : ph = [phaseOf xs 0, phaseOf xs 1, phaseOf xs 2])
    (hrs : rs = if p = .run then ph.map (fun i => boolOf i (diffOperate d (idiffOf i) (biasOf i))) ++
        ph.map (fun i => floatOf i (numsOf i) (idiffOf i)) ++ ph.map (fun i => floatOf i (numsOf i) (biasOf i))
      else policyItems p (ph.map (fun i => (tBOOL, i)) ++ ph.map (fun i => (tFLOAT, i)) ++ ph.map (fun i => (tFLOAT, i))) []
        (Config.kernelHeld [k.code, k.n, k.m, k.param] d)) : diffBody k s = k.results rs s := by
  subst hrs hph
  rw [diffBody, need_of (by simp [hlo, hhi]), hx, hd]
  dsimp only
  rw [← hp]
  cases p <;> rfl

theorem restBody_eq {above : List Bool} {ins : Item × Item → List Item} (hm : k.m ≤ 1) (hx : k.items k.a 3 [tFLOAT] s = .ok xs)
    (hy : k.items k.b 3 [tFLOAT] s = .ok ys) (hd : k.data 16 s = .ok d) (hp : p = policyOf k.qpol true (xs ++ ys))
    (habove : above = (xs.zip ys).map (fun q => f32.lt (leAt d 0 4) q.1.v || f32.lt (leAt d 4 4) q.2.v))
    (hins : ins = fun q => if k.m = 1 then xs ++ ys else [q.1, q.2])
    (hrs : rs = if p = .run then ((xs.zip ys).zip above).map (fun q => boolOf (ins q.1) (if k.m = 1 then above.any id else q.2))
      else policyItems p ((xs.zip ys).map (fun q => (tBOOL, ins q))) [] (Config.kernelHeld [k.code, k.n, k.m, k.param] d)) :
    restBody k s = k.results rs s := by
  subst hrs habove hins
  rw [restBody, need_of (by simp [hm]), hx, hy, hd]
  dsimp only
  rw [← hp]
  cases p <;> rfl

theorem impBody_eq (hx : k.items k.a 3 [tPHASOR] s = .ok xs) (hy : k.items k.b 3 [tPHASOR] s = .ok ys) (hd : k.data 8 s = .ok d)
    (hp : p = policyOf k.qpol true (xs ++ ys)) (hrs : (p = .run ∧ rs = impLoops d xs ys) ∨
      (p = .hold ∧ rs = (openPhasors [] (Config.kernelHeld [k.code, k.n, k.m, k.param] d) 6).map (fun q => { q with q := heldQ })) ∨
      (p = .block ∧ rs = List.replicate 6 (blocked tPHASOR))) : impBody k s = k.results rs s := by
  rw [impBody, hx, hy, hd]
  dsimp only
  rw [← hp]
  rcases hrs with ⟨rfl, rfl⟩ | ⟨rfl, rfl⟩ | ⟨rfl, rfl⟩ <;> rfl

theorem both_ok {a b : Except Nat (List Item)} (ha : a = .ok xs) (hb : b = .ok ys) : both a b = .ok (xs ++ ys) := by
  unfold both
  rw [ha, hb]

theorem wholeBody_eq {size : Nat} {outs : List Nat} {ins : Except Nat (List Item)} (hins : ins = .ok xs)
    (hd : k.data size s = .ok d) (hz : z = k.openWhole xs outs d) : wholeBody size outs ins k s = k.finish z.1 z.2 s := by
  unfold wholeBody
  rw [hins, hd, hz]

theorem syncBody_eq (hx : k.items k.a 1 [tPHASOR] s = .ok [x]) (hy : k.items k.b 1 [tPHASOR] s = .ok [y])
    (hd : k.data 40 s = .ok d) (hz : z = k.syncStep x y d s) : syncBody k s = k.finish z.1 z.2 s := by
  rw [syncBody, hx, hy, hd, hz]
  rfl

theorem refBody_eq (hx : k.items k.a 3 [tPHASOR] s = .ok xs) (hy : k.items k.b 1 [tPHASOR] s = .ok ys) (hd : k.data 24 s = .ok d)
    (hz : z = k.refStep (xs ++ ys) d) : refBody k s = k.finish z.1 z.2 s := by
  rw [refBody, both_ok hx hy, hd, hz]

theorem vhzBody_eq (hx : k.items k.a 1 [tFLOAT] s = .ok [x]) (hy : k.items k.b 1 [tFLOAT] s = .ok [y]) (hd : k.data 32 s = .ok d)
    (hz : z = k.openWhole [x, y] [tFLOAT, tBOOL] d) (hrs : rs = if policyOf k.qpol true [x, y] = .run then
      floatOf [x, y] (numsOf [x, y]) (f32.div x.v y.v) :: z.1.drop 1 else z.1) : vhzBody k s = k.finish rs z.2 s := by
  subst hrs hz
  rw [vhzBody, both_ok hx hy, hd]
  dsimp only [List.singleton_append]
  cases policyOf k.qpol true [x, y] <;> rfl

/-! ### Element by element (R249, R255, R256) -/

theorem zoneBody_eq (hlo : 1 ≤ k.n) (hhi : k.n ≤ 64) (hx : k.items k.a k.n [tPHASOR] s = .ok xs) (hd : k.data 32 s = .ok d) :
    zoneBody k s = k.results ((xs.zip (List.range xs.length)).flatMap
      (fun q => (k.openElement (policyOf k.qpol true xs) q.2 [tBOOL] [q.1] d).1)) s := by
  rw [zoneBody, need_of (Inv.nOk_of hlo hhi), hx, hd]

theorem dirBody_eq {zs : List (List Item × List Byte)} (hlo : 1 ≤ k.n) (hhi : k.n ≤ 64)
    (hx : k.items k.a k.n [tPHASOR] s = .ok xs) (hy : k.items k.b k.n [tPHASOR] s = .ok ys) (hd : k.data (16 * k.n) s = .ok d)
    (hzs : zs = ((xs.zip ys).zip (List.range k.n)).map (fun q => k.openElement (policyOf k.qpol true (xs ++ ys)) q.2 [tINT]
      [q.1.1, q.1.2] (slice d (16 * q.2) 16))) :
    dirBody k s = k.finish ((zs.flatMap (fun q => q.1)).map dirValue) (zs.flatMap (fun q => q.2)) s := by
  rw [dirBody, need_of (Inv.nOk_of hlo hhi), hx, hy, hd, hzs]

theorem cmpBody_eq (hlo : 1 ≤ k.n) (hhi : k.n ≤ 64) (hm : k.m ≤ 1) (hx : k.items k.a k.n numTypes s = .ok xs)
    (hd : k.data (16 * k.n) s = .ok d) (hz : z = eachElement 16 (cmpElement (policyOf k.qpol true xs) k.m) xs d) :
    cmpBody k s = k.finish z.1 z.2 s := by
  rw [cmpBody, need_of (by simp [Inv.nOk_of hlo hhi, hm]), hx, hd, hz]

theorem idmtBody_eq (hlo : 1 ≤ k.n) (hhi : k.n ≤ 64) (hx : k.items k.a k.n [tFLOAT] s = .ok xs) (hd : k.data (24 * k.n) s = .ok d)
    (hcurve : ∀ i, i < k.n → leAt d (24 * i) 1 % 8 ≠ 7)
    (hz : z = eachElement 24 (idmtElement (policyOf k.qpol true xs) (k.tick s)) xs d) : idmtBody k s = k.finish z.1 z.2 s := by
  rw [idmtBody, need_of (Inv.nOk_of hlo hhi), hx, hd, hz]
  dsimp only
  rw [any_range_eq_false fun i hi => beq_false_of_ne (hcurve i hi), if_neg Bool.false_ne_true]

theorem posnBody_eq {ps : List (Item × Item × List Byte)} (hlo : 1 ≤ k.n) (hhi : k.n ≤ 64)
    (hx : k.items k.a k.n [tDBPOS] s = .ok xs) (hd : k.data (8 * k.n) s = .ok d) (hps : ps = (xs.zip (List.range k.n)).map
      (fun q => posnElement (policyOf k.qpol true xs) k.m (k.tick s) q.1 (slice d (8 * q.2) 8))) : posnBody k s =
    k.finish (ps.map (fun q => q.1) ++ ps.map (fun q => q.2.1)) (ps.flatMap (fun q => q.2.2)) s := by
  rw [posnBody, need_of (Inv.nOk_of hlo hhi), hx, hd, hps]

theorem cntBody_eq (hlo : 1 ≤ k.n) (hhi : k.n ≤ 64) (hx : k.items k.a k.n [tBOOL] s = .ok xs)
    (hy : k.items k.b k.n [tBOOL] s = .ok ys) (hd : k.data (8 * k.n) s = .ok d)
    (hz : z = eachPair 8 (cntElement (policyOf k.qpol true (xs ++ ys)) k.param) xs ys d) : cntBody k s = k.finish z.1 z.2 s := by
  rw [cntBody, need_of (Inv.nOk_of hlo hhi), hx, hy, hd, hz]

theorem pwlBody_eq (hlo : 1 ≤ k.n) (hhi : k.n ≤ 64) (hmlo : 2 ≤ k.m) (hmhi : k.m ≤ 16) (hx : k.items k.a k.n [tFLOAT] s = .ok xs)
    (hd : k.data (8 + 8 * k.m) s = .ok d) (hp : p = policyOf k.qpol true xs)
    (hrs : rs = if p = .run then xs.map (fun q => floatOf [q] [q.v] (pwlValue k.m d q.v))
      else policyItems p (xs.map (fun q => (tFLOAT, [q]))) [] (Config.kernelHeld [k.code, k.n, k.m, k.param] d)) :
    pwlBody k s = k.results rs s := by
  subst hrs
  rw [pwlBody, need_of (by simp [Inv.nOk_of hlo hhi, hmlo, hmhi]), hx, hd]
  dsimp only
  rw [← hp]
  cases p <;> rfl

end

/-- Settles O35: each body gives its result for operands that it accepts and keeps the length of its data, and the frame of
the kernels charges it. -/
theorem protectionKernelsComplete : Obligations.ProtectionKernelsComplete := by
  intro l r k s x y xs ys rs d z zs ps p ph above ins
  refine ⟨?diff, ?rest, ?imp, ?zone, ?dir, ?cmp, ?idmt, ?therm, ?sync, ?posn, ?lock, ?ref, ?vhz, ?capb, ?cnt, ?pwl⟩
  case diff => exact fun h hlo hhi hx hd hp hph hrs hgive => h.gives rfl hgive (diffBody_eq hlo hhi hx hd hp hph hrs)
  case rest =>
    exact fun h hm hx hy hd hp habove hins hrs hgive => h.gives rfl hgive (restBody_eq hm hx hy hd hp habove hins hrs)
  case imp => exact fun h hx hy hd hp hrs hgive => h.gives rfl hgive (impBody_eq hx hy hd hp hrs)
  case zone =>
    rintro h hlo hhi hx hd rfl hgive
    exact h.gives rfl hgive (zoneBody_eq hlo hhi hx hd)
  case dir =>
    rintro h hlo hhi hx hy hd hzs rfl hgive
    refine h.givesAndKeeps rfl hgive hd ?_ (dirBody_eq hlo hhi hx hy hd hzs)
    rw [hzs, List.flatMap_map, flatMap_length_const fun q => (k.openElement_length ..).trans (slice_length ..), List.length_zip,
      List.length_zip, List.length_range, Inv.items_length hx, Inv.items_length hy, Nat.min_self, Nat.min_self]
  case cmp =>
    rintro h hlo hhi hm hx hd rfl hgive
    refine h.givesAndKeeps rfl hgive hd ?_ (cmpBody_eq hlo hhi hm hx hd rfl)
    rw [eachElement_length (fun x st => (cmpElement_length _ _ x st).trans), Inv.items_length hx]
  case idmt =>
    rintro h hlo hhi hx hd hcurve rfl hgive
    refine h.givesAndKeeps rfl hgive hd ?_ (idmtBody_eq hlo hhi hx hd hcurve rfl)
    rw [eachElement_length (fun x st => idmtElement_length _ _ x), Inv.items_length hx]
  case therm =>
    rintro h hx hd rfl hgive
    exact h.givesAndKeeps rfl hgive hd ((k.openWhole_length ..).trans (Inv.data_length hd)) (wholeBody_eq hx hd rfl)
  case sync =>
    rintro h hx hy hd rfl hgive
    exact h.givesAndKeeps rfl hgive hd (k.syncStep_length x y s (Inv.data_length hd)) (syncBody_eq hx hy hd rfl)
  case posn =>
    rintro h hlo hhi hx hd hps rfl hgive
    refine h.givesAndKeeps rfl hgive hd ?_ (posnBody_eq hlo hhi hx hd hps)
    rw [hps, List.flatMap_map, flatMap_length_const fun q => posnElement_length _ _ _ _ (slice_length ..), List.length_zip,
      List.length_range, Inv.items_length hx, Nat.min_self]
  case lock | capb =>
    rintro h hx hy hd rfl hgive
    exact h.givesAndKeeps rfl hgive hd ((k.openWhole_length ..).trans (Inv.data_length hd)) (wholeBody_eq (both_ok hx hy) hd rfl)
  case ref =>
    rintro h hx hy hd rfl hgive
    exact h.givesAndKeeps rfl hgive hd ((k.refStep_length ..).trans (Inv.data_length hd)) (refBody_eq hx hy hd rfl)
  case vhz =>
    rintro h hx hy hd rfl hrs hgive
    exact h.givesAndKeeps rfl hgive hd ((k.openWhole_length ..).trans (Inv.data_length hd)) (vhzBody_eq hx hy hd rfl hrs)
  case cnt =>
    rintro h hlo hhi hx hy hd rfl hgive
    exact h.givesAndKeeps rfl hgive hd
      (eachPair_length (fun x y _ => cntElement_length _ _ x y) (Inv.items_length hx) (Inv.items_length hy) d)
      (cntBody_eq hlo hhi hx hy hd rfl)
  case pwl =>
    exact fun h hlo hhi hmlo hmhi hx hd hp hrs hgive => h.gives rfl hgive (pwlBody_eq hlo hhi hmlo hmhi hx hd hp hrs)

end Sys2Proof.Machine
end

section
/-!
Publication and the trip outputs: builds and entries of frames, the retransmission schedule, the trip stages, and the commands of the
PB_ page (R261, R264–R277, R280).
-/
namespace Sys2Proof.Machine

/-! ### Control blocks and trip stages -/

theorem State.setCb_cb_self (s : State) (n : Nat) (c : Cb) : (s.setCb n c).cb n = c := agetD_aput_self ..

theorem State.setCb_cb_ne (s : State) {n k : Nat} (c : Cb) (h : k ≠ n) : (s.setCb n c).cb k = s.cb k := agetD_aput_ne _ _ _ h

theorem State.wrote_cb (s : State) (r : Requester) (o v n : Nat) : (s.wrote r o v).cb n = s.cb n := by
  rw [State.cb, State.wrote_pb, State.cb]

/-- A completed replacement of control block `n` leaves the other blocks, the registers and the rest of the state. -/
theorem State.setCb_wrote (s : State) (n : Nat) (c : Cb) (r : Requester) (o v : Nat) :
    ((s.setCb n c).wrote r o v).cb n = c ∧ (∀ k, k ≠ n → ((s.setCb n c).wrote r o v).cb k = s.cb k) ∧
      RegsKept [] s ((s.setCb n c).wrote r o v) ∧
      (s.setCb n c).wrote r o v = { s.withAccess ((s.setCb n c).wrote r o v) with pb := ((s.setCb n c).wrote r o v).pb } := by
  refine ⟨?_, fun k hk => ?_, fun a _ => State.wrote_word .., ?_⟩
  · rw [State.wrote_cb, State.setCb_cb_self]
  · rw [State.wrote_cb, State.setCb_cb_ne _ _ hk]
  · rw [State.wrote_frame]
    rfl

theorem State.setTrip_trip_self (s : State) (k : Nat) (x : Trip) : (s.setTrip k x).trip k = x := agetD_aput_self ..

theorem State.trip_of_pb {s t : State} (h : t.pb = s.pb) (k : Nat) : t.trip k = s.trip k := by rw [State.trip, h, State.trip]

theorem EventsOnly.kept {s t : State} (h : EventsOnly s t) : t.pb = s.pb ∧ t.du = s.du ∧ t.mem = s.mem ∧ t.nvm = s.nvm := by
  rw [h]
  exact ⟨rfl, rfl, rfl, rfl⟩

/-! ### Builds (R270) -/

section
variable {s u : State}

theorem exec_buildStart {fg : Bool} {j : Build} {rest : List Build} {p : Nat} (hruns : s.runs 6 = true)
    (hq : (if fg then s.pb.fg else s.pb.bg) = j :: rest) (hp : (s.pipesOf fg).find? (fun p => !s.pipeBusy p s.cyc) = some p)
    (hhand : j.hand < s.cyc) (hu : u = { s with pb := if fg then { s.pb with fg := rest } else { s.pb with bg := rest } }) :
    exec (.buildStart fg) s = .next (buildFrame p j u) := by
  subst hu
  refine (whileOn_runs hruns).trans ?_
  dsimp only
  rw [hq, hp]
  exact if_neg (Nat.not_le.2 hhand)

/-- A frame that is not signed needs no key, and is built 179 cycles on. -/
theorem buildFrame_unsigned {p : Nat} {j : Build} (hvalid : cbValid (s.cb j.cb).bytes = true)
    (hspan : s.badSpan (cbTpl (s.cb j.cb).bytes) (cbTplLen (s.cb j.cb).bytes) = false) (hauth : cbAuth (s.cb j.cb).bytes = 0) :
    ∃ x : Built, buildFrame p j s =
        { s with pb := { s.pb with built := s.pb.built ++ [x], busyTo := aput s.pb.busyTo p (s.cyc + 179) } } ∧
      x.pipe = p ∧ x.cb = j.cb ∧ x.start = s.cyc ∧ x.done = s.cyc + 179 ∧ x.sq = j.sq := by
  have hkey : signKey (s.cb j.cb).bytes s = (0, 0, 0, [], true, s) := if_pos hauth
  have hdone : s.cyc + (if cbAuth (s.cb j.cb).bytes = 2 then 819 else 179) = s.cyc + 179 := by rw [hauth]; rfl
  unfold buildFrame
  dsimp only
  rw [if_neg (by simp [hvalid, hspan]), hkey, hdone]
  exact ⟨_, rfl, rfl, rfl, rfl, rfl, rfl⟩

/-- A build that starts leaves its queue, and one that is not signed appends its frame. -/
theorem buildStart_answers {fg : Bool} {j : Build} {rest : List Build} {p : Nat} (hruns : s.runs 6 = true)
    (hq : (if fg then s.pb.fg else s.pb.bg) = j :: rest) (hp : (s.pipesOf fg).find? (fun p => !s.pipeBusy p s.cyc) = some p)
    (hhand : j.hand < s.cyc) (hu : u = { s with pb := if fg then { s.pb with fg := rest } else { s.pb with bg := rest } }) :
    Answers (exec (.buildStart fg) s) (fun t => t = buildFrame p j u ∧
      (cbValid (s.cb j.cb).bytes = true → s.badSpan (cbTpl (s.cb j.cb).bytes) (cbTplLen (s.cb j.cb).bytes) = false →
        cbAuth (s.cb j.cb).bytes = 0 → ∃ x, t.pb.built = s.pb.built ++ [x] ∧ x.pipe = p ∧ x.cb = j.cb ∧ x.start = s.cyc ∧
          x.done = s.cyc + 179 ∧ x.sq = j.sq ∧ t.pb.busyTo = aput s.pb.busyTo p (s.cyc + 179))) := by
  refine ⟨_, exec_buildStart hruns hq hp hhand hu, rfl, ?_⟩
  have hcb : u.cb j.cb = s.cb j.cb := by rw [hu]; cases fg <;> rfl
  have hbuilt : u.pb.built = s.pb.built := by rw [hu]; cases fg <;> rfl
  have hbusy : u.pb.busyTo = s.pb.busyTo := by rw [hu]; cases fg <;> rfl
  have hcyc : u.cyc = s.cyc := by rw [hu]
  have hbad (a n : Nat) : u.badSpan a n = s.badSpan a n := by rw [hu]; rfl
  rw [← hcb, ← hbad, ← hbuilt, ← hbusy, ← hcyc]
  intro hvalid hspan hauth
  obtain ⟨x, he, hpipe, hblock, hstart, hdone, hsq⟩ := buildFrame_unsigned (p := p) hvalid hspan hauth
  rw [he]
  exact ⟨x, rfl, hpipe, hblock, hstart, hdone, hsq, rfl⟩

/-! ### Entry into the Hall (R269, R272) -/

theorem exec_pubEntry {pipe : Fin 6} {x : Built} (hruns : s.runs 6 = true)
    (hx : s.pb.built.find? (fun x => x.pipe == pipe.val && !x.held && decide (x.entry ≤ s.cyc)) = some x) :
    exec (.pubEntry pipe) s = .next (enterFrame x s) := by
  refine (whileOn_runs hruns).trans ?_
  rw [hx]

theorem exec_svRelEntry {k : Fin 64} {x : Built} (hruns : s.runs 6 = true)
    (hx : s.pb.built.find? (fun x => x.cb == 2048 + k.val && x.held && decide (x.entry ≤ s.cyc)) = some x) :
    exec (.svRelEntry k) s = .next (enterFrame x s) := by
  refine (whileOn_runs hruns).trans ?_
  rw [hx]

/-- A frame leaves the built ones, and its block notes its sqNum, whether it enters or not. -/
def State.taken (s : State) (x : Built) : State :=
  { s with pb := { s.pb with built := s.pb.built.erase x, cbs := aput s.pb.cbs x.cb { s.cb x.cb with lastSq := x.sq } } }

section
variable {x : Built}

theorem enterFrame_noKey (hkey : x.keyBad = true) : enterFrame x s = s.taken x := by
  unfold enterFrame
  exact if_pos hkey

theorem enterFrame_gated (hkey : x.keyBad = false) (hgate : s.gate = false) :
    enterFrame x s = ((s.taken x).inc (cbCnt PB_ST2_GATED x.cb)).inc PB_G_GATED_ALL := by
  have hclosed : (!(s.taken x).gate) = true := congrArg not hgate
  unfold enterFrame
  exact (if_neg (by rw [hkey]; decide)).trans (if_pos hclosed)

theorem enterFrame_noTokens (hkey : x.keyBad = false) (hgate : s.gate = true) (hlevel : s.tokens x.vi < 0) :
    enterFrame x s = (((s.taken x).inc (PB_VI_TB_DROP.i x.vi)).inc (VI_CNT1_TB_DROP.p x.vi)).pbEvent PB_EVENT_TOKEN := by
  have hopen : (!(s.taken x).gate) = false := congrArg not hgate
  have hneg : (s.taken x).tokens x.vi < 0 := hlevel
  unfold enterFrame
  exact (if_neg (by rw [hkey]; decide)).trans ((if_neg (ne_true_of_eq_false hopen)).trans (if_pos hneg))

end

/-! ### Retransmission (R265, R268) -/

section
variable {cb : Fin 2048} {a us : Nat} {items : List PubItem}

theorem State.retxDue_passed {n : Nat} (hvalid : cbValid (s.cb n).bytes = true) (hat : (s.cb n).at' = some a)
    (hitems : (s.cb n).items = some items) (hnow : a < s.now) : s.retxDue n = some (a, items) := by
  have hdue : ¬ (s.now ≤ a ∨ (!cbValid (s.cb n).bytes) = true) := by
    rw [hvalid]
    simpa using hnow
  unfold State.retxDue
  dsimp only
  rw [hat, hitems]
  exact if_neg hdue

/-- A due retransmission is noted among those of the cycle, in ascending block. -/
theorem exec_gooseRetransmission (hruns : s.runs 6 = true) (hdue : s.retxDue cb = some (a, items)) :
    exec (.gooseRetransmission cb) s = .next { s with pb := { s.pb with
      retx := s.pb.retx.filter (fun x => decide (x < cb.val)) ++ [cb.val] ++ s.pb.retx.filter (fun x => decide (cb.val < x)) } } := by
  refine (whileOn_runs hruns).trans ?_
  dsimp only
  rw [hdue]
  rfl

theorem gooseRetransmission_first (hruns : s.runs 6 = true) (hdue : s.retxDue cb = some (a, items)) (hfirst : s.pb.retx = []) :
    exec (.gooseRetransmission cb) s = .next { s with pb := { s.pb with retx := [cb.val] } } := by
  rw [exec_gooseRetransmission hruns hdue, hfirst]
  rfl

theorem gooseRetransmission_answers (hruns : s.runs 6 = true) (hdue : s.retxDue cb = some (a, items)) :
    Answers (exec (.gooseRetransmission cb) s)
      (fun t => cb.val ∈ t.pb.retx ∧ t = { s with pb := { s.pb with retx := t.pb.retx } }) :=
  ⟨_, exec_gooseRetransmission hruns hdue, List.mem_append_left _ (List.mem_append_right _ (.head _)), rfl⟩

/-- An enabled engine counts sqNum on and hands the items over with the next interval. -/
theorem retransmit_enabled (hen : s.on PB_CTRL_EN = true) (hdue : s.retxDue cb = some (a, items))
    (hus : us = retxUs (s.cb cb).bytes ((s.cb cb).nth + 1))
    (hu : u = (s.notePub cb).setCb cb { s.cb cb with
      sq := ((s.cb cb).sq + 1) % 2 ^ 32, nth := (s.cb cb).nth + 1, at' := some (a + us * (1000 * 2 ^ 40)) }) :
    retransmit cb s = u.handOver {
      cb := cb, fg := false, hand := u.cyc, vi := cbVi (s.cb cb).bytes, gen := u.gen (cbVi (s.cb cb).bytes), items := items
      st := (s.cb cb).st, sq := ((s.cb cb).sq + 1) % 2 ^ 32, t := (s.cb cb).t, tal := talMs us, tickCy := u.tickStartCy } := by
  subst hus hu
  unfold retransmit
  dsimp only
  rw [hdue, hen]
  rfl

/-- Of a disabled engine the schedule alone runs on. -/
theorem retransmit_disabled (hen : s.on PB_CTRL_EN = false) (hdue : s.retxDue cb = some (a, items)) :
    retransmit cb s = s.setCb cb { s.cb cb with
      nth := (s.cb cb).nth + 1, at' := some (a + retxUs (s.cb cb).bytes ((s.cb cb).nth + 1) * (1000 * 2 ^ 40)) } := by
  unfold retransmit
  dsimp only
  rw [hdue, hen]
  rfl

end

/-! ### The level of a trip pair (R276, R277) -/

theorem State.setCmd_same {k : Nat} {v : Bool} (h : s.on (PB_TRIP_CMD.i k) = v) : s.setCmd k v = s := if_pos h

/-- A level that changes: CMD is written, the pads change 48 cycles on, and capture is to see it. -/
theorem State.setCmd_changes {k : Nat} {v : Bool} (h : s.on (PB_TRIP_CMD.i k) ≠ v) :
    ∃ g n, s.setCmd k v = { s with
      regs := (s.wr (PB_TRIP_CMD.i k) (b2n v)).regs, du := { s.du with cmds := s.du.cmds ++ [(s.cyc + 48, k, v)] }
      tg := g, free := n } := by
  unfold State.setCmd
  rw [if_neg h, State.wr_frame]
  generalize (s.wr (PB_TRIP_CMD.i k) (b2n v)).regs = written
  exact ⟨_, _, rfl⟩

theorem State.setCmd_word {k : Nat} {v : Bool} (h : s.on (PB_TRIP_CMD.i k) ≠ v) (a : Nat) :
    (s.setCmd k v).word a = (s.wr (PB_TRIP_CMD.i k) (b2n v)).word a := by
  obtain ⟨g, n, he⟩ := State.setCmd_changes h
  rw [he, State.wr_frame]
  generalize (s.wr (PB_TRIP_CMD.i k) (b2n v)).regs = written
  rfl

theorem State.setCmd_on (s : State) (k : Nat) (v : Bool) : (s.setCmd k v).on (PB_TRIP_CMD.i k) = v := by
  by_cases h : s.on (PB_TRIP_CMD.i k) = v
  · rw [State.setCmd_same h, h]
  · rw [State.on_of_word (State.setCmd_word h _), s.on_wr_i_self PB_TRIP_CMD k v (by decide)]

theorem State.setCmd_rd_i (s : State) (k : Nat) (v : Bool) (f : Fld) (hf : PB_TRIP_CMD.hi < f.lo ∨ f.hi < PB_TRIP_CMD.lo) :
    (s.setCmd k v).rd (f.i k) = s.rd (f.i k) := by
  by_cases h : s.on (PB_TRIP_CMD.i k) = v
  · rw [State.setCmd_same h]
  · rw [State.rd_of_word (State.setCmd_word h _), s.rd_wr_i PB_TRIP_CMD f k _ (by decide) (.inr hf)]

theorem State.setCmd_regsKept (s : State) (k : Nat) (v : Bool) : RegsKept [(PB_TRIP_CMD.i k).addr] s (s.setCmd k v) := by
  by_cases h : s.on (PB_TRIP_CMD.i k) = v
  · rw [State.setCmd_same h]
    exact .refl _ s
  · exact fun a ha => (State.setCmd_word h a).trans ((RegsKept.refl _ s).wr _ (.head _) a ha)

/-- A change of the level touches the register of the pair, the queue of pad changes and what capture is to see. -/
theorem State.setCmd_frame (s : State) (k : Nat) (v : Bool) : s.setCmd k v =
    { s with regs := (s.setCmd k v).regs, du := (s.setCmd k v).du, tg := (s.setCmd k v).tg, free := (s.setCmd k v).free } := by
  by_cases h : s.on (PB_TRIP_CMD.i k) = v
  · rw [State.setCmd_same h]
  · obtain ⟨g, n, he⟩ := State.setCmd_changes h
    rw [he]

theorem State.setCmd_pb (s : State) (k : Nat) (v : Bool) : (s.setCmd k v).pb = s.pb := by rw [State.setCmd_frame]

theorem State.clearCmd_cmds {k : Nat} (h : s.on (PB_TRIP_CMD.i k) = true) :
    (s.setCmd k false).du.cmds = s.du.cmds ++ [(s.cyc + 48, k, false)] := by
  obtain ⟨g, n, he⟩ := State.setCmd_changes (s := s) (k := k) (v := false) (by rw [h]; decide)
  rw [he]

/-! ### Expiries of a trip stage (R277) -/

section
variable {k : Fin 12}

theorem exec_tripMinOnExpiry (hruns : s.runs 6 = true) (hclear : (s.trip k).clearDue = true)
    (hlapse : (s.trip k).setAt + s.rd (PB_TRIP_MIN_ON_MS.i k) * (1000000 * 2 ^ 40) ≤ s.clk.lapse) :
    exec (.tripMinOnExpiry k) s = .next ((s.setTrip k { s.trip k with clearDue := false }).setCmd k false) :=
  (whileOn_runs hruns).trans (if_pos ⟨hclear, hlapse⟩)

theorem tripMinOnExpiry_answers (hruns : s.runs 6 = true) (hclear : (s.trip k).clearDue = true)
    (hlapse : (s.trip k).setAt + s.rd (PB_TRIP_MIN_ON_MS.i k) * (1000000 * 2 ^ 40) ≤ s.clk.lapse)
    (hcmd : s.on (PB_TRIP_CMD.i k) = true) : Answers (exec (.tripMinOnExpiry k) s) (fun t =>
      t.on (PB_TRIP_CMD.i k) = false ∧ (t.trip k).clearDue = false ∧
      t.du.cmds = s.du.cmds ++ [(s.cyc + 48, k.val, false)] ∧ RegsKept [(PB_TRIP_CMD.i k).addr] s t ∧
      t = { s with regs := t.regs, pb := t.pb, du := t.du, tg := t.tg, free := t.free }) := by
  refine ⟨_, exec_tripMinOnExpiry hruns hclear hlapse, State.setCmd_on .., ?_, State.clearCmd_cmds hcmd,
    State.setCmd_regsKept _ _ _, ?_⟩
  · rw [State.trip_of_pb (State.setCmd_pb ..), State.setTrip_trip_self]
  · rw [State.setCmd_frame]
    rfl

/-- A stage that its requests have left: nothing watches it, and its level is off. -/
def State.tripLeft (s : State) (k : Nat) : State := (s.setTrip k { s.trip k with clearDue := false, watch := false }).setCmd k false

theorem exec_tripRefreshExpiry (hruns : s.runs 6 = true) (hset : s.rd (PB_TRIP_REFRESH_TK.i k) ≠ 0)
    (hwatch : (s.trip k).watch = true) (hlast : (s.trip k).last + s.rd (PB_TRIP_REFRESH_TK.i k) < s.clk.raised) :
    exec (.tripRefreshExpiry k) s = .next (((s.tripLeft k).inc (PB_TRIP_TRIP_STALE.i k)).pbEvent PB_EVENT_STALE) :=
  (whileOn_runs hruns).trans (if_pos ⟨hset, hwatch, hlast⟩)

/-- A counter of an array counts up to its all-ones value (R12). -/
theorem State.rd_inc_i_self (s : State) (f : Fld) (b : Nat) (hf : f.lo ≤ f.hi ∧ f.hi < 32) :
    (s.inc (f.i b)).rd (f.i b) = min (s.rd (f.i b) + 1) (2 ^ (f.hi + 1 - f.lo) - 1) := s.rd_inc_self _ (Fld.fits.i hf b)

theorem State.rd_inc_i (s : State) (f g : Fld) (b : Nat) (hf : f.lo ≤ f.hi ∧ f.hi < 32)
    (h : f.addr ≠ g.addr ∧ f.stride = g.stride ∨ f.hi < g.lo ∨ g.hi < f.lo) : (s.inc (f.i b)).rd (g.i b) = s.rd (g.i b) :=
  s.rd_inc_apart _ _ (Fld.fits.i hf b) (Fld.apart_i b h)

/-- An event leaves the registers of an array that lies behind its own. -/
theorem State.rd_pbEvent_i (s : State) (f g : Fld) (k : Nat) (hf : f.fits) (hg : f.addr < g.addr ∧ 0x30010 < g.addr) :
    (s.pbEvent f).rd (g.i k) = s.rd (g.i k) :=
  State.rd_event_apart _ _ _ _ hf (.inl (Fld.addr_i_ne_of_lt k hg.1).symm) (Fld.addr_i_ne_of_lt k hg.2)

theorem tripRefreshExpiry_answers (hruns : s.runs 6 = true) (hset : s.rd (PB_TRIP_REFRESH_TK.i k) ≠ 0)
    (hwatch : (s.trip k).watch = true) (hlast : (s.trip k).last + s.rd (PB_TRIP_REFRESH_TK.i k) < s.clk.raised) :
    Answers (exec (.tripRefreshExpiry k) s) (fun t =>
      t.on (PB_TRIP_CMD.i k) = false ∧ (t.trip k).watch = false ∧ (t.trip k).clearDue = false ∧ t.on PB_EVENT_STALE = true ∧
      t.rd (PB_TRIP_TRIP_STALE.i k) = min (s.rd (PB_TRIP_TRIP_STALE.i k) + 1) (2 ^ PB_TRIP_TRIP_STALE.width - 1) ∧
      (s.on (PB_TRIP_CMD.i k) = true → t.du.cmds = s.du.cmds ++ [(s.cyc + 48, k.val, false)]) ∧
      t.mem = s.mem ∧ t.nvm = s.nvm) := by
  have hev : EventsOnly (s.tripLeft k) (((s.tripLeft k).inc (PB_TRIP_TRIP_STALE.i k)).pbEvent PB_EVENT_STALE) :=
    ((EventsOnly.refl _).inc _).event _ _
  obtain ⟨hpb, hdu, hmem, hnvm⟩ := hev.kept
  have htrip : (s.tripLeft k).trip k = { s.trip k with clearDue := false, watch := false } := by
    rw [State.tripLeft, State.trip_of_pb (State.setCmd_pb ..), State.setTrip_trip_self]
  have hframe : (s.tripLeft k).mem = s.mem ∧ (s.tripLeft k).nvm = s.nvm := by
    rw [State.tripLeft, State.setCmd_frame]
    exact ⟨rfl, rfl⟩
  refine ⟨_, exec_tripRefreshExpiry hruns hset hwatch hlast, ?_, ?_, ?_, State.on_event_self _ _ _ (by decide) (by decide), ?_,
    fun hcmd => ?_, hmem.trans hframe.1, hnvm.trans hframe.2⟩
  · rw [State.on_of_rd (State.rd_pbEvent_i _ _ PB_TRIP_CMD k ⟨by decide, by decide⟩ (by decide)),
      State.on_of_rd (State.rd_inc_i _ PB_TRIP_TRIP_STALE PB_TRIP_CMD k (by decide) (.inr (.inl (by decide))))]
    exact State.setCmd_on ..
  · rw [State.trip_of_pb hpb, htrip]
  · rw [State.trip_of_pb hpb, htrip]
  · rw [State.rd_pbEvent_i _ _ PB_TRIP_TRIP_STALE k ⟨by decide, by decide⟩ (by decide), State.rd_inc_i_self _ _ _ (by decide),
      State.tripLeft, State.setCmd_rd_i _ _ _ PB_TRIP_TRIP_STALE (.inr (by decide))]
    rfl
  · rw [hdu]
    exact State.clearCmd_cmds (s := s.setTrip k _) hcmd

end

end

/-! ### The statement on events -/

/-- Settles O40: event by event, in the order of the statement. -/
theorem publicationEvents : Obligations.PublicationEvents := by
  refine ⟨?build, ?entry, ?release, ?frame, ?retransmission, ?disabled, ?minOn, ?refresh⟩
  case build => exact fun fg j rest p s u hruns hq hp hhand hu => buildStart_answers hruns hq hp hhand hu
  case entry => exact fun pipe x s hruns hx => exec_pubEntry hruns hx
  case release => exact fun k x s hruns hx => exec_svRelEntry hruns hx
  case frame =>
    rintro x s u rfl
    exact ⟨enterFrame_noKey, enterFrame_gated, enterFrame_noTokens⟩
  case retransmission =>
    intro cb a us items s u hruns hen hvalid hat hitems hnow hus hu
    have hdue := State.retxDue_passed hvalid hat hitems hnow
    exact ⟨gooseRetransmission_first hruns hdue, gooseRetransmission_answers hruns hdue, retransmit_enabled hen hdue hus hu⟩
  case disabled =>
    exact fun cb a items s hen hvalid hat hitems hnow =>
      retransmit_disabled hen (State.retxDue_passed hvalid hat hitems hnow)
  case minOn => exact fun k s hruns hclear hlapse hcmd => tripMinOnExpiry_answers hruns hclear hlapse hcmd
  case refresh => exact fun k s hruns hset hwatch hlast => tripRefreshExpiry_answers hruns hset hwatch hlast

/-! ### Accesses of the page (R280) -/

section
variable {s : State} {req : Requester}

theorem writeReg_cbCmd {v : Nat} (hw : s.Writer req) (hdom : s.dom 6 = 1) (hv : v < 4) :
    writeReg req 0x600014 v s = (pbCbCmd v s).wrote req 0x600014 v := by
  have hop : pbWrite req 0x14 v s = pbCbCmd (v % 4) s := by simp [pbWrite, hw.2]
  have h : writeReg req 0x600014 v s = (pbWrite req 0x14 v s).wrote req 0x600014 v :=
    writeReg_served (b := .pb) (i := 0) hw (by decide) rfl (.inr hdom) (by decide) (.inl (by decide)) (by omega)
  rwa [hop, Nat.mod_eq_of_lt hv] at h

/-- The block that a write of PB_ST_IDX selects. -/
def stSel (v : Nat) : Nat := min 2111 (v % 4096)

theorem stSel_idem (v : Nat) : stSel (stSel v) = stSel v := by
  unfold stSel
  omega

theorem exec_pbStLatch (hw : s.Writer req) (hdom : s.dom 6 = 1) (v : Word) :
    exec (.pbStLatch req v) s = .next ((pbStIdx (stSel v.toNat) s).wrote req 0x600080 v.toNat) := by
  have hop : pbWrite req 0x80 v.toNat s = pbStIdx (stSel v.toNat) s := by simp [pbWrite, hw.2, stSel]
  have h : writeReg req 0x600080 v.toNat s = (pbWrite req 0x80 v.toNat s).wrote req 0x600080 v.toNat :=
    writeReg_served (b := .pb) (i := 0) hw (by decide) rfl (.inr hdom) (by decide) (.inl (by decide)) v.isLt
  rw [hop] at h
  exact congrArg Host.Outcome.next h

/-! ### Control blocks (R261, R280) -/

/-- The block whose descriptor, or the one that waits for it, is not valid from the next tick start on. -/
def Cb.ended (c : Cb) : Cb :=
  { c with next := some (splice (c.next.getD c.bytes) 0 (leBytes 2 (setBits (leAt (c.next.getD c.bytes) 0 2) 15 15 0))) }

section
variable {n : Nat} (hw : s.Writer req) (hdom : s.dom 6 = 1) (hn : n = min 2111 (s.rd PB_CB_IDX_IDX))
include hw hdom hn

theorem exec_pbCbRead : exec (.pbCbRead req) s = .next ((loadData 0x600040 16 (s.cb n).bytes s).wrote req 0x600014 1) := by
  subst hn
  exact congrArg Host.Outcome.next (writeReg_cbCmd hw hdom (by decide))

theorem exec_pbCbInvalidate : exec (.pbCbInvalidate req) s = .next ((s.setCb n (s.cb n).ended).wrote req 0x600014 3) := by
  subst hn
  exact congrArg Host.Outcome.next (writeReg_cbCmd hw hdom (by decide))

theorem exec_pbCbWrite {b : List Byte} (hb : b = cbStored (s.dataBytes 0x600040 16)) : exec (.pbCbWrite req) s =
    .next ((if cbValid (s.cb n).bytes ∧ cbFixed (s.cb n).bytes ≠ cbFixed b then s.pbEvent PB_EVENT_REFUSED
      else s.setCb n { s.cb n with next := some b }).wrote req 0x600014 2) := by
  subst hn hb
  exact congrArg Host.Outcome.next (writeReg_cbCmd hw hdom (by decide))

/-- A WRITE that changes nothing that a valid block fixes waits for the next tick start. -/
theorem pbCbWrite_waits {b : List Byte} (hb : b = cbStored (s.dataBytes 0x600040 16))
    (hsame : cbValid (s.cb n).bytes = false ∨ cbFixed (s.cb n).bytes = cbFixed b) :
    Answers (exec (.pbCbWrite req) s) (fun t => t.cb n = { s.cb n with next := some b } ∧ (∀ k, k ≠ n → t.cb k = s.cb k) ∧
      RegsKept [] s t ∧ t = { s.withAccess t with pb := t.pb }) := by
  refine ⟨_, exec_pbCbWrite hw hdom hn hb, ?_⟩
  rw [if_neg]
  · exact State.setCb_wrote ..
  · rintro ⟨hvalid, hne⟩
    rcases hsame with h | h
    · rw [h] at hvalid
      exact Bool.false_ne_true hvalid
    · exact hne h

/-- Another WRITE raises its event and stores nothing. -/
theorem pbCbWrite_refused {b : List Byte} (hb : b = cbStored (s.dataBytes 0x600040 16)) (hvalid : cbValid (s.cb n).bytes = true)
    (hne : cbFixed (s.cb n).bytes ≠ cbFixed b) : Answers (exec (.pbCbWrite req) s) (fun t =>
      t.on PB_EVENT_REFUSED = true ∧ RegsKept [PB_EVENT_REFUSED.addr, 0x30010] s t ∧ t = s.withAccess t) := by
  refine ⟨_, exec_pbCbWrite hw hdom hn hb, ?_⟩
  rw [if_pos ⟨hvalid, hne⟩]
  have hkept : RegsKept [PB_EVENT_REFUSED.addr, 0x30010] s (s.pbEvent PB_EVENT_REFUSED) :=
    (RegsKept.refl _ s).event (by decide) (by decide)
  refine ⟨?_, hkept.wrote _ _ _, ((EventsOnly.refl s).event _ _).wrote ..⟩
  rw [State.wrote_on]
  exact s.on_event_self _ _ (by decide) (by decide)

end

/-! ### State and counters of a block (R11, R280) -/

/-- What PB_ST0 to PB_ST3 latch of block `c`, whose counters stand from `a` + 8 on. -/
def stWord (c : Cb) (a : Nat) (s : State) (i : Nat) : Nat :=
  match i with
  | 0 => if cbSv c.bytes then c.lastSmp else c.st
  | 1 => if cbSv c.bytes then 0 else c.lastSq
  | i => s.word0 (a + 4 * i)

theorem Loaded.stWord {base n : Nat} {t : State} (h : Loaded base n s t) (c : Cb) (a i : Nat) : stWord c a t i = stWord c a s i := by
  unfold Machine.stWord
  split
  · rfl
  · rfl
  · exact h.word0 _

theorem State.word0_put (s : State) (a v b : Nat) : (s.put a v).word0 b = s.word0 b := rfl
theorem State.evWord_put (s : State) (a v b : Nat) : (s.put a v).evWord b = s.evWord b := rfl

theorem pbStIdx_eq {v a : Nat} {c : Cb} {u : State} (hu : u = s.swPut 0x600080 v) (hc : c = u.start.cb (stSel v))
    (ha : a = 0x3500000 + stSel v * 0x10) : pbStIdx v s =
    (List.range 2).foldl (fun t i => t.put (a + 8 + 4 * i) (u.evWord (a + 8 + 4 * i)))
      ((List.range 4).foldl (fun t i => t.put (0x600090 + 4 * i) (stWord c a u i)) u) := by
  subst hu hc ha
  unfold pbStIdx
  simp only [State.word0_put, State.evWord_put]
  rfl

/-- A latch loads the block's state and counters as the cycle found them, and leaves of the counters what the cycle's events have
counted. -/
theorem pbStIdx_latches {v a : Nat} {c : Cb} (hc : c = s.start.cb (stSel v)) (ha : a = 0x3500000 + stSel v * 0x10) :
    EventsOnly s (pbStIdx v s) ∧ (∀ i, i < 4 → (pbStIdx v s).word (0x600090 + 4 * i) = stWord c a s i % 2 ^ 32) ∧
      ∀ i, i < 2 → (pbStIdx v s).word (a + 8 + 4 * i) = s.evWord (a + 8 + 4 * i) := by
  have hidx := s.swPut_loaded 0x600080 v
  have hstart : c = (s.swPut 0x600080 v).start.cb (stSel v) := by
    rw [hc, hidx.frame]
    rfl
  rw [pbStIdx_eq rfl hstart ha]
  generalize s.swPut 0x600080 v = u at hidx
  obtain ⟨hdata, hlatched⟩ := loaded_foldl_put (base := 0x600090) (n := 4) (s := u) (w := fun _ i => stWord c a u i)
    fun _ _ _ _ => rfl
  generalize (List.range 4).foldl (fun t i => t.put (0x600090 + 4 * i) (stWord c a u i)) u = w at hdata hlatched
  obtain ⟨hcount, hleft⟩ := loaded_foldl_put (base := a + 8) (n := 2) (s := w) (w := fun _ i => u.evWord (a + 8 + 4 * i))
    fun _ _ _ _ => rfl
  refine ⟨(hidx.events.trans hdata.events).trans hcount.events, fun i hi => ?_, fun i hi => ?_⟩
  · rw [hcount.kept _ (by omega), hlatched i hi, hidx.stWord]
  · rw [hleft i hi, hidx.evWord]
    exact Nat.mod_eq_of_lt (BitVec.isLt _)

theorem pbStLatch_answers (hw : s.Writer req) (hdom : s.dom 6 = 1) {v : Word} {c : Cb} {a : Nat}
    (hc : c = s.start.cb (stSel v.toNat)) (ha : a = 0x3500000 + stSel v.toNat * 0x10) :
    Answers (exec (.pbStLatch req v) s) (fun t =>
      t.word 0x600090 = (if cbSv c.bytes then c.lastSmp else c.st) % 2 ^ 32 ∧
      t.word 0x600094 = (if cbSv c.bytes then 0 else c.lastSq) % 2 ^ 32 ∧
      t.word 0x600098 = s.word0 (a + 8) ∧ t.word 0x60009C = s.word0 (a + 12) ∧
      t.word (a + 8) = s.evWord (a + 8) ∧ t.word (a + 12) = s.evWord (a + 12) ∧ t = s.withAccess t) := by
  rw [← stSel_idem] at hc ha
  obtain ⟨hev, hdata, hcount⟩ := pbStIdx_latches hc ha
  have hword (x : Nat) : s.word0 x % 2 ^ 32 = s.word0 x := Nat.mod_eq_of_lt (BitVec.isLt _)
  refine ⟨_, exec_pbStLatch hw hdom v, ?_⟩
  simp only [State.wrote_word]
  exact ⟨hdata 0 (by decide), hdata 1 (by decide), (hdata 2 (by decide)).trans (hword _), (hdata 3 (by decide)).trans (hword _),
    hcount 0 (by decide), hcount 1 (by decide), hev.wrote ..⟩

end

/-! ### The statement on register commands -/

/-- Settles O41: the page's commands in the order of the statement. -/
theorem publicationRegisterCommands : Obligations.PublicationRegisterCommands := by
  intro req n s hw hdom hn
  refine ⟨exec_pbCbRead hw hdom hn, fun b hb => ⟨pbCbWrite_waits hw hdom hn hb, pbCbWrite_refused hw hdom hn hb⟩, ?invalidate,
    fun v c a hc ha => pbStLatch_answers hw hdom hc ha⟩
  case invalidate =>
    obtain ⟨hself, hrest⟩ := s.setCb_wrote n (s.cb n).ended req 0x600014 3
    exact ⟨_, exec_pbCbInvalidate hw hdom hn, by rw [hself, Cb.ended], by rw [hself, Cb.ended], hrest⟩

end Sys2Proof.Machine
end

section
/-!
The logic engine's programs and forces (R293, R294, R304, R305, R470): what a replacement of one leaves, how an access of the LG_ page
reaches its operation, and the commands on both.
-/
namespace Sys2Proof.Machine

/-! ### Programs and forces -/

section
variable {s t u w : State}

theorem State.prg_of_lg (h : t.lg = s.lg) (p : Nat) : t.prg p = s.prg p := by rw [State.prg, h, State.prg]
theorem State.frc_of_lg (h : t.lg = s.lg) (e : Nat) : t.frc e = s.frc e := by rw [State.frc, h, State.frc]

theorem State.wr_prg (s : State) (f : Fld) (v p : Nat) : (s.wr f v).prg p = s.prg p := State.prg_of_lg (State.wr_lg ..) p

theorem State.wrote_prg (s : State) (r : Requester) (o v p : Nat) : (s.wrote r o v).prg p = s.prg p :=
  State.prg_of_lg (State.wrote_lg ..) p

theorem State.wrote_frc (s : State) (r : Requester) (o v e : Nat) : (s.wrote r o v).frc e = s.frc e :=
  State.frc_of_lg (State.wrote_lg ..) e

theorem State.setPrg_prg_self (s : State) (p : Nat) (x : Prg) : (s.setPrg p x).prg p = x := agetD_aput_self ..

theorem State.setPrg_prg_ne (s : State) {p q : Nat} (x : Prg) (h : q ≠ p) : (s.setPrg p x).prg q = s.prg q := agetD_aput_ne _ _ _ h

theorem State.setPrg_regsKept (s : State) (p : Nat) (x : Prg) : RegsKept [LG_STATUS_ACTIVE_N.addr] s (s.setPrg p x) :=
  (RegsKept.refl _ s).wr _ (.head _)

theorem State.setPrg_rd (s : State) (p : Nat) (x : Prg) {f : Fld} (hf : f.addr ≠ LG_STATUS_ACTIVE_N.addr) :
    (s.setPrg p x).rd f = s.rd f := (s.setPrg_regsKept p x).rd f (by simpa using hf)

/-- The table of forces after a replacement; FORCE_N and the bank headers follow it. -/
theorem State.setFrc_lg (s : State) (e : Nat) (x : Frc) : (s.setFrc e x).lg = { s.lg with frcs := aput s.lg.frcs e x } := by
  unfold State.setFrc
  dsimp only
  split <;> rfl

theorem State.setFrc_frc (s : State) (e : Nat) (x : Frc) :
    (s.setFrc e x).frc e = x ∧ ∀ k, k ≠ e → (s.setFrc e x).frc k = s.frc k := by
  have hfrc (k : Nat) : (s.setFrc e x).frc k = agetD (aput s.lg.frcs e x) k {} := by rw [State.frc, State.setFrc_lg]
  refine ⟨?_, fun k hk => ?_⟩
  · rw [hfrc, agetD_aput_self]
  · rw [hfrc, agetD_aput_ne _ _ _ hk, State.frc]

theorem pgState_withPgState {b : List Byte} (hb : 2 ≤ b.length) (v : Nat) : pgState (withPgState b v) = v % 4 :=
  mState_withState hb v

theorem two_le_prgStored_length (b : List Byte) : 2 ≤ (prgStored b).length := by
  unfold prgStored
  simp only [List.length_append, leBytes_length, Nat.add_assoc]
  exact Nat.le_add_right 2 _

/-! ### Updates of the engine, registers and events -/

/-- Nothing but the engine's own part, the register file and the event delivery has changed. -/
def LgEvents (s t : State) : Prop := t = { s.withEvents t with lg := t.lg }

theorem LgEvents.refl (s : State) : LgEvents s s := rfl

theorem LgEvents.trans (h : LgEvents s t) (h' : LgEvents t u) : LgEvents s u := by
  unfold LgEvents at h h'
  rw [h', h]
  rfl

theorem EventsOnly.lgEvents (h : EventsOnly s t) : LgEvents s t := by
  rw [LgEvents, h]
  rfl

theorem EventsOnly.lg_eq (h : EventsOnly s t) : t.lg = s.lg := by
  rw [h]
  rfl

theorem LgEvents.ds_eq (h : LgEvents s t) : t.ds = s.ds := by
  rw [h]
  rfl

theorem LgEvents.wr (h : LgEvents s t) (f : Fld) (v : Nat) : LgEvents s (t.wr f v) := h.trans rfl
theorem LgEvents.setPrg (h : LgEvents s t) (p : Nat) (x : Prg) : LgEvents s (t.setPrg p x) := h.trans rfl

/-- What a completed write of such an update leaves. -/
theorem LgEvents.wrote (h : LgEvents s t) (r : Requester) (o v : Nat) :
    t.wrote r o v = { s.withAccess (t.wrote r o v) with lg := (t.wrote r o v).lg } := by
  rw [State.wrote_frame, h]
  rfl

/-- The same after an update of the dispatcher's tables. -/
theorem LgEvents.wrote_ds (h : LgEvents u w) (hds : DsOnly t u) (hev : EventsOnly s t) (r : Requester) (o v : Nat) :
    w.wrote r o v = { s.withAccess (w.wrote r o v) with lg := (w.wrote r o v).lg, ds := (w.wrote r o v).ds } := by
  rw [State.wrote_frame, h, hds, hev]
  rfl

/-- A completed replacement of program `p` leaves the other programs and the rest of the state. -/
theorem State.setPrg_wrote (s : State) (p : Nat) (x : Prg) (r : Requester) (o v : Nat) :
    ((s.setPrg p x).wrote r o v).prg p = x ∧ (∀ q, q ≠ p → ((s.setPrg p x).wrote r o v).prg q = s.prg q) ∧
      RegsKept [LG_STATUS_ACTIVE_N.addr] s ((s.setPrg p x).wrote r o v) ∧
      (s.setPrg p x).wrote r o v = { s.withAccess ((s.setPrg p x).wrote r o v) with lg := ((s.setPrg p x).wrote r o v).lg } := by
  refine ⟨?_, fun q hq => ?_, (s.setPrg_regsKept p x).wrote _ _ _, ((LgEvents.refl s).setPrg p x).wrote ..⟩
  · rw [State.wrote_prg, State.setPrg_prg_self]
  · rw [State.wrote_prg, State.setPrg_prg_ne _ _ hq]

/-- A completed refusal raises its event and stores nothing (R313). -/
theorem State.lgRefused_wrote (s : State) (r : Requester) (o v : Nat) :
    ((s.lgEvent LG_EVENT_REFUSED).wrote r o v).on LG_EVENT_REFUSED = true ∧
      (s.lgEvent LG_EVENT_REFUSED).wrote r o v = s.withAccess ((s.lgEvent LG_EVENT_REFUSED).wrote r o v) := by
  refine ⟨?_, ((EventsOnly.refl s).event _ _).wrote ..⟩
  rw [State.wrote_on]
  exact s.on_event_self _ _ (by decide) (by decide)

/-! ### Accesses of the page -/

variable {req : Requester} {k v : Nat}

/-- A register of the LG_ page answers one who may write. -/
theorem writeReg_lg (hw : s.Writer req) (hdom : s.dom 6 = 1) (hk : k < 0x10000) (hd : (descIn .lg 0 k).isSome = true) (hv : v < 2 ^ 32) :
    writeReg req (0x800000 + k) v s = (lgWritePair req k v s).wrote req (0x800000 + k) v := by
  have hpage : (0x800000 + k) / 0x10000 = 0x80 := by omega
  have hoff : (0x800000 + k) % 0x10000 = k := by omega
  have h := writeReg_served (o := 0x800000 + k) (b := .lg) (i := 0) hw (by omega) (by rw [hpage]; rfl) (.inr hdom)
    (by rw [hoff]; exact hd) (.inl (by decide)) hv
  rwa [hoff] at h

/-- But for LG_FRC_CMD a write means on a pair what it means on one module. -/
theorem lgWritePair_of_ne (hk : k ≠ 0x24) : lgWritePair req k v s = lgWrite req k v s := by
  rw [lgWritePair, if_neg fun h => hk h.1]
  exact if_neg fun h => hk h.1

theorem writeReg_prgCmd (hw : s.Writer req) (hdom : s.dom 6 = 1) (hv : v < 4) :
    writeReg req 0x800014 v s = (prgCmd v s).wrote req 0x800014 v := by
  have hop : lgWritePair req 0x14 v s = prgCmd (v % 4) s := by
    rw [lgWritePair_of_ne (by decide)]
    simp [lgWrite, hw.2]
  have h := writeReg_lg (k := 0x14) (v := v) hw hdom (by decide) (by decide) (by omega)
  rwa [hop, Nat.mod_eq_of_lt hv] at h

/-- A write of LG_XCH stores the two programs and then does as CMD says. -/
theorem writeReg_xch {c : Nat} (hw : s.Writer req) (hdom : s.dom 6 = 1) (hv : v < 2 ^ 32) (hc : bits v 31 30 = c) :
    writeReg req 0x800018 v s = (if c = 1 then xchStart (s.swPut 0x800018 v) else if c = 2 then xchCancel (s.swPut 0x800018 v)
      else s.swPut 0x800018 v).wrote req 0x800018 v := by
  have hcmd : v / 2 ^ 30 % 4 = c := by
    rw [← hc, bits, Nat.shiftRight_eq_div_pow]
    rfl
  have hop : lgWritePair req 0x18 v s = if c = 1 then xchStart (s.swPut 0x800018 v)
      else if c = 2 then xchCancel (s.swPut 0x800018 v) else s.swPut 0x800018 v := by
    rw [lgWritePair_of_ne (by decide), ← hcmd]
    simp [lgWrite, hw.2]
  rw [← hop]
  exact writeReg_lg (k := 0x18) hw hdom (by decide) (by decide) hv

theorem writeReg_stIdx (hw : s.Writer req) (hdom : s.dom 6 = 1) (hv : v < 2 ^ 32) :
    writeReg req 0x800030 v s = (lgStIdx v s).wrote req 0x800030 v := by
  have hop : lgWritePair req 0x30 v s = lgStIdx v s := by
    rw [lgWritePair_of_ne (by decide)]
    simp [lgWrite, hw.2]
  rw [← hop]
  exact writeReg_lg (k := 0x30) hw hdom (by decide) (by decide) hv

/-- A module that is not standby takes a force command; the partner hears of one that it has accepted (R470). -/
theorem lgWritePair_frc (hstandby : s.standby = false) : lgWritePair req 0x24 v s =
    if s.pairOn ∧ s.frcTaken req v then
      sendForce (s.rd LG_FRC_IDX_IDX % 64) (v % 4)
        (if v % 4 = 2 then s.dataBytes 0x800080 8 else (s.frc (s.rd LG_FRC_IDX_IDX % 64)).bytes) (lgWrite req 0x24 v s)
    else lgWrite req 0x24 v s := by
  simp [lgWritePair, hstandby]

theorem sendForce_lg (e c : Nat) (d : List Byte) (s : State) : (sendForce e c d s).lg = s.lg := State.twinQueue_lg ..

theorem lgWritePair_frc_lg (hstandby : s.standby = false) : (lgWritePair req 0x24 v s).lg = (lgWrite req 0x24 v s).lg := by
  rw [lgWritePair_frc hstandby]
  split
  · exact sendForce_lg ..
  · rfl

theorem lgWritePair_frc_of_not_taken (hstandby : s.standby = false) (h : s.frcTaken req v = false) :
    lgWritePair req 0x24 v s = lgWrite req 0x24 v s := by
  rw [lgWritePair_frc hstandby, if_neg]
  simp [h]

theorem writeReg_frcCmd (hw : s.Writer req) (hdom : s.dom 6 = 1) (hv : v < 4) :
    writeReg req 0x800024 v s = (lgWritePair req 0x24 v s).wrote req 0x800024 v :=
  writeReg_lg (k := 0x24) hw hdom (by decide) (by decide) (by omega)

theorem lgWrite_frcRead (h : s.mayWrite req = true) :
    lgWrite req 0x24 1 s = loadData 0x800080 8 (s.frc (s.rd LG_FRC_IDX_IDX % 64)).bytes s := by simp [lgWrite, h]
theorem lgWrite_frcSet (h : s.mayWrite req = true) : lgWrite req 0x24 2 s = frcSetCmd s := by simp [lgWrite, h]
theorem lgWrite_frcClear (h : s.mayWrite req = true) : lgWrite req 0x24 3 s = frcClearCmd s := by simp [lgWrite, h]

end

/-! ### Commands on programs (R293, R294) -/

section
variable {req : Requester} {p : Nat} {x : Prg} {s : State} (hw : s.Writer req) (hdom : s.dom 6 = 1)
  (hp : p = s.rd LG_PRG_IDX_IDX) (hx : x = s.prg p)
include hw hdom hp hx

theorem exec_lgPrgRead : exec (.lgPrgRead req) s = .next ((loadData 0x800040 16 x.bytes s).wrote req 0x800014 1) := by
  subst hx hp
  exact congrArg Host.Outcome.next (writeReg_prgCmd hw hdom (by decide))

theorem exec_lgPrgWrite : exec (.lgPrgWrite req) s =
    .next ((if pgState x.bytes ≤ 1 then s.setPrg p { x with bytes := withPgState (prgStored (s.dataBytes 0x800040 16)) 1 }
      else s.lgEvent LG_EVENT_REFUSED).wrote req 0x800014 2) := by
  subst hx hp
  exact congrArg Host.Outcome.next (writeReg_prgCmd hw hdom (by decide))

theorem exec_lgPrgInvalidate : exec (.lgPrgInvalidate req) s =
    .next ((if pgState x.bytes = 1 then s.setPrg p {}
      else if pgState x.bytes = 2 then (s.putTasks (pgTasks x.bytes) false).setPrg p { x with leave := true }
      else s.lgEvent LG_EVENT_REFUSED).wrote req 0x800014 3) := by
  subst hx hp
  exact congrArg Host.Outcome.next (writeReg_prgCmd hw hdom (by decide))

theorem lgPrgWrite_installs (hst : pgState x.bytes ≤ 1) : Answers (exec (.lgPrgWrite req) s) (fun t =>
    t.prg p = { x with bytes := withPgState (prgStored (s.dataBytes 0x800040 16)) 1 } ∧ pgState (t.prg p).bytes = 1 ∧
    (∀ q, q ≠ p → t.prg q = s.prg q) ∧ RegsKept [LG_STATUS_ACTIVE_N.addr] s t ∧ t = { s.withAccess t with lg := t.lg }) := by
  refine ⟨_, exec_lgPrgWrite hw hdom hp hx, ?_⟩
  rw [if_pos hst]
  obtain ⟨hself, hrest⟩ := s.setPrg_wrote p { x with bytes := withPgState (prgStored (s.dataBytes 0x800040 16)) 1 } req 0x800014 2
  refine ⟨hself, ?_, hrest⟩
  rw [hself]
  exact pgState_withPgState (two_le_prgStored_length _) 1

theorem lgPrgWrite_refused (hst : 2 ≤ pgState x.bytes) : Answers (exec (.lgPrgWrite req) s) (fun t =>
    t.on LG_EVENT_REFUSED = true ∧ t = s.withAccess t) := by
  refine ⟨_, exec_lgPrgWrite hw hdom hp hx, ?_⟩
  rw [if_neg (by omega)]
  exact s.lgRefused_wrote ..

theorem lgPrgInvalidate_removes (hst : pgState x.bytes = 1) : Answers (exec (.lgPrgInvalidate req) s) (fun t =>
    t.prg p = {} ∧ (∀ q, q ≠ p → t.prg q = s.prg q) ∧
    RegsKept [LG_STATUS_ACTIVE_N.addr] s t ∧ t = { s.withAccess t with lg := t.lg }) := by
  refine ⟨_, exec_lgPrgInvalidate hw hdom hp hx, ?_⟩
  rw [if_pos hst]
  exact s.setPrg_wrote ..

theorem lgPrgInvalidate_leaves (hst : pgState x.bytes = 2) : exec (.lgPrgInvalidate req) s =
    .next (((s.putTasks (pgTasks x.bytes) false).setPrg p { x with leave := true }).wrote req 0x800014 3) := by
  rw [exec_lgPrgInvalidate hw hdom hp hx, if_neg (by omega), if_pos hst]

theorem lgPrgInvalidate_refused (hst : pgState x.bytes = 0 ∨ pgState x.bytes = 3) :
    Answers (exec (.lgPrgInvalidate req) s) (fun t => t.on LG_EVENT_REFUSED = true ∧ t = s.withAccess t) := by
  refine ⟨_, exec_lgPrgInvalidate hw hdom hp hx, ?_⟩
  rw [if_neg (by omega), if_neg (by omega)]
  exact s.lgRefused_wrote ..

end

/-! ### Commands on forces (R304, R305, R470) -/

section
variable {req : Requester} {e : Nat} {d : List Byte} {s : State} (hw : s.Writer req) (hdom : s.dom 6 = 1) (hstandby : s.standby = false)
  (he : e = s.rd LG_FRC_IDX_IDX % 64) (hd : d = s.dataBytes 0x800080 8)

theorem frcSetOp_free {pt : List Byte} (hok : s.setRefused e (frPrg d) (frHash d) = false) (hst : frState (s.frc e).bytes = 0)
    (hpt : s.pointOf (s.prg (frPrg d)).bytes (frHash d) = some pt) :
    frcSetOp e d s = s.setFrc e { bytes := forceEntry 1 (frPrg d) pt (frHash d) (frValue d) (frQual d), pend := none } := by
  simp [frcSetOp, hok, hst, hpt]

theorem frcSetOp_active (hok : s.setRefused e (frPrg d) (frHash d) = false) (hst : frState (s.frc e).bytes = 2) :
    frcSetOp e d s = s.setFrc e { s.frc e with pend := some (frValue d ++ leBytes 2 (setBits (frQual d) 10 10 1)) } := by
  simp [frcSetOp, hok, hst]

theorem frcSetOp_refused (hbad : s.setRefused e (frPrg d) (frHash d) = true) : frcSetOp e d s = s.lgEvent LG_EVENT_REFUSED :=
  if_pos hbad

theorem frcClearOp_active (hst : frState (s.frc e).bytes = 2) :
    frcClearOp e s = s.setFrc e { s.frc e with bytes := withFrState (s.frc e).bytes 3 } := if_pos hst

theorem frcClearOp_pending (hst : frState (s.frc e).bytes = 1) : frcClearOp e s = s.setFrc e {} := by
  simp [frcClearOp, hst]

include hw hdom hstandby he

theorem exec_lgFrcRead : exec (.lgFrcRead req) s = .next ((loadData 0x800080 8 (s.frc e).bytes s).wrote req 0x800024 1) := by
  have hnot : s.frcTaken req 1 = false := by simp [State.frcTaken]
  have h := writeReg_frcCmd (v := 1) hw hdom (by decide)
  rw [lgWritePair_frc_of_not_taken hstandby hnot, lgWrite_frcRead hw.2, ← he] at h
  exact congrArg Host.Outcome.next h

/-- CLEAR leaves the engine as its operation on the entry indexed does. -/
theorem frcClear_answers {x : Frc} (hop : frcClearOp e s = s.setFrc e x) :
    Answers (exec (.frcClear req) s) (fun t => t.frc e = x ∧ ∀ k, k ≠ e → t.frc k = s.frc k) := by
  refine ⟨_, congrArg Host.Outcome.next (writeReg_frcCmd (v := 3) hw hdom (by decide)), ?_⟩
  have hlg : (lgWritePair req 0x24 3 s).lg = (s.setFrc e x).lg := by
    rw [lgWritePair_frc_lg hstandby, lgWrite_frcClear hw.2, frcClearCmd, ← he, hop]
  simpa only [State.wrote_frc, State.frc_of_lg hlg] using s.setFrc_frc e x

include hd

/-- A SET that is taken leaves the engine as its operation on the entry indexed does. -/
theorem frcSet_answers {x : Frc} (hop : frcSetOp e d s = s.setFrc e x) :
    Answers (exec (.frcSet req) s) (fun t => t.frc e = x ∧ ∀ k, k ≠ e → t.frc k = s.frc k) := by
  refine ⟨_, congrArg Host.Outcome.next (writeReg_frcCmd (v := 2) hw hdom (by decide)), ?_⟩
  have hlg : (lgWritePair req 0x24 2 s).lg = (s.setFrc e x).lg := by
    rw [lgWritePair_frc_lg hstandby, lgWrite_frcSet hw.2, frcSetCmd, ← he, ← hd, hop]
  simpa only [State.wrote_frc, State.frc_of_lg hlg] using s.setFrc_frc e x

theorem frcSet_refused (hbad : s.setRefused e (frPrg d) (frHash d) = true) :
    Answers (exec (.frcSet req) s) (fun t => t.on LG_EVENT_REFUSED = true ∧ t = s.withAccess t) := by
  have hnot : s.frcTaken req 2 = false := by simp [State.frcTaken, ← he, ← hd, hbad]
  have h := writeReg_frcCmd (v := 2) hw hdom (by decide)
  rw [lgWritePair_frc_of_not_taken hstandby hnot, lgWrite_frcSet hw.2, frcSetCmd, ← he, ← hd, frcSetOp_refused hbad] at h
  exact ⟨_, congrArg Host.Outcome.next h, s.lgRefused_wrote ..⟩

end

end Sys2Proof.Machine
end

section
/-!
The commands of the on-line exchange (R309, R311): EXCHANGE, refused or pending, and CANCEL.
-/
namespace Sys2Proof.Machine

/-! ### EXCHANGE and CANCEL as operations -/

section
variable {s u : State}

/-- The engine with the pending exchange replaced. -/
def State.withXch (s : State) (x : Option Xch) : State := { s with lg := { s.lg with xch := x } }

theorem State.withXch_prg (s : State) (x : Option Xch) (p : Nat) : (s.withXch x).prg p = s.prg p := rfl
theorem State.withXch_rd (s : State) (x : Option Xch) (f : Fld) : (s.withXch x).rd f = s.rd f := rfl
theorem RegsKept.withXch {l : List Nat} (h : RegsKept l s u) (x : Option Xch) : RegsKept l s (u.withXch x) := h
theorem LgEvents.withXch (h : LgEvents s u) (x : Option Xch) : LgEvents s (u.withXch x) := h.trans rfl

/-- The fields of LG_XCH. -/
def lgXchDesc : RegDesc :=
  ⟨0x18, 0x0, 1, [⟨31, 30, .wo, 0x0⟩, ⟨29, 29, .ro, 0x0⟩, ⟨27, 24, .ro, 0x0⟩, ⟨23, 16, .rw, 0x0⟩, ⟨7, 0, .rw, 0x0⟩]⟩

theorem regDesc_lgXch : regDesc 0x800018 = some lgXchDesc := by decide

theorem State.swPut_xch (s : State) (v : Nat) :
    (s.swPut 0x800018 v).rd LG_XCH_OLD = v % 256 ∧ (s.swPut 0x800018 v).rd LG_XCH_NEW = bits v 23 16 :=
  ⟨(s.swPut_field (f := ⟨7, 0, .rw, 0x0⟩) regDesc_lgXch (by decide) rfl (by decide) (by decide)).trans (bits_zero v 7),
    s.swPut_field (f := ⟨23, 16, .rw, 0x0⟩) regDesc_lgXch (by decide) rfl (by decide) (by decide)⟩

/-- EXCHANGE names the two programs that it was written with. -/
theorem State.swPut_exchange (s : State) (v : Nat) :
    (s.swPut 0x800018 (setBits v 31 30 1)).rd LG_XCH_OLD = v % 256 ∧
      (s.swPut 0x800018 (setBits v 31 30 1)).rd LG_XCH_NEW = bits v 23 16 := by
  obtain ⟨hold, hnew⟩ := s.swPut_xch (setBits v 31 30 1)
  have hlow : setBits v 31 30 1 % 256 = v % 256 := by
    have h := bits_setBits_disjoint v 31 30 1 7 0 (by decide) (by decide)
    rwa [bits_zero, bits_zero] at h
  exact ⟨hold.trans hlow, hnew.trans (bits_setBits_disjoint _ _ _ _ _ _ (by decide) (by decide))⟩

theorem State.swPut_xch_regsKept (s : State) (v : Nat) :
    RegsKept [0x800018, LG_STATUS_ACTIVE_N.addr] s (s.swPut 0x800018 v) :=
  (s.swPut_regsKept 0x800018 v).mono (by simp)

theorem State.xchCause_le (s : State) (o n : Nat) : s.xchCause o n ≤ 5 := by
  unfold State.xchCause
  dsimp only
  split_ifs <;> decide

theorem EventsOnly.xchCause (h : EventsOnly s u) (o n : Nat) : u.xchCause o n = s.xchCause o n := by
  rw [h]
  rfl

theorem xchStart_refused {o n : Nat} (ho : s.rd LG_XCH_OLD = o) (hn : s.rd LG_XCH_NEW = n) (hc : s.xchCause o n ≠ 0) :
    xchStart s = (s.wr LG_XCH_CAUSE (s.xchCause o n)).lgEvent LG_EVENT_XCH_REFUSED := by
  subst ho hn
  exact if_pos hc

/-- The engine with an exchange from `o` to `n` pending. -/
def State.xchPends (s : State) (o n : Nat) : State :=
  ((s.setPrg o { s.prg o with bytes := withPgState (s.prg o).bytes 3 }).wr LG_XCH_PEND 1).withXch (some { old := o, new := n })

theorem xchStart_pends {o n : Nat} (ho : s.rd LG_XCH_OLD = o) (hn : s.rd LG_XCH_NEW = n) (hc : s.xchCause o n = 0) :
    xchStart s = s.xchPends o n := by
  subst ho hn
  exact if_neg (not_not_intro hc)

theorem State.xchPends_prg (s : State) (o n : Nat) :
    (s.xchPends o n).prg o = { s.prg o with bytes := withPgState (s.prg o).bytes 3 } ∧
      ∀ q, q ≠ o → (s.xchPends o n).prg q = s.prg q := by
  refine ⟨?_, fun q hq => ?_⟩
  · rw [State.xchPends, State.withXch_prg, State.wr_prg, State.setPrg_prg_self]
  · rw [State.xchPends, State.withXch_prg, State.wr_prg, State.setPrg_prg_ne _ _ hq]

theorem State.xchPends_rd (s : State) (o n : Nat) : (s.xchPends o n).rd LG_XCH_PEND = 1 ∧
    (s.xchPends o n).rd LG_XCH_OLD = s.rd LG_XCH_OLD ∧ (s.xchPends o n).rd LG_XCH_NEW = s.rd LG_XCH_NEW := by
  refine ⟨?_, ?_, ?_⟩ <;> rw [State.xchPends, State.withXch_rd]
  · exact State.rd_wr_self _ _ _ ⟨by decide, by decide⟩
  · rw [State.rd_wr_apart _ _ _ _ ⟨by decide, by decide⟩ (.inr (by decide)), State.setPrg_rd _ _ _ (by decide)]
  · rw [State.rd_wr_apart _ _ _ _ ⟨by decide, by decide⟩ (.inr (by decide)), State.setPrg_rd _ _ _ (by decide)]

theorem State.xchPends_regsKept (s : State) (o n : Nat) :
    RegsKept [0x800018, LG_STATUS_ACTIVE_N.addr] s (s.xchPends o n) :=
  (((s.setPrg_regsKept o _).mono (List.subset_cons_self _ _)).wr (f := LG_XCH_PEND) _ (.head _)).withXch _

theorem State.xchPends_lgEvents (s : State) (o n : Nat) : LgEvents s (s.xchPends o n) :=
  (((LgEvents.refl s).setPrg _ _).wr _ _).withXch _

/-- A task in `ts` whose waiting write has been dropped has none. -/
theorem aget_dropNext {ts : List Nat} {k : Nat} {x : Task} (l : List (Nat × Task)) (hk : k ∈ ts)
    (hx : aget (l.map fun p => if ts.contains p.1 then (p.1, { p.2 with next := none }) else p) k = some x) : x.next = none := by
  induction l with
  | nil => exact nomatch hx
  | cons a l ih =>
    obtain ⟨j, y⟩ := a
    rw [List.map_cons] at hx
    by_cases hj : j = k
    · subst hj
      rw [if_pos (List.contains_iff_mem.2 hk), aget, if_pos rfl] at hx
      rw [← Option.some.inj hx]
    · refine ih ?_
      split at hx <;> rwa [aget, if_neg hj] at hx

/-- What a withdrawal leaves of the dispatcher: the task writes issued for the exchange are dropped. -/
def State.withdrawn (s : State) (y : Xch) : State :=
  if y.issued then s.dropTaskWrites (pgTasks (s.prg y.old).bytes ++ pgTasks (s.prg y.new).bytes) else s

theorem State.withdrawn_dsOnly (s : State) (y : Xch) : DsOnly s (s.withdrawn y) := by
  unfold State.withdrawn
  split <;> rfl

theorem State.withdrawn_of_not_issued (s : State) {y : Xch} (h : y.issued = false) : (s.withdrawn y).ds = s.ds := by
  rw [State.withdrawn, h]
  rfl

/-- No task of the two programs has a write that is not yet in force. -/
theorem State.withdrawn_of_issued (s : State) {y : Xch} (h : y.issued = true) {k : Nat} {x : Task}
    (hk : k ∈ pgTasks (s.prg y.old).bytes ++ pgTasks (s.prg y.new).bytes) (hx : aget (s.withdrawn y).ds.tasks k = some x) :
    x.next = none := by
  rw [State.withdrawn, if_pos h] at hx
  generalize pgTasks (s.prg y.old).bytes ++ pgTasks (s.prg y.new).bytes = ts at hk hx
  exact aget_dropNext s.ds.tasks hk hx

/-- The engine after a withdrawal: OLD runs on. -/
def State.xchEnded (s : State) (o : Nat) (x : Prg) : State :=
  (((s.setPrg o { x with bytes := withPgState x.bytes 2 }).wr LG_XCH_PEND 0).wr LG_XCH_CAUSE 6).withXch none

theorem State.xchEnded_prg (s : State) (o : Nat) (x : Prg) : (s.xchEnded o x).prg o = { x with bytes := withPgState x.bytes 2 } := by
  rw [State.xchEnded, State.withXch_prg, State.wr_prg, State.wr_prg, State.setPrg_prg_self]

theorem State.xchEnded_rd (s : State) (o : Nat) (x : Prg) :
    (s.xchEnded o x).rd LG_XCH_PEND = 0 ∧ (s.xchEnded o x).rd LG_XCH_CAUSE = 6 := by
  refine ⟨?_, ?_⟩ <;> rw [State.xchEnded, State.withXch_rd]
  · rw [State.rd_wr_apart _ _ _ _ ⟨by decide, by decide⟩ (.inr (by decide))]
    exact State.rd_wr_self _ _ _ ⟨by decide, by decide⟩
  · exact State.rd_wr_self _ _ _ ⟨by decide, by decide⟩

theorem State.xchEnded_regsKept (s : State) (o : Nat) (x : Prg) :
    RegsKept [0x800018, LG_STATUS_ACTIVE_N.addr] s (s.xchEnded o x) :=
  ((((s.setPrg_regsKept o _).mono (List.subset_cons_self _ _)).wr (f := LG_XCH_PEND) _ (.head _)).wr (f := LG_XCH_CAUSE) _
    (.head _)).withXch _

theorem State.xchEnded_lgEvents (s : State) (o : Nat) (x : Prg) : LgEvents s (s.xchEnded o x) :=
  ((((LgEvents.refl s).setPrg _ _).wr _ _).wr _ _).withXch _

theorem xchCancel_ends {y : Xch} (hy : s.lg.xch = some y) : xchCancel s = (s.withdrawn y).xchEnded y.old (s.prg y.old) := by
  rw [xchCancel, hy]
  rfl

end

/-! ### The rows -/

section
variable {s : State} {req : Requester} (hw : s.Writer req) (hdom : s.dom 6 = 1)
include hw hdom

theorem exec_exchange (v : Word) : exec (.exchange req v) s =
    .next ((xchStart (s.swPut 0x800018 (setBits v.toNat 31 30 1))).wrote req 0x800018 (setBits v.toNat 31 30 1)) := by
  have h := writeReg_xch (v := setBits v.toNat 31 30 1) (c := 1) hw hdom
    (setBits_lt _ _ _ _ _ (by decide) (by decide) v.isLt) (bits_setBits_self _ _ _ _ (by decide))
  rw [if_pos rfl] at h
  exact congrArg Host.Outcome.next h

theorem exec_lgXchCancel : ∃ v, exec (.lgXchCancel req) s = .next ((xchCancel (s.swPut 0x800018 v)).wrote req 0x800018 v) := by
  have h := writeReg_xch (v := setBits (s.word LG_XCH_OLD.addr) 31 30 2) (c := 2) hw hdom
    (setBits_lt _ _ _ _ _ (by decide) (by decide) (s.word_lt _)) (bits_setBits_self _ _ _ _ (by decide))
  rw [if_neg (by decide), if_pos rfl] at h
  exact ⟨_, congrArg Host.Outcome.next h⟩

section
variable {v : Word} {o n : Nat} (ho : o = v.toNat % 256) (hn : n = bits v.toNat 23 16)
include ho hn

theorem exchange_refused (hc : s.xchCause o n ≠ 0) : Answers (exec (.exchange req v) s) (fun t =>
    t.rd LG_XCH_CAUSE = s.xchCause o n ∧ t.on LG_EVENT_XCH_REFUSED = true ∧ t = s.withAccess t) := by
  subst ho hn
  obtain ⟨hold, hnew⟩ := s.swPut_exchange v.toNat
  have hput := (EventsOnly.refl s).swPut 0x800018 (setBits v.toNat 31 30 1)
  refine ⟨_, exec_exchange hw hdom v, ?_⟩
  generalize s.swPut 0x800018 (setBits v.toNat 31 30 1) = u at hold hnew hput
  rw [xchStart_refused hold hnew (by rwa [hput.xchCause]), hput.xchCause, State.wrote_rd, State.wrote_on]
  refine ⟨?_, State.on_event_self _ _ _ (by decide) (by decide), ((hput.wr _ _).event _ _).wrote ..⟩
  rw [State.lgEvent, State.rd_event_apart _ _ _ _ ⟨by decide, by decide⟩ (.inl (by decide)) (by decide),
    State.rd_wr_self _ _ _ ⟨by decide, by decide⟩]
  exact Nat.mod_eq_of_lt (Nat.lt_of_le_of_lt (s.xchCause_le _ _) (by decide))

theorem exchange_pends (hc : s.xchCause o n = 0) : Answers (exec (.exchange req v) s) (fun t =>
    t.lg.xch = some { old := o, new := n } ∧ t.prg o = { s.prg o with bytes := withPgState (s.prg o).bytes 3 } ∧
    (∀ q, q ≠ o → t.prg q = s.prg q) ∧ t.rd LG_XCH_PEND = 1 ∧ t.rd LG_XCH_OLD = o ∧ t.rd LG_XCH_NEW = n ∧
    RegsKept [0x800018, LG_STATUS_ACTIVE_N.addr] s t ∧ t = { s.withAccess t with lg := t.lg }) := by
  subst ho hn
  obtain ⟨hold, hnew⟩ := s.swPut_exchange v.toNat
  have hput := (EventsOnly.refl s).swPut 0x800018 (setBits v.toNat 31 30 1)
  have hkept := s.swPut_xch_regsKept (setBits v.toNat 31 30 1)
  refine ⟨_, exec_exchange hw hdom v, ?_⟩
  generalize s.swPut 0x800018 (setBits v.toNat 31 30 1) = u at hold hnew hput hkept
  obtain ⟨hprg, hprgs⟩ := u.xchPends_prg (v.toNat % 256) (bits v.toNat 23 16)
  obtain ⟨hpend, hold', hnew'⟩ := u.xchPends_rd (v.toNat % 256) (bits v.toNat 23 16)
  simp only [State.prg_of_lg hput.lg_eq] at hprg hprgs
  rw [xchStart_pends hold hnew ((hput.xchCause _ _).trans hc)]
  exact ⟨congrArg Lg.xch (State.wrote_lg ..), (State.wrote_prg ..).trans hprg, fun q hq => (State.wrote_prg ..).trans (hprgs q hq),
    (State.wrote_rd ..).trans hpend, (State.wrote_rd ..).trans (hold'.trans hold), (State.wrote_rd ..).trans (hnew'.trans hnew),
    (hkept.trans (u.xchPends_regsKept _ _) fun _ h => h).wrote _ _ _,
    (hput.lgEvents.trans (u.xchPends_lgEvents _ _)).wrote ..⟩

end

theorem lgXchCancel_ends {y : Xch} (hy : s.lg.xch = some y) : Answers (exec (.lgXchCancel req) s) (fun t =>
    t.lg.xch = none ∧ t.prg y.old = { s.prg y.old with bytes := withPgState (s.prg y.old).bytes 2 } ∧
    t.rd LG_XCH_PEND = 0 ∧ t.rd LG_XCH_CAUSE = 6 ∧ (y.issued = false → t.ds = s.ds) ∧
    (y.issued = true → ∀ k x, k ∈ pgTasks (s.prg y.old).bytes ++ pgTasks (s.prg y.new).bytes → aget t.ds.tasks k = some x →
      x.next = none) ∧
    RegsKept [0x800018, LG_STATUS_ACTIVE_N.addr] s t ∧ t = { s.withAccess t with lg := t.lg, ds := t.ds }) := by
  obtain ⟨v, hexec⟩ := exec_lgXchCancel hw hdom
  have hput := (EventsOnly.refl s).swPut 0x800018 v
  have hkept := s.swPut_xch_regsKept v
  refine ⟨_, hexec, ?_⟩
  generalize s.swPut 0x800018 v = u at hput hkept
  have hprg (p : Nat) : u.prg p = s.prg p := State.prg_of_lg hput.lg_eq p
  have hds := u.withdrawn_dsOnly y
  have hdropped := u.withdrawn_of_issued (y := y)
  have hsame := u.withdrawn_of_not_issued (y := y)
  simp only [hprg] at hdropped
  rw [xchCancel_ends (hput.lg_eq ▸ hy), hprg]
  generalize u.withdrawn y = w at hds hdropped hsame
  have hend := w.xchEnded_lgEvents y.old (s.prg y.old)
  obtain ⟨hpend, hcause⟩ := w.xchEnded_rd y.old (s.prg y.old)
  refine ⟨congrArg Lg.xch (State.wrote_lg ..), (State.wrote_prg ..).trans (w.xchEnded_prg ..), (State.wrote_rd ..).trans hpend,
    (State.wrote_rd ..).trans hcause, fun hi => ?same, fun hi k x hk hx => ?dropped, ?kept, hend.wrote_ds hds hput ..⟩
  case same => rw [State.wrote_ds, hend.ds_eq, hsame hi, hput.lgEvents.ds_eq]
  case dropped =>
    rw [State.wrote_ds, hend.ds_eq] at hx
    exact hdropped hi hk hx
  case kept =>
    exact ((hkept.trans hds.regsKept (List.forall_mem_nil _)).trans (w.xchEnded_regsKept y.old (s.prg y.old)) fun _ h => h).wrote _ _ _

end

end Sys2Proof.Machine
end

section
/-!
The latch of a program's status (R312), the engine's own steps (R301, R310, R311), and the statement on the engine's commands.
-/
namespace Sys2Proof.Machine

/-! ### A program's status (R11, R312) -/

section
variable {s t : State}

/-- What LG_PST0 to LG_PST3 latch of program `x`, whose counters stand at `a`. -/
def pstWord (x : Prg) (a : Nat) (s : State) (i : Nat) : Nat :=
  match i with
  | 0 => x.seq
  | 1 => pgState x.bytes * 2 ^ 30 + x.kind * 2 ^ 28 + s.word0 (a + 4) % 2 ^ 17
  | i => s.word0 (a + 4 * i)

theorem Loaded.pstWord {base n : Nat} (h : Loaded base n s t) (x : Prg) (a i : Nat) : pstWord x a t i = pstWord x a s i := by
  unfold Machine.pstWord
  split
  · rfl
  · rw [h.word0]
  · exact h.word0 _

theorem lgStIdx_eq {v a : Nat} {x : Prg} {u : State} (hu : u = s.swPut 0x800030 v) (hx : x = u.start.prg (v % 256))
    (ha : a = 0x3600000 + v % 256 * 0x10) : lgStIdx v s =
    (List.range 2).foldl (fun t i => t.put (a + 8 + 4 * i) (u.evWord (a + 8 + 4 * i)))
      ((List.range 4).foldl (fun t i => t.put (0x8000A0 + 4 * i) (pstWord x a u i)) u) := by
  subst hu hx ha
  -- Stated for the local context, so that the kernel takes them as equations and never compares the sums of the status word.
  have hw0 (t : State) (a v b : Nat) : (t.put a v).word0 b = t.word0 b := State.word0_put ..
  have hev (t : State) (a v b : Nat) : (t.put a v).evWord b = t.evWord b := State.evWord_put ..
  unfold lgStIdx
  simp only [hw0, hev]
  rfl

/-- A latch loads the program's status as the cycle found it, and leaves of its counters what the cycle's events have counted. -/
theorem lgStIdx_latches {v a : Nat} {x : Prg} (hx : x = s.start.prg (v % 256)) (ha : a = 0x3600000 + v % 256 * 0x10) :
    EventsOnly s (lgStIdx v s) ∧ (∀ i, i < 4 → (lgStIdx v s).word (0x8000A0 + 4 * i) = pstWord x a s i % 2 ^ 32) ∧
      ∀ i, i < 2 → (lgStIdx v s).word (a + 8 + 4 * i) = s.evWord (a + 8 + 4 * i) := by
  have hidx := s.swPut_loaded 0x800030 v
  have hstart : x = (s.swPut 0x800030 v).start.prg (v % 256) := by
    rw [hx, hidx.frame]
    rfl
  rw [lgStIdx_eq rfl hstart ha]
  generalize s.swPut 0x800030 v = u at hidx
  obtain ⟨hdata, hlatched⟩ := loaded_foldl_put (base := 0x8000A0) (n := 4) (s := u) (w := fun _ i => pstWord x a u i)
    fun _ _ _ _ => rfl
  generalize (List.range 4).foldl (fun t i => t.put (0x8000A0 + 4 * i) (pstWord x a u i)) u = w at hdata hlatched
  obtain ⟨hcount, hleft⟩ := loaded_foldl_put (base := a + 8) (n := 2) (s := w) (w := fun _ i => u.evWord (a + 8 + 4 * i))
    fun _ _ _ _ => rfl
  refine ⟨(hidx.events.trans hdata.events).trans hcount.events, fun i hi => ?_, fun i hi => ?_⟩
  · rw [hcount.kept _ (by omega), hlatched i hi, hidx.pstWord]
  · rw [hleft i hi, hidx.evWord]
    exact Nat.mod_eq_of_lt (BitVec.isLt _)

theorem lgStLatch_answers {req : Requester} {v : Word} {x : Prg} {a : Nat} (hw : s.Writer req) (hdom : s.dom 6 = 1)
    (hx : x = s.start.prg (v.toNat % 256)) (ha : a = 0x3600000 + v.toNat % 256 * 0x10) :
    Answers (exec (.lgStLatch req v) s) (fun t =>
      t.word 0x8000A0 = x.seq % 2 ^ 32 ∧
      t.word 0x8000A4 = (pgState x.bytes * 2 ^ 30 + x.kind * 2 ^ 28 + s.word0 (a + 4) % 2 ^ 17) % 2 ^ 32 ∧
      t.word 0x8000A8 = s.word0 (a + 8) ∧ t.word 0x8000AC = s.word0 (a + 12) ∧
      t.word (a + 8) = s.evWord (a + 8) ∧ t.word (a + 12) = s.evWord (a + 12) ∧ t = s.withAccess t) := by
  obtain ⟨hev, hdata, hcount⟩ := lgStIdx_latches hx ha
  have hword (y : Nat) : s.word0 y % 2 ^ 32 = s.word0 y := Nat.mod_eq_of_lt (BitVec.isLt _)
  refine ⟨_, congrArg Host.Outcome.next (writeReg_stIdx hw hdom v.isLt), ?_⟩
  simp only [State.wrote_word]
  exact ⟨hdata 0 (by decide), hdata 1 (by decide), (hdata 2 (by decide)).trans (hword _), (hdata 3 (by decide)).trans (hword _),
    hcount 0 (by decide), hcount 1 (by decide), hev.wrote ..⟩

end

/-! ### The engine's own steps (R301, R310, R311) -/

section
variable {s : State} (hruns : s.runs 6 = true) (hen : s.on LG_CTRL_EN = true)
include hruns hen

theorem exec_cycleEndSave {x : SaveReq} {rest : List SaveReq} (hrun : s.lg.run = none) (hsaves : s.lg.saves = x :: rest)
    (hcopy : s.copying = false) (hends : s.endsBefore x = false) (hahead : s.copyBefore x = false) :
    exec .cycleEndSave s = .next (saveData (s.saveRun x) { s with lg := { s.lg with saves := rest, run := some (s.saveRun x) } }) := by
  have hexec : exec .cycleEndSave s = execCycleEndSave s := rfl
  rw [hexec, execCycleEndSave, whileOn_runs hruns, hrun, hsaves]
  exact if_neg (by simp [hen, hcopy, hends, hahead])

theorem exec_exchangeCopy {y : Xch} {t : State} {kept len : Nat} (hy : s.lg.xch = some y) (hrests : s.oldRests y = true)
    (hcopy : y.copy = none) (hrun : s.lg.run = none) (hsaves : s.savesAhead y = false) (ht : copyExchange y s = (kept, t))
    (hlen : len = 64 + pgSlotN (s.prg y.old).bytes + 2 * (pgTaskN (s.prg y.old).bytes + pgTaskN (s.prg y.new).bytes) + ceilDiv kept 16) :
    exec .exchangeCopy s =
      .next { t with lg := { t.lg with xch := some { y with copy := some (s.cyc, s.cyc + len - 1), dirty := false } } } := by
  have hexec : exec .exchangeCopy s = execExchangeCopy s := rfl
  rw [hexec, execExchangeCopy, whileOn_runs hruns, hy, hlen]
  dsimp only
  rw [if_neg (by simp [hen, hrests, hcopy, hrun, hsaves]), ht]

/-- In the cycle before the boundary, with the copy ended: it is made again where OLD has run since, or else the task writes issue. -/
theorem exec_exchangeBoundary {y : Xch} {c : Nat × Nat} {t : State} (hy : s.lg.xch = some y) (hc : y.copy = some c) (hended : c.2 < s.cyc)
    (hissued : y.issued = false) (hnext : s.tickNext = true) (hb : s.isBoundary (s.prg y.old).bytes s.dueTick = true)
    (ht : t = (s.putTasks (pgTasks (s.prg y.old).bytes) false).putTasks (pgTasks (s.prg y.new).bytes) true) :
    exec .exchangeBoundary s = .next (if y.dirty then s.withXch (some { y with copy := none, dirty := false, since := none })
      else t.withXch (some { y with issued := true })) := by
  have hexec : exec .exchangeBoundary s = execExchangeBoundary s := rfl
  rw [hexec, execExchangeBoundary, whileOn_runs hruns, hy, ht]
  dsimp only
  rw [hc]
  dsimp only
  rw [if_neg (by simp [hen, hended, hissued, hnext, hb])]
  split <;> rfl

end

/-! ### The statement on the engine's commands -/

/-- Settles O42: the commands on programs, on forces and on the exchange, and the engine's own steps, in the order of the statement. -/
theorem logicCommands : Obligations.LogicCommands := by
  refine ⟨?programs, ?forces, ?exchange, ?save, ?copy, ?boundary⟩
  case programs =>
    intro req p x s hw hdom hp hx
    exact ⟨exec_lgPrgRead hw hdom hp hx, lgPrgWrite_installs hw hdom hp hx, lgPrgWrite_refused hw hdom hp hx,
      lgPrgInvalidate_removes hw hdom hp hx, lgPrgInvalidate_leaves hw hdom hp hx, lgPrgInvalidate_refused hw hdom hp hx⟩
  case forces =>
    intro req e d s hw hdom hstandby he hd
    exact ⟨exec_lgFrcRead hw hdom hstandby he,
      fun pt hok hst hpt => frcSet_answers hw hdom hstandby he hd (frcSetOp_free hok hst hpt),
      fun hok hst => frcSet_answers hw hdom hstandby he hd (frcSetOp_active hok hst),
      frcSet_refused hw hdom hstandby he hd,
      fun hst => frcClear_answers hw hdom hstandby he (frcClearOp_active hst),
      fun hst => frcClear_answers hw hdom hstandby he (frcClearOp_pending hst)⟩
  case exchange =>
    intro req s hw hdom
    exact ⟨fun v o n ho hn => ⟨exchange_pends hw hdom ho hn, exchange_refused hw hdom ho hn⟩,
      fun y hy => lgXchCancel_ends hw hdom hy, fun v x a hx ha => lgStLatch_answers hw hdom hx ha⟩
  case save =>
    exact fun x rest s hruns hen hrun hsaves hcopy hends hahead =>
      ⟨exec_cycleEndSave hruns hen hrun hsaves hcopy hends hahead, rfl⟩
  case copy =>
    exact fun y s t kept len hruns hen hy hrests hcopy hrun hsaves ht hlen =>
      exec_exchangeCopy hruns hen hy hrests hcopy hrun hsaves ht hlen
  case boundary =>
    intro y c s t hruns hen hy hc hended hissued hnext hb ht
    have hexec := exec_exchangeBoundary hruns hen hy hc hended hissued hnext hb ht
    refine ⟨fun hdirty => hexec.trans ?_, fun hclean => hexec.trans ?_⟩
    · rw [if_pos hdirty]
      rfl
    · rw [if_neg (by rw [hclean]; decide)]
      rfl

end Sys2Proof.Machine
end
